-- ==== Sys2Proof/Word.lean ====
section
/-! DEFINITION. Words, bytes and the plainest operations on them: little-endian byte strings and bit
fields, in the numbering of 00_scope.md ("Numbers and units") and R17. -/

namespace Sys2Proof

/-- A byte. -/
abbrev Byte := BitVec 8

/-- A register word (R48: registers are 32 bits). -/
abbrev Word := BitVec 32

/-- A Facet general register (R464: 64 bits). -/
abbrev DWord := BitVec 64

/-- A byte string, lowest offset first. -/
abbrev Bytes := List Byte

/-- Byte `i` of a string; a byte beyond its end is 0. -/
def byteAt (b : Bytes) (i : Nat) : Nat := (b.getD i 0#8).toNat

/-- The `n`-byte little-endian field at offset `off` (R17). -/
def leAt (b : Bytes) (off : Nat) : Nat → Nat
  | 0 => 0
  | n + 1 => byteAt b off + 256 * leAt b (off + 1) n

/-- The `n`-byte big-endian (network order) field at offset `off`. -/
def beAt (b : Bytes) (off : Nat) : Nat → Nat
  | 0 => 0
  | n + 1 => byteAt b off * 256 ^ n + beAt b (off + 1) n

/-- The low `n` bytes of `v`, little-endian (R17). -/
def toLe (v : Nat) : Nat → Bytes
  | 0 => []
  | n + 1 => BitVec.ofNat 8 v :: toLe (v / 256) n

/-- Whether the bytes from `off` up to but not including `off + n` are all zero. -/
def zeroAt (b : Bytes) (off : Nat) : Nat → Bool
  | 0 => true
  | n + 1 => byteAt b off == 0 && zeroAt b (off + 1) n

/-- Bits [msb:lsb] of a number (00_scope.md, bit ranges). -/
def bitsOf (v msb lsb : Nat) : Nat := v / 2 ^ lsb % 2 ^ (msb + 1 - lsb)

/-- Bit `i` of a number. -/
def bitOf (v i : Nat) : Bool := v.testBit i

/-- A Bool as the bit 1 or 0. -/
def b2n (b : Bool) : Nat := if b then 1 else 0

/-- `ceil(a / b)`. -/
def ceilDiv (a b : Nat) : Nat := (a + b - 1) / b

/-- A counter that holds at 0xFFFF_FFFF (the counters of every register block). -/
def satAdd32 (v n : Nat) : Nat := min (v + n) 0xFFFFFFFF

end Sys2Proof
end

