-- ==== Sys2Proof/Machine/Table.lean ====
section
/-! DEFINITION. Finite tables in one canonical form (keys strictly rising, no entry equal to what an unlisted
key reads as) and memory as such a table of bytes. -/

namespace Sys2Proof.Machine

/-- A table from numbers to `α`. What an unlisted key reads as is the reader's `d`. -/
abbrev Tbl (α : Type) := List (Nat × α)

/-- The entry of key `k`, if the table lists one. -/
def tblFind {α : Type} : Tbl α → Nat → Option α
  | [], _ => none
  | (a, v) :: t, k => if a = k then some v else tblFind t k

/-- The value of key `k`; `d` where the table lists none. -/
def tblGet {α : Type} (d : α) (t : Tbl α) (k : Nat) : α := (tblFind t k).getD d

/-- The table without key `k`. -/
def tblDel {α : Type} : Tbl α → Nat → Tbl α
  | [], _ => []
  | (a, v) :: t, k => if a < k then (a, v) :: tblDel t k else if a = k then t else (a, v) :: t

/-- The table with `v` at key `k`, keys kept rising. -/
def tblIns {α : Type} : Tbl α → Nat → α → Tbl α
  | [], k, v => [(k, v)]
  | (a, w) :: t, k, v =>
    if a < k then (a, w) :: tblIns t k v
    else if a = k then (k, v) :: t
    else (k, v) :: (a, w) :: t

/-- The table in which key `k` reads `v`: writing the default removes the entry. -/
def tblPut {α : Type} [DecidableEq α] (d : α) (t : Tbl α) (k : Nat) (v : α) : Tbl α :=
  if v = d then tblDel t k else tblIns t k v

/-- Keys strictly rising, all above `lo` when `lo` is given. -/
def tblSorted {α : Type} : Option Nat → Tbl α → Bool
  | _, [] => true
  | none, (a, _) :: t => tblSorted (some a) t
  | some lo, (a, _) :: t => decide (lo < a) && tblSorted (some a) t

/-- No entry equals the default. -/
def tblNoDefault {α : Type} [DecidableEq α] (d : α) (t : Tbl α) : Bool := t.all fun e => decide (e.2 ≠ d)

/-- The canonical form of a table with default `d`. -/
def tblWf {α : Type} [DecidableEq α] (d : α) (t : Tbl α) : Bool := tblSorted none t && tblNoDefault d t

/-- Memory: the listed bytes, addresses strictly rising, none equal to what an unlisted address reads as. -/
abbrev Memory := List Host.Cell

/-- What a byte that nothing has written reads as: 0 (the spec gives no power-on contents of the on-chip
memories and HBM; log entry 3). DESIGN CHOICE, unsafe. -/
def Memory.unlisted : Byte := 0#8

/-- The canonical form of memory. -/
def Memory.wf (m : Memory) : Bool := tblWf Memory.unlisted m

/-- One byte of memory. -/
def Memory.read (m : Memory) (a : Nat) : Byte := tblGet Memory.unlisted m a

/-- Memory with byte `v` at `a`. -/
def Memory.write (m : Memory) (a : Nat) (v : Byte) : Memory := tblPut Memory.unlisted m a v

/-- The `n` bytes from `a`. -/
def Memory.readN (m : Memory) (a : Nat) : Nat → Bytes
  | 0 => []
  | n + 1 => m.read a :: m.readN (a + 1) n

/-- Memory with the bytes `b` stored from `a`. -/
def Memory.writeN (m : Memory) (a : Nat) : Bytes → Memory
  | [] => m
  | v :: b => (m.write a v).writeN (a + 1) b

/-- The `n`-byte little-endian number at `a` (R17). -/
def Memory.readLe (m : Memory) (a n : Nat) : Nat := leAt (m.readN a n) 0 n

/-- Memory with the low `n` bytes of `v` at `a`, little-endian (R17). -/
def Memory.writeLe (m : Memory) (a n v : Nat) : Memory := m.writeN a (toLe v n)

/-- Memory without any byte listed from `lo` up to but not including `hi`: a memory that lost its contents. -/
def Memory.lose (m : Memory) (lo hi : Nat) : Memory := m.filter fun c => decide (c.1 < lo ∨ hi ≤ c.1)

/-- Update the first element that `p` picks. -/
def updFirst {α : Type} (p : α → Bool) (f : α → α) : List α → List α
  | [] => []
  | x :: l => if p x then f x :: l else x :: updFirst p f l

/-- Remove the first element that `p` picks. -/
def rmFirst {α : Type} (p : α → Bool) : List α → List α
  | [] => []
  | x :: l => if p x then l else x :: rmFirst p l

/-- The list with entry `i` replaced (unchanged beyond its end). -/
def setAt {α : Type} : List α → Nat → α → List α
  | [], _, _ => []
  | _ :: l, 0, v => v :: l
  | x :: l, i + 1, v => x :: setAt l i v

end Sys2Proof.Machine
end

