-- ==== Sys2Proof/Config.lean ====
section
/-! DEFINITION. What one part fixes (the variant and its fused values, R3 to R8), and the free values: constants
without a body, of which nothing can be proved (each is named in the assumption log). -/

namespace Sys2Proof

/-- The three variants (R1, R3). -/
inductive Variant where
  | kn4896 | kn4864 | kn4848
deriving DecidableEq, Repr

namespace Config

/-- SYS_CAP0 to SYS_CAP3 on production parts (R5 to R8). -/
def cap : Variant → Nat → Nat
  | .kn4896, 0 => 0x30200430 | .kn4864, 0 => 0x20100420 | .kn4848, 0 => 0x18080418
  | .kn4896, 1 => 0x00180978 | .kn4864, 1 => 0x000404D4 | .kn4848, 1 => 0x000404C2
  | .kn4896, 2 => 0x000830D2 | .kn4864, 2 => 0x00081891 | .kn4848, 2 => 0x00081870
  | .kn4896, 3 => 0x00024896 | .kn4864, 3 => 0x00024864 | .kn4848, 3 => 0x00024848
  | _, _ => 0

/-- Drive slots present (R5). -/
def slots (v : Variant) : Nat := bitsOf (cap v 0) 31 24
/-- Network lanes present (R5). -/
def netLanes (v : Variant) : Nat := bitsOf (cap v 0) 23 16
/-- Engines present in each cluster (R3). -/
def enginesPerCluster : Variant → Nat
  | .kn4896 => 12 | .kn4864 => 8 | .kn4848 => 6
/-- 400GbE MACs present (R6). -/
def macs (v : Variant) : Nat := bitsOf (cap v 1) 3 0
/-- Endpoint present (R6). -/
def endpoint (v : Variant) : Bool := bitOf (cap v 1) 4
/-- Cipher lanes present (R6). -/
def cipher (v : Variant) : Bool := bitOf (cap v 1) 5
/-- HBM stacks (R6). -/
def hbmStacks (v : Variant) : Nat := bitsOf (cap v 1) 8 7
/-- Largest parity count m (R6). -/
def maxM (v : Variant) : Nat := bitsOf (cap v 1) 11 9
/-- Programmable counters of an engine (R6). -/
def pmcProg (v : Variant) : Nat := bitsOf (cap v 1) 19 16
/-- Random instruction tagging (R6). -/
def tagging (v : Variant) : Bool := bitOf (cap v 1) 20
/-- QP_LOG2 (R7). -/
def qpLog2 (v : Variant) : Nat := bitsOf (cap v 2) 4 0
/-- Drive clusters present (R7). -/
def driveClusters (v : Variant) : Nat := bitsOf (cap v 2) 7 5
/-- HBM capacity in bytes (R7). -/
def hbmBytes (v : Variant) : Nat := bitsOf (cap v 2) 15 8 * 2 ^ 30

/-- Engine `e` (0 to 47) is present: its index in its cluster is below the cluster's count (R24, R27). -/
def enginePresent (v : Variant) (e : Nat) : Bool := decide (e < 48 ∧ e % 12 < enginesPerCluster v)

/-- An island FUSED in the variant (R27). -/
def fused (v : Variant) (i : Nat) : Bool :=
  if i < 32 then decide (netLanes v ≤ i)
  else if i < 80 then decide (slots v ≤ i - 32)
  else if i < 88 then false
  else if i < 96 then !endpoint v
  else if i < 144 then !enginePresent v (i - 96)
  else if i = 149 then decide (hbmStacks v < 2)
  else if i = 158 ∨ i = 159 then !cipher v
  else false

/-- The steward of an island (R26). -/
def steward (i : Nat) : Nat :=
  if i < 16 then 1 else if i < 32 then 2 else if i < 56 then 4 else if i < 80 then 5
  else if i < 88 then 0 else if i < 96 then 3 else if i < 120 then 6 else if i < 144 then 7
  else if i < 150 then 3 else if i < 154 then 4 else if i < 158 then 5
  else if i = 158 then 1 else if i = 159 then 2 else 0

/-- The KIND code of an island (R25, R31). -/
def islandKind (i : Nat) : Nat :=
  if i < 32 then 0 else if i < 80 then 1 else if i < 88 then 2 else if i < 96 then 3
  else if i < 144 then 4 else if i < 148 then 5 else if i < 150 then 6 else if i < 158 then 7
  else if i < 160 then 8 else i - 151

/-- A port of the crossbar whose unit is present (R12, R23). -/
def portPresent (v : Variant) (p : Nat) : Bool :=
  if p < 8 then decide (p < macs v)
  else if p < 14 then decide (p - 8 < driveClusters v)
  else if p = 14 then endpoint v
  else if p = 26 ∨ p = 27 then hbmStacks v = 2
  else decide (p < 34)

/-! ### Free values: nothing can be proved of what they are -/

/-- The PSN with which the controller starts a RoCEv2 connection, by draw (R276; log entry 25). -/
opaque startPsn : Nat → Nat

/-- NVMe-oF properties CAP and VS, by offset (R276; log entry 26). -/
opaque nvmeProperty : Nat → Nat

/-- NVMe-oF Identify data after the fields the spec names, by CNS and namespace (R279; log entry 26). -/
opaque nvmeIdentify : Nat → Nat → List Byte

/-- The part's device key, 256 bits, fused and unique to it (R387; log entry 27). -/
opaque deviceKey : List Byte

/-- The part's 64-bit serial number, as fused (R339, R387; log entry 27). -/
opaque serial : Nat

/-- The status of a write past its issue point part of whose data never came, by order number (R94; log entry 90). -/
opaque cutStatus : Nat → Nat

/-- The staging key of the endpoint lane, 64 bytes, by draw: drawn at random (R410; log entry 28). -/
opaque stagingKey : Nat → List Byte

/-- The SEED of a new group, 64 bits, by draw: chosen at random (R158; log entry 28). -/
opaque groupSeed : Nat → Nat

/-- The HBM stack, 0 or 1, that holds a physical address (R40; log entry 42): the spec does not say how addresses map to
stacks. -/
opaque hbmStack : Nat → Nat

/-- The six 8-byte arguments of a trace record, by draw (R691; log entry 48): the spec does not say what they are. -/
opaque traceArgs : Nat → List Byte

/-- A frame the controller sends, by draw: its length with FCS and its first bytes (R367 to R369; log entry 36): the
spec does not give every header field of it. -/
opaque sentFrame : Nat → Nat × List Byte

/-- The entry a full cache set or TLB gives up, by draw (R419, R512; log entry 53): the spec names no replacement rule. -/
opaque victim : Nat → Nat

/-- Instructions between tags, by draw (R456; log entry 54): drawn uniformly at random. -/
opaque tagDraw : Nat → Nat

/-- TINFO of a trap whose TINFO the spec does not state, by draw (R436; log entry 58). -/
opaque trapInfo : Nat → BitVec 64

/-- The bytes of an image slot of the boot flash that nothing has written since manufacture, by slot (R656; log entry
63): the spec does not say what they are. -/
opaque factoryImage : Nat → List Byte

/-- The two image-key hashes fused in the part, by index (R659; log entry 63). -/
opaque imageKeyHash : Nat → List Byte

/-- SVN_FLOOR as fused (R659, R681; log entry 63). -/
opaque svnFloor : Nat

/-- CODE of SYS_AVS as fused (R703, R704; log entry 63). -/
opaque avsCode : Nat

/-- VENDOR of EPF_IDS as fused (R342; log entry 63): the spec does not give the identifier. -/
opaque vendorId : Nat

/-- The key under which CHECK of the identity block is made, derived inside the part from its device key (R656; log entry
63): the spec does not say how. -/
opaque flashKey : List Byte

/-- CHECK of the identity block as written at manufacture (R656; log entry 63). -/
opaque flashCheck : List Byte

/-- What start-up writes to XBR_OVF_BASE (0), MMU_KEY_BASE (1) and SHD_REP_BASE (2) (R667; log entry 64): the spec does
not say which addresses. -/
opaque bootBase : Nat → Nat

/-- The PC with which the resident program starts a thread, by 16 × engine + thread (R667; log entry 64). -/
opaque startPc : Nat → BitVec 64

/-- The payload of the configuration record with SEQ `n`, where the spec does not state its layout (R661; log entry 116). -/
opaque recordPayload : Nat → List Byte

/-- A byte whose value the spec does not state, by draw and place (log entry 55). -/
opaque freeByte : Nat → Nat → Byte

end Config

/-- `n` bytes that the spec does not state, of one draw (log entry 55). -/
def freeBytes (draw n : Nat) : List Byte := (List.range n).map (Config.freeByte draw)

end Sys2Proof
end

