-- ==== Sys2Proof/Syntax/Types.lean ====
section
/-! DEFINITION. The operand types of the commands: who asks, and the facts of a frame, a message, a TLP or a
drive that a command carries in. -/

namespace Sys2Proof

/-- A requester of the register fabric (15, first paragraph): a Basalt core, a Facet thread or JTAG. -/
inductive Requester where
  | basalt (core : Nat)
  | thread (e t : Nat)
  | jtag
deriving DecidableEq, Repr

/-- What the identification of a drive reports (R109, R136, R138, R667): blocks of namespace 1, the metadata bytes of a
block, whether it is formatted with 4,096 data bytes, Force Unit Access on Write, the power-fail atomic unit in blocks, and
whether deallocated blocks read as zero. -/
structure DriveId where
  blocks : Nat := 0
  metaBytes : Nat := 0
  data4096 : Bool := false
  fua : Bool := false
  pfau : Nat := 0
  deallocZero : Bool := false
deriving DecidableEq, Repr

/-- A member label (R111). -/
structure DriveLabel where
  group : Nat
  erasure : Bool
  width : Nat
  m : Nat
  spare : Nat
  format1 : Bool
  awu : Nat
  clean : Bool
  bitmap : Bool
  seed : Nat
  slots : Nat
  local_ : Nat
  lgen : Nat
  periods : Nat
deriving DecidableEq, Repr

/-- What a received Ethernet frame carries (R262 to R264, R268, R270): the named kinds, and for the two personalities
the connection its packet belongs to. -/
inductive FrameKind where
  | globalPause | arp | icmp | lldp
  | ptp (event : Bool)
  | odt (conn : Nat)
  | roce (conn : Nat)
  | cnp
  | other
deriving DecidableEq, Repr

/-- The destination of a frame: an IP address, a MAC address, or the group address of its own protocol. -/
inductive FrameDst where
  | ip (v6 : Bool) (addr : Nat)
  | mac (addr : Nat)
  | group
deriving DecidableEq, Repr

/-- The facts of a received frame that the checks of R263 look at, and its first bytes. -/
structure Frame where
  kind : FrameKind
  dst : FrameDst
  fcsOk : Bool := true
  /-- Length with FCS. -/
  bytes : Nat := 64
  vlanTags : Nat := 0
  /-- An IPv4 option, a fragment, a bad header checksum, TTL 0, or an IPv6 extension header. -/
  ipBad : Bool := false
  ipLen : Nat := 20
  udpBad : Bool := false
  /-- An ODT or RoCEv2 packet that its personality's checks fail before a message of it is known: ICRC, opcode. -/
  persBad : Bool := false
  ce : Bool := false
  dscp : Nat := 0
  hdr : List Byte := []
deriving DecidableEq, Repr

/-- The header of a received ODT message with the addresses it came from (R285, R288). -/
structure OdtHdr where
  mac : Nat
  sub : Nat
  addr : Nat
  port : Nat
  conn : Nat
  tenant : Nat
  qpn : Nat
  seq : Nat
  ack : Nat := 0xFFFFFFFF
  flags : Nat := 0
  arg : Nat := 0
  arg2 : Nat := 0
  version : Nat := 1
  /-- PLEN agrees with the UDP length. -/
  plenOk : Bool := true
  /-- The DSCP of its packet (R265). -/
  dscp : Nat := 0
deriving DecidableEq, Repr

/-- A CM REQ (R276, R277). -/
structure CmReq where
  mac : Nat
  sub : Nat
  family : Nat
  host : Nat
  /-- Reliable Connected service. -/
  rc : Bool := true
  service : Nat := 4420
  mtu : Nat := 1024
  qpn : Nat := 0
  psn : Nat := 0
deriving DecidableEq, Repr

/-- What a host's RoCEv2 acknowledgement says (R284): ACK, RNR NAK with its timer in ns, NAK PSN sequence error, or
another NAK. -/
inductive RoceAckKind where
  | ack
  | rnr (ns : Nat)
  | sequence
  | error
deriving DecidableEq, Repr

/-- What permits an MSI-X message again (R331): a vector unmasked, MSI-X Enable set with Function Mask cleared, or Bus
Master Enable set (with Memory Space Enable as written). -/
inductive MsixPermit where
  | vector (v : Nat)
  | control
  | command (mse : Bool)
deriving DecidableEq, Repr

/-- What a BULK transfer of the Mirror link carries (R550): an extension image or a signer by slot, wrapped KEKs by
index, a piece of a firmware image by slot and offset (R674), or the fatal-state image. -/
inductive BulkKind where
  | image (slot : Nat)
  | signer (slot : Nat)
  | kek (index : Nat)
  | firmware (slot off : Nat)
  /-- The peer's boot pointer is to name `slot` with TRIAL `trial` (R675, R676). -/
  | pointer (slot trial : Nat)
  | fatal
deriving DecidableEq, Repr

/-- The codes under which a BULK frame names what it carries (log entry 49). -/
def BulkKind.code : BulkKind → List Nat
  | .image i => [0, i]
  | .signer i => [1, i]
  | .kek i => [2, i]
  | .firmware i o => [4, i, o]
  | .pointer i t => [5, i, t]
  | .fatal => [3, 0]

/-- The guard of a Facet instruction word (R465): N and P. -/
structure Guard where
  neg : Bool := false
  p : Fin 8 := 0
deriving DecidableEq, Repr

/-- A Class 0 pre-emption that frees a port an instruction holds (R533): the reserved thread that needs the port, and what
had been done past the commit point: bytes of the message written, or lines done; none before it. -/
structure Cut where
  by_ : Nat
  progress : Option Nat := none
deriving DecidableEq, Repr

/-- The site of an ECC error (R685 to R687), with what the error hits there: a single-bit error anywhere (`hbm` says in which
memory), lines, entries, threads, blocks of commands, or a control structure by its island. -/
inductive MemSite where
  | corrected (hbm : Bool)
  | instrLine (e line : Nat)
  | engineTlb (e vpage : Nat)
  | clusterTlb (c vpage : Nat)
  | cleanLine (e line : Nat)
  | dirtyLine (e t : Nat)
  | scratch (e t : Nat)
  | inbox (e t : Nat)
  | sharedSram (e t : Nat)
  | readCell (qp cid block pos : Nat) (hbm : Bool)
  | writeCell (qp cid block : Nat) (hbm : Bool)
  | prismRing (point : Nat)
  | pmcRing
  | fatalRegion
  | control (isl addr : Nat)
  | replicated (addr : Nat)
  | contextCache (addr : Nat)
deriving DecidableEq, Repr

/-- The PLLs that SYS watches (R683): the 156.25 MHz network reference, and 100 MHz references A and B. -/
inductive PllRef where
  | network | endpoint | drives
deriving DecidableEq, Repr

/-- The roles of a controller (R544). -/
inductive Role where
  | solo | pairing | active | shadow | takingOver | fenced
deriving DecidableEq, Repr

/-- The ROLE codes of R544. -/
def Role.code : Role → Nat
  | .solo => 0 | .pairing => 1 | .active => 2 | .shadow => 3 | .takingOver => 4 | .fenced => 5

end Sys2Proof
end

