-- ==== Sys2Proof/Machine/StateCph.lean ====
section
/-! DEFINITION. The state of the cipher lanes and tenant keys (09). Every default value is the value at a COLD
reset. -/

namespace Sys2Proof.Machine

/-- A tenant key slot in use (R387, R396 to R400). -/
structure KeySlot where
  volume : Nat
  /-- Its phase (R384). -/
  phase : Nat
  /-- ALG: AES-256-XTS (R415). -/
  xts : Bool
  kek : Nat
  /-- The key in clear, as the key stores hold it (R389), and the wrapped copy (R390). -/
  key : Bytes
  wrapped : Bytes
  limit : Nat
  /-- COUNT: generations issued (R396). -/
  count : Nat := 0
  /-- MARK in force (R397). -/
  mark : Nat := 0
  /-- A raised MARK on its way to flash and to the peer (R397). -/
  markNext : Option Nat := none
  /-- The copy whose acknowledgement with FLASH the raised MARK waits for (R397, R555); none while not cut. -/
  markCopy : Option Nat := none
  /-- The CPH event of R399 has been raised. -/
  warned : Bool := false
deriving DecidableEq, Repr

/-- A rekey walk (R400 to R403): the old and the new key slot, and the place of its cursor. -/
structure Walk where
  old : Nat
  new : Nat
  /-- LOAD_KEY waits for the walk to begin (R400): its order number. -/
  starting : Option Nat := none
  /-- The walk has begun (R400). -/
  begun : Bool := false
  /-- Cursor: index of the region in the volume's ascending regions, and stripe within it (R401). -/
  region : Nat := 0
  stripe : Nat := 0
deriving DecidableEq, Repr

/-- A cipher lane (R380, R406, R407): its pipelines 0 to 7 that carry a message, with its class and the cycle it ends; the
messages suspended, with the cycles they still need, earliest first; the classes of the new messages that wait. -/
structure Lane where
  pipes : Tbl (Nat × Nat) := []
  suspended : List (Nat × Nat) := []
  waiting : List Nat := []
deriving DecidableEq, Repr

/-- The cipher side beside its registers. -/
structure Cph where
  /-- KEKs in clear by index (R387). -/
  keks : Tbl Bytes := []
  /-- Wrapped KEKs by index: the buffer of LOAD_KEK with the blobs of both controllers (R390, R392). -/
  kekWrapped : Tbl Bytes := []
  /-- Tenant key slots by number (R387). -/
  slots : Tbl KeySlot := []
  /-- The cipher groups whose key store is loaded: bit 0 group 0, bit 1 group 1 (R391). -/
  stores : List Bool := [false, false]
  /-- The phase new writes of a volume take, by volume (R400). -/
  phase : Tbl Nat := []
  /-- Rekey walks by volume (R401). -/
  walks : Tbl Walk := []
  /-- The draw of the staging key (R410); none before island 159 has left OFF. -/
  stage : Option Nat := none
  /-- Lanes 0 to 8 (R379), by number. -/
  lanes : Tbl Lane := []
  /-- Bytes each member has carried for rekey walks in this millisecond, by slot (R401). -/
  paced : Tbl Nat := []
deriving DecidableEq, Repr

end Sys2Proof.Machine
end

