-- ==== Sys2Proof/Machine/StateFct.lean ====
section
/-! DEFINITION. The state of the Facet engines, hooks, translation and DMA (10, 11, 12). Every default value is the
value at a COLD reset. -/

namespace Sys2Proof.Machine

/-- A hook attachment (R439, R452). -/
structure Attachment where
  image : Nat
  hook : Nat
  /-- KIND: 0 tenant, 1 queue pair, 2 ODT connection. -/
  kind : Nat
  failAction : Nat
  budget : Nat
  period : Nat
  tenant : Nat
  target : Nat
  /-- SUSPENDED (R446). -/
  suspended : Bool := false
  /-- Gnomon ns of its failures within the last second (R446). -/
  fails : List Nat := []
  /-- DETACH_HOOK accepted: the command (its order number) that waits for the running invocations (R447). -/
  detach : Option Nat := none
  /-- The cycle at which its next TENANT_POLICY invocation is due (R439). -/
  due : Nat := 0
deriving DecidableEq, Repr

/-- An invocation waiting or running (R444): attachment, engine, the command concerned (by its order number; none for
TENANT_POLICY), its input page, and the thread it runs on. -/
structure Invocation where
  att : Nat
  engine : Nat
  cmd : Option Nat
  input : Bytes
  thread : Option Nat := none
  retired : Nat := 0
  /-- The command has gone: the result is discarded (R447). -/
  discard : Bool := false
deriving DecidableEq, Repr

/-- A mailbox message (R431): its 128 bytes; of a hardware message, the command it is about, by its order number. -/
structure Message where
  bytes : Bytes
  cmd : Option Nat := none
deriving DecidableEq, Repr

/-- The states of a thread (R425). -/
inductive ThrState where
  | halted | ready | blocked | waiting | preempted
deriving DecidableEq, Repr

/-- The STATE codes of R425. -/
def ThrState.code : ThrState → Nat
  | .halted => 0 | .ready => 1 | .blocked => 2 | .waiting => 3 | .preempted => 4

/-- A register access of a BLOCKED thread (R425, R614): the register its load writes, how the value is extended, whether
it is a store, and its address as the thread gave it. -/
structure RegAccess where
  rd : Nat
  signed : Bool
  store : Bool
  va : Nat
deriving DecidableEq, Repr

/-- The WAIT a thread is in (R492): the register it writes, its mask, and the cycle it began. -/
structure Waiting where
  rd : Nat
  mask : BitVec 16
  since : Nat
deriving DecidableEq, Repr

/-- A Facet thread (R417 to R438, R464, R496). -/
structure Thread where
  /-- Thread state, 3 bits (R425, R426); reset HALTED. -/
  state : ThrState := .halted
  /-- U mode, 1 bit (R428); reset K: DESIGN CHOICE (log entry 52). -/
  umode : Bool := false
  /-- PC, 64 bits (R476); reset 0: DESIGN CHOICE (log entry 52). -/
  pc : DWord := 0#64
  /-- g1 to g31, 64 bits each, by number; an unlisted one is 0 (R464); reset 0: DESIGN CHOICE (log entry 52). -/
  g : Tbl DWord := []
  /-- p0 to p7, 1 bit each, bit i for pi, as PREDS holds them (R464, R496); reset 0x01. -/
  preds : BitVec 8 := 1#8
  /-- CSRs 0x40 and 0x80 to 0x8F, 64 bits each, by number; an unlisted one holds its reset value: TIMER all ones, every
  other 0 (R496). -/
  csr : Tbl DWord := []
  /-- The inbox, at most 16 messages, oldest first (R431); reset none. -/
  inbox : List Message := []
  /-- Latched events, in the places of R433: DMA, ACC and SIGNAL; reset 0. -/
  latched : BitVec 16 := 0#16
  /-- Pending DMA_FAULTs, oldest first: the TINFO of each (R529); reset none. -/
  faults : List DWord := []
  /-- It executed YIELD and no other thread of its issue group has issued since (R493); reset false. -/
  yielded : Bool := false
  /-- The WAIT it is in (R492); reset none. -/
  wait : Option Waiting := none
  /-- The register access that blocks it (R614); reset none. -/
  access : Option RegAccess := none
  /-- HOOK_RETURN has been sent: it halts when its DMADs and ACCs have ended (R482); reset false. -/
  halting : Bool := false
  /-- The reserved thread for which it is PREEMPTED (R534); reset none. -/
  by_ : Option Nat := none
  /-- It resumes with the record of R535 to be read back; reset false. -/
  resume : Bool := false
  /-- Skid samples to be written at its next instruction (R456); reset 0. -/
  skid : Nat := 0
  /-- Its instruction is tagged (R456); reset false. -/
  tagged : Bool := false
  /-- EVENTS and DADDR of the instruction in progress (R457); reset 0. -/
  met : Nat := 0
  daddr : Nat := 0
deriving DecidableEq, Repr

/-- A line of a data cache (R419, R420). -/
structure CacheLine where
  bytes : Bytes
  dirty : Bool := false
deriving DecidableEq, Repr

/-- A TLB entry (R508, R512): virtual and physical page, level of its leaf (1, 2, 3), ASID, and the leaf's bits. -/
structure TlbEntry where
  vpage : Nat
  ppage : Nat
  level : Nat
  asid : Nat
  flags : Nat
deriving DecidableEq, Repr

/-- What an engine holds beside its threads (R418, R419, R424, R456, R512). -/
structure Engine where
  /-- The cycle its island last left OFF, from which CYCLE counts (R454). -/
  since : Nat := 0
  /-- Data-cache lines by physical address / 64, at most 8 in each of 64 sets (R419); reset none. -/
  dcache : Tbl CacheLine := []
  /-- Instruction-cache lines by physical address / 64, at most 4 in each of 256 sets (R419); reset none. -/
  icache : Tbl Unit := []
  /-- The engine TLB, at most 64 entries (R512); reset none. -/
  tlb : List TlbEntry := []
  /-- The thread of 0 to 13, and of 14 and 15, that issued last (R424); reset 13 and 15: DESIGN CHOICE (log entry 52). -/
  lastLow : Nat := 13
  lastHigh : Nat := 15
  /-- Instructions still to issue before the next is tagged (R456); reset none drawn. -/
  tagIn : Option Nat := none
deriving DecidableEq, Repr

/-- An accelerator request pending (R361, R487, R488). -/
structure AccReq where
  engine : Nat
  thread : Nat
  /-- C0: the Class 0 line (R363). -/
  c0 : Bool
  /-- FUNC (R489). -/
  func : Nat
  /-- The request's bytes as read at issue. -/
  req : Bytes
  /-- Physical ranges of its source data and of its result, in order: address and length. -/
  src : List (Nat × Nat)
  res : List (Nat × Nat)
  /-- The cycle it was issued. -/
  since : Nat
  /-- Its data phase was granted (R362). -/
  granted : Bool := false
  /-- The slice of an EC request, once it holds a context (R168). -/
  slice : Option (Nat × Bool) := none
deriving DecidableEq, Repr

/-- A cluster: its cluster TLB, queues and accelerator bus (R361 to R365, R430 to R432, R512). -/
structure Cluster where
  /-- The cluster TLB, at most 2,048 entries (R512); reset none. -/
  tlb : List TlbEntry := []
  /-- Cluster queues 0 to 63, at most 256 messages each, oldest first (R431); reset none. -/
  queues : Tbl (List Message) := []
  /-- Hardware messages that wait on the command fabric, with their local mailbox number, oldest first (R432, R483);
  reset none. -/
  held : List (Nat × Message) := []
  /-- Requests pending, oldest first (R487); reset none. -/
  acc : List AccReq := []
  /-- The arbiter's Class 0 pointer and its other pointer (R363); reset 0: DESIGN CHOICE (log entry 52). -/
  ptr0 : Nat := 0
  ptr : Nat := 0
  /-- The engine index on which the grant is parked (R364); reset none. -/
  park : Option Nat := none
deriving DecidableEq, Repr

/-- A side of a descriptor (R485, R526, R530). -/
inductive DescSide where
  | zero
  | virt (va : Nat)
  | phys (pa : Nat)
  | key (mkey a : Nat)
  | stream (handle off : Nat)
deriving DecidableEq, Repr

/-- A chunk of a descriptor that has been started (R524, R525): its offset and length, and the physical addresses of its
memory sides. -/
structure Chunk where
  off : Nat
  n : Nat
  src : Nat := 0
  dst : Nat := 0
deriving DecidableEq, Repr

/-- A DMA descriptor outstanding (R484, R524). -/
structure Desc where
  engine : Nat
  thread : Nat
  /-- Its virtual address as given at issue, and its physical address. -/
  va : Nat
  pa : Nat
  c0 : Bool := false
  src : DescSide := .zero
  dst : DescSide := .zero
  chunks : List Chunk := []
  /-- DONE and STATUS with which it ends once every started chunk has ended, and the TINFO bits of a FAULT (R527,
  R529). -/
  done : Nat := 0
  status : Nat := 1
  fault : Nat := 0
  /-- Keys it holds (R519). -/
  keys : List Nat := []
  /-- Source bytes that have arrived from a face, by offset from the first chunk. -/
  segs : Tbl Bytes := []
  /-- A face has cut it short (R527). -/
  failed : Bool := false
deriving DecidableEq, Repr

/-- A cell stream (R530): its cluster, whether it is Class 0, its length, the command it belongs to, and its bytes. -/
structure Stream where
  cluster : Nat
  c0 : Bool
  len : Nat
  cmd : Option Nat
  bytes : Bytes
deriving DecidableEq, Repr

/-- A TLB invalidation queued (R542): SCOPE, CLUSTERS, ASID, VA. -/
structure Invalidation where
  scope : Nat
  clusters : Nat
  asid : Nat
  va : Nat
deriving DecidableEq, Repr

/-- The Facet side beside its registers. -/
structure Fct where
  /-- Threads: key 16 * engine + thread (R417); an unlisted one is HALTED with zeros. -/
  threads : Tbl Thread := []
  /-- Engines (R417). -/
  engines : Tbl Engine := []
  /-- Clusters 0 to 3. -/
  clusters : Tbl Cluster := []
  /-- DMA descriptors outstanding, by the order of their issue (R484); reset none. -/
  descs : Tbl Desc := []
  nextDesc : Nat := 0
  /-- Cell streams live, by handle (R530); reset none. -/
  streams : Tbl Stream := []
  nextStream : Nat := 1
  /-- TLB invalidations queued, oldest first, at most 8 (R542); reset none. -/
  invals : List Invalidation := []
  /-- Attachments by identifier, at most 4,096 (R452). -/
  atts : Tbl Attachment := []
  /-- Invocations waiting or running, in arrival order (R444). -/
  invs : List Invocation := []
  /-- Device-pool allocations: physical address and length (R522); reset none. -/
  devPool : Tbl Nat := []
  /-- Loaded extension images by image slot, 0 to 63 (R448, R451); reset none. -/
  images : Tbl Bytes := []
  /-- Enrolled signer keys, 97 bytes each, by slot 0 to 3 (R449); reset none. -/
  signers : Tbl Bytes := []
deriving DecidableEq, Repr

end Sys2Proof.Machine
end

