-- ==== Sys2Proof/Machine/StateNet.lean ====
section
/-! DEFINITION. The state of the network face (06). Every default value is the value at a COLD reset. -/

namespace Sys2Proof.Machine

/-- One priority of one MAC (R266, R267). -/
structure Pfc where
  /-- Paused by a received frame until this cycle (R266). -/
  until_ : Option Nat := none
  /-- The cycle from which the partner has held it paused without a break (R267). -/
  since : Option Nat := none
  /-- The watchdog tripped: PFC is ignored (R267). -/
  ignoring : Bool := false
  /-- The last PFC frame received for it (R267). -/
  lastRx : Nat := 0
  /-- XOFF has been sent and not ended (R266). -/
  xoff : Bool := false
  /-- The last XOFF frame sent (R266). -/
  xoffAt : Nat := 0
deriving DecidableEq, Repr

/-- A service IP address with its prefix length (R271). -/
structure IpAddr where
  addr : Nat
  pfx : Nat
deriving DecidableEq, Repr

/-- The service addresses of a sub-port (R271). -/
structure SubAddr where
  mac : Option Nat := none
  v4 : Tbl IpAddr := []
  v6 : Tbl IpAddr := []
  gw4 : Option Nat := none
  gw6 : Option Nat := none
deriving DecidableEq, Repr

/-- An ODT message the controller sends (R286). -/
inductive OdtOut where
  | receipt (tail limit : Nat)
  | fetchReq (slot n : Nat)
  | dataPull (tag len mkey addr : Nat)
  | data (mkey addr : Nat) (bytes : Bytes)
  | completion (slot : Nat) (entry : Bytes)
  | credit (limit : Nat)
  | keepalive (next : Nat)
deriving DecidableEq, Repr

/-- A sequenced message sent and not yet acknowledged (R299), with the class whose priority it takes (R265). -/
structure OdtSent where
  seq : Nat
  cls : Nat := 0
  qpn : Nat
  flags : Nat
  msg : OdtOut
  at_ : Nat
  tries : Nat := 0
deriving DecidableEq, Repr

/-- A ring fetch or a data pull outstanding on a connection (R296, R298): its request's SEQ, when that was
acknowledged, and for a pull its queue pair, CID, length. -/
structure OdtAsk where
  seq : Nat
  qp : Nat
  ackedAt : Option Nat := none
  /-- First slot and count of a fetch. -/
  slots : Option (Nat × Nat) := none
  /-- Tag, command (by its order number) and length of a pull. -/
  tag : Nat := 0
  cmd : Nat := 0
  len : Nat := 0
  /-- The DMA descriptor that a pull serves, in place of a command (R517). -/
  desc : Option Nat := none
  /-- Base offset within the command's buffer and the key and address asked for. -/
  base : Nat := 0
  mkey : Nat := 0
  addr : Nat := 0
deriving DecidableEq, Repr

/-- Connection states (R300). -/
inductive OdtState where
  | closed | opening | established | suspect | failed
deriving DecidableEq, Repr

/-- The codes of R300. -/
def OdtState.code : OdtState → Nat
  | .closed => 0 | .opening => 1 | .established => 2 | .suspect => 3 | .failed => 4

/-- An ODT connection (R285 to R303). -/
structure OdtConn where
  /-- STATE (R300); reset CLOSED. -/
  state : OdtState := .closed
  mac : Nat := 0
  sub : Nat := 0
  family : Nat := 4
  /-- SEG in bytes (R304). -/
  seg : Nat := 1024
  rport : Nat := 0
  raddr : Nat := 0
  /-- DB_WIN (R304). -/
  dbWin : Nat := 1
  tenant : Nat := 0
  /-- Host cell credit limit (R295). -/
  credit : Nat := 0
  /-- Cells sent (R295). -/
  cells : Nat := 0
  /-- Last in-order SEQ received (R289); 0xFFFF_FFFF before the first. -/
  hseq : Nat := 0xFFFFFFFF
  /-- Next SEQ the controller sends (R289). -/
  dseq : Nat := 0
  /-- Flags first given in the RECEIPT of the last 256 SEQs (R291), by SEQ. -/
  given : Tbl Nat := []
  /-- The last SEQ whose effect the shadow has acknowledged (R292). -/
  safe : Nat := 0xFFFFFFFF
  /-- hseq as the last cut copy carries it, with the copy's number (R292). -/
  carried : List (Nat × Nat) := []
  /-- Sequenced messages not yet acknowledged, oldest first (R299). -/
  sent : List OdtSent := []
  /-- Fetches and pulls outstanding (R296). -/
  asks : List OdtAsk := []
  nextTag : Nat := 0
  /-- ECE owed (R268). -/
  ece : Bool := false
  lastRx : Nat := 0
  lastTx : Nat := 0
  /-- The cycle it entered its state (R300). -/
  since : Nat := 0
  /-- A takeover has not yet recovered it (R569). -/
  recover : Bool := false
deriving DecidableEq, Repr

/-- What a RoCEv2 request of the controller carries (R276), each with the class whose priority it takes (R265): an RDMA READ
for a command's data, for a DMA descriptor, for a Dataset Management range, one packet of an RDMA WRITE, a response capsule. -/
inductive RoceReq where
  | readPull (cls seq va rkey len : Nat)
  | readDesc (cls id va rkey len : Nat)
  | readRange (cls cid : Nat)
  | write (cls va rkey : Nat) (bytes : Bytes)
  | response (cls : Nat) (capsule : Bytes)
deriving DecidableEq, Repr

/-- A request sent and not yet acknowledged (R284). -/
structure RoceSent where
  psn : Nat
  /-- PSNs it takes. -/
  n : Nat := 1
  req : RoceReq
  at_ : Nat
  tries : Nat := 0
  rnrTries : Nat := 0
deriving DecidableEq, Repr

/-- A RoCEv2 connection (R276, R284) and, on the NVMe admin queue, its NVMe-oF controller (R279). -/
structure RoceConn where
  /-- RTU has been received, or REP only (R276). -/
  established : Bool := false
  mac : Nat := 0
  sub : Nat := 0
  family : Nat := 4
  host : Nat := 0
  /-- The allow entry it was admitted by (R277). -/
  allow : Nat := 0
  mtu : Nat := 1024
  hostQpn : Nat := 0
  /-- Next PSN expected from the host, 24 bits. -/
  ePsn : Nat := 0
  /-- Next PSN the controller sends, 24 bits (R276). -/
  sPsn : Nat := 0
  /-- NVMe queue identifier once connected: 0 is the admin queue (R278, R279). -/
  qid : Option Nat := none
  /-- The queue pair it is attached to (R278). -/
  qp : Option Nat := none
  hostNqn : Bytes := []
  /-- CC and CSTS (R276, Property Get and Set). -/
  cc : Nat := 0
  csts : Nat := 0
  /-- Number of Queues and Keep Alive Timer features (R279). -/
  numQueues : Nat := 0
  kato : Nat := 0
  /-- Restart of the keep-alive timer (R279). -/
  kaAt : Nat := 0
  sent : List RoceSent := []
  /-- Requests waiting to be sent: 16 RDMA READs outstanding, no PSN logged, or an RNR wait (R276, R284, R556). -/
  queue : List RoceReq := []
  /-- PSNs logged and not yet used, and the record that logs more (R556). -/
  psnLeft : Nat := 0
  psnRec : Option (Nat × Nat) := none
  /-- Waiting for the host's RNR timer (R284). -/
  rnrWait : Option Nat := none
  lastCnp : Option Nat := none
  /-- Capsules taken whose acknowledgement waits for their TAKEN record: PSN and record (R556). -/
  acks : List (Nat × Nat) := []
  /-- PSNs of capsules accepted and not yet taken, whose acknowledgement waits for a TAKEN record (R556). -/
  untaken : List Nat := []
  /-- Dataset Management capsules waiting for their range (R281), by CID, with their capsules. -/
  dsm : Tbl Bytes := []
  /-- A takeover has not yet recovered it (R569). -/
  recover : Bool := false
deriving DecidableEq, Repr

/-- An allow entry (R277). -/
structure RoceAllow where
  mac : Nat
  sub : Nat
  family : Nat
  cls : Nat
  tenant : Nat
  host : Nat
deriving DecidableEq, Repr

/-- What an egress unit sends (R235). `owner` is the command whose descriptor a TLP belongs to. -/
inductive EgWhat where
  | odt (conn qpn flags : Nat) (msg : OdtOut)
  | roce (conn : Nat) (req : RoceReq)
  | tlp (func addr owner : Nat) (bytes : Bytes)
  | msix (func vector : Nat)
deriving DecidableEq, Repr

/-- The completion that a response unit carries: the queue pair, order number, volume, first block, block count and kind of
its command (R79, R84). -/
structure Cpl where
  qp : Nat
  seq : Nat
  entry : Bytes
deriving DecidableEq, Repr

/-- A response unit waiting at an egress point (R235, R237). -/
structure EgUnit where
  point : Nat
  cls : Nat
  what : EgWhat
  /-- The completion that is written once it has left (R79, R84). -/
  cpl : Option Cpl := none
  /-- It came while the lanes of its point were in a transition: it is held on this side of their boundary (R37). -/
  held : Bool := false
  /-- More frames or TLPs of its response message follow: only the last counts against the quantum (R235). -/
  more : Bool := false
deriving DecidableEq, Repr

/-- The network face beside its registers. -/
structure Net where
  /-- LINK_UP by MAC and sub-port: key 4n + u (R306). -/
  link : Tbl Bool := []
  /-- PFC state by MAC and priority: key 8n + p (R266). -/
  pfc : Tbl Pfc := []
  /-- Management frames passed in the running second, and when it began, by MAC (R264). -/
  mgmt : Tbl (Nat × Nat) := []
  /-- Service addresses by sub-port: key 4n + u (R271). -/
  addr : Tbl SubAddr := []
  /-- Announcements still to be sent: cycles at which they are due (R274). -/
  announce : List Nat := []
  /-- ODT connections by identifier (R285). -/
  odt : Tbl OdtConn := []
  /-- RoCEv2 connections by identifier (R276). -/
  roce : Tbl RoceConn := []
  nextRoce : Nat := 0
  /-- Allow entries (R277). -/
  allow : Tbl RoceAllow := []
  /-- Response units waiting at the egress points, oldest first (R235). -/
  egress : List EgUnit := []
deriving DecidableEq, Repr

/-- One function of the endpoint (R315, R724). -/
structure EpFunc where
  /-- Memory Space Enable. -/
  mse : Bool := false
  /-- Bus Master Enable. -/
  bme : Bool := false
  /-- Max Payload Size and Max Read Request Size of Device Control, bytes (R313, R324). -/
  mps : Nat := 128
  mrrs : Nat := 512
  /-- In D3hot. -/
  d3hot : Bool := false
  /-- MSI-X Enable and Function Mask (R331). -/
  msixEn : Bool := false
  fmask : Bool := false
  /-- Masked vectors (R331); every vector is masked at reset (PCI Express). -/
  unmasked : Tbl Unit := []
  /-- Pending bits (R331). -/
  pba : Tbl Unit := []
  /-- MASTER_LOST (R340). -/
  masterLost : Bool := false
  /-- DRAINING (R337, R340). -/
  draining : Bool := false
deriving DecidableEq, Repr

/-- A capability of a function (R339). -/
inductive PciCap where
  | pciExpress | powerManagement | msix
deriving DecidableEq, Repr

/-- An extended capability of a function (R339). -/
inductive PciExtCap where
  | aer | serialNumber | vsec | flitPhysical | sriov | ari
deriving DecidableEq, Repr

/-- What a function presents in its configuration space (R339). -/
structure FuncIdent where
  vendor : Nat
  device : Nat
  subVendor : Nat
  subsystem : Nat
  classCode : Nat
  revision : Nat
  serial : Nat
  caps : List PciCap
  ext : List PciExtCap
deriving DecidableEq, Repr

/-- What a DMA read serves (07: ring fetches and write-data pulls). -/
inductive DmaFor where
  | fetch (qp off : Nat)
  | pull (seq off : Nat)
  | desc (id off : Nat)
  /-- A ring fetch that a reset or an error has discarded (R76). -/
  | gone
deriving DecidableEq, Repr

/-- A non-posted request outstanding on a tag (R334, R335). -/
structure EpTag where
  func : Nat
  who : DmaFor
  len : Nat
  got : Bytes := []
  at_ : Nat
  /-- Withdrawn: held until this cycle (R334). -/
  held : Option Nat := none
deriving DecidableEq, Repr

/-- A read request waiting for a tag (R334). -/
structure EpWait where
  func : Nat
  who : DmaFor
  addr : Nat
  len : Nat
deriving DecidableEq, Repr

/-- A translation of an aperture (R325, R344). -/
structure Aperture where
  en : Bool := false
  data : Bool := false
  func : Nat := 0
  reqId : Nat := 0
  mkey : Nat := 0
  off : Nat := 0
deriving DecidableEq, Repr

/-- The endpoint face beside its registers. -/
structure Epf where
  /-- EP_PERST_N is asserted (R718). -/
  perst : Bool := true
  /-- LINK_UP, SPEED, WIDTH and FLIT (R342). -/
  linkUp : Bool := false
  speed : Nat := 0
  width : Nat := 0
  flit : Bool := false
  /-- NumVFs while VF Enable is 1 (R724). -/
  numVfs : Nat := 0
  /-- Functions 0 to 63 (R315). -/
  funcs : Tbl EpFunc := []
  /-- Tags 0 to 1,023 in use (R313, R334). -/
  tags : Tbl EpTag := []
  /-- Reads waiting for a tag, oldest first (R334). -/
  waiting : List EpWait := []
  /-- Translations in force (R325). -/
  force : Tbl Aperture := []
deriving DecidableEq, Repr

end Sys2Proof.Machine
end

