-- ==== Sys2Proof/Machine/StateQp.lean ====
section
/-! DEFINITION. The state of queue pairs, their commands and the CLS (02, 05). Every default value is the value at
a COLD reset. -/

namespace Sys2Proof.Machine

/-- Queue-pair states (R77). -/
inductive QpState where
  | free | active | stalled | error | draining
deriving DecidableEq, Repr

/-- The STATE codes of R77. -/
def QpState.code : QpState → Nat
  | .free => 0 | .active => 1 | .stalled => 2 | .error => 3 | .draining => 4

/-- A face binding (R52, R81, R278): an endpoint function with its vector, an ODT connection, or a RoCEv2 allow entry
with its NVMe queue identifier. -/
inductive Face where
  | endpoint (func vector : Nat)
  | odt (conn : Nat)
  | roce (allow qid : Nat)
deriving DecidableEq, Repr

/-- What began a drain (R78, R93): RESET_QP or DELETE_QP with the command that waits for it, a function-level reset
(or VF disable), or a controller reset. -/
inductive DrainKind where
  | resetQp (seq : Nat)
  | deleteQp (seq : Nat)
  | flr
  | controller
deriving DecidableEq, Repr

/-- A drain in progress and the completions its reset stands in for so far (R94, R95). -/
structure Drain where
  kind : DrainKind
  count : Nat
  /-- A function-level or controller reset has reached it since: it ends in FREE (R78, R93). -/
  thenFree : Bool := false
deriving DecidableEq, Repr

/-- A queue pair's context (R51 to R58). -/
structure Qp where
  /-- STATE, 3 bits (R77); reset FREE. -/
  state : QpState := .free
  /-- Bound tenant, 20 bits (R52). -/
  tenant : Nat := 0
  /-- Face binding (R52). -/
  face : Face := .endpoint 0 0
  /-- Home engine, 6 bits (R52). -/
  home : Nat := 0
  /-- Class mask, 8 bits (R52). -/
  mask : Nat := 0
  /-- ADMIN attribute (R81). -/
  admin : Bool := false
  /-- SQ_SIZE, 2 to 65,536 (R55). -/
  sqSize : Nat := 0
  /-- CQ_SIZE, 2 to 65,536 (R55). -/
  cqSize : Nat := 0
  /-- SQ_MKEY, 32 bits (R55). -/
  sqMkey : Nat := 0
  /-- CQ_MKEY, 32 bits (R55). -/
  cqMkey : Nat := 0
  /-- SQ_ADDR, 64 bits (R55). -/
  sqAddr : Nat := 0
  /-- CQ_ADDR, 64 bits (R55). -/
  cqAddr : Nat := 0
  /-- The fetch head (R57). -/
  head : Nat := 0
  /-- The tail announced by the host (R71). -/
  tail : Nat := 0
  /-- The CQ head released by the host (R73). -/
  cqHead : Nat := 0
  /-- The posting index (R64). -/
  post : Nat := 0
  /-- The PHASE of the next completion (R64): 1 in the first pass. -/
  phase : Bool := true
  /-- Completion slots reserved and not yet posted (R58). -/
  reserved : Nat := 0
  /-- Slots of the ring read in flight: first slot and count, at most 4 (R75). -/
  fetch : Option (Nat × Nat) := none
  /-- What the ring read in flight has returned so far, by byte offset (R75, R296). -/
  fetchSegs : Tbl Bytes := []
  /-- Inline entries accepted and not yet taken: slot, entry, and the number that carried it (R72, R75, R244). -/
  inl : List (Nat × Bytes × Nat) := []
  /-- A drain in progress (R94). -/
  drain : Option Drain := none
  /-- Completions that could not be written while in ERROR (R79). -/
  unwritten : Nat := 0
  /-- TAIL of INL_STATUS, 16 bits (R320). -/
  inlTail : Nat := 0
  /-- COUNT of INL_STATUS, 8 bits (R320). -/
  inlCount : Nat := 0
  /-- INVALID of INL_STATUS (R320). -/
  inlInvalid : Bool := false
  /-- REFUSED of INL_STATUS (R320). -/
  inlRefused : Bool := false
  /-- HELD of INL_STATUS (R320). -/
  inlHeld : Bool := false
  /-- Posting stopped by a takeover until the face is rebound (R568). -/
  frozen : Bool := false
deriving DecidableEq, Repr

/-- The states of a command (R91). Posted commands are no longer listed. -/
inductive CmdPhase where
  | taken | dispatched | issued | finished
deriving DecidableEq, Repr

/-- A policer colour (R241). -/
inductive Colour where
  | green | yellow | red
deriving DecidableEq, Repr

/-- A run of blocks a READ needs inside one data unit (R123, R180): `vblk` is its first block's offset within the
command; stripe, data unit and block offset are its place. -/
structure ReadRun where
  vblk : Nat
  n : Nat
  stripe : Nat
  unit : Nat
  off : Nat
  /-- Positions found unreadable for it (R122, R174). -/
  bad : List Nat := []
  /-- Of those, the positions that failed the check of R122. -/
  guard : List Nat := []
  /-- Member reads outstanding, by position. -/
  want : List Nat := []
  /-- Stored blocks read, by position. -/
  got : Tbl Bytes := []
  /-- It is reconstructed (R180): its slice, once assigned (R168), and survivor cell runs still to cross. -/
  recon : Bool := false
  slice : Option (Nat × Bool) := none
  /-- An assignment has been asked for and found no context (R168). -/
  sliceWait : Bool := false
  toSlice : Nat := 0
  /-- Survivor cells have been sent. -/
  sentSlice : Bool := false
  /-- The stored blocks of the data unit, once known. -/
  out : Option Bytes := none
  /-- Its cells have crossed to the face (R123). -/
  crossed : Bool := false
  /-- It cannot be read: a status, and the first block affected, within the run (R68, R122, R183). -/
  fail : Option Nat := none
  failAt : Nat := 0
deriving DecidableEq, Repr

/-- A command outstanding on a queue pair (R62, R76, R91). -/
structure Cmd where
  /-- Its queue pair. -/
  qp : Nat
  /-- Its CID, 16 bits. -/
  cid : Nat
  /-- Its 64-byte entry (R59). -/
  entry : Bytes
  /-- Its order of entry into the CLS (R83, R84). -/
  seq : Nat
  /-- Its state (R91). -/
  phase : CmdPhase := .taken
  /-- Its class, 3 bits (R227). -/
  cls : Nat := 1
  /-- The order in which it became ready for dispatch (R236). -/
  order : Nat := 0
  /-- In the policer, not yet released (R242). -/
  held : Bool := false
  /-- HELD of its completion (R67). -/
  wasHeld : Bool := false
  /-- The hook whose result it waits for: attachment and hook code (R227, R439, R444). -/
  hook : Option (Nat × Nat) := none
  /-- The entry in the tenant's own format, where a PERSONALITY hook translated it (R439). -/
  raw : Option Bytes := none
  /-- The completion in the tenant's own format, where a PERSONALITY hook gave it (R439). -/
  translated : Option Bytes := none
  /-- AUTH_FAIL of its completion (R67, R409). -/
  authFail : Bool := false
  /-- The engine and thread carrying it (R236). -/
  thread : Option (Nat × Nat) := none
  /-- STATUS and INFO once it is finished (R63, R68). -/
  result : Option (Nat × Nat) := none
  /-- Bytes of host data asked for so far (R296, R334); none before the first pull. -/
  pull : Option Nat := none
  /-- Segments of it that have arrived, by offset. -/
  segs : Tbl Bytes := []
  /-- Its buffer: pulled data from its start on, without gaps. -/
  data : Bytes := []
  /-- Its effect has begun: its plan is made (R123, R130). -/
  begun : Bool := false
  /-- The runs of a READ (R123). -/
  runs : List ReadRun := []
  /-- The stripes a write has still to open, ascending (R125). -/
  todo : List Nat := []
  /-- Rows that hold a reservation and are not yet open: stripe and staging cells (R154, R156). -/
  rows : List (Nat × Nat) := []
  /-- Its stripes opened and not yet closed (R130). -/
  open_ : List Nat := []
  /-- A stripe of it ended with more failures than the group bears (R134). -/
  groupFailed : Bool := false
  /-- First block offset affected, for INFO, with the status where one is set (R68). -/
  badBlock : Option (Nat × Nat) := none
  /-- Key slot and generation of a keyed write (R396). -/
  gen : Option (Nat × Nat) := none
  /-- Past its issue point (R89). -/
  past : Bool := false
  /-- The slot of the ring it was taken from (R75), and the transport number that carried it (R556). -/
  slot : Nat := 0
  src : Nat := 0
  /-- Numbers of its TAKEN and POSTED log records (R556). -/
  takenRec : Option Nat := none
  postedRec : Option Nat := none
  /-- The completion entry and slot made ready for it (R63, R556). -/
  ready : Option (Nat × Bytes) := none
  /-- It holds its memory key (R519). -/
  keyHeld : Bool := false
  /-- It carries out a shaper change that takes effect at the next refill (R247), or waits for the peer, a copy or a
  drain named by the command's own rule. -/
  waiting : Bool := false
  /-- It completes once its effect is in force on both controllers: the configuration records (type and key) still to be
  written, and the copy whose acknowledgement with FLASH it waits for, once one is cut (R393, R451, R555, R674). -/
  both : Bool := false
  cfgs : List (Nat × Nat) := []
  copyAt : Option Nat := none
  /-- INFO of its success. -/
  okInfo : Nat := 0
  /-- Counted once in STR_WIN_WAIT (R145). -/
  winWaited : Bool := false
  /-- Counted once in STR_STAGE_WAIT for the row it waits with (R156). -/
  stageWaited : Bool := false
  /-- Class 0 pool cells reserved for it and not yet released (R358). -/
  c0Cells : Nat := 0
  /-- Cells of it held in the partition of its face's port (R355). -/
  faceCells : Nat := 0
  /-- The priority of the packets that brought its data (R265), and the cells of it sent on from its face's port. -/
  rxPri : Nat := 0
  gone : Nat := 0
  /-- Blocks of a write whose pull has been made a second time (R686). -/
  repulled : List Nat := []
  /-- Its pull has been cut short after its issue point (R94, R333, R335): no more of its data comes. -/
  cut : Bool := false
  /-- A stripe of it was never written, because its data never came (log entry 90). -/
  missed : Bool := false
deriving DecidableEq, Repr

/-- One entry of the shaper table (R240 to R250). -/
structure Shaper where
  /-- CIR, 32 bits, commands per second. -/
  cir : Nat := 0xFFFFFFFF
  /-- PIR, 32 bits, commands per second. -/
  pir : Nat := 0xFFFFFFFF
  /-- CBS, 16 bits, commands. -/
  cbs : Nat := 0xFFFF
  /-- PBS, 16 bits, commands. -/
  pbs : Nat := 0xFFFF
  /-- XFER_CAP, 10 bits, blocks. -/
  xferCap : Nat := 512
  /-- C0, 1 bit. -/
  c0 : Bool := false
  /-- C0_PORT, 4 bits. -/
  c0Port : Nat := 0
  /-- C0_GROUP, 6 bits. -/
  c0Group : Nat := 0
deriving DecidableEq, Repr

/-- A tenant's entry: values in force, buckets in millionths, and the pending change (R240, R247). -/
structure ShaperEntry where
  val : Shaper
  c : Nat
  p : Nat
  /-- Accepted values that take effect at the next refill (R247). -/
  pending : Option Shaper := none
  /-- Written by SET_SHAPER (R250). -/
  written : Bool := false
  /-- The tenant's CLS counter values since its last TENANT_POLICY invocation (R439): green, yellow, red, inline
  refused, hook results refused, Class 0 dispatches. -/
  counts : List Nat := [0, 0, 0, 0, 0, 0]
  /-- The queue pair at which the last re-test stopped (R242). -/
  stopAt : Option Nat := none
  /-- REMOVE has been accepted: the entry goes at the next refill (R247, R249). -/
  remove : Bool := false
deriving DecidableEq, Repr

/-- A flow of a scheduling point (R237): its class and home queue pair (0 where flows are by class), its deficit and
marks. Its units are counted by the point's owner. -/
structure Flow where
  cls : Nat
  qp : Nat
  deficit : Nat := 0
  newTurn : Bool := true
  turned : Bool := false
deriving DecidableEq, Repr

/-- The two queues of a scheduling point (R237). -/
structure Point where
  q16 : List Flow := []
  q7 : List Flow := []
deriving DecidableEq, Repr

/-- The QPE and CLS beside their registers. -/
structure Cls where
  /-- The shaper table by tenant (R250): tenant 0's entry at its largest values from start-up. -/
  shapers : Tbl ShaperEntry := []
  /-- The default values (R250). -/
  dflt : Shaper := {}
  /-- CAP of the points, 32 bits, where written (R232, R257); an unlisted point reads its reset value. -/
  caps : Tbl Nat := []
  /-- The dispatch points of clusters 0 to 3 (R235). -/
  dispatch : List Point := [{}, {}, {}, {}]
  /-- The drive-issue points by slot (R235). -/
  drive : Tbl Point := []
  /-- The egress points 0 to 8 (R235). -/
  egress : Tbl Point := []
  /-- Threads occupied by commands: engine, thread, queue pair, CID (R231, R236). -/
  busy : List (Nat × Nat × Nat × Nat) := []
  /-- The Gnomon microsecond of the last refill (R240). -/
  refilled : Nat := 0
deriving DecidableEq, Repr

/-- A request that waits at the boundary of island 160 while it is BUSY (R37): a doorbell or inline entry of a function's
window, an ODT doorbell, a command capsule or the range of one. -/
inductive Door where
  | sqTail (func qp v : Nat)
  | cqHead (func qp v : Nat)
  | inline (func qp : Nat) (entry : Bytes)
  | odt (h : OdtHdr)
  | odtInline (h : OdtHdr) (entry : Bytes)
  | capsule (conn psn : Nat) (b : Bytes) (extra : Bool)
  | range (conn cid : Nat) (b : Option Bytes)
deriving DecidableEq, Repr

/-- The QPE beside its registers. -/
structure Qpe where
  /-- The queue pairs by number (R51); an unlisted one is FREE. -/
  qps : Tbl Qp := []
  /-- The context cache, most recently used first (R53); reset empty. -/
  cache : List Nat := []
  /-- Outstanding commands in the order they entered the CLS (R83). -/
  cmds : List Cmd := []
  /-- The number of the next command to enter the CLS, and of the next to become ready. -/
  nextSeq : Nat := 0
  nextReady : Nat := 0
  /-- Requests held at the boundary of island 160, oldest first (R37). -/
  doors : List Door := []
deriving DecidableEq, Repr

end Sys2Proof.Machine
end

