-- ==== Sys2Proof/Machine/StateStr.lean ====
section
/-! DEFINITION. The state of groups, members, volumes, stripes and drives (03, 04). Every default value is the value
at a COLD reset. -/

namespace Sys2Proof.Machine

/-- Member states (R172). -/
inductive MemberState where
  | none | inService | missing | rebuilding | evacuated | returning | refilling
deriving DecidableEq, Repr

/-- The codes of R172. -/
def MemberState.code : MemberState → Nat
  | .none => 0 | .inService => 1 | .missing => 2 | .rebuilding => 3 | .evacuated => 4 | .returning => 5
  | .refilling => 6

/-- A rebuild policy as set: default, AUTO or HELD (R184). -/
inductive Policy where
  | dflt | auto | heldP
deriving DecidableEq, Repr

/-- The codes of R217. -/
def Policy.code : Policy → Nat
  | .dflt => 0 | .auto => 1 | .heldP => 2

/-- The placement inputs of R189: the evacuation list and the excluded set. -/
structure Placement where
  evac : List Nat := []
  ex : List Nat := []
deriving DecidableEq, Repr

/-- A relocation sweep (R722): the placement before the change and the period at the cursor. -/
structure Sweep where
  old : Placement
  period : Nat
  /-- The zero writes of the period at the cursor have been queued (R722 step 4). -/
  zeroing : Bool := false
deriving DecidableEq, Repr

/-- A group (R105 to R117, R191). -/
structure Group where
  /-- KIND: erasure (true) or mirror (R106). -/
  erasure : Bool
  /-- WIDTH: copies, or k (R106). -/
  width : Nat
  /-- M: parity units (R106). -/
  m : Nat
  /-- SPARE, 0 to 2 (R106). -/
  spare : Nat
  /-- FORMAT: 1 without metadata (R109). -/
  format1 : Bool
  /-- AWU in blocks (R138). -/
  awu : Nat
  /-- SEED, 64 bits (R111). -/
  seed : Nat
  /-- The slots, ascending (R107). -/
  slots : List Nat
  /-- P, the period count (R112). -/
  periods : Nat
  /-- LGEN, 64 bits (R111). -/
  lgen : Nat := 0
  /-- CLEAN set in the labels (R151). -/
  clean : Bool := false
  /-- CLEAN has just been cleared: writes wait until the labels say so (R151). -/
  labelsWait : Bool := false
  /-- Assembled (R177, R668): false is OFFLINE. -/
  online : Bool := true
  /-- REBUILD as set (R184). -/
  policySet : Policy := .dflt
  /-- POLICY in force (R184, R222). -/
  policy : Policy := .auto
  /-- The placement in force (R189, R191). -/
  place : Placement := {}
  /-- A relocation sweep in progress (R722). -/
  sweep : Option Sweep := none
  /-- The record generation, 64 bits (R191). -/
  recGen : Nat := 0
  /-- The slots that hold the bitmap replicas (R147). -/
  replicas : List Nat := []
  /-- A replica being re-established: its slot and the writes still to complete (R207). -/
  replicaTo : Option (Nat × Nat) := none
  /-- ONE_REPLICA (R207, R222). -/
  oneReplica : Bool := false
  /-- Dirty regions: the bitmap held in HBM, ascending (R147, R148). -/
  dirty : Tbl Unit := []
  /-- Regions whose bit is being set: region and the replica writes outstanding (R148). -/
  setting : Tbl Nat := []
  /-- Regions whose bit is being cleared (R149). -/
  clearing : Tbl Nat := []
  /-- Regions whose clear waits until the bitmap replica has been re-established (R207). -/
  clearLater : List Nat := []
  /-- Stripes to be resynchronised, ascending (R203 to R205). -/
  resync : List Nat := []
  /-- Regions whose every stripe is to be resynchronised, ascending, with the stripe cursor in the first (R204). -/
  resyncRegions : List Nat := []
  resyncAt : Nat := 0
  /-- Regions of deleted volumes still to be zeroed, ascending, and the next stripe of the first (R160). -/
  zeroing : List Nat := []
  zeroAt : Nat := 0
  /-- The group entered FAILED and has not left it (R178). -/
  failed : Bool := false
deriving DecidableEq, Repr

/-- A member: what one slot is in its group (R172 to R175, R213 to R215). -/
structure Member where
  group : Nat
  /-- STATE code (R172). -/
  state : MemberState := .inService
  /-- The state before REFILLING (R172). -/
  before : MemberState := .missing
  /-- The cycle it became MISSING (R214). -/
  since : Nat := 0
  /-- The label generation it carried when it left service (R214). -/
  lgen : Nat := 0
  /-- The stale set: regions, ascending (R213). -/
  stale : Tbl Unit := []
  /-- Size of the stale set when RETURNING began, for PROGRESS (R221). -/
  stale0 : Nat := 0
  /-- The stripe cursor inside the first stale region (R215). -/
  staleAt : Nat := 0
  /-- The controller still holds the stale set (R213, R214). -/
  staleHeld : Bool := true
  /-- The rebuild cursor: next stripe (R191, R193). -/
  rebuild : Nat := 0
  /-- The refill cursor: next stripe (R197). -/
  refill : Nat := 0
  /-- UNRELOC (R190). -/
  unreloc : Bool := false
  /-- START_REBUILD came while a sweep ran: the slot enters the list at its end (R722). -/
  startLater : Bool := false
deriving DecidableEq, Repr

/-- A volume (R119, R159). -/
structure Volume where
  /-- Its group. -/
  group : Nat
  /-- SIZE in blocks. -/
  size : Nat
  /-- VFLAGS CLASS0. -/
  class0 : Bool
  /-- VFLAGS KEYED. -/
  keyed : Bool
  /-- OWNER, 20 bits. -/
  owner : Nat
  /-- The extent table: group regions. -/
  ext : List Nat
  /-- Created and not yet usable: its regions' bits or window places are still outstanding (R150); the order number of
  its CREATE_VOLUME. -/
  creating : Option Nat := none
deriving DecidableEq, Repr

/-- The method of a stripe write (R126), with its METHOD code (R142). -/
inductive Method where
  | copy | full | rmw | recon
deriving DecidableEq, Repr

/-- METHOD codes (R142). -/
def Method.code : Method → Nat
  | .copy => 0 | .full => 1 | .rmw => 2 | .recon => 3

/-- Who opened a stripe: a host command, or Class 7 work of the controller. -/
inductive Writer where
  | host (seq : Nat)
  | zeroing
  | rebuild (slot : Nat)
  | refill (slot : Nat)
  | sweep
  | resync
  | delta (slot : Nat)
  | repair
  | lantern
  | rekey (vol : Nat)
deriving DecidableEq, Repr

/-- What a member command does (R133, R136, R160); `acquire` is Reservation Acquire (R562). -/
inductive MemOp where
  | read | write | writeZeroes | dealloc | acquire
deriving DecidableEq, Repr

/-- One member write of a stripe, prepared and not yet queued: position, slot, drive block, what is written. -/
structure StripeWrite where
  pos : Nat
  slot : Nat
  op : MemOp
  lba : Nat
  n : Nat
  data : Bytes
deriving DecidableEq, Repr

/-- An open stripe with its journal entry (R125, R130, R142). Blocks of the stripe are keyed by position and block
offset: 16 * position + offset. -/
structure OpenStripe where
  group : Nat
  stripe : Nat
  writer : Writer
  method : Method
  /-- POS_MASK as a list: positions written (R142). -/
  positions : List Nat
  /-- EPOCH in which it opened (R142). -/
  epoch : Nat := 0
  /-- Class 0 (R143). -/
  class0 : Bool := false
  /-- Class of its member commands (R148, R235). -/
  cls : Nat := 7
  keyed : Bool := false
  /-- How the data blocks are written: as data, as zero blocks, or deallocated (R136). -/
  op : MemOp := .write
  /-- Block offsets touched, ascending (R126). -/
  offs : List Nat := []
  /-- New stored blocks of data positions (R130). -/
  new : Tbl Bytes := []
  /-- Old blocks asked for and not yet read (R126). -/
  pre : List Nat := []
  /-- Old blocks read. -/
  got : Tbl Bytes := []
  /-- Old blocks found unreadable (R122, R174). -/
  bad : List Nat := []
  /-- Its writes have been worked out: no more old blocks are needed. -/
  planned : Bool := false
  /-- It needs a slice context (R168), and the one it holds: slice, and whether a Class 0 one. -/
  wantSlice : Bool := false
  slice : Option (Nat × Bool) := none
  /-- Cells have been sent (R128), runs of cells still to reach the slice and the drive ports, and parity runs. -/
  sent : Bool := false
  cellsIn : Nat := 0
  paritySent : Bool := false
  cellsOut : Nat := 0
  /-- The member writes, until they are queued (R130). -/
  writes : List StripeWrite := []
  queued : Bool := false
  /-- Member writes outstanding (R130). -/
  left : Nat := 0
  /-- Positions failed while the stripe was open (R134), and completed. -/
  failed : List Nat := []
  done : List Nat := []
  /-- Staging cells reserved for its row, and the face point (R154). -/
  staged : Nat := 0
  point : Nat := 0
  /-- The places that Class 7 work fills: position, slot and first drive block (R193, R197, R722). -/
  fills : List (Nat × Nat × Nat) := []
  /-- Cells that have crossed to a drive-cluster port and are held there, by port (R355, R359). -/
  held : Tbl Nat := []
  /-- A repair reads its blocks again before it rewrites them (R182). -/
  reread : Bool := false
  /-- An old block it needs cannot be had (R122): nothing of it is written. -/
  spoiled : Bool := false
  /-- Its member writes wait until the group's record is in flash (R198, R205). -/
  afterRecord : Bool := false
deriving DecidableEq, Repr

/-- The stripe that Lantern reads now (R210): the blocks read so far, its place in the walk, whether it is taken again, and
whether a write has opened it since. -/
structure LanternTask where
  look : OpenStripe
  region : Nat
  idx : Nat
  again : Bool := false
  spoiled : Bool := false
  /-- Blocks of reads that ended with Unrecovered Read Error (R174). -/
  ures : List Nat := []
deriving DecidableEq, Repr

/-- Whom a member command serves. -/
inductive MemFor where
  | readRun (seq run pos : Nat)
  | preRead (group stripe pos : Nat)
  | stripe (group stripe pos : Nat)
  | bitSet (group region : Nat) (seq : Option Nat)
  | bitClear (group region : Nat)
  | replica (group : Nat)
  | label (group : Nat)
  | createGroup (group : Nat)
  | spareZero (group slot stripe : Nat)
  | sweepZero (group : Nat)
  | adoptLabel (group : Nat)
  | deleteLabel (seq : Option Nat)
  | undoLabel (seq : Nat)
  | lantern (group stripe pos : Nat)
  | acquire
deriving DecidableEq, Repr

/-- A member command (R123, R130, R133): waiting at its drive-issue point, or outstanding since `issued`. -/
structure MemCmd where
  id : Nat
  slot : Nat
  op : MemOp
  lba : Nat
  n : Nat
  data : Bytes := []
  cls : Nat
  who : MemFor
  /-- Cells held for it in its drive cluster's partition (R355). -/
  cells : Nat := 0
  issued : Option Nat := none
deriving DecidableEq, Repr

/-- A region of the open window (R145, R146). -/
structure WinRegion where
  group : Nat
  region : Nat
  /-- The copy that carries it has been acknowledged (R145). -/
  acked : Bool
  /-- The copy number that carries the addition or the removal; none until one is cut. -/
  copy : Option Nat := none
  /-- Its removal waits for an acknowledgement (R146). -/
  leaving : Bool := false
  /-- The cycle a write last touched it (R146). -/
  last : Nat
  /-- Part of a Class 0 volume (R145). -/
  class0 : Bool := false
deriving DecidableEq, Repr

/-- An entry of the unavailable-block list (R201, R202). -/
structure UblEntry where
  group : Nat
  /-- KIND: 1 LOST, 2 INDETERMINATE. -/
  kind : Nat
  unit : Nat
  mask : Nat
  stripe : Nat
  volume : Nat
  vlba0 : Nat
deriving DecidableEq, Repr

/-- An entry of the Lantern log (R212). -/
structure LanternEntry where
  group : Nat
  outcome : Nat
  position : Nat
  mask : Nat
  stripe : Nat
  time : Nat
deriving DecidableEq, Repr

/-- What the controller knows of the drive in a slot (R109, R667): ready after enumeration and identification. -/
structure Drive where
  ready : Bool := false
  linkUp : Bool := false
  /-- The cycle the link went down, while it is down (R173). -/
  downSince : Option Nat := none
  /-- Its identification: namespace format, FUA, power-fail atomic unit, size, deallocated blocks read zero. -/
  id : DriveId := {}
  /-- Its label as read, none when blank (R187). -/
  label : Option DriveLabel := none
deriving DecidableEq, Repr

/-- A repair waiting to run (R182): the block offsets of a position of a stripe. -/
structure Repair where
  group : Nat
  stripe : Nat
  pos : Nat
  offs : List Nat
  /-- Blocks of an Unrecovered Read Error are read again one at a time first. -/
  reread : Bool
deriving DecidableEq, Repr

/-- One erasure-code slice: contexts in use of each kind (R168). -/
structure Slice where
  used : Nat := 0
  c0Used : Nat := 0
deriving DecidableEq, Repr

/-- A CREATE_GROUP under way: the group to be, the writes still to complete, and whether one failed (R158). -/
structure Creating where
  seq : Nat
  group : Nat
  shape : Group
  left : Nat
  bad : Bool := false
deriving DecidableEq, Repr

/-- The storage structures of the controller. -/
structure Store where
  /-- Groups 0 to 63 (R105); reset none. -/
  groups : Tbl Group := []
  /-- Members by slot (R172); reset none. -/
  members : Tbl Member := []
  /-- Volumes by handle (R119); reset none. -/
  volumes : Tbl Volume := []
  /-- Drives by slot. -/
  drives : Tbl Drive := []
  /-- Open stripes with their journal entries, oldest first (R142). -/
  opens : List OpenStripe := []
  /-- The open window (R145). -/
  window : List WinRegion := []
  /-- Member commands waiting or outstanding, oldest first. -/
  mem : List MemCmd := []
  /-- The identifier of the next member command. -/
  nextMem : Nat := 0
  /-- The unavailable-block list (R201). -/
  ubl : List UblEntry := []
  /-- Data units held unavailable beyond the list: group, stripe, unit, mask (R202). -/
  ublOver : List (Nat × Nat × Nat × Nat) := []
  /-- Repairs waiting (R182). -/
  repairs : List Repair := []
  /-- The Lantern log, oldest first, at most 4,096 (R212). -/
  lanternLog : List LanternEntry := []
  /-- Lantern's position: group, region, stripe within the region (R209). -/
  lantern : Nat × Nat × Nat := (0, 0, 0)
  /-- The stripe Lantern reads now (R210). -/
  lanternNow : Option LanternTask := none
  /-- Stripes whose findings Lantern is still to mend: group and stripe (R210, R211). -/
  lanternFix : List (Nat × Nat) := []
  /-- Stripes Lantern takes again in the region (R210). -/
  lanternAgain : List Nat := []
  /-- Bytes each member may still read and write in this millisecond, by slot (R195); an unlisted slot has none used. -/
  paced : Tbl Nat := []
  /-- Lantern bytes used by each member in this millisecond (R209). -/
  lntPaced : Tbl Nat := []
  /-- The slices 0 to 7 (R168). -/
  slices : List Slice := List.replicate 8 {}
  /-- CREATE_GROUP commands under way (R158). -/
  creating : List Creating := []
  /-- Staging cells in use by face point 0 to 8 (R154): floors of 16,384 cells. -/
  staging : Tbl Nat := []
  /-- Ends of member commands that wait in the mailbox of a thread whose cluster stalls, oldest first: the command, what it
  read, and whether it failed with Unrecovered Read Error (R91, R97). -/
  parked : List (MemCmd × Option Bytes × Bool) := []
  /-- What the bitmap replicas read at start-up say is dirty: group, slot, regions (R204, R208). -/
  bitmaps : List (Nat × Nat × List Nat) := []
deriving DecidableEq, Repr

end Sys2Proof.Machine
end

