-- ==== Sys2Proof/Machine/StateSys.lean ====
section
/-! DEFINITION. The configuration area of the boot flash (R661 to R664) and the boot state (16, 17). Every default
value is the value at a COLD reset of a blank boot flash. -/

namespace Sys2Proof.Machine

/-- What a configuration record holds (R663). -/
inductive CfgVal where
  | lastActive (b : Bool)
  | admin (line : Bytes)
  | signer (key : Bytes)
  | kek (wrapped : Bytes)
  | tenantKey (volume phase : Nat) (wrapped : Bytes) (limit mark : Nat)
  | rekey (volume cursor : Nat)
  /-- A group record (R191): record generation, placement inputs, rebuild cursors, refill cursors, the relocation sweep,
  the unavailable-block list, and the policy as set (log entry 35). -/
  | group (generation : Nat) (place : Placement) (cursors refills : List (Nat × Nat)) (sweep : Option Sweep)
      (ubl : List UblEntry) (policy : Policy)
  | volume (v : Volume)
  | shaper (v : Shaper)
  | address (addr pfx : Nat)
  | allow (a : RoceAllow)
  | image (bytes : Bytes)
  | attach (a : Attachment)
  | register (v : Nat)
deriving DecidableEq, Repr

/-- A record: its TYPE, its KEY, and its payload; none deletes the item (R661). -/
structure CfgRec where
  typ : Nat
  key : Nat
  val : Option CfgVal
deriving DecidableEq, Repr

/-- The configuration area (R661, R662). -/
structure Flash where
  /-- Records in force (R661), by type and key. -/
  recs : List CfgRec := []
  /-- Records being programmed, oldest first (R662). -/
  queue : List CfgRec := []
  /-- The live bank, 0 A or 1 B, its BANK_GEN, and the bank offset at which the next record is appended (R661). -/
  bank : Nat := 0
  bankGen : Nat := 1
  next : Nat := 4096
  /-- SEQ of the next record (R661). -/
  seq : Nat := 1
  /-- The records in force as they were programmed: TYPE, KEY and bytes (R661). -/
  placed : List (Nat × Nat × Bytes) := []
deriving DecidableEq, Repr

/-- A trace record (R691): its time, island, kind, and the draw of its arguments. -/
structure Trace where
  time : Nat
  island : Nat
  kind : Nat
  args : Nat
deriving DecidableEq, Repr

/-- The handling of a fatal event (R687 to R690, R695). -/
structure FatalRun where
  /-- CAUSE, SITE, ADDR and TIME of the image header (R690). -/
  cause : Nat
  site : Nat
  addr : Nat
  time : Nat
  /-- ROLE of the header: the role at the event. -/
  role : Role
  /-- FOLLOW: further fatal events before COMPLETE. -/
  follow : Nat := 0
  /-- The cycle the image was complete (R690). -/
  complete : Option Nat := none
  /-- The image is being pulled by the peer (R692). -/
  pulling : Bool := false
  /-- The cycle SYS_WDOG expired (R689). -/
  expired : Option Nat := none
deriving DecidableEq, Repr

/-- A firmware activation in progress (R675 to R678). -/
structure Activation where
  /-- The FW_ACTIVATE command, by its order number. -/
  seq : Nat
  /-- The slot being activated and the slot running before. -/
  slot : Nat
  old : Nat
  /-- PHASE (R682): the step of R676. -/
  phase : Nat
  /-- The cluster that switches next (R676 step 3). -/
  cluster : Nat := 0
  /-- The shadow has left, to start again from the other slot (R676 step 1). -/
  shadowAway : Bool := false
  /-- The cycle the cluster before resumed (R676 step 3). -/
  resumed : Option Nat := none
  /-- A cluster failed its resume check: the shadow repeats step 1 with the old slot (R677). -/
  rollback : Bool := false
  /-- The stall of the cluster in progress: the cycle it began, its length in µs, and whether the cluster will pass its
  resume check (R97, R676, R677). -/
  stalled : Option (Nat × Nat × Bool) := none
deriving DecidableEq, Repr

/-- What an ORDERLY reset waits for (R652, R655, R678): for RESET_CONTROLLER, by its order number, the end of a hitless
activation and then the posting of its completion; the drains of a SOLO controller, its label writes, or FENCED after a
release. -/
inductive OrderlyWait where
  | activation (seq : Nat)
  | posting (seq : Nat)
  | drain | labels | release
deriving DecidableEq, Repr

/-- A boot pointer sector (R657): SLOT, TRIAL (0 to 2) and GEN; none where its CRC fails. -/
structure BootPtr where
  slot : Nat
  trial : Nat
  gen : Nat
deriving DecidableEq, Repr

/-- The boot flash and the boot state. -/
structure Sys where
  flash : Flash := {}
  /-- Image slots 0 and 1 where written, by slot: their bytes (R656); an unlisted slot holds the factory image. -/
  slots : Tbl Bytes := []
  /-- The two boot pointer sectors (R656, R657); a blank flash has its first name slot 0 (log entry 50). -/
  ptr0 : Option BootPtr := some { slot := 0, trial := 0, gen := 1 }
  ptr1 : Option BootPtr := none
  /-- The slot that runs (R660). -/
  running : Nat := 0
  /-- Start-up steps 1 to 6 have been taken; a group record's groups are being assembled (R667). -/
  started : Bool := false
  /-- A fatal event is being handled (R687). -/
  fatal : Option FatalRun := none
  /-- SYS_WDOG is armed: the cycle of its last PET (R697). -/
  petAt : Option Nat := none
  /-- The trace ring, newest first, at most 4,096 (R691). -/
  trace : List Trace := []
  /-- The last readings of sensors 0 to 7, newest first, at most 3, in units of 0.25 °C (R684). -/
  temps : Tbl (List Int) := []
  /-- VALID of SYS_TEMP by sensor: its last reading lay in range (R683, R715). -/
  tempValid : Tbl Bool := []
  /-- The console line being typed and the cycle of its first character (R666, R683). -/
  uart : Option (Bytes × Nat) := none
  /-- An ADMIN record that came over the console waits to be written (R666). -/
  adminWaits : Bool := false
  /-- A firmware activation in progress (R676). -/
  activation : Option Activation := none
  /-- An ORDERLY reset that waits: its CAUSE (R680) and for what (R652, R678). -/
  orderly : Option (Nat × OrderlyWait) := none
  /-- The cycle SYS_MODE was set to SERVICE by start-up, from which the assembly deadline runs (R667, R670). -/
  serviceAt : Option Nat := none
  /-- The assembly deadline has passed (R670). -/
  deadlinePassed : Bool := false
deriving DecidableEq, Repr

end Sys2Proof.Machine
end

