-- ==== Sys2Proof/Machine/StateRep.lean ====
section
/-! DEFINITION. What an epoch copy says of the replicated structures (R552): the decoded form of the lines of a copy.
The spec gives the structures and not their layout in the region (log entry 41). -/

namespace Sys2Proof.Machine

/-- A journal entry as a copy carries it (R142, R144). -/
structure JournalEntry where
  group : Nat
  method : Nat
  /-- POS_MASK. -/
  mask : Nat
  stripe : Nat
  epoch : Nat
deriving DecidableEq, Repr

/-- The replicated structures as a copy carries them (R552). -/
structure RepImage where
  /-- Queue-pair contexts, states and ring pointers (R53, R77). -/
  qps : Tbl Qp := []
  /-- The journal: the entry of every open stripe (R142). -/
  journal : List JournalEntry := []
  /-- The open window: group, region, and whether it is part of a Class 0 volume (R145). -/
  window : List (Nat × Nat × Bool) := []
  /-- Groups with their policies, slot sets, evacuation lists and sweeps (R177, R191). -/
  groups : Tbl Group := []
  /-- Members with stale sets and cursors (R172, R191, R213). -/
  members : Tbl Member := []
  /-- The unavailable-block list and what is held beyond it (R201, R202). -/
  ubl : List UblEntry := []
  ublOver : List (Nat × Nat × Nat × Nat) := []
  /-- Volumes and extents (R119). -/
  volumes : Tbl Volume := []
  /-- Shaper entries and the default values (R232, R250). -/
  shapers : Tbl ShaperEntry := []
  dflt : Shaper := {}
  /-- ODT connections, RoCEv2 connections and allow entries (R277, R292, R302). -/
  odt : Tbl OdtConn := []
  roce : Tbl RoceConn := []
  nextRoce : Nat := 0
  allow : Tbl RoceAllow := []
  /-- Service addresses (R271). -/
  addr : Tbl SubAddr := []
  /-- Key slots with COUNT, LIMIT and MARK and their wrapped keys; never a key in clear (R390, R397, R403). -/
  slots : Tbl KeySlot := []
  /-- The wrapped KEKs the peer is to use, by index (R390). -/
  keks : Tbl Bytes := []
  phase : Tbl Nat := []
  walks : Tbl Walk := []
  /-- Hook attachments and their state (R441, R443). -/
  atts : Tbl Attachment := []
  /-- Allocations of the device pool (R522). -/
  devPool : Tbl Nat := []
  /-- Flash-bound items of the copy (R554, R663). -/
  flash : List CfgRec := []
  /-- The number of the next log record when the structures were read. -/
  nextRec : Nat := 0
  /-- Log records numbered below this are made redundant by the copy (R556). -/
  redundant : Nat := 0
deriving DecidableEq, Repr

end Sys2Proof.Machine
end

