-- ==== Sys2Proof/Machine/StateShd.lean ====
section
/-! DEFINITION. The state of the SHD, the Mirror link and the Lodestone lease (13). Every default value is the value
at a COLD reset. -/

namespace Sys2Proof.Machine

/-- What a log record holds (R556). -/
inductive LogKind where
  | taken (qp slot : Nat) (entry : Bytes) (src : Nat)
  | posted (qp slot : Nat) (entry : Bytes) (seq : Nat)
  | psnBlock (conn first : Nat)
deriving DecidableEq, Repr

/-- A log record sent and not yet acknowledged (R556, R557). -/
structure LogRec where
  num : Nat
  kind : LogKind
  at_ : Nat
  resent : Bool := false
deriving DecidableEq, Repr

/-- The epoch copy being sent (R553 to R555). Lines stand as runs: the address of the first and their count. -/
structure Copy where
  num : Nat
  /-- The lines of the copy, and those of them not yet sent. -/
  lines : List (Nat × Nat)
  left : List (Nat × Nat)
  /-- Lines sent, and the running CRC32C over their entries (R550). -/
  sent : Nat := 0
  crc : Nat := 0xFFFFFFFF
  /-- The replicated structures have changed since the last cut, and the copy carries them (R552). -/
  image : Bool := true
  /-- COMMIT has been sent. -/
  committed : Bool := false
  /-- It has been spread over more than one epoch, and that has been counted (R554). -/
  spread : Bool := false
  /-- The lowest slot that held a member at the cut (R563). -/
  arbiter : Option Nat := none
deriving DecidableEq, Repr

/-- What a release waits for (R565): the final copy's number. -/
structure Releasing where
  copy : Nat
deriving DecidableEq, Repr

/-- The tie-break (R563): waiting since the own expiry, or a preempt outstanding. -/
inductive Tie where
  | waiting (since : Nat)
  | preempting
deriving DecidableEq, Repr

/-- A completion a POSTED record holds, to be sent again after a takeover (R569): its queue pair, completion slot, entry,
and the SEQ or PSN it was to be sent with. -/
structure Repost where
  qp : Nat
  slot : Nat
  entry : Bytes
  seq : Nat
deriving DecidableEq, Repr

/-- A BULK transfer being sent (R550): what it carries, its bytes, how many of them are acknowledged, and the command
that waits for it. -/
structure Bulk where
  kind : BulkKind
  bytes : Bytes
  acked : Nat := 0
  seq : Option Nat := none
deriving DecidableEq, Repr

/-- The kinds of Mirror frames (R550). -/
inductive MirKind where
  | hello | renew | renewAck | lines | commit | copyAck | log | logAck | release | leave | bulk | bulkAck
deriving DecidableEq, Repr

/-- TYPE of a frame (R550). -/
def MirKind.code : MirKind → Nat
  | .hello => 0x01 | .renew => 0x02 | .renewAck => 0x03 | .lines => 0x04 | .commit => 0x05 | .copyAck => 0x06
  | .log => 0x07 | .logAck => 0x08 | .release => 0x09 | .leave => 0x0A | .bulk => 0x0B | .bulkAck => 0x0C

/-- The place of a frame in the order of R551, 1 to 4; HELLO and BULK_ACK stand with RENEW and BULK (log entry 88). -/
def MirKind.group : MirKind → Nat
  | .hello | .renew | .renewAck | .release | .leave => 1
  | .log | .logAck => 2
  | .lines | .commit | .copyAck => 3
  | .bulk | .bulkAck => 4

/-- A Mirror frame that waits for the link (R551): its kind, its fields, its payload, and the log record it carries. -/
structure MirFrame where
  kind : MirKind
  args : List Nat
  payload : Bytes
  record : Option (Nat × LogKind) := none
deriving DecidableEq, Repr

/-- The SHD beside its registers. -/
structure Shd where
  /-- ROLE, 3 bits (R544, R576); reset 1 PAIRING. -/
  role : Role := .pairing
  /-- FENCE (R560, R576); reset 0. -/
  fence : Bool := false
  /-- A fatal error has stopped service as a fence does, without one (17). -/
  stopped : Bool := false
  /-- PAIRING was entered from SOLO (R544). -/
  wasSolo : Bool := false
  /-- PEER: a peer's HELLO has been received (R576); reset 0. -/
  peer : Bool := false
  /-- The peer's serial, role and LAST_ACTIVE from its HELLO (R546). -/
  peerSerial : Nat := 0
  peerRole : Role := .pairing
  peerLast : Bool := false
  /-- LINK bit 0: half A up (R548). -/
  halfA : Bool := false
  /-- LINK bit 1: half B up (R548). -/
  halfB : Bool := false
  /-- PEER_REACH, 8 bits (R576). -/
  peerReach : Nat := 0
  /-- Sub-ports with link that the shadow reports (R564). -/
  peerNet : Nat := 0
  /-- The cycle since which DRIVE_REACH and NET_REACH have failed (R564). -/
  driveBad : Option Nat := none
  netBad : Option Nat := none
  /-- Epochs running in which each cluster's heartbeat word was missed (R564). -/
  beats : List Nat := [0, 0, 0, 0]
  /-- The heartbeat words as last seen, by cluster. -/
  beatSeen : List Nat := [0, 0, 0, 0]
  /-- The cycle PAIRING began, and that of the last HELLO sent (R545, R546). -/
  pairStart : Option Nat := none
  helloSent : Option Nat := none
  /-- Election result, once known: this controller won (R546). -/
  won : Option Bool := none
  /-- The initial copy and the first renewal have been acknowledged (R545). -/
  copy0Acked : Bool := false
  renewAcked : Bool := false
  /-- SHD_EPOCH, 64 bits (R579); reset 0. -/
  epoch : Nat := 0
  /-- Commands are being logged: from the cut of copy 0 on (R547); reset false. -/
  logging : Bool := false
  /-- The lease-counter cycle at which the running epoch began (R553). -/
  epochAt : Nat := 0
  /-- Renewals sent and not yet acknowledged: epoch and s_n (R559). -/
  renews : List (Nat × Nat) := []
  /-- Active: highest renewal acknowledged, its s_m, and when its RENEW_ACK arrived (R559, R564). -/
  leaseFrom : Option Nat := none
  ackAt : Option Nat := none
  /-- Shadow: r_m of the highest renewal acknowledged (R559). -/
  heardAt : Option Nat := none
  /-- SHD_COPY_SENT, 32 bits (R579); reset 0. -/
  copySent : Nat := 0
  /-- SHD_COPY_ACKED, 32 bits (R579); reset 0. -/
  copyAcked : Nat := 0
  /-- The last copy acknowledged with FLASH (R555). -/
  flashAcked : Nat := 0
  /-- The copy in progress (R553). -/
  copy : Option Copy := none
  /-- Marked lines of the replicated region, ascending addresses (R553). -/
  marks : Tbl Unit := []
  /-- A replicated structure has changed since the last cut (R552; log entry 41). -/
  changed : Bool := false
  /-- Shadow: lines staged for a copy, oldest first: number, entries (R554). -/
  staged : Option (Nat × List (Nat × Bytes)) := none
  /-- Shadow: what its region says of the replicated structures (R552, R554); none before the first copy. -/
  region : Option RepImage := none
  /-- Shadow: last copy applied (R554, R566). -/
  applied : Option Nat := none
  /-- Shadow: copies applied whose flash-bound items are not yet written (R554). -/
  flashDue : List Nat := []
  /-- Number of the next log record (R556). -/
  nextRec : Nat := 0
  /-- Records not acknowledged, oldest first (R557). -/
  log : List LogRec := []
  /-- A record was sent again and is still unacknowledged (R557). -/
  logStall : Bool := false
  /-- Records waiting while the log is stalled (R557). -/
  logWait : List LogRec := []
  /-- Shadow: records held (R556). -/
  held : List LogRec := []
  /-- Next frame sequence number (R550). -/
  frameSeq : Nat := 0
  /-- Frames that wait for the link, oldest first (R551). -/
  wire : List MirFrame := []
  /-- The cycle at which the frame in progress has left (R548, R551). -/
  wireFree : Nat := 0
  /-- Bytes of BULK sent in the running epoch, and whether LINES have waited in it (R551). -/
  bulkBytes : Nat := 0
  linesWaited : Bool := false
  /-- A release in progress (R565). -/
  releasing : Option Releasing := none
  /-- A tie-break in progress (R563). -/
  tie : Option Tie := none
  /-- Arbiter slot: lowest slot that held a member in the last acknowledged copy (R563). -/
  arbiter : Option Nat := none
  /-- Members whose Reservation Acquire is outstanding, with the cycle it was sent (R562). -/
  acquiring : Tbl Nat := []
  /-- After a takeover: entries that TAKEN records hold and that are not taken again: queue pair, slot, entry (R569). -/
  skip : List (Nat × Nat × Bytes) := []
  /-- After a takeover: logged completions to send again, in the order they were logged (R569). -/
  repost : List Repost := []
  /-- BULK transfers to send, the first of them running (R550). -/
  bulk : List Bulk := []
  /-- What has arrived of BULK transfers, by kind (R550). -/
  bulkIn : List (BulkKind × Bytes) := []
deriving DecidableEq, Repr

end Sys2Proof.Machine
end

