-- ==== Sys2Proof/Syntax.lean ====
section
/-! DEFINITION. The commands: one constructor for each row of the opcode table, with the row's operands; those with
operands first, in the table's order. -/

namespace Sys2Proof

open Sys2Proof.Machine

/-- A command of the block. The docstring of a constructor says when it happens, with the rule of its row. -/
inductive Instr where
  /-- A Basalt write of REQ in SYS_ISL_n starts a steward's drain towards RETAIN or OFF, or a bring-up towards ON.
  (R35) -/
  | islandReqWrite (req : Requester) (isl : Nat) (v : Word)
  /-- The island's in-flight work reaches zero during a drain, so the steward clamps outputs, stops the clock,
  removes power if OFF is the target, and signals Basalt. (R35) -/
  | islandDrainEnd (isl : Nat)
  /-- The 100 µs drain limit expires with work still in flight, so FORCED is set and the island is isolated with a
  fault. (R35) -/
  | islandDrainTimeout (isl : Nat)
  /-- A bring-up completes: power, clock, reset release and open handshakes, and STATE reads ON. (R36) -/
  | islandPowerUp (isl : Nat)
  /-- A READ command (0x01) is checked, then issues member reads per run, reconstructing where needed, and returns
  data. (R123) -/
  | read (qp cid : Nat)
  /-- A WRITE command (0x02) is checked, pulls its data, and opens its stripes in ascending order to write every
  position with FUA. (R130) -/
  | write (qp cid : Nat)
  /-- A FLUSH command (0x03) sets an ordering barrier and completes once every earlier command of its queue pair is
  posted. (R85) -/
  | flush (qp cid : Nat)
  /-- A WRITE_ZEROES command (0x04) writes or deallocates zero blocks over its range. (R136) -/
  | writeZeroes (qp cid : Nat)
  /-- A TRIM command (0x05) deallocates its range or writes zeros to it. (R136) -/
  | trim (qp cid : Nat)
  /-- An ABORT command (0x08) tries to end the outstanding command with TARGET_CID before that command's issue
  point. (R90) -/
  | abort (qp cid : Nat)
  /-- The QPE issues a host read of up to 4 submission slots for a queue pair that has announced entries and has
  free completion slots. (R75) -/
  | entryFetch (qp : Nat)
  /-- A ring fetch returns, and its entries are taken as commands in slot order into the CLS. (R75) -/
  | entryFetchDone (qp : Nat)
  /-- The CREATE_QP admin command (0x41) creates a queue pair with its bindings and rings. (R81) -/
  | createQp (qp cid : Nat)
  /-- The DELETE_QP admin command (0x42) resets the target queue pair and frees it. (R82) -/
  | deleteQp (qp cid : Nat)
  /-- The RESET_QP admin command (0x43) drains the target queue pair and restarts it with empty rings. (R82) -/
  | resetQp (qp cid : Nat)
  /-- A write of QPE_INSP_SEL clears VALID and captures the selected queue pair's state within 1 µs. (R100) -/
  | qpeInspSel (v : Word)
  /-- The dispatch point serves a Class 0 command, or the next deficit-round-robin flow, to a free engine thread.
  (R236) -/
  | dispatch (cluster : Nat)
  /-- A slot's drive-issue point serves one member command doorbell by strict priority and deficit round robin.
  (R237) -/
  | driveIssue (slot : Nat)
  /-- An egress point serves one frame or TLP of a response by class. (R235) -/
  | egressServe (point : Nat)
  /-- The SET_SHAPER admin command (0x50) creates, replaces or removes a tenant shaper entry, or sets the defaults.
  (R249) -/
  | setShaper (qp cid : Nat)
  /-- A write of COMMIT in CLS_SHP_CFG applies the staged shaper values with the checks of R249. (R255) -/
  | shaperCommit (v : Word)
  /-- A write of CLS_SHP_SEL captures the selected shaper entry, or the defaults, into the shaper registers. (R254) -/
  | clsShpSel (v : Word)
  /-- Every PERIOD_MS, a TENANT_POLICY invocation runs for a tenant and may change its shaper entry. (R439) -/
  | tenantPolicyPeriod (att : Nat)
  /-- A waiting write opens its next stripe once no write is open there and it has a journal entry, a bitmap bit
  and a window place. (R125) -/
  | stripeOpen (qp cid : Nat)
  /-- A drive completes a member command, and the stripe or the command may close, complete or fail. (R132) -/
  | memberCompletion (slot mid status : Nat) (data : Bytes)
  /-- A waiting row reserves its staging and floor cells all at once, once they have been freed. (R156) -/
  | stagingReserve (qp cid : Nat)
  /-- A region untouched for 1 s with no open stripe leaves the open window. (R146) -/
  | windowRegionIdle (group region : Nat)
  /-- The CREATE_GROUP admin command (0x48) labels and zeroes the members and creates the group. (R158) -/
  | createGroup (qp cid : Nat)
  /-- The DELETE_GROUP admin command (0x49) overwrites the labels of the group's drives with a zero block. (R160) -/
  | deleteGroup (qp cid : Nat)
  /-- The CREATE_VOLUME admin command (0x4A) allocates the lowest free regions to a new volume. (R159) -/
  | createVolume (qp cid : Nat)
  /-- The DELETE_VOLUME admin command (0x4B) zeroises the volume's keys, deletes the volume and zeroes its regions.
  (R160) -/
  | deleteVolume (qp cid : Nat)
  /-- The IDENTIFY_VOLUME admin command (0x4C) writes the 4,096-byte description of a volume. (R161) -/
  | identifyVolume (qp cid : Nat)
  /-- The IDENTIFY_GROUP admin command (0x4D) writes the 4,096-byte description of a group. (R161) -/
  | identifyGroup (qp cid : Nat)
  /-- A write of STR_ROW_SEL captures one Strata sequence entry into STR_ROW_DATA. (R164) -/
  | strRowSel (v : Word)
  /-- One stripe of a deleted volume's regions is opened and zeroed as Class 7 work. (R160) -/
  | zeroingStripe (group : Nat)
  /-- A member command has no completion 2 s after it was issued, so the member becomes MISSING. (R173) -/
  | memberCommandTimeout (slot mid : Nat)
  /-- A drive link stays down 100 ms without retraining, so the member becomes MISSING. (R173) -/
  | driveLinkDownTimeout (slot : Nat)
  /-- A drive asynchronous event reports read-only media or degraded reliability, so the member becomes MISSING.
  (R173) -/
  | driveCriticalWarning (slot : Nat)
  /-- A paced Class 7 step reconstructs a position of the rebuilding slot into its spare chunk, or zeroes it in a
  free region. (R193) -/
  | rebuildStripe (slot : Nat)
  /-- A paced step writes one position of a REFILLING slot to the adopted drive, and the refill ends after the
  last. (R197) -/
  | refillPosition (slot : Nat)
  /-- A relocation sweep moves every changed position of one period and zeroes the freed spare chunks. (R722) -/
  | relocationSweepPeriod (group : Nat)
  /-- One stripe in the resynchronisation scope is made consistent as Class 7 work. (R205) -/
  | resyncStripe (group : Nat)
  /-- One stripe of a returning member's stale set is resynchronised, and the member becomes IN_SERVICE when the
  set is empty. (R215) -/
  | deltaResyncStripe (slot : Nat)
  /-- A Class 7 repair re-reads an unreadable member read and rewrites the bad blocks with FUA. (R182) -/
  | repairBlock
  /-- Lantern compares one stripe at every block offset, then records and possibly repairs its findings. (R211) -/
  | lanternStripe
  /-- An enumerated drive finishes identification, queue creation and reservation registration, and its label is
  read. (R667) -/
  | driveReady (slot : Nat) (id : DriveId) (label : Bytes) (reads : List (Nat × Nat × List Nat))
  /-- 60 s after SERVICE, each unassembled group is assembled with the members then ready. (R670) -/
  | assemblyDeadline (reads : List (Nat × Nat × List Nat))
  /-- The MEMBER_CONTROL admin command (0x4E) starts a rebuild, sets the policy, fails a member or adopts a drive.
  (R217) -/
  | memberControl (qp cid : Nat)
  /-- The LIST_BLOCKS admin command (0x4F) returns the unavailable-block list or the Lantern log. (R218) -/
  | listBlocks (qp cid : Nat)
  /-- A received Ethernet frame is checked and is dropped, passed to Basalt, or handed to its personality. (R263) -/
  | frameReceive (mac sub : Nat) (frame : Frame)
  /-- A received PFC frame pauses or resumes sending of its priorities. (R266) -/
  | pfcFrameReceive (mac vec : Nat) (quanta : List Nat)
  /-- The pause time given by a received PFC frame runs out, and sending of that priority resumes. (R266) -/
  | pfcPauseExpire (mac pri : Nat)
  /-- Every 2,000 ns of pause, the XOFF PFC frame is sent again while the holding stays above XON. (R266) -/
  | pfcXoffRepeat (mac pri : Nat)
  /-- A priority paused without a break for NET_PFC_WDOG ms trips the watchdog, and PFC is then ignored for it.
  (R267) -/
  | pfcWatchdogTrip (mac pri : Nat)
  /-- After 1 ms with no PFC frame for the priority, the MAC obeys PFC for it again. (R267) -/
  | pfcWatchdogClear (mac pri : Nat)
  /-- A sub-port gains or loses link. (R261) -/
  | networkLinkChange (mac sub : Nat) (up : Bool)
  /-- The SET_ADDRESS admin command (0x54) sets or removes a service address of a sub-port. (R272) -/
  | setAddress (qp cid : Nat)
  /-- The ROCE_ALLOW admin command (0x53) writes or removes a RoCEv2 allow entry. (R277) -/
  | roceAllow (qp cid : Nat)
  /-- A RoCEv2 CM REQ is accepted from an allowed host address or rejected. (R276) -/
  | cmReq (req : CmReq)
  /-- A RoCEv2 CM DREQ disconnects a connection. (R276) -/
  | cmDreq (conn : Nat)
  /-- An NVMe-oF Connect attaches a RoCEv2 connection to the queue pair that names its entry and queue identifier.
  (R278) -/
  | fabricsConnect (conn cid qid sqsize kato : Nat) (nqn : Bytes)
  /-- An NVMe-oF Property Get is answered by the face. (R276) -/
  | propertyGet (conn cid off : Nat)
  /-- An NVMe-oF Property Set is applied by the face. (R276) -/
  | propertySet (conn cid off v : Nat)
  /-- An NVMe-oF admin Identify is answered by Basalt firmware. (R279) -/
  | nvmeofIdentify (conn cid cns nsid : Nat)
  /-- An NVMe-oF Get Features for Number of Queues or Keep Alive Timer is answered. (R279) -/
  | getFeatures (conn cid fid : Nat)
  /-- An NVMe-oF Set Features for Number of Queues or Keep Alive Timer is applied. (R279) -/
  | setFeatures (conn cid fid v : Nat)
  /-- An NVMe-oF Keep Alive restarts the host's keep-alive timer. (R279) -/
  | keepAlive (conn cid : Nat)
  /-- An NVMe-oF Abort is carried out as an ABORT on the target queue pair. (R279) -/
  | nvmeofAbort (conn cid sqid target : Nat)
  /-- A host's keep-alive timer expires, so its RoCEv2 connections are disconnected and their queue pairs enter
  ERROR. (R279) -/
  | keepAliveTimeout (conn : Nat)
  /-- A SEND carrying an I/O command capsule is turned into an inline doorbell entry. (R280) -/
  | roceCommandCapsule (conn psn : Nat) (capsule : Bytes) (extra : Bool)
  /-- The 16-byte Dataset Management range read from the host arrives, and the TRIM entry is made. (R281) -/
  | dsmRangeArrive (conn cid : Nat) (range : Option Bytes)
  /-- An RDMA READ, RDMA WRITE or atomic that targets the controller is answered with a NAK. (R276) -/
  | roceRemoteAccess (conn psn : Nat)
  /-- A RoCEv2 ACK, NAK or RNR NAK arrives for the controller's requests. (R284) -/
  | roceAckReceive (conn : Nat) (kind : RoceAckKind) (psn : Nat)
  /-- RDMA READ response data arrives for a write-data pull. (R276) -/
  | roceReadResponse (conn psn dscp : Nat) (bytes : Bytes)
  /-- The local ACK timeout expires, and the request is retried or the connection ends. (R284) -/
  | roceAckTimeout (conn : Nat)
  /-- An ODT DOORBELL message is sequenced, applied in order, and receipted. (R290) -/
  | doorbell (h : OdtHdr)
  /-- An ODT DOORBELL_INLINE message is sequenced, applied as an inline doorbell, and receipted. (R290) -/
  | doorbellInline (h : OdtHdr) (entry : Bytes)
  /-- An ODT FETCH_RESP delivers the contents of the requested submission slots. (R296) -/
  | fetchResp (h : OdtHdr) (slots : Bytes)
  /-- An ODT host DATA segment delivers bytes of an outstanding pull. (R296) -/
  | data (h : OdtHdr) (bytes : Bytes)
  /-- An ODT CREDIT advances the host cell credit limit, and held messages may be sent. (R295) -/
  | credit (h : OdtHdr)
  /-- An ODT KEEPALIVE from the host establishes, keeps alive or resumes a connection. (R294) -/
  | keepalive (h : OdtHdr)
  /-- A sequenced controller message unacknowledged after RTO_US is retransmitted, and after three retransmissions
  the connection is SUSPECT. (R299) -/
  | odtRetransmit (conn : Nat)
  /-- A FETCH_RESP or DATA still missing 64 µs after its request is requested again for the missing part. (R298) -/
  | odtFetchRetry (conn : Nat)
  /-- A KEEPALIVE is sent after a KA interval without sending, or every 1 ms while OPENING. (R299) -/
  | odtKeepaliveSend (conn : Nat)
  /-- No host message for 10 KA intervals makes the connection SUSPECT. (R299) -/
  | odtHostSilence (conn : Nat)
  /-- RESUME_MS in SUSPECT expires, the connection becomes FAILED, and its queue pairs enter ERROR. (R300) -/
  | odtResumeExpire (conn : Nat)
  /-- A connection that has stayed 1 s in OPENING becomes FAILED. (R300) -/
  | odtOpeningExpire (conn : Nat)
  /-- The ODT_CONNECT admin command (0x51) creates a connection in OPENING. (R304) -/
  | odtConnect (qp cid : Nat)
  /-- The ODT_CLOSE admin command (0x52) sends KEEPALIVE with CLOSE and closes the connection. (R304) -/
  | odtClose (qp cid : Nat)
  /-- A write of NET_ODT_SEL captures the selected connection's state and sequence numbers. (R310) -/
  | netOdtSel (v : Word)
  /-- A 4-byte endpoint write to SQ_TAIL_DB is checked for function binding and applied as an SQ tail doorbell.
  (R317) -/
  | sqTailDb (func qp : Nat) (v : Word)
  /-- A 4-byte endpoint write to CQ_HEAD_DB is applied as a CQ head doorbell. (R317) -/
  | cqHeadDb (func qp : Nat) (v : Word)
  /-- A single 64-byte write to INL_ENTRY is an inline doorbell, and INL_STATUS is updated. (R318) -/
  | inlEntry (func qp : Nat) (entry : Bytes)
  /-- An inbound request that the endpoint does not support is answered as an Unsupported Request. (R314) -/
  | unsupportedRequest (kind : Nat)
  /-- A TLP to the peer window is matched to an aperture and acts as a doorbell or stores data, or is discarded.
  (R327) -/
  | peerWindowTlp (off reqId : Nat) (write : Bool) (len : Nat) (bytes : Bytes)
  /-- Bus Master Enable written 0 withdraws the function and ends its descriptors and queue pairs. (R333) -/
  | busMasterDisable (func : Nat) (mse : Bool)
  /-- Entry into D3hot withdraws the function. (R332) -/
  | d3hotEntry (func : Nat)
  /-- A function-level reset withdraws the function, resets its queue pairs and its configuration space. (R336) -/
  | functionLevelReset (func : Nat)
  /-- Clearing VF Enable or lowering NumVFs withdraws and resets the virtual functions removed. (R332) -/
  | vfDisable (numVfs : Nat)
  /-- A completion TLP for an outbound read delivers data, or is discarded if its function was withdrawn. (R334) -/
  | dmaCompletionTlp (tag : Nat) (bytes : Bytes)
  /-- A read with no complete answer after 50 ms is reported, ends its descriptor with FACE_ERROR, and errors its
  queue pair. (R335) -/
  | completionTimeout (tag : Nat)
  /-- Tags outstanding at a withdrawal return to use 50 ms after it. (R334) -/
  | tagRelease (func : Nat)
  /-- Unmasking a vector, or permitting sending again, sends one message for its pending bit. (R331) -/
  | msixUnmask (func : Nat) (what : MsixPermit)
  /-- A waiting Class 0 write reserves its Class 0 pool cells once they are free and issues its pull. (R358) -/
  | c0PoolReserve (qp cid : Nat)
  /-- The accelerator bus arbiter grants the next data phase, Class 0 first, and updates pointers and turn hints.
  (R363) -/
  | accBusArbitration (cluster : Nat)
  /-- A write of ENABLE 1 in PRISM_CTL takes the ring parameters and resets PROD and CONS. (R377) -/
  | prismEnable (v : Word)
  /-- A write of XBR_PART_SEL captures the selected port's partition state. (R376) -/
  | xbrPartSel (v : Word)
  /-- The LOAD_KEK admin command (0x58) unwraps and loads an operator KEK on each controller. (R392) -/
  | loadKek (qp cid : Nat)
  /-- The LOAD_KEY admin command (0x59) installs a volume key, or starts a rekey. (R393) -/
  | loadKey (qp cid : Nat)
  /-- One stripe of a rekey walk is re-encrypted under the new phase as Class 7 work. (R401) -/
  | rekeyWalkStripe (vol : Nat)
  /-- A write of CPH_KEY_SEL captures the selected key slot's state, COUNT, LIMIT and MARK. (R415) -/
  | cphKeySel (v : Word)
  /-- The ALU instruction writes rd from ra and rb as fn selects. (R470) -/
  | alu (e t : Nat) (g : Guard) (rd ra rb : Fin 32) (fn : Fin 128)
  /-- ADDI writes ra plus the sign-extended imm12. (R471) -/
  | addi (e t : Nat) (g : Guard) (rd ra : Fin 32) (imm : BitVec 12)
  /-- ANDI writes ra AND the sign-extended imm12. (R471) -/
  | andi (e t : Nat) (g : Guard) (rd ra : Fin 32) (imm : BitVec 12)
  /-- ORI writes ra OR the zero-extended imm12. (R471) -/
  | ori (e t : Nat) (g : Guard) (rd ra : Fin 32) (imm : BitVec 12)
  /-- XORI writes ra XOR the zero-extended imm12. (R471) -/
  | xori (e t : Nat) (g : Guard) (rd ra : Fin 32) (imm : BitVec 12)
  /-- SHI shifts ra by an immediate amount of a given kind. (R471) -/
  | shi (e t : Nat) (g : Guard) (rd ra : Fin 32) (imm : BitVec 12)
  /-- SETI writes the sign-extended imm16. (R471) -/
  | seti (e t : Nat) (g : Guard) (rd : Fin 32) (imm : BitVec 16)
  /-- SETIU writes the zero-extended imm16. (R471) -/
  | setiu (e t : Nat) (g : Guard) (rd : Fin 32) (imm : BitVec 16)
  /-- SHIN shifts rd left by 16 and inserts imm16. (R471) -/
  | shin (e t : Nat) (g : Guard) (rd : Fin 32) (imm : BitVec 16)
  /-- LB loads a sign-extended byte. (R472) -/
  | lb (e t : Nat) (g : Guard) (rd ra : Fin 32) (imm : BitVec 12)
  /-- LBU loads a zero-extended byte. (R472) -/
  | lbu (e t : Nat) (g : Guard) (rd ra : Fin 32) (imm : BitVec 12)
  /-- LH loads a sign-extended halfword. (R472) -/
  | lh (e t : Nat) (g : Guard) (rd ra : Fin 32) (imm : BitVec 12)
  /-- LHU loads a zero-extended halfword. (R472) -/
  | lhu (e t : Nat) (g : Guard) (rd ra : Fin 32) (imm : BitVec 12)
  /-- LW loads a sign-extended word, and is a register access in the register space. (R472) -/
  | lw (e t : Nat) (g : Guard) (rd ra : Fin 32) (imm : BitVec 12)
  /-- LWU loads a zero-extended word. (R472) -/
  | lwu (e t : Nat) (g : Guard) (rd ra : Fin 32) (imm : BitVec 12)
  /-- LD loads a doubleword. (R472) -/
  | ld (e t : Nat) (g : Guard) (rd ra : Fin 32) (imm : BitVec 12)
  /-- SB stores a byte. (R472) -/
  | sb (e t : Nat) (g : Guard) (rd ra : Fin 32) (imm : BitVec 12)
  /-- SH stores a halfword. (R472) -/
  | sh (e t : Nat) (g : Guard) (rd ra : Fin 32) (imm : BitVec 12)
  /-- SW stores a word, and is a register write in the register space. (R472) -/
  | sw (e t : Nat) (g : Guard) (rd ra : Fin 32) (imm : BitVec 12)
  /-- SD stores a doubleword. (R472) -/
  | sd (e t : Nat) (g : Guard) (rd ra : Fin 32) (imm : BitVec 12)
  /-- ATOM performs an atomic read-modify-write at the memory that holds the address. (R474) -/
  | atom (e t : Nat) (g : Guard) (rd ra rb : Fin 32) (fn : Fin 128)
  /-- B branches PC-relative. (R476) -/
  | b (e t : Nat) (g : Guard) (off : BitVec 22)
  /-- BL branches PC-relative and writes the return address to g31. (R476) -/
  | bl (e t : Nat) (g : Guard) (off : BitVec 22)
  /-- BR branches to the address in ra. (R476) -/
  | br (e t : Nat) (g : Guard) (ra : Fin 32)
  /-- BLR branches to ra and writes the return address to rd. (R476) -/
  | blr (e t : Nat) (g : Guard) (rd ra : Fin 32)
  /-- CMP writes a predicate from a register comparison. (R477) -/
  | cmp (e t : Nat) (g : Guard) (pd : Fin 8) (ra rb : Fin 32) (fn : Fin 128)
  /-- CMPI writes a predicate from a comparison with an immediate. (R477) -/
  | cmpi (e t : Nat) (g : Guard) (pd cc : Fin 8) (ra : Fin 32) (imm : BitVec 11)
  /-- PLOG writes a predicate from a logic function of two predicates. (R478) -/
  | plog (e t : Nat) (g : Guard) (pd pa pb fn : Fin 8)
  /-- QPOP takes the oldest message of a mailbox into memory. (R479) -/
  | qpop (e t : Nat) (g : Guard) (pd : Fin 8) (ra rb : Fin 32) (own : Bool) (pre : Option Cut)
  /-- QPUSH sends a 128-byte message to a mailbox after its checks. (R481) -/
  | qpush (e t : Nat) (g : Guard) (pd : Fin 8) (ra rb : Fin 32) (pre : Option Cut)
  /-- QHOOK sends HOOK_CALL to start an extension thread, or HOOK_RETURN to halt it. (R482) -/
  | qhook (e t : Nat) (g : Guard) (pd : Fin 8) (ra rb : Fin 32) (ret : Bool) (pre : Option Cut)
  /-- DMAD issues a 64-byte DMA descriptor to the cluster's DMA issue logic. (R484) -/
  | dmad (e t : Nat) (g : Guard) (pd : Fin 8) (ra : Fin 32) (pre : Option Cut)
  /-- ACC checks and queues an accelerator request on the cluster's bus. (R487) -/
  | acc (e t : Nat) (g : Guard) (pd : Fin 8) (ra : Fin 32) (pre : Option Cut)
  /-- WAIT waits until an event in its mask is pending, then returns the events and clears the latched ones. (R492) -/
  | wait (e t : Nat) (g : Guard) (rd rb : Fin 32)
  /-- YIELD lets another ready thread of its issue group issue first. (R493) -/
  | yield (e t : Nat) (g : Guard)
  /-- GETC reads a CSR. (R495) -/
  | getc (e t : Nat) (g : Guard) (rd : Fin 32) (csr : BitVec 8)
  /-- PUTC writes a CSR, for example TIMER, SIGNAL or a translation CSR. (R495) -/
  | putc (e t : Nat) (g : Guard) (csr : BitVec 8) (ra : Fin 32)
  /-- SWPC swaps a CSR with a register. (R495) -/
  | swpc (e t : Nat) (g : Guard) (rd : Fin 32) (csr : BitVec 8) (ra : Fin 32)
  /-- BITC sets or clears one bit of a CSR and returns the old value. (R495) -/
  | bitc (e t : Nat) (g : Guard) (rd : Fin 32) (csr : BitVec 8) (n : Fin 64) (v : Bool)
  /-- TRAP traps with cause TRAP, and with code 0 in U mode returns an invocation's result. (R498) -/
  | trap (e t : Nat) (g : Guard) (code : BitVec 12)
  /-- ERET returns to TPC in the saved mode and clears INTRAP. (R497) -/
  | eret (e t : Nat) (g : Guard)
  /-- FENCE orders accesses and writes back or invalidates cache lines as its form selects. (R499) -/
  | fence (e t : Nat) (g : Guard) (ra rb : Fin 32) (form : Fin 128) (pre : Option Cut)
  /-- A word with an unused opcode or a bad field traps with cause ILLEGAL whatever its guard. (R467) -/
  | illegalWord (e t : Nat) (w : Word)
  /-- A DMA descriptor's last started chunk ends, and DONE then STATUS are written and the DMA event latched.
  (R527) -/
  | descriptorEnd (id : Nat)
  /-- A pending DMA_FAULT is taken at the thread's next instruction boundary. (R529) -/
  | dmaFaultTrap (e t : Nat)
  /-- The accelerator front-end writes a request's status and result and latches the ACC event. (R490) -/
  | accResult (e t : Nat)
  /-- Gnomon time reaches a thread's TIMER CSR, and the TIMER event becomes pending. (R433) -/
  | timerEvent (e t : Nat)
  /-- The SET_SIGNER admin command (0x5B) installs or removes a signer key. (R450) -/
  | setSigner (qp cid : Nat)
  /-- The LOAD_EXT admin command (0x5C) verifies and loads a signed extension image. (R451) -/
  | loadExt (qp cid : Nat)
  /-- The ATTACH_HOOK admin command (0x5D) attaches an image to a hook target. (R452) -/
  | attachHook (qp cid : Nat)
  /-- The DETACH_HOOK admin command (0x5E) detaches an attachment after its running invocations end. (R453) -/
  | detachHook (qp cid : Nat)
  /-- The UNLOAD_EXT admin command (0x5F) unloads an image slot that no attachment uses. (R453) -/
  | unloadExt (qp cid : Nat)
  /-- A write of FCT_THR_SEL captures the selected thread's state. (R462) -/
  | fctThrSel (v : Word)
  /-- A write of ENABLE 1 in PMC_SMP_CTL takes the ring parameters and resets PROD and CONS. (R459) -/
  | pmcSampleEnable (v : Word)
  /-- A write of GO in MMU_INV_CTL queues a TLB invalidation request. (R542) -/
  | mmuInvalidate (v : Word)
  /-- The REG_KEY admin command (0x44) registers a memory key. (R521) -/
  | regKey (qp cid : Nat)
  /-- The DEREG_KEY admin command (0x45) revokes a key and completes when its USES reaches 0. (R523) -/
  | deregKey (qp cid : Nat)
  /-- A peer's HELLO frame arrives and drives the pairing election. (R546) -/
  | hello (serial : Nat) (role : Role) (last : Bool) (drive net : Nat) (crcOk : Bool)
  /-- The shadow receives RENEW, acknowledges it at once, and extends its lease copy. (R559) -/
  | renew (n : Nat) (crcOk : Bool)
  /-- The active receives RENEW_ACK, extends its lease copy, and takes the shadow's reach counts. (R559) -/
  | renewAck (n drive net : Nat) (crcOk : Bool)
  /-- The shadow stages the lines carried by a LINES frame. (R554) -/
  | lines (copy : Nat) (entries : List (Nat × Bytes)) (crcOk : Bool)
  /-- On COMMIT the shadow applies the staged copy in one step and sends COPY_ACK, or asks for a resend. (R554) -/
  | commit (copy count crc : Nat) (image : Option RepImage) (crcOk : Bool)
  /-- The active receives COPY_ACK, which ends waits for the shadow's acknowledgement, or resends the copy. (R555) -/
  | copyAck (copy : Nat) (resend flash crcOk : Bool)
  /-- The shadow appends the command log records of a LOG frame and acknowledges them. (R556) -/
  | log (records : List LogRec) (crcOk : Bool)
  /-- The active receives LOG_ACK, which releases commands waiting on their records. (R557) -/
  | logAck (num : Nat) (crcOk : Bool)
  /-- A shadow receiving RELEASE for a copy it has applied enters TAKING_OVER without a tie-break. (R566) -/
  | release (copy : Nat) (crcOk : Bool)
  /-- The active receives LEAVE and becomes SOLO. (R566) -/
  | leave (crcOk : Bool)
  /-- A BULK frame carries images, signers, wrapped keys or a fatal-state image pull. (R692) -/
  | bulk (kind : BulkKind) (off : Nat) (bytes : Bytes) (last crcOk : Bool)
  /-- A BULK_ACK acknowledges a transfer offset, and the last one completes the pull. (R692) -/
  | bulkAck (kind : BulkKind) (off : Nat) (crcOk : Bool)
  /-- The arbiter drive completes a tie-break Preempt, which decides who serves. (R563) -/
  | arbiterPreemptDone (ok : Bool)
  /-- A member whose Reservation Acquire has not succeeded within 100 ms becomes MISSING. (R562) -/
  | reservationAcquireTimeout (slot : Nat)
  /-- A write of SLEEP in GLM_CTL asks Glimmer to enter sleep. (R632) -/
  | glimmerSleep (core : Nat)
  /-- A debounced presence edge moves an EMPTY slot to DISABLED or INSERT. (R590) -/
  | presenceEdge (slot : Nat)
  /-- Debounced presence loss moves a slot to EMPTY and removes its gate. (R590) -/
  | presenceLost (slot : Nat)
  /-- TRIP_s asserts in RAMP or ON, and the gate is deasserted within 200 ns as fault 1. (R592) -/
  | fastTrip (slot : Nat)
  /-- The fault timer reaches FAULT_MS, which is fault 2. (R593) -/
  | faultTimerExpire (slot : Nat)
  /-- PGOOD_s has not held for 1 ms 20 ms after the gate asserted, which is fault 3. (R589) -/
  | rampTimeout (slot : Nat)
  /-- PGOOD_s has been asserted 1 ms in RAMP, and the slot moves to ON. (R589) -/
  | rampComplete (slot : Nat)
  /-- PGOOD_s stays deasserted for 100 µs in ON, which is fault 4. (R592) -/
  | powerGoodLost (slot : Nat)
  /-- A rail group's rails have been inside their windows for 50 ms, so it becomes GOOD. (R586) -/
  | railGroupGood (group : Nat)
  /-- A rail sample falls outside its window, and the rail group stops being GOOD. (R586) -/
  | railGroupNotGood (group : Nat)
  /-- The insertion delay passes for a slot in INSERT, and it becomes QUEUED. (R587) -/
  | insertDelayExpire (slot : Nat)
  /-- A QUEUED slot enters RAMP once the inrush budget allows and its rail group is GOOD. (R588) -/
  | rampStart (slot : Nat)
  /-- RETRY_S after a fault, a LATCHED slot goes to QUEUED. (R596) -/
  | retryExpire (slot : Nat)
  /-- PGOOD_s stays asserted more than 2 ms on a slot not in RAMP or ON, so PEER_HOLD is set. (R597) -/
  | peerHoldDetect (slot : Nat)
  /-- The drive reports shutdown complete, or 10 s passes, after POWER_OFF, and the gate is deasserted. (R602) -/
  | shutdownComplete (slot : Nat) (done : Bool)
  /-- After the slot has been ON for 10 ms, its root port deasserts DRV_PERST_N_s and begins link training. (R598) -/
  | rootPortTrainStart (slot : Nat)
  /-- The SLOT_CONTROL admin command (0x56) powers a slot on or off, cycles it, or releases it. (R600) -/
  | slotControl (qp cid : Nat)
  /-- A write of CYCLE in SPM_SLOT_CTL_s toggles a LATCHED slot to QUEUED. (R606) -/
  | spmSlotCycle (slot : Nat)
  /-- A write of RELEASE in SPM_SLOT_CTL_s releases a QUARANTINED slot and empties its fault history. (R606) -/
  | spmSlotRelease (slot : Nat)
  /-- A write to a register without a row of its own is posted or stalled according to SYS_MODE. (R610) -/
  | registerWrite (req : Requester) (off : Nat) (v : Word)
  /-- A read of a word with RC fields clears each field by exactly what the read returned. (R616) -/
  | rcRead (req : Requester) (off : Nat) (aliasBit : Option Nat)
  /-- A write to a bit-alias word acts on one bit as the field's access code gives. (R618) -/
  | aliasWrite (req : Requester) (off : Nat) (bit : Nat) (v : Word)
  /-- A posted write reaches its owning island and is applied, or is discarded if the island is down. (R612) -/
  | postedWriteApply (req : Requester) (isl : Nat)
  /-- A read of SYS_WSYNC stalls until the requester's accepted writes are applied, then returns their count.
  (R613) -/
  | sysWsync (req : Requester)
  /-- A stalled access not accepted within 2 µs is withdrawn and ends with a bus error. (R614) -/
  | busErrorTimeout (req : Requester)
  /-- A write of SYS_MODE by Basalt or JTAG changes how the fabric serves later accesses. (R615) -/
  | sysMode (req : Requester) (v : Word)
  /-- A write of GO in SYS_SNAP sets BUSY and chooses the snapshot instant T. (R621) -/
  | sysSnap (v : Word)
  /-- A read of ICU_CLAIM_k claims the lowest pending unmasked source routed to core k and makes it active. (R628) -/
  | icuClaim (req : Requester) (k : Nat)
  /-- A write of ICU_EOI_k completes an active source, or is counted as spurious. (R629) -/
  | icuEoi (k n : Nat)
  /-- A write of ICU_MASK_SET_w masks the sources written as 1. (R627) -/
  | icuMaskSet (w : Nat) (v : Word)
  /-- A write of ICU_MASK_CLR_w unmasks the sources written as 1. (R627) -/
  | icuMaskClr (w : Nat) (v : Word)
  /-- A write of ICU_PEND_SET_w makes the sources written as 1 pending. (R627) -/
  | icuPendSet (w : Nat) (v : Word)
  /-- A write of ICU_PEND_CLR_w clears the pending bits written as 1. (R627) -/
  | icuPendClr (w : Nat) (v : Word)
  /-- A keyed write of WARM in SYS_RST starts a WARM reset. (R679) -/
  | sysRstWarm (req : Requester) (v : Word)
  /-- A keyed write of ORDERLY in SYS_RST starts an ORDERLY reset. (R679) -/
  | sysRstOrderly (req : Requester) (v : Word)
  /-- The RESET_CONTROLLER admin command (0x40) completes and then starts an ORDERLY reset. (R655) -/
  | resetController (qp cid : Nat)
  /-- The FW_DOWNLOAD admin command (0x46) writes part of an image into the slot not running. (R674) -/
  | fwDownload (qp cid : Nat)
  /-- The FW_ACTIVATE admin command (0x47) sets the next boot slot, or starts a hitless activation. (R675) -/
  | fwActivate (qp cid : Nat)
  /-- During a hitless activation, the next cluster stalls, migrates and resumes under the new text. (R676) -/
  | clusterSwitch (ok : Bool) (stallUs : Nat)
  /-- An "admin" console line writes the ADMIN record and is answered ok or err. (R666) -/
  | uartAdminLine (chars : Bytes)
  /-- A configuration record has been programmed and read back, so the item counts as written. (R662) -/
  | configRecordWritten (ok : Bool)
  /-- A keyed write of FATAL in SYS_ERR_CTL raises a fatal event with CAUSE 8. (R697) -/
  | sysErrFatal (req : Requester) (v : Word)
  /-- A write of PET in SYS_WDOG renews, and first arms, the watchdog. (R697) -/
  | watchdogPet (req : Requester) (v : Word)
  /-- Every 1 ms each sensor is read, and sustained thresholds raise a warning, a self-check or a fatal error.
  (R684) -/
  | temperatureReading (sensor : Nat) (quarters : Int)
  /-- A network or PCIe reference PLL unlocks for 10 µs, and its links drop. (R683) -/
  | pllUnlock (pll : PllRef)
  /-- An SMBus clock stays low 25 ms or a transaction exceeds 35 ms, so the bus is reset. (R683) -/
  | smbusTimeout (controller : Nat)
  /-- An island boundary handshake is not acknowledged within 100 µs outside a transition, which is fatal. (R687) -/
  | handshakeTimeout (isl : Nat)
  /-- An ECC error is corrected, contained or made fatal according to its site. (R686) -/
  | memoryError (site : MemSite)
  /-- The GET_FATAL admin command (0x60) copies part of the own image or of the peer copy, and may clear it. (R694) -/
  | getFatal (qp cid : Nat)
  /-- A rail leaves its window, which updates SYS_SUPPLY, raises source 8, and fails self-check SUPPLY. (R702) -/
  | supplyOutOfWindow (rail : Nat)
  /-- VDD_CORE, VDD_SRAM, VDD_IO or VDD_AON falls below its reset level, which causes a COLD reset. (R702) -/
  | supplyBelowResetLevel (rail : Nat)
  /-- A RoCEv2 CM RTU from the host completes the establishment of a connection that CM REQ began. (R276) -/
  | cmRtu (conn : Nat)
  /-- The RNR NAK timer of a controller request runs out, and the request is retried or the RNR retry count is
  exhausted. (R284) -/
  | roceRnrTimerExpire (conn : Nat)
  /-- VF Enable is set or NumVFs is raised, so virtual functions come into existence and become enabled. (R724) -/
  | vfEnable (numVfs : Nat)
  /-- The endpoint's data link layer comes up, LINK_UP sets with its speed and width, and the functions answer
  configuration requests. (R342) -/
  | endpointLinkUp (speed width : Nat) (flit : Bool)
  /-- A configuration read of the VSEC word at 0x408 returns and clears MASTER_LOST. (R340) -/
  | masterLostRead (func : Nat)
  /-- One half of the Mirror link comes up or goes down, which restores the link or changes its bandwidth and epoch
  line limit. (R548) -/
  | mirrorLinkHalfChange (half : Nat) (up : Bool)
  /-- A drive link goes down, arming the 100 ms retrain limit, or retrains before it runs out. (R173) -/
  | driveLinkChange (slot : Nat) (up : Bool)
  /-- A PRSNT_s change that does not hold for 20 ms is discarded and counted in SPM_BOUNCE. (R608) -/
  | presenceBounce (slot : Nat)
  /-- PGOOD_s deasserts on a slot that is not in ON, which clears PEER_HOLD. (R597) -/
  | pgoodDeassert (slot : Nat)
  /-- A converter samples an ISENSE or rail channel, which updates CURRENT, V12 or V3 and advances, holds or resets
  the slot's fault timer. (R593) -/
  | converterSample (conv chan code : Nat)
  /-- A rail returns inside its window, and its INWIN bit in SYS_SUPPLY sets again. (R702) -/
  | supplyReturnToWindow (rail : Nat)
  /-- A fault entry of a slot's history reaches 60 s of age and leaves the history, lowering FAULTS. (R595) -/
  | faultHistoryExpire (slot : Nat)
  /-- On each whole microsecond of Gnomon time, CIR and PIR are added to each tenant's buckets and the buckets are
  capped. (R240) -/
  | policerRefill
  /-- Waiting erasure work is assigned to the slice that is ON with the most free contexts, once one is free.
  (R168) -/
  | sliceAssign
  /-- A write of RESTART in LNT_CTL ends the current Lantern pass and begins a new one at group 0. (R224) -/
  | lntRestart
  /-- Every 1 ms, the per-member pacing bucket for rebuild, refill and resynchronisation is refilled. (R195) -/
  | rebuildPacingRefill
  /-- The scheduled repeat of the service-address announcements goes out 200 µs and 1 ms after the first. (R274) -/
  | addressAnnounce
  /-- A write of COMMIT in EPF_WIN_CTL captures the staged aperture translations, checks them, and puts them in
  force at one instant. (R325) -/
  | epfWinCommit
  /-- A hot reset, link disable or surprise link down withdraws every function. (R336) -/
  | endpointLinkLoss
  /-- Assertion of EP_PERST_N is handled as a link loss of the endpoint. (R718) -/
  | epPerstAssert
  /-- The scheduler builds one 4 ns slot's matching by up to three grant-accept iterations, and the matched cells
  cross. (R351) -/
  | crossbarSlot
  /-- An invalidation's entries are dropped, and its walks and chunks have ended, so SEQ increments. (R514) -/
  | invalidationComplete
  /-- Every 10 µs in PAIRING, the controller sends HELLO. (R546) -/
  | helloSend
  /-- No HELLO from a peer within 1 s in PAIRING, so the controller becomes SOLO. (R545) -/
  | pairingTimeout
  /-- At the end of each 20 µs epoch the active sends RENEW and cuts a copy of the marked lines. (R553) -/
  | epochEnd
  /-- A log record unacknowledged 1.5 µs after it was sent is sent again, and issue and posting stop until it is
  acknowledged. (R557) -/
  | logResend
  /-- The active's own lease copy expires, so the fence is asserted and the role becomes FENCED. (R560) -/
  | activeLeaseExpire
  /-- The shadow's lease copy plus drift guard expires, and it enters TAKING_OVER. (R567) -/
  | shadowLeaseExpire
  /-- A FENCED controller that is not releasing sends Preempt on the arbiter 1.2 ms after its expiry. (R563) -/
  | tieBreakWait
  /-- A write of RELEASE in SHD_CTL runs the explicit release on the active. (R565) -/
  | shdCtlRelease
  /-- A write of LEAVE in SHD_CTL on the shadow sends LEAVE and enters PAIRING with PAIR_EN cleared. (R566) -/
  | shdCtlLeave
  /-- Both halves of the Mirror link go down, so the link is lost. (R548) -/
  | mirrorLinkLoss
  /-- Once all Basalt cores wait for interrupt, Glimmer refuses sleep or takes islands 165 and 166 to RETAIN.
  (R632) -/
  | glimmerSleepEnter
  /-- The Glimmer wake timer expires during sleep. (R631) -/
  | glimmerTimer
  /-- At Gnomon instant T each island captures its counters into holding registers, and the snapshot completes.
  (R621) -/
  | snapshotCapture
  /-- A qualified PPS edge is taken as candidate, aligns Gnomon time and rate, or is ignored by state. (R643) -/
  | ppsEdge
  /-- A PPS window closes with no edge accepted, and the third such close enters HOLDOVER. (R643) -/
  | ppsWindowClose
  /-- At the next whole second with no accepted edge, RATE becomes the frequency-only value. (R644) -/
  | rateSecond
  /-- Clearing PPS_EN in ACQUIRE or LOCKED moves Gnomon to HOLDOVER. (R643) -/
  | ppsDisable
  /-- Supplies rising into their windows, or PORST_N held low for 10 µs, starts a COLD reset. (R650) -/
  | porstN
  /-- WARM_RST_N held low for 10 µs starts a WARM reset. (R650) -/
  | warmRstN
  /-- A console line unfinished for 1 s is discarded and answered err. (R683) -/
  | uartLineTimeout
  /-- SYS_WDOG is not renewed within LIMIT_MS, which is fatal with cause WATCHDOG. (R687) -/
  | watchdogExpire
  /-- The 25 MHz reference misses edges for 200 ns or leaves its range, which is fatal. (R683) -/
  | refClockLoss
  /-- The 32.768 kHz input has no edge for 1 ms or leaves its range, so source 9 is raised. (R683) -/
  | aonClockLoss
  /-- The fatal-state image is fully written with COMPLETE 1 and is offered to the peer. (R690) -/
  | fatalImageComplete
  /-- 1 s after the image completes, unless HOLD is set, a WARM reset with CAUSE 6 follows. (R689) -/
  | fatalResetTimer
  /-- The image is not complete 100 ms after a watchdog expiry, so hardware performs the WARM reset. (R689) -/
  | fatalWatchdogReset
  /-- EP_PERST_N is deasserted, so endpoint link training may begin once LINK_EN is 1. (R718) -/
  | epPerstDeassert
  /-- A reset requested through JTAG starts a WARM reset with CAUSE 7. (R650) -/
  | jtagReset
  /-- A fatal request through JTAG raises a fatal event with CAUSE 9. (R687) -/
  | jtagFatalRequest
  /-- At each 25 MHz housekeeping edge every island samples the registers it owns into the register fabric's copy.
  (R611) -/
  | housekeepingEdge
deriving DecidableEq, Repr

end Sys2Proof
end

