-- ==== Sys2Proof/Machine/RegTable.lean ====
section
/-! DEFINITION. Every register of the register space (R47, R48), one `Reg` per register or register array:
its rule, its offset from 0x00_1000_0000, its fields with their access codes (R18) and reset values, and its
owning island (R609). Generated from the register tables of the chapters. -/

namespace Sys2Proof.Machine

/-- The access codes of R18. -/
inductive Acc where
  | rw | ro | rc | wo | w1p | set | clr
deriving DecidableEq, Repr

/-- One field of a register: bits [msb:lsb], access and reset value (a fused value or a value the text gives
is supplied by the register's view and stands as 0 here). -/
structure RegField where
  msb : Nat
  lsb : Nat
  acc : Acc
  reset : Nat
deriving DecidableEq, Repr

/-- The owning island of a register (R609): one island, or `base + step * n` for entry `n` of an array. -/
inductive Owner where
  | fixed (island : Nat)
  | lane (base step : Nat)
deriving DecidableEq, Repr

/-- A register or register array. `wide`: 64 bits at two consecutive offsets (R49). -/
structure RegInfo where
  base : Nat
  count : Nat
  stride : Nat
  wide : Bool
  owner : Owner
  fields : List RegField
deriving DecidableEq, Repr

/-- The registers, by the names of the register tables. -/
inductive Reg where
  | sysCap0 -- SYS_CAP0 (R5)
  | sysCap1 -- SYS_CAP1 (R6)
  | sysCap2 -- SYS_CAP2 (R7)
  | sysCap3 -- SYS_CAP3 (R8)
  | sysMode -- SYS_MODE (R623)
  | sysWsync -- SYS_WSYNC (R623)
  | sysSnap -- SYS_SNAP (R624)
  | sysSnapTime -- SYS_SNAP_TIME (R624)
  | sysBusErr -- SYS_BUS_ERR (R624)
  | sysRst -- SYS_RST (R679)
  | sysRstCause -- SYS_RST_CAUSE (R680)
  | sysBoot -- SYS_BOOT (R681)
  | sysFwact -- SYS_FWACT (R682)
  | sysErrStat -- SYS_ERR_STAT (R696)
  | sysErrCtl -- SYS_ERR_CTL (R697)
  | sysWdog -- SYS_WDOG (R697)
  | sysFatal -- SYS_FATAL (R698)
  | sysCe -- SYS_CE (R699)
  | sysUe -- SYS_UE (R699)
  | sysInBad -- SYS_IN_BAD (R699)
  | sysAvs -- SYS_AVS (R704)
  | sysSupply -- SYS_SUPPLY (R705)
  | sysTemp -- SYS_TEMP (R715)
  | sysIsl -- SYS_ISL_n (R31)
  | icuCap -- ICU_CAP (R635)
  | icuSpur -- ICU_SPUR (R635)
  | icuClaim -- ICU_CLAIM_n (R636)
  | icuEoi -- ICU_EOI_n (R636)
  | icuMaskSet -- ICU_MASK_SET_n (R637)
  | icuMaskClr -- ICU_MASK_CLR_n (R637)
  | icuPendSet -- ICU_PEND_SET_n (R637)
  | icuPendClr -- ICU_PEND_CLR_n (R637)
  | icuActive -- ICU_ACTIVE_n (R637)
  | icuRoute -- ICU_ROUTE_n (R638)
  | glmCtl -- GLM_CTL (R639)
  | glmTimer -- GLM_TIMER (R639)
  | glmWakes -- GLM_WAKES (R639)
  | glmWatch -- GLM_WATCH_n (R639)
  | gnmState -- GNM_STATE (R647)
  | gnmCtl -- GNM_CTL (R647)
  | gnmTime -- GNM_TIME (R648)
  | gnmFrac -- GNM_FRAC (R648)
  | gnmRate -- GNM_RATE (R648)
  | gnmEdge -- GNM_EDGE (R648)
  | gnmPhase -- GNM_PHASE (R648)
  | gnmSecAdj -- GNM_SEC_ADJ (R648)
  | gnmPpsBad -- GNM_PPS_BAD (R649)
  | gnmPpsMiss -- GNM_PPS_MISS (R649)
  | gnmHoldover -- GNM_HOLDOVER (R649)
  | spmCap -- SPM_CAP (R603)
  | spmCfg -- SPM_CFG (R604)
  | spmInrush -- SPM_INRUSH (R604)
  | spmRail -- SPM_RAIL_n (R605)
  | spmFault -- SPM_FAULT (R608)
  | spmQuar -- SPM_QUAR (R608)
  | spmBounce -- SPM_BOUNCE (R608)
  | spmRailOut -- SPM_RAIL_OUT (R608)
  | spmSlotCtl -- SPM_SLOT_CTL_n (R606)
  | spmSlotSt -- SPM_SLOT_ST_n (R607)
  | shdCap -- SHD_CAP (R575)
  | shdRole -- SHD_ROLE (R576)
  | shdCtl -- SHD_CTL (R577)
  | shdSelfchk -- SHD_SELFCHK (R577)
  | shdLease -- SHD_LEASE (R578)
  | shdArb -- SHD_ARB (R578)
  | shdEpoch -- SHD_EPOCH (R579)
  | shdCopySent -- SHD_COPY_SENT (R579)
  | shdCopyAcked -- SHD_COPY_ACKED (R579)
  | shdDirty -- SHD_DIRTY (R579)
  | shdRepBase -- SHD_REP_BASE (R579)
  | shdLinkErr -- SHD_LINK_ERR (R580)
  | shdOverrun -- SHD_OVERRUN (R580)
  | shdLogRetx -- SHD_LOG_RETX (R580)
  | shdReleases -- SHD_RELEASES (R580)
  | shdTakeovers -- SHD_TAKEOVERS (R580)
  | netCap -- NET_CAP (R305)
  | netPort -- NET_PORT_n (R306)
  | netMtu -- NET_MTU_n (R306)
  | netDscpPri -- NET_DSCP_PRI_n (R307)
  | netClsPri -- NET_CLS_PRI (R308)
  | netPfc -- NET_PFC (R308)
  | netPfcWdog -- NET_PFC_WDOG (R308)
  | netOdtCfg -- NET_ODT_CFG (R309)
  | netRoceCfg -- NET_ROCE_CFG (R309)
  | netRoceCnp -- NET_ROCE_CNP (R309)
  | netOdtSel -- NET_ODT_SEL (R310)
  | netOdtState -- NET_ODT_STATE (R310)
  | netOdtHseq -- NET_ODT_HSEQ (R310)
  | netOdtDseq -- NET_ODT_DSEQ (R310)
  | netRxDrop -- NET_RX_DROP (R311)
  | netFcsErr -- NET_FCS_ERR (R311)
  | netPfcWdogCt -- NET_PFC_WDOG_CT (R311)
  | netCeRx -- NET_CE_RX (R311)
  | netCnpTx -- NET_CNP_TX (R311)
  | netCnpRx -- NET_CNP_RX (R311)
  | netOdtRetx -- NET_ODT_RETX (R311)
  | netOdtDup -- NET_ODT_DUP (R311)
  | netOdtDiscard -- NET_ODT_DISCARD (R311)
  | netOdtSuspect -- NET_ODT_SUSPECT (R311)
  | netOdtFailed -- NET_ODT_FAILED (R311)
  | netMgmtDrop -- NET_MGMT_DROP (R311)
  | epfCap -- EPF_CAP (R341)
  | epfLink -- EPF_LINK (R342)
  | epfIds -- EPF_IDS (R342)
  | epfWinCtl -- EPF_WIN_CTL (R343)
  | epfDbForeign -- EPF_DB_FOREIGN (R345)
  | epfWinDrop -- EPF_WIN_DROP (R345)
  | epfLateCpl -- EPF_LATE_CPL (R345)
  | epfCto -- EPF_CTO (R345)
  | epfMdEnd -- EPF_MD_END (R345)
  | epfWinCfg -- EPF_WIN_CFG_n (R344)
  | epfWinKey -- EPF_WIN_KEY_n (R344)
  | epfWinOff -- EPF_WIN_OFF_n (R344)
  | xbrCap -- XBR_CAP (R372)
  | xbrPresent -- XBR_PRESENT (R373)
  | xbrPool -- XBR_POOL (R374)
  | xbrPoolSize -- XBR_POOL_SIZE (R374)
  | xbrC0 -- XBR_C0 (R374)
  | xbrOvfBase -- XBR_OVF_BASE (R375)
  | xbrPartSel -- XBR_PART_SEL (R376)
  | xbrPartState -- XBR_PART_STATE (R376)
  | xbrPartShared -- XBR_PART_SHARED (R376)
  | xbrPartC0ovf -- XBR_PART_C0OVF (R376)
  | xbrPartMax -- XBR_PART_MAX (R376)
  | xbrDiscard -- XBR_DISCARD (R378)
  | xbrMcSplit -- XBR_MC_SPLIT (R378)
  | xbrOvfWr -- XBR_OVF_WR (R378)
  | xbrWait -- XBR_WAIT (R378)
  | prismTaken -- PRISM_TAKEN (R378)
  | prismLost -- PRISM_LOST (R378)
  | prismCtl -- PRISM_CTL (R377)
  | prismRingBase -- PRISM_RING_BASE (R377)
  | prismProd -- PRISM_PROD (R377)
  | prismCons -- PRISM_CONS (R377)
  | prismN -- PRISM_N_n (R377)
  | cphCap -- CPH_CAP (R412)
  | cphCtl -- CPH_CTL (R413)
  | cphWalkRate -- CPH_WALK_RATE (R413)
  | cphKeyUsed -- CPH_KEY_USED (R414)
  | cphKek -- CPH_KEK (R414)
  | cphKeySel -- CPH_KEY_SEL (R415)
  | cphKeyState -- CPH_KEY_STATE (R415)
  | cphKeyCount -- CPH_KEY_COUNT (R415)
  | cphKeyLimit -- CPH_KEY_LIMIT (R415)
  | cphKeyMark -- CPH_KEY_MARK (R415)
  | cphAuthFail -- CPH_AUTH_FAIL (R416)
  | cphExhausted -- CPH_EXHAUSTED (R416)
  | cphSuspend -- CPH_SUSPEND (R416)
  | cphUnwrapFail -- CPH_UNWRAP_FAIL (R416)
  | cphWalkBlocks -- CPH_WALK_BLOCKS (R416)
  | cphStageMerge -- CPH_STAGE_MERGE (R416)
  | parCap -- PAR_CAP (R169)
  | parSlice -- PAR_SLICE_n (R170)
  | parInCells -- PAR_IN_CELLS (R171)
  | parOutCells -- PAR_OUT_CELLS (R171)
  | parCtxWait -- PAR_CTX_WAIT (R171)
  | parInputEnded -- PAR_INPUT_ENDED (R171)
  | strCap -- STR_CAP (R162)
  | strJnlUsed -- STR_JNL_USED (R163)
  | strWinUsed -- STR_WIN_USED (R163)
  | strUblUsed -- STR_UBL_USED (R219)
  | strRowSel -- STR_ROW_SEL (R164)
  | strRowData -- STR_ROW_DATA (R165)
  | strBmpSet -- STR_BMP_SET (R167)
  | strWinWait -- STR_WIN_WAIT (R167)
  | strStageWait -- STR_STAGE_WAIT (R167)
  | strRecon -- STR_RECON (R223)
  | strRepair -- STR_REPAIR (R223)
  | strLost -- STR_LOST (R223)
  | strIndet -- STR_INDET (R223)
  | strUnreloc -- STR_UNRELOC (R223)
  | strRbldRate -- STR_RBLD_RATE (R220)
  | strReturnWin -- STR_RETURN_WIN (R220)
  | strGrp -- STR_GRP_n (R166)
  | strMbr -- STR_MBR_n (R221)
  | strGst -- STR_GST_n (R222)
  | lntCtl -- LNT_CTL (R224)
  | lntRate -- LNT_RATE (R224)
  | lntPos -- LNT_POS (R224)
  | lntPass -- LNT_PASS (R225)
  | lntStripes -- LNT_STRIPES (R225)
  | lntMismatch -- LNT_MISMATCH (R225)
  | lntRepaired -- LNT_REPAIRED (R225)
  | lntUnlocated -- LNT_UNLOCATED (R225)
  | qpeCap -- QPE_CAP (R98)
  | qpePinUsed -- QPE_PIN_USED (R99)
  | qpeInspSel -- QPE_INSP_SEL (R100)
  | qpeInspState -- QPE_INSP_STATE (R101)
  | qpeInspSq -- QPE_INSP_SQ (R102)
  | qpeInspCq -- QPE_INSP_CQ (R103)
  | qpeDbBad -- QPE_DB_BAD (R104)
  | qpeDbFree -- QPE_DB_FREE (R104)
  | qpeCtxMiss -- QPE_CTX_MISS (R104)
  | clsCap -- CLS_CAP (R251)
  | clsCeil -- CLS_CEIL (R252)
  | clsQuantum1 -- CLS_QUANTUM_1 (R253)
  | clsQuantum2 -- CLS_QUANTUM_2 (R253)
  | clsQuantum3 -- CLS_QUANTUM_3 (R253)
  | clsQuantum4 -- CLS_QUANTUM_4 (R253)
  | clsQuantum5 -- CLS_QUANTUM_5 (R253)
  | clsQuantum6 -- CLS_QUANTUM_6 (R253)
  | clsQuantum7 -- CLS_QUANTUM_7 (R253)
  | clsShpSel -- CLS_SHP_SEL (R254)
  | clsShpCir -- CLS_SHP_CIR (R255)
  | clsShpPir -- CLS_SHP_PIR (R255)
  | clsShpBurst -- CLS_SHP_BURST (R255)
  | clsShpCfg -- CLS_SHP_CFG (R255)
  | clsShpState -- CLS_SHP_STATE (R256)
  | clsPtSel -- CLS_PT_SEL (R257)
  | clsPtCap -- CLS_PT_CAP (R257)
  | clsPtChg -- CLS_PT_CHG (R257)
  | clsGreen -- CLS_GREEN (R258)
  | clsYellow -- CLS_YELLOW (R258)
  | clsRed -- CLS_RED (R258)
  | clsInlRefused -- CLS_INL_REFUSED (R258)
  | clsHookBad -- CLS_HOOK_BAD (R258)
  | clsC0Dispatch -- CLS_C0_DISPATCH (R258)
  | fctCap -- FCT_CAP (R461)
  | fctThrSel -- FCT_THR_SEL (R462)
  | fctThrState -- FCT_THR_STATE (R462)
  | fctTrap -- FCT_TRAP (R463)
  | fctExtRun -- FCT_EXT_RUN (R463)
  | fctExtFail -- FCT_EXT_FAIL (R463)
  | fctSigFail -- FCT_SIG_FAIL (R463)
  | mmuCap -- MMU_CAP (R540)
  | mmuKeyBase -- MMU_KEY_BASE (R541)
  | mmuInvCtl -- MMU_INV_CTL (R542)
  | mmuInvAsid -- MMU_INV_ASID (R542)
  | mmuInvVa -- MMU_INV_VA (R542)
  | mmuWalk -- MMU_WALK (R543)
  | mmuWalkErr -- MMU_WALK_ERR (R543)
  | mmuDmaFault -- MMU_DMA_FAULT (R543)
  | mmuKeyFail -- MMU_KEY_FAIL (R543)
  | mmuPreempt -- MMU_PREEMPT (R543)
  | pmcCap -- PMC_CAP (R458)
  | pmcUacc -- PMC_UACC (R458)
  | pmcSmpCtl -- PMC_SMP_CTL (R459)
  | pmcSmpPeriod -- PMC_SMP_PERIOD (R459)
  | pmcSmpBase -- PMC_SMP_BASE (R459)
  | pmcSmpProd -- PMC_SMP_PROD (R459)
  | pmcSmpCons -- PMC_SMP_CONS (R459)
  | pmcSmpLost -- PMC_SMP_LOST (R459)
  | pmcCyc -- PMC_CYC_n (R460)
  | pmcEvsel0 -- PMC_EVSEL0_n (R460)
  | pmcEvsel1 -- PMC_EVSEL1_n (R460)
  | pmcEvsel2 -- PMC_EVSEL2_n (R460)
  | pmcEvsel3 -- PMC_EVSEL3_n (R460)
  | pmcEvsel4 -- PMC_EVSEL4_n (R460)
  | pmcEvsel5 -- PMC_EVSEL5_n (R460)
  | pmcEvsel6 -- PMC_EVSEL6_n (R460)
  | pmcEvsel7 -- PMC_EVSEL7_n (R460)
  | pmcCnt0 -- PMC_CNT0_n (R460)
  | pmcCnt1 -- PMC_CNT1_n (R460)
  | pmcCnt2 -- PMC_CNT2_n (R460)
  | pmcCnt3 -- PMC_CNT3_n (R460)
  | pmcCnt4 -- PMC_CNT4_n (R460)
  | pmcCnt5 -- PMC_CNT5_n (R460)
  | pmcCnt6 -- PMC_CNT6_n (R460)
  | pmcCnt7 -- PMC_CNT7_n (R460)
deriving DecidableEq, Repr

/-- A field. -/
def fld (msb lsb : Nat) (acc : Acc) (reset : Nat) : RegField := ⟨msb, lsb, acc, reset⟩

/-- The tables of the chapters: offset, entries, stride, width, owner, fields. -/
def Reg.info : Reg → RegInfo
  | .sysCap0 => ⟨0x00000040, 1, 4, false, .fixed 165,
      [fld 31 24 .ro 0, fld 23 16 .ro 0, fld 10 8 .ro 0, fld 7 0 .ro 0]⟩
  | .sysCap1 => ⟨0x00000044, 1, 4, false, .fixed 165,
      [fld 20 20 .ro 0, fld 19 16 .ro 0, fld 11 9 .ro 0, fld 8 7 .ro 0, fld 6 6 .ro 0, fld 5 5 .ro 0, fld 4 4 .ro 0, fld 3 0 .ro 0]⟩
  | .sysCap2 => ⟨0x00000048, 1, 4, false, .fixed 165,
      [fld 19 16 .ro 0, fld 15 8 .ro 0, fld 7 5 .ro 0, fld 4 0 .ro 0]⟩
  | .sysCap3 => ⟨0x0000004C, 1, 4, false, .fixed 165,
      [fld 19 16 .ro 0, fld 15 0 .ro 0]⟩
  | .sysMode => ⟨0x00000004, 1, 4, false, .fixed 165,
      [fld 1 0 .rw 1]⟩
  | .sysWsync => ⟨0x00000008, 1, 4, false, .fixed 165,
      [fld 31 31 .rc 0, fld 15 0 .ro 0]⟩
  | .sysSnap => ⟨0x00000010, 1, 4, false, .fixed 165,
      [fld 31 31 .w1p 0, fld 30 30 .ro 0, fld 29 29 .rc 0, fld 15 0 .ro 0]⟩
  | .sysSnapTime => ⟨0x00000018, 1, 4, true, .fixed 165,
      [fld 63 0 .ro 0]⟩
  | .sysBusErr => ⟨0x00000020, 1, 4, false, .fixed 165,
      [fld 31 0 .rc 0]⟩
  | .sysRst => ⟨0x00000080, 1, 4, false, .fixed 165,
      [fld 31 31 .w1p 0, fld 30 30 .w1p 0, fld 15 0 .wo 0]⟩
  | .sysRstCause => ⟨0x00000084, 1, 4, false, .fixed 165,
      [fld 15 8 .ro 0, fld 3 0 .ro 1]⟩
  | .sysBoot => ⟨0x00000088, 1, 4, false, .fixed 165,
      [fld 31 28 .ro 1, fld 27 27 .ro 0, fld 26 26 .ro 0, fld 25 24 .ro 0, fld 23 16 .ro 0, fld 15 8 .ro 0, fld 7 0 .ro 0]⟩
  | .sysFwact => ⟨0x0000008C, 1, 4, false, .fixed 165,
      [fld 31 31 .ro 0, fld 30 28 .ro 0, fld 27 26 .ro 0, fld 25 24 .ro 0, fld 15 0 .ro 0]⟩
  | .sysErrStat => ⟨0x00000100, 1, 4, false, .fixed 165,
      [fld 15 0 .rc 0]⟩
  | .sysErrCtl => ⟨0x00000104, 1, 4, false, .fixed 165,
      [fld 31 31 .w1p 0, fld 30 30 .rw 0, fld 15 0 .wo 0]⟩
  | .sysWdog => ⟨0x00000108, 1, 4, false, .fixed 165,
      [fld 31 31 .w1p 0, fld 15 0 .rw 0x64]⟩
  | .sysFatal => ⟨0x0000010C, 1, 4, false, .fixed 165,
      [fld 31 31 .ro 0, fld 30 30 .ro 0, fld 29 29 .ro 0, fld 23 16 .ro 0, fld 7 0 .ro 0]⟩
  | .sysCe => ⟨0x00000120, 1, 4, false, .fixed 165,
      [fld 31 0 .rc 0]⟩
  | .sysUe => ⟨0x00000124, 1, 4, false, .fixed 165,
      [fld 31 0 .rc 0]⟩
  | .sysInBad => ⟨0x00000128, 1, 4, false, .fixed 165,
      [fld 31 0 .rc 0]⟩
  | .sysAvs => ⟨0x00000140, 1, 4, false, .fixed 165,
      [fld 23 17 .rw 0x40, fld 12 8 .ro 0, fld 0 0 .rw 1]⟩
  | .sysSupply => ⟨0x00000144, 1, 4, false, .fixed 165,
      [fld 24 16 .rc 0, fld 8 0 .ro 0]⟩
  | .sysTemp => ⟨0x00000148, 1, 4, false, .fixed 165,
      [fld 31 24 .ro 0, fld 19 16 .ro 0, fld 15 0 .ro 0]⟩
  | .sysIsl => ⟨0x00001000, 168, 4, false, .fixed 165,
      [fld 16 12 .ro 0, fld 10 8 .ro 0, fld 7 7 .rc 0, fld 6 6 .ro 0, fld 5 4 .ro 0, fld 1 0 .rw 0]⟩
  | .icuCap => ⟨0x01000000, 1, 4, false, .fixed 165,
      [fld 27 24 .ro 4, fld 23 16 .ro 0x40, fld 15 0 .ro 0x1000]⟩
  | .icuSpur => ⟨0x01000010, 1, 4, false, .fixed 165,
      [fld 31 0 .rc 0]⟩
  | .icuClaim => ⟨0x01000100, 4, 8, false, .fixed 165,
      [fld 31 31 .ro 0, fld 11 0 .ro 0]⟩
  | .icuEoi => ⟨0x01000104, 4, 8, false, .fixed 165,
      [fld 11 0 .wo 0]⟩
  | .icuMaskSet => ⟨0x01001000, 128, 4, false, .fixed 165,
      [fld 31 0 .set 0xFFFFFFFF]⟩
  | .icuMaskClr => ⟨0x01001200, 128, 4, false, .fixed 165,
      [fld 31 0 .clr 0xFFFFFFFF]⟩
  | .icuPendSet => ⟨0x01001400, 128, 4, false, .fixed 165,
      [fld 31 0 .set 0]⟩
  | .icuPendClr => ⟨0x01001600, 128, 4, false, .fixed 165,
      [fld 31 0 .clr 0]⟩
  | .icuActive => ⟨0x01001800, 128, 4, false, .fixed 165,
      [fld 31 0 .ro 0]⟩
  | .icuRoute => ⟨0x01002000, 256, 4, false, .fixed 165,
      [fld 1 0 .rw 0, fld 3 2 .rw 0, fld 5 4 .rw 0, fld 7 6 .rw 0, fld 9 8 .rw 0, fld 11 10 .rw 0, fld 13 12 .rw 0, fld 15 14 .rw 0, fld 17 16 .rw 0, fld 19 18 .rw 0, fld 21 20 .rw 0, fld 23 22 .rw 0, fld 25 24 .rw 0, fld 27 26 .rw 0, fld 29 28 .rw 0, fld 31 30 .rw 0]⟩
  | .glmCtl => ⟨0x01000040, 1, 4, false, .fixed 167,
      [fld 31 31 .w1p 0, fld 30 30 .rc 0, fld 29 29 .ro 0, fld 12 12 .ro 0, fld 11 0 .ro 0]⟩
  | .glmTimer => ⟨0x01000044, 1, 4, false, .fixed 167,
      [fld 23 0 .rw 0]⟩
  | .glmWakes => ⟨0x01000048, 1, 4, false, .fixed 167,
      [fld 31 0 .rc 0]⟩
  | .glmWatch => ⟨0x01000400, 64, 4, false, .fixed 167,
      [fld 31 31 .rw 0, fld 11 0 .rw 0]⟩
  | .gnmState => ⟨0x02000000, 1, 4, false, .fixed 164,
      [fld 3 2 .ro 0, fld 1 0 .ro 0]⟩
  | .gnmCtl => ⟨0x02000004, 1, 4, false, .fixed 164,
      [fld 1 1 .rw 1, fld 0 0 .rw 1]⟩
  | .gnmTime => ⟨0x02000008, 1, 4, true, .fixed 164,
      [fld 63 0 .ro 0]⟩
  | .gnmFrac => ⟨0x02000010, 1, 4, false, .fixed 164,
      [fld 31 0 .ro 0]⟩
  | .gnmRate => ⟨0x02000014, 1, 4, false, .fixed 164,
      [fld 31 0 .ro 0]⟩
  | .gnmEdge => ⟨0x02000018, 1, 4, true, .fixed 164,
      [fld 63 0 .ro 0]⟩
  | .gnmPhase => ⟨0x02000020, 1, 4, false, .fixed 164,
      [fld 31 0 .ro 0]⟩
  | .gnmSecAdj => ⟨0x02000024, 1, 4, false, .fixed 164,
      [fld 31 31 .ro 0, fld 15 0 .rw 0]⟩
  | .gnmPpsBad => ⟨0x02000080, 1, 4, false, .fixed 164,
      [fld 31 0 .rc 0]⟩
  | .gnmPpsMiss => ⟨0x02000084, 1, 4, false, .fixed 164,
      [fld 31 0 .rc 0]⟩
  | .gnmHoldover => ⟨0x02000088, 1, 4, false, .fixed 164,
      [fld 31 0 .rc 0]⟩
  | .spmCap => ⟨0x03000000, 1, 4, false, .fixed 163,
      [fld 31 24 .ro 0, fld 23 20 .ro 0, fld 19 16 .ro 0xE, fld 15 8 .ro 0x14]⟩
  | .spmCfg => ⟨0x03000004, 1, 4, false, .fixed 163,
      [fld 31 24 .rw 0x19, fld 23 16 .rw 0xA, fld 7 0 .rw 5]⟩
  | .spmInrush => ⟨0x03000008, 1, 4, false, .fixed 163,
      [fld 11 8 .ro 0, fld 3 0 .rw 8]⟩
  | .spmRail => ⟨0x03000010, 4, 4, false, .fixed 163,
      [fld 31 31 .ro 0, fld 30 30 .ro 0, fld 26 16 .ro 0, fld 15 15 .ro 0, fld 10 0 .ro 0]⟩
  | .spmFault => ⟨0x03000080, 1, 4, false, .fixed 163,
      [fld 31 0 .rc 0]⟩
  | .spmQuar => ⟨0x03000084, 1, 4, false, .fixed 163,
      [fld 31 0 .rc 0]⟩
  | .spmBounce => ⟨0x03000088, 1, 4, false, .fixed 163,
      [fld 31 0 .rc 0]⟩
  | .spmRailOut => ⟨0x0300008C, 1, 4, false, .fixed 163,
      [fld 31 0 .rc 0]⟩
  | .spmSlotCtl => ⟨0x03000100, 48, 4, false, .fixed 163,
      [fld 27 16 .rw 0x999, fld 2 2 .w1p 0, fld 1 1 .w1p 0, fld 0 0 .rw 0]⟩
  | .spmSlotSt => ⟨0x03000200, 48, 4, false, .fixed 163,
      [fld 31 20 .ro 0, fld 17 16 .ro 0, fld 14 12 .ro 0, fld 8 8 .ro 0, fld 7 7 .ro 0, fld 6 6 .ro 0, fld 5 5 .ro 0, fld 4 4 .ro 0, fld 3 0 .ro 0]⟩
  | .shdCap => ⟨0x04000000, 1, 4, false, .fixed 162,
      [fld 31 20 .ro 0x3E8, fld 19 12 .ro 0x64, fld 11 6 .ro 0x14]⟩
  | .shdRole => ⟨0x04000004, 1, 4, false, .fixed 162,
      [fld 23 16 .ro 0, fld 15 8 .ro 0, fld 7 6 .ro 0, fld 5 5 .ro 0, fld 4 4 .ro 0, fld 2 0 .ro 1]⟩
  | .shdCtl => ⟨0x04000008, 1, 4, false, .fixed 162,
      [fld 2 2 .w1p 0, fld 1 1 .w1p 0, fld 0 0 .rw 1]⟩
  | .shdSelfchk => ⟨0x0400000C, 1, 4, false, .fixed 162,
      [fld 23 16 .rc 0, fld 7 0 .rw 0xFF]⟩
  | .shdLease => ⟨0x04000010, 1, 4, false, .fixed 162,
      [fld 10 0 .ro 0]⟩
  | .shdArb => ⟨0x04000014, 1, 4, false, .fixed 162,
      [fld 31 31 .ro 0, fld 5 0 .ro 0]⟩
  | .shdEpoch => ⟨0x04000018, 1, 4, true, .fixed 162,
      [fld 63 0 .ro 0]⟩
  | .shdCopySent => ⟨0x04000020, 1, 4, false, .fixed 162,
      [fld 31 0 .ro 0]⟩
  | .shdCopyAcked => ⟨0x04000024, 1, 4, false, .fixed 162,
      [fld 31 0 .ro 0]⟩
  | .shdDirty => ⟨0x04000028, 1, 4, false, .fixed 162,
      [fld 23 0 .ro 0]⟩
  | .shdRepBase => ⟨0x04000030, 1, 4, true, .fixed 162,
      [fld 39 30 .rw 0]⟩
  | .shdLinkErr => ⟨0x04000080, 1, 4, false, .fixed 162,
      [fld 31 0 .rc 0]⟩
  | .shdOverrun => ⟨0x04000084, 1, 4, false, .fixed 162,
      [fld 31 0 .rc 0]⟩
  | .shdLogRetx => ⟨0x04000088, 1, 4, false, .fixed 162,
      [fld 31 0 .rc 0]⟩
  | .shdReleases => ⟨0x0400008C, 1, 4, false, .fixed 162,
      [fld 31 0 .rc 0]⟩
  | .shdTakeovers => ⟨0x04000090, 1, 4, false, .fixed 162,
      [fld 31 0 .rc 0]⟩
  | .netCap => ⟨0x05000000, 1, 4, false, .fixed 0,
      [fld 31 16 .ro 0xB7A2, fld 12 8 .ro 0, fld 4 0 .ro 0xE]⟩
  | .netPort => ⟨0x05000100, 8, 4, false, .lane 0 4,
      [fld 27 24 .ro 0, fld 23 20 .rc 0, fld 15 12 .rw 0, fld 1 0 .rw 0]⟩
  | .netMtu => ⟨0x05000120, 8, 4, false, .lane 0 4,
      [fld 13 0 .rw 0x2328]⟩
  | .netDscpPri => ⟨0x05000200, 8, 4, false, .fixed 0,
      [fld 2 0 .rw 0, fld 5 3 .rw 0, fld 8 6 .rw 0, fld 11 9 .rw 0, fld 14 12 .rw 0, fld 17 15 .rw 0, fld 20 18 .rw 0, fld 23 21 .rw 0]⟩
  | .netClsPri => ⟨0x05000220, 1, 4, false, .fixed 0,
      [fld 23 0 .rw 0x2DB6DD]⟩
  | .netPfc => ⟨0x05000230, 1, 4, false, .fixed 0,
      [fld 31 24 .rw 0, fld 23 12 .rw 0x400, fld 11 0 .rw 0x200]⟩
  | .netPfcWdog => ⟨0x05000234, 1, 4, false, .fixed 0,
      [fld 7 0 .rw 0x64]⟩
  | .netOdtCfg => ⟨0x05000240, 1, 4, false, .fixed 0,
      [fld 25 16 .rw 0x18, fld 15 8 .rw 0xA, fld 7 0 .rw 0xA]⟩
  | .netRoceCfg => ⟨0x05000244, 1, 4, false, .fixed 0,
      [fld 20 16 .rw 0xA, fld 10 8 .rw 7, fld 6 4 .rw 7]⟩
  | .netRoceCnp => ⟨0x05000248, 1, 4, false, .fixed 0,
      [fld 9 0 .rw 0x32]⟩
  | .netOdtSel => ⟨0x05000400, 1, 4, false, .fixed 0,
      [fld 15 0 .rw 0]⟩
  | .netOdtState => ⟨0x05000404, 1, 4, false, .fixed 0,
      [fld 31 31 .ro 0, fld 30 28 .ro 0, fld 27 25 .ro 0, fld 24 23 .ro 0, fld 19 0 .ro 0]⟩
  | .netOdtHseq => ⟨0x05000408, 1, 4, false, .fixed 0,
      [fld 31 0 .ro 0]⟩
  | .netOdtDseq => ⟨0x0500040C, 1, 4, false, .fixed 0,
      [fld 31 0 .ro 0]⟩
  | .netRxDrop => ⟨0x05000300, 1, 4, false, .fixed 0,
      [fld 31 0 .rc 0]⟩
  | .netFcsErr => ⟨0x05000304, 1, 4, false, .fixed 0,
      [fld 31 0 .rc 0]⟩
  | .netPfcWdogCt => ⟨0x05000308, 1, 4, false, .fixed 0,
      [fld 31 0 .rc 0]⟩
  | .netCeRx => ⟨0x0500030C, 1, 4, false, .fixed 0,
      [fld 31 0 .rc 0]⟩
  | .netCnpTx => ⟨0x05000310, 1, 4, false, .fixed 0,
      [fld 31 0 .rc 0]⟩
  | .netCnpRx => ⟨0x05000314, 1, 4, false, .fixed 0,
      [fld 31 0 .rc 0]⟩
  | .netOdtRetx => ⟨0x05000318, 1, 4, false, .fixed 0,
      [fld 31 0 .rc 0]⟩
  | .netOdtDup => ⟨0x0500031C, 1, 4, false, .fixed 0,
      [fld 31 0 .rc 0]⟩
  | .netOdtDiscard => ⟨0x05000320, 1, 4, false, .fixed 0,
      [fld 31 0 .rc 0]⟩
  | .netOdtSuspect => ⟨0x05000324, 1, 4, false, .fixed 0,
      [fld 31 0 .rc 0]⟩
  | .netOdtFailed => ⟨0x05000328, 1, 4, false, .fixed 0,
      [fld 31 0 .rc 0]⟩
  | .netMgmtDrop => ⟨0x0500032C, 1, 4, false, .fixed 0,
      [fld 31 0 .rc 0]⟩
  | .epfCap => ⟨0x06000000, 1, 4, false, .fixed 88,
      [fld 31 24 .ro 0x3F, fld 23 16 .ro 0xB, fld 15 8 .ro 0xA, fld 7 0 .ro 0x40]⟩
  | .epfLink => ⟨0x06000004, 1, 4, false, .fixed 88,
      [fld 24 24 .ro 0, fld 23 23 .rc 0, fld 22 20 .ro 0, fld 19 16 .ro 0, fld 15 15 .ro 0, fld 0 0 .rw 0]⟩
  | .epfIds => ⟨0x06000008, 1, 4, false, .fixed 88,
      [fld 31 16 .rw 0, fld 15 0 .rw 0]⟩
  | .epfWinCtl => ⟨0x06000010, 1, 4, false, .fixed 88,
      [fld 31 31 .w1p 0, fld 30 30 .ro 0, fld 29 29 .rc 0, fld 15 0 .ro 0]⟩
  | .epfDbForeign => ⟨0x06000020, 1, 4, false, .fixed 88,
      [fld 31 0 .rc 0]⟩
  | .epfWinDrop => ⟨0x06000024, 1, 4, false, .fixed 88,
      [fld 31 0 .rc 0]⟩
  | .epfLateCpl => ⟨0x06000028, 1, 4, false, .fixed 88,
      [fld 31 0 .rc 0]⟩
  | .epfCto => ⟨0x0600002C, 1, 4, false, .fixed 88,
      [fld 31 0 .rc 0]⟩
  | .epfMdEnd => ⟨0x06000030, 1, 4, false, .fixed 88,
      [fld 31 0 .rc 0]⟩
  | .epfWinCfg => ⟨0x06000100, 64, 16, false, .fixed 88,
      [fld 31 31 .rw 0, fld 30 30 .rw 0, fld 29 24 .rw 0, fld 15 0 .rw 0]⟩
  | .epfWinKey => ⟨0x06000104, 64, 16, false, .fixed 88,
      [fld 31 0 .rw 0]⟩
  | .epfWinOff => ⟨0x06000108, 64, 16, true, .fixed 88,
      [fld 63 0 .rw 0]⟩
  | .xbrCap => ⟨0x07000000, 1, 4, false, .fixed 144,
      [fld 31 24 .ro 0x22, fld 23 20 .ro 3, fld 15 8 .ro 8, fld 4 0 .ro 0x12]⟩
  | .xbrPresent => ⟨0x07000008, 1, 4, true, .fixed 144,
      [fld 33 0 .ro 0]⟩
  | .xbrPool => ⟨0x07000010, 1, 4, false, .fixed 144,
      [fld 17 0 .ro 0]⟩
  | .xbrPoolSize => ⟨0x07000014, 1, 4, false, .fixed 144,
      [fld 17 0 .ro 0]⟩
  | .xbrC0 => ⟨0x07000018, 1, 4, false, .fixed 144,
      [fld 31 16 .ro 0x8000, fld 15 0 .rw 0x2000]⟩
  | .xbrOvfBase => ⟨0x07000020, 1, 4, true, .fixed 144,
      [fld 39 21 .rw 0]⟩
  | .xbrPartSel => ⟨0x07000030, 1, 4, false, .fixed 144,
      [fld 5 0 .rw 0]⟩
  | .xbrPartState => ⟨0x07000034, 1, 4, false, .fixed 144,
      [fld 31 31 .ro 0, fld 30 30 .ro 0, fld 29 29 .ro 0, fld 8 0 .ro 0]⟩
  | .xbrPartShared => ⟨0x07000038, 1, 4, false, .fixed 144,
      [fld 17 0 .ro 0]⟩
  | .xbrPartC0ovf => ⟨0x0700003C, 1, 4, false, .fixed 144,
      [fld 31 16 .ro 0, fld 15 0 .ro 0]⟩
  | .xbrPartMax => ⟨0x07000040, 1, 4, false, .fixed 144,
      [fld 17 0 .rw 0x8000]⟩
  | .xbrDiscard => ⟨0x07000080, 1, 4, false, .fixed 144,
      [fld 31 0 .rc 0]⟩
  | .xbrMcSplit => ⟨0x07000084, 1, 4, false, .fixed 144,
      [fld 31 0 .rc 0]⟩
  | .xbrOvfWr => ⟨0x07000088, 1, 4, false, .fixed 144,
      [fld 31 0 .rc 0]⟩
  | .xbrWait => ⟨0x0700008C, 1, 4, false, .fixed 144,
      [fld 31 0 .rc 0]⟩
  | .prismTaken => ⟨0x07000118, 1, 4, false, .fixed 144,
      [fld 31 0 .rc 0]⟩
  | .prismLost => ⟨0x0700011C, 1, 4, false, .fixed 144,
      [fld 31 0 .rc 0]⟩
  | .prismCtl => ⟨0x07000100, 1, 4, false, .fixed 144,
      [fld 12 8 .rw 0xA, fld 0 0 .rw 0]⟩
  | .prismRingBase => ⟨0x07000108, 1, 4, true, .fixed 144,
      [fld 39 12 .rw 0]⟩
  | .prismProd => ⟨0x07000110, 1, 4, false, .fixed 144,
      [fld 15 0 .ro 0]⟩
  | .prismCons => ⟨0x07000114, 1, 4, false, .fixed 144,
      [fld 15 0 .rw 0]⟩
  | .prismN => ⟨0x07000140, 16, 4, false, .fixed 144,
      [fld 15 0 .rw 0]⟩
  | .cphCap => ⟨0x08000000, 1, 4, false, .fixed 158,
      [fld 31 28 .ro 9, fld 27 24 .ro 8, fld 23 20 .ro 8, fld 19 16 .ro 4, fld 4 0 .ro 0xE]⟩
  | .cphCtl => ⟨0x08000004, 1, 4, false, .fixed 158,
      [fld 5 4 .rw 1, fld 0 0 .rw 1]⟩
  | .cphWalkRate => ⟨0x08000008, 1, 4, false, .fixed 158,
      [fld 15 0 .rw 0x1F4]⟩
  | .cphKeyUsed => ⟨0x0800000C, 1, 4, false, .fixed 158,
      [fld 14 0 .ro 0]⟩
  | .cphKek => ⟨0x08000010, 1, 4, false, .fixed 158,
      [fld 15 0 .ro 0]⟩
  | .cphKeySel => ⟨0x08000020, 1, 4, false, .fixed 158,
      [fld 13 0 .rw 0]⟩
  | .cphKeyState => ⟨0x08000024, 1, 4, false, .fixed 158,
      [fld 31 31 .ro 0, fld 30 30 .ro 0, fld 29 29 .ro 0, fld 28 28 .ro 0, fld 27 27 .ro 0, fld 26 26 .ro 0, fld 23 0 .ro 0]⟩
  | .cphKeyCount => ⟨0x08000028, 1, 4, false, .fixed 158,
      [fld 30 0 .ro 0]⟩
  | .cphKeyLimit => ⟨0x0800002C, 1, 4, false, .fixed 158,
      [fld 30 0 .ro 0]⟩
  | .cphKeyMark => ⟨0x08000030, 1, 4, false, .fixed 158,
      [fld 30 0 .ro 0]⟩
  | .cphAuthFail => ⟨0x08000040, 1, 4, false, .fixed 158,
      [fld 31 0 .rc 0]⟩
  | .cphExhausted => ⟨0x08000044, 1, 4, false, .fixed 158,
      [fld 31 0 .rc 0]⟩
  | .cphSuspend => ⟨0x08000048, 1, 4, false, .fixed 158,
      [fld 31 0 .rc 0]⟩
  | .cphUnwrapFail => ⟨0x0800004C, 1, 4, false, .fixed 158,
      [fld 31 0 .rc 0]⟩
  | .cphWalkBlocks => ⟨0x08000050, 1, 4, false, .fixed 158,
      [fld 31 0 .rc 0]⟩
  | .cphStageMerge => ⟨0x08000054, 1, 4, false, .fixed 158,
      [fld 31 0 .rc 0]⟩
  | .parCap => ⟨0x09000000, 1, 4, false, .fixed 150,
      [fld 31 28 .ro 8, fld 27 20 .ro 0x40, fld 19 16 .ro 2, fld 15 11 .ro 0x18, fld 10 8 .ro 0]⟩
  | .parSlice => ⟨0x09000100, 8, 4, false, .lane 150 1,
      [fld 31 31 .ro 0, fld 30 30 .ro 0, fld 22 16 .ro 0, fld 9 8 .ro 0]⟩
  | .parInCells => ⟨0x09000080, 1, 4, false, .fixed 150,
      [fld 31 0 .rc 0]⟩
  | .parOutCells => ⟨0x09000084, 1, 4, false, .fixed 150,
      [fld 31 0 .rc 0]⟩
  | .parCtxWait => ⟨0x09000088, 1, 4, false, .fixed 150,
      [fld 31 0 .rc 0]⟩
  | .parInputEnded => ⟨0x0900008C, 1, 4, false, .fixed 150,
      [fld 31 0 .rc 0]⟩
  | .strCap => ⟨0x0A000000, 1, 4, false, .fixed 150,
      [fld 31 24 .ro 0x40, fld 23 16 .ro 0x18, fld 11 9 .ro 0]⟩
  | .strJnlUsed => ⟨0x0A000004, 1, 4, false, .fixed 150,
      [fld 20 0 .ro 0]⟩
  | .strWinUsed => ⟨0x0A000008, 1, 4, false, .fixed 150,
      [fld 16 0 .ro 0]⟩
  | .strUblUsed => ⟨0x0A00000C, 1, 4, false, .fixed 150,
      [fld 31 31 .rc 0, fld 16 0 .ro 0]⟩
  | .strRowSel => ⟨0x0A000010, 1, 4, false, .fixed 150,
      [fld 29 24 .rw 0, fld 12 0 .rw 0]⟩
  | .strRowData => ⟨0x0A000014, 1, 4, false, .fixed 150,
      [fld 31 31 .ro 0, fld 21 16 .ro 0, fld 6 0 .ro 0]⟩
  | .strBmpSet => ⟨0x0A000020, 1, 4, false, .fixed 150,
      [fld 31 0 .rc 0]⟩
  | .strWinWait => ⟨0x0A000024, 1, 4, false, .fixed 150,
      [fld 31 0 .rc 0]⟩
  | .strStageWait => ⟨0x0A000028, 1, 4, false, .fixed 150,
      [fld 31 0 .rc 0]⟩
  | .strRecon => ⟨0x0A00002C, 1, 4, false, .fixed 150,
      [fld 31 0 .rc 0]⟩
  | .strRepair => ⟨0x0A000030, 1, 4, false, .fixed 150,
      [fld 31 0 .rc 0]⟩
  | .strLost => ⟨0x0A000034, 1, 4, false, .fixed 150,
      [fld 31 0 .rc 0]⟩
  | .strIndet => ⟨0x0A000038, 1, 4, false, .fixed 150,
      [fld 31 0 .rc 0]⟩
  | .strUnreloc => ⟨0x0A00003C, 1, 4, false, .fixed 150,
      [fld 31 0 .rc 0]⟩
  | .strRbldRate => ⟨0x0A000040, 1, 4, false, .fixed 150,
      [fld 15 0 .rw 0x7D0]⟩
  | .strReturnWin => ⟨0x0A000044, 1, 4, false, .fixed 150,
      [fld 9 0 .rw 0xA]⟩
  | .strGrp => ⟨0x0A000100, 64, 4, false, .fixed 150,
      [fld 31 31 .ro 0, fld 30 30 .ro 0, fld 29 25 .ro 0, fld 24 22 .ro 0, fld 21 20 .ro 0, fld 19 19 .ro 0, fld 18 14 .ro 0, fld 13 7 .ro 0, fld 6 0 .ro 0]⟩
  | .strMbr => ⟨0x0A000200, 48, 4, false, .fixed 150,
      [fld 31 31 .ro 0, fld 29 24 .ro 0, fld 23 16 .ro 0, fld 7 7 .ro 0, fld 6 6 .ro 0, fld 2 0 .ro 0]⟩
  | .strGst => ⟨0x0A000300, 64, 4, false, .fixed 150,
      [fld 31 30 .ro 0, fld 29 28 .ro 0, fld 27 27 .ro 0, fld 26 26 .ro 0, fld 25 25 .ro 0, fld 21 16 .ro 0]⟩
  | .lntCtl => ⟨0x0A000400, 1, 4, false, .fixed 150,
      [fld 2 2 .w1p 0, fld 1 1 .rw 1, fld 0 0 .rw 1]⟩
  | .lntRate => ⟨0x0A000404, 1, 4, false, .fixed 150,
      [fld 15 0 .rw 0x32]⟩
  | .lntPos => ⟨0x0A000408, 1, 4, false, .fixed 150,
      [fld 29 24 .ro 0, fld 23 0 .ro 0]⟩
  | .lntPass => ⟨0x0A00040C, 1, 4, false, .fixed 150,
      [fld 31 0 .rc 0]⟩
  | .lntStripes => ⟨0x0A000410, 1, 4, false, .fixed 150,
      [fld 31 0 .rc 0]⟩
  | .lntMismatch => ⟨0x0A000414, 1, 4, false, .fixed 150,
      [fld 31 0 .rc 0]⟩
  | .lntRepaired => ⟨0x0A000418, 1, 4, false, .fixed 150,
      [fld 31 0 .rc 0]⟩
  | .lntUnlocated => ⟨0x0A00041C, 1, 4, false, .fixed 150,
      [fld 31 0 .rc 0]⟩
  | .qpeCap => ⟨0x0B000000, 1, 4, false, .fixed 160,
      [fld 31 16 .ro 0x4000, fld 15 0 .ro 0x1000]⟩
  | .qpePinUsed => ⟨0x0B000004, 1, 4, false, .fixed 160,
      [fld 12 0 .ro 0]⟩
  | .qpeInspSel => ⟨0x0B000010, 1, 4, false, .fixed 160,
      [fld 17 0 .rw 0]⟩
  | .qpeInspState => ⟨0x0B000014, 1, 4, false, .fixed 160,
      [fld 31 16 .ro 0, fld 13 8 .ro 0, fld 7 7 .ro 0, fld 6 6 .ro 0, fld 5 5 .ro 0, fld 4 4 .ro 0, fld 3 3 .ro 0, fld 2 0 .ro 0]⟩
  | .qpeInspSq => ⟨0x0B000018, 1, 4, false, .fixed 160,
      [fld 31 16 .ro 0, fld 15 0 .ro 0]⟩
  | .qpeInspCq => ⟨0x0B00001C, 1, 4, false, .fixed 160,
      [fld 31 16 .ro 0, fld 15 0 .ro 0]⟩
  | .qpeDbBad => ⟨0x0B000020, 1, 4, false, .fixed 160,
      [fld 31 0 .rc 0]⟩
  | .qpeDbFree => ⟨0x0B000024, 1, 4, false, .fixed 160,
      [fld 31 0 .rc 0]⟩
  | .qpeCtxMiss => ⟨0x0B000028, 1, 4, false, .fixed 160,
      [fld 31 0 .rc 0]⟩
  | .clsCap => ⟨0x0C000000, 1, 4, false, .fixed 161,
      [fld 31 24 .ro 8, fld 23 16 .ro 4, fld 15 0 .ro 0x3E8]⟩
  | .clsCeil => ⟨0x0C000004, 1, 4, false, .fixed 161,
      [fld 14 8 .rw 0x14, fld 6 0 .rw 0x14]⟩
  | .clsQuantum1 => ⟨0x0C000014, 1, 4, false, .fixed 161,
      [fld 15 0 .rw 0x10]⟩
  | .clsQuantum2 => ⟨0x0C000018, 1, 4, false, .fixed 161,
      [fld 15 0 .rw 0xC]⟩
  | .clsQuantum3 => ⟨0x0C00001C, 1, 4, false, .fixed 161,
      [fld 15 0 .rw 8]⟩
  | .clsQuantum4 => ⟨0x0C000020, 1, 4, false, .fixed 161,
      [fld 15 0 .rw 8]⟩
  | .clsQuantum5 => ⟨0x0C000024, 1, 4, false, .fixed 161,
      [fld 15 0 .rw 4]⟩
  | .clsQuantum6 => ⟨0x0C000028, 1, 4, false, .fixed 161,
      [fld 15 0 .rw 4]⟩
  | .clsQuantum7 => ⟨0x0C00002C, 1, 4, false, .fixed 161,
      [fld 15 0 .rw 1]⟩
  | .clsShpSel => ⟨0x0C000040, 1, 4, false, .fixed 161,
      [fld 31 31 .rw 0, fld 19 0 .rw 0]⟩
  | .clsShpCir => ⟨0x0C000044, 1, 4, false, .fixed 161,
      [fld 31 0 .rw 0]⟩
  | .clsShpPir => ⟨0x0C000048, 1, 4, false, .fixed 161,
      [fld 31 0 .rw 0]⟩
  | .clsShpBurst => ⟨0x0C00004C, 1, 4, false, .fixed 161,
      [fld 31 16 .rw 0, fld 15 0 .rw 0]⟩
  | .clsShpCfg => ⟨0x0C000050, 1, 4, false, .fixed 161,
      [fld 31 31 .w1p 0, fld 23 18 .rw 0, fld 17 14 .rw 0, fld 13 13 .rw 0, fld 9 0 .rw 0]⟩
  | .clsShpState => ⟨0x0C000054, 1, 4, false, .fixed 161,
      [fld 31 31 .ro 0, fld 30 30 .rc 0, fld 29 29 .ro 0, fld 28 26 .ro 0, fld 25 13 .ro 0, fld 12 0 .ro 0]⟩
  | .clsPtSel => ⟨0x0C000060, 1, 4, false, .fixed 161,
      [fld 5 0 .rw 0]⟩
  | .clsPtCap => ⟨0x0C000064, 1, 4, false, .fixed 161,
      [fld 31 0 .rw 0]⟩
  | .clsPtChg => ⟨0x0C000068, 1, 4, false, .fixed 161,
      [fld 31 0 .ro 0]⟩
  | .clsGreen => ⟨0x0C000080, 1, 4, false, .fixed 161,
      [fld 31 0 .rc 0]⟩
  | .clsYellow => ⟨0x0C000084, 1, 4, false, .fixed 161,
      [fld 31 0 .rc 0]⟩
  | .clsRed => ⟨0x0C000088, 1, 4, false, .fixed 161,
      [fld 31 0 .rc 0]⟩
  | .clsInlRefused => ⟨0x0C00008C, 1, 4, false, .fixed 161,
      [fld 31 0 .rc 0]⟩
  | .clsHookBad => ⟨0x0C000090, 1, 4, false, .fixed 161,
      [fld 31 0 .rc 0]⟩
  | .clsC0Dispatch => ⟨0x0C000094, 1, 4, false, .fixed 161,
      [fld 31 0 .rc 0]⟩
  | .fctCap => ⟨0x0D000000, 1, 4, false, .fixed 144,
      [fld 31 28 .ro 4, fld 27 24 .ro 2, fld 23 16 .ro 0x10, fld 15 8 .ro 0x40, fld 7 0 .ro 4]⟩
  | .fctThrSel => ⟨0x0D000010, 1, 4, false, .fixed 144,
      [fld 13 8 .rw 0, fld 3 0 .rw 0]⟩
  | .fctThrState => ⟨0x0D000014, 1, 4, false, .fixed 144,
      [fld 31 31 .ro 0, fld 30 30 .ro 0, fld 29 29 .ro 0, fld 28 24 .ro 0, fld 23 16 .ro 0, fld 2 0 .ro 0]⟩
  | .fctTrap => ⟨0x0D000020, 1, 4, false, .fixed 144,
      [fld 31 0 .rc 0]⟩
  | .fctExtRun => ⟨0x0D000024, 1, 4, false, .fixed 144,
      [fld 31 0 .rc 0]⟩
  | .fctExtFail => ⟨0x0D000028, 1, 4, false, .fixed 144,
      [fld 31 0 .rc 0]⟩
  | .fctSigFail => ⟨0x0D00002C, 1, 4, false, .fixed 144,
      [fld 31 0 .rc 0]⟩
  | .mmuCap => ⟨0x0E000000, 1, 4, false, .fixed 144,
      [fld 31 24 .ro 0x40, fld 23 12 .ro 0x800, fld 11 8 .ro 4, fld 2 0 .ro 7]⟩
  | .mmuKeyBase => ⟨0x0E000008, 1, 4, true, .fixed 144,
      [fld 39 26 .rw 0]⟩
  | .mmuInvCtl => ⟨0x0E000010, 1, 4, false, .fixed 144,
      [fld 31 31 .w1p 0, fld 30 30 .rc 0, fld 29 28 .rw 0, fld 27 24 .rw 0xF, fld 23 20 .ro 0, fld 15 0 .ro 0]⟩
  | .mmuInvAsid => ⟨0x0E000014, 1, 4, false, .fixed 144,
      [fld 15 0 .rw 0]⟩
  | .mmuInvVa => ⟨0x0E000018, 1, 4, true, .fixed 144,
      [fld 47 12 .rw 0]⟩
  | .mmuWalk => ⟨0x0E000020, 1, 4, false, .fixed 144,
      [fld 31 0 .rc 0]⟩
  | .mmuWalkErr => ⟨0x0E000024, 1, 4, false, .fixed 144,
      [fld 31 0 .rc 0]⟩
  | .mmuDmaFault => ⟨0x0E000028, 1, 4, false, .fixed 144,
      [fld 31 0 .rc 0]⟩
  | .mmuKeyFail => ⟨0x0E00002C, 1, 4, false, .fixed 144,
      [fld 31 0 .rc 0]⟩
  | .mmuPreempt => ⟨0x0E000030, 1, 4, false, .fixed 144,
      [fld 31 0 .rc 0]⟩
  | .pmcCap => ⟨0x0F000000, 1, 4, false, .fixed 165,
      [fld 8 8 .ro 0, fld 7 4 .ro 0, fld 3 0 .ro 0xC]⟩
  | .pmcUacc => ⟨0x0F000004, 1, 4, false, .fixed 165,
      [fld 2 2 .rw 0, fld 1 1 .rw 0, fld 0 0 .rw 0]⟩
  | .pmcSmpCtl => ⟨0x0F000010, 1, 4, false, .fixed 165,
      [fld 12 8 .rw 0xA, fld 0 0 .rw 0]⟩
  | .pmcSmpPeriod => ⟨0x0F000014, 1, 4, false, .fixed 165,
      [fld 23 0 .rw 0x2710]⟩
  | .pmcSmpBase => ⟨0x0F000018, 1, 4, true, .fixed 165,
      [fld 39 12 .rw 0]⟩
  | .pmcSmpProd => ⟨0x0F000020, 1, 4, false, .fixed 165,
      [fld 15 0 .ro 0]⟩
  | .pmcSmpCons => ⟨0x0F000024, 1, 4, false, .fixed 165,
      [fld 15 0 .rw 0]⟩
  | .pmcSmpLost => ⟨0x0F000028, 1, 4, false, .fixed 165,
      [fld 31 0 .rc 0]⟩
  | .pmcCyc => ⟨0x0F001000, 48, 256, true, .lane 96 1,
      [fld 63 0 .ro 0]⟩
  | .pmcEvsel0 => ⟨0x0F001010, 48, 256, false, .lane 96 1,
      [fld 31 31 .rw 0, fld 30 30 .rw 0, fld 29 29 .rw 0, fld 28 27 .rw 0, fld 26 26 .rc 0, fld 23 8 .rw 0xFFFF, fld 7 0 .rw 0]⟩
  | .pmcEvsel1 => ⟨0x0F001014, 48, 256, false, .lane 96 1,
      [fld 31 31 .rw 0, fld 30 30 .rw 0, fld 29 29 .rw 0, fld 28 27 .rw 0, fld 26 26 .rc 0, fld 23 8 .rw 0xFFFF, fld 7 0 .rw 0]⟩
  | .pmcEvsel2 => ⟨0x0F001018, 48, 256, false, .lane 96 1,
      [fld 31 31 .rw 0, fld 30 30 .rw 0, fld 29 29 .rw 0, fld 28 27 .rw 0, fld 26 26 .rc 0, fld 23 8 .rw 0xFFFF, fld 7 0 .rw 0]⟩
  | .pmcEvsel3 => ⟨0x0F00101C, 48, 256, false, .lane 96 1,
      [fld 31 31 .rw 0, fld 30 30 .rw 0, fld 29 29 .rw 0, fld 28 27 .rw 0, fld 26 26 .rc 0, fld 23 8 .rw 0xFFFF, fld 7 0 .rw 0]⟩
  | .pmcEvsel4 => ⟨0x0F001020, 48, 256, false, .lane 96 1,
      [fld 31 31 .rw 0, fld 30 30 .rw 0, fld 29 29 .rw 0, fld 28 27 .rw 0, fld 26 26 .rc 0, fld 23 8 .rw 0xFFFF, fld 7 0 .rw 0]⟩
  | .pmcEvsel5 => ⟨0x0F001024, 48, 256, false, .lane 96 1,
      [fld 31 31 .rw 0, fld 30 30 .rw 0, fld 29 29 .rw 0, fld 28 27 .rw 0, fld 26 26 .rc 0, fld 23 8 .rw 0xFFFF, fld 7 0 .rw 0]⟩
  | .pmcEvsel6 => ⟨0x0F001028, 48, 256, false, .lane 96 1,
      [fld 31 31 .rw 0, fld 30 30 .rw 0, fld 29 29 .rw 0, fld 28 27 .rw 0, fld 26 26 .rc 0, fld 23 8 .rw 0xFFFF, fld 7 0 .rw 0]⟩
  | .pmcEvsel7 => ⟨0x0F00102C, 48, 256, false, .lane 96 1,
      [fld 31 31 .rw 0, fld 30 30 .rw 0, fld 29 29 .rw 0, fld 28 27 .rw 0, fld 26 26 .rc 0, fld 23 8 .rw 0xFFFF, fld 7 0 .rw 0]⟩
  | .pmcCnt0 => ⟨0x0F001040, 48, 256, true, .lane 96 1,
      [fld 47 0 .rw 0]⟩
  | .pmcCnt1 => ⟨0x0F001048, 48, 256, true, .lane 96 1,
      [fld 47 0 .rw 0]⟩
  | .pmcCnt2 => ⟨0x0F001050, 48, 256, true, .lane 96 1,
      [fld 47 0 .rw 0]⟩
  | .pmcCnt3 => ⟨0x0F001058, 48, 256, true, .lane 96 1,
      [fld 47 0 .rw 0]⟩
  | .pmcCnt4 => ⟨0x0F001060, 48, 256, true, .lane 96 1,
      [fld 47 0 .rw 0]⟩
  | .pmcCnt5 => ⟨0x0F001068, 48, 256, true, .lane 96 1,
      [fld 47 0 .rw 0]⟩
  | .pmcCnt6 => ⟨0x0F001070, 48, 256, true, .lane 96 1,
      [fld 47 0 .rw 0]⟩
  | .pmcCnt7 => ⟨0x0F001078, 48, 256, true, .lane 96 1,
      [fld 47 0 .rw 0]⟩

/-- Every register, in blocks. -/
def regsOfSys : List Reg := [.sysCap0, .sysCap1, .sysCap2, .sysCap3, .sysMode, .sysWsync, .sysSnap, .sysSnapTime, .sysBusErr, .sysRst, .sysRstCause, .sysBoot, .sysFwact, .sysErrStat, .sysErrCtl, .sysWdog, .sysFatal, .sysCe, .sysUe, .sysInBad, .sysAvs, .sysSupply, .sysTemp, .sysIsl]
/-- Block 0x01 (R47). -/
def regsOfIcu : List Reg := [.icuCap, .icuSpur, .icuClaim, .icuEoi, .icuMaskSet, .icuMaskClr, .icuPendSet, .icuPendClr, .icuActive, .icuRoute, .glmCtl, .glmTimer, .glmWakes, .glmWatch]
/-- Block 0x02 (R47). -/
def regsOfGnm : List Reg := [.gnmState, .gnmCtl, .gnmTime, .gnmFrac, .gnmRate, .gnmEdge, .gnmPhase, .gnmSecAdj, .gnmPpsBad, .gnmPpsMiss, .gnmHoldover]
/-- Block 0x03 (R47). -/
def regsOfSpm : List Reg := [.spmCap, .spmCfg, .spmInrush, .spmRail, .spmFault, .spmQuar, .spmBounce, .spmRailOut, .spmSlotCtl, .spmSlotSt]
/-- Block 0x04 (R47). -/
def regsOfShd : List Reg := [.shdCap, .shdRole, .shdCtl, .shdSelfchk, .shdLease, .shdArb, .shdEpoch, .shdCopySent, .shdCopyAcked, .shdDirty, .shdRepBase, .shdLinkErr, .shdOverrun, .shdLogRetx, .shdReleases, .shdTakeovers]
/-- Block 0x05 (R47). -/
def regsOfNet : List Reg := [.netCap, .netPort, .netMtu, .netDscpPri, .netClsPri, .netPfc, .netPfcWdog, .netOdtCfg, .netRoceCfg, .netRoceCnp, .netOdtSel, .netOdtState, .netOdtHseq, .netOdtDseq, .netRxDrop, .netFcsErr, .netPfcWdogCt, .netCeRx, .netCnpTx, .netCnpRx, .netOdtRetx, .netOdtDup, .netOdtDiscard, .netOdtSuspect, .netOdtFailed, .netMgmtDrop]
/-- Block 0x06 (R47). -/
def regsOfEpf : List Reg := [.epfCap, .epfLink, .epfIds, .epfWinCtl, .epfDbForeign, .epfWinDrop, .epfLateCpl, .epfCto, .epfMdEnd, .epfWinCfg, .epfWinKey, .epfWinOff]
/-- Block 0x07 (R47). -/
def regsOfXbr : List Reg := [.xbrCap, .xbrPresent, .xbrPool, .xbrPoolSize, .xbrC0, .xbrOvfBase, .xbrPartSel, .xbrPartState, .xbrPartShared, .xbrPartC0ovf, .xbrPartMax, .xbrDiscard, .xbrMcSplit, .xbrOvfWr, .xbrWait, .prismTaken, .prismLost, .prismCtl, .prismRingBase, .prismProd, .prismCons, .prismN]
/-- Block 0x08 (R47). -/
def regsOfCph : List Reg := [.cphCap, .cphCtl, .cphWalkRate, .cphKeyUsed, .cphKek, .cphKeySel, .cphKeyState, .cphKeyCount, .cphKeyLimit, .cphKeyMark, .cphAuthFail, .cphExhausted, .cphSuspend, .cphUnwrapFail, .cphWalkBlocks, .cphStageMerge]
/-- Block 0x09 (R47). -/
def regsOfPar : List Reg := [.parCap, .parSlice, .parInCells, .parOutCells, .parCtxWait, .parInputEnded]
/-- Block 0x0A (R47). -/
def regsOfStr : List Reg := [.strCap, .strJnlUsed, .strWinUsed, .strUblUsed, .strRowSel, .strRowData, .strBmpSet, .strWinWait, .strStageWait, .strRecon, .strRepair, .strLost, .strIndet, .strUnreloc, .strRbldRate, .strReturnWin, .strGrp, .strMbr, .strGst, .lntCtl, .lntRate, .lntPos, .lntPass, .lntStripes, .lntMismatch, .lntRepaired, .lntUnlocated]
/-- Block 0x0B (R47). -/
def regsOfQpe : List Reg := [.qpeCap, .qpePinUsed, .qpeInspSel, .qpeInspState, .qpeInspSq, .qpeInspCq, .qpeDbBad, .qpeDbFree, .qpeCtxMiss]
/-- Block 0x0C (R47). -/
def regsOfCls : List Reg := [.clsCap, .clsCeil, .clsQuantum1, .clsQuantum2, .clsQuantum3, .clsQuantum4, .clsQuantum5, .clsQuantum6, .clsQuantum7, .clsShpSel, .clsShpCir, .clsShpPir, .clsShpBurst, .clsShpCfg, .clsShpState, .clsPtSel, .clsPtCap, .clsPtChg, .clsGreen, .clsYellow, .clsRed, .clsInlRefused, .clsHookBad, .clsC0Dispatch]
/-- Block 0x0D (R47). -/
def regsOfFct : List Reg := [.fctCap, .fctThrSel, .fctThrState, .fctTrap, .fctExtRun, .fctExtFail, .fctSigFail]
/-- Block 0x0E (R47). -/
def regsOfMmu : List Reg := [.mmuCap, .mmuKeyBase, .mmuInvCtl, .mmuInvAsid, .mmuInvVa, .mmuWalk, .mmuWalkErr, .mmuDmaFault, .mmuKeyFail, .mmuPreempt]
/-- Block 0x0F (R47). -/
def regsOfPmc : List Reg := [.pmcCap, .pmcUacc, .pmcSmpCtl, .pmcSmpPeriod, .pmcSmpBase, .pmcSmpProd, .pmcSmpCons, .pmcSmpLost, .pmcCyc, .pmcEvsel0, .pmcEvsel1, .pmcEvsel2, .pmcEvsel3, .pmcEvsel4, .pmcEvsel5, .pmcEvsel6, .pmcEvsel7, .pmcCnt0, .pmcCnt1, .pmcCnt2, .pmcCnt3, .pmcCnt4, .pmcCnt5, .pmcCnt6, .pmcCnt7]

/-- The registers of block `b` (R47: 16 MiB each, in the order of their bases). -/
def regsOfBlock : Nat → List Reg
  | 0 => regsOfSys
  | 1 => regsOfIcu
  | 2 => regsOfGnm
  | 3 => regsOfSpm
  | 4 => regsOfShd
  | 5 => regsOfNet
  | 6 => regsOfEpf
  | 7 => regsOfXbr
  | 8 => regsOfCph
  | 9 => regsOfPar
  | 10 => regsOfStr
  | 11 => regsOfQpe
  | 12 => regsOfCls
  | 13 => regsOfFct
  | 14 => regsOfMmu
  | 15 => regsOfPmc
  | _ => []

end Sys2Proof.Machine
end

