-- ==== Sys2Proof/Machine/StateCtl.lean ====
section
/-! DEFINITION. The state of the control hierarchy: islands (01), register fabric, interrupt controller, Glimmer
and Gnomon (15). Every default value is the value at a COLD reset. -/

namespace Sys2Proof.Machine

/-- The state of an island (R31). -/
inductive IslState where
  | on | retain | off | fused
deriving DecidableEq, Repr

/-- The STATE and REQ codes of R31. -/
def IslState.code : IslState → Nat
  | .on => 0 | .retain => 1 | .off => 2 | .fused => 3

/-- The state a REQ value names; 0b11 names none. -/
def IslState.ofReq : Nat → Option IslState
  | 0 => some .on | 1 => some .retain | 2 => some .off | _ => none

/-- A transition in progress (BUSY): the target, and the cycle it began (R35, R36). -/
structure Transition where
  target : IslState
  since : Nat
deriving DecidableEq, Repr

/-- One island (R31): FORCED, BUSY with its transition, STATE and REQ. -/
structure Island where
  /-- STATE, 2 bits (R31, R32); reset ON for 165 to 167, FUSED where fused off, else OFF. -/
  state : IslState := .off
  /-- REQ, 2 bits (R31, R32); reset as STATE, OFF for a FUSED island. -/
  req : IslState := .off
  /-- FORCED, 1 bit, RC (R31); reset 0. -/
  forced : Bool := false
  /-- BUSY and its transition (R35, R36); reset none. -/
  busy : Option Transition := none
  /-- The Gnomon time of its last transition, ns (R691); reset 0. -/
  trans : Nat := 0
deriving DecidableEq, Repr

/-- Island `i` at a COLD reset (R32). -/
def Island.reset (v : Variant) (i : Nat) : Island :=
  if Config.fused v i then { state := .fused, req := .off }
  else if 165 ≤ i then { state := .on, req := .on }
  else {}

/-- What one register write does to its word: the whole word, one bit through its alias word (R618), or both
halves of a 64-bit register in one step (R619). -/
inductive RegOp where
  | word (v : Nat)
  | bit (b : Nat) (v : Bool)
  | wide (lo hi : Nat)
deriving DecidableEq, Repr

/-- A posted write (R612): its requester, the register offset and what it does. -/
structure Posted where
  req : Requester
  off : Nat
  op : RegOp
deriving DecidableEq, Repr

/-- A stalled access (R610, R614): a read, or a write (`op`), its alias bit, and the cycle it arrived. For a Facet
thread `rd` is the register its load writes and `len` says how its value is extended. -/
structure Stalled where
  req : Requester
  off : Nat
  op : Option RegOp
  aliasBit : Option Nat
  since : Nat
deriving DecidableEq, Repr

/-- The register fabric (R610 to R624). -/
structure Fabric where
  /-- Posted writes accepted and not yet applied, oldest first (R612); reset none. -/
  posted : List Posted := []
  /-- Words with an RW value accepted and not yet sampled back, by offset: which bits, and their values (R611); reset
  none. -/
  unsampled : Tbl (Nat × Nat) := []
  /-- The fabric's copy of every register word, 32 bits by offset (R611); an unlisted offset reads its reset value. -/
  copy : Tbl Nat := []
  /-- Upper halves latched by a lower read, by requester and lower offset (R619); reset none. -/
  latched : List (Requester × Nat × Nat) := []
  /-- Lower halves held for an upper write, by requester and lower offset (R619); reset none. -/
  held : List (Requester × Nat × Nat) := []
  /-- Accesses stalled at an island boundary, oldest first (R610, R614); reset none. -/
  stalled : List Stalled := []
  /-- The chosen instant T of the snapshot in progress, ns (R621); reset none. -/
  snapAt : Option Nat := none
  /-- The holding registers, 32 bits by live offset (R620); reset 0. -/
  holding : Tbl Nat := []
deriving DecidableEq, Repr

/-- The interrupt controller (R626). Bit n stands for source n. -/
structure Icu where
  /-- Pending bits of the 4,096 sources (R626); reset 0. Sources 0 to 15 are levels of SYS_ERR_STAT (R696). -/
  pend : BitVec 4096 := 0#4096
  /-- Mask bits of the 4,096 sources, 1 masked (R626, R637); reset all ones. -/
  mask : BitVec 4096 := BitVec.allOnes 4096
  /-- The active source of cores 0 to 3, 12 bits each (R628); reset none. -/
  active : List (Option Nat) := [none, none, none, none]
deriving DecidableEq, Repr

/-- Glimmer (R631 to R633). -/
structure Glimmer where
  /-- SLEEP was written and waits for the four cores (R632 step 4); reset false. -/
  asked : Bool := false
  /-- ASLEEP, 1 bit (R639); reset 0. -/
  asleep : Bool := false
  /-- Events latched while asleep, bit n for source n (R633); reset 0. -/
  latched : BitVec 4096 := 0#4096
  /-- The cycle of sleep entry, from which the wake timer counts (R631); reset none. -/
  since : Option Nat := none
  /-- WAKE_TIMER, 1 bit (R639); reset 0. -/
  wakeTimer : Bool := false
  /-- WAKE_SRC, 12 bits (R639); reset 0. -/
  wakeSrc : Nat := 0
  /-- The 32.768 kHz input has been lost: the wake timer does not expire (R683); reset false. -/
  clockLost : Bool := false
deriving DecidableEq, Repr

/-- The four states of Gnomon (R643). -/
inductive GnmState where
  | free | acquire | locked | holdover
deriving DecidableEq, Repr

/-- The STATE codes of R643. -/
def GnmState.code : GnmState → Nat
  | .free => 0 | .acquire => 1 | .locked => 2 | .holdover => 3

/-- Gnomon (R640 to R648). -/
structure Gnomon where
  /-- Gnomon time, 64 bits of ns and 32 bits of fraction, as one number in units of 2^-32 ns (R640); reset 0. -/
  time : Nat := 0
  /-- RATE, signed 32 bits, 2^-32 ns per cycle (R640, R648); reset 0. -/
  rate : Int := 0
  /-- The frequency-only RATE that takes over at the next whole second (R644); reset none. -/
  rateNext : Option Int := none
  /-- STATE (R643, R647); reset FREE. -/
  state : GnmState := .free
  /-- MISSED, 2 bits (R647); reset 0. -/
  missed : Nat := 0
  /-- The cycle of the candidate or of the last accepted edge (R642, R643); reset none. -/
  edgeAt : Option Nat := none
  /-- GNM_EDGE, 64 bits, ns (R648); reset 0. -/
  edge : Nat := 0
  /-- GNM_PHASE, signed 32 bits, ns (R648); reset 0. -/
  phase : Int := 0
  /-- PENDING of GNM_SEC_ADJ, 1 bit (R648); reset 0. -/
  secPending : Bool := false
deriving DecidableEq, Repr

end Sys2Proof.Machine
end

