-- ==== Sys2Proof/Machine/StateOut.lean ====
section
/-! DEFINITION. What the block has sent to the outside: results of register accesses, messages and frames, TLPs,
drive commands, flash writes. A field of the model's own (log entry 4): the spec gives the outside no state here. -/

namespace Sys2Proof.Machine

/-- One thing sent. -/
inductive Out where
  /-- A register or memory read answered (R610, R616). -/
  | readData (req : Requester) (off v : Nat)
  /-- A bus error (R614). -/
  | busError (req : Requester) (off : Nat)
  /-- An island-transition interrupt is the ICU's; this is the steward's report of a refused request (R37). -/
  | refusedAtIsland (island : Nat)
  /-- A completion entry written: queue pair, slot, its 32 bytes (R63, R65). -/
  | completion (qp slot : Nat) (entry : Bytes)
  /-- A ring read: queue pair, first slot, count (R75). -/
  | ringRead (qp slot n : Nat)
  /-- Read data placed in host memory, or bytes an admin command writes: queue pair, CID, key, address, bytes. -/
  | hostWrite (qp cid mkey addr : Nat) (bytes : Bytes)
  /-- How the frame that follows is sent (R262, R265): MAC, sub-port, priority, DSCP, ECT(0) set, and a generated UDP
  checksum. -/
  | wire (mac sub pri dscp : Nat) (ect udpSum : Bool)
  /-- An ODT message: connection, header fields QPN, FLAGS, SEQ, ACK, the message, and its bytes (R285, R286). -/
  | odt (conn qpn flags seq ack : Nat) (msg : OdtOut) (bytes : Bytes)
  /-- A RoCEv2 request of the controller (R276). -/
  | roce (conn psn : Nat) (req : RoceReq)
  /-- A RoCEv2 acknowledgement or NAK: code 0 ACK, 1 RNR NAK (timer code 0b00001, R283), 2 NAK invalid request, 3 NAK
  remote access error, 4 NAK PSN sequence error. -/
  | roceAck (conn psn code : Nat)
  /-- A CNP (R268). -/
  | cnp (conn : Nat)
  /-- A CM message: 0 REP, 1 REJ, 2 DREP, 3 DREQ (R276). -/
  | cm (mac sub host code : Nat)
  /-- A response capsule on an NVMe admin queue (R279): connection, Dword 0, status, CID. -/
  | nvmeAdmin (conn cid dw0 status : Nat) (data : Bytes)
  /-- A PFC frame: MAC, priority, quanta (R266). -/
  | pfc (mac pri quanta : Nat)
  /-- A frame handed to Basalt with its receive timestamp, if any (R264, R270). -/
  | toBasalt (mac sub kind : Nat) (stamp : Option Nat)
  /-- Basalt's answer to such a frame (R264, R270): 0 ARP reply, 1 ICMP echo reply, 2 ICMPv6 echo reply, 3 Neighbor
  Advertisement, 4 Delay_Resp, 5 Pdelay_Resp. -/
  | answer (mac sub kind : Nat)
  /-- The transmit timestamp of an event message Basalt sent (R270). -/
  | txStamp (mac : Nat) (stamp : Nat)
  /-- An address announcement (R274). -/
  | announce (key : Nat) (v6 : Bool) (addr : Nat)
  /-- A function answers configuration requests from now on, with the identity that it presents (R339, R342, R724). -/
  | present (func : Nat) (id : FuncIdent)
  /-- A TLP of the endpoint: memory write, memory read request, MSI-X message, completion, Unsupported Request. -/
  | tlpWrite (func addr : Nat) (bytes : Bytes)
  | tlpRead (func tag addr len : Nat)
  | msix (func vector : Nat)
  | unsupported (kind : Nat)
  | aerTimeout (func : Nat)
  | winRead (bytes : Bytes)
  /-- A member command leaves for its drive: id, slot, operation, drive block, count, FUA, data (R123, R133). -/
  | drive (id slot : Nat) (op : MemOp) (lba n : Nat) (fua : Bool) (data : Bytes)
  /-- A reservation or shutdown command to a drive, by name (R562, R602). -/
  | driveCtl (slot : Nat) (what : String)
  /-- A Mirror frame (R550): its kind, its fields, the log record of a LOG, and the bytes of the frame. -/
  | mirror (kind : MirKind) (args : List Nat) (record : Option (Nat × LogKind)) (bytes : Bytes)
  /-- What a copy's lines say of the replicated structures (R552, R553): its number and the structures. -/
  | mirrorImage (num : Nat) (image : RepImage)
  /-- A write of the boot flash (R661, R690). -/
  | flash (what : String) (addr : Nat) (bytes : Bytes)
  /-- A line or answer on the management UART (R666). -/
  | uart (bytes : Bytes)
  /-- A pin changed level (R718). -/
  | pin (name : String) (index : Nat) (level : Bool)
  /-- A PMBus VOUT_COMMAND on SMBus controller 0: address and millivolts (R703); 9 clocks that reset a bus (R683). -/
  | vout (address mv : Nat)
  | smbusReset (controller : Nat)
  /-- A sample or record written into a ring in HBM (R370, R456): the ring and the index. -/
  | ring (name : String) (index : Nat)
deriving DecidableEq, Repr

/-- What a held frame is: an ODT message whose header is made when it leaves, the retransmission of one, or another frame with
its ECT(0) and UDP checksum marks. -/
inductive HeldWhat where
  | odt (conn qpn flags : Nat) (msg : OdtOut)
  | odtAgain (conn seq : Nat)
  | frame (ect udpSum : Bool) (o : Out)
deriving DecidableEq, Repr

/-- A frame that is no response unit and waits because its priority is paused (R266). -/
structure HeldFrame where
  mac : Nat
  sub : Nat
  cls : Nat
  what : HeldWhat
deriving DecidableEq, Repr

end Sys2Proof.Machine
end

