-- ==== Sys2Proof/Machine/StateSpm.lean ====
section
/-! DEFINITION. The state of the slot supervisors (14). Every default value is the value at a COLD reset. -/

namespace Sys2Proof.Machine

/-- The states of a slot (R585). -/
inductive SlotState where
  | empty | disabled | insert | queued | ramp | on | latched | quarantined
deriving DecidableEq, Repr

/-- The codes of R585. -/
def SlotState.code : SlotState → Nat
  | .empty => 0 | .disabled => 1 | .insert => 2 | .queued => 3 | .ramp => 4 | .on => 5 | .latched => 6
  | .quarantined => 7

/-- The gate is asserted in RAMP and ON (R585). -/
def SlotState.gate : SlotState → Bool
  | .ramp | .on => true
  | _ => false

/-- One slot supervisor (R581 to R607); EN and LIM stand in SPM_SLOT_CTL. -/
structure Slot where
  /-- STATE, 4 bits (R585, R607); reset EMPTY. -/
  state : SlotState := .empty
  /-- PRESENT: debounced presence (R581, R607); reset 0. -/
  present : Bool := false
  /-- The cycle of its last debounced presence edge (R587). -/
  edgeAt : Nat := 0
  /-- The cycle at which it entered QUEUED (R588). -/
  queuedAt : Nat := 0
  /-- The cycle its gate was asserted (R589), and that it entered ON (R598). -/
  gateAt : Nat := 0
  onAt : Nat := 0
  /-- PG, TRIP and PEER_HOLD (R597, R607); reset 0. -/
  pg : Bool := false
  trip : Bool := false
  peerHold : Bool := false
  /-- CURRENT, 12 bits (R607); reset 0. -/
  current : Nat := 0
  /-- The fault timer in µs, and the µs of consecutive samples below LIM (R593). -/
  timer : Nat := 0
  below : Nat := 0
  /-- The cycles of its faults of the last 60 s, oldest first (R595). -/
  faults : List Nat := []
  /-- CAUSE, 3 bits (R592, R607); reset 0. -/
  cause : Nat := 0
  /-- The cycle of its automatic retry (R596). -/
  retryAt : Option Nat := none
  /-- A shutdown notification is outstanding: since when, and the SLOT_CONTROLs that wait (R602). -/
  shutdown : Option (Nat × List Nat) := none
  /-- DRV_PERST_N_s is deasserted: the root port trains (R598, R718); reset false. -/
  perstOff : Bool := false
deriving DecidableEq, Repr

/-- One rail group (R586, R605). -/
structure Rail where
  /-- V12 in 10 mV and V3 in 2 mV, 11 bits each (R605); reset 0. -/
  v12 : Nat := 0
  v3 : Nat := 0
  /-- OK12 and OK3 (R605); reset 0. -/
  ok12 : Bool := false
  ok3 : Bool := false
  /-- The cycle since which both rails have been inside their windows (R586). -/
  inSince : Option Nat := none
  /-- GOOD (R586, R605); reset 0; and the cycle it last became GOOD (R587). -/
  good : Bool := false
  goodAt : Nat := 0
deriving DecidableEq, Repr

/-- The SPM beside its registers. -/
structure Spm where
  /-- Slots 0 to 47 (R585). -/
  slots : Tbl Slot := []
  /-- Rail groups 0 to 3 (R586). -/
  rails : Tbl Rail := []
deriving DecidableEq, Repr

end Sys2Proof.Machine
end

