-- ==== Sys2Proof/Machine/StateXbr.lean ====
section
/-! DEFINITION. The state of the crossbar and the cell buffers (08). Every default value is the
value at a COLD reset. -/

namespace Sys2Proof.Machine

/-- Whose cells they are. -/
inductive CellFor where
  /-- Survivor blocks of run `run` of READ `seq` on their way to its slice (R180). -/
  | survivor (seq run : Nat)
  /-- Data of run `run` of READ `seq` on its way to the face (R123). -/
  | read (seq run : Nat)
  /-- Data or pre-read cells of an open stripe (R128, R129). -/
  | stripe (group stripe : Nat)
  /-- Parity cells of an open stripe (R128). -/
  | parity (group stripe : Nat)
  /-- A Prism record on its way to port 33 (R370): its tap point and its 256 bytes. -/
  | prism (point : Nat) (cell : Bytes)
  | other
deriving DecidableEq, Repr

/-- A run of like cells waiting at an input, in queue order (R347 to R350). -/
structure CellRun where
  id : Nat
  /-- Input port. -/
  src : Nat
  /-- Outputs still to be reached by the head cell (R349), and by every later cell. -/
  residue : List Nat
  dsts : List Nat
  /-- Level 0, 1 or 2 (R349). -/
  level : Nat
  cls : Nat
  /-- Cells of the run, and cells left, the head cell counted. -/
  total : Nat
  left : Nat
  who : CellFor
  /-- Cells of a keyed volume that enter or leave through a cipher lane (R39, R379). -/
  keyed : Bool := false
  /-- A metadata cell follows the data cells of each four blocks and of the last block (R346). -/
  packed : Bool := false
  /-- Blocks of the run that are zero blocks, by their place in it (R121). -/
  blank : List Nat := []
  /-- The priority of the received packets that brought the cells of a write (R265, R266). -/
  pri : Nat := 0
  /-- The command whose Class 0 pool reservation the cells belong to (R358). -/
  owner : Option Nat := none
deriving DecidableEq, Repr

/-- The cells a port holds, by what was charged (R354 to R357). -/
structure Part where
  floor : Nat := 0
  shared : Nat := 0
  c0 : Nat := 0
  ovf : Nat := 0
  /-- Cells an intake waits to bring in (R356). -/
  waiting : Nat := 0
  /-- Class 0 cells that entered the chip through the port and are still held (R358). -/
  c0In : Nat := 0
deriving DecidableEq, Repr

/-- The crossbar beside its registers. -/
structure Xbr where
  /-- The number of the first run that came after an island of the crossbar began to drain: it and those after it wait
  on this side of the boundary (R35, R37). -/
  intake : Option Nat := none
  /-- Runs of cells waiting at the inputs, oldest first. -/
  runs : List CellRun := []
  nextRun : Nat := 0
  /-- Partitions by port (R354). -/
  parts : Tbl Part := []
  /-- XBR_PART_MAX by port where written (R376); an unlisted port reads 0x0_8000. -/
  maxes : Tbl Nat := []
  /-- Cells of the Class 0 pool held or reserved (R358). -/
  c0Used : Nat := 0
  /-- Grant pointers by output and level, and accept pointers by input and level: key 3p + l (R351). -/
  gptr : Tbl Nat := []
  aptr : Tbl Nat := []
  /-- MC_FIRST by input (R350). -/
  mcFirst : Tbl Bool := []
  /-- Frames counted by each tap point since PRISM_N_p was written (R367), by point. -/
  taps : Tbl Nat := []
  /-- Records of each point lost since its last record written (R369), by point. -/
  tapLost : Tbl Nat := []
deriving DecidableEq, Repr

end Sys2Proof.Machine
end

