-- ==== Sys2Proof/Machine/State.lean ====
section
/-! DEFINITION. The whole state of the block as plain data, its value after reset, and the reasons a step can
stop. -/

namespace Sys2Proof.Machine

/-- The state. Each field's own type says what it holds, with the rules that name it. -/
structure State where
  /-- The variant, a fuse (R3); never written. -/
  variant : Variant
  /-- Cycles of 1.0 GHz since the clock started: the model's own count of time (log entry 1). -/
  now : Nat
  /-- The register words that are stored, by offset (R48, R610); an unlisted one reads its reset value. -/
  regs : Tbl Nat
  /-- Islands 0 to 167 (R22, R31). -/
  isl : List Island
  /-- HBM, the scratch memories, the shared SRAMs and the boot ROM, by physical address (R44). -/
  mem : Memory
  /-- The register fabric (15). -/
  fab : Fabric
  /-- The interrupt controller (15). -/
  icu : Icu
  /-- Glimmer (15). -/
  glm : Glimmer
  /-- Gnomon (15). -/
  gnm : Gnomon
  /-- Queue pairs and commands (02). -/
  qpe : Qpe
  /-- The CLS (05). -/
  cls : Cls
  /-- Groups, volumes, members, stripes, drives (03, 04). -/
  str : Store
  /-- The network side (06). -/
  net : Net
  /-- The endpoint (07). -/
  epf : Epf
  /-- The crossbar (08). -/
  xbr : Xbr
  /-- Cipher lanes and keys (09). -/
  cph : Cph
  /-- The SHD (13). -/
  shd : Shd
  /-- Slot supervisors (14). -/
  spm : Spm
  /-- Facet engines, hooks, translation, DMA (10, 11, 12). -/
  fct : Fct
  /-- Boot flash and boot state (16, 17). -/
  sys : Sys
  /-- Frames that wait for their priority, oldest first (R266). -/
  frames : List HeldFrame
  /-- What the block has sent, newest first: the model's own record (log entry 4). -/
  out : List Out
  /-- Free values drawn so far: the model's own counter (log entry 28). -/
  draws : Nat
  /-- The commands that wait, first in, first out. -/
  pending : List Instr
deriving DecidableEq, Repr

/-- Why a step stops with a fault. -/
inductive Fault where
  /-- No meaning raises it; safe. -/
  | none_
deriving DecidableEq, Repr

/-- Why a step is refused. -/
inductive Refusal where
  /-- The dispatcher raises it for a command without a meaning; safe. -/
  | notModelled (mnemonic : String)
deriving DecidableEq, Repr

/-- The machine of a variant right after a COLD reset (R649 to R652), with a blank boot flash: islands as R32 says,
every register at its reset value, memory with nothing listed, and no command waiting. -/
def State.resetOf (v : Variant) : State :=
  { variant := v, now := 0, regs := [], isl := (List.range 168).map (Island.reset v), mem := [], fab := {}, icu := {}
    glm := {}, gnm := {}, qpe := {}, cls := {}, str := {}, net := {}, epf := {}, xbr := {}, cph := {}, shd := {}
    spm := {}, fct := {}, sys := {}, frames := [], out := [], draws := 0, pending := [] }

/-- The machine right after reset: the KN4896. -/
def State.reset : State := State.resetOf .kn4896

end Sys2Proof.Machine
end

