-- ==== Sys2Proof/Machine/Ops.lean ====
section
/-! DEFINITION. The named operations every family uses: stored register words, counters and interrupt sources,
time, islands, what is sent, and the memory map. -/

namespace Sys2Proof.Machine

abbrev Outcome := Host.Outcome State Fault Refusal

/-! ### Registers as stored words -/

/-- The offset of entry `i` of a register (R48). -/
def Reg.off (r : Reg) (i : Nat := 0) : Nat := r.info.base + r.info.stride * i

/-- The reset value of entry `i`: its fields' reset values; every field of NET_DSCP_PRI_k holds k (R307), and VENDOR
of EPF_IDS is fused (R342). -/
def Reg.resetVal (r : Reg) (i : Nat := 0) : Nat :=
  match r with
  | .netDscpPri => i * 0x249249
  | .epfIds => Config.vendorId % 2 ^ 16
  | _ => r.info.fields.foldl (fun a f => a ||| (f.reset <<< f.lsb)) 0

/-- The stored value of entry `i` of register `r`, 64 bits where the register is wide. -/
def State.reg (s : State) (r : Reg) (i : Nat := 0) : Nat := tblGet (r.resetVal i) s.regs (r.off i)

/-- The state in which entry `i` of register `r` holds `v`. -/
def State.setReg (s : State) (r : Reg) (v : Nat) (i : Nat := 0) : State :=
  { s with regs := tblPut (r.resetVal i) s.regs (r.off i) v }

/-- Bits [msb:lsb] of a register. -/
def State.field (s : State) (r : Reg) (msb lsb : Nat) (i : Nat := 0) : Nat := bitsOf (s.reg r i) msb lsb

/-- Bit `b` of a register. -/
def State.bit (s : State) (r : Reg) (b : Nat) (i : Nat := 0) : Bool := bitOf (s.reg r i) b

/-- `w` with bits [msb:lsb] replaced by `v`. -/
def putBits (w msb lsb v : Nat) : Nat :=
  let m := 2 ^ (msb + 1 - lsb)
  w - bitsOf w msb lsb * 2 ^ lsb + v % m * 2 ^ lsb

/-- The state with bits [msb:lsb] of a register replaced. -/
def State.setField (s : State) (r : Reg) (msb lsb v : Nat) (i : Nat := 0) : State :=
  s.setReg r (putBits (s.reg r i) msb lsb v) i

/-- Count `n` events in a 32-bit counter, which holds at 0xFFFF_FFFF. -/
def State.count (s : State) (r : Reg) (n : Nat := 1) : State := s.setReg r (satAdd32 (s.reg r) n)

/-! ### What is sent, and free values -/

/-- Record one thing sent. -/
def State.emit (s : State) (o : Out) : State := { s with out := o :: s.out }

/-- Record several things sent, in order. -/
def State.emits (s : State) (os : List Out) : State := { s with out := os.reverse ++ s.out }

/-- `n` free values have been drawn. -/
def State.drew (s : State) (n : Nat := 1) : State := { s with draws := s.draws + n }

/-! ### Variant and islands -/

/-- Island `i`. -/
def State.island (s : State) (i : Nat) : Island := s.isl.getD i { state := .fused, req := .off }

/-- Island `i` is ON and not in a transition. -/
def State.isOn (s : State) (i : Nat) : Bool := (s.island i).state == .on && (s.island i).busy == none

/-- Island `i` reads ON, whether or not it is draining. -/
def State.readsOn (s : State) (i : Nat) : Bool := (s.island i).state == .on

/-- The state with island `i` replaced. -/
def State.setIsland (s : State) (i : Nat) (x : Island) : State := { s with isl := setAt s.isl i x }

/-- The owning island of entry `i` of a register (R609). -/
def Reg.owner (r : Reg) (i : Nat := 0) : Nat :=
  match r.info.owner with
  | .fixed n => n
  | .lane b st => b + st * i

/-! ### Interrupt sources (R625, R626) -/

/-- Source `n` is watched by an entry of Glimmer with EN set (R631, R639). -/
def State.watched (s : State) (n : Nat) : Bool :=
  (List.range 64).any fun i => s.bit .glmWatch 31 i && s.field .glmWatch 11 0 i == n

/-- The wake from Glimmer sleep (R633): islands 166 and 165 are brought to ON, every latched event is handed to the ICU,
and the register says what started the wake: the timer (`none`) or a source. -/
def State.wake (s : State) (src : Option Nat) : State :=
  if !s.glm.asleep then s
  else
    let up : Island := { state := .on, req := .on, trans := s.gnm.time / 2 ^ 32 }
    let s := (s.setIsland 166 up).setIsland 165 up
    { s.count .glmWakes with
      icu := { s.icu with pend := s.icu.pend ||| s.glm.latched ||| (1#4096 <<< 229) ||| (1#4096 <<< 230) }
      glm := { s.glm with
        asleep := false, latched := 0#4096, since := none, wakeTimer := src.isNone, wakeSrc := src.getD 0 } }

/-- Latched source `n` is raised: pending in the ICU, or latched by Glimmer while asleep, where a watched one starts the
wake (R626, R633). -/
def State.raise (s : State) (n : Nat) : State :=
  if s.glm.asleep then
    let s : State := { s with glm := { s.glm with latched := s.glm.latched ||| (1#4096 <<< n) } }
    if s.watched n then s.wake (some n) else s
  else { s with icu := { s.icu with pend := s.icu.pend ||| (1#4096 <<< n) } }

/-- Unit events, sources 32 to 43 (R625). -/
inductive UnitEvent where
  | qpe | cls | str | cph | net | epf | xbr | prism | spm | fct | mmu | pmc
deriving DecidableEq, Repr

/-- The source of a unit event (R625). -/
def UnitEvent.source : UnitEvent → Nat
  | .qpe => 32 | .cls => 33 | .str => 34 | .cph => 35 | .net => 36 | .epf => 37 | .xbr => 38 | .prism => 39
  | .spm => 40 | .fct => 41 | .mmu => 42 | .pmc => 43

/-- Raise a unit event. -/
def State.event (s : State) (u : UnitEvent) : State := s.raise u.source

/-- A record joins the trace ring, which keeps the last 4,096 (R691). -/
def State.trace (s : State) (kind island : Nat) : State :=
  let r : Trace := { time := s.gnm.time / 2 ^ 32, island, kind, args := s.draws }
  { s with sys := { s.sys with trace := (r :: s.sys.trace).take 4096 }, draws := s.draws + 1 }

/-- Report an error in SYS_ERR_STAT: bit `n` is set and level source `n` holds (R696). -/
def State.err (s : State) (n : Nat) : State :=
  let s := (s.setReg .sysErrStat (s.reg .sysErrStat ||| 2 ^ n)).trace 7 165
  if s.glm.asleep && s.watched n then s.wake (some n) else s

/-! ### Time (R640, R644) -/

/-- Gnomon time in whole ns (R640). -/
def State.gnmNs (s : State) : Nat := s.gnm.time / 2 ^ 32

/-- Units of 2^-32 ns that a cycle adds at a rate (R640). -/
def gnmInc (rate : Int) : Nat := ((2 : Int) ^ 32 + rate).toNat

/-- Gnomon after `n` cycles of 1.0 GHz: the rate changes to the frequency-only rate at the next whole second
(R644). -/
def Gnomon.run (g : Gnomon) (n : Nat) : Gnomon :=
  match g.rateNext with
  | none => { g with time := g.time + n * gnmInc g.rate }
  | some r =>
    let sec := 10 ^ 9 * 2 ^ 32
    let target := (g.time / sec + 1) * sec
    let k := ceilDiv (target - g.time) (gnmInc g.rate)
    if k ≤ n then
      { g with time := g.time + k * gnmInc g.rate + (n - k) * gnmInc r, rate := r, rateNext := none }
    else { g with time := g.time + n * gnmInc g.rate }

/-- The state `n` cycles of 1.0 GHz later; Gnomon counts while island 164 is ON. -/
def State.advance (s : State) (n : Nat) : State :=
  { s with now := s.now + n, gnm := if s.readsOn 164 then s.gnm.run n else s.gnm }

/-- The state at cycle `t`, or as it is where `t` has passed: a timer's expiry is at its due cycle (log entry 2). -/
def State.advanceTo (s : State) (t : Nat) : State := s.advance (t - s.now)

/-- Cycles in a microsecond and a millisecond. -/
def usec : Nat := 1000
def msec : Nat := 1000000

/-! ### The memory map (R44, R45) -/

/-- The end of the fitted HBM (R44). -/
def State.hbmEnd (s : State) : Nat := 0x1000000000 + Config.hbmBytes s.variant

/-- The start of the fatal-state region, the top 256 MiB of HBM (R44). -/
def State.fatalBase (s : State) : Nat := s.hbmEnd - 0x10000000

/-- Where a physical address lies (R44). -/
inductive Place where
  | rom | scratch (e : Nat) | sram (c : Nat) | regs (off : Nat) | bitAlias (off b : Nat) | hbm
  | unmapped
deriving DecidableEq, Repr

/-- The unit at a physical address (R44, R45, R50). A register or alias place is for a 32-bit access only. -/
def State.place (s : State) (a : Nat) : Place :=
  if a < 0x40000 then .rom
  else if 0x4000000 ≤ a ∧ a < 0x4C00000 then
    let e := (a - 0x4000000) / 0x40000
    if Config.enginePresent s.variant e then .scratch e else .unmapped
  else if 0x8000000 ≤ a ∧ a < 0xA000000 then .sram ((a - 0x8000000) / 0x800000)
  else if 0x10000000 ≤ a ∧ a < 0x20000000 then
    if a % 4 = 0 then .regs (a - 0x10000000) else .unmapped
  else if 0x200000000 ≤ a ∧ a < 0x400000000 then
    let x := a - 0x200000000
    if a % 4 = 0 then .bitAlias (x / 128 * 4) (x % 128 / 4) else .unmapped
  else if 0x1000000000 ≤ a ∧ a < s.hbmEnd then .hbm
  else .unmapped

/-- The base of the replicated region; none where it does not lie wholly in fitted HBM below the fatal-state region
(R552, R579). -/
def State.repBase (s : State) : Option Nat :=
  let a := s.field .shdRepBase 39 30 * 0x40000000
  if 0x1000000000 ≤ a ∧ a + 0x40000000 ≤ s.fatalBase then some a else none

/-- Mark the `n` 64-byte lines from address `a` on (R553). -/
def markFrom (a : Nat) : Nat → Tbl Unit → Tbl Unit
  | 0, t => t
  | n + 1, t => markFrom (a + 64) n (tblIns t a ())

/-- The marks after a store of `n` bytes at `a`: each line of the replicated region it touches, while marks are kept
(R553). -/
def State.marked (s : State) (a n : Nat) : Shd :=
  let lo := a / 64 * 64
  let inside := s.repBase.any fun r => decide (r ≤ a ∧ a < r + 0x40000000)
  if s.shd.logging ∧ n ≠ 0 ∧ inside then
    { s.shd with marks := markFrom lo ((a + n - lo + 63) / 64) s.shd.marks }
  else s.shd

/-- Store bytes in memory; lines of the replicated region are marked while copies are cut (R553). -/
def State.store (s : State) (a : Nat) (b : Bytes) : State :=
  { s with mem := s.mem.writeN a b, shd := s.marked a b.length }

/-- A region of `n` bytes at `a` that lies wholly in fitted HBM below the fatal-state region. -/
def State.inHbm (s : State) (a n : Nat) : Bool := decide (0x1000000000 ≤ a ∧ a + n ≤ s.fatalBase)

end Sys2Proof.Machine
end

