-- ==== Sys2Proof/Machine/Gf.lean ====
section
/-! DEFINITION. Parity arithmetic (R127), CRC32C, and the 64 metadata bytes of a block (R120 to R122). -/

namespace Sys2Proof.Machine

/-- Multiply by x in GF(2^8) with polynomial 0x11D (R127). -/
def gfDouble (a : Nat) : Nat := if a < 128 then 2 * a else (2 * a) ^^^ 0x11D

/-- The product over the low `k` bits of `b` (R127). -/
def gfMulN : Nat → Nat → Nat → Nat
  | 0, _, _ => 0
  | k + 1, a, b => (if b % 2 = 1 then a else 0) ^^^ gfMulN k (gfDouble a) (b / 2)

/-- The product in GF(2^8) (R127). -/
def gfMul (a b : Nat) : Nat := gfMulN 8 a b

/-- a^(2^k - 2) by repeated squaring: the inverse for k = 8 (R127). -/
def gfPow254 : Nat → Nat → Nat → Nat
  | 0, _, acc => acc
  | k + 1, sq, acc => let sq := gfMul sq sq; gfPow254 k sq (gfMul acc sq)

/-- The inverse in GF(2^8); 0 for 0. -/
def gfInv (a : Nat) : Nat := gfPow254 7 a 1

/-- c(p, j) = 1 / (p ⊕ (4 + j)) (R127). -/
def coef (p j : Nat) : Nat := gfInv (p ^^^ (4 + j))

/-- A byte string times a coefficient. -/
def scaleBytes (c : Nat) (b : Bytes) : Bytes := b.map fun x => BitVec.ofNat 8 (gfMul c x.toNat)

/-- The sum (exclusive or) of two byte strings of one length. -/
def xorBytes (a b : Bytes) : Bytes := List.zipWith (· ^^^ ·) a b

/-- `n` zero bytes. -/
def zeros (n : Nat) : Bytes := List.replicate n 0#8

/-- Parity unit `p` of data units given by index, each `n` bytes (R127). -/
def parityOf (p n : Nat) (data : List (Nat × Bytes)) : Bytes :=
  data.foldl (fun acc d => xorBytes acc (scaleBytes (coef p d.1) d.2)) (zeros n)

/-- One elimination step over rows (coefficients and right-hand bytes): clear column `c` with pivot row `i`. -/
def gfEliminate (c i : Nat) (rows : List (List Nat × Bytes)) : List (List Nat × Bytes) :=
  match rows[i]? with
  | none => rows
  | some (pc, pb) =>
    let inv := gfInv (pc.getD c 0)
    let pc := pc.map (gfMul inv)
    let pb := scaleBytes inv pb
    rows.mapIdx fun k r =>
      if k = i then (pc, pb)
      else
        let f := r.1.getD c 0
        (List.zipWith (fun x y => x ^^^ gfMul f y) r.1 pc, xorBytes r.2 (scaleBytes f pb))

/-- Gauss–Jordan over columns `c`, `c + 1`, … of a square system whose leading minors are regular (Cauchy, R127). -/
def gfSolveFrom : Nat → Nat → List (List Nat × Bytes) → List (List Nat × Bytes)
  | _, 0, rows => rows
  | c, k + 1, rows => gfSolveFrom (c + 1) k (gfEliminate c c rows)

/-- The missing data units `miss`, solved from known data units and as many parity units (R127, R180). -/
def solveData (n : Nat) (miss : List Nat) (known parity : List (Nat × Bytes)) : List (Nat × Bytes) :=
  let rows := (parity.take miss.length).map fun q =>
    (miss.map (coef q.1), xorBytes q.2 (parityOf q.1 n known))
  List.zip miss ((gfSolveFrom 0 miss.length rows).map (·.2))

/-- One bit step of CRC-32C (reflected polynomial 0x82F63B78). -/
def crcBits : Nat → Nat → Nat
  | 0, c => c
  | k + 1, c => crcBits k (if c % 2 = 1 then (c / 2) ^^^ 0x82F63B78 else c / 2)

/-- CRC-32C register after bytes `b`. -/
def crcRun (c : Nat) : Bytes → Nat
  | [] => c
  | x :: b => crcRun (crcBits 8 (c ^^^ x.toNat)) b

/-- CRC32C of a byte string. -/
def crc32c (b : Bytes) : Nat := crcRun 0xFFFFFFFF b ^^^ 0xFFFFFFFF

/-- The 64 metadata bytes of a written block (R120). -/
def blockMeta (tag : Bytes) (wgen guard vol vlba : Nat) : Bytes :=
  tag.take 16 ++ zeros (16 - (tag.take 16).length) ++ toLe wgen 4 ++ toLe guard 4 ++ toLe vol 3 ++ toLe 0 1
    ++ toLe vlba 8 ++ zeros 28

/-- A stored block, data then metadata, is a zero block (R121). -/
def isZeroBlock (format1 : Bool) (b : Bytes) : Bool :=
  if format1 then (b.take 4096).all (· == 0#8) else (b.drop 4096).all (· == 0#8)

/-- The check of R122 on a stored block of a FORMAT 0 data position or copy. -/
def blockPasses (format1 : Bool) (vol vlba : Nat) (b : Bytes) : Bool :=
  format1 || isZeroBlock format1 b
    || (leAt b (4096 + 20) 4 == crc32c (b.take 4096) && leAt b (4096 + 24) 3 == vol && leAt b (4096 + 28) 8 == vlba)

/-- Bytes of a stored block: 4,096 data bytes and 64 metadata bytes in FORMAT 0 (R109). -/
def storedBytes (format1 : Bool) : Nat := if format1 then 4096 else 4160

/-- Block `i` of a string of stored blocks. -/
def storedBlock (format1 : Bool) (b : Bytes) (i : Nat) : Bytes :=
  (b.drop (i * storedBytes format1)).take (storedBytes format1)

/-- Cells of a run of `n` stored blocks: 16 per 4,096 data bytes, and their metadata together (R153, R154). -/
def cellsOf (format1 : Bool) (n : Nat) : Nat := 16 * n + (if format1 then 0 else ceilDiv (64 * n) 256)

end Sys2Proof.Machine
end

