-- ==== Sys2Proof/Machine/Crypto.lean ====
section
/-! DEFINITION. The public algorithms the spec names: SHA-256, SHA-384 (FIPS 180-4), AES-256 with GCM, XTS, CMAC and
key wrap (FIPS 197, SP 800-38D, IEEE Std 1619, SP 800-38B, RFC 3394), ECDSA on P-384 (FIPS 186-5), and SipHash. -/

namespace Sys2Proof.Machine.Crypto

/-! ### Numbers and byte strings -/

/-- A big-endian byte string as a number. -/
def ofBe (b : Bytes) : Nat := b.foldl (fun a x => a * 256 + x.toNat) 0

/-- The low `n` bytes of `v`, big-endian. -/
def toBe (v n : Nat) : Bytes := (toLe v n).reverse

/-- `b` cut into strings of `k` bytes, at most `n` of them. -/
def chunks (k : Nat) : Nat → Bytes → List Bytes
  | 0, _ => []
  | n + 1, b => if b.isEmpty then [] else b.take k :: chunks k n (b.drop k)

/-- All the `k`-byte strings of `b`, the last one perhaps shorter. -/
def split (k : Nat) (b : Bytes) : List Bytes := chunks k (b.length / k + 1) b

/-- The integer root of order `k`: the largest r below 2^n with r^k at most `v`. -/
def iroot (k v : Nat) : Nat → Nat → Nat
  | 0, r => r
  | n + 1, r => iroot k v n (if (r + 2 ^ n) ^ k ≤ v then r + 2 ^ n else r)

/-- No number from 2 up to `d` divides `n`. -/
def noDivisor (n : Nat) : Nat → Bool
  | 0 => true
  | d + 1 => (d + 1 < 2 || n % (d + 1) != 0) && noDivisor n d

/-- The first primes, in order. -/
def primes (n : Nat) : List Nat := ((List.range 420).filter fun p => decide (2 ≤ p) && noDivisor p (p - 1)).take n

/-! ### SHA-2 -/

/-- Rotate a `w`-bit word right. -/
def ror (w n x : Nat) : Nat := (x >>> n) ||| (x <<< (w - n)) % 2 ^ w

/-- The three amounts of a SHA-2 function: two rotations and a third that is a rotation (`Σ`) or a shift (`σ`). -/
def sigma (w a b c : Nat) (shift : Bool) (x : Nat) : Nat :=
  ror w a x ^^^ ror w b x ^^^ (if shift then x >>> c else ror w c x)

/-- One SHA-2 of word width `w`: its rounds and rotation amounts. -/
structure Sha where
  w : Nat
  rounds : Nat
  s0 : Nat × Nat × Nat
  s1 : Nat × Nat × Nat
  e0 : Nat × Nat × Nat
  e1 : Nat × Nat × Nat

/-- SHA-256. -/
def sha2w32 : Sha := ⟨32, 64, (7, 18, 3), (17, 19, 10), (2, 13, 22), (6, 11, 25)⟩
/-- SHA-384 and SHA-512. -/
def sha2w64 : Sha := ⟨64, 80, (1, 8, 7), (19, 61, 6), (28, 34, 39), (14, 18, 41)⟩

/-- The round constants: fractional parts of cube roots of primes. -/
def Sha.k (h : Sha) : List Nat :=
  (primes h.rounds).map fun p => iroot 3 (p * 2 ^ (3 * h.w)) (h.w + 4) 0 % 2 ^ h.w

/-- Fractional parts of square roots of eight primes from the `from_`-th. -/
def Sha.start (h : Sha) (from_ : Nat) : List Nat :=
  ((primes (from_ + 8)).drop from_).map fun p => iroot 2 (p * 2 ^ (2 * h.w)) (h.w + 6) 0 % 2 ^ h.w

/-- The message schedule, in reverse order, extended by `n` words. -/
def Sha.schedule (h : Sha) : Nat → List Nat → List Nat
  | 0, ws => ws
  | n + 1, ws =>
    let g (i : Nat) := ws.getD (i - 1) 0
    let x := g 16 + sigma h.w h.s0.1 h.s0.2.1 h.s0.2.2 true (g 15) + g 7
      + sigma h.w h.s1.1 h.s1.2.1 h.s1.2.2 true (g 2)
    Sha.schedule h n (x % 2 ^ h.w :: ws)

/-- One round. -/
def Sha.round (h : Sha) (v : List Nat) (kw : Nat) : List Nat :=
  let g (i : Nat) := v.getD i 0
  let ch := (g 4 &&& g 5) ^^^ ((2 ^ h.w - 1 - g 4) &&& g 6)
  let maj := (g 0 &&& g 1) ^^^ (g 0 &&& g 2) ^^^ (g 1 &&& g 2)
  let t1 := g 7 + sigma h.w h.e1.1 h.e1.2.1 h.e1.2.2 false (g 4) + ch + kw
  let t2 := sigma h.w h.e0.1 h.e0.2.1 h.e0.2.2 false (g 0) + maj
  [(t1 + t2) % 2 ^ h.w, g 0, g 1, g 2, (g 3 + t1) % 2 ^ h.w, g 4, g 5, g 6]

/-- One block into the chaining value. -/
def Sha.block (h : Sha) (k v : List Nat) (b : Bytes) : List Nat :=
  let ws := (split (h.w / 8) b).map ofBe
  let sched := (h.schedule (h.rounds - 16) ws.reverse).reverse
  let r := (List.zipWith (· + ·) k sched).foldl h.round v
  List.zipWith (fun a b => (a + b) % 2 ^ h.w) v r

/-- The digest of `b`, cut to `out` bytes. -/
def Sha.digest (h : Sha) (from_ out : Nat) (b : Bytes) : Bytes :=
  let bs := 2 * h.w
  let l := h.w / 4
  let pad := (bs - (b.length + 1 + l) % bs) % bs
  let m := b ++ [0x80#8] ++ zeros pad ++ toBe (8 * b.length) l
  (((split bs m).foldl (h.block h.k) (h.start from_)).flatMap fun x => toBe x (h.w / 8)).take out

/-- SHA-256. -/
def sha256 (b : Bytes) : Bytes := sha2w32.digest 0 32 b
/-- SHA-384. -/
def sha384 (b : Bytes) : Bytes := sha2w64.digest 8 48 b

/-! ### AES-256 -/

/-- Multiply by x modulo x^8 + x^4 + x^3 + x + 1. -/
def xtime (a : Nat) : Nat := if a < 128 then 2 * a else (2 * a) ^^^ 0x11B

/-- The product in the AES field over the low `k` bits of `b`. -/
def amulN : Nat → Nat → Nat → Nat
  | 0, _, _ => 0
  | k + 1, a, b => (if b % 2 = 1 then a else 0) ^^^ amulN k (xtime a) (b / 2)

/-- The product in the AES field. -/
def amul (a b : Nat) : Nat := amulN 8 a b

/-- The inverse in the AES field (a^254); 0 for 0. -/
def ainvN : Nat → Nat → Nat → Nat
  | 0, _, acc => acc
  | k + 1, sq, acc => let sq := amul sq sq; ainvN k sq (amul acc sq)

/-- The S-box. -/
def sbox (a : Nat) : Nat :=
  let i := ainvN 7 a 1
  let r (n : Nat) := (i <<< n ||| i >>> (8 - n)) % 256
  i ^^^ r 1 ^^^ r 2 ^^^ r 3 ^^^ r 4 ^^^ 0x63

/-- The inverse S-box. -/
def sboxInv (a : Nat) : Nat :=
  let r (n : Nat) := (a <<< n ||| a >>> (8 - n)) % 256
  ainvN 7 (r 1 ^^^ r 3 ^^^ r 6 ^^^ 0x05) 1

/-- x^n in the AES field. -/
def rcon : Nat → Nat
  | 0 => 1
  | n + 1 => xtime (rcon n)

/-- The key words, newest first, extended by `n` words; `i` is the index of the next one. -/
def expand : Nat → Nat → List (List Nat) → List (List Nat)
  | 0, _, ws => ws
  | n + 1, i, ws =>
    let t := ws.getD 0 []
    let t := if i % 8 = 0 then
        match t with
        | x :: r => (r ++ [x]).map sbox |>.mapIdx fun j v => if j = 0 then v ^^^ rcon (i / 8 - 1) else v
        | [] => []
      else if i % 8 = 4 then t.map sbox else t
    expand n (i + 1) (List.zipWith (· ^^^ ·) (ws.getD 7 []) t :: ws)

/-- The 15 round keys, 16 numbers each. -/
def roundKeys (key : Bytes) : List (List Nat) :=
  let k := (split 4 (key.take 32)).map fun w => w.map (·.toNat)
  let ws := (expand 52 8 k.reverse).reverse
  (List.range 15).map fun i => ((ws.drop (4 * i)).take 4).flatten

/-- The state with byte `i` taken from place `f i`. -/
def permute (f : Nat → Nat) (s : List Nat) : List Nat := (List.range 16).map fun i => s.getD (f i) 0

/-- MixColumns with row coefficients `c`. -/
def mixCols (c : List Nat) (s : List Nat) : List Nat :=
  (List.range 16).map fun i =>
    (List.range 4).foldl (fun a j => a ^^^ amul (c.getD ((j + 4 - i % 4) % 4) 0) (s.getD (i / 4 * 4 + j) 0)) 0

/-- Encrypt one 16-byte block. -/
def aesEnc (key blk : Bytes) : Bytes :=
  let ks := roundKeys key
  let add (s : List Nat) (r : Nat) := List.zipWith (· ^^^ ·) s (ks.getD r [])
  let sub (s : List Nat) := permute (fun i => (i + 4 * (i % 4)) % 16) (s.map sbox)
  let s := add (blk.map (·.toNat)) 0
  let s := ((List.range 13).map (· + 1)).foldl (fun s r => add (mixCols [2, 3, 1, 1] (sub s)) r) s
  (add (sub s) 14).map (BitVec.ofNat 8 ·)

/-- Decrypt one 16-byte block. -/
def aesDec (key blk : Bytes) : Bytes :=
  let ks := roundKeys key
  let add (s : List Nat) (r : Nat) := List.zipWith (· ^^^ ·) s (ks.getD r [])
  let sub (s : List Nat) := (permute (fun i => (i + 12 * (i % 4)) % 16) s).map sboxInv
  let s := add (blk.map (·.toNat)) 14
  let s := ((List.range 13).map (13 - ·)).foldl (fun s r => mixCols [14, 11, 13, 9] (add (sub s) r)) s
  (add (sub s) 0).map (BitVec.ofNat 8 ·)

/-! ### GCM with a 12-byte IV -/

/-- The product of GHASH over the top `n` bits of `x`, `v` standing for y shifted. -/
def ghashN : Nat → Nat → Nat → Nat
  | 0, _, _ => 0
  | n + 1, x, v =>
    let v' := if v % 2 = 1 then (v / 2) ^^^ (0xE1 * 2 ^ 120) else v / 2
    (if bitOf x n then v else 0) ^^^ ghashN n x v'

/-- GHASH under `h` of whole 16-byte blocks. -/
def ghash (h : Nat) (b : Bytes) : Nat := (split 16 b).foldl (fun y x => ghashN 128 (y ^^^ ofBe x) h) 0

/-- The string padded with zeros to whole blocks. -/
def pad16 (b : Bytes) : Bytes := b ++ zeros ((16 - b.length % 16) % 16)

/-- Counter mode from counter `c`. -/
def ctr (key iv : Bytes) : Nat → List Bytes → Bytes
  | _, [] => []
  | c, b :: bs => xorBytes b (aesEnc key (iv ++ toBe c 4)) ++ ctr key iv (c + 1) bs

/-- The GCM transform of data: encryption and decryption are the same. -/
def gcmData (key iv b : Bytes) : Bytes := ctr key iv 2 (split 16 b)

/-- The GCM tag of ciphertext `ct`. -/
def gcmTag (key iv aad ct : Bytes) : Bytes :=
  let h := ofBe (aesEnc key (zeros 16))
  let s := ghash h (pad16 aad ++ pad16 ct ++ toBe (8 * aad.length) 8 ++ toBe (8 * ct.length) 8)
  xorBytes (toBe s 16) (aesEnc key (iv ++ toBe 1 4))

/-! ### XTS over whole 16-byte blocks -/

/-- The tweak times x, little-endian. -/
def xtsNext (t : Bytes) : Bytes :=
  let v := 2 * leAt t 0 16
  toLe (if 2 ^ 128 ≤ v then (v - 2 ^ 128) ^^^ 0x87 else v) 16

/-- The blocks of one data unit. -/
def xtsRun (f : Bytes → Bytes) : Bytes → List Bytes → Bytes
  | _, [] => []
  | t, b :: bs => xorBytes (f (xorBytes b t)) t ++ xtsRun f (xtsNext t) bs

/-- Encrypt a data unit of whole blocks with tweak number `n`; the key is data key then tweak key. -/
def xtsEnc (key : Bytes) (n : Nat) (b : Bytes) : Bytes :=
  xtsRun (aesEnc (key.take 32)) (aesEnc (key.drop 32) (toLe n 16)) (split 16 b)

/-- Decrypt a data unit of whole blocks. -/
def xtsDec (key : Bytes) (n : Nat) (b : Bytes) : Bytes :=
  xtsRun (aesDec (key.take 32)) (aesEnc (key.drop 32) (toLe n 16)) (split 16 b)

/-! ### CMAC and key wrap -/

/-- A CMAC subkey: the string doubled. -/
def cmacDouble (b : Bytes) : Bytes :=
  let v := 2 * ofBe b
  toBe (if 2 ^ 128 ≤ v then (v - 2 ^ 128) ^^^ 0x87 else v) 16

/-- AES-CMAC. -/
def cmac (key b : Bytes) : Bytes :=
  let k1 := cmacDouble (aesEnc key (zeros 16))
  let bs := split 16 b
  let last := bs.getLastD []
  let fin := if last.length = 16 then xorBytes last k1
    else xorBytes (last ++ [0x80#8] ++ zeros (15 - last.length)) (cmacDouble k1)
  (bs.dropLast ++ [fin]).foldl (fun y x => aesEnc key (xorBytes y x)) (zeros 16)

/-- The unwrap steps t = n, …, 1 over registers `r` of `k` words (RFC 3394). -/
def unwrapSteps (key : Bytes) (k : Nat) : Nat → Bytes → List Bytes → Bytes × List Bytes
  | 0, a, r => (a, r)
  | n + 1, a, r =>
    let t := n + 1
    let i := n % k
    let b := aesDec key (xorBytes a (toBe t 8) ++ r.getD i [])
    unwrapSteps key k n (b.take 8) (setAt r i (b.drop 8))

/-- Key unwrap (RFC 3394): none where the integrity check fails. -/
def unwrap (key b : Bytes) : Option Bytes :=
  match split 8 b with
  | a :: r =>
    if b.length % 8 ≠ 0 ∨ r.length < 2 then none
    else
      let (a, r) := unwrapSteps key r.length (6 * r.length) a r
      if a = List.replicate 8 0xA6#8 then some r.flatten else none
  | [] => none

/-! ### ECDSA on P-384 -/

/-- The field prime. -/
def p384 : Nat := 2 ^ 384 - 2 ^ 128 - 2 ^ 96 + 2 ^ 32 - 1
/-- The group order. -/
def n384 : Nat :=
  0xFFFFFFFFFFFFFFFFFFFFFFFFFFFFFFFFFFFFFFFFFFFFFFFFC7634D81F4372DDF581A0DB248B0A77AECEC196ACCC52973
/-- The curve coefficient b. -/
def b384 : Nat :=
  0xB3312FA7E23EE7E4988E056BE3F82D19181D9C6EFE8141120314088F5013875AC656398D8A2ED19D2A85C8EDD3EC2AEF
/-- The base point. -/
def g384 : Nat × Nat :=
  (0xAA87CA22BE8B05378EB1C71EF320AD746E1D3B628BA79B9859F741E082542A385502F25DBF55296C3A545E3872760AB7,
   0x3617DE4A96262C6F5D9E98BF9292DC29F8F41DBD289A147CE9DA3113B5F0B8C00A60B1CE1D7E819D7A431D7C90EA0E5F)

/-- a^e modulo m over the low `n` bits of e. -/
def powMod (m : Nat) : Nat → Nat → Nat → Nat
  | 0, _, _ => 1
  | n + 1, a, e => (if e % 2 = 1 then a else 1) * powMod m n (a * a % m) (e / 2) % m

/-- The inverse modulo a prime of 384 bits. -/
def invMod (m a : Nat) : Nat := powMod m 384 (a % m) (m - 2)

/-- A point of the curve; none is the point at infinity. -/
abbrev Pt := Option (Nat × Nat)

/-- The sum of two points. -/
def ptAdd : Pt → Pt → Pt
  | none, q => q
  | p, none => p
  | some (x1, y1), some (x2, y2) =>
    if x1 = x2 ∧ (y1 + y2) % p384 = 0 then none
    else
      let l := if x1 = x2 then (3 * x1 * x1 + p384 - 3) * invMod p384 (2 * y1) % p384
        else (y2 + p384 - y1) * invMod p384 (x2 + p384 - x1) % p384
      let x3 := (l * l + 2 * p384 - x1 - x2) % p384
      some (x3, (l * (x1 + p384 - x3) + p384 - y1) % p384)

/-- A multiple of a point over the low `n` bits of k. -/
def ptMul : Nat → Nat → Pt → Pt
  | 0, _, _ => none
  | n + 1, k, p => ptAdd (if k % 2 = 1 then p else none) (ptMul n (k / 2) (ptAdd p p))

/-- ECDSA verification of the SHA-384 of `msg`: the public key is 97 bytes in uncompressed form, the signature r and s
of 48 bytes each. -/
def ecdsaVerify (pub sig msg : Bytes) : Bool :=
  let x := beAt pub 1 48
  let y := beAt pub 49 48
  let r := beAt sig 0 48
  let s := beAt sig 48 48
  let onCurve := decide (pub.length = 97 ∧ byteAt pub 0 = 4 ∧ x < p384 ∧ y < p384
    ∧ y * y % p384 = (x * x * x + (p384 - 3) * x + b384) % p384)
  onCurve && decide (0 < r ∧ r < n384 ∧ 0 < s ∧ s < n384) &&
    (let w := invMod n384 s
     let e := ofBe (sha384 msg)
     match ptAdd (ptMul 384 (e * w % n384) (some g384)) (ptMul 384 (r * w % n384) (some (x, y))) with
     | some (vx, _) => vx % n384 == r
     | none => false)

/-! ### SipHash-2-4 -/

/-- Addition modulo 2^64. -/
def add64 (a b : Nat) : Nat := (a + b) % 2 ^ 64

/-- Rotation left by `n` of a 64-bit number. -/
def rol64 (n x : Nat) : Nat := (x <<< n) % 2 ^ 64 ||| (x >>> (64 - n))

/-- The four words of SipHash. -/
structure Sip where
  a : Nat
  b : Nat
  c : Nat
  d : Nat

/-- One SipRound. -/
def Sip.round (v : Sip) : Sip :=
  let a := add64 v.a v.b
  let b := rol64 13 v.b ^^^ a
  let a := rol64 32 a
  let c := add64 v.c v.d
  let d := rol64 16 v.d ^^^ c
  let a := add64 a d
  let d := rol64 21 d ^^^ a
  let c := add64 c b
  let b := rol64 17 b ^^^ c
  ⟨a, b, rol64 32 c, d⟩

/-- Take one 64-bit word in with two rounds. -/
def Sip.absorb (v : Sip) (m : Nat) : Sip :=
  let v := ({ v with d := v.d ^^^ m } : Sip).round.round
  { v with a := v.a ^^^ m }

/-- SipHash-2-4 of a byte string under a 128-bit key (R489). -/
def siphash (key b : Bytes) : Nat :=
  let k0 := leAt key 0 8
  let k1 := leAt key 8 8
  let v : Sip := ⟨k0 ^^^ 0x736f6d6570736575, k1 ^^^ 0x646f72616e646f6d, k0 ^^^ 0x6c7967656e657261,
    k1 ^^^ 0x7465646279746573⟩
  let full := b.length / 8
  let v := (List.range full).foldl (fun v i => v.absorb (leAt b (8 * i) 8)) v
  let v := v.absorb (leAt b (8 * full) (b.length % 8) + b.length % 256 * 2 ^ 56)
  let v := ({ v with c := v.c ^^^ 0xFF } : Sip).round.round.round.round
  v.a ^^^ v.b ^^^ v.c ^^^ v.d

end Sys2Proof.Machine.Crypto
end

