-- ==== Sys2Proof/Machine/Flash.lean ====
section
/-! DEFINITION. The boot flash: image slots, the checks of an image, boot pointers, and the choice of a slot (R656 to
R660). -/

namespace Sys2Proof.Machine

/-- Bytes of an image slot (R656). -/
def slotBytes : Nat := 15 * 2 ^ 20

/-- What image slot `i` holds (R656). -/
def State.slotImage (s : State) (i : Nat) : Bytes := (tblFind s.sys.slots i).getD (Config.factoryImage i)

/-- Bytes `a` to `b` of an image are 0. -/
def zeroRange (img : Bytes) (a b : Nat) : Bool := ((img.drop a).take (b + 1 - a)).all fun x => x == 0#8

/-- The bytes of an image: header and sections (R658). -/
def imageLen (img : Bytes) : Nat := 512 + leAt img 24 4 + leAt img 28 4

/-- What the signature covers: the whole image with bytes 193 to 288 taken as zero (R658). -/
def signedPart (img : Bytes) : Bytes :=
  let b := img.take (imageLen img)
  b.take 193 ++ zeros 96 ++ b.drop 289

/-- The bit of PARTS that names a variant (R658). -/
def partBit : Variant → Nat
  | .kn4896 => 0 | .kn4864 => 1 | .kn4848 => 2

/-- The first check of R659 that an image fails, by its ERR code; 0 where it passes them all. -/
def State.imageErr (s : State) (img : Bytes) : Nat :=
  let shape := leAt img 0 8 == 0x474D494157544E47 && leAt img 8 2 == 1 && zeroRange img 32 95
    && zeroRange img 289 511 && decide (leAt img 20 4 < 8) && leAt img 24 4 % 4 == 0 && leAt img 28 4 % 4 == 0
    && decide (imageLen img ≤ slotBytes) && decide (imageLen img ≤ img.length)
  let pub := (img.drop 96).take 97
  let hash := Crypto.sha384 pub
  if !shape then 3
  else if !(hash == Config.imageKeyHash 0 || hash == Config.imageKeyHash 1) then 4
  else if !Crypto.ecdsaVerify pub ((img.drop 193).take 96) (signedPart img) then 5
  else if leAt img 16 4 < Config.svnFloor then 6
  else if !bitOf (leAt img 20 4) (partBit s.variant) then 7
  else 0

/-- STATE_ABI of an image (R658). -/
def stateAbi (img : Bytes) : Nat := leAt img 10 2

/-- Write bytes into an image slot at an offset; at offset 0 the header sector is erased first (R674). -/
def State.writeSlot (s : State) (i off : Nat) (b : Bytes) : State :=
  let old := s.slotImage i
  let old := if off = 0 then List.replicate 4096 0xFF#8 ++ old.drop 4096 else old
  let old := old ++ List.replicate (off - old.length) 0xFF#8
  { s with sys := { s.sys with slots := tblIns s.sys.slots i (old.take off ++ b ++ old.drop (off + b.length)) } }

/-- The identity block belongs to this part (R656, R659). -/
def identityOk : Bool :=
  Crypto.cmac Config.flashKey (toLe 0x5444494C53414E4F 8 ++ toLe Config.serial 8) == Config.flashCheck

/-- The boot pointer in force (R657). -/
def Sys.pointer (s : Sys) : Option BootPtr :=
  match s.ptr0, s.ptr1 with
  | some a, some b => some (if b.gen < a.gen then a else b)
  | some a, none => some a
  | none, b => b

/-- The bytes of a boot pointer copy (R17, R657). -/
def BootPtr.bytes (p : BootPtr) : Bytes :=
  let b := toLe p.slot 1 ++ toLe p.trial 1 ++ zeros 2 ++ toLe p.gen 8
  b ++ toLe (crc32c b) 4

/-- Rewrite the boot pointer: the copy not in force, with the next GEN (R657). -/
def Sys.putPointer (s : Sys) (slot trial : Nat) : Sys :=
  let gen := match s.pointer with | some p => p.gen + 1 | none => 1
  let p : BootPtr := { slot, trial, gen }
  if s.ptr0.isSome ∧ s.pointer = s.ptr0 then { s with ptr1 := some p } else { s with ptr0 := some p }

/-- The flash with the boot pointers of `sys`: a copy that differs is programmed (R657). -/
def State.withPointers (s : State) (sys : Sys) : State :=
  let one (s : State) (old new : Option BootPtr) (at_ : Nat) : State :=
    match new with
    | some p => if old = new then s else s.emit (.flash "POINTER" at_ p.bytes)
    | none => s
  { one (one s s.sys.ptr0 sys.ptr0 0x1000) s.sys.ptr1 sys.ptr1 0x2000 with
    sys := { s.sys with ptr0 := sys.ptr0, ptr1 := sys.ptr1 } }

/-- Rewrite the boot pointer (R657). -/
def State.putPointer (s : State) (slot trial : Nat) : State := s.withPointers (s.sys.putPointer slot trial)

/-! ### Configuration banks (R661) -/

/-- The bytes of a record with SEQ `n` (R17, R661); the layout of a payload is stated for ADMIN alone (R666), and is free
for the others (log entry 116). -/
def CfgRec.bytes (r : CfgRec) (n : Nat) : Bytes :=
  let p := match r.val with
    | none => []
    | some (.admin b) => b
    | some _ => Config.recordPayload n
  let b := toLe r.typ 2 ++ toLe p.length 2 ++ toLe r.key 4 ++ toLe n 8 ++ p
  b ++ toLe (crc32c b) 4

/-- Flash offset of a configuration bank (R656). -/
def bankBase (bank : Nat) : Nat := 0x2000000 + bank * 0x1000000

/-- The bytes of a bank's header (R661). -/
def bankHeader (gen : Nat) : Bytes :=
  let b := toLe 0x47464E43534F4C43 8 ++ toLe gen 8
  b ++ toLe (crc32c b) 4

/-- Bytes a record takes in a bank: each begins at a multiple of 16 (R661). -/
def recordRoom (b : Bytes) : Nat := (b.length + 15) / 16 * 16

/-- Compaction (R661): the other bank is erased, takes every record in force and then its header, and the old bank is
erased. -/
def State.compact (s : State) : State :=
  let f := s.sys.flash
  let bank := 1 - f.bank
  let s := s.emit (.flash "ERASE" (bankBase bank) [])
  let (s, next) := f.placed.foldl (fun (x : State × Nat) r =>
    (x.1.emit (.flash "CONFIG" (bankBase bank + x.2) r.2.2), x.2 + recordRoom r.2.2)) (s, 4096)
  let s := s.emit (.flash "CONFIG" (bankBase bank) (bankHeader (f.bankGen + 1)))
  let s := s.emit (.flash "ERASE" (bankBase f.bank) [])
  { s with sys := { s.sys with flash := { s.sys.flash with bank, bankGen := f.bankGen + 1, next } } }

/-- A record has been appended to the live bank and read back: it is in force (R661, R662). -/
def State.placeRecord (s : State) (r : CfgRec) : State :=
  let f := s.sys.flash
  let b := r.bytes f.seq
  let keep := f.recs.filter fun x => !(x.typ == r.typ && x.key == r.key)
  let kept := f.placed.filter fun x => !(x.1 == r.typ && x.2.1 == r.key)
  let s := s.emit (.flash "CONFIG" (bankBase f.bank + f.next) b)
  let s : State := { s with sys := { s.sys with flash := { f with
    recs := if r.val.isSome then keep ++ [r] else keep
    placed := if r.val.isSome then kept ++ [(r.typ, r.key, b)] else kept
    seq := f.seq + 1
    next := f.next + recordRoom b } } }
  if 0x1000000 < s.sys.flash.next + 0x400000 then s.compact else s

/-- The ROM's choice of an image slot (R659, R660): the slot that runs, if any; ERR, TRIAL as found and FALLBACK of
SYS_BOOT, and the pointers as it leaves them. -/
structure RomChoice where
  slot : Option Nat
  err : Nat
  trial : Nat
  fallback : Bool
  sys : Sys
  /-- The identity block failed: the ROM stops (R659). -/
  foreign : Bool := false
deriving DecidableEq, Repr

/-- What the ROM does with the flash (R659, R660). -/
def State.romChoose (s : State) : RomChoice :=
  if !identityOk then { slot := none, err := 1, trial := 0, fallback := false, sys := s.sys, foreign := true }
  else
    match s.sys.pointer with
    | none => { slot := none, err := 2, trial := 0, fallback := false, sys := s.sys }
    | some p =>
      let other := 1 - p.slot
      let sys := if p.trial = 1 then s.sys.putPointer p.slot 2
        else if p.trial = 2 then s.sys.putPointer other 0 else s.sys
      let (a, b) := if p.trial = 2 then (other, p.slot) else (p.slot, other)
      let ea := s.imageErr (s.slotImage a)
      let eb := s.imageErr (s.slotImage b)
      let run := if ea = 0 then some a else if eb = 0 then some b else none
      { slot := run, err := ea, trial := p.trial, fallback := run == some other, sys }

end Sys2Proof.Machine
end

