-- ==== Sys2Proof/Machine/Keys.lean ====
section
/-! DEFINITION. Memory keys: the key table in HBM, the key check and its holders (R515 to R520, R724). -/

namespace Sys2Proof.Machine

/-- A key table entry (R516). -/
structure KeyEntry where
  state : Nat
  kind : Nat
  access : Nat
  tag : Nat
  tenant : Nat
  binding : Nat
  uses : Nat
  base : Nat
  length : Nat
  target : Nat
  rkey : Nat
deriving DecidableEq, Repr

/-- The base of the key table; a table that does not lie wholly in HBM below the fatal-state region acts as 0 (R541). -/
def State.keyBase (s : State) : Nat :=
  let b := s.field .mmuKeyBase 39 26 * 2 ^ 26
  if s.inHbm b 0x4000000 then b else 0

/-- The address of entry `idx` (R515). -/
def State.keyAddr (s : State) (idx : Nat) : Nat := s.keyBase + 64 * idx

/-- Entry `idx` as it stands in HBM (R516). -/
def State.keyAt (s : State) (idx : Nat) : KeyEntry :=
  let b := s.mem.readN (s.keyAddr idx) 44
  { state := byteAt b 0, kind := byteAt b 1, access := byteAt b 2, tag := byteAt b 3, tenant := leAt b 4 4 % 2 ^ 20,
    binding := leAt b 8 4, uses := leAt b 12 4, base := leAt b 16 8, length := leAt b 24 8, target := leAt b 32 8,
    rkey := leAt b 40 4 }

/-- The 64 bytes of an entry (R516). -/
def KeyEntry.bytes (k : KeyEntry) : Bytes :=
  toLe k.state 1 ++ toLe k.kind 1 ++ toLe k.access 1 ++ toLe k.tag 1 ++ toLe k.tenant 4 ++ toLe k.binding 4
    ++ toLe k.uses 4 ++ toLe k.base 8 ++ toLe k.length 8 ++ toLe k.target 8 ++ toLe k.rkey 4 ++ toLe 0 20

/-- The state with entry `idx` written. -/
def State.putKey (s : State) (idx : Nat) (k : KeyEntry) : State :=
  s.store (s.keyAddr idx) k.bytes

/-- Function `n` is enabled: it exists (R724). -/
def State.funcEnabled (s : State) (n : Nat) : Bool :=
  Config.endpoint s.variant && (n == 0 || decide (n ≤ s.epf.numVfs))

/-- ODT connection `c`. -/
def State.odtConn (s : State) (c : Nat) : OdtConn := tblGet {} s.net.odt c

/-- The index of an MKEY (R515). -/
def keyIndex (mkey : Nat) : Nat := mkey % 2 ^ 20

/-- The binding of a key is usable: its function is enabled, or its connection is not CLOSED (R518 step 4). -/
def State.keyBound (s : State) (k : KeyEntry) : Bool :=
  match k.kind with
  | 0 => s.funcEnabled (k.binding % 64)
  | 1 => (s.odtConn (k.binding % 2 ^ 16)).state != .closed
  | 2 => (tblFind s.net.roce (k.binding % 2 ^ 14)).isSome
  | _ => k.kind == 3

/-- Steps 1 to 4 of the key check (R518) of an access to `len` bytes at `a`, a write when `wr`. -/
def State.keyOk (s : State) (mkey : Nat) (wr : Bool) (a len : Nat) : Bool :=
  let k := s.keyAt (keyIndex mkey)
  s.keyBase != 0 && keyIndex mkey != 0 && mkey / 2 ^ 24 != 0 && bitsOf mkey 23 20 == 0
    && k.state == 1 && k.tag == mkey / 2 ^ 24
    && (if wr then bitOf k.access 1 else bitOf k.access 0)
    && decide (1 ≤ len ∧ k.base ≤ a ∧ a + len ≤ k.base + k.length ∧ a + len ≤ 2 ^ 64)
    && s.keyBound k

/-- The key has the face and binding of a queue pair (R516, R518, R520). -/
def State.keyBoundTo (s : State) (k : KeyEntry) : Face → Bool
  | .endpoint f _ => k.kind == 0 && k.binding % 64 == f
  | .odt c => k.kind == 1 && k.binding % 2 ^ 16 == c
  | .roce a q => k.kind == 2 && (match tblFind s.net.roce (k.binding % 2 ^ 14) with
    | some c => c.allow == a && c.qid == some q
    | none => false)

/-- Step 5 for a command buffer or a ring key: the tenant, and device memory or the queue pair's own binding (R518). -/
def State.keyMatches (s : State) (mkey : Nat) (tenant : Nat) (face : Face) : Bool :=
  let k := s.keyAt (keyIndex mkey)
  k.tenant == tenant && (k.kind == 3 || s.keyBoundTo k face)

/-- The whole check for a command buffer (R518). -/
def State.bufferOk (s : State) (mkey : Nat) (wr : Bool) (a len tenant : Nat) (face : Face) : Bool :=
  s.keyOk mkey wr a len && s.keyMatches mkey tenant face

/-- One more holder of a key (R519). A transient key has its command as its holder from the start (R520). -/
def State.holdKey (s : State) (mkey : Nat) : State :=
  let k := s.keyAt (keyIndex mkey)
  if mkey = 0 ∨ s.keyBase = 0 ∨ k.kind = 2 then s else s.putKey (keyIndex mkey) { k with uses := k.uses + 1 }

/-- A holder of a key ends (R519). A transient key is freed then (R520): its STATE is 0 and its TAG advances. -/
def State.dropKey (s : State) (mkey : Nat) : State :=
  let k := s.keyAt (keyIndex mkey)
  if mkey = 0 ∨ s.keyBase = 0 ∨ k.uses = 0 then s
  else if k.kind = 2 ∧ k.uses = 1 then
    s.putKey (keyIndex mkey) { k with uses := 0, state := 0, tag := if k.tag = 255 then 1 else k.tag + 1 }
  else s.putKey (keyIndex mkey) { k with uses := k.uses - 1 }

/-- The lowest index from `i` with a free entry, among `n` of them (R515, R521). -/
def State.freeKey (s : State) : Nat → Nat → Option Nat
  | _, 0 => none
  | i, n + 1 => if (s.keyAt i).state = 0 then some i else s.freeKey (i + 1) n

/-- A free key index, 1 to 1,048,575; the lowest is taken (log entry 20). -/
def State.pickKey (s : State) : Option Nat := if s.keyBase = 0 then none else s.freeKey 1 1048575

/-- The tag a new key takes: 1 for an index never issued (R515). -/
def State.newTag (s : State) (idx : Nat) : Nat := max 1 (s.keyAt idx).tag

/-- The physical address that a device key's address reaches (R517). -/
def State.devAddr (s : State) (mkey a : Nat) : Nat := (s.keyAt (keyIndex mkey)).target + a

end Sys2Proof.Machine
end

