-- ==== Sys2Proof/Machine/Xbar.lean ====
section
/-! DEFINITION. The crossbar: partitions of the cell SRAM, the Class 0 pool, runs of cells at the inputs, and one
slot's matching (R346 to R360). -/

namespace Sys2Proof.Machine

/-! ### Partitions (R354 to R357) -/

/-- The crossbar port of a face point: MAC n is port n, the endpoint is port 14 (R23, R235). -/
def facePort (pt : Nat) : Nat := if pt = 8 then 14 else pt

/-- The face point of a port, if it is one. -/
def portFace (p : Nat) : Option Nat := if p < 8 then some p else if p = 14 then some 8 else none

/-- Ports present (R12, R373). -/
def State.presentPorts (s : State) : List Nat := (List.range 34).filter fun p => Config.portPresent s.variant p

/-- SHARED_CELLS (R354, R374). -/
def State.sharedCells (s : State) : Nat := 262144 - 32768 - 256 * s.presentPorts.length

/-- The partition of port `p`. -/
def State.part (s : State) (p : Nat) : Part := tblGet {} s.xbr.parts p

/-- The state with the partition of port `p` replaced. -/
def State.setPart (s : State) (p : Nat) (x : Part) : State :=
  { s with xbr := { s.xbr with parts := tblPut {} s.xbr.parts p x } }

/-- SHARED_FREE (R374). -/
def State.sharedFree (s : State) : Nat :=
  s.sharedCells - s.xbr.parts.foldl (fun a e => a + e.2.shared) 0

/-- PART_MAX of a port: above SHARED_CELLS it acts as SHARED_CELLS (R376). -/
def State.partMax (s : State) (p : Nat) : Nat := min (tblGet 0x8000 s.xbr.maxes p) s.sharedCells

/-- The overflow region's base; a value that does not lie wholly in HBM below the fatal-state region acts as 0
(R375). -/
def State.ovfBase (s : State) : Nat :=
  let b := s.field .xbrOvfBase 39 21 * 2 ^ 21
  if s.inHbm b 0x5400000 then b else 0

/-- Cells of a port's overflow area (R357). -/
def State.ovfSize (s : State) (p : Nat) : Nat :=
  if s.ovfBase = 0 then 0
  else if (portFace p).isSome then 16384
  else if 8 ≤ p ∧ p < 14 then 32768
  else 0

/-- Staging cells reserved in a port's area (R154, R357). -/
def State.stagedAt (s : State) (p : Nat) : Nat :=
  match portFace p with
  | some pt => tblGet 0 s.str.staging pt
  | none => 0

/-- Free cells of a port's overflow area. -/
def State.ovfFree (s : State) (p : Nat) : Nat := s.ovfSize p - (s.part p).ovf - s.stagedAt p

/-- Shared cells a port may still take (R355). -/
def State.sharedRoom (s : State) (p : Nat) : Nat := min (s.partMax p - (s.part p).shared) s.sharedFree

/-- Charge `n` cells of level 1 or 2 at a port: floor, shared pool, then (level 1) the overflow area; what cannot be
charged waits (R355, R356). -/
def State.charge1 (s : State) (p level n : Nat) : State :=
  let x := s.part p
  let f := min n (256 - x.floor)
  let sh := min (n - f) (s.sharedRoom p)
  let o := if level = 1 then min (n - f - sh) (s.ovfFree p) else 0
  let w := n - f - sh - o
  let s := if o = 0 then s else s.count .xbrOvfWr o
  let s := if w = 0 then s else s.count .xbrWait
  s.setPart p { x with floor := x.floor + f, shared := x.shared + sh, ovf := x.ovf + o, waiting := x.waiting + w }

/-- Charges of `n` cells of a port end: waiting cells, then spilled cells take the places freed (R355 to R357). -/
def State.release1 (s : State) (p n : Nat) : State :=
  let x := s.part p
  let w := min n x.waiting
  let o := min (n - w) x.ovf
  let sh := min (n - w - o) x.shared
  let f := min (n - w - o - sh) x.floor
  s.setPart p { x with waiting := x.waiting - w, ovf := x.ovf - o, shared := x.shared - sh, floor := x.floor - f }

/-- Charge cells of any level: Class 0 cells take cells of their pool (R355, R358). -/
def State.chargeCells (s : State) (p level n : Nat) : State :=
  if level = 0 then
    let x := s.part p
    s.setPart p { x with c0 := x.c0 + n }
  else s.charge1 p level n

/-- Charges of cells of any level end. -/
def State.releaseCells (s : State) (p level n : Nat) : State :=
  if level = 0 then
    let x := s.part p
    s.setPart p { x with c0 := x.c0 - n, c0In := x.c0In - min n x.c0In }
  else s.release1 p n

/-- An output can take one cell (R355). -/
def State.canTake (s : State) (p level : Nat) : Bool :=
  level == 0 || decide ((s.part p).floor < 256) || decide (0 < s.sharedRoom p)
    || (level == 1 && decide (0 < s.ovfFree p))

/-- Free cells of the Class 0 pool, reservations deducted (R374). -/
def State.c0Free (s : State) : Nat := 32768 - s.xbr.c0Used

/-- C0_PORT_MAX: below 256 it acts as 256, above 32,768 as 32,768 (R374). -/
def State.c0PortMax (s : State) : Nat := min 32768 (max 256 (s.field .xbrC0 15 0))

/-! ### Runs of cells -/

/-- A run of cells joins its queue at input `src` (R349); `charged` says that its cells are charged there already. -/
def State.pushRun (s : State) (src : Nat) (dsts : List Nat) (cls n : Nat) (who : CellFor) (keyed charged : Bool)
    (owner : Option Nat) (record : Bool := false) (blank : List Nat := []) (pri : Nat := 0) (packed : Bool := false) :
    State :=
  let level := if record then 2 else if cls = 0 then 0 else 1
  let run : CellRun :=
    { id := s.xbr.nextRun, src, residue := dsts, dsts, level, cls, total := n, left := n, who, keyed, packed, blank, pri,
      owner }
  let s : State := { s with xbr := { s.xbr with runs := s.xbr.runs ++ [run], nextRun := s.xbr.nextRun + 1 } }
  if charged then s else s.chargeCells src level n

/-- The island of the cipher group of a face port (R24, R379). -/
def cipherIsland (p : Nat) : Nat := if p < 4 then 158 else 159

/-- The block of its run that cell `k` carries, and which cell of the block it is: `none` for a metadata cell (R346). -/
def CellRun.blockAt (r : CellRun) (k : Nat) : Option (Nat × Nat) :=
  if !r.packed then some (k / 16, k % 16)
  else if k % 65 = 64 ∨ r.total ≤ k + 1 then none
  else some (k / 65 * 4 + k % 65 / 16, k % 65 % 16)

/-- The next cell of a run belongs to a block that a cipher lane works on: zero blocks go through none (R121). -/
def CellRun.ciphered (r : CellRun) : Bool :=
  r.keyed && (match r.blockAt (r.total - r.left) with
    | some (b, _) => !r.blank.contains b
    | none => false)

/-- A keyed cell whose lane's cipher group is not ON, is draining or has not reloaded its key store, waits (R37, R39,
R391). -/
def State.laneWaits (s : State) (r : CellRun) : Bool :=
  r.ciphered && ((r.src :: r.dsts).any fun p =>
    (portFace p).isSome && !(s.isOn (cipherIsland p) && s.cph.stores.getD (cipherIsland p - 158) false))

/-- A run waits: for its cipher lane, or because it came after the crossbar began to drain (R35, R39). -/
def State.runWaits (s : State) (r : CellRun) : Bool :=
  s.laneWaits r || s.xbr.intake.any fun n => decide (n ≤ r.id)

/-- The islands through which cells move: the crossbar slices and the HBM PHYs (R38). -/
def cellIslands : List Nat := [144, 145, 146, 147, 148, 149]

/-- Cells can move: each of these islands that the variant has reads ON (R38). -/
def State.cellsMove (s : State) : Bool :=
  cellIslands.all fun i => s.readsOn i || (s.island i).state == .fused

/-- The head run of input `i` at a level for output `o`, unicast or multicast (R349). -/
def State.headRun (s : State) (i level o : Nat) (mc : Bool) : Option CellRun :=
  if mc then
    (s.xbr.runs.find? fun r => r.src == i && r.level == level && decide (1 < r.dsts.length) && !s.runWaits r).filter
      fun r => r.residue.contains o
  else s.xbr.runs.find? fun r => r.src == i && r.level == level && r.dsts == [o] && !s.runWaits r

/-- MC_FIRST of an input. -/
def State.mcFirst (s : State) (i : Nat) : Bool := tblGet false s.xbr.mcFirst i

/-- A request of input `i` for output `o`: its level, whether multicast, and its run (R350). -/
structure XReq where
  level : Nat
  mc : Bool
  run : Nat
deriving DecidableEq, Repr

/-- The request at one level. -/
def State.reqAt (s : State) (i o level : Nat) : Option XReq :=
  match s.headRun i level o true, s.headRun i level o false with
  | none, none => none
  | some m, none => some ⟨level, true, m.id⟩
  | none, some u => some ⟨level, false, u.id⟩
  | some m, some u => if s.mcFirst i then some ⟨level, true, m.id⟩ else some ⟨level, false, u.id⟩

/-- The one request an input presents for an output (R350). -/
def State.request (s : State) (i o : Nat) : Option XReq :=
  let busy := s.xbr.runs.any fun r => r.src == i && decide (r.level < 2)
  match [0, 1].findSome? (s.reqAt i o) with
  | some r => if Config.portPresent s.variant o && s.canTake o r.level then some r else none
  | none =>
    if busy then none
    else (s.reqAt i o 2).filter fun _ => Config.portPresent s.variant o && s.canTake o 2

/-- The first of `l` counting from pointer `p` around the 34 ports. -/
def firstFrom (p : Nat) (l : List Nat) : Option Nat :=
  match (l.filter fun x => decide (p ≤ x)).min? with
  | some x => some x
  | none => l.min?

/-- A matching under way: inputs and outputs free, what was accepted (input, outputs, request), and the state with
its pointers. -/
structure Match where
  fin : List Nat
  fout : List Nat
  acc : List (Nat × List Nat × XReq) := []
  st : State

/-- The grant of output `o` (R351). -/
def Match.grant (m : Match) (o : Nat) : Option (Nat × XReq) :=
  let r := m.fin.filterMap fun i => (m.st.request i o).map fun q => (i, q)
  match (r.map fun x => x.2.level).min? with
  | none => none
  | some lv =>
    let at_ := r.filter fun x => x.2.level == lv
    (firstFrom (tblGet 0 m.st.xbr.gptr (3 * o + lv)) (at_.map (·.1))).bind fun i => at_.find? fun x => x.1 == i

/-- The accept of input `i` among the grants (output, request) made to it in iteration `it` (R351). -/
def Match.accept (m : Match) (it i : Nat) (gs : List (Nat × XReq)) : Match :=
  match (gs.map fun x => x.2.level).min? with
  | none => m
  | some lv =>
    let at_ := gs.filter fun x => x.2.level == lv
    let mg := at_.filter fun x => x.2.mc
    let ug := at_.filter fun x => !x.2.mc
    let first := m.st.mcFirst i
    let useMc := !mg.isEmpty && (ug.isEmpty || first)
    let one := firstFrom (tblGet 0 m.st.xbr.aptr (3 * i + lv)) (ug.map (·.1))
    let take := if useMc then mg.map (·.1) else one.toList
    let req := if useMc then mg.head?.map (·.2) else one.bind fun o => (ug.find? fun x => x.1 == o).map (·.2)
    match req with
    | none => m
    | some q =>
      let x := m.st.xbr
      let x : Xbr := if it = 1 ∧ !useMc then
          { x with aptr := tblPut 0 x.aptr (3 * i + lv) ((take.headD 0 + 1) % 34) } else x
      let x : Xbr := if !mg.isEmpty && !ug.isEmpty then { x with mcFirst := tblPut false x.mcFirst i (!first) } else x
      let x : Xbr := if it = 1 then
          { x with gptr := take.foldl (fun g o => tblPut 0 g (3 * o + lv) ((i + 1) % 34)) x.gptr } else x
      { fin := m.fin.filter (· != i), fout := m.fout.filter (!take.contains ·), acc := m.acc ++ [(i, take, q)],
        st := { m.st with xbr := x } }

/-- One iteration: every grant, then every accept (R351). -/
def Match.iterate (m : Match) (it : Nat) : Match :=
  let gs := m.fout.filterMap fun o => (m.grant o).map fun g => (g.1, o, g.2)
  m.fin.foldl (fun m' i => m'.accept it i ((gs.filter fun g => g.1 == i).map fun g => g.2)) m

/-- A crossed cell leaves its run: `take` are the outputs it reached (R352, R355, R359). The run, where that was its
last cell. -/
def State.crossed (s : State) (i : Nat) (take : List Nat) (q : XReq) : State × Option CellRun :=
  match s.xbr.runs.find? fun r => r.id == q.run with
  | none => (s, none)
  | some r =>
    let s := take.foldl (fun s o => s.chargeCells o r.level 1) s
    let residue := r.residue.filter (!take.contains ·)
    if !residue.isEmpty then
      let s := s.count .xbrMcSplit
      ({ s with xbr := { s.xbr with
          runs := updFirst (fun x => x.id == r.id) (fun x => { x with residue }) s.xbr.runs } }, none)
    else
      let s := s.releaseCells i r.level 1
      if r.left ≤ 1 then
        ({ s with xbr := { s.xbr with runs := s.xbr.runs.filter fun x => x.id != r.id } }, some r)
      else
        ({ s with xbr := { s.xbr with
            runs := updFirst (fun x => x.id == r.id) (fun x => { x with residue := x.dsts, left := x.left - 1 })
              s.xbr.runs } }, none)

/-- One slot (R347, R348, R351): the cells that crossed, as the outputs each reached and its run as it stood before, and
the runs that ended. -/
def State.xbarSlot (s : State) : State × List (List Nat × CellRun) × List CellRun :=
  if !s.cellsMove then (s, [], [])
  else
    let ports := s.presentPorts
    let m : Match := { fin := ports, fout := ports, st := s }
    let m := ((m.iterate 1).iterate 2).iterate 3
    let (s, ended) := m.acc.foldl (fun (a : State × List CellRun) x =>
      let (s, r) := a.1.crossed x.1 x.2.1 x.2.2
      (s, a.2 ++ r.toList)) (m.st, [])
    (s, m.acc.filterMap fun x => (m.st.xbr.runs.find? fun r => r.id == x.2.2.run).map fun r => (x.2.1, r), ended)

/-- Cells that `p` picks leave their inputs unsent (R360): counted in XBR_DISCARD. -/
def State.discardRuns (s : State) (p : CellRun → Bool) : State :=
  let gone := s.xbr.runs.filter p
  let s : State := { s with xbr := { s.xbr with runs := s.xbr.runs.filter fun r => !p r } }
  gone.foldl (fun s r => (s.count .xbrDiscard r.left).releaseCells r.src r.level r.left) s

/-- Cells held at drive-cluster ports are freed there (R355, R360). -/
def State.freeHeld (s : State) (cls : Nat) (held : Tbl Nat) : State :=
  held.foldl (fun s e => s.releaseCells e.1 (if cls = 0 then 0 else 1) e.2) s

/-! ### Erasure-code slices (R168) -/

/-- Slice `i`. -/
def State.sliceCtx (s : State) (i : Nat) : Slice := s.str.slices.getD i {}

/-- The state with slice `i` replaced. -/
def State.setSlice (s : State) (i : Nat) (x : Slice) : State :=
  { s with str := { s.str with slices := setAt s.str.slices i x } }

/-- The slice that is ON, not draining, with the most free contexts of the kind needed, lowest number on a tie (R168):
62 contexts for classes 1 to 7, 2 for Class 0. -/
def State.pickSlice (s : State) (c0 : Bool) : Option Nat :=
  let free (i : Nat) : Nat := if c0 then 2 - (s.sliceCtx i).c0Used else 62 - (s.sliceCtx i).used
  let on := (List.range 8).filter fun i => s.isOn (150 + i) && decide (0 < free i)
  on.foldl (fun b i => match b with
    | none => some i
    | some j => if free j < free i then some i else b) none

/-- Take a context of slice `i`. -/
def State.takeSlice (s : State) (i : Nat) (c0 : Bool) : State :=
  let x := s.sliceCtx i
  s.setSlice i (if c0 then { x with c0Used := x.c0Used + 1 } else { x with used := x.used + 1 })

/-- Give a context back. -/
def State.freeSlice (s : State) (h : Option (Nat × Bool)) : State :=
  match h with
  | none => s
  | some (i, c0) =>
    let x := s.sliceCtx i
    s.setSlice i (if c0 then { x with c0Used := x.c0Used - 1 } else { x with used := x.used - 1 })

end Sys2Proof.Machine
end

