-- ==== Sys2Proof/Machine/Prism.lean ====
section
/-! DEFINITION. The Prism tap: tap points, recognised headers, records and their ring (R367 to R371, R377). -/

namespace Sys2Proof.Machine

/-! ### Recognised headers (R368) -/

/-- Bytes of the RoCEv2 extended transport headers of a BTH opcode (RoCEv2). -/
def roceExt (op : Nat) : Nat :=
  match op % 256 with
  | 0x03 | 0x05 | 0x09 => 4
  | 0x06 | 0x0A | 0x0C => 16
  | 0x0B => 20
  | 0x0D | 0x0F | 0x10 | 0x11 => 4
  | 0x12 => 12
  | 0x13 | 0x14 => 28
  | 0x16 | 0x17 => 4
  | _ => 0

/-- Where the recognised bytes of a UDP datagram end, its header being at `o`. -/
def udpEnd (b : Bytes) (o len : Nat) : Nat :=
  let port := beAt b (o + 2) 2
  let src := beAt b o 2
  if port = 319 ∨ port = 320 then len
  else if port = 0xB7A2 ∨ src = 0xB7A2 then o + 8 + 32
  else if port = 4791 then o + 8 + 12 + roceExt (byteAt b (o + 8))
  else o + 8

/-- Where the recognised bytes end behind an EtherType found at `o`. -/
def etherEnd (b : Bytes) (len : Nat) : Nat → Nat → Nat
  | 0, o => o + 2
  | n + 1, o =>
    match beAt b o 2 with
    | 0x8100 => etherEnd b len n (o + 4)
    | 0x0806 | 0x88CC | 0x88F7 => len
    | 0x0800 =>
      let ip := o + 2
      let l4 := ip + 4 * (byteAt b ip % 16)
      if byteAt b (ip + 9) = 1 then len else if byteAt b (ip + 9) = 17 then udpEnd b l4 len else l4
    | 0x86DD =>
      let ip := o + 2
      let l4 := ip + 40
      if byteAt b (ip + 6) = 58 then len else if byteAt b (ip + 6) = 17 then udpEnd b l4 len else l4
    | _ => o + 2

/-- The frame bytes of a record, those beyond the last recognised header zero, and whether any were zeroed (R368). -/
def maskFrame (b : Bytes) (len : Nat) : Bytes × Bool :=
  let cap := min 224 (len - 4)
  let b := b.take cap ++ zeros (cap - b.length)
  let keep := min cap (etherEnd b cap 4 12)
  (b.take keep ++ zeros (cap - keep), decide (keep < cap))

/-- The 256-byte record of a frame, its LOST field still 0 (R369). -/
def prismCell (time point sub len count : Nat) (dropped : Bool) (b : Bytes) : Bytes :=
  let (f, masked) := maskFrame b len
  toLe time 8 ++ toLe point 1 ++ toLe (b2n masked + 2 * b2n (decide (224 < len - 4)) + 4 * b2n dropped) 1 ++ toLe sub 1
    ++ zeros 1 ++ toLe len 2 ++ toLe f.length 2 ++ toLe count 4 ++ zeros 4 ++ zeros 8 ++ f ++ zeros (224 - f.length)

/-! ### Tap points (R367, R370, R371) -/

/-- A record of a point is lost (R370). -/
def State.prismLose (s : State) (p : Nat) : State :=
  let s := s.count .prismLost
  { s with xbr := { s.xbr with tapLost := tblPut 0 s.xbr.tapLost p (tblGet 0 s.xbr.tapLost p + 1) } }

/-- A record leaves its adapter for port 33, where the adapter's floor or the shared pool has a cell (R370). -/
def State.prismPush (s : State) (p : Nat) (cell : Bytes) : State :=
  let mac := p / 2
  if (s.part mac).floor < 256 ∨ 0 < s.sharedRoom mac then
    s.pushRun mac [33] 1 1 (.prism p cell) false false none true
  else s.prismLose p

/-- A tap point counts a frame, and takes it where its turn has come (R367). -/
def State.tap (s : State) (p sub len : Nat) (dropped : Bool) (hdr : Option Bytes) : State :=
  let n := s.field .prismN 15 0 p
  if n = 0 then s
  else
    let c := tblGet 0 s.xbr.taps p + 1
    let s : State := { s with xbr := { s.xbr with taps := tblIns s.xbr.taps p c } }
    if !s.bit .prismCtl 0 ∨ c % n ≠ 0 then s
    else
      match hdr with
      | some b => s.prismPush p (prismCell s.gnmNs p sub len c dropped b)
      | none =>
        let f := Config.sentFrame s.draws
        s.drew.prismPush p (prismCell s.gnmNs p sub f.1 c dropped f.2)

/-- A frame leaves through sub-port `sub` of a MAC (R367). -/
def State.sendFrame (s : State) (mac sub : Nat) (o : Out) : State :=
  if mac < 8 then (s.emit o).tap (2 * mac + 1) sub 0 false none else s.emit o

/-! ### Priorities (R265, R266) -/

/-- The priority of a class (R265, R308). -/
def State.priOf (s : State) (cls : Nat) : Nat := bitsOf (s.reg .netClsPri) (3 * cls + 2) (3 * cls)

/-- The priority of a received packet: that of its DSCP (R265, R307). -/
def State.dscpPri (s : State) (dscp : Nat) : Nat :=
  let d := dscp % 64
  bitsOf (s.reg .netDscpPri (d / 8)) (3 * (d % 8) + 2) (3 * (d % 8))

/-- The DSCP of a sent packet: the lowest that NET_DSCP_PRI maps to its priority, else 0 (R265). -/
def State.dscpOf (s : State) (pri : Nat) : Nat := ((List.range 64).find? fun d => s.dscpPri d == pri).getD 0

/-- PFC state of (mac, priority). -/
def State.pfcOf (s : State) (mac pri : Nat) : Pfc := tblGet {} s.net.pfc (8 * mac + pri)

/-- Sending of a priority is paused (R266, R267). -/
def State.paused (s : State) (mac pri : Nat) : Bool :=
  let p := s.pfcOf mac pri
  bitOf (s.reg .netPfc) (24 + pri) && !p.ignoring && (match p.until_ with | some t => decide (s.now < t) | none => false)

/-- A frame that serves class `cls` leaves, with the priority and the DSCP of its class (R262, R265). The management Ethernet
has no priorities. -/
def State.sendAs (s : State) (mac sub cls : Nat) (ect udpSum : Bool) (o : Out) : State :=
  if mac < 8 then
    let pri := s.priOf cls
    (s.emit (.wire mac sub pri (s.dscpOf pri) ect udpSum)).sendFrame mac sub o
  else s.sendFrame mac sub o

/-! ### The ring (R370) -/

/-- Slots of the ring: RING_LOG2 8 to 16, other values act as the nearer end (R377). -/
def State.prismSlots (s : State) : Nat := 2 ^ (min 16 (max 8 (s.field .prismCtl 12 8)))

/-- The base of the ring (R377). -/
def State.prismBase (s : State) : Nat := s.field .prismRingBase 39 12 * 2 ^ 12

/-- Port 33 writes a record into the ring (R370). -/
def State.prismWrite (s : State) (p : Nat) (cell : Bytes) : State :=
  let prod := s.field .prismProd 15 0
  let cons := s.field .prismCons 15 0
  let n := s.prismSlots
  if !s.bit .prismCtl 0 ∨ (prod + 1) % n = cons % n then s.prismLose p
  else
    let lost := tblGet 0 s.xbr.tapLost p
    let cell := cell.take 20 ++ toLe lost 4 ++ cell.drop 24
    let s := s.store (s.prismBase + 256 * prod) cell
    let s : State := { s with xbr := { s.xbr with tapLost := tblDel s.xbr.tapLost p } }
    let s := ((s.setReg .prismProd ((prod + 1) % n)).count .prismTaken).emit (.ring "PRISM" prod)
    if prod = cons then s.event .prism else s

/-- PRISM_ENABLE (R377): a write of PRISM_CTL. -/
def State.prismCtl (s : State) (w : Nat) : State :=
  if s.bit .prismCtl 0 then (if bitOf w 0 then s else s.setField .prismCtl 0 0 0)
  else if !bitOf w 0 then s.setReg .prismCtl (bitsOf w 12 8 * 2 ^ 8)
  else
    let n := 2 ^ (min 16 (max 8 (bitsOf w 12 8)))
    if 0x1000000000 ≤ s.prismBase ∧ s.prismBase + 256 * n ≤ s.hbmEnd then
      ((s.setReg .prismCtl (bitsOf w 12 8 * 2 ^ 8 + 1)).setReg .prismProd 0).setReg .prismCons 0
    else s

def execPrismEnable (v : Word) (s : State) : Outcome :=
  .next (if s.readsOn 144 then s.prismCtl v.toNat else s)

end Sys2Proof.Machine
end

