-- ==== Sys2Proof/Machine/Sched.lean ====
section
/-! DEFINITION. Deficit round robin at the scheduling points, and the points' Class 0 charges (R232 to R238). -/

namespace Sys2Proof.Machine

/-- QUANTUM of class `c`; 0 acts as 1 (R246, R253). -/
def State.quantum (s : State) (c : Nat) : Nat :=
  let r : Reg := match c with
    | 1 => .clsQuantum1 | 2 => .clsQuantum2 | 3 => .clsQuantum3 | 4 => .clsQuantum4 | 5 => .clsQuantum5
    | 6 => .clsQuantum6 | _ => .clsQuantum7
  max 1 (s.field r 15 0)

/-- Two flows are the same flow. -/
def Flow.same (a b : Flow) : Bool := a.cls == b.cls && a.qp == b.qp

/-- Clear every turned mark: a new round begins (R237). -/
def Point.newRound (p : Point) : Point :=
  { q16 := p.q16.map fun f => { f with turned := false }, q7 := p.q7.map fun f => { f with turned := false } }

/-- The first flow not turned whose head unit can be served, classes 1 to 6 before Class 7 (R237). -/
def Point.firstTurn (p : Point) (can : Flow → Bool) : Option Flow :=
  match p.q16.find? fun f => !f.turned && can f with
  | some f => some f
  | none => p.q7.find? fun f => !f.turned && can f

/-- The flow served next with its turn counted, or the Class 7 flow that takes an opportunity no other flow can use
(`false`), and the point with the round it belongs to, which is kept where nothing is served (R237, R238). -/
def Point.pick (p : Point) (can : Flow → Bool) : Option (Flow × Bool) × Point :=
  match p.firstTurn can with
  | some f => (some (f, true), p)
  | none =>
    let ended := (p.q16 ++ p.q7).all fun f => f.turned
    let p' := if ended then p.newRound else p
    match (if ended then p'.firstTurn can else none) with
    | some f => (some (f, true), p')
    | none => ((p'.q7.find? can).map fun f => (f, false), p')

/-- Replace or drop flow `f` in a queue after it was served: emptied, at the end of its turn, or in it (R237). -/
def serveIn (f : Flow) (empty : Bool) (q : List Flow) : List Flow :=
  if empty then q.filter fun x => !x.same f
  else if f.deficit = 0 then
    (q.filter fun x => !x.same f) ++ [{ f with newTurn := true, turned := true }]
  else q.map fun x => if x.same f then f else x

/-- The point after one unit of `f` was served; `empty` when that was its last unit, `cost` 0 where more of its response
message follows (R235, R237). -/
def Point.served (p : Point) (f : Flow) (turn empty : Bool) (quantum : Nat) (cost : Nat := 1) : Point :=
  if turn then
    let f := if f.newTurn then { f with deficit := f.deficit + quantum, newTurn := false } else f
    let f := { f with deficit := f.deficit - cost }
    if f.cls = 7 then { p with q7 := serveIn f empty p.q7 } else { p with q16 := serveIn f empty p.q16 }
  else if empty then { p with q7 := p.q7.filter fun x => !x.same f }
  else p

/-- A flow that becomes non-empty joins the tail of its queue (R237). -/
def Point.wake (p : Point) (cls qp : Nat) : Point :=
  let f : Flow := { cls, qp }
  if (p.q16 ++ p.q7).any fun x => x.same f then p
  else if cls = 7 then { p with q7 := p.q7 ++ [f] } else { p with q16 := p.q16 ++ [f] }

/-- Keep exactly the flows `live` names, waking those that are new (R237). -/
def Point.sync (p : Point) (live : List (Nat × Nat)) : Point :=
  let keep (f : Flow) := live.contains (f.cls, f.qp)
  live.foldl (fun p x => p.wake x.1 x.2) { q16 := p.q16.filter keep, q7 := p.q7.filter keep }

/-- A point is present: a MAC, the endpoint, or slot 16 + s (R232, R257). -/
def State.pointPresent (s : State) (p : Nat) : Bool :=
  if p < 8 then decide (p < Config.macs s.variant)
  else if p = 8 then Config.endpoint s.variant
  else decide (16 ≤ p ∧ p < 16 + Config.slots s.variant)

/-- CAP of a point (R232, R257). -/
def State.pointCap (s : State) (p : Nat) : Nat :=
  if s.pointPresent p then tblGet (if p < 16 then 0x7270E0 else 0x1312D0) s.cls.caps p else 0

/-- The ceiling of a point, percent; values above 50 act as 50 (R232, R246). -/
def State.pointCeil (s : State) (p : Nat) : Nat :=
  min 50 (if p < 16 then s.field .clsCeil 6 0 else s.field .clsCeil 14 8)

/-- What one shaper entry charges a point (R232). -/
def State.charge (s : State) (v : Shaper) (p : Nat) : Nat :=
  if !v.c0 then 0
  else if p < 16 then (if v.c0Port = p then v.cir else 0)
  else
    match tblFind s.str.groups v.c0Group with
    | none => 0
    | some g =>
      let n := if g.erasure then g.width + g.m else g.width
      if g.slots.contains (p - 16) then ceilDiv (v.cir * n) g.slots.length else 0

/-- The values whose charges an entry holds now: an accepted change charges at once (R247). -/
def ShaperEntry.charged (e : ShaperEntry) : Shaper := e.pending.getD e.val

/-- CHG: the sum of the Class 0 charges at a point (R232, R257). -/
def State.pointChg (s : State) (p : Nat) : Nat :=
  s.cls.shapers.foldl (fun a e => a + s.charge e.2.charged p) 0

/-- Every point number (R257). -/
def allPoints : List Nat := List.range 9 ++ (List.range 48).map (· + 16)

/-- The check of R233: at every point whose charge rises from `old` to `new`, the sum stays within the ceiling. -/
def State.chargeFits (s : State) (old new : Shaper) : Bool :=
  allPoints.all fun p =>
    let a := s.charge old p
    let b := s.charge new p
    decide (b ≤ a) || decide (s.pointChg p - a + b ≤ s.pointCap p * s.pointCeil p / 100)

end Sys2Proof.Machine
end

