-- ==== Sys2Proof/Machine/Face.lean ====
section
/-! DEFINITION. What the faces send: log records of the Mirror link, egress units, ODT messages, RoCEv2 requests,
TLPs, and reads and writes of host memory through a memory key (R235, R285 to R297, R313, R324, R331, R517, R556). -/

namespace Sys2Proof.Machine

/-! ### Log records (R556, R557) -/

/-- A shadow is paired, so that what waits for its acknowledgement waits (R555): ACTIVE, and copy 0 acknowledged. -/
def State.paired (s : State) : Bool := s.shd.role == .active && s.shd.copy0Acked

/-- The bytes of a Mirror frame (R17, R550): a 32-byte header, whose CRC32C covers header and payload with its own four
bytes as zero, and the payload. -/
def frameBytes (typ seq : Nat) (payload : Bytes) : Bytes :=
  let head := toLe typ 1 ++ zeros 1 ++ toLe payload.length 2 ++ toLe seq 4 ++ zeros 20
  head ++ toLe (crc32c (head ++ zeros 4 ++ payload)) 4 ++ payload

/-- Bytes a cycle carries over the Mirror link: 100, or 50 with one half up (R548). -/
def State.linkRate (s : State) : Nat := if s.shd.halfA && s.shd.halfB then 100 else 50

/-- BULK takes at most 10 % of the link in an epoch of 20 µs in which LINES have waited (R551). -/
def State.bulkFits (s : State) (f : MirFrame) : Bool :=
  !s.shd.linesWaited || decide (s.shd.bulkBytes + 32 + f.payload.length ≤ s.linkRate * 2000)

/-- The frame that leaves next: the oldest of the first group in the order of R551 that has one and may send. -/
def State.nextFrame (s : State) : Option MirFrame :=
  [1, 2, 3, 4].findSome? fun g => s.shd.wire.find? fun f => f.kind.group == g && (g != 4 || s.bulkFits f)

/-- The link sends the next frame, if it is up, its lanes are not in a transition and no frame is in progress (R37, R548,
R550, R551): the frame takes the next sequence number. -/
def State.wireNext (s : State) : State :=
  let hold := (List.range 8).any fun l => (s.island (80 + l)).busy.isSome
  if !(s.shd.halfA || s.shd.halfB) ∨ hold ∨ s.now < s.shd.wireFree then s
  else
    match s.nextFrame with
    | none => s
    | some f =>
      let n := 32 + f.payload.length
      let wire := rmFirst (fun x => x == f) s.shd.wire
      let b := frameBytes f.kind.code s.shd.frameSeq f.payload
      { s.emit (.mirror f.kind (s.shd.frameSeq :: f.args) f.record b) with
        shd := { s.shd with
          frameSeq := (s.shd.frameSeq + 1) % 2 ^ 32
          wire
          wireFree := s.now + ceilDiv n s.linkRate
          bulkBytes := if f.kind.group = 4 then s.shd.bulkBytes + n else s.shd.bulkBytes
          linesWaited := s.shd.linesWaited || wire.any fun x => x.kind == .lines } }

/-- A frame joins those that wait for the link; none does while the link is lost (R548, R551). -/
def State.pushFrame (s : State) (f : MirFrame) : State :=
  if s.shd.halfA || s.shd.halfB then
    ({ s with shd := { s.shd with wire := s.shd.wire ++ [f] } } : State).wireNext
  else s

/-- Send a Mirror frame (R550). Its payload is its fields, 8 bytes each, and what follows them (log entry 88). -/
def State.mirror (s : State) (kind : MirKind) (args : List Nat) (b : Bytes) : State :=
  s.pushFrame { kind, args, payload := (args.flatMap fun n => toLe n 8) ++ b }

/-- The bytes of a log record in a LOG frame (R556; log entry 88). -/
def LogKind.bytes : LogKind → Bytes
  | .taken q slot e src => toLe 1 4 ++ toLe q 4 ++ toLe slot 4 ++ toLe src 4 ++ e
  | .posted q slot e seq => toLe 2 4 ++ toLe q 4 ++ toLe slot 4 ++ toLe seq 4 ++ e
  | .psnBlock k first => toLe 3 4 ++ toLe k 4 ++ toLe first 4

/-- Send a LOG frame with one record (R550, R556). -/
def State.mirrorLog (s : State) (r : LogRec) : State :=
  s.pushFrame { kind := .log, args := [r.num], payload := toLe r.num 8 ++ r.kind.bytes, record := some (r.num, r.kind) }

/-- The Mirror link has work that is not acknowledged: frames that wait, records, renewals, a copy, a transfer (R35). -/
def State.linkBusy (s : State) : Bool :=
  !s.shd.wire.isEmpty || !s.shd.log.isEmpty || !s.shd.renews.isEmpty || s.shd.copy.isSome || !s.shd.bulk.isEmpty

/-- Send a log record while commands are logged (R547); the record's number. While a record is being sent again none is sent (R557). -/
def State.logRec (s : State) (k : LogKind) : State × Option Nat :=
  if s.shd.logging then
    let r : LogRec := { num := s.shd.nextRec, kind := k, at_ := s.now }
    let shd := { s.shd with nextRec := s.shd.nextRec + 1, changed := true }
    if s.shd.logStall then ({ s with shd := { shd with logWait := shd.logWait ++ [r] } }, some r.num)
    else (({ s with shd := { shd with log := shd.log ++ [r] } } : State).mirrorLog r, some r.num)
  else (s, none)

/-- A record need not be waited for any longer (R556). -/
def State.recAcked (s : State) (r : Option Nat) : Bool :=
  match r with
  | none => true
  | some n => !s.shd.logging || !((s.shd.log ++ s.shd.logWait).any fun x => x.num == n)

/-- A replicated structure changed: the next copy carries it (R552, R553; log entry 41). -/
def State.touch (s : State) : State := { s with shd := { s.shd with changed := true } }

/-- A configuration record is to be written (R661, R663): it waits its turn to be programmed. -/
def State.cfgPut (s : State) (typ key : Nat) (v : Option CfgVal) : State :=
  { s with sys := { s.sys with flash := { s.sys.flash with queue := s.sys.flash.queue ++ [⟨typ, key, v⟩] } } }

/-- A record of this type and key is still to be written. -/
def State.cfgWaits (s : State) (typ key : Nat) : Bool :=
  s.sys.flash.queue.any fun r => r.typ == typ && r.key == key

/-! ### Who may send -/

/-- The controller serves hosts: SOLO, ACTIVE, or PAIRING entered from SOLO (R43, R544), not fenced (R560), and not
stopped by a fatal error (R687). -/
def State.serves (s : State) : Bool :=
  (s.shd.role == .solo || s.shd.role == .active || (s.shd.role == .pairing && s.shd.wasSolo))
    && !s.shd.fence && !s.shd.stopped

/-- Sub-port (m, u) has link (R306); the management Ethernet, 9, is taken to have it (log entry 43). -/
def State.subUp (s : State) (m u : Nat) : Bool := m == 9 || tblGet false s.net.link (4 * m + u)

/-- The endpoint function `f`. -/
def State.epFunc (s : State) (f : Nat) : EpFunc := tblGet {} s.epf.funcs f

/-- The state with function `f` replaced. -/
def State.setFunc (s : State) (f : Nat) (x : EpFunc) : State :=
  { s with epf := { s.epf with funcs := tblPut {} s.epf.funcs f x } }

/-- A function through which the controller may send requests (R724): its link is up, it exists, Bus Master Enable
is set and it is not in D3hot; the fence lets no request out (R560). -/
def State.funcSends (s : State) (f : Nat) : Bool :=
  s.epf.linkUp && s.funcEnabled f && (s.epFunc f).bme && !(s.epFunc f).d3hot && !s.shd.fence && !s.shd.stopped

/-! ### Egress units (R235) -/

/-- The RoCEv2 connection attached to a queue pair's binding (R278). -/
def State.roceOf (s : State) (allow qid : Nat) : Option Nat :=
  (s.net.roce.find? fun e => e.2.allow == allow && e.2.qid == some qid && e.2.qp.isSome).map (·.1)

/-- The egress point of a face: its MAC, or 8 for the endpoint (R235); 9 stands for the management Ethernet, which Basalt
serves (R665; log entry 43). -/
def State.facePoint (s : State) : Face → Nat
  | .endpoint _ _ => 8
  | .odt c => (s.odtConn c).mac
  | .roce a _ => match tblFind s.net.allow a with | some x => x.mac | none => 0

/-- Live flows of an egress point (R235). -/
def State.egressLive (s : State) (pt : Nat) : List (Nat × Nat) :=
  ((s.net.egress.filter fun u => u.point == pt && u.cls != 0).map fun u => (u.cls, 0)).eraseDups

/-- Keep the flows of egress point `pt` (R237). -/
def State.syncEgress (s : State) (pt : Nat) : State :=
  let p : Point := tblGet {} s.cls.egress pt
  { s with cls := { s.cls with egress := tblIns s.cls.egress pt (p.sync (s.egressLive pt)) } }

/-- A lane of a face point is in a transition, so that new requests are held on this side of its boundary (R35, R37). -/
def State.laneHolds (s : State) (pt : Nat) : Bool :=
  if pt < 8 then (List.range 4).any fun l => (s.island (4 * pt + l)).busy.isSome
  else pt == 8 && (List.range 8).any fun l => (s.island (88 + l)).busy.isSome

/-- A response unit joins its egress point; `more` of its message may follow it (R235). -/
def State.pushEgress (s : State) (pt cls : Nat) (w : EgWhat) (cpl : Option Cpl := none) (more : Bool := false) : State :=
  let u : EgUnit := { point := pt, cls, what := w, cpl, held := s.laneHolds pt, more }
  let s : State := { s with net := { s.net with egress := s.net.egress ++ [u] } }
  s.syncEgress pt

/-- A completion could not be written: it is counted for the reset that stands in for it (R79, R95). -/
def Qp.loseOne (x : Qp) : Qp :=
  match x.drain with
  | some d => { x with drain := some { d with count := d.count + 1 } }
  | none => { x with unwritten := x.unwritten + 1 }

/-- The units that `keep` does not keep leave their points. A completion among them is lost, and counted (R79, R88). -/
def State.dropEgress (s : State) (keep : EgUnit → Bool) : State :=
  let lost := (s.net.egress.filter fun u => !keep u).filterMap (·.cpl)
  let step (t : Tbl Qp) (p : Cpl) : Tbl Qp := match tblFind t p.qp with
    | some x => tblIns t p.qp x.loseOne
    | none => t
  let qps := lost.foldl step s.qpe.qps
  let s : State := { s with net := { s.net with egress := s.net.egress.filter keep }, qpe := { s.qpe with qps } }
  (List.range 10).foldl (fun s p => s.syncEgress p) s

/-! ### ODT messages (R285 to R299) -/

/-- A sequenced message (R286). -/
def OdtOut.sequenced : OdtOut → Bool
  | .fetchReq _ _ | .dataPull _ _ _ _ | .data _ _ _ | .completion _ _ => true
  | _ => false

/-- Host cells a message uses (R295). -/
def OdtOut.cells : OdtOut → Nat
  | .data _ _ b => ceilDiv b.length 256
  | .completion _ _ => 1
  | _ => 0

/-- The state with connection `c` replaced. -/
def State.setOdt (s : State) (c : Nat) (x : OdtConn) : State :=
  { s with net := { s.net with odt := tblPut {} s.net.odt c x } }

/-- The host's cell credit allows `n` more cells (R295). -/
def OdtConn.creditFor (c : OdtConn) (n : Nat) : Bool :=
  let room := (c.credit + 2 ^ 32 - c.cells % 2 ^ 32) % 2 ^ 32
  decide (n = 0 ∨ (n ≤ room ∧ room < 2 ^ 31))

/-- A fetch or pull on its way out takes the SEQ of its request (R296, R298). -/
def OdtAsk.stamp (a : OdtAsk) (qpn seq : Nat) : OdtOut → OdtAsk
  | .fetchReq _ _ => if a.slots.isSome ∧ a.qp = qpn then { a with seq, ackedAt := none } else a
  | .dataPull tag _ _ _ => if a.slots.isNone ∧ a.tag = tag then { a with seq, ackedAt := none } else a
  | _ => a

/-- The opcode of a message (R286). -/
def OdtOut.opcode : OdtOut → Nat
  | .receipt _ _ => 3
  | .fetchReq _ _ => 4
  | .dataPull _ _ _ _ => 6
  | .data _ _ _ => 7
  | .completion _ _ => 8
  | .credit _ => 9
  | .keepalive _ => 10

/-- ARG and ARG2 of a message (R286). -/
def OdtOut.args : OdtOut → Nat × Nat
  | .receipt tail limit => (tail % 2 ^ 16, limit)
  | .fetchReq slot n => (slot % 2 ^ 16, n)
  | .dataPull tag len _ _ => (tag % 2 ^ 16, len)
  | .data mkey _ _ => (mkey, 0)
  | .completion slot _ => (slot % 2 ^ 16, 0)
  | .credit limit => (limit, 0)
  | .keepalive next => (next, 0)

/-- The payload of a message (R286): its own fields in network byte order, ring entries as they stand in the ring. -/
def OdtOut.payload : OdtOut → Bytes
  | .dataPull _ _ mkey addr => Crypto.toBe mkey 4 ++ zeros 4 ++ Crypto.toBe addr 8
  | .data _ addr b => Crypto.toBe addr 8 ++ b
  | .completion _ e => e
  | _ => []

/-- The QPN of a header: 0 in CREDIT and KEEPALIVE (R285). -/
def OdtOut.qpnOf (qpn : Nat) : OdtOut → Nat
  | .credit _ | .keepalive _ => 0
  | _ => qpn

/-- The bytes of a message: its 32-byte header in network byte order, and its payload (R17, R285 to R287). -/
def odtBytes (tenant conn qpn flags seq ack : Nat) (msg : OdtOut) : Bytes :=
  [1#8] ++ Crypto.toBe msg.opcode 1 ++ Crypto.toBe flags 2 ++ Crypto.toBe tenant 4 ++ Crypto.toBe (msg.qpnOf qpn) 4
    ++ Crypto.toBe seq 4 ++ Crypto.toBe ack 4 ++ Crypto.toBe msg.payload.length 2 ++ Crypto.toBe conn 2
    ++ Crypto.toBe msg.args.1 4 ++ Crypto.toBe msg.args.2 4 ++ msg.payload

/-- A message leaves with SEQ `seq` and the connection's ACK (R285, R289). -/
def State.odtWire (s : State) (k cls qpn flags seq : Nat) (msg : OdtOut) : State :=
  let c := s.odtConn k
  s.sendAs c.mac c.sub cls true true
    (.odt k (msg.qpnOf qpn) flags seq c.hseq msg (odtBytes c.tenant k qpn flags seq c.hseq msg))

/-- Send an ODT message on connection `k` (R285 to R289): it takes the sender's next SEQ, and consumes it when
sequenced; ECE goes with it when owed (R268). -/
def State.odtEmit (s : State) (k cls qpn flags : Nat) (msg : OdtOut) : State :=
  let c := s.odtConn k
  let fl := flags + b2n c.ece
  let c' : OdtConn := { c with ece := false, lastTx := s.now }
  let c' : OdtConn :=
    if msg.sequenced then
      { c' with
        dseq := (c.dseq + 1) % 2 ^ 32
        asks := c.asks.map fun a => a.stamp qpn c.dseq msg
        cells := (c.cells + msg.cells) % 2 ^ 32
        sent := c.sent ++ [{ seq := c.dseq, cls, qpn, flags, msg, at_ := s.now }] }
    else c'
  (s.setOdt k c').odtWire k cls qpn fl c.dseq msg

/-- Send an unacknowledged message again with RETX, and with ECE when owed (R268, R294, R299). -/
def State.odtAgain (s : State) (k seq : Nat) : State :=
  let c := s.odtConn k
  match c.sent.find? fun m => m.seq == seq with
  | none => s
  | some m =>
    ((s.setOdt k { c with
        ece := false
        lastTx := s.now
        sent := c.sent.map fun x => if x.seq = seq then { x with at_ := s.now } else x }).count .netOdtRetx).odtWire
      k m.cls m.qpn (m.flags + 0x200 + b2n c.ece) seq m.msg

/-- A held frame leaves; a controller that no longer serves lets it go (R273). -/
def State.heldSend (s : State) (h : HeldFrame) : State :=
  if !s.serves then s
  else match h.what with
    | .odt k qpn flags msg => s.odtEmit k h.cls qpn flags msg
    | .odtAgain k seq => s.odtAgain k seq
    | .frame ect udpSum o => s.sendAs h.mac h.sub h.cls ect udpSum o

/-- The held frames of a MAC whose priority is no longer paused leave, oldest first (R266). -/
def State.heldRelease (s : State) (mac : Nat) : State :=
  let due := s.frames.filter fun h => h.mac == mac && !s.paused mac (s.priOf h.cls)
  let s : State := { s with frames := s.frames.filter fun h => h.mac != mac || s.paused mac (s.priOf h.cls) }
  due.foldl State.heldSend s

/-- Send a frame that is no response unit: at once, or once its priority is no longer paused (R265, R266). -/
def State.sendOrHold (s : State) (h : HeldFrame) : State :=
  let s := s.heldRelease h.mac
  if s.paused h.mac (s.priOf h.cls) then { s with frames := s.frames ++ [h] } else s.heldSend h

/-- Send a RECEIPT, CREDIT or KEEPALIVE, in Class 0, or a FETCH_REQ or DATA_PULL in the class that it serves; a controller
that does not serve sends none (R265, R273). -/
def State.odtCtl (s : State) (k qpn flags : Nat) (msg : OdtOut) (cls : Nat := 0) : State :=
  let c := s.odtConn k
  if !s.serves then s else s.sendOrHold { mac := c.mac, sub := c.sub, cls, what := .odt k qpn flags msg }

/-- What was held for an ODT connection is given up with it. -/
def State.dropHeld (s : State) (k : Nat) : State :=
  { s with frames := s.frames.filter fun h => match h.what with
    | .odt c _ _ _ | .odtAgain c _ => c != k
    | .frame _ _ _ => true }

/-- The class of what a descriptor sends: 0 with C0, else 1 (log entry 101). -/
def State.descClass (s : State) (id : Nat) : Nat :=
  match tblFind s.fct.descs id with | some d => if d.c0 then 0 else 1 | none => 1

/-- The lowest class of a queue pair's mask: the class of what is sent for it and for no command of it (DESIGN CHOICE; log
entry 101). -/
def Qp.baseClass (x : Qp) : Nat := ((List.range 8).find? fun c => bitOf x.mask c).getD 1

/-- The doorbell window limit (R292). -/
def State.odtLimit (s : State) (k : Nat) : Nat :=
  let c := s.odtConn k
  ((if s.paired then c.safe else c.hseq) + c.dbWin) % 2 ^ 32

/-- SEG-byte pieces of a string from address `a`, with their addresses (R296). -/
def pieces (seg : Nat) : Nat → Nat → Bytes → List (Nat × Bytes)
  | 0, _, _ => []
  | n + 1, a, b => if b.isEmpty then [] else (a, b.take seg) :: pieces seg n (a + seg) (b.drop seg)

/-! ### RoCEv2 requests (R276, R284, R556) -/

/-- The state with RoCEv2 connection `k` replaced. -/
def State.setRoce (s : State) (k : Nat) (x : RoceConn) : State :=
  { s with net := { s.net with roce := tblIns s.net.roce k x } }

/-- PSNs that a request takes (RoCEv2): one a packet of its path MTU. -/
def RoceReq.psns (mtu : Nat) : RoceReq → Nat
  | .readPull _ _ _ _ len | .readDesc _ _ _ _ len => max 1 (ceilDiv len mtu)
  | .readRange _ _ => 1
  | .write _ _ _ b => max 1 (ceilDiv b.length mtu)
  | .response _ _ => 1

/-- The class whose priority a request takes (R265). -/
def RoceReq.cls : RoceReq → Nat
  | .readPull c _ _ _ _ | .readDesc c _ _ _ _ | .readRange c _ | .write c _ _ _ | .response c _ => c

/-- An RDMA READ. -/
def RoceReq.isRead : RoceReq → Bool
  | .readPull _ _ _ _ _ | .readDesc _ _ _ _ _ | .readRange _ _ => true
  | _ => false

/-- Send what connection `k` can send now, at most `n` requests (R266: not while the priority of the first is paused; R276: 16
READs outstanding; R284: not during an RNR wait; R556: only PSNs that have been logged). -/
def State.rocePump : Nat → Nat → State → State
  | 0, _, s => s
  | n + 1, k, s =>
    match tblFind s.net.roce k with
    | none => s
    | some c =>
      match c.queue with
      | [] => s
      | r :: rest =>
        let need := r.psns c.mtu
        let reads := (c.sent.filter fun x => x.req.isRead).length
        if !s.serves || c.rnrWait.isSome || s.paused c.mac (s.priOf r.cls) || (r.isRead && decide (16 ≤ reads)) then s
        else
          let (c, s) : RoceConn × State := match c.psnRec with
            | some (rec, got) => if s.recAcked (some rec)
                then ({ c with psnLeft := c.psnLeft + got, psnRec := none }, s) else (c, s)
            | none => (c, s)
          if s.shd.logging ∧ c.psnLeft < need then
            if c.psnRec.isSome then s
            else
              let blocks := ceilDiv (need - c.psnLeft) 256
              let (s, last) := (List.range blocks).foldl (fun (a : State × Option Nat) i =>
                a.1.logRec (.psnBlock k ((c.sPsn + c.psnLeft + 256 * i) % 2 ^ 24))) (s, none)
              match last with
              | some rec => s.setRoce k { c with psnRec := some (rec, 256 * blocks) }
              | none => s
          else
            let c' : RoceConn := { c with
              queue := rest
              psnLeft := c.psnLeft - need
              sPsn := (c.sPsn + need) % 2 ^ 24
              sent := c.sent ++ [{ psn := c.sPsn, n := need, req := r, at_ := s.now }] }
            State.rocePump n k ((s.setRoce k c').sendAs c.mac c.sub r.cls true true (.roce k c.sPsn r))

/-- A request of connection `k`: it is sent when it can be. -/
def State.roceSend (s : State) (k : Nat) (r : RoceReq) : State :=
  match tblFind s.net.roce k with
  | none => s
  | some c => (s.setRoce k { c with queue := c.queue ++ [r] }).rocePump (c.queue.length + 1) k

/-- A RoCEv2 packet that carries no request: an acknowledgement, a CM or CNP packet, an admin response (R262, R266). -/
def State.roceFrame (s : State) (mac sub cls : Nat) (o : Out) : State :=
  s.sendOrHold { mac, sub, cls, what := .frame true true o }

/-- A priority of a MAC may be sent again: the held frames leave, and the RoCEv2 connections go on (R266). -/
def State.resumeMac (s : State) (mac : Nat) : State :=
  let s := s.heldRelease mac
  (s.net.roce.filter fun e => e.2.mac == mac).foldl (fun s e => s.rocePump (e.2.queue.length + 1) e.1) s

/-! ### TLPs of the endpoint (R313, R324, R331, R334) -/

/-- Pieces of a transfer of `len` bytes at `a` that cross no 4 KiB boundary and hold at most `max` bytes (R324). -/
def tlpChunks (max : Nat) : Nat → Nat → Nat → List (Nat × Nat)
  | 0, _, _ => []
  | n + 1, a, len =>
    if len = 0 then []
    else
      let m := min (min max len) (4096 - a % 4096)
      (a, m) :: tlpChunks max n (a + m) (len - m)

/-- The lowest free tag of the 1,024 (R313, R334). -/
def State.freeTag (s : State) : Option Nat := (List.range 1024).find? fun t => (tblFind s.epf.tags t).isNone

/-- Send waiting reads while tags are free (R334); while a lane of the endpoint is in a transition they are held (R37). -/
def State.epPump : Nat → State → State
  | 0, s => s
  | n + 1, s =>
    if s.laneHolds 8 then s
    else
    match s.epf.waiting, s.freeTag with
    | w :: rest, some t =>
      let tag : EpTag := { func := w.func, who := w.who, len := w.len, at_ := s.now }
      let s : State := { s with epf := { s.epf with waiting := rest, tags := tblIns s.epf.tags t tag } }
      State.epPump n (s.emit (.tlpRead w.func t w.addr w.len))
    | _, _ => s

/-- Read `len` bytes of host memory at bus address `a` through function `f` (R324, R334): one request a chunk, each
waiting for a tag. `who` names the requester and the offset of a chunk. -/
def State.epRead (s : State) (f a len : Nat) (who : Nat → DmaFor) : State :=
  let cs := tlpChunks (s.epFunc f).mrrs len a len
  let ws := cs.map fun c => ({ func := f, who := who (c.1 - a), addr := c.1, len := c.2 } : EpWait)
  let s : State := { s with epf := { s.epf with waiting := s.epf.waiting ++ ws } }
  s.epPump s.epf.waiting.length

/-- Vectors through which an MSI-X message may leave now (R331). -/
def State.vectorOpen (s : State) (f v : Nat) : Bool :=
  let x := s.epFunc f
  x.msixEn && !x.fmask && (tblFind x.unmasked v).isSome && x.bme && !x.d3hot

/-- Send a vector, or set its pending bit (R331). -/
def State.sendVector (s : State) (f v cls : Nat) : State :=
  if s.vectorOpen f v then
    if s.net.egress.any fun u => u.what == .msix f v then s else s.pushEgress 8 cls (.msix f v)
  else
    let x := s.epFunc f
    s.setFunc f { x with pba := tblIns x.pba v () }

/-! ### Host memory through a key (R517) -/

/-- The pieces of one response message join an egress point in order: the last carries the completion `cpl`, and it alone
counts against the quantum (R235). -/
def State.pushMessage (s : State) (pt cls : Nat) (cpl : Option Cpl) : List EgWhat → State
  | [] => s
  | [w] => s.pushEgress pt cls w cpl
  | w :: ws => State.pushMessage (s.pushEgress pt cls w none true) pt cls cpl ws

/-- Place bytes of command `owner` at address `a` of a key: HBM, TLPs, DATA messages or the packets of an RDMA WRITE, by the
key's KIND (R296, R324, R517; log entry 101). -/
def State.hostPut (s : State) (mkey a cls owner : Nat) (b : Bytes) (cpl : Option Cpl := none) : State :=
  let k := s.keyAt (keyIndex mkey)
  let bus := k.target + (a - k.base)
  match k.kind with
  | 0 =>
    let f := k.binding % 64
    s.pushMessage 8 cls cpl ((tlpChunks (s.epFunc f).mps b.length bus b.length).map fun c =>
      .tlp f c.1 owner ((b.drop (c.1 - bus)).take c.2))
  | 1 =>
    let n := k.binding % 2 ^ 16
    let c := s.odtConn n
    let ps := pieces c.seg b.length a b
    s.pushMessage c.mac cls cpl (ps.zipIdx.map fun p =>
      .odt n 0 (if p.2 + 1 = ps.length then 0x100 else 0) (.data mkey p.1.1 p.1.2))
  | 2 =>
    let n := k.binding % 2 ^ 14
    match tblFind s.net.roce n with
    | some c => s.pushMessage c.mac cls cpl ((pieces c.mtu b.length bus b).map fun p => .roce n (.write cls p.1 k.rkey p.2))
    | none => s
  | _ => s.store (s.devAddr mkey a) b

/-- The host memory behind a key can be reached now (R300, R517, R724). -/
def State.keyReach (s : State) (mkey : Nat) : Bool :=
  let k := s.keyAt (keyIndex mkey)
  match k.kind with
  | 0 => s.funcSends (k.binding % 64)
  | 1 => let st := (s.odtConn (k.binding % 2 ^ 16)).state
         st == .established || st == .suspect
  | 2 => (tblFind s.net.roce (k.binding % 2 ^ 14)).isSome
  | _ => true

/-- Contiguous bytes from offset `pos` of segments listed in rising order. -/
def gatherFrom : Nat → Tbl Bytes → Bytes
  | _, [] => []
  | pos, (o, b) :: t => if o = pos then b ++ gatherFrom (pos + b.length) t else []

/-- The `len` bytes of a transfer, once all have arrived. -/
def gather (len : Nat) (segs : Tbl Bytes) : Option Bytes :=
  let b := gatherFrom 0 segs
  if b.length = len then some b else none

/-! ### Descriptors cut short by a face (R333, R335, R517, R527, R530) -/

/-- What has arrived of a descriptor's source, from its first chunk on. -/
def Desc.arrived (d : Desc) : Nat := (gatherFrom 0 d.segs).length

/-- Descriptor `id` will end with a status at the chunk it has reached: the first whose source has not arrived (R527). -/
def State.descFail (s : State) (id status : Nat) : State :=
  match tblFind s.fct.descs id with
  | none => s
  | some d =>
    let start := match d.chunks with | c :: _ => c.off | [] => d.done
    let at_ := match d.chunks.find? fun c => decide (d.arrived < c.off - start + c.n) with
      | some c => c.off
      | none => d.done
    let d : Desc := { d with chunks := d.chunks.filter fun c => decide (c.off < at_), done := at_, status, failed := true }
    { s with fct := { s.fct with descs := tblIns s.fct.descs id d } }

/-- The key that a side names. -/
def DescSide.mkey : DescSide → Option Nat
  | .key k _ => some k
  | _ => none

/-- The descriptors that read or write host memory through a key of this kind and binding fail (R532). -/
def State.descsFail (s : State) (kind binding status : Nat) : State :=
  let via (x : DescSide) : Bool := match x.mkey with
    | some k => let y := s.keyAt (keyIndex k); y.kind == kind && y.binding == binding
    | none => false
  ((s.fct.descs.filter fun d => (via d.2.src || via d.2.dst) && !d.2.failed).map (·.1)).foldl
    (fun s i => s.descFail i status) s

end Sys2Proof.Machine
end

