-- ==== Sys2Proof/Machine/Strata.lean ====
section
/-! DEFINITION. Where blocks live: the Strata map, regions, relocation and the placement in force (R105 to R119,
R189, R722, R723). -/

namespace Sys2Proof.Machine

/-- n: positions of a stripe (R106). -/
def Group.n (g : Group) : Nat := if g.erasure then g.width + g.m else g.width
/-- kd: data units of a stripe (R106). -/
def Group.kd (g : Group) : Nat := if g.erasure then g.width else 1
/-- t: the positions a stripe can lose (04, first section). -/
def Group.tol (g : Group) : Nat := if g.erasure then g.m else g.width - 1
/-- w: the slots (R106). -/
def Group.w (g : Group) : Nat := g.slots.length

/-- D of R112 for n positions and w slots. -/
def dataLayers (n w : Nat) : Nat :=
  let q := n / Nat.gcd n w
  q * ceilDiv 64 q

/-- S of R112. -/
def spareLayers (spare d w : Nat) : Nat := if spare = 0 then 0 else ceilDiv (spare * d) (w - spare)

def Group.d (g : Group) : Nat := dataLayers g.n g.w
def Group.s (g : Group) : Nat := spareLayers g.spare g.d g.w
/-- L: layers per period (R112). -/
def Group.l (g : Group) : Nat := g.d + g.s
/-- rows: stripes per period (R112). -/
def Group.rows (g : Group) : Nat := g.d * g.w / g.n
/-- Stripes of the group (R117). -/
def Group.stripes (g : Group) : Nat := g.periods * g.rows
/-- T: stripes of a region (R118). -/
def Group.t (g : Group) : Nat := 16384 / g.kd
/-- RB: blocks of a region (R118). -/
def Group.rb (g : Group) : Nat := 16 * g.kd * g.t
/-- Regions of the group (R118). -/
def Group.regions (g : Group) : Nat := g.stripes / g.t
/-- The region of a stripe (R118). -/
def Group.regionOf (g : Group) (stripe : Nat) : Nat := stripe / g.t

/-- P of R112: from the smallest chunk count over the members. -/
def periodsOf (l : Nat) (blocks : List Nat) : Nat :=
  match blocks with
  | [] => 0
  | b :: bs => (bs.foldl min b - 65536) / 16 / l

/-- One step of splitmix64: the new state and the result (R113). -/
def splitmix (st : Nat) : Nat × Nat :=
  let m := 2 ^ 64
  let st := (st + 0x9E3779B97F4A7C15) % m
  let z := (st ^^^ (st >>> 30)) * 0xBF58476D1CE4E5B9 % m
  let z := (z ^^^ (z >>> 27)) * 0x94D049BB133111EB % m
  (st, z ^^^ (z >>> 31))

/-- Exchange entries `a` and `b`. -/
def swapAt (p : List Nat) (a b : Nat) : List Nat := setAt (setAt p a (p.getD b 0)) b (p.getD a 0)

/-- The Fisher–Yates loop for i down to 1 (R113). -/
def shuffle : Nat → Nat → List Nat → List Nat
  | 0, _, p => p
  | i + 1, st, p =>
    let (st, r) := splitmix st
    shuffle i st (swapAt p (i + 1) (r % (i + 2)))

/-- The loop that keeps a straddling row free of repeats: `h` from `h0`, `k` times (R113). -/
def unstraddle (tail : List Nat) (from_ : Nat) : Nat → Nat → List Nat → List Nat
  | _, 0, p => p
  | h, k + 1, p =>
    let p' :=
      if tail.contains (p.getD h 0) then
        match (List.range p.length).find? fun f => decide (from_ ≤ f) && !tail.contains (p.getD f 0) with
        | some f => swapAt p h f
        | none => p
      else p
    unstraddle tail from_ (h + 1) k p'

/-- The sequence of one period, `layers` layers of it from layer `l` on, after `acc` (R113). -/
def buildSeq (seed w n : Nat) : Nat → Nat → List Nat → List Nat
  | _, 0, acc => acc
  | l, k + 1, acc =>
    let p := shuffle (w - 1) (seed ^^^ l) (List.range w)
    let t := acc.length % n
    let p := if t = 0 then p else unstraddle (acc.drop (acc.length - t)) (n - t) 0 (n - t) p
    buildSeq seed w n (l + 1) k (acc ++ p)

/-- seq: the local indices of one period (R113). -/
def Group.seq (g : Group) : List Nat := buildSeq g.seed g.w g.n 0 g.d []

/-- Where a position lies by the map alone: row in period, layer, home slot (R114). -/
structure Home where
  period : Nat
  row : Nat
  layer : Nat
  slot : Nat
deriving DecidableEq, Repr

/-- R114 for position `j` of stripe `r`. -/
def Group.home (g : Group) (r j : Nat) : Home :=
  let row := r % g.rows
  let i := row * g.n + j
  { period := r / g.rows, row, layer := i / g.w, slot := g.slots.getD (g.seq.getD i 0) 0 }

/-- The first drive block of chunk `layer` of period `per` (R110, R114). -/
def Group.chunkLba (g : Group) (per layer : Nat) : Nat := 65536 + 16 * (per * g.l + layer)

/-- A position placed by relocation: spare layer and slot, the row and position, and the list entry that placed it
(R189). -/
structure Spare where
  layer : Nat
  slot : Nat
  row : Nat
  pos : Nat
  by_ : Nat
deriving DecidableEq, Repr

/-- The result of R189 in one period: spare chunks taken, and positions left unrelocated. -/
structure Relocation where
  taken : List Spare := []
  /-- Row, position, and the entry whose processing left it so. -/
  unreloc : List (Nat × Nat × Nat) := []
deriving DecidableEq, Repr

/-- The slots of row `row` now, with positions already relocated (R189). -/
def rowSlots (g : Group) (sq : List Nat) (rel : Relocation) (row : Nat) : List Nat :=
  (List.range g.n).map fun j =>
    match rel.taken.find? fun x => x.row == row && x.pos == j with
    | some x => x.slot
    | none => g.slots.getD (sq.getD (row * g.n + j) 0) 0

/-- The lowest spare layer of slot `gslot` not taken (R189). -/
def freeSpare (g : Group) (rel : Relocation) (gslot : Nat) : Option Nat :=
  ((List.range g.s).map (· + g.d)).find? fun c => !(rel.taken.any fun x => x.layer == c && x.slot == gslot)

/-- Place one chunk (layer `l` of slot `f`) with position (`row`, `j`) (R189, inner loop). -/
def placeChunk (g : Group) (sq out : List Nat) (f l row j : Nat) (rel : Relocation) : Relocation :=
  let rel := { rel with taken := rel.taken.filter fun x => !(x.layer == l && x.slot == f) }
  let loc := (g.slots.findIdx? (· == f)).getD 0
  let g0 := (loc + 1 + l) % g.w
  let used := rowSlots g sq rel row
  let cands := (List.range g.w).map fun a => g.slots.getD ((g0 + a) % g.w) 0
  let pick := cands.findSome? fun gs =>
    if out.contains gs || used.contains gs then none
    else (freeSpare g rel gs).map fun c => (c, gs)
  match pick with
  | some (c, gs) => { rel with taken := { layer := c, slot := gs, row, pos := j, by_ := f } :: rel.taken }
  | none => { rel with unreloc := (row, j, f) :: rel.unreloc }

/-- The chunks of slot `f` to place: data layers ascending, then spare chunks taken on it (R189). -/
def todoOf (g : Group) (sq : List Nat) (rel : Relocation) (f : Nat) : List (Nat × Nat × Nat) :=
  let loc := (g.slots.findIdx? (· == f)).getD 0
  let data := (List.range g.d).filterMap fun l =>
    ((List.range g.w).find? fun a => sq.getD (l * g.w + a) 0 == loc).map fun a =>
      let i := l * g.w + a
      (l, i / g.n, i % g.n)
  let spares := ((List.range g.s).map (· + g.d)).filterMap fun c =>
    (rel.taken.find? fun x => x.layer == c && x.slot == f).map fun x => (c, x.row, x.pos)
  data ++ spares

/-- R189 over the evacuation list, `done` slots already processed. -/
def relocateList (g : Group) (sq ex : List Nat) : List Nat → List Nat → Relocation → Relocation
  | _, [], rel => rel
  | done, f :: fs, rel =>
    let out := done ++ [f] ++ ex
    let rel := (todoOf g sq rel f).foldl (fun r c => placeChunk g sq out f c.1 c.2.1 c.2.2 r) rel
    relocateList g sq ex (done ++ [f]) fs rel

/-- The relocation of R189 for a placement. -/
def Group.relocate (g : Group) (p : Placement) : Relocation :=
  if p.evac = [] then {} else relocateList g g.seq p.ex [] p.evac {}

/-- Group `i`. -/
def State.group (s : State) (i : Nat) : Option Group := tblFind s.str.groups i

/-- The state with group `i` replaced. -/
def State.setGroup (s : State) (i : Nat) (g : Group) : State :=
  { s with str := { s.str with groups := tblIns s.str.groups i g } }

/-- Update group `i`, if it exists. -/
def State.updGroup (s : State) (i : Nat) (f : Group → Group) : State :=
  match s.group i with
  | some g => s.setGroup i (f g)
  | none => s

/-- The member in slot `sl`. -/
def State.member (s : State) (sl : Nat) : Option Member := tblFind s.str.members sl

/-- The member state of slot `sl` (R172). -/
def State.mstate (s : State) (sl : Nat) : MemberState :=
  match s.member sl with
  | some m => m.state
  | none => .none

/-- Volume with handle `h`. -/
def State.volume (s : State) (h : Nat) : Option Volume := tblFind s.str.volumes h

/-- The placement in force for a stripe (R723). -/
def Group.placeFor (g : Group) (stripe : Nat) : Placement :=
  match g.sweep with
  | some sw => if stripe / g.rows ≥ sw.period then sw.old else g.place
  | none => g.place

/-- The drive of a member holds what has been written in a stripe: in service, or RETURNING outside the part of its stale
set that is not yet resynchronised (R179). -/
def Member.holds (m : Member) (g : Group) (stripe : Nat) : Bool :=
  let r := g.regionOf stripe
  match m.state with
  | .inService => true
  | .returning =>
    (match m.stale with
      | [] => true
      | (r0, _) :: _ => decide (r < r0 ∨ (r = r0 ∧ stripe < m.staleAt)) || (tblFind m.stale r).isNone)
  | _ => false

/-- Where a position assigned to a spare chunk lies: behind the cursor of the entry that placed it, on a member that holds
the stripe (R179, R723). -/
def State.spareAt (s : State) (g : Group) (stripe j : Nat) : Option (Nat × Nat) :=
  let h := g.home stripe j
  let rel := g.relocate (g.placeFor stripe)
  match rel.taken.find? fun x => x.row == h.row && x.pos == j with
  | none => none
  | some x =>
    let behind := match s.member x.by_ with
      | some m => m.state == .evacuated || decide (stripe < m.rebuild)
      | none => false
    let held := match s.member x.slot with | some m => m.holds g stripe | none => false
    if behind && held then some (x.slot, g.chunkLba h.period x.layer) else none

/-- Where a position can be read and written now, slot and first drive block; none when it is missing (R172, R179,
R190, R723). -/
def State.posAt (s : State) (g : Group) (stripe j : Nat) : Option (Nat × Nat) :=
  let h := g.home stripe j
  let here := some (h.slot, g.chunkLba h.period h.layer)
  match s.member h.slot with
  | none => none
  | some m =>
    if m.holds g stripe ∨ (m.state = .refilling ∧ stripe < m.refill) then here else s.spareAt g stripe j

/-- The positions of a stripe that are missing (R179). -/
def State.missing (s : State) (g : Group) (stripe : Nat) : List Nat :=
  (List.range g.n).filter fun j => (s.posAt g stripe j).isNone

/-- The failure count (R176). -/
def State.failures (s : State) (gi : Nat) : Nat :=
  (s.str.members.filter fun e => e.2.group == gi
    && (e.2.state == .missing || e.2.state == .rebuilding || e.2.state == .refilling)).length

/-- GSTATE (R177). -/
def State.gstate (s : State) (gi : Nat) : Nat :=
  match s.group gi with
  | none => 0
  | some g =>
    if !g.online then 0
    else if g.tol < s.failures gi then 3
    else if s.failures gi = 0 ∧ ¬ (s.str.members.any fun e => e.2.group == gi
      && (e.2.state == .evacuated || e.2.state == .returning)) then 1
    else 2

/-- Update the member in slot `sl`, if it exists. -/
def State.updMember (s : State) (sl : Nat) (f : Member → Member) : State :=
  match s.member sl with
  | some m =>
    let was := s.gstate m.group
    let s := if (f m).state = m.state then s else s.trace 4 (32 + sl)
    let s : State := { s with str := { s.str with members := tblIns s.str.members sl (f m) } }
    if s.gstate m.group = was then s else s.trace 5 165
  | none => s

/-- The group block of volume block `v` (R119). -/
def Volume.groupBlock (vol : Volume) (g : Group) (v : Nat) : Nat := vol.ext.getD (v / g.rb) 0 * g.rb + v % g.rb

/-- The volume that holds region `x` of group `gi`, with the region's place in its extent table. -/
def State.volOfRegion (s : State) (gi x : Nat) : Option (Nat × Nat) :=
  s.str.volumes.findSome? fun e =>
    if e.2.group = gi then (e.2.ext.findIdx? (· == x)).map fun i => (e.1, i) else none

/-- The volume block of offset 0 of data unit `u` of a stripe (R202). -/
def Group.vlbaOf (g : Group) (extIdx stripe u : Nat) : Nat := extIdx * g.rb + (stripe % g.t) * 16 * g.kd + 16 * u

/-- Regions of group `gi` that no volume holds and that are not being zeroed (R159, R160). -/
def State.freeRegions (s : State) (gi : Nat) (g : Group) : List Nat :=
  (List.range g.regions).filter fun x => (s.volOfRegion gi x).isNone && !g.zeroing.contains x

/-- The drive cluster of a slot, and its crossbar port (R23). -/
def slotCluster (sl : Nat) : Nat := sl / 8
def slotPort (sl : Nat) : Nat := 8 + sl / 8

end Sys2Proof.Machine
end

