-- ==== Sys2Proof/Machine/QpBase.lean ====
section
/-! DEFINITION. Queue pairs and commands: the operations every face and every command uses: entry fields, doorbells,
log records, posting a completion, ending a command, resets (R51 to R95, R556). -/

namespace Sys2Proof.Machine

/-! ### Status codes (R70) -/

def stSuccess : Nat := 0x00
def stInvalidField : Nat := 0x02
def stInvalidVolume : Nat := 0x03
def stAbortedReset : Nat := 0x04
def stAbortedRequest : Nat := 0x05
def stAbortTooLate : Nat := 0x06
def stMediaUnrecoverable : Nat := 0x08
def stIndeterminate : Nat := 0x09
def stIntegrityError : Nat := 0x0A
def stKeyExhausted : Nat := 0x0B
def stGroupFailed : Nat := 0x0C
def stNotOwner : Nat := 0x0D
def stMasterDisabled : Nat := 0x0E
def stUnitAbsent : Nat := 0x10

/-! ### The submission entry (R59) -/

def eOpcode (e : Bytes) : Nat := byteAt e 0
def eFlags (e : Bytes) : Nat := byteAt e 1
def eCid (e : Bytes) : Nat := leAt e 2 2
def eVolume (e : Bytes) : Nat := leAt e 4 3
def eHint (e : Bytes) : Nat := byteAt e 7
def eSlba (e : Bytes) : Nat := leAt e 8 8
def eNblk (e : Bytes) : Nat := leAt e 16 4
def eTenant (e : Bytes) : Nat := leAt e 20 4
def eMkey (e : Bytes) : Nat := leAt e 24 4
def eLen (e : Bytes) : Nat := leAt e 28 4
def eAddr (e : Bytes) : Nat := leAt e 32 8

/-- Opcodes of R60. -/
def opRead : Nat := 0x01
def opWrite : Nat := 0x02
def opFlush : Nat := 0x03
def opZeroes : Nat := 0x04
def opTrim : Nat := 0x05
def opAbort : Nat := 0x08

/-- An admin opcode (R60). -/
def isAdmin (op : Nat) : Bool := decide (0x40 ≤ op)

/-! ### Queue pairs and commands -/

/-- Queue pair `q`; one not listed is FREE. -/
def State.qp (s : State) (q : Nat) : Qp := tblGet {} s.qpe.qps q

/-- The state with queue pair `q` replaced; a change of its state is traced (R691). -/
def State.setQp (s : State) (q : Nat) (x : Qp) : State :=
  let s := if (s.qp q).state = x.state then s else s.trace 6 160
  { s with qpe := { s.qpe with qps := tblPut {} s.qpe.qps q x } }

/-- Update queue pair `q`. -/
def State.updQp (s : State) (q : Nat) (f : Qp → Qp) : State := s.setQp q (f (s.qp q))

/-- The number of queue pairs (R51). -/
def State.qpCount (s : State) : Nat := 2 ^ Config.qpLog2 s.variant

/-- The outstanding command with order number `seq`. -/
def State.cmd (s : State) (seq : Nat) : Option Cmd := s.qpe.cmds.find? fun c => c.seq == seq

/-- The outstanding command of queue pair `q` with CID `cid`: the first one taken. -/
def State.findCmd (s : State) (q cid : Nat) : Option Cmd := s.qpe.cmds.find? fun c => c.qp == q && c.cid == cid

/-- The engine's cluster. -/
def clusterOf (e : Nat) : Nat := e / 12

/-- Cluster `k` stalls for firmware activation (R97, R676). -/
def State.clusterStalled (s : State) (k : Nat) : Bool :=
  match s.sys.activation with
  | some a => a.stalled.isSome && a.cluster == k
  | none => false

/-- The home cluster of a command's queue pair stalls: its thread stands still (R91, R97). -/
def State.stopped (s : State) (c : Cmd) : Bool := s.clusterStalled (clusterOf (s.qp c.qp).home)

/-- The dispatched (or issued) command of queue pair `q` with CID `cid` and opcode `op`, on a thread that runs. -/
def State.carried (s : State) (q cid op : Nat) : Option Cmd :=
  s.qpe.cmds.find? fun c => c.qp == q && c.cid == cid && eOpcode c.entry == op
    && (c.phase == .dispatched || c.phase == .issued) && !s.stopped c

/-- Update the command with order number `seq`. -/
def State.updCmd (s : State) (seq : Nat) (f : Cmd → Cmd) : State :=
  { s with qpe := { s.qpe with cmds := updFirst (fun c => c.seq == seq) f s.qpe.cmds } }

/-- The commands of queue pair `q`. -/
def State.cmdsOf (s : State) (q : Nat) : List Cmd := s.qpe.cmds.filter fun c => c.qp == q

/-- Entries from index `a` to index `b` of a ring (R56). -/
def ringCount (a b size : Nat) : Nat := (b + size - a) % size

/-- Free completion slots (R58). -/
def Qp.freeSlots (q : Qp) : Nat := q.cqSize - 1 - ringCount q.cqHead q.post q.cqSize - q.reserved

/-- The tenant's shaper entry (R240). -/
def State.shaper (s : State) (tenant : Nat) : Option ShaperEntry := tblFind s.cls.shapers tenant

/-- Commands of queue pair `q` held by the policer (R242). -/
def State.heldOf (s : State) (q : Nat) : List Cmd := (s.cmdsOf q).filter fun c => c.held

/-- A full bucket (R240): 0 where its rate or depth is 0. -/
def bucketFull (rate depth : Nat) : Nat := if rate = 0 then 0 else depth * 1000000

/-- FETCH_HELD: the policer stops fetching (R101, R243). -/
def State.fetchHeld (s : State) (q : Nat) : Bool :=
  let x := s.qp q
  let noPeak := match s.shaper x.tenant with
    | some e => x.tenant != 0 && decide (e.p < 1000000)
    | none => false
  noPeak || !(s.heldOf q).isEmpty

/-! ### The boundary of island 160 (R35, R37) -/

/-- A request to the QPE: taken while island 160 is ON, held while it is in a transition, refused at once in RETAIN or
OFF, where it has no effect (R37). -/
def State.atQpe (s : State) (d : Door) (g : State → State) : State :=
  if s.isOn 160 then g s
  else if (s.island 160).busy.isSome then { s with qpe := { s.qpe with doors := s.qpe.doors ++ [d] } }
  else s.emit (.refusedAtIsland 160)

/-- Island 160 has reached RETAIN or OFF: the requests held are answered as refused (R37). -/
def State.doorsRefused (s : State) : State :=
  let n := s.qpe.doors.length
  ({ s with qpe := { s.qpe with doors := [] } } : State).emits (List.replicate n (.refusedAtIsland 160))

/-! ### The context cache (R53, R54) -/

/-- Use the context of queue pair `q` (R53, R54): a miss is counted, loads it, and evicts the least recently used
context that is not pinned. Doorbells that R74 does not answer by number alone, ring fetches and postings use it (log entry
91). -/
def State.useContext (s : State) (q : Nat) : State :=
  if s.qpe.cache.contains q then
    { s with qpe := { s.qpe with cache := q :: s.qpe.cache.filter (· != q) } }
  else
    let s := s.count .qpeCtxMiss
    let c := q :: s.qpe.cache
    let c := if c.length ≤ 16384 then c
      else
        match c.reverse.find? fun p => p != q && !bitOf (s.qp p).mask 0 with
        | some p => c.filter (· != p)
        | none => c
    { s with qpe := { s.qpe with cache := c } }

/-! ### Doorbells (R71 to R74) -/

/-- An invalid doorbell (R74). -/
def State.badDoorbell (s : State) : State := (s.count .qpeDbBad).event .qpe

/-- A doorbell to a queue pair that is FREE or DRAINING, or beyond the last (R74). -/
def State.noQp (s : State) (q : Nat) : Bool :=
  decide (s.qpCount ≤ q) || (s.qp q).state == .free || (s.qp q).state == .draining

/-- What a doorbell came to: applied, ignored, refused (R244). -/
inductive DbResult where
  | applied | invalid | refused
deriving DecidableEq, Repr

/-- An SQ tail doorbell (R71, R74, R77). -/
def State.sqTail (s : State) (q t' : Nat) : State × DbResult :=
  let x := s.qp q
  if s.noQp q then (s.count .qpeDbFree, .invalid)
  else
    let s := s.useContext q
    if x.state = .error then (s.count .qpeDbBad, .invalid)
    else if t' < x.sqSize ∧ ringCount x.head x.tail x.sqSize ≤ ringCount x.head t' x.sqSize then
      (s.setQp q { x with tail := t' }, .applied)
    else (s.badDoorbell, .invalid)

/-- A CQ head doorbell (R73, R74, R77). -/
def State.cqHeadDb (s : State) (q c' : Nat) : State × DbResult :=
  let x := s.qp q
  if s.noQp q then (s.count .qpeDbFree, .invalid)
  else
    let s := s.useContext q
    if c' < x.cqSize ∧ ringCount x.cqHead c' x.cqSize ≤ ringCount x.cqHead x.post x.cqSize then
      (s.setQp q { x with cqHead := c' }, .applied)
    else (s.badDoorbell, .invalid)

/-! ### Posting (R63 to R69, R77, R94) -/

/-- The completion ring can be written at the posting index (R77, R78): its key passes and its memory can be
reached. -/
def State.ringWritable (s : State) (x : Qp) : Bool :=
  match x.face with
  | .roce a q => (s.roceOf a q).isSome
  | _ => s.keyReach x.cqMkey && s.keyOk x.cqMkey true (x.cqAddr + 32 * x.post) 32

/-- The 32 bytes of a completion entry (R63). -/
def completionEntry (c : Cmd) (x : Qp) (status info time : Nat) : Bytes :=
  toLe c.cid 2 ++ toLe status 1
    ++ toLe (b2n x.phase + 2 * b2n c.authFail + 4 * b2n c.wasHeld) 1
    ++ toLe x.head 2 ++ toLe 0 2 ++ toLe (time % 2 ^ 32) 4 ++ toLe info 4 ++ zeros 16

/-- QUIET of an entry (R59). -/
def isQuiet (e : Bytes) : Bool := bitOf (eFlags e) 0

/-- An invocation of a command that has gone: one that waits goes with it, the result of a running one is discarded
(R447). -/
def keepInv (seq : Nat) (i : Invocation) : Option Invocation :=
  if i.cmd == some seq then (if i.thread.isNone then none else some { i with discard := true }) else some i

/-- A waiting DMA read that is not a pull of command `seq`. -/
def keepWait (seq : Nat) (w : EpWait) : Bool :=
  match w.who with
  | .pull q _ => q != seq
  | _ => true

/-- The connection without the pulls of command `seq` outstanding. -/
def OdtConn.dropPulls (c : OdtConn) (seq : Nat) : OdtConn :=
  { c with asks := c.asks.filter fun a => !(a.slots.isNone && a.desc.isNone && a.cmd == seq) }

/-- A member command that serves command `c`. -/
def State.servesCmd (s : State) (c : Cmd) (w : MemFor) : Bool :=
  match w with
  | .readRun q _ _ => q == c.seq
  | .preRead g st _ | .stripe g st _ =>
    s.str.opens.any fun o => o.group == g && o.stripe == st && o.writer == .host c.seq
  | .bitSet _ _ q => q == some c.seq
  | _ => false

/-- Staging cells come free at a face point (R156). -/
def State.unstage (s : State) (pt n : Nat) : State :=
  if n = 0 then s
  else { s with str := { s.str with staging := tblPut 0 s.str.staging pt (tblGet 0 s.str.staging pt - n) } }

/-- Class 0 pool cells of a command's reservation are released (R358). -/
def State.c0End (s : State) (seq n : Nat) : State :=
  match s.cmd seq with
  | none => s
  | some c =>
    let k := min n c.c0Cells
    let s : State := { s with xbr := { s.xbr with c0Used := s.xbr.c0Used - k } }
    s.updCmd seq fun c => { c with c0Cells := c.c0Cells - k }

/-- The member commands of `c` that have not been issued, its open stripes with their slice contexts and staging, and
its runs' contexts are given up. -/
def State.releaseMedia (s : State) (c : Cmd) : State :=
  let gone := s.str.mem.filter fun m => m.issued.isNone && s.servesCmd c m.who
  let unset := gone.filterMap fun m => match m.who with | .bitSet g r _ => some (g, r) | _ => none
  let freed := s.str.opens.filter fun o => o.writer == .host c.seq
  let kept := s.str.mem.filter fun m => !(m.issued.isNone && s.servesCmd c m.who)
  let cellMine (r : CellRun) : Bool := match r.who with
    | .read q _ | .survivor q _ => q == c.seq
    | .stripe g st | .parity g st => freed.any fun o => o.group == g && o.stripe == st
    | _ => false
  let s := s.discardRuns cellMine
  let s : State := { s with str := { s.str with
    mem := kept
    opens := s.str.opens.filter fun o => o.writer != .host c.seq } }
  let s := gone.foldl (fun s m => s.freeHeld m.cls [(slotPort m.slot, m.cells)]) s
  let s := freed.foldl (fun s o => ((s.freeSlice o.slice).unstage o.point o.staged).freeHeld o.cls o.held) s
  let s := c.runs.foldl (fun s r => s.freeSlice r.slice) s
  unset.foldl (fun s x => s.updGroup x.1 fun g => { g with setting := tblDel g.setting x.2 }) s

/-- The face point through which a command's data passes: that of its queue pair; the endpoint, where it is present, for
a WRITE whose buffer is in controller memory (R379, R411). -/
def State.dataPoint (s : State) (c : Cmd) : Nat :=
  if eOpcode c.entry = opWrite ∧ 3 ≤ (s.keyAt (keyIndex (eMkey c.entry))).kind ∧ Config.portPresent s.variant 14 then 8
  else s.facePoint (s.qp c.qp).face

/-- What an outstanding command occupied is given up: its thread, its key, its media work not yet issued, its cells,
its waiting reads and pulls. -/
def State.release (s : State) (c : Cmd) : State :=
  let pt := s.dataPoint c
  let s := s.releaseMedia c
  let s := c.rows.foldl (fun s r => s.unstage pt r.2) s
  let s := s.releaseCells (facePort pt) (if c.cls = 0 then 0 else 1) c.faceCells
  let s : State := { s with
    xbr := { s.xbr with c0Used := s.xbr.c0Used - c.c0Cells }
    cls := { s.cls with busy := s.cls.busy.filter fun b => !(some (b.1, b.2.1) == c.thread) }
    fct := { s.fct with
      invs := s.fct.invs.filterMap (keepInv c.seq)
      streams := s.fct.streams.filter fun e => e.2.cmd != some c.seq }
    epf := { s.epf with waiting := s.epf.waiting.filter (keepWait c.seq) }
    net := { s.net with odt := s.net.odt.map fun e => (e.1, OdtConn.dropPulls e.2 c.seq) } }
  let s := s.updCmd c.seq fun c => { c with rows := [], c0Cells := 0, faceCells := 0, runs := [], todo := [] }
  if c.keyHeld then s.dropKey (eMkey c.entry) else s

/-- The command leaves the outstanding list (R91): it is posted, or a reset stands in for it. -/
def State.dropCmd (s : State) (c : Cmd) : State :=
  let s := s.release c
  let s := if isAdmin (eOpcode c.entry) then s.trace 8 160 else s
  { s with qpe := { s.qpe with cmds := s.qpe.cmds.filter fun x => x.seq != c.seq } }

/-- The fetch of queue pair `q` in progress is discarded (R57, R76): what it brings is accepted and thrown away, and no more
of it is asked for. -/
def State.dropFetch (s : State) (q : Nat) : State :=
  let mine (w : DmaFor) : Bool := match w with | .fetch p _ => p == q | _ => false
  let s : State := { s with
    epf := { s.epf with
      tags := s.epf.tags.map fun e => (e.1, if mine e.2.who then { e.2 with who := .gone } else e.2)
      waiting := s.epf.waiting.filter fun w => !mine w.who }
    net := { s.net with odt := s.net.odt.map fun e =>
      (e.1, { e.2 with asks := e.2.asks.filter fun a => !(a.slots.isSome && a.qp == q) }) } }
  { s with frames := s.frames.filter fun h => match h.what with
    | .odt _ p _ (.fetchReq _ _) => p != q
    | _ => true }

/-- A completion that could not be written is counted for the reset that stands in for it (R79, R95). -/
def State.lostCompletion (s : State) (c : Cmd) : State :=
  let x := (s.qp c.qp).loseOne
  let x : Qp := if x.state = .active ∨ x.state = .stalled then { x with state := .error } else x
  let s := s.setQp c.qp { x with reserved := if c.ready.isNone then x.reserved - 1 else x.reserved }
  let s := if (s.qp c.qp).state = .error then s.dropFetch c.qp else s
  s.dropCmd c

/-- NVMe status of a controller status: type × 256 + code, and DNR (R282). -/
def nvmeStatusOf (st : Nat) : Nat × Bool :=
  if st = stSuccess then (0x000, false)
  else if st = stInvalidField then (0x002, true)
  else if st = stInvalidVolume then (0x00B, true)
  else if st = stAbortedRequest then (0x007, false)
  else if st = stAbortedReset then (0x008, false)
  else if st = stMediaUnrecoverable then (0x281, false)
  else if st = stUnitAbsent then (0x710, true)
  else (0x700 + st, false)

/-- The 16-byte response capsule of a completion entry on NVMe queue `qid` (R282). -/
def responseCapsule (entry : Bytes) (qid : Nat) : Bytes :=
  let fl := byteAt entry 3
  let (nv, dnr) := nvmeStatusOf (byteAt entry 2)
  toLe (b2n (bitOf fl 2) + 2 * b2n (bitOf fl 1)) 4 ++ toLe (leAt entry 8 4) 4
    ++ toLe (leAt entry 4 2) 2 ++ toLe qid 2 ++ toLe (leAt entry 0 2) 2
    ++ toLe (b2n (bitOf fl 0) + 2 * nv + 2 ^ 15 * b2n dnr) 2

/-- The completion entry leaves for the host over the queue pair's face, with its notification (R65, R69, R282, R297,
R331). -/
def State.sendCompletion (s : State) (c : Cmd) (slot : Nat) (entry : Bytes) : State :=
  let x := s.qp c.qp
  let a := x.cqAddr + 32 * slot
  let device := (s.keyAt (keyIndex x.cqMkey)).kind == 3
  let cpl : Option Cpl := some { qp := c.qp, seq := c.seq, entry := c.entry }
  let s := (s.useContext c.qp).emit (.completion c.qp slot entry)
  match x.face with
  | .endpoint f v =>
    let s := s.hostPut x.cqMkey a c.cls c.seq entry cpl
    if isQuiet c.entry then s else s.sendVector f v c.cls
  | .odt k =>
    let s := if device then s.hostPut x.cqMkey a c.cls c.seq entry else s
    if isQuiet c.entry then if device then s else s.hostPut x.cqMkey a c.cls c.seq entry cpl
    else s.pushEgress (s.facePoint x.face) c.cls (.odt k c.qp 16 (.completion slot entry)) (if device then none else cpl)
  | .roce al q =>
    match s.roceOf al q with
    | some k => s.pushEgress (s.facePoint x.face) c.cls (.roce k (.response c.cls (responseCapsule entry q))) cpl
    | none => s

/-- The attachment of hook `h` that concerns queue pair `q`: its own before its tenant's, or its ODT connection's
(R439, R441); ADMISSION and PERSONALITY never concern one that permits Class 0 (R440). -/
def State.hookOf (s : State) (h q : Nat) : Option (Nat × Attachment) :=
  let x := s.qp q
  let conn := match x.face with | .odt c => some c | _ => none
  if (h = 0 ∨ h = 3) ∧ bitOf x.mask 0 then none
  else match s.fct.atts.find? fun e => e.2.hook == h && e.2.detach.isNone && e.2.kind == 1 && e.2.target == q with
  | some e => some e
  | none => s.fct.atts.find? fun e => e.2.hook == h && e.2.detach.isNone &&
      ((e.2.kind == 0 && e.2.target == x.tenant) || (e.2.kind == 2 && some e.2.target == conn))

/-- Ask for an invocation on the home engine of the command's queue pair (R444). -/
def State.callHook (s : State) (att : Nat) (c : Cmd) (hook : Nat) (input : Bytes) : State :=
  let s := s.updCmd c.seq fun c => { c with hook := some (att, hook) }
  { s with fct := { s.fct with
      invs := s.fct.invs ++ [{ att, engine := (s.qp c.qp).home, cmd := some c.seq, input }] } }

/-- The ODT SEQ or RoCEv2 PSN the next completion of a queue pair will be sent with, behind what waits (R556). -/
def State.sendSeq (s : State) (x : Qp) : Nat :=
  match x.face with
  | .endpoint _ _ => 0
  | .odt k =>
    let ahead := s.net.egress.filter fun u => match u.what with
      | .odt j _ _ m => j == k && m.sequenced
      | _ => false
    let wait := s.frames.filter fun h => match h.what with
      | .odt j _ _ m => j == k && m.sequenced
      | _ => false
    ((s.odtConn k).dseq + ahead.length + wait.length) % 2 ^ 32
  | .roce al q =>
    match (s.roceOf al q).bind fun k => (tblFind s.net.roce k).map fun c => (k, c) with
    | none => 0
    | some (k, c) =>
      let ahead := s.net.egress.foldl (fun n u => match u.what with
        | .roce j r => if j = k then n + r.psns c.mtu else n
        | _ => n) 0
      ((c.queue.map (RoceReq.psns c.mtu)).sum + c.sPsn + ahead) % 2 ^ 24

/-- Write the completion of a finished command, or wait for what it has to wait for: the POSTED record (R556), the
PERSONALITY hook (R439), a stall (R77), a frozen face (R568). -/
def State.postTry (s : State) (seq : Nat) : State :=
  match s.cmd seq with
  | none => s
  | some c =>
    match c.phase, c.result with
    | .finished, some (status, info) =>
      let x := s.qp c.qp
      if x.state = .free then s.dropCmd c
      else if x.state = .stalled ∨ c.hook.isSome ∨ x.frozen then s
      else if x.state = .draining ∧ c.past then s.lostCompletion c
      else
        match c.ready with
        | some (slot, entry) =>
          if !s.recAcked c.postedRec then s else ((s.sendCompletion c slot entry).dropCmd c).touch
        | none =>
          if !s.ringWritable x then s.lostCompletion c
          else
            let entry := c.translated.getD (completionEntry c x status info s.gnmNs)
            match (if c.raw.isSome then (s.hookOf 3 c.qp).filter fun a => !a.2.suspended else none) with
            | some (a, _) => s.callHook a c 3 (entry ++ zeros 32 ++ [1#8])
            | none =>
              let (s, r) := s.logRec (.posted c.qp c.slot entry (s.sendSeq x))
              let post := (x.post + 1) % x.cqSize
              let s := s.setQp c.qp { x with
                post, phase := if post = 0 then !x.phase else x.phase, reserved := x.reserved - 1 }
              let s := s.updCmd seq fun c => { c with ready := some (x.post, entry), postedRec := r }
              if !s.recAcked r then s else ((s.sendCompletion c x.post entry).dropCmd c).touch
    | _, _ => s

/-- The command is finished with a status (R91), and its completion is posted where it can be. -/
def State.finishCore (s : State) (seq status info : Nat) : State :=
  let s := s.updCmd seq fun c => if c.phase = .finished then c else
    { c with phase := .finished, result := some (status, info), held := false, hook := none }
  s.postTry seq

/-- A command ends before its issue point (R89, R94): what it had pulled or opened is given up. -/
def State.endEarly (s : State) (seq status : Nat) : State :=
  match s.cmd seq with
  | none => s
  | some c => (s.release c).updCmd seq (fun c => { c with keyHeld := false }) |>.finishCore seq status 0

/-- A finished command whose only effect was on its buffer: it has no issue point, and an ABORT or a reset can end it until
its completion is posted (R89). -/
def Cmd.noIssue (c : Cmd) : Bool :=
  let op := eOpcode c.entry
  c.phase == .finished && (match c.result with | some (st, _) => st == stSuccess | none => false)
    && (op == 0x4C || op == 0x4D || op == 0x4F || (op == 0x60 && byteAt c.entry 9 == 0))

/-- A finished command without an issue point ends with another status (R89): its completion, where made ready, is made
again. -/
def State.endUnissued (s : State) (c : Cmd) (status : Nat) : State :=
  let s := s.updCmd c.seq fun c => { c with result := some (status, 0), translated := none, hook := none }
  match c.ready with
  | none => s.postTry c.seq
  | some (slot, e) =>
    let e := e.take 2 ++ toLe status 1 ++ (e.drop 3).take 9 ++ zeros 4 ++ e.drop 16
    let (s, r) := s.logRec (.posted c.qp c.slot e (s.sendSeq (s.qp c.qp)))
    (s.updCmd c.seq fun c => { c with ready := some (slot, e), postedRec := r }).postTry c.seq

/-- A queue pair that is FREE again: its context leaves the table and the cache (R54, R78), and a shaper entry that
no SET_SHAPER has written goes with the tenant's last queue pair (R250). -/
def State.freeQp (s : State) (q : Nat) : State :=
  let tenant := (s.qp q).tenant
  let s := s.dropFetch q
  let detach (c : RoceConn) : RoceConn := if c.qp = some q then { c with qp := none } else c
  let s : State := { s with
    qpe := { s.qpe with qps := tblDel s.qpe.qps q, cache := s.qpe.cache.filter (· != q) }
    net := { s.net with roce := s.net.roce.map fun e => (e.1, detach e.2) } }
  let last := !(s.qpe.qps.any fun e => e.2.tenant == tenant && e.2.state != .free)
  match s.shaper tenant with
  | some e =>
    if last && !e.written && tenant != 0 then
      { s with cls := { s.cls with shapers := tblDel s.cls.shapers tenant } }
    else s
  | none => s

/-- A drain whose last command has ended comes to its end (R94, R95): rings at index 0 after RESET_QP, else FREE; the
reset command's completion follows with the count. -/
def State.drainEnd (s : State) (q : Nat) : State :=
  let x := s.qp q
  match x.drain with
  | none => s
  | some d =>
    match d.kind with
    | .resetQp seq =>
      if d.thenFree then (s.freeQp q).touch.finishCore seq stSuccess d.count
      else
      let s := s.setQp q { x with
        state := .active, head := 0, tail := 0, cqHead := 0, post := 0, phase := true,
        reserved := 0, fetch := none, fetchSegs := [], inl := [], drain := none, unwritten := 0, inlTail := 0, inlCount := 0,
        inlInvalid := false, inlRefused := false, inlHeld := false }
      s.touch.finishCore seq stSuccess d.count
    | .deleteQp seq => (s.freeQp q).touch.finishCore seq stSuccess d.count
    | _ => (s.freeQp q).touch

/-- The entry of a key is freed (R515, R520, R523): STATE 0, the TAG advances, and the memory of a device key is zeroed
and returns to its pool. -/
def State.freeKeyEntry (s : State) (idx : Nat) : State :=
  let k := s.keyAt idx
  let s := if k.kind = 3 then
      { s with
        mem := s.mem.lose k.target (k.target + k.length)
        fct := { s.fct with devPool := tblDel s.fct.devPool k.target } }
    else s
  s.putKey idx { state := 0, kind := 0, access := 0, tag := if k.tag = 255 then 1 else k.tag + 1, tenant := 0,
                 binding := 0, uses := 0, base := 0, length := 0, target := 0, rkey := 0 }

/-- A queue pair bound to function `f` is DRAINING. -/
def State.funcDrains (s : State) (f : Nat) : Bool :=
  s.qpe.qps.any fun e => e.2.state == .draining && (match e.2.face with | .endpoint g _ => g == f | _ => false)

/-- A queue pair bound to connection `c` is in ERROR or DRAINING (R300). -/
def State.odtStuck (s : State) (c : Nat) : Bool :=
  s.qpe.qps.any fun e => (e.2.state == .draining || e.2.state == .error) && e.2.face == .odt c

/-- The effect of a command that completes once it is in force on both controllers has come into force (R393, R555,
R662): its configuration records are written and the peer has acknowledged the copy that carries it, with FLASH where the
MARK of a LOAD_KEY is in it (R397). -/
def State.inForce (s : State) (c : Cmd) : Bool :=
  !(c.cfgs.any fun x => s.cfgWaits x.1 x.2) && !(s.shd.bulk.any fun b => b.seq == some c.seq)
    && (!s.paired || (match c.copyAt with
      | some n => decide (n ≤ if eOpcode c.entry = 0x59 then s.shd.flashAcked else s.shd.copyAcked)
      | none => false))

/-- The rekey walk that LOAD_KEY `seq` waits for may begin: no write holds a generation of the old key (R400). -/
def State.walkReady (s : State) (seq : Nat) : Bool :=
  s.cph.walks.all fun w => w.2.starting != some seq ||
    !(s.qpe.cmds.any fun d => d.phase != .finished && d.seq != seq && (match d.gen with
      | some x => x.1 == w.2.old
      | none => false))

/-- The walk that LOAD_KEY `seq` waits for begins (R400). -/
def State.walkBegin (s : State) (seq : Nat) : State :=
  { s with cph := { s.cph with walks := s.cph.walks.map fun w =>
      (w.1, if w.2.starting = some seq then { w.2 with starting := none, begun := true } else w.2) } }

/-- Every region of a volume being created has its bit set and its place in the window (R145, R150). -/
def State.volumeReady (s : State) (h : Nat) : Bool :=
  match s.volume h with
  | none => true
  | some v =>
    match s.group v.group with
    | none => true
    | some g => v.ext.all fun x => (tblFind g.dirty x).isSome && (tblFind g.clearing x).isNone
        && s.str.window.any fun w => w.group == v.group && w.region == x && w.acked && !w.leaving

/-- A volume is usable. -/
def State.volumeMade (s : State) (h : Nat) : State :=
  match s.volume h with
  | some v => { s with str := { s.str with volumes := tblIns s.str.volumes h { v with creating := none } } }
  | none => s

/-- A waiting command has come to its end: a FLUSH whose earlier commands have gone (R85), an ABORT whose target has
been posted (R90), a DEREG_KEY whose key has no holder left (R523), a CREATE_VOLUME (R150), a command whose effect is in force on both
controllers. -/
def State.waitOver (s : State) (c : Cmd) : Bool :=
  c.waiting && c.phase != .finished &&
    ((eOpcode c.entry == opFlush && !(s.qpe.cmds.any fun d => d.qp == c.qp && decide (d.seq < c.seq)))
      || (eOpcode c.entry == opAbort && !(s.qpe.cmds.any fun d => c.todo.contains d.seq))
      || (eOpcode c.entry == 0x45 && (s.keyAt (keyIndex (eMkey c.entry))).uses == 0)
      || (eOpcode c.entry == 0x4A && s.volumeReady (eVolume c.entry))
      || (c.both && s.inForce c && s.walkReady c.seq))

/-- What follows by itself from the state of commands: one that an ERROR or a reset ends (R77, R94), one whose wait is
over. -/
def State.settleCmd (s : State) : Option State :=
  match s.qpe.cmds.find? fun c =>
    let st := (s.qp c.qp).state
    (st == .error || st == .draining) && !c.past && c.phase != .finished with
  | some c => some (s.endEarly c.seq stAbortedReset)
  | none =>
    match s.qpe.cmds.find? s.waitOver with
    | some c =>
      let s := if eOpcode c.entry = 0x45 then s.freeKeyEntry (keyIndex (eMkey c.entry))
        else if eOpcode c.entry = 0x4A then s.volumeMade (eVolume c.entry)
        else s.walkBegin c.seq
      some (s.finishCore c.seq stSuccess c.okInfo)
    | none => none

/-- The next thing that follows by itself: of commands, of a drain at its end (R94), of a function whose drains have
ended (R337), of a FAILED connection that none of its queue pairs holds (R300). -/
def State.settleStep (s : State) : Option State :=
  match s.settleCmd with
  | some s' => some s'
  | none =>
    match s.qpe.qps.find? fun e => e.2.state == .draining && e.2.drain.isSome
      && !(s.qpe.cmds.any fun c => c.qp == e.1) with
    | some e => some (s.drainEnd e.1)
    | none =>
      match s.epf.funcs.find? fun e => e.2.draining && !s.funcDrains e.1 with
      | some e => some (s.setFunc e.1 { e.2 with draining := false })
      | none =>
        match s.net.odt.find? fun e => e.2.state == .failed && !s.odtStuck e.1 with
        | some e => some (s.setOdt e.1 { e.2 with state := .opening, since := s.now })
        | none => none

/-- Everything that follows, at most `n` things. -/
def State.settleN : Nat → State → State
  | 0, s => s
  | n + 1, s =>
    match s.settleStep with
    | some s' => State.settleN n s'
    | none => s

/-- Everything that follows by itself. -/
def State.settle (s : State) : State :=
  State.settleN (2 * s.qpe.cmds.length + 2 * s.qpe.qps.length + s.epf.funcs.length + s.net.odt.length + 2) s

/-- Finish a command and let follow what follows. -/
def State.finish (s : State) (seq status info : Nat) : State := (s.finishCore seq status info).settle

/-- A ring fetch or completion write failed: the queue pair enters ERROR (R78). -/
def State.qpError (s : State) (q : Nat) : State :=
  let x := s.qp q
  if x.state = .active ∨ x.state = .stalled then
    ((s.setQp q { x with state := .error, fetch := none, fetchSegs := [] }).dropFetch q).touch.settle
  else s

/-- A finished command whose entry has not been written is as it was before its completion was made ready. -/
def Cmd.unready (c : Cmd) : Cmd := if c.phase = .finished then { c with ready := none, postedRec := none } else c

/-- A reset reaches queue pair `q` (R89, R91, R93, R94): entries not taken are discarded, completions not yet written and
those of issued commands are stood in for. One that is draining for RESET_QP, and that a function-level or a controller
reset reaches, is to end in FREE. -/
def State.resetReach (s : State) (q : Nat) (k : DrainKind) : State :=
  let x := s.qp q
  if x.state = .free then s
  else if x.state = .draining then
    s.setQp q { x with drain := x.drain.map fun d => { d with thenFree := d.thenFree || k == .flr || k == .controller } }
  else
    let fin := (s.cmdsOf q).filter fun c => c.phase == .finished
    let n := (fin.filter fun c => c.ready.isSome).length
    let s := s.setQp q { x with
      state := .draining, fetch := none, fetchSegs := [], inl := [], unwritten := 0
      reserved := x.reserved + n
      post := (x.post + x.cqSize - n) % x.cqSize
      phase := if x.post < n then !x.phase else x.phase
      drain := some { kind := k, count := x.unwritten } }
    let s := s.dropFetch q
    let s : State := { s with qpe := { s.qpe with
      cmds := s.qpe.cmds.map fun c => if c.qp = q then c.unready else c } }
    (fin.foldl (fun s c => if c.noIssue ∧ !c.past then s.endUnissued c.unready stAbortedReset
      else s.lostCompletion c.unready) s).touch.settle

end Sys2Proof.Machine
end

