-- ==== Sys2Proof/Machine/Check.lean ====
section
/-! DEFINITION. The checks of an entry at intake (R61, R720, R721): the steps every entry meets, and the own checks of
the admin commands for queue pairs, keys, groups, volumes, members, shapers and the network face. -/

namespace Sys2Proof.Machine

/-- The own check of an admin command: the byte offsets of the fields that fail, and whether the command needs an
absent unit (R720), and failed key checks. -/
structure Own where
  fails : List Nat := []
  absent : Bool := false
  /-- Key checks that failed, for MMU_KEY_FAIL (R518). -/
  keyFails : Nat := 0
deriving DecidableEq, Repr

/-- Offset `off` fails unless `ok`. -/
def must (ok : Bool) (off : Nat) : List Nat := if ok then [] else [off]

/-- The lowest failing offset (R721). -/
def lowest (l : List Nat) : Option Nat := l.min?

/-- The byte ranges an admin command names beside bytes 0 to 3 and 7 (the tables of the chapters). -/
def adminBytes : Nat → List (Nat × Nat)
  | 0x41 => [(8, 43), (48, 59)]
  | 0x42 => [(56, 59)]
  | 0x43 => [(56, 59)]
  | 0x44 => [(8, 9), (12, 15), (20, 23), (32, 55)]
  | 0x45 => [(24, 27)]
  | 0x48 => [(8, 14), (40, 47)]
  | 0x49 => [(8, 8)]
  | 0x4A => [(4, 6), (8, 15), (40, 41), (44, 47)]
  | 0x4B => [(4, 6)]
  | 0x4C => [(4, 6), (24, 39)]
  | 0x4D => [(8, 8), (24, 39)]
  | 0x4E => [(8, 11)]
  | 0x4F => [(8, 8), (24, 43)]
  | 0x50 => [(8, 19), (40, 48)]
  | 0x51 => [(8, 15), (20, 27), (40, 59)]
  | 0x52 => [(56, 59)]
  | 0x53 => [(8, 14), (20, 23), (40, 55)]
  | 0x54 => [(8, 13), (40, 55)]
  | 0x40 => [(8, 9)]
  | 0x46 => [(8, 8), (24, 43)]
  | 0x47 => [(8, 9)]
  | 0x56 => [(8, 9)]
  | 0x58 => [(8, 8), (24, 39)]
  | 0x59 => [(4, 6), (8, 8), (12, 15), (24, 39)]
  | 0x5B => [(8, 9), (24, 39)]
  | 0x5C => [(8, 8), (24, 39)]
  | 0x5D => [(8, 23), (56, 59)]
  | 0x5E => [(56, 59)]
  | 0x5F => [(8, 8)]
  | 0x60 => [(8, 9), (24, 43)]
  | _ => []

/-- A byte of a range list. -/
def inRanges (rs : List (Nat × Nat)) (i : Nat) : Bool := rs.any fun r => decide (r.1 ≤ i ∧ i ≤ r.2)

/-- The bytes an I/O opcode uses beside bytes 0 to 3 and 7, and the tenant (R60). -/
def ioBytes (op : Nat) : List (Nat × Nat) :=
  if op = opRead ∨ op = opWrite then [(4, 6), (8, 39)]
  else if op = opZeroes ∨ op = opTrim then [(4, 6), (8, 23)]
  else if op = opAbort then [(20, 23), (40, 41)]
  else [(20, 23)]

/-- The I/O opcodes (R60). -/
def ioOpcodes : List Nat := [0x01, 0x02, 0x03, 0x04, 0x05, 0x08]

/-- The byte offset of the field that holds unused byte `i` (R68, R721): a field of R59, or what is left of one behind the
last byte that the command names (log entry 92). -/
def fieldStart (named : List (Nat × Nat)) (i : Nat) : Nat :=
  let own := ([4, 7, 8, 16, 20, 24, 28, 32, 40].filter (· ≤ i)).foldl max 0
  (named.filter fun r => decide (r.2 < i)).foldl (fun a r => max a (r.2 + 1)) own

/-- Step 2 of R61: bytes with no use are 0, and the bits of FLAGS, CLASS_HINT, TENANT, and of ATTR and QPN of CREATE_QP,
that are reserved (R59, R81). -/
def reservedFails (e : Bytes) (named : List (Nat × Nat)) : List Nat :=
  let op := eOpcode e
  must (eFlags e ≤ 1 || (op == opZeroes && decide (eFlags e ≤ 3))) 1
    ++ must (decide (eHint e < 8)) 7
    ++ must (!inRanges named 20 || decide (eTenant e < 2 ^ 20)) 20
    ++ must (op != 0x41 || decide (byteAt e 11 ≤ 1)) 11
    ++ must (op != 0x41 || bitsOf (leAt e 56 4) 30 18 == 0) 56
    ++ (((List.range 60).map (· + 4)).filter fun i => i != 7 && !inRanges named i && byteAt e i != 0).map
      (fieldStart named)

/-- The tenant's largest transfer in blocks (R245, R246): 0 acts as 512; the operator is not limited. -/
def State.xferCap (s : State) (tenant : Nat) : Nat :=
  match s.shaper tenant with
  | some x => if x.val.xferCap = 0 then 512 else x.val.xferCap
  | none => 512

/-- Steps 4 to 6 of R61 for an I/O entry: a status with its INFO, and whether the key check failed. -/
def State.ioCheck (s : State) (x : Qp) (e : Bytes) : Option (Nat × Nat) × Bool :=
  let op := eOpcode e
  if op = opFlush ∨ op = opAbort then (none, false)
  else
    match s.volume (eVolume e) with
    | none => (some (stInvalidVolume, 0), false)
    | some v =>
      if v.owner ≠ x.tenant ∨ v.creating.isSome ∨ eVolume e = 0 then (some (stInvalidVolume, 0), false)
      else
        let rw := decide (op = opRead ∨ op = opWrite)
        let top := if rw then min 512 (s.xferCap x.tenant) else 65536
        let five := must (decide (eSlba e + eNblk e ≤ v.size)) 8 ++ must (decide (1 ≤ eNblk e ∧ eNblk e ≤ top)) 16
        match lowest five with
        | some i => (some (stInvalidField, i), false)
        | none =>
          if !rw then (none, false)
          else if eLen e ≠ eNblk e * 4096 then (some (stInvalidField, 16), false)
          else if s.bufferOk (eMkey e) (op == opRead) (eAddr e) (eLen e) x.tenant x.face then (none, false)
          else (some (stInvalidField, 24), true)

/-! ### Own checks -/

/-- A buffer an admin command reads or writes, at MKEY, ADDR, LEN (R518): the failing offset names MKEY. -/
def State.adminBuffer (s : State) (x : Qp) (e : Bytes) (wr : Bool) : List Nat :=
  must (s.bufferOk (eMkey e) wr (eAddr e) (eLen e) x.tenant x.face) 24

/-- Queue pairs that hold a pinned context (R54). -/
def State.pinned (s : State) : Nat := (s.qpe.qps.filter fun e => bitOf e.2.mask 0 && e.2.state != .free).length

/-- Why a ring key fails (R55, R518, R721): the key itself at `koff`, its range at `soff`. -/
def State.ringKeyFails (s : State) (mkey : Nat) (wr : Bool) (a len tenant : Nat) (face : Face) (koff soff : Nat) :
    List Nat :=
  let k := s.keyAt (keyIndex mkey)
  if !(s.keyOk mkey wr k.base 1 && s.keyMatches mkey tenant face) then [koff]
  else must (s.keyOk mkey wr a len) soff

/-- The own check of CREATE_QP (R54, R55, R81, R278, R330, R440). With FACE 2 an allow entry of another tenant fails
BINDING, a check no rule names (DESIGN CHOICE; log entry 93). -/
def State.ownCreateQp (s : State) (e : Bytes) : Own :=
  let home := byteAt e 8
  let mask := byteAt e 9
  let face := byteAt e 10
  let attr := byteAt e 11
  let b := leAt e 12 4
  let sq := leAt e 16 4
  let tf := leAt e 20 4
  let tenant := tf % 2 ^ 20
  let cq := leAt e 28 4
  let qn := leAt e 56 4
  let size := if face = 2 then 4096 else 65536
  let noEp := face == 0 && !Config.endpoint s.variant
  let f : Face := if face = 0 then .endpoint (b % 64) (bitsOf b 26 16) else if face = 1 then .odt (b % 2 ^ 16)
    else .roce (b % 2 ^ 14) (b / 2 ^ 16)
  let bindOk :=
    if face = 0 then noEp || (bitsOf b 15 6 == 0 && bitsOf b 31 27 == 0 && s.funcEnabled (b % 64)
      && !(s.epFunc (b % 64)).draining)
    else if face = 1 then decide (b < 2 ^ 16) && (s.odtConn b).state != .closed && (s.odtConn b).tenant == tenant
    else
      bitsOf b 15 14 == 0 && decide (1 ≤ b / 2 ^ 16 ∧ b / 2 ^ 16 ≤ 65534) &&
        (match tblFind s.net.allow (b % 2 ^ 14) with | some a => a.tenant == tenant | none => false)
  let pers := face == 1 && bitOf mask 0 && s.fct.atts.any fun a => a.2.hook == 3 && a.2.kind == 2 && a.2.target == b
  let keyBad := s.ringKeyFails (leAt e 24 4) false (leAt e 32 8) (64 * sq) tenant f 24 16
    ++ s.ringKeyFails (leAt e 40 4) true (leAt e 48 8) (32 * cq) tenant f 40 28
  let rings :=
    if face = 2 then
      must (leAt e 24 4 == 0) 24 ++ must (leAt e 32 8 == 0) 32 ++ must (leAt e 40 4 == 0) 40
        ++ must (leAt e 48 8 == 0) 48
    else
      must (leAt e 32 8 % 64 == 0) 32 ++ must (leAt e 48 8 % 32 == 0) 48 ++ keyBad
  let any := bitOf qn 31
  let free := ((List.range s.qpCount).drop 1).any fun q => (s.qp q).state == .free
  { fails :=
      must (decide (home < 48 ∨ home = 0xFF)) 8
      ++ must (mask != 0 && !(bitOf mask 0 && decide (4096 ≤ s.pinned)) && !pers) 9
      ++ must (decide (face ≤ 2)) 10
      ++ must (decide (attr ≤ 1) && (attr == 0 || tenant == 0)) 11
      ++ must bindOk 12
      ++ must (decide (2 ≤ sq ∧ sq ≤ size)) 16
      ++ must (decide (tf < 2 ^ 20)) 20
      ++ must (decide (2 ≤ cq ∧ cq ≤ size)) 28
      ++ rings
      ++ must (bitsOf qn 30 18 == 0 && (if any then free else
          decide (1 ≤ qn ∧ qn < s.qpCount) && (s.qp qn).state == .free)) 56
    absent := noEp || (decide (home < 48) && !Config.enginePresent s.variant home)
    keyFails := if face = 2 then 0 else keyBad.length }

/-- The own check of DELETE_QP and RESET_QP, carried by queue pair `q` (R82). -/
def State.ownTarget (s : State) (q : Nat) (e : Bytes) : Own :=
  let t := leAt e 56 4
  { fails := must (decide (0 < t ∧ t < s.qpCount) && t != q && (s.qp t).state != .free && (s.qp t).state != .draining) 56 }

/-- The device pool: 4 GiB with 48 GiB of HBM, else 2 GiB (R522); it ends where the fatal-state region begins
(log entry 21). -/
def State.poolSize (s : State) : Nat := if Config.hbmBytes s.variant = 48 * 2 ^ 30 then 4 * 2 ^ 30 else 2 * 2 ^ 30

/-- The first address from `at_` where `len` bytes fit before `hi` between allocations. -/
def fitFrom (hi len : Nat) : Nat → Tbl Nat → Option Nat
  | a, [] => if a + len ≤ hi then some a else none
  | a, (b, l) :: t => if a + len ≤ b then some a else fitFrom hi len (b + l) t

/-- Contiguous device memory for `len` bytes (R522): the lowest place that fits (log entry 21). -/
def State.devAlloc (s : State) (len : Nat) : Option Nat :=
  fitFrom s.fatalBase len (s.fatalBase - s.poolSize) s.fct.devPool

/-- The own check of REG_KEY (R521, R522). -/
def State.ownRegKey (s : State) (e : Bytes) : Own :=
  let kind := byteAt e 8
  let acc := byteAt e 9
  let b := leAt e 12 4
  let tf := leAt e 20 4
  let base := leAt e 32 8
  let len := leAt e 40 8
  let noEp := kind == 0 && !Config.endpoint s.variant
  { fails :=
      must ((kind == 0 || kind == 1 || kind == 3) && s.pickKey.isSome) 8
      ++ must (decide (acc < 8) && bitsOf acc 1 0 != 0 && (!bitOf acc 2 || kind == 3)) 9
      ++ must (if kind = 0 then noEp || (decide (b < 64) && s.funcEnabled b)
          else if kind = 1 then decide (b < 2 ^ 16) && (s.odtConn b).state != .closed
            && (s.odtConn b).tenant == tf % 2 ^ 20
          else b == 0) 12
      ++ must (decide (1 ≤ tf ∧ tf < 2 ^ 20)) 20
      ++ must (if kind = 3 then base == 0 else decide (base + len ≤ 2 ^ 64)) 32
      ++ must (if kind = 3 then decide (4096 ≤ len ∧ len ≤ 2 ^ 30 ∧ len % 4096 = 0) && (s.devAlloc len).isSome
          else decide (1 ≤ len ∧ len ≤ 2 ^ 48)) 40
      ++ must (kind == 0 || leAt e 48 8 == 0) 48
    absent := noEp }

/-- A queue pair's ring or an aperture names the key (R523). -/
def State.keyNamed (s : State) (mkey : Nat) : Bool :=
  (s.qpe.qps.any fun x => x.2.state != .free && (x.2.sqMkey == mkey || x.2.cqMkey == mkey))
    || (s.epf.force.any fun a => a.2.data && a.2.mkey == mkey)
    || ((List.range 64).any fun a => s.reg .epfWinKey a == mkey && s.bit .epfWinCfg 30 a)

/-- The own check of DEREG_KEY (R523). -/
def State.ownDeregKey (s : State) (e : Bytes) : Own :=
  let k := leAt e 24 4
  let x := s.keyAt (keyIndex k)
  { fails := must (s.keyBase != 0 && keyIndex k != 0 && bitsOf k 23 20 == 0 && k / 2 ^ 24 != 0 && x.state == 1
      && x.tag == k / 2 ^ 24 && x.kind != 2 && !s.keyNamed k) 24 }

/-- The slots of a 48-bit set, ascending. -/
def slotsOf (m : Nat) : List Nat := (List.range 48).filter fun i => bitOf m i

/-- The drive in slot `sl`. -/
def State.drive (s : State) (sl : Nat) : Drive := tblGet {} s.str.drives sl

/-- R109 apart from the size: format, FUA, and the power-fail atomic unit. -/
def driveFits (d : DriveId) (format1 : Bool) (awu : Nat) : Bool :=
  d.data4096 && d.metaBytes == (if format1 then 0 else 64) && d.fua && decide (awu ≤ d.pfau ∧ 1 ≤ d.pfau)

/-- The own check of CREATE_GROUP (R106, R109, R158). -/
def State.ownCreateGroup (s : State) (e : Bytes) : Own :=
  let kind := byteAt e 9
  let width := byteAt e 10
  let m := byteAt e 11
  let spare := byteAt e 12
  let format := byteAt e 13
  let set := leAt e 40 8
  let slots := slotsOf (set % 2 ^ 48)
  let lim := Config.slots s.variant
  let here := slots.filter fun i => decide (i < lim)
  let n := if kind = 1 then width + m else width
  let w := slots.length
  let wOk := decide (n + spare ≤ w ∧ w ≤ max lim w)
  let d := dataLayers (max n 1) (max w 1)
  let sp := if spare < w then spareLayers spare d w else 0
  let drives := here.all fun i =>
    let x := s.drive i
    x.ready && (s.member i).isNone && !(s.str.creating.any fun c => c.shape.slots.contains i) && driveFits x.id (format == 1) 1 && decide (65536 + 16 * (d + sp) ≤ x.id.blocks)
  { fails :=
      must (decide (byteAt e 8 < 64) && (s.group (byteAt e 8)).isNone
        && !(s.str.creating.any fun c => c.group == byteAt e 8)) 8
      ++ must (decide (kind ≤ 1)) 9
      ++ must (if kind = 1 then decide (2 ≤ width ∧ width ≤ 24) else decide (width = 2 ∨ width = 3)) 10
      ++ must (if kind = 1 then decide (1 ≤ m ∧ m ≤ 4) else m == 0) 11
      ++ must (decide (spare ≤ 2)) 12
      ++ must (decide (format ≤ 1)) 13
      ++ must (decide (byteAt e 14 ≤ 2)) 14
      ++ must (decide (set < 2 ^ 48) && wOk && drives) 40
    absent := (kind == 1 && decide (Config.maxM s.variant < m)) || slots.any fun i => decide (lim ≤ i) }

/-- The own check of DELETE_GROUP (R160). -/
def State.ownDeleteGroup (s : State) (e : Bytes) : Own :=
  let gi := byteAt e 8
  { fails := must ((s.group gi).isSome && !(s.str.volumes.any fun v => v.2.group == gi)) 8 }

/-- Regions that Class 0 volumes hold together (R145). -/
def State.class0Regions (s : State) : Nat :=
  s.str.volumes.foldl (fun a v => a + if v.2.class0 then v.2.ext.length else 0) 0

/-- The own check of CREATE_VOLUME (R159, R721). -/
def State.ownCreateVolume (s : State) (e : Bytes) : Own :=
  let h := eVolume e
  let size := leAt e 8 8
  let fl := byteAt e 41
  let gi := byteAt e 40
  let ext := match s.group gi with | some g => ceilDiv size (max 1 g.rb) | none => 0
  let fits := match s.group gi with | some g => decide (ext ≤ (s.freeRegions gi g).length) | none => true
  { fails :=
      must (h != 0 && (s.volume h).isNone && decide (s.str.volumes.length < 65536)) 4
      ++ must (decide (1 ≤ size ∧ size ≤ 2 ^ 48) && fits) 8
      ++ must (s.group gi).isSome 40
      ++ must (decide (fl < 4) && !(bitOf fl 0 && decide (49152 < s.class0Regions + ext))) 41
      ++ must (decide (leAt e 44 4 < 2 ^ 20)) 44
    absent := bitOf fl 1 && !Config.cipher s.variant }

/-- The own check of DELETE_VOLUME (R160, R395). -/
def State.ownDeleteVolume (s : State) (e : Bytes) : Own :=
  let h := eVolume e
  let on (x : Bytes) : Bool := !isAdmin (eOpcode x) && eVolume x == h
  let busy := (s.qpe.cmds.any fun c => on c.entry) || s.net.egress.any fun u => u.cpl.any fun c => on c.entry
  { fails := must ((s.volume h).isSome && h != 0 && !busy) 4 }

/-- The own check of IDENTIFY_VOLUME (R161). -/
def State.ownIdentifyVolume (s : State) (x : Qp) (e : Bytes) : Own :=
  { fails := must (s.volume (eVolume e)).isSome 4 ++ must (eLen e == 4096) 28 ++ s.adminBuffer x e true
    keyFails := (s.adminBuffer x e true).length }

/-- The own check of IDENTIFY_GROUP (R161). -/
def State.ownIdentifyGroup (s : State) (x : Qp) (e : Bytes) : Own :=
  { fails := must (s.group (byteAt e 8)).isSome 8 ++ must (eLen e == 4096) 28 ++ s.adminBuffer x e true
    keyFails := (s.adminBuffer x e true).length }

/-- R189 can place at least one position of slot `sl` if it enters the list now. -/
def State.canPlace (s : State) (gi sl : Nat) : Bool :=
  match s.group gi with
  | none => false
  | some g =>
    let evac := g.place.evac ++ [sl]
    let ex := g.slots.filter fun x => s.mstate x != .inService && !evac.contains x
    (g.relocate { evac, ex }).taken.any fun t => t.by_ == sl

/-- The drive in a slot meets R109 for adoption into group `g`. -/
def State.adoptable (s : State) (g : Group) (sl : Nat) : Bool :=
  let d := s.drive sl
  d.ready && driveFits d.id g.format1 g.awu && decide (65536 + 16 * g.periods * g.l ≤ d.id.blocks)

/-- The own check of MEMBER_CONTROL (R217, R721). -/
def State.ownMemberControl (s : State) (e : Bytes) : Own :=
  let gi := byteAt e 8
  let act := byteAt e 9
  let sl := byteAt e 10
  let val := byteAt e 11
  let st := s.mstate sl
  let slotOk := match s.group gi with
    | none => true
    | some g =>
      if act = 1 then sl == 0
      else g.slots.contains sl &&
        (match act with
         | 0 => st == .missing && s.canPlace gi sl
         | 2 => (st == .inService || st == .returning || st == .refilling)
            && decide ((if st = .refilling then s.failures gi else s.failures gi + 1) ≤ g.tol)
         | 3 => (st == .missing || st == .rebuilding || st == .evacuated) && s.adoptable g sl
         | _ => true)
  { fails := must (s.group gi).isSome 8 ++ must (decide (act ≤ 3)) 9 ++ must slotOk 10
      ++ must (if act = 1 then decide (val ≤ 2) else val == 0) 11 }

/-- The own check of LIST_BLOCKS (R218). -/
def State.ownListBlocks (s : State) (x : Qp) (e : Bytes) : Own :=
  { fails := must (decide (byteAt e 8 ≤ 1)) 8 ++ s.adminBuffer x e true
      ++ must (decide (32 ≤ eLen e ∧ eLen e ≤ 2097152 ∧ eLen e % 32 = 0)) 28
    keyFails := (s.adminBuffer x e true).length }

/-- The shaper values of a SET_SHAPER entry (R249). -/
def shaperOf (e : Bytes) : Shaper :=
  { cir := leAt e 8 4, pir := leAt e 12 4, cbs := leAt e 16 2, pbs := leAt e 18 2, xferCap := leAt e 44 2,
    c0 := bitOf (byteAt e 46) 0, c0Port := byteAt e 47, c0Group := byteAt e 48 }

/-- Checks of shaper values alone (R246, R249): failing offsets. -/
def State.shaperFails (s : State) (v : Shaper) : List Nat :=
  must (decide (v.cir ≤ v.pir)) 8
    ++ must (decide (v.xferCap ≤ 512)) 44
    ++ must (if v.c0 then (decide (v.c0Port < Config.macs s.variant) || (v.c0Port == 8 && Config.endpoint s.variant))
        else v.c0Port == 0) 47
    ++ must (if v.c0 then (s.group v.c0Group).isSome else v.c0Group == 0) 48

/-- A tenant has a queue pair. -/
def State.tenantHasQp (s : State) (t : Nat) : Bool := s.qpe.qps.any fun e => e.2.tenant == t && e.2.state != .free

/-- Entries written by SET_SHAPER, tenant 0's apart (R250). -/
def State.writtenShapers (s : State) : Nat := (s.cls.shapers.filter fun e => e.2.written && e.1 != 0).length

/-- The values charged for a tenant now. -/
def State.chargedOf (s : State) (t : Nat) : Shaper :=
  match s.shaper t with
  | some e => e.charged
  | none => { c0 := false }

/-- The own check of SET_SHAPER (R233, R249, R250). -/
def State.ownSetShaper (s : State) (e : Bytes) : Own :=
  let v := shaperOf e
  let fl := byteAt e 46
  let dflt := bitOf fl 1
  let rem := bitOf fl 2
  let tf := leAt e 40 4
  let room := match s.shaper tf with
    | some x => x.written || decide (s.writtenShapers < s.qpCount)
    | none => decide (s.writtenShapers < s.qpCount)
  { fails :=
      s.shaperFails v
      ++ must (dflt || rem || !v.c0 || s.chargeFits (s.chargedOf tf) v) 8
      ++ must (if dflt then tf == 0 else decide (1 ≤ tf ∧ tf < 2 ^ 20)
          && (if rem then (s.shaper tf).isSome && !s.tenantHasQp tf else room)) 40
      ++ must (decide (fl < 8) && !(dflt && (v.c0 || rem))) 46 }

/-- Sub-ports of a MAC in its MODE (R259). -/
def State.subports (s : State) (mac : Nat) : Nat :=
  match s.field .netPort 1 0 mac with
  | 0 => 0 | 1 => 1 | 2 => 2 | _ => 4

/-- A MAC that is present. -/
def State.macPresent (s : State) (mac : Nat) : Bool := decide (mac < Config.macs s.variant)

/-- MAC and sub-port fields of bytes 8 and 9 (R272): failing offsets, and absence (R11). -/
def State.macSub (s : State) (e : Bytes) : Own :=
  let m := byteAt e 8
  { fails := must (decide (m < 8)) 8 ++ must (!s.macPresent m || decide (byteAt e 9 < s.subports m)) 9
    absent := decide (m < 8) && !s.macPresent m }

/-- The addresses of sub-port (m, u). -/
def State.subAddr (s : State) (m u : Nat) : SubAddr := tblGet {} s.net.addr (4 * m + u)

/-- An IP address in network byte order: 4 bytes or 16 (R272). -/
def ipOf (e : Bytes) (family : Nat) : Nat := if family = 4 then beAt e 40 4 else beAt e 40 16

/-- The own check of SET_ADDRESS (R272). An address is used by the connections and allow entries of its family while it is the
only one of that family on the sub-port (DESIGN CHOICE; log entry 103). -/
def State.ownSetAddress (s : State) (e : Bytes) : Own :=
  let o := s.macSub e
  let kind := byteAt e 10
  let idx := byteAt e 11
  let pfx := byteAt e 12
  let clr := byteAt e 13
  let key := 4 * byteAt e 8 + byteAt e 9
  let here : SubAddr := tblGet {} s.net.addr key
  let six := kind == 2 || kind == 4
  let ip := ipOf e (if six then 6 else 4)
  let width := if kind = 0 then 6 else if six then 16 else 4
  let elsewhere := s.net.addr.any fun x => x.1 != key &&
    ((if six then x.2.v6 else x.2.v4).any fun a => a.2.addr == ip)
  let used := (s.net.odt.any fun c => c.2.state != .closed && 4 * c.2.mac + c.2.sub == key
      && c.2.family == (if six then 6 else 4))
    || (s.net.allow.any fun a => 4 * a.2.mac + a.2.sub == key && a.2.family == (if six then 6 else 4))
  let last := (if six then here.v6 else here.v4).length ≤ 1
  { o with fails := o.fails
      ++ must (decide (kind ≤ 4)) 10
      ++ must (if kind = 1 ∨ kind = 2 then decide (idx ≤ 3) else idx == 0) 11
      ++ must (if kind = 1 then decide (1 ≤ pfx ∧ pfx ≤ 32) else if kind = 2 then decide (1 ≤ pfx ∧ pfx ≤ 128)
          else pfx == 0) 12
      ++ must (decide (clr ≤ 1)) 13
      ++ must (((List.range 16).drop width).all (fun i => byteAt e (40 + i) == 0)
          && !(kind == 0 && clr == 0 && bitOf (byteAt e 40) 0)
          && !(clr == 0 && (kind == 1 || kind == 2) && elsewhere)
          && !(clr == 1 && (kind == 1 || kind == 2) && used && last)) 40 }

/-- The own check of ROCE_ALLOW (R277). -/
def State.ownRoceAllow (s : State) (e : Bytes) : Own :=
  let o := s.macSub e
  let idx := leAt e 12 2
  let tf := leAt e 20 4
  let named := s.qpe.qps.any fun x => x.2.state != .free && (match x.2.face with
    | .roce a _ => a == idx | _ => false)
  { o with fails := o.fails
      ++ must (byteAt e 10 == 4 || byteAt e 10 == 6) 10
      ++ must (decide (byteAt e 11 < 8)) 11
      ++ must (decide (idx < 16384)) 12
      ++ must (decide (byteAt e 14 ≤ 1) && !(byteAt e 14 == 1 && named)) (if byteAt e 14 ≤ 1 then 12 else 14)
      ++ must (decide (1 ≤ tf ∧ tf < 2 ^ 20)) 20
      ++ must (byteAt e 10 != 4 || ((List.range 12).all fun i => byteAt e (44 + i) == 0)) 40 }

/-- ODT connections of the table (R304, NET_CAP). -/
def State.odtCount (s : State) : Nat := 2 ^ (match s.variant with | .kn4896 => 16 | .kn4864 => 15 | .kn4848 => 14)

/-- A sub-port's MTU (R306). -/
def State.mtu (s : State) (mac : Nat) : Nat := s.field .netMtu 13 0 mac

/-- The own check of ODT_CONNECT (R304, R721). -/
def State.ownOdtConnect (s : State) (e : Bytes) : Own :=
  let o := s.macSub e
  let fam := byteAt e 10
  let seg := byteAt e 11
  let rport := leAt e 12 2
  let win := leAt e 14 2
  let tf := leAt e 20 4
  let cred := leAt e 24 4
  let cn := leAt e 56 4
  let ip := ipOf e fam
  let twin := s.net.odt.any fun c => c.2.state != .closed && c.2.raddr == ip && c.2.rport == rport
    && c.2.mac == byteAt e 8 && c.2.sub == byteAt e 9
  let full := decide (s.odtCount ≤ (s.net.odt.filter fun c => c.2.state != .closed).length)
  { o with fails := o.fails
      ++ must (fam == 4 || fam == 6) 10
      ++ must (decide (seg ≤ 3) && decide (1024 * 2 ^ seg + 88 ≤ s.mtu (byteAt e 8))) 11
      ++ must (rport != 0 && !twin) 12
      ++ must (decide (1 ≤ win ∧ win ≤ 256)) 14
      ++ must (decide (1 ≤ tf ∧ tf < 2 ^ 20)) 20
      ++ must (decide (1 ≤ cred ∧ cred ≤ 0x7FFFFFFF)) 24
      ++ must (fam != 4 || ((List.range 12).all fun i => byteAt e (44 + i) == 0)) 40
      ++ must (bitsOf cn 30 16 == 0 && !full && (bitOf cn 31 ||
          (decide (cn < s.odtCount) && (s.odtConn cn).state == .closed))) 56 }

/-- A queue pair is bound to ODT connection `c`. -/
def State.odtBound (s : State) (c : Nat) : Bool :=
  s.qpe.qps.any fun e => e.2.state != .free && e.2.face == .odt c

/-- The own check of ODT_CLOSE (R304). -/
def State.ownOdtClose (s : State) (e : Bytes) : Own :=
  let cn := leAt e 56 4
  { fails := must (decide (cn < s.odtCount) && (s.odtConn cn).state != .closed && !s.odtBound cn) 56 }

/-- The own check of LOAD_KEK (R392): a loaded KEK under which a key in use is wrapped is not replaced. -/
def State.ownLoadKek (s : State) (x : Qp) (e : Bytes) : Own :=
  let k := byteAt e 8
  { fails :=
      must (decide (k < 16) && !((tblFind s.cph.keks k).isSome && s.cph.slots.any fun t => t.2.kek == k)) 8
      ++ must (eLen e == 96) 28 ++ s.adminBuffer x e false
    absent := !Config.cipher s.variant }

/-- The own check of LOAD_KEY (R393). What only a cipher unit could meet is not asked of a variant without one
(R720). -/
def State.ownLoadKey (s : State) (x : Qp) (e : Bytes) : Own :=
  let none_ := !Config.cipher s.variant
  let v := tblFind s.str.volumes (eVolume e)
  let g := v.bind fun v => tblFind s.str.groups v.group
  let walking := (tblFind s.cph.walks (eVolume e)).isSome
  { fails :=
      must ((v.any fun v => v.keyed || none_) && !walking && decide (s.cph.slots.length < 16384)) 4
      ++ must (decide (byteAt e 8 < 16) && (none_ || (tblFind s.cph.keks (byteAt e 8)).isSome)) 8
      ++ must (decide (1 ≤ leAt e 12 4 ∧ leAt e 12 4 ≤ 0x7FFFFFFF)) 12
      ++ must (match g with | some g => eLen e == (if g.format1 then 72 else 40) | none => true) 28
      ++ s.adminBuffer x e false
    absent := none_ }

/-! ### Extensions (R448 to R453), firmware (R674, R675), reset (R655), fatal images (R694) -/

/-- The own check of SET_SIGNER (R450): the key's signature is checked once the buffer is there. -/
def State.ownSetSigner (s : State) (x : Qp) (e : Bytes) : Own :=
  let slot := byteAt e 8
  let act := byteAt e 9
  let here := (tblFind s.fct.signers slot).isSome
  let noBuf := [must (eMkey e == 0) 24, must (eLen e == 0) 28, must (eAddr e == 0) 32].flatten
  { fails :=
      must (decide (slot < 4) && !(act == 0 && here)
        && !(act == 1 && here && s.fct.signers.length == 1 && !s.fct.images.isEmpty)) 8
      ++ must (decide (act ≤ 1)) 9
      ++ (if act = 0 then
          must ((eLen e == 97 && s.fct.signers.isEmpty) || eLen e == 193) 28 ++ s.adminBuffer x e false
        else noBuf)
    keyFails := if act = 0 then (s.adminBuffer x e false).length else 0 }

/-- The own check of LOAD_EXT before its image is there (R451). -/
def State.ownLoadExt (s : State) (x : Qp) (e : Bytes) : Own :=
  { fails :=
      must (decide (byteAt e 8 < 64) && (tblFind s.fct.images (byteAt e 8)).isNone) 8
      ++ must (decide (260 ≤ eLen e ∧ eLen e ≤ 256 + 2 * 1048576)) 28 ++ s.adminBuffer x e false
    keyFails := (s.adminBuffer x e false).length }

/-- A KIND that R439 allows for a hook. -/
def hookKind (hook kind : Nat) : Bool :=
  match hook with
  | 0 | 1 => decide (kind ≤ 1)
  | 2 => kind == 0
  | _ => kind == 2

/-- The target of an attachment is owned by the tenant, and R440 allows it (R452). -/
def State.hookTarget (s : State) (hook kind tenant target : Nat) : Bool :=
  match kind with
  | 0 => target == tenant
  | 1 =>
    let q := s.qp target
    decide (target < s.qpCount) && q.state != .free && q.tenant == tenant && !(hook == 0 && bitOf q.mask 0)
  | _ =>
    let c := s.odtConn target
    decide (target < 2 ^ 16) && c.state != .closed && c.tenant == tenant
      && !(s.qpe.qps.any fun q => q.2.state != .free && q.2.face == .odt target && bitOf q.2.mask 0)

/-- The own check of ATTACH_HOOK (R440, R441, R452, R721). -/
def State.ownAttachHook (s : State) (e : Bytes) : Own :=
  let img := (tblFind s.fct.images (byteAt e 8)).getD []
  let hook := byteAt e 9
  let kind := byteAt e 10
  let tf := leAt e 20 4
  let target := leAt e 56 4
  let per := leAt e 16 4
  let taken := s.fct.atts.any fun a => a.2.hook == hook && a.2.kind == kind && a.2.target == target
  { fails :=
      must (tblFind s.fct.images (byteAt e 8)).isSome 8
      ++ must (hook == byteAt img 10 && decide (hook < 4)) 9
      ++ must (hookKind hook kind) 10
      ++ must (if hook = 0 then decide (byteAt e 11 ≤ 1) else byteAt e 11 == 0) 11
      ++ must (decide (64 ≤ leAt e 12 4 ∧ leAt e 12 4 ≤ leAt img 28 4)) 12
      ++ must (if hook = 2 then decide (1 ≤ per ∧ per ≤ 1000) else per == 0) 16
      ++ must (decide (1 ≤ tf ∧ tf < 2 ^ 20)) 20
      ++ must (decide (target < 2 ^ 20) && s.hookTarget hook kind tf target && !taken
        && decide (s.fct.atts.length < 4096)) 56 }

/-- The own check of DETACH_HOOK (R453): an attachment, not already being detached. -/
def State.ownDetachHook (s : State) (e : Bytes) : Own :=
  { fails := must (match tblFind s.fct.atts (leAt e 56 4) with
      | some a => a.detach.isNone
      | none => false) 56 }

/-- The own check of UNLOAD_EXT (R453). -/
def State.ownUnloadExt (s : State) (e : Bytes) : Own :=
  let i := byteAt e 8
  { fails := must ((tblFind s.fct.images i).isSome && !(s.fct.atts.any fun a => a.2.image == i)) 8 }

/-- The own check of RESET_CONTROLLER (R655). -/
def State.ownReset (s : State) (e : Bytes) : Own :=
  { fails := must (leAt e 8 2 == 0x0B07 && s.shd.role != .takingOver && s.sys.fatal.isNone) 8 }

/-- A buffer of whole 4,096-byte pages, at most 2 MiB (R674, R694). -/
def pageLen (n : Nat) : Bool := decide (4096 ≤ n ∧ n ≤ 2097152 ∧ n % 4096 = 0)

/-- The own check of FW_DOWNLOAD (R674). -/
def State.ownDownload (s : State) (x : Qp) (e : Bytes) : Own :=
  let off := leAt e 40 4
  { fails :=
      must (decide (byteAt e 8 ≤ 1) && byteAt e 8 != s.sys.running) 8
      ++ s.adminBuffer x e false
      ++ must (pageLen (eLen e) && decide (off + eLen e ≤ 15 * 2 ^ 20)) 28
      ++ must (off % 4096 == 0) 40
    keyFails := (s.adminBuffer x e false).length }

/-- The own check of GET_FATAL (R694). -/
def State.ownGetFatal (s : State) (x : Qp) (e : Bytes) : Own :=
  let src := byteAt e 8
  let off := leAt e 40 4
  let base := s.fatalBase + (if src = 1 then 2 ^ 27 else 0)
  { fails :=
      must ((src == 0 && s.bit .sysFatal 31) || (src == 1 && s.bit .sysFatal 30)) 8
      ++ must (decide (byteAt e 9 ≤ 1)) 9
      ++ s.adminBuffer x e true
      ++ must (pageLen (eLen e)) 28
      ++ must (off % 4096 == 0 && decide (off < s.mem.readLe (base + 48) 4)) 40
    keyFails := (s.adminBuffer x e true).length }

/-- The own check of SLOT_CONTROL (R600, R601). -/
def State.ownSlotControl (s : State) (e : Bytes) : Own :=
  let sl := byteAt e 8
  let act := byteAt e 9
  let absent := decide (sl < 48 ∧ Config.slots s.variant ≤ sl)
  let st := (tblGet ({} : Slot) s.spm.slots sl).state
  let m := s.mstate sl
  let ok := match act with
    | 1 => !(m == .inService || m == .returning || m == .refilling)
    | 2 => st == .latched
    | 3 => st == .quarantined
    | _ => true
  { fails := must (decide (sl < 48)) 8 ++ must (decide (act ≤ 3) && (absent || ok)) 9
    absent }

/-- A HITLESS activation of an image may begin (R675). -/
def State.hitlessOk (s : State) (img : Bytes) : Bool :=
  stateAbi img == stateAbi (s.slotImage s.sys.running) && (s.shd.role == .active || s.shd.role == .solo)
    && s.sys.activation.isNone && s.sys.fatal.isNone

/-- The own check of FW_ACTIVATE (R675, R678). The peer's slot holds the same bytes (log entry 65). -/
def State.ownActivate (s : State) (e : Bytes) : Own :=
  let slot := byteAt e 8
  let act := byteAt e 9
  let img := s.slotImage slot
  { fails :=
      must (decide (slot ≤ 1) && s.imageErr img == 0 && s.sys.activation.isNone && (act != 0 || s.hitlessOk img)) 8
      ++ must (decide (act ≤ 1)) 9 }

end Sys2Proof.Machine
end

