-- ==== Sys2Proof/Machine/Intake.lean ====
section
/-! DEFINITION. Intake: the checks of an entry in order, taking it as a command, its class, the policer, inline
doorbells and ring fetches (R58 to R62, R72 to R76, R226 to R248, R439, R440, R720, R721). -/

namespace Sys2Proof.Machine

/-- The admin opcodes of the chapters (R60). -/
def adminOpcodes : List Nat :=
  [0x40, 0x41, 0x42, 0x43, 0x44, 0x45, 0x46, 0x47, 0x48, 0x49, 0x4A, 0x4B, 0x4C, 0x4D, 0x4E, 0x4F, 0x50, 0x51, 0x52,
   0x53, 0x54, 0x56, 0x58, 0x59, 0x5B, 0x5C, 0x5D, 0x5E, 0x5F, 0x60]

/-- The own check of an admin command carried by queue pair `q` (R720). -/
def State.ownOf (s : State) (q : Nat) (e : Bytes) : Own :=
  let x := s.qp q
  match eOpcode e with
  | 0x40 => s.ownReset e
  | 0x41 => s.ownCreateQp e
  | 0x42 => s.ownTarget q e
  | 0x43 => s.ownTarget q e
  | 0x44 => s.ownRegKey e
  | 0x45 => s.ownDeregKey e
  | 0x46 => s.ownDownload x e
  | 0x47 => s.ownActivate e
  | 0x48 => s.ownCreateGroup e
  | 0x49 => s.ownDeleteGroup e
  | 0x4A => s.ownCreateVolume e
  | 0x4B => s.ownDeleteVolume e
  | 0x4C => s.ownIdentifyVolume x e
  | 0x4D => s.ownIdentifyGroup x e
  | 0x4E => s.ownMemberControl e
  | 0x4F => s.ownListBlocks x e
  | 0x50 => s.ownSetShaper e
  | 0x51 => s.ownOdtConnect e
  | 0x52 => s.ownOdtClose e
  | 0x53 => s.ownRoceAllow e
  | 0x54 => s.ownSetAddress e
  | 0x58 => s.ownLoadKek x e
  | 0x56 => s.ownSlotControl e
  | 0x59 => s.ownLoadKey x e
  | 0x5B => s.ownSetSigner x e
  | 0x5C => s.ownLoadExt x e
  | 0x5D => s.ownAttachHook e
  | 0x5E => s.ownDetachHook e
  | 0x5F => s.ownUnloadExt e
  | 0x60 => s.ownGetFatal x e
  | _ => {}

/-- What the checks of R61 say: a status with its INFO, and the key checks that failed. -/
structure Verdict where
  fail : Option (Nat × Nat) := none
  keyFails : Nat := 0
deriving DecidableEq, Repr

/-- The checks of R61 in order; `dup` says that the CID is in use (step 8). -/
def State.entryCheck (s : State) (q : Nat) (e : Bytes) (dup : Bool) : Verdict :=
  let x := s.qp q
  let op := eOpcode e
  let io := ioOpcodes.contains op
  let bad (i : Nat) : Option (Nat × Nat) := some (stInvalidField, i)
  let last : Option (Nat × Nat) := if dup then bad 2 else none
  if !((io && !x.admin) || (adminOpcodes.contains op && x.admin)) then { fail := bad 0 }
  else
    match lowest (reservedFails e (if io then ioBytes op else adminBytes op)) with
    | some i => { fail := bad i }
    | none =>
      if io then
        if eTenant e ≠ x.tenant then { fail := bad 20 }
        else
          match s.ioCheck x e with
          | (some f, k) => { fail := some f, keyFails := b2n k }
          | (none, _) => { fail := last }
      else
        let o := s.ownOf q e
        match lowest o.fails with
        | some i => { fail := bad i, keyFails := o.keyFails }
        | none => if o.absent then { fail := some (stUnitAbsent, 0) } else { fail := last }

/-! ### Class (R226 to R229) -/

/-- The lowest class of a mask that is at least `h`. -/
def lowestClass (mask h : Nat) : Option Nat := (List.range 8).find? fun c => decide (h ≤ c) && bitOf mask c

/-- The highest class of a mask. -/
def highestClass (mask : Nat) : Nat := ((List.range 8).reverse.find? fun c => bitOf mask c).getD 1

/-- The values of a tenant's entry in force (R240, R250). -/
def State.shaperVal (s : State) (tenant : Nat) : Shaper :=
  match s.shaper tenant with
  | some e => e.val
  | none => { s.cls.dflt with c0 := false }

/-- A command is eligible for Class 0 (R228). -/
def State.c0Eligible (s : State) (q : Nat) (e : Bytes) : Bool :=
  let x := s.qp q
  let v := s.shaperVal x.tenant
  bitOf x.mask 0 && v.c0 && s.facePoint x.face == v.c0Port && (match s.volume (eVolume e) with
    | some vol => vol.class0 && vol.group == v.c0Group
    | none => false)

/-- The class before any hook (R227). -/
def State.classOf (s : State) (q : Nat) (e : Bytes) : Nat :=
  let op := eOpcode e
  let mask := (s.qp q).mask
  if op = opAbort ∨ op = opFlush ∨ isAdmin op then 1
  else
    let c := (lowestClass mask (eHint e)).getD (highestClass mask)
    if c = 0 ∧ !s.c0Eligible q e then (lowestClass mask 1).getD 1 else c

/-! ### Readiness and the policer (R239 to R244) -/

/-- Behind a FLUSH barrier (R85, R86): a FLUSH of its queue pair taken before it has not been posted. ABORT and FLUSH
pass. -/
def State.barred (s : State) (c : Cmd) : Bool :=
  let op := eOpcode c.entry
  op != opAbort && op != opFlush
    && s.qpe.cmds.any fun d => d.qp == c.qp && decide (d.seq < c.seq) && eOpcode d.entry == opFlush
      && !(d.phase == .finished && d.result != some (stSuccess, 0))

/-- Commands waiting in the CLS that may be dispatched now (R85, R236): policed, free of hooks and barriers, on an
ACTIVE queue pair. -/
def State.readyCmds (s : State) (cluster : Nat) : List Cmd :=
  s.qpe.cmds.filter fun c => c.phase == .taken && !c.held && c.hook.isNone && c.order != 0
    && clusterOf (s.qp c.qp).home == cluster && (s.qp c.qp).state == .active && !s.barred c

/-- A command among others in the order in which they became ready. -/
def insertReady (c : Cmd) : List Cmd → List Cmd
  | [] => [c]
  | d :: ds => if c.order < d.order then c :: d :: ds else d :: insertReady c ds

/-- Keep the flows of a cluster's dispatch point: one per queue pair and class, in the order they became ready (R235,
R237). -/
def State.syncDispatch (s : State) (cluster : Nat) : State :=
  let p : Point := s.cls.dispatch.getD cluster {}
  let ready := ((s.readyCmds cluster).filter fun c => c.cls != 0).foldl (fun cs c => insertReady c cs) []
  let live := (ready.map fun c => (c.cls, c.qp)).eraseDups
  { s with cls := { s.cls with dispatch := setAt s.cls.dispatch cluster (p.sync live) } }

/-- Keep the flows of every dispatch point. -/
def State.syncAll (s : State) : State := (List.range 4).foldl (fun s c => s.syncDispatch c) s

/-- A command becomes ready for dispatch. -/
def State.makeReady (s : State) (seq : Nat) : State :=
  let n := s.qpe.nextReady + 1
  let s : State := { s with qpe := { s.qpe with nextReady := n } }
  s.updCmd seq fun c => { c with order := n, held := false }

/-- The state with a tenant's shaper entry replaced. -/
def State.setShaperEntry (s : State) (tenant : Nat) (e : ShaperEntry) : State :=
  { s with cls := { s.cls with shapers := tblIns s.cls.shapers tenant e } }

/-- Colour a command of class `c` (R241): its colour, and the buckets after it. -/
def colourOf (e : ShaperEntry) (c : Nat) : Colour × ShaperEntry :=
  let one := 1000000
  if e.p < one then (.red, e)
  else if e.val.c0 ∧ c ≠ 0 then (.green, { e with p := e.p - one })
  else if one ≤ e.c then (.green, { e with c := e.c - one, p := e.p - one })
  else (.yellow, { e with p := e.p - one })

/-- Count in a CLS counter, and in the tenant's own values (R258, R439): `i` is the counter's place. -/
def State.clsCount (s : State) (r : Reg) (tenant i : Nat) : State :=
  let s := s.count r
  match s.shaper tenant with
  | some e => s.setShaperEntry tenant { e with counts := setAt e.counts i (satAdd32 (e.counts.getD i 0) 1) }
  | none => s

/-- The tenant of a command. -/
def State.tenantOf (s : State) (seq : Nat) : Nat :=
  match s.cmd seq with
  | some c => (s.qp c.qp).tenant
  | none => 0

/-- The outcome of a colour other than red (R241): counted, and yellow runs one class lower. -/
def State.applyColour (s : State) (seq : Nat) (col : Colour) : State :=
  let s := if col = .green then s.clsCount .clsGreen (s.tenantOf seq) 0 else s.clsCount .clsYellow (s.tenantOf seq) 1
  let s := s.updCmd seq fun c => if col = .yellow then { c with cls := min 7 (c.cls + 1) } else c
  s.makeReady seq

/-- Hold a command (R241, R242): it counts once in CLS_RED. -/
def State.holdCmd (s : State) (seq : Nat) : State :=
  (s.updCmd seq fun c => { c with held := true, wasHeld := true }).clsCount .clsRed (s.tenantOf seq) 2

/-- Police a command once its class is fixed (R239 to R242). -/
def State.police (s : State) (seq : Nat) : State :=
  match s.cmd seq with
  | none => s
  | some c =>
    let x := s.qp c.qp
    let op := eOpcode c.entry
    match s.shaper x.tenant with
    | none => s.makeReady seq
    | some e =>
      if op = opAbort ∨ op = opFlush ∨ isAdmin op ∨ x.tenant = 0 then s.makeReady seq
      else if !(s.heldOf c.qp).isEmpty then s.holdCmd seq
      else
        match colourOf e c.cls with
        | (.red, _) => s.holdCmd seq
        | (col, e') => (s.setShaperEntry x.tenant e').applyColour seq col

/-- The hook attached for queue pair `q`, unless it is SUSPENDED (R446): `some none` when it is suspended. -/
def State.hookState (s : State) (h q : Nat) : Option (Option Nat) :=
  (s.hookOf h q).map fun a => if a.2.suspended then none else some a.1

/-- Fix the class of a command (R227) and police it. -/
def State.classify (s : State) (seq : Nat) : State :=
  match s.cmd seq with
  | none => s
  | some c =>
    let k := s.classOf c.qp c.entry
    let s := s.updCmd seq fun c => { c with cls := k }
    let op := eOpcode c.entry
    if k = 0 ∨ op = opAbort ∨ op = opFlush ∨ isAdmin op then s.police seq
    else
      match s.hookState 1 c.qp with
      | none => s.police seq
      | some none => (s.clsCount .clsHookBad (s.tenantOf seq) 4).police seq
      | some (some a) =>
        let x := s.qp c.qp
        s.callHook a { c with cls := k } 1
          (c.entry.take 64 ++ toLe c.qp 4 ++ toLe x.mask 1 ++ toLe k 1)

/-- The result of CLASS_ASSIGN (R227): `none` where the invocation failed. -/
def State.classResult (s : State) (seq : Nat) (r : Option Nat) : State :=
  match s.cmd seq with
  | none => s
  | some c =>
    let mask := (s.qp c.qp).mask
    let s := s.updCmd seq fun c => { c with hook := none }
    match r with
    | some k =>
      if 1 ≤ k ∧ k < 8 ∧ bitOf mask k then (s.updCmd seq fun c => { c with cls := k }).police seq
      else (s.clsCount .clsHookBad (s.tenantOf seq) 4).police seq
    | none => (s.clsCount .clsHookBad (s.tenantOf seq) 4).police seq

/-! ### Taking an entry -/

/-- A command rejected under R61, or by ADMISSION (R440): Finished at once. -/
def State.reject (s : State) (seq status info : Nat) : State := s.finishCore seq status info

/-- The checks of R61 on a taken command, then ADMISSION (R439, R440), then its class. -/
def State.enter (s : State) (seq : Nat) : State :=
  match s.cmd seq with
  | none => s
  | some c =>
    let dup := s.qpe.cmds.any fun d => d.qp == c.qp && d.cid == c.cid && d.seq != seq
    let v := s.entryCheck c.qp c.entry dup
    let s := if v.keyFails = 0 then s else s.count .mmuKeyFail v.keyFails
    match v.fail with
    | some (st, info) =>
      let k := s.keyAt (keyIndex (eMkey c.entry))
      let s := if k.kind = 2 then s.updCmd seq fun c => { c with keyHeld := true } else s
      s.reject seq st info
    | none =>
      let op := eOpcode c.entry
      let s := if op = opRead ∨ op = opWrite then
          (s.holdKey (eMkey c.entry)).updCmd seq fun c => { c with keyHeld := true }
        else s
      match s.hookState 0 c.qp with
      | none => s.classify seq
      | some none =>
        match s.hookOf 0 c.qp with
        | some (_, a) => if a.failAction = 0 then s.classify seq else s.reject seq stInvalidField 0
        | none => s.classify seq
      | some (some a) => s.callHook a c 0 (c.entry.take 64 ++ toLe c.qp 4 ++ toLe (s.qp c.qp).tenant 4)

/-- The result of ADMISSION (R439): accept, or reject with an INFO; a failed invocation takes FAIL_ACTION. -/
def State.admissionResult (s : State) (seq : Nat) (failAction : Nat) (r : Option (Nat × Nat)) : State :=
  let s := s.updCmd seq fun c => { c with hook := none }
  match r with
  | some (0, _) => s.classify seq
  | some (_, info) => s.reject seq stInvalidField info
  | none => if failAction = 0 then s.classify seq else s.reject seq stInvalidField 0

/-- The capsule that carried an entry now taken can be acknowledged with its TAKEN record, where it was accepted without
being taken (R556). -/
def State.ackTaken (s : State) (f : Face) (psn : Nat) (r : Option Nat) : State :=
  match f with
  | .roce a qid =>
    match (s.roceOf a qid).bind fun k => (tblFind s.net.roce k).map fun c => (k, c) with
    | some (k, c) =>
      if c.untaken.contains psn then
        let c := { c with untaken := c.untaken.erase psn }
        match r with
        | some n => s.setRoce k { c with acks := c.acks ++ [(psn, n)] }
        | none => (s.setRoce k c).roceFrame c.mac c.sub 0 (.roceAck k psn 0)
      else s
    | none => s
  | _ => s

/-- Take the entry of a slot as a command (R58, R75, R76): a completion slot is reserved, the TAKEN record leaves
(R556), and PERSONALITY translates it first where one is attached (R439). An entry that a
TAKEN record held at a takeover is not taken again (R569). -/
def State.take (s : State) (q slot : Nat) (entry : Bytes) (src : Nat) : State :=
  let x := s.qp q
  let seq := s.qpe.nextSeq
  if s.shd.skip.contains (q, slot, entry) then
    let s := s.setQp q { x with head := (slot + 1) % x.sqSize }
    { s with shd := { s.shd with skip := s.shd.skip.erase (q, slot, entry) } }
  else
  let s := s.setQp q { x with reserved := x.reserved + 1, head := (slot + 1) % x.sqSize }
  let (s, r) := s.logRec (.taken q slot entry src)
  let s := s.ackTaken x.face src r
  let pers := match x.face with | .odt _ => s.hookState 3 q | _ => none
  let c : Cmd := { qp := q, cid := eCid entry, entry, seq, slot, src, takenRec := r,
                   raw := if pers.isSome then some entry else none }
  let s : State := { s with qpe := { s.qpe with nextSeq := seq + 1, cmds := s.qpe.cmds ++ [c] } }
  match pers with
  | none => s.enter seq
  | some none => s.reject seq stInvalidField 0
  | some (some a) => s.callHook a c 3 (entry ++ [0#8])

/-- The translated entry of PERSONALITY (R439, R440): it passes through R61; a failure completes INVALID_FIELD. -/
def State.personalityResult (s : State) (seq : Nat) (r : Option Bytes) : State :=
  let s := s.updCmd seq fun c => { c with hook := none }
  match r with
  | some e => (s.updCmd seq fun c => { c with entry := e, cid := eCid e }).enter seq
  | none => s.reject seq stInvalidField 0

/-- Commands of a queue pair that are held, or that wait for a hook before the policer and may be held after it (R242,
R244). -/
def State.mayHold (s : State) (q : Nat) : Nat :=
  let tenant := (s.qp q).tenant
  ((s.cmdsOf q).filter fun c => c.held || (tenant != 0 && c.phase == .taken && c.hook.isSome)).length

/-- Take accepted inline entries that nothing is ahead of (R75, R77, R244), at most `n`. -/
def State.takeInline : Nat → Nat → State → State
  | 0, _, s => s
  | n + 1, q, s =>
    let x := s.qp q
    match x.inl.find? fun e => e.1 == x.head with
    | none => s
    | some (slot, entry, src) =>
      if x.state = .active ∧ x.fetch.isNone ∧ 0 < x.freeSlots ∧ s.mayHold q < 4 ∧ x.head ≠ x.tail then
        let s := s.setQp q { x with inl := x.inl.filter fun e => e.1 != slot }
        State.takeInline n q (s.take q slot entry src)
      else s

/-- Take what can be taken, and let follow what follows. -/
def State.pump (s : State) (q : Nat) : State :=
  ((s.takeInline (s.qp q).inl.length q).settle).syncAll

/-- After any step that ends commands or frees slots: every queue pair with inline entries waiting, then the
dispatch points. -/
def State.flow (s : State) : State :=
  let s := s.settle
  let s := (s.qpe.qps.filter fun e => !e.2.inl.isEmpty).foldl (fun s e => s.takeInline e.2.inl.length e.1) s
  s.settle.syncAll

/-- An inline doorbell with new tail `t'` (R72, R74, R244). The result, and whether its entry was taken and held. -/
def State.inlineDb (s : State) (q t' : Nat) (entry : Bytes) (src : Nat) : State × DbResult × Bool :=
  let x := s.qp q
  if s.noQp q then (s.count .qpeDbFree, .invalid, false)
  else
  let s := s.useContext q
  if x.state = .error then (s.count .qpeDbBad, .invalid, false)
  else if ¬ (t' = (x.tail + 1) % x.sqSize ∧ ringCount x.head x.tail x.sqSize < x.sqSize - 1) then
    (s.badDoorbell, .invalid, false)
  else if 4 ≤ (s.heldOf q).length then (s.clsCount .clsInlRefused x.tenant 3, .refused, false)
  else
    let seq := s.qpe.nextSeq
    let slot := x.tail
    let s := s.setQp q { x with tail := t', inl := x.inl ++ [(slot, entry, src)] }
    let s := s.pump q
    let held := s.qpe.cmds.any fun c => c.qp == q && c.slot == slot && decide (seq ≤ c.seq) && c.held
    (s, .applied, held)

/-! ### Ring fetches (R53, R57, R75, R243) -/

/-- Slots that one read may take now (R57, R58, R75): at most 4, to the ring end, up to the tail, with a free
completion slot each, and none that arrived inline; never so many that more than 4 commands could be held (R242). -/
def State.fetchCount (s : State) (q : Nat) : Nat :=
  let x := s.qp q
  let n := min (min (4 - s.mayHold q) (ringCount x.head x.tail x.sqSize)) (min (x.sqSize - x.head) x.freeSlots)
  match (List.range n).find? fun i => x.inl.any fun e => e.1 == x.head + i with
  | some i => i
  | none => n

/-- A command's descriptor, or a ring fetch or completion write, met a function through which nothing may be sent
(R333, R724): EPF_MD_END counts, MASTER_LOST is set, the command before its issue point ends MASTER_DISABLED, and
every queue pair of the function enters ERROR. -/
def State.masterDisabled (s : State) (f : Nat) (seq : Option Nat) : State :=
  let s := s.count .epfMdEnd
  let s := s.setFunc f { s.epFunc f with masterLost := true }
  let s := match seq.bind fun n => s.cmd n with
    | some c => if c.past then s else s.endEarly c.seq stMasterDisabled
    | none => s
  let bound := (s.qpe.qps.filter fun e => match e.2.face with | .endpoint g _ => g == f | _ => false).map (·.1)
  (bound.foldl (fun s q => s.qpError q) s).flow

end Sys2Proof.Machine
end

