-- ==== Sys2Proof/Machine/Qp.lean ====
section
/-! DEFINITION. Queue pairs and the CLS: ring fetches, dispatch, egress, FLUSH, ABORT, the admin commands for queue
pairs and shapers, the policer's refill and the inspection captures (02, 05). -/

namespace Sys2Proof.Machine

/-- A register write whose owning island is ON takes its effect; one whose island is not ON never reaches it (R37). -/
def State.whenOn (s : State) (island : Nat) (f : State → State) : State := if s.readsOn island then f s else s

/-- Carry out an admin command on its thread: its own checks hold at the moment of its effect too (R720; log entry
22). -/
def State.adminRun (s : State) (q cid op : Nat) (f : State → Cmd → State) : State :=
  match s.carried q cid op with
  | none => s
  | some c =>
    if c.waiting then s
    else
      let o := s.ownOf q c.entry
      match lowest o.fails with
      | some i => (s.finish c.seq stInvalidField i).flow
      | none => if o.absent then (s.finish c.seq stUnitAbsent 0).flow else f s c

/-- The command is past its issue point (R89). -/
def State.markPast (s : State) (seq : Nat) : State :=
  s.updCmd seq fun c => { c with past := true, phase := if c.phase = .dispatched then .issued else c.phase }

/-- The command waits for an event its own rule names. -/
def State.markWaiting (s : State) (seq : Nat) : State := s.updCmd seq fun c => { c with waiting := true }

/-- The end of a step of a Class 0 command: its reserved thread is free again (R231). -/
def State.endStep (s : State) (c : Cmd) : State :=
  if c.cls = 0 then
    { s with cls := { s.cls with busy := s.cls.busy.filter fun b => !(some (b.1, b.2.1) == c.thread) } }
  else s

/-! ### Ring fetches -/

/-- ENTRY_FETCH (R57, R58, R75, R243): one read of up to 4 slots. -/
def State.entryFetch (s : State) (q : Nat) : State :=
  let x := s.qp q
  let n := s.fetchCount q
  let roce := match x.face with | .roce _ _ => true | _ => false
  if ¬ (s.isOn 160 ∧ x.state = .active ∧ x.fetch.isNone ∧ 0 < n ∧ !s.fetchHeld q ∧ !roce) then s
  else
    let s := s.useContext q
    let a := x.sqAddr + 64 * x.head
    if !s.keyOk x.sqMkey false a (64 * n) then ((s.count .mmuKeyFail).qpError q).flow
    else
      let s := (s.setQp q { x with fetch := some (x.head, n), fetchSegs := [] }).emit (.ringRead q x.head n)
      let k := s.keyAt (keyIndex x.sqMkey)
      match k.kind with
      | 0 =>
        let f := k.binding % 64
        if s.funcSends f then s.epRead f (k.target + (a - k.base)) (64 * n) fun o => .fetch q o
        else s.masterDisabled f none
      | 1 =>
        let c := k.binding % 2 ^ 16
        let y := s.odtConn c
        let ask : OdtAsk := { seq := 0, qp := q, slots := some (x.head, n) }
        (s.setOdt c { y with asks := y.asks ++ [ask] }).odtCtl c q 0 (.fetchReq x.head n) x.baseClass
      | _ => s.updQp q fun x => { x with fetchSegs := [(0, s.mem.readN (s.devAddr x.sqMkey a) (64 * n))] }

/-- The entries of a returned ring read, in slot order. -/
def State.takeSlots (s : State) (q slot : Nat) (b : Bytes) : Nat → State
  | 0 => s
  | n + 1 =>
    let s := s.take q slot (b.take 64) 0
    State.takeSlots s q ((slot + 1) % (s.qp q).sqSize) (b.drop 64) n

/-- ENTRY_FETCH_DONE (R75, R76): the entries of the returned read are taken as commands. -/
def State.entryFetchDone (s : State) (q : Nat) : State :=
  let x := s.qp q
  match x.state, x.fetch with
  | .active, some (slot, n) =>
    match gather (64 * n) x.fetchSegs with
    | none => s
    | some b =>
      let s := s.useContext q
      let s := s.setQp q { x with fetch := none, fetchSegs := [] }
      (s.takeSlots q slot b n).pump q
  | _, _ => s

def execEntryFetch (qp : Nat) (s : State) : Outcome := .next (s.entryFetch qp)
def execEntryFetchDone (qp : Nat) (s : State) : Outcome := .next (s.entryFetchDone qp)

/-! ### FLUSH and ABORT -/

/-- FLUSH (R85): it waits for every command taken before it on its queue pair. -/
def State.flush (s : State) (q cid : Nat) : State :=
  match s.carried q cid opFlush with
  | none => s
  | some c => ((s.markWaiting c.seq).endStep c).flow

/-- ABORT (R88 to R91). -/
def State.abort (s : State) (q cid : Nat) : State :=
  match s.carried q cid opAbort with
  | none => s
  | some a =>
    if a.waiting then s
    else
      match s.findCmd q (leAt a.entry 40 2) with
      | none => (s.finish a.seq stAbortTooLate 1).flow
      | some t =>
        let op := eOpcode t.entry
        if op = opFlush ∨ op = opAbort then (s.finish a.seq stAbortTooLate 2).flow
        else if t.noIssue ∧ !t.past ∧ (t.ready.isNone ∨ t.raw.isNone) then
          let s := s.updCmd a.seq fun c => { c with waiting := true, todo := [t.seq] }
          ((s.endUnissued t stAbortedRequest).settle).flow
        else if t.phase = .finished ∧ t.result = some (stAbortedRequest, 0) then (s.finish a.seq stAbortTooLate 1).flow
        else if t.past ∨ t.phase = .finished then (s.finish a.seq stAbortTooLate 0).flow
        else
          let s := s.updCmd a.seq fun c => { c with waiting := true, todo := [t.seq] }
          (s.endEarly t.seq stAbortedRequest).flow

def execFlush (qp cid : Nat) (s : State) : Outcome := .next (s.flush qp cid)
def execAbort (qp cid : Nat) (s : State) : Outcome := .next (s.abort qp cid)

/-! ### Admin commands for queue pairs -/

/-- Queue pairs with engine `e` as home. -/
def State.homed (s : State) (e : Nat) : Nat := (s.qpe.qps.filter fun x => x.2.state != .free && x.2.home == e).length

/-- The engine chosen for HOME_ENGINE 0xFF (R81): the present one with the fewest queue pairs, lowest first (log entry
23). -/
def State.pickHome (s : State) : Nat :=
  let es := (List.range 48).filter fun e => Config.enginePresent s.variant e
  es.foldl (fun b e => if s.homed e < s.homed b then e else b) 0

/-- The number chosen for QPN ANY (R81): the lowest free one (log entry 23). -/
def State.pickQpn (s : State) : Nat := (((List.range s.qpCount).drop 1).find? fun q => (s.qp q).state == .free).getD 1

/-- A full shaper entry with values `v` (R240, R250). -/
def newShaperEntry (v : Shaper) : ShaperEntry :=
  { val := v, c := bucketFull v.cir v.cbs, p := bucketFull v.pir v.pbs }

/-- The queue pair a CREATE_QP entry asks for (R52, R55, R81, R278, R330). -/
def State.qpOfEntry (s : State) (e : Bytes) : Qp :=
  let b := leAt e 12 4
  { state := .active
    tenant := leAt e 20 4 % 2 ^ 20
    face := match byteAt e 10 with
      | 0 => .endpoint (b % 64) (bitsOf b 26 16)
      | 1 => .odt (b % 2 ^ 16)
      | _ => .roce (b % 2 ^ 14) (b / 2 ^ 16)
    home := if byteAt e 8 = 0xFF then s.pickHome else byteAt e 8
    mask := byteAt e 9
    admin := bitOf (byteAt e 11) 0
    sqSize := leAt e 16 4
    cqSize := leAt e 28 4
    sqMkey := leAt e 24 4
    cqMkey := leAt e 40 4
    sqAddr := leAt e 32 8
    cqAddr := leAt e 48 8 }

/-- Queue pair `q` comes into existence (R52, R54, R78, R250): a pinned context enters the cache, and a tenant without
a shaper entry takes the default values. -/
def State.createQp (s : State) (q : Nat) (x : Qp) : State :=
  let s := s.setQp q x
  let s := if bitOf x.mask 0 then
      let misses := s.reg .qpeCtxMiss
      (s.useContext q).setReg .qpeCtxMiss misses
    else s
  let s := match s.shaper x.tenant with
    | some _ => s
    | none => s.setShaperEntry x.tenant (newShaperEntry { s.cls.dflt with c0 := false, c0Port := 0, c0Group := 0 })
  s.touch

def execCreateQp (qp cid : Nat) (s : State) : Outcome :=
  .next (s.adminRun qp cid 0x41 fun s c =>
    let n := leAt c.entry 56 4
    let q := if bitOf n 31 then s.pickQpn else n
    (((s.markPast c.seq).createQp q (s.qpOfEntry c.entry)).finish c.seq stSuccess q).flow)

/-- DELETE_QP and RESET_QP (R82, R93, R94): the target drains; the command completes after it. -/
def State.resetCommand (s : State) (c : Cmd) (k : DrainKind) : State :=
  (((s.markPast c.seq).markWaiting c.seq).resetReach (leAt c.entry 56 4) k).flow

def execDeleteQp (qp cid : Nat) (s : State) : Outcome :=
  .next (s.adminRun qp cid 0x42 fun s c => s.resetCommand c (.deleteQp c.seq))

def execResetQp (qp cid : Nat) (s : State) : Outcome :=
  .next (s.adminRun qp cid 0x43 fun s c => s.resetCommand c (.resetQp c.seq))

/-- The capture of QPE_INSP_SEL (R100 to R103). -/
def State.inspect (s : State) (q : Nat) : State :=
  let x := s.qp q
  let beyond := decide (s.qpCount ≤ q)
  let st := if beyond then 0 else
    min 0xFFFF (s.cmdsOf q).length * 2 ^ 16 + x.home * 2 ^ 8 + b2n x.admin * 2 ^ 6
      + b2n (x.state != .free && s.fetchHeld q) * 2 ^ 5 + b2n (s.qpe.cache.contains q) * 2 ^ 4
      + b2n (bitOf x.mask 0) * 2 ^ 3 + x.state.code
  let s := s.setReg .qpeInspState (st + 2 ^ 7)
  let s := s.setReg .qpeInspSq (if beyond then 0 else x.tail * 2 ^ 16 + x.head)
  s.setReg .qpeInspCq (if beyond then 0 else x.post * 2 ^ 16 + x.cqHead)

def execQpeInspSel (v : Word) (s : State) : Outcome :=
  .next (s.whenOn 160 fun s => (s.setReg .qpeInspSel (v.toNat % 2 ^ 18)).inspect (v.toNat % 2 ^ 18))

/-! ### Shapers and the policer -/

/-- A shaper entry after `k` refills, one or more (R240, R247): a pending change comes into force at the first. -/
def ShaperEntry.refill (e : ShaperEntry) (k : Nat) : ShaperEntry :=
  let v := e.pending.getD e.val
  { e with
    val := v
    pending := none
    c := if v.cir = 0 ∨ v.cbs = 0 then 0 else min (e.c + k * v.cir) (v.cbs * 1000000)
    p := if v.pir = 0 ∨ v.pbs = 0 then 0 else min (e.p + k * v.pir) (v.pbs * 1000000) }

/-- A tenant's entry after `k` refills. One that REMOVE has given up goes; a tenant that has taken a queue pair since has
the entry that its CREATE_QP would have made (R249, R250; log entry 104). -/
def State.refillEntry (s : State) (k : Nat) (e : Nat × ShaperEntry) : Option (Nat × ShaperEntry) :=
  if !e.2.remove then some (e.1, e.2.refill k)
  else if s.tenantHasQp e.1 then some (e.1, newShaperEntry s.cls.dflt)
  else none

/-- The held commands of a tenant in the order of R242: queue pairs ascending from where the last re-test stopped,
wrapping round, and slot order within one. -/
def State.heldOrder (s : State) (tenant : Nat) (e : ShaperEntry) : List Cmd :=
  let qs := (s.qpe.qps.filter fun x => x.2.tenant == tenant && !(s.heldOf x.1).isEmpty).map (·.1)
  let at_ := e.stopAt.getD 0
  ((qs.filter fun q => decide (at_ ≤ q)) ++ (qs.filter fun q => decide (q < at_))).flatMap fun q => s.heldOf q

/-- Re-test held commands until one stays red (R242). -/
def State.retest (s : State) (tenant : Nat) : List Cmd → State
  | [] => match s.shaper tenant with
    | some e => s.setShaperEntry tenant { e with stopAt := none }
    | none => s
  | c :: cs =>
    match s.shaper tenant with
    | none => s
    | some e =>
      match colourOf e c.cls with
      | (.red, _) => s.setShaperEntry tenant { e with stopAt := some c.qp }
      | (col, e') => State.retest ((s.setShaperEntry tenant e').applyColour c.seq col) tenant cs

/-- SET_SHAPER commands that wait for this refill complete (R247). -/
def State.finishShapers (s : State) : State :=
  (s.qpe.cmds.filter fun c => c.waiting && eOpcode c.entry == 0x50 && c.phase != .finished).foldl
    (fun s c => s.finishCore c.seq stSuccess 0) s

/-- Cycles until Gnomon time reaches `target`, in units of 2^-32 ns, at the present rate. -/
def Gnomon.cyclesTo (g : Gnomon) (target : Nat) : Nat := ceilDiv (target - g.time) (gnmInc g.rate)

/-- Gnomon time reaches `ns`, where it is running; the rate changes at most once on the way (R640, R644). -/
def State.advanceGnm (s : State) (ns : Nat) : State :=
  if s.readsOn 164 then
    let a := s.advance (s.gnm.cyclesTo (ns * 2 ^ 32))
    a.advance (a.gnm.cyclesTo (ns * 2 ^ 32))
  else s

/-- `k` refills, between which nothing but the buckets changes: the tokens are added, the held commands re-tested after the
last, and the SET_SHAPER commands that waited complete (R240, R242, R247). -/
def State.refills (s : State) (k : Nat) : State :=
  let s : State := { s with
    cls := { s.cls with
      refilled := s.cls.refilled + k
      shapers := s.cls.shapers.filterMap (s.refillEntry k) } }
  let s := s.cls.shapers.foldl (fun s e => s.retest e.1 (s.heldOrder e.1 e.2)) s
  s.finishShapers.flow

/-- Refills up to the next that can change more than the buckets of an entry: the next itself where a change waits for it,
else the first that gives a tenant with held commands a whole command. -/
def State.refillStride (s : State) : Nat :=
  let one (e : Nat × ShaperEntry) : Nat :=
    if e.2.pending.isSome || e.2.remove then 1
    else if (s.heldOrder e.1 e.2).isEmpty || e.2.val.pir == 0 || e.2.val.pbs == 0 then 2 ^ 64
    else max 1 (ceilDiv (1000000 - e.2.p) e.2.val.pir)
  let waits := s.qpe.cmds.any fun c => c.waiting && eOpcode c.entry == 0x50 && c.phase != .finished
  s.cls.shapers.foldl (fun n e => min n (one e)) (if waits then 1 else 2 ^ 64)

/-- The refills of `left` microseconds, in order. -/
def State.refillAll : Nat → Nat → State → State
  | 0, _, s => s
  | n + 1, left, s =>
    if left = 0 then s
    else
      let k := min left s.refillStride
      State.refillAll n (left - k) (s.refills k)

/-- POLICER_REFILL (R240, R242, R247): the next whole microsecond of Gnomon time, after those that passed since the last
refill. -/
def State.policerRefill (s : State) : State :=
  let s := s.advanceGnm ((s.cls.refilled + 1) * 1000)
  let left := s.gnmNs / 1000 - s.cls.refilled
  s.refillAll left left

def execPolicerRefill (s : State) : Outcome := .next (s.whenOn 161 State.policerRefill)

/-- A tenant's entry is to take new values at the next refill (R247, R249): the charges change now. An entry made here has
full buckets, and the default values until then (log entry 104). -/
def State.applyShaper (s : State) (tenant : Nat) (v : Shaper) : State :=
  let e : ShaperEntry := match s.shaper tenant with
    | some e => { e with pending := some v, written := true, remove := false }
    | none => { newShaperEntry v with val := s.shaperVal tenant, pending := some v, written := true }
  ((s.setShaperEntry tenant e).cfgPut 0x09 tenant (some (.shaper v))).touch

/-- The default values are set (R250). -/
def State.setDefaults (s : State) (v : Shaper) : State :=
  (({ s with cls := { s.cls with dflt := v } } : State).cfgPut 0x09 0xFFFFFFFF (some (.shaper v))).touch

/-- A tenant's entry is to go at the next refill; its charges go now (R247, R249). -/
def State.removeShaper (s : State) (tenant : Nat) : State :=
  let s := match s.shaper tenant with
    | some e => s.setShaperEntry tenant { e with
        pending := some { e.charged with c0 := false, c0Port := 0, c0Group := 0 }, written := false, remove := true }
    | none => s
  (s.cfgPut 0x09 tenant none).touch

def execSetShaper (qp cid : Nat) (s : State) : Outcome :=
  .next (s.adminRun qp cid 0x50 fun s c =>
    let v := shaperOf c.entry
    let t := leAt c.entry 40 4
    let fl := byteAt c.entry 46
    let s := (s.markPast c.seq).markWaiting c.seq
    if bitOf fl 1 then s.setDefaults v
    else if bitOf fl 2 then s.removeShaper t
    else s.applyShaper t v)

/-- The staged values of CLS_SHP_CIR, PIR, BURST and CFG (R255). -/
def State.stagedShaper (s : State) : Shaper :=
  let b := s.reg .clsShpBurst
  let g := s.reg .clsShpCfg
  { cir := s.reg .clsShpCir, pir := s.reg .clsShpPir, cbs := bitsOf b 31 16, pbs := bitsOf b 15 0,
    xferCap := bitsOf g 9 0, c0 := bitOf g 13, c0Port := bitsOf g 17 14, c0Group := bitsOf g 23 18 }

/-- COMMIT of CLS_SHP_CFG (R233, R249, R255). -/
def State.shaperCommit (s : State) (w : Nat) : State :=
  let s := s.setReg .clsShpCfg (w % 2 ^ 24 - bitsOf w 12 10 * 2 ^ 10)
  let v := s.stagedShaper
  let sel := s.reg .clsShpSel
  let dflt := bitOf sel 31
  let t := bitsOf sel 19 0
  let room := match s.shaper t with
    | some x => x.written || decide (s.writtenShapers < s.qpCount)
    | none => decide (s.writtenShapers < s.qpCount)
  let ok := (s.shaperFails v).isEmpty
    && (if dflt then !v.c0 else t != 0 && room && (!v.c0 || s.chargeFits (s.chargedOf t) v))
  if !ok then s.setField .clsShpState 30 30 1
  else
    let s := s.setField .clsShpState 30 30 0
    if dflt then s.setDefaults v else s.applyShaper t v

def execShaperCommit (v : Word) (s : State) : Outcome :=
  .next (s.whenOn 161 fun s => s.shaperCommit v.toNat)

/-- The capture of CLS_SHP_SEL (R254, R256). -/
def State.shaperCapture (s : State) (w : Nat) : State :=
  let s := s.setReg .clsShpSel (bitsOf w 31 31 * 2 ^ 31 + w % 2 ^ 20)
  let t := w % 2 ^ 20
  let dflt := bitOf w 31
  let e := if dflt then none else s.shaper t
  let v := match e with | some e => e.val | none => s.cls.dflt
  let held := ((s.qpe.cmds.filter fun c => c.held && (s.qp c.qp).tenant == t)).length
  let (h, cw, pw) := match e with
    | some e => (min 7 held, min 0x1FFF (e.c / 1000000), min 0x1FFF (e.p / 1000000))
    | none => (0, 0, 0)
  let s := s.setReg .clsShpCir v.cir
  let s := s.setReg .clsShpPir v.pir
  let s := s.setReg .clsShpBurst (v.cbs * 2 ^ 16 + v.pbs)
  let s := s.setReg .clsShpCfg (v.c0Group * 2 ^ 18 + v.c0Port * 2 ^ 14 + b2n v.c0 * 2 ^ 13 + v.xferCap)
  let err := s.field .clsShpState 30 30
  s.setReg .clsShpState (2 ^ 31 + err * 2 ^ 30 + b2n (dflt || e.isSome) * 2 ^ 29 + h * 2 ^ 26 + cw * 2 ^ 13 + pw)

def execClsShpSel (v : Word) (s : State) : Outcome := .next (s.whenOn 161 fun s => s.shaperCapture v.toNat)

/-- The input page of TENANT_POLICY (R503): the values of the entry, then green, yellow and red since the last
invocation. -/
def policyInput (v : Shaper) (counts : List Nat) : Bytes :=
  toLe v.cir 4 ++ toLe v.pir 4 ++ toLe v.cbs 2 ++ toLe v.pbs 2 ++ toLe v.xferCap 2 ++ zeros 2
    ++ (counts.take 3).flatMap fun n => toLe n 8

/-- The engine on which a TENANT_POLICY invocation of a tenant runs (R444). -/
def State.policyEngine (s : State) (tenant : Nat) : Nat :=
  match s.qpe.qps.find? fun e => e.2.tenant == tenant && e.2.state != .free with
  | some e => e.2.home
  | none =>
    let es := (List.range 48).filter fun e => Config.enginePresent s.variant e
    es.getD (tenant % es.length) 0

/-- TENANT_POLICY_PERIOD (R439, R444): the invocation of attachment `att` is due. -/
def State.policyPeriod (s : State) (att : Nat) : State :=
  match tblFind s.fct.atts att with
  | none => s
  | some a =>
    if a.hook ≠ 2 ∨ a.detach.isSome then s
    else
      let s := s.advanceTo a.due
      let t := a.target
      let e := s.shaper t
      let v := match e with | some e => e.val | none => s.cls.dflt
      let counts := match e with | some e => e.counts | none => [0, 0, 0, 0, 0, 0]
      let s := match e with
        | some e => s.setShaperEntry t { e with counts := [0, 0, 0, 0, 0, 0] }
        | none => s
      let inv : Invocation := { att, engine := s.policyEngine t, cmd := none, input := policyInput v counts }
      { s with fct := { s.fct with
          atts := tblIns s.fct.atts att { a with due := a.due + a.period * msec }
          invs := if a.suspended then s.fct.invs else s.fct.invs ++ [inv] } }

def execTenantPolicyPeriod (att : Nat) (s : State) : Outcome := .next (s.policyPeriod att)

/-- The result of TENANT_POLICY (R440): checked as by SET_SHAPER; for a tenant with C0 set CIR cannot change. `false`
where a check fails. -/
def State.policyResult (s : State) (tenant : Nat) (out : Bytes) : State × Bool :=
  let old := s.shaperVal tenant
  let v : Shaper := { old with
    cir := leAt out 0 4, pir := leAt out 4 4, cbs := leAt out 8 2, pbs := leAt out 10 2,
    xferCap := leAt out 12 2 }
  let room := match s.shaper tenant with
    | some x => x.written || decide (s.writtenShapers < s.qpCount)
    | none => decide (s.writtenShapers < s.qpCount)
  if (s.shaperFails v).isEmpty && room && !(old.c0 && v.cir != old.cir) then (s.applyShaper tenant v, true)
  else (s, false)

/-! ### Dispatch -/

/-- A free thread of engine `e` among `ts`; its island is ON (R230, R236). -/
def State.freeThread (s : State) (e : Nat) (ts : List Nat) : Option Nat :=
  if s.isOn (96 + e) then ts.find? fun t => !(s.cls.busy.any fun b => b.1 == e && b.2.1 == t) else none

/-- Give a command to a thread (R236). -/
def State.dispatchTo (s : State) (c : Cmd) (e t : Nat) : State :=
  let s := s.updCmd c.seq fun c => { c with phase := .dispatched, thread := some (e, t) }
  { s with cls := { s.cls with busy := s.cls.busy ++ [(e, t, c.qp, c.cid)] } }

/-- The first ready command of a flow, in the order they became ready. -/
def firstReady (cs : List Cmd) : Option Cmd :=
  cs.foldl (fun b c => match b with | none => some c | some d => if c.order < d.order then some c else b) none

/-- A reserved thread for a Class 0 command: its home engine's, else the lowest-numbered engine of the cluster that
has one (R236). -/
def State.reservedThread (s : State) (home : Nat) : Option (Nat × Nat) :=
  match s.freeThread home [14, 15] with
  | some t => some (home, t)
  | none => ((List.range 12).map (· + 12 * clusterOf home)).findSome? fun e =>
      (s.freeThread e [14, 15]).map fun t => (e, t)

/-- A step of a command can run: a Class 0 command is on its reserved thread still, or another of the cluster is free for it;
the step then begins and ends on that thread within the row (R231; log entry 105). -/
def State.stepThread (s : State) (c : Cmd) : Bool :=
  c.cls != 0 || (s.cls.busy.any fun b => some (b.1, b.2.1) == c.thread && b.2.2 == (c.qp, c.cid))
    || (s.reservedThread (s.qp c.qp).home).isSome

/-- DISPATCH (R236, R237): one serving opportunity of a cluster's dispatch point. -/
def State.dispatch (s : State) (cluster : Nat) : State :=
  if s.clusterStalled cluster ∨ !s.readsOn 161 then s
  else
  let s := s.syncDispatch cluster
  let cs := s.readyCmds cluster
  match firstReady (cs.filter fun c => c.cls == 0) with
  | some c =>
    match s.reservedThread (s.qp c.qp).home with
    | some (e, t) => (s.dispatchTo c e t).clsCount .clsC0Dispatch (s.qp c.qp).tenant 5
    | none => s
  | none =>
    let p : Point := s.cls.dispatch.getD cluster {}
    let can (f : Flow) : Bool := (s.freeThread (s.qp f.qp).home (List.range 12)).isSome
    match p.pick can with
    | (none, p) => { s with cls := { s.cls with dispatch := setAt s.cls.dispatch cluster p } }
    | (some (f, turn), p) =>
      let mine := cs.filter fun c => c.cls == f.cls && c.qp == f.qp
      match firstReady mine, s.freeThread (s.qp f.qp).home (List.range 12) with
      | some c, some t =>
        let p := p.served f turn (mine.length == 1) (s.quantum f.cls)
        let s : State := { s with cls := { s.cls with dispatch := setAt s.cls.dispatch cluster p } }
        s.dispatchTo c (s.qp c.qp).home t
      | _, _ => s

/-! ### Egress -/

/-- A response unit can leave now (R237): its priority is not paused and its connection has the credit it needs, or
its function may send. -/
def State.egressCan (s : State) (u : EgUnit) : Bool :=
  match u.what with
  | .odt k _ _ msg =>
    let c := s.odtConn k
    s.serves && !s.paused c.mac (s.priOf u.cls) && c.creditFor msg.cells
  | .roce k _ =>
    match tblFind s.net.roce k with
    | some c => s.serves && !s.paused c.mac (s.priOf u.cls)
    | none => true
  | .tlp f _ _ _ => s.funcSends f
  | .msix f v => s.funcSends f && s.vectorOpen f v

/-- A response unit leaves. -/
def State.egressSend (s : State) (u : EgUnit) : State :=
  match u.what with
  | .odt k q fl msg => s.odtEmit k u.cls q fl msg
  | .roce k r => s.roceSend k r
  | .tlp f a _ b => s.emit (.tlpWrite f a b)
  | .msix f v => s.emit (.msix f v)

/-- EGRESS_SERVE (R235 to R238): one serving opportunity of an egress point. -/
def State.egressServe (s : State) (pt : Nat) : State :=
  if !s.readsOn 161 then s
  else
  let s := s.syncEgress pt
  let units := s.net.egress.filter fun u => u.point == pt && !(u.held && s.laneHolds pt)
  let drop (u : EgUnit) (s : State) : State :=
    { s with net := { s.net with egress := rmFirst (fun x => x == u) s.net.egress } }
  match units.find? fun u => u.cls == 0 with
  | some u => if s.egressCan u then (drop u s).egressSend u else s
  | none =>
    let p : Point := tblGet {} s.cls.egress pt
    let head (f : Flow) : Option EgUnit := units.find? fun u => u.cls == f.cls
    let can (f : Flow) : Bool := match head f with | some u => s.egressCan u | none => false
    match p.pick can with
    | (none, p) => { s with cls := { s.cls with egress := tblIns s.cls.egress pt p } }
    | (some (f, turn), p) =>
      match head f with
      | none => s
      | some u =>
        let last := (units.filter fun x => x.cls == f.cls).length == 1
        let p := p.served f turn last (s.quantum f.cls) (if u.more then 0 else 1)
        let s : State := { s with cls := { s.cls with egress := tblIns s.cls.egress pt p } }
        (drop u s).egressSend u

def execEgressServe (point : Nat) (s : State) : Outcome :=
  .next (if point < 10 then s.egressServe point else s)

/-! ### Reach (R564) -/

/-- Enabled sub-ports of the controller with link. -/
def State.linksUp (s : State) : Nat :=
  ((List.range 32).filter fun k => decide (k / 4 < Config.macs s.variant) && s.bit .netPort (12 + k % 4) (k / 4)
    && tblGet false s.net.link k).length

/-- Slots with members whose drive the controller reaches. -/
def State.slotsReached (s : State) : Nat :=
  (s.str.members.filter fun e => e.2.state != .none && (s.drive e.1).linkUp && (s.drive e.1).ready).length

/-- A condition of R564 begins, goes on or ends now. -/
def sinceNow (now : Nat) (bad : Bool) (was : Option Nat) : Option Nat :=
  if bad then (match was with | some t => some t | none => some now) else none

/-- The reach conditions of the active's self-check follow the links (R564). -/
def State.reach (s : State) : State :=
  let active := s.shd.role == .active
  { s with shd := { s.shd with
      netBad := sinceNow s.now (active && decide (s.linksUp < s.shd.peerNet)) s.shd.netBad
      driveBad := sinceNow s.now (active && decide (s.slotsReached < s.shd.peerReach)) s.shd.driveBad } }

/-- A drive or network reach change to report (R574, R625). -/
def State.reachChange (s : State) : State := (s.raise 20).reach

end Sys2Proof.Machine
end

