-- ==== Sys2Proof/Machine/Cipher.lean ====
section
/-! DEFINITION. Key slots, generations, and the lanes' transforms of blocks (R379 to R411). -/

namespace Sys2Proof.Machine

/-! ### Key slots (R393 to R399) -/

/-- Key slot `i`. -/
def State.keySlot (s : State) (i : Nat) : Option KeySlot := tblFind s.cph.slots i

/-- The state with key slot `i` replaced. -/
def State.setKeySlot (s : State) (i : Nat) (k : KeySlot) : State :=
  { s with cph := { s.cph with slots := tblIns s.cph.slots i k } }

/-- The key slot of a volume and phase. -/
def State.slotOf (s : State) (vol phase : Nat) : Option (Nat × KeySlot) :=
  s.cph.slots.find? fun e => e.2.volume == vol && e.2.phase == phase

/-- The KEK of the blob addressed to this controller in the buffer of LOAD_KEK: none where neither serial is its own,
and no key where the unwrap fails (R387, R388, R392). -/
def kekOf (b : Bytes) : Option (Option Bytes) :=
  let blob (i : Nat) : Bytes := (b.drop (48 * i + 8)).take 40
  if leAt b 0 8 = Config.serial then some (Crypto.unwrap Config.deviceKey (blob 0))
  else if leAt b 48 8 = Config.serial then some (Crypto.unwrap Config.deviceKey (blob 1))
  else none

/-- The phase that new writes of a volume take (R400). -/
def State.volPhase (s : State) (vol : Nat) : Nat := tblGet 0 s.cph.phase vol

/-- A key has been installed for a volume (R394). -/
def State.keyInstalled (s : State) (vol : Nat) : Bool := s.cph.slots.any fun e => e.2.volume == vol

/-- The configuration record of a key slot (R663). -/
def KeySlot.record (k : KeySlot) (mark : Nat) : CfgVal := .tenantKey k.volume k.phase k.wrapped k.limit mark

/-- Raise MARK where little is left below it (R397): it comes into force once written and acknowledged. -/
def State.raiseMark (s : State) (i : Nat) : State :=
  match s.keySlot i with
  | none => s
  | some k =>
    let m := min (k.mark + 4194304) 0x7FFFFFFF
    if k.markNext.isNone ∧ k.mark - k.count < 2097152 ∧ k.mark < m then
      ((s.setKeySlot i { k with markNext := some m, markCopy := none }).cfgPut 0x05 i (some (k.record m))).touch
    else s

/-- A raised MARK comes into force (R397): its record has been written, and the shadow, if paired, has acknowledged it
with FLASH. -/
def State.markCheck (s : State) (i : Nat) : State :=
  match s.keySlot i with
  | none => s
  | some k =>
    let acked := !s.paired || (match k.markCopy with
      | some c => decide (c ≤ s.shd.flashAcked)
      | none => false)
    match k.markNext with
    | some m => if s.cfgWaits 0x05 i || !acked then s
        else s.setKeySlot i { k with mark := m, markNext := none, markCopy := none }
    | none => s

/-- What taking a generation came to (R396). -/
inductive GenResult where
  | ok | exhausted | wait
deriving DecidableEq, Repr

/-- Take the next generation of a key slot (R396, R397, R399); `limited` says whether LIMIT refuses (R402). -/
def State.takeGen (s : State) (i : Nat) (limited : Bool) : State × GenResult :=
  match s.keySlot i with
  | none => (s, .wait)
  | some k =>
    let n := k.count + 1
    if limited ∧ k.limit < n then (s, .exhausted)
    else if k.mark < n ∨ 0x7FFFFFFF < n then (s.raiseMark i, .wait)
    else
      let warn := !k.warned && decide (7 * k.limit ≤ 8 * n)
      let s := s.setKeySlot i { k with count := n, warned := k.warned || warn }
      let s := if warn then s.event .cph else s
      ((s.raiseMark i).touch, .ok)

/-! ### The transforms (R382 to R386) -/

/-- WGEN of a phase and generation (R384). -/
def wgenOf (phase gen : Nat) : Nat := phase * 2 ^ 31 + gen

/-- The IV of R382. -/
def gcmIv (vlba wgen : Nat) : Bytes := Crypto.toBe (vlba % 2 ^ 48) 6 ++ Crypto.toBe wgen 4 ++ zeros 2

/-- The AAD of R382. -/
def gcmAad (vol vlba wgen : Nat) : Bytes :=
  Crypto.toBe vol 3 ++ zeros 1 ++ Crypto.toBe vlba 8 ++ Crypto.toBe wgen 4

/-- A stored block of FORMAT 0 under GCM (R382, R385). -/
def sealGcm (key : Bytes) (vol vlba wgen : Nat) (pt : Bytes) : Bytes :=
  let iv := gcmIv vlba wgen
  let ct := Crypto.gcmData key iv pt
  ct ++ blockMeta (Crypto.gcmTag key iv (gcmAad vol vlba wgen) ct) wgen (crc32c ct) vol vlba

/-- A stored block of an unkeyed volume (R120, R384). -/
def sealPlain (format1 : Bool) (vol vlba : Nat) (pt : Bytes) : Bytes :=
  if format1 then pt else pt ++ blockMeta [] 0 (crc32c pt) vol vlba

/-- The stripe of a volume's group lies ahead of its rekey walk's cursor, or at it (R402): region index in ascending
order, then the stripe. -/
def aheadOf (v : Volume) (g : Group) (w : Walk) (stripe : Nat) : Bool :=
  let rs := v.ext.mergeSort (· ≤ ·)
  let i := (rs.findIdx? (· == g.regionOf stripe)).getD 0
  decide (w.region < i ∨ (w.region = i ∧ w.stripe ≤ stripe % g.t))

/-- The key slot that encrypts and decrypts XTS blocks of a stripe (R383, R402). -/
def State.xtsSlot (s : State) (vol : Nat) (v : Volume) (g : Group) (stripe : Nat) : Option (Nat × KeySlot) :=
  match tblFind s.cph.walks vol with
  | some w =>
    let i := if aheadOf v g w stripe then w.old else w.new
    (s.keySlot i).map fun k => (i, k)
  | none => s.slotOf vol (s.volPhase vol)

/-- The stored block of a written block of a volume (R382 to R386). -/
def State.sealBlock (s : State) (vol : Nat) (v : Volume) (g : Group) (gen : Option (Nat × Nat)) (stripe vlba : Nat)
    (pt : Bytes) : Bytes :=
  if !v.keyed then sealPlain g.format1 vol vlba pt
  else if g.format1 then
    match s.xtsSlot vol v g stripe with
    | some (_, k) => Crypto.xtsEnc k.key vlba pt
    | none => pt
  else
    match gen.bind fun x => (s.keySlot x.1).map fun k => (k, x.2) with
    | some (k, n) => sealGcm k.key vol vlba (wgenOf k.phase n) pt
    | none => sealPlain false vol vlba pt

/-- The data of a stored block and whether its tag matched (R121, R383 to R385, R409). -/
def State.openBlock (s : State) (vol : Nat) (v : Volume) (g : Group) (stripe vlba : Nat) (b : Bytes) : Bytes × Bool :=
  let data := b.take 4096
  if isZeroBlock g.format1 b then (zeros 4096, true)
  else if !v.keyed then (data, true)
  else if g.format1 then
    match s.xtsSlot vol v g stripe with
    | some (_, k) => (Crypto.xtsDec k.key vlba data, true)
    | none => (data, true)
  else
    let wgen := leAt b (4096 + 16) 4
    match s.slotOf vol (wgen / 2 ^ 31) with
    | some (_, k) =>
      let iv := gcmIv vlba wgen
      (Crypto.gcmData k.key iv data, Crypto.gcmTag k.key iv (gcmAad vol vlba wgen) data == (b.drop 4096).take 16)
    | none => (data, false)

/-! ### Staging of data apertures (R410, R411) -/

/-- The staging key in force. -/
def State.stageKey (s : State) : Option Bytes := s.cph.stage.map Config.stagingKey

/-- Decrypt one staged 16-byte unit of controller memory at physical address `a` (R410). -/
def unstageUnit (key : Bytes) (a : Nat) (b : Bytes) : Bytes := Crypto.xtsDec key (a / 16) b

/-- Encrypt one 16-byte unit (R410). -/
def stageUnit (key : Bytes) (a : Nat) (b : Bytes) : Bytes := Crypto.xtsEnc key (a / 16) b

/-- Remove the staging layer from `n` whole units from `a` on. -/
def unstageUnits (key : Bytes) (m : Memory) : Nat → Nat → Bytes
  | _, 0 => []
  | a, n + 1 => unstageUnit key a (m.readN a 16) ++ unstageUnits key m (a + 16) n

/-- `len` bytes of controller memory at `a` with the staging layer removed, as a WRITE's stream takes them through the
endpoint lane (R411); on a variant without lanes nothing is staged. -/
def State.readStaged (s : State) (a len : Nat) : Bytes :=
  match s.stageKey with
  | none => s.mem.readN a len
  | some k =>
    let a0 := a / 16 * 16
    ((unstageUnits k s.mem a0 (ceilDiv (a + len - a0) 16)).drop (a - a0)).take len

/-- Place bytes of an aperture TLP in HBM, unit by unit (R410): a unit covered only in part is merged. -/
def State.storeStaged (s : State) (a : Nat) : Nat → Bytes → State
  | 0, _ => s
  | n + 1, b =>
    match s.stageKey with
    | none => s.store a b
    | some k =>
      if b.isEmpty then s
      else
        let a0 := a / 16 * 16
        let off := a - a0
        let m := min (16 - off) b.length
        let old := unstageUnit k a0 (s.mem.readN a0 16)
        let new := old.take off ++ b.take m ++ old.drop (off + m)
        let s := if m = 16 then s else s.count .cphStageMerge
        State.storeStaged (s.store a0 (stageUnit k a0 new)) (a0 + 16) n (b.drop m)

/-! ### Lanes (R380, R381, R405 to R408) -/

/-- Cycles of 1.0 GHz that a message takes: 256 clocks of 1.6 GHz, more with dummy rounds (R380, R381). -/
def State.messageNs (s : State) : Nat :=
  match s.field .cphCtl 5 4 with
  | 0 => 160 | 1 => 171 | 2 => 183 | _ => 214

/-- The work that a free pipeline takes, its class and cycles: a waiting Class 0 message, the message suspended earliest, a
new message of another class (R407). -/
def Lane.next (l : Lane) (d : Nat) : Option ((Nat × Nat) × Lane) :=
  if l.waiting.contains 0 then some ((0, d), { l with waiting := l.waiting.erase 0 })
  else
    match l.suspended, l.waiting with
    | x :: r, _ => some (x, { l with suspended := r })
    | [], c :: w => some ((c, d), { l with waiting := w })
    | [], [] => none

/-- A lane at cycle `t`: the pipelines whose message has ended by then took work one after another (R407), at most `k` of
them. -/
def Lane.runTo : Nat → Nat → Nat → Lane → Lane
  | 0, _, _, l => l
  | k + 1, t, d, l =>
    let done := l.pipes.filter fun p => decide (p.2.2 ≤ t)
    let first := done.foldl (fun a p => match a with
      | none => some p
      | some (q : Nat × Nat × Nat) => if p.2.2 < q.2.2 then some p else some q) none
    match first with
    | none => l
    | some (i, _, e) =>
      let l : Lane := { l with pipes := tblDel l.pipes i }
      match l.next d with
      | none => Lane.runTo k t d l
      | some ((c, n), l) => Lane.runTo k t d { l with pipes := tblIns l.pipes i (c, e + n) }

/-- A message of class `cls` reaches the lane at cycle `t`: it starts on a free pipeline; a Class 0 message else suspends
the lowest-numbered pipeline of another class; else it waits (R406 to R408). `true` where it suspended one. -/
def Lane.start (l : Lane) (cls t d : Nat) : Lane × Bool :=
  let l := Lane.runTo (9 + l.suspended.length + l.waiting.length) t d l
  match (List.range 8).find? fun i => (tblFind l.pipes i).isNone with
  | some i => ({ l with pipes := tblIns l.pipes i (cls, t + d) }, false)
  | none =>
    match l.pipes.find? fun p => cls == 0 && p.2.1 != 0 with
    | some (i, c, e) =>
      ({ l with pipes := tblIns l.pipes i (0, t + d), suspended := l.suspended ++ [(c, e - t)] }, true)
    | none => ({ l with waiting := l.waiting ++ [cls] }, false)

/-- A block reaches lane `n` (R380, R406; log entry 29). -/
def State.laneMessage (s : State) (n cls : Nat) : State :=
  let (l, susp) := (tblGet {} s.cph.lanes n : Lane).start cls s.now s.messageNs
  let s : State := { s with cph := { s.cph with lanes := tblPut {} s.cph.lanes n l } }
  if susp then s.count .cphSuspend else s

end Sys2Proof.Machine
end

