-- ==== Sys2Proof/Machine/Media.lean ====
section
/-! DEFINITION. Member commands, labels, bitmap replicas, the open window, and relocation (R111, R145 to R150, R189,
R207, R237, R722). -/

namespace Sys2Proof.Machine

/-! ### Member commands at the drive-issue points (R235) -/

/-- Member commands waiting at a slot's drive-issue point. -/
def State.waitingAt (s : State) (sl : Nat) : List MemCmd := s.str.mem.filter fun m => m.slot == sl && m.issued.isNone

/-- Keep the flows of a slot's drive-issue point (R237). -/
def State.syncDrive (s : State) (sl : Nat) : State :=
  let p : Point := tblGet {} s.cls.drive sl
  let live := (((s.waitingAt sl).filter fun m => m.cls != 0).map fun m => (m.cls, 0)).eraseDups
  { s with cls := { s.cls with drive := tblPut {} s.cls.drive sl (p.sync live) } }

/-- A member command joins its drive-issue point. -/
def State.addMem (s : State) (slot : Nat) (op : MemOp) (lba n : Nat) (data : Bytes) (cls : Nat) (who : MemFor)
    (cells : Nat := 0) : State :=
  let m : MemCmd := { id := s.str.nextMem, slot, op, lba, n, data, cls, who, cells }
  let s : State := { s with str := { s.str with mem := s.str.mem ++ [m], nextMem := s.str.nextMem + 1 } }
  s.syncDrive slot

/-- Member commands of a slot that `p` picks are gone. -/
def State.dropMem (s : State) (sl : Nat) (p : MemCmd → Bool) : State :=
  let cells := s.str.mem.filter fun m => m.slot == sl && p m && m.issued.isNone
  let s : State := { s with str := { s.str with mem := s.str.mem.filter fun m => !(m.slot == sl && p m) } }
  (cells.foldl (fun s m => s.freeHeld m.cls [(slotPort sl, m.cells)]) s).syncDrive sl

/-! ### Labels (R111) -/

/-- `b` padded with zeros to one stored block of a format. -/
def padBlock (format1 : Bool) (b : Bytes) : Bytes := b ++ zeros (storedBytes format1 - b.length)

/-- A set of slots as bits. -/
def slotBits (l : List Nat) : Nat := l.foldl (fun a i => a ||| 2 ^ i) 0

/-- The label block of slot `sl` of a group (R111). -/
def labelBytes (gi : Nat) (g : Group) (sl : Nat) : Bytes :=
  padBlock g.format1 (toLe 0x4F434C5353545241 8 ++ toLe gi 1 ++ toLe (b2n g.erasure) 1 ++ toLe g.width 1 ++ toLe g.m 1
    ++ toLe g.spare 1 ++ toLe (b2n g.format1) 1 ++ toLe g.awu 1
    ++ toLe (b2n g.clean + 2 * b2n (g.replicas.contains sl)) 1 ++ toLe g.seed 8 ++ toLe (slotBits g.slots) 8
    ++ toLe ((g.slots.findIdx? (· == sl)).getD 0) 1 ++ zeros 7 ++ toLe g.lgen 8 ++ toLe g.periods 8)

/-- The slots of a group whose member is IN_SERVICE. -/
def State.inService (s : State) (g : Group) : List Nat := g.slots.filter fun sl => s.mstate sl == .inService

/-- Rewrite the labels: LGEN is incremented on every IN_SERVICE member (R111). -/
def State.rewriteLabels (s : State) (gi : Nat) : State :=
  match s.group gi with
  | none => s
  | some g =>
    let s := (s.setGroup gi { g with lgen := g.lgen + 1 }).touch
    (s.inService g).foldl (fun s sl => s.addMem sl .write 0 1 [] 1 (.label gi)) s

/-- The labels that clear CLEAN have not all been written: no write of the group is accepted (R151). -/
def State.uncleaning (s : State) (gi : Nat) : Bool :=
  ((s.group gi).any fun g => g.labelsWait) && s.str.mem.any fun m => m.who == .label gi

/-- A label write has ended: after the last, writes no longer wait for the clearing of CLEAN (R151). -/
def State.labelsEnd (s : State) (gi : Nat) : State :=
  if s.str.mem.any fun m => m.who == .label gi then s else s.updGroup gi fun g => { g with labelsWait := false }

/-! ### The group record (R191) -/

/-- The group's record is rewritten (R191). -/
def State.putRecord (s : State) (gi : Nat) : State :=
  match s.group gi with
  | none => s
  | some g =>
    let g := { g with recGen := g.recGen + 1 }
    let cursors := s.str.members.filterMap fun e =>
      if e.2.group = gi ∧ g.place.evac.contains e.1 then some (e.1, e.2.rebuild) else none
    let refills := s.str.members.filterMap fun e =>
      if e.2.group = gi ∧ e.2.state = .refilling then some (e.1, e.2.refill) else none
    let ubl := s.str.ubl.filter fun e => e.group == gi
    let s := s.setGroup gi g
    (s.cfgPut 0x07 gi (some (.group g.recGen g.place cursors refills g.sweep ubl g.policySet))).touch

/-! ### The bitmap (R147 to R150) -/

/-- Byte `i` of a bitmap block whose first region is `r0`. -/
def bitmapByte (on : Nat → Bool) (r0 i : Nat) : Byte :=
  BitVec.ofNat 8 ((List.range 8).foldl (fun a j => a + (if on (r0 + 8 * i + j) then 2 ^ j else 0)) 0)

/-- Bitmap block `k` of a group as HBM holds it (R110, R148). -/
def bitmapBlock (g : Group) (k : Nat) : Bytes :=
  let on (r : Nat) : Bool := (tblFind g.dirty r).isSome || (tblFind g.setting r).isSome
  padBlock g.format1 ((List.range 4096).map (bitmapByte on (k * 32768)))

/-- A region's bit is set on the medium and no clear of it is outstanding. -/
def Group.isDirty (g : Group) (x : Nat) : Bool :=
  (tblFind g.dirty x).isSome && (tblFind g.clearing x).isNone && !g.clearLater.contains x

/-- Have a region's bit set (R148): writes to both replicas in class `cls`. `true` once it is set. -/
def State.setBit (s : State) (gi x cls : Nat) (seq : Option Nat) : State × Bool :=
  match s.group gi with
  | none => (s, false)
  | some g =>
    if g.isDirty x then (s, true)
    else if (tblFind g.clearing x).isSome ∨ g.clearLater.contains x ∨ (tblFind g.setting x).isSome ∨ g.replicaTo.isSome
    then (s, false)
    else if g.replicas.isEmpty then
      ((s.setGroup gi { g with dirty := tblIns g.dirty x () }).count .strBmpSet, true)
    else
      let s := (s.setGroup gi { g with setting := tblIns g.setting x g.replicas.length }).count .strBmpSet
      (g.replicas.foldl (fun s sl => s.addMem sl .write (4096 + x / 32768) 1 [] cls (.bitSet gi x seq)) s, false)

/-- A replica write of a bit has ended (R148). -/
def State.bitSetEnd (s : State) (gi x : Nat) : State :=
  s.updGroup gi fun g =>
    match tblFind g.setting x with
    | none => g
    | some n =>
      if n ≤ 1 ∧ g.replicaTo.isNone then { g with setting := tblDel g.setting x, dirty := tblIns g.dirty x () }
      else { g with setting := tblIns g.setting x (n - 1) }

/-- A region is part of a Class 0 volume (R145, R150). -/
def State.class0Region (s : State) (gi x : Nat) : Bool :=
  match s.volOfRegion gi x with
  | some (v, _) => (match s.volume v with | some v => v.class0 | none => false)
  | none => false

/-- Have a region's bit cleared (R149): Class 7 writes to the replicas, put off while a replica is being
re-established (R207). -/
def State.clearBit (s : State) (gi x : Nat) : State :=
  match s.group gi with
  | none => s
  | some g =>
    if (tblFind g.dirty x).isNone ∨ s.class0Region gi x then s
    else if g.replicaTo.isSome then s.setGroup gi { g with clearLater := g.clearLater ++ [x] }
    else if g.replicas.isEmpty then s.setGroup gi { g with dirty := tblDel g.dirty x }
    else
      let s := s.setGroup gi { g with
        dirty := tblDel g.dirty x, clearing := tblIns g.clearing x g.replicas.length }
      g.replicas.foldl (fun s sl => s.addMem sl .write (4096 + x / 32768) 1 [] 7 (.bitClear gi x)) s

/-- A replica write of a clear has ended. -/
def State.bitClearEnd (s : State) (gi x : Nat) : State :=
  s.updGroup gi fun g =>
    match tblFind g.clearing x with
    | none => g
    | some n => { g with clearing := if n ≤ 1 then tblDel g.clearing x else tblIns g.clearing x (n - 1) }

/-! ### Bitmap replicas (R147, R207, R208) -/

/-- The slot for a new replica (R207 step 1): in another drive cluster than the surviving one, else the lowest one not
holding it. -/
def State.replicaSlot (s : State) (g : Group) : Option Nat :=
  let free := (s.inService g).filter fun sl => !g.replicas.contains sl
  match g.replicas.head? with
  | none => free.head?
  | some a =>
    match free.find? fun sl => slotCluster sl != slotCluster a with
    | some sl => some sl
    | none => free.head?

/-- Blocks of the bitmap area that the group's regions use. -/
def Group.bitmapBlocks (g : Group) : Nat := ceilDiv g.regions 32768

/-- Re-establish a bitmap replica where one is lacking (R207, R208). -/
def State.replicaStart (s : State) (gi : Nat) : State :=
  match s.group gi with
  | none => s
  | some g =>
    if 2 ≤ g.replicas.length ∨ g.replicaTo.isSome then s
    else
      match s.replicaSlot g with
      | none => s.setGroup gi { g with oneReplica := !g.replicas.isEmpty }
      | some sl =>
        let s := s.setGroup gi { g with replicaTo := some (sl, g.bitmapBlocks) }
        (List.range g.bitmapBlocks).foldl (fun s k => s.addMem sl .write (4096 + k) 1 [] 1 (.replica gi)) s

/-- A bitmap block of the new replica has been written; after the last the labels name it (R207 steps 2, 3). -/
def State.replicaWritten (s : State) (gi : Nat) : State :=
  match s.group gi with
  | none => s
  | some g =>
    match g.replicaTo with
    | some (sl, n) =>
      if 1 < n then s.setGroup gi { g with replicaTo := some (sl, n - 1) }
      else (s.setGroup gi { g with replicaTo := some (sl, 0), replicas := g.replicas ++ [sl] }).rewriteLabels gi
    | none => s

/-- Bits whose every replica write has ended are set (R148). -/
def Group.settled (g : Group) : Group :=
  { g with
    dirty := (g.setting.filter fun e => e.2 == 0).foldl (fun t e => tblIns t e.1 ()) g.dirty
    setting := g.setting.filter fun e => e.2 != 0 }

/-- The labels that name a new replica have been written (R207 step 3): waiting sets and clears go on. -/
def State.replicaEnd (s : State) (gi : Nat) : State :=
  match s.group gi with
  | none => s
  | some g =>
    let labels := s.str.mem.any fun m => m.who == .label gi
    match g.replicaTo with
    | some (_, 0) =>
      if labels then s
      else
        let s := s.setGroup gi { g.settled with replicaTo := none, oneReplica := false, clearLater := [] }
        let inWin (x : Nat) : Bool := s.str.window.any fun w => w.group == gi && w.region == x
        let s := (g.clearLater.filter fun x => !inWin x).foldl (fun s x => s.clearBit gi x) s
        (s.putRecord gi).replicaStart gi
    | _ => s

/-- The member in slot `sl` no longer serves: its replica is lost (R207). Where no slot can take a new one, what was being set
goes on without it (R152). -/
def State.replicaLost (s : State) (gi sl : Nat) : State :=
  match s.group gi with
  | none => s
  | some g =>
    let nxt := match g.replicaTo with
      | some (x, n) => if x = sl then none else some (x, n)
      | none => none
    if g.replicas.contains sl ∨ nxt ≠ g.replicaTo then
      let s := (s.setGroup gi { g with replicas := g.replicas.filter (· != sl), replicaTo := nxt }).replicaStart gi
      s.updGroup gi fun g => if g.replicaTo.isSome then g else g.settled
    else s

/-! ### The open window (R145, R146) -/

/-- A stripe of region `x` is open. -/
def State.regionOpen (s : State) (gi x : Nat) : Bool :=
  match s.group gi with
  | none => false
  | some g => s.str.opens.any fun o => o.group == gi && g.regionOf o.stripe == x

/-- A region may leave the window (R146). -/
def State.mayLeave (s : State) (w : WinRegion) : Bool :=
  !w.class0 && !w.leaving && w.acked && !s.regionOpen w.group w.region && decide (w.last + 1000 * msec ≤ s.now)

/-- A region leaves: at once without a shadow, else with the copy that carries its removal (R146, R149). -/
def State.winLeave (s : State) (gi x : Nat) : State :=
  if s.paired then
    { s with
      str := { s.str with window := s.str.window.map fun w =>
        if w.group = gi ∧ w.region = x then { w with leaving := true, copy := none } else w }
      shd := { s.shd with changed := true } }
  else
    let s : State := { s with str := { s.str with
      window := s.str.window.filter fun w => !(w.group == gi && w.region == x) } }
    s.clearBit gi x

/-- The region written longest ago that may leave (R146). -/
def State.winOldest (s : State) : Option WinRegion :=
  (s.str.window.filter s.mayLeave).foldl (fun b w => match b with
    | none => some w
    | some v => if w.last < v.last then some w else b) none

/-- Have a region in the open window (R145, R146). `true` once a copy that carries it has been acknowledged. -/
def State.winAdmit (s : State) (gi x : Nat) (class0 : Bool) : State × Bool :=
  match s.str.window.find? fun w => w.group == gi && w.region == x with
  | some w =>
    if !w.acked ∨ (w.leaving ∧ w.copy.isSome) then (s, false)
    else
      ({ s with str := { s.str with window := s.str.window.map fun v =>
          if v.group = gi ∧ v.region = x then
            { v with leaving := false, last := s.now, class0 := v.class0 || class0 } else v } }, true)
  | none =>
    let s := if s.str.window.length < 65536 then s
      else match s.winOldest with | some w => s.winLeave w.group w.region | none => s
    if 65536 ≤ s.str.window.length then (s, false)
    else
      let solo := !s.paired
      let w : WinRegion := { group := gi, region := x, acked := solo, last := s.now, class0 }
      ({ s with
          str := { s.str with window := s.str.window ++ [w] }
          shd := { s.shd with changed := true } }, solo)

/-- A copy has been acknowledged: the window changes it carried take effect (R145, R146). -/
def State.winAcked (s : State) (n : Nat) : State :=
  let due (w : WinRegion) : Bool := match w.copy with | some c => decide (c ≤ n) | none => false
  let gone := s.str.window.filter fun w => w.leaving && due w
  let s : State := { s with str := { s.str with
    window := (s.str.window.filter fun w => !(w.leaving && due w)).map fun w =>
      if due w then { w with acked := true, copy := none } else w } }
  gone.foldl (fun s w => s.clearBit w.group w.region) s

/-! ### Relocation: the list, the excluded set and sweeps (R189, R722) -/

/-- A placement change moves or frees a chunk, apart from what the rebuild of the slots just added will write. -/
def needsSweep (old new : Relocation) (added : List Nat) : Bool :=
  (old.taken.any fun x =>
    match new.taken.find? fun y => y.row == x.row && y.pos == x.pos with
    | some y => (y.layer != x.layer || y.slot != x.slot) && !added.contains y.by_
    | none => !(new.unreloc.any fun y => y.1 == x.row && y.2.1 == x.pos))
  || (new.taken.any fun y => !added.contains y.by_
      && !(old.taken.any fun x => x.row == y.row && x.pos == y.pos))

/-- Stripes of a row in the whole regions of a group. -/
def Group.rowStripes (g : Group) (row : Nat) : Nat := (g.regions * g.t + g.rows - 1 - row) / g.rows

/-- Evaluate R189 for the list without its IN_SERVICE slots and with `add` at its end (R189, R722). While a sweep
runs the evaluation waits for its end (log entry 31). Positions that it leaves unrelocated, other than by a rebuild about to
run, are counted (R190). -/
def State.evaluate (s : State) (gi : Nat) (add : List Nat) : State :=
  match s.group gi with
  | none => s
  | some g =>
    if g.sweep.isSome then s
    else
      let evac := (g.place.evac.filter fun sl => s.mstate sl != .inService) ++ add
      let ex := g.slots.filter fun sl => s.mstate sl != .inService && !evac.contains sl
      let new : Placement := { evac, ex }
      if g.place.evac = [] ∧ evac = [] then s.setGroup gi { g with place := new }
      else if new = g.place then s
      else
        let sweep := if needsSweep (g.relocate g.place) (g.relocate new) add then
            some { old := g.place, period := 0 } else none
        let was := (g.relocate g.place).unreloc
        let fresh := (g.relocate new).unreloc.filter fun x => !add.contains x.2.2
          && !(was.any fun y => y.1 == x.1 && y.2.1 == x.2.1)
        let s := fresh.foldl (fun s x =>
          (s.count .strUnreloc (g.rowStripes x.1)).updMember x.2.2 fun m => { m with unreloc := true }) s
        (s.setGroup gi { g with place := new, sweep }).putRecord gi

/-- Under AUTO, or at START_REBUILD: the MISSING member starts rebuilding where R189 can place a position and no sweep
runs (R185, R722). A slot that is in the list already starts again at stripe 0 (DESIGN CHOICE; log entry 94). -/
def State.startRebuild (s : State) (gi sl : Nat) : State :=
  match s.group gi with
  | none => s
  | some g =>
    if s.mstate sl ≠ .missing ∨ !s.canPlace gi sl then s
    else if g.sweep.isSome then s.updMember sl fun m => { m with startLater := true }
    else
      let add := if g.place.evac.contains sl then [] else [sl]
      let s := s.updMember sl fun m => { m with state := .rebuilding, rebuild := 0, unreloc := false, startLater := false }
      (s.evaluate gi add).putRecord gi

/-- The policy in force of a group whose policy is the default (R184). -/
def State.resolvePolicy (s : State) (gi : Nat) : State :=
  let held := s.str.volumes.any fun v => v.2.group == gi && v.2.class0
  s.updGroup gi fun g => { g with
    policy := match g.policySet with | .dflt => if held then .heldP else .auto | p => p }

/-- A drive is blank (R187): its block 0 carries no label, and it meets R109 for adoption. -/
def State.blank (s : State) (g : Group) (sl : Nat) : Bool := (s.drive sl).label.isNone && s.adoptable g sl

/-- The command is on a volume of a group. -/
def State.onGroup (s : State) (gi : Nat) (c : Cmd) : Bool :=
  !isAdmin (eOpcode c.entry) && eOpcode c.entry != opFlush && eOpcode c.entry != opAbort
    && (match s.volume (eVolume c.entry) with | some v => v.group == gi | none => false)

/-- The group enters FAILED (R178): commands before their issue point end GROUP_FAILED, and the stripes open at that
moment are to be resynchronised. -/
def State.enterFailed (s : State) (gi : Nat) : State :=
  match s.group gi with
  | none => s
  | some g =>
    if g.failed ∨ s.failures gi ≤ g.tol then s
    else
      let open_ := (s.str.opens.filter fun o => o.group == gi).map (·.stripe)
      let s := s.setGroup gi { g with failed := true, resync := (g.resync ++ open_).eraseDups.mergeSort (· ≤ ·) }
      let hit := s.qpe.cmds.filter fun c => s.onGroup gi c && !c.past && c.phase != .finished
      hit.foldl (fun s c => s.endEarly c.seq stGroupFailed) s

/-- Reservation Acquire leaves for one drive (R562). -/
def State.sendAcquire (s : State) (sl : Nat) : State :=
  let m : MemCmd := {
    id := s.str.nextMem, slot := sl, op := .acquire, lba := 0, n := 0, cls := 1, who := .acquire
    issued := some s.now }
  { s.emit (.drive m.id sl .acquire 0 0 false []) with
    str := { s.str with mem := s.str.mem ++ [m], nextMem := s.str.nextMem + 1 } }

/-- The serving controller acquires the reservation of a member, before its first write there (R562). A
drive that is not ready has 100 ms to become it. -/
def State.acquire (s : State) (sl : Nat) : State :=
  if !s.serves then s
  else
    let s : State := { s with shd := { s.shd with acquiring := tblIns s.shd.acquiring sl s.now } }
    if (s.drive sl).ready then s.sendAcquire sl else s

/-- The slot enters REFILLING with the drive in it (R175, R178, R185, R217). The drive's label blocks after the first are
made zero (R111). -/
def State.adopt (s : State) (gi sl : Nat) : State :=
  let s := s.updMember sl fun m => { m with before := m.state, state := .refilling, refill := 0 }
  let s := s.acquire sl
  let s := s.addMem sl .writeZeroes 1 15 [] 1 (.adoptLabel gi)
  ((s.enterFailed gi).putRecord gi).touch

/-- What AUTO does for every slot of a group (R185): adopt blank drives, start rebuilds. -/
def State.autoAct (s : State) (gi : Nat) : State :=
  match s.group gi with
  | none => s
  | some g =>
    if g.policy ≠ .auto then s
    else g.slots.foldl (fun s sl =>
      let st := s.mstate sl
      if (st == .missing || st == .rebuilding || st == .evacuated) && s.blank g sl then s.adopt gi sl
      else if st == .missing then s.startRebuild gi sl
      else s) s

/-! ### The stale set (R213) -/

/-- Slots that hold, or held, a position of a stripe: its homes, and the spare chunks its positions are assigned (R213). -/
def Group.slotsAt (g : Group) (st : Nat) : List Nat :=
  let rel := g.relocate (g.placeFor st)
  ((List.range g.n).flatMap fun j =>
    let h := g.home st j
    h.slot :: (rel.taken.filter fun x => x.row == h.row && x.pos == j).map (·.slot)).eraseDups

/-- A write opens stripe `st` of group `gi`: its region joins the stale set of every member that has a position of it
and does not hold it (R213). -/
def State.markStale (s : State) (st : Nat) (g : Group) : State :=
  (g.slotsAt st).foldl (fun s sl =>
    match s.member sl with
    | none => s
    | some m => if m.holds g st then s else s.updMember sl fun m =>
        if m.staleHeld then { m with stale := tblIns m.stale (g.regionOf st) () } else m) s

end Sys2Proof.Machine
end

