-- ==== Sys2Proof/Machine/Read.lean ====
section
/-! DEFINITION. READ: member reads per run, the checks of R122, reconstruction, delivery (R121 to R124, R155, R179 to
R183, R201, R206, R409). -/

namespace Sys2Proof.Machine

/-- Where a block of a command lies: its offset within the command, stripe, data unit and block offset (R117, R119). -/
structure BlockAt where
  b : Nat
  stripe : Nat
  unit : Nat
  off : Nat
deriving DecidableEq, Repr

/-- Block `b` of a command that starts at volume block `slba` (R117, R119). -/
def blockAt (v : Volume) (g : Group) (slba b : Nat) : BlockAt :=
  let gb := v.groupBlock g (slba + b)
  let row := 16 * g.kd
  { b, stripe := gb / row, unit := gb % row / 16, off := gb % 16 }

/-- The volume of a command and its group. -/
def State.target (s : State) (c : Cmd) : Option (Volume × Group) :=
  match s.volume (eVolume c.entry) with
  | none => none
  | some v => (s.group v.group).map fun g => (v, g)

/-- Key of a block of a stripe. -/
def bkey (pos off : Nat) : Nat := 16 * pos + off

/-- A stripe is in the scope of a pending resynchronisation (R203, R206). -/
def Group.inScope (g : Group) (st : Nat) : Bool :=
  g.resync.contains st ||
    (g.resyncRegions.contains (g.regionOf st) &&
      !(g.resyncRegions.head? == some (g.regionOf st) && decide (st % g.t < g.resyncAt)))

/-- The kind under which a block is unavailable (R201, R202). -/
def State.unavailable (s : State) (gi st unit off : Nat) : Option Nat :=
  match s.str.ubl.find? fun e => e.group == gi && e.stripe == st && e.unit == unit && bitOf e.mask off with
  | some e => some e.kind
  | none =>
    if s.str.ublOver.any fun x => x.1 == gi && x.2.1 == st && x.2.2.1 == unit && bitOf x.2.2.2 off then some 1
    else none

/-- The command writes (R84). -/
def isWrite (e : Bytes) : Bool := let op := eOpcode e; op == opWrite || op == opZeroes || op == opTrim

/-- Two commands overlap (R84). -/
def overlaps (a b : Bytes) : Bool :=
  eVolume a == eVolume b && (isWrite a || isWrite b) && decide (eSlba a < eSlba b + eNblk b ∧ eSlba b < eSlba a + eNblk a)

/-- An earlier overlapping command has not ended, or its completion has not been written (R84): this one waits before its
issue point (log entry 32). -/
def State.overlapWaits (s : State) (c : Cmd) : Bool :=
  (s.qpe.cmds.any fun d => decide (d.seq < c.seq) && (d.phase != .finished || d.past)
    && (isWrite d.entry || eOpcode d.entry == opRead) && overlaps c.entry d.entry)
  || s.net.egress.any fun u => match u.cpl with
    | some d => decide (d.seq < c.seq) && (isWrite d.entry || eOpcode d.entry == opRead) && overlaps c.entry d.entry
    | none => false

/-- Member reads outstanding in the drive cluster of a slot (R123). -/
def State.clusterReads (s : State) (sl : Nat) : Nat :=
  (s.str.mem.filter fun m => m.op == .read && m.issued.isSome && slotCluster m.slot == slotCluster sl).length

/-! ### Runs -/

/-- Cut `n` blocks into runs of at most `k`. -/
def cutRun (k : Nat) : Nat → ReadRun → List ReadRun
  | 0, _ => []
  | f + 1, r =>
    if r.n = 0 then []
    else if r.n ≤ k then [r]
    else { r with n := k } :: cutRun k f { r with n := r.n - k, vblk := r.vblk + k, off := r.off + k }

/-- The runs of a READ: one for each run of blocks within one stripe unit (R123). -/
def readRuns (v : Volume) (g : Group) (slba n : Nat) : List ReadRun :=
  (List.range n).foldl (fun rs b =>
    let x := blockAt v g slba b
    match rs.getLast? with
    | some r =>
      if r.stripe = x.stripe ∧ r.unit = x.unit then rs.dropLast ++ [{ r with n := r.n + 1 }]
      else rs ++ [{ vblk := b, n := 1, stripe := x.stripe, unit := x.unit, off := x.off }]
    | none => [{ vblk := b, n := 1, stripe := x.stripe, unit := x.unit, off := x.off }]) []

/-- Update run `vblk` of a command. -/
def State.updRun (s : State) (seq vblk : Nat) (f : ReadRun → ReadRun) : State :=
  s.updCmd seq fun c => { c with runs := updFirst (fun r => r.vblk == vblk) f c.runs }

/-- Run `vblk` of a command. -/
def State.run (s : State) (seq vblk : Nat) : Option ReadRun :=
  (s.cmd seq).bind fun c => c.runs.find? fun r => r.vblk == vblk

/-- Queue the member read of position `pos` for a run. -/
def State.readPos (s : State) (c : Cmd) (g : Group) (r : ReadRun) (pos : Nat) : State :=
  match s.posAt g r.stripe pos with
  | none => s
  | some (sl, lba) =>
    let s := s.updRun c.seq r.vblk fun r => { r with want := r.want ++ [pos] }
    s.addMem sl .read (lba + r.off) r.n [] c.cls (.readRun c.seq r.vblk pos)

/-- Data positions or copies: those whose blocks carry metadata to check (R122). -/
def Group.checked (g : Group) (pos : Nat) : Bool := !g.erasure || decide (pos < g.kd)

/-- The copy a mirror READ goes to: readable, in the cluster with the fewest outstanding member reads, lowest rank on a
tie (R123). -/
def State.mirrorCopy (s : State) (g : Group) (r : ReadRun) : Option Nat :=
  let ok := (List.range g.n).filter fun p => (s.posAt g r.stripe p).isSome && !r.bad.contains p
  let load (p : Nat) : Nat := match s.posAt g r.stripe p with | some (sl, _) => s.clusterReads sl | none => 0
  ok.foldl (fun b p => match b with
    | none => some p
    | some q => if load p < load q then some p else b) none

/-- The k positions a reconstruction reads: data lowest first, then parity (R180). -/
def State.survivors (s : State) (g : Group) (st : Nat) (bad : List Nat) : List Nat :=
  ((List.range g.n).filter fun p => (s.posAt g st p).isSome && !bad.contains p).take g.kd

/-- Have the member reads of a run issued that it now needs (R123, R180, R183, R206). -/
def State.runIssue (s : State) (c : Cmd) (g : Group) (r : ReadRun) : State :=
  let fail (st : Nat) : State := s.updRun c.seq r.vblk fun r => { r with fail := some st, want := [] }
  if !g.erasure then
    match s.mirrorCopy g r with
    | some p => s.readPos c g r p
    | none =>
      if g.inScope r.stripe && r.bad.isEmpty then fail stIndeterminate
      else if (List.range g.n).all r.guard.contains then fail stIntegrityError
      else fail stMediaUnrecoverable
  else if (s.posAt g r.stripe r.unit).isSome ∧ !r.bad.contains r.unit then s.readPos c g r r.unit
  else if (s.posAt g r.stripe r.unit).isNone ∧ g.inScope r.stripe then fail stIndeterminate
  else
    let ps := s.survivors g r.stripe r.bad
    if ps.length < g.kd then fail stMediaUnrecoverable
    else
      let s := s.updRun c.seq r.vblk fun r => { r with recon := true }
      (ps.filter fun p => (tblFind r.got p).isNone && !r.want.contains p).foldl (fun s p => s.readPos c g r p) s

/-! ### From survivors to the face -/

/-- The crossbar port through which a command's data passes (R379, R411). -/
def State.cmdPort (s : State) (c : Cmd) : Nat := facePort (s.dataPoint c)

/-- The cells of a Class 0 READ take pool cells as they arrive (R358). -/
def State.c0Take (s : State) (c : Cmd) (n : Nat) : State :=
  if c.cls = 0 then
    let s : State := { s with xbr := { s.xbr with c0Used := s.xbr.c0Used + n } }
    s.updCmd c.seq fun c => { c with c0Cells := c.c0Cells + n }
  else s

/-- The data cells of a run leave port `src` for the face; the metadata is stripped (R123). -/
def State.sendRun (s : State) (c : Cmd) (g : Group) (r : ReadRun) (src : Nat) (keyed : Bool) (b : Bytes) : State :=
  let n := 16 * r.n
  let blank := (List.range r.n).filter fun i => isZeroBlock g.format1 (storedBlock g.format1 b i)
  (s.c0Take c n).pushRun src [s.cmdPort c] c.cls n (.read c.seq r.vblk) keyed false none false blank

/-- Solve a run's data unit from its survivors (R127, R180). -/
def solveRun (g : Group) (r : ReadRun) : Option Bytes :=
  let n := r.n * storedBytes g.format1
  let use := r.got.filter fun e => !r.bad.contains e.1
  let known := use.filter fun e => decide (e.1 < g.kd)
  let parity := (use.filter fun e => decide (g.kd ≤ e.1)).map fun e => (e.1 - g.kd, e.2)
  let miss := (List.range g.kd).filter fun j => !(known.any fun e => e.1 == j)
  (solveData n miss known parity).find? (fun e => e.1 == r.unit) |>.map (·.2)

/-- The volume block of offset `i` of a run of a command. -/
def runVlba (c : Cmd) (r : ReadRun) (i : Nat) : Nat := eSlba c.entry + r.vblk + i

/-- A reconstructed run has reached its slice: it is solved and checked (R122, R180), and leaves for the face. -/
def State.runSolve (s : State) (c : Cmd) (v : Volume) (g : Group) (r : ReadRun) : State :=
  match solveRun g r with
  | none => s.updRun c.seq r.vblk fun r => { r with fail := some stMediaUnrecoverable }
  | some b =>
    let bad := (List.range r.n).find? fun i =>
      !blockPasses g.format1 (eVolume c.entry) (runVlba c r i) (storedBlock g.format1 b i)
    let s := s.freeSlice r.slice
    let s := s.updRun c.seq r.vblk fun r => { r with slice := none, recon := true }
    match bad with
    | some i => s.updRun c.seq r.vblk fun r => { r with fail := some stIntegrityError, failAt := i }
    | none =>
      let s := s.count .parOutCells (cellsOf g.format1 r.n)
      let s := s.updRun c.seq r.vblk fun r => { r with out := some b }
      s.sendRun c g r (16 + (r.slice.map (·.1)).getD 0) v.keyed b

/-- The survivors of a run leave their drive clusters for the slice it holds (R128, R168). -/
def State.runSurvive (s : State) (c : Cmd) (g : Group) (r : ReadRun) : State :=
  match r.slice with
  | none => s
  | some (sl, _) =>
    let ps := (r.got.filter fun e => !r.bad.contains e.1).map (·.1)
    let n := cellsOf g.format1 r.n
    let s := s.updRun c.seq r.vblk fun r => { r with sentSlice := true, toSlice := ps.length }
    ps.foldl (fun s p => match s.posAt g r.stripe p with
      | some (slot, _) => (s.c0Take c n).pushRun (slotPort slot) [16 + sl] c.cls n (.survivor c.seq r.vblk) false false none
      | none => s.updRun c.seq r.vblk fun r => { r with toSlice := r.toSlice - 1 }) s

/-- Ask for a slice context for a run (R168): a wait is counted once. -/
def State.runSlice (s : State) (c : Cmd) (r : ReadRun) : State :=
  let c0 := c.cls == 0
  match s.pickSlice c0 with
  | some i => (s.takeSlice i c0).updRun c.seq r.vblk fun r => { r with slice := some (i, c0), sliceWait := false }
  | none => if r.sliceWait then s else (s.count .parCtxWait).updRun c.seq r.vblk fun r => { r with sliceWait := true }

/-! ### Repairs -/

/-- A repair of blocks is to run (R182). -/
def State.addRepair (s : State) (x : Repair) : State :=
  if s.str.repairs.contains x then s else { s with str := { s.str with repairs := s.str.repairs ++ [x] } }

/-! ### A run whose member reads have all ended -/

/-- Positions of a run whose block `i` fails the check (R122). -/
def guardFails (c : Cmd) (g : Group) (r : ReadRun) (ext : Nat) (i : Nat) : List Nat :=
  (r.got.filter fun e => g.checked e.1 && !r.bad.contains e.1).filterMap fun e =>
    let unit := if g.erasure then e.1 else 0
    let vlba := g.vlbaOf ext r.stripe unit + r.off + i
    if blockPasses g.format1 (eVolume c.entry) vlba (storedBlock g.format1 e.2 i) then none else some e.1

/-- The single-block runs of a run, with the positions that fail for each (R122). -/
def splitRun (g : Group) (r : ReadRun) (fails : Nat → List Nat) : List ReadRun :=
  (List.range r.n).map fun i =>
    { r with
      vblk := r.vblk + i, n := 1, off := r.off + i
      bad := r.bad ++ fails i
      guard := r.guard ++ fails i
      got := r.got.map fun e => (e.1, storedBlock g.format1 e.2 i) }

/-- Whether a run has what it needs: its unit's own blocks, or k survivors (R180). -/
def ReadRun.ready (r : ReadRun) (g : Group) : Bool :=
  if g.erasure ∧ (r.recon ∨ r.bad.contains r.unit) then
    decide (g.kd ≤ (r.got.filter fun e => !r.bad.contains e.1).length)
  else r.got.any fun e => !r.bad.contains e.1

/-- Carry a checked run on: send its own blocks to the face, its survivors to a slice, or have more read. -/
def State.runGo (s : State) (c : Cmd) (v : Volume) (g : Group) (r : ReadRun) : State :=
  if !r.ready g then s.runIssue c g r
  else if g.erasure && r.bad.contains r.unit || r.recon then
    let s := s.runSlice c r
    match s.run c.seq r.vblk with
    | some r => s.runSurvive c g r
    | none => s
  else
    match r.got.find? fun e => !r.bad.contains e.1 with
    | none => s
    | some (p, b) =>
      let s := s.updRun c.seq r.vblk fun r => { r with out := some b }
      match s.posAt g r.stripe p with
      | some (slot, _) => s.sendRun c g r (slotPort slot) v.keyed b
      | none => s.sendRun c g r (slotPort (g.home r.stripe p).slot) v.keyed b

/-- The member reads of a run have ended (R122, R174, R182). -/
def State.runEval (s : State) (seq vblk : Nat) : State :=
  match s.cmd seq, s.run seq vblk with
  | some c, some r =>
    match s.target c with
    | none => s
    | some (v, g) =>
      if !r.want.isEmpty ∨ r.fail.isSome ∨ r.out.isSome ∨ r.sentSlice then s
      else
        let ext := (s.volOfRegion v.group (g.regionOf r.stripe)).map (·.2) |>.getD 0
        let fails := guardFails c g r ext
        let hit := (List.range r.n).filter fun i => !(fails i).isEmpty
        if hit.isEmpty then s.runGo c v g r
        else
          let s := (hit.flatMap fun i => (fails i).map fun p => (p, r.off + i)).foldl (fun s x =>
            s.addRepair { group := v.group, stripe := r.stripe, pos := x.1, offs := [x.2], reread := false }) s
          let parts := splitRun g r fails
          let s := s.updCmd seq fun c => { c with
            runs := c.runs.flatMap fun x => if x.vblk = r.vblk then parts else [x] }
          parts.foldl (fun s p => s.runGo c v g p) s
  | _, _ => s

/-! ### The end of a READ -/

/-- What the blocks of a READ come to: plain data, the first block whose tag failed with the number of those, and the
first block for which no key is installed (R394, R409). -/
structure ReadOut where
  data : Bytes := []
  authAt : Option Nat := none
  auths : Nat := 0
  noKey : Bool := false

/-- The blocks of one run added (R121, R385). -/
def State.openRun (s : State) (c : Cmd) (v : Volume) (g : Group) (a : ReadOut) (r : ReadRun) : ReadOut :=
  let b := r.out.getD []
  (List.range r.n).foldl (fun a i =>
    let blk := storedBlock g.format1 b i
    let (pt, ok) := s.openBlock (eVolume c.entry) v g r.stripe (runVlba c r i) blk
    { data := a.data ++ pt
      authAt := if ok then a.authAt else some (a.authAt.getD (r.vblk + i))
      auths := a.auths + b2n (!ok)
      noKey := a.noKey || (v.keyed && !s.keyInstalled (eVolume c.entry) && !isZeroBlock g.format1 blk) }) a

/-- End a READ none of whose member reads is outstanding (R63, R68, R123, R183, R394, R409). Where it ends with an error and a
tag of another block failed, INFO names the lower of the two blocks (DESIGN CHOICE; log entry 99). -/
def State.readEnd (s : State) (seq : Nat) : State :=
  match s.cmd seq with
  | none => s
  | some c =>
    match s.target c with
    | none => s.finish seq stInvalidVolume 0
    | some (v, g) =>
      let ready := c.runs.all fun r => r.fail.isSome || (r.out.isSome && r.crossed)
      if !ready || !c.begun || c.phase = .finished then s
      else
        let o := (c.runs.filter (·.out.isSome)).foldl (s.openRun c v g) {}
        let bad := c.runs.filterMap fun r => r.fail.map fun st => (r.vblk + r.failAt, st)
        let first := bad.foldl (fun a x => match a with
          | none => some x
          | some y => if x.1 < y.1 then some x else some y) (none : Option (Nat × Nat))
        if o.noKey ∧ first.isNone then (s.count .cphExhausted).finish seq stKeyExhausted 0
        else
          let s := if o.auths = 0 then s else (s.count .cphAuthFail o.auths).event .cph
          let s := s.updCmd seq fun c => { c with authFail := o.authAt.isSome }
          match first with
          | some (b, st) => s.finish seq st (min b (o.authAt.getD b))
          | none =>
            let s := s.count .strRecon ((c.runs.filter (·.recon)).foldl (fun a r => a + r.n) 0)
            let s := if s.keyReach (eMkey c.entry) then s.hostPut (eMkey c.entry) (eAddr c.entry) c.cls seq o.data else s
            s.finish seq stSuccess (o.authAt.getD 0)

/-- The commands on a group's volumes cannot run: the group is FAILED or OFFLINE (R178, R670). -/
def State.groupDown (s : State) (v : Volume) (g : Group) : Bool := g.failed || !g.online || s.gstate v.group == 3

/-- The first block of a READ that the unavailable-block list holds, with its status (R183, R201). -/
def State.readMasked (s : State) (c : Cmd) (v : Volume) (g : Group) : Option (Nat × Nat) :=
  (List.range (eNblk c.entry)).findSome? fun b =>
    let x := blockAt v g (eSlba c.entry) b
    (s.unavailable v.group x.stripe x.unit x.off).map fun k =>
      (b, if k = 2 then stIndeterminate else stMediaUnrecoverable)

/-- A write is open on a stripe that a READ overlaps with it (R124). -/
def State.stripeWaits (s : State) (gi : Nat) (erasure : Bool) (r : ReadRun) : Bool :=
  let offs := (List.range r.n).map (· + r.off)
  s.str.opens.any fun o => o.group == gi && o.stripe == r.stripe &&
    (match o.writer with
      | .host _ => offs.any fun i => (tblFind o.new (bkey r.unit i)).isSome
      | _ => (o.positions.contains r.unit || (!erasure && !o.positions.isEmpty))
          && (o.offs.isEmpty || offs.any o.offs.contains))

/-- READ (R123, R124, R178, R180, R183, R201, R206). -/
def State.readStart (s : State) (q cid : Nat) : State :=
  match s.carried q cid opRead with
  | none => s
  | some c =>
    match s.target c with
    | none => (s.finish c.seq stInvalidVolume 0).flow
    | some (v, g) =>
      if c.begun then s
      else if s.groupDown v g then (s.endEarly c.seq stGroupFailed).flow
      else if !s.stepThread c then s
      else if s.overlapWaits c then s.endStep c
      else
        match s.readMasked c v g with
        | some (b, st) => (s.finish c.seq st b).flow
        | none =>
          let runs := readRuns v g (eSlba c.entry) (eNblk c.entry)
          if runs.any (s.stripeWaits v.group g.erasure) then s.endStep c
          else
            let small (r : ReadRun) : Bool := s.sharedRoom (slotPort (g.home r.stripe r.unit).slot) == 0 && c.cls != 0
            let runs := runs.flatMap fun r => if small r then cutRun 8 r.n r else [r]
            let s := s.updCmd c.seq fun c => { c with begun := true, runs }
            let s := runs.foldl (fun s r => s.runIssue c g r) s
            ((s.endStep c).readEnd c.seq).flow

def execRead (qp cid : Nat) (s : State) : Outcome := .next (s.readStart qp cid)

end Sys2Proof.Machine
end

