-- ==== Sys2Proof/Machine/Stripe.lean ====
section
/-! DEFINITION. Writes: plans, the data pull, rows and staging, opening a stripe, parity, member writes and the close
of a stripe (R125 to R137, R142 to R156, R358, R396). -/

namespace Sys2Proof.Machine

/-! ### What a write touches -/

/-- The blocks of a write, in order (R117, R119). -/
def writeBlocks (c : Cmd) (v : Volume) (g : Group) : List BlockAt :=
  (List.range (eNblk c.entry)).map fun b => blockAt v g (eSlba c.entry) b

/-- The stripes of a write, ascending (R125). -/
def writeStripes (c : Cmd) (v : Volume) (g : Group) : List Nat :=
  ((writeBlocks c v g).map (·.stripe)).eraseDups.mergeSort (· ≤ ·)

/-- The blocks of a write in one stripe. -/
def rowBlocks (c : Cmd) (v : Volume) (g : Group) (st : Nat) : List BlockAt :=
  (writeBlocks c v g).filter fun x => x.stripe == st

/-- Data units that blocks touch, ascending. -/
def unitsOf (bs : List BlockAt) : List Nat := (bs.map (·.unit)).eraseDups.mergeSort (· ≤ ·)

/-- Block offsets that blocks touch, ascending. -/
def offsOf (bs : List BlockAt) : List Nat := (bs.map (·.off)).eraseDups.mergeSort (· ≤ ·)

/-- What a write puts in its data blocks: data, zero blocks, or a deallocation (R135 to R137). -/
def writeOp (c : Cmd) (v : Volume) (g : Group) : MemOp :=
  let op := eOpcode c.entry
  if op = opWrite ∨ (g.format1 ∧ v.keyed) then .write
  else if op = opTrim ∨ bitOf (eFlags c.entry) 1 then .dealloc
  else .writeZeroes

/-- The plain data of block `b` of a write: its own, or zeros (R135, R137). -/
def plainOf (c : Cmd) (b : Nat) : Bytes :=
  if eOpcode c.entry = opWrite then (c.data.drop (4096 * b)).take 4096 else zeros 4096

/-- The method of a stripe of a write (R126, R134, R190, R206). -/
def State.methodOf (s : State) (g : Group) (st : Nat) (bs : List BlockAt) : Method :=
  let us := unitsOf bs
  let full := decide (us.length = g.kd ∧ bs.length = 16 * g.kd)
  let gone := us.any fun u => (s.posAt g st u).isNone
  if !g.erasure then .copy
  else if full then .full
  else if gone ∨ g.inScope st then .recon
  else if 2 * us.length ≤ g.kd then .rmw
  else .recon

/-- Old blocks a stripe write reads before it writes (R126): keys of readable positions. -/
def State.preKeys (s : State) (g : Group) (st : Nat) (m : Method) (bs : List BlockAt) : List Nat :=
  let offs := offsOf bs
  let touched (u o : Nat) : Bool := bs.any fun x => x.unit == u && x.off == o
  let ok (p : Nat) : Bool := (s.posAt g st p).isSome
  match m with
  | .copy | .full => []
  | .rmw =>
    (bs.map fun x => bkey x.unit x.off)
      ++ ((List.range g.m).map (· + g.kd)).flatMap fun p => if ok p then offs.map fun o => bkey p o else []
  | .recon =>
    (List.range g.kd).flatMap fun u =>
      if ok u then (offs.filter fun o => !touched u o).map fun o => bkey u o else []

/-- Cells of a row (R154): data, parity and pre-read cells. -/
def State.rowCells (s : State) (c : Cmd) (v : Volume) (g : Group) (st : Nat) : Nat × Nat × Nat :=
  let bs := rowBlocks c v g st
  let per (ks : List Nat) : Nat :=
    ((ks.map (· / 16)).eraseDups).foldl (fun a p => a + cellsOf g.format1 (ks.filter fun k => k / 16 == p).length) 0
  let data := if eOpcode c.entry = opWrite then per (bs.map fun x => bkey x.unit x.off) else 0
  let parity := if g.erasure then g.m * cellsOf g.format1 (offsOf bs).length else 0
  (data, parity, per (s.preKeys g st (s.methodOf g st bs) bs))

/-! ### The data pull (R296, R334, R358) -/

/-- Have bytes `off` to `off + len` of the command's buffer read from host memory (R276, R296, R334), or from
controller memory at once (R411). -/
def State.pullData (s : State) (c : Cmd) (off len : Nat) : State :=
  let mkey := eMkey c.entry
  let a := eAddr c.entry + off
  let k := s.keyAt (keyIndex mkey)
  match k.kind with
  | 0 => s.epRead (k.binding % 64) (k.target + (a - k.base)) len fun o => .pull c.seq (off + o)
  | 1 =>
    let n := k.binding % 2 ^ 16
    let y := s.odtConn n
    let ask : OdtAsk := { seq := 0, qp := c.qp, tag := y.nextTag, cmd := c.seq, len, base := off, mkey, addr := a }
    (s.setOdt n { y with asks := y.asks ++ [ask], nextTag := (y.nextTag + 1) % 2 ^ 32 }).odtCtl n c.qp 0
      (.dataPull y.nextTag len mkey a) c.cls
  | 2 =>
    let n := k.binding % 2 ^ 14
    s.roceSend n (.readPull c.cls c.seq (k.target + (a - k.base)) k.rkey len)
  | _ =>
    let p := s.devAddr mkey a
    let b := if bitOf k.access 2 then s.readStaged p len else s.mem.readN p len
    s.updCmd c.seq fun c => { c with segs := tblIns c.segs off b }

/-- Bytes of the buffer present from its start on. -/
def State.gathered (s : State) (seq : Nat) : State :=
  s.updCmd seq fun c => { c with data := gatherFrom 0 c.segs }

/-- Ask for the buffer up to byte `upto`, if it has not been asked for (R154). -/
def State.pullTo (s : State) (seq upto : Nat) : State :=
  match s.cmd seq with
  | none => s
  | some c =>
    let from_ := c.pull.getD 0
    if upto ≤ from_ ∨ c.cut then s
    else ((s.updCmd seq fun c => { c with pull := some upto }).pullData c from_ (upto - from_)).gathered seq

/-! ### Reservations (R154, R156, R358) -/

/-- Pool cells a Class 0 write reserves (R358). -/
def State.c0Need (s : State) (c : Cmd) (v : Volume) (g : Group) : Nat :=
  (writeStripes c v g).foldl (fun a st =>
    let (d, p, r) := s.rowCells c v g st
    let ports := if g.erasure then 2 else
      (((List.range g.n).filterMap fun j => (s.posAt g st j).map fun x => slotPort x.1).eraseDups).length
    a + d * (1 + ports) + 2 * p + 2 * r) 0

/-- Reserve the Class 0 pool cells of a write and issue its pull (R358). -/
def State.c0Reserve (s : State) (c : Cmd) (v : Volume) (g : Group) : State :=
  let n := s.c0Need c v g
  let p := s.cmdPort c
  let data := (writeStripes c v g).foldl (fun a st => a + (s.rowCells c v g st).1) 0
  let x := s.part p
  if n ≤ s.c0Free ∧ x.c0In + data ≤ max data s.c0PortMax then
    let s : State := { s with xbr := { s.xbr with c0Used := s.xbr.c0Used + n } }
    let s := s.setPart p { x with c0 := x.c0 + data, c0In := x.c0In + data }
    let s := s.updCmd c.seq fun c => { c with c0Cells := n, faceCells := data }
    if eOpcode c.entry = opWrite then s.pullTo c.seq (eLen c.entry) else s.updCmd c.seq fun c => { c with pull := some 0 }
  else s

/-- Reserve the next row in staging, all at once or not at all, and pull its data (R154, R156). -/
def State.rowReserve (s : State) (c : Cmd) (v : Volume) (g : Group) : State :=
  match c.todo.find? fun st => !(c.rows.any fun r => r.1 == st) with
  | none => s
  | some st =>
    let (d, p, r) := s.rowCells c v g st
    let n := d + p + r
    let port := s.cmdPort c
    let pt := s.dataPoint c
    let last := (rowBlocks c v g st).foldl (fun a x => max a (x.b + 1)) 0
    if n ≤ s.ovfFree port then
      let s : State := { s with str := { s.str with
        staging := tblPut 0 s.str.staging pt (tblGet 0 s.str.staging pt + n) } }
      (s.updCmd c.seq fun c => { c with rows := c.rows ++ [(st, n)], stageWaited := false }).pullTo c.seq (4096 * last)
    else if c.stageWaited then s
    else (s.count .strStageWait).updCmd c.seq fun c => { c with stageWaited := true }

/-- Take buffer space for a write of classes 1 to 7: the whole of it where the port's own cells and the shared pool
allow it, else a row at a time in staging (R153 to R156). -/
def State.spaceTake (s : State) (c : Cmd) (v : Volume) (g : Group) : State :=
  let n := (writeStripes c v g).foldl (fun a st => a + (s.rowCells c v g st).1) 0
  let p := s.cmdPort c
  if eOpcode c.entry ≠ opWrite then s.updCmd c.seq fun c => { c with pull := some 0 }
  else if c.rows.isEmpty ∧ c.pull.isNone ∧ 0 < s.sharedRoom p ∧ n ≤ 256 - (s.part p).floor + s.sharedRoom p then
    ((s.charge1 p 1 n).updCmd c.seq fun c => { c with faceCells := n }).pullTo c.seq (eLen c.entry)
  else s.rowReserve c v g

/-! ### WRITE, WRITE_ZEROES, TRIM: the start -/

/-- A keyed command takes its generation (R386, R394, R396): `none` where it waits or has ended. -/
def State.genStep (s : State) (c : Cmd) (v : Volume) (g : Group) : State × Bool :=
  let vol := eVolume c.entry
  let needs := v.keyed && (eOpcode c.entry == opWrite || g.format1)
  if !needs ∨ c.gen.isSome then (s, true)
  else
    match s.slotOf vol (s.volPhase vol) with
    | none => (((s.count .cphExhausted).endEarly c.seq stKeyExhausted).flow, false)
    | some (i, _) =>
      match s.takeGen i true with
      | (s, .ok) =>
        let n := match s.keySlot i with | some k => k.count | none => 0
        (s.updCmd c.seq fun c => { c with gen := some (i, n) }, true)
      | (s, .exhausted) =>
        let s := (s.count .cphExhausted).updCmd c.seq fun c => { c with badBlock := none }
        (((s.release c).updCmd c.seq (fun c => { c with keyHeld := false }) |>.finish c.seq stKeyExhausted 1).flow, false)
      | (s, .wait) => (s, false)

/-- WRITE, WRITE_ZEROES and TRIM on their thread (R130, R135): the checks before issue, the generation, buffer space
and the data pull. Stripes open one by one afterwards (R125). -/
def State.writeStart (s : State) (q cid op : Nat) : State :=
  match s.carried q cid op with
  | none => s
  | some c =>
    match s.target c with
    | none => (s.finish c.seq stInvalidVolume 0).flow
    | some (v, g) =>
      if c.begun then s
      else if s.groupDown v g then (s.endEarly c.seq stGroupFailed).flow
      else if !s.stepThread c then s
      else
        let (s, go) := s.genStep c v g
        match go, s.cmd c.seq with
        | true, some c =>
          let k := s.keyAt (keyIndex (eMkey c.entry))
          if op = opWrite ∧ k.kind = 0 ∧ !s.funcSends (k.binding % 64) then
            s.masterDisabled (k.binding % 64) (some c.seq)
          else
            let s := s.updCmd c.seq fun c => { c with begun := true, todo := writeStripes c v g }
            match s.cmd c.seq with
            | none => s
            | some c =>
              let s := if c.cls = 0 then s.c0Reserve c v g else s.spaceTake c v g
              s.endStep c
        | _, some c => s.endStep c
        | _, none => s

def execWrite (qp cid : Nat) (s : State) : Outcome := .next (s.writeStart qp cid opWrite)
def execWriteZeroes (qp cid : Nat) (s : State) : Outcome := .next (s.writeStart qp cid opZeroes)
def execTrim (qp cid : Nat) (s : State) : Outcome := .next (s.writeStart qp cid opTrim)

/-- A write of queue pair `q` that has begun and is still at work. -/
def State.writing (s : State) (q cid : Nat) : Option Cmd :=
  s.qpe.cmds.find? fun c => c.qp == q && c.cid == cid && isWrite c.entry && c.begun && c.phase != .finished
    && !s.stopped c

/-- C0_POOL_RESERVE (R358). -/
def State.c0PoolReserve (s : State) (q cid : Nat) : State :=
  match s.writing q cid with
  | none => s
  | some c =>
    match s.target c with
    | some (v, g) => if c.cls = 0 ∧ c.pull.isNone then s.c0Reserve c v g else s
    | none => s

def execC0PoolReserve (qp cid : Nat) (s : State) : Outcome := .next (s.c0PoolReserve qp cid)

/-- STAGING_RESERVE (R154, R156). -/
def State.stagingReserve (s : State) (q cid : Nat) : State :=
  match s.writing q cid with
  | none => s
  | some c =>
    match s.target c with
    | some (v, g) =>
      if c.cls ≠ 0 ∧ eOpcode c.entry = opWrite ∧ (c.pull.isNone ∨ !c.rows.isEmpty ∨ c.pull.getD 0 < eLen c.entry)
      then s.spaceTake c v g else s
    | none => s

def execStagingReserve (qp cid : Nat) (s : State) : Outcome := .next (s.stagingReserve qp cid)

/-! ### An open stripe -/

/-- The open stripe (group, stripe). -/
def State.openAt (s : State) (gi st : Nat) : Option OpenStripe :=
  s.str.opens.find? fun o => o.group == gi && o.stripe == st

/-- Update an open stripe. -/
def State.updOpen (s : State) (gi st : Nat) (f : OpenStripe → OpenStripe) : State :=
  { s with str := { s.str with opens := updFirst (fun o => o.group == gi && o.stripe == st) f s.str.opens } }

/-- Contiguous runs of sorted offsets: first offset and count. -/
def contig : List Nat → List (Nat × Nat)
  | [] => []
  | o :: os =>
    match contig os with
    | (p, n) :: rest => if o + 1 = p then (o, n + 1) :: rest else (o, 1) :: (p, n) :: rest
    | [] => [(o, 1)]

/-- Blocks that one member read of a stripe's writer takes: one where a repair reads again (R182), at most 8 in the smallest
buffer configuration (R155), else a unit. -/
def State.readPiece (s : State) (o : OpenStripe) (pos slot : Nat) : Nat :=
  if o.reread && o.fills.any fun f => f.1 == pos then 1
  else if s.sharedRoom (slotPort slot) = 0 ∧ o.cls ≠ 0 then 8 else 16

/-- A run of blocks in pieces of at most `k`. -/
def inPieces (k : Nat) (r : Nat × Nat) : List (Nat × Nat) :=
  (List.range (ceilDiv r.2 (max 1 k))).map fun i => (r.1 + k * i, min k (r.2 - k * i))

/-- Queue the member reads for old blocks of an open stripe (R126). -/
def State.preRead (s : State) (g : Group) (o : OpenStripe) (keys : List Nat) : State :=
  let ps := (keys.map (· / 16)).eraseDups
  ps.foldl (fun s p => match s.posAt g o.stripe p with
    | none => s
    | some (sl, lba) =>
      let offs := ((keys.filter fun k => k / 16 == p).map (· % 16)).mergeSort (· ≤ ·)
      ((contig offs).flatMap (inPieces (s.readPiece o p sl))).foldl (fun s r =>
        s.addMem sl .read (lba + r.1) r.2 [] o.cls (.preRead o.group o.stripe p)) s) s

/-- The volume and its extent index that hold a stripe. -/
def State.volAt (s : State) (gi : Nat) (g : Group) (st : Nat) : Option (Nat × Nat × Volume) :=
  match s.volOfRegion gi (g.regionOf st) with
  | some (h, i) => (s.volume h).map fun v => (h, i, v)
  | none => none

/-- Mark a data block of a stripe unavailable (R198, R201, R202, R205). -/
def State.markBlock (s : State) (gi : Nat) (g : Group) (kind st unit off : Nat) : State :=
  let s := s.count (if kind = 1 then .strLost else .strIndet)
  let unit := if g.erasure then unit else 0
  let hit (e : UblEntry) : Bool := e.group == gi && e.stripe == st && e.unit == unit && e.kind == kind
  let s : State :=
    if s.str.ubl.any hit then
      { s with str := { s.str with
        ubl := updFirst hit (fun e => { e with mask := e.mask ||| 2 ^ off }) s.str.ubl } }
    else if s.str.ubl.length < 65536 then
      let (h, i) := match s.volAt gi g st with | some (h, i, _) => (h, i) | none => (0, 0)
      { s with str := { s.str with
        ubl := s.str.ubl ++ [{ group := gi, kind, unit, mask := 2 ^ off, stripe := st, volume := h,
                               vlba0 := g.vlbaOf i st unit }] } }
    else
      let s := s.setField .strUblUsed 31 31 1
      { s with str := { s.str with ublOver := s.str.ublOver ++ [(gi, st, unit, 0xFFFF)] } }
  s.putRecord gi

/-- Blocks that a write has covered are available again (R201, R202). -/
def State.clearBlocks (s : State) (gi : Nat) (bs : List BlockAt) : State :=
  let maskOf (st u : Nat) : Nat := bs.foldl (fun a x => if x.stripe = st ∧ x.unit = u then a ||| 2 ^ x.off else a) 0
  let hit := s.str.ubl.any fun e => e.group == gi && (e.mask &&& maskOf e.stripe e.unit) != 0
  let cut (m st u : Nat) : Nat := m - (m &&& maskOf st u)
  let s : State := { s with str := { s.str with
    ubl := (s.str.ubl.map fun e =>
        if e.group = gi then { e with mask := cut e.mask e.stripe e.unit } else e).filter (·.mask != 0)
    ublOver := (s.str.ublOver.map fun x =>
        if x.1 = gi then (x.1, x.2.1, x.2.2.1, cut x.2.2.2 x.2.1 x.2.2.1) else x).filter (·.2.2.2 != 0) } }
  if hit then s.putRecord gi else s

/-- Old data at offset `o` of a stripe, by data unit, that is known. -/
def OpenStripe.oldData (o : OpenStripe) (k off : Nat) : List (Nat × Bytes) :=
  (List.range k).filterMap fun j => (tblFind o.got (bkey j off)).map fun b => (j, b)

/-- Old parity at an offset that is known. -/
def OpenStripe.oldParity (o : OpenStripe) (k m off : Nat) : List (Nat × Bytes) :=
  (List.range m).filterMap fun p => (tblFind o.got (bkey (k + p) off)).map fun b => (p, b)

/-- What one offset of an erasure stripe comes to: parity by index, more old blocks to read, data units lost with the
parity computed with zero blocks in their place, or the status that ends the write (R122, R126, R127, R205). -/
inductive OffPlan where
  | parity (ps : List (Nat × Bytes))
  | need (keys : List Nat)
  | lost (units : List Nat) (ps : List (Nat × Bytes))
  | fail (status : Nat)

/-- The host command that opened a stripe. -/
def OpenStripe.host (o : OpenStripe) : Option Nat := match o.writer with | .host seq => some seq | _ => none

/-- A block of data unit `u` rebuilt for an open stripe passes the check of R122. -/
def State.rebuiltOk (s : State) (g : Group) (o : OpenStripe) (u off : Nat) (b : Bytes) : Bool :=
  match s.volAt o.group g o.stripe with
  | some (h, i, _) => blockPasses g.format1 h (g.vlbaOf i o.stripe u + off) b
  | none => true

/-- Work out one offset of an erasure stripe. `old` may be solved from parity unless the stripe is in the scope of a
resynchronisation (R206). -/
def State.planOff (s : State) (g : Group) (o : OpenStripe) (off : Nat) : OffPlan :=
  let k := g.kd
  let nb := storedBytes g.format1
  let newAt (j : Nat) : Option Bytes := tblFind o.new (bkey j off)
  let old := o.oldData k off
  let oldOf (j : Nat) : Option Bytes := (old.find? fun e => e.1 == j).map (·.2)
  let par := o.oldParity k g.m off
  let final := (List.range k).filterMap fun j => (newAt j).orElse (fun _ => oldOf j) |>.map fun b => (j, b)
  let enc (d : List (Nat × Bytes)) : List (Nat × Bytes) := (List.range g.m).map fun p => (p, parityOf p nb d)
  let touched := (List.range k).filter fun j => (newAt j).isSome
  let wantPar := (List.range g.m).filter fun p => (s.posAt g o.stripe (k + p)).isSome
  let canDelta := o.method == .rmw && touched.all (fun j => (oldOf j).isSome)
    && wantPar.all fun p => par.any fun e => e.1 == p
  if final.length = k then .parity (enc final)
  else if canDelta then
    .parity (par.map fun e => (e.1, touched.foldl (fun a j =>
      match newAt j, oldOf j with
      | some n, some b => xorBytes a (scaleBytes (coef e.1 j) (xorBytes n b))
      | _, _ => a) e.2))
  else
    let miss := (List.range k).filter fun j => (oldOf j).isNone
    let more := if g.inScope o.stripe then [] else (List.range g.n).filter fun p =>
      (s.posAt g o.stripe p).isSome && (tblFind o.got (bkey p off)).isNone && !o.bad.contains (bkey p off)
    if !(g.inScope o.stripe) ∧ k ≤ old.length + par.length then
      let solved := solveData nb miss old par
      let all := old ++ solved
      let final := (List.range k).filterMap fun j =>
        (newAt j).orElse (fun _ => (all.find? fun e => e.1 == j).map (·.2)) |>.map fun b => (j, b)
      if solved.all fun e => (newAt e.1).isSome || s.rebuiltOk g o e.1 off e.2 then .parity (enc final)
      else .fail stIntegrityError
    else if !more.isEmpty then .need (more.map fun p => bkey p off)
    else if o.host.isSome ∧ !(g.inScope o.stripe) then .fail stMediaUnrecoverable
    else
      let lost := (List.range k).filter fun j => !(final.any fun e => e.1 == j)
      .lost lost (enc final)

/-- The member writes of one position from its blocks by offset (R130, R133, R136): one for each run of contiguous blocks
(DESIGN CHOICE; log entry 96). -/
def State.posWrites (s : State) (g : Group) (st pos : Nat) (op : MemOp) (bs : Tbl Bytes) : List StripeWrite :=
  match s.posAt g st pos with
  | none => []
  | some (sl, lba) =>
    (contig (bs.map (·.1))).map fun r =>
      let data := (List.range r.2).flatMap fun i => (tblFind bs (r.1 + i)).getD []
      let blank := data.all (· == 0#8)
      let op : MemOp := match op with
        | .write | .read | .acquire => .write
        | .writeZeroes => if blank then .writeZeroes else .write
        | .dealloc => if !blank then .write else if (s.drive sl).id.deallocZero then .dealloc else .writeZeroes
      { pos, slot := sl, op, lba := lba + r.1, n := r.2, data := if op = .write then data else [] }

/-- Blocks by offset of position `pos` among keyed blocks. -/
def atPos (t : Tbl Bytes) (pos : Nat) : Tbl Bytes :=
  t.filterMap fun e => if e.1 / 16 = pos then some (e.1 % 16, e.2) else none

/-- A stripe of write `q` comes to nothing at these offsets (R68, R122): the command's status and the first block affected
are kept. -/
def State.spoil (s : State) (q st : Nat) (g : Group) (fails : List (Nat × Nat)) : State :=
  match s.cmd q with
  | none => s
  | some c =>
    match s.volume (eVolume c.entry) with
    | none => s
    | some v =>
      let hit := (rowBlocks c v g st).filterMap fun x => (fails.find? fun f => f.1 == x.off).map fun f => (x.b, f.2)
      let all := (match c.badBlock with | some x => [x] | none => []) ++ hit
      let low := all.foldl (fun a x => match a with
        | none => some x
        | some y => if x.1 < y.1 then some x else some y) (none : Option (Nat × Nat))
      s.updCmd q fun c => { c with badBlock := low }

/-- Work out the member writes of an open stripe once its old blocks are there: more reads, or the writes (R126 to
R129, R134). -/
def State.planStripe (s : State) (gi st : Nat) : State :=
  match s.openAt gi st, s.group gi with
  | some o, some g =>
    if !g.erasure then
      let ws := (List.range g.n).flatMap fun p =>
        s.posWrites g st p o.op ((atPos o.new 0).map fun e => (e.1, e.2))
      s.updOpen gi st fun o => { o with planned := true, writes := ws }
    else
      let plans := o.offs.map fun off => (off, s.planOff g o off)
      let need := plans.flatMap fun x => match x.2 with | .need ks => ks | _ => []
      let fails := plans.filterMap fun x => match x.2 with | .fail k => some (x.1, k) | _ => none
      if !need.isEmpty then
        (s.updOpen gi st fun o => { o with pre := need }).preRead g o need
      else if !fails.isEmpty then
        let s := match o.host with
          | some q => s.spoil q st g fails
          | none => s
        s.updOpen gi st fun o => { o with planned := true, spoiled := true, writes := [] }
      else
        let zero := zeros (storedBytes g.format1)
        let lost := plans.flatMap fun x => match x.2 with | .lost us _ => us.map fun u => (u, x.1) | _ => []
        let kind := if g.inScope st then 2 else 1
        let s := lost.foldl (fun s x => s.markBlock gi g kind st x.1 x.2) s
        let data := lost.foldl (fun t x => tblIns t (bkey x.1 x.2) zero) o.new
        let par := plans.foldl (fun (t : Tbl Bytes) x =>
          let ps := match x.2 with | .parity ps => ps | .lost _ ps => ps | _ => []
          ps.foldl (fun t e => tblIns t (bkey (g.kd + e.1) x.1) e.2) t) []
        let ws := ((List.range g.kd).flatMap fun p => s.posWrites g st p o.op (atPos data p))
          ++ ((List.range g.m).map (· + g.kd)).flatMap fun p => s.posWrites g st p o.op (atPos par p)
        s.updOpen gi st fun o => { o with planned := true, writes := ws }
  | _, _ => s

/-- Send the data and pre-read cells of a host stripe (R128, R129). -/
def State.sendStripe (s : State) (gi : Nat) (g : Group) (o : OpenStripe) (seq src : Nat) : State :=
  let slicePort := match o.slice with | some (i, _) => [16 + i] | none => []
  let dataUnits := if o.op = .write then (o.new.map fun e => e.1 / 16).eraseDups else []
  let portOf (p : Nat) : List Nat := match s.posAt g o.stripe p with | some (sl, _) => [slotPort sl] | none => []
  let outs (u : Nat) : List Nat :=
    if g.erasure then portOf u ++ slicePort else ((List.range g.n).flatMap portOf).eraseDups
  let preUnits := if slicePort.isEmpty then [] else (o.got.map fun e => e.1 / 16).eraseDups
  let inPort (p : Nat) : Nat := match s.posAt g o.stripe p with
    | some (sl, _) => slotPort sl
    | none => slotPort (g.home o.stripe p).slot
  let dataRuns := (dataUnits.map fun u => (u, outs u)).filter fun x => !x.2.isEmpty
  let s := s.updOpen gi o.stripe fun o => { o with sent := true, cellsIn := dataRuns.length + preUnits.length }
  let s := dataRuns.foldl (fun s x =>
    let n := cellsOf g.format1 (o.new.filter fun e => e.1 / 16 == x.1).length
    let charged := o.staged = 0
    let s := if charged then s.updCmd seq fun c => { c with faceCells := c.faceCells - n } else s
    let s := s.updCmd seq fun c => { c with gone := c.gone + 16 * (o.new.filter fun e => e.1 / 16 == x.1).length }
    let pri := match s.cmd seq with | some c => c.rxPri | none => 0
    s.pushRun src x.2 o.cls n (.stripe gi o.stripe) o.keyed charged (some seq) false [] pri (!g.format1)) s
  preUnits.foldl (fun s p =>
    let n := cellsOf g.format1 (o.got.filter fun e => e.1 / 16 == p).length
    s.pushRun (inPort p) slicePort o.cls n (.stripe gi o.stripe) false false (some seq)) s

/-- The cells of a member read just ended leave its drive-cluster port for the stripe's slice (R128). -/
def State.sendPre (s : State) (gi : Nat) (g : Group) (o : OpenStripe) (slot n : Nat) : State :=
  match o.slice with
  | none => s
  | some (i, _) =>
    (s.updOpen gi o.stripe fun o => { o with cellsIn := o.cellsIn + 1 }).pushRun (slotPort slot) [16 + i] o.cls
      (cellsOf g.format1 n) (.stripe gi o.stripe) false false o.host

/-- Send the cells that the slice of a stripe has worked out: parity of a host stripe, every block that Class 7 work writes
(R128). -/
def State.sendParity (s : State) (gi : Nat) (g : Group) (o : OpenStripe) : State :=
  match o.slice with
  | none => s.updOpen gi o.stripe fun o => { o with paritySent := true, cellsOut := 0 }
  | some (i, _) =>
    let ws := o.writes.filter fun w => (o.host.isNone || decide (g.kd ≤ w.pos)) && w.op == .write
    let s := s.updOpen gi o.stripe fun o => { o with paritySent := true, cellsOut := ws.length }
    ws.foldl (fun s w =>
      let n := cellsOf g.format1 w.n
      (s.count .parOutCells n).pushRun (16 + i) [slotPort w.slot] o.cls n (.parity gi o.stripe) false false o.host) s

/-- The member writes of a stripe, each with the cells whose charge at the drive-cluster port ends when it is issued, and
the charges left over: a port that serves two copies holds a cell until the last of them (R129, R355, R359). -/
def shareCells (g : Group) : Tbl Nat → List StripeWrite → List (StripeWrite × Nat) × Tbl Nat
  | held, [] => ([], held)
  | held, w :: l =>
    let p := slotPort w.slot
    let h := tblGet 0 held p
    let n := if l.all fun x => slotPort x.slot != p then h
      else if g.erasure then min h (cellsOf g.format1 w.n) else 0
    let (ws, rest) := shareCells g (tblPut 0 held p (h - n)) l
    ((w, n) :: ws, rest)

/-- Queue the prepared member writes of a stripe, with FUA (R130, R133). The cells of a write that is no longer made are
freed. -/
def State.queueWrites (s : State) (gi : Nat) (g : Group) (o : OpenStripe) : State :=
  let (ws, rest) := shareCells g o.held o.writes
  let s := (s.updOpen gi o.stripe fun o => { o with queued := true, left := o.writes.length, held := [] }).freeHeld o.cls
    rest
  ws.foldl (fun s w => s.addMem w.1.slot w.1.op w.1.lba w.1.n w.1.data o.cls (.stripe gi o.stripe w.1.pos) w.2) s

/-- A slice context for an open stripe (R168): a wait is counted by the caller once. -/
def State.stripeSlice (s : State) (gi st : Nat) (c0 : Bool) : State :=
  match s.pickSlice c0 with
  | some i => (s.takeSlice i c0).updOpen gi st fun o => { o with slice := some (i, c0) }
  | none => s

end Sys2Proof.Machine
end

