-- ==== Sys2Proof/Machine/Fill.lean ====
section
/-! DEFINITION. What Class 7 work finds in the blocks an open stripe has read, and what it writes: filling a place, lost
blocks, resynchronisation, repair, Lantern's findings, the rekey walk (R180, R182, R193, R197, R198, R205, R211, R215, R401,
R722). -/

namespace Sys2Proof.Machine

/-! ### Blocks of an open stripe -/

/-- What a block of a stripe is to the work that reads it: not read yet, on a missing position, unreadable or failing the
check of R122, or good. -/
inductive Blk where
  | absent | missing | bad
  | good (b : Bytes)

/-- A block not read yet. -/
def Blk.isAbsent : Blk → Bool | .absent => true | _ => false

/-- A good block. -/
def Blk.isGood : Blk → Bool | .good _ => true | _ => false

/-- The block at a position and offset of an open stripe (R122, R174, R179). -/
def State.oblk (s : State) (g : Group) (o : OpenStripe) (off p : Nat) : Blk :=
  if (s.posAt g o.stripe p).isNone then .missing
  else
    match tblFind o.got (bkey p off) with
    | some b => .good b
    | none => if o.bad.contains (bkey p off) then .bad else .absent

/-- Good blocks of the candidates in order until `k` are there; none where one of them has not been read (R180). -/
def collect (k : Nat) (val : Nat → Blk) : List Nat → List (Nat × Bytes) → Option (List (Nat × Bytes))
  | [], got => some got
  | p :: ps, got =>
    if got.length = k then some got
    else
      match val p with
      | .absent => none
      | .good b => collect k val ps (got ++ [(p, b)])
      | _ => collect k val ps got

/-- What reconstructing a block comes to. -/
inductive Recon where
  | wait | lost
  | block (b : Bytes)

/-- All data blocks at an offset from `k` good blocks (R127, R180). -/
def solveAll (g : Group) (got : List (Nat × Bytes)) : List (Nat × Bytes) :=
  let known := got.filter fun e => decide (e.1 < g.kd)
  let parity := (got.filter fun e => decide (g.kd ≤ e.1)).map fun e => (e.1 - g.kd, e.2)
  let miss := (List.range g.kd).filter fun j => !(known.any fun e => e.1 == j)
  known ++ solveData (storedBytes g.format1) miss known parity

/-- The block of position `pos` reconstructed from the other positions (R180, R193). -/
def reconBlock (g : Group) (val : Nat → Blk) (pos : Nat) : Recon :=
  match collect g.kd val ((List.range g.n).filter (· != pos)) [] with
  | none => .wait
  | some got =>
    if got.length < g.kd then .lost
    else if !g.erasure then .block ((got.head?.map (·.2)).getD [])
    else
      let data := solveAll g got
      if pos < g.kd then .block (((data.find? fun e => e.1 == pos).map (·.2)).getD [])
      else .block (parityOf (pos - g.kd) (storedBytes g.format1) data)

/-- The block of a position for a copy into a new place: the position's own block where it is good, else reconstructed
(R197, R215, R722). -/
def fillBlock (g : Group) (val : Nat → Blk) (pos : Nat) : Recon :=
  match val pos with
  | .good b => .block b
  | .absent => .wait
  | _ => reconBlock g val pos

/-- The first `k` positions other than `pos` that can be read (R180). -/
def reconFrom (g : Group) (val : Nat → Blk) (pos : Nat) : List Nat :=
  (((List.range g.n).filter (· != pos)).filter fun p => (val p).isAbsent || (val p).isGood).take g.kd

/-- The positions still to read for a block of `pos`: its own, or others to reconstruct it from (R180). -/
def fillNeeds (g : Group) (val : Nat → Blk) (pos : Nat) : List Nat :=
  if (val pos).isAbsent then [pos] else (reconFrom g val pos).filter fun p => (val p).isAbsent

/-! ### What is written -/

/-- What a step of Class 7 work comes to: blocks still to be read, data units marked unavailable, blocks of positions in
their places, and blocks of the places being filled. -/
structure Job where
  need : List Nat := []
  marks : List (Nat × Nat) := []
  others : Tbl Bytes := []
  target : Tbl Bytes := []

/-- R198 at one offset: data blocks that cannot be recovered are lost; zero blocks and fresh parity go to every
writable position, and to the place of `pos` being filled. -/
def State.lostAt (s : State) (g : Group) (o : OpenStripe) (pos off : Nat) (j : Job) : Job :=
  let nb := storedBytes g.format1
  let zero := zeros nb
  let val := s.oblk g o off
  let good := (List.range g.kd).filterMap fun u => match val u with | .good b => some (u, b) | _ => none
  let lost := if g.erasure then (List.range g.kd).filter fun u => !(good.any fun e => e.1 == u) else [0]
  let content (p : Nat) : Option Bytes :=
    if !g.erasure then some zero
    else if p < g.kd then (if lost.contains p then some zero else none)
    else some (parityOf (p - g.kd) nb good)
  let put (t : Tbl Bytes) (p : Nat) : Tbl Bytes :=
    match content p with
    | some b => if p ≠ pos ∧ (s.posAt g o.stripe p).isSome then tblIns t (bkey p off) b else t
    | none => t
  let wait := (List.range g.kd).filter fun u => (val u).isAbsent
  if !wait.isEmpty then { j with need := j.need ++ wait.map fun u => bkey u off }
  else
    { j with
      marks := j.marks ++ lost.map fun u => (u, off)
      others := (List.range g.n).foldl put j.others
      target := match content pos with | some b => tblIns j.target (bkey pos off) b | none => j.target }

/-- The block of a place being filled at one offset (R193, R197, R198, R215, R722). -/
def State.fillOff (s : State) (g : Group) (o : OpenStripe) (pos : Nat) (j : Job) (off : Nat) : Job :=
  let val := s.oblk g o off
  match fillBlock g val pos with
  | .wait => { j with need := j.need ++ (fillNeeds g val pos).map fun p => bkey p off }
  | .block b => { j with target := tblIns j.target (bkey pos off) b }
  | .lost => s.lostAt g o pos off j

/-- R205 at one offset. -/
def State.resyncOff (s : State) (g : Group) (o : OpenStripe) (j : Job) (off : Nat) : Job :=
  let nb := storedBytes g.format1
  let val := s.oblk g o off
  let ps := List.range (if g.erasure then g.kd else g.n)
  let wait := ps.filter fun p => (val p).isAbsent
  let good := ps.filterMap fun p => match val p with | .good b => some (p, b) | _ => none
  let put (t : Tbl Bytes) (p : Nat) (b : Bytes) : Tbl Bytes :=
    if (s.posAt g o.stripe p).isSome then tblIns t (bkey p off) b else t
  if !wait.isEmpty then { j with need := j.need ++ wait.map fun p => bkey p off }
  else if !g.erasure then
    match good with
    | [] => { j with
        marks := j.marks ++ [(0, off)]
        others := (List.range g.n).foldl (fun t p => put t p (zeros nb)) j.others }
    | (src, b) :: _ => { j with
        others := ((List.range g.n).filter (· != src)).foldl (fun t p => put t p b) j.others }
  else
    let lost := (List.range g.kd).filter fun u => !(good.any fun e => e.1 == u)
    let t := lost.foldl (fun t u => put t u (zeros nb)) j.others
    let t := (List.range g.m).foldl (fun t p => put t (g.kd + p) (parityOf p nb good)) t
    { j with marks := j.marks ++ lost.map fun u => (u, off), others := t }

/-- A repair of position `pos` at one offset (R182): a block that reads well is left, one that does not is reconstructed
afresh; one that cannot be is left. -/
def State.repairOff (s : State) (g : Group) (o : OpenStripe) (pos : Nat) (j : Job) (off : Nat) : Job :=
  let val := s.oblk g o off
  if o.reread && (val pos).isAbsent then { j with need := j.need ++ [bkey pos off] }
  else if o.reread && (val pos).isGood then j
  else
    match reconBlock g val pos with
    | .wait => { j with need := j.need ++ ((reconFrom g val pos).filter fun p => (val p).isAbsent).map fun p => bkey p off }
    | .block b => { j with target := tblIns j.target (bkey pos off) b }
    | .lost => j

/-! ### Lantern's findings (R211) -/

/-- What Lantern finds at one offset of a stripe: the outcome with the position, and the blocks that repair it
(R211). -/
structure Finding where
  outcome : Nat
  position : Nat
  fix : List (Nat × Bytes)

/-- The unit whose error explains every syndrome of a FORMAT 1 stripe, with the error bytes (R211). -/
def locate (g : Group) (syn : List (Nat × Bytes)) : Option (Nat × Bytes) :=
  let fits (j : Nat) : Option (Nat × Bytes) :=
    match syn with
    | [] => none
    | (p0, s0) :: _ =>
      let e := scaleBytes (gfInv (coef p0 j)) s0
      if syn.all fun x => x.2 == scaleBytes (coef x.1 j) e then some (j, e) else none
  match (List.range g.kd).filterMap fits with
  | [x] => some x
  | _ => none

/-- R211 at one offset; none while a read is not there, an empty list where nothing is found. A mirror copy that is
unreadable or fails R122 is given outcome 3 (DESIGN CHOICE; log entry 95). What R182 repairs has no blocks of its own here. -/
def State.lanternOff (s : State) (g : Group) (o : OpenStripe) (off : Nat) : Option (List Finding) :=
  let val := s.oblk g o off
  let all := (List.range g.n).map fun p => (p, val p)
  if all.any fun x => match x.2 with | .absent | .missing => true | _ => false then none
  else
    let good := all.filterMap fun x => match x.2 with | .good b => some (x.1, b) | _ => none
    let bad := (List.range g.n).filter fun p => !(good.any fun e => e.1 == p)
    if g.tol < bad.length then some [{ outcome := 6, position := 0xFF, fix := [] }]
    else if !g.erasure then
      match good with
      | [] => some []
      | (_, b) :: rest =>
        if !bad.isEmpty then some (bad.map fun p => { outcome := 3, position := p, fix := [] })
        else if rest.any fun x => x.2 != b then
          some [{ outcome := 5, position := 0xFF,
                   fix := (rest.filter fun x => x.2 != b).map fun x => (x.1, b) }]
        else some []
    else if !bad.isEmpty then some (bad.map fun p => { outcome := 1, position := p, fix := [] })
    else
      let nb := storedBytes g.format1
      let data := good.filter fun e => decide (e.1 < g.kd)
      let syn := (List.range g.m).map fun p =>
        (p, xorBytes (((good.find? fun e => e.1 == g.kd + p).map (·.2)).getD []) (parityOf p nb data))
      let hot := syn.filter fun x => x.2.any (· != 0#8)
      let par (ps : List Nat) : List (Nat × Bytes) := ps.map fun p => (g.kd + p, parityOf p nb data)
      if hot.isEmpty then some []
      else if !g.format1 then
        some (hot.map fun x => { outcome := 2, position := g.kd + x.1, fix := par [x.1] })
      else if 2 ≤ g.m ∧ hot.length = 1 then
        some (hot.map fun x => { outcome := 2, position := g.kd + x.1, fix := par [x.1] })
      else
        match (if 2 ≤ g.m then locate g syn else none) with
        | some (j, e) =>
          let d := ((data.find? fun x => x.1 == j).map (·.2)).getD []
          some [{ outcome := 1, position := j, fix := [(j, xorBytes d e)] }]
        | none => some [{ outcome := 4, position := 0xFF, fix := par (hot.map (·.1)) }]

/-- What a repair of Lantern writes at one offset, from the blocks read again (R210, R211). -/
def State.lanternFix (s : State) (g : Group) (o : OpenStripe) (j : Job) (off : Nat) : Job :=
  match s.lanternOff g o off with
  | none => { j with need := j.need ++ ((List.range g.n).filter fun p => (s.oblk g o off p).isAbsent).map fun p => bkey p off }
  | some fs =>
    if fs.any fun f => f.outcome == 6 then s.lostAt g o g.n off j
    else fs.foldl (fun j f => { j with others := f.fix.foldl (fun t y => tblIns t (bkey y.1 off) y.2) j.others }) j

/-! ### The rekey walk (R401) -/

/-- The data blocks of a stripe that the walk re-encrypts: key, volume block, new stored block (R121, R401). -/
def State.walkBlocks (s : State) (h : Nat) (v : Volume) (g : Group) (w : Walk) (ext st gen : Nat)
    (data : Tbl Bytes) : List (Nat × Nat × Bytes) :=
  match s.keySlot w.old, s.keySlot w.new with
  | some ko, some kn =>
    data.filterMap fun e =>
      let unit := e.1 / 16
      let vlba := g.vlbaOf ext st unit + e.1 % 16
      if v.size ≤ vlba ∨ isZeroBlock g.format1 e.2 then none
      else if g.format1 then
        some (e.1, vlba, Crypto.xtsEnc kn.key vlba (Crypto.xtsDec ko.key vlba e.2))
      else
        let wg := leAt e.2 (4096 + 16) 4
        if wg / 2 ^ 31 ≠ ko.phase then none
        else
          let pt := Crypto.gcmData ko.key (gcmIv vlba wg) (e.2.take 4096)
          some (e.1, vlba, sealGcm kn.key h vlba (wgenOf kn.phase gen) pt)
  | _, _ => []

/-- The lane that works on region `x` in a rekey walk: of the lanes whose cipher group is ON, the one at x mod their number
(R401). -/
def State.walkLane (s : State) (x : Nat) : Option Nat :=
  let on := (List.range 9).filter fun l => s.readsOn (if l < 4 then 158 else 159)
  on[x % on.length]?

/-- The lane decrypts and encrypts `n` blocks of region `x` as Class 7 work (R379, R401). -/
def State.walkMessages (s : State) (x n : Nat) : State :=
  match s.walkLane x with
  | none => s
  | some l => (List.range (2 * n)).foldl (fun s _ => s.laneMessage l 7) s

/-- The data blocks of a stripe at one offset, reconstructed where needed (R401). -/
def State.walkOff (s : State) (g : Group) (o : OpenStripe) (j : Job) (off : Nat) : Job :=
  let val := s.oblk g o off
  (List.range g.kd).foldl (fun j u =>
    let us := if g.erasure then [u] else List.range g.n
    let u := if g.erasure then u else (us.find? fun p => (val p).isGood || (val p).isAbsent).getD 0
    match fillBlock g val u with
    | .wait => { j with need := j.need ++ (fillNeeds g val u).map fun p => bkey p off }
    | .block b => { j with target := tblIns j.target (bkey (if g.erasure then u else 0) off) b }
    | .lost => j) j

/-- Blocks that a changed stripe writes: changed data or copies, and parity at the changed offsets (R126, R127). -/
def reparity (g : Group) (data new : Tbl Bytes) : Tbl Bytes :=
  let offs := (new.map fun e => e.1 % 16).eraseDups
  if !g.erasure then
    (List.range g.n).foldl (fun t p => new.foldl (fun t e => tblIns t (bkey p (e.1 % 16)) e.2) t) []
  else
    offs.foldl (fun t off =>
      let d := (List.range g.kd).filterMap fun u =>
        ((tblFind new (bkey u off)).orElse fun _ => tblFind data (bkey u off)).map fun b => (u, b)
      if d.length < g.kd then t
      else (List.range g.m).foldl (fun t p =>
        tblIns t (bkey (g.kd + p) off) (parityOf p (storedBytes g.format1) d)) t) new

/-! ### Pacing (R195, R209, R401) -/

/-- Bytes by slot. -/
abbrev Cost := Tbl Nat

/-- Bytes by slot of places: slot and blocks. -/
def costOf (nb : Nat) (xs : List (Nat × Nat)) : Cost :=
  xs.foldl (fun t x => tblIns t x.1 (tblGet 0 t x.1 + x.2 * nb)) []

/-- Every slot's bucket of this millisecond allows its bytes (log entry 34). -/
def paceOk (used : Tbl Nat) (mbs : Nat) (cost : Cost) : Bool :=
  cost.all fun e => let u := tblGet 0 used e.1; u == 0 || decide (u + e.2 ≤ mbs * 1000)

/-- The buckets after a cost. -/
def paceAdd (used : Tbl Nat) (cost : Cost) : Tbl Nat := cost.foldl (fun t e => tblPut 0 t e.1 (tblGet 0 t e.1 + e.2)) used

/-- A cost of a stripe's Class 7 work is charged: against CPH_WALK_RATE for a rekey walk, else against STR_RBLD_RATE (R195,
R401). -/
def State.paceCharge (s : State) (w : Writer) (cost : Cost) : State :=
  match w with
  | .rekey _ => { s with cph := { s.cph with paced := paceAdd s.cph.paced cost } }
  | _ => { s with str := { s.str with paced := paceAdd s.str.paced cost } }

/-- The bytes that member writes move, by slot. -/
def writesCost (nb : Nat) (ws : List StripeWrite) : Cost := costOf nb (ws.map fun w => (w.slot, w.n))

/-- The bytes that reading keyed blocks of a stripe moves, by slot. -/
def State.keysCost (s : State) (g : Group) (st : Nat) (keys : List Nat) : Cost :=
  costOf (storedBytes g.format1) (keys.filterMap fun k => (s.posAt g st (k / 16)).map fun x => (x.1, 1))

/-! ### Plans -/

/-- Member writes of a place: position, slot, first drive block, blocks by offset. -/
def placeWrites (pos sl lba : Nat) (bs : Tbl Bytes) : List StripeWrite :=
  (contig (bs.map (·.1))).map fun r =>
    { pos, slot := sl, op := .write, lba := lba + r.1, n := r.2
      data := (List.range r.2).flatMap fun i => (tblFind bs (r.1 + i)).getD [] }

/-- Member writes of positions in their places. -/
def State.otherWrites (s : State) (g : Group) (st : Nat) (t : Tbl Bytes) : List StripeWrite :=
  (List.range g.n).flatMap fun p =>
    match s.posAt g st p with
    | some (sl, lba) => placeWrites p sl lba (atPos t p)
    | none => []

/-- What the Class 7 work that opened a stripe comes to with the blocks read so far. -/
def State.bgJob (s : State) (g : Group) (o : OpenStripe) : Job :=
  let offs := List.range 16
  match o.writer with
  | .resync => offs.foldl (s.resyncOff g o) {}
  | .lantern => offs.foldl (s.lanternFix g o) {}
  | .repair => o.fills.foldl (fun j f => o.offs.foldl (s.repairOff g o f.1) j) {}
  | .rekey _ => offs.foldl (s.walkOff g o) {}
  | _ => o.fills.foldl (fun j f => offs.foldl (s.fillOff g o f.1) j) {}

/-- More blocks of an open stripe are read for Class 7 work, and charged (R195). -/
def State.bgRead (s : State) (g : Group) (o : OpenStripe) (keys : List Nat) : State :=
  let keys := keys.eraseDups
  let s := s.updOpen o.group o.stripe fun o => { o with pre := keys }
  (s.paceCharge o.writer (s.keysCost g o.stripe keys)).preRead g o keys

/-- The member writes of a stripe of Class 7 work are worked out: marks come first, and the writes wait for the group
record that holds them (R198, R205). -/
def State.bgPlanned (s : State) (gi : Nat) (g : Group) (o : OpenStripe) (j : Job) (method : Method) (new : Tbl Bytes)
    (ws : List StripeWrite) : State :=
  let kind := match o.writer with | .resync => 2 | _ => 1
  let s := j.marks.foldl (fun s x => s.markBlock gi g kind o.stripe x.1 x.2) s
  let s := s.paceCharge o.writer (writesCost (storedBytes g.format1) ws)
  s.updOpen gi o.stripe fun o => { o with
    planned := true, writes := ws, new, method, afterRecord := !j.marks.isEmpty
    positions := ((ws.map (·.pos)).eraseDups).mergeSort (· ≤ ·) }

/-- Plan a stripe of Class 7 work: more reads, or its member writes; none while a rekey walk waits for a generation. -/
def State.planBg (s : State) (gi : Nat) (g : Group) (o : OpenStripe) : Option State :=
  let j := s.bgJob g o
  if !j.need.isEmpty then some (s.bgRead g o j.need)
  else
    match o.writer with
    | .rekey vol =>
      match tblFind s.cph.walks vol, s.volume vol with
      | some w, some v =>
        let ext := (v.ext.findIdx? (· == g.regionOf o.stripe)).getD 0
        if (s.walkBlocks vol v g w ext o.stripe 0 j.target).isEmpty then some (s.bgPlanned gi g o j o.method [] [])
        else
          match s.takeGen w.new false with
          | (s, .ok) =>
            let gen := match s.keySlot w.new with | some k => k.count | none => 0
            let bs := s.walkBlocks vol v g w ext o.stripe gen j.target
            let new : Tbl Bytes := bs.foldl (fun t e => tblIns t e.1 e.2.2) []
            let us := (new.map fun e => e.1 / 16).eraseDups
            let method : Method := if !g.erasure then .copy
              else if new.length = 16 * g.kd then .full
              else if 2 * us.length ≤ g.kd then .rmw else .recon
            let s := s.walkMessages (g.regionOf o.stripe) bs.length
            some ((s.count .cphWalkBlocks bs.length).bgPlanned gi g o j method new
              (s.otherWrites g o.stripe (reparity g j.target new)))
          | _ => none
      | _, _ => some (s.bgPlanned gi g o j o.method [] [])
    | _ =>
      let ws := o.fills.flatMap (fun f => placeWrites f.1 f.2.1 f.2.2 (atPos j.target f.1))
        ++ s.otherWrites g o.stripe j.others
      some (s.bgPlanned gi g o j o.method [] ws)

/-! ### Opening a stripe -/

/-- A write opens a stripe: Lantern's look at it is spoiled (R210), and its region joins the stale sets (R213). -/
def State.noteOpen (s : State) (g : Group) (gi st : Nat) : State :=
  let s := s.markStale st g
  { s with str := { s.str with lanternNow := s.str.lanternNow.map fun t =>
      if t.look.group = gi ∧ t.look.stripe = st then { t with spoiled := true } else t } }

end Sys2Proof.Machine
end

