-- ==== Sys2Proof/Machine/Member.lean ====
section
/-! DEFINITION. The course of an open stripe, the end of member commands, members that leave service, and the rows
DRIVE_ISSUE, STRIPE_OPEN, MEMBER_COMPLETION and the timeouts of members (R125 to R134, R142 to R152, R172 to R178,
R205 to R208, R235 to R237). -/

namespace Sys2Proof.Machine

/-! ### Labels as bytes (R111) -/

/-- The label in the first drive block, none where it does not begin with MAGIC (R187). -/
def parseLabel (b : Bytes) : Option DriveLabel :=
  if leAt b 0 8 ≠ 0x4F434C5353545241 then none
  else some {
    group := byteAt b 8
    erasure := byteAt b 9 == 1
    width := byteAt b 10
    m := byteAt b 11
    spare := byteAt b 12
    format1 := byteAt b 13 == 1
    awu := byteAt b 14
    clean := bitOf (byteAt b 15) 0
    bitmap := bitOf (byteAt b 15) 1
    seed := leAt b 16 8
    slots := leAt b 24 8
    local_ := byteAt b 32
    lgen := leAt b 40 8
    periods := leAt b 48 8 }

/-- What the controller knows of a drive is replaced; a change of the slots reached is reported (R564, R574). -/
def State.setDrive (s : State) (sl : Nat) (d : Drive) : State :=
  let t : State := { s with str := { s.str with drives := tblPut {} s.str.drives sl d } }
  if t.slotsReached = s.slotsReached then t else t.reachChange

/-- A drive that a new label has been written to. -/
def State.setLabel (s : State) (sl : Nat) (b : Bytes) : State :=
  s.setDrive sl { s.drive sl with label := parseLabel b }

/-! ### The end of a host write (R132, R134, R201) -/

/-- A write all of whose stripes have closed is finished. -/
def State.writeEnd (s : State) (seq : Nat) : State :=
  match s.cmd seq with
  | none => s
  | some c =>
    if c.begun ∧ c.todo.isEmpty ∧ c.open_.isEmpty ∧ c.phase ≠ .finished then
      if c.groupFailed then (s.finish seq stGroupFailed 0).flow
      else
        match c.badBlock with
        | some (b, st) => (s.finish seq st b).flow
        | none => (s.finish seq (if c.missed then Config.cutStatus seq % 256 else stSuccess) 0).flow
    else s

/-! ### Cursors of Class 7 work -/

/-- Stripes of the whole regions of a group (R118). -/
def Group.usedStripes (g : Group) : Nat := g.regions * g.t

/-- The next stripe from `from_` on that `p` picks by its row, within the used stripes. -/
def Group.nextStripe (g : Group) (from_ : Nat) (p : Nat → Bool) : Option Nat :=
  ((List.range g.rows).map (· + from_)).find? fun st => decide (st < g.usedStripes) && p (st % g.rows)

/-- Positions that the rebuild of slot `sl` writes, by row (R189). -/
def Group.rebuildRows (g : Group) (sl : Nat) : List Spare := (g.relocate g.place).taken.filter fun x => x.by_ == sl

/-- Home positions of slot `sl`: row and position (R114). -/
def Group.homeRows (g : Group) (sl : Nat) : List (Nat × Nat) :=
  let loc := (g.slots.findIdx? (· == sl)).getD 0
  (g.seq.zipIdx.filter fun x => x.1 == loc).map fun x => (x.2 / g.n, x.2 % g.n)

/-- Positions that the rebuild of slot `sl` leaves unrelocated: its own, and those on its spare chunks (R189, R190). -/
def Group.unrelocRows (g : Group) (sl : Nat) : List (Nat × Nat) :=
  ((g.relocate g.place).unreloc.filter fun x => x.2.2 == sl).map fun x => (x.1, x.2.1)

/-- A group whose failure count is back at its tolerance leaves FAILED (R178). -/
def State.failedCheck (s : State) (gi : Nat) : State :=
  match s.group gi with
  | some g => if g.failed ∧ s.failures gi ≤ g.tol then s.setGroup gi { g with failed := false } else s
  | none => s

/-- A slot leaves the evacuation list and enters service (R197, R215): R189 is evaluated and the labels are
rewritten. Its rebuild cursor stays: positions it placed lie behind it while a sweep moves them (R723). -/
def State.enterService (s : State) (gi sl : Nat) : State :=
  let s := s.updMember sl fun m => { m with
    state := .inService, stale := [], staleAt := 0, staleHeld := true, refill := 0, unreloc := false, startLater := false }
  let s := (s.failedCheck gi).evaluate gi []
  let s := (s.rewriteLabels gi).replicaStart gi
  s.putRecord gi

/-- The rebuild cursor of a slot moves to `to`: unrelocated positions it passes are counted (R190), the record is
stored after every 1,024 regions (R191), and past the last region the slot is EVACUATED (R196). -/
def State.rebuildTo (s : State) (gi sl nxt : Nat) : State :=
  match s.group gi, s.member sl with
  | some g, some m =>
    if m.state ≠ .rebuilding then s
    else
      let un := g.unrelocRows sl
      let left := ((List.range (nxt - m.rebuild)).map (· + m.rebuild)).foldl
        (fun a st => a + (un.filter fun x => x.1 == st % g.rows).length) 0
      let s := if left = 0 then s else (s.count .strUnreloc left).updMember sl fun m => { m with unreloc := true }
      let s := s.updMember sl fun m => { m with rebuild := nxt }
      let s := if nxt / (1024 * g.t) ≠ m.rebuild / (1024 * g.t) then s.putRecord gi else s
      if g.usedStripes ≤ nxt then
        let s := (s.updMember sl fun m => { m with state := .evacuated }).failedCheck gi
        (s.rewriteLabels gi).putRecord gi
      else s
  | _, _ => s

/-- Where the rebuild of a slot next has a position to write; the end of the used stripes where it has none. -/
def Group.rebuildNext (g : Group) (sl from_ : Nat) : Nat :=
  let rows := (g.rebuildRows sl).map (·.row)
  (g.nextStripe from_ fun r => rows.contains r).getD g.usedStripes

/-- Where the refill of a slot next has a position to write. -/
def Group.refillNext (g : Group) (sl from_ : Nat) : Nat :=
  let rows := (g.homeRows sl).map (·.1)
  (g.nextStripe from_ fun r => rows.contains r).getD g.usedStripes

/-- The refill cursor of a slot moves to `to` (R191, R197). -/
def State.refillTo (s : State) (gi sl nxt : Nat) : State :=
  match s.group gi, s.member sl with
  | some g, some m =>
    if m.state ≠ .refilling then s
    else
      let s := s.updMember sl fun m => { m with refill := nxt }
      let s := if nxt / (1024 * g.t) ≠ m.refill / (1024 * g.t) then s.putRecord gi else s
      if g.usedStripes ≤ nxt then s.enterService gi sl else s
  | _, _ => s

/-- The next stripe of the member's stale set to resynchronise, and the set with exhausted regions taken out. -/
def Group.deltaNext (g : Group) (rows : List Nat) (at_ : Nat) : Tbl Unit → Option Nat × Tbl Unit
  | [] => (none, [])
  | (r, _) :: t =>
    let from_ := max at_ (r * g.t)
    match ((List.range (g.t - (from_ - r * g.t))).map (· + from_)).find? fun st => rows.contains (st % g.rows) with
    | some st => (some st, (r, ()) :: t)
    | none => g.deltaNext rows 0 t

/-- The delta resynchronisation of a slot goes on past stripe `at_`; it ends when the set is empty (R215). -/
def State.deltaTo (s : State) (gi sl at_ : Nat) : State :=
  match s.group gi, s.member sl with
  | some g, some m =>
    if m.state ≠ .returning then s
    else
      let (next, stale) := g.deltaNext ((g.homeRows sl).map (·.1)) at_ m.stale
      let s := s.updMember sl fun m => { m with stale, staleAt := next.getD 0 }
      if stale.isEmpty then s.enterService gi sl else s
  | _, _ => s

/-- A stripe has been resynchronised (R205, R206): it leaves the scope. -/
def Group.resynced (g : Group) (st : Nat) : Group :=
  if g.resync.contains st then { g with resync := g.resync.filter (· != st) }
  else
    match g.resyncRegions with
    | [] => g
    | x :: rest =>
      if g.regionOf st ≠ x then g
      else if st % g.t + 1 < g.t then { g with resyncAt := st % g.t + 1 }
      else { g with resyncRegions := rest, resyncAt := 0 }

/-- One stripe of a deleted volume's regions has been zeroed; after its last the region is free (R160). -/
def Group.zeroed (g : Group) (st : Nat) : Group :=
  match g.zeroing with
  | [] => g
  | x :: rest =>
    if g.regionOf st ≠ x then g
    else if st % g.t + 1 < g.t then { g with zeroAt := st % g.t + 1 }
    else { g with zeroing := rest, zeroAt := 0 }

/-- The spare chunks that no longer hold a position: layer and slot (R197, R722). -/
def State.sweepFrees (s : State) (g : Group) (sw : Sweep) : List (Nat × Nat) :=
  let new := (g.relocate g.place).taken
  ((g.relocate sw.old).taken.filter fun x => s.mstate x.slot == .inService
    && !(new.any fun y => y.layer == x.layer && y.slot == x.slot)).map fun x => (x.layer, x.slot)

/-- The zero writes of a sweep's period are queued, and charged (R195, R722 step 4). -/
def State.sweepZeros (s : State) (gi : Nat) (g : Group) (sw : Sweep) : State :=
  let zs := (s.sweepFrees g sw).map fun x => (x.2, g.chunkLba sw.period x.1)
  let s := s.setGroup gi { g with sweep := some { sw with zeroing := true } }
  let s := s.paceCharge .sweep (costOf (storedBytes g.format1) (zs.map fun z => (z.1, 16)))
  zs.foldl (fun s z => s.addMem z.1 .writeZeroes z.2 16 [] 7 (.sweepZero gi)) s

/-- A slot that was to start rebuilding once a sweep had ended does so (R722). -/
def State.lateStarts (s : State) (gi : Nat) : State :=
  match s.group gi with
  | none => s
  | some g => g.slots.foldl (fun s sl =>
      if (s.member sl).any fun m => m.startLater then s.startRebuild gi sl else s) s

/-- Where the relocation sweep's period stands: its moved positions are written, then its freed chunks, then its stripes
close together and the cursor moves (R722). -/
def State.sweepCheck (s : State) (gi : Nat) : State :=
  let mine (o : OpenStripe) : Bool := o.group == gi && o.writer == .sweep
  let busy := (s.str.opens.any fun o => mine o && !(o.queued && o.left == 0))
    || s.str.mem.any fun m => m.who == .sweepZero gi
  let s := if busy then s else match s.group gi with
    | none => s
    | some g => match g.sweep with
      | some sw => if sw.zeroing then s else s.sweepZeros gi g sw
      | none => s
  if busy ∨ s.str.mem.any fun m => m.who == .sweepZero gi then s
  else
    let gone := s.str.opens.filter mine
    let s : State := { s with str := { s.str with opens := s.str.opens.filter fun o => !mine o } }
    let s := gone.foldl (fun s o => s.freeSlice o.slice) s
    match s.group gi with
    | none => s
    | some g =>
      match g.sweep with
      | none => s
      | some sw =>
        if gone.any fun o => !o.failed.isEmpty then s.setGroup gi { g with sweep := some { sw with zeroing := false } }
        else if sw.period + 1 < g.periods then
          let s := s.setGroup gi { g with sweep := some { sw with period := sw.period + 1, zeroing := false } }
          if (sw.period + 1) % 1024 = 0 then s.putRecord gi else s.touch
        else
          let s := s.setGroup gi { g with sweep := none }
          ((((s.evaluate gi []).putRecord gi)).autoAct gi).lateStarts gi

/-! ### Closing a stripe (R130, R134, R142) -/

/-- More positions of a stripe have failed than the group bears (R134). -/
def State.tooMany (s : State) (g : Group) (o : OpenStripe) : Bool :=
  if g.erasure then
    decide (g.m < ((List.range g.n).filter fun p => o.failed.contains p || (s.posAt g o.stripe p).isNone).length)
  else o.done.isEmpty

/-- The walk's cursor passes a stripe: the next stripe of the region, else the next region of the volume (R401). -/
def Walk.pass (w : Walk) (g : Group) (st : Nat) : Walk :=
  if st % g.t + 1 < g.t then { w with stripe := st % g.t + 1 } else { w with region := w.region + 1, stripe := 0 }

/-- The walk of a volume passes a stripe; its cursor is stored after every 1,024 regions (R403). -/
def State.walkPass (s : State) (vol : Nat) (g : Group) (st : Nat) : State :=
  match tblFind s.cph.walks vol with
  | none => s
  | some w =>
    let w := w.pass g st
    let s : State := { s with cph := { s.cph with walks := tblIns s.cph.walks vol w } }
    if w.stripe = 0 ∧ w.region % 1024 = 0 then s.cfgPut 0x06 vol (some (.rekey vol w.region)) else s.touch

/-- A stripe whose every written position has completed or failed closes, and its writer goes on. -/
def State.stripeClose (s : State) (gi st : Nat) : State :=
  match s.openAt gi st, s.group gi with
  | some o, some g =>
    if o.writer = .sweep then s.sweepCheck gi
    else
      let s : State := { s with str := { s.str with
        opens := s.str.opens.filter fun x => !(x.group == gi && x.stripe == st) } }
      let s := ((s.freeSlice o.slice).unstage o.point o.staged).touch
      match o.writer with
      | .host seq =>
        let bad := s.tooMany g o
        let s := match s.cmd seq with
          | some c => match s.target c with
            | some (v, g) => if bad || o.spoiled then s else s.clearBlocks gi (rowBlocks c v g st)
            | none => s
          | none => s
        (s.updCmd seq fun c => { c with open_ := c.open_.erase st, groupFailed := c.groupFailed || bad }).writeEnd seq
      | .zeroing => s.updGroup gi fun g => g.zeroed st
      | .rebuild sl => if o.failed.isEmpty then s.rebuildTo gi sl (g.rebuildNext sl (st + 1)) else s
      | .refill sl => if o.failed.isEmpty then s.refillTo gi sl (g.refillNext sl (st + 1)) else s
      | .resync => if o.done.isEmpty && !o.failed.isEmpty then s else s.updGroup gi fun g => g.resynced st
      | .delta sl => if o.failed.isEmpty then s.deltaTo gi sl (st + 1) else s
      | .rekey v =>
        if o.done.isEmpty && !o.failed.isEmpty then s else s.walkPass v g st
      | .repair | .lantern | .sweep => s
  | _, _ => s

/-! ### The course of an open stripe (R126 to R130, R168) -/

/-- The member in a slot takes writes. -/
def State.takesWrites (s : State) (sl : Nat) : Bool :=
  let st := s.mstate sl
  st == .inService || st == .returning || st == .refilling

/-- Every position that a sweep's period moves has been read (R722). -/
def State.sweepRead (s : State) (gi : Nat) : Bool :=
  s.str.opens.all fun o => !(o.group == gi && o.writer == .sweep) || (o.planned && o.pre.isEmpty)

/-- One stage of an open stripe, `none` where it waits: a slice, its plan, its cells to the slice, its parity cells,
its member writes, its close. -/
def State.stripeStage (s : State) (gi st : Nat) : Option State :=
  match s.openAt gi st, s.group gi with
  | some o, some g =>
    if g.erasure ∧ o.slice.isNone then
      match s.pickSlice (o.cls == 0) with
      | some i => some ((s.takeSlice i (o.cls == 0)).updOpen gi st fun o => { o with
          slice := some (i, o.cls == 0), wantSlice := false })
      | none =>
        if o.wantSlice then none
        else some ((s.count .parCtxWait).updOpen gi st fun o => { o with wantSlice := true })
    else if !o.sent then
      match o.host.bind fun q => (s.cmd q).map fun c => (q, c) with
      | some (seq, c) => some (s.sendStripe gi g o seq (s.cmdPort c))
      | none => some (s.updOpen gi st fun o => { o with sent := true })
    else if !o.pre.isEmpty then none
    else if !o.planned then if o.host.isSome then some (s.planStripe gi st) else s.planBg gi g o
    else if 0 < o.cellsIn then none
    else if !o.paritySent then some (s.sendParity gi g o)
    else if 0 < o.cellsOut then none
    else if !o.queued then
      if (o.afterRecord && s.cfgWaits 0x07 gi) || (o.writer == .sweep && !s.sweepRead gi) then none
      else
      let gone := (o.writes.filter fun w => !s.takesWrites w.slot).map (·.pos)
      let o := { o with writes := o.writes.filter fun w => s.takesWrites w.slot, failed := o.failed ++ gone }
      let s := (s.updOpen gi st fun _ => o).queueWrites gi g o
      some (if o.writes.isEmpty then s.stripeClose gi st else s)
    else none
  | _, _ => none

/-- Carry an open stripe on through at most `n` stages. -/
def State.stripeGo : Nat → Nat → Nat → State → State
  | 0, _, _, s => s
  | n + 1, gi, st, s =>
    match s.stripeStage gi st with
    | some s => if (s.openAt gi st).isSome then State.stripeGo n gi st s else s
    | none => s

/-- Carry an open stripe on as far as it goes, and the other stripes of a sweep's period with it: they write once all of them
have been read (R722). -/
def State.stripeAdvance (s : State) (gi st : Nat) : State :=
  let sweep := (s.openAt gi st).any fun o => o.writer == .sweep
  let s := s.stripeGo 12 gi st
  if !sweep then s
  else ((s.str.opens.filter fun o => o.group == gi && o.writer == .sweep).map (·.stripe)).foldl
    (fun s st => s.stripeGo 12 gi st) s

/-! ### Volumes being created (R150) -/

/-- Bits and window places that a CREATE_VOLUME still needs and could not ask for before are asked for. -/
def State.pushCreating (s : State) : State :=
  s.str.volumes.foldl (fun s e =>
    match e.2.creating with
    | none => s
    | some seq => e.2.ext.foldl (fun s x =>
        ((s.setBit e.2.group x 1 (some seq)).1.winAdmit e.2.group x true).1) s) s

/-! ### The end of a member command -/

/-- The blocks of a pre-read, checked (R122): keys with their blocks, and keys that fail. -/
def State.preBlocks (s : State) (gi : Nat) (g : Group) (st pos : Nat) (m : MemCmd) (b : Bytes) :
    List (Nat × Bytes) × List Nat :=
  let unit := if g.erasure then pos else 0
  let ok (off : Nat) (blk : Bytes) : Bool :=
    !g.checked pos || (match s.volAt gi g st with
      | some (h, i, _) => blockPasses g.format1 h (g.vlbaOf i st unit + off) blk
      | none => true)
  let all := (List.range m.n).map fun i => (m.lba % 16 + i, storedBlock g.format1 b i)
  ((all.filter fun x => ok x.1 x.2).map fun x => (bkey pos x.1, x.2),
   (all.filter fun x => !ok x.1 x.2).map fun x => bkey pos x.1)

/-- A pre-read of an open stripe has ended (R126, R122, R174). -/
def State.preReadEnd (s : State) (gi st pos : Nat) (m : MemCmd) (r : Option Bytes) (ure : Bool) : State :=
  match s.group gi with
  | none => s
  | some g =>
    let keys := (List.range m.n).map fun i => bkey pos (m.lba % 16 + i)
    let (got, bad) := match r with
      | some b => s.preBlocks gi g st pos m b
      | none => ([], keys)
    let own := match s.openAt gi st with
      | some o => o.writer == .repair && o.fills.any fun f => f.1 == pos
      | none => false
    let s := if ure ∧ !own then
        s.addRepair { group := gi, stripe := st, pos, offs := keys.map (· % 16), reread := true }
      else if r.isSome && !bad.isEmpty && !own then
        s.addRepair { group := gi, stripe := st, pos, offs := bad.map (· % 16), reread := false }
      else s
    let s := s.updOpen gi st fun o => { o with
      pre := o.pre.filter fun k => !keys.contains k
      got := got.foldl (fun t x => tblIns t x.1 x.2) o.got
      bad := o.bad ++ bad }
    let s := match s.openAt gi st with
      | some o => if o.sent && r.isSome then s.sendPre gi g o m.slot m.n else s
      | none => s
    s.stripeAdvance gi st

/-- A read of Lantern's has ended (R210): it is not acted on before the comparison. -/
def State.lanternReadEnd (s : State) (gi st pos : Nat) (m : MemCmd) (r : Option Bytes) (ure : Bool) : State :=
  match s.group gi, s.str.lanternNow with
  | some g, some t =>
    if t.look.group ≠ gi ∨ t.look.stripe ≠ st then s
    else
      let keys := (List.range m.n).map fun i => bkey pos (m.lba % 16 + i)
      let (got, bad) := match r with
        | some b => s.preBlocks gi g st pos m b
        | none => ([], keys)
      let look : OpenStripe := { t.look with
        pre := t.look.pre.filter fun k => !keys.contains k
        got := got.foldl (fun t x => tblIns t x.1 x.2) t.look.got
        bad := t.look.bad ++ bad }
      { s with str := { s.str with lanternNow := some { t with look, ures := if ure then t.ures ++ keys else t.ures } } }
  | _, _ => s

/-- A member read of a READ's run has ended (R123, R174, R182). -/
def State.readRunEnd (s : State) (seq vblk pos : Nat) (r : Option Bytes) (ure : Bool) : State :=
  match s.cmd seq, s.run seq vblk with
  | some c, some x =>
    let gi := match s.target c with | some (v, _) => v.group | none => 0
    let s := if ure then
        s.addRepair { group := gi, stripe := x.stripe, pos, offs := (List.range x.n).map (· + x.off), reread := true }
      else s
    let s := s.updRun seq vblk fun x => { x with
      want := x.want.erase pos
      got := match r with | some b => tblIns x.got pos b | none => x.got
      bad := if r.isSome then x.bad else x.bad ++ [pos] }
    ((s.runEval seq vblk).readEnd seq).flow
  | _, _ => s

/-- A group has been created: its members, its map, its policy and its labels are in force (R105, R147, R158,
R184). -/
def State.groupMade (s : State) (x : Creating) : State :=
  let s := s.setGroup x.group x.shape
  let s := x.shape.slots.foldl (fun s sl =>
    { s with str := { s.str with members := tblIns s.str.members sl { group := x.group } } }) s
  let s := x.shape.slots.foldl State.acquire s
  ((s.resolvePolicy x.group).putRecord x.group).finish x.seq stSuccess 0

/-- A write of CREATE_GROUP has ended (R158): after the last the group exists, or, where one failed, the labels are
overwritten and the command ends INVALID_FIELD with INFO 40. -/
def State.creatingEnd (s : State) (gi : Nat) (ok : Bool) : State :=
  match s.str.creating.find? fun x => x.group == gi with
  | none => s
  | some x =>
    let x := { x with left := x.left - 1, bad := x.bad || !ok }
    if 0 < x.left then
      { s with str := { s.str with creating := updFirst (fun y => y.group == gi) (fun _ => x) s.str.creating } }
    else
      let s : State := { s with str := { s.str with creating := s.str.creating.filter fun y => y.group != gi } }
      if !x.bad then (s.groupMade x).flow
      else
        let live := x.shape.slots.filter fun sl => (s.drive sl).ready
        if live.isEmpty then (s.finish x.seq stInvalidField 40).flow
        else (live.foldl (fun s sl =>
          s.addMem sl .write 0 1 (zeros (storedBytes x.shape.format1)) 1 (.undoLabel x.seq)) s).flow

/-- The host command that a member command is for. -/
def State.memHost (s : State) (w : MemFor) : Option Nat :=
  match w with
  | .readRun q _ _ => some q
  | .preRead gi st _ | .stripe gi st _ => (s.openAt gi st).bind (·.host)
  | .bitSet _ _ q => q
  | _ => none

/-- A member command that has ended is dealt with: it brought what it read, or failed (`none`); `ure` says that it failed
with Unrecovered Read Error. -/
def State.memEndNow (s : State) (m : MemCmd) (r : Option Bytes) (ure : Bool) : State :=
  match m.who with
  | .readRun seq run pos => s.readRunEnd seq run pos r ure
  | .preRead gi st pos => s.preReadEnd gi st pos m r ure
  | .stripe gi st pos =>
    let s := s.updOpen gi st fun o => { o with
      left := o.left - 1
      done := if r.isSome then o.done ++ [pos] else o.done
      failed := if r.isSome then o.failed else o.failed ++ [pos] }
    match s.openAt gi st with
    | some o =>
      let s := if r.isSome ∧ o.writer = .repair then s.count .strRepair m.n else s
      if o.queued ∧ o.left = 0 then s.stripeClose gi st else s
    | none => s
  | .bitSet gi x _ => s.bitSetEnd gi x
  | .bitClear gi x => (s.bitClearEnd gi x).pushCreating
  | .replica gi => if r.isSome then s.replicaWritten gi else s
  | .label gi => (((if r.isSome then s.setLabel m.slot m.data else s).labelsEnd gi).replicaEnd gi).pushCreating.flow
  | .createGroup gi => (if r.isSome && m.lba == 0 then s.setLabel m.slot m.data else s).creatingEnd gi r.isSome
  | .spareZero gi sl st =>
    match s.group gi with
    | some g => if r.isSome && (s.freeRegions gi g).contains (g.regionOf st) then
        s.rebuildTo gi sl (g.rebuildNext sl (st + 1)) else s
    | none => s
  | .sweepZero gi => s.sweepCheck gi
  | .lantern gi st pos => s.lanternReadEnd gi st pos m r ure
  | .adoptLabel _ => if r.isSome then s.setLabel m.slot [] else s
  | .deleteLabel seq =>
    let s := if r.isSome then s.setLabel m.slot [] else s
    match seq with
    | some q => if s.str.mem.any fun x => x.who == .deleteLabel (some q) then s else (s.finish q stSuccess 0).flow
    | none => s
  | .undoLabel q =>
    let s := if r.isSome then s.setLabel m.slot [] else s
    if s.str.mem.any fun x => x.who == .undoLabel q then s else (s.finish q stInvalidField 40).flow
  | .acquire => if r.isSome then { s with shd := { s.shd with acquiring := tblDel s.shd.acquiring m.slot } } else s

/-- One member command has ended. While the home cluster of the command it serves stalls, it waits in the mailbox (R91). -/
def State.memEnd (s : State) (m : MemCmd) (r : Option Bytes) (ure : Bool) : State :=
  match (s.memHost m.who).bind fun q => s.cmd q with
  | some c =>
    if s.stopped c then { s with str := { s.str with parked := s.str.parked ++ [(m, r, ure)] } } else s.memEndNow m r ure
  | none => s.memEndNow m r ure

/-- Member commands of a slot that `p` picks fail. -/
def State.failMem (s : State) (sl : Nat) (p : MemCmd → Bool) : State :=
  let gone := s.str.mem.filter fun m => m.slot == sl && p m
  let s := s.dropMem sl p
  gone.foldl (fun s m => s.memEnd m none false) s

/-! ### A member becomes MISSING (R172 to R178, R185, R207, R213) -/

/-- A member becomes MISSING (R173, R175, R184, R185, R207, R213). -/
def State.memberMissing (s : State) (sl : Nat) : State :=
  match s.member sl with
  | none => s
  | some m =>
    match s.group m.group with
    | none => s
    | some g =>
      if !s.takesWrites sl ∨ s.shd.role = .shadow then s
      else
        let gi := m.group
        let open_ := (s.str.opens.filter fun o => o.group == gi && (g.slotsAt o.stripe).contains sl).map fun o =>
          g.regionOf o.stripe
        let fresh : Tbl Unit := open_.foldl (fun t x => tblIns t x ()) []
        let m' : Member := match m.state with
          | .inService => { m with
              state := .missing, since := s.now, lgen := g.lgen, stale := fresh, staleAt := 0, staleHeld := true }
          | .returning => { m with
              state := .missing, since := s.now, stale := open_.foldl (fun t x => tblIns t x ()) m.stale, staleAt := 0 }
          | _ => { m with
              state := .missing, since := s.now, stale := open_.foldl (fun t x => tblIns t x ()) m.stale, staleAt := 0
              refill := 0 }
        let s := s.updMember sl fun _ => m'
        let s : State := { s with shd := { s.shd with acquiring := tblDel s.shd.acquiring sl } }
        let s := (s.resolvePolicy gi).enterFailed gi
        let s := s.replicaLost gi sl
        let s := (s.failMem sl fun _ => true).rewriteLabels gi
        let s := (s.autoAct gi).evaluate gi []
        (s.putRecord gi).flow

/-- The drive in a slot has gone, or serves no longer: a member becomes MISSING, and what was under way on a drive
that is in no group fails (R158, R173). -/
def State.driveLost (s : State) (sl : Nat) : State :=
  let s := s.memberMissing sl
  s.failMem sl fun _ => true

/-! ### DRIVE_ISSUE (R130, R133, R235 to R237) -/

/-- Two ranges of drive blocks overlap. -/
def lbaOverlap (a na b nb : Nat) : Bool := decide (a < b + nb ∧ b < a + na)

/-- A member command can be issued now: none that overlaps it is outstanding on the slot where one of them writes, and
the TAKEN record of its command has been acknowledged (R130, R556); writes wait for the slot's Reservation Acquire
(R562). -/
def State.memCan (s : State) (m : MemCmd) : Bool :=
  !(s.str.mem.any fun x => x.slot == m.slot && x.issued.isSome && (x.op != .read || m.op != .read)
      && lbaOverlap x.lba x.n m.lba m.n)
    && (m.op == .read || (tblFind s.shd.acquiring m.slot).isNone)
    && (match (s.memHost m.who).bind s.cmd with
      | some c => s.recAcked c.takenRec && !s.shd.logStall
      | none => true)

/-- The drive in a slot takes commands: it is ready, its link is up, its lane is ON and the controller may issue
(R39, R560, R671). -/
def State.slotServes (s : State) (sl : Nat) : Bool :=
  (s.drive sl).ready && (s.drive sl).linkUp && s.isOn (32 + sl) && s.serves

/-- What a member command writes, as it stands at its issue (R111, R148, R207). -/
def State.memData (s : State) (m : MemCmd) : Bytes :=
  match m.who with
  | .label gi => (match s.group gi with | some g => labelBytes gi g m.slot | none => m.data)
  | .bitSet gi _ _ | .bitClear gi _ | .replica gi =>
    (match s.group gi with | some g => bitmapBlock g (m.lba - 4096) | none => m.data)
  | _ => m.data

/-- Ring the doorbell of one member command. -/
def State.issueMem (s : State) (m : MemCmd) : State :=
  let data := s.memData m
  let host := s.memHost m.who
  let s : State := { s with str := { s.str with
    mem := updFirst (fun x => x.id == m.id) (fun x => { x with issued := some s.now, data }) s.str.mem } }
  let s := s.releaseCells (slotPort m.slot) (if m.cls = 0 then 0 else 1) m.cells
  let s := match host with
    | some q => (if m.cls = 0 then s.c0End q m.cells else s).markPast q
    | none => s
  s.emit (.drive m.id m.slot m.op m.lba m.n (m.op == .write || m.op == .writeZeroes) data)

/-- DRIVE_ISSUE (R235 to R237): one serving opportunity of a slot. -/
def State.driveIssue (s : State) (sl : Nat) : State :=
  if !s.slotServes sl ∨ !s.readsOn 161 then s
  else
    let s := s.syncDrive sl
    let ms := s.waitingAt sl
    let c0 := (s.str.mem.filter fun m => m.slot == sl && m.issued.isSome && m.cls == 0).length
    match ms.find? fun m => m.cls == 0 with
    | some m => if s.memCan m ∧ c0 < 256 then s.issueMem m else s
    | none =>
      let p : Point := tblGet {} s.cls.drive sl
      let head (f : Flow) : Option MemCmd := ms.find? fun m => m.cls == f.cls
      let can (f : Flow) : Bool := match head f with | some m => s.memCan m | none => false
      match p.pick can with
      | (none, p) => { s with cls := { s.cls with drive := tblPut {} s.cls.drive sl p } }
      | (some (f, turn), p) =>
        match head f with
        | none => s
        | some m =>
          let last := (ms.filter fun x => x.cls == f.cls).length == 1
          let p := p.served f turn last (s.quantum f.cls)
          let s : State := { s with cls := { s.cls with drive := tblPut {} s.cls.drive sl p } }
          s.issueMem m

def execDriveIssue (slot : Nat) (s : State) : Outcome := .next (s.driveIssue slot)

/-! ### STRIPE_OPEN (R125, R130, R142 to R149) -/

/-- A journal entry is free for the command's class (R143). -/
def State.journalFree (s : State) (class0 : Bool) : Bool :=
  if class0 then decide (s.str.opens.length < 1048576)
  else decide ((s.str.opens.filter fun o => !o.class0).length < 983040)

/-- The stored new blocks of a write in one stripe (R120, R135 to R137, R382). -/
def State.newBlocks (s : State) (c : Cmd) (v : Volume) (g : Group) (st : Nat) : Tbl Bytes :=
  let op := writeOp c v g
  (rowBlocks c v g st).foldl (fun t x =>
    let b := if op = .write then
        s.sealBlock (eVolume c.entry) v g c.gen st (eSlba c.entry + x.b) (plainOf c x.b)
      else zeros (storedBytes g.format1)
    tblIns t (bkey x.unit x.off) b) []

/-- The positions that a write to a stripe writes (R142). -/
def State.positions (s : State) (g : Group) (st : Nat) (bs : List BlockAt) : List Nat :=
  let us := if g.erasure then unitsOf bs ++ (List.range g.m).map (· + g.kd) else List.range g.n
  us.filter fun p => (s.posAt g st p).isSome

/-- Open a stripe for a command: journal entry, pre-reads, stale sets (R126, R130, R142, R213). -/
def State.openStripe (s : State) (c : Cmd) (v : Volume) (g : Group) (st : Nat) : State :=
  let bs := rowBlocks c v g st
  let m := s.methodOf g st bs
  let pre := s.preKeys g st m bs
  let o : OpenStripe := {
    group := v.group
    stripe := st
    writer := .host c.seq
    method := m
    positions := s.positions g st bs
    epoch := s.shd.epoch
    class0 := c.cls == 0
    cls := c.cls
    keyed := v.keyed
    op := writeOp c v g
    offs := offsOf bs
    new := s.newBlocks c v g st
    pre
    staged := (c.rows.find? fun r => r.1 == st).map (·.2) |>.getD 0
    point := s.dataPoint c }
  let s : State := { s with str := { s.str with opens := s.str.opens ++ [o] } }
  let s := s.updCmd c.seq fun c => { c with
    todo := c.todo.erase st
    rows := c.rows.filter fun r => r.1 != st
    open_ := c.open_ ++ [st] }
  (((s.preRead g o pre).noteOpen g v.group st).touch).stripeAdvance v.group st

/-- The data of a row is present (R154). -/
def rowPresent (c : Cmd) (v : Volume) (g : Group) (st : Nat) : Bool :=
  if eOpcode c.entry = opWrite then
    decide (4096 * ((rowBlocks c v g st).foldl (fun a x => max a (x.b + 1)) 0) ≤ c.data.length)
  else c.pull.isSome

/-- STRIPE_OPEN: the next stripe of a write opens where nothing is in its way (R125, R130, R134, R143, R145, R148). -/
def State.stripeOpen (s : State) (q cid : Nat) : State :=
  match s.writing q cid with
  | none => s
  | some c =>
    match s.target c, c.todo with
    | some (v, g), st :: _ =>
      let gi := v.group
      let x := g.regionOf st
      if c.cut ∧ c.past ∧ !rowPresent c v g st then
        (s.updCmd c.seq fun c => { c with todo := c.todo.erase st, missed := true }).writeEnd c.seq
      else if !s.serves ∨ s.overlapWaits c ∨ !rowPresent c v g st ∨ (s.openAt gi st).isSome ∨ s.uncleaning gi then s
      else if s.groupDown v g ∧ !c.past then (s.endEarly c.seq stGroupFailed).flow
      else if (s.missing g st).length > g.tol then
        (s.updCmd c.seq fun c => { c with todo := c.todo.erase st, groupFailed := true }).writeEnd c.seq
      else if !s.journalFree (c.cls == 0) then s
      else
        let (s, set) := s.setBit gi x c.cls (some c.seq)
        if !set then s
        else
          let (s, inside) := s.winAdmit gi x v.class0
          if !inside then
            if c.winWaited then s
            else (s.count .strWinWait).updCmd c.seq fun c => { c with winWaited := true }
          else s.openStripe c v g st
    | _, _ => s

def execStripeOpen (qp cid : Nat) (s : State) : Outcome := .next (s.stripeOpen qp cid)

/-! ### MEMBER_COMPLETION and the events of R173 -/

/-- The bytes of a completed member read, as many as were asked for. -/
def fitBytes (n : Nat) (b : Bytes) : Bytes := b.take n ++ zeros (n - b.length)

/-- Stored bytes of a block on the drive in a slot. -/
def State.slotStored (s : State) (sl : Nat) : Nat := storedBytes ((s.drive sl).id.metaBytes == 0)

/-- MEMBER_COMPLETION: NVMe status 0, Unrecovered Read Error (0x281), or another error (R132, R173, R174). -/
def State.memberCompletion (s : State) (sl id status : Nat) (data : Bytes) : State :=
  match s.str.mem.find? fun m => m.slot == sl && m.id == id && m.issued.isSome with
  | none => if sl < Config.slots s.variant ∧ s.readsOn (32 + sl) then (s.err 10).count .sysInBad else s
  | some m =>
    let one := s.dropMem sl fun x => x.id == id
    if status = 0 then (one.memEnd m (some (fitBytes (m.n * s.slotStored sl) data)) false).flow
    else if status = 0x281 ∧ m.op = .read then (one.memEnd m none true).flow
    else if m.op ≠ .acquire ∧ s.takesWrites sl then s.memberMissing sl
    else (one.memEnd m none false).flow

/-- MEMBER_COMMAND_TIMEOUT (R173): 2 s after it was issued. -/
def State.memberTimeout (s : State) (sl id : Nat) : State :=
  match s.str.mem.find? fun m => m.slot == sl && m.id == id with
  | some m =>
    match m.issued with
    | some t => ((s.advanceTo (t + 2000 * msec)).err 10).driveLost sl
    | none => s
  | none => s

def execMemberCommandTimeout (slot mid : Nat) (s : State) : Outcome := .next (s.memberTimeout slot mid)

/-- DRIVE_LINK_CHANGE (R173): the link goes down, which arms the 100 ms limit, or retrains. -/
def State.driveLink (s : State) (sl : Nat) (up : Bool) : State :=
  let d := s.drive sl
  if up then s.setDrive sl { d with linkUp := true, downSince := none }
  else if d.linkUp then s.setDrive sl { d with linkUp := false, downSince := some s.now }
  else s

def execDriveLinkChange (slot : Nat) (up : Bool) (s : State) : Outcome := .next (s.driveLink slot up)

/-- DRIVE_LINK_DOWN_TIMEOUT (R173): 100 ms after link-down. -/
def State.driveLinkTimeout (s : State) (sl : Nat) : State :=
  let d := s.drive sl
  match d.downSince with
  | some t =>
    let s := (s.advanceTo (t + 100 * msec)).err 10
    (s.setDrive sl { d with ready := false, downSince := none }).driveLost sl
  | none => s

def execDriveLinkDownTimeout (slot : Nat) (s : State) : Outcome := .next (s.driveLinkTimeout slot)

/-- DRIVE_CRITICAL_WARNING (R173): read-only media or degraded reliability. -/
def execDriveCriticalWarning (slot : Nat) (s : State) : Outcome :=
  .next (if (s.drive slot).ready then s.memberMissing slot else s)

/-- WINDOW_REGION_IDLE (R146): the region has not been touched for 1 s. -/
def State.windowIdle (s : State) (gi x : Nat) : State :=
  match s.str.window.find? fun w => w.group == gi && w.region == x with
  | none => s
  | some w =>
    if w.class0 ∨ w.leaving ∨ !w.acked ∨ s.regionOpen gi x then s
    else (((s.advanceTo (w.last + 1000 * msec)).winLeave gi x).pushCreating).flow

def execWindowRegionIdle (group region : Nat) (s : State) : Outcome := .next (s.windowIdle group region)

end Sys2Proof.Machine
end

