-- ==== Sys2Proof/Machine/Class7.lean ====
section
/-! DEFINITION. Class 7 work: zeroing, rebuild, refill, relocation sweeps, resynchronisation, repair, the Lantern patrol
and the rekey walk (R160, R182, R193 to R215, R401, R722). A step begins a piece of work where nothing is in its way; its
member reads and writes then pass the drive-issue points in Class 7, and their ends carry it on (log entry 33). -/

namespace Sys2Proof.Machine

/-! ### Pacing (R195, R209, R401) -/

/-- RATE of STR_RBLD_RATE in force (R220): 0 pauses what `pausable` says; 1 to 99 act as 100. -/
def State.rebuildRate (s : State) (pausable : Bool) : Nat :=
  let r := s.field .strRbldRate 15 0
  if r = 0 ∧ pausable then 0 else max 100 r

/-- A cost is within the rebuild pace; the state with it charged. -/
def State.paceRebuild (s : State) (pausable : Bool) (cost : Cost) : Option State :=
  let r := s.rebuildRate pausable
  if r ≠ 0 ∧ paceOk s.str.paced r cost then some (s.paceCharge .repair cost) else none

/-- A bucket after its refill: what exceeded a millisecond's share stays charged. -/
def paceRefill (used : Tbl Nat) (mbs : Nat) : Tbl Nat :=
  used.filterMap fun e => if e.2 ≤ mbs * 1000 then none else some (e.1, e.2 - mbs * 1000)

/-- REBUILD_PACING_REFILL (R195, R209, R401): the next millisecond. -/
def State.pacingRefill (s : State) : State :=
  let s := s.advanceTo ((s.now / msec + 1) * msec)
  { s with
    str := { s.str with
      paced := paceRefill s.str.paced (s.rebuildRate false)
      lntPaced := paceRefill s.str.lntPaced (s.field .lntRate 15 0) }
    cph := { s.cph with paced := paceRefill s.cph.paced (s.field .cphWalkRate 15 0) } }

def execRebuildPacingRefill (s : State) : Outcome := .next s.pacingRefill

/-! ### Opening a stripe for Class 7 work (R142, R145, R148, R193) -/

/-- Class 7 work may open a stripe: the controller serves, no write is open there, a journal entry is free, and a label write
that CLEAN waits for is not outstanding (R151). -/
def State.bgCan (s : State) (gi st : Nat) : Bool :=
  let stopping := match s.sys.orderly with
    | some (_, .drain) | some (_, .labels) => true
    | _ => false
  s.serves && (s.openAt gi st).isNone && s.journalFree false && !s.uncleaning gi && !stopping

/-- The region of a stripe has its bit set and its place in the window (R145, R148). `true` once both hold. -/
def State.bgAdmit (s : State) (gi x : Nat) : State × Bool :=
  let (s, set) := s.setBit gi x 7 none
  if !set then (s, false) else s.winAdmit gi x (s.class0Region gi x)

/-- Open a stripe for Class 7 work: it asks for the blocks it needs first, or writes at once what it has (R142, R193). -/
def State.openBg (s : State) (gi : Nat) (g : Group) (o : OpenStripe) : State :=
  let o : OpenStripe := { o with group := gi, epoch := s.shd.epoch }
  let s : State := { s with str := { s.str with opens := s.str.opens ++ [o] } }
  ((s.noteOpen g gi o.stripe).touch.stripeAdvance gi o.stripe).flow

/-- METHOD of Class 7 work on a group (R142, R193). -/
def Group.bgMethod (_ : Group) : Method := .recon

/-- The blocks a filling of position `pos` reads first, as what they cost (R195). -/
def State.fillCost (s : State) (g : Group) (st pos : Nat) : Cost :=
  let o : OpenStripe := { group := 0, stripe := st, writer := .repair, method := .recon, positions := [] }
  let val := s.oblk g o 0
  let ps := if (val pos).isAbsent then [pos] else (reconFrom g val pos)
  costOf (storedBytes g.format1) ((pos :: ps).filterMap fun p => (s.posAt g st p).map fun x => (x.1, 16))

/-- Begin to fill the place of a position in a stripe (R193, R197, R215). A stripe in the scope of a resynchronisation is left
until that has passed it (R203, R206). -/
def State.runFill (s : State) (gi : Nat) (g : Group) (st pos sl lba : Nat) (writer : Writer) (pausable : Bool) : State :=
  if !s.bgCan gi st ∨ g.inScope st then s
  else
    let r := s.rebuildRate pausable
    if r = 0 ∨ !paceOk s.str.paced r (s.fillCost g st pos) then s
    else s.openBg gi g { group := gi, stripe := st, writer, method := g.bgMethod, positions := [pos], fills := [(pos, sl, lba)] }

/-- Work of this kind is under way on the group. -/
def State.bgBusy (s : State) (w : Writer) : Bool := s.str.opens.any fun o => o.writer == w

/-! ### REBUILD_STRIPE, REFILL_POSITION, DELTA_RESYNC_STRIPE (R193 to R198, R215) -/

/-- One step of the rebuild of a slot. While a relocation sweep runs it stands still (log entry 31). -/
def State.rebuildStep (s : State) (sl : Nat) : State :=
  match s.member sl with
  | none => s
  | some m =>
    match s.group m.group with
    | none => s
    | some g =>
      if m.state ≠ .rebuilding ∨ g.sweep.isSome ∨ !s.serves ∨ s.bgBusy (.rebuild sl) then s
      else
        let gi := m.group
        let st := g.rebuildNext sl m.rebuild
        match (g.rebuildRows sl).find? fun x => x.row == st % g.rows with
        | none => if s.rebuildRate true = 0 then s else (s.rebuildTo gi sl g.usedStripes).flow
        | some x =>
          if g.usedStripes ≤ st then (if s.rebuildRate true = 0 then s else (s.rebuildTo gi sl g.usedStripes).flow)
          else
            let lba := g.chunkLba (st / g.rows) x.layer
            if (s.freeRegions gi g).contains (g.regionOf st) then
              let who : MemFor := .spareZero gi sl st
              if s.str.mem.any fun y => y.who == who then s
              else
                match s.paceRebuild true (costOf (storedBytes g.format1) [(x.slot, 16)]) with
                | none => s
                | some s => s.addMem x.slot .writeZeroes lba 16 [] 7 who
            else s.runFill gi g st x.pos x.slot lba (.rebuild sl) true

def execRebuildStripe (slot : Nat) (s : State) : Outcome := .next (s.rebuildStep slot)

/-- One step of the refill of a slot (R197). -/
def State.refillStep (s : State) (sl : Nat) : State :=
  match s.member sl with
  | none => s
  | some m =>
    match s.group m.group with
    | none => s
    | some g =>
      if m.state ≠ .refilling ∨ !s.serves ∨ s.bgBusy (.refill sl) then s
      else
        let gi := m.group
        let st := g.refillNext sl m.refill
        if g.usedStripes ≤ st then (if s.rebuildRate true = 0 then s else (s.refillTo gi sl g.usedStripes).flow)
        else
          match (g.homeRows sl).find? fun x => x.1 == st % g.rows with
          | none => s
          | some (_, j) => s.runFill gi g st j sl (g.chunkLba (st / g.rows) (g.home st j).layer) (.refill sl) true

def execRefillPosition (slot : Nat) (s : State) : Outcome := .next (s.refillStep slot)

/-- The places of a member in a stripe: its home position, and positions on its spare chunks (R213, R215). -/
def Group.placesOn (g : Group) (sl st : Nat) : List (Nat × Nat × Nat) :=
  let home := ((g.homeRows sl).filter fun x => x.1 == st % g.rows).map fun x =>
    (x.2, sl, g.chunkLba (st / g.rows) (g.home st x.2).layer)
  let spare := ((g.relocate (g.placeFor st)).taken.filter fun x => x.slot == sl && x.row == st % g.rows).map fun x =>
    (x.pos, sl, g.chunkLba (st / g.rows) x.layer)
  home ++ spare

/-- One step of the delta resynchronisation of a slot (R215). -/
def State.deltaStep (s : State) (sl : Nat) : State :=
  match s.member sl with
  | none => s
  | some m =>
    match s.group m.group with
    | none => s
    | some g =>
      if m.state ≠ .returning ∨ !s.serves ∨ s.bgBusy (.delta sl) then s
      else
        let gi := m.group
        let s := s.deltaTo gi sl m.staleAt
        match s.member sl with
        | none => s
        | some m =>
          if m.state ≠ .returning then s.flow
          else
            let st := m.staleAt
            let r := s.rebuildRate false
            match g.placesOn sl st with
            | [] => s
            | (pos, _, _) :: _ =>
              if !s.bgCan gi st ∨ g.inScope st ∨ !paceOk s.str.paced r (s.fillCost g st pos) then s
              else
                let fills := g.placesOn sl st
                s.openBg gi g { group := gi, stripe := st, writer := .delta sl, method := g.bgMethod
                                positions := fills.map (·.1), fills }

def execDeltaResyncStripe (slot : Nat) (s : State) : Outcome := .next (s.deltaStep slot)

/-! ### RELOCATION_SWEEP_PERIOD (R722) -/

/-- The positions that the sweep moves: those R189 assigns to another chunk than before, behind their entry's cursor. -/
def State.sweepMoves (s : State) (g : Group) (sw : Sweep) : List Spare :=
  let old := (g.relocate sw.old).taken
  let new := (g.relocate g.place).taken
  new.filter fun y =>
    let moved := match old.find? fun x => x.row == y.row && x.pos == y.pos with
      | some x => x.layer != y.layer || x.slot != y.slot
      | none => true
    let behind := match s.member y.by_ with
      | some m => m.state == .evacuated || decide (sw.period * g.rows + y.row < m.rebuild)
      | none => false
    moved && behind && s.mstate y.slot == .inService

/-- One period of a relocation sweep: its stripes open and read every position to move (R722). -/
def State.sweepStep (s : State) (gi : Nat) : State :=
  match s.group gi with
  | none => s
  | some g =>
    match g.sweep with
    | none => s
    | some sw =>
      let busy := (s.str.opens.any fun o => o.group == gi && o.writer == .sweep)
        || s.str.mem.any fun m => m.who == .sweepZero gi
      if busy ∨ !s.serves then s
      else
        let p := sw.period
        let moves := (s.sweepMoves g sw).mergeSort fun a b => decide (a.row ≤ b.row)
        let stOf (x : Spare) : Nat := p * g.rows + x.row
        let rows := ((moves.map stOf).eraseDups).filter fun st => decide (st < g.usedStripes)
        let r := s.rebuildRate true
        let cost := costOf (storedBytes g.format1) (moves.map fun x => (x.slot, 16))
        if (rows.any fun st => !s.bgCan gi st || g.inScope st) ∨ r = 0 ∨ !paceOk s.str.paced r cost then s
        else
          let (s, ok) := (rows.map g.regionOf).eraseDups.foldl
            (fun (a : State × Bool) x => let (s, y) := a.1.bgAdmit gi x; (s, a.2 && y)) (s, true)
          if !ok then s
          else
            let os : List OpenStripe := rows.map fun st =>
              let fills := (moves.filter fun x => stOf x == st).map fun x => (x.pos, x.slot, g.chunkLba p x.layer)
              { group := gi, stripe := st, writer := .sweep, method := g.bgMethod, positions := fills.map (·.1)
                epoch := s.shd.epoch, fills }
            let s : State := { s with str := { s.str with opens := s.str.opens ++ os } }
            let s := rows.foldl (fun s st => ((s.noteOpen g gi st).touch).stripeAdvance gi st) s
            (s.sweepCheck gi).flow

def execRelocationSweepPeriod (group : Nat) (s : State) : Outcome := .next (s.sweepStep group)

/-! ### RESYNC_STRIPE (R203 to R206) -/

/-- The next stripe to resynchronise: journaled ones first, then the regions (R204). -/
def Group.resyncNext (g : Group) : Option Nat :=
  match g.resync with
  | st :: _ => some st
  | [] => g.resyncRegions.head?.map fun x => x * g.t + g.resyncAt

/-- One stripe of the resynchronisation scope (R205). -/
def State.resyncStep (s : State) (gi : Nat) : State :=
  match s.group gi with
  | none => s
  | some g =>
    match g.resyncNext with
    | none => s
    | some st =>
      let cost := costOf (storedBytes g.format1)
        ((List.range g.n).filterMap fun p => (s.posAt g st p).map fun x => (x.1, 16))
      if g.failed ∨ !g.online ∨ s.gstate gi = 3 ∨ !s.bgCan gi st ∨ !paceOk s.str.paced (s.rebuildRate false) cost then s
      else
        let (s, ok) := s.bgAdmit gi (g.regionOf st)
        if !ok then s
        else s.openBg gi g { group := gi, stripe := st, writer := .resync, method := g.bgMethod, positions := List.range g.n }

def execResyncStripe (group : Nat) (s : State) : Outcome := .next (s.resyncStep group)

/-! ### REPAIR_BLOCK (R182) -/

/-- The first repair whose stripe is not open, and not in the scope of a resynchronisation (R203). -/
def State.nextRepair (s : State) : Option Repair := s.str.repairs.find? fun r =>
  (s.openAt r.group r.stripe).isNone && !((s.group r.group).any fun g => g.inScope r.stripe)

/-- One repair begins: its stripe opens as a write (R182). -/
def State.repairStep (s : State) : State :=
  match s.nextRepair with
  | none => s
  | some r =>
    let drop (s : State) : State := { s with str := { s.str with repairs := rmFirst (fun x => x == r) s.str.repairs } }
    match s.group r.group with
    | none => drop s
    | some g =>
      match s.posAt g r.stripe r.pos with
      | none => drop s
      | some (sl, lba) =>
        if !s.bgCan r.group r.stripe then s
        else
          let (s, ok) := s.bgAdmit r.group (g.regionOf r.stripe)
          if !ok then s
          else
            (drop s).openBg r.group g { group := r.group, stripe := r.stripe, writer := .repair, method := g.bgMethod
                                        positions := [r.pos], offs := r.offs, fills := [(r.pos, sl, lba)], reread := r.reread }

def execRepairBlock (s : State) : Outcome := .next s.repairStep

/-! ### The Lantern patrol (R209 to R212, R224) -/

/-- An allocated region (R209). -/
def State.allocated (s : State) (gi x : Nat) : Bool := (s.volOfRegion gi x).isSome

/-- The next stripe of a group from region `r`, stripe `i` on: region and stripe in it, none past the last. -/
def State.lanternIn (s : State) (gi : Nat) (g : Group) (r i : Nat) : Option (Nat × Nat) :=
  let in_ (x from_ : Nat) : Option (Nat × Nat) :=
    if !s.allocated gi x then none
    else (((List.range g.t).filter fun k => decide (from_ ≤ k)).find? fun k => !g.inScope (x * g.t + k)).map fun k => (x, k)
  match in_ r i with
  | some a => some a
  | none => ((List.range g.regions).filter fun x => decide (r < x)).findSome? fun x => in_ x 0

/-- The next stripe from group `gi` on: group, region, stripe (R209). -/
def State.lanternFrom (s : State) (gi r i : Nat) : Option (Nat × Nat × Nat) :=
  (List.range 64).findSome? fun n =>
    if n < gi then none
    else
      match s.group n with
      | none => none
      | some g =>
        if s.gstate n ≠ 1 then none
        else (if n = gi then s.lanternIn n g r i else s.lanternIn n g 0 0).map fun x => (n, x.1, x.2)

/-- Record a finding (R212): the log, the counters, and the STR event. -/
def State.record (s : State) (gi st outcome position mask : Nat) : State :=
  let e : LanternEntry := { group := gi, outcome, position, mask, stripe := st, time := s.gnmNs }
  let log := s.str.lanternLog ++ [e]
  let s : State := { s with str := { s.str with lanternLog := log.drop (log.length - 4096) } }
  let s := s.count .lntMismatch
  let s := if 1 ≤ outcome ∧ outcome ≤ 3 then s.count .lntRepaired else s
  let s := if outcome = 4 ∨ outcome = 5 then s.count .lntUnlocated else s
  if 4 ≤ outcome then s.event .str else s

/-- Lantern begins to read a stripe in Class 7, without opening it (R209, R210). A stripe that a write has open is taken
again later. -/
def State.lanternRead (s : State) (gi r i : Nat) (g : Group) (again : Bool) : State :=
  let st := r * g.t + i
  let s : State := if again then s else { s with str := { s.str with lantern := (gi, r, i + 1) } }
  if (s.openAt gi st).isSome then { s with str := { s.str with lanternAgain := s.str.lanternAgain ++ [st] } }
  else
    let ps := (List.range g.n).filterMap fun p => (s.posAt g st p).map fun x => (p, x.1, x.2)
    let keys := ps.flatMap fun p => (List.range 16).map fun off => bkey p.1 off
    let look : OpenStripe := { group := gi, stripe := st, writer := .lantern, method := .recon, positions := [], pre := keys }
    let cost := costOf (storedBytes g.format1) (ps.map fun p => (p.2.1, 16))
    let s : State := { s with str := { s.str with
      lanternNow := some { look, region := r, idx := i, again }
      lntPaced := paceAdd s.str.lntPaced cost } }
    ps.foldl (fun s p => ((contig (List.range 16)).flatMap (inPieces (s.readPiece look p.1 p.2.1))).foldl (fun s x =>
      s.addMem p.2.1 .read (p.2.2 + x.1) x.2 [] 7 (.lantern gi st p.1)) s) s

/-- A stripe's patrol has every read it made: it is compared, recorded, and its repairs begin (R209 to R212). Findings are
grouped by outcome and position (DESIGN CHOICE; log entry 97). -/
def State.lanternCompare (s : State) (t : LanternTask) (g : Group) : State :=
  let gi := t.look.group
  let st := t.look.stripe
  let offs := (List.range 16).map fun off => (off, s.lanternOff g t.look off)
  if t.spoiled ∨ (s.openAt gi st).isSome ∨ offs.any fun x => x.2.isNone then
    { s with str := { s.str with lanternAgain := s.str.lanternAgain ++ [st] } }
  else
    let s := s.count .lntStripes
    let found := offs.flatMap fun x => match x.2 with
      | some fs => fs.map fun f => (x.1, f)
      | none => []
    let keys := (found.map fun x => (x.2.outcome, x.2.position)).eraseDups
    let s := keys.foldl (fun s k =>
      let mask := found.foldl (fun a x => if (x.2.outcome, x.2.position) = k then a ||| 2 ^ x.1 else a) 0
      s.record gi st k.1 k.2 mask) s
    if !s.bit .lntCtl 1 then s
    else
      let mend := found.filter fun x => (x.2.outcome == 1 || x.2.outcome == 3) && x.2.fix.isEmpty
      let s := mend.foldl (fun s x => s.addRepair
        { group := gi, stripe := st, pos := x.2.position, offs := [x.1]
          reread := t.ures.contains (bkey x.2.position x.1) }) s
      if mend.length = found.length then s
      else { s with str := { s.str with lanternFix := s.str.lanternFix ++ [(gi, st)] } }

/-- A repair of Lantern's that opens its stripe and reads it again (R210, R211) begins, where it can. -/
def State.lanternMend (s : State) : State :=
  match s.str.lanternFix.find? fun x => s.bgCan x.1 x.2 with
  | none => s
  | some x =>
    match s.group x.1 with
    | none => { s with str := { s.str with lanternFix := s.str.lanternFix.erase x } }
    | some g =>
      let (s, ok) := s.bgAdmit x.1 (g.regionOf x.2)
      if !ok then s
      else
        let s : State := { s with str := { s.str with lanternFix := s.str.lanternFix.erase x } }
        s.openBg x.1 g { group := x.1, stripe := x.2, writer := .lantern, method := g.bgMethod, positions := List.range g.n }

/-- The walk goes on (R209, R210): stripes put off follow the others of their region; a pass ends past the last stripe. -/
def State.lanternNext (s : State) : State :=
  let (gi, r, i) := s.str.lantern
  let here := s.lanternFrom gi r i
  let ok (g : Group) (st : Nat) : Bool := paceOk s.str.lntPaced (s.field .lntRate 15 0)
    (costOf (storedBytes g.format1) ((List.range g.n).filterMap fun p => (s.posAt g st p).map fun x => (x.1, 16)))
  let back (g : Group) (st : Nat) (rest : List Nat) : State :=
    if !ok g st then s
    else ({ s with str := { s.str with lanternAgain := rest } } : State).lanternRead gi r (st % g.t) g true
  match s.group gi, s.str.lanternAgain, here with
  | some g, st :: rest, some (a, b, k) =>
    if a = gi ∧ b = r then (if ok g (r * g.t + k) then s.lanternRead gi r k g false else s) else back g st rest
  | some g, st :: rest, none => back g st rest
  | _, _, some (a, b, k) =>
    match s.group a with
    | some g => if ok g (b * g.t + k) then
        ({ s with str := { s.str with lanternAgain := [] } } : State).lanternRead a b k g false else s
    | none => s
  | _, _, none =>
    ({ s with str := { s.str with lantern := (0, 0, 0), lanternAgain := [] } } : State).count .lntPass

/-- LANTERN_STRIPE: the stripe whose reads are there is compared, or the walk takes the next (R209 to R212). -/
def State.lanternStep (s : State) : State :=
  if !s.bit .lntCtl 0 ∨ s.field .lntRate 15 0 = 0 ∨ !s.serves then s
  else
    let s := s.lanternMend
    match s.str.lanternNow with
    | none => s.lanternNext
    | some t =>
      if !t.look.pre.isEmpty then s
      else
        let s : State := { s with str := { s.str with lanternNow := none } }
        match s.group t.look.group with
        | some g => (s.lanternCompare t g).flow
        | none => s

def execLanternStripe (s : State) : Outcome := .next s.lanternStep

/-- LNT_RESTART: the current pass ends and a new one begins at group 0 (R224). -/
def execLntRestart (s : State) : Outcome :=
  .next (s.whenOn 150 fun s =>
    { s with str := { s.str with lantern := (0, 0, 0), lanternAgain := [], lanternNow := none } })

/-! ### ZEROING_STRIPE (R160) -/

/-- One stripe of a deleted volume's regions is opened and zeroed. -/
def State.zeroingStep (s : State) (gi : Nat) : State :=
  match s.group gi with
  | none => s
  | some g =>
    match g.zeroing with
    | [] => s
    | x :: _ =>
      let st := x * g.t + g.zeroAt
      if !s.bgCan gi st ∨ s.gstate gi = 3 then s
      else
        let (s, ok) := s.bgAdmit gi x
        if !ok then s
        else
          let writes : List StripeWrite := (List.range g.n).filterMap fun p => (s.posAt g st p).map fun y =>
            { pos := p, slot := y.1, op := .writeZeroes, lba := y.2, n := 16, data := [] }
          s.openBg gi g { group := gi, stripe := st, writer := .zeroing, method := if g.erasure then .full else .copy
                          positions := writes.map (·.pos), planned := true, writes }

def execZeroingStripe (group : Nat) (s : State) : Outcome := .next (s.zeroingStep group)

/-! ### REKEY_WALK_STRIPE (R400 to R403) -/

/-- The walk of a volume ends: the old key slot is zeroised and freed, and the CPH event is raised (R401, R403). -/
def State.walkEnd (s : State) (vol : Nat) (w : Walk) : State :=
  let s : State := { s with cph := { s.cph with
    walks := tblDel s.cph.walks vol, slots := tblDel s.cph.slots w.old } }
  ((((s.cfgPut 0x05 w.old none).cfgPut 0x06 vol none).touch).event .cph)

/-- One stripe of a rekey walk (R401, R402): it opens, or, where it waits for a generation, tries again. -/
def State.walkStep (s : State) (vol : Nat) : State :=
  match tblFind s.cph.walks vol, s.volume vol with
  | some w, some v =>
    match s.group v.group with
    | none => s
    | some g =>
      let gi := v.group
      let regions := v.ext.mergeSort (· ≤ ·)
      let rate := s.field .cphWalkRate 15 0
      if !w.begun ∨ rate = 0 ∨ !s.serves then s
      else
        match s.str.opens.find? fun o => o.writer == .rekey vol with
        | some o =>
          let top := match s.keySlot w.new with | some k => k.count == 0x7FFFFFFF | none => false
          let s := if !o.planned && o.pre.isEmpty && top then s.event .cph else s
          s.stripeAdvance gi o.stripe
        | none =>
          match regions[w.region]? with
          | none => s.walkEnd vol w
          | some x =>
            let st := x * g.t + w.stripe
            let lanes := (s.walkLane x).isSome
            let cost := costOf (storedBytes g.format1)
              ((List.range g.n).filterMap fun p => (s.posAt g st p).map fun x => (x.1, 16))
            if !s.bgCan gi st ∨ s.gstate gi = 3 ∨ !lanes ∨ !paceOk s.cph.paced rate cost then s
            else
              let (s, ok) := s.bgAdmit gi x
              if !ok then s
              else s.openBg gi g { group := gi, stripe := st, writer := .rekey vol, method := g.bgMethod, keyed := true
                                   positions := List.range g.n }
  | _, _ => s

def execRekeyWalkStripe (vol : Nat) (s : State) : Outcome := .next (s.walkStep vol).flow

end Sys2Proof.Machine
end

