-- ==== Sys2Proof/Machine/Group.lean ====
section
/-! DEFINITION. The admin commands for groups, volumes, members and lists, the map's inspection, drives becoming ready
and the assembly of groups (R157 to R165, R185 to R192, R214 to R218, R667 to R673). -/

namespace Sys2Proof.Machine

/-! ### CREATE_GROUP and DELETE_GROUP (R147, R158, R160) -/

/-- The largest power of two not above `n`, at most 16 (R138). -/
def awuOf (n : Nat) : Nat := if 16 ≤ n then 16 else if 8 ≤ n then 8 else if 4 ≤ n then 4 else if 2 ≤ n then 2 else 1

/-- The slots of the bitmap replicas at creation (R147). -/
def replicaSlots (slots : List Nat) : List Nat :=
  match slots with
  | [] => []
  | a :: rest =>
    match (rest.find? fun b => slotCluster b != slotCluster a).orElse fun _ => rest.head? with
    | some b => [a, b]
    | none => [a]

/-- The group that a CREATE_GROUP entry asks for, with SEED `seed` (R106, R112, R138, R158). -/
def State.groupOfEntry (s : State) (e : Bytes) (seed : Nat) : Group :=
  let slots := slotsOf (leAt e 40 8)
  let g : Group := {
    erasure := byteAt e 9 == 1
    width := byteAt e 10
    m := byteAt e 11
    spare := byteAt e 12
    format1 := byteAt e 13 == 1
    awu := awuOf ((slots.map fun sl => (s.drive sl).id.pfau).foldl min 16)
    seed
    slots
    periods := 0
    lgen := 1
    policySet := match byteAt e 14 with | 1 => .auto | 2 => .heldP | _ => .dflt
    replicas := replicaSlots slots }
  { g with periods := periodsOf g.l (slots.map fun sl => (s.drive sl).id.blocks) }

/-- The writes that CREATE_GROUP makes on a member: its label, the zeros of the label's other blocks and of the areas
(R158). -/
def State.createWrites (s : State) (gi : Nat) (g : Group) (sl : Nat) : State :=
  let op : MemOp := if (s.drive sl).id.deallocZero then .dealloc else .writeZeroes
  let s := s.addMem sl .write 0 1 (labelBytes gi g sl) 1 (.createGroup gi)
  let s := s.addMem sl .writeZeroes 1 15 [] 1 (.createGroup gi)
  let s := s.addMem sl op 16 65520 [] 1 (.createGroup gi)
  s.addMem sl op 65536 (16 * g.periods * g.l) [] 1 (.createGroup gi)

/-- CREATE_GROUP (R158). -/
def State.createGroup (s : State) (c : Cmd) : State :=
  let gi := byteAt c.entry 8
  let g := s.groupOfEntry c.entry (Config.groupSeed s.draws % 2 ^ 64)
  let s := s.drew
  let x : Creating := { seq := c.seq, group := gi, shape := g, left := 4 * g.slots.length }
  let s : State := { s with str := { s.str with creating := s.str.creating ++ [x] } }
  let s := (s.markPast c.seq).markWaiting c.seq
  (g.slots.foldl (fun s sl => s.createWrites gi g sl) s).flow

def execCreateGroup (qp cid : Nat) (s : State) : Outcome :=
  .next (s.adminRun qp cid 0x48 fun s c => s.createGroup c)

/-- DELETE_GROUP (R160): the group ceases, and the label of every drive present in a slot of it is overwritten. -/
def State.deleteGroup (s : State) (c : Cmd) : State :=
  let gi := byteAt c.entry 8
  match s.group gi with
  | none => s
  | some g =>
    let mine (o : OpenStripe) : Bool := o.group == gi
    let gone := s.str.opens.filter mine
    let s := (s.markPast c.seq).markWaiting c.seq
    let s : State := { s with str := { s.str with
      groups := tblDel s.str.groups gi
      members := s.str.members.filter fun e => e.2.group != gi
      opens := s.str.opens.filter fun o => !mine o
      window := s.str.window.filter fun w => w.group != gi
      repairs := s.str.repairs.filter fun r => r.group != gi } }
    let s := gone.foldl (fun s o => (s.freeSlice o.slice).freeHeld o.cls o.held) s
    let s := g.slots.foldl (fun s sl => s.dropMem sl fun _ => true) s
    let live := g.slots.filter fun sl => (s.drive sl).ready && (s.drive sl).linkUp
    let s := live.foldl (fun s sl =>
      s.addMem sl .write 0 1 (zeros (storedBytes g.format1)) 1 (.deleteLabel (some c.seq))) s
    let s := (s.cfgPut 0x07 gi none).touch
    if live.isEmpty then (s.finish c.seq stSuccess 0).flow else s.flow

def execDeleteGroup (qp cid : Nat) (s : State) : Outcome :=
  .next (s.adminRun qp cid 0x49 fun s c => s.deleteGroup c)

/-! ### CREATE_VOLUME and DELETE_VOLUME (R145, R150, R159, R160, R395) -/

/-- CREATE_VOLUME (R159): the lowest free regions; a Class 0 volume waits for its bits and its places in the window. -/
def State.createVolume (s : State) (c : Cmd) : State :=
  let e := c.entry
  let h := eVolume e
  let gi := byteAt e 40
  match s.group gi with
  | none => s
  | some g =>
    let fl := byteAt e 41
    let class0 := bitOf fl 0
    let v : Volume := {
      group := gi
      size := leAt e 8 8
      class0
      keyed := bitOf fl 1
      owner := leAt e 44 4
      ext := (s.freeRegions gi g).take (ceilDiv (leAt e 8 8) g.rb)
      creating := if class0 then some c.seq else none }
    let s := s.markPast c.seq
    let s : State := { s with str := { s.str with volumes := tblIns s.str.volumes h v } }
    let s := (s.cfgPut 0x08 h (some (.volume { v with creating := none }))).touch
    if class0 then ((s.markWaiting c.seq).pushCreating).flow else (s.finish c.seq stSuccess 0).flow

def execCreateVolume (qp cid : Nat) (s : State) : Outcome :=
  .next (s.adminRun qp cid 0x4A fun s c => s.createVolume c)

/-- The regions of a deleted volume join those to be zeroed, ascending behind the one at work (R160). -/
def Group.addZeroing (g : Group) (ext : List Nat) : Group :=
  { g with zeroing := match g.zeroing with
      | [] => ext.mergeSort (· ≤ ·)
      | x :: rest => x :: (rest ++ ext).mergeSort (· ≤ ·) }

/-- The key slots of a volume are zeroised and freed, with their wrapped copies; a walk of it stops (R395, R404). -/
def State.dropKeys (s : State) (h : Nat) : State :=
  let gone := s.cph.slots.filter fun e => e.2.volume == h
  let walk := (tblFind s.cph.walks h).isSome
  let s : State := { s with cph := { s.cph with
    slots := s.cph.slots.filter fun e => e.2.volume != h
    walks := tblDel s.cph.walks h
    phase := tblDel s.cph.phase h } }
  let s := gone.foldl (fun s e => s.cfgPut 0x05 e.1 none) s
  if walk then s.cfgPut 0x06 h none else s

/-- DELETE_VOLUME (R160, R201, R395). -/
def State.deleteVolume (s : State) (c : Cmd) : State :=
  let h := eVolume c.entry
  match s.volume h with
  | none => s
  | some v =>
    let s := (s.markPast c.seq).dropKeys h
    let masked := s.str.ubl.any fun e => e.volume == h
    let inVol (gi st : Nat) : Bool := gi == v.group && (match s.group gi with
      | some g => v.ext.contains (g.regionOf st)
      | none => false)
    let s : State := { s with str := { s.str with
      volumes := tblDel s.str.volumes h
      ubl := s.str.ubl.filter fun e => e.volume != h
      ublOver := s.str.ublOver.filter fun x => !inVol x.1 x.2.1
      window := s.str.window.map fun w =>
        if w.group = v.group ∧ v.ext.contains w.region then { w with class0 := false } else w } }
    let s := s.updGroup v.group fun g => g.addZeroing v.ext
    let s := (s.cfgPut 0x08 h none).touch
    let s := if masked then s.putRecord v.group else s
    (s.finish c.seq stSuccess 0).flow

def execDeleteVolume (qp cid : Nat) (s : State) : Outcome :=
  .next (s.adminRun qp cid 0x4B fun s c => s.deleteVolume c)

/-! ### IDENTIFY_VOLUME, IDENTIFY_GROUP, LIST_BLOCKS (R161, R201, R202, R212, R218) -/

/-- The 4,096 bytes of R161. -/
def State.identifyBytes (s : State) (gi : Nat) (g : Group) (v : Option Volume) : Bytes :=
  let vf := match v with | some v => b2n v.class0 + 2 * b2n v.keyed | none => 0
  let b := toLe (match v with | some v => v.size | none => 0) 8 ++ toLe gi 1 ++ toLe (b2n g.erasure) 1
    ++ toLe g.width 1 ++ toLe g.m 1 ++ toLe g.spare 1 ++ toLe (b2n g.format1) 1 ++ toLe g.awu 1 ++ toLe vf 1
    ++ toLe 512 4 ++ toLe 16 4 ++ toLe g.seed 8 ++ toLe g.w 4
    ++ toLe (match v with | some v => v.ext.length | none => g.regions) 4
    ++ toLe (s.freeRegions gi g).length 4 ++ toLe g.rb 4 ++ toLe (slotBits g.slots) 8
  b ++ zeros (4096 - b.length)

/-- An admin command places bytes in its buffer and completes; it has no issue point (R89). -/
def State.answer (s : State) (c : Cmd) (b : Bytes) : State :=
  ((s.hostPut (eMkey c.entry) (eAddr c.entry) c.cls c.seq b).finish c.seq stSuccess 0).flow

def execIdentifyVolume (qp cid : Nat) (s : State) : Outcome :=
  .next (s.adminRun qp cid 0x4C fun s c =>
    match s.target c with
    | some (v, g) => s.answer c (s.identifyBytes v.group g (some v))
    | none => s)

def execIdentifyGroup (qp cid : Nat) (s : State) : Outcome :=
  .next (s.adminRun qp cid 0x4D fun s c =>
    match s.group (byteAt c.entry 8) with
    | some g => s.answer c (s.identifyBytes (byteAt c.entry 8) g none)
    | none => s)

/-- A 32-byte entry of the unavailable-block list (R202). -/
def UblEntry.bytes (e : UblEntry) : Bytes :=
  toLe e.group 1 ++ toLe e.kind 1 ++ toLe e.unit 1 ++ zeros 1 ++ toLe e.mask 2 ++ zeros 2 ++ toLe e.stripe 8
    ++ toLe e.volume 3 ++ zeros 5 ++ toLe e.vlba0 8

/-- A 32-byte entry of the Lantern log (R212). -/
def LanternEntry.bytes (e : LanternEntry) : Bytes :=
  toLe e.group 1 ++ toLe e.outcome 1 ++ toLe e.position 1 ++ zeros 1 ++ toLe e.mask 2 ++ zeros 2 ++ toLe e.stripe 8
    ++ toLe e.time 8 ++ zeros 8

/-- What LIST_BLOCKS returns (R218). -/
def State.listBytes (s : State) (e : Bytes) : Bytes :=
  let all := if byteAt e 8 = 0 then s.str.ubl.map UblEntry.bytes else s.str.lanternLog.map LanternEntry.bytes
  let room := (eLen e - 32) / 32
  let some_ := (all.drop (leAt e 40 4)).take room
  toLe all.length 4 ++ toLe some_.length 4 ++ toLe (b2n (s.bit .strUblUsed 31)) 1 ++ zeros 23 ++ some_.flatten

def execListBlocks (qp cid : Nat) (s : State) : Outcome :=
  .next (s.adminRun qp cid 0x4F fun s c => s.answer c (s.listBytes c.entry))

/-- STR_ROW_SEL (R164, R165). -/
def State.rowCapture (s : State) (w : Nat) : State :=
  let gi := bitsOf w 29 24
  let i := bitsOf w 12 0
  let s := s.setReg .strRowSel (gi * 2 ^ 24 + i)
  let (slot, layer) := match s.group gi with
    | some g => (match g.seq[i]? with
      | some loc => (g.slots.getD loc 0, i / g.w)
      | none => (0x3F, 0x7F))
    | none => (0x3F, 0x7F)
  s.setReg .strRowData (2 ^ 31 + slot * 2 ^ 16 + layer % 2 ^ 7)

def execStrRowSel (v : Word) (s : State) : Outcome := .next (s.whenOn 150 fun s => s.rowCapture v.toNat)

/-! ### The assembly of groups (R116, R191, R192, R204, R208, R668 to R673) -/

/-- A label agrees with a group in every field of R116. -/
def labelFits (gi : Nat) (g : Group) (l : DriveLabel) : Bool :=
  l.group == gi && l.seed == g.seed && l.slots == slotBits g.slots && l.width == g.width && l.m == g.m
    && l.spare == g.spare && l.format1 == g.format1 && l.periods == g.periods

/-- The group that a label describes, not assembled (R116, R177). -/
def groupOfLabel (l : DriveLabel) : Group :=
  { erasure := l.erasure, width := l.width, m := l.m, spare := l.spare, format1 := l.format1, awu := l.awu
    seed := l.seed, slots := slotsOf l.slots, periods := l.periods, lgen := l.lgen, online := false }

/-- The record in force of a group in the configuration area (R191, R661). -/
def State.groupRecord (s : State) (gi : Nat) : Option CfgVal :=
  (s.sys.flash.recs.find? fun r => r.typ == 0x07 && r.key == gi).bind (·.val)

/-- Ready slots of a group whose label fits, with the label. -/
def State.fitting (s : State) (gi : Nat) (g : Group) : List (Nat × DriveLabel) :=
  g.slots.filterMap fun sl =>
    let d := s.drive sl
    match d.label with
    | some l => if d.ready && labelFits gi g l then some (sl, l) else none
    | none => none

/-- Regions of a group that volumes hold, ascending. -/
def State.allocatedRegions (s : State) (gi : Nat) : List Nat :=
  (s.str.volumes.flatMap fun e => if e.2.group = gi then e.2.ext else []).mergeSort (· ≤ ·)

/-- Regions of a group that Class 0 volumes hold. -/
def State.class0Of (s : State) (gi : Nat) : List Nat :=
  s.str.volumes.flatMap fun e => if e.2.group = gi ∧ e.2.class0 then e.2.ext else []

/-- A region list as a set. -/
def regionSet (l : List Nat) : Tbl Unit := l.foldl (fun t x => tblIns t x ()) []

/-- The regions the readable replicas say are dirty: group, slot and regions of each bitmap read. -/
abbrev BitmapReads := List (Nat × Nat × List Nat)

/-- The member in a slot as assembly leaves it (R172, R191, R670). -/
def assembledMember (gi gen used now : Nat) (cursors refills : List (Nat × Nat)) (evac : List Nat) (stale : Tbl Unit)
    (admitted refillable : Bool) (sl : Nat) : Member :=
  let cur := ((cursors.find? fun x => x.1 == sl).map (·.2)).getD 0
  let ref := (refills.find? fun x => x.1 == sl).map (·.2)
  if admitted then { group := gi }
  else if refillable ∧ ref.isSome then
    { group := gi, state := .refilling, refill := ref.getD 0, rebuild := cur, since := now, staleHeld := false }
  else if evac.contains sl then
    { group := gi, state := if used ≤ cur then .evacuated else .rebuilding, rebuild := cur, since := now, lgen := gen
      stale }
  else { group := gi, state := .missing, since := now, lgen := gen, stale }

/-- Assemble a group from the labels of its ready members, its record and its bitmap replicas (R668, R670). A region with its
bit set that no volume holds was being zeroed: its zeroing begins again (DESIGN CHOICE; log entry 100). -/
def State.assemble (s : State) (gi : Nat) (reads : BitmapReads) : State :=
  match s.group gi with
  | none => s
  | some g =>
    let fit := s.fitting gi g
    let gen := fit.foldl (fun a x => max a x.2.lgen) 0
    let adm := fit.filter fun x => x.2.lgen == gen
    let slots := adm.map (·.1)
    let reps := (adm.filter fun x => x.2.bitmap).map (·.1)
    let got := reads.filter fun r => r.1 == gi && reps.contains r.2.1
    let clean := !adm.isEmpty && adm.all fun x => x.2.clean
    let union := (got.flatMap fun r => r.2.2).eraseDups.mergeSort (· ≤ ·)
    let alloc := s.allocatedRegions gi
    let left := union.filter fun x => !alloc.contains x
    let dirty := (if clean then s.class0Of gi ++ left else if got.isEmpty then s.class0Of gi else union).mergeSort (· ≤ ·)
    let scope := if clean then [] else if got.isEmpty then s.allocatedRegions gi else union
    let stale := regionSet (if got.isEmpty ∧ !clean then s.allocatedRegions gi else dirty)
    let (recGen, place, cursors, refills, sweep, ubl, pol) := match s.groupRecord gi with
      | some (.group a b c d e f p) => (a, b, c, d, e, f, p)
      | _ => (0, {}, [], [], none, [], Policy.dflt)
    let g : Group := { g with
      lgen := gen
      clean
      place
      sweep
      recGen
      policySet := pol
      replicas := reps
      dirty := regionSet dirty
      resyncRegions := scope
      resyncAt := 0
      zeroing := left
      zeroAt := 0 }
    let member (sl : Nat) : Member :=
      let d := s.drive sl
      let refillable := d.ready && d.label.isNone && s.adoptable g sl
      assembledMember gi gen g.usedStripes s.now cursors refills place.evac stale (slots.contains sl) refillable sl
    let s := g.slots.foldl (fun s sl =>
      { s with str := { s.str with members := tblIns s.str.members sl (member sl) } }) s
    let s := s.setGroup gi g
    let s : State := { s with str := { s.str with ubl := (s.str.ubl.filter fun e => e.group != gi) ++ ubl } }
    let s := s.resolvePolicy gi
    (s.updGroup gi fun g => { g with online := decide (s.failures gi ≤ g.tol) }).touch

/-- What the serving controller does for a group that is assembled: clears CLEAN and rewrites the labels, re-establishes
replicas, has its Class 0 regions in the window, and handles drives that have come (R151, R185, R207, R672, R673). -/
def State.driveArrived (s : State) (gi sl : Nat) : State :=
  match s.group gi, s.member sl with
  | some g, some m =>
    let d := s.drive sl
    if !d.ready ∨ !g.online then s
    else
      let win := min 600 (s.field .strReturnWin 9 0)
      let back := (m.state == .missing || m.state == .rebuilding) && m.staleHeld && decide (win ≠ 0)
        && decide (s.now ≤ m.since + win * 1000 * msec)
        && (match d.label with | some l => labelFits gi g l && l.lgen == m.lgen | none => false)
      if back then
        let s := s.updMember sl fun m => { m with state := .returning, stale0 := m.stale.length, staleAt := 0 }
        let s := s.acquire sl
        (((s.failedCheck gi).deltaTo gi sl 0).putRecord gi).autoAct gi
      else if m.state = .missing ∨ m.state = .rebuilding ∨ m.state = .evacuated then
        if g.policy = .auto ∧ s.blank g sl then s.adopt gi sl
        else if d.label.isSome then s.event .str else s
      else
        let want := match m.state with | .inService => g.lgen | _ => m.lgen
        let writing := s.str.mem.any fun x => x.slot == sl && x.who == .label gi
        match d.label with
        | some l => if m.state ≠ .refilling ∧ labelFits gi g l ∧ (l.lgen = want ∨ writing) then s else s.event .str
        | none => s
  | _, _ => s

/-- The serving controller takes an assembled group up (R151, R204, R207, R672). -/
def State.takeUp (s : State) (gi : Nat) : State :=
  match s.group gi with
  | none => s
  | some g =>
    if !g.online ∨ !s.serves then s
    else
      let s := (s.setGroup gi { g with clean := false, labelsWait := g.clean }).rewriteLabels gi
      let s := s.replicaStart gi
      let s := (s.class0Of gi).foldl (fun s x => ((s.setBit gi x 1 none).1.winAdmit gi x true).1) s
      let s := g.slots.foldl (fun s sl => s.driveArrived gi sl) s
      ((s.evaluate gi []).autoAct gi).putRecord gi

/-- Assemble where the result serves, or where `force`d at the deadline (R670). -/
def State.tryAssemble (s : State) (gi : Nat) (reads : BitmapReads) (force : Bool) : State :=
  let t := s.assemble gi reads
  match t.group gi with
  | none => s
  | some g =>
    if g.online then ((g.slots.filter fun sl => t.takesWrites sl).foldl State.acquire t).takeUp gi
    else if force then t
    else s

/-- Labels of ready drives that name group `gi`, by slot. -/
def State.labelsOf (s : State) (gi : Nat) : List DriveLabel :=
  (List.range 48).filterMap fun sl =>
    let d := s.drive sl
    d.label.bind fun l => if d.ready && l.group == gi then some l else none

/-- The label that most labels of the list agree with in the fields of R116, the first of them on a tie (log entry 98). -/
def commonLabel (gi : Nat) (ls : List DriveLabel) : Option DriveLabel :=
  let votes (l : DriveLabel) : Nat := (ls.filter fun x => labelFits gi (groupOfLabel l) x).length
  ls.foldl (fun b l => match b with
    | none => some l
    | some x => if votes x < votes l then some l else b) none

/-- The group that labels name, not yet assembled, becomes known, OFFLINE, as most of its labels have it (R116, R177). A slot
is in at most one group (R105; log entry 98). -/
def State.learn (s : State) (gi : Nat) : State :=
  match commonLabel gi (s.labelsOf gi) with
  | none => s
  | some l =>
    let g := groupOfLabel l
    let free := g.slots.all fun sl => (s.member sl).all fun m => m.group == gi
    let known := (s.group gi).any fun x => labelFits gi x l || x.online
    if 64 ≤ gi ∨ known ∨ !free then s
    else
      let s : State := { s with str := { s.str with members := s.str.members.filter fun e => e.2.group != gi } }
      let s := s.setGroup gi g
      g.slots.foldl (fun s sl => { s with str := { s.str with
        members := tblIns s.str.members sl { group := gi, state := .missing, since := s.now } } }) s

/-- DRIVE_READY (R109, R187, R188, R214, R562, R667, R670, R673): the drive's identification and the first block of its
label area have been read; `reads` are the bitmap replicas read if its group is assembled now. -/
def State.driveBecomesReady (s : State) (sl : Nat) (id : DriveId) (blk0 : Bytes) (reads : BitmapReads) : State :=
  let powered := (tblGet ({} : Slot) s.spm.slots sl).perstOff
  if Config.slots s.variant ≤ sl ∨ !s.readsOn (32 + sl) ∨ !powered then s
  else
    let label := parseLabel blk0
    let s := s.setDrive sl { ready := true, linkUp := true, id, label }
    let s := s.emit (.driveCtl sl "REGISTER")
    let s := if (tblFind s.shd.acquiring sl).isSome then s.sendAcquire sl else s
    let s := match label with
      | some l => if s.shd.role = Role.shadow then s else s.learn l.group
      | none => s
    let s : State := { s with str := { s.str with
      bitmaps := reads ++ s.str.bitmaps.filter fun x => !(reads.any fun y => y.1 == x.1 && y.2.1 == x.2.1) } }
    let reads := s.str.bitmaps
    if s.shd.role = Role.shadow then s else
    match s.member sl with
    | none => s
    | some m =>
      let gi := m.group
      match s.group gi with
      | none => s
      | some g =>
        if g.online then (if s.serves then (s.driveArrived gi sl).flow else s)
        else if (s.groupRecord gi).isNone then s
        else if s.sys.deadlinePassed then (s.tryAssemble gi reads false).flow
        else if g.slots.all fun x => (s.drive x).ready then (s.tryAssemble gi reads true).flow
        else s

/-- ASSEMBLY_DEADLINE (R670): 60 s after SERVICE every group with a record that is not yet assembled is assembled. -/
def State.assemblyDeadline (s : State) (reads : BitmapReads) : State :=
  match s.sys.serviceAt with
  | none => s
  | some t =>
    if s.sys.deadlinePassed then s
    else
      let s := s.advanceTo (t + 60000 * msec)
      let s : State := { s with sys := { s.sys with deadlinePassed := true } }
      let reads := reads ++ s.str.bitmaps
      let due := s.str.groups.filter fun e => s.shd.role != .shadow && !e.2.online && (s.groupRecord e.1).isSome
      (due.foldl (fun s e => s.tryAssemble e.1 reads true) s).flow

/-! ### MEMBER_CONTROL (R217) -/

/-- ADOPT (R192, R217): the drive's label block is overwritten at once and the slot enters REFILLING; a group without
a record is assembled by it first. -/
def State.adoptCommand (s : State) (gi sl : Nat) : State :=
  let s := match s.group gi with
    | some g => if !g.online ∧ (s.groupRecord gi).isNone then s.tryAssemble gi s.str.bitmaps true else s
    | none => s
  match s.group gi with
  | none => s
  | some g =>
    let s := s.setDrive sl { s.drive sl with label := none }
    (s.addMem sl .write 0 1 (zeros (storedBytes g.format1)) 1 (.adoptLabel gi)).adopt gi sl

/-- MEMBER_CONTROL (R217). -/
def State.memberControl (s : State) (c : Cmd) : State :=
  let gi := byteAt c.entry 8
  let sl := byteAt c.entry 10
  let s := s.markPast c.seq
  let s := match byteAt c.entry 9 with
    | 0 => s.startRebuild gi sl
    | 1 =>
      let p : Policy := match byteAt c.entry 11 with | 1 => .auto | 2 => .heldP | _ => .dflt
      let s := (s.updGroup gi fun g => { g with policySet := p }).resolvePolicy gi
      ((s.autoAct gi).putRecord gi).touch
    | 2 => s.memberMissing sl
    | _ => s.adoptCommand gi sl
  (s.finish c.seq stSuccess 0).flow

def execMemberControl (qp cid : Nat) (s : State) : Outcome :=
  .next (s.adminRun qp cid 0x4E fun s c => s.memberControl c)

end Sys2Proof.Machine
end

