-- ==== Sys2Proof/Machine/Net.lean ====
section
/-! DEFINITION. The network face below its personalities: frames, PFC, links, service addresses (R259 to R275), and the
admin commands of the face (R272, R277, R304). -/

namespace Sys2Proof.Machine

/-! ### Frames (R262 to R270) -/

/-- An IP address is a service address of sub-port (m, u) (R271). -/
def State.isService (s : State) (m u : Nat) (v6 : Bool) (a : Nat) : Bool :=
  let x := s.subAddr m u
  (if v6 then x.v6 else x.v4).any fun e => e.2.addr == a

/-- The destination of a frame is a service address of the sub-port, or the group address of its own protocol
(R263, R264, R271). -/
def State.dstOk (s : State) (m u : Nat) (f : Frame) : Bool :=
  match f.dst with
  | .ip v6 a => s.isService m u v6 a
  | .mac a => (s.subAddr m u).mac == some a
  | .group => match f.kind with
    | .arp | .icmp | .lldp | .ptp _ => true
    | _ => false

/-- The effective MTU of a MAC (R306). -/
def State.mtuOf (s : State) (mac : Nat) : Nat := max 1280 (min 9000 (s.mtu mac))

/-- A frame that R263 drops, FCS errors apart. -/
def State.frameDrops (s : State) (m u : Nat) (f : Frame) : Bool :=
  decide (f.bytes < 64) || decide (9216 < f.bytes) || decide (2 ≤ f.vlanTags) || f.kind == .globalPause || f.ipBad
    || decide (s.mtuOf m < f.ipLen) || f.udpBad || !s.dstOk m u f || f.kind == .other
    || (f.persBad && (match f.kind with | .odt _ | .roce _ | .cnp => true | _ => false))

/-- Management frames of a MAC in the second under way, and its start (R264). -/
def State.mgmtOf (s : State) (mac : Nat) : Nat × Nat := tblGet (0, 0) s.net.mgmt mac

/-- An input of the management Ethernet is rejected: source 15 (R683, R699). -/
def State.mgmtDrop (s : State) : State := (s.err 15).count .sysInBad

/-- A frame of the management Ethernet (R683): of the connection of queue pair 0 alone, and at most 20,000 a second. -/
def State.mgmtFrame (s : State) (f : Frame) : State :=
  let w := s.mgmtOf 9
  let w := if w.2 + 1000000000 ≤ s.now then (0, s.now) else w
  let own := match f.kind with
    | .odt k => (s.qp 0).state != .free && (s.qp 0).face == .odt k
    | _ => false
  let bad := !f.fcsOk || decide (f.bytes < 64) || decide (9216 < f.bytes) || decide (2 ≤ f.vlanTags) || f.ipBad || f.udpBad
    || f.persBad || !own || decide (20000 ≤ w.1)
  let s : State := { s with net := { s.net with mgmt := tblIns s.net.mgmt 9 (w.1 + 1, w.2) } }
  if bad then s.mgmtDrop else s

/-- What Basalt answers to a management frame, by the first bytes of the frame (R264, R270): an ARP request, an echo request, a
Neighbor Solicitation, Delay_Req and Pdelay_Req; nothing else (log entry 106). -/
def answerOf (f : Frame) : Option Nat :=
  let o := 14 + 4 * f.vlanTags
  let six := beAt f.hdr (o - 2) 2 == 0x86DD
  let l4 := if six then o + 40 else o + 20
  match f.kind with
  | .arp => if beAt f.hdr (o + 6) 2 = 1 then some 0 else none
  | .icmp => match six, byteAt f.hdr l4 with
    | false, 8 => some 1
    | true, 128 => some 2
    | true, 135 => some 3
    | _, _ => none
  | .ptp _ =>
    let at_ := if beAt f.hdr (o - 2) 2 = 0x88F7 then o else l4 + 8
    match byteAt f.hdr at_ % 16 with
    | 1 => some 4
    | 2 => some 5
    | _ => none
  | _ => none

/-- Basalt answers a frame: the answer leaves in Class 1, and of an event message the transmit timestamp comes back (R264,
R270; log entries 101 and 106). -/
def State.answerFrame (s : State) (m u : Nat) (f : Frame) : State :=
  match answerOf f with
  | none => s
  | some k =>
    let s := s.sendOrHold { mac := m, sub := u, cls := 1, what := .frame false (decide (4 ≤ k)) (.answer m u k) }
    if k = 5 then s.emit (.txStamp m s.gnmNs) else s

/-- A management frame goes to Basalt, at most 50,000 a second from each MAC (R264, R270). -/
def State.toBasalt (s : State) (m u : Nat) (f : Frame) : State :=
  let w := s.mgmtOf m
  let w := if w.2 + 1000000000 ≤ s.now then (0, s.now) else w
  if 50000 ≤ w.1 then s.count .netMgmtDrop
  else
    let stamp := match f.kind with | .ptp true => some s.gnmNs | _ => none
    let kind := match f.kind with | .arp => 0 | .icmp => 1 | .lldp => 2 | _ => 3
    let s : State := { s with net := { s.net with mgmt := tblIns s.net.mgmt m (w.1 + 1, w.2) } }
    (s.emit (.toBasalt m u kind stamp)).answerFrame m u f

/-- XON below XOFF (R308). -/
def State.xon (s : State) : Nat :=
  let off := s.field .netPfc 23 12
  let on := s.field .netPfc 11 0
  if off ≤ on then off - 1 else on

/-- The state with the PFC state of (mac, priority) replaced. -/
def State.setPfc (s : State) (mac pri : Nat) (p : Pfc) : State :=
  { s with net := { s.net with pfc := tblPut {} s.net.pfc (8 * mac + pri) p } }

/-- A MAC may send a frame: not fenced (R560). -/
def State.pfcSend (s : State) (mac pri quanta : Nat) : State :=
  if s.shd.fence || s.shd.stopped then s else s.sendFrame mac 0 (.pfc mac pri quanta)

/-- Cells of write data of a command that came through the adapter and have not been sent on (R266). -/
def Cmd.atPort (c : Cmd) : Nat := if c.rows.isEmpty then ceilDiv c.data.length 256 - c.gone else 0

/-- Cells of a priority that the adapter's buffer partition holds (R265, R266): those of write data received with it that wait
for their stripe or for the crossbar. -/
def State.portCells (s : State) (mac pri : Nat) : Nat :=
  let runs := s.xbr.runs.foldl (fun n r => match r.who with
    | .stripe _ _ => if r.src = mac ∧ r.pri = pri then n + r.left else n
    | _ => n) 0
  s.qpe.cmds.foldl (fun n c =>
    if c.rxPri = pri ∧ s.dataPoint c = mac then n + c.atPort else n) runs

/-- The holding of a priority may have changed: XOFF above its mark, quanta 0 below XON (R266). -/
def State.pfcSync (s : State) (mac pri : Nat) : State :=
  let p := s.pfcOf mac pri
  let cells := s.portCells mac pri
  if bitOf (s.reg .netPfc) (24 + pri) && !p.xoff && decide (s.field .netPfc 23 12 < cells) then
    (s.setPfc mac pri { p with xoff := true, xoffAt := s.now }).pfcSend mac pri 0xFFFF
  else if p.xoff && decide (cells < s.xon) then (s.setPfc mac pri { p with xoff := false }).pfcSend mac pri 0
  else s

/-- Every priority of a MAC. -/
def State.pfcSyncAll (s : State) (mac : Nat) : State :=
  if mac < 8 then (List.range 8).foldl (fun s p => s.pfcSync mac p) s else s

/-- A CE mark (R268). -/
def State.ceMark (s : State) (f : Frame) : State :=
  if !f.ce then s
  else
    match f.kind with
    | .odt k =>
      let s := s.count .netCeRx
      if (s.odtConn k).state = .closed then s else s.setOdt k { s.odtConn k with ece := true }
    | .cnp => s.count .netCeRx
    | .roce k =>
      let s := s.count .netCeRx
      match tblFind s.net.roce k with
      | some c =>
        let due := match c.lastCnp with
          | some t => decide (t + (max 4 (min 1000 (s.field .netRoceCnp 9 0))) * usec ≤ s.now)
          | none => true
        if due && s.serves then
          ((s.setRoce k { c with lastCnp := some s.now }).count .netCnpTx).roceFrame c.mac c.sub 0 (.cnp k)
        else s
      | none => s
    | _ => s

/-- FRAME_RECEIVE (R263, R264, R268 to R270, R273). -/
def State.frameReceive (s : State) (m u : Nat) (f : Frame) : State :=
  if m = 9 then s.mgmtFrame f
  else if !(s.macPresent m && s.subUp m u) then s
  else if !f.fcsOk then s.count .netFcsErr
  else
  let s := s.tap (2 * m) u f.bytes (s.frameDrops m u f) (some f.hdr)
  if s.frameDrops m u f then s.count .netRxDrop
  else if !s.serves then s
  else
    match f.kind with
    | .arp | .icmp | .lldp | .ptp _ => s.toBasalt m u f
    | .cnp => s.count .netCnpRx
    | _ => s.ceMark f

/-! ### PFC (R266, R267) -/

/-- Gigabits a second of a sub-port of the MAC (R259). -/
def State.macRate (s : State) (mac : Nat) : Nat :=
  match s.field .netPort 1 0 mac with | 2 => 200 | 3 => 100 | _ => 400

/-- One priority of a received PFC frame (R266, R267): `q` pause quanta of 512 bit times. -/
def State.pfcRx (s : State) (mac pri q : Nat) : State :=
  let p := s.pfcOf mac pri
  if !bitOf (s.reg .netPfc) (24 + pri) then s
  else if p.ignoring then s.setPfc mac pri { p with lastRx := s.now }
  else if q = 0 then (s.setPfc mac pri { p with until_ := none, since := none, lastRx := s.now }).resumeMac mac
  else
    let held := s.paused mac pri
    s.setPfc mac pri { p with
      until_ := some (s.now + ceilDiv (q * 512) (s.macRate mac))
      since := if held then p.since else some s.now
      lastRx := s.now }

/-- PFC_FRAME_RECEIVE: the priority-enable vector and the pause times. -/
def State.pfcFrame (s : State) (mac vec : Nat) (quanta : List Nat) : State :=
  if !s.macPresent mac then s
  else (List.range 8).foldl (fun s p => if bitOf vec p then s.pfcRx mac p (quanta.getD p 0) else s) s

/-- PFC_PAUSE_EXPIRE (R266). -/
def State.pfcExpire (s : State) (mac pri : Nat) : State :=
  match (s.pfcOf mac pri).until_ with
  | none => s
  | some t =>
    let s := s.advanceTo t
    (s.setPfc mac pri { s.pfcOf mac pri with until_ := none, since := none }).resumeMac mac

/-- PFC_XOFF_REPEAT (R266): unless the holding has fallen below XON meanwhile. -/
def State.pfcRepeat (s : State) (mac pri : Nat) : State :=
  let p := s.pfcOf mac pri
  if !p.xoff then s
  else
    let s := s.advanceTo (p.xoffAt + 2000)
    if s.portCells mac pri < s.xon then s.pfcSync mac pri
    else (s.setPfc mac pri { p with xoffAt := s.now }).pfcSend mac pri 0xFFFF

/-- PFC_WATCHDOG_TRIP (R267): the pause has lasted NET_PFC_WDOG ms without a break. -/
def State.pfcTrip (s : State) (mac pri : Nat) : State :=
  let p := s.pfcOf mac pri
  let ms := s.field .netPfcWdog 7 0
  match p.since, p.until_ with
  | some t, some u =>
    if ms = 0 ∨ p.ignoring ∨ u < t + ms * msec then s
    else
      let s := s.advanceTo (t + ms * msec)
      let s := (s.setPfc mac pri { p with ignoring := true, until_ := none, since := none }).count .netPfcWdogCt
      (s.event .net).resumeMac mac
  | _, _ => s

/-- PFC_WATCHDOG_CLEAR (R267). -/
def State.pfcClear (s : State) (mac pri : Nat) : State :=
  let p := s.pfcOf mac pri
  if !p.ignoring then s
  else
    let s := s.advanceTo (p.lastRx + msec)
    s.setPfc mac pri { p with ignoring := false }

def execFrameReceive (mac sub : Nat) (frame : Frame) (s : State) : Outcome := .next (s.frameReceive mac sub frame)
def execPfcFrameReceive (mac vec : Nat) (quanta : List Nat) (s : State) : Outcome := .next (s.pfcFrame mac vec quanta)
def execPfcPauseExpire (mac pri : Nat) (s : State) : Outcome := .next (s.pfcExpire mac pri)
def execPfcXoffRepeat (mac pri : Nat) (s : State) : Outcome := .next (s.pfcRepeat mac pri)
def execPfcWatchdogTrip (mac pri : Nat) (s : State) : Outcome := .next (s.pfcTrip mac pri)
def execPfcWatchdogClear (mac pri : Nat) (s : State) : Outcome := .next (s.pfcClear mac pri)

/-! ### Links and addresses (R259 to R261, R271 to R274) -/

/-- The lanes of sub-port (m, u) in the MAC's MODE (R259). -/
def State.lanesOf (s : State) (m u : Nat) : List Nat :=
  match s.field .netPort 1 0 m with
  | 1 => (List.range 4).map (· + 4 * m)
  | 2 => [4 * m + 2 * u, 4 * m + 2 * u + 1]
  | 3 => [4 * m + u]
  | _ => []

/-- A sub-port may come up: it exists, is enabled, and its lanes are ON (R261). -/
def State.subMayRise (s : State) (m u : Nat) : Bool :=
  s.macPresent m && decide (u < s.subports m) && s.bit .netPort (12 + u) m && (s.lanesOf m u).all fun l => s.isOn l

/-- A sub-port loses link: LINK_LOST is set (R306). -/
def State.linkDown (s : State) (m u : Nat) : State :=
  if s.subUp m u then
    let s : State := { s with net := { s.net with link := tblPut false s.net.link (4 * m + u) false } }
    ((s.setReg .netPort (s.reg .netPort m ||| 2 ^ (20 + u)) m).event .net).reachChange
  else s

/-- NETWORK_LINK_CHANGE (R261, R306). -/
def State.linkChange (s : State) (m u : Nat) (up : Bool) : State :=
  if up then
    if s.subMayRise m u && !s.subUp m u then
      let s : State := { s with net := { s.net with link := tblPut false s.net.link (4 * m + u) true } }
      s.reachChange
    else s
  else s.linkDown m u

def execNetworkLinkChange (mac sub : Nat) (up : Bool) (s : State) : Outcome := .next (s.linkChange mac sub up)

/-- Announce every service address on every sub-port with link (R274). -/
def State.announceAll (s : State) : State :=
  s.net.addr.foldl (fun s e =>
    if s.serves && s.subUp (e.1 / 4) (e.1 % 4) then
      ((e.2.v4.map fun a => Out.announce e.1 false a.2.addr)
        ++ (e.2.v6.map fun a => Out.announce e.1 true a.2.addr)).foldl (fun s o =>
          s.sendOrHold { mac := e.1 / 4, sub := e.1 % 4, cls := 0, what := .frame false false o }) s
    else s) s

/-- ADDRESS_ANNOUNCE (R274): the next repeat that is due. -/
def State.announceNext (s : State) : State :=
  match s.net.announce with
  | [] => s
  | t :: rest =>
    let s := s.advanceTo t
    ({ s with net := { s.net with announce := rest } } : State).announceAll

def execAddressAnnounce (s : State) : Outcome := .next s.announceNext

/-- The configuration key of a service address: sub-port, kind and index (R663). -/
def addrKey (sub kind idx : Nat) : Nat := (sub * 8 + kind) * 4 + idx

/-- One address of a sub-port set or removed (R272). -/
def SubAddr.put (x : SubAddr) (kind idx : Nat) (v : Option IpAddr) : SubAddr :=
  match kind with
  | 0 => { x with mac := v.map (·.addr) }
  | 1 => { x with v4 := match v with | some a => tblIns x.v4 idx a | none => tblDel x.v4 idx }
  | 2 => { x with v6 := match v with | some a => tblIns x.v6 idx a | none => tblDel x.v6 idx }
  | 3 => { x with gw4 := v.map (·.addr) }
  | _ => { x with gw6 := v.map (·.addr) }

/-- The address of a SET_ADDRESS entry, network byte order (R272). -/
def addrOf (e : Bytes) : Nat :=
  match byteAt e 10 with
  | 0 => beAt e 40 6
  | 1 => beAt e 40 4
  | 3 => beAt e 40 4
  | _ => beAt e 40 16

def execSetAddress (qp cid : Nat) (s : State) : Outcome :=
  .next (s.adminRun qp cid 0x54 fun s c =>
    let e := c.entry
    let sub := 4 * byteAt e 8 + byteAt e 9
    let v : Option IpAddr := if byteAt e 13 = 1 then none else some { addr := addrOf e, pfx := byteAt e 12 }
    let x := (tblGet (α := SubAddr) {} s.net.addr sub).put (byteAt e 10) (byteAt e 11) v
    let s := s.markPast c.seq
    let s : State := { s with net := { s.net with addr := tblPut {} s.net.addr sub x } }
    let s := s.cfgPut 0x0A (addrKey sub (byteAt e 10) (byteAt e 11)) (v.map fun a => .address a.addr a.pfx)
    (s.touch.finish c.seq stSuccess 0).flow)

def execRoceAllow (qp cid : Nat) (s : State) : Outcome :=
  .next (s.adminRun qp cid 0x53 fun s c =>
    let e := c.entry
    let i := leAt e 12 2
    let a : RoceAllow := { mac := byteAt e 8, sub := byteAt e 9, family := byteAt e 10, cls := byteAt e 11,
                           tenant := leAt e 20 4, host := ipOf e (byteAt e 10) }
    let s := s.markPast c.seq
    let rm := byteAt e 14 == 1
    let s : State := { s with net := { s.net with
      allow := if rm then tblDel s.net.allow i else tblIns s.net.allow i a } }
    let s := s.cfgPut 0x0B i (if rm then none else some (.allow a))
    (s.touch.finish c.seq stSuccess 0).flow)

/-! ### ODT_CONNECT, ODT_CLOSE, NET_ODT_SEL (R304, R310) -/

/-- The identifier for CONN ANY: the lowest CLOSED one (log entry 23). -/
def State.pickConn (s : State) : Nat :=
  ((List.range s.odtCount).find? fun c => (s.odtConn c).state == .closed).getD 0

def execOdtConnect (qp cid : Nat) (s : State) : Outcome :=
  .next (s.adminRun qp cid 0x51 fun s c =>
    let e := c.entry
    let n := leAt e 56 4
    let k := if bitOf n 31 then s.pickConn else n
    let x : OdtConn := {
      state := .opening
      mac := byteAt e 8
      sub := byteAt e 9
      family := byteAt e 10
      seg := 1024 * 2 ^ byteAt e 11
      rport := leAt e 12 2
      raddr := ipOf e (byteAt e 10)
      dbWin := leAt e 14 2
      tenant := leAt e 20 4
      credit := leAt e 24 4
      lastRx := s.now
      lastTx := s.now
      since := s.now }
    (((s.markPast c.seq).setOdt k x).touch.finish c.seq stSuccess k).flow)

def execOdtClose (qp cid : Nat) (s : State) : Outcome :=
  .next (s.adminRun qp cid 0x52 fun s c =>
    let k := leAt c.entry 56 4
    let x := s.odtConn k
    let m := OdtOut.keepalive ((x.hseq + 1) % 2 ^ 32)
    let fl := 0x80 + b2n x.ece
    let o := Out.odt k 0 fl x.dseq x.hseq m (odtBytes x.tenant k 0 fl x.dseq x.hseq m)
    let s := (s.markPast c.seq).dropHeld k
    let s := if s.serves then s.sendOrHold { mac := x.mac, sub := x.sub, cls := 0, what := .frame true true o } else s
    let s := s.dropEgress fun u => match u.what with | .odt c _ _ _ => c != k | _ => true
    ((s.setOdt k {}).touch.finish c.seq stSuccess 0).flow)

/-- The capture of NET_ODT_SEL (R310). -/
def State.odtCapture (s : State) (k : Nat) : State :=
  let s := s.setReg .netOdtSel k
  let c : OdtConn := if k < s.odtCount then s.odtConn k else {}
  let closed := c.state == .closed
  let s := s.setReg .netOdtState
    (2 ^ 31 + c.state.code * 2 ^ 28 + (if closed then 0 else c.mac * 2 ^ 25 + c.sub * 2 ^ 23 + c.tenant))
  let s := s.setReg .netOdtHseq (if closed then 0 else c.hseq)
  s.setReg .netOdtDseq (if closed then 0 else c.dseq)

def execNetOdtSel (v : Word) (s : State) : Outcome :=
  .next (s.whenOn 0 fun s => s.odtCapture (v.toNat % 2 ^ 16))

end Sys2Proof.Machine
end

