-- ==== Sys2Proof/Machine/Recover.lean ====
section
/-! DEFINITION. Queue-pair recovery after a takeover (R569): what each face sends when its host answers. -/

namespace Sys2Proof.Machine

/-- Posting resumes on the queue pairs `mine` picks, and the commands taken and not posted complete NOT_OWNER. -/
def State.thaw (s : State) (mine : Qp → Bool) : State :=
  let qs := (s.qpe.qps.filter fun e => e.2.frozen && mine e.2).map (·.1)
  let s := qs.foldl (fun s q => s.updQp q fun x => { x with frozen := false }) s
  let fin := s.qpe.cmds.filter fun c => qs.contains c.qp && c.phase == .finished
  fin.foldl (fun s c => s.postTry c.seq) s

/-- The logged completions of the queue pairs `mine` picks; they leave the list. -/
def State.takeReposts (s : State) (mine : Qp → Bool) : List Repost × State :=
  (s.shd.repost.filter fun r => mine (s.qp r.qp),
    { s with shd := { s.shd with repost := s.shd.repost.filter fun r => !mine (s.qp r.qp) } })

/-- An ODT connection after the host's KEEPALIVE RESUME, whose ACK is `ack` (R569): logged completions whose SEQ is beyond
it go first, then NOT_OWNER completions, from SEQ `ack` + 1 onward. -/
def State.odtRecover (s : State) (k ack : Nat) : State :=
  let c := s.odtConn k
  if !c.recover then s
  else
    let mine (x : Qp) : Bool := x.face == .odt k
    let (rs, s) := s.takeReposts mine
    let s := s.setOdt k { c with recover := false, dseq := (ack + 1) % 2 ^ 32, sent := [], asks := [] }
    let beyond (r : Repost) : Bool :=
      let d := (r.seq + 2 ^ 32 - ack) % 2 ^ 32
      decide (0 < d ∧ d < 2 ^ 31)
    let s := (rs.filter beyond).foldl
      (fun s r => s.odtEmit k (s.qp r.qp).baseClass r.qp 16 (.completion r.slot r.entry)) s
    (s.thaw mine).flow

/-- A RoCEv2 connection after the host's PSN sequence error at `psn` (R569): zero-length WRITEs fill the gap, then the
logged responses from `psn` on are sent again, then NOT_OWNER responses. -/
def State.roceRecover (s : State) (k psn : Nat) : State :=
  match tblFind s.net.roce k with
  | none => s
  | some c =>
    if !c.recover then s
    else
      let mine (x : Qp) : Bool := match x.face with | .roce a q => s.roceOf a q == some k | _ => false
      let qid (q : Nat) : Nat := match (s.qp q).face with | .roce _ i => i | _ => 0
      let (rs, s) := s.takeReposts mine
      let gap := (c.sPsn + 2 ^ 24 - psn) % 2 ^ 24
      let fill : List RoceReq := List.replicate gap (.write 0 0 0 [])
      let unacked (r : Repost) : Bool := decide ((r.seq + 2 ^ 24 - psn) % 2 ^ 24 < 2 ^ 23)
      let again : List RoceReq := (rs.filter unacked).map fun r =>
        .response (s.qp r.qp).baseClass (responseCapsule r.entry (qid r.qp))
      let s := s.setRoce k { c with recover := false, sPsn := psn, psnLeft := 0, sent := [], queue := fill ++ again }
      let s := s.rocePump (gap + again.length) k
      (s.thaw mine).flow

end Sys2Proof.Machine
end

