-- ==== Sys2Proof/Machine/Odt.lean ====
section
/-! DEFINITION. The Oclos Direct Transport: sequencing, receipts, credit, resumption and timers (R285 to R303). -/

namespace Sys2Proof.Machine

/-- `a` is at or after `b`, modulo 2^32 (R289). -/
def seqGe (a b : Nat) : Bool := decide ((a + 2 ^ 32 - b) % 2 ^ 32 < 2 ^ 31)

/-- A message reaches the connection it names (R273, R288); `bell` for a doorbell, whose QPN R74 judges. -/
def State.odtAccepts (s : State) (h : OdtHdr) (bell : Bool) : Bool :=
  let c := s.odtConn h.conn
  let resume := !bell && bitOf h.flags 5 && c.state == .failed
  h.version == 1 && h.plenOk && (c.state == .opening || c.state == .established || c.state == .suspect || resume)
    && h.addr == c.raddr && h.port == c.rport && h.mac == c.mac && h.sub == c.sub && h.tenant == c.tenant
    && (bell || h.qpn == 0 || (s.qp h.qpn).face == .odt h.conn && (s.qp h.qpn).state != .free)

/-- A message the connection does not take is dropped and counted (R288); a controller that does not serve, or a
sub-port without link, takes none (R273). On the management Ethernet it is an input rejected there (R683). -/
def State.odtDrop (s : State) (mac : Nat) : State :=
  if mac = 9 then s.mgmtDrop else if s.serves then s.count .netRxDrop else s

/-- What every accepted message does: the host was heard, and its ACK ends retransmissions and dates requests
(R289, R298, R299). -/
def State.odtHeard (s : State) (h : OdtHdr) : State :=
  let c := s.odtConn h.conn
  let acked (q : Nat) : Bool := h.ack != 0xFFFFFFFF && seqGe h.ack q
  s.setOdt h.conn { c with
    lastRx := s.now
    sent := c.sent.filter fun m => !acked m.seq
    asks := c.asks.map fun a => if acked a.seq && a.ackedAt.isNone then { a with ackedAt := some s.now } else a }

/-- Send the RECEIPT of a doorbell (R287, R291, R292): `flags` are HELD 2, REFUSED 4, INVALID 8, GAP 0x400. -/
def State.receipt (s : State) (k qpn flags : Nat) : State :=
  s.odtCtl k qpn flags (.receipt (s.qp qpn).tail (s.odtLimit k))

/-- A connection enters SUSPECT (R299, R300). -/
def State.odtSuspect (s : State) (k : Nat) : State :=
  let c := s.odtConn k
  if c.state = .established then
    (s.setOdt k { c with state := .suspect, since := s.now }).touch.count .netOdtSuspect
  else s

/-- A doorbell on connection `k`: in order, duplicate, or ahead (R290, R291, R301). `apply` carries out a doorbell in
order and gives its receipt flags. While the connection is OPENING no doorbell is in order (DESIGN CHOICE; log entry 110). -/
def State.odtBell (s : State) (h : OdtHdr) (apply : State → State × Nat) : State :=
  if !(s.serves && s.subUp h.mac h.sub) then s
  else if !s.odtAccepts h true then s.odtDrop h.mac
  else
    let s := s.odtHeard h
    let c := s.odtConn h.conn
    let next := (c.hseq + 1) % 2 ^ 32
    if h.seq = next ∧ seqGe (s.odtLimit h.conn) h.seq ∧ c.state ≠ .opening then
      let (s, fl) := apply s
      let c := s.odtConn h.conn
      let given := tblPut 0 (c.given.filter fun e => decide ((h.seq + 2 ^ 32 - e.1) % 2 ^ 32 < 256)) h.seq fl
      let s := s.setOdt h.conn { c with
        hseq := h.seq
        given
        state := if c.state = .suspect then .established else c.state }
      s.touch.receipt h.conn h.qpn fl
    else if seqGe c.hseq h.seq ∧ c.state ≠ .opening then
      let fl := if (c.hseq + 2 ^ 32 - h.seq) % 2 ^ 32 < 256 then tblGet 0 c.given h.seq else 0
      (s.count .netOdtDup).receipt h.conn h.qpn fl
    else (s.count .netOdtDiscard).receipt h.conn h.qpn 0x400

/-- The queue pair of a doorbell is bound to the connection, or is one that R74 answers by its number alone. -/
def State.odtOwns (s : State) (h : OdtHdr) : Bool := s.noQp h.qpn || (s.qp h.qpn).face == .odt h.conn

/-- DOORBELL in order (R71, R73, R74, R286). -/
def State.odtApply (h : OdtHdr) (s : State) : State × Nat :=
  if !s.odtOwns h then (s.badDoorbell, 8)
  else
    let (s, r) := if bitOf h.arg 31 then s.cqHeadDb h.qpn (h.arg % 2 ^ 16) else s.sqTail h.qpn (h.arg % 2 ^ 16)
    (s.pump h.qpn, if r = .applied then 0 else 8)

/-- DOORBELL_INLINE in order (R72, R244, R286). -/
def State.odtApplyInline (h : OdtHdr) (entry : Bytes) (s : State) : State × Nat :=
  if !s.odtOwns h then (s.badDoorbell, 8)
  else
    let (s, r, held) := s.inlineDb h.qpn (h.arg % 2 ^ 16) entry h.seq
    (s, match r with | .applied => if held then 2 else 0 | .refused => 4 | .invalid => 8)

/-- DOORBELL at the QPE's boundary (R37). -/
def State.odtDoor (s : State) (h : OdtHdr) : State := s.atQpe (.odt h) fun s => s.odtBell h (State.odtApply h)

/-- DOORBELL_INLINE at the QPE's boundary (R37). -/
def State.odtInlineDoor (s : State) (h : OdtHdr) (entry : Bytes) : State :=
  s.atQpe (.odtInline h entry) fun s => s.odtBell h (State.odtApplyInline h entry)

def execDoorbell (h : OdtHdr) (s : State) : Outcome := .next (s.odtDoor h)
def execDoorbellInline (h : OdtHdr) (entry : Bytes) (s : State) : Outcome := .next (s.odtInlineDoor h entry)

/-- FETCH_RESP (R288, R296): the slots' contents for the ring read that asked. -/
def State.odtFetchResp (s : State) (h : OdtHdr) (b : Bytes) : State :=
  if !(s.serves && s.subUp h.mac h.sub) then s
  else if !s.odtAccepts h false then s.odtDrop h.mac
  else
    let s := s.odtHeard h
    let c := s.odtConn h.conn
    match c.asks.find? fun a => a.slots.isSome && a.qp == h.qpn && a.seq == h.arg2 with
    | none => s
    | some a =>
      match a.slots with
      | some (slot, n) =>
        if slot = h.arg % 2 ^ 16 ∧ b.length = 64 * n ∧ (s.qp a.qp).fetch = some (slot, n) then
          let s := s.setOdt h.conn { c with asks := c.asks.filter fun x => x != a }
          s.updQp a.qp fun x => { x with fetchSegs := [(0, b)] }
        else s
      | none => s

def execFetchResp (h : OdtHdr) (slots : Bytes) (s : State) : Outcome := .next (s.odtFetchResp h slots)

/-- CREDIT (R295): a limit never moves back. -/
def State.odtCredit (s : State) (h : OdtHdr) : State :=
  if !(s.serves && s.subUp h.mac h.sub) then s
  else if !s.odtAccepts h false then s.odtDrop h.mac
  else
    let s := s.odtHeard h
    let c := s.odtConn h.conn
    if seqGe h.arg c.credit then (s.setOdt h.conn { c with credit := h.arg }).touch else s

def execCredit (h : OdtHdr) (s : State) : Outcome := .next (s.odtCredit h)

/-- Send a sequenced message again with RETX (R294, R299): at once, or once its priority is no longer paused (R266). -/
def State.odtResend (s : State) (k : Nat) (m : OdtSent) : State :=
  let c := s.odtConn k
  let h : HeldFrame := { mac := c.mac, sub := c.sub, cls := m.cls, what := .odtAgain k m.seq }
  if !s.serves ∨ s.frames.contains h then s else s.sendOrHold h

/-- The next SEQ expected from the host (R286). -/
def OdtConn.expect (c : OdtConn) : Nat := (c.hseq + 1) % 2 ^ 32

/-- KEEPALIVE from the host (R289, R294, R300); after a takeover RESUME recovers the connection (R569). When the connection
becomes ESTABLISHED the count of cells sent starts again, and the host's credit limit stays (DESIGN CHOICE; log entry 111). -/
def State.odtKeepalive (s : State) (h : OdtHdr) : State :=
  if !(s.serves && s.subUp h.mac h.sub) then s
  else if !s.odtAccepts h false then s.odtDrop h.mac
  else
    let s := s.odtHeard h
    let c := s.odtConn h.conn
    let resume := bitOf h.flags 5
    match c.state with
    | .opening =>
      (s.setOdt h.conn { c with
        state := .established, since := s.now, hseq := 0xFFFFFFFF, dseq := 0, given := [], safe := 0xFFFFFFFF
        carried := [], sent := [], asks := [], cells := 0 }).touch
    | .failed => s.odtCtl h.conn 0 0x40 (.keepalive c.expect)
    | _ =>
      if !resume then s
      else
        let s := (s.setOdt h.conn { c with state := .established, since := s.now }).touch
        let s := s.odtCtl h.conn 0 0x20 (.keepalive c.expect)
        if c.recover then s.odtRecover h.conn h.ack
        else (s.odtConn h.conn).sent.foldl (fun s m => s.odtResend h.conn m) s

def execKeepalive (h : OdtHdr) (s : State) : Outcome := .next (s.odtKeepalive h)

/-! ### Timers (R298, R299, R300, R303) -/

/-- Connection `k` carries queue pair 0 (R665). -/
def State.odtManagement (s : State) (k : Nat) : Bool := (s.qp 0).face == .odt k && (s.qp 0).state != .free

/-- RTO in cycles (R299, R303, R665). -/
def State.odtRto (s : State) (k : Nat) : Nat :=
  (if s.odtManagement k then 1000 else max 16 (min 1000 (s.field .netOdtCfg 25 16))) * usec

/-- The keepalive interval in cycles (R303). -/
def State.odtKa (s : State) : Nat := max 10 (min 2550 (10 * s.field .netOdtCfg 15 8)) * usec

/-- ODT_RETRANSMIT (R299): the oldest unacknowledged message after RTO_US; SUSPECT after three retransmissions. -/
def State.odtRetransmit (s : State) (k : Nat) : State :=
  let c := s.odtConn k
  match c.state, c.sent with
  | .established, m :: _ =>
    let s := s.advanceTo (m.at_ + s.odtRto k)
    if 3 ≤ m.tries then s.odtSuspect k
    else
      let c := s.odtConn k
      (s.setOdt k { c with
        sent := c.sent.map fun x => if x.seq = m.seq then { x with tries := x.tries + 1 } else x }).odtResend k m
  | _, _ => s

def execOdtRetransmit (conn : Nat) (s : State) : Outcome := .next (s.odtRetransmit conn)

/-- The first missing run of a pull of `len` bytes whose segments stand at offsets (R298). -/
def missingRun (len : Nat) : Nat → Tbl Bytes → Nat × Nat
  | pos, [] => (pos, len - pos)
  | pos, (o, b) :: t => if o = pos then missingRun len (pos + b.length) t else (pos, min len o - pos)

/-- The segments that have arrived for a pull, from its own start on. -/
def State.askSegs (s : State) (a : OdtAsk) : Tbl Bytes :=
  match a.desc with
  | some id => match tblFind s.fct.descs id with | some d => d.segs | none => []
  | none => match s.cmd a.cmd with
    | some c => (c.segs.filter fun e => decide (a.base ≤ e.1 ∧ e.1 < a.base + a.len)).map fun e => (e.1 - a.base, e.2)
    | none => []

/-- ODT_FETCH_RETRY (R298): the oldest request acknowledged 64 µs ago is made again for the missing part. -/
def State.odtFetchRetry (s : State) (k : Nat) : State :=
  let c := s.odtConn k
  match c.asks.find? fun a => a.ackedAt.isSome with
  | none => s
  | some a =>
    let s := s.advanceTo (a.ackedAt.getD 0 + 64 * usec)
    let s := s.setOdt k { c with asks := c.asks.map fun x => if x = a then { x with ackedAt := none } else x }
    match a.slots with
    | some (slot, n) => s.odtCtl k a.qp 0 (.fetchReq slot n) (s.qp a.qp).baseClass
    | none =>
      let mine := s.askSegs a
      let (off, n) := missingRun a.len 0 mine
      let cls := match a.desc with
        | some id => s.descClass id
        | none => match s.cmd a.cmd with | some c => c.cls | none => 1
      s.odtCtl k a.qp 0 (.dataPull a.tag n a.mkey (a.addr + off)) cls

def execOdtFetchRetry (conn : Nat) (s : State) : Outcome := .next (s.odtFetchRetry conn)

/-- ODT_KEEPALIVE_SEND (R299, R300). -/
def State.odtKeepaliveSend (s : State) (k : Nat) : State :=
  let c := s.odtConn k
  match c.state with
  | .opening => (s.advanceTo (c.lastTx + msec)).odtCtl k 0 0 (.keepalive c.expect)
  | .established => (s.advanceTo (c.lastTx + s.odtKa)).odtCtl k 0 0 (.keepalive c.expect)
  | .suspect => (s.advanceTo (c.lastTx + s.odtKa)).odtCtl k 0 0 (.keepalive c.expect)
  | _ => s

def execOdtKeepaliveSend (conn : Nat) (s : State) : Outcome := .next (s.odtKeepaliveSend conn)

/-- ODT_HOST_SILENCE (R299). -/
def State.odtSilence (s : State) (k : Nat) : State :=
  let c := s.odtConn k
  if c.state = .established then (s.advanceTo (c.lastRx + 10 * s.odtKa)).odtSuspect k else s

def execOdtHostSilence (conn : Nat) (s : State) : Outcome := .next (s.odtSilence conn)

/-- A connection enters FAILED (R300): its queue pairs enter ERROR, and what it had outstanding ends (R532). -/
def State.odtFail (s : State) (k : Nat) : State :=
  let c := s.odtConn k
  let s := (s.setOdt k { c with state := .failed, since := s.now, sent := [], asks := [] }).count .netOdtFailed
  let s := (s.dropHeld k).dropEgress fun u => match u.what with | .odt x _ _ _ => x != k | _ => true
  let s := s.descsFail 1 k 5
  let s := (c.asks.filter fun a => a.slots.isNone && a.desc.isNone).foldl
    (fun s a => s.updCmd a.cmd fun c => { c with cut := c.past }) s
  let bound := (s.qpe.qps.filter fun e => e.2.face == .odt k).map (·.1)
  (bound.foldl (fun s q => s.qpError q) s).touch.flow

/-- ODT_RESUME_EXPIRE (R300, R303). -/
def State.odtResumeExpire (s : State) (k : Nat) : State :=
  let c := s.odtConn k
  if c.state = .suspect then
    (s.advanceTo (c.since + max 1 (s.field .netOdtCfg 7 0) * msec)).odtFail k
  else s

/-- ODT_OPENING_EXPIRE (R300). -/
def State.odtOpeningExpire (s : State) (k : Nat) : State :=
  let c := s.odtConn k
  if c.state = .opening then (s.advanceTo (c.since + 1000 * msec)).odtFail k else s

def execOdtResumeExpire (conn : Nat) (s : State) : Outcome := .next (s.odtResumeExpire conn)
def execOdtOpeningExpire (conn : Nat) (s : State) : Outcome := .next (s.odtOpeningExpire conn)

end Sys2Proof.Machine
end

