-- ==== Sys2Proof/Machine/Roce.lean ====
section
/-! DEFINITION. NVMe over Fabrics on RoCEv2: connections, capsules, the NVMe admin queue and the requester's timers
(R276 to R284). -/

namespace Sys2Proof.Machine

/-- NVMe status values: type and code (R276, R278, R279, R280). -/
def nvInvalidOpcode : Nat := 0x001
def nvInvalidField : Nat := 0x002
def nvInvalidNamespace : Nat := 0x00B
def nvConnectInvalid : Nat := 0x182

/-- Update RoCEv2 connection `k`, if it exists. -/
def State.updRoce (s : State) (k : Nat) (f : RoceConn → RoceConn) : State :=
  match tblFind s.net.roce k with
  | some c => s.setRoce k (f c)
  | none => s

/-- Connection `k` is established, on a sub-port with link, of a controller that serves (R273). -/
def State.roceLive (s : State) (k : Nat) : Option RoceConn :=
  match tblFind s.net.roce k with
  | some c => if c.established && s.serves && s.subUp c.mac c.sub then some c else none
  | none => none

/-- A packet for no live connection fails the checks of its personality (R263). -/
def State.roceDrop (s : State) : State := if s.serves then s.count .netRxDrop else s

/-- The allow entries that let a host in on a sub-port, lowest first (R277). -/
def State.allowsOf (s : State) (mac sub family host : Nat) : List Nat :=
  (s.net.allow.filter fun a => a.2.mac == mac && a.2.sub == sub && a.2.family == family && a.2.host == host).map (·.1)

/-- The lowest free connection identifier of the 16,384 (R305; log entry 23). -/
def State.pickRoce (s : State) : Option Nat := (List.range 16384).find? fun k => (tblFind s.net.roce k).isNone

/-- CM_REQ (R276, R277): REP and a connection that RTU completes, or REJ. -/
def State.cmReq (s : State) (r : CmReq) : State :=
  if !(s.serves && s.subUp r.mac r.sub) then s
  else
    let rej := s.roceFrame r.mac r.sub 0 (.cm r.mac r.sub r.host 1)
    match s.allowsOf r.mac r.sub r.family r.host, s.pickRoce with
    | a :: _, some k =>
      if r.rc && r.service == 4420 && (r.mtu == 1024 || r.mtu == 2048 || r.mtu == 4096) then
        let psn := Config.startPsn s.draws % 2 ^ 24
        let c : RoceConn := {
          mac := r.mac
          sub := r.sub
          family := r.family
          host := r.host
          allow := a
          mtu := r.mtu
          hostQpn := r.qpn
          ePsn := r.psn % 2 ^ 24
          sPsn := psn }
        (s.drew.setRoce k c).touch.roceFrame r.mac r.sub 0 (.cm r.mac r.sub r.host 0)
      else rej
    | _, _ => rej

/-- CM_RTU (R276). -/
def State.cmRtu (s : State) (k : Nat) : State :=
  if s.serves then (s.updRoce k fun c => { c with established := true }).touch else s

def execCmReq (req : CmReq) (s : State) : Outcome := .next (s.cmReq req)
def execCmRtu (conn : Nat) (s : State) : Outcome := .next (s.cmRtu conn)

/-- Connection `k` ends. `error` puts its attached queue pair in ERROR (R78, R279, R532); without it the queue pair
does so only where a pull of one of its commands was outstanding. -/
def State.roceEnd (s : State) (k : Nat) (error : Bool) : State :=
  match tblFind s.net.roce k with
  | none => s
  | some c =>
    let reqs := c.queue ++ c.sent.map (·.req)
    let pulling := reqs.any fun r => r.isRead
    let s := reqs.foldl (fun s r => match r with
      | .readPull _ q _ _ _ => s.updCmd q fun c => { c with cut := c.past }
      | _ => s) s
    let s : State := { s with net := { s.net with roce := tblDel s.net.roce k } }
    let s := (s.dropEgress fun u => match u.what with | .roce x _ => x != k | _ => true).descsFail 2 k 5
    match c.qp with
    | some q => (if error || pulling then s.qpError q else s).touch.flow
    | none => s.touch

/-- CM_DREQ (R276): DREP, and the connection is gone. -/
def State.cmDreq (s : State) (k : Nat) : State :=
  match tblFind s.net.roce k with
  | none => s
  | some c => if s.serves then (s.roceEnd k false).roceFrame c.mac c.sub 0 (.cm c.mac c.sub c.host 2) else s

def execCmDreq (conn : Nat) (s : State) : Outcome := .next (s.cmDreq conn)

/-- Every RoCEv2 connection of a host is disconnected, with a DREQ, and each attached queue pair enters ERROR (R276, R279,
R532). -/
def State.roceEndHost (s : State) (host : Nat) : State :=
  (s.net.roce.filter fun e => e.2.host == host).foldl (fun s e =>
    (s.roceEnd e.1 true).roceFrame e.2.mac e.2.sub 0 (.cm e.2.mac e.2.sub e.2.host 3)) s

/-! ### The NVMe admin queue (R278, R279) -/

/-- A packet of connection `k` leaves through its MAC and sub-port (R367): an acknowledgement, in Class 0 (R265). -/
def State.roceOut (s : State) (k : Nat) (o : Out) : State :=
  match tblFind s.net.roce k with
  | some c => s.roceFrame c.mac c.sub 0 o
  | none => s

/-- A response on a connection: Dword 0, status, data; in Class 1, as admin commands are (log entry 101). -/
def State.nvReply (s : State) (k cid dw0 status : Nat) (data : Bytes := []) : State :=
  match tblFind s.net.roce k with
  | some c => s.roceFrame c.mac c.sub 1 (.nvmeAdmin k cid dw0 status data)
  | none => s

/-- FABRICS_CONNECT (R278, R279): queue identifier 0 is the admin queue; another attaches to the queue pair that names
an entry of the host and the identifier. -/
def State.fabricsConnect (s : State) (k cid qid sqsize kato : Nat) (nqn : Bytes) : State :=
  match s.roceLive k with
  | none => s.roceDrop
  | some c =>
    if c.qid.isSome then s.nvReply k cid 0 nvConnectInvalid
    else if qid = 0 then
      ((s.setRoce k { c with qid := some 0, hostNqn := nqn, kato := max 1000 kato, kaAt := s.now }).touch).nvReply k cid 0 0
    else
      let allows := s.allowsOf c.mac c.sub c.family c.host
      match s.qpe.qps.find? fun e => e.2.state != .free && (match e.2.face with
          | .roce a n => n == qid && allows.contains a
          | _ => false) with
      | none => s.nvReply k cid 0 nvConnectInvalid
      | some (q, x) =>
        let attached := s.net.roce.any fun e => e.2.qp == some q
        if attached ∨ x.sqSize < sqsize + 1 then s.nvReply k cid 0 nvConnectInvalid
        else
          let a := match x.face with | .roce a _ => a | _ => c.allow
          ((s.setRoce k { c with qid := some qid, qp := some q, allow := a, hostNqn := nqn }).touch).nvReply k cid 0 0

def execFabricsConnect (conn cid qid sqsize kato : Nat) (nqn : Bytes) (s : State) : Outcome :=
  .next (s.fabricsConnect conn cid qid sqsize kato nqn)

/-- A command on the NVMe admin queue of connection `k` (R279). -/
def State.onAdminQueue (s : State) (k : Nat) (f : RoceConn → State) : State :=
  match s.roceLive k with
  | some c => if c.qid = some 0 then f c else s
  | none => s.roceDrop

/-- PROPERTY_GET (R276): CC and CSTS as they stand, CAP and VS as the implementation has them. -/
def State.propertyGet (s : State) (k cid off : Nat) : State :=
  s.onAdminQueue k fun c =>
    if off = 0x14 then s.nvReply k cid c.cc 0
    else if off = 0x1C then s.nvReply k cid c.csts 0
    else if off = 0 ∨ off = 8 then s.nvReply k cid (Config.nvmeProperty off) 0
    else s.nvReply k cid 0 nvInvalidField

/-- PROPERTY_SET (R276): CC. CSTS follows it: ready while enabled, and shutdown complete when asked (log entry 26). -/
def State.propertySet (s : State) (k cid off v : Nat) : State :=
  s.onAdminQueue k fun c =>
    if off = 0x14 then
      let csts := b2n (bitOf v 0) + (if bitsOf v 15 14 = 0 then 0 else 2 * 4)
      ((s.setRoce k { c with cc := v, csts }).touch).nvReply k cid 0 0
    else s.nvReply k cid 0 nvInvalidField

/-- Handles of the volumes a tenant owns, ascending. -/
def State.ownedBy (s : State) (tenant : Nat) : List Nat :=
  (s.str.volumes.filter fun v => v.2.owner == tenant).map (·.1)

/-- NVMEOF_IDENTIFY (R279): CNS 0, 1 and 2; namespace identifiers are the handles of the entry's tenant. -/
def State.nvIdentify (s : State) (k cid cns nsid : Nat) : State :=
  s.onAdminQueue k fun c =>
    let tenant := match tblFind s.net.allow c.allow with | some a => a.tenant | none => 0
    let mine := s.ownedBy tenant
    if cns = 2 then
      let l := ((mine.filter fun h => decide (nsid < h)).take 1024).flatMap fun h => toLe h 4
      s.nvReply k cid 0 0 (l ++ zeros (4096 - l.length))
    else if cns = 1 then s.nvReply k cid 0 0 (Config.nvmeIdentify 1 0)
    else if cns = 0 then
      match (if mine.contains nsid then s.volume nsid else none) with
      | some v => s.nvReply k cid 0 0 (toLe v.size 8 ++ Config.nvmeIdentify 0 nsid)
      | none => s.nvReply k cid 0 nvInvalidNamespace
    else s.nvReply k cid 0 nvInvalidField

/-- GET_FEATURES (R279): Number of Queues (7) and Keep Alive Timer (15). -/
def State.getFeatures (s : State) (k cid fid : Nat) : State :=
  s.onAdminQueue k fun c =>
    if fid = 7 then s.nvReply k cid c.numQueues 0
    else if fid = 15 then s.nvReply k cid c.kato 0
    else s.nvReply k cid 0 nvInvalidField

/-- SET_FEATURES (R279): a keep-alive timeout below 1 s acts as 1 s. -/
def State.setFeatures (s : State) (k cid fid v : Nat) : State :=
  s.onAdminQueue k fun c =>
    if fid = 7 then ((s.setRoce k { c with numQueues := v }).touch).nvReply k cid v 0
    else if fid = 15 then
      ((s.setRoce k { c with kato := max 1000 v, kaAt := s.now }).touch).nvReply k cid 0 0
    else s.nvReply k cid 0 nvInvalidField

/-- KEEP_ALIVE (R279). -/
def State.nvKeepAlive (s : State) (k cid : Nat) : State :=
  s.onAdminQueue k fun c => (s.setRoce k { c with kaAt := s.now }).nvReply k cid 0 0

/-- NVMEOF_ABORT (R90, R279): an ABORT of TARGET_CID on the queue pair attached under `sqid`; Dword 0 is 0 when it
ended its target and 1 otherwise. -/
def State.nvAbort (s : State) (k cid sqid target : Nat) : State :=
  s.onAdminQueue k fun c =>
    match (s.net.roce.find? fun e => e.2.host == c.host && e.2.qid == some sqid).bind fun e => e.2.qp with
    | none => s.nvReply k cid 1 0
    | some q =>
      match s.findCmd q target with
      | none => s.nvReply k cid 1 0
      | some t =>
        let op := eOpcode t.entry
        if op = opFlush ∨ op = opAbort then s.nvReply k cid 1 0
        else if t.noIssue ∧ !t.past ∧ (t.ready.isNone ∨ t.raw.isNone) then
          (((s.endUnissued t stAbortedRequest).settle).flow).nvReply k cid 0 0
        else if t.past ∨ t.phase = .finished then s.nvReply k cid 1 0
        else ((s.endEarly t.seq stAbortedRequest).flow).nvReply k cid 0 0

/-- KEEP_ALIVE_TIMEOUT (R279): the timer of an admin queue's host runs out. -/
def State.nvKaTimeout (s : State) (k : Nat) : State :=
  match tblFind s.net.roce k with
  | some c =>
    if c.qid = some 0 ∧ c.kato ≠ 0 then (s.advanceTo (c.kaAt + c.kato * msec)).roceEndHost c.host else s
  | none => s

def execPropertyGet (conn cid off : Nat) (s : State) : Outcome := .next (s.propertyGet conn cid off)
def execPropertySet (conn cid off v : Nat) (s : State) : Outcome := .next (s.propertySet conn cid off v)
def execNvmeofIdentify (conn cid cns nsid : Nat) (s : State) : Outcome := .next (s.nvIdentify conn cid cns nsid)
def execGetFeatures (conn cid fid : Nat) (s : State) : Outcome := .next (s.getFeatures conn cid fid)
def execSetFeatures (conn cid fid v : Nat) (s : State) : Outcome := .next (s.setFeatures conn cid fid v)
def execKeepAlive (conn cid : Nat) (s : State) : Outcome := .next (s.nvKeepAlive conn cid)
def execNvmeofAbort (conn cid sqid target : Nat) (s : State) : Outcome := .next (s.nvAbort conn cid sqid target)
def execKeepAliveTimeout (conn : Nat) (s : State) : Outcome := .next (s.nvKaTimeout conn)

/-! ### Command capsules (R276, R280, R281, R283) -/

/-- Fields of a command capsule: the keyed SGL of bytes 24 to 39 and Dwords 10 to 12. -/
def sglAddr (b : Bytes) : Nat := leAt b 24 8
def sglLen (b : Bytes) : Nat := leAt b 32 3
def sglKey (b : Bytes) : Nat := leAt b 35 4
def capDw (b : Bytes) (n : Nat) : Nat := leAt b (4 * n) 4

/-- One Keyed SGL Data Block descriptor, sub-type address (R276). -/
def sglOk (b : Bytes) : Bool := byteAt b 39 == 0x40

/-- A capsule that R280 ends with Invalid Field in Command. -/
def capsuleBad (b : Bytes) : Bool :=
  let op := byteAt b 0
  bitsOf (byteAt b 1) 1 0 != 0
    || ((op == 1 || op == 2) && (!sglOk b || bitsOf (capDw b 12) 29 26 != 0))
    || (op == 8 && bitsOf (capDw b 12) 29 26 != 0)
    || (op == 9 && (!sglOk b || !(bitOf (capDw b 11) 2 && bitsOf (capDw b 10) 7 0 == 0) || decide (sglLen b < 16)))

/-- A transient key for a capsule's SGL (R516, R520), with its MKEY. -/
def State.transient (s : State) (k tenant access addr len rkey : Nat) : Option (State × Nat) :=
  s.pickKey.map fun i =>
    let t := s.newTag i
    (s.putKey i { state := 1, kind := 2, access, tag := t, tenant, binding := k, uses := 1, base := addr,
                  length := len, target := addr, rkey }, t * 2 ^ 24 + i)

/-- The entry of a capsule (R59, R280). -/
def capsuleEntry (a : RoceAllow) (b : Bytes) (mkey : Nat) : Bytes :=
  let op := byteAt b 0
  let rw := decide (op = 1 ∨ op = 2)
  let code := if op = 2 then opRead else if op = 1 then opWrite else if op = 0 then opFlush else opZeroes
  let nblk := bitsOf (capDw b 12) 15 0 + 1
  let slba := capDw b 10 + 2 ^ 32 * capDw b 11
  toLe code 1 ++ toLe (if op = 8 ∧ bitOf (capDw b 12) 25 then 2 else 0) 1 ++ toLe (leAt b 2 2) 2
    ++ toLe (if op = 0 then 0 else leAt b 4 3) 3 ++ toLe a.cls 1
    ++ toLe (if op = 0 then 0 else slba) 8 ++ toLe (if op = 0 then 0 else nblk) 4 ++ toLe a.tenant 4
    ++ toLe (if rw then mkey else 0) 4 ++ toLe (if rw then sglLen b else 0) 4 ++ toLe (if rw then sglAddr b else 0) 8
    ++ zeros 24

/-- The TRIM entry of a Dataset Management range (R281). -/
def trimEntry (a : RoceAllow) (b : Bytes) (slba nblk : Nat) : Bytes :=
  toLe opTrim 1 ++ toLe 0 1 ++ toLe (leAt b 2 2) 2 ++ toLe (leAt b 4 3) 3 ++ toLe a.cls 1 ++ toLe slba 8 ++ toLe nblk 4
    ++ toLe a.tenant 4 ++ zeros 40

/-- Acknowledge PSN `psn` (R276), once the TAKEN record of the command it carried has been acknowledged (R556). -/
def State.roceAckTaken (s : State) (k psn : Nat) (rec : Option Nat) : State :=
  let s := s.updRoce k fun c => { c with ePsn := (psn + 1) % 2 ^ 24 }
  match rec with
  | some r => if s.recAcked rec then s.roceOut k (.roceAck k psn 0) else s.updRoce k fun c => { c with acks := c.acks ++ [(psn, r)] }
  | none => s.roceOut k (.roceAck k psn 0)

/-- Acknowledge a capsule that has been accepted and not yet taken (R77, R556): while commands are logged the
acknowledgement waits for its TAKEN record. -/
def State.roceAckLater (s : State) (k psn : Nat) : State :=
  if s.shd.logging then
    s.updRoce k fun c => { c with ePsn := (psn + 1) % 2 ^ 24, untaken := c.untaken ++ [psn] }
  else s.roceAckTaken k psn none

/-- The TAKEN record of the command taken from slot `slot` as order number `seq` or later. -/
def State.takenRecOf (s : State) (q slot seq : Nat) : Option Nat :=
  (s.qpe.cmds.find? fun c => c.qp == q && c.slot == slot && decide (seq ≤ c.seq)).bind fun c => c.takenRec

/-- Hand an entry to its queue pair as an inline doorbell (R280, R283). One that the queue pair ignores (R74) is acknowledged
and gets no response capsule (DESIGN CHOICE; log entry 109). -/
def State.roceInline (s : State) (k psn q : Nat) (entry : Bytes) : State :=
  let x := s.qp q
  let seq := s.qpe.nextSeq
  let (s', r, _) := s.inlineDb q ((x.tail + 1) % x.sqSize) entry psn
  match r with
  | .refused =>
    let m := leAt entry 24 4
    (if m = 0 then s' else s'.dropKey m).roceOut k (.roceAck k psn 1)
  | .invalid =>
    let m := leAt entry 24 4
    ((if m = 0 then s' else s'.dropKey m).roceAckTaken k psn none)
  | .applied =>
    if (s'.qp q).inl.any fun e => e.1 == x.tail then s'.roceAckLater k psn
    else s'.roceAckTaken k psn (s'.takenRecOf q x.tail seq)

/-- ROCE_COMMAND_CAPSULE (R276, R280, R281, R283): a SEND Only with a 64-byte capsule; `extra` when data beyond it came
too. Without a free key for its SGL it gets an RNR NAK (DESIGN CHOICE; log entry 107); a namespace identifier that does not fit
VOLUME gets Invalid Namespace and no entry (DESIGN CHOICE; log entry 108). -/
def State.roceCapsule (s : State) (k psn : Nat) (b : Bytes) (extra : Bool) : State :=
  match s.roceLive k with
  | none => s.roceDrop
  | some c =>
    match c.qp, tblFind s.net.allow c.allow with
    | some q, some a =>
      if extra then s.roceOut k (.roceAck k psn 2)
      else if psn ≠ c.ePsn then
        if (c.ePsn + 2 ^ 24 - psn) % 2 ^ 24 < 2 ^ 23 then s.roceOut k (.roceAck k ((c.ePsn + 2 ^ 24 - 1) % 2 ^ 24) 0)
        else s.roceOut k (.roceAck k c.ePsn 4)
      else
        let op := byteAt b 0
        let cid := leAt b 2 2
        if !(op == 0 || op == 1 || op == 2 || op == 8 || op == 9) then
          (s.roceAckTaken k psn none).nvReply k cid 0 nvInvalidOpcode
        else if capsuleBad b then (s.roceAckTaken k psn none).nvReply k cid 0 nvInvalidField
        else if op ≠ 0 ∧ byteAt b 7 ≠ 0 then (s.roceAckTaken k psn none).nvReply k cid 0 nvInvalidNamespace
        else if op = 0 ∨ op = 8 then s.roceInline k psn q (capsuleEntry a b 0)
        else
          match s.transient k a.tenant (if op = 2 then 2 else 1) (sglAddr b) (sglLen b) (sglKey b) with
          | none => s.roceOut k (.roceAck k psn 1)
          | some (s, m) =>
            if op = 9 then
              let s := (s.roceAckTaken k psn none).updRoce k fun c => { c with dsm := tblIns c.dsm cid (b ++ toLe m 4) }
              s.roceSend k (.readRange (s.qp q).baseClass cid)
            else s.roceInline k psn q (capsuleEntry a b m)
    | _, _ => s

/-- ROCE_COMMAND_CAPSULE at the QPE's boundary (R37). -/
def State.capsuleDoor (s : State) (conn psn : Nat) (capsule : Bytes) (extra : Bool) : State :=
  s.atQpe (.capsule conn psn capsule extra) fun s => s.roceCapsule conn psn capsule extra

def execRoceCommandCapsule (conn psn : Nat) (capsule : Bytes) (extra : Bool) (s : State) : Outcome :=
  .next (s.capsuleDoor conn psn capsule extra)

/-- DSM_RANGE_ARRIVE (R281): the 16 bytes of the range, or none when the read failed (R532). -/
def State.dsmArrive (s : State) (k cid : Nat) (range : Option Bytes) : State :=
  match s.roceLive k with
  | none => s.roceDrop
  | some c =>
    match tblFind c.dsm cid, c.qp, tblFind s.net.allow c.allow with
    | some b, some q, some a =>
      match range with
      | none => s.roceEndHost c.host
      | some r =>
        let isRange (x : RoceSent) : Bool := match x.req with | .readRange _ i => i == cid | _ => false
        let s := s.setRoce k { c with dsm := tblDel c.dsm cid, sent := rmFirst isRange c.sent }
        let s := s.dropKey (leAt b 64 4)
        let x := s.qp q
        let e := trimEntry a b (leAt r 8 8) (leAt r 4 4)
        let (s', res, _) := s.inlineDb q ((x.tail + 1) % x.sqSize) e 0
        let s' := s'.rocePump (c.queue.length + 1) k
        if res = .refused then s'.updRoce k fun c => { c with dsm := tblIns c.dsm cid b } else s'
    | _, _, _ => s

/-- DSM_RANGE_ARRIVE at the QPE's boundary (R37). -/
def State.rangeDoor (s : State) (conn cid : Nat) (range : Option Bytes) : State :=
  s.atQpe (.range conn cid range) fun s => s.dsmArrive conn cid range

def execDsmRangeArrive (conn cid : Nat) (range : Option Bytes) (s : State) : Outcome :=
  .next (s.rangeDoor conn cid range)

/-- ROCE_REMOTE_ACCESS (R276): NAK remote access error. -/
def State.roceRemote (s : State) (k psn : Nat) : State :=
  match s.roceLive k with
  | some _ => s.roceOut k (.roceAck k psn 3)
  | none => s.roceDrop

def execRoceRemoteAccess (conn psn : Nat) (s : State) : Outcome := .next (s.roceRemote conn psn)

/-! ### The requester (R284) -/

/-- PSN `a` is at or after `b`, modulo 2^24. -/
def psnGe (a b : Nat) : Bool := decide ((a + 2 ^ 24 - b) % 2 ^ 24 < 2 ^ 23)

/-- Send every unacknowledged request again, from the oldest. -/
def State.roceResend (s : State) (k : Nat) : State :=
  match tblFind s.net.roce k with
  | none => s
  | some c =>
    if !s.serves then s
    else
      let s := s.setRoce k { c with sent := c.sent.map fun m => { m with at_ := s.now } }
      c.sent.foldl (fun s m => s.roceFrame c.mac c.sub m.req.cls (.roce k m.psn m.req)) s

/-- ROCE_ACK_RECEIVE (R276, R284). -/
def State.roceAckRx (s : State) (k : Nat) (kind : RoceAckKind) (psn : Nat) : State :=
  match s.roceLive k with
  | none => s.roceDrop
  | some c =>
    match kind with
    | .ack =>
      let s := s.setRoce k { c with
        sent := c.sent.filter fun m => m.req.isRead || !psnGe psn ((m.psn + m.n - 1) % 2 ^ 24) }
      s.rocePump (c.queue.length + 1) k
    | .rnr ns =>
      s.setRoce k { c with
        rnrWait := some (s.now + ns)
        sent := c.sent.map fun m => if m.psn = psn then { m with rnrTries := m.rnrTries + 1 } else m }
    | .sequence =>
      if c.recover then s.roceRecover k psn
      else
      let s := s.setRoce k { c with
        sent := c.sent.filter fun m => m.req.isRead || psnGe ((m.psn + m.n - 1) % 2 ^ 24) psn }
      s.roceResend k
    | .error => s.roceEndHost c.host

def execRoceAckReceive (conn : Nat) (kind : RoceAckKind) (psn : Nat) (s : State) : Outcome :=
  .next (s.roceAckRx conn kind psn)

/-- The local ACK timeout in cycles (R284): 4.096 µs × 2^ACK_EXP. -/
def State.roceTimeout (s : State) : Nat := 4096 * 2 ^ max 8 (min 18 (s.field .netRoceCfg 20 16))

/-- ROCE_ACK_TIMEOUT (R284, R532). -/
def State.roceAckTimeout (s : State) (k : Nat) : State :=
  match tblFind s.net.roce k with
  | none => s
  | some c =>
    match c.sent with
    | [] => s
    | m :: rest =>
      if c.rnrWait.isSome then s
      else
        let s := s.advanceTo (m.at_ + s.roceTimeout)
        if s.field .netRoceCfg 10 8 ≤ m.tries then s.roceEndHost c.host
        else (s.setRoce k { c with sent := { m with tries := m.tries + 1 } :: rest }).roceResend k

def execRoceAckTimeout (conn : Nat) (s : State) : Outcome := .next (s.roceAckTimeout conn)

/-- ROCE_RNR_TIMER_EXPIRE (R284): 7 retries without limit. -/
def State.roceRnrExpire (s : State) (k : Nat) : State :=
  match tblFind s.net.roce k with
  | none => s
  | some c =>
    match c.rnrWait with
    | none => s
    | some t =>
      let s := s.advanceTo t
      let lim := s.field .netRoceCfg 6 4
      let ovr := lim != 7 && c.sent.any fun m => decide (lim < m.rnrTries)
      if ovr then s.roceEndHost c.host
      else ((s.setRoce k { c with rnrWait := none }).roceResend k).rocePump (c.queue.length + 1) k

def execRoceRnrTimerExpire (conn : Nat) (s : State) : Outcome := .next (s.roceRnrExpire conn)

end Sys2Proof.Machine
end

