-- ==== Sys2Proof/Machine/Ep.lean ====
section
/-! DEFINITION. The endpoint face: the doorbell window, the peer window, MSI-X, and withdrawal of functions (R312 to
R345, R724). -/

namespace Sys2Proof.Machine

/-- An inbound request that is not supported (R314). -/
def State.unsupported (s : State) (kind : Nat) : State :=
  if s.epf.linkUp then s.emit (.unsupported kind) else s

/-! ### The doorbell window (R317 to R321) -/

/-- A doorbell through function `f` to a queue pair bound to anything else (R319). -/
def State.foreign (s : State) (f q : Nat) : Bool :=
  let x := s.qp q
  decide (q < s.qpCount) && x.state != .free && (match x.face with | .endpoint g _ => g != f | _ => true)

/-- An access to a slot of function `f`'s window (R319): discarded when foreign, an Unsupported Request without Memory
Space Enable, else it goes to the QPE. -/
def State.slotWrite (s : State) (f q : Nat) (d : Door) (g : State → State) : State :=
  if !(s.epf.linkUp && s.funcEnabled f && (s.epFunc f).mse) then s.unsupported 0
  else if s.foreign f q then s.count .epfDbForeign
  else s.atQpe d g

/-- An invalid doorbell to queue pair `q`, or one that R74 counts by its number. -/
def State.slotBad (s : State) (q : Nat) : State := if s.noQp q then s.count .qpeDbFree else s.badDoorbell

/-- SQ_TAIL_DB (R71, R317, R319). -/
def State.epSqTail (s : State) (f q v : Nat) : State :=
  s.slotWrite f q (.sqTail f q v) fun s => if 2 ^ 16 ≤ v then s.slotBad q else (s.sqTail q v).1.pump q

/-- CQ_HEAD_DB (R73, R317, R319). -/
def State.epCqHead (s : State) (f q v : Nat) : State :=
  s.slotWrite f q (.cqHead f q v) fun s => if 2 ^ 16 ≤ v then s.slotBad q else (s.cqHeadDb q v).1.pump q

/-- INL_ENTRY and INL_STATUS (R318 to R320): a write of exactly 64 bytes is an inline doorbell. -/
def State.epInline (s : State) (f q : Nat) (b : Bytes) : State :=
  s.slotWrite f q (.inline f q b) fun s =>
    if b.length ≠ 64 then s.slotBad q
    else
      let x := s.qp q
      let (s, r, held) := s.inlineDb q ((x.tail + 1) % max 1 x.sqSize) b 0
      if decide (s.qpCount ≤ q) || (s.qp q).state == .free then s
      else
        s.updQp q fun y => { y with
          inlTail := y.tail
          inlCount := (y.inlCount + 1) % 256
          inlInvalid := r == .invalid
          inlRefused := r == .refused
          inlHeld := held }

/-- INL_STATUS (R320). -/
def Qp.inlStatus (x : Qp) : Nat :=
  x.inlCount * 2 ^ 24 + b2n x.inlInvalid * 2 ^ 18 + b2n x.inlRefused * 2 ^ 17 + b2n x.inlHeld * 2 ^ 16 + x.inlTail

/-- A write through function `f` at offset `a` of its doorbell window (R317, R318). -/
def State.barWrite (s : State) (f a : Nat) (b : Bytes) : State :=
  let q := a / 128
  let o := a % 128
  if b.length = 4 ∧ o = 0 then s.epSqTail f q (leAt b 0 4)
  else if b.length = 4 ∧ o = 4 then s.epCqHead f q (leAt b 0 4)
  else if b.length = 64 ∧ o = 0x40 then s.epInline f q b
  else s.epSqTail f q (2 ^ 16)

/-- A read of `n` bytes through function `f` at offset `a` of its doorbell window (R320). -/
def State.barRead (s : State) (f a n : Nat) : Bytes :=
  let q := a / 128
  let x := s.qp q
  let mine := decide (q < s.qpCount) && x.state != .free && (match x.face with | .endpoint g _ => g == f | _ => false)
  if n = 4 ∧ a % 128 = 8 ∧ mine then toLe x.inlStatus 4 else zeros n

def execSqTailDb (func qp : Nat) (v : Word) (s : State) : Outcome := .next (s.epSqTail func qp v.toNat)
def execCqHeadDb (func qp : Nat) (v : Word) (s : State) : Outcome := .next (s.epCqHead func qp v.toNat)
def execInlEntry (func qp : Nat) (entry : Bytes) (s : State) : Outcome := .next (s.epInline func qp entry)
def execUnsupportedRequest (kind : Nat) (s : State) : Outcome := .next (s.unsupported kind)

/-! ### The peer window (R325 to R329) -/

/-- Bytes of a function's doorbell window (R316). -/
def State.bar0Size (s : State) : Nat := 128 * s.qpCount

/-- A TLP of the peer window that is discarded (R327). -/
def State.winDrop (s : State) : State := (s.count .epfWinDrop).unsupported 1

/-- PEER_WINDOW_TLP (R326 to R328): a write of `b`, or a read of `n` bytes, at offset `off` of the window. -/
def State.peerTlp (s : State) (off reqId : Nat) (write : Bool) (n : Nat) (b : Bytes) : State :=
  if !(s.epf.linkUp && (s.epFunc 0).mse && decide (off < 2 ^ 30)) then s.unsupported 1
  else
    let ap : Aperture := tblGet {} s.epf.force (off / 2 ^ 24)
    let x := ap.off + off % 2 ^ 24
    if !(ap.en && ap.reqId == reqId) then s.winDrop
    else if ap.data then
      if !write then s.winDrop
      else
        let k := s.keyAt (keyIndex ap.mkey)
        if s.keyOk ap.mkey true x b.length && k.kind == 3 && bitOf k.access 2 then
          s.storeStaged (s.devAddr ap.mkey x) (b.length + 1) b
        else (s.count .mmuKeyFail).winDrop
    else if s.bar0Size < x + (if write then b.length else n) then s.winDrop
    else if write then s.barWrite ap.func x b
    else if s.funcEnabled ap.func && (s.epFunc ap.func).mse then s.emit (.winRead (s.barRead ap.func x n))
    else s.unsupported 1

def execPeerWindowTlp (off reqId : Nat) (write : Bool) (len : Nat) (bytes : Bytes) (s : State) : Outcome :=
  .next (s.peerTlp off reqId write len bytes)

/-- The staged translation of aperture `a` (R344). -/
def State.staged (s : State) (a : Nat) : Aperture :=
  let c := s.reg .epfWinCfg a
  { en := bitOf c 31, data := bitOf c 30, func := bitsOf c 29 24, reqId := bitsOf c 15 0,
    mkey := s.reg .epfWinKey a, off := s.reg .epfWinOff a }

/-- EPF_WIN_COMMIT (R325, R343): the staged translations of all 64 apertures come into force, or none does. -/
def State.winCommit (s : State) : State :=
  let ok := (List.range 64).all fun a =>
    let x := s.staged a
    x.off % 4096 == 0 && (x.data || s.funcEnabled x.func)
  if !ok then s.setField .epfWinCtl 29 29 1
  else
    let force := (List.range 64).foldl (fun t a => tblPut {} t a (s.staged a)) ([] : Tbl Aperture)
    let s : State := { s with epf := { s.epf with force } }
    (s.setField .epfWinCtl 29 29 0).setField .epfWinCtl 15 0 (s.field .epfWinCtl 15 0 + 1)

def execEpfWinCommit (s : State) : Outcome :=
  .next (s.whenOn 88 fun s => if Config.endpoint s.variant then s.winCommit else s)

/-! ### MSI-X (R330, R331) -/

/-- Send one message for each pending vector of `f` that may leave now, of those `p` picks. -/
def State.sendPending (s : State) (f : Nat) (p : Nat → Bool) : State :=
  (s.epFunc f).pba.foldl (fun s e =>
    if p e.1 && s.vectorOpen f e.1 then
      let s := s.setFunc f { s.epFunc f with pba := tblDel (s.epFunc f).pba e.1 }
      s.pushEgress 8 1 (.msix f e.1)
    else s) s

/-- MSIX_UNMASK (R331): a vector is unmasked, or sending is permitted again. -/
def State.msixUnmask (s : State) (f : Nat) (what : MsixPermit) : State :=
  if !(s.epf.linkUp && s.funcEnabled f) then s
  else
    let x := s.epFunc f
    match what with
    | .vector v =>
      if v < 2048 then (s.setFunc f { x with unmasked := tblIns x.unmasked v () }).sendPending f (· == v) else s
    | .control => (s.setFunc f { x with msixEn := true, fmask := false }).sendPending f fun _ => true
    | .command mse => (s.setFunc f { x with bme := true, mse }).sendPending f fun _ => true

def execMsixUnmask (func : Nat) (what : MsixPermit) (s : State) : Outcome := .next (s.msixUnmask func what)

/-! ### Withdrawal (R332 to R338) -/

/-- The owners of what a function has outstanding or not yet sent: commands by order number, ring fetches by queue
pair. -/
def State.funcOwners (s : State) (f : Nat) : List DmaFor :=
  let tags := (s.epf.tags.filter fun t => t.2.func == f && t.2.held.isNone).map fun t => t.2.who
  let waits := (s.epf.waiting.filter fun w => w.func == f).map fun w => w.who
  let tlps := s.net.egress.filterMap fun u => match u.what with
    | .tlp g _ o _ => if g = f then some (DmaFor.pull o 0) else none
    | _ => none
  let norm (w : DmaFor) : DmaFor := match w with
    | .fetch q _ => .fetch q 0
    | .pull q _ => .pull q 0
    | .desc i _ => .desc i 0
    | .gone => .gone
  ((tags ++ waits ++ tlps).map norm).eraseDups

/-- The queue pairs bound to function `f`. -/
def State.boundTo (s : State) (f : Nat) : List Nat :=
  (s.qpe.qps.filter fun e => e.2.state != .free && (match e.2.face with | .endpoint g _ => g == f | _ => false)).map (·.1)

/-- Withdrawal of a function (R333, R334). Messages queued go back to the pending bits (R331, R338). -/
def State.withdraw (s : State) (f : Nat) : State :=
  let owners := s.funcOwners f
  let s := if owners.isEmpty then s
    else (s.count .epfMdEnd owners.length).setFunc f { s.epFunc f with masterLost := true }
  let vecs := s.net.egress.filterMap fun u => match u.what with
    | .msix g v => if g = f then some v else none
    | _ => none
  let s := s.setFunc f { s.epFunc f with pba := vecs.foldl (fun t v => tblIns t v ()) (s.epFunc f).pba }
  let hold (t : EpTag) : EpTag :=
    if t.func = f ∧ t.held.isNone then { t with held := some (s.now + 50 * msec) } else t
  let s : State := { s with epf := { s.epf with
    tags := s.epf.tags.map fun e => (e.1, hold e.2)
    waiting := s.epf.waiting.filter fun w => w.func != f } }
  let s := s.dropEgress fun u => match u.what with
    | .tlp g _ _ _ => g != f
    | .msix g _ => g != f
    | _ => true
  let s := owners.foldl (fun s w => match w with
    | .pull q _ => match s.cmd q with
      | some c => if c.past then s.updCmd q fun c => { c with cut := true } else s.endEarly q stMasterDisabled
      | none => s
    | .desc i _ => s.descFail i 4
    | _ => s) s
  ((s.boundTo f).foldl (fun s q => s.qpError q) s).flow

/-- A reset reaches a withdrawn function (R336, R337): its queue pairs drain, its configuration space, MSI-X table and
PBA return to their reset values. -/
def State.funcReset (s : State) (f : Nat) : State :=
  let qs := s.boundTo f
  let s := s.setFunc f { draining := !qs.isEmpty }
  (qs.foldl (fun s q => s.resetReach q .flr) s).flow

/-- Functions `a` up to but not including `b`, withdrawn and reset. -/
def State.resetFuncs (s : State) (a b : Nat) : State :=
  let fs := (List.range b).drop a
  let s := fs.foldl (fun s f => s.withdraw f) s
  fs.foldl (fun s f => s.funcReset f) s

/-- BUS_MASTER_DISABLE (R332, R333): the Command register with Bus Master Enable 0. -/
def State.bmeOff (s : State) (f : Nat) (mse : Bool) : State :=
  if !(s.epf.linkUp && s.funcEnabled f) then s
  else
    let was := (s.epFunc f).bme
    let s := s.setFunc f { s.epFunc f with bme := false, mse }
    if was then s.withdraw f else s

/-- D3HOT_ENTRY (R332, R333). -/
def State.d3hot (s : State) (f : Nat) : State :=
  if !(s.epf.linkUp && s.funcEnabled f) || (s.epFunc f).d3hot then s
  else (s.setFunc f { s.epFunc f with d3hot := true }).withdraw f

/-- FUNCTION_LEVEL_RESET (R332, R336 to R338): of the physical function, every function goes and every aperture is
disabled. -/
def State.flr (s : State) (f : Nat) : State :=
  if !(s.epf.linkUp && s.funcEnabled f) then s
  else if f = 0 then
    let s := s.resetFuncs 0 (s.epf.numVfs + 1)
    { s with epf := { s.epf with numVfs := 0, force := [] } }
  else s.resetFuncs f (f + 1)

/-- VF_DISABLE (R332, R336): VF Enable cleared (0) or NumVFs lowered. -/
def State.vfDisable (s : State) (n : Nat) : State :=
  if s.epf.linkUp && decide (n < s.epf.numVfs) then
    let s := s.resetFuncs (n + 1) (s.epf.numVfs + 1)
    { s with epf := { s.epf with numVfs := n } }
  else s

/-- What function `f` presents (R8, R339). -/
def State.identity (s : State) (f : Nat) : FuncIdent :=
  let part := Config.cap s.variant 3
  let vendor := s.field .epfIds 15 0
  { vendor
    device := bitsOf part 15 0 + (if f = 0 then 0 else 1)
    subVendor := vendor
    subsystem := s.field .epfIds 31 16
    classCode := 0x018000
    revision := bitsOf part 19 16
    serial := Config.serial
    caps := [.pciExpress, .powerManagement, .msix]
    ext := [.aer, .serialNumber, .vsec, .flitPhysical] ++ (if f = 0 then [.sriov, .ari] else []) }

/-- Functions `a` up to but not including `b` answer configuration requests from now on. -/
def State.presentFuncs (s : State) (a b : Nat) : State :=
  ((List.range b).drop a).foldl (fun s f => s.emit (.present f (s.identity f))) s

/-- A word of a BAR of function `f` after software writes `v` to it (R316): BAR0/1 is the doorbell window, BAR2/3 the MSI-X
table and PBA, BAR4/5 the physical function's peer window. Address bits below the size read 0. -/
def State.barWord (s : State) (f bar v : Nat) : Nat :=
  let v := v % 2 ^ 32
  let low (size fixed : Nat) : Nat := v - v % size + fixed
  match bar with
  | 0 => low s.bar0Size 0xC
  | 2 => low 0x10000 0x4
  | 4 => if f = 0 then low 0x40000000 0xC else 0
  | 5 => if f = 0 then v else 0
  | 1 | 3 => v
  | _ => 0

/-- VF_ENABLE (R315, R724). -/
def State.vfEnable (s : State) (n : Nat) : State :=
  if s.epf.linkUp && Config.endpoint s.variant && decide (s.epf.numVfs < n ∧ n ≤ 63) then
    ({ s with epf := { s.epf with numVfs := n } } : State).presentFuncs (s.epf.numVfs + 1) (n + 1)
  else s

/-- The endpoint's link goes down (R332, R336, R342). -/
def State.epLinkDown (s : State) : State :=
  if !s.epf.linkUp then s
  else
    let s := s.resetFuncs 0 (s.epf.numVfs + 1)
    let s : State := { s with epf := { s.epf with linkUp := false, speed := 0, width := 0, flit := false, numVfs := 0 } }
    (s.setField .epfLink 23 23 1).event .epf

/-- ENDPOINT_LINK_UP (R342, R718): training is permitted, EP_PERST_N is deasserted and the lanes are ON. -/
def State.epLinkUp (s : State) (speed width : Nat) (flit : Bool) : State :=
  let lanes := (List.range width).all fun i => s.isOn (88 + i)
  if Config.endpoint s.variant && s.bit .epfLink 0 && !s.epf.perst && !s.epf.linkUp && lanes
      && decide (1 ≤ speed ∧ speed ≤ 6) && (width == 1 || width == 2 || width == 4 || width == 8)
      && (flit || decide (speed < 6)) then
    ({ s with epf := { s.epf with linkUp := true, speed, width, flit } } : State).presentFuncs 0 (s.epf.numVfs + 1)
  else s

def execBusMasterDisable (func : Nat) (mse : Bool) (s : State) : Outcome := .next (s.bmeOff func mse)
def execD3hotEntry (func : Nat) (s : State) : Outcome := .next (s.d3hot func)
def execFunctionLevelReset (func : Nat) (s : State) : Outcome := .next (s.flr func)
def execVfDisable (numVfs : Nat) (s : State) : Outcome := .next (s.vfDisable numVfs)
def execVfEnable (numVfs : Nat) (s : State) : Outcome := .next (s.vfEnable numVfs)
def execEndpointLinkLoss (s : State) : Outcome := .next s.epLinkDown
def execEndpointLinkUp (speed width : Nat) (flit : Bool) (s : State) : Outcome := .next (s.epLinkUp speed width flit)

def execEpPerstAssert (s : State) : Outcome :=
  .next ({ s with epf := { s.epf with perst := true } } : State).epLinkDown
def execEpPerstDeassert (s : State) : Outcome := .next { s with epf := { s.epf with perst := false } }

/-! ### Tags (R334, R335) and the VSEC (R340) -/

/-- COMPLETION_TIMEOUT (R335): reported, its descriptor ends, its queue pair enters ERROR, its tag is free. -/
def State.cplTimeout (s : State) (tag : Nat) : State :=
  match tblFind s.epf.tags tag with
  | none => s
  | some t =>
    if t.held.isSome then s
    else
      let s := s.advanceTo (t.at_ + 50 * msec)
      let s : State := { s with epf := { s.epf with tags := tblDel s.epf.tags tag } }
      let s := (s.count .epfCto).emit (.aerTimeout t.func)
      let s := match t.who with
        | .fetch q _ => s.qpError q
        | .pull n _ => match s.cmd n with
          | some c => (s.updCmd n fun c => { c with cut := c.past }).qpError c.qp
          | none => s
        | .desc i _ => s.descFail i 5
        | .gone => s
      (s.epPump s.epf.waiting.length).flow

def execCompletionTimeout (tag : Nat) (s : State) : Outcome := .next (s.cplTimeout tag)

/-- TAG_RELEASE (R334): the tags held at a withdrawal of `f` return to use 50 ms after it, the earliest first. -/
def State.tagRelease (s : State) (f : Nat) : State :=
  let due := s.epf.tags.filterMap fun t => if t.2.func = f then t.2.held else none
  match due.min? with
  | none => s
  | some t =>
    let s := s.advanceTo t
    let s : State := { s with epf := { s.epf with
      tags := s.epf.tags.filter fun e => !(e.2.func == f && (match e.2.held with | some x => decide (x ≤ t) | none => false)) } }
    s.epPump s.epf.waiting.length

def execTagRelease (func : Nat) (s : State) : Outcome := .next (s.tagRelease func)

/-- The VSEC word at 0x408 (R340). -/
def State.vsec (s : State) (f : Nat) : Nat :=
  let x := s.epFunc f
  min 0xFFFF (s.boundTo f).length * 2 ^ 16 + b2n x.masterLost * 4
    + b2n (s.epf.tags.any fun t => t.2.func == f && t.2.held.isSome) * 2 + b2n x.draining

/-- Island 160 reads ON: the requests held at its boundary are accepted, oldest first (R37). -/
def State.doorsOpen (s : State) : State :=
  let ds := s.qpe.doors
  ds.foldl (fun s d => match d with
    | .sqTail f q v => s.epSqTail f q v
    | .cqHead f q v => s.epCqHead f q v
    | .inline f q b => s.epInline f q b
    | .odt h => s.odtDoor h
    | .odtInline h b => s.odtInlineDoor h b
    | .capsule k psn b extra => s.capsuleDoor k psn b extra
    | .range k cid b => s.rangeDoor k cid b) { s with qpe := { s.qpe with doors := [] } }

/-- The 32-bit word of a function's configuration space at an offset that PCI Express or R340 fixes (R339, R340; log entry
112): identity, Command, class and revision, subsystem, Interrupt Pin, and the VSEC; `none` for words whose place the spec
leaves to the implementation. -/
def State.cfgWord (s : State) (f off : Nat) : Option Nat :=
  let i := s.identity f
  let x := s.epFunc f
  match off with
  | 0x00 => some (i.device * 2 ^ 16 + i.vendor)
  | 0x04 => some (2 ^ 20 + b2n x.bme * 4 + b2n x.mse * 2)
  | 0x08 => some (i.classCode * 2 ^ 8 + i.revision)
  | 0x2C => some (i.subsystem * 2 ^ 16 + i.subVendor)
  | 0x3C => some 0
  | 0x400 => some (0x1 * 2 ^ 16 + 0x000B)
  | 0x404 => some (0x010 * 2 ^ 20 + 0x1 * 2 ^ 16 + 0x0001)
  | 0x408 => some (s.vsec f)
  | 0x40C => some f
  | _ => none

/-- A configuration read through an enabled function: the word at 0x408 also clears MASTER_LOST (R340, R724). -/
def State.cfgRead (s : State) (f off : Nat) : State :=
  if s.epf.linkUp && s.funcEnabled f then
    let b := (s.cfgWord f off).map fun w => toLe w 4
    let s := if off = 0x408 then s.setFunc f { s.epFunc f with masterLost := false } else s
    match b with
    | some b => s.emit (.winRead b)
    | none => s
  else s

/-- MASTER_LOST_READ (R340): the configuration read of the VSEC word at 0x408. -/
def State.masterLostRead (s : State) (f : Nat) : State := s.cfgRead f 0x408

def execMasterLostRead (func : Nat) (s : State) : Outcome := .next (s.masterLostRead func)

end Sys2Proof.Machine
end

