-- ==== Sys2Proof/Machine/IslandOps.lean ====
section
/-! DEFINITION. What an island loses with its power and what it starts with when it gets it back (R35, R36, R40, R391,
R410, R454, R640), and the lookup of a register by its offset (R47 to R49). -/

namespace Sys2Proof.Machine

/-- The entry of `r` whose word, or one of whose two words, stands at offset `off`; `true` for the upper word. -/
def Reg.at_ (r : Reg) (off : Nat) : Option (Nat × Bool) :=
  let i := r.info
  if off < i.base then none
  else
    let d := off - i.base
    let k := d / i.stride
    let w := if i.wide && i.count = 1 then 8 else i.stride
    let k := if i.count = 1 then 0 else k
    let rest := d - w * k
    if k < i.count ∧ rest < (if i.wide then 8 else 4) ∧ rest % 4 = 0 then some (k, decide (4 ≤ rest)) else none

/-- The register at an offset: which, which entry, and whether the upper word. -/
def regAt (off : Nat) : Option (Reg × Nat × Bool) :=
  (regsOfBlock (off / 0x1000000)).findSome? fun r => (r.at_ off).map fun x => (r, x.1, x.2)

/-- The island that owns the word at an offset (R609); 165 where no register stands there. -/
def ownerAt (off : Nat) : Nat :=
  match regAt off with
  | some (r, i, _) => r.owner i
  | none => 165

/-- Power is removed from island `i`: what it held is lost (R35, R40, R391, R609). -/
def State.losePower (s : State) (i : Nat) : State :=
  let s : State := { s with regs := s.regs.filter fun e => ownerAt e.1 != i }
  if i < 88 then s
  else if i = 88 then { s with epf := { perst := s.epf.perst } }
  else if i < 96 then s
  else if i < 144 then
    let e := i - 96
    let lo := 0x4000000 + e * 0x40000
    { s with
      mem := s.mem.lose lo (lo + 0x40000)
      fct := { s.fct with
        threads := s.fct.threads.filter fun x => x.1 / 16 != e
        engines := tblDel s.fct.engines e
        descs := s.fct.descs.filter fun d => d.2.engine != e
        clusters := (s.fct.clusters.map fun k =>
          (k.1, { k.2 with acc := k.2.acc.filter fun a => a.engine != e })).filter fun k => k.2 != {} } }
  else if i < 148 then
    let c := i - 144
    let lo := 0x8000000 + c * 0x800000
    { s with
      mem := s.mem.lose lo (lo + 0x800000)
      fct := { s.fct with clusters := tblDel s.fct.clusters c }
      xbr := if i = 144 then { s.xbr with
          maxes := [], gptr := [], aptr := [], mcFirst := [], taps := [], tapLost := [] } else s.xbr }
  else if i < 150 then
    { s with mem := s.mem.filter fun c => decide (c.1 < 0x1000000000) || Config.hbmStack c.1 != i - 148 }
  else if i < 158 then s
  else if i < 160 then
    { s with cph := { s.cph with stores := setAt s.cph.stores (i - 158) false } }
  else if i = 160 then { s with qpe := { s.qpe with cache := [] } }
  else if i = 162 then { s with shd := {} }
  else if i = 163 then { s with spm := {} }
  else if i = 164 then { s with gnm := {}, cls := { s.cls with refilled := 0 } }
  else s

/-- Island `i` leaves OFF: CYCLE of an engine starts (R454); a cipher group's key store is loaded again from the wrapped
copies before keyed cells are routed there (R391), and island 159 draws its staging key (R410). -/
def State.gainPower (s : State) (i : Nat) : State :=
  if 96 ≤ i ∧ i < 144 then
    { s with fct := { s.fct with engines := tblIns s.fct.engines (i - 96) { since := s.now } } }
  else if i = 158 then { s with cph := { s.cph with stores := setAt s.cph.stores 0 true } }
  else if i = 159 then
    { s with
      cph := { s.cph with stores := setAt s.cph.stores 1 true, stage := some s.draws }
      draws := s.draws + 1 }
  else s

/-- Island `i` reads ON: its transition ends and Basalt is told (R35, R36). -/
def State.islandOn (s : State) (i : Nat) : State :=
  let x := s.island i
  let s := if x.state = .off then s.gainPower i else s
  let s := ((s.setIsland i { x with state := .on, busy := none, trans := s.gnmNs }).trace 1 i).raise (64 + i)
  let s : State :=
    if cellIslands.all fun j => s.isOn j || (s.island j).state == .fused then { s with xbr := { s.xbr with intake := none } }
    else s
  if i = 160 then s.doorsOpen else s

/-- Bring island `i` up at once, as a step of the resident program that waits for it (R36, R568, R667). -/
def State.bringUp (s : State) (i : Nat) : State :=
  let x := s.island i
  if x.state = .fused ∨ (x.state = .on ∧ x.busy = none) then s
  else (s.setIsland i { x with req := .on }).islandOn i

end Sys2Proof.Machine
end

