-- ==== Sys2Proof/Machine/Crossbar.lean ====
section
/-! DEFINITION. One slot of the crossbar: what follows from the cells that crossed; the capture of a partition; the
assignment of waiting erasure work to slices (R128, R168, R347 to R360, R376). -/

namespace Sys2Proof.Machine

/-- The command whose Class 0 pool cells a run holds (R358). -/
def CellRun.payer (r : CellRun) : Option Nat :=
  match r.owner, r.who with
  | some q, _ => some q
  | none, .survivor q _ => some q
  | none, _ => none

/-- Pool cells of a run's command are released, for a level 0 run (R358). -/
def State.poolEnd (s : State) (r : CellRun) : State :=
  match r.payer with
  | some q => if r.level = 0 then s.c0End q 1 else s
  | none => s

/-- A cell of run `r` has reached output `o`: a slice consumes it, port 33 writes it, a face keeps it until it is sent, a
drive-cluster port until a member takes it (R168, R355, R370). -/
def State.cellAt (s : State) (r : CellRun) (o : Nat) : State :=
  if 16 ≤ o ∧ o < 24 then ((s.count .parInCells).releaseCells o r.level 1).poolEnd r
  else if o = 33 then
    let s := s.releaseCells o r.level 1
    match r.who with
    | .prism p cell => s.prismWrite p cell
    | _ => s
  else
    match portFace o, r.who with
    | some _, .read seq _ => s.updCmd seq fun c => { c with faceCells := c.faceCells + 1 }
    | _, .stripe gi st | _, .parity gi st =>
      if (s.openAt gi st).isSome then
        s.updOpen gi st fun x => { x with held := tblPut 0 x.held o (tblGet 0 x.held o + 1) }
      else s.releaseCells o r.level 1
    | _, _ => s

/-- A block's first cell passes the cipher lane of its face port (R39, R380; log entry 29). -/
def State.cellCipher (s : State) (r : CellRun) : State :=
  if r.ciphered ∧ r.residue = r.dsts ∧ (r.blockAt (r.total - r.left)).map (·.2) = some 0 then
    match (r.src :: r.dsts).findSome? portFace with
    | some n => s.laneMessage n r.cls
    | none => s
  else s

/-- One cell crossed: `outs` are the outputs it reached, `r` its run as it stood before. -/
def State.cellCrossed (s : State) (outs : List Nat) (r : CellRun) : State :=
  let s := outs.foldl (fun s o => s.cellAt r o) (s.cellCipher r)
  let s := if r.residue.all outs.contains then s.poolEnd r else s
  let s := outs.foldl (fun s o => s.pfcSyncAll o) s
  s.pfcSyncAll r.src

/-- The last cell of a run has crossed (R123, R128, R180). -/
def State.runCrossed (s : State) (r : CellRun) : State :=
  match r.who with
  | .survivor seq run =>
    match s.cmd seq, s.run seq run with
    | some c, some x =>
      let s := s.updRun seq run fun x => { x with toSlice := x.toSlice - 1 }
      if 1 < x.toSlice then s
      else
        match s.target c, s.run seq run with
        | some (v, g), some x => (s.runSolve c v g x).readEnd seq
        | _, _ => s
    | _, _ => s
  | .read seq run => (s.updRun seq run fun x => { x with crossed := true }).readEnd seq
  | .stripe gi st => (s.updOpen gi st fun o => { o with cellsIn := o.cellsIn - 1 }).stripeAdvance gi st
  | .parity gi st => (s.updOpen gi st fun o => { o with cellsOut := o.cellsOut - 1 }).stripeAdvance gi st
  | _ => s

/-- CROSSBAR_SLOT (R347, R351): 4 ns pass and the matched cells cross. -/
def State.crossbarSlot (s : State) : State :=
  let (s, cells, ended) := (s.advance 4).xbarSlot
  let s := cells.foldl (fun s x => s.cellCrossed x.1 x.2) s
  (ended.foldl (fun s r => s.runCrossed r) s).flow

def execCrossbarSlot (s : State) : Outcome := .next s.crossbarSlot

/-- SLICE_ASSIGN (R168) of stripes and reconstructions: the oldest work that waits takes a context, where a slice has
one; `none` where none of them can go on. -/
def State.assignStripe (s : State) : Option State :=
  match s.str.opens.find? fun o => o.wantSlice && (s.pickSlice (o.cls == 0)).isSome with
  | some o => some ((s.stripeAdvance o.group o.stripe).flow)
  | none =>
    s.qpe.cmds.findSome? fun c =>
      if (s.pickSlice (c.cls == 0)).isNone then none
      else
        match s.target c, c.runs.find? fun r => r.sliceWait with
        | some (_, g), some r =>
          let s := s.runSlice c r
          some (match s.run c.seq r.vblk with
            | some r => s.runSurvive c g r
            | none => s)
        | _, _ => none

/-- XBR_PART_SEL (R376): the selected port's partition is captured; an absent port shows zeros. -/
def State.partCapture (s : State) (w : Nat) : State :=
  let p := bitsOf w 5 0
  let s := s.setReg .xbrPartSel p
  let x := s.part p
  if Config.portPresent s.variant p then
    ((s.setReg .xbrPartState (2 ^ 31 + 2 ^ 30 + 2 ^ 29 * b2n (decide (0 < x.waiting)) + x.floor)).setReg .xbrPartShared
      x.shared).setReg .xbrPartC0ovf (2 ^ 16 * x.c0 + x.ovf)
  else ((s.setReg .xbrPartState (2 ^ 31)).setReg .xbrPartShared 0).setReg .xbrPartC0ovf 0

def execXbrPartSel (v : Word) (s : State) : Outcome := .next (s.whenOn 144 fun s => s.partCapture v.toNat)

end Sys2Proof.Machine
end

