-- ==== Sys2Proof/Machine/KeyCmds.lean ====
section
/-! DEFINITION. The key commands: LOAD_KEK, LOAD_KEY, the capture of a key slot (R387 to R394, R400, R415), REG_KEY and
DEREG_KEY (R515, R521 to R523). -/

namespace Sys2Proof.Machine

/-- Have the buffer of a command pulled, and go on with its bytes once all of it is there (R61, R296, R333, R334). -/
def State.withBuffer (s : State) (c : Cmd) (f : State → Cmd → Bytes → State) : State :=
  let k := s.keyAt (keyIndex (eMkey c.entry))
  if c.pull.isNone ∧ k.kind = 0 ∧ !s.funcSends (k.binding % 64) then s.masterDisabled (k.binding % 64) (some c.seq)
  else
    let s := s.pullTo c.seq (eLen c.entry)
    match s.cmd c.seq with
    | none => s
    | some c => if eLen c.entry ≤ c.data.length then f s c (c.data.take (eLen c.entry)) else s

/-- The command completes once its effect is in force on both controllers (R555, R662): the records it waits for, and
INFO of its success. -/
def State.bothForce (s : State) (seq : Nat) (cfgs : List (Nat × Nat)) (info : Nat) : State :=
  ((s.updCmd seq fun c => { c with
    past := true, waiting := true, both := true, cfgs, okInfo := info, copyAt := none }).touch.settle).flow

/-- The command fails with INVALID_FIELD and a byte offset (R721). -/
def State.refuseCmd (s : State) (seq info : Nat) : State := (s.finish seq stInvalidField info).flow

/-- LOAD_KEK with its buffer (R388, R392). -/
def State.loadKek (s : State) (c : Cmd) (b : Bytes) : State :=
  let k := byteAt c.entry 8
  let peerOk := !s.paired || leAt b 0 8 == s.shd.peerSerial || leAt b 48 8 == s.shd.peerSerial
  match kekOf b with
  | none => s.refuseCmd c.seq 8
  | some key =>
    if !peerOk then s.refuseCmd c.seq 8
    else
      match key with
      | none => (s.count .cphUnwrapFail).refuseCmd c.seq 8
      | some key =>
        let s : State := { s with cph := { s.cph with
          keks := tblIns s.cph.keks k key, kekWrapped := tblIns s.cph.kekWrapped k b } }
        let s := (s.cfgPut 0x04 k (some (.kek b))).touch
        ((s.markPast c.seq).finish c.seq stSuccess 0).flow

def execLoadKek (qp cid : Nat) (s : State) : Outcome :=
  .next (s.adminRun qp cid 0x58 fun s c => s.withBuffer c State.loadKek)

/-- The lowest key slot not in use (R387; log entry 23). -/
def State.freeSlotNo (s : State) : Option Nat := (List.range 16384).find? fun i => (tblFind s.cph.slots i).isNone

/-- LOAD_KEY with its buffer (R388, R393, R394, R397, R400). -/
def State.loadKey (s : State) (c : Cmd) (b : Bytes) : State :=
  let h := eVolume c.entry
  match Crypto.unwrap (tblGet [] s.cph.keks (byteAt c.entry 8)) b, s.freeSlotNo with
  | none, _ => (s.count .cphUnwrapFail).refuseCmd c.seq 4
  | _, none => s.refuseCmd c.seq 4
  | some key, some i =>
    let xts := key.length = 64
    if xts ∧ key.take 32 = key.drop 32 then s.refuseCmd c.seq 4
    else
      let old := s.slotOf h (s.volPhase h)
      let phase := if old.isSome then 1 - s.volPhase h else 0
      let k : KeySlot :=
        { volume := h, phase, xts, kek := byteAt c.entry 8, key, wrapped := b, limit := leAt c.entry 12 4,
          markNext := some 4194304 }
      let s := (s.setKeySlot i k).cfgPut 0x05 i (some (k.record 4194304))
      let s : State := match old with
        | none => s
        | some (o, _) => { s with cph := { s.cph with
            phase := tblPut 0 s.cph.phase h phase
            walks := tblIns s.cph.walks h { old := o, new := i, starting := some c.seq } } }
      s.bothForce c.seq [(0x05, i)] i

def execLoadKey (qp cid : Nat) (s : State) : Outcome :=
  .next (s.adminRun qp cid 0x59 fun s c => s.withBuffer c State.loadKey)

/-- CPH_KEY_SEL (R415): the selected slot is captured; a free slot shows zeros. -/
def State.keyCapture (s : State) (w : Nat) : State :=
  let i := bitsOf w 13 0
  let s := s.setReg .cphKeySel i
  let put (s : State) (st n l m : Nat) : State :=
    (((s.setReg .cphKeyState (2 ^ 31 + st)).setReg .cphKeyCount n).setReg .cphKeyLimit l).setReg .cphKeyMark m
  match s.keySlot i with
  | none => put s 0 0 0 0
  | some k =>
    let walk := tblFind s.cph.walks k.volume
    let on := walk.any fun w => w.new == i
    let off := walk.any fun w => w.old == i
    put s (2 ^ 30 + 2 ^ 29 * b2n k.xts + 2 ^ 28 * k.phase + 2 ^ 27 * b2n off + 2 ^ 26 * b2n on + k.volume) k.count k.limit
      k.mark

def execCphKeySel (v : Word) (s : State) : Outcome := .next (s.whenOn 158 fun s => s.keyCapture v.toNat)

/-! ### REG_KEY and DEREG_KEY -/

/-- REG_KEY (R515, R516, R521, R522). -/
def State.regKey (s : State) (c : Cmd) : State :=
  let e := c.entry
  let kind := byteAt e 8
  let len := leAt e 40 8
  s.pickKey.elim (s.refuseCmd c.seq 8) fun i =>
    let tag := s.newTag i
    let pool := if kind = 3 then s.devAlloc len else none
    let target := if kind = 3 then pool.getD 0 else if kind = 0 then leAt e 48 8 else 0
    let s : State := match pool with
      | some a => { s with
          mem := s.mem.lose a (a + len)
          fct := { s.fct with devPool := tblIns s.fct.devPool a len } }
      | none => s
    let k : KeyEntry :=
      { state := 1, kind, access := byteAt e 9, tag, tenant := leAt e 20 4 % 2 ^ 20, binding := leAt e 12 4, uses := 0,
        base := leAt e 32 8, length := len, target, rkey := 0 }
    (((s.putKey i k).touch.markPast c.seq).finish c.seq stSuccess (tag * 2 ^ 24 + i)).flow

def execRegKey (qp cid : Nat) (s : State) : Outcome := .next (s.adminRun qp cid 0x44 fun s c => s.regKey c)

/-- DEREG_KEY (R523): the key is revoked at once, and the command waits for its last holder. -/
def State.deregKey (s : State) (c : Cmd) : State :=
  let i := keyIndex (eMkey c.entry)
  let s := (s.putKey i { s.keyAt i with state := 2 }).touch
  (((s.markPast c.seq).markWaiting c.seq).settle).flow

def execDeregKey (qp cid : Nat) (s : State) : Outcome := .next (s.adminRun qp cid 0x45 fun s c => s.deregKey c)

end Sys2Proof.Machine
end

