-- ==== Sys2Proof/Machine/Pair.lean ====
section
/-! DEFINITION. Pairing: what a controller does when it begins to serve, what ends with pairing, the epoch copy and the
command log on the active, the fence and the release (R544 to R566, R672). -/

namespace Sys2Proof.Machine

/-! ### Beginning to serve (R546, R562, R568, R672) -/

/-- LAST_ACTIVE as kept in the configuration area (R546, R663). -/
def State.lastActive (s : State) : Bool :=
  match s.sys.flash.recs.find? fun r => r.typ == 0x01 with
  | some r => r.val == some (.lastActive true)
  | none => false

/-- Have LAST_ACTIVE written (R546). -/
def State.setLastActive (s : State) (b : Bool) : State :=
  if s.lastActive = b ∧ !s.cfgWaits 0x01 0 then s else s.cfgPut 0x01 0 (some (.lastActive b))

/-- A key entry of queue pair 0's rings (R516, R665). -/
def ringKey (access conn : Nat) : KeyEntry :=
  { state := 1, kind := 1, access, tag := 1, tenant := 0, binding := conn, uses := 1, base := 0, length := 2 ^ 48,
    target := 0, rkey := 0 }

/-- Queue pair 0 is created from the ADMIN record and its connection is OPENING (R665, R666, R672; log entry 43). -/
def State.createAdmin (s : State) : State :=
  match s.sys.flash.recs.find? fun r => r.typ == 0x02 with
  | some ⟨_, _, some (.admin b)⟩ =>
    if (s.qp 0).state ≠ .free then s
    else
      let k := s.pickConn
      let conn : OdtConn := {
        state := .opening
        mac := 9
        family := byteAt b 0
        seg := 1024 * 2 ^ byteAt b 1
        rport := leAt b 2 2
        raddr := if byteAt b 0 = 4 then beAt b 40 4 else beAt b 40 16
        dbWin := leAt b 4 2
        credit := leAt b 72 4
        lastRx := s.now
        lastTx := s.now
        since := s.now }
      let s := s.setOdt k conn
      s.pickKey.elim s fun i =>
        let s := s.putKey i { ringKey 1 k with tag := s.newTag i }
        s.pickKey.elim s fun j =>
          let s := s.putKey j { ringKey 2 k with tag := s.newTag j }
          let q : Qp := {
            state := .active
            face := .odt k
            home := s.pickHome
            mask := 0xFE
            admin := true
            sqSize := leAt b 8 4
            cqSize := leAt b 12 4
            sqMkey := (s.keyAt i).tag * 2 ^ 24 + i
            cqMkey := (s.keyAt j).tag * 2 ^ 24 + j
            sqAddr := leAt b 56 8
            cqAddr := leAt b 64 8 }
          s.createQp 0 q
  | _ => s

/-- Step 10 of start-up has ended: STAGE 15, and TRIAL of the boot pointer is cleared (R660, R681). -/
def State.bootDone (s : State) : State :=
  let s := s.setField .sysBoot 31 28 15
  match s.sys.pointer with
  | some p => if p.trial = 0 then s else s.putPointer p.slot 0
  | none => s

/-- What a controller does when it becomes ACTIVE or SOLO and did not serve before (R43, R274, R546, R562, R569, R672). -/
def State.startServing (s : State) : State :=
  let s := ((s.setLastActive true).setField .epfLink 0 0 1).bootDone
  let slots := (s.str.members.filter fun e => s.takesWrites e.1).map (·.1)
  let s := slots.foldl State.acquire s
  let s := (s.str.groups.map (·.1)).foldl State.takeUp s
  let s := s.createAdmin
  let s := s.announceAll
  ({ s with net := { s.net with announce := [s.now + 200 * usec, s.now + msec] } } : State).flow

/-! ### What ends with pairing (R555) -/

/-- The command log moved on, or is no longer kept: what waited for a record goes on (R556). -/
def State.logProgress (s : State) : State :=
  let fin := s.qpe.cmds.filter fun c => c.phase == .finished && c.ready.isSome
  let s := fin.foldl (fun s c => s.postTry c.seq) s
  let s := s.net.roce.foldl (fun s e =>
    let due := e.2.acks.filter fun a => s.recAcked (some a.2)
    let s := due.foldl (fun s a => s.roceFrame e.2.mac e.2.sub 0 (.roceAck e.1 a.1 0)) s
    let s := s.updRoce e.1 fun c => { c with acks := c.acks.filter fun a => !due.contains a }
    s.rocePump (e.2.queue.length + 1) e.1) s
  s.flow

/-- Every wait for the shadow's acknowledgement has come to its end: windows, doorbell windows, raised MARKs and commands
(R145, R146, R292, R397, R555). -/
def State.waitsEnd (s : State) : State :=
  let s : State := { s with
    str := { s.str with window := s.str.window.map fun w =>
      if w.leaving || !w.acked then { w with copy := some 0 } else w }
    net := { s.net with odt := s.net.odt.map fun e => (e.1, { e.2 with carried := [] }) } }
  let s := s.winAcked 0
  let s := (s.cph.slots.map (·.1)).foldl State.markCheck s
  s.pushCreating.logProgress

/-- Pairing is over for this controller: nothing more is logged, copied or released (R545, R572). -/
def State.unpair (s : State) : State :=
  { s with shd := { s.shd with
      logging := false, copy := none, log := [], logWait := [], logStall := false, copy0Acked := false
      renewAcked := false, renews := [], leaseFrom := none, ackAt := none, heardAt := none, releasing := none
      won := none, peer := false, marks := [], driveBad := none, netBad := none
      bulk := s.shd.bulk.filter fun b => b.kind == .fatal } }

/-- The controller takes a role (R545, R691). -/
def State.setRole (s : State) (r : Role) : State :=
  ({ s with shd := { s.shd with role := r, wasSolo := false } } : State).trace 2 162

/-- The controller becomes SOLO (R545): every wait for a shadow ends at once (R555). -/
def State.becomeSolo (s : State) : State :=
  let was := s.serves
  let s := s.unpair
  let s : State := { s.setRole .solo with shd := { (s.setRole .solo).shd with fence := false, tie := none } }
  let s := s.waitsEnd
  if was then s else s.startServing

/-- The fence is asserted (R560). -/
def State.assertFence (s : State) : State :=
  if s.shd.fence then s else ({ s with shd := { s.shd with fence := true } } : State).raise 21

/-- The controller enters FENCED (R545, R546, R560). -/
def State.becomeFenced (s : State) (tie : Option Tie) : State :=
  let s := s.assertFence.unpair
  let s := s.setRole .fenced
  ({ s with shd := { s.shd with tie } } : State).setLastActive false

/-! ### The epoch copy on the active (R552 to R555) -/

/-- The replicated structures as they stand (R552); keys leave only in wrapped form (R390). -/
def State.repImage (s : State) : RepImage :=
  let unacked := (s.net.odt.any fun e => !e.2.sent.isEmpty) || (s.net.roce.any fun e => !e.2.sent.isEmpty)
  { qps := s.qpe.qps
    journal := s.str.opens.map fun o => { group := o.group, method := o.method.code, mask := slotBits o.positions
                                          stripe := o.stripe, epoch := o.epoch }
    window := s.str.window.map fun w => (w.group, w.region, w.class0)
    groups := s.str.groups
    members := s.str.members.map fun e => (e.1, { e.2 with since := s.now - e.2.since })
    ubl := s.str.ubl
    ublOver := s.str.ublOver
    volumes := s.str.volumes
    shapers := s.cls.shapers
    dflt := s.cls.dflt
    odt := s.net.odt
    roce := s.net.roce
    nextRoce := s.net.nextRoce
    allow := s.net.allow
    addr := s.net.addr
    slots := s.cph.slots.map fun e => (e.1, { e.2 with key := [] })
    keks := s.cph.kekWrapped
    phase := s.cph.phase
    walks := s.cph.walks
    atts := s.fct.atts
    devPool := s.fct.devPool
    flash := (s.sys.flash.recs ++ s.sys.flash.queue).filter fun r => r.typ != 0x01 && r.typ != 0x02
    nextRec := s.shd.nextRec
    redundant := if unacked then 0
      else (s.qpe.cmds.filterMap fun c => c.takenRec).foldl min s.shd.nextRec }

/-- Runs of consecutive lines among ascending line addresses. -/
def lineRuns : List Nat → List (Nat × Nat)
  | [] => []
  | a :: l =>
    match lineRuns l with
    | (b, n) :: t => if a + 64 = b then (a, n + 1) :: t else (a, 1) :: (b, n) :: t
    | [] => [(a, 1)]

/-- The first `n` lines of runs, and the runs left. -/
def takeLines : Nat → List (Nat × Nat) → List Nat × List (Nat × Nat)
  | _, [] => ([], [])
  | n, (a, k) :: t =>
    if n = 0 then ([], (a, k) :: t)
    else if n < k then ((List.range n).map fun i => a + 64 * i, (a + 64 * n, k - n) :: t)
    else
      let (l, r) := takeLines (n - k) t
      (((List.range k).map fun i => a + 64 * i) ++ l, r)

/-- The number of lines of runs. -/
def lineCount (l : List (Nat × Nat)) : Nat := (l.map (·.2)).sum

/-- An entry of a LINES frame: the address and the line (R550). -/
def State.lineEntry (s : State) (a : Nat) : Bytes := toLe a 8 ++ s.mem.readN a 64

/-- Lines an epoch may carry: 27,000, or half of it with one half of the link up (R548, R554). -/
def State.epochLines (s : State) : Nat :=
  if s.shd.halfA && s.shd.halfB then 27000 else if s.shd.halfA || s.shd.halfB then 13500 else 0

/-- Send what this epoch can carry of the copy in progress, and COMMIT once it is whole; marks are cleared as the lines
are read (R550, R553, R554). -/
def State.sendCopy (s : State) : State :=
  match s.shd.copy with
  | none => s
  | some c =>
    if c.committed ∨ s.epochLines = 0 then s
    else
      let (ls, left) := takeLines s.epochLines c.left
      let entries := ls.map s.lineEntry
      let s := (chunksOf 56 ls.length entries).foldl (fun s f => s.mirror .lines [c.num, f.length] f.flatten) s
      let crc := entries.foldl crcRun c.crc
      let sent := c.sent + ls.length
      let s : State := { s with shd := { s.shd with marks := ls.foldl tblDel s.shd.marks } }
      if left.isEmpty then
        let s := if c.image then s.emit (.mirrorImage c.num s.repImage) else s
        let s := s.mirror .commit [c.num, sent, crc ^^^ 0xFFFFFFFF] []
        { s with shd := { s.shd with copy := some { c with left := [], sent, crc, committed := true } } }
      else
        let s := if c.spread then s else s.count .shdOverrun
        { s with shd := { s.shd with copy := some { c with left, sent, crc, spread := true } } }
where
  /-- Groups of at most `k`. -/
  chunksOf (k : Nat) : Nat → List Bytes → List (List Bytes)
    | 0, _ => []
    | n + 1, l => if l.isEmpty then [] else l.take k :: chunksOf k n (l.drop k)

/-- Lowest slot that holds a member (R563). -/
def arbiterOf (ms : Tbl Member) : Option Nat := (ms.find? fun e => e.2.state != .none).map (·.1)

/-- Cut a copy with the number `num` of the lines `lines` (R553): every change made so far is carried by it. -/
def State.cutCopy (s : State) (num : Nat) (lines : List (Nat × Nat)) (image : Bool) : State :=
  let c : Copy := { num, lines, left := lines, image, arbiter := arbiterOf s.str.members }
  let s : State := { s with
    shd := { s.shd with copy := some c, copySent := num, changed := false }
    str := { s.str with window := s.str.window.map fun w =>
      if (w.leaving || !w.acked) && w.copy.isNone then { w with copy := some num } else w }
    cph := { s.cph with slots := s.cph.slots.map fun e =>
      (e.1, if e.2.markNext.isSome && e.2.markCopy.isNone then { e.2 with markCopy := some num } else e.2) }
    qpe := { s.qpe with cmds := s.qpe.cmds.map fun d =>
      if d.both && d.copyAt.isNone then { d with copyAt := some num } else d }
    net := { s.net with odt := s.net.odt.map fun e => (e.1, { e.2 with carried := e.2.carried ++ [(e.2.hseq, num)] }) } }
  s.sendCopy

/-- The lines of the whole replicated region (R547). -/
def State.regionLines (s : State) : List (Nat × Nat) :=
  match s.repBase with
  | some r => [(r, 2 ^ 24)]
  | none => []

/-- The winner cuts copy 0, and logs commands from then on (R547). -/
def State.cutFirst (s : State) : State :=
  let s : State := { s with shd := { s.shd with
    logging := true, copy0Acked := false, renewAcked := false, renews := [], leaseFrom := none, ackAt := none
    copyAcked := 0, flashAcked := 0, marks := [], log := [], logWait := [], logStall := false, nextRec := 0
    epochAt := s.now } }
  s.cutCopy 0 s.regionLines true

/-- Cut a copy of every marked line, where no earlier one is unacknowledged (R553). -/
def State.cutMarked (s : State) : State :=
  if s.shd.copy.isSome then s.sendCopy
  else s.cutCopy (s.shd.copySent + 1) (lineRuns (s.shd.marks.map (·.1))) s.shd.changed

/-! ### Self-checks and the release (R564, R565) -/

/-- The active releases (R565): intake closes, nothing more is issued, the fence is asserted, and the final copy is cut
and sent; it replaces a copy in progress (R572). -/
def State.releaseShelf (s : State) : State :=
  if s.shd.role ≠ .active ∨ s.shd.releasing.isSome ∨ !s.shd.copy0Acked then s
  else
    let s := (s.count .shdReleases).assertFence
    let old := match s.shd.copy with | some c => c.lines | none => []
    let marked := lineRuns (s.shd.marks.map (·.1))
    let num := s.shd.copySent + 1
    let s : State := { s with shd := { s.shd with releasing := some { copy := num }, copy := none } }
    let s := s.shd.log.foldl State.mirrorLog s
    s.cutCopy num (old ++ marked) true

/-- Self-check `b` failed (R564): FAILED and source 22; an enabled one releases while the last RENEW_ACK is less than
100 µs old. -/
def State.selfCheck (s : State) (b : Nat) : State :=
  let s := (s.setReg .shdSelfchk (s.reg .shdSelfchk ||| 2 ^ (16 + b))).raise 22
  let s := s.trace 3 162
  let fresh := match s.shd.ackAt with | some t => decide (s.now < t + 100 * usec) | none => false
  if s.bit .shdSelfchk b && fresh then s.releaseShelf else s

/-! ### BULK transfers (R550) -/

/-- Bytes of one BULK frame (log entry 49). -/
def bulkPiece : Nat := 4096

/-- The next frame of the transfer at the front leaves. -/
def State.bulkNext (s : State) : State :=
  match s.shd.bulk with
  | [] => s
  | b :: _ =>
    let rest := b.bytes.drop b.acked
    let last := decide (rest.length ≤ bulkPiece)
    s.mirror .bulk (b.kind.code ++ [b.acked, b2n last]) (rest.take bulkPiece)

/-- A transfer joins those to send (R550); `seq` is the command that waits for it. -/
def State.sendBulk (s : State) (kind : BulkKind) (bytes : Bytes) (seq : Option Nat) : State :=
  let first := s.shd.bulk.isEmpty
  let s : State := { s with shd := { s.shd with bulk := s.shd.bulk ++ [{ kind, bytes, seq }] } }
  if first then s.bulkNext else s

end Sys2Proof.Machine
end

