-- ==== Sys2Proof/Machine/Shadow.lean ====
section
/-! DEFINITION. The Mirror link, the epoch copy, the command log, the Lodestone lease, the fence, the release and the
takeover (R544 to R574). -/

namespace Sys2Proof.Machine

/-- A frame whose CRC fails is dropped and counted (R550). -/
def State.mirrorRx (s : State) (crcOk : Bool) (f : State → State) : State :=
  if !(s.shd.halfA || s.shd.halfB) ∨ !s.isOn 162 then s else if crcOk then f s else s.count .shdLinkErr

/-! ### Pairing (R545 to R547) -/

/-- The role a controller reports in HELLO: SOLO while it goes on serving in PAIRING (R544, R546; log entry 44). -/
def State.helloRole (s : State) : Role := if s.shd.role = .pairing ∧ s.shd.wasSolo then .solo else s.shd.role

/-- Whether this controller wins the election against its peer (R546). -/
def State.winsElection (s : State) : Bool :=
  let strong (r : Role) : Bool := r == .active || r == .solo
  let mine := strong s.helloRole
  let theirs := strong s.shd.peerRole
  if mine != theirs then mine
  else if s.lastActive != s.shd.peerLast then s.lastActive
  else decide (Config.serial < s.shd.peerSerial)

/-- The election is decided; the winner cuts copy 0 (R546, R547). -/
def State.elect (s : State) : State :=
  let w := s.winsElection
  let s : State := { s with shd := { s.shd with won := some w } }
  if w then s.cutFirst else s

/-- HELLO from the peer (R545 to R547). -/
def State.hello (s : State) (serial : Nat) (role : Role) (last : Bool) (drive net : Nat) : State :=
  if !s.bit .shdCtl 0 then ({ s with shd := { s.shd with peer := true } } : State).raise 23
  else
    let known := s.shd.peer && s.shd.peerSerial == serial
    let s : State := { s with shd := { s.shd with
      peer := true, peerSerial := serial, peerRole := role, peerLast := last, peerReach := drive, peerNet := net } }
    let s := s.raise 23
    match s.shd.role with
    | .solo =>
      let s := s.setRole .pairing
      let s : State := { s with shd := { s.shd with wasSolo := true, pairStart := some s.now } }
      s.elect
    | .pairing => if s.shd.won.isSome then s else s.elect
    | .active =>
      if role = .pairing ∧ (!known ∨ !s.shd.copy0Acked ∧ !s.shd.logging) ∧ s.shd.releasing.isNone then s.cutFirst else s
    | _ => s

def execHello (serial : Nat) (role : Role) (last : Bool) (drive net : Nat) (crcOk : Bool) (s : State) : Outcome :=
  .next (s.mirrorRx crcOk fun s => s.hello serial role last drive net)

/-- HELLO is sent every 10 µs in PAIRING (R546). -/
def State.helloSend (s : State) : State :=
  match s.shd.role, s.shd.pairStart with
  | .pairing, some t0 =>
    if !s.bit .shdCtl 0 then s
    else
      let s := s.advanceTo (match s.shd.helloSent with | some t => t + 10 * usec | none => t0)
      let s := s.mirror .hello
        [Config.serial, s.helloRole.code, b2n s.lastActive, s.slotsReached, s.linksUp] []
      { s with shd := { s.shd with helloSent := some s.now } }
  | _, _ => s

def execHelloSend (s : State) : Outcome := .next s.helloSend

/-- No HELLO within 1 s of PAIRING (R545). -/
def State.pairingTimeout (s : State) : State :=
  match s.shd.role, s.shd.pairStart with
  | .pairing, some t0 => if s.shd.peer && s.bit .shdCtl 0 then s else (s.advanceTo (t0 + 1000 * msec)).becomeSolo
  | _, _ => s

def execPairingTimeout (s : State) : Outcome := .next s.pairingTimeout

/-- The winner becomes ACTIVE once the peer has acknowledged what R545 and R547 ask for; a SUPPLY check that failed before
causes its release now (R708). -/
def State.tryActive (s : State) : State :=
  if s.shd.role = .pairing ∧ s.shd.won = some true ∧ s.shd.copy0Acked ∧ (s.shd.wasSolo ∨ s.shd.renewAcked) then
    let was := s.serves
    let s := s.setRole .active
    let s := if was then s.setLastActive true else s.startServing
    if s.bit .shdSelfchk 20 then s.selfCheck 4 else s
  else s

/-! ### Epochs, renewals and the lease (R553, R554, R558, R559, R564) -/

/-- A cluster with engines present can write its heartbeat word: one of its engines is ON (R564; log entry 45). -/
def State.beats (s : State) (c : Nat) : Bool := (List.range 12).any fun i => s.isOn (96 + 12 * c + i)

/-- The checks of an epoch's end: heartbeats missed for two epochs running, the drive reach for 10 ms, the network reach
for 100 ms (R564). -/
def State.epochChecks (s : State) : State :=
  let beats := (List.range 4).map fun c => if s.beats c then 0 else s.shd.beats.getD c 0 + 1
  let s : State := { s with shd := { s.shd with beats } }
  let late (t : Option Nat) (d : Nat) : Bool := match t with | some t => decide (t + d ≤ s.now) | none => false
  let s := if beats.any fun n => decide (n = 2) then s.selfCheck 0 else s
  let drive := late s.shd.driveBad (10 * msec)
  let net := late s.shd.netBad (100 * msec)
  let s := if drive && !s.bit .shdSelfchk 21 then s.selfCheck 5 else s
  if net && !s.bit .shdSelfchk 22 then s.selfCheck 6 else s

/-- EPOCH_END (R553, R554, R559): RENEW goes out, a copy is cut or carried on, and the checks run. After a fatal stop that
does not release no further RENEW is sent (R689). -/
def State.epochEnd (s : State) : State :=
  if !s.shd.logging ∨ !s.isOn 162 ∨ (s.shd.stopped ∧ s.shd.releasing.isNone) then s
  else
    let s := s.advanceTo (s.shd.epochAt + 20 * usec)
    let n := s.shd.epoch
    let s : State := { s with shd := { s.shd with
      bulkBytes := 0, linesWaited := s.shd.wire.any fun f => f.kind == .lines } }
    let s := s.mirror .renew [n] []
    let s : State := { s with shd := { s.shd with
      renews := s.shd.renews ++ [(n, s.now)], epoch := (n + 1) % 2 ^ 64, epochAt := s.now } }
    let s := if s.epochLines = 0 then s else s.cutMarked
    if s.shd.role = .active then s.epochChecks else s

def execEpochEnd (s : State) : Outcome := .next s.epochEnd

/-- The controller keeps copies and records of a peer: SHADOW, or PAIRING with the election lost (R545). -/
def State.follows (s : State) : Bool :=
  s.shd.role == .shadow || (s.shd.role == .pairing && s.shd.won == some false)

/-- RENEW at the shadow: it acknowledges at once and its lease copy runs from here (R559). -/
def State.renew (s : State) (n : Nat) : State :=
  if !s.follows then s
  else
    let s : State := { s with shd := { s.shd with heardAt := some s.now, epoch := n } }
    s.mirror .renewAck [n, s.slotsReached, s.linksUp] []

def execRenew (n : Nat) (crcOk : Bool) (s : State) : Outcome := .next (s.mirrorRx crcOk fun s => s.renew n)

/-- RENEW_ACK at the active: its lease copy runs from s_n of the highest renewal acknowledged (R559); the shadow's reach
is taken (R564). -/
def State.renewAck (s : State) (n drive net : Nat) : State :=
  match s.shd.renews.find? fun r => r.1 == n with
  | none => s
  | some r =>
    let s : State := { s with shd := { s.shd with
      renews := s.shd.renews.filter fun x => decide (n < x.1)
      leaseFrom := some (max r.2 (s.shd.leaseFrom.getD 0)), ackAt := some s.now, renewAcked := true
      peerReach := drive, peerNet := net } }
    s.reach.tryActive

def execRenewAck (n drive net : Nat) (crcOk : Bool) (s : State) : Outcome :=
  .next (s.mirrorRx crcOk fun s => s.renewAck n drive net)

/-! ### The copy at the shadow (R554) -/

/-- LINES: entries are staged for their copy. -/
def State.lines (s : State) (copy : Nat) (entries : List (Nat × Bytes)) : State :=
  if !s.follows ∨ entries.length = 0 ∨ 56 < entries.length then s
  else
    let old := match s.shd.staged with | some (n, l) => if n = copy then l else [] | none => []
    { s with shd := { s.shd with staged := some (copy, old ++ entries) } }

def execLines (copy : Nat) (entries : List (Nat × Bytes)) (crcOk : Bool) (s : State) : Outcome :=
  .next (s.mirrorRx crcOk fun s => s.lines copy entries)

/-- Flash-bound items of a copy that this controller's flash does not hold yet (R552, R663). -/
def State.flashNew (s : State) (items : List CfgRec) : List CfgRec :=
  let newer (r : CfgRec) : Bool := s.sys.flash.recs.any fun x => x.typ == r.typ && x.key == r.key &&
    (match x.val, r.val with
      | some (.group a _ _ _ _ _ _), some (.group b _ _ _ _ _ _) => decide (b < a)
      | _, _ => false)
  items.filter fun r => !((s.sys.flash.recs ++ s.sys.flash.queue).contains r) && !newer r

/-- Flash-bound records in force that a copy no longer has (R663). -/
def State.flashGone (s : State) (items : List CfgRec) : List CfgRec :=
  s.sys.flash.recs.filter fun r => r.typ != 0x01 && r.typ != 0x02
    && !(items.any fun x => x.typ == r.typ && x.key == r.key)

/-- The second COPY_ACK, with FLASH (R554). -/
def State.ackFlash (s : State) (copy : Nat) : State := s.mirror .copyAck [copy, 2] []

/-- A staged copy is applied in one step (R554): its lines, what they say of the replicated structures, of which those of
Strata take the place of any local assembly (R673), and the records it makes redundant; its flash-bound items are to be written. -/
def State.applyCopy (s : State) (copy : Nat) (entries : List (Nat × Bytes)) (image : Option RepImage) : State :=
  let mem := entries.foldl (fun (m : Memory) e => m.writeN e.1 (e.2.take 64)) s.mem
  let s : State := { s with mem, shd := { s.shd with staged := none, applied := some copy } }
  let s : State := match image with
    | none => s
    | some i => { s with
      shd := { s.shd with
        region := some i
        arbiter := arbiterOf i.members
        held := s.shd.held.filter fun r => decide (i.redundant ≤ r.num) }
      str := { s.str with groups := i.groups, members := i.members, volumes := i.volumes, ubl := i.ubl } }
  let s := s.mirror .copyAck [copy, 0] []
  let due : List CfgRec := match image with
    | some i => s.flashNew i.flash ++ (s.flashGone i.flash).map fun r => CfgRec.mk r.typ r.key none
    | none => []
  let s :=
    if due.isEmpty then s.ackFlash copy
    else
      let s := due.foldl (fun s r => s.cfgPut r.typ r.key r.val) s
      ({ s with shd := { s.shd with flashDue := s.shd.flashDue ++ [copy] } } : State).raise 18
  if s.shd.role = .pairing then
    ((s.setRole .shadow).setLastActive false).bootDone
  else s

/-- COMMIT (R554): the copy is applied when count and CRC match, or asked for again. -/
def State.commit (s : State) (copy count crc : Nat) (image : Option RepImage) : State :=
  if !s.follows then s
  else
    let entries := match s.shd.staged with | some (n, l) => if n = copy then l else [] | none => []
    let c := entries.foldl (fun c e => crcRun c (toLe e.1 8 ++ e.2)) 0xFFFFFFFF ^^^ 0xFFFFFFFF
    if entries.length = count ∧ c = crc then s.applyCopy copy entries image
    else ({ s with shd := { s.shd with staged := none } } : State).mirror .copyAck [copy, 1] []

def execCommit (copy count crc : Nat) (image : Option RepImage) (crcOk : Bool) (s : State) : Outcome :=
  .next (s.mirrorRx crcOk fun s => s.commit copy count crc image)

/-! ### COPY_ACK at the active (R545, R547, R554, R555, R565) -/

/-- The doorbell windows follow the copy acknowledged (R292). -/
def OdtConn.ackCopy (c : OdtConn) (n : Nat) : OdtConn :=
  let done := c.carried.filter fun x => decide (x.2 ≤ n)
  match done.getLast? with
  | some x => { c with safe := x.1, carried := c.carried.filter fun x => decide (n < x.2) }
  | none => c

/-- The doorbell windows of these connections have moved: the host hears of it in a CREDIT (R292, R295; log entry 102). -/
def State.sendCredits (s : State) (ks : List Nat) : State :=
  ks.foldl (fun s k =>
    let c := s.odtConn k
    if c.state = .established ∨ c.state = .suspect then s.odtCtl k 0 0 (.credit (s.odtLimit k)) else s) s

/-- The copy in progress has been acknowledged: what waited for it goes on (R145, R146, R292, R555). -/
def State.copyDone (s : State) (c : Copy) : State :=
  let moved := (s.net.odt.filter fun e => (e.2.ackCopy c.num).safe != e.2.safe).map (·.1)
  let s : State := { s with
    shd := { s.shd with
      copy := none, copyAcked := c.num, arbiter := c.arbiter
      copy0Acked := s.shd.copy0Acked || c.num == 0 }
    net := { s.net with odt := s.net.odt.map fun e => (e.1, e.2.ackCopy c.num) } }
  let s := s.tryActive
  let s := (s.winAcked c.num).pushCreating.flow
  let s := s.sendCredits moved
  match s.shd.releasing with
  | some r =>
    if r.copy = c.num then (s.mirror .release [c.num] []).becomeFenced none else s
  | none => s

/-- COPY_ACK (R554, R555). -/
def State.copyAck (s : State) (n : Nat) (resend flash : Bool) : State :=
  if !s.shd.logging then s
  else if flash then
    let s : State := { s with shd := { s.shd with flashAcked := max n s.shd.flashAcked } }
    ((s.cph.slots.map (·.1)).foldl State.markCheck s).flow
  else
    match s.shd.copy with
    | none => s
    | some c =>
      if c.num ≠ n ∨ !c.committed then s
      else if resend then
        let again : Copy := { c with left := c.lines, sent := 0, crc := 0xFFFFFFFF, committed := false }
        ({ s with shd := { s.shd with copy := some again } } : State).sendCopy
      else s.copyDone c

def execCopyAck (copy : Nat) (resend flash crcOk : Bool) (s : State) : Outcome :=
  .next (s.mirrorRx crcOk fun s => s.copyAck copy resend flash)

/-! ### The command log (R556, R557) -/

/-- LOG at the shadow: the records are appended and the highest number held is acknowledged. -/
def State.logRx (s : State) (rs : List LogRec) : State :=
  if !s.follows ∨ rs.length = 0 ∨ 32 < rs.length then s
  else
    let fresh := rs.filter fun r => !(s.shd.held.any fun h => h.num == r.num)
    let s : State := { s with shd := { s.shd with held := s.shd.held ++ fresh } }
    s.mirror .logAck [s.shd.held.foldl (fun m r => max m r.num) 0] []

def execLog (records : List LogRec) (crcOk : Bool) (s : State) : Outcome :=
  .next (s.mirrorRx crcOk fun s => s.logRx records)

/-- LOG_ACK at the active: records up to the number are acknowledged, and what waited for them goes on. -/
def State.logAck (s : State) (num : Nat) : State :=
  if !s.shd.logging then s
  else
    let log := s.shd.log.filter fun r => decide (num < r.num)
    let stall := s.shd.logStall && log.any fun r => r.resent
    let s : State := { s with shd := { s.shd with log, logStall := stall } }
    let s := if stall then s
      else
        let wait := s.shd.logWait.map fun r => { r with at_ := s.now }
        let s : State := { s with shd := { s.shd with log := log ++ wait, logWait := [] } }
        wait.foldl State.mirrorLog s
    s.logProgress

def execLogAck (num : Nat) (crcOk : Bool) (s : State) : Outcome := .next (s.mirrorRx crcOk fun s => s.logAck num)

/-- LOG_RESEND (R557): the oldest record has waited 1.5 µs; issue and posting stop until it is acknowledged. -/
def State.logResend (s : State) : State :=
  match s.shd.log with
  | [] => s
  | r :: rest =>
    let s := (s.advanceTo (r.at_ + 1500)).count .shdLogRetx
    let r : LogRec := { r with at_ := s.now, resent := true }
    ({ s with shd := { s.shd with log := r :: rest, logStall := true } } : State).mirrorLog r

def execLogResend (s : State) : Outcome := .next s.logResend

/-! ### Takeover (R563, R566 to R569) -/

/-- Commands that a TAKEN record names and no POSTED record names, oldest first (R569). -/
def notPosted (rs : List LogRec) : List (Nat × Nat × Bytes × Nat) :=
  rs.filterMap fun r => match r.kind with
    | .taken q slot e src =>
      let done := rs.any fun p => match p.kind with
        | .posted q' slot' e' _ => q' == q && slot' == slot && leAt e' 0 2 == eCid e && decide (r.num < p.num)
        | _ => false
      if done then none else some (q, slot, e, src)
    | _ => none

/-- The POSTED records of queue pair `q`, in order, with their numbers. -/
def postedOf (rs : List LogRec) (q : Nat) : List (Nat × Bytes × Nat) :=
  rs.filterMap fun r => match r.kind with
    | .posted q' _ e seq => if q' = q then some (r.num, e, seq) else none
    | _ => none

/-- A queue pair as the takeover finds it (R568, R569): posting waits for its face; its posting index is moved past the
completions logged since the copy, and over RoCEv2 its head past the capsules taken. -/
def recoverQp (img : RepImage) (rs : List LogRec) (q : Nat) (x : Qp) : Qp :=
  let later := (postedOf rs q).filter fun p => decide (img.nextRec ≤ p.1)
  let n := x.post + later.length
  let open_ := (notPosted rs).filter fun t => t.1 == q
  let x : Qp := { x with
    post := if x.cqSize = 0 then 0 else n % x.cqSize
    phase := if x.cqSize ≠ 0 ∧ (n / x.cqSize) % 2 = 1 then !x.phase else x.phase
    fetch := none, fetchSegs := [], inl := [], drain := none, reserved := open_.length, frozen := true }
  match x.face with
  | .odt _ => x
  | .roce _ _ =>
    let last := (rs.filterMap fun r => match r.kind with
      | .taken q' slot _ _ => if q' = q ∧ img.nextRec ≤ r.num then some slot else none
      | _ => none).getLast?
    match last with
    | some slot => { x with head := (slot + 1) % x.sqSize, tail := (slot + 1) % x.sqSize }
    | none => x
  | .endpoint _ _ =>
    { x with frozen := false, reserved := 0, unwritten := open_.length
             state := if x.state = .active ∨ x.state = .stalled then .error else x.state }

/-- The logged completions of a queue pair with their completion slots (R569). -/
def repostsOf (img : RepImage) (rs : List LogRec) (q : Nat) (x : Qp) : List Repost :=
  let ps := postedOf rs q
  let before := (ps.filter fun p => decide (p.1 < img.nextRec)).length
  let size := max 1 x.cqSize
  (ps.zip (List.range ps.length)).map fun (p, i) =>
    { qp := q, slot := (x.post + size * before + i - before) % size, entry := p.2.1, seq := p.2.2 }

/-- A RoCEv2 connection as the takeover finds it (R569). -/
def recoverRoce (img : RepImage) (rs : List LogRec) (k : Nat) (c : RoceConn) : RoceConn :=
  let capsule := (rs.filterMap fun r => match r.kind with
    | .taken q _ _ src => if c.qp = some q ∧ img.nextRec ≤ r.num then some src else none
    | _ => none).getLast?
  let block := (rs.filterMap fun r => match r.kind with
    | .psnBlock j first => if j = k ∧ img.nextRec ≤ r.num then some first else none
    | _ => none).getLast?
  { c with
    ePsn := match capsule with | some p => (p + 1) % 2 ^ 24 | none => c.ePsn
    sPsn := match block with
      | some f => (f + 256) % 2 ^ 24
      | none => (c.sPsn + c.psnLeft + (match c.psnRec with | some r => r.2 | none => 0)) % 2 ^ 24
    psnLeft := 0, psnRec := none, sent := [], queue := [], acks := [], rnrWait := none, dsm := [], recover := true }

/-- The new active takes over what its region and its log hold (R204, R398, R403, R568, R569). -/
def State.loadImage (s : State) (img : RepImage) (silent : Bool) : State :=
  let rs := s.shd.held
  let keks := img.keks.filterMap fun e => match kekOf e.2 with
    | some (some k) => some (e.1, k)
    | _ => none
  let slots := img.slots.map fun e =>
    (e.1, { e.2 with
      key := (Crypto.unwrap (tblGet [] keks e.2.kek) e.2.wrapped).getD []
      count := e.2.mark, markNext := none, markCopy := none })
  let groups := img.groups.map fun e =>
    let js := (img.journal.filter fun j => j.group == e.1).map (·.stripe)
    let ws := if silent then (img.window.filter fun w => w.1 == e.1).map (·.2.1) else []
    (e.1, { e.2 with
      resync := (e.2.resync ++ js).eraseDups.mergeSort (· ≤ ·)
      resyncRegions := (e.2.resyncRegions ++ ws).eraseDups.mergeSort (· ≤ ·)
      setting := [], clearing := [], replicaTo := none })
  let opened := notPosted rs
  let cmds : List Cmd := opened.zipIdx.filterMap fun (t, i) =>
    match (tblGet ({} : Qp) img.qps t.1).face with
    | .endpoint _ _ => none
    | _ => some { qp := t.1, cid := eCid t.2.2.1, entry := t.2.2.1, seq := s.qpe.nextSeq + i, phase := .finished
                  past := true, result := some (stNotOwner, 0), slot := t.2.1, src := t.2.2.2 }
  { s with
    qpe := { s.qpe with
      qps := img.qps.map fun e => (e.1, recoverQp img rs e.1 e.2)
      cache := (img.qps.filter fun e => bitOf e.2.mask 0 && e.2.state != .free).map (·.1)
      cmds, nextSeq := s.qpe.nextSeq + opened.length }
    cls := { s.cls with shapers := img.shapers, dflt := img.dflt, busy := [], dispatch := [{}, {}, {}, {}], drive := [], egress := [] }
    str := { s.str with
      groups, members := img.members.map fun e => (e.1, { e.2 with since := s.now - e.2.since })
      volumes := img.volumes.map fun e => (e.1, { e.2 with creating := none })
      ubl := img.ubl, ublOver := img.ublOver, opens := [], mem := [], creating := [], parked := []
      window := img.window.map fun w => { group := w.1, region := w.2.1, acked := true, last := s.now, class0 := w.2.2 } }
    net := { s.net with
      odt := img.odt.map fun e =>
        let live := e.2.state == .established || e.2.state == .suspect
        (e.1, { e.2 with
          state := if live then .suspect else e.2.state
          since := s.now, carried := [], asks := [], recover := live })
      roce := img.roce.map fun e => (e.1, recoverRoce img rs e.1 e.2)
      nextRoce := img.nextRoce, allow := img.allow, addr := img.addr, egress := [] }
    cph := { s.cph with keks, kekWrapped := img.keks, slots, phase := img.phase, walks := img.walks }
    fct := { s.fct with atts := img.atts, invs := [], devPool := img.devPool }
    frames := []
    shd := { s.shd with
      held := [], nextRec := 0
      skip := rs.filterMap fun r => match r.kind with
        | .taken q slot e _ => if img.nextRec ≤ r.num then some (q, slot, e) else none
        | _ => none
      repost := img.qps.flatMap fun e => repostsOf img rs e.1 e.2 } }

/-- A recovered command is a hitless FW_ACTIVATE, which a takeover abandons (R569, R678). -/
def Cmd.abandoned (c : Cmd) : Bool := eOpcode c.entry == 0x47 && byteAt c.entry 9 == 0

/-- The steps of R568 end: ACTIVE, or SOLO where the Mirror link is lost (log entry 46); no shadow is paired. -/
def State.finishTakeover (s : State) : State :=
  let link := s.shd.halfA || s.shd.halfB
  let s := if s.qpe.cmds.any Cmd.abandoned then s.setField .sysFwact 25 24 3 else s
  let s := s.unpair.setRole (if link then .active else .solo)
  ({ s with shd := { s.shd with tie := none, region := none } } : State).startServing

/-- A takeover begins (R566 to R568): Basalt is woken, every island is brought ON, staging is discarded, and the region
and the log are taken over; a silent one first preempts the arbiter, where there is one (R563). -/
def State.takeover (s : State) (silent : Bool) : State :=
  let s := (s.raise 16).wake (some 16)
  let s := (s.count .shdTakeovers).setRole .takingOver
  let s : State := { s with shd := { s.shd with staged := none, heardAt := none } }
  let s := (List.range 168).foldl State.bringUp s
  let s := match s.shd.region with | some img => s.loadImage img silent | none => s
  match silent, s.shd.arbiter with
  | true, some sl =>
    let s := s.emit (.driveCtl sl "PREEMPT")
    { s with shd := { s.shd with tie := some .preempting } }
  | _, _ => s.finishTakeover

/-- RELEASE at the shadow (R566). -/
def State.releaseRx (s : State) (copy : Nat) : State :=
  if s.shd.role = .shadow ∧ s.shd.applied = some copy then s.takeover false else s

def execRelease (copy : Nat) (crcOk : Bool) (s : State) : Outcome :=
  .next (s.mirrorRx crcOk fun s => s.releaseRx copy)

/-- LEAVE at the active (R545, R566, R572). In a hitless activation both pointers name the new slot from here on (R678). -/
def State.leaveRx (s : State) : State :=
  if s.shd.role ≠ .active then s
  else if s.shd.releasing.isSome then s.becomeFenced none
  else
    let left (a : Activation) : Activation := { a with shadowAway := true }
    let s := match s.sys.activation with
      | some a => if a.rollback then s else s.putPointer a.slot 0
      | none => s
    ({ s with sys := { s.sys with activation := s.sys.activation.map left } } : State).becomeSolo

def execLeave (crcOk : Bool) (s : State) : Outcome := .next (s.mirrorRx crcOk State.leaveRx)

/-- ACTIVE_LEASE_EXPIRE (R559, R560, R563): 1,000 µs after s_m. -/
def State.activeExpire (s : State) : State :=
  match s.shd.role, s.shd.leaseFrom with
  | .active, some t =>
    let s := s.advanceTo (t + 1000 * usec)
    s.becomeFenced (if s.shd.releasing.isSome then none else some (.waiting s.now))
  | _, _ => s

def execActiveLeaseExpire (s : State) : Outcome := .next s.activeExpire

/-- SHADOW_LEASE_EXPIRE (R559, R567): 1,000 µs and the drift guard of 100 µs after r_m. -/
def State.shadowExpire (s : State) : State :=
  match s.shd.role, s.shd.heardAt with
  | .shadow, some t => (s.advanceTo (t + 1100 * usec)).takeover true
  | _, _ => s

def execShadowLeaseExpire (s : State) : Outcome := .next s.shadowExpire

/-- TIE_BREAK_WAIT (R563): 1.2 ms after its own expiry a FENCED controller preempts the arbiter. -/
def State.tieWait (s : State) : State :=
  match s.shd.role, s.shd.tie with
  | .fenced, some (.waiting t) =>
    let s := s.advanceTo (t + 1200 * usec)
    match s.shd.arbiter with
    | some sl =>
      { s.emit (.driveCtl sl "PREEMPT") with shd := { s.shd with tie := some .preempting } }
    | none => { s with shd := { s.shd with tie := none } }
  | _, _ => s

def execTieBreakWait (s : State) : Outcome := .next s.tieWait

/-- ARBITER_PREEMPT_DONE (R545, R561, R563). -/
def State.preemptDone (s : State) (ok : Bool) : State :=
  match s.shd.role, s.shd.tie with
  | .takingOver, some .preempting => if ok then s.finishTakeover else s.becomeFenced none
  | .fenced, some .preempting =>
    if ok then s.becomeSolo else { s with shd := { s.shd with tie := none } }
  | _, _ => s

def execArbiterPreemptDone (ok : Bool) (s : State) : Outcome := .next (s.preemptDone ok)

/-- RESERVATION_ACQUIRE_TIMEOUT (R562): 100 ms after the acquire left, the member becomes MISSING. -/
def State.acquireTimeout (s : State) (sl : Nat) : State :=
  match tblFind s.shd.acquiring sl with
  | none => s
  | some t =>
    let s := s.advanceTo (t + 100 * msec)
    let s : State := { s with shd := { s.shd with acquiring := tblDel s.shd.acquiring sl } }
    s.memberMissing sl

def execReservationAcquireTimeout (slot : Nat) (s : State) : Outcome := .next (s.acquireTimeout slot)

/-! ### SHD_CTL (R565, R566, R577) -/

def execShdCtlRelease (s : State) : Outcome := .next (s.whenOn 162 State.releaseShelf)

/-- LEAVE is sent, and has left once the frames before it have (R551, R652). -/
def State.sendLeave (s : State) : State :=
  let s := s.mirror .leave [] []
  (List.range s.shd.wire.length).foldl (fun s _ =>
    if s.shd.wire.any fun f => f.kind == .leave then (s.advanceTo s.shd.wireFree).wireNext else s) s

/-- LEAVE written on the shadow: LEAVE is sent, and it enters PAIRING with PAIR_EN cleared (R566, R664). -/
def State.leaveCtl (s : State) : State :=
  if s.shd.role ≠ .shadow then s
  else
    let s := (s.mirror .leave [] []).setField .shdCtl 0 0 0
    let s := s.cfgPut 0x0E (Reg.off .shdCtl) (some (.register 0))
    let s := s.unpair.setRole .pairing
    { s with shd := { s.shd with
      pairStart := some s.now, helloSent := none, staged := none, applied := none
      held := [], flashDue := [] } }

def execShdCtlLeave (s : State) : Outcome := .next (s.whenOn 162 State.leaveCtl)

/-! ### The link (R548, R572) -/

/-- Neither half is up any more: the link is lost (R548, R572). A pairing under way starts again (log entry 47). -/
def State.mirrorLost (s : State) : State :=
  let s : State := { s with shd := { s.shd with
    halfA := false, halfB := false, copy := none, wire := []
    bulkIn := s.shd.bulkIn.filter fun x => x.1 != .fatal } }
  let s := (s.err 13).raise 17
  if s.shd.role = .pairing then
    let s : State := { s.unpair with shd := { s.unpair.shd with pairStart := s.shd.pairStart.map fun _ => s.now } }
    if s.shd.wasSolo then s.waitsEnd else s
  else s

/-- MIRROR_LINK_LOSS. -/
def State.mirrorLoss (s : State) : State := if s.shd.halfA || s.shd.halfB then s.mirrorLost else s

/-- MIRROR_LINK_HALF_CHANGE (R548): half 0 is A, on lanes 0 to 3; half 1 is B, on lanes 4 to 7. -/
def State.mirrorHalf (s : State) (half : Nat) (up : Bool) : State :=
  let was := if half = 0 then s.shd.halfA else s.shd.halfB
  let other := if half = 0 then s.shd.halfB else s.shd.halfA
  let lanes := (List.range 4).all fun l => s.isOn (80 + 4 * half + l)
  if 2 ≤ half ∨ was = up ∨ (up ∧ !lanes) then s
  else if !up ∧ !other then s.mirrorLost
  else
    let s : State := { s with shd :=
      if half = 0 then { s.shd with halfA := up } else { s.shd with halfB := up } }
    if up ∧ !other then (s.raise 17).bulkNext else s

end Sys2Proof.Machine
end

