-- ==== Sys2Proof/Machine/Fatal.lean ====
section
/-! DEFINITION. The fatal stop (R687 to R689), and SYS_ERR_CTL and SYS_WDOG (R697). -/

namespace Sys2Proof.Machine

/-! ### The fatal stop (R687 to R689, R695) -/

/-- SITE of a fatal event at an island (R690). -/
def siteIsland (i : Nat) : Nat := i

/-- SITE of a fatal event at a thread (R690). -/
def siteThread (e t : Nat) : Nat := 96 + e + e * 2 ^ 8 + t * 2 ^ 14

/-- SITE of a fatal event whose site is not known (R690). -/
def siteUnknown : Nat := 0xFFFFFFFF

/-- Bytes 0 to 127 of the header of a fatal-state image, with COMPLETE as given (R690). -/
def State.fatalHead (s : State) (f : FatalRun) (len sections complete crc : Nat) : Bytes :=
  let img := s.slotImage s.sys.running
  toLe 0x454D41544146534F 8 ++ toLe 1 2 ++ toLe f.cause 1 ++ toLe f.role.code 1 ++ toLe f.site 4 ++ toLe f.time 8
    ++ toLe Config.serial 8 ++ toLe (Config.cap s.variant 3) 2 ++ toLe (stateAbi img) 2 ++ toLe (leAt img 12 4) 4
    ++ toLe f.addr 8 ++ toLe len 4 ++ toLe sections 4 ++ toLe f.follow 4 ++ toLe complete 1 ++ zeros 3 ++ toLe crc 4
    ++ zeros 60

/-- The fatal stop of a first fatal event (R687 to R690, R695): the fence on an ACTIVE controller, the header of the image
with COMPLETE 0, RECOVERY, source 0, self-check FATAL and its release. `shared` says that SHD or the replicated region is
the site. -/
def State.fatalStop (s : State) (f : FatalRun) (shared : Bool) : State :=
  let s : State := { s with
    sys := { s.sys with fatal := some f }
    shd := { s.shd with stopped := true } }
  let s := if s.shd.role = .active then s.assertFence else s
  let s := s.store s.fatalBase (s.fatalHead f 0 0 0 0 ++ zeros 3968)
  let s := ((s.setReg .sysMode 3).err 0).emit (.pin "FATAL_N" 0 false)
  let s := ((s.setReg .shdSelfchk (s.reg .shdSelfchk ||| 2 ^ 23)).raise 22).trace 3 162
  let fresh := s.shd.ackAt.any fun t => decide (s.now < t + 100 * usec)
  if s.bit .shdSelfchk 7 && fresh && !shared then s.releaseShelf else s

/-- A fatal event (R687 to R689): the fatal stop. A further one while the image is being written is counted in FOLLOW, and
after that in COUNT alone. -/
def State.fatal (s : State) (cause site addr : Nat) (shared : Bool) : State :=
  let n := min 0xFF (s.field .sysFatal 7 0 + 1)
  let s := s.setField .sysFatal 7 0 n
  match s.sys.fatal with
  | some f =>
    if f.complete.isSome then s
    else { s.setField .sysFatal 23 16 cause with sys := { s.sys with fatal := some { f with follow := f.follow + 1 } } }
  | none =>
    (s.setField .sysFatal 23 16 cause).fatalStop
      { cause, site, addr, time := s.gnmNs, role := s.shd.role } shared

/-- SITE of a requester (R690). -/
def siteOf : Requester → Nat
  | .basalt _ => siteIsland 166
  | .thread e t => siteThread e t
  | .jtag => siteUnknown

/-- A write of the bits `m` of SYS_ERR_CTL with the values `v` (R687, R697): HOLD, and FATAL with its KEY in the same
write. -/
def State.errCtl (s : State) (req : Requester) (m v : Nat) : State :=
  let s := if bitOf m 30 then s.setField .sysErrCtl 30 30 (bitsOf v 30 30) else s
  if bitOf (v &&& m) 31 ∧ (v &&& m) % 2 ^ 16 = 0xFA7A then s.fatal 8 (siteOf req) 0 false else s

/-- A write of the bits `m` of SYS_WDOG with the values `v` (R697), by Basalt alone: LIMIT_MS, and PET, which renews and
first arms the watchdog. -/
def State.wdogCtl (s : State) (req : Requester) (m v : Nat) : State :=
  match req with
  | .basalt _ =>
    let old := s.field .sysWdog 15 0
    let s := s.setField .sysWdog 15 0 (old - (old &&& m) + (v &&& m) % 2 ^ 16)
    if bitOf (v &&& m) 31 then { s with sys := { s.sys with petAt := some s.now } } else s
  | _ => s

end Sys2Proof.Machine
end

