-- ==== Sys2Proof/Machine/FctMem.lean ====
section
/-! DEFINITION. What a Facet thread's memory accesses go through: performance counters (R454 to R457), TLBs and table
walks (R504 to R513), caches (R419 to R421), and the checks of an access (R475). -/

namespace Sys2Proof.Machine

/-! ### Threads, engines, clusters -/

/-- Thread `t` of engine `e`. -/
def State.thr (s : State) (e t : Nat) : Thread := tblGet {} s.fct.threads (16 * e + t)

/-- The state with a thread replaced. -/
def State.setThr (s : State) (e t : Nat) (x : Thread) : State :=
  { s with fct := { s.fct with threads := tblPut {} s.fct.threads (16 * e + t) x } }

/-- The state with a thread changed. -/
def State.updThr (s : State) (e t : Nat) (f : Thread → Thread) : State := s.setThr e t (f (s.thr e t))

/-- Engine `e`. -/
def State.eng (s : State) (e : Nat) : Engine := tblGet {} s.fct.engines e

/-- The state with an engine replaced. -/
def State.setEng (s : State) (e : Nat) (x : Engine) : State :=
  { s with fct := { s.fct with engines := tblIns s.fct.engines e x } }

/-- Cluster `c`. -/
def State.clu (s : State) (c : Nat) : Cluster := tblGet {} s.fct.clusters c

/-- The state with a cluster replaced. -/
def State.setClu (s : State) (c : Nat) (x : Cluster) : State :=
  { s with fct := { s.fct with clusters := tblPut {} s.fct.clusters c x } }

/-- The reset value of a CSR (R496). -/
def csrReset (n : Nat) : DWord := if n = 0x40 then BitVec.allOnes 64 else 0#64

/-- A stored CSR of a thread (R496). -/
def Thread.csrAt (x : Thread) (n : Nat) : DWord := tblGet (csrReset n) x.csr n

/-- The thread with a stored CSR written. -/
def Thread.setCsr (x : Thread) (n : Nat) (v : DWord) : Thread := { x with csr := tblPut (csrReset n) x.csr n v }

/-- INTRAP and PMODE of STATUS (R497). -/
def Thread.intrap (x : Thread) : Bool := (x.csrAt 0x80).getLsbD 0
def Thread.pmode (x : Thread) : Bool := (x.csrAt 0x80).getLsbD 1

/-- A general register: g0 reads as 0 (R464). -/
def Thread.reg (x : Thread) (r : Fin 32) : DWord := if r = 0 then 0#64 else tblGet 0#64 x.g r.val

/-- The thread with a general register written: a write of g0 is discarded (R464). -/
def Thread.setReg (x : Thread) (r : Fin 32) (v : DWord) : Thread :=
  if r = 0 then x else { x with g := tblPut 0#64 x.g r.val v }

/-- A predicate register: p0 reads as 1 (R464). -/
def Thread.pred (x : Thread) (p : Fin 8) : Bool := p == 0 || x.preds.getLsbD p.val

/-- The thread with a predicate written: a write of p0 is discarded (R464). -/
def Thread.setPred (x : Thread) (p : Fin 8) (v : Bool) : Thread :=
  if p = 0 then x
  else { x with preds := if v then x.preds ||| (1#8 <<< p.val) else x.preds &&& ~~~(1#8 <<< p.val) }

/-! ### Performance counters (R454 to R457) -/

/-- The event selector and the counter of number `k` (R460). -/
def pmcSel : Nat → Reg
  | 0 => .pmcEvsel0 | 1 => .pmcEvsel1 | 2 => .pmcEvsel2 | 3 => .pmcEvsel3
  | 4 => .pmcEvsel4 | 5 => .pmcEvsel5 | 6 => .pmcEvsel6 | _ => .pmcEvsel7
def pmcCount : Nat → Reg
  | 0 => .pmcCnt0 | 1 => .pmcCnt1 | 2 => .pmcCnt2 | 3 => .pmcCnt3
  | 4 => .pmcCnt4 | 5 => .pmcCnt5 | 6 => .pmcCnt6 | _ => .pmcCnt7

/-- A selector counts event `ev` of thread `t` in a mode (R454, R460). -/
def pmcTakes (w ev t : Nat) (umode : Bool) : Bool :=
  bitOf w 31 && w % 256 == ev && bitOf w (8 + t)
    && (match bitsOf w 28 27 with | 1 => !umode | 2 => umode | _ => true)

/-- `n` events of thread `t` of engine `e` (R454): a counter that wraps sets OVF, raises the engine's source if INT is 1,
and asks for a skid sample if SMP is 1 and there is no tagging (R456). -/
def State.pmc (s : State) (e t ev n : Nat) : State :=
  (List.range (Config.pmcProg s.variant)).foldl (fun s k =>
    let w := s.reg (pmcSel k) e
    if pmcTakes w ev t (s.thr e t).umode then
      let c := s.reg (pmcCount k) e % 2 ^ 48 + n
      let s := s.setReg (pmcCount k) (c % 2 ^ 48) e
      if c < 2 ^ 48 then s
      else
        let s := s.setField (pmcSel k) 26 26 1 e
        let s := if bitOf w 30 then s.raise (256 + e) else s
        if bitOf w 29 && !Config.tagging s.variant then s.updThr e t fun x => { x with skid := x.skid + 1 } else s
    else s) s

/-- The instruction in progress met event `b` of a sample's EVENTS (R457). -/
def State.meets (s : State) (e t b : Nat) : State := s.updThr e t fun x => { x with met := x.met ||| 2 ^ b }

/-- Slots and base of the sample ring (R459). -/
def State.smpSlots (s : State) : Nat := 2 ^ (min 16 (max 8 (s.field .pmcSmpCtl 12 8)))
def State.smpBase (s : State) : Nat := s.field .pmcSmpBase 39 12 * 2 ^ 12

/-- Write a sample record into the ring, or lose it (R457). -/
def State.sample (s : State) (e t : Nat) (pc : DWord) (daddr met : Nat) (skid umode : Bool) : State :=
  if !s.bit .pmcSmpCtl 0 then s
  else
    let n := s.smpSlots
    let p := s.reg .pmcSmpProd
    if (p + 1) % n = s.reg .pmcSmpCons % n then s.count .pmcSmpLost
    else
      let rec_ := toLe s.gnmNs 8 ++ toLe pc.toNat 8 ++ toLe daddr 8 ++ toLe ((s.thr e t).csrAt 0x8C).toNat 2 ++ toLe e 1
        ++ toLe (t + 16 * b2n umode + 32 * b2n skid) 1 ++ toLe met 2 ++ zeros 2
      let was := s.reg .pmcSmpCons
      let s := ((s.store (s.smpBase + 32 * p) rec_).setReg .pmcSmpProd ((p + 1) % n)).emit (.ring "PMC" p)
      if p = was then s.event .pmc else s

/-- PMC_SAMPLE_ENABLE (R459): a write of PMC_SMP_CTL. ENABLE 1 takes the ring and sets PROD and CONS to 0, and is ignored
where the ring would not lie wholly in fitted HBM; RING_LOG2 is not written while ENABLE is 1. -/
def State.smpCtl (s : State) (w : Nat) : State :=
  if s.bit .pmcSmpCtl 0 then (if bitOf w 0 then s else s.setField .pmcSmpCtl 0 0 0)
  else if !bitOf w 0 then s.setReg .pmcSmpCtl (bitsOf w 12 8 * 2 ^ 8)
  else
    let n := 2 ^ (min 16 (max 8 (bitsOf w 12 8)))
    if 0x1000000000 ≤ s.smpBase ∧ s.smpBase + 32 * n ≤ s.hbmEnd then
      ((s.setReg .pmcSmpCtl (bitsOf w 12 8 * 2 ^ 8 + 1)).setReg .pmcSmpProd 0).setReg .pmcSmpCons 0
    else s

/-! ### Table walks (R507 to R511) -/

/-- Bytes of a leaf page at a level (R507). -/
def pageBytes (level : Nat) : Nat := 4096 * 512 ^ (level - 1)

/-- A table entry is invalid at a level (R508, R509). -/
def pteBad (level v : Nat) : Bool :=
  let leaf := bitsOf v 4 2 != 0
  !bitOf v 0 || bitOf v 1 || bitsOf v 11 7 != 0 || bitsOf v 63 40 != 0 || (bitOf v 3 && !bitOf v 2)
    || (leaf && level == 4) || (!leaf && level == 1) || (!leaf && (bitOf v 5 || bitOf v 6))
    || (leaf && level == 2 && bitsOf v 20 12 != 0) || (leaf && level == 3 && bitsOf v 29 12 != 0)

/-- A table lies in fitted HBM or in the shared SRAM of cluster `c` (R511). -/
def State.tableOk (s : State) (c a : Nat) : Bool :=
  decide ((0x1000000000 ≤ a ∧ a + 4096 ≤ s.hbmEnd) ∨ (0x8000000 + c * 0x800000 ≤ a ∧ a + 4096 ≤ 0x8800000 + c * 0x800000))

/-- The walk from the table at `a` of level `level`: the leaf's entry, and whether it reached a table outside HBM and the
shared SRAM. -/
def State.walkFrom (s : State) (c va asid : Nat) : Nat → Nat → Option TlbEntry × Bool
  | 0, _ => (none, false)
  | k + 1, a =>
    let level := k + 1
    if !s.tableOk c a then (none, true)
    else
      let v := s.mem.readLe (a + 8 * (va / 2 ^ (12 + 9 * k) % 512)) 8
      let pa := bitsOf v 39 12 * 2 ^ 12
      if pteBad level v then (none, false)
      else if bitsOf v 4 2 = 0 then s.walkFrom c va asid k pa
      else
        let sz := pageBytes level
        (some { vpage := va / sz * sz, ppage := pa, level, asid, flags := v % 128 }, false)

/-- A walk of cluster `c` (R507, R511), counted in MMU_WALK and MMU_WALK_ERR. -/
def State.walk (s : State) (c root va asid : Nat) : State × Option TlbEntry :=
  let s := s.count .mmuWalk
  let (r, bad) := s.walkFrom c va asid 4 root
  (if bad then s.count .mmuWalkErr else s, r)

/-- A TLB entry serves an address of an address space (R508, R512). -/
def TlbEntry.hits (x : TlbEntry) (va asid : Nat) : Bool :=
  decide (x.vpage ≤ va ∧ va < x.vpage + pageBytes x.level) && (bitOf x.flags 6 || x.asid == asid)

/-- A list of at most `cap` entries with one more: a full one gives up the entry that a free value names (log entry 53). -/
def tlbAdd (draw cap : Nat) (l : List TlbEntry) (x : TlbEntry) : List TlbEntry :=
  if l.length < cap then x :: l else setAt l (Config.victim draw % cap) x

/-- Look an address up in the cluster TLB, then by a walk (R512): the entry, and whether the cluster TLB missed. -/
def State.clLookup (s : State) (c root va asid : Nat) : State × Option TlbEntry × Bool :=
  match (s.clu c).tlb.find? fun x => x.hits va asid with
  | some x => (s, some x, false)
  | none =>
    let (s, r) := s.walk c root va asid
    match r with
    | none => (s, none, true)
    | some x =>
      let k := s.clu c
      let s := s.setClu c { k with tlb := tlbAdd s.draws 2048 k.tlb x }
      (s.drew, some x, true)

/-- Translate an address for thread `t` of engine `e` (R512): through its engine TLB. -/
def State.lookup (s : State) (e t va : Nat) : State × Option TlbEntry :=
  let x := s.thr e t
  let asid := (x.csrAt 0x8C).toNat
  if 2 ^ 48 ≤ va then (s, none)
  else
    match (s.eng e).tlb.find? fun y => y.hits va asid with
    | some y => (s, some y)
    | none =>
      let s := (s.pmc e t 0x04 1).meets e t 2
      let (s, r, miss) := s.clLookup (e / 12) (x.csrAt 0x8D).toNat va asid
      let s := if miss then (s.pmc e t 0x05 1).meets e t 3 else s
      match r with
      | none => (s, none)
      | some y =>
        let g := s.eng e
        let s := s.setEng e { g with tlb := tlbAdd s.draws 64 g.tlb y }
        (s.drew, some y)

/-! ### The checks of an access (R475, R504, R510) -/

/-- A trap to be taken: its cause (R435) and TINFO; none where the spec does not state TINFO (log entry 58). -/
structure Trap where
  cause : Nat
  info : Option Nat := none
deriving DecidableEq, Repr

/-- What an access is for (R510). -/
inductive Need where
  | fetch | load | store | atomic
deriving DecidableEq, Repr

/-- Cause of an access without a valid translation (R435). -/
def Need.fault : Need → Nat
  | .fetch => 0x04 | .load => 0x05 | .store => 0x06 | .atomic => 0x05

/-- The permissions an access has under a leaf's bits, else the cause of the first that fails (R475, R510). -/
def Need.check (n : Need) (flags : Nat) (umode : Bool) : Option Nat :=
  let r := bitOf flags 2; let w := bitOf flags 3; let x := bitOf flags 4
  if umode && !bitOf flags 5 then some n.fault
  else
    match n with
    | .fetch => if x then none else some 0x04
    | .load => if r then none else some 0x05
    | .store => if w then none else some 0x06
    | .atomic => if !r then some 0x05 else if !w then some 0x06 else none

/-- A U-mode load of a register word is permitted (R429, R455): CYCLE and the programmable counters of its own engine, and
the holding registers of unit counters but those of SHD and CPH. -/
def State.userReg (s : State) (e off : Nat) : Bool :=
  let blk := off / 0x1000000
  let o := off % 0x1000000
  let hold := decide (0x800000 ≤ o)
  if blk = 15 then
    let a := o % 0x800000
    if a < 0x1000 then hold && s.bit .pmcUacc 2
    else if (a - 0x1000) / 0x100 = e then
      if a % 0x100 < 0x10 then s.bit .pmcUacc 0
      else if 0x40 ≤ a % 0x100 ∧ a % 0x100 < 0x80 then s.bit .pmcUacc 1
      else false
    else false
  else hold && s.bit .pmcUacc 2 && blk != 4 && blk != 8

/-- Step 4 of R475: the physical address is mapped for this access, and a register access is permitted (R429, R455,
R473). -/
def State.physOk (s : State) (e : Nat) (umode : Bool) (n : Need) (word : Bool) (pa : Nat) : Bool :=
  match s.place pa with
  | .unmapped => false
  | .regs off => word && (!umode || (n == .load && s.userReg e off))
  | .bitAlias _ _ => word && !umode
  | _ => true

/-- Translate and check an access of thread `t` of engine `e` at virtual address `va` (R475 steps 2 to 4, R504): the
physical address, or the trap. -/
def State.access (s : State) (e t : Nat) (n : Need) (word : Bool) (va : Nat) : State × Except Trap Nat :=
  let x := s.thr e t
  let ken := (x.csrAt 0x8E).getLsbD 0
  if !x.umode && !ken then
    if va < 2 ^ 40 ∧ s.physOk e false n word va then (s, .ok va) else (s, .error ⟨0x07, some va⟩)
  else
    let (s, r) := s.lookup e t va
    match r with
    | none => (s, .error ⟨n.fault, some va⟩)
    | some y =>
      match n.check y.flags x.umode with
      | some c => (s, .error ⟨c, some va⟩)
      | none =>
        let pa := y.ppage + (va - y.vpage)
        if s.physOk e x.umode n word pa then (s, .ok pa) else (s, .error ⟨0x07, some va⟩)

/-! ### Caches and memory (R419 to R421) -/

/-- A line of the data cache leaves it: a dirty line is written to HBM whole (log entry 56). -/
def State.evict (s : State) (e line : Nat) : State :=
  let g := s.eng e
  match tblFind g.dcache line with
  | none => s
  | some l =>
    let s := s.setEng e { g with dcache := tblDel g.dcache line }
    if l.dirty then s.store (64 * line) l.bytes else s

/-- A dirty line is written to HBM and kept clean (R499, WB). -/
def State.cleanLine (s : State) (e line : Nat) : State :=
  let g := s.eng e
  match tblFind g.dcache line with
  | some l => if l.dirty then (s.setEng e { g with dcache := tblIns g.dcache line { l with dirty := false } }).store
      (64 * line) l.bytes else s
  | none => s

/-- Bring a line into the data cache: a miss is counted, and a full set of 8 gives up the line that a free value names (log entry
53). -/
def State.fill (s : State) (e t line : Nat) : State :=
  if (tblFind (s.eng e).dcache line).isSome then s
  else
    let s := (s.pmc e t 0x03 1).meets e t 1
    let mates := ((s.eng e).dcache.map (·.1)).filter fun l => l % 64 == line % 64
    let s := if mates.length < 8 then s else
      (s.evict e (mates.getD (Config.victim s.draws % 8) 0)).drew
    let g := s.eng e
    s.setEng e { g with dcache := tblIns g.dcache line { bytes := s.mem.readN (64 * line) 64 } }

/-- An address lies in HBM. -/
def inHbmSpace (pa : Nat) : Bool := decide (0x1000000000 ≤ pa)

/-- Count an access to shared SRAM (R454). -/
def State.sramCount (s : State) (e t pa : Nat) : State :=
  if 0x8000000 ≤ pa ∧ pa < 0xA000000 then s.pmc e t 0x0F 1 else s

/-- Load `n` bytes at a physical address that lie in one 64-byte line (R419). -/
def State.loadLine (s : State) (e t pa n : Nat) : State × Bytes :=
  if inHbmSpace pa then
    let s := s.fill e t (pa / 64)
    match tblFind (s.eng e).dcache (pa / 64) with
    | some l => (s, (l.bytes.drop (pa % 64)).take n)
    | none => (s, [])
  else (s.sramCount e t pa, s.mem.readN pa n)

/-- Store bytes at a physical address that lie in one 64-byte line (R419); the boot ROM is read-only (log entry 57). -/
def State.storeLine (s : State) (e t pa : Nat) (b : Bytes) : State :=
  if inHbmSpace pa then
    let s := s.fill e t (pa / 64)
    let g := s.eng e
    match tblFind g.dcache (pa / 64) with
    | some l =>
      let bytes := l.bytes.take (pa % 64) ++ b ++ l.bytes.drop (pa % 64 + b.length)
      s.setEng e { g with dcache := tblIns g.dcache (pa / 64) { bytes, dirty := true } }
    | none => s
  else if pa < 0x40000 then s
  else (s.sramCount e t pa).store pa b

/-- An instruction fetch at a physical address: a line of HBM that the instruction cache does not hold is a miss (R419,
R454). -/
def State.fetchLine (s : State) (e t pa : Nat) : State :=
  let line := pa / 64
  if !inHbmSpace pa || (tblFind (s.eng e).icache line).isSome then s
  else
    let s := (s.pmc e t 0x02 1).meets e t 0
    let g := s.eng e
    let mates := (g.icache.map (·.1)).filter fun l => l % 256 == line % 256
    let ic := if mates.length < 4 then g.icache else tblDel g.icache (mates.getD (Config.victim s.draws % 4) 0)
    (s.setEng e { g with icache := tblIns ic line () }).drew

/-! ### Invalidation (R513, R514, R542) -/

/-- An entry is in the scope of a request (R513). -/
def Invalidation.covers (v : Invalidation) (x : TlbEntry) : Bool :=
  let g := bitOf x.flags 6
  match v.scope with
  | 1 => !g && x.asid == v.asid
  | 2 => (g || x.asid == v.asid) && decide (x.vpage ≤ v.va ∧ v.va < x.vpage + pageBytes x.level)
  | _ => true

/-- MMU_INVALIDATE (R542): a write of MMU_INV_CTL. GO queues a request, or sets OVER where 8 are queued; a request with
CLUSTERS 0 completes at once. -/
def State.mmuInvCtl (s : State) (w : Nat) : State :=
  let s := (s.setField .mmuInvCtl 29 28 (bitsOf w 29 28)).setField .mmuInvCtl 27 24 (bitsOf w 27 24)
  if !bitOf w 31 then s
  else if 8 ≤ s.fct.invals.length then s.setField .mmuInvCtl 30 30 1
  else
    let v : Invalidation := { scope := bitsOf w 29 28, clusters := bitsOf w 27 24, asid := s.field .mmuInvAsid 15 0,
                              va := s.field .mmuInvVa 47 12 * 2 ^ 12 }
    if v.clusters = 0 ∧ s.fct.invals.isEmpty then
      s.setField .mmuInvCtl 15 0 (s.field .mmuInvCtl 15 0 + 1)
    else { s with fct := { s.fct with invals := s.fct.invals ++ [v] } }

/-- INVALIDATION_COMPLETE (R514): the oldest request drops its entries and SEQ increments; requests with CLUSTERS 0
behind it complete with it. -/
def State.invalDone (s : State) : State :=
  match s.fct.invals with
  | [] => s
  | v :: rest =>
    let named (c : Nat) : Bool := bitOf v.clusters c
    let keep (l : List TlbEntry) : List TlbEntry := l.filter fun x => !v.covers x
    let more := (rest.takeWhile fun y => y.clusters == 0).length
    let dropE (x : Nat × Engine) : Nat × Engine :=
      if named (x.1 / 12) then (x.1, { x.2 with tlb := keep x.2.tlb }) else x
    let dropC (x : Nat × Cluster) : Nat × Cluster :=
      if named x.1 then (x.1, { x.2 with tlb := keep x.2.tlb }) else x
    let s : State := { s with fct := { s.fct with
      invals := rest.drop more
      engines := s.fct.engines.map dropE
      clusters := (s.fct.clusters.map dropC).filter fun x => x.2 != {} } }
    s.setField .mmuInvCtl 15 0 (s.field .mmuInvCtl 15 0 + 1 + more)

end Sys2Proof.Machine
end

