-- ==== Sys2Proof/Machine/FctInv.lean ====
section
/-! DEFINITION. The end of an invocation of a hook, and its result (R439, R440, R444 to R447). -/

namespace Sys2Proof.Machine

/-- How an invocation ended: with its result (g1, g2 and the first 64 bytes of its output page), as a failure, or because
its attachment is being detached. -/
inductive HookEnd where
  | result (g1 g2 : Nat) (out : Bytes)
  | failure
  | gone
deriving DecidableEq, Repr

/-- The result of PERSONALITY (R439): an entry passes on through R61, or its failure completes INVALID_FIELD; a completion
is posted in the tenant's format, or untranslated. -/
def State.personalityEnd (s : State) (seq : Nat) (r : HookEnd) : State :=
  match s.cmd seq with
  | none => s
  | some c =>
    if c.phase = .finished then
      let f (c : Cmd) : Cmd := { c with
        hook := none, raw := none, translated := match r with | .result _ _ out => some (out.take 32) | _ => none }
      (s.updCmd seq f).postTry seq
    else
      match r with
      | .result _ _ out => s.personalityResult seq (some out)
      | .failure => s.personalityResult seq none
      | .gone => (s.updCmd seq fun c => { c with hook := none, raw := none }).enter seq

/-- Apply an end to what the invocation was for. The state, and whether the result was in range (R439, R440, R446). -/
def State.hookApply (s : State) (a : Attachment) (i : Invocation) (r : HookEnd) : State × Bool :=
  if i.discard then (s, r != .failure)
  else
    match a.hook, i.cmd with
    | 0, some seq =>
      match r with
      | .result 0 _ _ => (s.admissionResult seq a.failAction (some (0, 0)), true)
      | .result 1 g2 _ =>
        if g2 < 64 then (s.admissionResult seq a.failAction (some (1, g2)), true)
        else (s.admissionResult seq a.failAction none, false)
      | .gone => (s.admissionResult seq a.failAction (some (0, 0)), true)
      | _ => (s.admissionResult seq a.failAction none, false)
    | 1, some seq =>
      match r with
      | .result g1 _ _ =>
        let ok := match s.cmd seq with
          | some c => decide (1 ≤ g1 ∧ g1 < 8) && bitOf (s.qp c.qp).mask g1
          | none => false
        (s.classResult seq (some g1), ok)
      | .gone => ((s.updCmd seq fun c => { c with hook := none }).police seq, true)
      | .failure => (s.classResult seq none, false)
    | 3, some seq => (s.personalityEnd seq r, r != .failure)
    | _, _ =>
      match r with
      | .result 0 _ _ => (s, true)
      | .result 1 _ out => s.policyResult a.target out
      | .gone => (s, true)
      | _ => (s, false)

/-- The invocations that wait for attachment `att` end so, in arrival order. -/
def State.endWaiting (s : State) (att : Nat) (a : Attachment) (r : HookEnd) : State :=
  let mine (i : Invocation) : Bool := i.att == att && i.thread.isNone
  let is := s.fct.invs.filter mine
  let s : State := { s with fct := { s.fct with invs := s.fct.invs.filter fun i => !mine i } }
  is.foldl (fun s i => (s.hookApply a i r).1) s

/-- A failure of attachment `att` (R446): FCT_EXT_FAIL counts, and the 64th within 1 s of Gnomon time suspends it. -/
def State.hookFailed (s : State) (att : Nat) : State :=
  let s := s.count .fctExtFail
  match tblFind s.fct.atts att with
  | none => s
  | some a =>
    let now := s.gnmNs
    let fails := (now :: a.fails.filter fun t => decide (now < t + 1000000000)).take 64
    let full := decide (64 ≤ fails.length) && !a.suspended
    let a : Attachment := { a with fails, suspended := a.suspended || full }
    let s : State := { s with fct := { s.fct with atts := tblIns s.fct.atts att a } }
    if full then ((s.event .fct).touch).endWaiting att a .failure else s

/-- DETACH_HOOK comes to its end once no invocation of the attachment runs (R447, R453). -/
def State.detachCheck (s : State) (att : Nat) : State :=
  match tblFind s.fct.atts att with
  | none => s
  | some a =>
    match a.detach with
    | none => s
    | some seq =>
      if s.fct.invs.any fun i => i.att == att then s
      else
        let s : State := { s with fct := { s.fct with atts := tblDel s.fct.atts att } }
        if a.kind = 0 then (s.cfgPut 0x0D att none).bothForce seq [(0x0D, att)] 0 else s.bothForce seq [] 0

/-- The invocation that runs on thread `t` of engine `e` ends (R438, R444, R446). -/
def State.invEnd (s : State) (e t : Nat) (r : HookEnd) : State :=
  match s.fct.invs.find? fun i => i.engine == e && i.thread == some t with
  | none => s
  | some i =>
    let s : State := { (s.pmc e t 0x11 1) with fct := { (s.pmc e t 0x11 1).fct with
      invs := rmFirst (fun i => i.engine == e && i.thread == some t) s.fct.invs } }
    match tblFind s.fct.atts i.att with
    | none => s
    | some a =>
      let (s, ok) := s.hookApply a i r
      ((if ok then s else s.hookFailed i.att).detachCheck i.att).flow

/-- A HOOK_CALL starts the oldest invocation that waits on engine `e` (R444). -/
def State.invStart (s : State) (e t : Nat) : State :=
  if s.fct.invs.any fun i => i.engine == e && i.thread.isNone then
    { (s.count .fctExtRun) with fct := { s.fct with
      invs := updFirst (fun i => i.engine == e && i.thread.isNone) (fun i => { i with thread := some t }) s.fct.invs } }
  else s

end Sys2Proof.Machine
end

