-- ==== Sys2Proof/Machine/FctCore.lean ====
section
/-! DEFINITION. Threads at work: events and WAIT (R433, R492), mailboxes (R430 to R432, R483), traps (R434 to R438),
pre-emption (R533 to R537), and what every instruction does around its own effect (R466, R467, R475). -/

namespace Sys2Proof.Machine

/-! ### Outstanding work and halting (R482, R496) -/

/-- DMADs outstanding and ACC requests pending of a thread (R484, R487). -/
def State.dmaOut (s : State) (e t : Nat) : Nat := (s.fct.descs.filter fun d => d.2.engine == e && d.2.thread == t).length
def State.accOut (s : State) (e t : Nat) : Nat :=
  ((s.clu (e / 12)).acc.filter fun a => a.engine == e && a.thread == t).length

/-- A thread that sent HOOK_RETURN halts once its work has ended (R482). -/
def State.haltCheck (s : State) (e t : Nat) : State :=
  let x := s.thr e t
  if x.halting && s.dmaOut e t == 0 && s.accOut e t == 0 then s.setThr e t { x with state := .halted, halting := false }
  else s

/-! ### Retiring (R424, R434, R454, R534) -/

/-- The threads pre-empted for reserved thread `t` are READY again (R534). -/
def State.unpreempt (s : State) (e t : Nat) : State :=
  if t < 14 then s
  else (List.range 14).foldl (fun s u =>
    let x := s.thr e u
    if x.by_ = some t then s.setThr e u { x with state := .ready, by_ := none, resume := true } else s) s

/-- The record of a tagged instruction is written, and what it met is forgotten (R456). -/
def State.tagEnd (s : State) (e t : Nat) (trapped : Bool) : State :=
  let x := s.thr e t
  let s := if x.tagged then s.sample e t x.pc x.daddr (x.met + 32 * b2n trapped) false x.umode else s
  s.updThr e t fun x => { x with tagged := false, met := 0, daddr := 0, resume := false }

/-- An instruction retires (R445, R454): it counts, also against the BUDGET of an invocation in U mode. The PC moves. -/
def State.retire (s : State) (e t : Nat) (target : Option DWord) : State :=
  let s := (s.pmc e t 0x01 1).tagEnd e t false
  let x := s.thr e t
  let s := s.setThr e t { x with pc := target.getD (x.pc + 4) }
  let bump (i : Invocation) : Invocation :=
    if x.umode ∧ i.engine = e ∧ i.thread = some t then { i with retired := i.retired + 1 } else i
  let s : State := { s with fct := { s.fct with invs := s.fct.invs.map bump } }
  s.unpreempt e t

/-! ### Events and WAIT (R433, R492) -/

/-- The events pending of a thread (R433). -/
def State.eventsOf (s : State) (e t : Nat) : BitVec 16 :=
  let x := s.thr e t
  let q := (List.range 64).any fun i =>
    (x.csrAt 0x8B).getLsbD i && !(tblGet [] (s.clu (e / 12)).queues i).isEmpty
  x.latched ||| (if x.inbox.isEmpty then 0#16 else 1#16)
    ||| (if (x.csrAt 0x40).toNat ≤ s.gnmNs then 8#16 else 0#16)
    ||| (if q && !x.umode then 32#16 else 0#16)

/-- The thread with the latched events of `ev` cleared (R433). -/
def Thread.clearEvents (x : Thread) (ev : BitVec 16) : Thread := { x with latched := x.latched &&& ~~~ev }

/-- A WAITING thread returns as soon as an event in its mask is pending (R433, R492); while its cluster stalls it stands at
its WAIT (R427, R494). -/
def State.wakeThread (s : State) (e t : Nat) : State :=
  let x := s.thr e t
  match x.wait with
  | none => s
  | some w =>
    let ev := s.eventsOf e t &&& w.mask
    if ev = 0#16 ∨ s.clusterStalled (clusterOf e) then s
    else
      let y := ({ x with state := .ready, wait := none } : Thread).clearEvents ev
      let rd : Fin 32 := Fin.ofNat 32 w.rd
      ((s.setThr e t (y.setReg rd (ev.setWidth 64))).pmc e t 0x0D (2 * (s.now - w.since))).retire e t none

/-- Latch an event of a thread (R433). -/
def State.latch (s : State) (e t bit : Nat) : State :=
  (s.updThr e t fun x => { x with latched := x.latched ||| (1#16 <<< bit) }).wakeThread e t

/-- TIMER_EVENT (R433): Gnomon time reaches the thread's TIMER. -/
def State.timerEvent (s : State) (e t : Nat) : State :=
  if s.readsOn 164 then (s.advanceGnm ((s.thr e t).csrAt 0x40).toNat).wakeThread e t else s

/-! ### Mailboxes (R430 to R432, R483) -/

/-- The messages of mailbox `n` of cluster `c`. -/
def State.mbox (s : State) (c n : Nat) : List Message :=
  if n < 192 then (s.thr (12 * c + n / 16) (n % 16)).inbox else tblGet [] (s.clu c).queues (n - 192)

/-- The state with a mailbox's messages replaced. -/
def State.setMbox (s : State) (c n : Nat) (l : List Message) : State :=
  if n < 192 then s.updThr (12 * c + n / 16) (n % 16) fun x => { x with inbox := l }
  else
    let k := s.clu c
    s.setClu c { k with queues := tblPut [] k.queues (n - 192) l }

/-- Messages a mailbox holds (R431). -/
def mboxCap (n : Nat) : Nat := if n < 192 then 16 else 256

/-- The mailbox has a free slot. -/
def State.mboxRoom (s : State) (c n : Nat) : Bool := decide ((s.mbox c n).length < mboxCap n)

/-- The WAITs of a cluster's threads for which an event is pending return. -/
def State.wakeCluster (s : State) (c : Nat) : State :=
  ((List.range 12).flatMap fun i => (List.range 16).map fun t => (12 * c + i, t)).foldl
    (fun s p => if (s.thr p.1 p.2).wait.isSome then s.wakeThread p.1 p.2 else s) s

/-- Deliver a message, and let the WAITs that it ends return (R483). -/
def State.deliver (s : State) (c n : Nat) (m : Message) : State :=
  let s := s.setMbox c n (s.mbox c n ++ [m])
  if n < 192 then s.wakeThread (12 * c + n / 16) (n % 16) else s.wakeCluster c

/-- A hardware message: it is held on the command fabric while its mailbox is full or another waits before it (R432,
R483). -/
def State.hwSend (s : State) (c n : Nat) (m : Message) : State :=
  let k := s.clu c
  if s.mboxRoom c n && !(k.held.any fun h => h.1 == n) then s.deliver c n m
  else s.setClu c { k with held := k.held ++ [(n, m)] }

/-- A slot freed in a mailbox goes to the oldest hardware message waiting for it (R483). -/
def State.refill (s : State) (c n : Nat) : State :=
  let k := s.clu c
  match k.held.find? fun h => h.1 == n with
  | some h =>
    if s.mboxRoom c n then (s.setClu c { k with held := rmFirst (fun h => h.1 == n) k.held }).deliver c n h.2 else s
  | none => s

/-- The mailbox number of a thread's inbox (R430). -/
def inboxNo (e t : Nat) : Nat := e / 12 * 256 + 16 * (e % 12) + t

/-! ### Traps (R434 to R438) -/

/-- The `n` bytes, within one 64-byte line, that thread `t` of engine `e` would load at `va`; none without a valid
translation. -/
def State.peek (s : State) (e t va n : Nat) : Bytes :=
  match (s.lookup e t va).2 with
  | none => []
  | some y =>
    let pa := y.ppage + (va - y.vpage)
    match tblFind (s.eng e).dcache (pa / 64) with
    | some l => (l.bytes.drop (pa % 64)).take n
    | none => s.mem.readN pa n

/-- A trap of thread `t` of engine `e`: TPC, TCAUSE, TINFO and STATUS are written and the handler at TENTRY runs in K mode
(R436); in the handler it is a double trap (R437); in U mode it ends the invocation, and TRAP 0 returns its result from g1,
g2 and the output page (R438, R442, R444). -/
def State.trapTo (s : State) (e t : Nat) (tr : Trap) : State :=
  let info : DWord := match tr.info with | some v => BitVec.ofNat 64 v | none => Config.trapInfo s.draws
  let s := s.drew (b2n tr.info.isNone)
  let was := (s.thr e t).umode
  let out := if was then s.peek e t 0x2001000 64 else []
  let s := (s.pmc e t 0x07 1).tagEnd e t true
  let s := if was then s else s.count .fctTrap
  let x := s.thr e t
  if x.intrap then
    ((s.setThr e t { x with state := .halted, wait := none }).unpreempt e t).fatal 1 (siteThread e t) x.pc.toNat false
  else
    let y := ((((x.setCsr 0x82 (x.pc &&& ~~~3#64)).setCsr 0x83 (BitVec.ofNat 64 tr.cause)).setCsr 0x84 info).setCsr 0x80
      (if was then 3#64 else 1#64))
    let s := (s.setThr e t { y with umode := false, pc := y.csrAt 0x81, state := .ready, wait := none }).unpreempt e t
    if !was then s
    else if tr.cause = 0x0A ∧ tr.info = some 0 then s.invEnd e t (.result (y.reg 1).toNat (y.reg 2).toNat out)
    else s.invEnd e t .failure

/-- The address of a thread's pre-emption record (R506, R535). -/
def State.recordAt (s : State) (e t : Nat) : Nat := 0x4000000 + e * 0x40000 + bitsOf ((s.thr e t).csrAt 0x8F).toNat 17 8 * 256

/-- The record that a resumed thread reads back: KIND, PROGRESS, DEST and MESSAGE (R535); none where it does not
resume. -/
def State.resumed (s : State) (e t : Nat) : Option (Nat × Nat × Nat × Bytes) :=
  if (s.thr e t).resume then
    let b := s.mem.readN (s.recordAt e t) 192
    some (byteAt b 8, leAt b 16 8, leAt b 24 8, (b.drop 64).take 128)
  else none

/-- The thread has a saved instruction to complete first (R535, R538): a QPOP past its take, a FENCE past a line. -/
def State.savedInstr (s : State) (e t : Nat) : Bool :=
  match s.resumed e t with
  | some (k, _) => k == 1 || k == 2
  | none => false

/-- The oldest pending DMA_FAULT of a thread is taken (R529, R538): of a WAITING thread, at its WAIT; of a resumed one, once
a saved instruction has completed. -/
def State.dmaTrap (s : State) (e t : Nat) : State :=
  let x := s.thr e t
  match x.faults with
  | v :: rest =>
    if !x.intrap && (x.state == .ready || x.state == .waiting) && !s.savedInstr e t then
      (s.setThr e t { x with faults := rest }).trapTo e t ⟨0x08, some v.toNat⟩
    else s
  | [] => s

/-! ### Issue (R424, R425, R456, R466) -/

/-- What the effect of an instruction comes to: it retires, going on at a target where it names one; it traps; it
neither retires nor traps yet; or it is pre-empted, which comes before a trap (R538). The state of a trap carries no effect but on caches, TLBs and counters (R434). -/
inductive Res where
  | retire (s : State) (target : Option DWord := none)
  | trap (s : State) (tr : Trap)
  | hold (s : State)
  | cut (s : State)

/-- Engine `e` runs its threads: it is present, its island is ON, and no fatal stop holds it (R417, R425, R688). -/
def State.engineRuns (s : State) (e : Nat) : Bool :=
  Config.enginePresent s.variant e && s.readsOn (96 + e) && s.sys.fatal.isNone && !s.clusterStalled (clusterOf e)

/-- The first of `ts` that is READY, counting from the one after `last`; one that executed YIELD gives way to another that is
READY (R424, R493). -/
def State.firstReady (s : State) (e last : Nat) (ts : List Nat) : Option Nat :=
  let r := ts.filter fun t => (s.thr e t).state == .ready
  let first := r.filter fun t => !(s.thr e t).yielded
  let r := if first.isEmpty then r else first
  (r.find? fun t => decide (last < t)).or r.head?

/-- The thread from which engine `e` issues (R424): of 14 and 15, else of 0 to 13. -/
def State.issueThread (s : State) (e : Nat) : Option Nat :=
  (s.firstReady e (s.eng e).lastHigh [14, 15]).or (s.firstReady e (s.eng e).lastLow (List.range 14))

/-- The next interval between tags, in issued instructions (R456). -/
def State.tagInterval (s : State) : Nat :=
  let p := max 256 (s.field .pmcSmpPeriod 23 0)
  p / 2 + Config.tagDraw s.draws % (p + 1)

/-- The bookkeeping of an issue: who issued last (R424), the YIELDs that it ends (R493), event 0x0E (R454), the tag
countdown and the skid samples due (R456). -/
def State.issued (s : State) (e t : Nat) : State :=
  let g := s.eng e
  let hi := decide (14 ≤ t)
  let low := (List.range 14).any fun u => (s.thr e u).state == .ready
  let s := s.setEng e (if hi then { g with lastHigh := t } else { g with lastLow := t })
  let s := (if hi then [14, 15] else List.range 14).foldl (fun s u =>
    let x := s.thr e u
    if x.yielded && u != t && x.state == .ready then s.setThr e u { x with yielded := false } else s) s
  let s := if hi && low then s.pmc e t 0x0E 1 else s
  let x := s.thr e t
  let s := (List.range x.skid).foldl (fun s _ => s.sample e t x.pc 0 0 true x.umode) s
  let s := s.setThr e t { s.thr e t with skid := 0 }
  if !(Config.tagging s.variant && s.bit .pmcSmpCtl 0) then s
  else
    let g := s.eng e
    match g.tagIn with
    | none => (s.setEng e { g with tagIn := some s.tagInterval }).drew
    | some (n + 1) => s.setEng e { g with tagIn := some n }
    | some 0 =>
      ((s.setEng e { g with tagIn := some s.tagInterval }).updThr e t fun x => { x with tagged := true }).drew

/-- The invocation on a thread has retired its BUDGET (R445). -/
def State.budgetSpent (s : State) (e t : Nat) : Bool :=
  (s.thr e t).umode && s.fct.invs.any fun i => i.engine == e && i.thread == some t &&
    (match tblFind s.fct.atts i.att with | some a => decide (a.budget ≤ i.retired) | none => false)

/-- The guard holds (R466). -/
def Thread.guardOn (x : Thread) (g : Guard) : Bool := x.pred g.p != g.neg

/-- The record of R535. -/
def recordBytes (pc : DWord) (kind progress dest : Nat) (msg : Bytes) : Bytes :=
  toLe pc.toNat 8 ++ toLe kind 1 ++ zeros 7 ++ toLe progress 8 ++ toLe dest 8 ++ zeros 32
    ++ (if msg.isEmpty then zeros 128 else msg) ++ zeros 64

/-- The thread is pre-empted for reserved thread `r` (R533 to R535, R537). -/
def State.preempt (s : State) (e t r kind progress dest : Nat) (msg : Bytes) : State :=
  let s := ((s.pmc e t 0x06 1).meets e t 4).count .mmuPreempt
  let x := s.thr e t
  (s.store (s.recordAt e t) (recordBytes x.pc kind progress dest msg)).setThr e t
    { x with state := .preempted, by_ := some r, resume := false }

/-- A pre-emption of thread `t` can happen: a reserved thread that is READY needs the port (R533). -/
def State.cutOk (s : State) (e t : Nat) : Option Cut → Option Cut
  | some c => if t < 14 ∧ (c.by_ = 14 ∨ c.by_ = 15) ∧ (s.thr e c.by_).state = .ready then some c else none
  | none => none

/-- An instruction of thread `t` of engine `e` (R424, R466, R467): it issues where the order of R424 has its thread issue, or
where it is about to be pre-empted by a thread that has become READY since (R533); it is fetched; an ILLEGAL word traps
whatever its guard; a guarded-off one only retires; one that would retire beyond BUDGET traps (R445). A pending DMA_FAULT is
taken before it (R529). `cancels` says that the pre-emption comes before its commit point: it has no effect and counts in no
event but 0x06 (R533, R537, R538). -/
def State.instr (s : State) (e t : Nat) (g : Guard) (illegal : Bool) (body : State → Res) (pre : Option Cut := none)
    (cancels : Bool := false) : State :=
  let x := s.thr e t
  let cut := s.cutOk e t pre
  if !(s.engineRuns e && decide (t < 16) && x.state == .ready && (s.issueThread e == some t || cut.isSome)) then s
  else if !x.faults.isEmpty && !x.intrap && !s.savedInstr e t then s.dmaTrap e t
  else
    let s := s.issued e t
    match s.access e t .fetch false x.pc.toNat with
    | (s, .error tr) => s.trapTo e t tr
    | (f, .ok pa) =>
      match cut.filter fun _ => cancels && !illegal && x.guardOn g with
      | some c => s.preempt e t c.by_ 0 0 0 []
      | none =>
        let s := f.fetchLine e t pa
        if illegal then s.trapTo e t ⟨0x01, none⟩
        else
          let r := if (s.thr e t).guardOn g then body s else .retire s none
          match r with
          | .trap s' tr => s'.trapTo e t tr
          | .retire s' target => if s.budgetSpent e t then s.trapTo e t ⟨0x0C, none⟩ else s'.retire e t target
          | .hold s' => if s.budgetSpent e t then s.trapTo e t ⟨0x0C, none⟩ else s'
          | .cut s' => s'

/-- As `instr`, for an effect on the thread alone: registers, predicates and the target of a branch. -/
def State.instrRegs (s : State) (e t : Nat) (g : Guard) (illegal : Bool) (f : Thread → Thread) : State :=
  s.instr e t g illegal fun s => .retire (s.updThr e t f) none

end Sys2Proof.Machine
end

