-- ==== Sys2Proof/Machine/FctMail.lean ====
section
/-! DEFINITION. Facet mailbox instructions: QPOP, QPUSH and QHOOK (R479 to R483). -/

namespace Sys2Proof.Machine

/-- Check the `k` 64-byte lines of an operand at `va`, which must be aligned to `al` (R475): their physical addresses. -/
def State.lines64 (s : State) (e t : Nat) (n : Need) (va : Nat) : Nat → State × Except Trap (List Nat)
  | 0 => (s, .ok [])
  | k + 1 =>
    match s.access e t n false va with
    | (s, .error tr) => (s, .error tr)
    | (s, .ok pa) =>
      match s.lines64 e t n (va + 64) k with
      | (s, .error tr) => (s, .error tr)
      | (s, .ok l) => (s, .ok (pa :: l))

/-- As `lines64`, after the check of alignment (R475 step 1). -/
def State.operand (s : State) (e t : Nat) (n : Need) (va al k : Nat) : State × Except Trap (List Nat) :=
  if va % al ≠ 0 then (s, .error ⟨0x03, some va⟩) else s.lines64 e t n va k

/-- The bytes of checked lines. -/
def State.loadLines (s : State) (e t : Nat) : List Nat → State × Bytes
  | [] => (s, [])
  | p :: l =>
    let (s, b) := s.loadLine e t p 64
    let (s, c) := s.loadLines e t l
    (s, b ++ c)

/-- Store bytes from `from_` up to but not including `upto` of a string into checked lines. -/
def State.storeLines (s : State) (e t : Nat) (b : Bytes) (from_ upto : Nat) : Nat → List Nat → State
  | _, [] => s
  | i, p :: l =>
    let lo := max from_ (64 * i)
    let hi := min upto (64 * i + 64)
    let s := if lo < hi then s.storeLine e t (p + (lo - 64 * i)) ((b.drop lo).take (hi - lo)) else s
    s.storeLines e t b from_ upto (i + 1) l

/-! ### QPOP (R479, R480) -/

/-- The local mailbox a QPOP takes from; the trap where it is not permitted (R480). -/
def State.popFrom (s : State) (e t : Nat) (own : Bool) (rb : DWord) : Except Trap Nat :=
  let m := rb.toNat % 2 ^ 16
  if own then .ok (16 * (e % 12) + t)
  else if (s.thr e t).umode || m / 256 != e / 12 || decide (m % 256 < 192) then .error ⟨0x02, none⟩
  else if m % 256 = 255 ∧ t < 14 then .error ⟨0x02, none⟩
  else .ok (m % 256)

/-- The effect of QPOP. -/
def State.qpop (s : State) (e t : Nat) (pd : Fin 8) (ra rb : Fin 32) (own : Bool) (pre : Option Cut) : Res :=
  let x := s.thr e t
  match s.resumed e t with
  | some (1, n, dest, msg) =>
    .retire ((s.storeLines e t msg n 128 0 [dest, dest + 64]).updThr e t fun x => x.setPred pd true)
  | _ =>
    match s.popFrom e t own (x.reg rb) with
    | .error tr => .trap s tr
    | .ok n =>
      match s.operand e t .store (x.reg ra).toNat 64 2 with
      | (s, .error tr) => .trap s tr
      | (s, .ok ps) =>
        let c := e / 12
        match s.mbox c n with
        | [] => .retire (s.updThr e t fun x => x.setPred pd false)
        | m :: rest =>
          let s := ((s.setMbox c n rest).refill c n).pmc e t 0x08 1
          match s.cutOk e t pre with
          | some r =>
            let k := min (r.progress.getD 0) 128
            .cut ((s.storeLines e t m.bytes 0 k 0 ps).preempt e t r.by_ 1 k (ps.headD 0) m.bytes)
          | none => .retire ((s.storeLines e t m.bytes 0 128 0 ps).updThr e t fun x => x.setPred pd true)

def execQpop (e t : Nat) (g : Guard) (pd : Fin 8) (ra rb : Fin 32) (own : Bool) (pre : Option Cut) (s : State) :
    Outcome :=
  .next (s.instr e t g (own && rb != 0) (fun s => s.qpop e t pd ra rb own pre) pre
    ((pre.all fun c => c.progress.isNone) && !s.savedInstr e t))

/-! ### QPUSH (R481) -/

/-- A message with bytes 2 and 3, its SOURCE, set to the sender's mailbox (R431, R481). -/
def withSource (b : Bytes) (e t : Nat) : Bytes := b.take 2 ++ toLe (inboxNo e t) 2 ++ b.drop 4

/-- A mailbox number names an absent engine (R430). -/
def State.mboxAbsent (s : State) (m : Nat) : Bool :=
  decide (m % 256 < 192) && !Config.enginePresent s.variant (12 * (m / 256) + m % 256 / 16)

/-- The target takes Class 0 messages: the inbox of a thread 14 or 15, or cluster queue 63 (R432). -/
def mboxC0 (n : Nat) : Bool := n == 255 || (decide (n < 192) && decide (14 ≤ n % 16))

/-- The effect of QPUSH. -/
def State.qpush (s : State) (e t : Nat) (pd : Fin 8) (ra rb : Fin 32) : Res :=
  let x := s.thr e t
  let m := (x.reg rb).toNat % 2 ^ 16
  let c := m / 256
  let n := m % 256
  if x.umode then .trap s ⟨0x02, none⟩
  else if 4 ≤ c then .trap s ⟨0x0D, none⟩
  else if s.mboxAbsent m then .trap s ⟨0x09, none⟩
  else
    match s.operand e t .load (x.reg ra).toNat 64 2 with
    | (s, .error tr) => .trap s tr
    | (s, .ok ps) =>
      let (s, b) := s.loadLines e t ps
      let ty := byteAt b 0
      let c0 := bitOf (byteAt b 1) 0
      if ty < 0x10 ∨ 0x7F < ty then .trap s ⟨0x0D, none⟩
      else if (c0 && !(decide (14 ≤ t) && mboxC0 n)) || (!c0 && n == 255) then .trap s ⟨0x0D, none⟩
      else
        if s.mboxRoom c n && !((s.clu c).held.any fun h => h.1 == n) then
          .retire (((s.deliver c n { bytes := withSource b e t }).pmc e t 0x09 1).updThr e t fun x => x.setPred pd true)
        else .retire (s.updThr e t fun x => x.setPred pd false)

def execQpush (e t : Nat) (g : Guard) (pd : Fin 8) (ra rb : Fin 32) (pre : Option Cut) (s : State) : Outcome :=
  .next (s.instr e t g false (fun s => s.qpush e t pd ra rb) pre true)

/-! ### QHOOK (R482) -/

/-- A thread starts an invocation: K mode at its TENTRY with INTRAP 1, PMODE 1 and TCAUSE 0, its latched events cleared
(R482). -/
def Thread.hookStart (x : Thread) : Thread :=
  let y := (x.setCsr 0x80 3#64).setCsr 0x83 0#64
  { y with state := .ready, umode := false, pc := y.csrAt 0x81, latched := 0#16 }

/-- The effect of QHOOK: HOOK_CALL (`ret` false) or HOOK_RETURN. -/
def State.qhook (s : State) (e t : Nat) (pd : Fin 8) (ra rb : Fin 32) (ret : Bool) : Res :=
  let x := s.thr e t
  let m := (x.reg rb).toNat % 2 ^ 16
  let c := e / 12
  let n := m % 256
  let own := decide (m / 256 = c ∧ n < 192 ∧ n / 16 = e % 12)
  let u := n % 16
  let ext (u : Nat) : Bool := u == 12 || u == 13
  let no (s : State) : Res := .retire (s.updThr e t fun x => x.setPred pd false)
  if x.umode then .trap s ⟨0x02, none⟩
  else if !own || (if ret then !ext t else !ext u) then .trap s ⟨0x0D, none⟩
  else
    match s.operand e t .load (x.reg ra).toNat 64 2 with
    | (s, .error tr) => .trap s tr
    | (s, .ok ps) =>
      let (s, b) := s.loadLines e t ps
      let msg : Message := { bytes := toLe (if ret then 5 else 4) 1 ++ (withSource b e t).drop 1 }
      if !s.mboxRoom c n || ((s.clu c).held.any fun h => h.1 == n) then no s
      else if ret then
        let s := ((s.deliver c n msg).pmc e t 0x09 1).updThr e t fun x =>
          { (x.setPred pd true) with state := .blocked, halting := true }
        .retire (s.haltCheck e t)
      else if (s.thr e u).state ≠ .halted then no s
      else
        let s := ((s.deliver c n msg).pmc e t 0x09 1).updThr e u Thread.hookStart
        .retire ((s.invStart e u).updThr e t fun x => x.setPred pd true)

def execQhook (e t : Nat) (g : Guard) (pd : Fin 8) (ra rb : Fin 32) (ret : Bool) (pre : Option Cut) (s : State) :
    Outcome :=
  .next (s.instr e t g false (fun s => s.qhook e t pd ra rb ret) pre true)

end Sys2Proof.Machine
end

