-- ==== Sys2Proof/Machine/FctDma.lean ====
section
/-! DEFINITION. DMA descriptors: DMAD and the end of a descriptor (R484 to R486, R518, R519, R524 to R532). -/

namespace Sys2Proof.Machine

/-! ### The checks at issue (R485, R518, R524, R526, R530) -/

/-- The fields of a descriptor (R485). -/
structure DescFields where
  op : Nat
  flags : Nat
  sides : Nat
  len : Nat
  done : Nat
  srcKey : Nat
  dstKey : Nat
  srcAddr : Nat
  dstAddr : Nat
  rest0 : Bool
deriving DecidableEq, Repr

/-- The fields of 64 bytes (R485). -/
def descFields (b : Bytes) : DescFields :=
  { op := byteAt b 0, flags := byteAt b 1, sides := byteAt b 3, len := leAt b 4 4, done := leAt b 8 8,
    srcKey := leAt b 16 4, dstKey := leAt b 20 4, srcAddr := leAt b 24 8, dstAddr := leAt b 32 8,
    rest0 := zeroAt b 48 16 }

/-- SRC_KIND and DST_KIND (R485). -/
def DescFields.srcKind (f : DescFields) : Nat := f.sides % 4
def DescFields.dstKind (f : DescFields) : Nat := f.sides / 4 % 4

/-- The descriptor ends with FORMAT (R485, R486, R524); C0 is for threads 14 and 15 only. -/
def DescFields.bad (f : DescFields) (t : Nat) : Bool :=
  !(f.op == 1 || f.op == 2) || decide (1 < f.flags) || (f.flags == 1 && decide (t < 14)) || decide (16 ≤ f.sides)
    || f.srcKind == 3 || f.dstKind == 3 || decide (2097152 < f.len) || !f.rest0
    || (f.op == 2 && !(f.srcKind == 0 && f.srcKey == 0 && f.srcAddr == 0))
    || (f.srcKind != 1 && f.srcKey != 0) || (f.dstKind != 1 && f.dstKey != 0)
    || !(decide (f.done < f.len) || (f.done == 0 && f.len == 0))

/-- A side from its kind (R485). -/
def sideOf (kind key addr : Nat) (translated : Bool) : DescSide :=
  match kind with
  | 0 => if translated then .virt addr else .phys addr
  | 1 => .key key addr
  | _ => .stream (addr % 2 ^ 32) (addr / 2 ^ 32)

/-- A physical range lies in scratch, shared SRAM or fitted HBM (R526). -/
def State.memoryRange (s : State) (a n : Nat) : Bool :=
  let z := a + n
  decide (0x1000000000 ≤ a ∧ z ≤ s.hbmEnd) || decide (0x8000000 ≤ a ∧ z ≤ 0xA000000)
    || (decide (0x4000000 ≤ a ∧ z ≤ 0x4C00000) && (List.range 48).all fun e =>
        Config.enginePresent s.variant e || decide (z ≤ 0x4000000 + e * 0x40000 ∨ 0x4040000 + e * 0x40000 ≤ a))

/-- The tenant whose keys a U-mode DMAD may name: its attachment's (R428, R518). -/
def State.attTenant (s : State) (e t : Nat) : Option Nat :=
  (s.fct.invs.find? fun i => i.engine == e && i.thread == some t).bind fun i =>
    (tblFind s.fct.atts i.att).map fun a => a.tenant

/-- A key side passes its check over the whole range (R518). -/
def State.descKeyOk (s : State) (e t mkey : Nat) (wr : Bool) (a n : Nat) : Bool :=
  s.keyOk mkey wr a n
    && (!(s.thr e t).umode || s.attTenant e t == some (s.keyAt (keyIndex mkey)).tenant)

/-- A cell-stream side passes its check (R530). -/
def State.streamOk (s : State) (c handle off n : Nat) (c0 : Bool) : Bool :=
  match tblFind s.fct.streams handle with
  | none => false
  | some x => x.cluster == c && off % 256 == 0 && n % 256 == 0 && decide (off + n ≤ x.len) && x.c0 == c0

/-- A side fails with KEY at issue (R524); `wr` says that it is the destination. -/
def State.sideFails (s : State) (e t : Nat) (x : DescSide) (wr : Bool) (n : Nat) (c0 : Bool) : Bool :=
  match x with
  | .zero | .virt _ => false
  | .phys a => !s.memoryRange a n
  | .key k a => !s.descKeyOk e t k wr a n
  | .stream h off => !s.streamOk (e / 12) h off n c0

/-- The address whose 4 KiB boundaries cut chunks (R525). -/
def DescSide.addr : DescSide → Option Nat
  | .zero => none
  | .virt a | .phys a | .key _ a => some a
  | .stream _ off => some off

/-- Bytes from offset `off` to the next 4 KiB boundary of a side (R524). -/
def DescSide.toEdge (x : DescSide) (off : Nat) : Nat :=
  match x.addr with
  | some a => 4096 - (a + off) % 4096
  | none => 4096

/-! ### Translation of chunks (R524, R525) -/

/-- The physical address of a memory side at offset `off`: or the status and fault bit 1 with which its chunk fails. -/
def State.sideAt (s : State) (d : Desc) (umode : Bool) (asid root : Nat) (x : DescSide) (off : Nat) (wr : Bool) :
    State × Except (Nat × Nat) Nat :=
  match x with
  | .phys a => (s, .ok (a + off))
  | .virt a =>
    let va := a + off
    if 2 ^ 48 ≤ va then (s, .error (2, 0))
    else
      let (s, r, _) := s.clLookup (d.engine / 12) root va asid
      match r with
      | none => (s, .error (2, 0))
      | some y =>
        match (if wr then Need.store else Need.load).check y.flags umode with
        | some _ => (s, .error (2, 2))
        | none =>
          let pa := y.ppage + (va - y.vpage)
          if s.memoryRange pa 1 then (s, .ok pa) else (s, .error (3, 0))
  | _ => (s, .ok 0)

/-- Translate and start the chunks from offset `off` up to `len` (R524): a chunk that fails ends it. -/
def State.startChunks (s : State) (umode : Bool) (asid root len : Nat) : Nat → Nat → Desc → State × Desc
  | 0, _, d => (s, d)
  | k + 1, off, d =>
    if len ≤ off then (s, { d with done := len, status := 1 })
    else
      let n := min (len - off) (min (d.src.toEdge off) (d.dst.toEdge off))
      match s.sideAt d umode asid root d.src off false with
      | (s, .error (st, f)) => (s, { d with done := off, status := st, fault := f })
      | (s, .ok a) =>
        match s.sideAt d umode asid root d.dst off true with
        | (s, .error (st, f)) => (s, { d with done := off, status := st, fault := f + 1 })
        | (s, .ok b) =>
          s.startChunks umode asid root len k (off + n)
            { d with chunks := d.chunks ++ [{ off, n, src := a, dst := b }] }

/-! ### Reading a source through a face (R517) -/

/-- Have `n` bytes at `a` of a key read for descriptor `id` (R296, R334, R276). -/
def State.descRead (s : State) (id mkey a n : Nat) : State :=
  let k := s.keyAt (keyIndex mkey)
  match k.kind with
  | 0 => s.epRead (k.binding % 64) (k.target + (a - k.base)) n fun o => .desc id o
  | 1 =>
    let c := k.binding % 2 ^ 16
    let y := s.odtConn c
    let ask : OdtAsk := { seq := 0, qp := 0, tag := y.nextTag, len := n, desc := some id, mkey, addr := a }
    (s.setOdt c { y with asks := y.asks ++ [ask], nextTag := (y.nextTag + 1) % 2 ^ 32 }).odtCtl c 0 0
      (.dataPull y.nextTag n mkey a) (s.descClass id)
  | 2 => s.roceSend (k.binding % 2 ^ 14) (.readDesc (s.descClass id) id (k.target + (a - k.base)) k.rkey n)
  | _ => s

/-- A side whose face cannot be reached now: the status (R333, R486). -/
def State.sideDown (s : State) (x : DescSide) : Option Nat :=
  match x with
  | .key k _ => if s.keyReach k then none else if (s.keyAt (keyIndex k)).kind = 0 then some 4 else some 5
  | _ => none

/-- The source bytes come through a face. -/
def State.fromFace (s : State) (d : Desc) : Bool :=
  match d.src with
  | .key k _ => (s.keyAt (keyIndex k)).kind != 3
  | _ => false

/-- The keys of the sides. -/
def Desc.mkeys (d : Desc) : List Nat := ([d.src, d.dst]).filterMap DescSide.mkey

/-- A descriptor is issued (R484, R524): it joins those outstanding with what it will end with. -/
def State.descIssue (s : State) (e t va pa : Nat) (b : Bytes) : State :=
  let f := descFields b
  let x := s.thr e t
  let translated := x.umode || (x.csrAt 0x8E).getLsbD 0
  let c0 := f.flags == 1
  let d : Desc := {
    engine := e, thread := t, va, pa, c0
    src := if f.op = 2 then .zero else sideOf f.srcKind f.srcKey f.srcAddr translated
    dst := sideOf f.dstKind f.dstKey f.dstAddr translated }
  let id := s.fct.nextDesc
  let join (s : State) (d : Desc) : State :=
    { s with fct := { s.fct with descs := tblIns s.fct.descs id d, nextDesc := id + 1 } }
  if f.bad t then join s { d with src := .zero, dst := .zero, status := 6, done := f.done }
  else if f.len = 0 then join s { d with src := .zero, dst := .zero, status := 1, done := 0 }
  else
    let bad := s.sideFails e t d.src false f.len c0 || s.sideFails e t d.dst true f.len c0
    let keyBad (x : DescSide) (wr : Bool) : Nat := match x with
      | .key k a => b2n (!s.descKeyOk e t k wr a f.len)
      | _ => 0
    if bad then
      join (s.count .mmuKeyFail (keyBad d.src false + keyBad d.dst true))
        { d with src := .zero, dst := .zero, status := 3, done := f.done }
    else
      let s := d.mkeys.foldl (fun s k => s.holdKey k) s
      let d : Desc := { d with keys := d.mkeys, done := f.done }
      match (s.sideDown d.src).or (s.sideDown d.dst) with
      | some st => join s { d with status := st }
      | none =>
        let (s, d) := s.startChunks x.umode (x.csrAt 0x8C).toNat (x.csrAt 0x8D).toNat f.len f.len f.done d
        let s := join s d
        match d.src, s.fromFace d with
        | .key k a, true => if d.done = f.done then s else s.descRead id k (a + f.done) (d.done - f.done)
        | _, _ => s

/-- The effect of DMAD (R484, R485). -/
def State.dmad (s : State) (e t : Nat) (pd : Fin 8) (ra : Fin 32) : Res :=
  let x := s.thr e t
  let va := (x.reg ra).toNat
  match s.operand e t .load va 64 1 with
  | (s, .error tr) => .trap s tr
  | (s, .ok ps) =>
    match s.operand e t .store va 64 1 with
    | (s, .error tr) => .trap s tr
    | (s, .ok _) =>
      if 16 ≤ s.dmaOut e t then .retire (s.updThr e t fun x => x.setPred pd false)
      else
        let (s, b) := s.loadLines e t ps
        let s := s.updThr e t fun x => { x with daddr := va }
        let f := descFields b
        if x.umode ∧ (f.flags % 2 = 1 ∨ f.srcKind = 2 ∨ f.dstKind = 2) then .trap s ⟨0x02, none⟩
        else .retire (((s.pmc e t 0x0A 1).descIssue e t va (ps.headD 0) b).updThr e t fun x => x.setPred pd true)

def execDmad (e t : Nat) (g : Guard) (pd : Fin 8) (ra : Fin 32) (pre : Option Cut) (s : State) : Outcome :=
  .next (s.instr e t g false (fun s => s.dmad e t pd ra) pre true)

/-! ### The end of a descriptor (R486, R527, R529, R532) -/

/-- The source bytes of a chunk. -/
def State.chunkData (s : State) (d : Desc) (start : Nat) (c : Chunk) : Bytes :=
  match d.src with
  | .zero => zeros c.n
  | .virt _ | .phys _ => s.mem.readN c.src c.n
  | .stream h off => match tblFind s.fct.streams h with
    | some x => (x.bytes.drop (off + c.off)).take c.n
    | none => []
  | .key k a =>
    if s.fromFace d then ((gatherFrom 0 d.segs).drop (c.off - start)).take c.n
    else
      let p := s.devAddr k (a + c.off)
      if bitOf (s.keyAt (keyIndex k)).access 2 then s.readStaged p c.n else s.mem.readN p c.n

/-- Move a chunk to its destination (R524). -/
def State.moveChunk (s : State) (id : Nat) (d : Desc) (start : Nat) (c : Chunk) : State :=
  let b := s.chunkData d start c
  match d.dst with
  | .zero => s
  | .virt _ | .phys _ => s.store c.dst b
  | .key k a => s.hostPut k (a + c.off) (if d.c0 then 0 else 1) (2 ^ 64 + id) b
  | .stream h off => match tblFind s.fct.streams h with
    | some x =>
      let y := x.bytes ++ zeros (x.len - x.bytes.length)
      let bytes := y.take (off + c.off) ++ b ++ y.drop (off + c.off + c.n)
      { s with fct := { s.fct with streams := tblIns s.fct.streams h { x with bytes } } }
    | none => s

/-- The command whose cell stream a descriptor names. -/
def State.descCmd (s : State) (d : Desc) : Option Cmd :=
  ([d.src, d.dst]).findSome? fun x => match x with
    | .stream h _ => (tblFind s.fct.streams h).bind fun y => y.cmd.bind s.cmd
    | _ => none

/-- A descriptor's streams that were discarded while it used them end it FACE_ERROR at the chunk it had reached (R530). -/
def State.streamGone (s : State) (d : Desc) : Bool :=
  ([d.src, d.dst]).any fun x => match x with
    | .stream h _ => (tblFind s.fct.streams h).isNone
    | _ => false

/-- DESCRIPTOR_END (R486, R527 to R529, R532): every started chunk of descriptor `id` has ended. -/
def State.descEnd (s : State) (id : Nat) : State :=
  match tblFind s.fct.descs id with
  | none => s
  | some d =>
    let start := match d.chunks with | c :: _ => c.off | [] => d.done
    let need := match d.chunks.getLast? with | some c => c.off + c.n - start | none => 0
    if s.fromFace d && !d.failed && decide (d.arrived < need) then s
    else
      let gone := s.streamGone d
      let status := if gone then 5 else d.status
      let done := if gone then start else d.done
      let cmd := s.descCmd d
      let s := if gone then s else d.chunks.foldl (fun s c => s.moveChunk id d start c) s
      let s := d.keys.foldl (fun s k => s.dropKey k) s
      let s : State := { s with fct := { s.fct with descs := tblDel s.fct.descs id } }
      let s := (s.store (d.pa + 8) (toLe done 8)).store (d.pa + 2) (toLe status 1)
      let s := if status = 2 then
          (s.count .mmuDmaFault).updThr d.engine d.thread fun x =>
            { x with faults := x.faults ++ [BitVec.ofNat 64 (d.va + d.fault)] }
        else s.latch d.engine d.thread 1
      let s := s.haltCheck d.engine d.thread
      let s := match (if status = 4 ∨ status = 5 then cmd else none) with
        | none => s
        | some c =>
          let s := if c.past then s else s.endEarly c.seq (if status = 4 then stMasterDisabled else stAbortedReset)
          s.qpError c.qp
      s.flow

def execDescriptorEnd (id : Nat) (s : State) : Outcome := .next (s.descEnd id)

end Sys2Proof.Machine
end

