-- ==== Sys2Proof/Machine/FctMsg.lean ====
section
/-! DEFINITION. Hardware messages to the resident program: COMMAND, MEMBER_DONE and DATA_DONE, with the cell streams they
name (R431, R432, R530). -/

namespace Sys2Proof.Machine

/-- A hardware message about command `c`: TYPE, C0 and SOURCE as R431 gives them, the entry in BODY bytes 16 to 79 where
`entry` is given; every byte R431 does not fix is free (log entry 62). -/
def State.hwMessage (s : State) (typ : Nat) (c : Cmd) (entry : Option Bytes) : State × Message :=
  let free := freeBytes s.draws 128
  let head := toLe typ 1 ++ toLe (b2n (c.cls == 0)) 1 ++ toLe 0xFFFF 2
  let body := match entry with
    | some e => ((free.drop 4).take 28) ++ e.take 64 ++ (free.drop (32 + (e.take 64).length))
    | none => free.drop 4
  (s.drew, { bytes := (head ++ body).take 128, cmd := some c.seq })

/-- The inbox, within its cluster, of a reserved thread with room for a Class 0 message: the home engine's first, then by
engine, a free thread before one at work (R231, R236, R432). -/
def State.c0Inbox (s : State) (home : Nat) : Option Nat :=
  let es := home :: (List.range 12).map (· + 12 * clusterOf home)
  let ts := (es.filter fun e => s.isOn (96 + e)).flatMap fun e => [(e, 14), (e, 15)]
  let room := ts.filter fun x => s.mboxRoom (clusterOf home) (16 * (x.1 % 12) + x.2)
  let free := room.filter fun x => !(s.cls.busy.any fun b => b.1 == x.1 && b.2.1 == x.2)
  (free ++ room).head?.map fun x => 16 * (x.1 % 12) + x.2

/-- Send a hardware message about a command: COMMAND to the thread it was given to; later ones there too, or, in Class 0, to
any reserved thread of the cluster with room; a Class 0 message that no reserved thread has room for waits in cluster queue
63 (R231, R432). -/
def State.tellThread (s : State) (typ : Nat) (c : Cmd) (entry : Option Bytes) : State :=
  match c.thread with
  | none => s
  | some (e, t) =>
    let n := 16 * (e % 12) + t
    let (s, m) := s.hwMessage typ c entry
    if c.cls ≠ 0 then s.hwSend (e / 12) n m
    else if typ = 1 ∧ s.mboxRoom (e / 12) n then s.hwSend (e / 12) n m
    else s.hwSend (e / 12) ((s.c0Inbox (s.qp c.qp).home).getD 255) m

/-- A cell stream of a command's data comes to be in its thread's cluster (R530): whole cells of 256 bytes. -/
def State.openStream (s : State) (c : Cmd) (b : Bytes) : State :=
  match c.thread with
  | none => s
  | some (e, _) =>
    let x : Stream := {
      cluster := e / 12, c0 := c.cls == 0, len := ceilDiv b.length 256 * 256, cmd := some c.seq, bytes := b }
    { s with fct := { s.fct with
      streams := tblIns s.fct.streams s.fct.nextStream x, nextStream := s.fct.nextStream + 1 } }

/-- DATA_DONE: every cell of a command's pull is present (R431). -/
def State.dataDone (s : State) (seq : Nat) : State :=
  match s.cmd seq with
  | none => s
  | some c => (s.openStream c c.data).tellThread 0x03 c none

/-- The command that a member command serves. -/
def State.ownerOf (s : State) (m : MemCmd) : Option Cmd := s.qpe.cmds.find? fun c => s.servesCmd c m.who

/-- MEMBER_DONE: a member command of `c` has completed (R431). -/
def State.memberDone (s : State) (seq : Nat) (b : Option Bytes) : State :=
  match s.cmd seq with
  | none => s
  | some c =>
    let s := match b with
      | some b => s.openStream c b
      | none => s
    s.tellThread 0x02 c none

/-- DISPATCH with the COMMAND message that it sends (R236, R431). -/
def State.dispatchTell (s : State) (cluster : Nat) : State :=
  let s' := s.dispatch cluster
  match s'.cls.busy.drop s.cls.busy.length with
  | (e, t, _, _) :: _ =>
    match s'.qpe.cmds.find? fun c => c.thread == some (e, t) && c.phase == .dispatched with
    | some c => s'.tellThread 0x01 c (some c.entry)
    | none => s'
  | [] => s'

def execDispatch (cluster : Nat) (s : State) : Outcome :=
  .next (s.whenOn 161 fun s => if cluster < 4 then s.dispatchTell cluster else s)

/-- MEMBER_COMPLETION with the MEMBER_DONE message that it sends (R132, R431). -/
def State.memberTell (s : State) (sl id status : Nat) (data : Bytes) : State :=
  let owner := (s.str.mem.find? fun m => m.slot == sl && m.id == id && m.issued.isSome).bind fun m =>
    (s.ownerOf m).map fun c => (c.seq, if m.op = .read ∧ status = 0 then some data else none)
  let s := s.memberCompletion sl id status data
  match owner with
  | some (seq, b) => s.memberDone seq b
  | none => s

def execMemberCompletion (slot mid status : Nat) (data : Bytes) (s : State) : Outcome :=
  .next (s.memberTell slot mid status data)

end Sys2Proof.Machine
end

