-- ==== Sys2Proof/Machine/Arrive.lean ====
section
/-! DEFINITION. What arrives for a read of host memory: DATA segments, RDMA READ responses and completion TLPs
(R276, R296, R298, R334). -/

namespace Sys2Proof.Machine

/-- Bytes of a command's buffer arrive; bytes that have already arrived are discarded (R298). The last
ones make the pull complete (R431). -/
def State.pullArrive (s : State) (seq off : Nat) (b : Bytes) : State :=
  let had := match s.cmd seq with | some c => c.data.length | none => 0
  let s := (s.updCmd seq fun c =>
    { c with segs := if (tblFind c.segs off).isSome then c.segs else tblIns c.segs off b }).gathered seq
  match s.cmd seq with
  | some c => if had < c.pull.getD 0 ∧ c.pull.getD 0 ≤ c.data.length then s.dataDone seq else s
  | none => s

/-- Write data came in packets of a DSCP: the priority under which its cells count, and the holding of its port follow (R265,
R266). -/
def State.arrivedAs (s : State) (seq mac dscp : Nat) : State :=
  (s.updCmd seq fun c => { c with rxPri := s.dscpPri dscp }).pfcSyncAll mac

/-- Source bytes of a descriptor arrive (R517). -/
def State.descArrive (s : State) (id off : Nat) (b : Bytes) : State :=
  match tblFind s.fct.descs id with
  | none => s
  | some d =>
    let d : Desc := { d with segs := if (tblFind d.segs off).isSome then d.segs else tblIns d.segs off b }
    { s with fct := { s.fct with descs := tblIns s.fct.descs id d } }

/-- DATA (R288, R296, R298): a segment of the pull whose tag is ARG, at offset ARG2. -/
def State.odtData (s : State) (h : OdtHdr) (b : Bytes) : State :=
  if !(s.serves && s.subUp h.mac h.sub) then s
  else if !s.odtAccepts h false then s.odtDrop h.mac
  else
    let s := s.odtHeard h
    let c := s.odtConn h.conn
    match c.asks.find? fun a => a.slots.isNone && a.tag % 2 ^ 16 == h.arg % 2 ^ 16 && a.qp == h.qpn with
    | none => s
    | some a =>
      let off := h.arg2
      if b.isEmpty ∨ c.seg < b.length ∨ a.len < off + b.length then s
      else
        let s := match a.desc with
          | some id => s.descArrive id off b
          | none => (s.pullArrive a.cmd (a.base + off) b).arrivedAs a.cmd h.mac h.dscp
        if (gather a.len (s.askSegs a)).isSome then
          (s.setOdt h.conn { s.odtConn h.conn with asks := (s.odtConn h.conn).asks.filter fun x => x != a }).flow
        else s

def execData (h : OdtHdr) (bytes : Bytes) (s : State) : Outcome := .next (s.odtData h bytes)

/-- The offset within a command's buffer that an RDMA READ at `va` serves (R276, R517). -/
def State.readOff (s : State) (c : Cmd) (va : Nat) : Nat :=
  let k := s.keyAt (keyIndex (eMkey c.entry))
  va + k.base - k.target - eAddr c.entry

/-- ROCE_READ_RESPONSE (R276): one response packet, at the PSN of its place in the request. It acknowledges what was
sent before it. -/
def State.roceReadResp (s : State) (k psn dscp : Nat) (b : Bytes) : State :=
  match s.roceLive k with
  | none => s.roceDrop
  | some c =>
    match c.sent.find? fun m => m.req.isRead && decide ((psn + 2 ^ 24 - m.psn) % 2 ^ 24 < m.n) with
    | none => s
    | some m =>
      let at_ := (psn + 2 ^ 24 - m.psn) % 2 ^ 24 * c.mtu
      let place : Option (Nat × (State → State) × (State → Bool)) := match m.req with
        | .readPull _ seq va _ len =>
          let off := match s.cmd seq with | some x => s.readOff x va | none => 0
          let all (s : State) : Bool := match s.cmd seq with
            | some x => decide (off + len ≤ x.data.length)
            | none => decide (len ≤ at_ + b.length)
          some (len, fun s => (s.pullArrive seq (off + at_) b).arrivedAs seq c.mac dscp, all)
        | .readDesc _ id _ _ len =>
          let all (s : State) : Bool := match tblFind s.fct.descs id with
            | some d => decide (len ≤ d.arrived)
            | none => decide (len ≤ at_ + b.length)
          some (len, fun s => s.descArrive id at_ b, all)
        | _ => none
      match place with
      | none => s
      | some (len, put, all) =>
        if b.length ≠ min c.mtu (len - at_) then s
        else
          let s := put (s.setRoce k { c with
            sent := c.sent.filter fun x => x.req.isRead || !psnGe m.psn ((x.psn + x.n) % 2 ^ 24) })
          if all s then
            let s := s.updRoce k fun c => { c with sent := rmFirst (fun x => x == m) c.sent }
            (s.rocePump (c.queue.length + 1) k).flow
          else s

def execRoceReadResponse (conn psn dscp : Nat) (bytes : Bytes) (s : State) : Outcome :=
  .next (s.roceReadResp conn psn dscp bytes)

/-- DMA_COMPLETION_TLP (R334, R335): the next bytes of the read outstanding on a tag. One for a withdrawn function, or for
a tag that is free, is counted and discarded. -/
def State.dmaCompletion (s : State) (tag : Nat) (b : Bytes) : State :=
  if !s.epf.linkUp then s
  else
    match tblFind s.epf.tags tag with
    | none => s.count .epfLateCpl
    | some t =>
      if t.held.isSome then s.count .epfLateCpl
      else
        let got := (t.got ++ b).take t.len
        if got.length < t.len then
          { s with epf := { s.epf with tags := tblIns s.epf.tags tag { t with got } } }
        else
          let s : State := { s with epf := { s.epf with tags := tblDel s.epf.tags tag } }
          let s := match t.who with
            | .fetch q off => s.updQp q fun x =>
              if x.fetch.isSome then { x with fetchSegs := tblIns x.fetchSegs off got } else x
            | .pull seq off => s.pullArrive seq off got
            | .desc id off => s.descArrive id off got
            | .gone => s
          (s.epPump s.epf.waiting.length).flow

def execDmaCompletionTlp (tag : Nat) (bytes : Bytes) (s : State) : Outcome := .next (s.dmaCompletion tag bytes)

end Sys2Proof.Machine
end

