-- ==== Sys2Proof/Machine/Ext.lean ====
section
/-! DEFINITION. Signer keys, extension images and hook attachments: SET_SIGNER, LOAD_EXT, ATTACH_HOOK, DETACH_HOOK and
UNLOAD_EXT (R448 to R453). -/

namespace Sys2Proof.Machine

/-- A signature by an enrolled signer over `msg`; `by_` names one by the SHA-384 of its key (R448, R449). -/
def State.signed (s : State) (msg sig : Bytes) (by_ : Option Bytes) : Bool :=
  s.fct.signers.any fun k => (match by_ with | some h => Crypto.sha384 k.2 == h | none => true)
    && Crypto.ecdsaVerify k.2 sig msg

/-- The command completes once an item is in force on both controllers: the item travels as a BULK transfer where a
shadow is paired (R450, R555). -/
def State.bothBulk (s : State) (seq typ key : Nat) (v : Option CfgVal) (b : Option (BulkKind × Bytes)) (info : Nat) : State :=
  let s := s.cfgPut typ key v
  let s := match b with
    | some (k, x) => if s.paired then s.sendBulk k x (some seq) else s
    | none => s
  s.bothForce seq [(typ, key)] info

/-- SET_SIGNER, install (R450). -/
def State.installSigner (s : State) (c : Cmd) (b : Bytes) : State :=
  let slot := byteAt c.entry 8
  let key := b.take 97
  if b.length = 193 ∧ !s.signed key (b.drop 97) none then s.refuseCmd c.seq 8
  else
    let s : State := { s with fct := { s.fct with signers := tblIns s.fct.signers slot key } }
    s.bothBulk c.seq 0x03 slot (some (.signer key)) (some (.signer slot, key)) 0

/-- SET_SIGNER (R450). -/
def State.setSigner (s : State) (c : Cmd) : State :=
  if byteAt c.entry 9 = 0 then s.withBuffer c State.installSigner
  else
    let slot := byteAt c.entry 8
    let s : State := { s with fct := { s.fct with signers := tblDel s.fct.signers slot } }
    s.bothBulk c.seq 0x03 slot none none 0

def execSetSigner (qp cid : Nat) (s : State) : Outcome := .next (s.adminRun qp cid 0x5B State.setSigner)

/-- The header of an extension image follows R448. -/
def extHeaderOk (b : Bytes) : Bool :=
  let text := leAt b 12 4
  let data := leAt b 16 4
  let st := leAt b 20 4
  let budget := leAt b 28 4
  leAt b 0 8 == 0x314558544541474E && leAt b 8 2 == 1 && decide (byteAt b 10 ≤ 3)
    && byteAt b 11 == 0
    && decide (4 ≤ text ∧ text ≤ 1048576) && text % 4 == 0 && decide (data ≤ 1048576)
    && decide (data ≤ st ∧ st ≤ 1048576) && st % 4096 == 0
    && decide (leAt b 24 4 < text) && leAt b 24 4 % 4 == 0 && decide (64 ≤ budget ∧ budget ≤ 65536)
    && zeroRange b 40 47 && zeroRange b 192 255

/-- LOAD_EXT with its image (R448, R449, R451). -/
def State.loadExt (s : State) (c : Cmd) (b : Bytes) : State :=
  let slot := byteAt c.entry 8
  if !extHeaderOk b then s.refuseCmd c.seq 8
  else if b.length ≠ 256 + leAt b 12 4 + leAt b 16 4 then s.refuseCmd c.seq 28
  else if !s.signed (b.take 96 ++ zeros 96 ++ b.drop 192) ((b.drop 96).take 96) (some ((b.drop 48).take 48)) then
    (s.count .fctSigFail).refuseCmd c.seq 8
  else
    let s : State := { s with fct := { s.fct with images := tblIns s.fct.images slot b } }
    s.bothBulk c.seq 0x0C slot (some (.image b)) (some (.image slot, b)) 0

def execLoadExt (qp cid : Nat) (s : State) : Outcome :=
  .next (s.adminRun qp cid 0x5C fun s c => s.withBuffer c State.loadExt)

/-- The lowest attachment identifier not in use (R452; log entry 23). -/
def State.freeAtt (s : State) : Nat := ((List.range 4096).find? fun i => (tblFind s.fct.atts i).isNone).getD 0

/-- ATTACH_HOOK (R452). -/
def State.attachHook (s : State) (c : Cmd) : State :=
  let e := c.entry
  let id := s.freeAtt
  let a : Attachment := {
    image := byteAt e 8
    hook := byteAt e 9
    kind := byteAt e 10
    failAction := byteAt e 11
    budget := leAt e 12 4
    period := leAt e 16 4
    tenant := leAt e 20 4
    target := leAt e 56 4
    due := s.now + leAt e 16 4 * msec }
  let s : State := { s with fct := { s.fct with atts := tblIns s.fct.atts id a } }
  if a.kind = 0 then (s.cfgPut 0x0D id (some (.attach a))).bothForce c.seq [(0x0D, id)] id
  else s.bothForce c.seq [] id

def execAttachHook (qp cid : Nat) (s : State) : Outcome := .next (s.adminRun qp cid 0x5D State.attachHook)

/-- DETACH_HOOK (R447, R453): invocations that wait are removed and their commands go on; those that run are waited
for. -/
def State.detachHook (s : State) (c : Cmd) : State :=
  let id := leAt c.entry 56 4
  match tblFind s.fct.atts id with
  | none => s.refuseCmd c.seq 56
  | some a =>
    let a : Attachment := { a with detach := some c.seq }
    let s : State := { s with fct := { s.fct with atts := tblIns s.fct.atts id a } }
    let s := (s.markPast c.seq).markWaiting c.seq
    ((s.endWaiting id a .gone).detachCheck id).flow

def execDetachHook (qp cid : Nat) (s : State) : Outcome := .next (s.adminRun qp cid 0x5E State.detachHook)

/-- UNLOAD_EXT (R453). -/
def State.unloadExt (s : State) (c : Cmd) : State :=
  let i := byteAt c.entry 8
  let s : State := { s with fct := { s.fct with images := tblDel s.fct.images i } }
  s.bothBulk c.seq 0x0C i none none 0

def execUnloadExt (qp cid : Nat) (s : State) : Outcome := .next (s.adminRun qp cid 0x5F State.unloadExt)

end Sys2Proof.Machine
end

