-- ==== Sys2Proof/Machine/Power.lean ====
section
/-! DEFINITION. Drive slot power: presence, supply windows, the inrush budget, faults, retries, SLOT_CONTROL (R581 to
R608). -/

namespace Sys2Proof.Machine

/-- Slot supervisor `sl`. -/
def State.slot (s : State) (sl : Nat) : Slot := tblGet {} s.spm.slots sl

/-- The state with slot supervisor `sl` replaced. -/
def State.setSlot (s : State) (sl : Nat) (x : Slot) : State :=
  { s with spm := { s.spm with slots := tblPut {} s.spm.slots sl x } }

/-- Rail group `g`. -/
def State.rail (s : State) (g : Nat) : Rail := tblGet {} s.spm.rails g

/-- The state with rail group `g` replaced. -/
def State.setRail (s : State) (g : Nat) (x : Rail) : State :=
  { s with spm := { s.spm with rails := tblPut {} s.spm.rails g x } }

/-- EN and LIM of a slot (R606). -/
def State.slotEn (s : State) (sl : Nat) : Bool := s.bit .spmSlotCtl 0 sl
def State.slotLim (s : State) (sl : Nat) : Nat := s.field .spmSlotCtl 27 16 sl

/-- A slot of the variant whose supervisor runs: island 163 is ON (R24, R582). -/
def State.slotRuns (s : State) (sl : Nat) : Bool := s.readsOn 163 && decide (sl < Config.slots s.variant)

/-- The insertion delay, the fault timer limit and the inrush budget in force (R604). -/
def State.insertDelay (s : State) : Nat := max 1 (s.field .spmCfg 31 24) * 10 * msec
def State.faultLimit (s : State) : Nat := max 1 (min 100 (s.field .spmCfg 23 16)) * 1000
def State.inrushMax (s : State) : Nat := max 1 (min 8 (s.field .spmInrush 3 0))

/-- Slots in RAMP (R604). -/
def State.ramping (s : State) : Nat := (s.spm.slots.filter fun e => e.2.state == .ramp).length

/-- Have EN and LIM of a slot written to the configuration area (R664). -/
def State.slotRecord (s : State) (sl : Nat) : State :=
  s.cfgPut 0x0E (Reg.off .spmSlotCtl sl) (some (.register (s.reg .spmSlotCtl sl)))

/-- A slot takes a state: its gate, its inrush place and its port's reset follow (R585, R588, R593, R598, R718); one that
leaves ON takes its member to MISSING, and ends a POWER_OFF that waits for the drive's shutdown (R599, R602). -/
def State.slotTo (s : State) (sl : Nat) (nxt : SlotState) : State :=
  let x := s.slot sl
  let nxt := if nxt = .latched ∧ x.shutdown.isSome then .disabled else nxt
  let y : Slot := { x with
    state := nxt
    retryAt := if nxt = .latched then x.retryAt else none
    shutdown := if nxt = .on then x.shutdown else none
    perstOff := x.perstOff && nxt == .on }
  let y : Slot := match nxt with
    | .queued => { y with queuedAt := s.now }
    | .ramp => { y with gateAt := s.now, timer := 0, below := 0, peerHold := false }
    | .on => { y with onAt := s.now, pg := true }
    | _ => y
  let s := s.setSlot sl y
  let s := if x.state.gate = nxt.gate then s else s.emit (.pin "GATE" sl nxt.gate)
  let s := if x.perstOff ∧ !y.perstOff then s.emit (.pin "DRV_PERST_N" sl false) else s
  if x.state = .on ∧ nxt ≠ .on then
    let s := s.setDrive sl {}
    let s := s.driveLost sl
    match x.shutdown with
    | some (_, seqs) =>
      seqs.foldl (fun s seq => s.bothForce seq [(0x0E, Reg.off .spmSlotCtl sl)] 0)
        ((s.setField .spmSlotCtl 0 0 0 sl).slotRecord sl)
    | none => s
  else s

/-- QUEUED with the rail group GOOD, otherwise INSERT (R590, R596). -/
def State.slotRetry (s : State) (sl : Nat) : State :=
  s.slotTo sl (if (s.rail (sl / 12)).good then .queued else .insert)

/-- DISABLED or INSERT, according to EN (R590). -/
def State.slotIn (s : State) (sl : Nat) : State := s.slotTo sl (if s.slotEn sl then .insert else .disabled)

/-- A fault (R592, R595). -/
def State.slotFault (s : State) (sl cause : Nat) : State :=
  let x := s.slot sl
  let old := x.faults.filter fun t => decide (s.now < t + 60000 * msec)
  let quar := decide (2 ≤ old.length)
  let retry := s.field .spmCfg 7 0
  let s := s.setSlot sl { x with
    cause, faults := old ++ [s.now]
    retryAt := if quar ∨ retry = 0 then none else some (s.now + retry * 1000 * msec) }
  let s := (s.count .spmFault).event .spm
  if quar then (s.count .spmQuar).slotTo sl .quarantined else s.slotTo sl .latched

/-! ### Presence (R581, R590) -/

/-- PRESENCE_EDGE: the debounced level has risen. -/
def State.presenceEdge (s : State) (sl : Nat) : State :=
  let x := s.slot sl
  if !s.slotRuns sl ∨ x.present then s
  else
    let s := s.setSlot sl { x with present := true, edgeAt := s.now }
    if x.state = .empty then s.slotIn sl else s

def execPresenceEdge (slot : Nat) (s : State) : Outcome := .next (s.presenceEdge slot)

/-- PRESENCE_LOST. -/
def State.presenceLost (s : State) (sl : Nat) : State :=
  let x := s.slot sl
  if !s.slotRuns sl ∨ !x.present then s
  else
    let s := s.setSlot sl { x with present := false }
    if x.state = .quarantined then s else s.slotTo sl .empty

def execPresenceLost (slot : Nat) (s : State) : Outcome := .next (s.presenceLost slot)

def execPresenceBounce (slot : Nat) (s : State) : Outcome :=
  .next (if s.slotRuns slot then s.count .spmBounce else s)

/-! ### Faults (R592 to R595) -/

/-- FAST_TRIP: TRIP_s asserts. -/
def State.fastTrip (s : State) (sl : Nat) : State :=
  if !s.slotRuns sl then s
  else
    let x := s.slot sl
    let s := s.setSlot sl { x with trip := true }
    if x.state.gate then s.slotFault sl 1 else s

def execFastTrip (slot : Nat) (s : State) : Outcome := .next (s.fastTrip slot)

/-- FAULT_TIMER_EXPIRE: the timer has reached FAULT_MS. -/
def State.timerFault (s : State) (sl : Nat) : State :=
  let x := s.slot sl
  if s.slotRuns sl ∧ x.state.gate ∧ s.faultLimit ≤ x.timer then s.slotFault sl 2 else s

def execFaultTimerExpire (slot : Nat) (s : State) : Outcome := .next (s.timerFault slot)

/-- RAMP_TIMEOUT: 20 ms from the gate; a fault timer that expires with it is named (R589, R594). -/
def State.rampTimeout (s : State) (sl : Nat) : State :=
  let x := s.slot sl
  if s.slotRuns sl ∧ x.state = .ramp then
    (s.advanceTo (x.gateAt + 20 * msec)).slotFault sl (if s.faultLimit ≤ x.timer then 2 else 3)
  else s

def execRampTimeout (slot : Nat) (s : State) : Outcome := .next (s.rampTimeout slot)

/-- RAMP_COMPLETE: PGOOD_s has been asserted for 1 ms, within the ramp timeout (R589). -/
def State.rampComplete (s : State) (sl : Nat) : State :=
  let x := s.slot sl
  if s.slotRuns sl ∧ x.state = .ramp ∧ s.now ≤ x.gateAt + 20 * msec then s.slotTo sl .on else s

def execRampComplete (slot : Nat) (s : State) : Outcome := .next (s.rampComplete slot)

/-- POWER_GOOD_LOST in ON. -/
def State.pgLost (s : State) (sl : Nat) : State :=
  let x := s.slot sl
  if s.slotRuns sl ∧ x.state = .on then (s.setSlot sl { x with pg := false }).slotFault sl 4 else s

def execPowerGoodLost (slot : Nat) (s : State) : Outcome := .next (s.pgLost slot)

/-- FAULT_HISTORY_EXPIRE: the oldest fault reaches 60 s of age (R595). -/
def State.historyExpire (s : State) (sl : Nat) : State :=
  let x := s.slot sl
  match x.faults with
  | [] => s
  | t :: rest => if s.slotRuns sl then (s.advanceTo (t + 60000 * msec)).setSlot sl { x with faults := rest } else s

def execFaultHistoryExpire (slot : Nat) (s : State) : Outcome := .next (s.historyExpire slot)

/-! ### Supply windows and samples (R586, R593, R605, R607, R712) -/

/-- A rail group that the variant has (R582). -/
def State.railPresent (s : State) (g : Nat) : Bool := decide (12 * g < Config.slots s.variant)

/-- RAIL_GROUP_GOOD: both rails have been inside their windows for 50 ms. -/
def State.railGood (s : State) (g : Nat) : State :=
  let x := s.rail g
  match x.inSince with
  | none => s
  | some t =>
    if !s.readsOn 163 ∨ !s.railPresent g ∨ x.good then s
    else
      let s := s.advanceTo (t + 50 * msec)
      s.setRail g { x with good := true, goodAt := s.now }

def execRailGroupGood (group : Nat) (s : State) : Outcome := .next (s.railGood group)

/-- RAIL_GROUP_NOT_GOOD: the latest sample lies outside a window; slots in INSERT, QUEUED and RAMP return to INSERT
(R586, R587, R590, R591). -/
def State.railBad (s : State) (g : Nat) : State :=
  let x := s.rail g
  if !s.readsOn 163 ∨ !x.good ∨ (x.ok12 ∧ x.ok3) then s
  else
    let s := ((s.setRail g { x with good := false, inSince := none }).count .spmRailOut).event .spm
    (List.range 12).foldl (fun s i =>
      let sl := 12 * g + i
      let st := (s.slot sl).state
      if st = .queued ∨ st = .ramp then s.slotTo sl .insert else s) s

def execRailGroupNotGood (group : Nat) (s : State) : Outcome := .next (s.railBad group)

/-- A sample of a slot's current (R593, R607). -/
def State.slotSample (s : State) (sl code : Nat) : State :=
  let x := s.slot sl
  let x : Slot := { x with current := code % 4096, trip := false }
  if !x.state.gate then s.setSlot sl x
  else if s.slotLim sl ≤ x.current then s.setSlot sl { x with timer := x.timer + 14, below := 0 }
  else
    let below := x.below + 14
    s.setSlot sl { x with below, timer := if 1000 ≤ below then 0 else x.timer }

/-- A sample of a rail (R586, R605, R712): code 4,095 stands for 14.4 V on the 12 V rail and 4.5 V on the 3.3 V rail. -/
def State.railSample (s : State) (g : Nat) (twelve : Bool) (code : Nat) : State :=
  let c := code % 4096
  let x := s.rail g
  let x : Rail :=
    if twelve then { x with v12 := c * 1440 / 4095, ok12 := decide (1080 * 4095 ≤ c * 1440 ∧ c * 1440 ≤ 1320 * 4095) }
    else { x with v3 := c * 2250 / 4095, ok3 := decide (1500 * 4095 ≤ c * 2250 ∧ c * 2250 ≤ 1800 * 4095) }
  s.setRail g { x with
    inSince := if x.ok12 ∧ x.ok3 then (match x.inSince with | some t => some t | none => some s.now) else none }

/-- CONVERTER_SAMPLE: channels 0 to 11 are the ISENSE inputs of the converter's slots, 12 the 12 V sense and 13 the 3.3 V
sense of its rail group (R582). -/
def State.converterSample (s : State) (conv chan code : Nat) : State :=
  if !s.readsOn 163 ∨ !s.railPresent conv ∨ 13 < chan then s
  else if chan < 12 then
    if 12 * conv + chan < Config.slots s.variant then s.slotSample (12 * conv + chan) code else s
  else s.railSample conv (chan == 12) code

def execConverterSample (conv chan code : Nat) (s : State) : Outcome := .next (s.converterSample conv chan code)

/-! ### Insertion, inrush and retry (R587, R588, R596) -/

/-- INSERT_DELAY_EXPIRE. -/
def State.insertExpire (s : State) (sl : Nat) : State :=
  let x := s.slot sl
  let r := s.rail (sl / 12)
  if s.slotRuns sl ∧ x.state = .insert ∧ r.good then
    (s.advanceTo (max x.edgeAt r.goodAt + s.insertDelay)).slotTo sl .queued
  else s

def execInsertDelayExpire (slot : Nat) (s : State) : Outcome := .next (s.insertExpire slot)

/-- The slot that leaves QUEUED next (R588): the one that entered it first whose rail group is GOOD, the lower number on
a tie. -/
def State.nextRamp (s : State) : Option Nat :=
  let q := s.spm.slots.filter fun e => e.2.state == .queued && (s.rail (e.1 / 12)).good
  (q.foldl (fun b e => match b with
    | none => some e
    | some x => if e.2.queuedAt < x.2.queuedAt then some e else b) none).map (·.1)

/-- RAMP_START. -/
def State.rampStart (s : State) (sl : Nat) : State :=
  if s.slotRuns sl ∧ s.nextRamp = some sl ∧ s.ramping < s.inrushMax then s.slotTo sl .ramp else s

def execRampStart (slot : Nat) (s : State) : Outcome := .next (s.rampStart slot)

/-- RETRY_EXPIRE. -/
def State.retryExpire (s : State) (sl : Nat) : State :=
  let x := s.slot sl
  match x.retryAt with
  | none => s
  | some t => if s.slotRuns sl ∧ x.state = .latched then (s.advanceTo t).slotRetry sl else s

def execRetryExpire (slot : Nat) (s : State) : Outcome := .next (s.retryExpire slot)

/-- PEER_HOLD_DETECT: PGOOD_s asserted for more than 2 ms without this controller's gate (R597). -/
def State.peerHold (s : State) (sl : Nat) : State :=
  let x := s.slot sl
  if s.slotRuns sl ∧ !x.state.gate ∧ !x.peerHold then
    (s.setSlot sl { x with pg := true, peerHold := true }).event .spm
  else s

def execPeerHoldDetect (slot : Nat) (s : State) : Outcome := .next (s.peerHold slot)

/-- PGOOD_DEASSERT on a slot that is not in ON (R597). -/
def State.pgDown (s : State) (sl : Nat) : State :=
  let x := s.slot sl
  if s.slotRuns sl ∧ x.state ≠ .on then s.setSlot sl { x with pg := false, peerHold := false } else s

def execPgoodDeassert (slot : Nat) (s : State) : Outcome := .next (s.pgDown slot)

/-- ROOT_PORT_TRAIN_START: 10 ms after ON (R598, R718). -/
def State.trainStart (s : State) (sl : Nat) : State :=
  let x := s.slot sl
  if s.slotRuns sl ∧ x.state = .on ∧ !x.perstOff then
    let s := s.advanceTo (x.onAt + 10 * msec)
    (s.setSlot sl { x with perstOff := true }).emit (.pin "DRV_PERST_N" sl true)
  else s

def execRootPortTrainStart (slot : Nat) (s : State) : Outcome := .next (s.trainStart slot)

/-! ### EN, CYCLE, RELEASE and SLOT_CONTROL (R590, R595, R596, R600 to R602) -/

/-- EN of a slot takes the value `en`: what R590 has follow. -/
def State.writeEn (s : State) (sl : Nat) (en : Bool) : State :=
  let s := s.setField .spmSlotCtl 0 0 (b2n en) sl
  match (s.slot sl).state, en with
  | .disabled, true => s.slotTo sl .insert
  | .insert, false | .queued, false | .ramp, false | .on, false => s.slotTo sl .disabled
  | .latched, false => s.slotTo sl .disabled
  | _, _ => s

/-- CYCLE (R596). -/
def State.slotCycle (s : State) (sl : Nat) : State :=
  if s.slotRuns sl ∧ (s.slot sl).state = .latched then s.slotRetry sl else s

/-- RELEASE (R590, R595). -/
def State.slotRelease (s : State) (sl : Nat) : State :=
  let x := s.slot sl
  if s.slotRuns sl ∧ x.state = .quarantined then
    let s := s.setSlot sl { x with faults := [] }
    if x.present then s.slotIn sl else s.slotTo sl .empty
  else s

def execSpmSlotCycle (slot : Nat) (s : State) : Outcome := .next (s.slotCycle slot)
def execSpmSlotRelease (slot : Nat) (s : State) : Outcome := .next (s.slotRelease slot)

/-- SLOT_CONTROL (R600 to R602). -/
def State.slotControl (s : State) (c : Cmd) : State :=
  let sl := byteAt c.entry 8
  let done (s : State) : State := (s.slotRecord sl).bothForce c.seq [(0x0E, Reg.off .spmSlotCtl sl)] 0
  match byteAt c.entry 9 with
  | 0 => done (s.writeEn sl true)
  | 1 =>
    if (s.slot sl).state = .on then
      let s := s.markPast c.seq
      match (s.slot sl).shutdown with
      | some (t, seqs) => s.setSlot sl { s.slot sl with shutdown := some (t, seqs ++ [c.seq]) }
      | none => (s.emit (.driveCtl sl "SHUTDOWN")).setSlot sl { s.slot sl with shutdown := some (s.now, [c.seq]) }
    else done (s.writeEn sl false)
  | 2 => done (s.slotCycle sl)
  | _ => done (s.slotRelease sl)

def execSlotControl (qp cid : Nat) (s : State) : Outcome := .next (s.adminRun qp cid 0x56 State.slotControl)

/-- SHUTDOWN_COMPLETE: the drive reports shutdown complete (`done`), or 10 s have passed (R602). -/
def State.shutdownDone (s : State) (sl : Nat) (done : Bool) : State :=
  match (s.slot sl).shutdown with
  | none => s
  | some (t, _) => (if done then s else s.advanceTo (t + 10000 * msec)).slotTo sl .disabled

def execShutdownComplete (slot : Nat) (done : Bool) (s : State) : Outcome := .next (s.shutdownDone slot done)

end Sys2Proof.Machine
end

