-- ==== Sys2Proof/Machine/Boot.lean ====
section
/-! DEFINITION. Start-up and the three kinds of reset (R650 to R673, R679 to R681). -/

namespace Sys2Proof.Machine

/-! ### What a reset keeps (R650, R653, R654) -/

/-- What every reset keeps (R650): the boot flash, with records still being programmed torn (R661); levels of input pins; and
the model's own record of what has been sent, clock, draws and queue. Gates and FATAL_N are deasserted (R651, R718). -/
def State.keepAll (s : State) (t : State) : State :=
  let gates := (s.spm.slots.filter fun e => e.2.state.gate).map fun e => Out.pin "GATE" e.1 false
  let fatal := if s.sys.fatal.isSome then [Out.pin "FATAL_N" 0 true] else []
  { t with
    now := s.now
    sys := { t.sys with
      flash := { s.sys.flash with queue := [] }, slots := s.sys.slots, ptr0 := s.sys.ptr0, ptr1 := s.sys.ptr1 }
    epf := { t.epf with perst := s.epf.perst }
    out := (gates ++ fatal).reverse ++ s.out
    draws := s.draws
    pending := s.pending }

/-- Island `i` as a WARM reset leaves it (R654). -/
def State.warmIsland (s : State) (i : Nat) : Island :=
  if i = 167 then s.island 167
  else if (i = 148 ∨ i = 149) ∧ !Config.fused s.variant i then { state := .retain, req := .retain }
  else Island.reset s.variant i

/-- The state a WARM reset begins with (R650, R653, R654, R680, R693): beside what every reset keeps, the fatal-state region,
Glimmer, SYS_RST_CAUSE and SYS_FATAL. -/
def State.warmBase (s : State) (cause : Nat) : State :=
  let t := s.keepAll (State.resetOf s.variant)
  let t : State := { t with
    mem := s.mem.filter fun c => decide (s.fatalBase ≤ c.1)
    isl := (List.range 168).map s.warmIsland
    glm := { s.glm with asked := false, asleep := false, since := none }
    regs := s.regs.filter fun e => ownerAt e.1 == 167 }
  let warms := min 0xFF (s.field .sysRstCause 15 8 + 1)
  (((t.setReg .sysRstCause (warms * 256 + cause)).setReg .sysFatal (s.reg .sysFatal)).setReg .sysSupply
    (s.field .sysSupply 8 0))

/-- The state a COLD reset begins with (R650); its supplies are in their windows (R706). -/
def State.coldBase (s : State) : State :=
  ((s.keepAll (State.resetOf s.variant)).setReg .sysRstCause 1).setReg .sysSupply 0x1FF

/-! ### Start-up steps 1 to 6 (R667) -/

/-- VDD_CORE moves from 750 mV to the target of the AVS code, by VOUT_COMMANDs 5 mV apart (R703). -/
def State.avsMove (s : State) : State :=
  let mv := 700 + 5 * (Config.avsCode % 32)
  let n := if mv < 750 then (750 - mv) / 5 else (mv - 750) / 5
  (List.range n).foldl (fun s i =>
    s.emit (.vout (s.field .sysAvs 23 17) (if mv < 750 then 745 - 5 * i else 755 + 5 * i))) s

/-- Step 2: the ROM's choice of an image, and what SYS_BOOT says of it (R659, R660, R681, R703). -/
def State.romStep (s : State) : State × Bool :=
  let s := [144, 145, 146, 147].foldl State.bringUp s
  let c := s.romChoose
  let run := c.slot.getD 0
  let s : State := { s.withPointers c.sys with sys := { (s.withPointers c.sys).sys with running := run } }
  let stage := if c.foreign then 2 else if c.slot.isNone then 0 else 3
  let svn := match c.slot with | some i => leAt (s.slotImage i) 16 4 % 256 | none => 0
  let s := s.setReg .sysBoot (stage * 2 ^ 28 + b2n (run == 1) * 2 ^ 27 + b2n c.fallback * 2 ^ 26 + c.trial % 4 * 2 ^ 24
    + c.err * 2 ^ 16 + Config.svnFloor % 256 * 2 ^ 8 + svn)
  if c.slot.isNone then (s, false)
  else
    (if s.bit .sysAvs 0 then s.avsMove else s, true)

/-- A key slot from its record: COUNT restarts at MARK (R398), under the KEK that unwraps it. -/
def slotOfRecord (keks : Tbl Bytes) (vol phase : Nat) (wrapped : Bytes) (limit mark : Nat) : KeySlot :=
  let found := keks.findSome? fun e => (Crypto.unwrap e.2 wrapped).map fun k => (e.1, k)
  let key := match found with | some f => f.2 | none => []
  { volume := vol, phase, xts := key.length == 64, kek := match found with | some f => f.1 | none => 0
    key, wrapped, limit, count := mark, mark }

/-- A record in force is restored to where its item lives (R390, R663, R664). -/
def State.restoreRec (s : State) (r : CfgRec) : State :=
  match r.val with
  | some (.signer k) => { s with fct := { s.fct with signers := tblIns s.fct.signers r.key k } }
  | some (.kek b) =>
    let keks := match kekOf b with
      | some (some k) => tblIns s.cph.keks r.key k
      | _ => s.cph.keks
    { s with cph := { s.cph with keks, kekWrapped := tblIns s.cph.kekWrapped r.key b } }
  | some (.volume v) => { s with str := { s.str with volumes := tblIns s.str.volumes r.key v } }
  | some (.shaper v) =>
    if r.key = 0xFFFFFFFF then { s with cls := { s.cls with dflt := v } }
    else s.setShaperEntry r.key { val := v, c := bucketFull v.cir v.cbs, p := bucketFull v.pir v.pbs, written := true }
  | some (.address a p) =>
    let sub := r.key / 32
    let x : SubAddr := tblGet {} s.net.addr sub
    { s with net := { s.net with
      addr := tblIns s.net.addr sub (x.put (r.key / 4 % 8) (r.key % 4) (some { addr := a, pfx := p })) } }
  | some (.allow a) => { s with net := { s.net with allow := tblIns s.net.allow r.key a } }
  | some (.image b) => { s with fct := { s.fct with images := tblIns s.fct.images r.key b } }
  | some (.attach a) => { s with fct := { s.fct with atts := tblIns s.fct.atts r.key { a with due := s.now + a.period * msec } } }
  | some (.register v) =>
    let off := r.key % 2 ^ 28
    let p := r.key / 2 ^ 28
    match regAt off with
    | some (.clsPtCap, _, _) => { s with cls := { s.cls with caps := tblIns s.cls.caps p v } }
    | some (.xbrPartMax, _, _) => { s with xbr := { s.xbr with maxes := tblIns s.xbr.maxes p v } }
    | some (.spmSlotCtl, i, _) => s.setReg .spmSlotCtl (v - v % 2) i
    | some (g, i, _) => s.setReg g v i
    | none => s
  | _ => s

/-- A tenant key's record is restored once the KEKs are there; of two keys of a volume the later record is the new one, and
the rekey walk resumes from the cursor in flash (R390, R398, R403). -/
def State.restoreKey (s : State) (r : CfgRec) : State :=
  match r.val with
  | some (.tenantKey vol phase wrapped limit mark) =>
    let k := slotOfRecord s.cph.keks vol phase wrapped limit mark
    let old := (s.cph.slots.find? fun e => e.2.volume == vol).map (·.1)
    let region := (s.sys.flash.recs.findSome? fun x => match x.val with
      | some (.rekey v c) => if v = vol then some c else none
      | _ => none).getD 0
    let s := s.setKeySlot r.key k
    { s with cph := { s.cph with
      phase := tblPut 0 s.cph.phase vol phase
      walks := match old with
        | some o => tblIns s.cph.walks vol { old := o, new := r.key, begun := true, region }
        | none => s.cph.walks } }
  | _ => s

/-- Threads 0 to 11, 14 and 15 of every present engine are started (R426, R667). -/
def State.startThreads (s : State) : State :=
  let es := (List.range 48).filter fun e => Config.enginePresent s.variant e
  let ts := [0, 1, 2, 3, 4, 5, 6, 7, 8, 9, 10, 11, 14, 15]
  let one (t : Tbl Thread) (n : Nat) : Tbl Thread :=
    tblIns t n { tblGet ({} : Thread) t n with state := .ready, pc := Config.startPc n }
  { s with fct := { s.fct with
    threads := (es.flatMap fun e => ts.map fun t => 16 * e + t).foldl one s.fct.threads } }

/-- Step 4 after the HBM is there: the three bases, the configuration area, the registers of R664 except EN of each slot, and
the resident program's threads (R667). -/
def State.stepFour (s : State) : State :=
  let s := s.setField .xbrOvfBase 39 21 (Config.bootBase 0)
  let s := s.setField .mmuKeyBase 39 26 (Config.bootBase 1)
  let s := s.setField .shdRepBase 39 30 (Config.bootBase 2)
  let s := s.setShaperEntry 0 (newShaperEntry {})
  let s := s.sys.flash.recs.foldl State.restoreRec s
  let s := s.sys.flash.recs.foldl State.restoreKey s
  s.startThreads

/-- Step 6: EN of each slot as its record has it (R664, R667). -/
def State.stepSix (s : State) : State :=
  (List.range 48).foldl (fun s sl =>
    let en := s.sys.flash.recs.any fun r => r.typ == 0x0E && r.key == Reg.off .spmSlotCtl sl && (match r.val with
      | some (.register v) => bitOf v 0
      | _ => false)
    if en && decide (sl < Config.slots s.variant) then s.writeEn sl true else s) s

/-- Steps 9 begins when every group named by a group record has been assembled, or at the deadline: PAIRING (R545, R671). -/
def State.stepNine (s : State) : State :=
  let all := s.sys.flash.recs.all fun r => r.typ != 0x07 || (match s.group r.key with
    | some g => g.online
    | none => false)
  if s.sys.started && s.shd.role == .pairing && s.shd.pairStart.isNone && (all || s.sys.deadlinePassed) then
    let s := s.setField .sysBoot 31 28 9
    { s with shd := { s.shd with pairStart := some s.now } }
  else s

/-- Start-up, steps 1 to 6, and step 9 where no group is waited for (R667). Its own time is left out (log entry 66). -/
def State.startUp (s : State) : State :=
  match s.romStep with
  | (s, false) => s
  | (s, true) =>
    let s := (List.range 168).foldl State.bringUp s
    let s := (s.stepFour.setReg .sysMode 0).setField .sysBoot 31 28 7
    let s : State := { s with sys := { s.sys with started := true, serviceAt := some s.now } }
    s.stepSix.stepNine

/-- A COLD reset and the start-up that follows (R650, R667). -/
def State.coldReset (s : State) : State := s.coldBase.startUp

/-- A WARM reset and the start-up that follows (R650, R654, R667). -/
def State.warmReset (s : State) (cause : Nat) : State := (s.warmBase cause).startUp

def execPorstN (s : State) : Outcome := .next s.coldReset

/-- WARM_RST_N (R650, R695). -/
def execWarmRstN (s : State) : Outcome := .next (s.warmReset 2)

/-- JTAG starts a WARM reset (R650). -/
def execJtagReset (s : State) : Outcome := .next (s.warmReset 7)

/-! ### The Mirror link lost while a fatal event is handled (R695) -/

/-- What the loss of the Mirror link means to a complete fatal-state image: a WARM reset at once, unless HOLD is set
(R689, R695). `was` says that the link was up before. -/
def State.fatalUnlinked (s : State) (was : Bool) : State :=
  let done := match s.sys.fatal with | some f => f.complete.isSome | none => false
  if was && !(s.shd.halfA || s.shd.halfB) && done && !s.bit .sysErrCtl 30 then s.warmReset 6 else s

/-- MIRROR_LINK_LOSS (R548, R572, R695). -/
def execMirrorLinkLoss (s : State) : Outcome := .next (s.mirrorLoss.fatalUnlinked (s.shd.halfA || s.shd.halfB))

/-- MIRROR_LINK_HALF_CHANGE (R548, R695). -/
def execMirrorLinkHalfChange (half : Nat) (up : Bool) (s : State) : Outcome :=
  .next ((s.mirrorHalf half up).fatalUnlinked (s.shd.halfA || s.shd.halfB))

/-! ### Steps 7 to 9: drives and groups (R667 to R673) -/

def execDriveReady (slot : Nat) (id : DriveId) (label : Bytes) (reads : List (Nat × Nat × List Nat)) (s : State) :
    Outcome :=
  .next (s.driveBecomesReady slot id label reads).stepNine

def execAssemblyDeadline (reads : List (Nat × Nat × List Nat)) (s : State) : Outcome :=
  .next (s.assemblyDeadline reads).stepNine

/-! ### The ORDERLY reset (R652, R655, R679) -/

/-- A label write is outstanding. -/
def State.labelling (s : State) : Bool := s.str.mem.any fun m => match m.who with
  | .label _ => true
  | _ => false

/-- CLEAN is set in every member's label (R151, R652). -/
def State.cleanLabels (s : State) : State :=
  (s.str.groups.filter fun e => e.2.online).foldl (fun s e =>
    (s.updGroup e.1 fun g => { g with clean := true }).rewriteLabels e.1) s

/-- The steps of R652 begin, in the role the controller holds. -/
def State.orderlyBegin (s : State) (cause : Nat) : State :=
  let wait (s : State) (w : OrderlyWait) : State := { s with sys := { s.sys with orderly := some (cause, w) } }
  match s.shd.role with
  | .solo =>
    let qs := (s.qpe.qps.filter fun e => e.2.state != .free).map (·.1)
    wait ((qs.foldl (fun s q => s.resetReach q .controller) s).flow) .drain
  | .active => wait s.releaseShelf .release
  | .shadow => s.sendLeave.warmReset cause
  | _ => s.warmReset cause

/-- RESET_CONTROLLER runs (R655): its completion is to be posted before the steps of R652 begin. -/
def State.resetStart (s : State) (seq : Nat) : State :=
  let s := ((s.markPast seq).finish seq stSuccess 0).flow
  { s with sys := { s.sys with orderly := some (5, .posting seq) } }

/-- An ORDERLY reset goes on when what it waits for is over (R652, R655, R678). -/
def State.orderlyOnce (s : State) : State :=
  match s.sys.orderly with
  | none => s
  | some (_, .activation seq) =>
    if s.sys.activation.isSome then s
    else match s.cmd seq with
      | some c => if c.phase = .finished then { s with sys := { s.sys with orderly := none } } else s.resetStart seq
      | none => { s with sys := { s.sys with orderly := none } }
  | some (cause, .posting seq) => if s.qpe.cmds.any fun c => c.seq == seq then s else s.orderlyBegin cause
  | some (cause, .drain) =>
    if (s.qpe.qps.any fun e => e.2.state == .draining) ∨ !s.str.opens.isEmpty then s
    else
      let s := s.cleanLabels
      if s.labelling then { s with sys := { s.sys with orderly := some (cause, .labels) } } else s.warmReset cause
  | some (cause, .labels) => if s.labelling then s else s.warmReset cause
  | some (cause, .release) => if s.shd.role = .fenced then s.warmReset cause else s

/-- An ORDERLY reset goes as far as it can. -/
def State.orderlyStep (s : State) : State := s.orderlyOnce.orderlyOnce.orderlyOnce.orderlyOnce

/-- RESET_CONTROLLER (R655, R678); it is held while a hitless activation is in progress. -/
def State.resetController (s : State) (c : Cmd) : State :=
  if s.sys.orderly.isSome then ((s.markPast c.seq).finish c.seq stSuccess 0).flow
  else if s.sys.activation.isSome then
    { s.markWaiting c.seq with sys := { (s.markWaiting c.seq).sys with orderly := some (5, .activation c.seq) } }
  else (s.resetStart c.seq).orderlyStep

def execResetController (qp cid : Nat) (s : State) : Outcome :=
  .next (s.adminRun qp cid 0x40 State.resetController)

/-- A write of SYS_RST acts (R679): by Basalt or JTAG, with its KEY. -/
def rstKey (req : Requester) (v : Nat) : Bool :=
  (match req with | .thread _ _ => false | _ => true) && v % 2 ^ 16 == 0x0B07

/-- SYS_RST with WARM (R650, R679). -/
def State.rstWarm (s : State) (req : Requester) (v : Nat) : State :=
  if rstKey req v && bitOf v 31 then s.warmReset 3 else s

/-- SYS_RST with ORDERLY (R652, R679). -/
def State.rstOrderly (s : State) (req : Requester) (v : Nat) : State :=
  if rstKey req v && bitOf v 30 && s.sys.orderly.isNone then (s.orderlyBegin 4).orderlyStep else s

/-- Island 165 is down, in Glimmer sleep, unless the requester is JTAG. -/
def State.sysDown (s : State) (req : Requester) : Bool := s.glm.asleep && req != .jtag

def execSysRstWarm (req : Requester) (v : Word) (s : State) : Outcome :=
  .next (if s.sysDown req then s else s.rstWarm req v.toNat)
def execSysRstOrderly (req : Requester) (v : Word) (s : State) : Outcome :=
  .next (if s.sysDown req then s else s.rstOrderly req v.toNat)

/-! ### Configuration records (R661, R662, R683) and the console (R666, R683) -/

/-- A record's MARK is in flash (R397). -/
def State.recordDone (s : State) (r : CfgRec) : State :=
  let s := if r.typ = 0x05 then s.markCheck r.key else s
  let s := if r.typ ≠ 0x07 then s
    else (s.str.opens.filter fun o => o.group == r.key && o.afterRecord).foldl (fun s o => s.stripeAdvance o.group o.stripe) s
  let s := if s.sys.flash.queue.isEmpty then
      let s := s.shd.flashDue.foldl State.ackFlash s
      { s with shd := { s.shd with flashDue := [] } }
    else s
  let s := if r.typ = 0x02 ∧ s.sys.adminWaits then
      { s.emit (.uart ("ok".toList.map fun c => BitVec.ofNat 8 c.toNat)) with sys := { s.sys with adminWaits := false } }
    else s
  s.settle.flow

/-- CONFIG_RECORD_WRITTEN: the oldest record being programmed has been read back, or three tries have failed, which sources
14 and leaves it unwritten (R662, R683). -/
def State.recordWritten (s : State) (ok : Bool) : State :=
  match s.sys.flash.queue with
  | [] => s
  | r :: rest =>
    if !ok then s.err 14
    else
      (({ s with sys := { s.sys with flash := { s.sys.flash with queue := rest } } } : State).placeRecord r).recordDone r

def execConfigRecordWritten (ok : Bool) (s : State) : Outcome := .next (s.recordWritten ok)

/-- The value of a hexadecimal digit. -/
def hexDigit (b : Byte) : Option Nat :=
  let n := b.toNat
  if 0x30 ≤ n ∧ n ≤ 0x39 then some (n - 0x30)
  else if 0x41 ≤ n ∧ n ≤ 0x46 then some (n - 0x37)
  else if 0x61 ≤ n ∧ n ≤ 0x66 then some (n - 0x57)
  else none

/-- The bytes of a string of hexadecimal digits. -/
def hexBytes : Bytes → Option Bytes
  | [] => some []
  | [_] => none
  | a :: b :: t => match hexDigit a, hexDigit b, hexBytes t with
    | some x, some y, some r => some (BitVec.ofNat 8 (16 * x + y) :: r)
    | _, _, _ => none

/-- The ASCII bytes of a word. -/
def ascii (w : String) : Bytes := w.toList.map fun c => BitVec.ofNat 8 c.toNat

/-- Every field of an ADMIN record is in range (R666). -/
def adminOk (b : Bytes) : Bool :=
  let fam := byteAt b 0
  let win := leAt b 4 2
  let sq := leAt b 8 4
  let cq := leAt b 12 4
  let pfx := byteAt b 32
  let cred := leAt b 72 4
  b.length == 80 && (fam == 4 || fam == 6) && decide (byteAt b 1 ≤ 1) && decide (1 ≤ win ∧ win ≤ 256)
    && zeroRange b 6 7 && decide (2 ≤ sq ∧ sq ≤ 4096) && decide (2 ≤ cq ∧ cq ≤ 4096)
    && decide (1 ≤ pfx ∧ pfx ≤ if fam = 4 then 32 else 128) && zeroRange b 33 39
    && (fam == 6 || zeroRange b 20 31 && zeroRange b 44 55)
    && leAt b 56 8 % 64 == 0 && leAt b 64 8 % 32 == 0 && decide (1 ≤ cred ∧ cred < 2 ^ 31) && zeroRange b 76 79

/-- An input of a management interface is rejected (R683, R699). -/
def State.inBad (s : State) : State := s.count .sysInBad

/-- A whole console line (R666). -/
def State.uartLine (s : State) (l : Bytes) : State :=
  let s : State := { s with sys := { s.sys with uart := none } }
  if 256 < l.length then s.inBad.emit (.uart (ascii "err"))
  else if l.take 5 ≠ ascii "admin" then s
  else
    match hexBytes ((l.drop 5).filter fun b => b != 0x20#8) with
    | some b =>
      if adminOk b then
        { s.cfgPut 0x02 0 (some (.admin b)) with sys := { (s.cfgPut 0x02 0 (some (.admin b))).sys with adminWaits := true } }
      else s.emit (.uart (ascii "err"))
    | none => s.emit (.uart (ascii "err"))

/-- UART_ADMIN_LINE: characters of the console; a line feed or carriage return ends the line (R666). -/
def State.uartChars (s : State) (b : Bytes) : State :=
  let (old, t) := s.sys.uart.getD ([], s.now)
  let all := old ++ b
  let isEnd (x : Byte) : Bool := x == 0x0A#8 || x == 0x0D#8
  if all.any isEnd then s.uartLine (all.takeWhile fun x => !isEnd x)
  else { s with sys := { s.sys with uart := some (all, t) } }

/-- UART_LINE_TIMEOUT (R683): a line unfinished for 1 s is discarded. -/
def State.uartTimeout (s : State) : State :=
  match s.sys.uart with
  | none => s
  | some (_, t) =>
    let s := s.advanceTo (t + 1000 * msec)
    (({ s with sys := { s.sys with uart := none } } : State).inBad).emit (.uart (ascii "err"))

def execUartAdminLine (chars : Bytes) (s : State) : Outcome := .next (s.uartChars chars)
def execUartLineTimeout (s : State) : Outcome := .next s.uartTimeout

end Sys2Proof.Machine
end

