-- ==== Sys2Proof/Machine/FctSys.lean ====
section
/-! DEFINITION. Facet system instructions: CSRs (R495 to R497, R506), TRAP, ERET, WAIT, YIELD and FENCE (R492, R493,
R497 to R499), and the capture of a thread (R462). -/

namespace Sys2Proof.Machine

/-! ### CSRs (R495, R496) -/

/-- A number names a CSR (R496). -/
def csrNamed (n : Nat) : Bool := decide (n ≤ 4) || decide (8 ≤ n ∧ n < 16) || n == 0x40 || decide (0x80 ≤ n ∧ n ≤ 0x8F)

/-- A CSR can be written (R496). -/
def csrWritable (n : Nat) : Bool := n == 0x40 || decide (0x80 ≤ n ∧ n ≤ 0x8F)

/-- A CSR may be read in U mode (R455, R496). -/
def State.csrUser (s : State) (n : Nat) : Bool :=
  if n = 2 then s.bit .pmcUacc 0 else if 8 ≤ n ∧ n < 16 then s.bit .pmcUacc 1 else decide (n < 0x80)

/-- CYCLE of an engine: 2.0 GHz cycles since its island left OFF (R454). -/
def State.cycleOf (s : State) (e : Nat) : Nat := 2 * (s.now - (s.eng e).since)

/-- The request each engine of a cluster presents: its oldest one of thread 14 or 15 that waits for a grant, else its oldest
(R361). -/
def Cluster.presented (k : Cluster) (e : Nat) : Option AccReq :=
  let mine := k.acc.filter fun a => a.engine == e && !a.granted
  match mine.find? fun a => decide (14 ≤ a.thread) with
  | some a => some a
  | none => mine.head?

/-- Engines of a cluster in the order the arbiter would grant them, if the requests present did not change: the Class 0
ones from the Class 0 pointer, then the others from the other pointer (R363). -/
def State.grantOrder (s : State) (c : Nat) : List Nat :=
  let k := s.clu c
  let n := Config.enginesPerCluster s.variant
  let from_ (p : Nat) (c0 : Bool) : List Nat :=
    ((List.range n).map fun i => (p + i) % n).filter fun i =>
      match k.presented (12 * c + i) with | some a => a.c0 == c0 | none => false
  from_ k.ptr0 true ++ from_ k.ptr false

/-- ACCHINT of a thread (R365, R491): the data phases granted ahead of its oldest request that waits for a grant. -/
def State.accHint (s : State) (e t : Nat) : Nat :=
  let k := s.clu (e / 12)
  if k.acc.any fun a => a.engine == e && a.thread == t && !a.granted then
    16 + min 15 ((s.grantOrder (e / 12)).takeWhile (· != e % 12)).length
  else 0

/-- The value of a CSR (R496). -/
def State.csrRead (s : State) (e t n : Nat) : DWord :=
  let x := s.thr e t
  match n with
  | 0x00 => BitVec.ofNat 64 (t + e * 2 ^ 4 + e / 12 * 2 ^ 10)
  | 0x01 => BitVec.ofNat 64 s.gnmNs
  | 0x02 => BitVec.ofNat 64 (s.cycleOf e)
  | 0x03 => BitVec.ofNat 64 (s.accHint e t)
  | 0x04 => BitVec.ofNat 64 (s.dmaOut e t + 2 ^ 8 * s.accOut e t)
  | 0x89 => x.preds.setWidth 64
  | 0x8A => 0#64
  | _ =>
    if n < 16 then
      if n - 8 < Config.pmcProg s.variant then BitVec.ofNat 64 (s.reg (pmcCount (n - 8)) e) else 0#64
    else x.csrAt n

/-- The bits of a CSR that can be written (R496, R497, R506). -/
def csrMask (n : Nat) : DWord :=
  match n with
  | 0x80 => 3#64
  | 0x81 | 0x82 => ~~~3#64
  | 0x83 => 0xFF#64
  | 0x8C => 0xFFFF#64
  | 0x8D => 0xFFFFFFF000#64
  | 0x8E => 1#64
  | 0x8F => 0x3FF00#64
  | _ => BitVec.allOnes 64

/-- Write a CSR (R496): SIGNAL latches the event in the thread it names, whose other bits are ignored (log entry 59); an
absent engine traps UNIT_ABSENT. -/
def State.csrWrite (s : State) (e t n : Nat) (v : DWord) : Except Trap State :=
  if n = 0x8A then
    let e' := bitsOf v.toNat 15 10
    if Config.enginePresent s.variant e' then .ok (s.latch e' (v.toNat % 16) 4) else .error ⟨0x09, none⟩
  else if n = 0x89 then .ok (s.updThr e t fun x => { x with preds := v.setWidth 8 ||| 1#8 })
  else .ok (s.updThr e t fun x => x.setCsr n (v &&& csrMask n))

/-- A CSR instruction (R495): the trap of a number, a mode or a write that is not permitted; else rd receives the old
value (`rd` none: no register), and the CSR the value `f` gives of it (`f` none: no write). -/
def State.csrInstr (s : State) (e t n : Nat) (rd : Option (Fin 32)) (f : Option (DWord → DWord)) : Res :=
  let x := s.thr e t
  if !csrNamed n || (f.isSome && !csrWritable n) then .trap s ⟨0x01, none⟩
  else if x.umode && !s.csrUser n then .trap s ⟨0x02, none⟩
  else
    let old := s.csrRead e t n
    let w := match f with | some f => s.csrWrite e t n (f old) | none => .ok s
    match w with
    | .error tr => .trap s tr
    | .ok s => .retire (match rd with | some r => s.updThr e t fun x => x.setReg r old | none => s) none

/-- A CSR number of 8 bits. -/
abbrev CsrNo := BitVec 8

def execGetc (e t : Nat) (g : Guard) (rd : Fin 32) (csr : BitVec 8) (s : State) : Outcome :=
  .next (s.instr e t g false fun s => s.csrInstr e t csr.toNat (some rd) none)
def execPutc (e t : Nat) (g : Guard) (csr : BitVec 8) (ra : Fin 32) (s : State) : Outcome :=
  .next (s.instr e t g false fun s =>
    let v := (s.thr e t).reg ra
    s.csrInstr e t csr.toNat none (some fun _ => v))
def execSwpc (e t : Nat) (g : Guard) (rd : Fin 32) (csr : BitVec 8) (ra : Fin 32) (s : State) : Outcome :=
  .next (s.instr e t g false fun s =>
    let v := (s.thr e t).reg ra
    s.csrInstr e t csr.toNat (some rd) (some fun _ => v))

/-- One bit of a doubleword set or cleared (R495). -/
def putBit (a : DWord) (n : Nat) (v : Bool) : DWord := if v then a ||| (1#64 <<< n) else a &&& ~~~(1#64 <<< n)

/-- BITC (R495): BITC of SIGNAL is ILLEGAL. -/
def execBitc (e t : Nat) (g : Guard) (rd : Fin 32) (csr : BitVec 8) (n : Fin 64) (v : Bool) (s : State) : Outcome :=
  .next (s.instr e t g false fun s =>
    if csr.toNat = 0x8A then .trap s ⟨0x01, none⟩
    else s.csrInstr e t csr.toNat (some rd) (some fun a => putBit a n.val v))

/-! ### TRAP and ERET (R497, R498) -/

def execTrap (e t : Nat) (g : Guard) (code : BitVec 12) (s : State) : Outcome :=
  .next (s.instr e t g false fun s => .trap s ⟨0x0A, some code.toNat⟩)

/-- ERET (R497): in U mode it traps with cause PRIV (R428), and with cause ILLEGAL while INTRAP is 0. -/
def execEret (e t : Nat) (g : Guard) (s : State) : Outcome :=
  .next (s.instr e t g false fun s =>
    let x := s.thr e t
    if x.umode then .trap s ⟨0x02, none⟩
    else if !x.intrap then .trap s ⟨0x01, none⟩
    else .retire (s.setThr e t { (x.setCsr 0x80 (x.csrAt 0x80 &&& ~~~1#64)) with umode := x.pmode }) (some (x.csrAt 0x82)))

/-! ### WAIT and YIELD (R492, R493) -/

/-- WAIT (R492). -/
def execWait (e t : Nat) (g : Guard) (rd rb : Fin 32) (s : State) : Outcome :=
  .next (s.instr e t g false fun s =>
    let x := s.thr e t
    let mask : BitVec 16 := (x.reg rb).setWidth 16
    let ev := s.eventsOf e t &&& mask
    if x.umode ∧ mask &&& ~~~0xD#16 ≠ 0#16 then .trap s ⟨0x02, none⟩
    else if mask = 0#16 ∨ ev ≠ 0#16 then
      .retire (s.setThr e t ((x.clearEvents ev).setReg rd (ev.setWidth 64)))
    else .hold (s.setThr e t { x with state := .waiting, wait := some { rd := rd.val, mask, since := s.now } }))

/-- YIELD (R493). -/
def execYield (e t : Nat) (g : Guard) (s : State) : Outcome :=
  .next (s.instr e t g false fun s => .retire (s.updThr e t fun x => { x with yielded := true }))

def execTimerEvent (e t : Nat) (s : State) : Outcome := .next (s.timerEvent e t)
def execDmaFaultTrap (e t : Nat) (s : State) : Outcome := .next (if s.engineRuns e then s.dmaTrap e t else s)

/-! ### FENCE (R499) -/

/-- The physical line of a virtual address, where it has one (R499): no trap, no permission. -/
def State.lineOf (s : State) (e t va : Nat) : State × Option Nat :=
  let x := s.thr e t
  if !x.umode && !(x.csrAt 0x8E).getLsbD 0 then (s, if va < 2 ^ 40 then some (va / 64) else none)
  else
    let (s, r) := s.lookup e t va
    (s, r.map fun y => (y.ppage + (va - y.vpage)) / 64)

/-- What a form does to a line of the data cache (R499): 1 WB, 2 INV, 3 WBINV. -/
def State.fenceLine (s : State) (e form line : Nat) : State :=
  match form with
  | 1 => s.cleanLine e line
  | 2 =>
    let g := s.eng e
    s.setEng e { g with dcache := tblDel g.dcache line }
  | _ => s.evict e line

/-- The lines `n` on from virtual line `v` (R499). -/
def State.fenceRange (s : State) (e t form v : Nat) : Nat → State
  | 0 => s
  | n + 1 =>
    let (s, r) := s.lineOf e t (64 * v)
    let s := match r with | some l => s.fenceLine e form l | none => s
    s.fenceRange e t form (v + 1) n

/-- Lines that hold a byte from `a` to `a + n - 1` (R499). -/
def fenceLines (a n : Nat) : Nat := if n = 0 then 0 else (a + n - 1) / 64 + 1 - a / 64

/-- FENCE (R499, R533, R536): forms 4 and 5 in K mode only; a pre-emption takes the lines done first, and the rest on
resume. -/
def execFence (e t : Nat) (g : Guard) (ra rb : Fin 32) (form : Fin 128) (pre : Option Cut) (s : State) : Outcome :=
  let f := form.val
  .next (s.instr e t g (decide (5 < f) || ((f == 0 || f == 4 || f == 5) && (ra != 0 || rb != 0))) (pre := pre) fun s =>
    let x := s.thr e t
    if x.umode ∧ 4 ≤ f then .trap s ⟨0x02, none⟩
    else if f = 0 then .retire s
    else if f = 5 then .retire (s.setEng e { s.eng e with icache := [] })
    else
      let done := match s.resumed e t with | some (2, n, _, _) => n | _ => 0
      let lines := if f = 4 then ((s.eng e).dcache.map (·.1)) else []
      let v := (x.reg ra).toNat / 64
      let total := if f = 4 then done + lines.length else fenceLines (x.reg ra).toNat (x.reg rb).toNat
      let run (s : State) (n : Nat) : State :=
        if f = 4 then (lines.take n).foldl (fun s l => s.evict e l) s else s.fenceRange e t f (v + done) n
      match s.cutOk e t pre with
      | some c =>
        let n := min (c.progress.getD 0) (total - done)
        .cut ((run s n).preempt e t c.by_ 2 (done + n) 0 [])
      | none => .retire (run s (total - done)))

/-! ### The capture of a thread (R462) -/

/-- FCT_THR_SEL (R462): the state of the selected thread is captured. -/
def State.thrCapture (s : State) (w : Nat) : State :=
  let e := bitsOf w 13 8
  let t := bitsOf w 3 0
  let s := s.setReg .fctThrSel (e * 2 ^ 8 + t)
  let x := s.thr e t
  let v := if Config.enginePresent s.variant e then
      b2n x.umode * 2 ^ 30 + b2n x.intrap * 2 ^ 29 + x.inbox.length * 2 ^ 24 + (x.csrAt 0x83).toNat * 2 ^ 16
        + x.state.code
    else 0
  s.setReg .fctThrState (2 ^ 31 + v)

def execFctThrSel (v : Word) (s : State) : Outcome := .next (s.whenOn 144 fun s => s.thrCapture v.toNat)
def execPmcSampleEnable (v : Word) (s : State) : Outcome := .next (s.whenOn 144 fun s => s.smpCtl v.toNat)
def execMmuInvalidate (v : Word) (s : State) : Outcome := .next (s.whenOn 144 fun s => s.mmuInvCtl v.toNat)
def execInvalidationComplete (s : State) : Outcome := .next s.invalDone

end Sys2Proof.Machine
end

