-- ==== Sys2Proof/Machine/Gnomon.lean ====
section
/-! DEFINITION. Gnomon: the alignment to the PPS input (R640 to R649). -/

namespace Sys2Proof.Machine

/-- The state of Gnomon becomes `g`, which makes source 24 pending (R643). -/
def State.gnmTo (s : State) (g : GnmState) : State :=
  let s : State := { s with gnm := { s.gnm with state := g } }
  (if g = .holdover then s.count .gnmHoldover else s).raise 24

/-- Reference periods of 25 MHz since the candidate or the last accepted edge (R642). -/
def State.periods (s : State) : Nat := (s.now - s.gnm.edgeAt.getD s.now) / 40

/-- `n` periods lie inside window `k` (R642). -/
def inWindow (n k : Nat) : Bool := decide (k * 24997500 ≤ n ∧ n ≤ k * 25002500)

/-- RATE for a correction of `c` ns when `n` periods filled window `k`, rounded to the nearest integer (R644). -/
def rateFor (c : Int) (n k : Nat) : Int :=
  let d : Int := 40 * n
  let num : Int := ((1000000000 - c) * k - d) * 2 ^ 32
  (2 * num + d) / (2 * d)

/-- The edge becomes the candidate: ACQUIRE (R643). -/
def State.candidate (s : State) : State :=
  let was := s.gnm.state
  let s : State := { s with gnm := { s.gnm with edgeAt := some s.now } }
  if was = .acquire then s else s.gnmTo .acquire

/-- The accepted edge aligns time and rate (R644); the microseconds it steps over yield one policer refill (R645). -/
def State.align (s : State) (k : Nat) : State :=
  let n := s.periods
  let t := s.gnmNs
  let sec := (t + 500000000) / 1000000000 * 1000000000
  let e : Int := (t : Int) - sec
  let step := s.gnm.state == .acquire && decide (e < 0) && s.bit .gnmCtl 1
  let e := if step then 0 else e
  let time := if step then sec * 2 ^ 32 else s.gnm.time
  let adj := if s.gnm.secPending then s.field .gnmSecAdj 15 0 else 0
  let time := time + adj * 1000000000 * 2 ^ 32
  let c : Int := min (max e (-200000)) 200000
  let late := time / 2 ^ 32 / 1000 - t / 1000
  { s with
    cls := { s.cls with refilled := s.cls.refilled + (late - 1) }
    gnm := { s.gnm with
      time, rate := rateFor c n k, rateNext := some (rateFor 0 n k), missed := 0, edgeAt := some s.now
      edge := time / 2 ^ 32, phase := e, secPending := false } }

/-- A qualified PPS edge (R643). -/
def State.ppsEdge (s : State) : State :=
  if !(s.isOn 164 && s.bit .gnmCtl 0) then s
  else
    match s.gnm.state with
    | .free | .holdover => s.candidate
    | .acquire =>
      if inWindow s.periods 1 then (s.align 1).gnmTo .locked else (s.count .gnmPpsBad).candidate
    | .locked =>
      match [1, 2, 3].find? (inWindow s.periods) with
      | some k => s.align k
      | none => (s.count .gnmPpsBad).raise 25

/-- The next window closes with no edge accepted; the third such close enters HOLDOVER (R643). -/
def State.ppsWindowClose (s : State) : State :=
  if s.isOn 164 && s.gnm.state == .locked then
    let k := s.gnm.missed + 1
    let s := (s.advanceTo (s.gnm.edgeAt.getD s.now + k * 25002500 * 40)).count .gnmPpsMiss
    let s : State := { s with gnm := { s.gnm with missed := k } }
    if k = 3 then s.gnmTo .holdover else s
  else s

/-- The next whole second: the frequency-only rate takes over (R644). -/
def State.rateSecond (s : State) : State :=
  if s.isOn 164 && s.gnm.rateNext.isSome then
    s.advance (s.gnm.cyclesTo ((s.gnmNs / 1000000000 + 1) * 1000000000 * 2 ^ 32))
  else s

/-- PPS_EN is cleared: ACQUIRE and LOCKED go to HOLDOVER (R643). -/
def State.ppsDisable (s : State) : State :=
  let s := s.setField .gnmCtl 0 0 0
  if s.gnm.state = .acquire ∨ s.gnm.state = .locked then s.gnmTo .holdover else s

/-- A write of SEC_ADJ: a value other than 0 sets PENDING, and 0 clears it (R648). -/
def State.secAdj (s : State) (v : Nat) : State :=
  let s := s.setField .gnmSecAdj 15 0 v
  { s with gnm := { s.gnm with secPending := v != 0 } }

def execPpsEdge (s : State) : Outcome := .next s.ppsEdge
def execPpsWindowClose (s : State) : Outcome := .next s.ppsWindowClose
def execRateSecond (s : State) : Outcome := .next s.rateSecond
def execPpsDisable (s : State) : Outcome := .next (if s.isOn 164 then s.ppsDisable else s)

end Sys2Proof.Machine
end

