-- ==== Sys2Proof/Machine/Icu.lean ====
section
/-! DEFINITION. The interrupt controller (R625 to R638) and Glimmer (R631 to R634). -/

namespace Sys2Proof.Machine

/-! ### The interrupt controller -/

/-- Bit `n` of a source array. -/
def srcBit (b : BitVec 4096) (n : Nat) : Bool := b.getLsbD n

/-- Sources active on some core (R626). -/
def State.actives (s : State) : BitVec 4096 :=
  s.icu.active.foldl (fun b a => match a with | some n => b ||| (1#4096 <<< n) | none => b) 0#4096

/-- Pending sources: the latched bits, and each level source whose condition holds and which is not active (R626,
R629, R696). -/
def State.pendings (s : State) : BitVec 4096 :=
  s.icu.pend ||| (BitVec.ofNat 4096 (s.reg .sysErrStat % 2 ^ 16) &&& ~~~s.actives)

/-- The core a source is routed to (R638). -/
def State.routeOf (s : State) (n : Nat) : Nat := s.field .icuRoute (2 * (n % 16) + 1) (2 * (n % 16)) (n / 16)

/-- The source core `k` would claim: the lowest-numbered one pending, unmasked and routed to it, when no source is active
there (R628). -/
def State.claimable (s : State) (k : Nat) : Option Nat :=
  if (s.icu.active.getD k none).isSome then none
  else
    let b := s.pendings &&& ~~~s.icu.mask
    if b = 0#4096 then none else (List.range 4096).find? fun n => srcBit b n && s.routeOf n == k

/-- A read of ICU_CLAIM_k (R628, R636). -/
def State.icuClaim (s : State) (req : Requester) (k : Nat) : State :=
  let off := Reg.off .icuClaim k
  match if req = .basalt k ∧ k < 4 then s.claimable k else none with
  | none => s.emit (.readData req off 0)
  | some n =>
    { s.emit (.readData req off (2 ^ 31 + n)) with
      icu := { s.icu with pend := s.icu.pend &&& ~~~(1#4096 <<< n), active := setAt s.icu.active k (some n) } }

/-- A write of ICU_EOI_k (R629). -/
def State.icuEoi (s : State) (k n : Nat) : State :=
  if k < 4 ∧ s.icu.active.getD k none = some n then
    { s with icu := { s.icu with active := setAt s.icu.active k none } }
  else s.count .icuSpur

/-- Word `w` of a source array with the bits of `v` at their places (R637). -/
def wordAt (w v : Nat) : BitVec 4096 := BitVec.ofNat 4096 (v % 2 ^ 32) <<< (32 * w)

/-- Word `w` of a source array. -/
def wordOf (b : BitVec 4096) (w : Nat) : Nat := (b >>> (32 * w)).toNat % 2 ^ 32

/-- A write of ICU_MASK_SET_w or ICU_MASK_CLR_w (R627). -/
def State.icuMask (s : State) (w v : Nat) (on : Bool) : State :=
  let b := wordAt w v
  { s with icu := { s.icu with mask := if on then s.icu.mask ||| b else s.icu.mask &&& ~~~b } }

/-- A write of ICU_PEND_SET_w or ICU_PEND_CLR_w (R627); a level source whose condition holds is pending again at once. -/
def State.icuPend (s : State) (w v : Nat) (on : Bool) : State :=
  let b := wordAt w v
  { s with icu := { s.icu with pend := if on then s.icu.pend ||| b else s.icu.pend &&& ~~~b } }

/-- The fabric and the interrupt controller run: Glimmer has not taken their islands to RETAIN. -/
def State.whenAwake (s : State) (f : State → State) : Outcome := .next (if s.glm.asleep then s else f s)

def execIcuClaim (req : Requester) (k : Nat) (s : State) : Outcome := s.whenAwake fun s => s.icuClaim req k
def execIcuEoi (k n : Nat) (s : State) : Outcome := s.whenAwake fun s => s.icuEoi k n
def execIcuMaskSet (w : Nat) (v : Word) (s : State) : Outcome := s.whenAwake fun s => s.icuMask w v.toNat true
def execIcuMaskClr (w : Nat) (v : Word) (s : State) : Outcome := s.whenAwake fun s => s.icuMask w v.toNat false
def execIcuPendSet (w : Nat) (v : Word) (s : State) : Outcome := s.whenAwake fun s => s.icuPend w v.toNat true
def execIcuPendClr (w : Nat) (v : Word) (s : State) : Outcome := s.whenAwake fun s => s.icuPend w v.toNat false

/-! ### Glimmer -/

/-- A write of SLEEP (R632 step 3). -/
def State.glimmerSleep (s : State) : State := { s with glm := { s.glm with asked := true } }

/-- All four cores wait for an interrupt: Glimmer refuses, or takes over the pending state and islands 165 and 166 go to
RETAIN (R632 steps 4 to 6). -/
def State.glimmerEnter (s : State) : State :=
  if !s.glm.asked || s.glm.asleep then s
  else
    let s : State := { s with glm := { s.glm with asked := false } }
    if (List.range 64).any fun i => s.bit .glmWatch 31 i && srcBit s.pendings (s.field .glmWatch 11 0 i) then
      s.setField .glmCtl 30 30 1
    else
      let down (s : State) (i : Nat) : State :=
        let x := s.island i
        (s.setIsland i { x with state := .retain, busy := none, trans := s.gnmNs }).trace 1 i
      let s := down (down s 165) 166
      let s : State := { s with glm := { s.glm with asleep := true, since := some s.now } }
      (s.raise 229).raise 230

/-- The wake timer expires (R631, R633): periods of the 32.768 kHz clock from sleep entry. -/
def State.glimmerTimer (s : State) : State :=
  let ticks := s.field .glmTimer 23 0
  if s.glm.asleep && ticks != 0 && !s.glm.clockLost then
    let s := s.advanceTo (s.glm.since.getD s.now + ceilDiv (ticks * 1000000000) 32768)
    { s with glm := { s.glm with latched := s.glm.latched ||| (1#4096 <<< 27) } }.wake none
  else s

def execGlimmerSleep (core : Nat) (s : State) : Outcome :=
  s.whenAwake fun s => if core < 4 then s.glimmerSleep else s
def execGlimmerSleepEnter (s : State) : Outcome := .next s.glimmerEnter
def execGlimmerTimer (s : State) : Outcome := .next s.glimmerTimer

end Sys2Proof.Machine
end

