-- ==== Sys2Proof/Machine/RegView.lean ====
section
/-! DEFINITION. What a register holds in its owning island: the stored word with the fields that other state gives, and
the fabric's sample of it (R9, R18, R609, R611). -/

namespace Sys2Proof.Machine

/-- The bits of a field, in place. -/
def RegField.mask (f : RegField) : Nat := (2 ^ (f.msb + 1 - f.lsb) - 1) * 2 ^ f.lsb

/-- The bits of a register whose access codes `p` picks. -/
def Reg.maskOf (r : Reg) (p : Acc → Bool) : Nat :=
  r.info.fields.foldl (fun a f => if p f.acc then a ||| f.mask else a) 0

/-- A register of an absent unit (R9): its owning island is FUSED, its slot or rail group is beyond the variant's (R582), or
its counter is beyond PMC_PROG (R460). -/
def State.absentReg (s : State) (r : Reg) (i : Nat) : Bool :=
  match r with
  | .sysIsl => false
  | .spmSlotCtl | .spmSlotSt => decide (Config.slots s.variant ≤ i)
  | .spmRail => !s.railPresent i
  | .pmcEvsel4 | .pmcEvsel5 | .pmcEvsel6 | .pmcEvsel7 | .pmcCnt4 | .pmcCnt5 | .pmcCnt6 | .pmcCnt7 =>
    Config.pmcProg s.variant == 4 || Config.fused s.variant (r.owner i)
  | _ => Config.fused s.variant (r.owner i)

/-- PROGRESS of a member, percent (R221). -/
def State.progress (s : State) (m : Member) : Nat :=
  let total := match s.group m.group with | some g => g.stripes | none => 0
  match m.state with
  | .rebuilding => if total = 0 then 100 else min 100 (m.rebuild * 100 / total)
  | .refilling => if total = 0 then 100 else min 100 (m.refill * 100 / total)
  | .returning => if m.stale0 = 0 then 100 else (m.stale0 - m.stale.length) * 100 / m.stale0
  | _ => 0

/-- STR_MBR_s (R221). -/
def State.mbrWord (s : State) (sl : Nat) : Nat :=
  match s.member sl with
  | none => 0
  | some m =>
    let rep := match s.group m.group with | some g => g.replicas.contains sl | none => false
    2 ^ 31 + m.group % 64 * 2 ^ 24 + s.progress m * 2 ^ 16 + b2n rep * 2 ^ 7 + b2n m.unreloc * 2 ^ 6 + m.state.code

/-- STR_GRP_n (R166). -/
def State.grpWord (s : State) (n : Nat) : Nat :=
  match s.group n with
  | none => 0
  | some g =>
    2 ^ 31 + b2n g.erasure * 2 ^ 30 + g.width % 32 * 2 ^ 25 + g.m % 8 * 2 ^ 22 + g.spare % 4 * 2 ^ 20
      + b2n g.format1 * 2 ^ 19 + g.awu % 32 * 2 ^ 14 + g.d % 128 * 2 ^ 7 + g.s % 128

/-- STR_GST_n (R222). -/
def State.gstWord (s : State) (n : Nat) : Nat :=
  match s.group n with
  | none => 0
  | some g =>
    s.gstate n * 2 ^ 30 + g.policy.code * 2 ^ 28 + b2n (!g.resync.isEmpty || !g.resyncRegions.isEmpty) * 2 ^ 27
      + b2n g.replicaTo.isSome * 2 ^ 26 + b2n g.oneReplica * 2 ^ 25 + s.failures n % 64 * 2 ^ 16

/-- LEFT_US of SHD_LEASE (R559, R578): until the active's expiry, or until the shadow may act. -/
def State.leaseLeft (s : State) : Nat :=
  match s.shd.role, s.shd.leaseFrom, s.shd.heardAt with
  | .active, some t, _ => (t + 1000 * usec - s.now) / usec
  | .shadow, _, some t => (t + 1100 * usec - s.now) / usec
  | _, _, _ => 0

/-- SHD_ROLE (R576). -/
def State.roleWord (s : State) : Nat :=
  s.shd.peerReach % 256 * 2 ^ 16 + s.slotsReached % 256 * 2 ^ 8 + b2n s.shd.halfB * 2 ^ 7 + b2n s.shd.halfA * 2 ^ 6
    + b2n s.shd.peer * 2 ^ 5 + b2n s.shd.fence * 2 ^ 4 + s.shd.role.code

/-- A rail group's samples (R605). -/
def Rail.word (x : Rail) : Nat :=
  b2n x.ok12 * 2 ^ 31 + b2n x.good * 2 ^ 30 + x.v12 % 2048 * 2 ^ 16 + b2n x.ok3 * 2 ^ 15 + x.v3 % 2048

/-- SPM_SLOT_ST_s (R607). -/
def State.slotWord (s : State) (sl : Nat) : Nat :=
  let x := s.slot sl
  let hist := (x.faults.filter fun t => decide (s.now < t + 60000 * msec)).length
  x.current % 4096 * 2 ^ 20 + min 3 hist * 2 ^ 16 + x.cause % 8 * 2 ^ 12 + b2n x.peerHold * 2 ^ 8 + b2n x.trip * 2 ^ 7
    + b2n x.state.gate * 2 ^ 6 + b2n x.pg * 2 ^ 5 + b2n x.present * 2 ^ 4 + x.state.code

/-- SYS_ISL_n (R25, R26, R31). -/
def State.islWord (s : State) (n : Nat) : Nat :=
  let x := s.island n
  Config.islandKind n * 2 ^ 12 + Config.steward n * 2 ^ 8 + b2n x.forced * 2 ^ 7 + b2n x.busy.isSome * 2 ^ 6
    + x.state.code * 2 ^ 4 + x.req.code

/-- LINK_UP of the four sub-ports of a MAC (R306). -/
def State.linkBits (s : State) (n : Nat) : Nat :=
  (List.range 4).foldl (fun a u => a + b2n (tblGet false s.net.link (4 * n + u)) * 2 ^ u) 0

/-- A signed 32-bit value, held at its ends, as a word. -/
def word32 (v : Int) : Nat := ((max (-0x7FFFFFFF) (min 0x7FFFFFFF v)) % 2 ^ 32).toNat

/-- The value of entry `i` of a register in its owning island, 64 bits where the register is wide: the stored value with the
fused fields and the fields that other state gives. -/
def State.live (s : State) (r : Reg) (i : Nat := 0) : Nat :=
  let v := s.reg r i
  match r with
  | .sysCap0 => Config.cap s.variant 0
  | .sysCap1 => Config.cap s.variant 1
  | .sysCap2 => Config.cap s.variant 2
  | .sysCap3 => Config.cap s.variant 3
  | .sysIsl => s.islWord i
  | .sysBoot => putBits v 15 8 Config.svnFloor
  | .sysAvs => putBits v 12 8 Config.avsCode
  | .icuMaskSet | .icuMaskClr => wordOf s.icu.mask i
  | .icuPendSet | .icuPendClr => wordOf s.pendings i
  | .icuActive => wordOf s.actives i
  | .icuEoi | .icuClaim => 0
  | .glmCtl => v + b2n s.glm.asleep * 2 ^ 29 + b2n s.glm.wakeTimer * 2 ^ 12 + s.glm.wakeSrc % 4096
  | .gnmState => s.gnm.missed * 2 ^ 2 + s.gnm.state.code
  | .gnmTime => s.gnmNs % 2 ^ 64
  | .gnmFrac => s.gnm.time % 2 ^ 32
  | .gnmRate => (s.gnm.rate % 2 ^ 32).toNat
  | .gnmEdge => s.gnm.edge % 2 ^ 64
  | .gnmPhase => word32 s.gnm.phase
  | .gnmSecAdj => putBits v 31 31 (b2n s.gnm.secPending)
  | .spmCap => putBits (putBits v 31 24 (Config.slots s.variant)) 23 20 (Config.slots s.variant / 12)
  | .spmInrush => putBits v 11 8 s.ramping
  | .spmRail => (s.rail i).word
  | .spmSlotSt => s.slotWord i
  | .shdRole => s.roleWord
  | .shdLease => s.leaseLeft % 2 ^ 11
  | .shdArb => match s.shd.arbiter with | some sl => 2 ^ 31 + sl | none => 0
  | .shdEpoch => s.shd.epoch % 2 ^ 64
  | .shdCopySent => s.shd.copySent % 2 ^ 32
  | .shdCopyAcked => s.shd.copyAcked % 2 ^ 32
  | .shdDirty =>
    let left := match s.shd.copy with | some c => lineCount c.left | none => 0
    (s.shd.marks.length + left) % 2 ^ 24
  | .netCap => putBits v 12 8 (match s.variant with | .kn4896 => 16 | .kn4864 => 15 | .kn4848 => 14)
  | .netPort => putBits v 27 24 (s.linkBits i)
  | .epfLink =>
    let x := s.epf
    v + b2n x.linkUp * 2 ^ 24 + x.speed % 8 * 2 ^ 20 + x.width % 16 * 2 ^ 16 + b2n x.flit * 2 ^ 15
  | .xbrPresent => s.presentPorts.foldl (fun a p => a + 2 ^ p) 0
  | .xbrPool => s.sharedFree
  | .xbrPoolSize => s.sharedCells
  | .xbrC0 => putBits v 31 16 s.c0Free
  | .xbrPartMax =>
    if Config.portPresent s.variant (s.reg .xbrPartSel) then tblGet 0x8000 s.xbr.maxes (s.reg .xbrPartSel) else 0
  | .cphKeyUsed => s.cph.slots.length
  | .cphKek => s.cph.keks.foldl (fun a e => a ||| 2 ^ (e.1 % 16)) 0
  | .parCap => putBits v 10 8 (Config.maxM s.variant)
  | .parSlice =>
    let x := s.sliceCtx i
    let y := s.island (150 + i)
    b2n (y.state == .on && y.busy.isNone) * 2 ^ 31 + b2n y.busy.isSome * 2 ^ 30 + (x.used + x.c0Used) % 128 * 2 ^ 16
      + x.c0Used % 4 * 2 ^ 8
  | .strCap => putBits v 11 9 (Config.maxM s.variant)
  | .strJnlUsed => s.str.opens.length % 2 ^ 21
  | .strWinUsed => s.str.window.length % 2 ^ 17
  | .strUblUsed => putBits v 16 0 s.str.ubl.length
  | .strGrp => s.grpWord i
  | .strMbr => s.mbrWord i
  | .strGst => s.gstWord i
  | .lntPos => s.str.lantern.1 % 64 * 2 ^ 24 + s.str.lantern.2.1 % 2 ^ 24
  | .qpePinUsed => s.pinned % 2 ^ 13
  | .clsPtCap => s.pointCap (s.reg .clsPtSel)
  | .clsPtChg => if s.pointPresent (s.reg .clsPtSel) then s.pointChg (s.reg .clsPtSel) % 2 ^ 32 else 0
  | .mmuInvCtl => putBits v 23 20 s.fct.invals.length
  | .pmcCap => putBits (putBits v 8 8 (b2n (Config.tagging s.variant))) 7 4 (Config.pmcProg s.variant)
  | .pmcCyc => s.cycleOf i % 2 ^ 64
  | _ => v

/-- The value of a register as reads see it: 0 for an absent unit's (R9), and 0 in WO and W1P fields (R18). -/
def State.view (s : State) (r : Reg) (i : Nat := 0) : Nat :=
  if s.absentReg r i then 0 else s.live r i &&& r.maskOf fun a => a != .wo && a != .w1p

/-- The lower or the upper word of a value. -/
def half (v : Nat) (upper : Bool) : Nat := if upper then v / 2 ^ 32 % 2 ^ 32 else v % 2 ^ 32

/-! ### The fabric's copy (R609 to R611) -/

/-- Every entry of every register. -/
def allEntries : List (Reg × Nat) :=
  (List.range 16).flatMap fun b => (regsOfBlock b).flatMap fun r => (List.range r.info.count).map fun i => (r, i)

/-- The word of the fabric's copy at offset `off` of the register (R611). -/
def State.copyWord (s : State) (r : Reg) (i : Nat) (upper : Bool) : Nat :=
  tblGet (half (r.resetVal i) upper) s.fab.copy (r.off i + if upper then 4 else 0)

/-- The copy with one register sampled. -/
def State.sampleReg (s : State) (copy : Tbl Nat) (x : Reg × Nat) : Tbl Nat :=
  let o := x.1.off x.2
  let d := x.1.resetVal x.2
  let v := s.view x.1 x.2
  let copy := tblPut (half d false) copy o (half v false)
  if x.1.info.wide then tblPut (half d true) copy (o + 4) (half v true) else copy

/-- The copy with every register sampled whose owning island `p` picks. -/
def State.sampleIslands (s : State) (p : Nat → Bool) : State :=
  let xs := allEntries.filter fun x => x.1.owner x.2 != 165 && p (x.1.owner x.2) && !s.absentReg x.1 x.2
  { s with fab := { s.fab with copy := xs.foldl s.sampleReg s.fab.copy } }

/-- HOUSEKEEPING_EDGE (R611): every island that runs is sampled into the copy. An RW value written goes on reading as written
while a write to its word has still to be applied. -/
def State.housekeeping (s : State) : State :=
  let s := s.sampleIslands s.readsOn
  let keep := s.fab.unsampled.filter fun e => s.fab.posted.any fun w => w.off == e.1 || w.off + 4 == e.1
  { s with fab := { s.fab with unsampled := keep } }

def execHousekeepingEdge (s : State) : Outcome := .next (if s.glm.asleep then s else s.housekeeping)

end Sys2Proof.Machine
end

