-- ==== Sys2Proof/Machine/Islands.lean ====
section
/-! DEFINITION. The stewards: requests for an island's state, the drain, its end and its timeout, and what the data
hierarchy loses (R31 to R43). -/

namespace Sys2Proof.Machine

/-! ### Requests (R33, R34, R41, R42) -/

/-- R42 binds the resident program: the controller serves hosts, or is taking over, with the islands that service needs
ON from the takeover's first step (R43, R568). -/
def State.serving (s : State) : Bool :=
  s.shd.role == .solo || s.shd.role == .active || s.shd.role == .takingOver
    || (s.shd.role == .pairing && s.shd.wasSolo)

/-- A queue pair that may carry Class 0 commands and exists. -/
def State.class0Qps (s : State) : List Qp := (s.qpe.qps.filter fun e => bitOf e.2.mask 0 && e.2.state != .free).map (·.2)

/-- Shaper entries that hold a Class 0 reservation. -/
def State.reservations (s : State) : List Shaper := (s.cls.shapers.filter fun e => e.2.val.c0).map (·.2.val)

/-- An engine, a slice, a cipher group or a lane that carries a Class 0 reservation (R42): the home engine of a queue pair
with Class 0, every slice where a reservation names an erasure group, both cipher groups where a keyed Class 0 volume exists,
the lanes of a reservation's face point and those of its group's slots. -/
def State.carriesClass0 (s : State) (n : Nat) : Bool :=
  let rs := s.reservations
  if n < 32 then rs.any fun r => r.c0Port == n / 4
  else if n < 80 then rs.any fun r => (match s.group r.c0Group with
    | some g => g.slots.contains (n - 32)
    | none => false)
  else if n < 88 then false
  else if n < 96 then rs.any fun r => r.c0Port == 8
  else if n < 144 then s.class0Qps.any fun x => x.home == n - 96
  else if 150 ≤ n ∧ n < 158 then rs.any fun r => (match s.group r.c0Group with
    | some g => g.erasure
    | none => false)
  else if n = 158 ∨ n = 159 then s.str.volumes.any fun v => v.2.class0 && v.2.keyed
  else false

/-- A lease is held or counted (R41). -/
def State.leased (s : State) : Bool :=
  (s.shd.role == .active && s.shd.leaseFrom.isSome) || (s.shd.role == .shadow && s.shd.heardAt.isSome)

/-- A REQ write that is ignored or refused (R33, R34, R37, R41, R42). -/
def State.reqRefused (s : State) (n : Nat) (nxt : IslState) : Bool :=
  (s.island n).state == .fused
    || (nxt != .on && (decide (165 ≤ n)
      || (n == 163 && s.spm.slots.any fun e => e.2.state.gate)
      || (n == 162 && s.leased)
      || (s.serving && s.carriesClass0 n)))

/-- The steward begins the transition that REQ asks for, if none is in progress (R35 to R37). REQ RETAIN of an island that
is OFF moves nothing (log entry 67). -/
def State.islBegin (s : State) (n : Nat) : State :=
  let x := s.island n
  if x.busy.isSome ∨ x.req = x.state ∨ x.state = .fused ∨ (x.state = .off ∧ x.req = .retain) then s
  else
    let s : State :=
      if cellIslands.contains n && x.state == .on then
        { s with xbr := { s.xbr with intake := some (s.xbr.intake.getD s.xbr.nextRun) } }
      else s
    (s.setIsland n { x with busy := some { target := x.req, since := s.now } }).trace 1 n

/-- The program clears SUB_EN of the sub-ports that use a lane before the lane is taken down (R261). -/
def State.portsOff (s : State) (n : Nat) : State :=
  let m := n / 4
  let us := (List.range 4).filter fun u => s.bit .netPort (12 + u) m && (s.lanesOf m u).contains n
  if 32 ≤ n ∨ us.isEmpty then s
  else
    let s := us.foldl (fun s u => (s.linkDown m u).setField .netPort (12 + u) (12 + u) 0 m) s
    s.cfgPut 0x0E (Reg.off .netPort m) (some (.register (s.reg .netPort m &&& Reg.maskOf .netPort fun a => a == .rw)))

/-- A write of REQ (R33 to R37). -/
def State.islReq (s : State) (req : Requester) (n v : Nat) : State :=
  match req, IslState.ofReq v with
  | .basalt _, some nxt =>
    if 168 ≤ n ∨ s.reqRefused n nxt then s
    else
      let s := if nxt = .on then s else s.portsOff n
      (s.setIsland n { s.island n with req := nxt }).islBegin n
  | _, _ => s

def execIslandReqWrite (req : Requester) (isl : Nat) (v : Word) (s : State) : Outcome :=
  .next (if s.glm.asleep then s else s.islReq req isl (v.toNat % 4))

/-! ### The drain (R35, R38) -/

/-- A PPS window is open: its edge is still awaited (R641; log entry 87). -/
def State.ppsOpen (s : State) : Bool := s.bit .gnmCtl 0 && s.gnm.rateNext.isSome

/-- Work in flight that the island holds when its intake is closed (R35; log entry 87): frames and TLPs that came before
the drain, drive commands issued, Mirror frames and records not acknowledged, commands, descriptors, accelerator work and
invocations on an engine, cells of the crossbar, slice contexts, messages begun in a cipher lane, commands of the QPE and
the CLS, slots that ramp. -/
def State.inflight (s : State) (n : Nat) : Bool :=
  if n < 32 then s.net.egress.any fun u => u.point == n / 4 && !u.held
  else if n < 80 then s.str.mem.any fun m => m.slot == n - 32 && m.issued.isSome
  else if n < 88 then s.linkBusy
  else if n < 96 then !s.epf.tags.isEmpty || s.net.egress.any fun u => u.point == 8 && !u.held
  else if n < 144 then
    (s.fct.descs.any fun d => d.2.engine == n - 96)
      || (s.fct.clusters.any fun k => k.2.acc.any fun a => a.engine == n - 96)
      || (s.cls.busy.any fun b => b.1 == n - 96)
      || s.fct.invs.any fun i => i.thread.isSome && i.engine == n - 96
  else if n < 150 then s.xbr.runs.any fun r => s.xbr.intake.all fun k => decide (r.id < k)
  else if n < 158 then decide ((s.sliceCtx (n - 150)).used + (s.sliceCtx (n - 150)).c0Used ≠ 0)
  else if n < 160 then s.xbr.runs.any fun r => r.keyed && decide (r.left < r.total) && (r.src :: r.dsts).any fun p =>
    (decide (p < 8) || p == 14) && cipherIsland p == n
  else if n < 162 then !s.qpe.cmds.isEmpty
  else if n = 162 then s.linkBusy
  else if n = 163 then decide (s.ramping ≠ 0)
  else if n = 164 then s.ppsOpen
  else false

/-- What the data hierarchy loses with island `n` (R38). -/
def State.dataDown (s : State) (n : Nat) : State :=
  if n < 32 then
    (List.range 4).foldl (fun s u => if (s.lanesOf (n / 4) u).contains n then s.linkDown (n / 4) u else s) s
  else if n < 80 then
    let sl := n - 32
    let d := s.drive sl
    let s := s.setDrive sl { d with ready := false, linkUp := false }
    if d.linkUp || d.ready then s.driveLost sl else s
  else if n < 88 then s.mirrorHalf ((n - 80) / 4) false
  else if n < 96 then s.epLinkDown
  else s

/-- The island has reached RETAIN or OFF: its outputs are clamped, the fabric's copy of its registers is frozen, power is
removed for OFF, and Basalt is told (R35, R37). -/
def State.islandDown (s : State) (n : Nat) (nxt : IslState) : State :=
  let was := s.shd.halfA || s.shd.halfB
  let s := s.setIsland n { s.island n with state := nxt, busy := none, trans := s.gnmNs }
  let s := (s.dataDown n).sampleIslands (· == n)
  let s := if nxt = .off then s.losePower n else s
  let s := if n = 160 then s.doorsRefused else s
  (((s.trace 1 n).raise (64 + n)).islBegin n).fatalUnlinked was

/-- ISLAND_DRAIN_END (R35): nothing is in flight any more. -/
def State.islandDrained (s : State) (n : Nat) : State :=
  match (s.island n).busy with
  | some b => if b.target = .on ∨ s.inflight n then s else s.islandDown n b.target
  | none => s

def execIslandDrainEnd (isl : Nat) (s : State) : Outcome := .next (s.islandDrained isl)

/-- Isolation with a fault (R35, R38): a lane's link drops with its island; any other island's forced isolation is fatal. -/
def State.forcedDown (s : State) (n : Nat) : State :=
  if n < 96 then s else s.fatal 2 (siteIsland n) 0 (n == 162)

/-- ISLAND_DRAIN_TIMEOUT (R35): 100 µs after the drain began with work still in flight. -/
def State.drainTimeout (s : State) (n : Nat) : State :=
  match (s.island n).busy with
  | some b =>
    if b.target = .on ∨ !s.inflight n then s
    else
      let s := s.advanceTo (b.since + 100 * usec)
      let s := (s.setIsland n { s.island n with forced := true }).forcedDown n
      s.islandDown n b.target
  | none => s

def execIslandDrainTimeout (isl : Nat) (s : State) : Outcome := .next (s.drainTimeout isl)

/-- A bring-up completes (R36); a REQ written meanwhile is taken up (R37). -/
def State.powerUp (s : State) (n : Nat) : State :=
  match (s.island n).busy with
  | some b => if b.target = .on then (s.islandOn n).islBegin n else s
  | none => s

end Sys2Proof.Machine
end

