-- ==== Sys2Proof/Machine/Fabric.lean ====
section
/-! DEFINITION. The register fabric: reads and writes in each mode, read-clear fields, bit aliases, 64-bit registers,
snapshots (R609 to R624), and what a write of each register does. -/

namespace Sys2Proof.Machine

/-! ### What a write does in the owning island (R18) -/

/-- A write of SYS_MODE (R615): by Basalt or JTAG; TEST only from BRINGUP; TEST is left for RECOVERY alone (log entry 68). -/
def State.setMode (s : State) (req : Requester) (v : Nat) : State :=
  let old := s.field .sysMode 1 0
  let ok := (match req with | .thread _ _ => false | _ => true) && (v != 2 || old == 1) && (old != 2 || v == 3)
  if ok then s.setField .sysMode 1 0 v else s

/-- GO of SYS_SNAP (R621). -/
def State.snapGo (s : State) : State :=
  if s.fab.snapAt.isSome then s.setField .sysSnap 29 29 1
  else
    let us := 1000 * 2 ^ 32
    let t := ceilDiv (s.gnm.time + 2 * us) us * 1000
    let s : State := { s with fab := { s.fab with snapAt := some t } }
    s.setField .sysSnap 30 30 1

/-- A write of NET_PORT_n (R261, R306): MODE only while no sub-port is enabled; a sub-port no longer enabled has no link. -/
def State.portWrite (s : State) (n new : Nat) : State :=
  let mode := if s.field .netPort 15 12 n = 0 then bitsOf new 1 0 else s.field .netPort 1 0 n
  let s := s.setReg .netPort (putBits new 1 0 mode) n
  (List.range 4).foldl (fun s u => if s.bit .netPort (12 + u) n then s else s.linkDown n u) s

/-- An index a consumer may write: within the span from CONS to PROD of a ring of `n` slots (R377, R459). -/
def inSpan (n cons prod v : Nat) : Bool := decide (v < n) && decide ((v + n - cons % n) % n ≤ (prod + n - cons % n) % n)

/-- A key table entry has STATE 1 or 2 (R541). -/
def State.keysLive (s : State) : Bool :=
  let b := s.keyBase
  b != 0 && s.mem.any fun c =>
    decide (b ≤ c.1 ∧ c.1 < b + 0x4000000 ∧ c.1 % 64 = 0) && (c.2.toNat == 1 || c.2.toNat == 2)

/-- A write of SPM_SLOT_CTL_s (R606): LIM, EN where written, then CYCLE and RELEASE. -/
def State.slotWrite606 (s : State) (sl new m v : Nat) : State :=
  let s := s.setField .spmSlotCtl 27 16 (bitsOf new 27 16) sl
  let s := if bitOf m 0 then s.writeEn sl (bitOf v 0) else s
  let s := if bitOf (v &&& m) 1 then s.slotCycle sl else s
  if bitOf (v &&& m) 2 then s.slotRelease sl else s

/-- A write of entry `i` of a register, as its owning island applies it: the bits `m` take the values `v`. RW fields take
them, W1P, WO, SET and CLR fields act, and RO and RC fields ignore them (R18, R618). -/
def State.writeReg (s : State) (req : Requester) (r : Reg) (i m v : Nat) : State :=
  let old := s.reg r i
  let rw := r.maskOf (fun a => a == .rw) &&& m
  let new := old - (old &&& rw) + (v &&& rw)
  let act := v &&& m
  let set := s.setReg r new i
  match r with
  | .sysMode => if m % 4 = 0 then s else s.setMode req (new % 4)
  | .sysSnap => if bitOf act 31 then s.snapGo else s
  | .sysRst => (s.rstWarm req act).rstOrderly req (act - bitsOf act 31 31 * 2 ^ 31)
  | .sysErrCtl => s.errCtl req m v
  | .sysWdog => s.wdogCtl req m v
  | .sysIsl =>
    let old := (s.island i).req.code
    if m % 4 = 0 then s else s.islReq req i (old - (old &&& m) + (v &&& m) % 4)
  | .icuMaskSet => s.icuMask i act true
  | .icuMaskClr => s.icuMask i act false
  | .icuPendSet => s.icuPend i act true
  | .icuPendClr => s.icuPend i act false
  | .icuEoi => if m % 4096 = 0 then s else s.icuEoi i (act % 4096)
  | .glmCtl => if bitOf act 31 then (match req with | .basalt _ => s.glimmerSleep | _ => s) else s
  | .gnmCtl => if bitOf old 0 && !bitOf new 0 then set.ppsDisable else set
  | .gnmSecAdj => if m % 2 ^ 16 = 0 then s else s.secAdj (new % 2 ^ 16)
  | .spmSlotCtl => s.slotWrite606 i new m v
  | .shdCtl =>
    let s := if bitOf act 1 then set.releaseShelf else set
    if bitOf act 2 then s.leaveCtl else s
  | .shdRepBase =>
    if (s.shd.role == .solo && !s.bit .shdCtl 0) || (s.shd.role == .pairing && !s.shd.peer) then set else s
  | .netPort => s.portWrite i new
  | .netPfc | .netClsPri => (List.range 8).foldl State.resumeMac set
  | .netOdtSel => s.odtCapture (new % 2 ^ 16)
  | .epfIds => if s.bit .epfLink 0 then s else set
  | .epfWinCtl => if bitOf act 31 then s.winCommit else s
  | .xbrOvfBase => if s.xbr.parts.any fun x => decide (0 < x.2.ovf) then s else set
  | .xbrPartSel => s.partCapture new
  | .xbrPartMax =>
    let p := s.reg .xbrPartSel
    let old := s.live .xbrPartMax
    if Config.portPresent s.variant p then
      { s with xbr := { s.xbr with maxes := tblPut 0x8000 s.xbr.maxes p (old - (old &&& rw) + (v &&& rw)) } }
    else s
  | .prismCtl => s.prismCtl new
  | .prismRingBase => if s.bit .prismCtl 0 then s else set
  | .prismCons => if inSpan s.prismSlots old (s.reg .prismProd) new then set else s
  | .prismN => { set with xbr := { set.xbr with taps := tblDel set.xbr.taps i } }
  | .cphKeySel => s.keyCapture new
  | .strRowSel => s.rowCapture new
  | .lntCtl =>
    if bitOf act 2 then { set with str := { set.str with lantern := (0, 0, 0), lanternAgain := [] } } else set
  | .qpeInspSel => set.inspect (new % 2 ^ 18)
  | .clsShpSel => s.shaperCapture new
  | .clsShpCfg => if bitOf act 31 then s.shaperCommit new else set
  | .clsPtCap =>
    let p := s.reg .clsPtSel
    let old := s.pointCap p
    if s.pointPresent p then
      { s with cls := { s.cls with
        caps := tblPut (if p < 16 then 0x7270E0 else 0x1312D0) s.cls.caps p (old - (old &&& rw) + (v &&& rw)) } }
    else s
  | .fctThrSel => s.thrCapture new
  | .mmuKeyBase => if s.keysLive then s else set
  | .mmuInvCtl => s.mmuInvCtl (new % 2 ^ 30 + bitsOf act 31 31 * 2 ^ 31)
  | .pmcSmpCtl => s.smpCtl new
  | .pmcSmpBase => if s.bit .pmcSmpCtl 0 then s else set
  | .pmcSmpCons => if inSpan s.smpSlots old (s.reg .pmcSmpProd) new then set else s
  | _ => set

/-- The registers a change of which is recorded in the configuration area (R664). -/
def Reg.recorded : Reg → Bool
  | .netPort | .netMtu | .netDscpPri | .netClsPri | .netPfc | .netPfcWdog | .netOdtCfg | .netRoceCfg | .netRoceCnp
  | .clsCeil | .clsQuantum1 | .clsQuantum2 | .clsQuantum3 | .clsQuantum4 | .clsQuantum5 | .clsQuantum6 | .clsQuantum7
  | .clsPtCap | .strRbldRate | .strReturnWin | .lntCtl | .lntRate | .cphCtl | .cphWalkRate | .epfIds | .xbrC0
  | .xbrPartMax | .shdCtl | .shdSelfchk | .spmCfg | .spmInrush | .spmSlotCtl => true
  | _ => false

/-- KEY and value of the record of a register (R664): a selected point's or port's record carries its number above bit 27
(log entry 69). -/
def State.recordFor (s : State) (r : Reg) (i : Nat) : Nat × Nat :=
  match r with
  | .clsPtCap => (r.off + 2 ^ 28 * s.reg .clsPtSel, s.pointCap (s.reg .clsPtSel))
  | .xbrPartMax => (r.off + 2 ^ 28 * s.reg .xbrPartSel, s.live .xbrPartMax)
  | _ => (r.off i, s.reg r i &&& r.maskOf fun a => a == .rw)

/-- A write as the owning island applies it, with its record where it changed a recorded register (R664). -/
def State.applyWrite (s : State) (req : Requester) (r : Reg) (i m v : Nat) : State :=
  let t := s.writeReg req r i m v
  let new := t.recordFor r i
  if r.recorded && s.recordFor r i != new then t.cfgPut 0x0E new.1 (some (.register new.2)) else t

/-- The bits a write touches and their values: a word, one bit, or both halves (R618, R619). -/
def RegOp.bits (op : RegOp) (upper : Bool) : Nat × Nat :=
  let sh := if upper then 2 ^ 32 else 1
  match op with
  | .word v => ((2 ^ 32 - 1) * sh, v % 2 ^ 32 * sh)
  | .bit b x => (2 ^ b * sh, b2n x * 2 ^ b * sh)
  | .wide lo hi => (2 ^ 64 - 1, lo % 2 ^ 32 + hi % 2 ^ 32 * 2 ^ 32)

/-- A write at an offset, as the owning island applies it. -/
def State.applyOp (s : State) (req : Requester) (off : Nat) (op : RegOp) : State :=
  match regAt off with
  | some (r, i, up) => let b := op.bits up; s.applyWrite req r i b.1 b.2
  | none => s

/-! ### Reads (R610, R611, R616 to R620) -/

/-- An access to a register is served without waiting for its island (R9, R48, R609, R610): the fabric owns the register or
serves it, the mode is SERVICE, or the island takes it at once. -/
def State.servedNow (s : State) (off : Nat) : Bool :=
  match regAt off with
  | none => true
  | some (r, i, _) =>
    r.owner i == 165 || s.absentReg r i || s.field .sysMode 1 0 == 0 || s.isOn (r.owner i)

/-- The word a read finds: live for a register of the fabric and in the modes that reach the island, else the copy, with an
RW value written and not yet sampled where the island runs (R37, R610, R611). -/
def State.findWord (s : State) (r : Reg) (i : Nat) (up : Bool) : Nat :=
  let n := r.owner i
  if s.absentReg r i then 0
  else if n = 165 ∨ s.field .sysMode 1 0 ≠ 0 then half (s.view r i) up
  else
    let w := s.copyWord r i up
    let x := s.island n
    let ovr := if x.state = .on ∨ x.busy.isSome then tblFind s.fab.unsampled (r.off i + if up then 4 else 0) else none
    match ovr with
    | some (m, v) => w - (w &&& m) + v
    | none => w

/-- A word with what a read returned taken away: a counter is reduced by `v`, status bits that read 1 are cleared. -/
def rcReduce (counter : Bool) (w v : Nat) : Nat := if counter then w - v else w - (w &&& v)

/-- A 32-bit counter: its one field is RC and fills the word (R616, R620). -/
def Reg.counter (r : Reg) : Bool :=
  match r.info.fields with
  | [f] => f.msb == 31 && f.lsb == 0 && f.acc == .rc
  | _ => false

/-- The RC bits `v` that a read returned are cleared in the fabric's copy and in the owning island (R616, R617). -/
def State.clearRead (s : State) (r : Reg) (i v : Nat) : State :=
  if v = 0 then s
  else
    let c := r.counter
    let s := match r with
      | .sysIsl => if bitOf v 7 then s.setIsland i { s.island i with forced := false } else s
      | _ => s.setReg r (rcReduce c (s.reg r i) v) i
    if r.owner i = 165 then s
    else
      { s with fab := { s.fab with
        copy := tblPut (half (r.resetVal i) false) s.fab.copy (r.off i) (rcReduce c (s.copyWord r i false) v) } }

/-- SYS_WSYNC (R613): the requester's writes still unapplied are applied where their islands are ON; the others are discarded
after 2 µs, which sets LOST. -/
def State.wsync (s : State) (req : Requester) : State × Nat :=
  let mine := s.fab.posted.filter fun w => w.req == req
  let s : State := { s with fab := { s.fab with posted := s.fab.posted.filter fun w => w.req != req } }
  let goes (s : State) (w : Posted) : Bool := s.isOn (ownerAt w.off)
  let lost := mine.any fun w => !goes s w
  let s := mine.foldl (fun s w => if goes s w then s.applyOp req w.off w.op else s) s
  let s := if lost then s.advance (2 * usec) else s
  (s, b2n lost * 2 ^ 31 + min 0xFFFF mine.length)

/-- The holding register at an offset (R620), if the offset lies in a holding region: the live offset. -/
def holdingOf (off : Nat) : Option Nat := if bitOf off 23 then some (off - 0x800000) else none

/-- A read of the word at an offset, or of one bit of it through its alias word: the value returned, and what it clears
where it may clear (R429, R616 to R620). -/
def State.readWord (s : State) (req : Requester) (off : Nat) (al : Option Nat) (clears : Bool) : State × Nat :=
  let bitIf (w : Nat) : Nat := match al with | some b => bitsOf w b b | none => w
  match regAt off with
  | none => (s, match holdingOf off with | some o => bitIf (tblGet 0 s.fab.holding o) | none => 0)
  | some (r, i, up) =>
    if r = .sysWsync ∧ al = none then s.wsync req
    else
      let lo := r.off i
      let w := s.findWord r i up
      let rc := w &&& half (r.maskOf fun a => a == .rc) up
      match al with
      | some b =>
        let x := bitsOf w b b
        (if clears then s.clearRead r i (rc &&& 2 ^ b) else s, x)
      | none =>
        let isIt (e : Requester × Nat × Nat) : Bool := e.1 == req && e.2.1 == lo
        let found := s.fab.latched.find? isIt
        let rest := s.fab.latched.filter fun e => !isIt e
        let s := if clears then s.clearRead r i rc else s
        if !r.info.wide then (s, w)
        else if up then
          ({ s with fab := { s.fab with latched := rest } }, match found with | some e => e.2.2 | none => w)
        else
          ({ s with fab := { s.fab with latched := rest ++ [(req, lo, s.findWord r i true)] } }, w)

/-! ### Accesses (R610 to R614, R618, R619) -/

/-- The requester waits for an access of its own. -/
def State.isStalled (s : State) (req : Requester) : Bool := s.fab.stalled.any fun x => x.req == req

/-- An access that has been served ends: Basalt and JTAG get their value; a Facet thread's register takes it, and it goes on
(R473, R614). -/
def State.accessEnd (s : State) (req : Requester) (off : Nat) (v : Option Nat) : State :=
  match req with
  | .thread e t =>
    let x := s.thr e t
    match x.access with
    | some a =>
      let ext (n : Nat) : DWord := if a.signed then (BitVec.ofNat 32 n).signExtend 64 else BitVec.ofNat 64 n
      let y : Thread := { x with state := .ready, access := none }
      let y := match v with | some n => y.setReg (Fin.ofNat 32 a.rd) (ext n) | none => y
      (s.setThr e t y).retire e t none
    | none => match v with | some n => s.emit (.readData req off n) | none => s
  | _ => match v with | some n => s.emit (.readData req off n) | none => s

/-- A read, by word or by alias (R610, R616, R618). -/
def State.fabRead (s : State) (req : Requester) (off : Nat) (al : Option Nat) : State :=
  if s.isStalled req then s
  else if s.servedNow off then
    let (s, v) := s.readWord req off al true
    s.emit (.readData req off v)
  else { s with fab := { s.fab with
    stalled := s.fab.stalled ++ [{ req, off, op := none, aliasBit := al, since := s.now }] } }

/-- The words of a posted write read as written until they are sampled back (R611). -/
def State.overlay (s : State) (r : Reg) (i : Nat) (b : Nat × Nat) : State :=
  let rw := r.maskOf (fun a => a == .rw) &&& b.1
  let put (t : Tbl (Nat × Nat)) (o m v : Nat) : Tbl (Nat × Nat) :=
    if m = 0 then t
    else
      let old := tblGet (0, 0) t o
      tblIns t o (old.1 ||| m, old.2 - (old.2 &&& m) + (v &&& m))
  let t := put s.fab.unsampled (r.off i) (half rw false) (half b.2 false)
  let t := put t (r.off i + 4) (half rw true) (half b.2 true)
  { s with fab := { s.fab with unsampled := t } }

/-- A write that the island takes at once, outside SERVICE, reads as written until it is sampled back (R610, R611). -/
def State.applySeen (s : State) (req : Requester) (off : Nat) (op : RegOp) : State :=
  match regAt off with
  | some (r, i, up) => (s.applyOp req off op).overlay r i (op.bits up)
  | none => s

/-- A write reaches the fabric complete: it is applied, posted or stalled (R610, R612). -/
def State.submit (s : State) (req : Requester) (r : Reg) (i : Nat) (up : Bool) (off : Nat) (op : RegOp) : State :=
  if r.owner i = 165 then s.applyOp req off op
  else if s.field .sysMode 1 0 = 0 then
    let s : State := { s with fab := { s.fab with posted := s.fab.posted ++ [{ req, off, op }] } }
    s.overlay r i (op.bits up)
  else if s.isOn (r.owner i) then s.applySeen req off op
  else { s with fab := { s.fab with
    stalled := s.fab.stalled ++ [{ req, off, op := some op, aliasBit := none, since := s.now }] } }

/-- A write of a word, or of a bit through its alias (R618): the lower word of a 64-bit register is held for the upper one
(R619); no register, a holding register and an absent unit's register ignore it (R9, R48, R620). -/
def State.fabWrite (s : State) (req : Requester) (off : Nat) (op : RegOp) : State :=
  if s.isStalled req then s
  else
    match regAt off with
    | none => s
    | some (r, i, up) =>
      let lo := r.off i
      let isIt (e : Requester × Nat × Nat) : Bool := e.1 == req && e.2.1 == lo
      if s.absentReg r i then s
      else
        match op, r.info.wide with
        | .word v, true =>
          let rest := s.fab.held.filter fun e => !isIt e
          if up then
            match s.fab.held.find? isIt with
            | some e =>
              let s : State := { s with fab := { s.fab with held := rest } }
              s.submit req r i false lo (.wide e.2.2 v)
            | none => s.submit req r i true off op
          else { s with fab := { s.fab with held := rest ++ [(req, lo, v)] } }
        | _, _ => s.submit req r i up off op

/-- An access at an offset that is not a multiple of 4, or its alias word, is unmapped (R45, R48, R50): a bus error for
Basalt and for what reaches the fabric through it. A thread's own instruction traps on it (R489), so that none arrives. -/
def State.unmappedAt (s : State) (req : Requester) (off : Nat) : State :=
  if s.isStalled req then s
  else match req with
    | .thread _ _ => s
    | _ => (s.count .sysBusErr).emit (.busError req off)

/-- REGISTER_WRITE. -/
def execRegisterWrite (req : Requester) (off : Nat) (v : Word) (s : State) : Outcome :=
  s.whenAwake fun s => if off % 4 ≠ 0 then s.unmappedAt req off else s.fabWrite req off (.word v.toNat)

/-- ALIAS_WRITE (R618): bit 0 of the value is written. -/
def execAliasWrite (req : Requester) (off : Nat) (bit : Nat) (v : Word) (s : State) : Outcome :=
  s.whenAwake fun s =>
    if off % 4 ≠ 0 then s.unmappedAt req off
    else if bit < 32 then s.fabWrite req off (.bit bit (bitOf v.toNat 0)) else s

/-- RC_READ: a read of a word, or of one of its bits through the alias word (R616, R618); one of ICU_CLAIM_k claims (R628). -/
def execRcRead (req : Requester) (off : Nat) (aliasBit : Option Nat) (s : State) : Outcome :=
  s.whenAwake fun s =>
    if off % 4 ≠ 0 then s.unmappedAt req off
    else
    match regAt off, aliasBit with
    | some (.icuClaim, k, _), none => if s.isStalled req then s else s.icuClaim req k
    | _, _ => s.fabRead req off aliasBit

/-- SYS_WSYNC. -/
def execSysWsync (req : Requester) (s : State) : Outcome :=
  s.whenAwake fun s => s.fabRead req (Reg.off .sysWsync) none

/-- SYS_MODE. -/
def execSysMode (req : Requester) (v : Word) (s : State) : Outcome :=
  s.whenAwake fun s => if s.isStalled req then s else s.setMode req (v.toNat % 4)

/-- SYS_SNAP. -/
def execSysSnap (v : Word) (s : State) : Outcome := s.whenAwake fun s => if bitOf v.toNat 31 then s.snapGo else s

/-- POSTED_WRITE_APPLY (R612, R37): the oldest write of a requester to an island reaches it; one that is down discards it, and
one in a transition takes it when that has ended. -/
def State.postedApply (s : State) (req : Requester) (isl : Nat) : State :=
  let isIt (w : Posted) : Bool := w.req == req && ownerAt w.off == isl
  let x := s.island isl
  match s.fab.posted.find? isIt with
  | none => s
  | some w =>
    if x.busy.isSome then s
    else
      let s : State := { s with fab := { s.fab with posted := rmFirst isIt s.fab.posted } }
      if x.state = .on then s.applyOp req w.off w.op else s

def execPostedWriteApply (req : Requester) (isl : Nat) (s : State) : Outcome :=
  s.whenAwake fun s => s.postedApply req isl

/-- BUS_ERROR_TIMEOUT (R614): 2 µs after a stalled access arrived it is withdrawn, with a bus error. -/
def State.busErrorAfter (s : State) (req : Requester) : State :=
  match s.fab.stalled.find? fun x => x.req == req with
  | none => s
  | some x =>
    let s := s.advanceTo (x.since + 2 * usec)
    let s : State := { s with fab := { s.fab with stalled := rmFirst (fun y => y.req == req) s.fab.stalled } }
    let s := s.count .sysBusErr
    match req with
    | .thread e t =>
      match (s.thr e t).access with
      | some a => (s.updThr e t fun y => { y with access := none }).trapTo e t ⟨0x07, some a.va⟩
      | none => s.emit (.busError req x.off)
    | _ => s.emit (.busError req x.off)

def execBusErrorTimeout (req : Requester) (s : State) : Outcome := s.whenAwake fun s => s.busErrorAfter req

/-- The stalled accesses whose island now takes them, and whose 2 µs have not passed, are served in the order of their
arrival (R614, R622). -/
def State.serveStalled (s : State) : State :=
  s.fab.stalled.foldl (fun s x =>
    if s.isOn (ownerAt x.off) && decide (s.now ≤ x.since + 2 * usec) then
      let s : State := { s with fab := { s.fab with stalled := rmFirst (fun y => y.req == x.req) s.fab.stalled } }
      match x.op with
      | some op => (s.applySeen x.req x.off op).accessEnd x.req x.off none
      | none =>
        let u := match x.req with | .thread e t => (s.thr e t).umode | _ => false
        let (s, v) := s.readWord x.req x.off x.aliasBit (!u)
        s.accessEnd x.req x.off (some v)
    else s) s

/-- ISLAND_POWER_UP (R36, R614). -/
def execIslandPowerUp (isl : Nat) (s : State) : Outcome := .next (s.powerUp isl).serveStalled

/-! ### Snapshots (R620, R621) -/

/-- A register that takes part in SYS_SNAP (R620). -/
def Reg.snapped (r : Reg) : Bool :=
  r.counter || (match r with
    | .pmcCyc | .pmcCnt0 | .pmcCnt1 | .pmcCnt2 | .pmcCnt3 | .pmcCnt4 | .pmcCnt5 | .pmcCnt6 | .pmcCnt7 => true
    | _ => false)

/-- What a holding register takes: the value of an island that is ON or in RETAIN, 0 of one that is OFF or FUSED (R621). -/
def State.snapValue (s : State) (r : Reg) (i : Nat) : Nat :=
  match (s.island (r.owner i)).state with
  | .on | .retain => s.view r i
  | _ => 0

/-- SNAPSHOT_CAPTURE (R621): Gnomon time has reached T. -/
def State.snapCapture (s : State) : State :=
  match s.fab.snapAt with
  | none => s
  | some t =>
    if !s.readsOn 164 then s
    else
      let s := s.advanceGnm t
      let put (h : Tbl Nat) (x : Reg × Nat) : Tbl Nat :=
        let o := x.1.off x.2
        let v := s.snapValue x.1 x.2
        let h := tblPut 0 h o (half v false)
        if x.1.info.wide then tblPut 0 h (o + 4) (half v true) else h
      let h := (allEntries.filter fun x => x.1.snapped).foldl put s.fab.holding
      let s : State := { s with fab := { s.fab with holding := h, snapAt := none } }
      let s := (s.setField .sysSnap 30 30 0).setField .sysSnap 15 0 (s.field .sysSnap 15 0 + 1)
      (s.setReg .sysSnapTime (t % 2 ^ 64)).raise 26

def execSnapshotCapture (s : State) : Outcome := .next s.snapCapture

end Sys2Proof.Machine
end

