-- ==== Sys2Proof/Machine/FatalImage.lean ====
section
/-! DEFINITION. The fatal-state image, its offer to the peer, and what ends the fatal handling (R689 to R695). -/

namespace Sys2Proof.Machine

/-! ### The sections of the image (R691) -/

/-- A section: its TYPE, its bytes, and its COUNT. -/
structure Section where
  typ : Nat
  bytes : Bytes
  count : Nat

/-- ISLANDS. -/
def State.islandSection (s : State) : Section :=
  let one (i : Nat) : Bytes := toLe (s.view .sysIsl i) 4 ++ toLe (s.island i).trans 8 ++ zeros 4
  { typ := 1, bytes := (List.range 168).flatMap one, count := 168 }

/-- The words of a register as REGISTERS has them: offset and value. -/
def State.regWords (s : State) (x : Reg × Nat) : List Bytes :=
  let o := x.1.off x.2
  let v := s.view x.1 x.2
  let word (o v : Nat) : Bytes := toLe o 4 ++ toLe v 4
  if x.1.info.wide then [word o (half v false), word (o + 4) (half v true)] else [word o (half v false)]

/-- REGISTERS: every register of every island ON or RETAIN. -/
def State.registerSection (s : State) : Section :=
  let kept (i : Nat) : Bool := (s.island i).state == .on || (s.island i).state == .retain
  let xs := allEntries.filter fun x => !s.absentReg x.1 x.2 && kept (x.1.owner x.2)
  let ws := xs.flatMap s.regWords
  { typ := 2, bytes := ws.flatten, count := ws.length }

/-- THREADS: 512 bytes per thread of every present engine, whose places R691 does not give (log entry 70). -/
def State.threadSection (s : State) : Section :=
  let n := 16 * ((List.range 48).filter fun e => Config.enginePresent s.variant e).length
  { typ := 3, bytes := freeBytes s.draws (512 * n), count := n }

/-- QUEUE_PAIRS with commands outstanding; the 128 bytes of a context are not fixed (log entry 70). -/
def State.qpSection (s : State) : Section :=
  let xs := s.qpe.qps.filter fun e => e.2.state != .free && s.qpe.cmds.any fun c => c.qp == e.1
  let one (e : Nat × Qp) : Bytes := toLe e.1 4 ++ toLe e.2.state.code 4 ++ freeBytes (s.draws + 1 + e.1) 128
  { typ := 4, bytes := xs.flatMap one, count := xs.length }

/-- JOURNAL: the entries in use (R142). -/
def State.journalSection (s : State) : Section :=
  let one (o : OpenStripe) : Bytes :=
    toLe o.group 1 ++ toLe o.method.code 1 ++ zeros 2 ++ toLe (o.positions.foldl (fun a p => a ||| 2 ^ p) 0) 4
      ++ toLe o.stripe 8 ++ toLe o.epoch 8 ++ zeros 8
  { typ := 5, bytes := s.str.opens.flatMap one, count := s.str.opens.length }

/-- WINDOW: the regions of the open window. -/
def State.windowSection (s : State) : Section :=
  let one (w : WinRegion) : Bytes := toLe w.group 1 ++ zeros 3 ++ toLe w.region 4
  { typ := 6, bytes := s.str.window.flatMap one, count := s.str.window.length }

/-- LOG: the records sent and unacknowledged, whose layout is not given (log entry 70). -/
def State.logSection (s : State) : Section :=
  { typ := 7, bytes := freeBytes (s.draws + 1 + 2 ^ 20) (64 * s.shd.log.length), count := s.shd.log.length }

/-- A trace record (R691). -/
def Trace.bytes (r : Trace) : Bytes :=
  toLe r.time 8 ++ toLe r.island 2 ++ toLe r.kind 2 ++ zeros 4 ++ (Config.traceArgs r.args ++ zeros 48).take 48

/-- TRACE: the last 4,096 records, oldest first; records not yet written are zero (log entry 70). -/
def State.traceSection (s : State) : Section :=
  let rs := s.sys.trace.reverse.map Trace.bytes
  { typ := 8, bytes := List.flatten rs ++ zeros (64 * (4096 - rs.length)), count := 4096 }

/-- The sections in their order (R691). -/
def State.sections (s : State) : List Section :=
  [s.islandSection, s.registerSection, s.threadSection, s.qpSection, s.journalSection, s.windowSection, s.logSection,
    s.traceSection]

/-- Sections laid out from offset `at_` on, each aligned to 4,096 bytes (R691): the directory entries and the bytes. -/
def layOut (at_ : Nat) : List Section → Bytes × Bytes
  | [] => ([], [])
  | x :: rest =>
    let n := ceilDiv x.bytes.length 4096 * 4096
    let (dir, body) := layOut (at_ + n) rest
    (toLe x.typ 2 ++ zeros 2 ++ toLe at_ 4 ++ toLe x.bytes.length 4 ++ toLe x.count 4 ++ dir,
     x.bytes ++ zeros (n - x.bytes.length) ++ body)

/-- The whole image with COMPLETE 1 (R690). -/
def State.fatalImage (s : State) (f : FatalRun) : Bytes :=
  let secs := s.sections
  let (dir, body) := layOut 4096 secs
  let len := 4096 + body.length
  let rest := dir ++ zeros (3968 - dir.length) ++ body
  let crc := crc32c (s.fatalHead f len secs.length 0 0 ++ rest)
  s.fatalHead f len secs.length 1 crc ++ rest

/-! ### The image is complete (R689 to R692) -/

/-- Update the handling of the fatal event. -/
def State.updFatal (s : State) (f : FatalRun → FatalRun) : State :=
  { s with sys := { s.sys with fatal := s.sys.fatal.map f } }

/-- FATAL_IMAGE_COMPLETE: the image replaces an earlier one, and is offered where the Mirror link is up. -/
def State.imageComplete (s : State) : State :=
  match s.sys.fatal with
  | some f =>
    if f.complete.isSome then s
    else
      let b := s.fatalImage f
      let s := (s.store s.fatalBase b).drew (2 ^ 20 + 2)
      let s := (s.setField .sysFatal 31 31 1).setField .sysFatal 29 29 0
      let link := s.shd.halfA || s.shd.halfB
      let s := s.updFatal fun f => { f with complete := some s.now, pulling := link }
      if link then s.sendBulk .fatal b none else s
  | none => s

def execFatalImageComplete (s : State) : Outcome := .next s.imageComplete

/-- HOLD of SYS_ERR_CTL (R689). -/
def State.held (s : State) : Bool := s.bit .sysErrCtl 30

/-- FATAL_RESET_TIMER (R689): 1 s after the image is complete, unless HOLD is set. -/
def State.fatalTimer (s : State) : State :=
  match s.sys.fatal.bind fun f => f.complete with
  | some t => if s.held then s else (s.advanceTo (t + 1000 * msec)).warmReset 6
  | none => s

def execFatalResetTimer (s : State) : Outcome := .next s.fatalTimer

/-! ### The watchdog (R687, R689, R695, R697) -/

/-- WATCHDOG_EXPIRE: LIMIT_MS after the last PET. It is fatal; while an image is being written the 100 ms of R689 run from
it, and with a complete image the WARM reset follows (R695). -/
def State.watchdogExpire (s : State) : State :=
  let limit := s.field .sysWdog 15 0
  match s.sys.petAt with
  | some t =>
    if limit = 0 then s
    else
      let s := s.advanceTo (t + limit * msec)
      let s : State := { s with sys := { s.sys with petAt := none } }
      match s.sys.fatal with
      | some f =>
        if f.complete.isSome then s.warmReset 6
        else s.updFatal fun f => { f with expired := some s.now }
      | none => (s.fatal 7 (siteIsland 166) 0 false).updFatal fun f => { f with expired := some s.now }
  | none => s

def execWatchdogExpire (s : State) : Outcome := .next s.watchdogExpire

/-- FATAL_WATCHDOG_RESET (R689): 100 ms after the expiry the image is still not complete. -/
def State.watchdogReset (s : State) : State :=
  match s.sys.fatal with
  | some f =>
    match f.expired, f.complete with
    | some t, none => (s.advanceTo (t + 100 * msec)).warmReset 6
    | _, _ => s
  | none => s

def execFatalWatchdogReset (s : State) : Outcome := .next s.watchdogReset

def execWatchdogPet (req : Requester) (v : Word) (s : State) : Outcome :=
  .next (if s.sysDown req then s else s.wdogCtl req 0xFFFFFFFF v.toNat)

/-- SYS_ERR_FATAL (R697): a write of SYS_ERR_CTL. -/
def execSysErrFatal (req : Requester) (v : Word) (s : State) : Outcome :=
  .next (if s.sysDown req then s else s.errCtl req 0xFFFFFFFF v.toNat)

/-- A fatal request through JTAG (R687). -/
def execJtagFatalRequest (s : State) : Outcome := .next (s.fatal 9 siteUnknown 0 false)

/-! ### GET_FATAL (R694) -/

/-- GET_FATAL with its checks passed. -/
def State.getFatal (s : State) (c : Cmd) : State :=
  let peer := byteAt c.entry 8 == 1
  let base := s.fatalBase + if peer then 2 ^ 27 else 0
  let off := leAt c.entry 40 4
  let len := s.mem.readLe (base + 48) 4
  let b := s.mem.readN (base + off) (min (eLen c.entry) (len - off))
  let s := if byteAt c.entry 9 = 1 then (if peer then s.setField .sysFatal 30 30 0 else s.setField .sysFatal 31 31 0) else s
  let s := if byteAt c.entry 9 = 1 then s.markPast c.seq else s
  ((s.hostPut (eMkey c.entry) (eAddr c.entry) c.cls c.seq b).finish c.seq stSuccess len).flow

def execGetFatal (qp cid : Nat) (s : State) : Outcome := .next (s.adminRun qp cid 0x60 State.getFatal)

/-! ### BULK (R550, R692) -/

/-- What arrived of a transfer is replaced. -/
def State.setBulkIn (s : State) (kind : BulkKind) (b : Option Bytes) : State :=
  let rest := s.shd.bulkIn.filter fun x => x.1 != kind
  { s with shd := { s.shd with bulkIn := match b with | some x => rest ++ [(kind, x)] | none => rest } }

/-- The peer's fatal-state image has arrived whole: it is kept where its CRC verifies (R690, R692). -/
def State.bulkFatal (s : State) (b : Bytes) : State :=
  let crc := crc32c (b.take 60 ++ zeros 8 ++ b.drop 68)
  if leAt b 64 4 = crc ∧ leAt b 48 4 = b.length ∧ b.length ≤ 2 ^ 27 then
    ((s.store (s.fatalBase + 2 ^ 27) b).setField .sysFatal 30 30 1)
  else s

/-- A transfer has arrived whole (R390, R450, R674, R692). A shadow whose pointer is rewritten for a hitless activation sends
LEAVE and resets WARM (R676; log entry 65). -/
def State.bulkWhole (s : State) (kind : BulkKind) (b : Bytes) : State :=
  match kind with
  | .image i =>
    ({ s with fct := { s.fct with images := tblIns s.fct.images i b } } : State).cfgPut 0x0C i (some (.image b))
  | .signer i =>
    ({ s with fct := { s.fct with signers := tblIns s.fct.signers i b } } : State).cfgPut 0x03 i (some (.signer b))
  | .kek i =>
    let keks := match kekOf b with
      | some (some k) => tblIns s.cph.keks i k
      | _ => s.cph.keks
    ({ s with cph := { s.cph with keks, kekWrapped := tblIns s.cph.kekWrapped i b } } : State).cfgPut 0x04 i (some (.kek b))
  | .firmware i off => (s.writeSlot i off b).emit (.flash "SLOT" (0x100000 + i * 0xF00000 + off) b)
  | .pointer slot trial =>
    let s := s.putPointer slot trial
    if trial = 0 ∧ s.shd.role = .shadow then s.sendLeave.warmReset 3 else s
  | .fatal => s.bulkFatal b

/-- A transfer may be taken: of a fatal-state image, in ACTIVE, SOLO or TAKING_OVER (R692). -/
def State.bulkTakes (s : State) : BulkKind → Bool
  | .fatal => s.shd.role == .active || s.shd.role == .solo || s.shd.role == .takingOver
  | _ => true

/-- BULK: the next piece of a transfer; the first one begins it again. -/
def State.bulk (s : State) (kind : BulkKind) (off : Nat) (b : Bytes) (last : Bool) : State :=
  let had := if off = 0 then [] else match s.shd.bulkIn.find? fun x => x.1 == kind with
    | some x => x.2
    | none => []
  if !s.bulkTakes kind ∨ had.length ≠ off then s
  else
    let s := (s.mirror .bulkAck (kind.code ++ [off + b.length]) []).raise 19
    if last then (s.setBulkIn kind none).bulkWhole kind (had ++ b) else s.setBulkIn kind (some (had ++ b))

def execBulk (kind : BulkKind) (off : Nat) (bytes : Bytes) (last crcOk : Bool) (s : State) : Outcome :=
  .next (s.mirrorRx crcOk fun s => s.bulk kind off bytes last)

/-- A transfer has been acknowledged whole; that of the fatal-state image ends the pull: PULLED, and unless HOLD is set a WARM
reset (R689, R692). -/
def State.bulkDone (s : State) (x : Bulk) : State :=
  match x.kind with
  | .fatal =>
    let s := (s.setField .sysFatal 29 29 1).updFatal fun f => { f with pulling := false }
    if s.held then s else s.warmReset 6
  | _ => s.bulkNext.settle.flow

/-- BULK_ACK: bytes up to `off` of the transfer at the front are acknowledged. -/
def State.bulkAck (s : State) (kind : BulkKind) (off : Nat) : State :=
  match s.shd.bulk with
  | x :: rest =>
    if x.kind ≠ kind ∨ off ≤ x.acked ∧ x.bytes.length ≠ off then s
    else if x.bytes.length ≤ off then ({ s with shd := { s.shd with bulk := rest } } : State).bulkDone x
    else ({ s with shd := { s.shd with bulk := { x with acked := off } :: rest } } : State).bulkNext
  | [] => s

def execBulkAck (kind : BulkKind) (off : Nat) (crcOk : Bool) (s : State) : Outcome :=
  .next (s.mirrorRx crcOk fun s => s.bulkAck kind off)

end Sys2Proof.Machine
end

