-- ==== Sys2Proof/Machine/Errors.lean ====
section
/-! DEFINITION. What clocks, sensors, supplies, buses and memories report (R683 to R687, R702, R715). -/

namespace Sys2Proof.Machine

/-! ### Clocks, buses, handshakes (R683, R687) -/

def execRefClockLoss (s : State) : Outcome := .next (s.fatal 5 siteUnknown 0 false)

/-- AON_CLOCK_LOSS: the wake timer of Glimmer no longer expires. -/
def execAonClockLoss (s : State) : Outcome :=
  .next { s.err 9 with glm := { (s.err 9).glm with clockLost := true } }

/-- PLL_UNLOCK: the links that the reference clocks drop. -/
def State.pllUnlock (s : State) (p : PllRef) : State :=
  let s := s.err 9
  match p with
  | .network =>
    let subs := (List.range (Config.macs s.variant)).flatMap fun m => (List.range (s.subports m)).map fun u => (m, u)
    (subs.foldl (fun s x => s.linkDown x.1 x.2) s).selfCheck 6
  | .endpoint => s.epLinkDown
  | .drives => (List.range (Config.slots s.variant)).foldl (fun s sl => s.driveLink sl false) s

def execPllUnlock (pll : PllRef) (s : State) : Outcome := .next (s.pllUnlock pll)

def execSmbusTimeout (controller : Nat) (s : State) : Outcome :=
  .next (((s.err 15).inBad).emit (.smbusReset controller))

/-- HANDSHAKE_TIMEOUT: outside a transition of the island (R687). -/
def execHandshakeTimeout (isl : Nat) (s : State) : Outcome :=
  .next (if (s.island isl).busy.isSome then s else s.fatal 4 (siteIsland isl) 0 (isl == 162))

/-! ### Temperature (R683, R684, R715) -/

/-- The island in which a sensor sits, where the variant may lack it (R715). -/
def sensorFused (v : Variant) (i : Nat) : Bool := decide (8 ≤ i) || i == 5 && Config.fused v 148 || i == 6 && Config.fused v 149

/-- SITE of a sensor (R690). -/
def sensorSite (i : Nat) : Nat := if i = 5 then siteIsland 148 else if i = 6 then siteIsland 149 else siteUnknown

/-- The latest reading of a sensor. -/
def State.tempOf (s : State) (i : Nat) : Int := ((tblFind s.sys.temps i).bind List.head?).getD 0

/-- Sensors that are valid. -/
def State.validSensors (s : State) : List Nat := (List.range 8).filter fun i => tblGet false s.sys.tempValid i

/-- The hottest valid sensor, the lowest number on a tie. -/
def State.hottest (s : State) : Option Nat :=
  s.validSensors.foldl (fun b i => match b with
    | none => some i
    | some j => if s.tempOf j < s.tempOf i then some i else b) none

/-- SYS_TEMP shows the valid sensors and the hottest (R715). -/
def State.showTemp (s : State) : State :=
  let valid := s.validSensors.foldl (fun a i => a + 2 ^ i) 0
  let h := s.hottest
  let t := match h with | some i => (s.tempOf i % 2 ^ 16).toNat | none => 0
  s.setReg .sysTemp (valid * 2 ^ 24 + h.getD 0 * 2 ^ 16 + t)

/-- TEMPERATURE_READING of sensor `i`, in units of 0.25 °C: a threshold counts with three readings running of the hottest valid
sensor (R684). -/
def State.temperature (s : State) (i : Nat) (t : Int) : State :=
  if sensorFused s.variant i then s
  else if t < -220 ∨ 600 < t then
    let s : State := { s with sys := { s.sys with
      temps := tblDel s.sys.temps i, tempValid := tblPut false s.sys.tempValid i false } }
    s.showTemp.err 6
  else
    let l := (t :: (tblFind s.sys.temps i).getD []).take 3
    let s : State := { s with sys := { s.sys with
      temps := tblIns s.sys.temps i l, tempValid := tblPut false s.sys.tempValid i true } }
    let s := s.showTemp
    if s.hottest ≠ some i ∨ l.length < 3 then s
    else
      let s := if l.all fun x => decide (400 ≤ x) then s.err 6 else s
      let s := if l.all fun x => decide (440 < x) then (s.err 7).selfCheck 3 else s
      if l.all fun x => decide (480 ≤ x) then s.fatal 6 (sensorSite i) 0 false else s

def execTemperatureReading (sensor : Nat) (quarters : Int) (s : State) : Outcome := .next (s.temperature sensor quarters)

/-! ### Supplies (R702, R705) -/

/-- SUPPLY_OUT_OF_WINDOW of rail 0 to 8; during fatal handling and in Glimmer sleep without its self-check (R708). -/
def State.supplyOut (s : State) (r : Nat) : State :=
  if 9 ≤ r ∨ !s.bit .sysSupply r then s
  else
    let s := (s.setField .sysSupply r r 0).setField .sysSupply (16 + r) (16 + r) 1
    let s := s.err 8
    if s.sys.fatal.isSome || s.glm.asleep then s else s.selfCheck 4

/-- SUPPLY_RETURN_TO_WINDOW. -/
def State.supplyBack (s : State) (r : Nat) : State := if 9 ≤ r then s else s.setField .sysSupply r r 1

/-- A rail that has a reset level: VDD_CORE, VDD_SRAM, VDD_IO, VDD_AON (R702, R705). -/
def hasResetLevel (r : Nat) : Bool := r == 0 || r == 1 || r == 7 || r == 8

def execSupplyOutOfWindow (rail : Nat) (s : State) : Outcome := .next (s.supplyOut rail)
def execSupplyReturnToWindow (rail : Nat) (s : State) : Outcome := .next (s.supplyBack rail)

/-- SUPPLY_BELOW_RESET_LEVEL (R650, R702). -/
def execSupplyBelowResetLevel (rail : Nat) (s : State) : Outcome :=
  .next (if hasResetLevel rail then s.coldReset else s)

/-! ### Memory errors (R685 to R687) -/

/-- An error that was corrected (R685). -/
def State.corrected (s : State) (hbm : Bool) : State := (s.count .sysCe).err (if hbm then 3 else 1)

/-- An error that was contained (R685). -/
def State.contained (s : State) (hbm : Bool) : State := (s.count .sysUe).err (if hbm then 4 else 2)

/-- The thread that uses the memory traps with cause ECC (R435, R686). -/
def State.eccTrap (s : State) (e t : Nat) : State :=
  if s.engineRuns e && decide (t < 16) && (s.thr e t).state == .ready then (s.contained false).trapTo e t ⟨0x0E, none⟩ else s

/-- The cells of a run of a READ are given up, wherever they stand. -/
def State.dropRun (s : State) (c : Cmd) (g : Group) (r : ReadRun) : State :=
  let mine (x : CellRun) : Bool := x.who == .read c.seq r.vblk || x.who == .survivor c.seq r.vblk
  let gone := s.xbr.runs.filter mine
  let s : State := { s with xbr := { s.xbr with runs := s.xbr.runs.filter fun x => !mine x } }
  let s := gone.foldl (fun s x => s.releaseCells x.src x.level x.left) s
  let crossed := if r.crossed then 16 * r.n else
    ((gone.filter fun x => x.who == .read c.seq r.vblk).map fun x => x.total - x.left).sum
  let s := s.releaseCells (s.cmdPort c) (if c.cls = 0 then 0 else 1) crossed
  let pool := (if r.out.isSome then 16 * r.n else 0)
    + if r.sentSlice then (r.got.filter fun e => !r.bad.contains e.1).length * cellsOf g.format1 r.n else 0
  let s := (s.freeSlice r.slice).c0End c.seq pool
  s.updCmd c.seq fun c => { c with faceCells := c.faceCells - crossed }

/-- A cell of a READ that holds block `b` as read from position `pos` (R686): the block is unreadable there and is
reconstructed; nothing is rewritten. -/
def State.readCellError (s : State) (c : Cmd) (b pos : Nat) (hbm : Bool) : State :=
  let hit := c.runs.find? fun r => decide (r.vblk ≤ b ∧ b < r.vblk + r.n) && (tblFind r.got pos).isSome
  match hit, s.target c with
  | some r, some (v, g) =>
    let s := s.contained hbm
    let s := if hbm then s else s.selfCheck 2
    let s := s.dropRun c g r
    let clean : ReadRun := { r with out := none, crossed := false, sentSlice := false, slice := none, toSlice := 0 }
    let parts := (splitRun g clean fun _ => []).map fun x => if x.vblk = b then { x with bad := x.bad ++ [pos] } else x
    let s := s.updCmd c.seq fun c => { c with
      runs := c.runs.flatMap fun x => if x.vblk = r.vblk then parts else [x] }
    ((parts.foldl (fun s p => s.runGo c v g p) s).readEnd c.seq).flow
  | _, _ => s

/-- Segments of a pull without the bytes `lo` to `hi`. -/
def cutSegs (lo hi : Nat) (segs : Tbl Bytes) : Tbl Bytes :=
  segs.foldl (fun t e =>
    let t := if e.1 < lo then tblIns t e.1 (e.2.take (lo - e.1)) else t
    if e.1 < hi ∧ hi < e.1 + e.2.length then tblIns t hi (e.2.drop (hi - e.1))
    else if hi ≤ e.1 then tblIns t e.1 e.2 else t) []

/-- A cell of a write that holds block `b` (R686): before the issue point its pull is made again once. -/
def State.writeCellError (s : State) (c : Cmd) (b : Nat) (hbm : Bool) : State :=
  let s := if hbm then s else s.selfCheck 2
  if c.past ∨ c.repulled.contains b then s.fatal 3 siteUnknown 0 false
  else
    let s := s.contained hbm
    let s := s.updCmd c.seq fun c => { c with
      segs := cutSegs (4096 * b) (4096 * b + 4096) c.segs, repulled := c.repulled ++ [b] }
    ((s.gathered c.seq).pullData c (4096 * b) 4096).gathered c.seq

/-- What an engine that is listed holds is changed. -/
def State.updEng (s : State) (e : Nat) (f : Engine → Engine) : State :=
  if (tblFind s.fct.engines e).isSome then s.setEng e (f (s.eng e)) else s

/-- MEMORY_ERROR by its site (R685 to R687). -/
def State.memoryError (s : State) : MemSite → State
  | .corrected hbm => s.corrected hbm
  | .instrLine e line =>
    (s.updEng e fun g => { g with icache := tblDel g.icache line }).corrected false
  | .engineTlb e v => (s.updEng e fun g => { g with tlb := g.tlb.filter fun x => x.vpage != v }).corrected false
  | .clusterTlb k v => (s.setClu k { s.clu k with tlb := (s.clu k).tlb.filter fun x => x.vpage != v }).corrected false
  | .cleanLine e line =>
    match tblFind (s.eng e).dcache line with
    | some l =>
      if l.dirty then s else (s.updEng e fun g => { g with dcache := tblDel g.dcache line }).corrected false
    | none => s
  | .dirtyLine e t | .scratch e t | .inbox e t | .sharedSram e t => s.eccTrap e t
  | .readCell q cid b pos hbm =>
    match s.carried q cid opRead with
    | some c => s.readCellError c b pos hbm
    | none => s
  | .writeCell q cid b hbm =>
    match s.carried q cid opWrite with
    | some c => if 4096 * b + 4096 ≤ c.data.length then s.writeCellError c b hbm else s
    | none => s
  | .prismRing p => (s.contained true).prismLose p
  | .pmcRing => (s.contained true).count .pmcSmpLost
  | .fatalRegion => s.contained true
  | .control isl a => s.fatal 3 (siteIsland isl) a (isl == 162)
  | .replicated a =>
    let s := s.fatal 3 siteUnknown a true
    ((s.setReg .shdSelfchk (s.reg .shdSelfchk ||| 2 ^ 17)).raise 22).trace 3 162
  | .contextCache a => (s.selfCheck 1).fatal 3 (siteIsland 160) a false

def execMemoryError (site : MemSite) (s : State) : Outcome := .next (s.memoryError site)

end Sys2Proof.Machine
end

