-- ==== Sys2Proof/Machine/FctAcc.lean ====
section
/-! DEFINITION. The accelerators: ACC, the request bus, and results (R361 to R365, R487 to R490), and the assignment of
erasure-code work (R168). -/

namespace Sys2Proof.Machine

/-! ### The checks at issue (R487 to R489) -/

/-- Bits set in the low `n` bits. -/
def maskBits (v n : Nat) : Nat := ((List.range n).filter fun i => v.testBit i).length

/-- Positions named by a 28-bit mask, ascending (R489). -/
def positionsOf (v : Nat) : List Nat := (List.range 28).filter fun i => v.testBit i

/-- Fields of an EC request (R489). -/
def ecKd (b : Bytes) : Nat := byteAt b 32
def ecM (b : Bytes) : Nat := byteAt b 33
def ecMode (b : Bytes) : Nat := byteAt b 34
def ecIn (b : Bytes) : Nat := leAt b 36 4
def ecOut (b : Bytes) : Nat := leAt b 40 4
def ecCells (b : Bytes) : Nat := leAt b 44 2

/-- An EC request has a field outside its range, or non-zero reserved bytes (R489). -/
def ecBad (b : Bytes) (beats : Nat) : Bool :=
  let i := ecIn b; let o := ecOut b
  let h := maskBits i 28 + maskBits o 28
  !(decide (2 ≤ ecKd b ∧ ecKd b ≤ 24) && decide (1 ≤ ecM b ∧ ecM b ≤ 4) && decide (ecMode b ≤ 2)
    && decide (byteAt b 35 ≤ 1) && decide (i < 2 ^ 28 ∧ o < 2 ^ 28) && i &&& o == 0 && decide (maskBits o 28 ≤ ecM b)
    && decide (1 ≤ ecCells b ∧ ecCells b ≤ 260) && zeroAt b 46 10 && zeroAt b 16 16 && decide (h ≤ 48)
    && beats == ceilDiv (56 + 4 * h) 32)

/-- A request traps with cause ACC_FAULT (R488, R489). -/
def accBad (b : Bytes) (t : Nat) : Bool :=
  let fn := byteAt b 0; let beats := byteAt b 1; let flags := byteAt b 2
  let arg1 := leAt b 24 8
  decide (1 < flags) || (flags == 1 && decide (t < 14)) || !zeroAt b 3 5 || leAt b 8 8 % 8 != 0
    || (match fn with
      | 1 => !(decide (1 ≤ arg1 % 2 ^ 32 ∧ arg1 % 2 ^ 32 ≤ 65536) && beats == 2)
      | 2 | 3 => !(decide (arg1 ≤ 65536) && beats == 2)
      | 16 => ecBad b beats
      | _ => true)

/-- Pieces of a range that cross no 4 KiB boundary: address and length. -/
def pagePieces : Nat → Nat → Nat → List (Nat × Nat)
  | 0, _, _ => []
  | k + 1, a, n => if n = 0 then [] else
      let m := min n (4096 - a % 4096)
      (a, m) :: pagePieces k (a + m) (n - m)

/-- Translate and check the pieces of a range (R475): physical addresses and lengths. -/
def State.rangeOf (s : State) (e t : Nat) (need : Need) : List (Nat × Nat) → State × Except Trap (List (Nat × Nat))
  | [] => (s, .ok [])
  | p :: l =>
    match s.access e t need false p.1 with
    | (s, .error tr) => (s, .error tr)
    | (s, .ok pa) =>
      match s.rangeOf e t need l with
      | (s, .error tr) => (s, .error tr)
      | (s, .ok l) => (s, .ok ((pa, p.2) :: l))

/-- Load the beats of a request at checked addresses. -/
def State.loadBeats (s : State) (e t : Nat) : List (Nat × Nat) → State × Bytes
  | [] => (s, [])
  | p :: l =>
    let (s, b) := s.loadLine e t p.1 p.2
    let (s, c) := s.loadBeats e t l
    (s, b ++ c)

/-- Bytes of the result value of a function (R489). -/
def accResultBytes (fn : Nat) : Nat := match fn with | 1 => 4 | 2 => 8 | 3 => 32 | _ => 0

/-- Bytes of source data of a request (R489). -/
def accSourceBytes (b : Bytes) : Nat := match byteAt b 0 with
  | 1 => leAt b 24 4
  | 2 | 3 => leAt b 24 8
  | _ => 0

/-- The `n` beats at `va`, as pieces of 32 bytes. -/
def beatsAt (va n : Nat) : List (Nat × Nat) := (List.range n).map fun i => (va + 32 * i, 32)

/-- The effect of ACC (R487). -/
def State.accIssue (s : State) (e t : Nat) (pd : Fin 8) (ra : Fin 32) : Res :=
  let x := s.thr e t
  let va := (x.reg ra).toNat
  if va % 32 ≠ 0 then .trap s ⟨0x03, some va⟩
  else if 2 ≤ s.accOut e t then .retire (s.updThr e t fun x => x.setPred pd false)
  else
    match s.rangeOf e t .load (beatsAt va 1) with
    | (s, .error tr) => .trap s tr
    | (s, .ok ps) =>
      let (s, h) := s.loadBeats e t ps
      let beats := byteAt h 1
      if x.umode ∧ (byteAt h 0 = 0x10 ∨ byteAt h 2 % 2 = 1) then .trap s ⟨0x02, none⟩
      else if beats < 2 ∨ 8 < beats then .trap s ⟨0x0F, none⟩
      else
        match s.rangeOf e t .load (beatsAt (va + 32) (beats - 1)) with
        | (s, .error tr) => .trap s tr
        | (s, .ok ps) =>
          let (s, r) := s.loadBeats e t ps
          let b := h ++ r
          if accBad b t then .trap s ⟨0x0F, none⟩
          else if byteAt b 0 = 0x10 ∧ Config.maxM s.variant < ecM b then .trap s ⟨0x09, none⟩
          else
            let n := accSourceBytes b
            match s.rangeOf e t .load (pagePieces 18 (leAt b 16 8) n) with
            | (s, .error tr) => .trap s tr
            | (s, .ok src) =>
              let m := 8 + accResultBytes (byteAt b 0)
              match s.rangeOf e t .store (pagePieces 3 (leAt b 8 8) m) with
              | (s, .error tr) => .trap s tr
              | (s, .ok res) =>
                let a : AccReq := { engine := e, thread := t, c0 := byteAt b 2 == 1, func := byteAt b 0, req := b,
                                    src, res, since := s.now }
                let k := s.clu (e / 12)
                .retire (((s.setClu (e / 12) { k with acc := k.acc ++ [a] }).pmc e t 0x0B 1).updThr e t fun x =>
                  x.setPred pd true)

def execAcc (e t : Nat) (g : Guard) (pd : Fin 8) (ra : Fin 32) (pre : Option Cut) (s : State) : Outcome :=
  .next (s.instr e t g false (fun s => s.accIssue e t pd ra) pre true)

/-! ### The request bus (R361 to R364) -/

/-- The state with the first request that `p` picks in cluster `c` changed. -/
def State.updAcc (s : State) (c : Nat) (p : AccReq → Bool) (f : AccReq → AccReq) : State :=
  let k := s.clu c
  s.setClu c { k with acc := updFirst p f k.acc }

/-- An EC request that has been granted takes a context where a slice has one (R168, R489). -/
def State.ecAssign (s : State) (c : Nat) (a : AccReq) : State :=
  match s.pickSlice a.c0 with
  | some i => (s.takeSlice i a.c0).updAcc c (· == a) fun a => { a with slice := some (i, a.c0) }
  | none => s

/-- ACC_BUS_ARBITRATION (R363, R364): the next data phase of a cluster is granted; the pointer used moves past the winner,
but not for a parked engine that alone asks. -/
def State.accArbitrate (s : State) (c : Nat) : State :=
  match s.grantOrder c with
  | [] => s
  | i :: rest =>
    let k := s.clu c
    match k.presented (12 * c + i) with
    | none => s
    | some a =>
      let n := Config.enginesPerCluster s.variant
      let alone := rest.isEmpty && k.park == some i
      let k := if alone then k else if a.c0 then { k with ptr0 := (i + 1) % n } else { k with ptr := (i + 1) % n }
      let g : AccReq := { a with granted := true }
      let s := s.setClu c { k with park := some i, acc := updFirst (· == a) (fun _ => g) k.acc }
      let s := s.pmc a.engine a.thread 0x0C (2 * (s.now - a.since))
      if a.func ≠ 0x10 then s
      else if (s.pickSlice a.c0).isNone then s.count .parCtxWait
      else s.ecAssign c g

def execAccBusArbitration (cluster : Nat) (s : State) : Outcome :=
  .next (if s.isOn (144 + cluster) && decide (cluster < 4) then s.accArbitrate cluster else s)

/-- SLICE_ASSIGN (R168): the oldest stripe or reconstruction that waits takes a context, else the oldest EC request that
waits. -/
def State.sliceAssign (s : State) : State :=
  match s.assignStripe with
  | some s => s
  | none =>
    let waits (a : AccReq) : Bool := a.func == 0x10 && a.granted && a.slice.isNone && (s.pickSlice a.c0).isSome
    match (List.range 4).findSome? fun c => ((s.clu c).acc.find? waits).map fun a => (c, a) with
    | some (c, a) => s.ecAssign c a
    | none => s

def execSliceAssign (s : State) : Outcome := .next s.sliceAssign

/-! ### Results (R489, R490) -/

/-- The handles of an EC request with their positions: inputs, then outputs, each in ascending position (R489). -/
def ecHandles (b : Bytes) : List (Nat × Nat) × List (Nat × Nat) :=
  let i := positionsOf (ecIn b)
  let o := positionsOf (ecOut b)
  (i.zipIdx.map fun p => (p.1, leAt b (56 + 4 * p.2) 4),
   o.zipIdx.map fun p => (p.1, leAt b (56 + 4 * (i.length + p.2)) 4))

/-- The bytes of an output position of an EC request from its inputs (R127, R128, R180, R489); none where the inputs do not
fix them (log entry 60). -/
def ecOutput (kd mode n pos : Nat) (ins : List (Nat × Bytes)) : Option Bytes :=
  let data := ins.filter fun x => decide (x.1 < kd)
  let par := (ins.filter fun x => decide (kd ≤ x.1)).map fun x => (x.1 - kd, x.2)
  let miss := (List.range kd).filter fun j => !(data.any fun x => x.1 == j)
  if mode = 0 then (if miss.isEmpty ∧ kd ≤ pos then some (parityOf (pos - kd) n data) else none)
  else if mode = 1 then none
  else if par.length < miss.length then none
  else
    let all := data ++ solveData n miss data par
    if pos < kd then (all.find? fun x => x.1 == pos).map (·.2) else some (parityOf (pos - kd) n all)

/-- The bytes that a stream holds, at least `n`. -/
def Stream.take (x : Stream) (n : Nat) : Bytes := (x.bytes ++ zeros (n - x.bytes.length)).take n

/-- An EC request is served (R489, R490): the outputs leave on their streams, and its status word. -/
def State.ecServe (s : State) (c : Nat) (b : Bytes) : State × Nat :=
  let n := 256 * ecCells b
  let (is, os) := ecHandles b
  let live (h : Nat) : Option Stream := (tblFind s.fct.streams h).filter fun x => x.cluster == c
  let ins := is.filterMap fun p => (live p.2).map fun x => (p.1, x.take n)
  if ins.length < is.length then (s.count .parInputEnded, 2)
  else
    let s := (s.count .parInCells (is.length * ecCells b)).count .parOutCells (os.length * ecCells b)
    let put (s : State) (p : Nat × Nat) : State :=
      match tblFind s.fct.streams p.2 with
      | some x =>
        if x.cluster = c then
          let v := ecOutput (ecKd b) (ecMode b) n p.1 ins
          let bytes := v.getD (freeBytes s.draws n)
          { s with
            fct := { s.fct with streams := tblIns s.fct.streams p.2 { x with bytes } }
            draws := s.draws + b2n v.isNone }
        else s
      | none => s
    (os.foldl put s, 1)

/-- The value of a front-end function (R489). The initial value of CRC32C is the register's (log entry 61). -/
def accValue (b data : Bytes) : Bytes :=
  match byteAt b 0 with
  | 1 => toLe (crcRun (leAt b 28 4) data ^^^ 0xFFFFFFFF) 4
  | 2 => toLe (Crypto.siphash ((b.drop 32).take 16) data) 8
  | 3 => Crypto.sha256 data
  | _ => []

/-- Store a string over physical pieces. -/
def State.storePieces (s : State) : List (Nat × Nat) → Bytes → State
  | [], _ => s
  | p :: l, b => (s.store p.1 (b.take p.2)).storePieces l (b.drop p.2)

/-- ACC_RESULT (R490): the oldest request of a thread that has been granted, and holds a context where it needs one, is
served; its status word and value are written, and the ACC event is latched. -/
def State.accResult (s : State) (e t : Nat) : State :=
  let c := e / 12
  match (s.clu c).acc.find? fun a => a.engine == e && a.thread == t && a.granted && (a.func != 0x10 || a.slice.isSome) with
  | none => s
  | some a =>
    let (s, st) := if a.func = 0x10 then s.ecServe c a.req else (s, 1)
    let data := a.src.flatMap fun p => s.mem.readN p.1 p.2
    let s := s.storePieces a.res (toLe st 8 ++ accValue a.req data)
    let k := s.clu c
    let s := (s.setClu c { k with acc := rmFirst (· == a) k.acc }).freeSlice a.slice
    ((s.latch e t 2).haltCheck e t).flow

def execAccResult (e t : Nat) (s : State) : Outcome :=
  .next (if s.isOn (144 + e / 12) then s.accResult e t else s)

end Sys2Proof.Machine
end

