-- ==== Sys2Proof/Machine/FctAlu.lean ====
section
/-! DEFINITION. Facet instructions on registers alone: integer and logic (R470, R471), branches, comparisons and
predicates (R476 to R478). -/

namespace Sys2Proof.Machine

/-! ### ALU (R470) -/

/-- Set bits of a doubleword among its low `n`. -/
def popCount (v : Nat) : Nat → Nat
  | 0 => 0
  | n + 1 => popCount v n + b2n (v.testBit n)

/-- Trailing zero bits of a number among its low `n`, from bit `i`. -/
def ctzFrom (v : Nat) : Nat → Nat → Nat
  | 0, _ => 0
  | n + 1, i => if v.testBit i then 0 else 1 + ctzFrom v n (i + 1)

/-- Leading zero bits of a doubleword from bit `n - 1` down. -/
def clzFrom (v : Nat) : Nat → Nat
  | 0 => 0
  | n + 1 => if v.testBit n then 0 else 1 + clzFrom v n

/-- The signed minimum and maximum. -/
def smin (a b : DWord) : DWord := if a.toInt ≤ b.toInt then a else b
def smax (a b : DWord) : DWord := if a.toInt ≤ b.toInt then b else a

/-- The unsigned minimum and maximum. -/
def umin (a b : DWord) : DWord := if a.toNat ≤ b.toNat then a else b
def umax (a b : DWord) : DWord := if a.toNat ≤ b.toNat then b else a

/-- The result of ALU function `fn`; none where no function has that number (R470). -/
def aluFn (fn : Nat) (a b : DWord) : Option DWord :=
  let sh := b.toNat % 64
  match fn with
  | 0x00 => some (a + b)
  | 0x01 => some (a - b)
  | 0x02 => some (a &&& b)
  | 0x03 => some (a ||| b)
  | 0x04 => some (a ^^^ b)
  | 0x05 => some (a <<< sh)
  | 0x06 => some (a >>> sh)
  | 0x07 => some (a.sshiftRight sh)
  | 0x08 => some (a * b)
  | 0x09 => some (BitVec.ofNat 64 (a.toNat * b.toNat / 2 ^ 64))
  | 0x0A => some (BitVec.ofInt 64 (a.toInt * b.toInt / 2 ^ 64))
  | 0x0B => some (if b = 0#64 then BitVec.allOnes 64 else BitVec.ofNat 64 (a.toNat / b.toNat))
  | 0x0C => some (if b = 0#64 then a else BitVec.ofNat 64 (a.toNat % b.toNat))
  | 0x0D => some (if b = 0#64 then BitVec.allOnes 64 else BitVec.ofInt 64 (a.toInt.tdiv b.toInt))
  | 0x0E => some (if b = 0#64 then a else BitVec.ofInt 64 (a.toInt.tmod b.toInt))
  | 0x0F => some (umin a b)
  | 0x10 => some (umax a b)
  | 0x11 => some (smin a b)
  | 0x12 => some (smax a b)
  | 0x13 => some ((a.setWidth 32 + b.setWidth 32).signExtend 64)
  | 0x14 => some ((a.setWidth 32 - b.setWidth 32).signExtend 64)
  | 0x15 => some (BitVec.ofNat 64 (clzFrom a.toNat 64))
  | 0x16 => some (BitVec.ofNat 64 (ctzFrom a.toNat 64 0))
  | 0x17 => some (BitVec.ofNat 64 (popCount a.toNat 64))
  | 0x18 => some (BitVec.ofNat 64 (Sys2Proof.leAt (toLe a.toNat 8).reverse 0 8))
  | _ => none

/-- An ALU word that no instruction uses: an undefined fn, or rb not 0 where it must be (R467, R470). -/
def aluIllegal (fn : Nat) (rb : Fin 32) : Bool := decide (0x18 < fn) || (decide (0x15 ≤ fn) && rb != 0)

/-- ALU (R470). -/
def execAlu (e t : Nat) (g : Guard) (rd ra rb : Fin 32) (fn : Fin 128) (s : State) : Outcome :=
  .next (s.instrRegs e t g (aluIllegal fn.val rb) fun x =>
    x.setReg rd ((aluFn fn.val (x.reg ra) (x.reg rb)).getD 0#64))

/-! ### Immediate forms (R471) -/

/-- rd receives a function of ra. -/
def State.instrImm (s : State) (e t : Nat) (g : Guard) (rd ra : Fin 32) (f : DWord → DWord) : State :=
  s.instrRegs e t g false fun x => x.setReg rd (f (x.reg ra))

def execAddi (e t : Nat) (g : Guard) (rd ra : Fin 32) (imm : BitVec 12) (s : State) : Outcome :=
  .next (s.instrImm e t g rd ra fun a => a + imm.signExtend 64)
def execAndi (e t : Nat) (g : Guard) (rd ra : Fin 32) (imm : BitVec 12) (s : State) : Outcome :=
  .next (s.instrImm e t g rd ra fun a => a &&& imm.signExtend 64)
def execOri (e t : Nat) (g : Guard) (rd ra : Fin 32) (imm : BitVec 12) (s : State) : Outcome :=
  .next (s.instrImm e t g rd ra fun a => a ||| imm.setWidth 64)
def execXori (e t : Nat) (g : Guard) (rd ra : Fin 32) (imm : BitVec 12) (s : State) : Outcome :=
  .next (s.instrImm e t g rd ra fun a => a ^^^ imm.setWidth 64)

/-- A shift by the amount of SHI: kind 0 SLL, 1 SRL, 2 SRA (R471). -/
def shiftImm (imm : BitVec 12) (a : DWord) : DWord :=
  let n := imm.toNat % 64
  match bitsOf imm.toNat 7 6 with
  | 0 => a <<< n
  | 1 => a >>> n
  | _ => a.sshiftRight n

/-- SHI (R471): imm12 [11:8] must be 0, and kind 3 is ILLEGAL. -/
def execShi (e t : Nat) (g : Guard) (rd ra : Fin 32) (imm : BitVec 12) (s : State) : Outcome :=
  .next (s.instrRegs e t g (bitsOf imm.toNat 11 8 != 0 || bitsOf imm.toNat 7 6 == 3) fun x =>
    x.setReg rd (shiftImm imm (x.reg ra)))

def execSeti (e t : Nat) (g : Guard) (rd : Fin 32) (imm : BitVec 16) (s : State) : Outcome :=
  .next (s.instrImm e t g rd 0 fun _ => imm.signExtend 64)
def execSetiu (e t : Nat) (g : Guard) (rd : Fin 32) (imm : BitVec 16) (s : State) : Outcome :=
  .next (s.instrImm e t g rd 0 fun _ => imm.setWidth 64)
def execShin (e t : Nat) (g : Guard) (rd : Fin 32) (imm : BitVec 16) (s : State) : Outcome :=
  .next (s.instrImm e t g rd rd fun a => (a <<< (16 : Nat)) ||| imm.setWidth 64)

/-! ### Branches (R476) -/

/-- A branch to `target`, once the link register `link` holds PC + 4 (none: no link). A target not aligned to 4 bytes traps
with cause MISALIGNED and TINFO the target. -/
def State.branch (s : State) (e t : Nat) (link : Option (Fin 32)) (target : DWord) : Res :=
  if target &&& 3#64 ≠ 0#64 then .trap s ⟨0x03, some target.toNat⟩
  else
    let x := s.thr e t
    let s := match link with | some r => s.setThr e t (x.setReg r (x.pc + 4)) | none => s
    .retire s (some target)

/-- The target PC + 4 × off22 (R476). -/
def Thread.relTarget (x : Thread) (off : BitVec 22) : DWord := x.pc + (off.signExtend 64 <<< (2 : Nat))

def execB (e t : Nat) (g : Guard) (off : BitVec 22) (s : State) : Outcome :=
  .next (s.instr e t g false fun s => s.branch e t none ((s.thr e t).relTarget off))
def execBl (e t : Nat) (g : Guard) (off : BitVec 22) (s : State) : Outcome :=
  .next (s.instr e t g false fun s => s.branch e t (some 31) ((s.thr e t).relTarget off))
def execBr (e t : Nat) (g : Guard) (ra : Fin 32) (s : State) : Outcome :=
  .next (s.instr e t g false fun s => s.branch e t none ((s.thr e t).reg ra))
def execBlr (e t : Nat) (g : Guard) (rd ra : Fin 32) (s : State) : Outcome :=
  .next (s.instr e t g false fun s => s.branch e t (some rd) ((s.thr e t).reg ra))

/-! ### Comparisons and predicates (R477, R478) -/

/-- The condition of a code (R477). -/
def condition (c : Nat) (a b : DWord) : Bool :=
  match c with
  | 0 => a == b
  | 1 => a != b
  | 2 => decide (a.toInt < b.toInt)
  | 3 => decide (b.toInt ≤ a.toInt)
  | 4 => decide (a.toNat < b.toNat)
  | _ => decide (b.toNat ≤ a.toNat)

def execCmp (e t : Nat) (g : Guard) (pd : Fin 8) (ra rb : Fin 32) (fn : Fin 128) (s : State) : Outcome :=
  .next (s.instrRegs e t g (decide (5 < fn.val)) fun x => x.setPred pd (condition fn.val (x.reg ra) (x.reg rb)))
def execCmpi (e t : Nat) (g : Guard) (pd cc : Fin 8) (ra : Fin 32) (imm : BitVec 11) (s : State) : Outcome :=
  .next (s.instrRegs e t g (decide (5 < cc.val)) fun x =>
    x.setPred pd (condition cc.val (x.reg ra) (imm.signExtend 64)))

/-- The function of PLOG (R478). -/
def plogFn (fn : Nat) (a b : Bool) : Bool :=
  match fn with
  | 0 => a && b
  | 1 => a || b
  | 2 => a != b
  | 3 => a && !b
  | _ => a || !b

def execPlog (e t : Nat) (g : Guard) (pd pa pb fn : Fin 8) (s : State) : Outcome :=
  .next (s.instrRegs e t g (decide (4 < fn.val)) fun x => x.setPred pd (plogFn fn.val (x.pred pa) (x.pred pb)))

/-! ### Words that no instruction uses (R467 to R469) -/

/-- A word traps with cause ILLEGAL: its OP is not in the table, a field that its format or its instruction has as 0 is not
0, or an fn, cc or form value is not defined (R467). -/
def illegalWord (w : Nat) : Bool :=
  let rd := bitsOf w 21 17; let ra := bitsOf w 16 12; let rb := bitsOf w 11 7; let fn := bitsOf w 6 0
  let gap := bitsOf w 18 17 != 0
  match bitsOf w 27 22 with
  | 0x01 => aluIllegal fn (Fin.ofNat 32 rb)
  | 0x02 | 0x03 | 0x04 | 0x05 => false
  | 0x06 => bitsOf w 11 8 != 0 || bitsOf w 7 6 == 3
  | 0x08 | 0x09 | 0x0A => bitOf w 16
  | 0x10 | 0x11 | 0x12 | 0x13 | 0x14 | 0x15 | 0x16 | 0x18 | 0x19 | 0x1A | 0x1B => false
  | 0x1C => decide (9 < fn % 64)
  | 0x20 | 0x21 => false
  | 0x22 => rb != 0 || !(fn == 1 || (fn == 0 && rd == 0))
  | 0x24 => gap || decide (5 < fn)
  | 0x25 => decide (5 < bitsOf w 18 16)
  | 0x26 => bitsOf w 9 0 != 0 || decide (4 < bitsOf w 12 10)
  | 0x28 => gap || decide (1 < fn) || (fn == 1 && rb != 0)
  | 0x29 => gap || fn != 0
  | 0x2A => gap || decide (1 < fn)
  | 0x2B | 0x2C => gap || rb != 0 || fn != 0
  | 0x2D => ra != 0 || fn != 0
  | 0x2E | 0x39 => bitsOf w 21 0 != 0
  | 0x30 => bitsOf w 3 0 != 0 || ra != 0
  | 0x31 => bitsOf w 3 0 != 0 || rd != 0
  | 0x32 => bitsOf w 3 0 != 0
  | 0x33 => bitsOf w 1 0 != 0
  | 0x38 => rd != 0 || ra != 0
  | 0x3A => rd != 0 || decide (5 < fn) || ((fn == 0 || fn == 4 || fn == 5) && (ra != 0 || rb != 0))
  | _ => true

/-- ILLEGAL_WORD (R467): a word that no instruction uses. -/
def execIllegalWord (e t : Nat) (w : Word) (s : State) : Outcome :=
  .next (if illegalWord w.toNat then s.instr e t {} true fun s => .retire s else s)

end Sys2Proof.Machine
end

