-- ==== Sys2Proof/Machine/FctLs.lean ====
section
/-! DEFINITION. Facet loads, stores and atomics (R472 to R475), to memory and to the register space. -/

namespace Sys2Proof.Machine

/-! ### Loads and stores (R472, R473) -/

/-- The address of a load or a store (R472). -/
def Thread.lsAddr (x : Thread) (ra : Fin 32) (imm : BitVec 12) : Nat := (x.reg ra + imm.signExtend 64).toNat

/-- A loaded value as the register takes it: little-endian bytes, sign- or zero-extended (R17, R472). -/
def loadValue (signed : Bool) (b : Bytes) : DWord :=
  let v := leAt b 0 b.length
  if signed ∧ v.testBit (8 * b.length - 1) then BitVec.ofNat 64 (2 ^ 64 - 2 ^ (8 * b.length) + v) else BitVec.ofNat 64 v

/-- The thread waits for a register access (R425, R614). -/
def State.blockOn (s : State) (e t : Nat) (a : RegAccess) : State :=
  s.updThr e t fun x => { x with state := .blocked, access := some a }

/-- A load from the register space or, for a bit, from the alias region (R473, R610): a U-mode read clears nothing
(R616). -/
def State.regLoad (s : State) (e t : Nat) (rd : Fin 32) (signed : Bool) (va off : Nat) (al : Option Nat) : Res :=
  let req : Requester := .thread e t
  if s.servedNow off then
    let (s, v) := s.readWord req off al (!(s.thr e t).umode)
    .retire (s.updThr e t fun x => x.setReg rd (loadValue signed (toLe v 4)))
  else
    let s : State := { s with fab := { s.fab with
      stalled := s.fab.stalled ++ [{ req, off, op := none, aliasBit := al, since := s.now }] } }
    .hold (s.blockOn e t { rd := rd.val, signed, store := false, va })

/-- A store to the register space or the alias region (R473, R610, R618). -/
def State.regStore (s : State) (e t va off : Nat) (op : RegOp) : Res :=
  let req : Requester := .thread e t
  let s := s.fabWrite req off op
  if s.isStalled req then .hold (s.blockOn e t { rd := 0, signed := false, store := true, va }) else .retire s

/-- A load of `n` bytes (R472 to R475). -/
def State.loadInstr (s : State) (e t : Nat) (g : Guard) (rd ra : Fin 32) (imm : BitVec 12) (n : Nat) (signed : Bool) :
    State :=
  s.instr e t g false fun s =>
    let va := (s.thr e t).lsAddr ra imm
    let s := s.updThr e t fun x => { x with daddr := va }
    if va % n ≠ 0 then .trap s ⟨0x03, some va⟩
    else
      match s.access e t .load (n == 4) va with
      | (s, .error tr) => .trap s tr
      | (s, .ok pa) =>
        match s.place pa with
        | .regs off => s.regLoad e t rd signed va off none
        | .bitAlias off b => s.regLoad e t rd signed va off (some b)
        | _ =>
          let (s, b) := s.loadLine e t pa n
          .retire (s.updThr e t fun x => x.setReg rd (loadValue signed b))

/-- A store of `n` bytes (R472 to R475). -/
def State.storeInstr (s : State) (e t : Nat) (g : Guard) (rd ra : Fin 32) (imm : BitVec 12) (n : Nat) : State :=
  s.instr e t g false fun s =>
    let va := (s.thr e t).lsAddr ra imm
    let v := ((s.thr e t).reg rd).toNat
    let s := s.updThr e t fun x => { x with daddr := va }
    if va % n ≠ 0 then .trap s ⟨0x03, some va⟩
    else
      match s.access e t .store (n == 4) va with
      | (s, .error tr) => .trap s tr
      | (s, .ok pa) =>
        match s.place pa with
        | .regs off => s.regStore e t va off (.word (v % 2 ^ 32))
        | .bitAlias off b => s.regStore e t va off (.bit b (bitOf v 0))
        | _ => .retire (s.storeLine e t pa (toLe v n))

def execLb (e t : Nat) (g : Guard) (rd ra : Fin 32) (imm : BitVec 12) (s : State) : Outcome :=
  .next (s.loadInstr e t g rd ra imm 1 true)
def execLbu (e t : Nat) (g : Guard) (rd ra : Fin 32) (imm : BitVec 12) (s : State) : Outcome :=
  .next (s.loadInstr e t g rd ra imm 1 false)
def execLh (e t : Nat) (g : Guard) (rd ra : Fin 32) (imm : BitVec 12) (s : State) : Outcome :=
  .next (s.loadInstr e t g rd ra imm 2 true)
def execLhu (e t : Nat) (g : Guard) (rd ra : Fin 32) (imm : BitVec 12) (s : State) : Outcome :=
  .next (s.loadInstr e t g rd ra imm 2 false)
def execLw (e t : Nat) (g : Guard) (rd ra : Fin 32) (imm : BitVec 12) (s : State) : Outcome :=
  .next (s.loadInstr e t g rd ra imm 4 true)
def execLwu (e t : Nat) (g : Guard) (rd ra : Fin 32) (imm : BitVec 12) (s : State) : Outcome :=
  .next (s.loadInstr e t g rd ra imm 4 false)
def execLd (e t : Nat) (g : Guard) (rd ra : Fin 32) (imm : BitVec 12) (s : State) : Outcome :=
  .next (s.loadInstr e t g rd ra imm 8 false)
def execSb (e t : Nat) (g : Guard) (rd ra : Fin 32) (imm : BitVec 12) (s : State) : Outcome :=
  .next (s.storeInstr e t g rd ra imm 1)
def execSh (e t : Nat) (g : Guard) (rd ra : Fin 32) (imm : BitVec 12) (s : State) : Outcome :=
  .next (s.storeInstr e t g rd ra imm 2)
def execSw (e t : Nat) (g : Guard) (rd ra : Fin 32) (imm : BitVec 12) (s : State) : Outcome :=
  .next (s.storeInstr e t g rd ra imm 4)
def execSd (e t : Nat) (g : Guard) (rd ra : Fin 32) (imm : BitVec 12) (s : State) : Outcome :=
  .next (s.storeInstr e t g rd ra imm 8)

/-! ### Atomics (R421, R474) -/

/-- What memory becomes: `old`, the operand, and rd on entry for CAS; a W form keeps the low words (R474). -/
def atomFn (fn : Nat) (w : Bool) (old b d : DWord) : DWord :=
  let sx (x : DWord) : DWord := if w then (x.setWidth 32).signExtend 64 else x
  match fn with
  | 0 => b
  | 1 => old + b
  | 2 => old &&& b
  | 3 => old ||| b
  | 4 => old ^^^ b
  | 5 => umin old b
  | 6 => umax old b
  | 7 => smin (sx old) (sx b)
  | 8 => smax (sx old) (sx b)
  | _ => if old = d then b else old

/-- ATOM: the memory that holds the address does it; a line of HBM leaves the data cache first (R421, R474). -/
def State.atomInstr (s : State) (e t : Nat) (g : Guard) (rd ra rb : Fin 32) (fn : Fin 128) : State :=
  let w := decide (64 ≤ fn.val)
  let op := fn.val % 64
  s.instr e t g (decide (9 < op)) fun s =>
    let x := s.thr e t
    let va := (x.reg ra).toNat
    let n := if w then 4 else 8
    let low (v : DWord) : DWord := if w then (v.setWidth 32).setWidth 64 else v
    let s := s.updThr e t fun x => { x with daddr := va }
    if va % n ≠ 0 then .trap s ⟨0x03, some va⟩
    else
      match s.access e t .atomic false va with
      | (s, .error tr) => .trap s tr
      | (s, .ok pa) =>
        let s := s.pmc e t 0x10 1
        let s := if inHbmSpace pa then s.evict e (pa / 64) else s.sramCount e t pa
        let old := BitVec.ofNat 64 (s.mem.readLe pa n)
        let new := atomFn op w old (low (x.reg rb)) (low (x.reg rd))
        let s := if pa < 0x40000 then s else s.store pa (toLe new.toNat n)
        .retire (s.updThr e t fun x => x.setReg rd old)

def execAtom (e t : Nat) (g : Guard) (rd ra rb : Fin 32) (fn : Fin 128) (s : State) : Outcome :=
  .next (s.atomInstr e t g rd ra rb fn)

end Sys2Proof.Machine
end

