-- ==== Sys2Proof/Machine/Firmware.lean ====
section
/-! DEFINITION. FW_DOWNLOAD, FW_ACTIVATE, and the steps of a hitless activation (R674 to R678, R682). -/

namespace Sys2Proof.Machine

/-- FW_DOWNLOAD with its buffer (R674): the peer's slot takes the same bytes by BULK, and the command completes once it has
them (log entry 65). -/
def State.fwWrite (s : State) (c : Cmd) (b : Bytes) : State :=
  let i := byteAt c.entry 8
  let off := leAt c.entry 40 4
  let s := (s.writeSlot i off b).emit (.flash "SLOT" (0x100000 + i * 0xF00000 + off) b)
  let s := if s.paired then s.sendBulk (.firmware i off) b (some c.seq) else s
  s.bothForce c.seq [] 0

def execFwDownload (qp cid : Nat) (s : State) : Outcome :=
  .next (s.adminRun qp cid 0x46 fun s c => s.withBuffer c State.fwWrite)

/-- BUSY, PHASE and CLUSTER of SYS_FWACT (R682). -/
def State.fwPhase (s : State) (busy phase cluster : Nat) : State :=
  ((s.setField .sysFwact 31 31 busy).setField .sysFwact 30 28 phase).setField .sysFwact 27 26 cluster

/-- The activation in progress is replaced; SYS_FWACT shows it. -/
def State.setActivation (s : State) (a : Activation) : State :=
  ({ s with sys := { s.sys with activation := some a } } : State).fwPhase 1 a.phase a.cluster

/-- FW_ACTIVATE (R675, R676): NEXT_RESET, or a hitless activation, which begins with the shadow where one is paired. -/
def State.fwActivate (s : State) (c : Cmd) : State :=
  let slot := byteAt c.entry 8
  if byteAt c.entry 9 = 1 then
    let s := s.putPointer slot 1
    let s := if s.paired then s.sendBulk (.pointer slot 1) [] (some c.seq) else s
    s.bothForce c.seq [] 0
  else
    let s := (s.markPast c.seq).markWaiting c.seq
    let s := s.setField .sysFwact 15 0 0
    let s := if s.shd.role = .active then s.sendBulk (.pointer slot 0) [] none else s
    s.setActivation { seq := c.seq, slot, old := s.sys.running, phase := if s.shd.role = .active then 1 else 2 }

def execFwActivate (qp cid : Nat) (s : State) : Outcome := .next (s.adminRun qp cid 0x47 State.fwActivate)

/-- The activation ends with RESULT `result` (R676 step 4, R677). -/
def State.fwEnd (s : State) (a : Activation) (result : Nat) : State :=
  let s : State := { s with sys := { s.sys with activation := none } }
  let s := (s.fwPhase 0 0 0).setField .sysFwact 25 24 result
  if result = 1 then
    let s : State := { s with sys := { s.sys with running := a.slot } }
    let s := s.setField .sysBoot 27 27 a.slot
    let s := s.setField .sysBoot 7 0 (leAt (s.slotImage a.slot) 16 4)
    ((s.finish a.seq stSuccess 0).flow).orderlyStep
  else ((s.finish a.seq stInvalidField 8).flow).orderlyStep

/-- Step 1 ends when the shadow has left and is paired again; step 2, on the active, follows (R676, R677). -/
def State.activationStep (s : State) : State :=
  match s.sys.activation with
  | none => s
  | some a =>
    if !s.serves then s
    else if a.phase = 1 then
      if a.shadowAway ∧ s.shd.role = .active then
        if a.rollback then s.fwEnd a 2 else s.setActivation { a with phase := 2 }
      else s
    else if a.phase = 2 then
      (if a.shadowAway then s else s.putPointer a.slot 0).setActivation { a with phase := 3 }
    else s

/-- Queue pairs whose home cluster is `k` take a state (R97). -/
def State.stallCluster (s : State) (k : Nat) (from_ nxt : QpState) : State :=
  let qs := (s.qpe.qps.filter fun e => e.2.home / 12 == k && e.2.state == from_).map (·.1)
  qs.foldl (fun s q => s.updQp q fun x => { x with state := nxt }) s

/-- The instruction caches of cluster `k` are invalidated (R676). -/
def State.dropText (s : State) (k : Nat) : State :=
  { s with fct := { s.fct with
    engines := s.fct.engines.map fun e => (e.1, if e.1 / 12 = k then { e.2 with icache := [] } else e.2) } }

/-- What waited for the end of a stall goes on (R77, R91, R97): member commands that have ended, in order, then finished
commands, in the order they entered the CLS. -/
def State.unpark (s : State) : State :=
  let ps := s.str.parked
  let s := ps.foldl (fun s p => s.memEnd p.1 p.2.1 p.2.2) { s with str := { s.str with parked := [] } }
  (s.qpe.cmds.filter fun c => c.phase == .finished && c.ready.isNone).foldl (fun s c => s.postTry c.seq) s

/-- The stall of cluster `a.cluster`, which began at `from_` and lasts `us`, ends: it resumes under the new text, or, where
its resume check fails, under the old (R97, R676, R677). -/
def State.stallEnd (s : State) (a : Activation) (from_ us : Nat) (ok : Bool) : State :=
  let s := (s.advanceTo (from_ + us * usec)).setActivation { a with stalled := none }
  let a : Activation := { a with stalled := none }
  let s := ((s.stallCluster a.cluster .stalled .active).unpark).setField .sysFwact 15 0 (max us (s.field .sysFwact 15 0))
  let s := s.wakeCluster a.cluster
  let s := s.settle.flow
  if ok then
    if a.cluster = 3 then s.fwEnd a 1
    else s.setActivation { a with cluster := a.cluster + 1, resumed := some s.now }
  else
    let s := (List.range (a.cluster + 1)).foldl State.dropText s
    let s := s.putPointer a.old 0
    if s.shd.role = .active then
      (s.sendBulk (.pointer a.old 0) [] none).setActivation { a with phase := 1, cluster := 0, shadowAway := false, rollback := true }
    else s.fwEnd a 2

/-- CLUSTER_SWITCH (R97, R676, R677): the next cluster begins to stall, for `us` microseconds; where a cluster stalls
already, time passes until its stall ends (log entry 89). -/
def State.clusterSwitch (s : State) (ok : Bool) (us : Nat) : State :=
  match s.sys.activation with
  | some a =>
    match a.stalled with
    | some (t, n, y) => s.stallEnd a t n y
    | none =>
      if a.phase ≠ 3 ∨ 400 < us ∨ !s.serves then s
      else
        let s := match a.resumed with | some t => s.advanceTo (t + msec) | none => s
        ((s.stallCluster a.cluster .active .stalled).dropText a.cluster).setActivation
          { a with stalled := some (s.now, us, ok) }
  | none => s

def execClusterSwitch (ok : Bool) (stallUs : Nat) (s : State) : Outcome := .next (s.clusterSwitch ok stallUs)

/-- A stall whose time is over ends (R676). -/
def State.stallStep (s : State) : State :=
  match s.sys.activation with
  | some a =>
    match a.stalled with
    | some (t, n, y) => if t + n * usec ≤ s.now then s.stallEnd a t n y else s
    | none => s
  | none => s

/-- One cycle passes with no command waiting (log entry 1); what waits for state alone goes on. -/
def State.tick (s : State) : State := (((s.advance 1).wireNext.stallStep).activationStep).orderlyStep

end Sys2Proof.Machine
end

