-- ==== Sys2Proof/Machine/Dispatch.lean ====
section
/-! DEFINITION. The effect of each command: one arm per constructor. -/

namespace Sys2Proof.Machine

def exec (i : Instr) (s : State) : Host.Outcome State Fault Refusal :=
  match i with
  | .islandReqWrite req isl v => Sys2Proof.Machine.execIslandReqWrite req isl v s
  | .islandDrainEnd isl => Sys2Proof.Machine.execIslandDrainEnd isl s
  | .islandDrainTimeout isl => Sys2Proof.Machine.execIslandDrainTimeout isl s
  | .islandPowerUp isl => Sys2Proof.Machine.execIslandPowerUp isl s
  | .read qp cid => Sys2Proof.Machine.execRead qp cid s
  | .write qp cid => Sys2Proof.Machine.execWrite qp cid s
  | .flush qp cid => Sys2Proof.Machine.execFlush qp cid s
  | .writeZeroes qp cid => Sys2Proof.Machine.execWriteZeroes qp cid s
  | .trim qp cid => Sys2Proof.Machine.execTrim qp cid s
  | .abort qp cid => Sys2Proof.Machine.execAbort qp cid s
  | .entryFetch qp => Sys2Proof.Machine.execEntryFetch qp s
  | .entryFetchDone qp => Sys2Proof.Machine.execEntryFetchDone qp s
  | .createQp qp cid => Sys2Proof.Machine.execCreateQp qp cid s
  | .deleteQp qp cid => Sys2Proof.Machine.execDeleteQp qp cid s
  | .resetQp qp cid => Sys2Proof.Machine.execResetQp qp cid s
  | .qpeInspSel v => Sys2Proof.Machine.execQpeInspSel v s
  | .dispatch cluster => Sys2Proof.Machine.execDispatch cluster s
  | .driveIssue slot => Sys2Proof.Machine.execDriveIssue slot s
  | .egressServe point => Sys2Proof.Machine.execEgressServe point s
  | .setShaper qp cid => Sys2Proof.Machine.execSetShaper qp cid s
  | .shaperCommit v => Sys2Proof.Machine.execShaperCommit v s
  | .clsShpSel v => Sys2Proof.Machine.execClsShpSel v s
  | .tenantPolicyPeriod att => Sys2Proof.Machine.execTenantPolicyPeriod att s
  | .stripeOpen qp cid => Sys2Proof.Machine.execStripeOpen qp cid s
  | .memberCompletion slot mid status data => Sys2Proof.Machine.execMemberCompletion slot mid status data s
  | .stagingReserve qp cid => Sys2Proof.Machine.execStagingReserve qp cid s
  | .windowRegionIdle group region => Sys2Proof.Machine.execWindowRegionIdle group region s
  | .createGroup qp cid => Sys2Proof.Machine.execCreateGroup qp cid s
  | .deleteGroup qp cid => Sys2Proof.Machine.execDeleteGroup qp cid s
  | .createVolume qp cid => Sys2Proof.Machine.execCreateVolume qp cid s
  | .deleteVolume qp cid => Sys2Proof.Machine.execDeleteVolume qp cid s
  | .identifyVolume qp cid => Sys2Proof.Machine.execIdentifyVolume qp cid s
  | .identifyGroup qp cid => Sys2Proof.Machine.execIdentifyGroup qp cid s
  | .strRowSel v => Sys2Proof.Machine.execStrRowSel v s
  | .zeroingStripe group => Sys2Proof.Machine.execZeroingStripe group s
  | .memberCommandTimeout slot mid => Sys2Proof.Machine.execMemberCommandTimeout slot mid s
  | .driveLinkDownTimeout slot => Sys2Proof.Machine.execDriveLinkDownTimeout slot s
  | .driveCriticalWarning slot => Sys2Proof.Machine.execDriveCriticalWarning slot s
  | .rebuildStripe slot => Sys2Proof.Machine.execRebuildStripe slot s
  | .refillPosition slot => Sys2Proof.Machine.execRefillPosition slot s
  | .relocationSweepPeriod group => Sys2Proof.Machine.execRelocationSweepPeriod group s
  | .resyncStripe group => Sys2Proof.Machine.execResyncStripe group s
  | .deltaResyncStripe slot => Sys2Proof.Machine.execDeltaResyncStripe slot s
  | .repairBlock => Sys2Proof.Machine.execRepairBlock s
  | .lanternStripe => Sys2Proof.Machine.execLanternStripe s
  | .driveReady slot id label reads => Sys2Proof.Machine.execDriveReady slot id label reads s
  | .assemblyDeadline reads => Sys2Proof.Machine.execAssemblyDeadline reads s
  | .memberControl qp cid => Sys2Proof.Machine.execMemberControl qp cid s
  | .listBlocks qp cid => Sys2Proof.Machine.execListBlocks qp cid s
  | .frameReceive mac sub frame => Sys2Proof.Machine.execFrameReceive mac sub frame s
  | .pfcFrameReceive mac vec quanta => Sys2Proof.Machine.execPfcFrameReceive mac vec quanta s
  | .pfcPauseExpire mac pri => Sys2Proof.Machine.execPfcPauseExpire mac pri s
  | .pfcXoffRepeat mac pri => Sys2Proof.Machine.execPfcXoffRepeat mac pri s
  | .pfcWatchdogTrip mac pri => Sys2Proof.Machine.execPfcWatchdogTrip mac pri s
  | .pfcWatchdogClear mac pri => Sys2Proof.Machine.execPfcWatchdogClear mac pri s
  | .networkLinkChange mac sub up => Sys2Proof.Machine.execNetworkLinkChange mac sub up s
  | .setAddress qp cid => Sys2Proof.Machine.execSetAddress qp cid s
  | .roceAllow qp cid => Sys2Proof.Machine.execRoceAllow qp cid s
  | .cmReq req => Sys2Proof.Machine.execCmReq req s
  | .cmDreq conn => Sys2Proof.Machine.execCmDreq conn s
  | .fabricsConnect conn cid qid sqsize kato nqn => Sys2Proof.Machine.execFabricsConnect conn cid qid sqsize kato nqn s
  | .propertyGet conn cid off => Sys2Proof.Machine.execPropertyGet conn cid off s
  | .propertySet conn cid off v => Sys2Proof.Machine.execPropertySet conn cid off v s
  | .nvmeofIdentify conn cid cns nsid => Sys2Proof.Machine.execNvmeofIdentify conn cid cns nsid s
  | .getFeatures conn cid fid => Sys2Proof.Machine.execGetFeatures conn cid fid s
  | .setFeatures conn cid fid v => Sys2Proof.Machine.execSetFeatures conn cid fid v s
  | .keepAlive conn cid => Sys2Proof.Machine.execKeepAlive conn cid s
  | .nvmeofAbort conn cid sqid target => Sys2Proof.Machine.execNvmeofAbort conn cid sqid target s
  | .keepAliveTimeout conn => Sys2Proof.Machine.execKeepAliveTimeout conn s
  | .roceCommandCapsule conn psn capsule extra => Sys2Proof.Machine.execRoceCommandCapsule conn psn capsule extra s
  | .dsmRangeArrive conn cid range => Sys2Proof.Machine.execDsmRangeArrive conn cid range s
  | .roceRemoteAccess conn psn => Sys2Proof.Machine.execRoceRemoteAccess conn psn s
  | .roceAckReceive conn kind psn => Sys2Proof.Machine.execRoceAckReceive conn kind psn s
  | .roceReadResponse conn psn dscp bytes => Sys2Proof.Machine.execRoceReadResponse conn psn dscp bytes s
  | .roceAckTimeout conn => Sys2Proof.Machine.execRoceAckTimeout conn s
  | .doorbell h => Sys2Proof.Machine.execDoorbell h s
  | .doorbellInline h entry => Sys2Proof.Machine.execDoorbellInline h entry s
  | .fetchResp h slots => Sys2Proof.Machine.execFetchResp h slots s
  | .data h bytes => Sys2Proof.Machine.execData h bytes s
  | .credit h => Sys2Proof.Machine.execCredit h s
  | .keepalive h => Sys2Proof.Machine.execKeepalive h s
  | .odtRetransmit conn => Sys2Proof.Machine.execOdtRetransmit conn s
  | .odtFetchRetry conn => Sys2Proof.Machine.execOdtFetchRetry conn s
  | .odtKeepaliveSend conn => Sys2Proof.Machine.execOdtKeepaliveSend conn s
  | .odtHostSilence conn => Sys2Proof.Machine.execOdtHostSilence conn s
  | .odtResumeExpire conn => Sys2Proof.Machine.execOdtResumeExpire conn s
  | .odtOpeningExpire conn => Sys2Proof.Machine.execOdtOpeningExpire conn s
  | .odtConnect qp cid => Sys2Proof.Machine.execOdtConnect qp cid s
  | .odtClose qp cid => Sys2Proof.Machine.execOdtClose qp cid s
  | .netOdtSel v => Sys2Proof.Machine.execNetOdtSel v s
  | .sqTailDb func qp v => Sys2Proof.Machine.execSqTailDb func qp v s
  | .cqHeadDb func qp v => Sys2Proof.Machine.execCqHeadDb func qp v s
  | .inlEntry func qp entry => Sys2Proof.Machine.execInlEntry func qp entry s
  | .unsupportedRequest kind => Sys2Proof.Machine.execUnsupportedRequest kind s
  | .peerWindowTlp off reqId write len bytes => Sys2Proof.Machine.execPeerWindowTlp off reqId write len bytes s
  | .busMasterDisable func mse => Sys2Proof.Machine.execBusMasterDisable func mse s
  | .d3hotEntry func => Sys2Proof.Machine.execD3hotEntry func s
  | .functionLevelReset func => Sys2Proof.Machine.execFunctionLevelReset func s
  | .vfDisable numVfs => Sys2Proof.Machine.execVfDisable numVfs s
  | .dmaCompletionTlp tag bytes => Sys2Proof.Machine.execDmaCompletionTlp tag bytes s
  | .completionTimeout tag => Sys2Proof.Machine.execCompletionTimeout tag s
  | .tagRelease func => Sys2Proof.Machine.execTagRelease func s
  | .msixUnmask func what => Sys2Proof.Machine.execMsixUnmask func what s
  | .c0PoolReserve qp cid => Sys2Proof.Machine.execC0PoolReserve qp cid s
  | .accBusArbitration cluster => Sys2Proof.Machine.execAccBusArbitration cluster s
  | .prismEnable v => Sys2Proof.Machine.execPrismEnable v s
  | .xbrPartSel v => Sys2Proof.Machine.execXbrPartSel v s
  | .loadKek qp cid => Sys2Proof.Machine.execLoadKek qp cid s
  | .loadKey qp cid => Sys2Proof.Machine.execLoadKey qp cid s
  | .rekeyWalkStripe vol => Sys2Proof.Machine.execRekeyWalkStripe vol s
  | .cphKeySel v => Sys2Proof.Machine.execCphKeySel v s
  | .alu e t g rd ra rb fn => Sys2Proof.Machine.execAlu e t g rd ra rb fn s
  | .addi e t g rd ra imm => Sys2Proof.Machine.execAddi e t g rd ra imm s
  | .andi e t g rd ra imm => Sys2Proof.Machine.execAndi e t g rd ra imm s
  | .ori e t g rd ra imm => Sys2Proof.Machine.execOri e t g rd ra imm s
  | .xori e t g rd ra imm => Sys2Proof.Machine.execXori e t g rd ra imm s
  | .shi e t g rd ra imm => Sys2Proof.Machine.execShi e t g rd ra imm s
  | .seti e t g rd imm => Sys2Proof.Machine.execSeti e t g rd imm s
  | .setiu e t g rd imm => Sys2Proof.Machine.execSetiu e t g rd imm s
  | .shin e t g rd imm => Sys2Proof.Machine.execShin e t g rd imm s
  | .lb e t g rd ra imm => Sys2Proof.Machine.execLb e t g rd ra imm s
  | .lbu e t g rd ra imm => Sys2Proof.Machine.execLbu e t g rd ra imm s
  | .lh e t g rd ra imm => Sys2Proof.Machine.execLh e t g rd ra imm s
  | .lhu e t g rd ra imm => Sys2Proof.Machine.execLhu e t g rd ra imm s
  | .lw e t g rd ra imm => Sys2Proof.Machine.execLw e t g rd ra imm s
  | .lwu e t g rd ra imm => Sys2Proof.Machine.execLwu e t g rd ra imm s
  | .ld e t g rd ra imm => Sys2Proof.Machine.execLd e t g rd ra imm s
  | .sb e t g rd ra imm => Sys2Proof.Machine.execSb e t g rd ra imm s
  | .sh e t g rd ra imm => Sys2Proof.Machine.execSh e t g rd ra imm s
  | .sw e t g rd ra imm => Sys2Proof.Machine.execSw e t g rd ra imm s
  | .sd e t g rd ra imm => Sys2Proof.Machine.execSd e t g rd ra imm s
  | .atom e t g rd ra rb fn => Sys2Proof.Machine.execAtom e t g rd ra rb fn s
  | .b e t g off => Sys2Proof.Machine.execB e t g off s
  | .bl e t g off => Sys2Proof.Machine.execBl e t g off s
  | .br e t g ra => Sys2Proof.Machine.execBr e t g ra s
  | .blr e t g rd ra => Sys2Proof.Machine.execBlr e t g rd ra s
  | .cmp e t g pd ra rb fn => Sys2Proof.Machine.execCmp e t g pd ra rb fn s
  | .cmpi e t g pd cc ra imm => Sys2Proof.Machine.execCmpi e t g pd cc ra imm s
  | .plog e t g pd pa pb fn => Sys2Proof.Machine.execPlog e t g pd pa pb fn s
  | .qpop e t g pd ra rb own pre => Sys2Proof.Machine.execQpop e t g pd ra rb own pre s
  | .qpush e t g pd ra rb pre => Sys2Proof.Machine.execQpush e t g pd ra rb pre s
  | .qhook e t g pd ra rb ret pre => Sys2Proof.Machine.execQhook e t g pd ra rb ret pre s
  | .dmad e t g pd ra pre => Sys2Proof.Machine.execDmad e t g pd ra pre s
  | .acc e t g pd ra pre => Sys2Proof.Machine.execAcc e t g pd ra pre s
  | .wait e t g rd rb => Sys2Proof.Machine.execWait e t g rd rb s
  | .yield e t g => Sys2Proof.Machine.execYield e t g s
  | .getc e t g rd csr => Sys2Proof.Machine.execGetc e t g rd csr s
  | .putc e t g csr ra => Sys2Proof.Machine.execPutc e t g csr ra s
  | .swpc e t g rd csr ra => Sys2Proof.Machine.execSwpc e t g rd csr ra s
  | .bitc e t g rd csr n v => Sys2Proof.Machine.execBitc e t g rd csr n v s
  | .trap e t g code => Sys2Proof.Machine.execTrap e t g code s
  | .eret e t g => Sys2Proof.Machine.execEret e t g s
  | .fence e t g ra rb form pre => Sys2Proof.Machine.execFence e t g ra rb form pre s
  | .illegalWord e t w => Sys2Proof.Machine.execIllegalWord e t w s
  | .descriptorEnd id => Sys2Proof.Machine.execDescriptorEnd id s
  | .dmaFaultTrap e t => Sys2Proof.Machine.execDmaFaultTrap e t s
  | .accResult e t => Sys2Proof.Machine.execAccResult e t s
  | .timerEvent e t => Sys2Proof.Machine.execTimerEvent e t s
  | .setSigner qp cid => Sys2Proof.Machine.execSetSigner qp cid s
  | .loadExt qp cid => Sys2Proof.Machine.execLoadExt qp cid s
  | .attachHook qp cid => Sys2Proof.Machine.execAttachHook qp cid s
  | .detachHook qp cid => Sys2Proof.Machine.execDetachHook qp cid s
  | .unloadExt qp cid => Sys2Proof.Machine.execUnloadExt qp cid s
  | .fctThrSel v => Sys2Proof.Machine.execFctThrSel v s
  | .pmcSampleEnable v => Sys2Proof.Machine.execPmcSampleEnable v s
  | .mmuInvalidate v => Sys2Proof.Machine.execMmuInvalidate v s
  | .regKey qp cid => Sys2Proof.Machine.execRegKey qp cid s
  | .deregKey qp cid => Sys2Proof.Machine.execDeregKey qp cid s
  | .hello serial role last drive net crcOk => Sys2Proof.Machine.execHello serial role last drive net crcOk s
  | .renew n crcOk => Sys2Proof.Machine.execRenew n crcOk s
  | .renewAck n drive net crcOk => Sys2Proof.Machine.execRenewAck n drive net crcOk s
  | .lines copy entries crcOk => Sys2Proof.Machine.execLines copy entries crcOk s
  | .commit copy count crc image crcOk => Sys2Proof.Machine.execCommit copy count crc image crcOk s
  | .copyAck copy resend flash crcOk => Sys2Proof.Machine.execCopyAck copy resend flash crcOk s
  | .log records crcOk => Sys2Proof.Machine.execLog records crcOk s
  | .logAck num crcOk => Sys2Proof.Machine.execLogAck num crcOk s
  | .release copy crcOk => Sys2Proof.Machine.execRelease copy crcOk s
  | .leave crcOk => Sys2Proof.Machine.execLeave crcOk s
  | .bulk kind off bytes last crcOk => Sys2Proof.Machine.execBulk kind off bytes last crcOk s
  | .bulkAck kind off crcOk => Sys2Proof.Machine.execBulkAck kind off crcOk s
  | .arbiterPreemptDone ok => Sys2Proof.Machine.execArbiterPreemptDone ok s
  | .reservationAcquireTimeout slot => Sys2Proof.Machine.execReservationAcquireTimeout slot s
  | .glimmerSleep core => Sys2Proof.Machine.execGlimmerSleep core s
  | .presenceEdge slot => Sys2Proof.Machine.execPresenceEdge slot s
  | .presenceLost slot => Sys2Proof.Machine.execPresenceLost slot s
  | .fastTrip slot => Sys2Proof.Machine.execFastTrip slot s
  | .faultTimerExpire slot => Sys2Proof.Machine.execFaultTimerExpire slot s
  | .rampTimeout slot => Sys2Proof.Machine.execRampTimeout slot s
  | .rampComplete slot => Sys2Proof.Machine.execRampComplete slot s
  | .powerGoodLost slot => Sys2Proof.Machine.execPowerGoodLost slot s
  | .railGroupGood group => Sys2Proof.Machine.execRailGroupGood group s
  | .railGroupNotGood group => Sys2Proof.Machine.execRailGroupNotGood group s
  | .insertDelayExpire slot => Sys2Proof.Machine.execInsertDelayExpire slot s
  | .rampStart slot => Sys2Proof.Machine.execRampStart slot s
  | .retryExpire slot => Sys2Proof.Machine.execRetryExpire slot s
  | .peerHoldDetect slot => Sys2Proof.Machine.execPeerHoldDetect slot s
  | .shutdownComplete slot done => Sys2Proof.Machine.execShutdownComplete slot done s
  | .rootPortTrainStart slot => Sys2Proof.Machine.execRootPortTrainStart slot s
  | .slotControl qp cid => Sys2Proof.Machine.execSlotControl qp cid s
  | .spmSlotCycle slot => Sys2Proof.Machine.execSpmSlotCycle slot s
  | .spmSlotRelease slot => Sys2Proof.Machine.execSpmSlotRelease slot s
  | .registerWrite req off v => Sys2Proof.Machine.execRegisterWrite req off v s
  | .rcRead req off aliasBit => Sys2Proof.Machine.execRcRead req off aliasBit s
  | .aliasWrite req off bit v => Sys2Proof.Machine.execAliasWrite req off bit v s
  | .postedWriteApply req isl => Sys2Proof.Machine.execPostedWriteApply req isl s
  | .sysWsync req => Sys2Proof.Machine.execSysWsync req s
  | .busErrorTimeout req => Sys2Proof.Machine.execBusErrorTimeout req s
  | .sysMode req v => Sys2Proof.Machine.execSysMode req v s
  | .sysSnap v => Sys2Proof.Machine.execSysSnap v s
  | .icuClaim req k => Sys2Proof.Machine.execIcuClaim req k s
  | .icuEoi k n => Sys2Proof.Machine.execIcuEoi k n s
  | .icuMaskSet w v => Sys2Proof.Machine.execIcuMaskSet w v s
  | .icuMaskClr w v => Sys2Proof.Machine.execIcuMaskClr w v s
  | .icuPendSet w v => Sys2Proof.Machine.execIcuPendSet w v s
  | .icuPendClr w v => Sys2Proof.Machine.execIcuPendClr w v s
  | .sysRstWarm req v => Sys2Proof.Machine.execSysRstWarm req v s
  | .sysRstOrderly req v => Sys2Proof.Machine.execSysRstOrderly req v s
  | .resetController qp cid => Sys2Proof.Machine.execResetController qp cid s
  | .fwDownload qp cid => Sys2Proof.Machine.execFwDownload qp cid s
  | .fwActivate qp cid => Sys2Proof.Machine.execFwActivate qp cid s
  | .clusterSwitch ok stallUs => Sys2Proof.Machine.execClusterSwitch ok stallUs s
  | .uartAdminLine chars => Sys2Proof.Machine.execUartAdminLine chars s
  | .configRecordWritten ok => Sys2Proof.Machine.execConfigRecordWritten ok s
  | .sysErrFatal req v => Sys2Proof.Machine.execSysErrFatal req v s
  | .watchdogPet req v => Sys2Proof.Machine.execWatchdogPet req v s
  | .temperatureReading sensor quarters => Sys2Proof.Machine.execTemperatureReading sensor quarters s
  | .pllUnlock pll => Sys2Proof.Machine.execPllUnlock pll s
  | .smbusTimeout controller => Sys2Proof.Machine.execSmbusTimeout controller s
  | .handshakeTimeout isl => Sys2Proof.Machine.execHandshakeTimeout isl s
  | .memoryError site => Sys2Proof.Machine.execMemoryError site s
  | .getFatal qp cid => Sys2Proof.Machine.execGetFatal qp cid s
  | .supplyOutOfWindow rail => Sys2Proof.Machine.execSupplyOutOfWindow rail s
  | .supplyBelowResetLevel rail => Sys2Proof.Machine.execSupplyBelowResetLevel rail s
  | .cmRtu conn => Sys2Proof.Machine.execCmRtu conn s
  | .roceRnrTimerExpire conn => Sys2Proof.Machine.execRoceRnrTimerExpire conn s
  | .vfEnable numVfs => Sys2Proof.Machine.execVfEnable numVfs s
  | .endpointLinkUp speed width flit => Sys2Proof.Machine.execEndpointLinkUp speed width flit s
  | .masterLostRead func => Sys2Proof.Machine.execMasterLostRead func s
  | .mirrorLinkHalfChange half up => Sys2Proof.Machine.execMirrorLinkHalfChange half up s
  | .driveLinkChange slot up => Sys2Proof.Machine.execDriveLinkChange slot up s
  | .presenceBounce slot => Sys2Proof.Machine.execPresenceBounce slot s
  | .pgoodDeassert slot => Sys2Proof.Machine.execPgoodDeassert slot s
  | .converterSample conv chan code => Sys2Proof.Machine.execConverterSample conv chan code s
  | .supplyReturnToWindow rail => Sys2Proof.Machine.execSupplyReturnToWindow rail s
  | .faultHistoryExpire slot => Sys2Proof.Machine.execFaultHistoryExpire slot s
  | .policerRefill => Sys2Proof.Machine.execPolicerRefill s
  | .sliceAssign => Sys2Proof.Machine.execSliceAssign s
  | .lntRestart => Sys2Proof.Machine.execLntRestart s
  | .rebuildPacingRefill => Sys2Proof.Machine.execRebuildPacingRefill s
  | .addressAnnounce => Sys2Proof.Machine.execAddressAnnounce s
  | .epfWinCommit => Sys2Proof.Machine.execEpfWinCommit s
  | .endpointLinkLoss => Sys2Proof.Machine.execEndpointLinkLoss s
  | .epPerstAssert => Sys2Proof.Machine.execEpPerstAssert s
  | .crossbarSlot => Sys2Proof.Machine.execCrossbarSlot s
  | .invalidationComplete => Sys2Proof.Machine.execInvalidationComplete s
  | .helloSend => Sys2Proof.Machine.execHelloSend s
  | .pairingTimeout => Sys2Proof.Machine.execPairingTimeout s
  | .epochEnd => Sys2Proof.Machine.execEpochEnd s
  | .logResend => Sys2Proof.Machine.execLogResend s
  | .activeLeaseExpire => Sys2Proof.Machine.execActiveLeaseExpire s
  | .shadowLeaseExpire => Sys2Proof.Machine.execShadowLeaseExpire s
  | .tieBreakWait => Sys2Proof.Machine.execTieBreakWait s
  | .shdCtlRelease => Sys2Proof.Machine.execShdCtlRelease s
  | .shdCtlLeave => Sys2Proof.Machine.execShdCtlLeave s
  | .mirrorLinkLoss => Sys2Proof.Machine.execMirrorLinkLoss s
  | .glimmerSleepEnter => Sys2Proof.Machine.execGlimmerSleepEnter s
  | .glimmerTimer => Sys2Proof.Machine.execGlimmerTimer s
  | .snapshotCapture => Sys2Proof.Machine.execSnapshotCapture s
  | .ppsEdge => Sys2Proof.Machine.execPpsEdge s
  | .ppsWindowClose => Sys2Proof.Machine.execPpsWindowClose s
  | .rateSecond => Sys2Proof.Machine.execRateSecond s
  | .ppsDisable => Sys2Proof.Machine.execPpsDisable s
  | .porstN => Sys2Proof.Machine.execPorstN s
  | .warmRstN => Sys2Proof.Machine.execWarmRstN s
  | .uartLineTimeout => Sys2Proof.Machine.execUartLineTimeout s
  | .watchdogExpire => Sys2Proof.Machine.execWatchdogExpire s
  | .refClockLoss => Sys2Proof.Machine.execRefClockLoss s
  | .aonClockLoss => Sys2Proof.Machine.execAonClockLoss s
  | .fatalImageComplete => Sys2Proof.Machine.execFatalImageComplete s
  | .fatalResetTimer => Sys2Proof.Machine.execFatalResetTimer s
  | .fatalWatchdogReset => Sys2Proof.Machine.execFatalWatchdogReset s
  | .epPerstDeassert => Sys2Proof.Machine.execEpPerstDeassert s
  | .jtagReset => Sys2Proof.Machine.execJtagReset s
  | .jtagFatalRequest => Sys2Proof.Machine.execJtagFatalRequest s
  | .housekeepingEdge => Sys2Proof.Machine.execHousekeepingEdge s

end Sys2Proof.Machine
end

