-- ==== Sys2Proof/Safety.lean ====
section
/-! DEFINITION. What counts as a safe state and a safe run of the block, in the terms the claims use. -/

namespace Sys2Proof.Machine

/-- An island as R27 and R31 to R36 allow it: it reads FUSED exactly when the variant lacks it, its REQ is one of the three
states software can ask for, and a transition is never in progress on, or towards, a FUSED island. -/
def Island.okFor (fused : Bool) (x : Island) : Prop :=
  (x.state = .fused ↔ fused = true) ∧ x.req ≠ .fused ∧ ∀ b, x.busy = some b → x.state ≠ .fused ∧ b.target ≠ .fused

/-- The invariant of every step on a part of variant `v`: the part stays that variant, memory is in its canonical form, and
each of the 168 islands is as the variant allows. -/
def State.invAt (s : State) (v : Variant) : Prop :=
  s.variant = v ∧ s.mem.wf = true ∧ s.isl.length = 168 ∧ ∀ i, i < 168 → (s.island i).okFor (Config.fused v i)

/-- The invariant at the state's own variant. -/
def State.inv (s : State) : Prop := s.invAt s.variant

/-- What a later state keeps of an earlier one: the variant, what was sent, the time, the free values drawn so far and the
commands that wait. -/
structure Past where
  variant : Variant
  out : List Out
  now : Nat
  draws : Nat
  pending : List Instr

def State.past (s : State) : Past :=
  { variant := s.variant, out := s.out, now := s.now, draws := s.draws, pending := s.pending }

/-- The state has the invariant and comes after `p`: what was sent stays sent, time and the count of free values do not go
back, and the queue is as it was. -/
def State.since (s : State) (p : Past) : Prop :=
  s.invAt p.variant ∧ p.out <:+ s.out ∧ p.now ≤ s.now ∧ p.draws ≤ s.draws ∧ s.pending = p.pending

/-- The parts of the state that the end of a command, and what follows from it, never touch. -/
structure Still where
  variant : Variant
  now : Nat
  fab : Fabric
  gnm : Gnomon
  spm : Spm
  pending : List Instr
  netLink : Tbl Bool
  netPfc : Tbl Pfc
  netMgmt : Tbl (Nat × Nat)
  netAddr : Tbl SubAddr
  netAnnounce : List Nat
  netAllow : Tbl RoceAllow
  netNextRoce : Nat
  strMembers : Tbl Member
  strDrives : Tbl Drive
  strWindow : List WinRegion
  strNextMem : Nat
  strUbl : List UblEntry
  strUblOver : List (Nat × Nat × Nat × Nat)
  strRepairs : List Repair
  strLanternLog : List LanternEntry
  strLantern : Nat × Nat × Nat
  strLanternAgain : List Nat
  strLanternNow : Option LanternTask
  strLanternFix : List (Nat × Nat)
  strParked : List (MemCmd × Option Bytes × Bool)
  strBitmaps : List (Nat × Nat × List Nat)
  strPaced : Tbl Nat
  strLntPaced : Tbl Nat
  epfPerst : Bool
  epfLinkUp : Bool
  epfSpeed : Nat
  epfWidth : Nat
  epfFlit : Bool
  epfNumVfs : Nat
  epfForce : Tbl Aperture
  xbrMaxes : Tbl Nat
  xbrGptr : Tbl Nat
  xbrAptr : Tbl Nat
  xbrMcFirst : Tbl Bool
  cphKeks : Tbl Bytes
  cphKekWrapped : Tbl Bytes
  cphSlots : Tbl KeySlot
  cphStores : List Bool
  cphStage : Option Nat
  cphLanes : Tbl Lane
  cphPaced : Tbl Nat
  cphPhase : Tbl Nat
  shdRole : Role
  shdFence : Bool
  shdStopped : Bool
  shdWasSolo : Bool
  shdPeer : Bool
  shdPeerSerial : Nat
  shdPeerRole : Role
  shdPeerLast : Bool
  shdHalfA : Bool
  shdHalfB : Bool
  shdPeerReach : Nat
  shdPeerNet : Nat
  shdDriveBad : Option Nat
  shdNetBad : Option Nat
  shdBeats : List Nat
  shdBeatSeen : List Nat
  shdPairStart : Option Nat
  shdHelloSent : Option Nat
  shdWon : Option Bool
  shdCopy0Acked : Bool
  shdRenewAcked : Bool
  shdEpoch : Nat
  shdLogging : Bool
  shdEpochAt : Nat
  shdRenews : List (Nat × Nat)
  shdLeaseFrom : Option Nat
  shdAckAt : Option Nat
  shdHeardAt : Option Nat
  shdCopySent : Nat
  shdCopyAcked : Nat
  shdFlashAcked : Nat
  shdCopy : Option Copy
  shdStaged : Option (Nat × List (Nat × Bytes))
  shdRegion : Option RepImage
  shdApplied : Option Nat
  shdFlashDue : List Nat
  shdLogStall : Bool
  shdReleasing : Option Releasing
  shdTie : Option Tie
  shdArbiter : Option Nat
  shdAcquiring : Tbl Nat
  shdRepost : List Repost
  shdBulk : List Bulk
  shdBulkIn : List (BulkKind × Bytes)
  fctDescs : Tbl Desc
  fctNextDesc : Nat
  fctInvals : List Invalidation
  fctAtts : Tbl Attachment
  fctImages : Tbl Bytes
  fctSigners : Tbl Bytes
  sysFlash : Flash
  sysSlots : Tbl Bytes
  sysPtr0 : Option BootPtr
  sysPtr1 : Option BootPtr
  sysRunning : Nat
  sysStarted : Bool
  sysFatal : Option FatalRun
  sysPetAt : Option Nat
  sysTemps : Tbl (List Int)
  sysTempValid : Tbl Bool
  sysUart : Option (Bytes × Nat)
  sysAdminWaits : Bool
  sysActivation : Option Activation
  sysOrderly : Option (Nat × OrderlyWait)
  sysServiceAt : Option Nat
  sysDeadlinePassed : Bool
  clsDflt : Shaper
  clsCaps : Tbl Nat
  clsDrive : Tbl Point
  clsRefilled : Nat
  qpeDoors : List Door
  icuMask : BitVec 4096
  icuActive : List (Option Nat)

/-- Those parts of a state. -/
@[reducible] def State.still (s : State) : Still :=
  { variant := s.variant, now := s.now, fab := s.fab, gnm := s.gnm, spm := s.spm, pending := s.pending,
    netLink := s.net.link, netPfc := s.net.pfc, netMgmt := s.net.mgmt, netAddr := s.net.addr,
    netAnnounce := s.net.announce, netAllow := s.net.allow, netNextRoce := s.net.nextRoce, strMembers := s.str.members,
    strDrives := s.str.drives, strWindow := s.str.window, strNextMem := s.str.nextMem, strUbl := s.str.ubl,
    strUblOver := s.str.ublOver, strRepairs := s.str.repairs, strLanternLog := s.str.lanternLog,
    strLantern := s.str.lantern, strLanternAgain := s.str.lanternAgain, strLanternNow := s.str.lanternNow,
    strLanternFix := s.str.lanternFix, strParked := s.str.parked, strBitmaps := s.str.bitmaps, strPaced := s.str.paced,
    strLntPaced := s.str.lntPaced, epfPerst := s.epf.perst, epfLinkUp := s.epf.linkUp, epfSpeed := s.epf.speed,
    epfWidth := s.epf.width, epfFlit := s.epf.flit, epfNumVfs := s.epf.numVfs, epfForce := s.epf.force,
    xbrMaxes := s.xbr.maxes, xbrGptr := s.xbr.gptr, xbrAptr := s.xbr.aptr, xbrMcFirst := s.xbr.mcFirst,
    cphKeks := s.cph.keks, cphKekWrapped := s.cph.kekWrapped, cphSlots := s.cph.slots, cphStores := s.cph.stores,
    cphStage := s.cph.stage, cphLanes := s.cph.lanes, cphPaced := s.cph.paced, cphPhase := s.cph.phase,
    shdRole := s.shd.role, shdFence := s.shd.fence, shdStopped := s.shd.stopped, shdWasSolo := s.shd.wasSolo,
    shdPeer := s.shd.peer, shdPeerSerial := s.shd.peerSerial, shdPeerRole := s.shd.peerRole,
    shdPeerLast := s.shd.peerLast, shdHalfA := s.shd.halfA, shdHalfB := s.shd.halfB, shdPeerReach := s.shd.peerReach,
    shdPeerNet := s.shd.peerNet, shdDriveBad := s.shd.driveBad, shdNetBad := s.shd.netBad, shdBeats := s.shd.beats,
    shdBeatSeen := s.shd.beatSeen, shdPairStart := s.shd.pairStart, shdHelloSent := s.shd.helloSent,
    shdWon := s.shd.won, shdCopy0Acked := s.shd.copy0Acked, shdRenewAcked := s.shd.renewAcked, shdEpoch := s.shd.epoch,
    shdLogging := s.shd.logging, shdEpochAt := s.shd.epochAt, shdRenews := s.shd.renews,
    shdLeaseFrom := s.shd.leaseFrom, shdAckAt := s.shd.ackAt, shdHeardAt := s.shd.heardAt,
    shdCopySent := s.shd.copySent, shdCopyAcked := s.shd.copyAcked, shdFlashAcked := s.shd.flashAcked,
    shdCopy := s.shd.copy, shdStaged := s.shd.staged, shdRegion := s.shd.region, shdApplied := s.shd.applied,
    shdFlashDue := s.shd.flashDue, shdLogStall := s.shd.logStall, shdReleasing := s.shd.releasing, shdTie := s.shd.tie,
    shdArbiter := s.shd.arbiter, shdAcquiring := s.shd.acquiring, shdRepost := s.shd.repost, shdBulk := s.shd.bulk,
    shdBulkIn := s.shd.bulkIn, fctDescs := s.fct.descs, fctNextDesc := s.fct.nextDesc, fctInvals := s.fct.invals,
    fctAtts := s.fct.atts, fctImages := s.fct.images, fctSigners := s.fct.signers, sysFlash := s.sys.flash,
    sysSlots := s.sys.slots, sysPtr0 := s.sys.ptr0, sysPtr1 := s.sys.ptr1, sysRunning := s.sys.running,
    sysStarted := s.sys.started, sysFatal := s.sys.fatal, sysPetAt := s.sys.petAt, sysTemps := s.sys.temps,
    sysTempValid := s.sys.tempValid, sysUart := s.sys.uart, sysAdminWaits := s.sys.adminWaits,
    sysActivation := s.sys.activation, sysOrderly := s.sys.orderly, sysServiceAt := s.sys.serviceAt,
    sysDeadlinePassed := s.sys.deadlinePassed, clsDflt := s.cls.dflt, clsCaps := s.cls.caps, clsDrive := s.cls.drive,
    clsRefilled := s.cls.refilled, qpeDoors := s.qpe.doors, icuMask := s.icu.mask, icuActive := s.icu.active }

/-- Command `c`, which queue pair `q` carries under CID `cid` with admin opcode `op`, can take effect now: it waits for nothing
yet, its own checks hold, and it needs no absent unit (R720). -/
abbrev State.adminCan (s : State) (q cid op : Nat) (c : Cmd) : Prop :=
  s.carried q cid op = some c ∧ c.waiting = false ∧ lowest (s.ownOf q c.entry).fails = none
    ∧ (s.ownOf q c.entry).absent = false

/-- The `LEN` bytes of command `c`'s buffer have been pulled and have arrived: they are `b`. -/
abbrev State.bufferIn (s : State) (c : Cmd) (b : Bytes) : Prop :=
  s.cmd c.seq = some c ∧ c.pull.any (fun n => decide (eLen c.entry ≤ n)) = true ∧ eLen c.entry ≤ c.data.length
    ∧ c.data.take (eLen c.entry) = b

/-- The admin commands with their opcodes (R60). -/
def adminRows (q cid : Nat) : List (Nat × Instr) :=
  [(0x40, .resetController q cid), (0x41, .createQp q cid), (0x42, .deleteQp q cid), (0x43, .resetQp q cid),
   (0x44, .regKey q cid), (0x45, .deregKey q cid), (0x46, .fwDownload q cid), (0x47, .fwActivate q cid),
   (0x48, .createGroup q cid), (0x49, .deleteGroup q cid), (0x4A, .createVolume q cid), (0x4B, .deleteVolume q cid),
   (0x4C, .identifyVolume q cid), (0x4D, .identifyGroup q cid), (0x4E, .memberControl q cid), (0x4F, .listBlocks q cid),
   (0x50, .setShaper q cid), (0x51, .odtConnect q cid), (0x52, .odtClose q cid), (0x53, .roceAllow q cid),
   (0x54, .setAddress q cid), (0x56, .slotControl q cid), (0x58, .loadKek q cid), (0x59, .loadKey q cid),
   (0x5B, .setSigner q cid), (0x5C, .loadExt q cid), (0x5D, .attachHook q cid), (0x5E, .detachHook q cid),
   (0x5F, .unloadExt q cid), (0x60, .getFatal q cid)]

/-- A state that no drive TLP, network frame or endpoint request leaves (R560, R688): fenced or stopped. -/
def State.silent (s : State) : Prop := s.shd.fence = true ∨ s.shd.stopped = true

/-- The machine has come to a state by a step. -/
def steps (s s' : State) : Prop := step s = .next s'

/-- Thread `t` of engine `e` issues the word at its PC, and `f` is the state in which the word has been fetched and its guard
is tested (R423, R424, R427). -/
def State.fetched (s : State) (e t : Nat) (f : State) : Prop :=
  s.engineRuns e = true ∧ t < 16 ∧ (s.thr e t).state = .ready ∧ s.issueThread e = some t ∧ (s.thr e t).faults = []
    ∧ ∃ u pa, (s.issued e t).access e t .fetch false (s.thr e t).pc.toNat = (u, .ok pa) ∧ f = u.fetchLine e t pa

/-- The word issued so is carried out in `f`: its guard `g` holds, and the invocation's budget is not spent (R445, R466). -/
def State.issues (s : State) (e t : Nat) (g : Guard) (f : State) : Prop :=
  s.fetched e t f ∧ (f.thr e t).guardOn g = true ∧ f.budgetSpent e t = false

end Sys2Proof.Machine
end

