-- ==== Sys2Proof/Certificates/Slice0/Obligations.lean ====
section
/-! DEFINITION. The statements about the block, each with the rules of spec/ it rests on in its docstring or title. -/

section

open Sys2Proof Sys2Proof.Machine

/-- The invariant of the block, over every command and the passing of a cycle; the queue loses its front command and nothing
else; `out`, `now` and `draws` are the model's own fields (log entries 1, 4, 28). -/
def Obligations.EveryStepKeepsTheInvariant : Prop :=
  ∀ s t : State, s.inv → step s = .next t →
    t.inv ∧ t.variant = s.variant ∧ t.pending = s.pending.tail ∧ s.out <:+ t.out ∧ s.now ≤ t.now ∧ s.draws ≤ t.draws

/-- R33 to R36: what a write of REQ starts, and which writes are ignored. The island's state does not change yet. -/
def Obligations.IslandRequestStartsOnlyWhatBasaltMayAsk : Prop :=
  ∀ (s : State) (n : Nat) (v : Word), s.glm.asleep = false →
    (∀ (k : Nat) (nxt : IslState), n < 168 → IslState.ofReq (v.toNat % 4) = some nxt → s.reqRefused n nxt = false →
      (s.island n).busy = none → nxt ≠ (s.island n).state → ¬((s.island n).state = .off ∧ nxt = .retain) →
      s.isl.length = 168 →
      ∃ u w : State, exec (.islandReqWrite (.basalt k) n v) s = .next
          ((w.setIsland n { s.island n with req := nxt, busy := some { target := nxt, since := w.now } }).trace 1 n)
        ∧ u = (if nxt = .on then s else s.portsOff n) ∧ u.isl = s.isl
        ∧ w = (if cellIslands.contains n ∧ (s.island n).state = .on then
            { u with xbr := { u.xbr with intake := some (u.xbr.intake.getD u.xbr.nextRun) } } else u))
    ∧ (∀ k, (32 ≤ k ∨ ∀ j, j < 4 → s.bit .netPort (12 + j) (k / 4) = true → (s.lanesOf (k / 4) j).contains k = false) →
        s.portsOff k = s)
    ∧ (∀ rq : Requester, ((∀ k, rq ≠ .basalt k) ∨ v.toNat % 4 = 3 ∨ (s.island n).state = .fused ∨ 168 ≤ n
        ∨ (165 ≤ n ∧ v.toNat % 4 ≠ 0)) → exec (.islandReqWrite rq n v) s = .next s)

/-- R35 to R37: the end of a transition. -/
def Obligations.IslandTransitionEndsAtItsTarget : Prop :=
  ∀ (s : State) (n : Nat) (b : Transition), s.glm.asleep = false → s.sys.fatal = none → n < 168 → s.isl.length = 168 →
    (s.island n).busy = some b →
    (b.target ≠ .on → s.inflight n = false →
      ∃ t, exec (.islandDrainEnd n) s = .next t ∧ (∀ m, m ≠ n → t.island m = s.island m)
        ∧ ((s.island n).req = b.target →
            t.island n = { s.island n with state := b.target, busy := none, trans := s.gnmNs })
        ∧ ((s.island n).req ≠ b.target → b.target = .retain →
            ∃ c, t.island n = { s.island n with state := b.target, busy := some c, trans := s.gnmNs }
              ∧ c.target = (s.island n).req))
    ∧ (s.inflight n = true → exec (.islandDrainEnd n) s = .next s)
    ∧ (b.target ≠ .on → s.inflight n = true → (s.island n).req = b.target →
      ∃ (t : State) (k : Nat), exec (.islandDrainTimeout n) s = .next t ∧ (∀ m, m ≠ n → t.island m = s.island m)
        ∧ t.island n = { s.island n with state := b.target, forced := true, busy := none, trans := k }
        ∧ (n < 96 → t.sys.fatal = none)
        ∧ (96 ≤ n → ∃ f, t.sys.fatal = some f ∧ f.cause = 2 ∧ f.site = n))
    ∧ (s.inflight n = false → exec (.islandDrainTimeout n) s = .next s)
    ∧ (b.target = .on → (s.island n).req = .on →
      ∃ u : State, exec (.islandPowerUp n) s = .next u.serveStalled ∧ (∀ m, m ≠ n → u.island m = s.island m)
        ∧ u.island n = { s.island n with state := .on, busy := none, trans := s.gnmNs }
        ∧ (u.fab.stalled = [] → u.serveStalled = u) ∧ (n ≠ 160 → u.fab = s.fab))

/-- R720, R721 at the moment of an admin command's effect (the second check is DEDUCED, log entry 22). -/
def Obligations.AdminCommandsCheckTheirOwnFieldsFirst : Prop :=
  ∀ (s : State) (q cid op : Nat) (i : Instr), (op, i) ∈ adminRows q cid →
    (s.carried q cid op = none → exec i s = .next s)
    ∧ ∀ c, s.carried q cid op = some c →
      (c.waiting = true → exec i s = .next s)
      ∧ (c.waiting = false →
        (∀ k, lowest (s.ownOf q c.entry).fails = some k →
          exec i s = .next ((s.finish c.seq stInvalidField k).flow))
        ∧ (lowest (s.ownOf q c.entry).fails = none → (s.ownOf q c.entry).absent = true →
          exec i s = .next ((s.finish c.seq stUnitAbsent 0).flow)))

/-- R81, R82, R78, R94, R95: the life of a queue pair. -/
def Obligations.QueuePairsAreCreatedDrainedAndFreed : Prop :=
  ∀ (s : State) (q cid : Nat) (c : Cmd),
    (s.adminCan q cid 0x41 c →
      ∃ (n : Nat) (u : State), exec (.createQp q cid) s = .next ((u.finish c.seq stSuccess n).flow)
        ∧ n = (if bitOf (leAt c.entry 56 4) 31 then s.pickQpn else leAt c.entry 56 4)
        ∧ u.qp n = {
            state := .active
            tenant := leAt c.entry 20 4 % 2 ^ 20
            face := match byteAt c.entry 10 with
              | 0 => .endpoint (leAt c.entry 12 4 % 64) (bitsOf (leAt c.entry 12 4) 26 16)
              | 1 => .odt (leAt c.entry 12 4 % 2 ^ 16)
              | _ => .roce (leAt c.entry 12 4 % 2 ^ 14) (leAt c.entry 12 4 / 2 ^ 16)
            home := if byteAt c.entry 8 = 0xFF then s.pickHome else byteAt c.entry 8
            mask := byteAt c.entry 9
            admin := bitOf (byteAt c.entry 11) 0
            sqSize := leAt c.entry 16 4
            cqSize := leAt c.entry 28 4
            sqMkey := leAt c.entry 24 4
            cqMkey := leAt c.entry 40 4
            sqAddr := leAt c.entry 32 8
            cqAddr := leAt c.entry 48 8 }
        ∧ (∀ k, k ≠ n → u.qp k = s.qp k) ∧ u.still = s.still ∧ u.mem = s.mem ∧ u.out = s.out
        ∧ (bitOf (byteAt c.entry 9) 0 = true → n ∈ u.qpe.cache)
        ∧ (s.shaper (leAt c.entry 20 4 % 2 ^ 20) = none →
            u.shaper (leAt c.entry 20 4 % 2 ^ 20)
              = some (newShaperEntry { s.cls.dflt with c0 := false, c0Port := 0, c0Group := 0 }))
        ∧ (∀ e, s.shaper (leAt c.entry 20 4 % 2 ^ 20) = some e → u.cls = s.cls))
    ∧ (∀ i op k, (op, i, k) = (0x42, Instr.deleteQp q cid, DrainKind.deleteQp c.seq)
          ∨ (op, i, k) = (0x43, Instr.resetQp q cid, DrainKind.resetQp c.seq) →
        s.adminCan q cid op c → (s.qp (leAt c.entry 56 4)).state ≠ .free →
        (s.qp (leAt c.entry 56 4)).state ≠ .draining →
      ∃ (u : State) (fin : List Cmd) (n : Nat),
        exec i s = .next ((fin.foldl (fun s d => if d.noIssue ∧ !d.past then s.endUnissued d.unready stAbortedReset
            else s.lostCompletion d.unready) u).touch.settle.flow)
        ∧ fin = ((((s.markPast c.seq).markWaiting c.seq).cmdsOf (leAt c.entry 56 4)).filter fun d => d.phase == .finished)
        ∧ n = (fin.filter fun d => d.ready.isSome).length
        ∧ u.qp (leAt c.entry 56 4) = { s.qp (leAt c.entry 56 4) with
            state := .draining, fetch := none, fetchSegs := [], inl := [], unwritten := 0
            reserved := (s.qp (leAt c.entry 56 4)).reserved + n
            post := ((s.qp (leAt c.entry 56 4)).post + (s.qp (leAt c.entry 56 4)).cqSize - n)
              % (s.qp (leAt c.entry 56 4)).cqSize
            phase := if (s.qp (leAt c.entry 56 4)).post < n then !(s.qp (leAt c.entry 56 4)).phase
              else (s.qp (leAt c.entry 56 4)).phase
            drain := some { kind := k, count := (s.qp (leAt c.entry 56 4)).unwritten } }
        ∧ (∀ j, j ≠ leAt c.entry 56 4 → u.qp j = s.qp j) ∧ u.still = s.still ∧ u.mem = s.mem)
    ∧ (∀ d, (s.qp q).drain = some d →
      (d.kind = .resetQp c.seq → d.thenFree = false → ∃ u : State, s.drainEnd q = u.finishCore c.seq stSuccess d.count
        ∧ u.qp q = { s.qp q with
            state := .active, head := 0, tail := 0, cqHead := 0, post := 0, phase := true, reserved := 0, fetch := none,
            fetchSegs := [], inl := [], drain := none, unwritten := 0, inlTail := 0, inlCount := 0, inlInvalid := false,
            inlRefused := false, inlHeld := false }
        ∧ (∀ j, j ≠ q → u.qp j = s.qp j) ∧ u.mem = s.mem)
      ∧ ((d.kind = .deleteQp c.seq ∨ d.kind = .resetQp c.seq ∧ d.thenFree = true) → ∃ u : State, s.drainEnd q = u.finishCore c.seq stSuccess d.count
        ∧ u.qpe.qps = tblDel s.qpe.qps q ∧ q ∉ u.qpe.cache ∧ u.mem = s.mem))

/-- R387, R388, R392, R393, R400, R516, R521 to R523. -/
def Obligations.KeyCommandsWriteTheKeyTheirEntryNames : Prop :=
  ∀ (s : State) (q cid : Nat) (c : Cmd),
    (s.adminCan q cid 0x44 c → ∀ i, s.pickKey = some i → ∀ k : KeyEntry,
      k = { state := 1, kind := byteAt c.entry 8, access := byteAt c.entry 9, tag := max 1 (s.keyAt i).tag,
            tenant := leAt c.entry 20 4 % 2 ^ 20, binding := leAt c.entry 12 4, uses := 0, base := leAt c.entry 32 8,
            length := leAt c.entry 40 8, target := k.target, rkey := 0 } →
      (byteAt c.entry 8 ≠ 3 → k.target = (if byteAt c.entry 8 = 0 then leAt c.entry 48 8 else 0) →
        ∃ u : State, exec (.regKey q cid) s = .next ((u.finish c.seq stSuccess (max 1 (s.keyAt i).tag * 2 ^ 24 + i)).flow)
          ∧ u.mem = s.mem.writeN (s.keyAddr i) k.bytes ∧ u.still = s.still ∧ u.regs = s.regs ∧ u.out = s.out)
      ∧ (byteAt c.entry 8 = 3 → s.devAlloc (leAt c.entry 40 8) = some k.target →
        ∃ u : State, exec (.regKey q cid) s = .next ((u.finish c.seq stSuccess (max 1 (s.keyAt i).tag * 2 ^ 24 + i)).flow)
          ∧ u.mem = (s.mem.lose k.target (k.target + leAt c.entry 40 8)).writeN (s.keyAddr i) k.bytes
          ∧ tblFind u.fct.devPool k.target = some (leAt c.entry 40 8) ∧ u.still = s.still ∧ u.regs = s.regs))
    ∧ (s.adminCan q cid 0x44 c → s.pickKey = none →
        exec (.regKey q cid) s = .next ((s.finish c.seq stInvalidField 8).flow))
    ∧ (s.adminCan q cid 0x45 c → ∃ (i : Nat) (u : State),
        exec (.deregKey q cid) s = .next (((u.markPast c.seq).markWaiting c.seq).settle.flow)
        ∧ i = leAt c.entry 24 4 % 2 ^ 20 ∧ u.mem = s.mem.writeN (s.keyAddr i) ({ s.keyAt i with state := 2 } : KeyEntry).bytes
        ∧ u.still = s.still ∧ u.regs = s.regs ∧ u.qpe = s.qpe)
    ∧ (∀ b, s.adminCan q cid 0x58 c → s.bufferIn c b →
        (s.paired = false ∨ leAt b 0 8 = s.shd.peerSerial ∨ leAt b 48 8 = s.shd.peerSerial) →
        (∀ key, kekOf b = some (some key) →
          ∃ u : State, exec (.loadKek q cid) s = .next ((u.finish c.seq stSuccess 0).flow)
            ∧ tblFind u.cph.keks (byteAt c.entry 8) = some key
            ∧ (∀ j, j ≠ byteAt c.entry 8 → tblFind u.cph.keks j = tblFind s.cph.keks j)
            ∧ u.cph.slots = s.cph.slots ∧ u.mem = s.mem ∧ u.regs = s.regs
            ∧ u.sys.flash.queue = s.sys.flash.queue ++ [⟨0x04, byteAt c.entry 8, some (.kek b)⟩])
        ∧ (kekOf b = some none →
          exec (.loadKek q cid) s = .next (((s.count .cphUnwrapFail).finish c.seq stInvalidField 8).flow)))
    ∧ (∀ b, s.adminCan q cid 0x59 c → s.bufferIn c b →
        (∀ key i, Crypto.unwrap (tblGet [] s.cph.keks (byteAt c.entry 8)) b = some key → s.freeSlotNo = some i →
          (key.length = 64 → key.take 32 ≠ key.drop 32) → ∀ p : Nat,
          p = (if (s.slotOf (eVolume c.entry) (s.volPhase (eVolume c.entry))).isSome
            then 1 - s.volPhase (eVolume c.entry) else 0) →
          ∃ u : State, exec (.loadKey q cid) s = .next (u.touch.settle.flow)
            ∧ tblFind u.cph.slots i = some {
                volume := eVolume c.entry, phase := p, xts := decide (key.length = 64), kek := byteAt c.entry 8,
                key := key, wrapped := b, limit := leAt c.entry 12 4, markNext := some 4194304 }
            ∧ (∀ j, j ≠ i → tblFind u.cph.slots j = tblFind s.cph.slots j)
            ∧ (∀ o, s.slotOf (eVolume c.entry) (s.volPhase (eVolume c.entry)) = some o →
              tblFind u.cph.walks (eVolume c.entry) = some { old := o.1, new := i, starting := some c.seq })
            ∧ u.mem = s.mem ∧ u.regs = s.regs)
        ∧ (Crypto.unwrap (tblGet [] s.cph.keks (byteAt c.entry 8)) b = none →
          exec (.loadKey q cid) s = .next (((s.count .cphUnwrapFail).finish c.seq stInvalidField 4).flow)))

/-- The queue is first in, first out, and the passing of a cycle is a step of its own (the model's convention, log entry 1). -/
def Obligations.AStepRunsTheFrontCommand : Prop :=
  (∀ (c : Instr) (rest : List Instr) (s : State),
    step { s with pending := c :: rest } = exec c { s with pending := rest })
  ∧ (∀ s : State, s.pending = [] → step s = .next ((((s.advance 1).wireNext.stallStep).activationStep).orderlyStep))
  ∧ (∀ s : State, s.shd.halfA = false → s.shd.halfB = false → s.sys.activation = none → s.sys.orderly = none →
      s.pending = [] →
      step s = .next { s with now := s.now + 1, gnm := if s.readsOn 164 then s.gnm.run 1 else s.gnm })

/-- R32, with the codes of R31. -/
def Obligations.IslandsAfterResetAreAsTheVariantSays : Prop :=
  (∀ (s : State) (i : Nat), i < 168 →
    (s.coldBase.island i).state = (if Config.fused s.variant i then .fused else if 165 ≤ i then .on else .off)
    ∧ (s.coldBase.island i).req = (if Config.fused s.variant i then .off else if 165 ≤ i then .on else .off))
  ∧ (∀ (s : State) (k i : Nat), i < 168 →
    (i ≠ 167 → ((s.warmBase k).island i).state = (if Config.fused s.variant i then .fused else if 165 ≤ i then .on
        else if i = 148 ∨ i = 149 then .retain else .off)
      ∧ ((s.warmBase k).island i).req = (if Config.fused s.variant i then .off else if 165 ≤ i then .on
        else if i = 148 ∨ i = 149 then .retain else .off))
    ∧ (i = 167 → (s.warmBase k).island i = s.island i))
  ∧ (∀ (s : State) (rq : Requester) (i : Nat) (v : Word), (s.island i).state = .fused → exec (.islandReqWrite rq i v) s = .next s)
  ∧ (∀ i, i < 168 → State.reset.island i = Island.reset .kn4896 i)
  ∧ IslState.off.code = 2 ∧ IslState.fused.code = 3

/-- The start of every run. -/
def Obligations.TheResetStateHasTheInvariant : Prop :=
  State.reset.inv ∧ State.reset.mem = [] ∧ State.reset.pending = [] ∧ State.reset.out = [] ∧ State.reset.variant = .kn4896

/-- R63 field by field, and R66: TIME is the time of the write, modulo 2^32 ns. -/
def Obligations.ACompletionEntryHasItsLayout : Prop :=
  ∀ (c : Cmd) (x : Qp) (status info time : Nat), c.cid < 2 ^ 16 → status < 2 ^ 8 → x.head < 2 ^ 16 → info < 2 ^ 32 →
    (completionEntry c x status info time).length = 32
    ∧ leAt (completionEntry c x status info time) 0 2 = c.cid
    ∧ byteAt (completionEntry c x status info time) 2 = status
    ∧ byteAt (completionEntry c x status info time) 3 = b2n x.phase + 2 * b2n c.authFail + 4 * b2n c.wasHeld
    ∧ leAt (completionEntry c x status info time) 4 2 = x.head
    ∧ leAt (completionEntry c x status info time) 6 2 = 0
    ∧ leAt (completionEntry c x status info time) 8 4 = time % 2 ^ 32
    ∧ leAt (completionEntry c x status info time) 12 4 = info
    ∧ (completionEntry c x status info time).drop 16 = zeros 16
    ∧ completionEntry c x status info (time + 2 ^ 32) = completionEntry c x status info time

/-- R71 to R74, R318 to R320 on the endpoint face. -/
def Obligations.EndpointDoorbellsMoveOrAreCounted : Prop :=
  ∀ (s : State) (f q : Nat),
    (s.epf.linkUp = true → s.funcEnabled f = true → (s.epFunc f).mse = true → s.foreign f q = false → s.isOn 160 = true →
      (s.noQp q = false →
        (∀ v : Word, (s.qp q).state ≠ .error → v.toNat < 2 ^ 16 → v.toNat < (s.qp q).sqSize →
            ringCount (s.qp q).head (s.qp q).tail (s.qp q).sqSize ≤ ringCount (s.qp q).head v.toNat (s.qp q).sqSize →
          ∃ u : State, exec (.sqTailDb f q v) s = .next (u.pump q) ∧ u.qp q = { s.qp q with tail := v.toNat }
            ∧ (∀ k, k ≠ q → u.qp k = s.qp k) ∧ u.still = s.still ∧ u.mem = s.mem ∧ u.out = s.out)
        ∧ (∀ v : Word, v.toNat < 2 ^ 16 → v.toNat < (s.qp q).cqSize →
            ringCount (s.qp q).cqHead v.toNat (s.qp q).cqSize ≤ ringCount (s.qp q).cqHead (s.qp q).post (s.qp q).cqSize →
          ∃ u : State, exec (.cqHeadDb f q v) s = .next (u.pump q) ∧ u.qp q = { s.qp q with cqHead := v.toNat }
            ∧ (∀ k, k ≠ q → u.qp k = s.qp k) ∧ u.still = s.still ∧ u.mem = s.mem ∧ u.out = s.out)
        ∧ (∀ v : Word, 2 ^ 16 ≤ v.toNat →
            exec (.sqTailDb f q v) s = .next ((s.count .qpeDbBad).event .qpe)
            ∧ exec (.cqHeadDb f q v) s = .next ((s.count .qpeDbBad).event .qpe))
        ∧ (∀ v : Word, v.toNat < 2 ^ 16 → (s.qp q).state ≠ .error → ((s.qp q).sqSize ≤ v.toNat
              ∨ ringCount (s.qp q).head v.toNat (s.qp q).sqSize < ringCount (s.qp q).head (s.qp q).tail (s.qp q).sqSize) →
            exec (.sqTailDb f q v) s = .next ((((s.useContext q).count .qpeDbBad).event .qpe).pump q))
        ∧ (∀ e : Bytes, e.length = 64 → (s.qp q).state ≠ .error → 0 < (s.qp q).sqSize →
            ringCount (s.qp q).head (s.qp q).tail (s.qp q).sqSize < (s.qp q).sqSize - 1 →
          ((s.heldOf q).length < 4 → ∃ (u w : State) (h : Bool), exec (.inlEntry f q e) s = .next w
            ∧ u.qp q = { s.qp q with
                tail := ((s.qp q).tail + 1) % (s.qp q).sqSize, inl := (s.qp q).inl ++ [((s.qp q).tail, e, 0)] }
            ∧ (∀ k, k ≠ q → u.qp k = s.qp k) ∧ u.still = s.still ∧ u.mem = s.mem
            ∧ (((u.pump q).qp q).state ≠ .free →
              w = (u.pump q).updQp q fun y => { y with
                inlTail := y.tail, inlCount := (y.inlCount + 1) % 256, inlInvalid := false, inlRefused := false,
                inlHeld := h }))
          ∧ (4 ≤ (s.heldOf q).length → exec (.inlEntry f q e) s = .next
              (((s.useContext q).clsCount .clsInlRefused (s.qp q).tenant 3).updQp q fun y => { y with
                inlTail := y.tail, inlCount := (y.inlCount + 1) % 256, inlInvalid := false, inlRefused := true,
                inlHeld := false }))))
      ∧ (s.noQp q = true → ∀ v : Word, v.toNat < 2 ^ 16 →
          exec (.sqTailDb f q v) s = .next ((s.count .qpeDbFree).pump q)
          ∧ exec (.cqHeadDb f q v) s = .next ((s.count .qpeDbFree).pump q)))
    ∧ (s.epf.linkUp = true → s.funcEnabled f = true → (s.epFunc f).mse = true → s.foreign f q = false → s.isOn 160 = false →
        ∀ (v : Word) (e : Bytes) (i : Instr) (d : Door), (i, d) = (.sqTailDb f q v, .sqTail f q v.toNat)
            ∨ (i, d) = (.cqHeadDb f q v, .cqHead f q v.toNat) ∨ (i, d) = (.inlEntry f q e, .inline f q e) →
          ((s.island 160).busy.isSome = true → exec i s = .next { s with qpe := { s.qpe with doors := s.qpe.doors ++ [d] } })
          ∧ ((s.island 160).busy.isSome = false → exec i s = .next (s.emit (.refusedAtIsland 160))))
    ∧ (s.epf.linkUp = true → s.funcEnabled f = true → (s.epFunc f).mse = true → s.foreign f q = true →
        ∀ (v : Word) (e : Bytes), exec (.sqTailDb f q v) s = .next (s.count .epfDbForeign)
          ∧ exec (.cqHeadDb f q v) s = .next (s.count .epfDbForeign)
          ∧ exec (.inlEntry f q e) s = .next (s.count .epfDbForeign))
    ∧ (s.epf.linkUp = true → (s.funcEnabled f = false ∨ (s.epFunc f).mse = false) → ∀ (v : Word) (e : Bytes),
        exec (.sqTailDb f q v) s = .next (s.emit (.unsupported 0)) ∧ exec (.cqHeadDb f q v) s = .next (s.emit (.unsupported 0))
          ∧ exec (.inlEntry f q e) s = .next (s.emit (.unsupported 0)) ∧ exec (.unsupportedRequest 0) s = .next (s.emit (.unsupported 0)))

/-- R57, R75: the ring read. `fetchCount` is the count of R75. -/
def Obligations.RingReadsFollowTheAnnouncedTail : Prop :=
  (∀ (s : State) (q : Nat), s.fetchCount q ≤ 4 ∧ s.fetchCount q ≤ (s.qp q).sqSize - (s.qp q).head
      ∧ s.fetchCount q ≤ ringCount (s.qp q).head (s.qp q).tail (s.qp q).sqSize ∧ s.fetchCount q ≤ (s.qp q).freeSlots
      ∧ ∀ i, i < s.fetchCount q → ∀ e ∈ (s.qp q).inl, e.1 ≠ (s.qp q).head + i)
  ∧ (∀ (s : State) (q : Nat), s.isOn 160 = true → (s.qp q).state = .active → (s.qp q).fetch = none → 0 < s.fetchCount q → s.fetchHeld q = false →
      (∀ a b, (s.qp q).face ≠ .roce a b) →
      ((s.useContext q).keyOk (s.qp q).sqMkey false ((s.qp q).sqAddr + 64 * (s.qp q).head) (64 * s.fetchCount q) = false →
        exec (.entryFetch q) s = .next ((((s.useContext q).count .mmuKeyFail).qpError q).flow))
      ∧ ((s.useContext q).keyOk (s.qp q).sqMkey false ((s.qp q).sqAddr + 64 * (s.qp q).head) (64 * s.fetchCount q) = true →
        ∃ (u : State) (k : KeyEntry), k = u.keyAt (keyIndex (s.qp q).sqMkey)
          ∧ u.qp q = { s.qp q with fetch := some ((s.qp q).head, s.fetchCount q), fetchSegs := [] }
          ∧ (∀ k, k ≠ q → u.qp k = s.qp k) ∧ u.mem = s.mem ∧ u.still = s.still
          ∧ u.out = .ringRead q (s.qp q).head (s.fetchCount q) :: s.out
          ∧ (k.kind = 3 → exec (.entryFetch q) s = .next (u.updQp q fun x => { x with
              fetchSegs := [(0, u.mem.readN (u.devAddr x.sqMkey ((s.qp q).sqAddr + 64 * (s.qp q).head))
                (64 * s.fetchCount q))] }))
          ∧ (k.kind = 0 → u.funcSends (k.binding % 64) = true → exec (.entryFetch q) s = .next
                (u.epRead (k.binding % 64) (k.target + ((s.qp q).sqAddr + 64 * (s.qp q).head - k.base))
                  (64 * s.fetchCount q) fun o => .fetch q o))
          ∧ (k.kind = 0 → u.funcSends (k.binding % 64) = false →
              exec (.entryFetch q) s = .next (u.masterDisabled (k.binding % 64) none))
          ∧ (k.kind = 1 → exec (.entryFetch q) s = .next
                ((u.setOdt (k.binding % 2 ^ 16) { u.odtConn (k.binding % 2 ^ 16) with
                  asks := (u.odtConn (k.binding % 2 ^ 16)).asks
                    ++ [{ seq := 0, qp := q, slots := some ((s.qp q).head, s.fetchCount q) }] }).odtCtl (k.binding % 2 ^ 16) q 0
                  (.fetchReq (s.qp q).head (s.fetchCount q)) (s.qp q).baseClass))))
  ∧ (∀ (s : State) (q : Nat), (s.isOn 160 = false ∨ (s.qp q).state ≠ .active ∨ (s.qp q).fetch ≠ none ∨ s.fetchCount q = 0 ∨ s.fetchHeld q = true
      ∨ (∃ a b, (s.qp q).face = .roce a b)) → exec (.entryFetch q) s = .next s)
  ∧ (∀ (s : State) (q slot n : Nat), (s.qp q).state = .active → (s.qp q).fetch = some (slot, n) →
      (gather (64 * n) (s.qp q).fetchSegs = none → exec (.entryFetchDone q) s = .next s)
      ∧ (∀ b, gather (64 * n) (s.qp q).fetchSegs = some b →
        ∃ u : State, exec (.entryFetchDone q) s = .next ((u.takeSlots q slot b n).pump q)
          ∧ u.qp q = { s.qp q with fetch := none, fetchSegs := [] } ∧ (∀ k, k ≠ q → u.qp k = s.qp k)
          ∧ u.still = s.still ∧ u.mem = s.mem ∧ u.out = s.out))

/-- R85, R90, R91. `endEarly` frees what the target occupied and finishes it. -/
def Obligations.FlushWaitsAndAbortEndsItsTargetOnce : Prop :=
  ∀ (s : State) (q cid : Nat) (c : Cmd),
    (s.carried q cid opFlush = some c → s.cmd c.seq = some c →
      ∃ u : State, exec (.flush q cid) s = .next u.flow ∧ u.cmd c.seq = some { c with waiting := true }
        ∧ u.mem = s.mem ∧ u.still = s.still ∧ u.out = s.out ∧ u.qpe.qps = s.qpe.qps)
    ∧ (c.waiting = true → c.phase ≠ .finished → c.both = false →
        (eOpcode c.entry = opFlush → (s.waitOver c = true ↔ ∀ d ∈ s.qpe.cmds, d.qp = c.qp → c.seq ≤ d.seq))
        ∧ (eOpcode c.entry = opAbort → (s.waitOver c = true ↔ ∀ d ∈ s.qpe.cmds, d.seq ∉ c.todo)))
    ∧ ((s.qpe.cmds.find? fun c => (((s.qp c.qp).state == .error || (s.qp c.qp).state == .draining) && !c.past
          && c.phase != .finished)) = none → s.qpe.cmds.find? s.waitOver = some c →
        (eOpcode c.entry = opFlush ∨ eOpcode c.entry = opAbort) →
        s.settleStep = some ((s.walkBegin c.seq).finishCore c.seq stSuccess c.okInfo))
    ∧ (s.carried q cid opAbort = some c → c.waiting = false →
      (s.findCmd q (leAt c.entry 40 2) = none → exec (.abort q cid) s = .next ((s.finish c.seq stAbortTooLate 1).flow))
      ∧ ∀ t, s.findCmd q (leAt c.entry 40 2) = some t →
        (eOpcode t.entry = opFlush ∨ eOpcode t.entry = opAbort →
          exec (.abort q cid) s = .next ((s.finish c.seq stAbortTooLate 2).flow))
        ∧ (eOpcode t.entry ≠ opFlush → eOpcode t.entry ≠ opAbort →
          (t.noIssue = true → t.past = false → (t.ready = none ∨ t.raw = none) →
            ∃ u : State, exec (.abort q cid) s = .next ((u.endUnissued t stAbortedRequest).settle.flow)
              ∧ (s.cmd c.seq = some c → u.cmd c.seq = some { c with waiting := true, todo := [t.seq] })
              ∧ u.mem = s.mem ∧ u.still = s.still ∧ u.out = s.out)
          ∧ ((t.noIssue = false ∨ t.past = true ∨ t.ready ≠ none ∧ t.raw ≠ none) →
            (t.phase = .finished → t.result = some (stAbortedRequest, 0) →
              exec (.abort q cid) s = .next ((s.finish c.seq stAbortTooLate 1).flow))
            ∧ (¬ (t.phase = .finished ∧ t.result = some (stAbortedRequest, 0)) → (t.past = true ∨ t.phase = .finished) →
              exec (.abort q cid) s = .next ((s.finish c.seq stAbortTooLate 0).flow)))
          ∧ (t.past = false → t.phase ≠ .finished →
            ∃ u : State, exec (.abort q cid) s = .next ((u.endEarly t.seq stAbortedRequest).flow)
              ∧ (s.cmd c.seq = some c → u.cmd c.seq = some { c with waiting := true, todo := [t.seq] })
              ∧ u.mem = s.mem ∧ u.still = s.still ∧ u.out = s.out)))

/-- R100 to R103 (what inspection captures), R240 to R243 (the refill). -/
def Obligations.InspectionCapturesAndTheRefillAdds : Prop :=
  (∀ (s : State) (v : Word) (q : Nat), s.readsOn 160 = true → q = v.toNat % 2 ^ 18 → q < s.qpCount → (s.qp q).state ≠ .free →
    exec (.qpeInspSel v) s = .next ((((s.setReg .qpeInspSel q).setReg .qpeInspState
        (min 0xFFFF (s.cmdsOf q).length * 2 ^ 16 + (s.qp q).home * 2 ^ 8
          + b2n (s.qp q).admin * 2 ^ 6 + b2n (s.fetchHeld q) * 2 ^ 5 + b2n (s.qpe.cache.contains q) * 2 ^ 4
          + b2n (bitOf (s.qp q).mask 0) * 2 ^ 3 + (s.qp q).state.code + 2 ^ 7)).setReg .qpeInspSq
        ((s.qp q).tail * 2 ^ 16 + (s.qp q).head)).setReg .qpeInspCq ((s.qp q).post * 2 ^ 16 + (s.qp q).cqHead)))
  ∧ (∀ (s : State) (v : Word) (q : Nat), s.readsOn 160 = true → q = v.toNat % 2 ^ 18 → s.qpCount ≤ q →
    exec (.qpeInspSel v) s = .next ((((s.setReg .qpeInspSel q).setReg .qpeInspState (2 ^ 7)).setReg .qpeInspSq 0).setReg
      .qpeInspCq 0))
  ∧ (∀ (s : State) (v : Word), s.readsOn 160 = false → exec (.qpeInspSel v) s = .next s)
  ∧ (∀ s : State, s.readsOn 161 = true →
      ∃ a : State, a = s.advanceGnm ((s.cls.refilled + 1) * 1000)
        ∧ exec .policerRefill s = .next (a.refillAll (a.gnmNs / 1000 - a.cls.refilled) (a.gnmNs / 1000 - a.cls.refilled))
        ∧ (s.gnmNs / 1000 = s.cls.refilled → a.gnmNs / 1000 = s.cls.refilled + 1 →
          a.refillStride ≠ 0 → exec .policerRefill s = .next (a.refills 1)))
  ∧ (∀ (s : State) (k : Nat), ∃ u : State,
      u = { s with cls := { s.cls with refilled := s.cls.refilled + k
                                       shapers := s.cls.shapers.filterMap (s.refillEntry k) } }
      ∧ s.refills k = (u.cls.shapers.foldl (fun t e => t.retest e.1 (t.heldOrder e.1 e.2)) u).finishShapers.flow)
  ∧ (∀ (e : ShaperEntry) (k : Nat), ∀ v, v = e.pending.getD e.val → (e.refill k).val = v ∧ (e.refill k).pending = none
      ∧ (0 < v.cir → 0 < v.cbs → (e.refill k).c = min (e.c + k * v.cir) (v.cbs * 1000000))
      ∧ (v.cir = 0 ∨ v.cbs = 0 → (e.refill k).c = 0)
      ∧ (0 < v.pir → 0 < v.pbs → (e.refill k).p = min (e.p + k * v.pir) (v.pbs * 1000000))
      ∧ (v.pir = 0 ∨ v.pbs = 0 → (e.refill k).p = 0) ∧ (e.refill k).counts = e.counts)

/-- R466, R467, R470, R471, R477, R478: the instructions on registers. -/
def Obligations.RegisterInstructionsWriteTheirResultAndRetire : Prop :=
  ∀ (s f : State) (e t : Nat) (g : Guard) (rd ra rb : Fin 32) (pd pa pb : Fin 8) (i12 : BitVec 12) (i16 : BitVec 16)
    (i11 : BitVec 11), s.fetched e t f →
    let puts (i : Instr) (w : Thread → Thread) : Prop :=
      (s.issues e t g f → exec i s = .next ((f.updThr e t w).retire e t none))
      ∧ ((f.thr e t).guardOn g = false → f.budgetSpent e t = false → exec i s = .next (f.retire e t none))
    let bad (i : Instr) : Prop := exec i s = .next (f.trapTo e t ⟨0x01, none⟩)
    (∀ (fn : Fin 128) (v : DWord → DWord → DWord), aluIllegal fn.val rb = false → (∀ a b, aluFn fn.val a b = some (v a b)) →
        puts (.alu e t g rd ra rb fn) fun x => x.setReg rd (v (x.reg ra) (x.reg rb)))
    ∧ (∀ fn : Fin 128, (0x18 < fn.val ∨ 0x15 ≤ fn.val ∧ rb ≠ 0) → bad (.alu e t g rd ra rb fn))
    ∧ puts (.addi e t g rd ra i12) (fun x => x.setReg rd (x.reg ra + i12.signExtend 64))
    ∧ puts (.andi e t g rd ra i12) (fun x => x.setReg rd (x.reg ra &&& i12.signExtend 64))
    ∧ puts (.ori e t g rd ra i12) (fun x => x.setReg rd (x.reg ra ||| i12.setWidth 64))
    ∧ puts (.xori e t g rd ra i12) (fun x => x.setReg rd (x.reg ra ^^^ i12.setWidth 64))
    ∧ (bitsOf i12.toNat 11 8 = 0 → bitsOf i12.toNat 7 6 = 0 →
        puts (.shi e t g rd ra i12) fun x => x.setReg rd (x.reg ra <<< (i12.toNat % 64)))
    ∧ (bitsOf i12.toNat 11 8 = 0 → bitsOf i12.toNat 7 6 = 1 →
        puts (.shi e t g rd ra i12) fun x => x.setReg rd (x.reg ra >>> (i12.toNat % 64)))
    ∧ (bitsOf i12.toNat 11 8 = 0 → bitsOf i12.toNat 7 6 = 2 →
        puts (.shi e t g rd ra i12) fun x => x.setReg rd ((x.reg ra).sshiftRight (i12.toNat % 64)))
    ∧ (bitsOf i12.toNat 11 8 ≠ 0 ∨ bitsOf i12.toNat 7 6 = 3 → bad (.shi e t g rd ra i12))
    ∧ puts (.seti e t g rd i16) (fun x => x.setReg rd (i16.signExtend 64))
    ∧ puts (.setiu e t g rd i16) (fun x => x.setReg rd (i16.setWidth 64))
    ∧ puts (.shin e t g rd i16) (fun x => x.setReg rd ((x.reg rd <<< (16 : Nat)) ||| i16.setWidth 64))
    ∧ (∀ fn : Fin 128, fn.val ≤ 5 →
        puts (.cmp e t g pd ra rb fn) fun x => x.setPred pd (condition fn.val (x.reg ra) (x.reg rb)))
    ∧ (∀ fn : Fin 128, 5 < fn.val → bad (.cmp e t g pd ra rb fn))
    ∧ (∀ cc : Fin 8, cc.val ≤ 5 →
        puts (.cmpi e t g pd cc ra i11) fun x => x.setPred pd (condition cc.val (x.reg ra) (i11.signExtend 64)))
    ∧ (∀ cc : Fin 8, 5 < cc.val → bad (.cmpi e t g pd cc ra i11))
    ∧ (∀ fn : Fin 8, fn.val ≤ 4 →
        puts (.plog e t g pd pa pb fn) fun x => x.setPred pd (plogFn fn.val (x.pred pa) (x.pred pb)))
    ∧ (∀ fn : Fin 8, 4 < fn.val → bad (.plog e t g pd pa pb fn))

/-- R467, R476, R492, R493, R497, R498: the instructions that turn the flow. -/
def Obligations.FlowInstructionsGoWhereTheirRulesSay : Prop :=
  ∀ (s f : State) (e t : Nat) (g : Guard) (rd ra rb : Fin 32) (off : BitVec 22) (code : BitVec 12) (w : Word),
    (s.issues e t g f → ∀ x, x = f.thr e t →
      (x.relTarget off &&& 3#64 = 0#64 →
        exec (.b e t g off) s = .next (f.retire e t (some (x.pc + (off.signExtend 64 <<< (2 : Nat)))))
        ∧ exec (.bl e t g off) s = .next ((f.setThr e t (x.setReg 31 (x.pc + 4))).retire e t
            (some (x.pc + (off.signExtend 64 <<< (2 : Nat))))))
      ∧ (x.reg ra &&& 3#64 = 0#64 →
        exec (.br e t g ra) s = .next (f.retire e t (some (x.reg ra)))
        ∧ exec (.blr e t g rd ra) s = .next ((f.setThr e t (x.setReg rd (x.pc + 4))).retire e t (some (x.reg ra))))
      ∧ (x.relTarget off &&& 3#64 ≠ 0#64 → ∀ i, i = .b e t g off ∨ i = .bl e t g off →
        exec i s = .next (f.trapTo e t ⟨0x03, some (x.relTarget off).toNat⟩))
      ∧ (x.reg ra &&& 3#64 ≠ 0#64 → ∀ i, i = .br e t g ra ∨ i = .blr e t g rd ra →
        exec i s = .next (f.trapTo e t ⟨0x03, some (x.reg ra).toNat⟩))
      ∧ exec (.trap e t g code) s = .next (f.trapTo e t ⟨0x0A, some code.toNat⟩)
      ∧ (x.umode = false → x.intrap = true → exec (.eret e t g) s = .next ((f.setThr e t
          { x.setCsr 0x80 (x.csrAt 0x80 &&& ~~~1#64) with umode := x.pmode }).retire e t (some (x.csrAt 0x82))))
      ∧ (x.umode = true → exec (.eret e t g) s = .next (f.trapTo e t ⟨0x02, none⟩))
      ∧ (x.umode = false → x.intrap = false → exec (.eret e t g) s = .next (f.trapTo e t ⟨0x01, none⟩))
      ∧ exec (.yield e t g) s = .next ((f.setThr e t { x with yielded := true }).retire e t none)
      ∧ (∀ mask ev : BitVec 16, mask = (x.reg rb).setWidth 16 → ev = f.eventsOf e t &&& mask →
        (x.umode = true → mask &&& ~~~0xD#16 ≠ 0#16 → exec (.wait e t g rd rb) s = .next (f.trapTo e t ⟨0x02, none⟩))
        ∧ ((x.umode = false ∨ mask &&& ~~~0xD#16 = 0#16) → (mask = 0#16 ∨ ev ≠ 0#16) → exec (.wait e t g rd rb) s =
            .next ((f.setThr e t ({ x with latched := x.latched &&& ~~~ev }.setReg rd (ev.setWidth 64))).retire e t none))
        ∧ ((x.umode = false ∨ mask &&& ~~~0xD#16 = 0#16) → mask ≠ 0#16 → ev = 0#16 → exec (.wait e t g rd rb) s =
            .next (f.setThr e t { x with state := .waiting, wait := some { rd := rd.val, mask, since := f.now } }))))
    ∧ (s.fetched e t f → illegalWord w.toNat = true →
        exec (.illegalWord e t w) s = .next (f.trapTo e t ⟨0x01, none⟩))

/-- R472 to R475: the accesses to memory and registers. -/
def Obligations.LoadsStoresAndAtomicsReachTheirAddress : Prop :=
  ∀ (s f : State) (e t : Nat) (g : Guard) (rd ra rb : Fin 32) (imm : BitVec 12) (fn : Fin 128), s.issues e t g f →
    (∀ (i : Instr) (n : Nat) (sgn : Bool), (i, n, sgn) ∈ [(.lb e t g rd ra imm, 1, true), (.lbu e t g rd ra imm, 1, false),
          (.lh e t g rd ra imm, 2, true), (.lhu e t g rd ra imm, 2, false), (.lw e t g rd ra imm, 4, true),
          (.lwu e t g rd ra imm, 4, false), (.ld e t g rd ra imm, 8, false)] →
      ∀ (va : Nat) (d : State), va = ((f.thr e t).reg ra + imm.signExtend 64).toNat →
        d = f.updThr e t (fun x => { x with daddr := va }) →
        (va % n ≠ 0 → exec i s = .next (d.trapTo e t ⟨0x03, some va⟩))
        ∧ (va % n = 0 → ∀ u tr, d.access e t .load (n == 4) va = (u, .error tr) → exec i s = .next (u.trapTo e t tr))
        ∧ (va % n = 0 → ∀ u pa, d.access e t .load (n == 4) va = (u, .ok pa) →
          ((∀ o, u.place pa ≠ .regs o) → (∀ o b, u.place pa ≠ .bitAlias o b) → exec i s = .next
            (((u.loadLine e t pa n).1.updThr e t fun x => x.setReg rd (loadValue sgn (u.loadLine e t pa n).2)).retire e t none))
          ∧ (∀ o al, (u.place pa = .regs o ∧ al = none ∨ ∃ b, u.place pa = .bitAlias o b ∧ al = some b) → u.servedNow o = true →
            exec i s = .next (((u.readWord (.thread e t) o al (!(u.thr e t).umode)).1.updThr e t fun x => x.setReg rd
              (loadValue sgn (toLe (u.readWord (.thread e t) o al (!(u.thr e t).umode)).2 4))).retire e t none))))
    ∧ (∀ (i : Instr) (n : Nat), (i, n) ∈ [(.sb e t g rd ra imm, 1), (.sh e t g rd ra imm, 2), (.sw e t g rd ra imm, 4),
          (.sd e t g rd ra imm, 8)] →
      ∀ (va : Nat) (d : State), va = ((f.thr e t).reg ra + imm.signExtend 64).toNat →
        d = f.updThr e t (fun x => { x with daddr := va }) →
        (va % n ≠ 0 → exec i s = .next (d.trapTo e t ⟨0x03, some va⟩))
        ∧ (va % n = 0 → ∀ u tr, d.access e t .store (n == 4) va = (u, .error tr) → exec i s = .next (u.trapTo e t tr))
        ∧ (va % n = 0 → ∀ u pa, d.access e t .store (n == 4) va = (u, .ok pa) →
          ((∀ o, u.place pa ≠ .regs o) → (∀ o b, u.place pa ≠ .bitAlias o b) → exec i s = .next
            ((u.storeLine e t pa (toLe ((f.thr e t).reg rd).toNat n)).retire e t none))
          ∧ (∀ o op, (u.place pa = .regs o ∧ op = .word (((f.thr e t).reg rd).toNat % 2 ^ 32)
                ∨ ∃ b, u.place pa = .bitAlias o b ∧ op = .bit b (bitOf ((f.thr e t).reg rd).toNat 0)) → ∀ v,
              v = u.fabWrite (.thread e t) o op →
            (v.isStalled (.thread e t) = false → exec i s = .next (v.retire e t none))
            ∧ (v.isStalled (.thread e t) = true →
              exec i s = .next (v.blockOn e t { rd := 0, signed := false, store := true, va })))))
    ∧ (∀ (n op : Nat) (w : Bool), w = decide (64 ≤ fn.val) → op = fn.val % 64 → n = (if w then 4 else 8) →
      (9 < op → ∀ g', exec (.atom e t g' rd ra rb fn) s = .next (f.trapTo e t ⟨0x01, none⟩))
      ∧ (op ≤ 9 → ∀ (va : Nat) (d : State), va = ((f.thr e t).reg ra).toNat →
        d = f.updThr e t (fun x => { x with daddr := va }) →
        (va % n ≠ 0 → exec (.atom e t g rd ra rb fn) s = .next (d.trapTo e t ⟨0x03, some va⟩))
        ∧ (va % n = 0 → ∀ u tr, d.access e t .atomic false va = (u, .error tr) →
            exec (.atom e t g rd ra rb fn) s = .next (u.trapTo e t tr))
        ∧ (va % n = 0 → ∀ u pa, d.access e t .atomic false va = (u, .ok pa) →
          ∃ (v : State) (old new b c : DWord), exec (.atom e t g rd ra rb fn) s
              = .next ((v.updThr e t fun x => x.setReg rd old).retire e t none)
            ∧ b = (if w then (((f.thr e t).reg rb).setWidth 32).setWidth 64 else (f.thr e t).reg rb)
            ∧ c = (if w then (((f.thr e t).reg rd).setWidth 32).setWidth 64 else (f.thr e t).reg rd)
            ∧ new = atomFn op w old b c
            ∧ ∃ m, m = (if inHbmSpace pa then (u.pmc e t 0x10 1).evict e (pa / 64) else (u.pmc e t 0x10 1).sramCount e t pa)
              ∧ old = BitVec.ofNat 64 (m.mem.readLe pa n)
              ∧ v = (if pa < 0x40000 then m else m.store pa (toLe new.toNat n)))))

/-- R433, R462, R495, R496, R499, R529. -/
def Obligations.SystemInstructionsAndThreadEventsDoTheirEffect : Prop :=
  (∀ (s f : State) (e t : Nat) (g : Guard) (rd ra : Fin 32) (csr : BitVec 8) (b : Fin 64) (v : Bool), s.issues e t g f →
    ∀ (x : Thread) (n : Nat) (old : DWord), x = f.thr e t → n = csr.toNat → old = f.csrRead e t n →
    let open_ := x.umode = false ∨ f.csrUser n = true
    (csrNamed n = true → open_ →
      exec (.getc e t g rd csr) s = .next ((f.updThr e t fun y => y.setReg rd old).retire e t none)
      ∧ (csrWritable n = true →
        (∀ u, f.csrWrite e t n (x.reg ra) = .ok u → exec (.putc e t g csr ra) s = .next (u.retire e t none)
          ∧ exec (.swpc e t g rd csr ra) s = .next ((u.updThr e t fun y => y.setReg rd old).retire e t none))
        ∧ (∀ tr, f.csrWrite e t n (x.reg ra) = .error tr → exec (.putc e t g csr ra) s = .next (f.trapTo e t tr)
          ∧ exec (.swpc e t g rd csr ra) s = .next (f.trapTo e t tr))
        ∧ (n ≠ 0x8A → ∀ u, f.csrWrite e t n (putBit old b.val v) = .ok u →
            exec (.bitc e t g rd csr b v) s = .next ((u.updThr e t fun y => y.setReg rd old).retire e t none))))
    ∧ (∀ i, i = .getc e t g rd csr ∧ csrNamed n = false
          ∨ (i = .putc e t g csr ra ∨ i = .swpc e t g rd csr ra) ∧ (csrNamed n = false ∨ csrWritable n = false)
          ∨ i = .bitc e t g rd csr b v ∧ (csrNamed n = false ∨ csrWritable n = false ∨ n = 0x8A) →
        exec i s = .next (f.trapTo e t ⟨0x01, none⟩))
    ∧ (csrNamed n = true → x.umode = true → f.csrUser n = false → ∀ i, i = .getc e t g rd csr
          ∨ csrWritable n = true ∧ (i = .putc e t g csr ra ∨ i = .swpc e t g rd csr ra ∨ n ≠ 0x8A ∧ i = .bitc e t g rd csr b v) →
        exec i s = .next (f.trapTo e t ⟨0x02, none⟩)))
  ∧ (∀ (f : State) (e t n : Nat) (v : DWord),
      f.csrWrite e t 0x89 v = .ok (f.updThr e t fun x => { x with preds := v.setWidth 8 ||| 1#8 })
      ∧ (∀ k, k = bitsOf v.toNat 15 10 →
        (Config.enginePresent f.variant k = true → f.csrWrite e t 0x8A v = .ok (f.latch k (v.toNat % 16) 4))
        ∧ (Config.enginePresent f.variant k = false → f.csrWrite e t 0x8A v = .error ⟨0x09, none⟩))
      ∧ (n ≠ 0x89 → n ≠ 0x8A → f.csrWrite e t n v = .ok (f.updThr e t fun x => x.setCsr n (v &&& csrMask n))))
  ∧ (∀ (s f : State) (e t : Nat) (g : Guard) (ra rb : Fin 32) (fm : Fin 128), s.fetched e t f → ∀ x, x = f.thr e t →
      (5 < fm.val ∨ (fm.val = 0 ∨ fm.val = 4 ∨ fm.val = 5) ∧ (ra ≠ 0 ∨ rb ≠ 0) →
        exec (.fence e t g ra rb fm none) s = .next (f.trapTo e t ⟨0x01, none⟩))
      ∧ (s.issues e t g f → f.resumed e t = none → ∀ run,
          (fm = 0 ∧ ra = 0 ∧ rb = 0 ∧ run = f
            ∨ (fm = 1 ∨ fm = 2 ∨ fm = 3) ∧ run = f.fenceRange e t fm.val ((x.reg ra).toNat / 64)
                (fenceLines (x.reg ra).toNat (x.reg rb).toNat)
            ∨ x.umode = false ∧ fm = 4 ∧ ra = 0 ∧ rb = 0
              ∧ run = (((f.eng e).dcache.map (·.1)).take (f.eng e).dcache.length).foldl (fun s l => s.evict e l) f
            ∨ x.umode = false ∧ fm = 5 ∧ ra = 0 ∧ rb = 0 ∧ run = f.setEng e { f.eng e with icache := [] }) →
          exec (.fence e t g ra rb fm none) s = .next (run.retire e t none))
      ∧ (s.issues e t g f → x.umode = true → (fm = 4 ∨ fm = 5) → ra = 0 → rb = 0 →
          exec (.fence e t g ra rb fm none) s = .next (f.trapTo e t ⟨0x02, none⟩)))
  ∧ (∀ (s : State) (e t : Nat) (v : DWord) (rest : List DWord), s.engineRuns e = true → (s.thr e t).faults = v :: rest →
      (s.thr e t).intrap = false → ((s.thr e t).state = .ready ∨ (s.thr e t).state = .waiting) → s.savedInstr e t = false →
      exec (.dmaFaultTrap e t) s
        = .next ((s.setThr e t { s.thr e t with faults := rest }).trapTo e t ⟨0x08, some v.toNat⟩))
  ∧ (∀ (s : State) (e t : Nat), (s.readsOn 164 = true →
        exec (.timerEvent e t) s = .next ((s.advanceGnm ((s.thr e t).csrAt 0x40).toNat).wakeThread e t))
      ∧ (s.readsOn 164 = false → exec (.timerEvent e t) s = .next s))
  ∧ (∀ (s : State) (v : Word) (e t : Nat), s.readsOn 144 = true → e = bitsOf v.toNat 13 8 → t = bitsOf v.toNat 3 0 →
      exec (.fctThrSel v) s = .next ((s.setReg .fctThrSel (e * 2 ^ 8 + t)).setReg .fctThrState (2 ^ 31 +
        if Config.enginePresent s.variant e then
          b2n (s.thr e t).umode * 2 ^ 30 + b2n (s.thr e t).intrap * 2 ^ 29 + (s.thr e t).inbox.length * 2 ^ 24
            + ((s.thr e t).csrAt 0x83).toNat * 2 ^ 16 + (s.thr e t).state.code
        else 0)))

/-- R479 to R484, R487: the instructions that leave the engine. -/
def Obligations.MessageInstructionsDeliverAndAnswer : Prop :=
  ∀ (s f : State) (e t : Nat) (g : Guard) (pd : Fin 8) (ra rb : Fin 32), s.issues e t g f →
    ∀ x, x = f.thr e t →
    let no (u : State) : State := (u.updThr e t fun y => y.setPred pd false).retire e t none
    let yes (u : State) : State := (u.updThr e t fun y => y.setPred pd true).retire e t none
    (∀ own : Bool, (own = true → rb = 0) → f.resumed e t = none →
      (∀ tr, f.popFrom e t own (x.reg rb) = .error tr → exec (.qpop e t g pd ra rb own none) s = .next (f.trapTo e t tr))
      ∧ (∀ n, f.popFrom e t own (x.reg rb) = .ok n →
        (∀ u tr, f.operand e t .store (x.reg ra).toNat 64 2 = (u, .error tr) →
          exec (.qpop e t g pd ra rb own none) s = .next (u.trapTo e t tr))
        ∧ (∀ u ps, f.operand e t .store (x.reg ra).toNat 64 2 = (u, .ok ps) →
          (u.mbox (e / 12) n = [] → exec (.qpop e t g pd ra rb own none) s = .next (no u))
          ∧ (∀ m rest, u.mbox (e / 12) n = m :: rest → exec (.qpop e t g pd ra rb own none) s
              = .next (yes ((((u.setMbox (e / 12) n rest).refill (e / 12) n).pmc e t 0x08 1).storeLines e t m.bytes 0 128 0 ps))))))
    ∧ (∀ m c n : Nat, m = (x.reg rb).toNat % 2 ^ 16 → c = m / 256 → n = m % 256 →
      (x.umode = true → exec (.qpush e t g pd ra rb none) s = .next (f.trapTo e t ⟨0x02, none⟩))
      ∧ (x.umode = false → 4 ≤ c → exec (.qpush e t g pd ra rb none) s = .next (f.trapTo e t ⟨0x0D, none⟩))
      ∧ (x.umode = false → c < 4 → f.mboxAbsent m = true →
          exec (.qpush e t g pd ra rb none) s = .next (f.trapTo e t ⟨0x09, none⟩))
      ∧ (x.umode = false → c < 4 → f.mboxAbsent m = false →
        ∀ u ps, f.operand e t .load (x.reg ra).toNat 64 2 = (u, .ok ps) → ∀ v b, u.loadLines e t ps = (v, b) →
        ((byteAt b 0 < 0x10 ∨ 0x7F < byteAt b 0) → exec (.qpush e t g pd ra rb none) s = .next (v.trapTo e t ⟨0x0D, none⟩))
        ∧ (0x10 ≤ byteAt b 0 → byteAt b 0 ≤ 0x7F →
          (bitOf (byteAt b 1) 0 = true ∧ 14 ≤ t ∧ mboxC0 n = true ∨ bitOf (byteAt b 1) 0 = false ∧ n ≠ 255) →
          (v.mboxRoom c n = true → ((v.clu c).held.any fun h => h.1 == n) = false →
            exec (.qpush e t g pd ra rb none) s
              = .next (yes ((v.deliver c n { bytes := withSource b e t }).pmc e t 0x09 1)))
          ∧ ((v.mboxRoom c n = false ∨ ((v.clu c).held.any fun h => h.1 == n) = true) →
            exec (.qpush e t g pd ra rb none) s = .next (no v)))))
    ∧ (∀ m n : Nat, m = (x.reg rb).toNat % 2 ^ 16 → n = m % 256 → x.umode = false → m / 256 = e / 12 → n < 192 → n / 16 = e % 12 →
      ∀ u ps, f.operand e t .load (x.reg ra).toNat 64 2 = (u, .ok ps) → ∀ v b, u.loadLines e t ps = (v, b) →
        v.mboxRoom (e / 12) n = true → ((v.clu (e / 12)).held.any fun h => h.1 == n) = false →
      ((n % 16 = 12 ∨ n % 16 = 13) →
        ((v.thr e (n % 16)).state = .halted → exec (.qhook e t g pd ra rb false none) s
          = .next (yes ((((v.deliver (e / 12) n { bytes := toLe 4 1 ++ (withSource b e t).drop 1 }).pmc e t 0x09 1).updThr e (n % 16)
              Thread.hookStart).invStart e (n % 16))))
        ∧ ((v.thr e (n % 16)).state ≠ .halted → exec (.qhook e t g pd ra rb false none) s = .next (no v)))
      ∧ ((t = 12 ∨ t = 13) → exec (.qhook e t g pd ra rb true none) s
          = .next (((((v.deliver (e / 12) n { bytes := toLe 5 1 ++ (withSource b e t).drop 1 }).pmc e t 0x09 1).updThr e t fun y =>
              { y.setPred pd true with state := .blocked, halting := true }).haltCheck e t).retire e t none)))
    ∧ (x.umode = true → ∀ ret, exec (.qhook e t g pd ra rb ret none) s = .next (f.trapTo e t ⟨0x02, none⟩))
    ∧ (∀ u ps, f.operand e t .load (x.reg ra).toNat 64 1 = (u, .ok ps) →
      ∀ w qs, u.operand e t .store (x.reg ra).toNat 64 1 = (w, .ok qs) →
      (16 ≤ w.dmaOut e t → exec (.dmad e t g pd ra none) s = .next (no w))
      ∧ (w.dmaOut e t < 16 → ∀ v b, w.loadLines e t ps = (v, b) → x.umode = false →
        exec (.dmad e t g pd ra none) s = .next (yes (((v.updThr e t fun y => { y with daddr := (x.reg ra).toNat }).pmc
          e t 0x0A 1).descIssue e t (x.reg ra).toNat (ps.headD 0) b))))
    ∧ (∀ va, va = (x.reg ra).toNat →
      (va % 32 ≠ 0 → exec (.acc e t g pd ra none) s = .next (f.trapTo e t ⟨0x03, some va⟩))
      ∧ (va % 32 = 0 → 2 ≤ f.accOut e t → exec (.acc e t g pd ra none) s = .next (no f))
      ∧ (va % 32 = 0 → f.accOut e t < 2 → x.umode = false →
        ∀ u ps, f.rangeOf e t .load (beatsAt va 1) = (u, .ok ps) → ∀ u1 h, u.loadBeats e t ps = (u1, h) →
        2 ≤ byteAt h 1 → byteAt h 1 ≤ 8 →
        ∀ u2 ps2, u1.rangeOf e t .load (beatsAt (va + 32) (byteAt h 1 - 1)) = (u2, .ok ps2) → ∀ u3 r, u2.loadBeats e t ps2 = (u3, r) →
        accBad (h ++ r) t = false → ¬ (byteAt (h ++ r) 0 = 0x10 ∧ Config.maxM u3.variant < ecM (h ++ r)) →
        ∀ u4 src, u3.rangeOf e t .load (pagePieces 18 (leAt (h ++ r) 16 8) (accSourceBytes (h ++ r))) = (u4, .ok src) →
        ∀ u5 res, u4.rangeOf e t .store (pagePieces 3 (leAt (h ++ r) 8 8) (8 + accResultBytes (byteAt (h ++ r) 0))) = (u5, .ok res) →
        exec (.acc e t g pd ra none) s = .next (yes ((u5.setClu (e / 12) { u5.clu (e / 12) with
          acc := (u5.clu (e / 12)).acc ++ [{ engine := e, thread := t, c0 := byteAt (h ++ r) 2 == 1, func := byteAt (h ++ r) 0,
                                             req := h ++ r, src, res, since := u5.now }] }).pmc e t 0x0B 1))))

/-- R361 to R364, R456, R486, R490, R513, R514. -/
def Obligations.EngineUnitsEndWhatWasIssued : Prop :=
  (∀ (s : State) (id : Nat) (d : Desc), tblFind s.fct.descs id = some d → s.streamGone d = false →
    (s.fromFace d = false ∨ d.failed = true ∨ d.chunks = []) → d.status ≠ 4 → d.status ≠ 5 →
    ∀ (start : Nat) (m : State), start = (match d.chunks with | c :: _ => c.off | [] => d.done) →
      m = d.keys.foldl (fun s k => s.dropKey k) (d.chunks.foldl (fun s c => s.moveChunk id d start c) s) →
    ∀ w : State, w = (({ m with fct := { m.fct with descs := tblDel m.fct.descs id } } : State).store (d.pa + 8)
        (toLe d.done 8)).store (d.pa + 2) (toLe d.status 1) →
      (d.status ≠ 2 → exec (.descriptorEnd id) s = .next (((w.latch d.engine d.thread 1).haltCheck d.engine d.thread).flow))
      ∧ (d.status = 2 → exec (.descriptorEnd id) s = .next ((((w.count .mmuDmaFault).updThr d.engine d.thread fun x =>
          { x with faults := x.faults ++ [BitVec.ofNat 64 (d.va + d.fault)] }).haltCheck d.engine d.thread).flow)))
  ∧ (∀ (s : State) (c i : Nat) (rest : List Nat) (a : AccReq), s.isOn (144 + c) = true → c < 4 → s.grantOrder c = i :: rest →
      (s.clu c).presented (12 * c + i) = some a →
      ∀ (alone : Bool) (k : Cluster) (u : State), alone = (rest.isEmpty && (s.clu c).park == some i) →
        k = (if alone then s.clu c
          else if a.c0 then { s.clu c with ptr0 := (i + 1) % Config.enginesPerCluster s.variant }
          else { s.clu c with ptr := (i + 1) % Config.enginesPerCluster s.variant }) →
        u = (s.setClu c { k with
          park := some i, acc := updFirst (· == a) (fun _ => { a with granted := true }) k.acc }).pmc a.engine a.thread 0x0C
            (2 * (s.now - a.since)) →
      exec (.accBusArbitration c) s = .next
        (if a.func ≠ 0x10 then u
        else if (u.pickSlice a.c0).isNone then u.count .parCtxWait
        else u.ecAssign c { a with granted := true }))
  ∧ (∀ (s : State) (e t : Nat) (a : AccReq), s.isOn (144 + e / 12) = true →
      ((s.clu (e / 12)).acc.find? fun a => a.engine == e && a.thread == t && a.granted && (a.func != 0x10 || a.slice.isSome))
        = some a → a.func ≠ 0x10 →
      ∀ w : State, w = s.storePieces a.res (toLe 1 8 ++ accValue a.req (a.src.flatMap fun p => s.mem.readN p.1 p.2)) →
      exec (.accResult e t) s = .next (((((w.setClu (e / 12) { w.clu (e / 12) with
        acc := rmFirst (· == a) (w.clu (e / 12)).acc }).freeSlice a.slice).latch e t 2).haltCheck e t).flow))
  ∧ (∀ s : State, (∀ u, s.assignStripe = some u → exec .sliceAssign s = .next u)
      ∧ (s.assignStripe = none → ∀ c a, ((List.range 4).findSome? fun c => ((s.clu c).acc.find? fun a => a.func == 0x10
            && a.granted && a.slice.isNone && (s.pickSlice a.c0).isSome).map fun a => (c, a)) = some (c, a) →
          exec .sliceAssign s = .next (s.ecAssign c a)))
  ∧ (∀ (s : State) (v : Invalidation) (rest : List Invalidation) (more : Nat), s.fct.invals = v :: rest →
      more = (rest.takeWhile fun y => y.clusters == 0).length →
      ∃ u : State, exec .invalidationComplete s = .next (u.setField .mmuInvCtl 15 0 (s.field .mmuInvCtl 15 0 + 1 + more))
        ∧ u.fct.invals = rest.drop more
        ∧ u.fct.engines = s.fct.engines.map (fun x => if bitOf v.clusters (x.1 / 12)
            then (x.1, { x.2 with tlb := x.2.tlb.filter fun y => !v.covers y }) else x)
        ∧ u.fct.clusters = (s.fct.clusters.map fun x => if bitOf v.clusters x.1
            then (x.1, { x.2 with tlb := x.2.tlb.filter fun y => !v.covers y }) else x).filter (fun x => x.2 != {})
        ∧ u.fct.threads = s.fct.threads ∧ u.fct.descs = s.fct.descs ∧ u.regs = s.regs
        ∧ u.mem = s.mem ∧ u.out = s.out)
  ∧ (∀ (s : State) (w : Word) (u : State), s.readsOn 144 = true →
      u = (s.setField .mmuInvCtl 29 28 (bitsOf w.toNat 29 28)).setField .mmuInvCtl 27 24 (bitsOf w.toNat 27 24) →
      (bitOf w.toNat 31 = false → exec (.mmuInvalidate w) s = .next u)
      ∧ (bitOf w.toNat 31 = true → 8 ≤ u.fct.invals.length → exec (.mmuInvalidate w) s = .next (u.setField .mmuInvCtl 30 30 1))
      ∧ (bitOf w.toNat 31 = true → u.fct.invals.length < 8 → ¬ (bitsOf w.toNat 27 24 = 0 ∧ u.fct.invals = []) →
        exec (.mmuInvalidate w) s = .next { u with fct := { u.fct with invals := u.fct.invals ++ [{
          scope := bitsOf w.toNat 29 28, clusters := bitsOf w.toNat 27 24, asid := u.field .mmuInvAsid 15 0,
          va := u.field .mmuInvVa 47 12 * 2 ^ 12 }] } }))
  ∧ (∀ (s : State) (w : Word) (n : Nat), s.readsOn 144 = true → n = 2 ^ (min 16 (max 8 (bitsOf w.toNat 12 8))) →
      (s.bit .pmcSmpCtl 0 = false → bitOf w.toNat 0 = true → 0x1000000000 ≤ s.smpBase → s.smpBase + 32 * n ≤ s.hbmEnd →
        exec (.pmcSampleEnable w) s
          = .next (((s.setReg .pmcSmpCtl (bitsOf w.toNat 12 8 * 2 ^ 8 + 1)).setReg .pmcSmpProd 0).setReg .pmcSmpCons 0))
      ∧ (s.bit .pmcSmpCtl 0 = false → bitOf w.toNat 0 = true → (s.smpBase < 0x1000000000 ∨ s.hbmEnd < s.smpBase + 32 * n) →
        exec (.pmcSampleEnable w) s = .next s)
      ∧ (s.bit .pmcSmpCtl 0 = true → bitOf w.toNat 0 = false →
        exec (.pmcSampleEnable w) s = .next (s.setField .pmcSmpCtl 0 0 0)))

/-- R158 to R161, R184, R201, R212, R217, R218, R694. -/
def Obligations.StrataAdminCommandsDoTheirEffect : Prop :=
  ∀ (s : State) (q cid : Nat) (c : Cmd),
    (s.adminCan q cid 0x48 c → ∀ (gi : Nat) (g : Group), gi = byteAt c.entry 8 →
        g = s.groupOfEntry c.entry (Config.groupSeed s.draws % 2 ^ 64) →
      ∃ u : State, exec (.createGroup q cid) s = .next ((g.slots.foldl (fun s sl => s.createWrites gi g sl) u).flow)
        ∧ u.str = { s.str with creating := s.str.creating ++
            [{ seq := c.seq, group := gi, shape := g, left := 4 * g.slots.length }] }
        ∧ u.draws = s.draws + 1 ∧ u.regs = s.regs ∧ u.mem = s.mem ∧ u.out = s.out ∧ u.cls = s.cls ∧ u.qpe.qps = s.qpe.qps)
    ∧ (s.adminCan q cid 0x49 c → ∀ (gi : Nat) (g : Group), gi = byteAt c.entry 8 → s.group gi = some g →
      ∀ (d w : State) (live : List Nat), d = { (s.markPast c.seq).markWaiting c.seq with str := { s.str with
          groups := tblDel s.str.groups gi
          members := s.str.members.filter fun e => e.2.group != gi
          opens := s.str.opens.filter fun o => !(o.group == gi)
          window := s.str.window.filter fun w => w.group != gi
          repairs := s.str.repairs.filter fun r => r.group != gi } } →
        w = g.slots.foldl (fun s sl => s.dropMem sl fun _ => true)
          ((s.str.opens.filter fun o => o.group == gi).foldl (fun s o => (s.freeSlice o.slice).freeHeld o.cls o.held) d) →
        live = (g.slots.filter fun sl => (w.drive sl).ready && (w.drive sl).linkUp) →
      (live ≠ [] → exec (.deleteGroup q cid) s = .next ((((live.foldl (fun s sl =>
          s.addMem sl .write 0 1 (zeros (storedBytes g.format1)) 1 (.deleteLabel (some c.seq))) w).cfgPut 0x07 gi none).touch).flow))
      ∧ (live = [] → exec (.deleteGroup q cid) s
          = .next ((((w.cfgPut 0x07 gi none).touch).finish c.seq stSuccess 0).flow)))
    ∧ (s.adminCan q cid 0x4A c → ∀ (g : Group) (v : Volume), s.group (byteAt c.entry 40) = some g →
        v = { group := byteAt c.entry 40, size := leAt c.entry 8 8, class0 := bitOf (byteAt c.entry 41) 0,
              keyed := bitOf (byteAt c.entry 41) 1, owner := leAt c.entry 44 4,
              ext := (s.freeRegions (byteAt c.entry 40) g).take (ceilDiv (leAt c.entry 8 8) g.rb),
              creating := if bitOf (byteAt c.entry 41) 0 then some c.seq else none } →
      ∃ u : State, (v.class0 = false → exec (.createVolume q cid) s = .next ((u.finish c.seq stSuccess 0).flow))
        ∧ (v.class0 = true → exec (.createVolume q cid) s = .next (((u.markWaiting c.seq).pushCreating).flow))
        ∧ u.str = { s.str with volumes := tblIns s.str.volumes (eVolume c.entry) v }
        ∧ u.sys.flash.queue = s.sys.flash.queue ++ [⟨0x08, eVolume c.entry, some (.volume { v with creating := none })⟩]
        ∧ u.regs = s.regs ∧ u.mem = s.mem ∧ u.out = s.out ∧ u.qpe.qps = s.qpe.qps ∧ u.cls = s.cls
        ∧ u.net = s.net ∧ u.fct = s.fct)
    ∧ (s.adminCan q cid 0x4B c → ∀ v : Volume, s.volume (eVolume c.entry) = some v →
      ∃ u : State, (s.str.ubl.any (fun e => e.volume == eVolume c.entry) = false →
          exec (.deleteVolume q cid) s = .next ((u.finish c.seq stSuccess 0).flow))
        ∧ (s.str.ubl.any (fun e => e.volume == eVolume c.entry) = true →
          exec (.deleteVolume q cid) s = .next (((u.putRecord v.group).finish c.seq stSuccess 0).flow))
        ∧ u.str.volumes = tblDel s.str.volumes (eVolume c.entry)
        ∧ u.str.ubl = s.str.ubl.filter (fun e => e.volume != eVolume c.entry)
        ∧ (∀ g, s.group v.group = some g → u.group v.group = some (g.addZeroing v.ext))
        ∧ u.cph.slots = s.cph.slots.filter (fun e => e.2.volume != eVolume c.entry)
        ∧ u.str.members = s.str.members ∧ u.str.opens = s.str.opens ∧ u.regs = s.regs ∧ u.mem = s.mem ∧ u.out = s.out)
    ∧ (s.adminCan q cid 0x4E c → ∀ gi sl : Nat, gi = byteAt c.entry 8 → sl = byteAt c.entry 10 →
      ∃ u : State, exec (.memberControl q cid) s = .next ((u.finish c.seq stSuccess 0).flow)
        ∧ (byteAt c.entry 9 = 0 → u = (s.markPast c.seq).startRebuild gi sl)
        ∧ (byteAt c.entry 9 = 1 → ∀ p : Policy,
            p = (if byteAt c.entry 11 = 1 then .auto else if byteAt c.entry 11 = 2 then .heldP else .dflt) →
          u = (((((s.markPast c.seq).updGroup gi fun g => { g with policySet := p }).resolvePolicy gi).autoAct gi).putRecord
            gi).touch)
        ∧ (byteAt c.entry 9 = 2 → u = (s.markPast c.seq).memberMissing sl)
        ∧ (byteAt c.entry 9 = 3 → u = (s.markPast c.seq).adoptCommand gi sl))
    ∧ (∀ b : Bytes, (∀ (i : Instr) (op : Nat),
          i = .identifyVolume q cid ∧ op = 0x4C
            ∧ (∃ v g, s.target c = some (v, g) ∧ b = s.identifyBytes v.group g (some v))
          ∨ i = .identifyGroup q cid ∧ op = 0x4D
            ∧ (∃ g, s.group (byteAt c.entry 8) = some g ∧ b = s.identifyBytes (byteAt c.entry 8) g none)
          ∨ i = .listBlocks q cid ∧ op = 0x4F ∧ b = s.listBytes c.entry →
        s.adminCan q cid op c →
        exec i s = .next (((s.hostPut (eMkey c.entry) (eAddr c.entry) c.cls c.seq b).finish c.seq stSuccess 0).flow)))
    ∧ (s.adminCan q cid 0x60 c → ∀ base len : Nat, base = s.fatalBase + (if byteAt c.entry 8 = 1 then 2 ^ 27 else 0) →
        len = s.mem.readLe (base + 48) 4 → ∀ b : Bytes,
        b = s.mem.readN (base + leAt c.entry 40 4) (min (eLen c.entry) (len - leAt c.entry 40 4)) →
      (byteAt c.entry 9 ≠ 1 → exec (.getFatal q cid) s
        = .next (((s.hostPut (eMkey c.entry) (eAddr c.entry) c.cls c.seq b).finish c.seq stSuccess len).flow))
      ∧ (byteAt c.entry 9 = 1 → ∀ u : State, u = (if byteAt c.entry 8 = 1 then s.setField .sysFatal 30 30 0
          else s.setField .sysFatal 31 31 0).markPast c.seq → exec (.getFatal q cid) s
        = .next (((u.hostPut (eMkey c.entry) (eAddr c.entry) c.cls c.seq b).finish c.seq stSuccess len).flow)))

/-- R244 to R247, R249, R255. -/
def Obligations.ShaperCommandsSetTheEntryTheyName : Prop :=
  (∀ (s : State) (q cid : Nat) (c : Cmd), s.adminCan q cid 0x50 c → ∀ (v : Shaper) (t fl : Nat) (m : State), v = shaperOf c.entry →
      t = leAt c.entry 40 4 → fl = byteAt c.entry 46 → m = (s.markPast c.seq).markWaiting c.seq →
    (bitOf fl 1 = true → ∃ u : State, exec (.setShaper q cid) s = .next u.touch ∧ u.cls = { s.cls with dflt := v }
        ∧ u.sys.flash.queue = s.sys.flash.queue ++ [⟨0x09, 0xFFFFFFFF, some (.shaper v)⟩]
        ∧ u.qpe = m.qpe ∧ u.regs = s.regs ∧ u.mem = s.mem ∧ u.out = s.out)
    ∧ (bitOf fl 1 = false → bitOf fl 2 = true → ∀ e, s.shaper t = some e → ∃ u : State,
        exec (.setShaper q cid) s = .next u.touch
        ∧ u.shaper t = some { e with pending := some { e.charged with c0 := false, c0Port := 0, c0Group := 0 }, written := false
                                     remove := true }
        ∧ (∀ k, k ≠ t → u.shaper k = s.shaper k)
        ∧ u.sys.flash.queue = s.sys.flash.queue ++ [⟨0x09, t, none⟩]
        ∧ u.qpe = m.qpe ∧ u.regs = s.regs ∧ u.mem = s.mem ∧ u.out = s.out)
    ∧ (bitOf fl 1 = false → bitOf fl 2 = false → ∃ u : State, exec (.setShaper q cid) s = .next u.touch
        ∧ (∀ e, s.shaper t = some e → u.shaper t = some { e with pending := some v, written := true, remove := false })
        ∧ (s.shaper t = none → u.shaper t = some { newShaperEntry v with val := s.shaperVal t, pending := some v, written := true })
        ∧ (∀ k, k ≠ t → u.shaper k = s.shaper k)
        ∧ u.sys.flash.queue = s.sys.flash.queue ++ [⟨0x09, t, some (.shaper v)⟩]
        ∧ u.qpe = m.qpe ∧ u.regs = s.regs ∧ u.mem = s.mem ∧ u.out = s.out))
  ∧ (∀ (s : State) (w : Word) (m : State), s.readsOn 161 = true →
      m = s.setReg .clsShpCfg (w.toNat % 2 ^ 24 - bitsOf w.toNat 12 10 * 2 ^ 10) → ∀ (v : Shaper) (t : Nat) (d : Bool),
      v = m.stagedShaper → d = bitOf (m.reg .clsShpSel) 31 → t = bitsOf (m.reg .clsShpSel) 19 0 →
      let fits := (m.shaperFails v).isEmpty = true ∧ (d = true ∧ v.c0 = false ∨ d = false ∧ t ≠ 0
        ∧ (∀ x, m.shaper t = some x → x.written = true ∨ m.writtenShapers < m.qpCount)
        ∧ (m.shaper t = none → m.writtenShapers < m.qpCount) ∧ (v.c0 = false ∨ m.chargeFits (m.chargedOf t) v = true))
      (fits → d = true → exec (.shaperCommit w) s = .next ((m.setField .clsShpState 30 30 0).setDefaults v))
      ∧ (fits → d = false → exec (.shaperCommit w) s = .next ((m.setField .clsShpState 30 30 0).applyShaper t v))
      ∧ (¬ fits → exec (.shaperCommit w) s = .next (m.setField .clsShpState 30 30 1)))
  ∧ (∀ (s : State) (w : Word) (t : Nat) (d : Bool) (e : Option ShaperEntry) (v : Shaper) (m : State), s.readsOn 161 = true →
      t = w.toNat % 2 ^ 20 → d = bitOf w.toNat 31 → e = (if d then none else s.shaper t) →
      v = (match e with | some e => e.val | none => s.cls.dflt) →
      m = ((((s.setReg .clsShpSel (bitsOf w.toNat 31 31 * 2 ^ 31 + t)).setReg .clsShpCir v.cir).setReg .clsShpPir v.pir).setReg
        .clsShpBurst (v.cbs * 2 ^ 16 + v.pbs)).setReg .clsShpCfg (v.c0Group * 2 ^ 18 + v.c0Port * 2 ^ 14 + b2n v.c0 * 2 ^ 13
          + v.xferCap) →
      (e = none → exec (.clsShpSel w) s = .next (m.setReg .clsShpState
        (2 ^ 31 + m.field .clsShpState 30 30 * 2 ^ 30 + b2n d * 2 ^ 29 + 0 * 2 ^ 26 + 0 * 2 ^ 13 + 0)))
      ∧ (∀ x, e = some x → exec (.clsShpSel w) s = .next (m.setReg .clsShpState
        (2 ^ 31 + m.field .clsShpState 30 30 * 2 ^ 30 + 2 ^ 29
          + min 7 (s.qpe.cmds.filter fun c => c.held && (s.qp c.qp).tenant == t).length * 2 ^ 26
          + min 0x1FFF (x.c / 1000000) * 2 ^ 13 + min 0x1FFF (x.p / 1000000)))))
  ∧ (∀ (s : State) (w : Word), s.readsOn 161 = false → exec (.shaperCommit w) s = .next s ∧ exec (.clsShpSel w) s = .next s)

/-- R271 to R274, R278, R288, R304, R310. -/
def Obligations.NetworkAdminCommandsChangeTheirTable : Prop :=
  (∀ (s : State) (q cid : Nat) (c : Cmd),
    (s.adminCan q cid 0x54 c → ∀ (sub : Nat) (v : Option IpAddr), sub = 4 * byteAt c.entry 8 + byteAt c.entry 9 →
        v = (if byteAt c.entry 13 = 1 then none else some { addr := addrOf c.entry, pfx := byteAt c.entry 12 }) →
      ∃ u : State, exec (.setAddress q cid) s = .next ((u.touch.finish c.seq stSuccess 0).flow)
        ∧ u.net = { s.net with
            addr := tblPut {} s.net.addr sub ((tblGet {} s.net.addr sub).put (byteAt c.entry 10) (byteAt c.entry 11) v) }
        ∧ (∀ k, k ≠ sub → tblGet {} u.net.addr k = tblGet {} s.net.addr k)
        ∧ u.sys.flash.queue = s.sys.flash.queue
          ++ [⟨0x0A, addrKey sub (byteAt c.entry 10) (byteAt c.entry 11), v.map fun a => .address a.addr a.pfx⟩]
        ∧ u.regs = s.regs ∧ u.mem = s.mem ∧ u.out = s.out ∧ u.qpe.qps = s.qpe.qps ∧ u.str = s.str)
    ∧ (s.adminCan q cid 0x53 c → ∀ (i : Nat) (a : RoceAllow), i = leAt c.entry 12 2 →
        a = { mac := byteAt c.entry 8, sub := byteAt c.entry 9, family := byteAt c.entry 10, cls := byteAt c.entry 11,
              tenant := leAt c.entry 20 4, host := ipOf c.entry (byteAt c.entry 10) } →
      ∃ u : State, exec (.roceAllow q cid) s = .next ((u.touch.finish c.seq stSuccess 0).flow)
        ∧ (byteAt c.entry 14 ≠ 1 → tblFind u.net.allow i = some a ∧ u.sys.flash.queue
            = s.sys.flash.queue ++ [⟨0x0B, i, some (.allow a)⟩])
        ∧ (byteAt c.entry 14 = 1 → u.net.allow = tblDel s.net.allow i ∧ u.sys.flash.queue = s.sys.flash.queue ++ [⟨0x0B, i, none⟩])
        ∧ (∀ k, k ≠ i → tblFind u.net.allow k = tblFind s.net.allow k) ∧ u.net.addr = s.net.addr ∧ u.net.odt = s.net.odt
        ∧ u.net.roce = s.net.roce ∧ u.regs = s.regs ∧ u.mem = s.mem ∧ u.out = s.out ∧ u.qpe.qps = s.qpe.qps ∧ u.str = s.str)
    ∧ (s.adminCan q cid 0x51 c → ∀ (n k : Nat), n = leAt c.entry 56 4 → k = (if bitOf n 31 then s.pickConn else n) →
      ∃ u : State, exec (.odtConnect q cid) s = .next ((u.touch.finish c.seq stSuccess k).flow)
        ∧ u.odtConn k = { state := .opening, mac := byteAt c.entry 8, sub := byteAt c.entry 9, family := byteAt c.entry 10
                          seg := 1024 * 2 ^ byteAt c.entry 11, rport := leAt c.entry 12 2
                          raddr := ipOf c.entry (byteAt c.entry 10), dbWin := leAt c.entry 14 2, tenant := leAt c.entry 20 4
                          credit := leAt c.entry 24 4, lastRx := s.now, lastTx := s.now, since := s.now }
        ∧ (∀ j, j ≠ k → u.odtConn j = s.odtConn j)
        ∧ u.regs = s.regs ∧ u.mem = s.mem ∧ u.out = s.out ∧ u.qpe.qps = s.qpe.qps ∧ u.str = s.str ∧ u.still = s.still)
    ∧ (s.adminCan q cid 0x52 c → ∀ (k : Nat) (x : OdtConn) (m : OdtOut) (o : Out) (d u : State), k = leAt c.entry 56 4 →
        x = s.odtConn k → m = .keepalive ((x.hseq + 1) % 2 ^ 32) →
        o = .odt k 0 (0x80 + b2n x.ece) x.dseq x.hseq m (odtBytes x.tenant k 0 (0x80 + b2n x.ece) x.dseq x.hseq m) →
        d = (s.markPast c.seq).dropHeld k →
        u = (if d.serves then d.sendOrHold { mac := x.mac, sub := x.sub, cls := 0, what := .frame true true o } else d) →
      ∃ w : State, exec (.odtClose q cid) s = .next ((w.touch.finish c.seq stSuccess 0).flow)
        ∧ w = (u.dropEgress fun y => match y.what with | .odt c _ _ _ => c != k | _ => true).setOdt k {}
        ∧ (tblSorted none u.net.odt = true → w.odtConn k = {}) ∧ (∀ a, tblFind w.net.odt a = tblFind u.net.odt a ∨ a = k)))
  ∧ (∀ (s : State) (v : Word) (k : Nat) (x : OdtConn), s.readsOn 0 = true → k = v.toNat % 2 ^ 16 →
      x = (if k < s.odtCount then s.odtConn k else {}) →
      (x.state = .closed → exec (.netOdtSel v) s = .next ((((s.setReg .netOdtSel k).setReg .netOdtState
        (2 ^ 31 + x.state.code * 2 ^ 28 + 0)).setReg .netOdtHseq 0).setReg .netOdtDseq 0))
      ∧ (x.state ≠ .closed → exec (.netOdtSel v) s = .next ((((s.setReg .netOdtSel k).setReg .netOdtState
        (2 ^ 31 + x.state.code * 2 ^ 28 + (x.mac * 2 ^ 25 + x.sub * 2 ^ 23 + x.tenant))).setReg .netOdtHseq x.hseq).setReg
          .netOdtDseq x.dseq)))

/-- R450 to R453, R600, R652, R655, R674, R675, R678. -/
def Obligations.ExtensionFirmwareAndSlotCommandsDoTheirEffect : Prop :=
  ∀ (s : State) (q cid : Nat) (c : Cmd),
    (s.adminCan q cid 0x5B c → ∀ sl : Nat, sl = byteAt c.entry 8 →
      (byteAt c.entry 9 = 0 → ∀ b : Bytes, s.bufferIn c b → (b.length = 193 → s.signed (b.take 97) (b.drop 97) none = true) →
        ∃ u : State, exec (.setSigner q cid) s = .next (u.bothForce c.seq [(0x03, sl)] 0)
          ∧ (s.paired = false → u = ({ s with fct := { s.fct with signers := tblIns s.fct.signers sl (b.take 97) } } : State).cfgPut
            0x03 sl (some (.signer (b.take 97))))
          ∧ (s.paired = true → u = (({ s with fct := { s.fct with signers := tblIns s.fct.signers sl (b.take 97) } } : State).cfgPut
            0x03 sl (some (.signer (b.take 97)))).sendBulk (.signer sl) (b.take 97) (some c.seq)))
      ∧ (byteAt c.entry 9 = 1 → ∃ u : State, exec (.setSigner q cid) s = .next (u.bothForce c.seq [(0x03, sl)] 0)
          ∧ u.fct = { s.fct with signers := tblDel s.fct.signers sl }
          ∧ u.sys.flash.queue = s.sys.flash.queue ++ [⟨0x03, sl, none⟩]
          ∧ u.regs = s.regs ∧ u.mem = s.mem ∧ u.out = s.out ∧ u.qpe = s.qpe ∧ u.str = s.str))
    ∧ (s.adminCan q cid 0x5C c → ∀ (sl : Nat) (b : Bytes), sl = byteAt c.entry 8 → s.bufferIn c b →
      (extHeaderOk b = false → exec (.loadExt q cid) s = .next ((s.finish c.seq stInvalidField 8).flow))
      ∧ (extHeaderOk b = true → b.length ≠ 256 + leAt b 12 4 + leAt b 16 4 →
          exec (.loadExt q cid) s = .next ((s.finish c.seq stInvalidField 28).flow))
      ∧ (extHeaderOk b = true → b.length = 256 + leAt b 12 4 + leAt b 16 4 → ∀ ok : Bool,
          ok = s.signed (b.take 96 ++ zeros 96 ++ b.drop 192) ((b.drop 96).take 96) (some ((b.drop 48).take 48)) →
        (ok = false → exec (.loadExt q cid) s = .next (((s.count .fctSigFail).finish c.seq stInvalidField 8).flow))
        ∧ (ok = true → ∀ w : State, w = ({ s with fct := { s.fct with images := tblIns s.fct.images sl b } } : State).cfgPut
              0x0C sl (some (.image b)) →
          exec (.loadExt q cid) s = .next ((if s.paired then w.sendBulk (.image sl) b (some c.seq) else w).bothForce
            c.seq [(0x0C, sl)] 0))))
    ∧ (s.adminCan q cid 0x5D c → ∀ (id : Nat) (a : Attachment), id = s.freeAtt →
        a = { image := byteAt c.entry 8, hook := byteAt c.entry 9, kind := byteAt c.entry 10, failAction := byteAt c.entry 11
              budget := leAt c.entry 12 4, period := leAt c.entry 16 4, tenant := leAt c.entry 20 4
              target := leAt c.entry 56 4, due := s.now + leAt c.entry 16 4 * msec } →
      ∃ u : State, exec (.attachHook q cid) s = .next (u.bothForce c.seq (if a.kind = 0 then [(0x0D, id)] else []) id)
        ∧ tblFind u.fct.atts id = some a ∧ (∀ k, k ≠ id → tblFind u.fct.atts k = tblFind s.fct.atts k)
        ∧ u.sys.flash.queue = s.sys.flash.queue ++ (if a.kind = 0 then [⟨0x0D, id, some (.attach a)⟩] else [])
        ∧ u.fct.images = s.fct.images ∧ u.regs = s.regs ∧ u.mem = s.mem ∧ u.out = s.out ∧ u.qpe = s.qpe)
    ∧ (s.adminCan q cid 0x5E c → ∀ (id : Nat) (a : Attachment) (w : State), id = leAt c.entry 56 4 →
        tblFind s.fct.atts id = some a → w = (({ s with fct := { s.fct with
          atts := tblIns s.fct.atts id { a with detach := some c.seq } } } : State).markPast c.seq).markWaiting c.seq →
      exec (.detachHook q cid) s = .next ((((w.endWaiting id { a with detach := some c.seq } .gone).detachCheck id).flow))
      ∧ ((s.fct.invs.any fun i => i.att == id) = false → ∀ v : State,
          v = { w with fct := { w.fct with atts := tblDel w.fct.atts id } } →
        exec (.detachHook q cid) s = .next ((if a.kind = 0 then (v.cfgPut 0x0D id none).bothForce c.seq [(0x0D, id)] 0
          else v.bothForce c.seq [] 0).flow)))
    ∧ (s.adminCan q cid 0x5F c → ∀ i : Nat, i = byteAt c.entry 8 →
      ∃ u : State, exec (.unloadExt q cid) s = .next (u.bothForce c.seq [(0x0C, i)] 0)
        ∧ u.fct = { s.fct with images := tblDel s.fct.images i } ∧ (∀ k, k ≠ i → tblFind u.fct.images k = tblFind s.fct.images k)
        ∧ u.sys.flash.queue = s.sys.flash.queue ++ [⟨0x0C, i, none⟩]
        ∧ u.regs = s.regs ∧ u.mem = s.mem ∧ u.out = s.out ∧ u.qpe = s.qpe ∧ u.str = s.str)
    ∧ (s.adminCan q cid 0x46 c → ∀ (i off : Nat) (b : Bytes), i = byteAt c.entry 8 → off = leAt c.entry 40 4 → s.bufferIn c b →
      ∃ u : State, exec (.fwDownload q cid) s = .next ((if s.paired then u.sendBulk (.firmware i off) b (some c.seq)
          else u).bothForce c.seq [] 0)
        ∧ (∀ k, k ≠ i → tblFind u.sys.slots k = tblFind s.sys.slots k)
        ∧ (∃ o : Bytes, tblFind u.sys.slots i = some (o.take off ++ b ++ o.drop (off + b.length)))
        ∧ u.out = .flash "SLOT" (0x100000 + i * 0xF00000 + off) b :: s.out
        ∧ u.regs = s.regs ∧ u.mem = s.mem ∧ u.qpe = s.qpe ∧ u.str = s.str ∧ u.shd = s.shd)
    ∧ (s.adminCan q cid 0x47 c → ∀ sl : Nat, sl = byteAt c.entry 8 →
      (byteAt c.entry 9 = 1 → exec (.fwActivate q cid) s = .next ((if (s.putPointer sl 1).paired
          then (s.putPointer sl 1).sendBulk (.pointer sl 1) [] (some c.seq) else s.putPointer sl 1).bothForce c.seq [] 0))
      ∧ (byteAt c.entry 9 ≠ 1 → ∀ w v : State, w = ((s.markPast c.seq).markWaiting c.seq).setField .sysFwact 15 0 0 →
          v = (if s.shd.role = .active then w.sendBulk (.pointer sl 0) [] none else w) →
        exec (.fwActivate q cid) s = .next (v.setActivation
          { seq := c.seq, slot := sl, old := v.sys.running, phase := if v.shd.role = .active then 1 else 2 })))
    ∧ (s.adminCan q cid 0x56 c → ∀ (sl act : Nat), sl = byteAt c.entry 8 → act = byteAt c.entry 9 →
      ∀ done : State → State, done = (fun u => (u.slotRecord sl).bothForce c.seq [(0x0E, Reg.off .spmSlotCtl sl)] 0) →
      (act = 0 → exec (.slotControl q cid) s = .next (done (s.writeEn sl true)))
      ∧ (act = 1 → (s.slot sl).state ≠ .on → exec (.slotControl q cid) s = .next (done (s.writeEn sl false)))
      ∧ (act = 1 → (s.slot sl).state = .on → (s.slot sl).shutdown = none → ∃ u : State,
          exec (.slotControl q cid) s = .next u ∧ u.out = .driveCtl sl "SHUTDOWN" :: s.out
            ∧ u.spm.slots = tblPut {} s.spm.slots sl { s.slot sl with shutdown := some (s.now, [c.seq]) }
            ∧ u.regs = s.regs ∧ u.mem = s.mem ∧ u.str = s.str)
      ∧ (act = 1 → (s.slot sl).state = .on → ∀ t l, (s.slot sl).shutdown = some (t, l) → ∃ u : State,
          exec (.slotControl q cid) s = .next u ∧ u.out = s.out
            ∧ u.spm.slots = tblPut {} s.spm.slots sl { s.slot sl with shutdown := some (t, l ++ [c.seq]) }
            ∧ u.regs = s.regs ∧ u.mem = s.mem ∧ u.str = s.str)
      ∧ (act = 2 → exec (.slotControl q cid) s = .next (done (s.slotCycle sl)))
      ∧ (2 < act → exec (.slotControl q cid) s = .next (done (s.slotRelease sl))))
    ∧ (s.adminCan q cid 0x40 c →
      (s.sys.orderly.isSome = true → exec (.resetController q cid) s
        = .next (((s.markPast c.seq).finish c.seq stSuccess 0).flow))
      ∧ (s.sys.orderly = none → s.sys.activation.isSome = true → ∃ u : State, exec (.resetController q cid) s = .next u
          ∧ u.sys = { s.sys with orderly := some (5, .activation c.seq) } ∧ u.regs = s.regs ∧ u.mem = s.mem ∧ u.out = s.out)
      ∧ (s.sys.orderly = none → s.sys.activation = none → ∀ v : State,
          v = (((s.markPast c.seq).finish c.seq stSuccess 0).flow) → exec (.resetController q cid) s
            = .next (({ v with sys := { v.sys with orderly := some (5, .posting c.seq) } } : State).orderlyStep)))

/-- R84, R121, R123 to R125, R130, R136, R145, R156, R178, R201, R358. -/
def Obligations.HostCommandsRunTheirSteps : Prop :=
  ∀ (s : State) (q cid : Nat) (c : Cmd) (v : Volume) (g : Group), s.target c = some (v, g) →
    (s.carried q cid opRead = some c → c.begun = false →
      (s.groupDown v g = true → exec (.read q cid) s = .next ((s.endEarly c.seq stGroupFailed).flow))
      ∧ (s.groupDown v g = false → s.stepThread c = true → s.overlapWaits c = true →
          exec (.read q cid) s = .next (s.endStep c))
      ∧ (s.groupDown v g = false → s.stepThread c = true → s.overlapWaits c = false →
        (∀ b st, s.readMasked c v g = some (b, st) → exec (.read q cid) s = .next ((s.finish c.seq st b).flow))
        ∧ (s.readMasked c v g = none → ∀ rs : List ReadRun, rs = readRuns v g (eSlba c.entry) (eNblk c.entry) →
          (rs.any (s.stripeWaits v.group g.erasure) = true → exec (.read q cid) s = .next (s.endStep c))
          ∧ (rs.any (s.stripeWaits v.group g.erasure) = false → ∀ cut : List ReadRun,
              cut = rs.flatMap (fun r => if s.sharedRoom (slotPort (g.home r.stripe r.unit).slot) = 0 ∧ c.cls ≠ 0
                then cutRun 8 r.n r else [r]) →
            exec (.read q cid) s = .next ((((cut.foldl (fun s r => s.runIssue c g r)
              (s.updCmd c.seq fun c => { c with begun := true, runs := cut })).endStep c).readEnd c.seq).flow)))))
    ∧ (∀ (i : Instr) (op : Nat), i = .write q cid ∧ op = opWrite ∨ i = .writeZeroes q cid ∧ op = opZeroes
          ∨ i = .trim q cid ∧ op = opTrim → s.carried q cid op = some c → c.begun = false →
      (s.groupDown v g = true → exec i s = .next ((s.endEarly c.seq stGroupFailed).flow))
      ∧ (s.groupDown v g = false → s.stepThread c = true → ∀ (w : State) (d : Cmd), s.genStep c v g = (w, true) →
          w.cmd c.seq = some d → d.seq = c.seq → ∀ k : KeyEntry, k = w.keyAt (keyIndex (eMkey d.entry)) →
        (op = opWrite → k.kind = 0 → w.funcSends (k.binding % 64) = false →
          exec i s = .next (w.masterDisabled (k.binding % 64) (some c.seq)))
        ∧ ((op = opWrite → k.kind = 0 → w.funcSends (k.binding % 64) = true) → ∀ (b : Cmd) (u : State),
            b = { d with begun := true, todo := writeStripes d v g } →
            u = w.updCmd c.seq (fun c => { c with begun := true, todo := writeStripes c v g }) →
          exec i s = .next ((if d.cls = 0 then u.c0Reserve b v g else u.spaceTake b v g).endStep b)))
      ∧ (s.groupDown v g = false → s.stepThread c = true → ∀ (w : State) (d : Cmd), s.genStep c v g = (w, false) →
          w.cmd c.seq = some d → exec i s = .next (w.endStep d)))
    ∧ (s.writing q cid = some c → ∀ (st : Nat) (tl : List Nat), c.todo = st :: tl → s.serves = true →
        s.overlapWaits c = false → rowPresent c v g st = true → s.openAt v.group st = none → s.uncleaning v.group = false →
        s.groupDown v g = false → (s.missing g st).length ≤ g.tol → s.journalFree (c.cls == 0) = true →
      (∀ w, s.setBit v.group (g.regionOf st) c.cls (some c.seq) = (w, false) → exec (.stripeOpen q cid) s = .next w)
      ∧ (∀ w u, s.setBit v.group (g.regionOf st) c.cls (some c.seq) = (w, true) →
          w.winAdmit v.group (g.regionOf st) v.class0 = (u, true) → exec (.stripeOpen q cid) s = .next (u.openStripe c v g st))
      ∧ (∀ w u, s.setBit v.group (g.regionOf st) c.cls (some c.seq) = (w, true) →
          w.winAdmit v.group (g.regionOf st) v.class0 = (u, false) → exec (.stripeOpen q cid) s
            = .next (if c.winWaited then u else (u.count .strWinWait).updCmd c.seq fun c => { c with winWaited := true })))
    ∧ (s.writing q cid = some c → c.cls ≠ 0 → eOpcode c.entry = opWrite → c.pull = none →
        exec (.stagingReserve q cid) s = .next (s.spaceTake c v g))
    ∧ (s.writing q cid = some c → c.cls = 0 → c.pull = none → exec (.c0PoolReserve q cid) s = .next (s.c0Reserve c v g))

/-- R132, R146, R173, R231, R235 to R237, R424, R425, R439, R685. -/
def Obligations.ServicePointsServeInTheirOrder : Prop :=
  (∀ (s w : State) (k : Nat), s.readsOn 161 = true → k < 4 → w = s.dispatch k →
    (w.cls.busy = s.cls.busy → exec (.dispatch k) s = .next w)
    ∧ (∀ e t q i c, w.cls.busy = s.cls.busy ++ [(e, t, q, i)] →
        w.qpe.cmds.find? (fun c => c.thread == some (e, t) && c.phase == .dispatched) = some c →
        exec (.dispatch k) s = .next (w.tellThread 0x01 c (some c.entry)))
    ∧ (s.clusterStalled k = true → w = s)
    ∧ (s.clusterStalled k = false → ∀ a : State, a = s.syncDispatch k →
      (∀ c, firstReady ((a.readyCmds k).filter fun c => c.cls == 0) = some c →
        (∀ e t, a.reservedThread (a.qp c.qp).home = some (e, t) →
          w = (a.dispatchTo c e t).clsCount .clsC0Dispatch (a.qp c.qp).tenant 5)
        ∧ (a.reservedThread (a.qp c.qp).home = none → w = a))
      ∧ (firstReady ((a.readyCmds k).filter fun c => c.cls == 0) = none → ∀ f turn p c t,
          (a.cls.dispatch.getD k {}).pick (fun f => (a.freeThread (a.qp f.qp).home (List.range 12)).isSome) = (some (f, turn), p) →
          ∀ mine, mine = (a.readyCmds k).filter (fun c => c.cls == f.cls && c.qp == f.qp) → firstReady mine = some c →
          a.freeThread (a.qp f.qp).home (List.range 12) = some t →
          w = State.dispatchTo { a with cls := { a.cls with
            dispatch := setAt a.cls.dispatch k (p.served f turn (mine.length == 1) (a.quantum f.cls)) } } c (a.qp c.qp).home t)))
  ∧ (∀ (s a : State) (pt : Nat) (units : List EgUnit), s.readsOn 161 = true → pt < 10 → a = s.syncEgress pt →
      units = a.net.egress.filter (fun u => u.point == pt && !(u.held && a.laneHolds pt)) →
    (∀ u, units.find? (fun u => u.cls == 0) = some u →
      (a.egressCan u = true → exec (.egressServe pt) s = .next (({ a with net := { a.net with
          egress := rmFirst (fun x => x == u) a.net.egress } } : State).egressSend u))
      ∧ (a.egressCan u = false → exec (.egressServe pt) s = .next a))
    ∧ (units.find? (fun u => u.cls == 0) = none → ∀ (head : Flow → Option EgUnit) (can : Flow → Bool),
        head = (fun f => units.find? fun u => u.cls == f.cls) →
        can = (fun f => (head f).any a.egressCan) →
      (∀ p, (tblGet {} a.cls.egress pt).pick can = (none, p) →
        exec (.egressServe pt) s = .next { a with cls := { a.cls with egress := tblIns a.cls.egress pt p } })
      ∧ (∀ f turn p u, (tblGet {} a.cls.egress pt).pick can = (some (f, turn), p) → head f = some u →
        exec (.egressServe pt) s = .next (State.egressSend { a with
          cls := { a.cls with egress := tblIns a.cls.egress pt (p.served f turn ((units.filter fun x => x.cls == f.cls).length == 1) (a.quantum f.cls) (if u.more then 0 else 1)) }
          net := { a.net with egress := rmFirst (fun x => x == u) a.net.egress } } u))))
  ∧ (∀ (s a : State) (sl : Nat), s.slotServes sl = true → s.readsOn 161 = true → a = s.syncDrive sl →
    (∀ m, (a.waitingAt sl).find? (fun m => m.cls == 0) = some m → ∀ ok : Bool, ok = (a.memCan m && decide
        ((a.str.mem.filter fun m => m.slot == sl && m.issued.isSome && m.cls == 0).length < 256)) →
      exec (.driveIssue sl) s = .next (if ok then a.issueMem m else a))
    ∧ ((a.waitingAt sl).find? (fun m => m.cls == 0) = none → ∀ (head : Flow → Option MemCmd) (can : Flow → Bool),
        head = (fun f => (a.waitingAt sl).find? fun m => m.cls == f.cls) →
        can = (fun f => (head f).any a.memCan) →
      (∀ p, (tblGet {} a.cls.drive sl).pick can = (none, p) →
        exec (.driveIssue sl) s = .next { a with cls := { a.cls with drive := tblPut {} a.cls.drive sl p } })
      ∧ (∀ f turn p m, (tblGet {} a.cls.drive sl).pick can = (some (f, turn), p) → head f = some m →
        exec (.driveIssue sl) s = .next (State.issueMem { a with cls := { a.cls with drive := tblPut {} a.cls.drive sl (p.served f turn (((a.waitingAt sl).filter fun x => x.cls == f.cls).length == 1) (a.quantum f.cls)) } } m)))
    ∧ ∀ m, (a.issueMem m).out = .drive m.id m.slot m.op m.lba m.n (m.op == .write || m.op == .writeZeroes) (a.memData m) :: a.out)
  ∧ (∀ (s : State) (sl id st : Nat) (b : Bytes),
    (s.str.mem.find? (fun m => m.slot == sl && m.id == id && m.issued.isSome) = none → sl < Config.slots s.variant →
        s.readsOn (32 + sl) = true → exec (.memberCompletion sl id st b) s = .next ((s.err 10).count .sysInBad))
    ∧ (∀ m, s.str.mem.find? (fun m => m.slot == sl && m.id == id && m.issued.isSome) = some m → s.ownerOf m = none →
        ∀ one : State, one = s.dropMem sl (fun x => x.id == id) →
      (st = 0 → exec (.memberCompletion sl id st b) s
        = .next ((one.memEnd m (some (fitBytes (m.n * s.slotStored sl) b)) false).flow))
      ∧ (st = 0x281 → m.op = .read → exec (.memberCompletion sl id st b) s = .next ((one.memEnd m none true).flow))
      ∧ (st ≠ 0 → ¬ (st = 0x281 ∧ m.op = .read) → m.op ≠ .acquire → s.takesWrites sl = true →
          exec (.memberCompletion sl id st b) s = .next (s.memberMissing sl))
      ∧ (st ≠ 0 → ¬ (st = 0x281 ∧ m.op = .read) → (m.op = .acquire ∨ s.takesWrites sl = false) →
          exec (.memberCompletion sl id st b) s = .next ((one.memEnd m none false).flow)))
    ∧ (∀ m c, s.str.mem.find? (fun m => m.slot == sl && m.id == id && m.issued.isSome) = some m → s.ownerOf m = some c →
        exec (.memberCompletion sl id st b) s = .next ((s.memberCompletion sl id st b).memberDone c.seq
          (if m.op = .read ∧ st = 0 then some b else none))))
  ∧ (∀ (s : State) (gi x : Nat) (w : WinRegion), s.str.window.find? (fun w => w.group == gi && w.region == x) = some w →
      w.class0 = false → w.leaving = false → w.acked = true → s.regionOpen gi x = false →
      exec (.windowRegionIdle gi x) s = .next ((((s.advanceTo (w.last + 1000 * msec)).winLeave gi x).pushCreating).flow))
  ∧ (∀ (s d : State) (id : Nat) (a : Attachment), tblFind s.fct.atts id = some a → a.hook = 2 → a.detach = none →
      d = s.advanceTo a.due →
    ∃ u : State, exec (.tenantPolicyPeriod id) s = .next u
      ∧ u.fct.atts = tblIns d.fct.atts id { a with due := a.due + a.period * msec }
      ∧ (d.shaper a.target = none → u.fct.invs = d.fct.invs ++ if a.suspended then [] else
          [{ att := id, engine := d.policyEngine a.target, cmd := none, input := policyInput d.cls.dflt [0, 0, 0, 0, 0, 0] }])
      ∧ (∀ e, d.shaper a.target = some e → (tblFind u.cls.shapers a.target = some { e with counts := [0, 0, 0, 0, 0, 0] })
          ∧ u.fct.invs = d.fct.invs ++ if a.suspended then [] else
            [{ att := id, engine := d.policyEngine a.target, cmd := none, input := policyInput e.val e.counts }])
      ∧ (∀ t, t ≠ a.target → tblFind u.cls.shapers t = tblFind d.cls.shapers t)
      ∧ u.regs = d.regs ∧ u.mem = d.mem ∧ u.out = d.out ∧ u.qpe = d.qpe ∧ u.str = d.str)

/-- R109, R116, R173, R178, R184, R185, R188, R189, R191, R667, R670, R672. -/
def Obligations.DriveEventsDoTheirEffect : Prop :=
  (∀ (s : State) (sl id : Nat) (m : MemCmd) (t : Nat), s.str.mem.find? (fun m => m.slot == sl && m.id == id) = some m →
      m.issued = some t → exec (.memberCommandTimeout sl id) s = .next (((s.advanceTo (t + 2000 * msec)).err 10).driveLost sl))
  ∧ (∀ (s : State) (sl : Nat) (t : Nat) (d : Drive), d = s.drive sl → d.downSince = some t →
      exec (.driveLinkDownTimeout sl) s = .next ((((s.advanceTo (t + 100 * msec)).err 10).setDrive sl
        { d with ready := false, downSince := none }).driveLost sl))
  ∧ (∀ (s : State) (sl : Nat) (d : Drive), d = s.drive sl →
      exec (.driveLinkChange sl true) s = .next (s.setDrive sl { d with linkUp := true, downSince := none })
      ∧ (d.linkUp = true → exec (.driveLinkChange sl false) s
        = .next (s.setDrive sl { d with linkUp := false, downSince := some s.now }))
      ∧ (d.linkUp = false → exec (.driveLinkChange sl false) s = .next s)
      ∧ (d.ready = true → exec (.driveCriticalWarning sl) s = .next (s.memberMissing sl))
      ∧ (d.ready = false → exec (.driveCriticalWarning sl) s = .next s))
  ∧ (∀ (s : State) (sl : Nat), (s.member sl = none ∨ s.takesWrites sl = false ∨ s.shd.role = .shadow) → s.memberMissing sl = s)
  ∧ (∀ (s : State) (sl : Nat) (m m' : Member) (g : Group) (op : List Nat), s.member sl = some m → s.group m.group = some g →
      s.takesWrites sl = true → s.shd.role ≠ .shadow →
      op = (s.str.opens.filter fun o => o.group == m.group && (g.slotsAt o.stripe).contains sl).map (fun o => g.regionOf o.stripe) →
      (m.state = .inService → m' = { m with state := .missing, since := s.now, lgen := g.lgen, stale := op.foldl (fun t x => tblIns t x ()) [], staleAt := 0, staleHeld := true }) →
      (m.state = .returning → m' = { m with state := .missing, since := s.now, stale := op.foldl (fun t x => tblIns t x ()) m.stale, staleAt := 0 }) →
      (m.state ≠ .inService → m.state ≠ .returning → m' = { m with state := .missing, since := s.now, stale := op.foldl (fun t x => tblIns t x ()) m.stale, staleAt := 0, refill := 0 }) →
      ∀ w : State, w = s.updMember sl (fun _ => m') →
      s.memberMissing sl = ((((((((({ w with shd := { w.shd with acquiring := tblDel w.shd.acquiring sl } } : State).resolvePolicy
        m.group).enterFailed m.group).replicaLost m.group sl).failMem sl fun _ => true).rewriteLabels m.group).autoAct
        m.group).evaluate m.group []).putRecord m.group).flow)
  ∧ (∀ (s : State) (sl : Nat) (id : DriveId) (l : Bytes) (rd : List (Nat × Nat × List Nat)),
      (Config.slots s.variant ≤ sl ∨ s.readsOn (32 + sl) = false ∨ (tblGet ({} : Slot) s.spm.slots sl).perstOff = false →
        exec (.driveReady sl id l rd) s = .next s.stepNine)
      ∧ (sl < Config.slots s.variant → s.readsOn (32 + sl) = true → (tblGet ({} : Slot) s.spm.slots sl).perstOff = true →
          parseLabel l = none → ∀ w v : State,
          w = (s.setDrive sl { ready := true, linkUp := true, id, label := none }).emit (.driveCtl sl "REGISTER") →
          tblFind w.shd.acquiring sl = none → v = { w with str := { w.str with
            bitmaps := rd ++ w.str.bitmaps.filter (fun x => !(rd.any fun y => y.1 == x.1 && y.2.1 == x.2.1)) } } →
        ((v.shd.role = .shadow ∨ v.member sl = none) → exec (.driveReady sl id l rd) s = .next v.stepNine)
        ∧ (∀ m g, v.shd.role ≠ .shadow → v.member sl = some m → v.group m.group = some g → g.online = true → v.serves = true →
            exec (.driveReady sl id l rd) s = .next ((v.driveArrived m.group sl).flow).stepNine)))
  ∧ (∀ (s : State) (rd : List (Nat × Nat × List Nat)),
      (s.sys.serviceAt = none ∨ s.sys.deadlinePassed = true → exec (.assemblyDeadline rd) s = .next s.stepNine)
      ∧ (∀ t, s.sys.serviceAt = some t → s.sys.deadlinePassed = false → ∀ a w : State, a = s.advanceTo (t + 60000 * msec) →
          w = { a with sys := { a.sys with deadlinePassed := true } } →
        exec (.assemblyDeadline rd) s = .next (((w.str.groups.filter fun e => w.shd.role != .shadow && !e.2.online
          && (w.groupRecord e.1).isSome).foldl (fun s e => s.tryAssemble e.1 (rd ++ w.str.bitmaps) true) w).flow).stepNine))

/-- R160, R164, R182, R193 to R195, R197, R205, R210, R215, R224, R401, R415, R722. -/
def Obligations.ClassSevenStepsOpenTheirStripe : Prop :=
  (∀ (s : State) (gi sl lba st pos : Nat) (g : Group) (w : Writer) (p : Bool), s.bgCan gi st = true → g.inScope st = false →
      s.rebuildRate p ≠ 0 → paceOk s.str.paced (s.rebuildRate p) (s.fillCost g st pos) = true →
      s.runFill gi g st pos sl lba w p
        = s.openBg gi g { group := gi, stripe := st, writer := w, method := g.bgMethod, positions := [pos], fills := [(pos, sl, lba)] })
  ∧ (∀ (s : State) (sl : Nat) (m : Member) (g : Group), s.member sl = some m → s.group m.group = some g → s.serves = true →
      (m.state = .rebuilding → g.sweep = none → s.bgBusy (.rebuild sl) = false → ∀ st : Nat, st = g.rebuildNext sl m.rebuild →
        ((g.rebuildRows sl).find? (fun x => x.row == st % g.rows) = none → s.rebuildRate true ≠ 0 →
            exec (.rebuildStripe sl) s = .next ((s.rebuildTo m.group sl g.usedStripes).flow))
        ∧ (∀ x, (g.rebuildRows sl).find? (fun x => x.row == st % g.rows) = some x →
          (g.usedStripes ≤ st → s.rebuildRate true ≠ 0 →
            exec (.rebuildStripe sl) s = .next ((s.rebuildTo m.group sl g.usedStripes).flow))
          ∧ (st < g.usedStripes → (s.freeRegions m.group g).contains (g.regionOf st) = false → exec (.rebuildStripe sl) s
            = .next (s.runFill m.group g st x.pos x.slot (g.chunkLba (st / g.rows) x.layer) (.rebuild sl) true))
          ∧ (st < g.usedStripes → (s.freeRegions m.group g).contains (g.regionOf st) = true →
              s.str.mem.any (fun y => y.who == .spareZero m.group sl st) = false →
            ∀ u, s.paceRebuild true (costOf (storedBytes g.format1) [(x.slot, 16)]) = some u → exec (.rebuildStripe sl) s
              = .next (u.addMem x.slot .writeZeroes (g.chunkLba (st / g.rows) x.layer) 16 [] 7 (.spareZero m.group sl st)))))
      ∧ (m.state = .refilling → s.bgBusy (.refill sl) = false → ∀ st : Nat, st = g.refillNext sl m.refill →
        (g.usedStripes ≤ st → s.rebuildRate true ≠ 0 →
            exec (.refillPosition sl) s = .next ((s.refillTo m.group sl g.usedStripes).flow))
        ∧ (st < g.usedStripes → ∀ x, (g.homeRows sl).find? (fun x => x.1 == st % g.rows) = some x →
            exec (.refillPosition sl) s
              = .next (s.runFill m.group g st x.2 sl (g.chunkLba (st / g.rows) (g.home st x.2).layer) (.refill sl) true)))
      ∧ (m.state = .returning → s.bgBusy (.delta sl) = false → ∀ (u : State) (n : Member), u = s.deltaTo m.group sl m.staleAt →
          u.member sl = some n →
        (n.state ≠ .returning → exec (.deltaResyncStripe sl) s = .next u.flow)
        ∧ (n.state = .returning → ∀ p ps, g.placesOn sl n.staleAt = p :: ps → u.bgCan m.group n.staleAt = true →
            g.inScope n.staleAt = false → paceOk u.str.paced (u.rebuildRate false) (u.fillCost g n.staleAt p.1) = true →
          exec (.deltaResyncStripe sl) s = .next (u.openBg m.group g { group := m.group, stripe := n.staleAt, writer := .delta sl, method := g.bgMethod, positions := (p :: ps).map (·.1), fills := p :: ps }))))
  ∧ (∀ (s : State) (gi : Nat) (g : Group), s.group gi = some g →
      (∀ (sw : Sweep), g.sweep = some sw → ∀ (mv : List Spare) (rows : List Nat) (stOf : Spare → Nat),
          mv = (s.sweepMoves g sw).mergeSort (fun a b => decide (a.row ≤ b.row)) → stOf = (fun x => sw.period * g.rows + x.row) →
          rows = ((mv.map stOf).eraseDups).filter (fun st => decide (st < g.usedStripes)) → s.serves = true →
          s.str.opens.any (fun o => o.group == gi && o.writer == .sweep) = false →
          s.str.mem.any (fun m => m.who == .sweepZero gi) = false →
          rows.any (fun st => !s.bgCan gi st || g.inScope st) = false → s.rebuildRate true ≠ 0 →
          paceOk s.str.paced (s.rebuildRate true) (costOf (storedBytes g.format1) (mv.map fun x => (x.slot, 16))) = true →
        ∀ u ok, (rows.map g.regionOf).eraseDups.foldl (fun (a : State × Bool) x => ((a.1.bgAdmit gi x).1, a.2 && (a.1.bgAdmit gi x).2))
            (s, true) = (u, ok) →
        (ok = false → exec (.relocationSweepPeriod gi) s = .next u)
        ∧ (ok = true → ∀ os : List OpenStripe, os = rows.map (fun st =>
            { group := gi, stripe := st, writer := .sweep, method := g.bgMethod, positions := ((mv.filter fun x => stOf x == st).map fun x => (x.pos, x.slot, g.chunkLba sw.period x.layer)).map (·.1), epoch := u.shd.epoch, fills := (mv.filter fun x => stOf x == st).map fun x => (x.pos, x.slot, g.chunkLba sw.period x.layer) }) →
          exec (.relocationSweepPeriod gi) s = .next ((((rows.foldl (fun s st => ((s.noteOpen g gi st).touch).stripeAdvance gi st)
            ({ u with str := { u.str with opens := u.str.opens ++ os } } : State)).sweepCheck gi).flow))))
      ∧ (∀ st, g.resyncNext = some st → g.failed = false → g.online = true → s.gstate gi ≠ 3 → s.bgCan gi st = true →
          paceOk s.str.paced (s.rebuildRate false) (costOf (storedBytes g.format1)
            ((List.range g.n).filterMap fun p => (s.posAt g st p).map fun x => (x.1, 16))) = true →
        ∀ u ok, s.bgAdmit gi (g.regionOf st) = (u, ok) → exec (.resyncStripe gi) s = .next (if ok then u.openBg gi g
            { group := gi, stripe := st, writer := .resync, method := g.bgMethod, positions := List.range g.n } else u))
      ∧ (∀ x xs, g.zeroing = x :: xs → ∀ st, st = x * g.t + g.zeroAt → s.bgCan gi st = true → s.gstate gi ≠ 3 →
        ∀ u ok, s.bgAdmit gi x = (u, ok) → ∀ ws : List StripeWrite, ws = (List.range g.n).filterMap (fun p => (u.posAt g st p).map
            fun y => { pos := p, slot := y.1, op := .writeZeroes, lba := y.2, n := 16, data := [] }) →
          exec (.zeroingStripe gi) s = .next (if ok then u.openBg gi g { group := gi, stripe := st, writer := .zeroing, method := if g.erasure then .full else .copy, positions := ws.map (·.pos), planned := true, writes := ws } else u)))
  ∧ (∀ (s : State) (r : Repair) (g : Group) (sl lba : Nat), s.nextRepair = some r → s.group r.group = some g →
      s.posAt g r.stripe r.pos = some (sl, lba) → s.bgCan r.group r.stripe = true →
    ∀ u ok, s.bgAdmit r.group (g.regionOf r.stripe) = (u, ok) → ∀ d : State,
      d = { u with str := { u.str with repairs := rmFirst (fun x => x == r) u.str.repairs } } →
      exec .repairBlock s = .next (if ok then d.openBg r.group g { group := r.group, stripe := r.stripe, writer := .repair, method := g.bgMethod, positions := [r.pos], offs := r.offs, fills := [(r.pos, sl, lba)], reread := r.reread } else u))
  ∧ (∀ s : State, (s.bit .lntCtl 0 = false ∨ s.field .lntRate 15 0 = 0 ∨ s.serves = false → exec .lanternStripe s = .next s)
      ∧ (s.bit .lntCtl 0 = true → s.field .lntRate 15 0 ≠ 0 → s.serves = true → ∀ w, w = s.lanternMend →
        (w.str.lanternNow = none → exec .lanternStripe s = .next w.lanternNext)
        ∧ (∀ t, w.str.lanternNow = some t → t.look.pre ≠ [] → exec .lanternStripe s = .next w)
        ∧ (∀ t g, w.str.lanternNow = some t → t.look.pre = [] → w.group t.look.group = some g → exec .lanternStripe s
          = .next ((({ w with str := { w.str with lanternNow := none } } : State).lanternCompare t g).flow))))
  ∧ (∀ s : State, s.readsOn 150 = true → ∃ u, exec .lntRestart s = .next u
      ∧ u.str = { s.str with lantern := (0, 0, 0), lanternAgain := [], lanternNow := none }
      ∧ u.regs = s.regs ∧ u.mem = s.mem ∧ u.out = s.out ∧ u.qpe = s.qpe ∧ u.cph = s.cph)
  ∧ (∀ s a : State, a = s.advanceTo ((s.now / msec + 1) * msec) → ∃ u, exec .rebuildPacingRefill s = .next u
      ∧ u.str = { a.str with paced := paceRefill a.str.paced (a.rebuildRate false), lntPaced := paceRefill a.str.lntPaced (a.field .lntRate 15 0) }
      ∧ u.cph = { a.cph with paced := paceRefill a.cph.paced (a.field .cphWalkRate 15 0) }
      ∧ u.regs = a.regs ∧ u.mem = a.mem ∧ u.out = a.out ∧ u.qpe = a.qpe)
  ∧ (∀ (s : State) (vol : Nat) (w : Walk) (v : Volume) (g : Group), tblFind s.cph.walks vol = some w → s.volume vol = some v →
      s.group v.group = some g → w.begun = true → s.field .cphWalkRate 15 0 ≠ 0 → s.serves = true →
      s.str.opens.find? (fun o => o.writer == .rekey vol) = none →
    ((v.ext.mergeSort (· ≤ ·))[w.region]? = none → exec (.rekeyWalkStripe vol) s = .next ((s.walkEnd vol w).flow))
    ∧ (∀ x, (v.ext.mergeSort (· ≤ ·))[w.region]? = some x → ∀ st, st = x * g.t + w.stripe → s.bgCan v.group st = true →
        s.gstate v.group ≠ 3 → (s.walkLane x).isSome = true → paceOk s.cph.paced (s.field .cphWalkRate 15 0)
          (costOf (storedBytes g.format1) ((List.range g.n).filterMap fun p => (s.posAt g st p).map fun x => (x.1, 16))) = true →
      ∀ u ok, s.bgAdmit v.group x = (u, ok) → exec (.rekeyWalkStripe vol) s = .next ((if ok then u.openBg v.group g
        { group := v.group, stripe := st, writer := .rekey vol, method := g.bgMethod, keyed := true, positions := List.range g.n }
        else u).flow)))
  ∧ (∀ (s : State) (v : Word) (gi i : Nat), s.readsOn 150 = true → gi = bitsOf v.toNat 29 24 → i = bitsOf v.toNat 12 0 →
    (∀ g l, s.group gi = some g → g.seq[i]? = some l → exec (.strRowSel v) s = .next ((s.setReg .strRowSel
        (gi * 2 ^ 24 + i)).setReg .strRowData (2 ^ 31 + g.slots.getD l 0 * 2 ^ 16 + (i / g.w) % 2 ^ 7)))
    ∧ ((s.group gi = none ∨ ∃ g, s.group gi = some g ∧ g.seq[i]? = none) → exec (.strRowSel v) s
      = .next ((s.setReg .strRowSel (gi * 2 ^ 24 + i)).setReg .strRowData (2 ^ 31 + 0x3F * 2 ^ 16 + 0x7F % 2 ^ 7))))
  ∧ (∀ (s : State) (v : Word) (i : Nat), s.readsOn 158 = true → i = bitsOf v.toNat 13 0 →
    (s.keySlot i = none → exec (.cphKeySel v) s = .next (((((s.setReg .cphKeySel i).setReg .cphKeyState (2 ^ 31 + 0)).setReg
        .cphKeyCount 0).setReg .cphKeyLimit 0).setReg .cphKeyMark 0))
    ∧ (∀ k, s.keySlot i = some k → ∀ off on : Bool, off = (tblFind s.cph.walks k.volume).any (fun w => w.old == i) →
        on = (tblFind s.cph.walks k.volume).any (fun w => w.new == i) →
      exec (.cphKeySel v) s = .next (((((s.setReg .cphKeySel i).setReg .cphKeyState (2 ^ 31 + (2 ^ 30 + 2 ^ 29 * b2n k.xts
        + 2 ^ 28 * k.phase + 2 ^ 27 * b2n off + 2 ^ 26 * b2n on + k.volume))).setReg .cphKeyCount k.count).setReg
          .cphKeyLimit k.limit).setReg .cphKeyMark k.mark)))

/-- R260 to R264, R266 to R268, R274. -/
def Obligations.NetworkEventsDoTheirEffect : Prop :=
  (∀ (s : State) (u : Nat) (f : Frame) (w : Nat × Nat), w = (if (s.mgmtOf 9).2 + 1000000000 ≤ s.now
      then (0, s.now) else s.mgmtOf 9) → (∀ k, f.kind ≠ .odt k) →
      exec (.frameReceive 9 u f) s = .next (State.mgmtDrop { s with net := { s.net with mgmt := tblIns s.net.mgmt 9 (w.1 + 1, w.2) } }))
  ∧ (∀ (s : State) (u k : Nat) (f : Frame) (bad : Bool) (w : Nat × Nat), w = (if (s.mgmtOf 9).2 + 1000000000 ≤ s.now
      then (0, s.now) else s.mgmtOf 9) → f.kind = .odt k → bad = (!f.fcsOk || decide (f.bytes < 64) || decide (9216 < f.bytes)
        || decide (2 ≤ f.vlanTags) || f.ipBad || f.udpBad || f.persBad
        || !((s.qp 0).state != .free && (s.qp 0).face == .odt k) || decide (20000 ≤ w.1)) →
    ∀ v : State, v = { s with net := { s.net with mgmt := tblIns s.net.mgmt 9 (w.1 + 1, w.2) } } →
      exec (.frameReceive 9 u f) s = .next (if bad then v.mgmtDrop else v))
  ∧ (∀ (s : State) (m u : Nat) (f : Frame), m ≠ 9 →
    ((s.macPresent m && s.subUp m u) = false → exec (.frameReceive m u f) s = .next s)
    ∧ ((s.macPresent m && s.subUp m u) = true →
      (f.fcsOk = false → exec (.frameReceive m u f) s = .next (s.count .netFcsErr))
      ∧ (f.fcsOk = true → ∀ t : State, t = s.tap (2 * m) u f.bytes (s.frameDrops m u f) (some f.hdr) →
        (t.frameDrops m u f = true → exec (.frameReceive m u f) s = .next (t.count .netRxDrop))
        ∧ (t.frameDrops m u f = false → t.serves = false → exec (.frameReceive m u f) s = .next t)
        ∧ (t.frameDrops m u f = false → t.serves = true →
          ((f.kind = .arp ∨ f.kind = .icmp ∨ f.kind = .lldp ∨ ∃ b, f.kind = .ptp b) →
              exec (.frameReceive m u f) s = .next (t.toBasalt m u f))
          ∧ (f.kind = .cnp → exec (.frameReceive m u f) s = .next (t.count .netCnpRx))
          ∧ ((∃ k, f.kind = .odt k) ∨ (∃ k, f.kind = .roce k) → exec (.frameReceive m u f) s = .next (t.ceMark f))
          ∧ (f.ce = false → t.ceMark f = t)
          ∧ (∀ k, f.ce = true → f.kind = .odt k → ((t.count .netCeRx).odtConn k).state ≠ .closed → t.ceMark f
            = (t.count .netCeRx).setOdt k { (t.count .netCeRx).odtConn k with ece := true })))))
  ∧ (∀ (s : State) (mac vec : Nat) (q : List Nat),
      (s.macPresent mac = true → exec (.pfcFrameReceive mac vec q) s = .next ((List.range 8).foldl
        (fun s p => if bitOf vec p then s.pfcRx mac p (q.getD p 0) else s) s))
      ∧ (s.macPresent mac = false → exec (.pfcFrameReceive mac vec q) s = .next s))
  ∧ (∀ (s : State) (mac pri n : Nat) (p : Pfc), p = s.pfcOf mac pri →
      (bitOf (s.reg .netPfc) (24 + pri) = false → s.pfcRx mac pri n = s)
      ∧ (bitOf (s.reg .netPfc) (24 + pri) = true →
        (p.ignoring = true → s.pfcRx mac pri n = s.setPfc mac pri { p with lastRx := s.now })
        ∧ (p.ignoring = false → n = 0 → s.pfcRx mac pri n
          = (s.setPfc mac pri { p with until_ := none, since := none, lastRx := s.now }).resumeMac mac)
        ∧ (p.ignoring = false → n ≠ 0 → s.pfcRx mac pri n = s.setPfc mac pri
          { p with until_ := some (s.now + ceilDiv (n * 512) (s.macRate mac)), since := if s.paused mac pri then p.since else some s.now, lastRx := s.now }))
      ∧ (∀ t, p.until_ = some t → ∀ a : State, a = s.advanceTo t → exec (.pfcPauseExpire mac pri) s
        = .next ((a.setPfc mac pri { a.pfcOf mac pri with until_ := none, since := none }).resumeMac mac))
      ∧ (p.xoff = true → ∀ a : State, a = s.advanceTo (p.xoffAt + 2000) →
        (a.portCells mac pri < a.xon → exec (.pfcXoffRepeat mac pri) s = .next (a.pfcSync mac pri))
        ∧ (a.xon ≤ a.portCells mac pri → exec (.pfcXoffRepeat mac pri) s
          = .next ((a.setPfc mac pri { p with xoffAt := a.now }).pfcSend mac pri 0xFFFF)))
      ∧ (p.xoff = false → exec (.pfcXoffRepeat mac pri) s = .next s)
      ∧ (∀ t e ms, p.since = some t → p.until_ = some e → ms = s.field .netPfcWdog 7 0 → ms ≠ 0 → p.ignoring = false →
          t + ms * msec ≤ e → exec (.pfcWatchdogTrip mac pri) s = .next ((((((s.advanceTo (t + ms * msec)).setPfc mac pri
            { p with ignoring := true, until_ := none, since := none }).count .netPfcWdogCt)).event .net).resumeMac mac))
      ∧ (p.ignoring = true → ∀ a : State, a = s.advanceTo (p.lastRx + msec) → ∃ u, exec (.pfcWatchdogClear mac pri) s = .next u
          ∧ u = a.setPfc mac pri { p with ignoring := false } ∧ u.regs = a.regs ∧ u.mem = a.mem ∧ u.out = a.out
          ∧ u.net.link = a.net.link)
      ∧ (p.ignoring = false → exec (.pfcWatchdogClear mac pri) s = .next s))
  ∧ (∀ (s : State) (m u : Nat),
      ((s.subMayRise m u && !s.subUp m u) = true → exec (.networkLinkChange m u true) s = .next
        (({ s with net := { s.net with link := tblPut false s.net.link (4 * m + u) true } } : State).reachChange))
      ∧ ((s.subMayRise m u && !s.subUp m u) = false → exec (.networkLinkChange m u true) s = .next s)
      ∧ (s.subUp m u = false → exec (.networkLinkChange m u false) s = .next s)
      ∧ (s.subUp m u = true → ∀ w : State, w = { s with net := { s.net with link := tblPut false s.net.link (4 * m + u) false } } →
        exec (.networkLinkChange m u false) s
          = .next (((w.setReg .netPort (w.reg .netPort m ||| 2 ^ (20 + u)) m).event .net).reachChange)))
  ∧ (∀ s : State, (s.net.announce = [] → exec .addressAnnounce s = .next s)
      ∧ (∀ t r, s.net.announce = t :: r → ∀ a : State, a = s.advanceTo t → exec .addressAnnounce s
        = .next (({ a with net := { a.net with announce := r } } : State).announceAll)))

/-- R35, R37, R263, R276, R277, R280, R281, R284. -/
def Obligations.RoceEventsDoTheirEffect : Prop :=
  (∀ (s : State) (r : CmReq),
    ((s.serves && s.subUp r.mac r.sub) = false → exec (.cmReq r) s = .next s)
    ∧ ((s.serves && s.subUp r.mac r.sub) = true →
      (∀ a as k, s.allowsOf r.mac r.sub r.family r.host = a :: as → s.pickRoce = some k → r.rc = true → r.service = 4420 →
          (r.mtu = 1024 ∨ r.mtu = 2048 ∨ r.mtu = 4096) → exec (.cmReq r) s = .next ((s.drew.setRoce k { mac := r.mac, sub := r.sub, family := r.family, host := r.host, allow := a, mtu := r.mtu, hostQpn := r.qpn, ePsn := r.psn % 2 ^ 24, sPsn := Config.startPsn s.draws % 2 ^ 24 }).touch.roceFrame r.mac r.sub 0 (.cm r.mac r.sub r.host 0)))
      ∧ ((s.allowsOf r.mac r.sub r.family r.host = [] ∨ s.pickRoce = none ∨ r.rc = false ∨ r.service ≠ 4420
            ∨ (r.mtu ≠ 1024 ∧ r.mtu ≠ 2048 ∧ r.mtu ≠ 4096)) →
          exec (.cmReq r) s = .next (s.roceFrame r.mac r.sub 0 (.cm r.mac r.sub r.host 1)))))
  ∧ (∀ (s : State) (k : Nat) (c : RoceConn), tblFind s.net.roce k = some c →
    (s.serves = true → ∃ u, exec (.cmRtu k) s = .next u ∧ u.net = { s.net with roce := tblIns s.net.roce k { c with established := true } }
        ∧ (∀ j, j ≠ k → tblFind u.net.roce j = tblFind s.net.roce j) ∧ u.regs = s.regs ∧ u.mem = s.mem ∧ u.out = s.out ∧ u.qpe = s.qpe)
    ∧ (s.serves = true → exec (.cmDreq k) s = .next ((s.roceEnd k false).roceFrame c.mac c.sub 0 (.cm c.mac c.sub c.host 2)))
    ∧ (∀ m ms, c.sent = m :: ms → c.rnrWait = none → ∀ a : State, a = s.advanceTo (m.at_ + s.roceTimeout) →
        (a.field .netRoceCfg 10 8 ≤ m.tries → exec (.roceAckTimeout k) s = .next (a.roceEndHost c.host))
        ∧ (m.tries < a.field .netRoceCfg 10 8 → exec (.roceAckTimeout k) s
          = .next ((a.setRoce k { c with sent := { m with tries := m.tries + 1 } :: ms }).roceResend k)))
    ∧ (∀ t lim, c.rnrWait = some t → ∀ a : State, a = s.advanceTo t → lim = a.field .netRoceCfg 6 4 →
        ((lim != 7 && c.sent.any fun m => decide (lim < m.rnrTries)) = true →
          exec (.roceRnrTimerExpire k) s = .next (a.roceEndHost c.host))
        ∧ ((lim != 7 && c.sent.any fun m => decide (lim < m.rnrTries)) = false → exec (.roceRnrTimerExpire k) s
          = .next (((a.setRoce k { c with rnrWait := none }).roceResend k).rocePump (c.queue.length + 1) k))))
  ∧ (∀ (s : State) (k psn ns d : Nat) (b : Bytes), s.roceLive k = none → ∀ i : Instr,
      (i = .roceAckReceive k .ack psn ∨ i = .roceAckReceive k (.rnr ns) psn ∨ i = .roceAckReceive k .sequence psn
        ∨ i = .roceAckReceive k .error psn ∨ i = .roceReadResponse k psn d b ∨ i = .roceRemoteAccess k psn) →
      exec i s = .next (if s.serves then s.count .netRxDrop else s))
  ∧ (∀ (s : State) (k psn ns d : Nat) (b : Bytes) (c : RoceConn), s.roceLive k = some c →
    exec (.roceRemoteAccess k psn) s = .next (s.roceOut k (.roceAck k psn 3))
    ∧ exec (.roceAckReceive k .ack psn) s = .next ((s.setRoce k { c with sent := c.sent.filter fun m => m.req.isRead || !psnGe psn ((m.psn + m.n - 1) % 2 ^ 24) }).rocePump (c.queue.length + 1) k)
    ∧ exec (.roceAckReceive k (.rnr ns) psn) s = .next (s.setRoce k { c with rnrWait := some (s.now + ns), sent := c.sent.map fun m => if m.psn = psn then { m with rnrTries := m.rnrTries + 1 } else m })
    ∧ (c.recover = true → exec (.roceAckReceive k .sequence psn) s = .next (s.roceRecover k psn))
    ∧ (c.recover = false → exec (.roceAckReceive k .sequence psn) s = .next ((s.setRoce k { c with sent := c.sent.filter fun m => m.req.isRead || psnGe ((m.psn + m.n - 1) % 2 ^ 24) psn }).roceResend k))
    ∧ exec (.roceAckReceive k .error psn) s = .next (s.roceEndHost c.host)
    ∧ (c.sent.find? (fun m => m.req.isRead && decide ((psn + 2 ^ 24 - m.psn) % 2 ^ 24 < m.n)) = none →
        exec (.roceReadResponse k psn d b) s = .next s)
    ∧ (∀ m, c.sent.find? (fun m => m.req.isRead && decide ((psn + 2 ^ 24 - m.psn) % 2 ^ 24 < m.n)) = some m →
        ∀ cl id va key len, m.req = .readDesc cl id va key len → ∀ at_, at_ = (psn + 2 ^ 24 - m.psn) % 2 ^ 24 * c.mtu →
        (b.length ≠ min c.mtu (len - at_) → exec (.roceReadResponse k psn d b) s = .next s)
        ∧ (b.length = min c.mtu (len - at_) → ∀ u : State, u = (s.setRoce k { c with sent := c.sent.filter fun x => x.req.isRead || !psnGe m.psn ((x.psn + x.n) % 2 ^ 24) }).descArrive id at_ b →
          (∀ x, tblFind u.fct.descs id = some x → x.arrived < len → exec (.roceReadResponse k psn d b) s = .next u)
          ∧ (∀ x, tblFind u.fct.descs id = some x → len ≤ x.arrived → exec (.roceReadResponse k psn d b) s = .next
              (((u.updRoce k fun c => { c with sent := rmFirst (fun x => x == m) c.sent }).rocePump (c.queue.length + 1) k).flow))))
    ∧ (∀ m, c.sent.find? (fun m => m.req.isRead && decide ((psn + 2 ^ 24 - m.psn) % 2 ^ 24 < m.n)) = some m →
        ∀ cl seq va key len x, m.req = .readPull cl seq va key len → s.cmd seq = some x → ∀ at_ off,
        at_ = (psn + 2 ^ 24 - m.psn) % 2 ^ 24 * c.mtu → off = s.readOff x va →
        (b.length ≠ min c.mtu (len - at_) → exec (.roceReadResponse k psn d b) s = .next s)
        ∧ (b.length = min c.mtu (len - at_) → ∀ u : State, u = ((s.setRoce k { c with sent := c.sent.filter fun x => x.req.isRead || !psnGe m.psn ((x.psn + x.n) % 2 ^ 24) }).pullArrive seq (off + at_) b).arrivedAs seq c.mac d →
          (∀ y, u.cmd seq = some y → y.data.length < off + len → exec (.roceReadResponse k psn d b) s = .next u)
          ∧ (∀ y, u.cmd seq = some y → off + len ≤ y.data.length → exec (.roceReadResponse k psn d b) s = .next
              (((u.updRoce k fun c => { c with sent := rmFirst (fun x => x == m) c.sent }).rocePump (c.queue.length + 1) k).flow))))
    ∧ (∀ m cl cid, c.sent.find? (fun m => m.req.isRead && decide ((psn + 2 ^ 24 - m.psn) % 2 ^ 24 < m.n)) = some m →
        m.req = .readRange cl cid → exec (.roceReadResponse k psn d b) s = .next s))
  ∧ (∀ (s : State) (k psn cid : Nat) (b : Bytes) (x : Bool) (r : Option Bytes), s.isOn 160 = false →
    ((s.island 160).busy.isSome = true → (∃ u, exec (.roceCommandCapsule k psn b x) s = .next u
          ∧ u.qpe = { s.qpe with doors := s.qpe.doors ++ [.capsule k psn b x] } ∧ u.regs = s.regs ∧ u.mem = s.mem ∧ u.out = s.out)
        ∧ (∃ u, exec (.dsmRangeArrive k cid r) s = .next u
          ∧ u.qpe = { s.qpe with doors := s.qpe.doors ++ [.range k cid r] } ∧ u.regs = s.regs ∧ u.mem = s.mem ∧ u.out = s.out))
    ∧ ((s.island 160).busy.isSome = false → exec (.roceCommandCapsule k psn b x) s = .next (s.emit (.refusedAtIsland 160))
        ∧ exec (.dsmRangeArrive k cid r) s = .next (s.emit (.refusedAtIsland 160))))
  ∧ (∀ (s : State) (k psn q : Nat) (b : Bytes) (c : RoceConn) (a : RoceAllow), s.isOn 160 = true → s.roceLive k = some c →
      c.qp = some q → tblFind s.net.allow c.allow = some a →
    exec (.roceCommandCapsule k psn b true) s = .next (s.roceOut k (.roceAck k psn 2))
    ∧ (psn ≠ c.ePsn → (c.ePsn + 2 ^ 24 - psn) % 2 ^ 24 < 2 ^ 23 → exec (.roceCommandCapsule k psn b false) s
        = .next (s.roceOut k (.roceAck k ((c.ePsn + 2 ^ 24 - 1) % 2 ^ 24) 0)))
    ∧ (psn ≠ c.ePsn → 2 ^ 23 ≤ (c.ePsn + 2 ^ 24 - psn) % 2 ^ 24 → exec (.roceCommandCapsule k psn b false) s
        = .next (s.roceOut k (.roceAck k c.ePsn 4)))
    ∧ (psn = c.ePsn → ∀ op cid ok, op = byteAt b 0 → cid = leAt b 2 2 →
        ok = (op == 0 || op == 1 || op == 2 || op == 8 || op == 9) →
      (ok = false → exec (.roceCommandCapsule k psn b false) s
          = .next ((s.roceAckTaken k psn none).nvReply k cid 0 nvInvalidOpcode))
      ∧ (ok = true → capsuleBad b = true → exec (.roceCommandCapsule k psn b false) s
          = .next ((s.roceAckTaken k psn none).nvReply k cid 0 nvInvalidField))
      ∧ (ok = true → capsuleBad b = false → op ≠ 0 → byteAt b 7 ≠ 0 → exec (.roceCommandCapsule k psn b false) s
          = .next ((s.roceAckTaken k psn none).nvReply k cid 0 nvInvalidNamespace))
      ∧ (capsuleBad b = false → (op = 0 ∨ op = 8 ∧ byteAt b 7 = 0) → exec (.roceCommandCapsule k psn b false) s
          = .next (s.roceInline k psn q (capsuleEntry a b 0)))
      ∧ (capsuleBad b = false → (op = 1 ∨ op = 2) → byteAt b 7 = 0 →
        (s.transient k a.tenant (if op = 2 then 2 else 1) (sglAddr b) (sglLen b) (sglKey b) = none →
            exec (.roceCommandCapsule k psn b false) s = .next (s.roceOut k (.roceAck k psn 1)))
        ∧ (∀ u m, s.transient k a.tenant (if op = 2 then 2 else 1) (sglAddr b) (sglLen b) (sglKey b) = some (u, m) →
            exec (.roceCommandCapsule k psn b false) s = .next (u.roceInline k psn q (capsuleEntry a b m)))))
    ∧ (∀ cid e, tblFind c.dsm cid = some e → exec (.dsmRangeArrive k cid none) s = .next (s.roceEndHost c.host)))

/-- R90, R263, R276, R278, R279. -/
def Obligations.FabricsCommandsDoTheirEffect : Prop :=
  (∀ (s : State) (k cid a b d : Nat) (nqn : Bytes), s.roceLive k = none → ∀ i : Instr,
      i ∈ [Instr.fabricsConnect k cid a b d nqn, .propertyGet k cid a, .propertySet k cid a b, .nvmeofIdentify k cid a b,
        .getFeatures k cid a, .setFeatures k cid a b, .keepAlive k cid, .nvmeofAbort k cid a b] →
      exec i s = .next (if s.serves then s.count .netRxDrop else s))
  ∧ (∀ (s : State) (k cid a b : Nat) (c : RoceConn), s.roceLive k = some c → c.qid ≠ some 0 → ∀ i : Instr,
      i ∈ [Instr.propertyGet k cid a, .propertySet k cid a b, .nvmeofIdentify k cid a b,
        .getFeatures k cid a, .setFeatures k cid a b, .keepAlive k cid, .nvmeofAbort k cid a b] → exec i s = .next s)
  ∧ (∀ (s : State) (k cid qid sq ka : Nat) (nqn : Bytes) (c : RoceConn), s.roceLive k = some c →
    (c.qid.isSome = true → exec (.fabricsConnect k cid qid sq ka nqn) s = .next (s.nvReply k cid 0 nvConnectInvalid))
    ∧ (c.qid.isSome = false → exec (.fabricsConnect k cid 0 sq ka nqn) s = .next
        (((s.setRoce k { c with qid := some 0, hostNqn := nqn, kato := max 1000 ka, kaAt := s.now }).touch).nvReply k cid 0 0))
    ∧ (c.qid.isSome = false → qid ≠ 0 → ∀ r, r = s.qpe.qps.find? (fun e => e.2.state != .free && (match e.2.face with
          | .roce a n => n == qid && (s.allowsOf c.mac c.sub c.family c.host).contains a
          | _ => false)) →
        (r = none → exec (.fabricsConnect k cid qid sq ka nqn) s = .next (s.nvReply k cid 0 nvConnectInvalid))
        ∧ (∀ q x a n, r = some (q, x) → x.face = .roce a n →
          (((s.net.roce.any fun e => e.2.qp == some q) = true ∨ x.sqSize < sq + 1) →
            exec (.fabricsConnect k cid qid sq ka nqn) s = .next (s.nvReply k cid 0 nvConnectInvalid))
          ∧ ((s.net.roce.any fun e => e.2.qp == some q) = false → sq + 1 ≤ x.sqSize →
            exec (.fabricsConnect k cid qid sq ka nqn) s = .next
              (((s.setRoce k { c with qid := some qid, qp := some q, allow := a, hostNqn := nqn }).touch).nvReply k cid 0 0)))))
  ∧ (∀ (s : State) (k cid off v nsid fid sqid tgt : Nat) (c : RoceConn), s.roceLive k = some c → c.qid = some 0 →
    exec (.propertyGet k cid 0x14) s = .next (s.nvReply k cid c.cc 0)
    ∧ exec (.propertyGet k cid 0x1C) s = .next (s.nvReply k cid c.csts 0)
    ∧ (off = 0 ∨ off = 8 → exec (.propertyGet k cid off) s = .next (s.nvReply k cid (Config.nvmeProperty off) 0))
    ∧ (off ≠ 0 ∧ off ≠ 8 ∧ off ≠ 0x14 ∧ off ≠ 0x1C → exec (.propertyGet k cid off) s = .next (s.nvReply k cid 0 nvInvalidField))
    ∧ exec (.propertySet k cid 0x14 v) s = .next (((s.setRoce k { c with cc := v, csts := b2n (bitOf v 0)
        + (if bitsOf v 15 14 = 0 then 0 else 2 * 4) }).touch).nvReply k cid 0 0)
    ∧ (off ≠ 0x14 → exec (.propertySet k cid off v) s = .next (s.nvReply k cid 0 nvInvalidField))
    ∧ (∀ a, tblFind s.net.allow c.allow = some a →
        (∀ l, l = (((s.ownedBy a.tenant).filter fun h => decide (nsid < h)).take 1024).flatMap (fun h => toLe h 4) →
          exec (.nvmeofIdentify k cid 2 nsid) s = .next (s.nvReply k cid 0 0 (l ++ zeros (4096 - l.length))))
        ∧ (∀ x, (s.ownedBy a.tenant).contains nsid = true → s.volume nsid = some x →
          exec (.nvmeofIdentify k cid 0 nsid) s = .next (s.nvReply k cid 0 0 (toLe x.size 8 ++ Config.nvmeIdentify 0 nsid)))
        ∧ ((s.ownedBy a.tenant).contains nsid = false →
          exec (.nvmeofIdentify k cid 0 nsid) s = .next (s.nvReply k cid 0 nvInvalidNamespace)))
    ∧ exec (.nvmeofIdentify k cid 1 nsid) s = .next (s.nvReply k cid 0 0 (Config.nvmeIdentify 1 0))
    ∧ (2 < off → exec (.nvmeofIdentify k cid off nsid) s = .next (s.nvReply k cid 0 nvInvalidField))
    ∧ exec (.getFeatures k cid 7) s = .next (s.nvReply k cid c.numQueues 0)
    ∧ exec (.getFeatures k cid 15) s = .next (s.nvReply k cid c.kato 0)
    ∧ exec (.setFeatures k cid 7 v) s = .next (((s.setRoce k { c with numQueues := v }).touch).nvReply k cid v 0)
    ∧ exec (.setFeatures k cid 15 v) s = .next (((s.setRoce k { c with kato := max 1000 v, kaAt := s.now }).touch).nvReply k cid 0 0)
    ∧ (fid ≠ 7 ∧ fid ≠ 15 → exec (.getFeatures k cid fid) s = .next (s.nvReply k cid 0 nvInvalidField)
        ∧ exec (.setFeatures k cid fid v) s = .next (s.nvReply k cid 0 nvInvalidField))
    ∧ exec (.keepAlive k cid) s = .next ((s.setRoce k { c with kaAt := s.now }).nvReply k cid 0 0)
    ∧ (∀ r, r = (s.net.roce.find? fun e => e.2.host == c.host && e.2.qid == some sqid).bind (fun e => e.2.qp) →
        (r = none → exec (.nvmeofAbort k cid sqid tgt) s = .next (s.nvReply k cid 1 0))
        ∧ (∀ q, r = some q →
          (s.findCmd q tgt = none → exec (.nvmeofAbort k cid sqid tgt) s = .next (s.nvReply k cid 1 0))
          ∧ (∀ t, s.findCmd q tgt = some t →
            (eOpcode t.entry = opFlush ∨ eOpcode t.entry = opAbort → exec (.nvmeofAbort k cid sqid tgt) s = .next (s.nvReply k cid 1 0))
            ∧ (¬ (eOpcode t.entry = opFlush ∨ eOpcode t.entry = opAbort) →
              ((t.noIssue = true ∧ t.past = false ∧ (t.ready.isNone = true ∨ t.raw.isNone = true)) →
                exec (.nvmeofAbort k cid sqid tgt) s = .next ((((s.endUnissued t stAbortedRequest).settle).flow).nvReply k cid 0 0))
              ∧ (¬ (t.noIssue = true ∧ t.past = false ∧ (t.ready.isNone = true ∨ t.raw.isNone = true)) →
                ((t.past = true ∨ t.phase = .finished) → exec (.nvmeofAbort k cid sqid tgt) s = .next (s.nvReply k cid 1 0))
                ∧ (t.past = false → t.phase ≠ .finished →
                  exec (.nvmeofAbort k cid sqid tgt) s = .next (((s.endEarly t.seq stAbortedRequest).flow).nvReply k cid 0 0))))))))
  ∧ (∀ (s : State) (k : Nat),
    (tblFind s.net.roce k = none → exec (.keepAliveTimeout k) s = .next s)
    ∧ (∀ c, tblFind s.net.roce k = some c →
      (c.qid = some 0 → c.kato ≠ 0 → exec (.keepAliveTimeout k) s = .next ((s.advanceTo (c.kaAt + c.kato * msec)).roceEndHost c.host))
      ∧ (c.qid ≠ some 0 ∨ c.kato = 0 → exec (.keepAliveTimeout k) s = .next s)))

/-- R37, R288 to R291, R294 to R296, R298 to R300, R303. -/
def Obligations.OdtMessagesAndTimersDoTheirEffect : Prop :=
  (∀ (s : State) (h : OdtHdr) (b : Bytes), s.isOn 160 = false →
    ((s.island 160).busy.isSome = true →
        exec (.doorbell h) s = .next { s with qpe := { s.qpe with doors := s.qpe.doors ++ [.odt h] } }
        ∧ exec (.doorbellInline h b) s = .next { s with qpe := { s.qpe with doors := s.qpe.doors ++ [.odtInline h b] } })
    ∧ ((s.island 160).busy.isSome = false → exec (.doorbell h) s = .next (s.emit (.refusedAtIsland 160))
        ∧ exec (.doorbellInline h b) s = .next (s.emit (.refusedAtIsland 160))))
  ∧ (∀ (s : State) (h : OdtHdr) (b : Bytes) (i : Instr) (f : State → State × Nat), s.isOn 160 = true →
      (i = .doorbell h ∧ f = State.odtApply h ∨ i = .doorbellInline h b ∧ f = State.odtApplyInline h b) →
    ((s.serves && s.subUp h.mac h.sub) = false → exec i s = .next s)
    ∧ ((s.serves && s.subUp h.mac h.sub) = true →
      (s.odtAccepts h true = false → exec i s = .next (s.odtDrop h.mac))
      ∧ (s.odtAccepts h true = true → ∀ w c, w = s.odtHeard h → c = w.odtConn h.conn →
        (∀ ok, ok = (decide (h.seq = (c.hseq + 1) % 2 ^ 32) && seqGe (w.odtLimit h.conn) h.seq && decide (c.state ≠ .opening)) →
          (ok = true → ∀ u fl d, f w = (u, fl) → d = u.odtConn h.conn → exec i s = .next ((u.setOdt h.conn { d with hseq := h.seq, given := tblPut 0 (d.given.filter fun e => decide ((h.seq + 2 ^ 32 - e.1) % 2 ^ 32 < 256)) h.seq fl, state := if d.state = .suspect then .established else d.state }).touch.receipt h.conn h.qpn fl))
          ∧ (ok = false → ∀ dup, dup = (seqGe c.hseq h.seq && decide (c.state ≠ .opening)) →
            (dup = true → exec i s = .next ((w.count .netOdtDup).receipt h.conn h.qpn
              (if (c.hseq + 2 ^ 32 - h.seq) % 2 ^ 32 < 256 then tblGet 0 c.given h.seq else 0)))
            ∧ (dup = false → exec i s = .next ((w.count .netOdtDiscard).receipt h.conn h.qpn 0x400)))))))
  ∧ (∀ (s : State) (h : OdtHdr) (b : Bytes) (i : Instr), i ∈ [Instr.fetchResp h b, .data h b, .credit h, .keepalive h] →
    ((s.serves && s.subUp h.mac h.sub) = false → exec i s = .next s)
    ∧ ((s.serves && s.subUp h.mac h.sub) = true → s.odtAccepts h false = false → exec i s = .next (s.odtDrop h.mac)))
  ∧ (∀ (s : State) (h : OdtHdr) (b : Bytes), (s.serves && s.subUp h.mac h.sub) = true → s.odtAccepts h false = true →
    ∀ w c, w = s.odtHeard h → c = w.odtConn h.conn →
    (∀ r, r = c.asks.find? (fun a => a.slots.isSome && a.qp == h.qpn && a.seq == h.arg2) →
      (r = none → exec (.fetchResp h b) s = .next w)
      ∧ (∀ a slot n, r = some a → a.slots = some (slot, n) →
        ((slot = h.arg % 2 ^ 16 ∧ b.length = 64 * n ∧ (w.qp a.qp).fetch = some (slot, n)) → exec (.fetchResp h b) s
          = .next ((w.setOdt h.conn { c with asks := c.asks.filter fun x => x != a }).updQp a.qp fun x => { x with fetchSegs := [(0, b)] }))
        ∧ (¬ (slot = h.arg % 2 ^ 16 ∧ b.length = 64 * n ∧ (w.qp a.qp).fetch = some (slot, n)) → exec (.fetchResp h b) s = .next w)))
    ∧ (∀ r, r = c.asks.find? (fun a => a.slots.isNone && a.tag % 2 ^ 16 == h.arg % 2 ^ 16 && a.qp == h.qpn) →
      (r = none → exec (.data h b) s = .next w)
      ∧ (∀ a, r = some a →
        ((b = [] ∨ c.seg < b.length ∨ a.len < h.arg2 + b.length) → exec (.data h b) s = .next w)
        ∧ (b ≠ [] → b.length ≤ c.seg → h.arg2 + b.length ≤ a.len → ∀ u : State, (∀ id, a.desc = some id → u = w.descArrive id h.arg2 b) →
            (a.desc = none → u = (w.pullArrive a.cmd (a.base + h.arg2) b).arrivedAs a.cmd h.mac h.dscp) →
          ((gather a.len (u.askSegs a)).isSome = true → exec (.data h b) s = .next
            ((u.setOdt h.conn { u.odtConn h.conn with asks := (u.odtConn h.conn).asks.filter fun x => x != a }).flow))
          ∧ ((gather a.len (u.askSegs a)).isSome = false → exec (.data h b) s = .next u))))
    ∧ (seqGe h.arg c.credit = true → exec (.credit h) s = .next ((w.setOdt h.conn { c with credit := h.arg }).touch))
    ∧ (seqGe h.arg c.credit = false → exec (.credit h) s = .next w)
    ∧ (c.state = .opening → exec (.keepalive h) s = .next ((w.setOdt h.conn { c with state := .established, since := w.now, hseq := 0xFFFFFFFF, dseq := 0, given := [], safe := 0xFFFFFFFF, carried := [], sent := [], asks := [], cells := 0 }).touch))
    ∧ (c.state = .failed → exec (.keepalive h) s = .next (w.odtCtl h.conn 0 0x40 (.keepalive ((c.hseq + 1) % 2 ^ 32))))
    ∧ (c.state ≠ .opening → c.state ≠ .failed →
      (bitOf h.flags 5 = false → exec (.keepalive h) s = .next w)
      ∧ (bitOf h.flags 5 = true → ∀ u, u = ((w.setOdt h.conn { c with state := .established, since := w.now }).touch).odtCtl
            h.conn 0 0x20 (.keepalive ((c.hseq + 1) % 2 ^ 32)) →
        (c.recover = true → exec (.keepalive h) s = .next (u.odtRecover h.conn h.ack))
        ∧ (c.recover = false → exec (.keepalive h) s = .next ((u.odtConn h.conn).sent.foldl (fun s m => s.odtResend h.conn m) u)))))
  ∧ (∀ (s : State) (k : Nat) (c : OdtConn), c = s.odtConn k →
    (∀ m ms a, c.state = .established → c.sent = m :: ms → a = s.advanceTo (m.at_ + s.odtRto k) →
      (3 ≤ m.tries → exec (.odtRetransmit k) s = .next (a.odtSuspect k))
      ∧ (m.tries < 3 → exec (.odtRetransmit k) s = .next ((a.setOdt k { a.odtConn k with sent := (a.odtConn k).sent.map fun x => if x.seq = m.seq then { x with tries := x.tries + 1 } else x }).odtResend k m)))
    ∧ (c.state ≠ .established ∨ c.sent = [] → exec (.odtRetransmit k) s = .next s)
    ∧ (∀ r, r = c.asks.find? (fun a => a.ackedAt.isSome) →
      (r = none → exec (.odtFetchRetry k) s = .next s)
      ∧ (∀ a t u, r = some a → a.ackedAt = some t → u = (s.advanceTo (t + 64 * usec)).setOdt k { c with asks := c.asks.map fun x => if x = a then { x with ackedAt := none } else x } →
        (∀ slot n, a.slots = some (slot, n) → exec (.odtFetchRetry k) s = .next (u.odtCtl k a.qp 0 (.fetchReq slot n) (u.qp a.qp).baseClass))
        ∧ (a.slots = none → ∀ m cls, m = missingRun a.len 0 (u.askSegs a) → (∀ id, a.desc = some id → cls = u.descClass id) →
            (∀ x, a.desc = none → u.cmd a.cmd = some x → cls = x.cls) → (a.desc = none → u.cmd a.cmd = none → cls = 1) →
          exec (.odtFetchRetry k) s = .next (u.odtCtl k a.qp 0 (.dataPull a.tag m.2 a.mkey (a.addr + m.1)) cls))))
    ∧ (c.state = .opening → exec (.odtKeepaliveSend k) s = .next ((s.advanceTo (c.lastTx + msec)).odtCtl k 0 0 (.keepalive ((c.hseq + 1) % 2 ^ 32))))
    ∧ (c.state = .established ∨ c.state = .suspect → exec (.odtKeepaliveSend k) s
        = .next ((s.advanceTo (c.lastTx + s.odtKa)).odtCtl k 0 0 (.keepalive ((c.hseq + 1) % 2 ^ 32))))
    ∧ (c.state = .closed ∨ c.state = .failed → exec (.odtKeepaliveSend k) s = .next s)
    ∧ (c.state = .established → exec (.odtHostSilence k) s = .next ((s.advanceTo (c.lastRx + 10 * s.odtKa)).odtSuspect k))
    ∧ (c.state ≠ .established → exec (.odtHostSilence k) s = .next s)
    ∧ (c.state = .suspect → exec (.odtResumeExpire k) s = .next ((s.advanceTo (c.since + max 1 (s.field .netOdtCfg 7 0) * msec)).odtFail k))
    ∧ (c.state ≠ .suspect → exec (.odtResumeExpire k) s = .next s)
    ∧ (c.state = .opening → exec (.odtOpeningExpire k) s = .next ((s.advanceTo (c.since + 1000 * msec)).odtFail k))
    ∧ (c.state ≠ .opening → exec (.odtOpeningExpire k) s = .next s))

/-- R314, R325 to R328, R331 to R336, R338, R340, R342, R718, R724. -/
def Obligations.EndpointEventsDoTheirEffect : Prop :=
  (∀ (s : State) (off rid n : Nat) (b : Bytes) (wr : Bool) (ap : Aperture) (x : Nat), ap = tblGet {} s.epf.force (off / 2 ^ 24) →
      x = ap.off + off % 2 ^ 24 → ∀ en, en = (s.epf.linkUp && (s.epFunc 0).mse && decide (off < 2 ^ 30)) →
    (en = false → exec (.peerWindowTlp off rid wr n b) s = .next (s.unsupported 1))
    ∧ (en = true → (ap.en && ap.reqId == rid) = false → exec (.peerWindowTlp off rid wr n b) s = .next ((s.count .epfWinDrop).unsupported 1))
    ∧ (en = true → (ap.en && ap.reqId == rid) = true →
      (ap.data = true → exec (.peerWindowTlp off rid false n b) s = .next ((s.count .epfWinDrop).unsupported 1))
      ∧ (ap.data = true → ∀ k ok, k = s.keyAt (keyIndex ap.mkey) → ok = (s.keyOk ap.mkey true x b.length && k.kind == 3 && bitOf k.access 2) →
        (ok = true → exec (.peerWindowTlp off rid true n b) s = .next (s.storeStaged (s.devAddr ap.mkey x) (b.length + 1) b))
        ∧ (ok = false → exec (.peerWindowTlp off rid true n b) s = .next (((s.count .mmuKeyFail).count .epfWinDrop).unsupported 1)))
      ∧ (ap.data = false → s.bar0Size < x + (if wr then b.length else n) →
          exec (.peerWindowTlp off rid wr n b) s = .next ((s.count .epfWinDrop).unsupported 1))
      ∧ (ap.data = false → x + b.length ≤ s.bar0Size → exec (.peerWindowTlp off rid true n b) s = .next (s.barWrite ap.func x b))
      ∧ (ap.data = false → x + n ≤ s.bar0Size →
        ((s.funcEnabled ap.func && (s.epFunc ap.func).mse) = true →
            exec (.peerWindowTlp off rid false n b) s = .next (s.emit (.winRead (s.barRead ap.func x n))))
        ∧ ((s.funcEnabled ap.func && (s.epFunc ap.func).mse) = false → exec (.peerWindowTlp off rid false n b) s = .next (s.unsupported 1)))))
  ∧ (∀ s : State, (s.readsOn 88 && Config.endpoint s.variant) = false → exec .epfWinCommit s = .next s)
  ∧ (∀ s : State, (s.readsOn 88 && Config.endpoint s.variant) = true →
      ∀ ok, ok = ((List.range 64).all fun a => (s.staged a).off % 4096 == 0 && ((s.staged a).data || s.funcEnabled (s.staged a).func)) →
      (ok = false → exec .epfWinCommit s = .next (s.setField .epfWinCtl 29 29 1))
      ∧ (ok = true → ∀ u : State, u = { s with epf := { s.epf with force := (List.range 64).foldl (fun t a => tblPut {} t a (s.staged a)) ([] : Tbl Aperture) } } →
          exec .epfWinCommit s = .next ((u.setField .epfWinCtl 29 29 0).setField .epfWinCtl 15 0
            (u.field .epfWinCtl 15 0 + 1))))
  ∧ (∀ (s : State) (f v : Nat) (p : MsixPermit) (mse : Bool) (x : EpFunc), x = s.epFunc f →
    ((s.epf.linkUp && s.funcEnabled f) = false → (∀ i ∈ [Instr.msixUnmask f p, .busMasterDisable f mse, .d3hotEntry f,
        .functionLevelReset f, .masterLostRead f], exec i s = .next s))
    ∧ ((s.epf.linkUp && s.funcEnabled f) = true →
      (v < 2048 → exec (.msixUnmask f (.vector v)) s = .next ((s.setFunc f { x with unmasked := tblIns x.unmasked v () }).sendPending f (· == v)))
      ∧ (2048 ≤ v → exec (.msixUnmask f (.vector v)) s = .next s)
      ∧ exec (.msixUnmask f .control) s = .next ((s.setFunc f { x with msixEn := true, fmask := false }).sendPending f fun _ => true)
      ∧ exec (.msixUnmask f (.command mse)) s = .next ((s.setFunc f { x with bme := true, mse }).sendPending f fun _ => true)
      ∧ (x.bme = true → exec (.busMasterDisable f mse) s = .next ((s.setFunc f { x with bme := false, mse }).withdraw f))
      ∧ (x.bme = false → exec (.busMasterDisable f mse) s = .next (s.setFunc f { x with bme := false, mse }))
      ∧ (x.d3hot = false → exec (.d3hotEntry f) s = .next ((s.setFunc f { x with d3hot := true }).withdraw f))
      ∧ (x.d3hot = true → exec (.d3hotEntry f) s = .next s)
      ∧ (f ≠ 0 → exec (.functionLevelReset f) s = .next (s.resetFuncs f (f + 1)))
      ∧ (∀ u, f = 0 → u = s.resetFuncs 0 (s.epf.numVfs + 1) → exec (.functionLevelReset f) s = .next { u with epf := { u.epf with numVfs := 0, force := [] } })
      ∧ exec (.masterLostRead f) s = .next ((s.setFunc f { x with masterLost := false }).emit (.winRead (toLe (s.vsec f) 4)))))
  ∧ (∀ (s : State) (n : Nat),
    ((s.epf.linkUp && decide (n < s.epf.numVfs)) = true → ∀ u, u = s.resetFuncs (n + 1) (s.epf.numVfs + 1) →
        exec (.vfDisable n) s = .next { u with epf := { u.epf with numVfs := n } })
    ∧ ((s.epf.linkUp && decide (n < s.epf.numVfs)) = false → exec (.vfDisable n) s = .next s)
    ∧ ((s.epf.linkUp && Config.endpoint s.variant && decide (s.epf.numVfs < n ∧ n ≤ 63)) = true →
        exec (.vfEnable n) s = .next (({ s with epf := { s.epf with numVfs := n } } : State).presentFuncs (s.epf.numVfs + 1) (n + 1)))
    ∧ ((s.epf.linkUp && Config.endpoint s.variant && decide (s.epf.numVfs < n ∧ n ≤ 63)) = false → exec (.vfEnable n) s = .next s))
  ∧ (∀ (s : State) (sp w : Nat) (fl ok : Bool), ok = (Config.endpoint s.variant && s.bit .epfLink 0 && !s.epf.perst && !s.epf.linkUp
        && ((List.range w).all fun i => s.isOn (88 + i)) && decide (1 ≤ sp ∧ sp ≤ 6) && (w == 1 || w == 2 || w == 4 || w == 8) && (fl || decide (sp < 6))) →
    (ok = true → exec (.endpointLinkUp sp w fl) s = .next (({ s with epf := { s.epf with linkUp := true, speed := sp, width := w, flit := fl } } : State).presentFuncs 0 (s.epf.numVfs + 1)))
    ∧ (ok = false → exec (.endpointLinkUp sp w fl) s = .next s))
  ∧ (∀ (s u : State) (i : Instr), (i = .endpointLinkLoss ∧ u = s ∨ i = .epPerstAssert ∧ u = { s with epf := { s.epf with perst := true } }) →
    (u.epf.linkUp = false → exec i s = .next u)
    ∧ (u.epf.linkUp = true → ∀ v, v = u.resetFuncs 0 (u.epf.numVfs + 1) → exec i s
        = .next ((({ v with epf := { v.epf with linkUp := false, speed := 0, width := 0, flit := false, numVfs := 0 } } : State).setField .epfLink 23 23 1).event .epf)))
  ∧ (∀ s : State, exec .epPerstDeassert s = .next { s with epf := { s.epf with perst := false } })
  ∧ (∀ (s : State) (tag : Nat) (b : Bytes),
    (s.epf.linkUp = false → exec (.dmaCompletionTlp tag b) s = .next s)
    ∧ (s.epf.linkUp = true → (∀ t, tblFind s.epf.tags tag = some t → t.held.isSome = true) → exec (.dmaCompletionTlp tag b) s = .next (s.count .epfLateCpl))
    ∧ (∀ t got, s.epf.linkUp = true → tblFind s.epf.tags tag = some t → t.held = none → got = (t.got ++ b).take t.len →
      (got.length < t.len → exec (.dmaCompletionTlp tag b) s = .next { s with epf := { s.epf with tags := tblIns s.epf.tags tag { t with got } } })
      ∧ (t.len ≤ got.length → ∀ u w : State, u = { s with epf := { s.epf with tags := tblDel s.epf.tags tag } } →
          (∀ q off, t.who = .fetch q off → w = u.updQp q fun x => if x.fetch.isSome then { x with fetchSegs := tblIns x.fetchSegs off got } else x) →
          (∀ q off, t.who = .pull q off → w = u.pullArrive q off got) → (∀ q off, t.who = .desc q off → w = u.descArrive q off got) → (t.who = .gone → w = u) →
          exec (.dmaCompletionTlp tag b) s = .next (w.epPump w.epf.waiting.length).flow)))
  ∧ (∀ (s : State) (tag : Nat),
    ((∀ t, tblFind s.epf.tags tag = some t → t.held.isSome = true) → exec (.completionTimeout tag) s = .next s)
    ∧ (∀ (t : EpTag) (a u w : State), tblFind s.epf.tags tag = some t → t.held = none → a = s.advanceTo (t.at_ + 50 * msec) →
      u = (({ a with epf := { a.epf with tags := tblDel a.epf.tags tag } } : State).count .epfCto).emit (.aerTimeout t.func) →
      (∀ q off, t.who = .fetch q off → w = u.qpError q) → (∀ q off c, t.who = .pull q off → u.cmd q = some c → w = (u.updCmd q fun c => { c with cut := c.past }).qpError c.qp) →
      (∀ q off, t.who = .pull q off → u.cmd q = none → w = u) → (∀ q off, t.who = .desc q off → w = u.descFail q 5) → (t.who = .gone → w = u) →
      exec (.completionTimeout tag) s = .next (w.epPump w.epf.waiting.length).flow))
  ∧ (∀ (s : State) (f : Nat) (due : List Nat), due = s.epf.tags.filterMap (fun t => if t.2.func = f then t.2.held else none) →
    (due = [] → exec (.tagRelease f) s = .next s)
    ∧ (∀ t a u, due.min? = some t → a = s.advanceTo t → u = ({ a with epf := { a.epf with tags := a.epf.tags.filter fun e => !(e.2.func == f && e.2.held.any fun x => decide (x ≤ t)) } } : State) →
        exec (.tagRelease f) s = .next (u.epPump u.epf.waiting.length)))

/-- R351, R376, R377, R611, R642 to R644. -/
def Obligations.CrossbarTapAndGnomonDoTheirEffect : Prop :=
  (∀ s : State, exec .crossbarSlot s = .next (((s.advance 4).xbarSlot.2.2.foldl (fun s r => s.runCrossed r)
        ((s.advance 4).xbarSlot.2.1.foldl (fun s x => s.cellCrossed x.1 x.2) (s.advance 4).xbarSlot.1)).flow)
      ∧ ((s.advance 4).cellsMove = false → exec .crossbarSlot s = .next ((s.advance 4).flow)))
  ∧ (∀ (s : State) (v : Word) (p : Nat) (u : State), p = bitsOf v.toNat 5 0 → u = s.setReg .xbrPartSel p →
    (s.readsOn 144 = false → exec (.xbrPartSel v) s = .next s ∧ exec (.prismEnable v) s = .next s)
    ∧ (s.readsOn 144 = true →
      (Config.portPresent s.variant p = true → exec (.xbrPartSel v) s = .next (((u.setReg .xbrPartState (2 ^ 31 + 2 ^ 30 + 2 ^ 29 * b2n (decide (0 < (u.part p).waiting)) + (u.part p).floor)).setReg
          .xbrPartShared (u.part p).shared).setReg .xbrPartC0ovf (2 ^ 16 * (u.part p).c0 + (u.part p).ovf)))
      ∧ (Config.portPresent s.variant p = false → exec (.xbrPartSel v) s = .next (((u.setReg .xbrPartState (2 ^ 31)).setReg
          .xbrPartShared 0).setReg .xbrPartC0ovf 0))
      ∧ (s.bit .prismCtl 0 = true → bitOf v.toNat 0 = true → exec (.prismEnable v) s = .next s)
      ∧ (s.bit .prismCtl 0 = true → bitOf v.toNat 0 = false → exec (.prismEnable v) s = .next (s.setField .prismCtl 0 0 0))
      ∧ (s.bit .prismCtl 0 = false → bitOf v.toNat 0 = false → exec (.prismEnable v) s = .next (s.setReg .prismCtl (bitsOf v.toNat 12 8 * 2 ^ 8)))
      ∧ (s.bit .prismCtl 0 = false → bitOf v.toNat 0 = true → ∀ n, n = 2 ^ (min 16 (max 8 (bitsOf v.toNat 12 8))) →
        ((0x1000000000 ≤ s.prismBase ∧ s.prismBase + 256 * n ≤ s.hbmEnd) → exec (.prismEnable v) s
          = .next (((s.setReg .prismCtl (bitsOf v.toNat 12 8 * 2 ^ 8 + 1)).setReg .prismProd 0).setReg .prismCons 0))
        ∧ (¬ (0x1000000000 ≤ s.prismBase ∧ s.prismBase + 256 * n ≤ s.hbmEnd) → exec (.prismEnable v) s = .next s))))
  ∧ (∀ s : State, s.isOn 164 = false → exec .ppsEdge s = .next s ∧ exec .ppsWindowClose s = .next s
      ∧ exec .rateSecond s = .next s ∧ exec .ppsDisable s = .next s)
  ∧ (∀ (s : State) (win : Nat → Prop), (∀ k, win k ↔ k * 24997500 ≤ s.periods ∧ s.periods ≤ k * 25002500) → s.isOn 164 = true →
    (s.bit .gnmCtl 0 = false → exec .ppsEdge s = .next s)
    ∧ (s.bit .gnmCtl 0 = true →
      ((s.gnm.state = .free ∨ s.gnm.state = .holdover) → exec .ppsEdge s = .next s.candidate)
      ∧ (s.gnm.state = .acquire → win 1 → exec .ppsEdge s = .next ((s.align 1).gnmTo .locked))
      ∧ (s.gnm.state = .acquire → ¬ win 1 → exec .ppsEdge s = .next (s.count .gnmPpsBad).candidate)
      ∧ (s.gnm.state = .locked → (∀ k, (k = 1 ∨ k = 2 ∨ k = 3) → win k → (∀ j, 1 ≤ j → j < k → ¬ win j) → exec .ppsEdge s = .next (s.align k)))
      ∧ (s.gnm.state = .locked → ¬ win 1 → ¬ win 2 → ¬ win 3 → exec .ppsEdge s = .next ((s.count .gnmPpsBad).raise 25)))
    ∧ (s.gnm.state ≠ .locked → exec .ppsWindowClose s = .next s)
    ∧ (s.gnm.state = .locked → ∀ k u, k = s.gnm.missed + 1 → u = (s.advanceTo (s.gnm.edgeAt.getD s.now + k * 25002500 * 40)).count .gnmPpsMiss →
      (k = 3 → exec .ppsWindowClose s = .next (({ u with gnm := { u.gnm with missed := k } } : State).gnmTo .holdover))
      ∧ (k ≠ 3 → exec .ppsWindowClose s = .next { u with gnm := { u.gnm with missed := k } }))
    ∧ (s.gnm.rateNext.isSome = true → exec .rateSecond s
        = .next (s.advance (s.gnm.cyclesTo ((s.gnmNs / 1000000000 + 1) * 1000000000 * 2 ^ 32))))
    ∧ (s.gnm.rateNext.isSome = false → exec .rateSecond s = .next s)
    ∧ ((s.gnm.state = .acquire ∨ s.gnm.state = .locked) → exec .ppsDisable s = .next ((s.setField .gnmCtl 0 0 0).gnmTo .holdover))
    ∧ ((s.gnm.state = .free ∨ s.gnm.state = .holdover) → exec .ppsDisable s = .next (s.setField .gnmCtl 0 0 0)))
  ∧ (∀ s : State, (s.glm.asleep = true → exec .housekeepingEdge s = .next s)
      ∧ (s.glm.asleep = false → ∀ u, u = s.sampleIslands s.readsOn → exec .housekeepingEdge s = .next { u with fab := { u.fab with unsampled := u.fab.unsampled.filter fun e => u.fab.posted.any fun w => w.off == e.1 || w.off + 4 == e.1 } }))

/-- R545 to R547, R550, R554 to R557, R559, R564, R566, R572, R692. -/
def Obligations.MirrorFramesDoTheirEffect : Prop :=
  (∀ (s : State) (a b n p : Nat) (r : Role) (l fl ok : Bool) (es : List (Nat × Bytes)) (img : Option RepImage) (rs : List LogRec) (k : BulkKind) (bs : Bytes) (i : Instr),
      i ∈ [Instr.hello n r l a b ok, .renew n ok, .renewAck n a b ok, .lines n es ok, .commit n a b img ok, .copyAck n l fl ok, .log rs ok, .logAck n ok,
        .release n ok, .leave ok, .bulk k p bs l ok, .bulkAck k p ok] →
    (((s.shd.halfA || s.shd.halfB) = false ∨ s.isOn 162 = false) → exec i s = .next s)
    ∧ ((s.shd.halfA || s.shd.halfB) = true → s.isOn 162 = true → ok = false → exec i s = .next (s.count .shdLinkErr)))
  ∧ (∀ (s : State), (s.shd.halfA || s.shd.halfB) = true → s.isOn 162 = true →
    (∀ n r l a b, (s.bit .shdCtl 0 = false → exec (.hello n r l a b true) s = .next (({ s with shd := { s.shd with peer := true } } : State).raise 23))
      ∧ (s.bit .shdCtl 0 = true → ∀ u known, known = (s.shd.peer && s.shd.peerSerial == n) → u = ({ s with shd := { s.shd with peer := true, peerSerial := n, peerRole := r, peerLast := l, peerReach := a, peerNet := b } } : State).raise 23 →
        (u.shd.role = .solo → exec (.hello n r l a b true) s = .next (State.elect { u.setRole .pairing with shd := { (u.setRole .pairing).shd with wasSolo := true, pairStart := some (u.setRole .pairing).now } }))
        ∧ (u.shd.role = .pairing → exec (.hello n r l a b true) s = .next (if u.shd.won.isSome then u else u.elect))
        ∧ (u.shd.role = .active → (r = .pairing ∧ (known = false ∨ u.shd.copy0Acked = false ∧ u.shd.logging = false) ∧ u.shd.releasing = none) →
            exec (.hello n r l a b true) s = .next u.cutFirst)
        ∧ (u.shd.role = .active → ¬ (r = .pairing ∧ (known = false ∨ u.shd.copy0Acked = false ∧ u.shd.logging = false) ∧ u.shd.releasing = none) →
            exec (.hello n r l a b true) s = .next u)
        ∧ (u.shd.role ≠ .solo → u.shd.role ≠ .pairing → u.shd.role ≠ .active → exec (.hello n r l a b true) s = .next u)))
    ∧ (∀ n a b, (∀ r, s.shd.renews.find? (fun r => r.1 == n) = some r → exec (.renewAck n a b true) s = .next (State.reach { s with shd := { s.shd with renews := s.shd.renews.filter fun x => decide (n < x.1), leaseFrom := some (max r.2 (s.shd.leaseFrom.getD 0)), ackAt := some s.now, renewAcked := true, peerReach := a, peerNet := b } }).tryActive)
      ∧ (s.shd.renews.find? (fun r => r.1 == n) = none → exec (.renewAck n a b true) s = .next s))
    ∧ (s.follows = false → ∀ n a b es img rs, exec (.renew n true) s = .next s ∧ exec (.lines n es true) s = .next s
        ∧ exec (.commit n a b img true) s = .next s ∧ exec (.log rs true) s = .next s)
    ∧ (s.follows = true →
      (∀ n u, u = ({ s with shd := { s.shd with heardAt := some s.now, epoch := n } } : State) →
          exec (.renew n true) s = .next (u.mirror .renewAck [n, u.slotsReached, u.linksUp] []))
      ∧ (∀ n es, (1 ≤ es.length → es.length ≤ 56 → exec (.lines n es true) s = .next { s with shd := { s.shd with staged := some (n, (((s.shd.staged.filter fun x => x.1 == n).map (·.2)).getD []) ++ es) } })
        ∧ ((es.length = 0 ∨ 56 < es.length) → exec (.lines n es true) s = .next s))
      ∧ (∀ n a b img es c, es = ((s.shd.staged.filter fun x => x.1 == n).map (·.2)).getD [] →
          c = es.foldl (fun c e => crcRun c (toLe e.1 8 ++ e.2)) 0xFFFFFFFF ^^^ 0xFFFFFFFF →
        ((es.length = a ∧ c = b) → exec (.commit n a b img true) s = .next (s.applyCopy n es img))
        ∧ (¬ (es.length = a ∧ c = b) → exec (.commit n a b img true) s = .next (({ s with shd := { s.shd with staged := none } } : State).mirror .copyAck [n, 1] [])))
      ∧ (∀ rs, (1 ≤ rs.length → rs.length ≤ 32 → ∀ u, u = ({ s with shd := { s.shd with held := s.shd.held ++ rs.filter fun r => !(s.shd.held.any fun h => h.num == r.num) } } : State) →
            exec (.log rs true) s = .next (u.mirror .logAck [u.shd.held.foldl (fun m r => max m r.num) 0] []))
        ∧ ((rs.length = 0 ∨ 32 < rs.length) → exec (.log rs true) s = .next s)))
    ∧ (s.shd.logging = false → ∀ n l fl, exec (.copyAck n l fl true) s = .next s ∧ exec (.logAck n true) s = .next s)
    ∧ (s.shd.logging = true →
      (∀ n l u, u = ({ s with shd := { s.shd with flashAcked := max n s.shd.flashAcked } } : State) →
          exec (.copyAck n l true true) s = .next (((u.cph.slots.map (·.1)).foldl State.markCheck u).flow))
      ∧ (∀ n l, ((∀ c, s.shd.copy = some c → c.num ≠ n ∨ c.committed = false) → exec (.copyAck n l false true) s = .next s)
        ∧ (∀ c, s.shd.copy = some c → c.num = n → c.committed = true →
          exec (.copyAck n false false true) s = .next (s.copyDone c)
          ∧ exec (.copyAck n true false true) s = .next (State.sendCopy { s with shd := { s.shd with copy := some { c with left := c.lines, sent := 0, crc := 0xFFFFFFFF, committed := false } } })))
      ∧ (∀ n log st w, log = s.shd.log.filter (fun r => decide (n < r.num)) → st = (s.shd.logStall && log.any fun r => r.resent) →
          w = s.shd.logWait.map (fun r => { r with at_ := s.now }) →
        (st = true → exec (.logAck n true) s = .next (State.logProgress { s with shd := { s.shd with log, logStall := true } }))
        ∧ (st = false → exec (.logAck n true) s = .next (w.foldl State.mirrorLog { s with shd := { s.shd with log := log ++ w, logStall := false, logWait := [] } }).logProgress)))
    ∧ (∀ n, ((s.shd.role = .shadow ∧ s.shd.applied = some n) → exec (.release n true) s = .next (s.takeover false))
      ∧ (¬ (s.shd.role = .shadow ∧ s.shd.applied = some n) → exec (.release n true) s = .next s))
    ∧ (s.shd.role ≠ .active → exec (.leave true) s = .next s)
    ∧ (s.shd.role = .active → s.shd.releasing.isSome = true → exec (.leave true) s = .next (s.becomeFenced none))
    ∧ (s.shd.role = .active → s.shd.releasing.isSome = false → ∀ u : State, (∀ a, s.sys.activation = some a → u = if a.rollback then s else s.putPointer a.slot 0) →
        (s.sys.activation = none → u = s) → exec (.leave true) s = .next (State.becomeSolo { u with sys := { u.sys with activation := u.sys.activation.map fun a => { a with shadowAway := true } } }))
    ∧ (∀ k off b l had, had = (if off = 0 then [] else ((s.shd.bulkIn.find? fun x => x.1 == k).map (·.2)).getD []) →
      ((s.bulkTakes k = false ∨ had.length ≠ off) → exec (.bulk k off b l true) s = .next s)
      ∧ (s.bulkTakes k = true → had.length = off → ∀ u, u = (s.mirror .bulkAck (k.code ++ [off + b.length]) []).raise 19 →
        exec (.bulk k off b true true) s = .next ((u.setBulkIn k none).bulkWhole k (had ++ b))
        ∧ exec (.bulk k off b false true) s = .next (u.setBulkIn k (some (had ++ b)))))
    ∧ (∀ k off, (s.shd.bulk = [] → exec (.bulkAck k off true) s = .next s)
      ∧ (∀ x rest, s.shd.bulk = x :: rest →
        ((x.kind ≠ k ∨ off ≤ x.acked ∧ x.bytes.length ≠ off) → exec (.bulkAck k off true) s = .next s)
        ∧ (x.kind = k → x.bytes.length ≤ off → (x.acked < off ∨ x.bytes.length = off) →
            exec (.bulkAck k off true) s = .next (({ s with shd := { s.shd with bulk := rest } } : State).bulkDone x))
        ∧ (x.kind = k → off < x.bytes.length → x.acked < off →
            exec (.bulkAck k off true) s = .next ({ s with shd := { s.shd with bulk := { x with acked := off } :: rest } } : State).bulkNext))))

/-- R545, R546, R548, R553, R557, R559, R560, R562, R563, R565 to R567, R689, R695. -/
def Obligations.MirrorEventsDoTheirEffect : Prop :=
  (∀ (s : State) (t : Nat), s.shd.role = .pairing → s.shd.pairStart = some t →
    (s.bit .shdCtl 0 = true → ∀ a, a = s.advanceTo ((s.shd.helloSent.map fun h => h + 10 * usec).getD t) →
      ∀ m, m = a.mirror .hello [Config.serial, a.helloRole.code, b2n a.lastActive, a.slotsReached, a.linksUp] [] →
      exec .helloSend s = .next { m with shd := { m.shd with helloSent := some m.now } })
    ∧ (s.bit .shdCtl 0 = false → exec .helloSend s = .next s)
    ∧ ((s.shd.peer && s.bit .shdCtl 0) = true → exec .pairingTimeout s = .next s)
    ∧ ((s.shd.peer && s.bit .shdCtl 0) = false → exec .pairingTimeout s = .next (s.advanceTo (t + 1000 * msec)).becomeSolo))
  ∧ (∀ s : State, (s.shd.role ≠ .pairing ∨ s.shd.pairStart = none) → exec .helloSend s = .next s ∧ exec .pairingTimeout s = .next s)
  ∧ (∀ (s : State) (off : Bool), off = (!s.shd.logging || !s.isOn 162 || (s.shd.stopped && s.shd.releasing.isNone)) →
    (off = true → exec .epochEnd s = .next s)
    ∧ (off = false → ∀ a n b c, a = s.advanceTo (s.shd.epochAt + 20 * usec) → n = a.shd.epoch →
        b = State.mirror { a with shd := { a.shd with bulkBytes := 0, linesWaited := a.shd.wire.any fun f => f.kind == .lines } } .renew [n] [] →
        c = ({ b with shd := { b.shd with renews := b.shd.renews ++ [(n, b.now)], epoch := (n + 1) % 2 ^ 64, epochAt := b.now } } : State) →
        ∀ d, d = (if c.epochLines = 0 then c else c.cutMarked) →
        exec .epochEnd s = .next (if d.shd.role = .active then d.epochChecks else d)))
  ∧ (∀ s : State, (s.shd.log = [] → exec .logResend s = .next s)
      ∧ (∀ r rs a, s.shd.log = r :: rs → a = (s.advanceTo (r.at_ + 1500)).count .shdLogRetx → exec .logResend s = .next
          (State.mirrorLog { a with shd := { a.shd with log := { r with at_ := a.now, resent := true } :: rs, logStall := true } } { r with at_ := a.now, resent := true })))
  ∧ (∀ s : State, (∀ t a, s.shd.role = .active → s.shd.leaseFrom = some t → a = s.advanceTo (t + 1000 * usec) →
        exec .activeLeaseExpire s = .next (a.becomeFenced (if a.shd.releasing.isSome then none else some (.waiting a.now))))
      ∧ ((s.shd.role ≠ .active ∨ s.shd.leaseFrom = none) → exec .activeLeaseExpire s = .next s)
      ∧ (∀ t, s.shd.role = .shadow → s.shd.heardAt = some t → exec .shadowLeaseExpire s = .next ((s.advanceTo (t + 1100 * usec)).takeover true))
      ∧ ((s.shd.role ≠ .shadow ∨ s.shd.heardAt = none) → exec .shadowLeaseExpire s = .next s)
      ∧ (∀ t a, s.shd.role = .fenced → s.shd.tie = some (.waiting t) → a = s.advanceTo (t + 1200 * usec) →
        (∀ sl, a.shd.arbiter = some sl → exec .tieBreakWait s = .next { a.emit (.driveCtl sl "PREEMPT") with shd := { a.shd with tie := some .preempting } })
        ∧ (a.shd.arbiter = none → exec .tieBreakWait s = .next { a with shd := { a.shd with tie := none } }))
      ∧ ((s.shd.role ≠ .fenced ∨ ∀ t, s.shd.tie ≠ some (.waiting t)) → exec .tieBreakWait s = .next s)
      ∧ (s.shd.role = .takingOver → s.shd.tie = some .preempting → exec (.arbiterPreemptDone true) s = .next s.finishTakeover
          ∧ exec (.arbiterPreemptDone false) s = .next (s.becomeFenced none))
      ∧ (s.shd.role = .fenced → s.shd.tie = some .preempting → exec (.arbiterPreemptDone true) s = .next s.becomeSolo
          ∧ exec (.arbiterPreemptDone false) s = .next { s with shd := { s.shd with tie := none } })
      ∧ (∀ ok, ((s.shd.role ≠ .takingOver ∧ s.shd.role ≠ .fenced) ∨ s.shd.tie ≠ some .preempting) → exec (.arbiterPreemptDone ok) s = .next s)
      ∧ (∀ sl, (tblFind s.shd.acquiring sl = none → exec (.reservationAcquireTimeout sl) s = .next s)
        ∧ (∀ t a, tblFind s.shd.acquiring sl = some t → a = s.advanceTo (t + 100 * msec) → exec (.reservationAcquireTimeout sl) s
            = .next (State.memberMissing { a with shd := { a.shd with acquiring := tblDel a.shd.acquiring sl } } sl))))
  ∧ (∀ s : State, (s.readsOn 162 = false → exec .shdCtlRelease s = .next s ∧ exec .shdCtlLeave s = .next s)
      ∧ (s.readsOn 162 = true → ∀ no, no = (s.shd.role ≠ .active ∨ s.shd.releasing.isSome = true ∨ s.shd.copy0Acked = false) →
        (no → exec .shdCtlRelease s = .next s)
        ∧ (¬ no → ∀ f g, f = (s.count .shdReleases).assertFence →
            g = ({ f with shd := { f.shd with releasing := some { copy := f.shd.copySent + 1 }, copy := none } } : State) → exec .shdCtlRelease s
            = .next ((f.shd.log.foldl State.mirrorLog g).cutCopy (f.shd.copySent + 1) (((f.shd.copy.map (·.lines)).getD []) ++ lineRuns (f.shd.marks.map (·.1))) true))
        ∧ (s.shd.role ≠ .shadow → exec .shdCtlLeave s = .next s)
        ∧ (s.shd.role = .shadow → ∀ u, u = (((s.mirror .leave [] []).setField .shdCtl 0 0 0).cfgPut 0x0E (Reg.off .shdCtl) (some (.register 0))).unpair.setRole .pairing →
            exec .shdCtlLeave s = .next { u with shd := { u.shd with pairStart := some u.now, helloSent := none, staged := none, applied := none, held := [], flashDue := [] } })))
  ∧ (∀ s : State, (s.shd.halfA || s.shd.halfB) = false → exec .mirrorLinkLoss s = .next s)
  ∧ (∀ (s : State) (u : State) (i : Instr), (s.shd.halfA || s.shd.halfB) = true → u = s.mirrorLost →
      (i = .mirrorLinkLoss ∨ (i = .mirrorLinkHalfChange 0 false ∧ s.shd.halfB = false) ∨ (i = .mirrorLinkHalfChange 1 false ∧ s.shd.halfA = false)) →
      exec i s = .next (u.fatalUnlinked true))
  ∧ (∀ (s : State) (h : Nat) (up was other : Bool), was = (if h = 0 then s.shd.halfA else s.shd.halfB) → other = (if h = 0 then s.shd.halfB else s.shd.halfA) →
    ((2 ≤ h ∨ was = up ∨ up = true ∧ ((List.range 4).all fun l => s.isOn (80 + 4 * h + l)) = false) →
        exec (.mirrorLinkHalfChange h up) s = .next (s.fatalUnlinked (s.shd.halfA || s.shd.halfB)))
    ∧ (h < 2 → ∀ u : State, u = { s with shd := if h = 0 then { s.shd with halfA := up } else { s.shd with halfB := up } } →
      (was = false → up = true → ((List.range 4).all fun l => s.isOn (80 + 4 * h + l)) = true → ∀ v, v = (if other then u else (u.raise 17).bulkNext) →
          exec (.mirrorLinkHalfChange h up) s = .next (v.fatalUnlinked (s.shd.halfA || s.shd.halfB)))
      ∧ (was = true → up = false → other = true → exec (.mirrorLinkHalfChange h up) s = .next (u.fatalUnlinked (s.shd.halfA || s.shd.halfB)))))

/-- R582, R586 to R590, R592 to R598, R602, R606 to R608. -/
def Obligations.SlotPowerEventsDoTheirEffect : Prop :=
  (∀ (s : State) (sl : Nat), s.slotRuns sl = false →
      (∀ i ∈ [Instr.presenceEdge sl, .presenceLost sl, .presenceBounce sl, .fastTrip sl, .faultTimerExpire sl, .rampTimeout sl, .rampComplete sl, .powerGoodLost sl,
        .faultHistoryExpire sl, .insertDelayExpire sl, .rampStart sl, .retryExpire sl, .peerHoldDetect sl, .pgoodDeassert sl, .rootPortTrainStart sl, .spmSlotCycle sl,
        .spmSlotRelease sl], exec i s = .next s))
  ∧ (∀ (s : State) (sl : Nat) (x : Slot), x = s.slot sl → s.slotRuns sl = true →
    (x.present = true → exec (.presenceEdge sl) s = .next s)
    ∧ (x.present = false → ∀ u, u = s.setSlot sl { x with present := true, edgeAt := s.now } →
        exec (.presenceEdge sl) s = .next (if x.state = .empty then u.slotTo sl (if u.slotEn sl then .insert else .disabled) else u))
    ∧ (x.present = false → exec (.presenceLost sl) s = .next s)
    ∧ (x.present = true → x.state = .quarantined → exec (.presenceLost sl) s = .next (s.setSlot sl { x with present := false }))
    ∧ (x.present = true → x.state ≠ .quarantined → exec (.presenceLost sl) s = .next ((s.setSlot sl { x with present := false }).slotTo sl .empty))
    ∧ exec (.presenceBounce sl) s = .next (s.count .spmBounce)
    ∧ (x.state.gate = true → exec (.fastTrip sl) s = .next ((s.setSlot sl { x with trip := true }).slotFault sl 1))
    ∧ (x.state.gate = false → exec (.fastTrip sl) s = .next (s.setSlot sl { x with trip := true }))
    ∧ ((x.state.gate = true ∧ s.faultLimit ≤ x.timer) → exec (.faultTimerExpire sl) s = .next (s.slotFault sl 2))
    ∧ (¬ (x.state.gate = true ∧ s.faultLimit ≤ x.timer) → exec (.faultTimerExpire sl) s = .next s)
    ∧ (x.state = .ramp → exec (.rampTimeout sl) s = .next ((s.advanceTo (x.gateAt + 20 * msec)).slotFault sl (if s.faultLimit ≤ x.timer then 2 else 3)))
    ∧ (x.state ≠ .ramp → exec (.rampTimeout sl) s = .next s)
    ∧ ((x.state = .ramp ∧ s.now ≤ x.gateAt + 20 * msec) → exec (.rampComplete sl) s = .next (s.slotTo sl .on))
    ∧ (¬ (x.state = .ramp ∧ s.now ≤ x.gateAt + 20 * msec) → exec (.rampComplete sl) s = .next s)
    ∧ (x.state = .on → exec (.powerGoodLost sl) s = .next ((s.setSlot sl { x with pg := false }).slotFault sl 4))
    ∧ (x.state ≠ .on → exec (.powerGoodLost sl) s = .next s)
    ∧ (∀ t rest, x.faults = t :: rest → exec (.faultHistoryExpire sl) s = .next ((s.advanceTo (t + 60000 * msec)).setSlot sl { x with faults := rest }))
    ∧ (x.faults = [] → exec (.faultHistoryExpire sl) s = .next s)
    ∧ ((x.state = .insert ∧ (s.rail (sl / 12)).good = true) → exec (.insertDelayExpire sl) s
        = .next ((s.advanceTo (max x.edgeAt (s.rail (sl / 12)).goodAt + s.insertDelay)).slotTo sl .queued))
    ∧ (¬ (x.state = .insert ∧ (s.rail (sl / 12)).good = true) → exec (.insertDelayExpire sl) s = .next s)
    ∧ ((s.nextRamp = some sl ∧ s.ramping < s.inrushMax) → exec (.rampStart sl) s = .next (s.slotTo sl .ramp))
    ∧ (¬ (s.nextRamp = some sl ∧ s.ramping < s.inrushMax) → exec (.rampStart sl) s = .next s)
    ∧ (∀ t a, x.retryAt = some t → x.state = .latched → a = s.advanceTo t → exec (.retryExpire sl) s = .next (a.slotTo sl (if (a.rail (sl / 12)).good then .queued else .insert)))
    ∧ ((x.retryAt = none ∨ x.state ≠ .latched) → exec (.retryExpire sl) s = .next s)
    ∧ ((x.state.gate = false ∧ x.peerHold = false) → exec (.peerHoldDetect sl) s = .next ((s.setSlot sl { x with pg := true, peerHold := true }).event .spm))
    ∧ (¬ (x.state.gate = false ∧ x.peerHold = false) → exec (.peerHoldDetect sl) s = .next s)
    ∧ (x.state ≠ .on → exec (.pgoodDeassert sl) s = .next (s.setSlot sl { x with pg := false, peerHold := false }))
    ∧ (x.state = .on → exec (.pgoodDeassert sl) s = .next s)
    ∧ ((x.state = .on ∧ x.perstOff = false) → exec (.rootPortTrainStart sl) s
        = .next (((s.advanceTo (x.onAt + 10 * msec)).setSlot sl { x with perstOff := true }).emit (.pin "DRV_PERST_N" sl true)))
    ∧ (¬ (x.state = .on ∧ x.perstOff = false) → exec (.rootPortTrainStart sl) s = .next s)
    ∧ (x.state = .latched → exec (.spmSlotCycle sl) s = .next (s.slotTo sl (if (s.rail (sl / 12)).good then .queued else .insert)))
    ∧ (x.state ≠ .latched → exec (.spmSlotCycle sl) s = .next s)
    ∧ (x.state = .quarantined → ∀ u, u = s.setSlot sl { x with faults := [] } → exec (.spmSlotRelease sl) s
        = .next (u.slotTo sl (if x.present then (if u.slotEn sl then .insert else .disabled) else .empty)))
    ∧ (x.state ≠ .quarantined → exec (.spmSlotRelease sl) s = .next s))
  ∧ (∀ (s : State) (sl : Nat) (d : Bool), ((s.slot sl).shutdown = none → exec (.shutdownComplete sl d) s = .next s)
      ∧ (∀ t q, (s.slot sl).shutdown = some (t, q) → exec (.shutdownComplete sl d) s = .next ((if d then s else s.advanceTo (t + 10000 * msec)).slotTo sl .disabled)))
  ∧ (∀ (s : State) (g : Nat) (x : Rail), x = s.rail g →
    ((s.readsOn 163 = false ∨ s.railPresent g = false ∨ x.good = true ∨ x.inSince = none) → exec (.railGroupGood g) s = .next s)
    ∧ (∀ t a, s.readsOn 163 = true → s.railPresent g = true → x.good = false → x.inSince = some t → a = s.advanceTo (t + 50 * msec) →
        exec (.railGroupGood g) s = .next (a.setRail g { x with good := true, goodAt := a.now }))
    ∧ ((s.readsOn 163 = false ∨ x.good = false ∨ (x.ok12 = true ∧ x.ok3 = true)) → exec (.railGroupNotGood g) s = .next s)
    ∧ (s.readsOn 163 = true → x.good = true → (x.ok12 = false ∨ x.ok3 = false) → exec (.railGroupNotGood g) s = .next ((List.range 12).foldl
        (fun s i => if (s.slot (12 * g + i)).state = .queued ∨ (s.slot (12 * g + i)).state = .ramp then s.slotTo (12 * g + i) .insert else s)
        (((s.setRail g { x with good := false, inSince := none }).count .spmRailOut).event .spm))))
  ∧ (∀ (s : State) (g ch code c : Nat), c = code % 4096 →
    ((s.readsOn 163 = false ∨ s.railPresent g = false ∨ 13 < ch ∨ (ch < 12 ∧ Config.slots s.variant ≤ 12 * g + ch)) → exec (.converterSample g ch code) s = .next s)
    ∧ (s.readsOn 163 = true → s.railPresent g = true →
      (ch < 12 → 12 * g + ch < Config.slots s.variant → ∀ x, x = s.slot (12 * g + ch) →
        (x.state.gate = false → exec (.converterSample g ch code) s = .next (s.setSlot (12 * g + ch) { x with current := c, trip := false }))
        ∧ (x.state.gate = true → s.slotLim (12 * g + ch) ≤ c → exec (.converterSample g ch code) s
            = .next (s.setSlot (12 * g + ch) { x with current := c, trip := false, timer := x.timer + 14, below := 0 }))
        ∧ (x.state.gate = true → c < s.slotLim (12 * g + ch) → exec (.converterSample g ch code) s
            = .next (s.setSlot (12 * g + ch) { x with current := c, trip := false, below := x.below + 14, timer := if 1000 ≤ x.below + 14 then 0 else x.timer })))
      ∧ (∀ y, ch = 12 → y = { s.rail g with v12 := c * 1440 / 4095, ok12 := decide (1080 * 4095 ≤ c * 1440 ∧ c * 1440 ≤ 1320 * 4095) } →
          exec (.converterSample g ch code) s = .next (s.setRail g { y with inSince := if y.ok12 ∧ y.ok3 then some (y.inSince.getD s.now) else none }))
      ∧ (∀ y, ch = 13 → y = { s.rail g with v3 := c * 2250 / 4095, ok3 := decide (1500 * 4095 ≤ c * 2250 ∧ c * 2250 ≤ 1800 * 4095) } →
          exec (.converterSample g ch code) s = .next (s.setRail g { y with inSince := if y.ok12 ∧ y.ok3 then some (y.inSince.getD s.now) else none }))))

/-- R45, R48, R609 to R615, R618, R619, R621. -/
def Obligations.RegisterFabricCommandsDoTheirEffect : Prop :=
  (∀ (s : State) (req : Requester) (off n : Nat) (v : Word) (al : Option Nat), s.glm.asleep = true → ∀ i : Instr,
      i ∈ [Instr.registerWrite req off v, .rcRead req off al, .aliasWrite req off n v, .postedWriteApply req n, .sysWsync req, .busErrorTimeout req,
        .sysMode req v, .sysSnap v] → exec i s = .next s)
  ∧ (∀ (s : State) (req : Requester) (off b : Nat) (v : Word) (al : Option Nat), s.glm.asleep = false →
    (off % 4 ≠ 0 → ∀ u, u = (if s.isStalled req then s else match req with | .thread _ _ => s | _ => (s.count .sysBusErr).emit (.busError req off)) →
        exec (.registerWrite req off v) s = .next u ∧ exec (.rcRead req off al) s = .next u ∧ exec (.aliasWrite req off b v) s = .next u)
    ∧ (off % 4 = 0 →
      (32 ≤ b → exec (.aliasWrite req off b v) s = .next s)
      ∧ (s.isStalled req = true → exec (.registerWrite req off v) s = .next s ∧ exec (.rcRead req off al) s = .next s ∧ exec (.aliasWrite req off b v) s = .next s)
      ∧ (s.isStalled req = false →
        (regAt off = none → exec (.registerWrite req off v) s = .next s ∧ exec (.aliasWrite req off b v) s = .next s)
        ∧ (∀ r i up, regAt off = some (r, i, up) →
          (s.absentReg r i = true → exec (.registerWrite req off v) s = .next s ∧ exec (.aliasWrite req off b v) s = .next s)
          ∧ (s.absentReg r i = false → b < 32 → exec (.aliasWrite req off b v) s = .next (s.submit req r i up off (.bit b (bitOf v.toNat 0))))
          ∧ (s.absentReg r i = false → r.info.wide = false → exec (.registerWrite req off v) s = .next (s.submit req r i up off (.word v.toNat)))
          ∧ (s.absentReg r i = false → r.info.wide = true → ∀ rest, rest = s.fab.held.filter (fun e => !(e.1 == req && e.2.1 == r.off i)) →
            (up = false → exec (.registerWrite req off v) s = .next { s with fab := { s.fab with held := rest ++ [(req, r.off i, v.toNat)] } })
            ∧ (up = true → (∀ e, s.fab.held.find? (fun e => e.1 == req && e.2.1 == r.off i) = some e → exec (.registerWrite req off v) s
                = .next (({ s with fab := { s.fab with held := rest } } : State).submit req r i false (r.off i) (.wide e.2.2 v.toNat)))
              ∧ (s.fab.held.find? (fun e => e.1 == req && e.2.1 == r.off i) = none → exec (.registerWrite req off v) s = .next (s.submit req r i true off (.word v.toNat))))))
        ∧ (∀ k up, al = none → regAt off = some (.icuClaim, k, up) → exec (.rcRead req off al) s = .next (s.icuClaim req k))
        ∧ ((al ≠ none ∨ ∀ k up, regAt off ≠ some (.icuClaim, k, up)) →
          (s.servedNow off = true → exec (.rcRead req off al) s = .next ((s.readWord req off al true).1.emit (.readData req off (s.readWord req off al true).2)))
          ∧ (s.servedNow off = false → exec (.rcRead req off al) s = .next { s with fab := { s.fab with stalled := s.fab.stalled ++ [{ req, off, op := none, aliasBit := al, since := s.now }] } })))))
  ∧ (∀ (s : State) (req : Requester) (r : Reg) (i off : Nat) (up : Bool) (op : RegOp),
    (r.owner i = 165 → s.submit req r i up off op = s.applyOp req off op)
    ∧ (r.owner i ≠ 165 → s.field .sysMode 1 0 = 0 → s.submit req r i up off op
        = ({ s with fab := { s.fab with posted := s.fab.posted ++ [{ req, off, op }] } } : State).overlay r i (op.bits up))
    ∧ (r.owner i ≠ 165 → s.field .sysMode 1 0 ≠ 0 → s.isOn (r.owner i) = true → s.submit req r i up off op = s.applySeen req off op)
    ∧ (r.owner i ≠ 165 → s.field .sysMode 1 0 ≠ 0 → s.isOn (r.owner i) = false → s.submit req r i up off op
        = { s with fab := { s.fab with stalled := s.fab.stalled ++ [{ req, off, op := some op, aliasBit := none, since := s.now }] } }))
  ∧ (∀ (s : State) (req : Requester) (v : Word) (isl : Nat), s.glm.asleep = false →
    (∀ f, f = s.fab.posted.find? (fun w => w.req == req && ownerAt w.off == isl) →
      (f = none ∨ (s.island isl).busy.isSome = true → exec (.postedWriteApply req isl) s = .next s)
      ∧ (∀ w u, f = some w → (s.island isl).busy.isSome = false → u = ({ s with fab := { s.fab with posted := rmFirst (fun w => w.req == req && ownerAt w.off == isl) s.fab.posted } } : State) →
          exec (.postedWriteApply req isl) s = .next (if (s.island isl).state = .on then u.applyOp req w.off w.op else u)))
    ∧ (s.isStalled req = true → exec (.sysWsync req) s = .next s ∧ exec (.sysMode req v) s = .next s)
    ∧ (s.isStalled req = false → exec (.sysWsync req) s = .next ((s.wsync req).1.emit (.readData req (Reg.off .sysWsync) (s.wsync req).2))
        ∧ (∀ old, old = s.field .sysMode 1 0 → ∀ ok, ok = ((match req with | .thread _ _ => false | _ => true) && (v.toNat % 4 != 2 || old == 1) && (old != 2 || v.toNat % 4 == 3)) →
            exec (.sysMode req v) s = .next (if ok then s.setField .sysMode 1 0 (v.toNat % 4) else s)))
    ∧ (∀ f, f = s.fab.stalled.find? (fun x => x.req == req) →
      (f = none → exec (.busErrorTimeout req) s = .next s)
      ∧ (∀ x a u, f = some x → a = s.advanceTo (x.since + 2 * usec) →
          u = ({ a with fab := { a.fab with stalled := rmFirst (fun y => y.req == req) a.fab.stalled } } : State).count .sysBusErr →
        ((∀ e t, req = .thread e t → (u.thr e t).access = none) → exec (.busErrorTimeout req) s = .next (u.emit (.busError req x.off)))
        ∧ (∀ e t m, req = .thread e t → (u.thr e t).access = some m → exec (.busErrorTimeout req) s
            = .next ((u.updThr e t fun y => { y with access := none }).trapTo e t ⟨0x07, some m.va⟩))))
    ∧ (bitOf v.toNat 31 = false → exec (.sysSnap v) s = .next s)
    ∧ (bitOf v.toNat 31 = true →
      (s.fab.snapAt.isSome = true → exec (.sysSnap v) s = .next (s.setField .sysSnap 29 29 1))
      ∧ (s.fab.snapAt = none → exec (.sysSnap v) s = .next (({ s with fab := { s.fab with snapAt := some (ceilDiv (s.gnm.time + 2 * (1000 * 2 ^ 32)) (1000 * 2 ^ 32) * 1000) } } : State).setField .sysSnap 30 30 1))))
  ∧ (∀ s : State, ((s.fab.snapAt = none ∨ s.readsOn 164 = false) → exec .snapshotCapture s = .next s)
    ∧ (∀ t a h, s.fab.snapAt = some t → s.readsOn 164 = true → a = s.advanceGnm t →
        h = (allEntries.filter fun x => x.1.snapped).foldl (fun (h : Tbl Nat) (x : Reg × Nat) =>
          let g := tblPut 0 h (x.1.off x.2) (half (a.snapValue x.1 x.2) false)
          if x.1.info.wide then tblPut 0 g (x.1.off x.2 + 4) (half (a.snapValue x.1 x.2) true) else g) a.fab.holding →
        ∀ u, u = ({ a with fab := { a.fab with holding := h, snapAt := none } } : State) →
        exec .snapshotCapture s = .next ((((u.setField .sysSnap 30 30 0).setField .sysSnap 15 0 (u.field .sysSnap 15 0 + 1)).setReg .sysSnapTime (t % 2 ^ 64)).raise 26)))

/-- R626 to R629, R631 to R634, R636, R637. -/
def Obligations.InterruptAndSleepCommandsDoTheirEffect : Prop :=
  (∀ (s : State) (req : Requester) (k n : Nat) (v : Word), s.glm.asleep = true → ∀ i : Instr,
      i ∈ [Instr.icuClaim req k, .icuEoi k n, .icuMaskSet k v, .icuMaskClr k v, .icuPendSet k v, .icuPendClr k v, .glimmerSleep k] → exec i s = .next s)
  ∧ (∀ (s : State) (req : Requester) (k n : Nat) (v : Word), s.glm.asleep = false →
    ((¬ (req = .basalt k ∧ k < 4) ∨ s.claimable k = none) → exec (.icuClaim req k) s = .next (s.emit (.readData req (Reg.off .icuClaim k) 0)))
    ∧ (req = .basalt k → k < 4 → s.claimable k = some n → exec (.icuClaim req k) s = .next { s.emit (.readData req (Reg.off .icuClaim k) (2 ^ 31 + n)) with
        icu := { s.icu with pend := s.icu.pend &&& ~~~(1#4096 <<< n), active := setAt s.icu.active k (some n) } })
    ∧ (k < 4 ∧ s.icu.active.getD k none = some n → exec (.icuEoi k n) s = .next { s with icu := { s.icu with active := setAt s.icu.active k none } })
    ∧ (¬ (k < 4 ∧ s.icu.active.getD k none = some n) → exec (.icuEoi k n) s = .next (s.count .icuSpur))
    ∧ (∀ b, b = wordAt k v.toNat →
      exec (.icuMaskSet k v) s = .next { s with icu := { s.icu with mask := s.icu.mask ||| b } }
      ∧ exec (.icuMaskClr k v) s = .next { s with icu := { s.icu with mask := s.icu.mask &&& ~~~b } }
      ∧ exec (.icuPendSet k v) s = .next { s with icu := { s.icu with pend := s.icu.pend ||| b } }
      ∧ exec (.icuPendClr k v) s = .next { s with icu := { s.icu with pend := s.icu.pend &&& ~~~b } })
    ∧ exec (.glimmerSleep k) s = .next (if k < 4 then { s with glm := { s.glm with asked := true } } else s))
  ∧ (∀ s : State, ((s.glm.asked = false ∨ s.glm.asleep = true) → exec .glimmerSleepEnter s = .next s)
    ∧ (s.glm.asked = true → s.glm.asleep = false → ∀ u, u = ({ s with glm := { s.glm with asked := false } } : State) →
      ((∃ i < 64, u.bit .glmWatch 31 i = true ∧ srcBit u.pendings (u.field .glmWatch 11 0 i) = true) → exec .glimmerSleepEnter s = .next (u.setField .glmCtl 30 30 1))
      ∧ ((∀ i < 64, ¬ (u.bit .glmWatch 31 i = true ∧ srcBit u.pendings (u.field .glmWatch 11 0 i) = true)) →
          ∀ a, a = ((u.setIsland 165 { u.island 165 with state := .retain, busy := none, trans := u.gnmNs }).trace 1 165) →
          ∀ b, b = ((a.setIsland 166 { a.island 166 with state := .retain, busy := none, trans := a.gnmNs }).trace 1 166) →
        exec .glimmerSleepEnter s = .next ((({ b with glm := { b.glm with asleep := true, since := some b.now } } : State).raise 229).raise 230))))
  ∧ (∀ (s : State) (n : Nat), n = s.field .glmTimer 23 0 →
    ((s.glm.asleep = false ∨ n = 0 ∨ s.glm.clockLost = true) → exec .glimmerTimer s = .next s)
    ∧ (s.glm.asleep = true → n ≠ 0 → s.glm.clockLost = false → ∀ u, u = s.advanceTo (s.glm.since.getD s.now + ceilDiv (n * 1000000000) 32768) →
        exec .glimmerTimer s = .next (({ u with glm := { u.glm with latched := u.glm.latched ||| (1#4096 <<< 27) } } : State).wake none)))

/-- R650, R652, R654, R655, R660 to R662, R666, R667, R676, R677, R679. -/
def Obligations.ResetAndConsoleCommandsDoTheirEffect : Prop :=
  (∀ (s b : State) (i : Instr), ((i = .porstN ∧ b = s.coldBase) ∨ (i = .warmRstN ∧ b = s.warmBase 2) ∨ (i = .jtagReset ∧ b = s.warmBase 7)) →
    ∀ u, u = (((List.range 168).foldl State.bringUp b.romStep.1).stepFour.setReg .sysMode 0).setField .sysBoot 31 28 7 →
      exec i s = .next (if b.romStep.2 then ({ u with sys := { u.sys with started := true, serviceAt := some u.now } } : State).stepSix.stepNine else b.romStep.1))
  ∧ (∀ (s : State) (req : Requester) (v : Word),
    ((s.sysDown req = true ∨ rstKey req v.toNat = false ∨ bitOf v.toNat 31 = false) → exec (.sysRstWarm req v) s = .next s)
    ∧ (s.sysDown req = false → rstKey req v.toNat = true → bitOf v.toNat 31 = true → exec (.sysRstWarm req v) s = .next (s.warmBase 3).startUp)
    ∧ ((s.sysDown req = true ∨ rstKey req v.toNat = false ∨ bitOf v.toNat 30 = false ∨ s.sys.orderly ≠ none) → exec (.sysRstOrderly req v) s = .next s)
    ∧ (s.sysDown req = false → rstKey req v.toNat = true → bitOf v.toNat 30 = true → s.sys.orderly = none → ∀ w : State → OrderlyWait → State,
        (∀ a x, w a x = { a with sys := { a.sys with orderly := some (4, x) } }) →
      (s.shd.role = .solo → exec (.sysRstOrderly req v) s
          = .next (w ((((s.qpe.qps.filter fun e => e.2.state != .free).map (·.1)).foldl (fun s q => s.resetReach q .controller) s).flow) .drain).orderlyStep)
      ∧ (s.shd.role = .active → exec (.sysRstOrderly req v) s = .next (w s.releaseShelf .release).orderlyStep)
      ∧ (s.shd.role = .shadow → exec (.sysRstOrderly req v) s = .next (s.sendLeave.warmReset 4).orderlyStep)
      ∧ (s.shd.role ≠ .solo → s.shd.role ≠ .active → s.shd.role ≠ .shadow → exec (.sysRstOrderly req v) s = .next (s.warmReset 4).orderlyStep)))
  ∧ (∀ (s : State), (s.sys.flash.queue = [] → ∀ ok, exec (.configRecordWritten ok) s = .next s)
    ∧ (∀ r rest, s.sys.flash.queue = r :: rest → exec (.configRecordWritten false) s = .next (s.err 14)
      ∧ exec (.configRecordWritten true) s
        = .next ((({ s with sys := { s.sys with flash := { s.sys.flash with queue := rest } } } : State).placeRecord r).recordDone r)))
  ∧ (∀ (s : State) (b all : Bytes) (t : Nat) (isEnd : Byte → Bool), isEnd = (fun x => x == 0x0A#8 || x == 0x0D#8) →
      all = (s.sys.uart.getD ([], s.now)).1 ++ b → t = (s.sys.uart.getD ([], s.now)).2 →
    (all.any isEnd = false → exec (.uartAdminLine b) s = .next { s with sys := { s.sys with uart := some (all, t) } })
    ∧ (all.any isEnd = true → ∀ l u h, l = all.takeWhile (fun x => !isEnd x) → u = ({ s with sys := { s.sys with uart := none } } : State) →
        h = hexBytes ((l.drop 5).filter fun x => x != 0x20#8) →
      (256 < l.length → exec (.uartAdminLine b) s = .next ((u.count .sysInBad).emit (.uart (ascii "err"))))
      ∧ (l.length ≤ 256 → l.take 5 ≠ ascii "admin" → exec (.uartAdminLine b) s = .next u)
      ∧ (l.length ≤ 256 → l.take 5 = ascii "admin" → (h = none → exec (.uartAdminLine b) s = .next (u.emit (.uart (ascii "err"))))
        ∧ (∀ x, h = some x → adminOk x = false → exec (.uartAdminLine b) s = .next (u.emit (.uart (ascii "err"))))
        ∧ (∀ x p, h = some x → adminOk x = true → p = u.cfgPut 0x02 0 (some (.admin x)) →
            exec (.uartAdminLine b) s = .next { p with sys := { p.sys with adminWaits := true } }))))
  ∧ (∀ s : State, (s.sys.uart = none → exec .uartLineTimeout s = .next s)
    ∧ (∀ l t u, s.sys.uart = some (l, t) → u = s.advanceTo (t + 1000 * msec) →
        exec .uartLineTimeout s = .next ((({ u with sys := { u.sys with uart := none } } : State).count .sysInBad).emit (.uart (ascii "err")))))
  ∧ (∀ (s : State) (ok : Bool) (us : Nat), (s.sys.activation = none → exec (.clusterSwitch ok us) s = .next s)
    ∧ (∀ a t n y, s.sys.activation = some a → a.stalled = some (t, n, y) → exec (.clusterSwitch ok us) s = .next (s.stallEnd a t n y))
    ∧ (∀ a, s.sys.activation = some a → a.stalled = none →
      ((a.phase ≠ 3 ∨ 400 < us ∨ s.serves = false) → exec (.clusterSwitch ok us) s = .next s)
      ∧ (a.phase = 3 → us ≤ 400 → s.serves = true → ∀ u, u = ((a.resumed.map fun t => s.advanceTo (t + msec)).getD s) →
          exec (.clusterSwitch ok us) s
            = .next (((u.stallCluster a.cluster .active .stalled).dropText a.cluster).setActivation { a with stalled := some (u.now, us, ok) }))))

/-- R683, R687 to R690, R692, R695, R697. -/
def Obligations.FatalCommandsDoTheirEffect : Prop :=
  (∀ (s u : State) (cause site addr : Nat) (sh : Bool), u = s.setField .sysFatal 7 0 (min 0xFF (s.field .sysFatal 7 0 + 1)) →
    (s.sys.fatal = none → s.fatal cause site addr sh
        = (u.setField .sysFatal 23 16 cause).fatalStop { cause, site, addr, time := u.gnmNs, role := u.shd.role } sh)
    ∧ (∀ f, s.sys.fatal = some f → f.complete = none → s.fatal cause site addr sh
        = { u.setField .sysFatal 23 16 cause with sys := { u.sys with fatal := some { f with follow := f.follow + 1 } } })
    ∧ (∀ f, s.sys.fatal = some f → f.complete ≠ none → s.fatal cause site addr sh = u))
  ∧ (∀ (s : State) (isl : Nat), exec .refClockLoss s = .next (s.fatal 5 0xFFFFFFFF 0 false) ∧ exec .jtagFatalRequest s = .next (s.fatal 9 0xFFFFFFFF 0 false)
    ∧ ((s.island isl).busy ≠ none → exec (.handshakeTimeout isl) s = .next s)
    ∧ ((s.island isl).busy = none → exec (.handshakeTimeout isl) s = .next (s.fatal 4 isl 0 (isl == 162))))
  ∧ (∀ (s : State) (req : Requester) (v : Word), (s.glm.asleep = true → req ≠ .jtag → exec (.sysErrFatal req v) s = .next s ∧ exec (.watchdogPet req v) s = .next s)
    ∧ ((s.glm.asleep = false ∨ req = .jtag) →
      (∀ u, u = s.setField .sysErrCtl 30 30 (bitsOf v.toNat 30 30) →
        (bitOf v.toNat 31 = true → v.toNat % 2 ^ 16 = 0xFA7A → exec (.sysErrFatal req v) s = .next (u.fatal 8 (siteOf req) 0 false))
        ∧ (¬ (bitOf v.toNat 31 = true ∧ v.toNat % 2 ^ 16 = 0xFA7A) → exec (.sysErrFatal req v) s = .next u))
      ∧ (∀ k u, req = .basalt k → u = s.setField .sysWdog 15 0 (v.toNat % 2 ^ 16) →
        (bitOf v.toNat 31 = true → exec (.watchdogPet req v) s = .next { u with sys := { u.sys with petAt := some u.now } })
        ∧ (bitOf v.toNat 31 = false → exec (.watchdogPet req v) s = .next u))
      ∧ ((∀ k, req ≠ .basalt k) → exec (.watchdogPet req v) s = .next s)))
  ∧ (∀ s : State, (s.sys.fatal = none → exec .fatalImageComplete s = .next s ∧ exec .fatalResetTimer s = .next s ∧ exec .fatalWatchdogReset s = .next s)
    ∧ (∀ f, s.sys.fatal = some f →
      (f.complete ≠ none → exec .fatalImageComplete s = .next s ∧ exec .fatalWatchdogReset s = .next s)
      ∧ (f.complete = none → exec .fatalResetTimer s = .next s
        ∧ (∀ l m u, l = (m.shd.halfA || m.shd.halfB) →
            m = (((s.store s.fatalBase (s.fatalImage f)).drew (2 ^ 20 + 2)).setField .sysFatal 31 31 1).setField .sysFatal 29 29 0 →
            u = m.updFatal (fun f => { f with complete := some m.now, pulling := l }) →
          exec .fatalImageComplete s = .next (if l then u.sendBulk .fatal (s.fatalImage f) none else u))
        ∧ (f.expired = none → exec .fatalWatchdogReset s = .next s)
        ∧ (∀ t, f.expired = some t → exec .fatalWatchdogReset s = .next ((s.advanceTo (t + 100 * msec)).warmReset 6)))
      ∧ (∀ t, f.complete = some t → (s.bit .sysErrCtl 30 = true → exec .fatalResetTimer s = .next s)
        ∧ (s.bit .sysErrCtl 30 = false → exec .fatalResetTimer s = .next ((s.advanceTo (t + 1000 * msec)).warmReset 6)))))
  ∧ (∀ (s : State) (n : Nat), n = s.field .sysWdog 15 0 → ((s.sys.petAt = none ∨ n = 0) → exec .watchdogExpire s = .next s)
    ∧ (∀ t a u, s.sys.petAt = some t → n ≠ 0 → a = s.advanceTo (t + n * msec) → u = ({ a with sys := { a.sys with petAt := none } } : State) →
      (∀ f, u.sys.fatal = some f → (f.complete ≠ none → exec .watchdogExpire s = .next (u.warmReset 6))
        ∧ (f.complete = none → exec .watchdogExpire s = .next (u.updFatal fun f => { f with expired := some u.now })))
      ∧ (u.sys.fatal = none → exec .watchdogExpire s = .next ((u.fatal 7 166 0 false).updFatal fun f => { f with expired := some u.now }))))

/-- R650, R683 to R687, R702, R705, R715. -/
def Obligations.SensorAndMemoryReportsDoTheirEffect : Prop :=
  (∀ (s u : State) (k : Nat), u = s.err 9 → exec .aonClockLoss s = .next { u with glm := { u.glm with clockLost := true } }
    ∧ exec (.pllUnlock .network) s = .next ((((List.range (Config.macs u.variant)).flatMap fun m => (List.range (u.subports m)).map fun x => (m, x)).foldl
        (fun s x => s.linkDown x.1 x.2) u).selfCheck 6)
    ∧ exec (.pllUnlock .endpoint) s = .next u.epLinkDown
    ∧ exec (.pllUnlock .drives) s = .next ((List.range (Config.slots u.variant)).foldl (fun s sl => s.driveLink sl false) u)
    ∧ exec (.smbusTimeout k) s = .next (((s.err 15).count .sysInBad).emit (.smbusReset k)))
  ∧ (∀ (s : State) (i : Nat) (t : Int), (sensorFused s.variant i = true → exec (.temperatureReading i t) s = .next s)
    ∧ (sensorFused s.variant i = false →
      ((t < -220 ∨ 600 < t) → exec (.temperatureReading i t) s = .next ((({ s with sys := { s.sys with
          temps := tblDel s.sys.temps i, tempValid := tblPut false s.sys.tempValid i false } } : State).showTemp).err 6))
      ∧ (-220 ≤ t → t ≤ 600 → ∀ l u, l = (t :: (tblFind s.sys.temps i).getD []).take 3 →
          u = (({ s with sys := { s.sys with temps := tblIns s.sys.temps i l, tempValid := tblPut false s.sys.tempValid i true } } : State).showTemp) →
        ((u.hottest ≠ some i ∨ l.length < 3) → exec (.temperatureReading i t) s = .next u)
        ∧ (u.hottest = some i → 3 ≤ l.length →
          ((∃ x ∈ l, x < 400) → exec (.temperatureReading i t) s = .next u)
          ∧ ((∀ x ∈ l, 400 ≤ x) → (∃ x ∈ l, x ≤ 440) → exec (.temperatureReading i t) s = .next (u.err 6))
          ∧ ((∀ x ∈ l, 440 < x) → (∃ x ∈ l, x < 480) → exec (.temperatureReading i t) s = .next (((u.err 6).err 7).selfCheck 3))
          ∧ ((∀ x ∈ l, 480 ≤ x) → exec (.temperatureReading i t) s = .next ((((u.err 6).err 7).selfCheck 3).fatal 6 (sensorSite i) 0 false))))))
  ∧ (∀ (s : State) (r : Nat),
    ((9 ≤ r ∨ s.bit .sysSupply r = false) → exec (.supplyOutOfWindow r) s = .next s)
    ∧ (r < 9 → s.bit .sysSupply r = true → ∀ u, u = (((s.setField .sysSupply r r 0).setField .sysSupply (16 + r) (16 + r) 1).err 8) →
        exec (.supplyOutOfWindow r) s = .next (if u.sys.fatal.isSome || u.glm.asleep then u else u.selfCheck 4))
    ∧ exec (.supplyReturnToWindow r) s = .next (if 9 ≤ r then s else s.setField .sysSupply r r 1)
    ∧ (r ∈ [0, 1, 7, 8] → exec (.supplyBelowResetLevel r) s = .next s.coldBase.startUp)
    ∧ (r ∉ [0, 1, 7, 8] → exec (.supplyBelowResetLevel r) s = .next s))
  ∧ (∀ (s : State) (hbm : Bool) (e t k line v a p isl : Nat), ∀ ce ue : State → Bool → State,
      (∀ x h, ce x h = (x.count .sysCe).err (if h then 3 else 1)) → (∀ x h, ue x h = (x.count .sysUe).err (if h then 4 else 2)) →
    exec (.memoryError (.corrected hbm)) s = .next (ce s hbm)
    ∧ exec (.memoryError (.instrLine e line)) s = .next (ce (s.updEng e fun g => { g with icache := tblDel g.icache line }) false)
    ∧ exec (.memoryError (.engineTlb e v)) s = .next (ce (s.updEng e fun g => { g with tlb := g.tlb.filter fun x => x.vpage != v }) false)
    ∧ exec (.memoryError (.clusterTlb k v)) s = .next (ce (s.setClu k { s.clu k with tlb := (s.clu k).tlb.filter fun x => x.vpage != v }) false)
    ∧ (∀ l, tblFind (s.eng e).dcache line = l →
      ((∀ x, l = some x → x.dirty = true) → exec (.memoryError (.cleanLine e line)) s = .next s)
      ∧ (∀ x, l = some x → x.dirty = false → exec (.memoryError (.cleanLine e line)) s = .next (ce (s.updEng e fun g => { g with dcache := tblDel g.dcache line }) false)))
    ∧ (∀ site ∈ [MemSite.dirtyLine e t, .scratch e t, .inbox e t, .sharedSram e t],
      ((s.engineRuns e = true ∧ t < 16 ∧ (s.thr e t).state = .ready) → exec (.memoryError site) s = .next ((ue s false).trapTo e t ⟨0x0E, none⟩))
      ∧ (¬ (s.engineRuns e = true ∧ t < 16 ∧ (s.thr e t).state = .ready) → exec (.memoryError site) s = .next s))
    ∧ exec (.memoryError (.prismRing p)) s = .next ((ue s true).prismLose p)
    ∧ exec (.memoryError .pmcRing) s = .next ((ue s true).count .pmcSmpLost)
    ∧ exec (.memoryError .fatalRegion) s = .next (ue s true)
    ∧ exec (.memoryError (.control isl a)) s = .next (s.fatal 3 isl a (isl == 162))
    ∧ (∀ u, u = s.fatal 3 0xFFFFFFFF a true → exec (.memoryError (.replicated a)) s = .next (((u.setReg .shdSelfchk (u.reg .shdSelfchk ||| 2 ^ 17)).raise 22).trace 3 162))
    ∧ exec (.memoryError (.contextCache a)) s = .next ((s.selfCheck 1).fatal 3 160 a false))
  ∧ (∀ (s : State) (q cid b pos : Nat) (hbm : Bool),
    (s.carried q cid opRead = none → exec (.memoryError (.readCell q cid b pos hbm)) s = .next s)
    ∧ (∀ c, s.carried q cid opRead = some c → exec (.memoryError (.readCell q cid b pos hbm)) s = .next (s.readCellError c b pos hbm))
    ∧ (s.carried q cid opWrite = none → exec (.memoryError (.writeCell q cid b hbm)) s = .next s)
    ∧ (∀ c, s.carried q cid opWrite = some c →
      (c.data.length < 4096 * b + 4096 → exec (.memoryError (.writeCell q cid b hbm)) s = .next s)
      ∧ (4096 * b + 4096 ≤ c.data.length → ∀ u, u = (if hbm then s else s.selfCheck 2) →
        ((c.past = true ∨ c.repulled.contains b = true) → exec (.memoryError (.writeCell q cid b hbm)) s = .next (u.fatal 3 0xFFFFFFFF 0 false))
        ∧ (c.past = false → c.repulled.contains b = false → exec (.memoryError (.writeCell q cid b hbm)) s
          = .next ((((((u.count .sysUe).err (if hbm then 4 else 2)).updCmd c.seq fun c => { c with
              segs := cutSegs (4096 * b) (4096 * b + 4096) c.segs, repulled := c.repulled ++ [b] }).gathered c.seq).pullData c (4096 * b) 4096).gathered c.seq)))))

/-- Every meaning is total: no constructor of the table stops. -/
def Obligations.EveryCommandCompletes : Prop := ∀ (i : Instr) (s : State), ∃ t, exec i s = .next t

end
end

