-- ==== Sys2Proof/Laws/Table.lean ====
section
/-! SUPPORT. Tables and memory: a read after a write, and that every operation keeps the canonical form. -/

namespace Sys2Proof.Machine

variable {α : Type}

/-- Keys rising above `lo` are rising above any smaller bound, or with no bound. -/
theorem tblSorted_weaken {a : Nat} {t : Tbl α} (h : tblSorted (some a) t = true) :
    ∀ lo : Option Nat, (∀ b, lo = some b → b ≤ a) → tblSorted lo t = true := by
  intro lo hlo
  cases t with
  | nil => cases lo <;> rfl
  | cons e t =>
    obtain ⟨k, v⟩ := e
    simp only [tblSorted, Bool.and_eq_true, decide_eq_true_eq] at h
    cases lo with
    | none => exact h.2
    | some b =>
      have := hlo b rfl
      simp only [tblSorted, Bool.and_eq_true, decide_eq_true_eq]
      exact ⟨by omega, h.2⟩

theorem tblSorted_ins (k : Nat) (v : α) (t : Tbl α) (lo : Option Nat) (h : tblSorted lo t = true)
    (hk : ∀ b, lo = some b → b < k) : tblSorted lo (tblIns t k v) = true := by
  induction t generalizing lo with
  | nil => cases lo <;> simp [tblIns, tblSorted]; exact hk _ rfl
  | cons e t ih =>
    obtain ⟨a, w⟩ := e
    have ht : tblSorted (some a) t = true := by cases lo <;> simp_all [tblSorted]
    have ha : ∀ b, lo = some b → b < a := by intro b hb; subst hb; simp_all [tblSorted]
    unfold tblIns
    split
    · rename_i hlt
      have := ih (some a) ht (by intro b hb; cases hb; exact hlt)
      cases lo <;> simp_all [tblSorted]
    · split
      · rename_i _ he; subst he; cases lo <;> simp_all [tblSorted]
      · have : k < a := by omega
        have hs : tblSorted (some k) ((a, w) :: t) = true := by simp [tblSorted, this, ht]
        cases lo <;> simp_all [tblSorted]

theorem tblSorted_del (k : Nat) (t : Tbl α) (lo : Option Nat) (h : tblSorted lo t = true) :
    tblSorted lo (tblDel t k) = true := by
  induction t generalizing lo with
  | nil => simpa [tblDel] using h
  | cons e t ih =>
    obtain ⟨a, w⟩ := e
    have ht : tblSorted (some a) t = true := by cases lo <;> simp_all [tblSorted]
    have ha : ∀ b, lo = some b → b < a := by intro b hb; subst hb; simp_all [tblSorted]
    unfold tblDel
    split
    · have := ih (some a) ht
      cases lo <;> simp_all [tblSorted]
    · split
      · exact tblSorted_weaken ht lo (fun b hb => Nat.le_of_lt (ha b hb))
      · exact h

theorem tblSorted_filter (p : Nat × α → Bool) (t : Tbl α) (lo : Option Nat) (h : tblSorted lo t = true) :
    tblSorted lo (t.filter p) = true := by
  induction t generalizing lo with
  | nil => simpa using h
  | cons e t ih =>
    obtain ⟨a, w⟩ := e
    have ht : tblSorted (some a) t = true := by cases lo <;> simp_all [tblSorted]
    have ha : ∀ b, lo = some b → b < a := by intro b hb; subst hb; simp_all [tblSorted]
    rw [List.filter_cons]
    split
    · have := ih (some a) ht
      cases lo <;> simp_all [tblSorted]
    · exact ih lo (tblSorted_weaken ht lo (fun b hb => Nat.le_of_lt (ha b hb)))

theorem tblNoDefault_ins [DecidableEq α] (d : α) (k : Nat) (v : α) (t : Tbl α) (h : tblNoDefault d t = true)
    (hv : v ≠ d) : tblNoDefault d (tblIns t k v) = true := by
  induction t with
  | nil => simp [tblIns, tblNoDefault, hv]
  | cons e t ih =>
    obtain ⟨a, w⟩ := e
    simp only [tblNoDefault, List.all_cons, Bool.and_eq_true] at h ih
    unfold tblIns
    split
    · simp only [tblNoDefault, List.all_cons, Bool.and_eq_true]; exact ⟨h.1, ih h.2⟩
    · split
      · simp only [tblNoDefault, List.all_cons, Bool.and_eq_true]; exact ⟨by simpa using hv, h.2⟩
      · simp only [tblNoDefault, List.all_cons, Bool.and_eq_true]; exact ⟨by simpa using hv, h⟩

theorem tblNoDefault_del [DecidableEq α] (d : α) (k : Nat) (t : Tbl α) (h : tblNoDefault d t = true) :
    tblNoDefault d (tblDel t k) = true := by
  induction t with
  | nil => simpa [tblDel] using h
  | cons e t ih =>
    obtain ⟨a, w⟩ := e
    simp only [tblNoDefault, List.all_cons, Bool.and_eq_true] at h ih
    unfold tblDel
    split
    · simp only [tblNoDefault, List.all_cons, Bool.and_eq_true]; exact ⟨h.1, ih h.2⟩
    · split
      · exact h.2
      · simp only [tblNoDefault, List.all_cons, Bool.and_eq_true]; exact h

theorem tblNoDefault_filter [DecidableEq α] (d : α) (p : Nat × α → Bool) (t : Tbl α) (h : tblNoDefault d t = true) :
    tblNoDefault d (t.filter p) = true := by
  simp only [tblNoDefault, List.all_eq_true, List.mem_filter] at *
  exact fun e he => h e he.1

/-- Writing an entry keeps the canonical form. -/
theorem tblWf_put [DecidableEq α] {d : α} {t : Tbl α} (h : tblWf d t = true) (k : Nat) (v : α) :
    tblWf d (tblPut d t k v) = true := by
  simp only [tblWf, Bool.and_eq_true] at *
  unfold tblPut
  split
  · exact ⟨tblSorted_del k t none h.1, tblNoDefault_del d k t h.2⟩
  · rename_i hv
    exact ⟨tblSorted_ins k v t none h.1 (by intro b hb; cases hb), tblNoDefault_ins d k v t h.2 hv⟩

/-- Dropping entries keeps the canonical form. -/
theorem tblWf_filter [DecidableEq α] {d : α} {t : Tbl α} (h : tblWf d t = true) (p : Nat × α → Bool) :
    tblWf d (t.filter p) = true := by
  simp only [tblWf, Bool.and_eq_true] at *
  exact ⟨tblSorted_filter p t none h.1, tblNoDefault_filter d p t h.2⟩

theorem tblFind_ins_self (k : Nat) (v : α) (t : Tbl α) : tblFind (tblIns t k v) k = some v := by
  induction t with
  | nil => simp [tblIns, tblFind]
  | cons e t ih =>
    obtain ⟨a, w⟩ := e
    unfold tblIns
    split
    · rename_i h; simp [tblFind, show a ≠ k by omega, ih]
    · split <;> simp [tblFind]

theorem tblFind_ins_ne {j k : Nat} (h : j ≠ k) (v : α) (t : Tbl α) : tblFind (tblIns t k v) j = tblFind t j := by
  induction t with
  | nil => simp [tblIns, tblFind, Ne.symm h]
  | cons e t ih =>
    obtain ⟨a, w⟩ := e
    unfold tblIns
    split
    · simp [tblFind, ih]
    · split
      · rename_i _ he; subst he; simp [tblFind, Ne.symm h]
      · simp [tblFind, Ne.symm h]

theorem tblFind_none_of_lt {k lo : Nat} {t : Tbl α} (h : tblSorted (some lo) t = true) (hk : k ≤ lo) :
    tblFind t k = none := by
  induction t generalizing lo with
  | nil => rfl
  | cons e t ih =>
    obtain ⟨a, w⟩ := e
    simp only [tblSorted, Bool.and_eq_true, decide_eq_true_eq] at h
    simp only [tblFind, show a ≠ k by omega, if_false]
    exact ih h.2 (by omega)

theorem tblFind_del_self {k : Nat} {t : Tbl α} (lo : Option Nat) (h : tblSorted lo t = true) :
    tblFind (tblDel t k) k = none := by
  induction t generalizing lo with
  | nil => rfl
  | cons e t ih =>
    obtain ⟨a, w⟩ := e
    have ht : tblSorted (some a) t = true := by cases lo <;> simp_all [tblSorted]
    unfold tblDel
    split
    · rename_i hl; simp only [tblFind, show a ≠ k by omega, if_false]; exact ih (some a) ht
    · split
      · rename_i _ he; subst he; exact tblFind_none_of_lt ht (Nat.le_refl _)
      · simp only [tblFind, show a ≠ k by omega, if_false]; exact tblFind_none_of_lt ht (by omega)

theorem tblFind_del_ne {j k : Nat} (h : j ≠ k) (t : Tbl α) : tblFind (tblDel t k) j = tblFind t j := by
  induction t with
  | nil => rfl
  | cons e t ih =>
    obtain ⟨a, w⟩ := e
    unfold tblDel
    split
    · simp [tblFind, ih]
    · split
      · rename_i _ he; subst he; simp [tblFind, Ne.symm h]
      · rfl

/-- A read of another entry than the one written gives what it gave. -/
@[simp] theorem tblGet_put_ne [DecidableEq α] {j k : Nat} (h : j ≠ k) (d e v : α) (t : Tbl α) :
    tblGet e (tblPut d t k v) j = tblGet e t j := by
  unfold tblGet tblPut
  split
  · rw [tblFind_del_ne h]
  · rw [tblFind_ins_ne h]

/-- A read of the entry written gives the value written. -/
theorem tblGet_put_self [DecidableEq α] (d v : α) {t : Tbl α} (h : tblWf d t = true) (k : Nat) :
    tblGet d (tblPut d t k v) k = v := by
  simp only [tblWf, Bool.and_eq_true] at h
  unfold tblGet tblPut
  split
  · rename_i hv; rw [tblFind_del_self none h.1, hv]; rfl
  · rw [tblFind_ins_self]; rfl

@[simp] theorem tblGet_ins_self (d v : α) (t : Tbl α) (k : Nat) : tblGet d (tblIns t k v) k = v := by
  unfold tblGet; rw [tblFind_ins_self]; rfl

@[simp] theorem tblGet_ins_ne {j k : Nat} (h : j ≠ k) (d v : α) (t : Tbl α) :
    tblGet d (tblIns t k v) j = tblGet d t j := by
  unfold tblGet; rw [tblFind_ins_ne h]

/-! ### Memory -/

theorem Memory.wf_write {m : Memory} (h : m.wf = true) (a : Nat) (v : Byte) : (m.write a v).wf = true :=
  tblWf_put h a v

theorem Memory.wf_writeN {m : Memory} (h : m.wf = true) (a : Nat) (b : Bytes) : (m.writeN a b).wf = true := by
  induction b generalizing m a with
  | nil => exact h
  | cons v b ih => exact ih (Memory.wf_write h a v) (a + 1)

theorem Memory.wf_writeLe {m : Memory} (h : m.wf = true) (a n v : Nat) : (m.writeLe a n v).wf = true :=
  Memory.wf_writeN h a _

theorem Memory.wf_filter {m : Memory} (h : m.wf = true) (p : Host.Cell → Bool) : Memory.wf (List.filter p m) = true :=
  tblWf_filter h p

theorem Memory.wf_lose {m : Memory} (h : m.wf = true) (lo hi : Nat) : (m.lose lo hi).wf = true :=
  Memory.wf_filter h _

/-- A read after a write to the same place gives the byte written. -/
theorem Memory.read_write_self {m : Memory} (h : m.wf = true) (a : Nat) (v : Byte) : (m.write a v).read a = v :=
  tblGet_put_self Memory.unlisted v h a

/-- A write leaves every other place alone. -/
@[simp] theorem Memory.read_write_ne {a b : Nat} (h : b ≠ a) (m : Memory) (v : Byte) :
    (m.write a v).read b = m.read b := tblGet_put_ne h _ _ _ _

/-- Storing bytes leaves every byte outside them alone. -/
theorem Memory.read_writeN_of_not {b : Bytes} {a x : Nat} (m : Memory) (h : x < a ∨ a + b.length ≤ x) :
    (m.writeN a b).read x = m.read x := by
  induction b generalizing m a with
  | nil => rfl
  | cons v b ih =>
    have hx : x ≠ a := by simp only [List.length_cons] at h; omega
    show ((m.write a v).writeN (a + 1) b).read x = m.read x
    rw [ih _ (by simp only [List.length_cons] at h; omega), Memory.read_write_ne hx]

theorem setAt_length (l : List α) (i : Nat) (x : α) : (setAt l i x).length = l.length := by
  induction l generalizing i with
  | nil => rfl
  | cons a l ih => cases i <;> simp [setAt, ih]

theorem setAt_getD (l : List α) (i j : Nat) (x d : α) (hj : j < l.length) :
    (setAt l i x).getD j d = if i = j then x else l.getD j d := by
  induction l generalizing i j with
  | nil => simp at hj
  | cons a l ih =>
    cases i with
    | zero => cases j <;> simp [setAt]
    | succ i =>
      cases j with
      | zero => simp [setAt]
      | succ j => simpa [setAt] using ih i j (by simpa using hj)

theorem setAt_getD_ne (l : List α) (i j : Nat) (x d : α) (h : i ≠ j) : (setAt l i x).getD j d = l.getD j d := by
  induction l generalizing i j with
  | nil => simp [setAt]
  | cons a l ih => cases i <;> cases j <;> simp_all [setAt]

theorem setAt_setAt (l : List α) (i : Nat) (x y : α) : setAt (setAt l i x) i y = setAt l i y := by
  induction l generalizing i with
  | nil => rfl
  | cons a l ih => cases i <;> simp [setAt, ih]

end Sys2Proof.Machine
end

