-- ==== Sys2Proof/Laws/IslandView.lean ====
section
/-! SUPPORT. The islands, through every operation that the loss of an island starts. -/

namespace Sys2Proof.Machine

@[reducible] def State.islv (s : State) : List Island × Bool × Option FatalRun := (s.isl, s.glm.asleep, s.sys.fatal)
variable {I : List Island} {F : Option FatalRun}

theorem islv_mk (variant) (now) (regs) (isl) (mem) (fab) (icu) (glm) (gnm) (qpe) (cls) (str) (net) (epf) (xbr) (cph) (shd)
    (spm) (fct) (sys) (frames) (out) (draws) (pending) : State.islv ⟨variant, now, regs, isl, mem, fab, icu, glm, gnm, qpe, cls, str, net,
      epf, xbr, cph, shd, spm, fct, sys, frames, out, draws, pending⟩ = ((isl, glm.asleep, sys.fatal) : List Island × Bool × Option FatalRun) := rfl

theorem islv_str (s : State) (x : Store) (hs : s.islv = (I, false, F))
    : ({s with str := x} : State).islv = (I, false, F) := hs

theorem islv_cut {t : State} {Q : Prop} (h : t.islv = (I, false, F)) (k : t.islv = (I, false, F) → Q) : Q := k h

theorem islv_fst {α : Type} {p : State × α} {s : State} {b : α} (h : p.1.islv = (I, false, F)) (e : p = (s, b)) :
    s.islv = (I, false, F) := by subst e; exact h

theorem islv_snd {α : Type} {p : α × State} {s : State} {b : α} (h : p.2.islv = (I, false, F)) (e : p = (b, s)) :
    s.islv = (I, false, F) := by subst e; exact h

theorem islv_ite {c : Prop} [Decidable c] {a b : State} (ha : c → a.islv = (I, false, F)) (hb : ¬c → b.islv = (I, false, F))
    : (if c then a else b).islv = (I, false, F) := by
  split
  · exact ha ‹_›
  · exact hb ‹_›

theorem islv_elim {α : Type} (o : Option α) (x : State) (f : α → State) (hx : x.islv = (I, false, F)) (hf : ∀ i, (f i).islv = (I, false, F))
    : (o.elim x f).islv = (I, false, F) := by
  cases o
  · exact hx
  · exact hf _

theorem islv_foldl {α : Type} {f : State → α → State} {l : List α} {s : State} (h : s.islv = (I, false, F))
    (hf : ∀ t a, t.islv = (I, false, F) → (f t a).islv = (I, false, F)) : (l.foldl f s).islv = (I, false, F) := by
  induction l generalizing s with
  | nil => exact h
  | cons a l ih => exact ih (hf s a h)

theorem islv_foldl_fst {α β : Type} {f : State × β → α → State × β} {l : List α} {p : State × β} (h : p.1.islv = (I, false, F))
    (hf : ∀ p a, p.1.islv = (I, false, F) → (f p a).1.islv = (I, false, F)) : (l.foldl f p).1.islv = (I, false, F) := by
  induction l generalizing p with
  | nil => exact h
  | cons a l ih => exact ih (hf p a h)

theorem State.setReg_islv (s : State) (r : Reg) (v : Nat) (i : Nat) (hs : s.islv = (I, false, F))
    : (State.setReg s r v i).islv = (I, false, F) := by
  unfold State.setReg
  repeat' (first
    | (with_reducible first
        | assumption | refine islv_foldl ?_ (fun x y hx => ?_) | refine islv_foldl_fst ?_ (fun x y hx => ?_))
    | simp -zeta only [↓islv_mk]
    | (extract_lets +onlyGivenNames t; refine islv_cut  (t := t) ?_ ?_; all_goals first | (intro ht; clear_value t) | subst t)
    | extract_lets +onlyGivenNames t | split | (refine islv_fst ?_ (by with_reducible assumption))
    | (refine islv_snd ?_ (by with_reducible assumption)) | (with_reducible intro x) | dsimp +zetaDelta only)

theorem State.setField_islv (s : State) (r : Reg) (msb lsb v : Nat) (i : Nat) (hs : s.islv = (I, false, F))
    : (State.setField s r msb lsb v i).islv = (I, false, F) := by
  unfold State.setField
  repeat' (first
    | (with_reducible first
        | assumption | apply State.setReg_islv | refine islv_foldl ?_ (fun x y hx => ?_)
        | refine islv_foldl_fst ?_ (fun x y hx => ?_))
    | simp -zeta only [↓islv_mk]
    | (extract_lets +onlyGivenNames t; refine islv_cut  (t := t) ?_ ?_; all_goals first | (intro ht; clear_value t) | subst t)
    | extract_lets +onlyGivenNames t | split | (refine islv_fst ?_ (by with_reducible assumption))
    | (refine islv_snd ?_ (by with_reducible assumption)) | (with_reducible intro x) | dsimp +zetaDelta only)

theorem State.count_islv (s : State) (r : Reg) (n : Nat) (hs : s.islv = (I, false, F))
    : (State.count s r n).islv = (I, false, F) := by
  unfold State.count
  repeat' (first
    | (with_reducible first
        | assumption | apply State.setReg_islv | refine islv_foldl ?_ (fun x y hx => ?_)
        | refine islv_foldl_fst ?_ (fun x y hx => ?_))
    | simp -zeta only [↓islv_mk]
    | (extract_lets +onlyGivenNames t; refine islv_cut  (t := t) ?_ ?_; all_goals first | (intro ht; clear_value t) | subst t)
    | extract_lets +onlyGivenNames t | split | (refine islv_fst ?_ (by with_reducible assumption))
    | (refine islv_snd ?_ (by with_reducible assumption)) | (with_reducible intro x) | dsimp +zetaDelta only)

theorem State.emit_islv (s : State) (o : Out) (hs : s.islv = (I, false, F)) : (State.emit s o).islv = (I, false, F) := by
  unfold State.emit
  repeat' (first | with_reducible assumption | split | (with_reducible exact hs))

theorem State.emits_islv (s : State) (os : List Out) (hs : s.islv = (I, false, F))
    : (State.emits s os).islv = (I, false, F) := by
  unfold State.emits
  repeat' (first | with_reducible assumption | split | (with_reducible exact hs))

theorem State.drew_islv (s : State) (n : Nat) (hs : s.islv = (I, false, F)) : (State.drew s n).islv = (I, false, F) := by
  unfold State.drew
  repeat' (first | with_reducible assumption | split | (with_reducible exact hs))

theorem State.raise_islv (s : State) (n : Nat) (hs : s.islv = (I, false, F)) : (State.raise s n).islv = (I, false, F) := by
  have hb : s.glm.asleep = false := congrArg (fun x => x.2.1) hs
  unfold State.raise
  rw [hb]
  exact hs

theorem State.event_islv (s : State) (u : UnitEvent) (hs : s.islv = (I, false, F))
    : (State.event s u).islv = (I, false, F) := by
  unfold State.event
  repeat' (first
    | (with_reducible first
        | assumption | apply State.raise_islv | refine islv_foldl ?_ (fun x y hx => ?_)
        | refine islv_foldl_fst ?_ (fun x y hx => ?_))
    | simp -zeta only [↓islv_mk]
    | (extract_lets +onlyGivenNames t; refine islv_cut  (t := t) ?_ ?_; all_goals first | (intro ht; clear_value t) | subst t)
    | extract_lets +onlyGivenNames t | split | (refine islv_fst ?_ (by with_reducible assumption))
    | (refine islv_snd ?_ (by with_reducible assumption)) | (with_reducible intro x) | dsimp +zetaDelta only)

theorem State.trace_islv (s : State) (kind island : Nat) (hs : s.islv = (I, false, F))
    : (State.trace s kind island).islv = (I, false, F) := by
  unfold State.trace
  repeat' (first
    | (with_reducible first
        | assumption | apply State.take_islv | refine islv_foldl ?_ (fun x y hx => ?_)
        | refine islv_foldl_fst ?_ (fun x y hx => ?_))
    | simp -zeta only [↓islv_mk]
    | (extract_lets +onlyGivenNames t; refine islv_cut  (t := t) ?_ ?_; all_goals first | (intro ht; clear_value t) | subst t)
    | extract_lets +onlyGivenNames t | split | (refine islv_fst ?_ (by with_reducible assumption))
    | (refine islv_snd ?_ (by with_reducible assumption)) | (with_reducible intro x) | dsimp +zetaDelta only)

theorem State.err_islv (s : State) (n : Nat) (hs : s.islv = (I, false, F)) : (State.err s n).islv = (I, false, F) := by
  have hb : s.glm.asleep = false := congrArg (fun x => x.2.1) hs
  unfold State.err
  extract_lets t
  have h : t.islv = (I, false, F) := State.trace_islv _ _ _ (State.setReg_islv _ _ _ _ hs)
  have hc : t.glm.asleep = false := congrArg (fun x => x.2.1) h
  rw [hc]
  exact h

theorem State.store_islv (s : State) (a : Nat) (b : Bytes) (hs : s.islv = (I, false, F))
    : (State.store s a b).islv = (I, false, F) := by
  unfold State.store
  exact hs

theorem State.setPart_islv (s : State) (p : Nat) (x : Part) (hs : s.islv = (I, false, F))
    : (State.setPart s p x).islv = (I, false, F) := by
  unfold State.setPart
  repeat' (first
    | (with_reducible first
        | assumption | refine islv_foldl ?_ (fun x y hx => ?_) | refine islv_foldl_fst ?_ (fun x y hx => ?_))
    | simp -zeta only [↓islv_mk]
    | (extract_lets +onlyGivenNames t; refine islv_cut  (t := t) ?_ ?_; all_goals first | (intro ht; clear_value t) | subst t)
    | extract_lets +onlyGivenNames t | split | (refine islv_fst ?_ (by with_reducible assumption))
    | (refine islv_snd ?_ (by with_reducible assumption)) | (with_reducible intro x) | dsimp +zetaDelta only)

theorem State.charge1_islv (s : State) (p level n : Nat) (hs : s.islv = (I, false, F))
    : (State.charge1 s p level n).islv = (I, false, F) := by
  unfold State.charge1
  repeat' (first
    | (with_reducible first
        | assumption | apply State.count_islv | apply State.setPart_islv | refine islv_foldl ?_ (fun x y hx => ?_)
        | refine islv_foldl_fst ?_ (fun x y hx => ?_))
    | simp -zeta only [↓islv_mk]
    | (extract_lets +onlyGivenNames t; refine islv_cut  (t := t) ?_ ?_; all_goals first | (intro ht; clear_value t) | subst t)
    | extract_lets +onlyGivenNames t | split | (refine islv_fst ?_ (by with_reducible assumption))
    | (refine islv_snd ?_ (by with_reducible assumption)) | (with_reducible intro x) | dsimp +zetaDelta only)

theorem State.release1_islv (s : State) (p n : Nat) (hs : s.islv = (I, false, F))
    : (State.release1 s p n).islv = (I, false, F) := by
  unfold State.release1
  repeat' (first
    | (with_reducible first
        | assumption | apply State.setPart_islv | refine islv_foldl ?_ (fun x y hx => ?_)
        | refine islv_foldl_fst ?_ (fun x y hx => ?_))
    | simp -zeta only [↓islv_mk]
    | (extract_lets +onlyGivenNames t; refine islv_cut  (t := t) ?_ ?_; all_goals first | (intro ht; clear_value t) | subst t)
    | extract_lets +onlyGivenNames t | split | (refine islv_fst ?_ (by with_reducible assumption))
    | (refine islv_snd ?_ (by with_reducible assumption)) | (with_reducible intro x) | dsimp +zetaDelta only)

theorem State.chargeCells_islv (s : State) (p level n : Nat) (hs : s.islv = (I, false, F))
    : (State.chargeCells s p level n).islv = (I, false, F) := by
  unfold State.chargeCells
  repeat' (first
    | (with_reducible first
        | assumption | apply State.setPart_islv | apply State.charge1_islv | refine islv_foldl ?_ (fun x y hx => ?_)
        | refine islv_foldl_fst ?_ (fun x y hx => ?_))
    | simp -zeta only [↓islv_mk]
    | (extract_lets +onlyGivenNames t; refine islv_cut  (t := t) ?_ ?_; all_goals first | (intro ht; clear_value t) | subst t)
    | extract_lets +onlyGivenNames t | split | (refine islv_fst ?_ (by with_reducible assumption))
    | (refine islv_snd ?_ (by with_reducible assumption)) | (with_reducible intro x) | dsimp +zetaDelta only)

theorem State.releaseCells_islv (s : State) (p level n : Nat) (hs : s.islv = (I, false, F))
    : (State.releaseCells s p level n).islv = (I, false, F) := by
  unfold State.releaseCells
  repeat' (first
    | (with_reducible first
        | assumption | apply State.setPart_islv | apply State.release1_islv | refine islv_foldl ?_ (fun x y hx => ?_)
        | refine islv_foldl_fst ?_ (fun x y hx => ?_))
    | simp -zeta only [↓islv_mk]
    | (extract_lets +onlyGivenNames t; refine islv_cut  (t := t) ?_ ?_; all_goals first | (intro ht; clear_value t) | subst t)
    | extract_lets +onlyGivenNames t | split | (refine islv_fst ?_ (by with_reducible assumption))
    | (refine islv_snd ?_ (by with_reducible assumption)) | (with_reducible intro x) | dsimp +zetaDelta only)

theorem State.pushRun_islv (s : State) (src : Nat) (dsts : List Nat) (cls n : Nat) (who : CellFor) (keyed charged : Bool) (owner : Option Nat) (record : Bool) (blank : List Nat) (pri : Nat) (packed : Bool) (hs : s.islv = (I, false, F))
    : (State.pushRun s src dsts cls n who keyed charged owner record blank pri packed).islv = (I, false, F) := by
  unfold State.pushRun
  repeat' (first
    | (with_reducible first
        | assumption | apply State.record_islv | apply State.chargeCells_islv | refine islv_foldl ?_ (fun x y hx => ?_)
        | refine islv_foldl_fst ?_ (fun x y hx => ?_))
    | simp -zeta only [↓islv_mk]
    | (extract_lets +onlyGivenNames t; refine islv_cut  (t := t) ?_ ?_; all_goals first | (intro ht; clear_value t) | subst t)
    | extract_lets +onlyGivenNames t | split | (refine islv_fst ?_ (by with_reducible assumption))
    | (refine islv_snd ?_ (by with_reducible assumption)) | (with_reducible intro x) | dsimp +zetaDelta only)

theorem State.crossed_islv (s : State) (i : Nat) (take : List Nat) (q : XReq) (hs : s.islv = (I, false, F))
    : (State.crossed s i take q).1.islv = (I, false, F) := by
  unfold State.crossed
  repeat' (first
    | (with_reducible first
        | assumption | apply State.take_islv | apply State.chargeCells_islv | apply State.count_islv
        | apply State.releaseCells_islv | refine islv_foldl ?_ (fun x y hx => ?_)
        | refine islv_foldl_fst ?_ (fun x y hx => ?_))
    | simp -zeta only [↓islv_mk]
    | (extract_lets +onlyGivenNames t; refine islv_cut  (t := t) ?_ ?_; all_goals first | (intro ht; clear_value t) | subst t)
    | extract_lets +onlyGivenNames t | split | (refine islv_fst ?_ (by with_reducible assumption))
    | (refine islv_snd ?_ (by with_reducible assumption)) | (with_reducible intro x) | dsimp +zetaDelta only)

theorem State.discardRuns_islv (s : State) (p : CellRun → Bool) (hs : s.islv = (I, false, F))
    : (State.discardRuns s p).islv = (I, false, F) := by
  unfold State.discardRuns
  repeat' (first
    | (with_reducible first
        | assumption | apply State.count_islv | apply State.releaseCells_islv | refine islv_foldl ?_ (fun x y hx => ?_)
        | refine islv_foldl_fst ?_ (fun x y hx => ?_))
    | simp -zeta only [↓islv_mk]
    | (extract_lets +onlyGivenNames t; refine islv_cut  (t := t) ?_ ?_; all_goals first | (intro ht; clear_value t) | subst t)
    | extract_lets +onlyGivenNames t | split | (refine islv_fst ?_ (by with_reducible assumption))
    | (refine islv_snd ?_ (by with_reducible assumption)) | (with_reducible intro x) | dsimp +zetaDelta only)

theorem State.freeHeld_islv (s : State) (cls : Nat) (held : Tbl Nat) (hs : s.islv = (I, false, F))
    : (State.freeHeld s cls held).islv = (I, false, F) := by
  unfold State.freeHeld
  repeat' (first
    | (with_reducible first
        | assumption | apply State.releaseCells_islv | refine islv_foldl ?_ (fun x y hx => ?_)
        | refine islv_foldl_fst ?_ (fun x y hx => ?_))
    | simp -zeta only [↓islv_mk]
    | (extract_lets +onlyGivenNames t; refine islv_cut  (t := t) ?_ ?_; all_goals first | (intro ht; clear_value t) | subst t)
    | extract_lets +onlyGivenNames t | split | (refine islv_fst ?_ (by with_reducible assumption))
    | (refine islv_snd ?_ (by with_reducible assumption)) | (with_reducible intro x) | dsimp +zetaDelta only)

theorem State.setSlice_islv (s : State) (i : Nat) (x : Slice) (hs : s.islv = (I, false, F))
    : (State.setSlice s i x).islv = (I, false, F) := by
  unfold State.setSlice
  repeat' (first
    | (with_reducible first
        | assumption | refine islv_foldl ?_ (fun x y hx => ?_) | refine islv_foldl_fst ?_ (fun x y hx => ?_))
    | simp -zeta only [↓islv_mk]
    | (extract_lets +onlyGivenNames t; refine islv_cut  (t := t) ?_ ?_; all_goals first | (intro ht; clear_value t) | subst t)
    | extract_lets +onlyGivenNames t | split | (refine islv_fst ?_ (by with_reducible assumption))
    | (refine islv_snd ?_ (by with_reducible assumption)) | (with_reducible intro x) | dsimp +zetaDelta only)

theorem State.takeSlice_islv (s : State) (i : Nat) (c0 : Bool) (hs : s.islv = (I, false, F))
    : (State.takeSlice s i c0).islv = (I, false, F) := by
  unfold State.takeSlice
  repeat' (first
    | (with_reducible first
        | assumption | apply State.setSlice_islv | refine islv_foldl ?_ (fun x y hx => ?_)
        | refine islv_foldl_fst ?_ (fun x y hx => ?_))
    | simp -zeta only [↓islv_mk]
    | (extract_lets +onlyGivenNames t; refine islv_cut  (t := t) ?_ ?_; all_goals first | (intro ht; clear_value t) | subst t)
    | extract_lets +onlyGivenNames t | split | (refine islv_fst ?_ (by with_reducible assumption))
    | (refine islv_snd ?_ (by with_reducible assumption)) | (with_reducible intro x) | dsimp +zetaDelta only)

theorem State.freeSlice_islv (s : State) (h : Option (Nat × Bool)) (hs : s.islv = (I, false, F))
    : (State.freeSlice s h).islv = (I, false, F) := by
  unfold State.freeSlice
  repeat' (first
    | (with_reducible first
        | assumption | apply State.setSlice_islv | refine islv_foldl ?_ (fun x y hx => ?_)
        | refine islv_foldl_fst ?_ (fun x y hx => ?_))
    | simp -zeta only [↓islv_mk]
    | (extract_lets +onlyGivenNames t; refine islv_cut  (t := t) ?_ ?_; all_goals first | (intro ht; clear_value t) | subst t)
    | extract_lets +onlyGivenNames t | split | (refine islv_fst ?_ (by with_reducible assumption))
    | (refine islv_snd ?_ (by with_reducible assumption)) | (with_reducible intro x) | dsimp +zetaDelta only)

theorem State.prismLose_islv (s : State) (p : Nat) (hs : s.islv = (I, false, F))
    : (State.prismLose s p).islv = (I, false, F) := by
  unfold State.prismLose
  repeat' (first
    | (with_reducible first
        | assumption | apply State.count_islv | refine islv_foldl ?_ (fun x y hx => ?_)
        | refine islv_foldl_fst ?_ (fun x y hx => ?_))
    | simp -zeta only [↓islv_mk]
    | (extract_lets +onlyGivenNames t; refine islv_cut  (t := t) ?_ ?_; all_goals first | (intro ht; clear_value t) | subst t)
    | extract_lets +onlyGivenNames t | split | (refine islv_fst ?_ (by with_reducible assumption))
    | (refine islv_snd ?_ (by with_reducible assumption)) | (with_reducible intro x) | dsimp +zetaDelta only)

theorem State.prismPush_islv (s : State) (p : Nat) (cell : Bytes) (hs : s.islv = (I, false, F))
    : (State.prismPush s p cell).islv = (I, false, F) := by
  unfold State.prismPush
  repeat' (first
    | (with_reducible first
        | assumption | apply State.pushRun_islv | apply State.prismLose_islv | refine islv_foldl ?_ (fun x y hx => ?_)
        | refine islv_foldl_fst ?_ (fun x y hx => ?_))
    | simp -zeta only [↓islv_mk]
    | (extract_lets +onlyGivenNames t; refine islv_cut  (t := t) ?_ ?_; all_goals first | (intro ht; clear_value t) | subst t)
    | extract_lets +onlyGivenNames t | split | (refine islv_fst ?_ (by with_reducible assumption))
    | (refine islv_snd ?_ (by with_reducible assumption)) | (with_reducible intro x) | dsimp +zetaDelta only)

theorem State.tap_islv (s : State) (p sub len : Nat) (dropped : Bool) (hdr : Option Bytes) (hs : s.islv = (I, false, F))
    : (State.tap s p sub len dropped hdr).islv = (I, false, F) := by
  unfold State.tap
  repeat' (first
    | (with_reducible first
        | assumption | apply State.prismCtl_islv | apply State.prismPush_islv | apply State.drew_islv
        | refine islv_foldl ?_ (fun x y hx => ?_) | refine islv_foldl_fst ?_ (fun x y hx => ?_))
    | simp -zeta only [↓islv_mk]
    | (extract_lets +onlyGivenNames t; refine islv_cut  (t := t) ?_ ?_; all_goals first | (intro ht; clear_value t) | subst t)
    | extract_lets +onlyGivenNames t | split | (refine islv_fst ?_ (by with_reducible assumption))
    | (refine islv_snd ?_ (by with_reducible assumption)) | (with_reducible intro x) | dsimp +zetaDelta only)

theorem State.sendFrame_islv (s : State) (mac sub : Nat) (o : Out) (hs : s.islv = (I, false, F))
    : (State.sendFrame s mac sub o).islv = (I, false, F) := by
  unfold State.sendFrame
  repeat' (first
    | (with_reducible first
        | assumption | apply State.emit_islv | apply State.tap_islv | refine islv_foldl ?_ (fun x y hx => ?_)
        | refine islv_foldl_fst ?_ (fun x y hx => ?_))
    | simp -zeta only [↓islv_mk]
    | (extract_lets +onlyGivenNames t; refine islv_cut  (t := t) ?_ ?_; all_goals first | (intro ht; clear_value t) | subst t)
    | extract_lets +onlyGivenNames t | split | (refine islv_fst ?_ (by with_reducible assumption))
    | (refine islv_snd ?_ (by with_reducible assumption)) | (with_reducible intro x) | dsimp +zetaDelta only)

theorem State.sendAs_islv (s : State) (mac sub cls : Nat) (ect udpSum : Bool) (o : Out) (hs : s.islv = (I, false, F))
    : (State.sendAs s mac sub cls ect udpSum o).islv = (I, false, F) := by
  unfold State.sendAs
  repeat' (first
    | (with_reducible first
        | assumption | apply State.emit_islv | apply State.sendFrame_islv | refine islv_foldl ?_ (fun x y hx => ?_)
        | refine islv_foldl_fst ?_ (fun x y hx => ?_))
    | simp -zeta only [↓islv_mk]
    | (extract_lets +onlyGivenNames t; refine islv_cut  (t := t) ?_ ?_; all_goals first | (intro ht; clear_value t) | subst t)
    | extract_lets +onlyGivenNames t | split | (refine islv_fst ?_ (by with_reducible assumption))
    | (refine islv_snd ?_ (by with_reducible assumption)) | (with_reducible intro x) | dsimp +zetaDelta only)

theorem State.prismCtl_islv (s : State) (w : Nat) (hs : s.islv = (I, false, F))
    : (State.prismCtl s w).islv = (I, false, F) := by
  unfold State.prismCtl
  repeat' (first
    | (with_reducible first
        | assumption | apply State.setField_islv | apply State.setReg_islv | refine islv_foldl ?_ (fun x y hx => ?_)
        | refine islv_foldl_fst ?_ (fun x y hx => ?_))
    | simp -zeta only [↓islv_mk]
    | (extract_lets +onlyGivenNames t; refine islv_cut  (t := t) ?_ ?_; all_goals first | (intro ht; clear_value t) | subst t)
    | extract_lets +onlyGivenNames t | split | (refine islv_fst ?_ (by with_reducible assumption))
    | (refine islv_snd ?_ (by with_reducible assumption)) | (with_reducible intro x) | dsimp +zetaDelta only)

theorem State.putKey_islv (s : State) (idx : Nat) (k : KeyEntry) (hs : s.islv = (I, false, F))
    : (State.putKey s idx k).islv = (I, false, F) := by
  unfold State.putKey
  repeat' (first
    | (with_reducible first
        | assumption | apply State.store_islv | refine islv_foldl ?_ (fun x y hx => ?_)
        | refine islv_foldl_fst ?_ (fun x y hx => ?_))
    | simp -zeta only [↓islv_mk]
    | (extract_lets +onlyGivenNames t; refine islv_cut  (t := t) ?_ ?_; all_goals first | (intro ht; clear_value t) | subst t)
    | extract_lets +onlyGivenNames t | split | (refine islv_fst ?_ (by with_reducible assumption))
    | (refine islv_snd ?_ (by with_reducible assumption)) | (with_reducible intro x) | dsimp +zetaDelta only)

theorem State.holdKey_islv (s : State) (mkey : Nat) (hs : s.islv = (I, false, F))
    : (State.holdKey s mkey).islv = (I, false, F) := by
  unfold State.holdKey
  repeat' (first
    | (with_reducible first
        | assumption | apply State.putKey_islv | refine islv_foldl ?_ (fun x y hx => ?_)
        | refine islv_foldl_fst ?_ (fun x y hx => ?_))
    | simp -zeta only [↓islv_mk]
    | (extract_lets +onlyGivenNames t; refine islv_cut  (t := t) ?_ ?_; all_goals first | (intro ht; clear_value t) | subst t)
    | extract_lets +onlyGivenNames t | split | (refine islv_fst ?_ (by with_reducible assumption))
    | (refine islv_snd ?_ (by with_reducible assumption)) | (with_reducible intro x) | dsimp +zetaDelta only)

theorem State.dropKey_islv (s : State) (mkey : Nat) (hs : s.islv = (I, false, F))
    : (State.dropKey s mkey).islv = (I, false, F) := by
  unfold State.dropKey
  repeat' (first
    | (with_reducible first
        | assumption | apply State.putKey_islv | refine islv_foldl ?_ (fun x y hx => ?_)
        | refine islv_foldl_fst ?_ (fun x y hx => ?_))
    | simp -zeta only [↓islv_mk]
    | (extract_lets +onlyGivenNames t; refine islv_cut  (t := t) ?_ ?_; all_goals first | (intro ht; clear_value t) | subst t)
    | extract_lets +onlyGivenNames t | split | (refine islv_fst ?_ (by with_reducible assumption))
    | (refine islv_snd ?_ (by with_reducible assumption)) | (with_reducible intro x) | dsimp +zetaDelta only)

theorem State.wireNext_islv (s : State) (hs : s.islv = (I, false, F)) : (State.wireNext s).islv = (I, false, F) := by
  unfold State.wireNext
  dsimp only
  split
  · exact hs
  · split
    · exact hs
    · exact hs

theorem State.pushFrame_islv (s : State) (f : MirFrame) (hs : s.islv = (I, false, F))
    : (State.pushFrame s f).islv = (I, false, F) := by
  unfold State.pushFrame
  repeat' (first
    | (with_reducible first
        | assumption | apply State.wireNext_islv | refine islv_foldl ?_ (fun x y hx => ?_)
        | refine islv_foldl_fst ?_ (fun x y hx => ?_))
    | simp -zeta only [↓islv_mk]
    | (extract_lets +onlyGivenNames t; refine islv_cut  (t := t) ?_ ?_; all_goals first | (intro ht; clear_value t) | subst t)
    | extract_lets +onlyGivenNames t | split | (refine islv_fst ?_ (by with_reducible assumption))
    | (refine islv_snd ?_ (by with_reducible assumption)) | (with_reducible intro x) | dsimp +zetaDelta only)

theorem State.mirror_islv (s : State) (kind : MirKind) (args : List Nat) (b : Bytes) (hs : s.islv = (I, false, F))
    : (State.mirror s kind args b).islv = (I, false, F) := by
  unfold State.mirror
  repeat' (first
    | (with_reducible first
        | assumption | apply State.pushFrame_islv | refine islv_foldl ?_ (fun x y hx => ?_)
        | refine islv_foldl_fst ?_ (fun x y hx => ?_))
    | simp -zeta only [↓islv_mk]
    | (extract_lets +onlyGivenNames t; refine islv_cut  (t := t) ?_ ?_; all_goals first | (intro ht; clear_value t) | subst t)
    | extract_lets +onlyGivenNames t | split | (refine islv_fst ?_ (by with_reducible assumption))
    | (refine islv_snd ?_ (by with_reducible assumption)) | (with_reducible intro x) | dsimp +zetaDelta only)

theorem State.mirrorLog_islv (s : State) (r : LogRec) (hs : s.islv = (I, false, F))
    : (State.mirrorLog s r).islv = (I, false, F) := by
  unfold State.mirrorLog
  repeat' (first
    | (with_reducible first
        | assumption | apply State.pushFrame_islv | apply State.record_islv | refine islv_foldl ?_ (fun x y hx => ?_)
        | refine islv_foldl_fst ?_ (fun x y hx => ?_))
    | simp -zeta only [↓islv_mk]
    | (extract_lets +onlyGivenNames t; refine islv_cut  (t := t) ?_ ?_; all_goals first | (intro ht; clear_value t) | subst t)
    | extract_lets +onlyGivenNames t | split | (refine islv_fst ?_ (by with_reducible assumption))
    | (refine islv_snd ?_ (by with_reducible assumption)) | (with_reducible intro x) | dsimp +zetaDelta only)

theorem State.logRec_islv (s : State) (k : LogKind) (hs : s.islv = (I, false, F))
    : (State.logRec s k).1.islv = (I, false, F) := by
  unfold State.logRec
  repeat' (first
    | (with_reducible first
        | assumption | apply State.mirrorLog_islv | refine islv_foldl ?_ (fun x y hx => ?_)
        | refine islv_foldl_fst ?_ (fun x y hx => ?_))
    | simp -zeta only [↓islv_mk]
    | (extract_lets +onlyGivenNames t; refine islv_cut  (t := t) ?_ ?_; all_goals first | (intro ht; clear_value t) | subst t)
    | extract_lets +onlyGivenNames t | split | (refine islv_fst ?_ (by with_reducible assumption))
    | (refine islv_snd ?_ (by with_reducible assumption)) | (with_reducible intro x) | dsimp +zetaDelta only)

theorem State.touch_islv (s : State) (hs : s.islv = (I, false, F)) : (State.touch s).islv = (I, false, F) := by
  unfold State.touch
  repeat' (first
    | (with_reducible first
        | assumption | refine islv_foldl ?_ (fun x y hx => ?_) | refine islv_foldl_fst ?_ (fun x y hx => ?_))
    | simp -zeta only [↓islv_mk]
    | (extract_lets +onlyGivenNames t; refine islv_cut  (t := t) ?_ ?_; all_goals first | (intro ht; clear_value t) | subst t)
    | extract_lets +onlyGivenNames t | split | (refine islv_fst ?_ (by with_reducible assumption))
    | (refine islv_snd ?_ (by with_reducible assumption)) | (with_reducible intro x) | dsimp +zetaDelta only)

theorem State.cfgPut_islv (s : State) (typ key : Nat) (v : Option CfgVal) (hs : s.islv = (I, false, F))
    : (State.cfgPut s typ key v).islv = (I, false, F) := by
  unfold State.cfgPut
  repeat' (first
    | (with_reducible first
        | assumption | refine islv_foldl ?_ (fun x y hx => ?_) | refine islv_foldl_fst ?_ (fun x y hx => ?_))
    | simp -zeta only [↓islv_mk]
    | (extract_lets +onlyGivenNames t; refine islv_cut  (t := t) ?_ ?_; all_goals first | (intro ht; clear_value t) | subst t)
    | extract_lets +onlyGivenNames t | split | (refine islv_fst ?_ (by with_reducible assumption))
    | (refine islv_snd ?_ (by with_reducible assumption)) | (with_reducible intro x) | dsimp +zetaDelta only)

theorem State.setFunc_islv (s : State) (f : Nat) (x : EpFunc) (hs : s.islv = (I, false, F))
    : (State.setFunc s f x).islv = (I, false, F) := by
  unfold State.setFunc
  repeat' (first
    | (with_reducible first
        | assumption | refine islv_foldl ?_ (fun x y hx => ?_) | refine islv_foldl_fst ?_ (fun x y hx => ?_))
    | simp -zeta only [↓islv_mk]
    | (extract_lets +onlyGivenNames t; refine islv_cut  (t := t) ?_ ?_; all_goals first | (intro ht; clear_value t) | subst t)
    | extract_lets +onlyGivenNames t | split | (refine islv_fst ?_ (by with_reducible assumption))
    | (refine islv_snd ?_ (by with_reducible assumption)) | (with_reducible intro x) | dsimp +zetaDelta only)

theorem State.syncEgress_islv (s : State) (pt : Nat) (hs : s.islv = (I, false, F))
    : (State.syncEgress s pt).islv = (I, false, F) := by
  unfold State.syncEgress
  repeat' (first
    | (with_reducible first
        | assumption | refine islv_foldl ?_ (fun x y hx => ?_) | refine islv_foldl_fst ?_ (fun x y hx => ?_))
    | simp -zeta only [↓islv_mk]
    | (extract_lets +onlyGivenNames t; refine islv_cut  (t := t) ?_ ?_; all_goals first | (intro ht; clear_value t) | subst t)
    | extract_lets +onlyGivenNames t | split | (refine islv_fst ?_ (by with_reducible assumption))
    | (refine islv_snd ?_ (by with_reducible assumption)) | (with_reducible intro x) | dsimp +zetaDelta only)

theorem State.pushEgress_islv (s : State) (pt cls : Nat) (w : EgWhat) (cpl : Option Cpl) (more : Bool) (hs : s.islv = (I, false, F))
    : (State.pushEgress s pt cls w cpl more).islv = (I, false, F) := by
  unfold State.pushEgress
  repeat' (first
    | (with_reducible first
        | assumption | apply State.syncEgress_islv | refine islv_foldl ?_ (fun x y hx => ?_)
        | refine islv_foldl_fst ?_ (fun x y hx => ?_))
    | simp -zeta only [↓islv_mk]
    | (extract_lets +onlyGivenNames t; refine islv_cut  (t := t) ?_ ?_; all_goals first | (intro ht; clear_value t) | subst t)
    | extract_lets +onlyGivenNames t | split | (refine islv_fst ?_ (by with_reducible assumption))
    | (refine islv_snd ?_ (by with_reducible assumption)) | (with_reducible intro x) | dsimp +zetaDelta only)

theorem State.dropEgress_islv (s : State) (keep : EgUnit → Bool) (hs : s.islv = (I, false, F))
    : (State.dropEgress s keep).islv = (I, false, F) := by
  unfold State.dropEgress
  repeat' (first
    | (with_reducible first
        | assumption | apply State.syncEgress_islv | refine islv_foldl ?_ (fun x y hx => ?_)
        | refine islv_foldl_fst ?_ (fun x y hx => ?_))
    | simp -zeta only [↓islv_mk]
    | (extract_lets +onlyGivenNames t; refine islv_cut  (t := t) ?_ ?_; all_goals first | (intro ht; clear_value t) | subst t)
    | extract_lets +onlyGivenNames t | split | (refine islv_fst ?_ (by with_reducible assumption))
    | (refine islv_snd ?_ (by with_reducible assumption)) | (with_reducible intro x) | dsimp +zetaDelta only)

theorem State.setOdt_islv (s : State) (c : Nat) (x : OdtConn) (hs : s.islv = (I, false, F))
    : (State.setOdt s c x).islv = (I, false, F) := by
  unfold State.setOdt
  repeat' (first
    | (with_reducible first
        | assumption | refine islv_foldl ?_ (fun x y hx => ?_) | refine islv_foldl_fst ?_ (fun x y hx => ?_))
    | simp -zeta only [↓islv_mk]
    | (extract_lets +onlyGivenNames t; refine islv_cut  (t := t) ?_ ?_; all_goals first | (intro ht; clear_value t) | subst t)
    | extract_lets +onlyGivenNames t | split | (refine islv_fst ?_ (by with_reducible assumption))
    | (refine islv_snd ?_ (by with_reducible assumption)) | (with_reducible intro x) | dsimp +zetaDelta only)

theorem State.odtWire_islv (s : State) (k cls qpn flags seq : Nat) (msg : OdtOut) (hs : s.islv = (I, false, F))
    : (State.odtWire s k cls qpn flags seq msg).islv = (I, false, F) := by
  unfold State.odtWire
  repeat' (first
    | (with_reducible first
        | assumption | apply State.sendAs_islv | refine islv_foldl ?_ (fun x y hx => ?_)
        | refine islv_foldl_fst ?_ (fun x y hx => ?_))
    | simp -zeta only [↓islv_mk]
    | (extract_lets +onlyGivenNames t; refine islv_cut  (t := t) ?_ ?_; all_goals first | (intro ht; clear_value t) | subst t)
    | extract_lets +onlyGivenNames t | split | (refine islv_fst ?_ (by with_reducible assumption))
    | (refine islv_snd ?_ (by with_reducible assumption)) | (with_reducible intro x) | dsimp +zetaDelta only)

theorem State.odtEmit_islv (s : State) (k cls qpn flags : Nat) (msg : OdtOut) (hs : s.islv = (I, false, F))
    : (State.odtEmit s k cls qpn flags msg).islv = (I, false, F) := by
  unfold State.odtEmit
  repeat' (first
    | (with_reducible first
        | assumption | apply State.setOdt_islv | apply State.odtWire_islv | refine islv_foldl ?_ (fun x y hx => ?_)
        | refine islv_foldl_fst ?_ (fun x y hx => ?_))
    | simp -zeta only [↓islv_mk]
    | (extract_lets +onlyGivenNames t; refine islv_cut  (t := t) ?_ ?_; all_goals first | (intro ht; clear_value t) | subst t)
    | extract_lets +onlyGivenNames t | split | (refine islv_fst ?_ (by with_reducible assumption))
    | (refine islv_snd ?_ (by with_reducible assumption)) | (with_reducible intro x) | dsimp +zetaDelta only)

theorem State.odtAgain_islv (s : State) (k seq : Nat) (hs : s.islv = (I, false, F))
    : (State.odtAgain s k seq).islv = (I, false, F) := by
  unfold State.odtAgain
  repeat' (first
    | (with_reducible first
        | assumption | apply State.setOdt_islv | apply State.count_islv | apply State.odtWire_islv
        | refine islv_foldl ?_ (fun x y hx => ?_) | refine islv_foldl_fst ?_ (fun x y hx => ?_))
    | simp -zeta only [↓islv_mk]
    | (extract_lets +onlyGivenNames t; refine islv_cut  (t := t) ?_ ?_; all_goals first | (intro ht; clear_value t) | subst t)
    | extract_lets +onlyGivenNames t | split | (refine islv_fst ?_ (by with_reducible assumption))
    | (refine islv_snd ?_ (by with_reducible assumption)) | (with_reducible intro x) | dsimp +zetaDelta only)

theorem State.heldSend_islv (s : State) (h : HeldFrame) (hs : s.islv = (I, false, F))
    : (State.heldSend s h).islv = (I, false, F) := by
  unfold State.heldSend
  repeat' (first
    | (with_reducible first
        | assumption | apply State.odtEmit_islv | apply State.odtAgain_islv | apply State.sendAs_islv
        | refine islv_foldl ?_ (fun x y hx => ?_) | refine islv_foldl_fst ?_ (fun x y hx => ?_))
    | simp -zeta only [↓islv_mk]
    | (extract_lets +onlyGivenNames t; refine islv_cut  (t := t) ?_ ?_; all_goals first | (intro ht; clear_value t) | subst t)
    | extract_lets +onlyGivenNames t | split | (refine islv_fst ?_ (by with_reducible assumption))
    | (refine islv_snd ?_ (by with_reducible assumption)) | (with_reducible intro x) | dsimp +zetaDelta only)

theorem State.heldRelease_islv (s : State) (mac : Nat) (hs : s.islv = (I, false, F))
    : (State.heldRelease s mac).islv = (I, false, F) := by
  unfold State.heldRelease
  repeat' (first
    | (with_reducible first
        | assumption | apply State.heldSend_islv | refine islv_foldl ?_ (fun x y hx => ?_)
        | refine islv_foldl_fst ?_ (fun x y hx => ?_))
    | simp -zeta only [↓islv_mk]
    | (extract_lets +onlyGivenNames t; refine islv_cut  (t := t) ?_ ?_; all_goals first | (intro ht; clear_value t) | subst t)
    | extract_lets +onlyGivenNames t | split | (refine islv_fst ?_ (by with_reducible assumption))
    | (refine islv_snd ?_ (by with_reducible assumption)) | (with_reducible intro x) | dsimp +zetaDelta only)

theorem State.sendOrHold_islv (s : State) (h : HeldFrame) (hs : s.islv = (I, false, F))
    : (State.sendOrHold s h).islv = (I, false, F) := by
  unfold State.sendOrHold
  repeat' (first
    | (with_reducible first
        | assumption | apply State.heldRelease_islv | apply State.heldSend_islv
        | refine islv_foldl ?_ (fun x y hx => ?_) | refine islv_foldl_fst ?_ (fun x y hx => ?_))
    | simp -zeta only [↓islv_mk]
    | (extract_lets +onlyGivenNames t; refine islv_cut  (t := t) ?_ ?_; all_goals first | (intro ht; clear_value t) | subst t)
    | extract_lets +onlyGivenNames t | split | (refine islv_fst ?_ (by with_reducible assumption))
    | (refine islv_snd ?_ (by with_reducible assumption)) | (with_reducible intro x) | dsimp +zetaDelta only)

theorem State.odtCtl_islv (s : State) (k qpn flags : Nat) (msg : OdtOut) (cls : Nat) (hs : s.islv = (I, false, F))
    : (State.odtCtl s k qpn flags msg cls).islv = (I, false, F) := by
  unfold State.odtCtl
  repeat' (first
    | (with_reducible first
        | assumption | apply State.sendOrHold_islv | refine islv_foldl ?_ (fun x y hx => ?_)
        | refine islv_foldl_fst ?_ (fun x y hx => ?_))
    | simp -zeta only [↓islv_mk]
    | (extract_lets +onlyGivenNames t; refine islv_cut  (t := t) ?_ ?_; all_goals first | (intro ht; clear_value t) | subst t)
    | extract_lets +onlyGivenNames t | split | (refine islv_fst ?_ (by with_reducible assumption))
    | (refine islv_snd ?_ (by with_reducible assumption)) | (with_reducible intro x) | dsimp +zetaDelta only)

theorem State.setRoce_islv (s : State) (k : Nat) (x : RoceConn) (hs : s.islv = (I, false, F))
    : (State.setRoce s k x).islv = (I, false, F) := by
  unfold State.setRoce
  repeat' (first
    | (with_reducible first
        | assumption | refine islv_foldl ?_ (fun x y hx => ?_) | refine islv_foldl_fst ?_ (fun x y hx => ?_))
    | simp -zeta only [↓islv_mk]
    | (extract_lets +onlyGivenNames t; refine islv_cut  (t := t) ?_ ?_; all_goals first | (intro ht; clear_value t) | subst t)
    | extract_lets +onlyGivenNames t | split | (refine islv_fst ?_ (by with_reducible assumption))
    | (refine islv_snd ?_ (by with_reducible assumption)) | (with_reducible intro x) | dsimp +zetaDelta only)

theorem State.rocePump_islv (n k : Nat) (s : State) (hs : s.islv = (I, false, F))
    : (State.rocePump n k s).islv = (I, false, F) := by
  induction n generalizing s with
  | zero => exact hs
  | succ n ih =>
    unfold State.rocePump
    repeat' (first
      | (with_reducible first
          | assumption | apply goodOut_next | apply State.logRec_islv | apply State.setRoce_islv
          | apply State.sendAs_islv | apply ih | refine islv_foldl ?_ (fun x y hx => ?_)
          | refine islv_foldl_fst ?_ (fun x y hx => ?_))
      | simp -zeta only [↓islv_mk]
      | (extract_lets +onlyGivenNames t; refine islv_cut  (t := t) ?_ ?_; all_goals first | (intro ht; clear_value t) | subst t)
      | extract_lets +onlyGivenNames t | split | (refine islv_fst ?_ (by with_reducible assumption))
      | (refine islv_snd ?_ (by with_reducible assumption)) | (with_reducible intro x) | dsimp +zetaDelta only)

theorem State.roceSend_islv (s : State) (k : Nat) (r : RoceReq) (hs : s.islv = (I, false, F))
    : (State.roceSend s k r).islv = (I, false, F) := by
  unfold State.roceSend
  repeat' (first
    | (with_reducible first
        | assumption | apply State.setRoce_islv | apply State.rocePump_islv | refine islv_foldl ?_ (fun x y hx => ?_)
        | refine islv_foldl_fst ?_ (fun x y hx => ?_))
    | simp -zeta only [↓islv_mk]
    | (extract_lets +onlyGivenNames t; refine islv_cut  (t := t) ?_ ?_; all_goals first | (intro ht; clear_value t) | subst t)
    | extract_lets +onlyGivenNames t | split | (refine islv_fst ?_ (by with_reducible assumption))
    | (refine islv_snd ?_ (by with_reducible assumption)) | (with_reducible intro x) | dsimp +zetaDelta only)

theorem State.roceFrame_islv (s : State) (mac sub cls : Nat) (o : Out) (hs : s.islv = (I, false, F))
    : (State.roceFrame s mac sub cls o).islv = (I, false, F) := by
  unfold State.roceFrame
  repeat' (first
    | (with_reducible first
        | assumption | apply State.sendOrHold_islv | refine islv_foldl ?_ (fun x y hx => ?_)
        | refine islv_foldl_fst ?_ (fun x y hx => ?_))
    | simp -zeta only [↓islv_mk]
    | (extract_lets +onlyGivenNames t; refine islv_cut  (t := t) ?_ ?_; all_goals first | (intro ht; clear_value t) | subst t)
    | extract_lets +onlyGivenNames t | split | (refine islv_fst ?_ (by with_reducible assumption))
    | (refine islv_snd ?_ (by with_reducible assumption)) | (with_reducible intro x) | dsimp +zetaDelta only)

theorem State.sendVector_islv (s : State) (f v cls : Nat) (hs : s.islv = (I, false, F))
    : (State.sendVector s f v cls).islv = (I, false, F) := by
  unfold State.sendVector
  repeat' (first
    | (with_reducible first
        | assumption | apply State.pushEgress_islv | apply State.setFunc_islv | refine islv_foldl ?_ (fun x y hx => ?_)
        | refine islv_foldl_fst ?_ (fun x y hx => ?_))
    | simp -zeta only [↓islv_mk]
    | (extract_lets +onlyGivenNames t; refine islv_cut  (t := t) ?_ ?_; all_goals first | (intro ht; clear_value t) | subst t)
    | extract_lets +onlyGivenNames t | split | (refine islv_fst ?_ (by with_reducible assumption))
    | (refine islv_snd ?_ (by with_reducible assumption)) | (with_reducible intro x) | dsimp +zetaDelta only)

theorem State.pushMessage_islv (s : State) (pt cls : Nat) (cpl : Option Cpl) (l : List EgWhat) (hs : s.islv = (I, false, F)) :
    (State.pushMessage s pt cls cpl l).islv = (I, false, F) := by
  induction l generalizing s with
  | nil => exact hs
  | cons w l ih =>
    cases l with
    | nil => exact State.pushEgress_islv _ _ _ _ _ _ hs
    | cons a l => exact ih _ (State.pushEgress_islv _ _ _ _ _ _ hs)

theorem State.hostPut_islv (s : State) (mkey a cls owner : Nat) (b : Bytes) (cpl : Option Cpl) (hs : s.islv = (I, false, F))
    : (State.hostPut s mkey a cls owner b cpl).islv = (I, false, F) := by
  unfold State.hostPut
  extract_lets k bus f n c ps
  split
  · exact State.pushMessage_islv _ _ _ _ _ hs
  · exact State.pushMessage_islv _ _ _ _ _ hs
  · split
    · exact State.pushMessage_islv _ _ _ _ _ hs
    · exact hs
  · exact State.store_islv _ _ _ hs

theorem State.descFail_islv (s : State) (id status : Nat) (hs : s.islv = (I, false, F))
    : (State.descFail s id status).islv = (I, false, F) := by
  unfold State.descFail
  repeat' (first
    | (with_reducible first
        | assumption | refine islv_foldl ?_ (fun x y hx => ?_) | refine islv_foldl_fst ?_ (fun x y hx => ?_))
    | simp -zeta only [↓islv_mk]
    | (extract_lets +onlyGivenNames t; refine islv_cut  (t := t) ?_ ?_; all_goals first | (intro ht; clear_value t) | subst t)
    | extract_lets +onlyGivenNames t | split | (refine islv_fst ?_ (by with_reducible assumption))
    | (refine islv_snd ?_ (by with_reducible assumption)) | (with_reducible intro x) | dsimp +zetaDelta only)

theorem State.descsFail_islv (s : State) (kind binding status : Nat) (hs : s.islv = (I, false, F))
    : (State.descsFail s kind binding status).islv = (I, false, F) := by
  unfold State.descsFail
  repeat' (first
    | (with_reducible first
        | assumption | apply State.descFail_islv | refine islv_foldl ?_ (fun x y hx => ?_)
        | refine islv_foldl_fst ?_ (fun x y hx => ?_))
    | simp -zeta only [↓islv_mk]
    | (extract_lets +onlyGivenNames t; refine islv_cut  (t := t) ?_ ?_; all_goals first | (intro ht; clear_value t) | subst t)
    | extract_lets +onlyGivenNames t | split | (refine islv_fst ?_ (by with_reducible assumption))
    | (refine islv_snd ?_ (by with_reducible assumption)) | (with_reducible intro x) | dsimp +zetaDelta only)

theorem State.setGroup_islv (s : State) (i : Nat) (g : Group) (hs : s.islv = (I, false, F))
    : (State.setGroup s i g).islv = (I, false, F) := by
  unfold State.setGroup
  repeat' (first | with_reducible assumption | split | (with_reducible exact hs))

theorem State.updGroup_islv (s : State) (i : Nat) (f : Group → Group) (hs : s.islv = (I, false, F))
    : (State.updGroup s i f).islv = (I, false, F) := by
  unfold State.updGroup
  repeat' (first
    | (with_reducible first
        | assumption | apply State.setGroup_islv | refine islv_foldl ?_ (fun x y hx => ?_)
        | refine islv_foldl_fst ?_ (fun x y hx => ?_))
    | simp -zeta only [↓islv_mk]
    | (extract_lets +onlyGivenNames t; refine islv_cut  (t := t) ?_ ?_; all_goals first | (intro ht; clear_value t) | subst t)
    | extract_lets +onlyGivenNames t | split | (refine islv_fst ?_ (by with_reducible assumption))
    | (refine islv_snd ?_ (by with_reducible assumption)) | (with_reducible intro x) | dsimp +zetaDelta only)

theorem State.updMember_islv (s : State) (sl : Nat) (f : Member → Member) (hs : s.islv = (I, false, F))
    : (State.updMember s sl f).islv = (I, false, F) := by
  unfold State.updMember
  repeat' (first
    | (with_reducible first
        | assumption | apply State.trace_islv | refine islv_foldl ?_ (fun x y hx => ?_)
        | refine islv_foldl_fst ?_ (fun x y hx => ?_))
    | simp -zeta only [↓islv_mk]
    | (extract_lets +onlyGivenNames t; refine islv_cut  (t := t) ?_ ?_; all_goals first | (intro ht; clear_value t) | subst t)
    | extract_lets +onlyGivenNames t | split | (refine islv_fst ?_ (by with_reducible assumption))
    | (refine islv_snd ?_ (by with_reducible assumption)) | (with_reducible intro x) | dsimp +zetaDelta only)

theorem State.setQp_islv (s : State) (q : Nat) (x : Qp) (hs : s.islv = (I, false, F))
    : (State.setQp s q x).islv = (I, false, F) := by
  unfold State.setQp
  repeat' (first
    | (with_reducible first
        | assumption | apply State.trace_islv | refine islv_foldl ?_ (fun x y hx => ?_)
        | refine islv_foldl_fst ?_ (fun x y hx => ?_))
    | simp -zeta only [↓islv_mk]
    | (extract_lets +onlyGivenNames t; refine islv_cut  (t := t) ?_ ?_; all_goals first | (intro ht; clear_value t) | subst t)
    | extract_lets +onlyGivenNames t | split | (refine islv_fst ?_ (by with_reducible assumption))
    | (refine islv_snd ?_ (by with_reducible assumption)) | (with_reducible intro x) | dsimp +zetaDelta only)

theorem State.updQp_islv (s : State) (q : Nat) (f : Qp → Qp) (hs : s.islv = (I, false, F))
    : (State.updQp s q f).islv = (I, false, F) := by
  unfold State.updQp
  repeat' (first
    | (with_reducible first
        | assumption | apply State.setQp_islv | refine islv_foldl ?_ (fun x y hx => ?_)
        | refine islv_foldl_fst ?_ (fun x y hx => ?_))
    | simp -zeta only [↓islv_mk]
    | (extract_lets +onlyGivenNames t; refine islv_cut  (t := t) ?_ ?_; all_goals first | (intro ht; clear_value t) | subst t)
    | extract_lets +onlyGivenNames t | split | (refine islv_fst ?_ (by with_reducible assumption))
    | (refine islv_snd ?_ (by with_reducible assumption)) | (with_reducible intro x) | dsimp +zetaDelta only)

theorem State.updCmd_islv (s : State) (seq : Nat) (f : Cmd → Cmd) (hs : s.islv = (I, false, F))
    : (State.updCmd s seq f).islv = (I, false, F) := by
  unfold State.updCmd
  repeat' (first
    | (with_reducible first
        | assumption | refine islv_foldl ?_ (fun x y hx => ?_) | refine islv_foldl_fst ?_ (fun x y hx => ?_))
    | simp -zeta only [↓islv_mk]
    | (extract_lets +onlyGivenNames t; refine islv_cut  (t := t) ?_ ?_; all_goals first | (intro ht; clear_value t) | subst t)
    | extract_lets +onlyGivenNames t | split | (refine islv_fst ?_ (by with_reducible assumption))
    | (refine islv_snd ?_ (by with_reducible assumption)) | (with_reducible intro x) | dsimp +zetaDelta only)

theorem State.atQpe_islv (s : State) (d : Door) (g : State → State) (hs : s.islv = (I, false, F)) (hg : ∀ x0, x0.islv = (I, false, F) → (g x0).islv = (I, false, F))
    : (State.atQpe s d g).islv = (I, false, F) := by
  unfold State.atQpe
  repeat' (first
    | (with_reducible first
        | assumption | apply hg | apply State.emit_islv | refine islv_foldl ?_ (fun x y hx => ?_)
        | refine islv_foldl_fst ?_ (fun x y hx => ?_))
    | simp -zeta only [↓islv_mk]
    | (extract_lets +onlyGivenNames t; refine islv_cut  (t := t) ?_ ?_; all_goals first | (intro ht; clear_value t) | subst t)
    | extract_lets +onlyGivenNames t | split | (refine islv_fst ?_ (by with_reducible assumption))
    | (refine islv_snd ?_ (by with_reducible assumption)) | (with_reducible intro x) | dsimp +zetaDelta only)

theorem State.doorsRefused_islv (s : State) (hs : s.islv = (I, false, F)) : (State.doorsRefused s).islv = (I, false, F) := by
  unfold State.doorsRefused
  repeat' (first
    | (with_reducible first
        | assumption | apply State.emits_islv | refine islv_foldl ?_ (fun x y hx => ?_)
        | refine islv_foldl_fst ?_ (fun x y hx => ?_))
    | simp -zeta only [↓islv_mk]
    | (extract_lets +onlyGivenNames t; refine islv_cut  (t := t) ?_ ?_; all_goals first | (intro ht; clear_value t) | subst t)
    | extract_lets +onlyGivenNames t | split | (refine islv_fst ?_ (by with_reducible assumption))
    | (refine islv_snd ?_ (by with_reducible assumption)) | (with_reducible intro x) | dsimp +zetaDelta only)

theorem State.useContext_islv (s : State) (q : Nat) (hs : s.islv = (I, false, F))
    : (State.useContext s q).islv = (I, false, F) := by
  unfold State.useContext
  repeat' (first
    | (with_reducible first
        | assumption | apply State.count_islv | refine islv_foldl ?_ (fun x y hx => ?_)
        | refine islv_foldl_fst ?_ (fun x y hx => ?_))
    | simp -zeta only [↓islv_mk]
    | (extract_lets +onlyGivenNames t; refine islv_cut  (t := t) ?_ ?_; all_goals first | (intro ht; clear_value t) | subst t)
    | extract_lets +onlyGivenNames t | split | (refine islv_fst ?_ (by with_reducible assumption))
    | (refine islv_snd ?_ (by with_reducible assumption)) | (with_reducible intro x) | dsimp +zetaDelta only)

theorem State.badDoorbell_islv (s : State) (hs : s.islv = (I, false, F)) : (State.badDoorbell s).islv = (I, false, F) := by
  unfold State.badDoorbell
  repeat' (first
    | (with_reducible first
        | assumption | apply State.count_islv | apply State.event_islv | refine islv_foldl ?_ (fun x y hx => ?_)
        | refine islv_foldl_fst ?_ (fun x y hx => ?_))
    | simp -zeta only [↓islv_mk]
    | (extract_lets +onlyGivenNames t; refine islv_cut  (t := t) ?_ ?_; all_goals first | (intro ht; clear_value t) | subst t)
    | extract_lets +onlyGivenNames t | split | (refine islv_fst ?_ (by with_reducible assumption))
    | (refine islv_snd ?_ (by with_reducible assumption)) | (with_reducible intro x) | dsimp +zetaDelta only)

theorem State.sqTail_islv (s : State) (q t' : Nat) (hs : s.islv = (I, false, F))
    : (State.sqTail s q t').1.islv = (I, false, F) := by
  unfold State.sqTail
  repeat' (first
    | (with_reducible first
        | assumption | apply State.count_islv | apply State.useContext_islv | apply State.setQp_islv
        | apply State.badDoorbell_islv | refine islv_foldl ?_ (fun x y hx => ?_)
        | refine islv_foldl_fst ?_ (fun x y hx => ?_))
    | simp -zeta only [↓islv_mk]
    | (extract_lets +onlyGivenNames t; refine islv_cut  (t := t) ?_ ?_; all_goals first | (intro ht; clear_value t) | subst t)
    | extract_lets +onlyGivenNames t | split | (refine islv_fst ?_ (by with_reducible assumption))
    | (refine islv_snd ?_ (by with_reducible assumption)) | (with_reducible intro x) | dsimp +zetaDelta only)

theorem State.cqHeadDb_islv (s : State) (q c' : Nat) (hs : s.islv = (I, false, F))
    : (State.cqHeadDb s q c').1.islv = (I, false, F) := by
  unfold State.cqHeadDb
  repeat' (first
    | (with_reducible first
        | assumption | apply State.count_islv | apply State.useContext_islv | apply State.setQp_islv
        | apply State.badDoorbell_islv | refine islv_foldl ?_ (fun x y hx => ?_)
        | refine islv_foldl_fst ?_ (fun x y hx => ?_))
    | simp -zeta only [↓islv_mk]
    | (extract_lets +onlyGivenNames t; refine islv_cut  (t := t) ?_ ?_; all_goals first | (intro ht; clear_value t) | subst t)
    | extract_lets +onlyGivenNames t | split | (refine islv_fst ?_ (by with_reducible assumption))
    | (refine islv_snd ?_ (by with_reducible assumption)) | (with_reducible intro x) | dsimp +zetaDelta only)

theorem State.unstage_islv (s : State) (pt n : Nat) (hs : s.islv = (I, false, F))
    : (State.unstage s pt n).islv = (I, false, F) := by
  unfold State.unstage
  repeat' (first
    | (with_reducible first
        | assumption | refine islv_foldl ?_ (fun x y hx => ?_) | refine islv_foldl_fst ?_ (fun x y hx => ?_))
    | simp -zeta only [↓islv_mk]
    | (extract_lets +onlyGivenNames t; refine islv_cut  (t := t) ?_ ?_; all_goals first | (intro ht; clear_value t) | subst t)
    | extract_lets +onlyGivenNames t | split | (refine islv_fst ?_ (by with_reducible assumption))
    | (refine islv_snd ?_ (by with_reducible assumption)) | (with_reducible intro x) | dsimp +zetaDelta only)

theorem State.releaseMedia_islv (s : State) (c : Cmd) (hs : s.islv = (I, false, F))
    : (State.releaseMedia s c).islv = (I, false, F) := by
  unfold State.releaseMedia
  repeat' (first
    | (with_reducible first
        | assumption | apply State.issued_islv | apply State.discardRuns_islv | apply State.freeHeld_islv
        | apply State.freeSlice_islv | apply State.unstage_islv | apply State.updGroup_islv
        | refine islv_foldl ?_ (fun x y hx => ?_) | refine islv_foldl_fst ?_ (fun x y hx => ?_))
    | simp -zeta only [↓islv_mk]
    | (extract_lets +onlyGivenNames t; refine islv_cut  (t := t) ?_ ?_; all_goals first | (intro ht; clear_value t) | subst t)
    | extract_lets +onlyGivenNames t | split | (refine islv_fst ?_ (by with_reducible assumption))
    | (refine islv_snd ?_ (by with_reducible assumption)) | (with_reducible intro x) | dsimp +zetaDelta only)

theorem State.release_islv (s : State) (c : Cmd) (hs : s.islv = (I, false, F))
    : (State.release s c).islv = (I, false, F) := by
  unfold State.release
  repeat' (first
    | (with_reducible first
        | assumption | apply State.releaseMedia_islv | apply State.unstage_islv | apply State.releaseCells_islv
        | apply State.updCmd_islv | apply State.dropKey_islv | refine islv_foldl ?_ (fun x y hx => ?_)
        | refine islv_foldl_fst ?_ (fun x y hx => ?_))
    | simp -zeta only [↓islv_mk]
    | (extract_lets +onlyGivenNames t; refine islv_cut  (t := t) ?_ ?_; all_goals first | (intro ht; clear_value t) | subst t)
    | extract_lets +onlyGivenNames t | split | (refine islv_fst ?_ (by with_reducible assumption))
    | (refine islv_snd ?_ (by with_reducible assumption)) | (with_reducible intro x) | dsimp +zetaDelta only)

theorem State.dropCmd_islv (s : State) (c : Cmd) (hs : s.islv = (I, false, F))
    : (State.dropCmd s c).islv = (I, false, F) := by
  unfold State.dropCmd
  repeat' (first
    | (with_reducible first
        | assumption | apply State.release_islv | apply State.trace_islv | refine islv_foldl ?_ (fun x y hx => ?_)
        | refine islv_foldl_fst ?_ (fun x y hx => ?_))
    | simp -zeta only [↓islv_mk]
    | (extract_lets +onlyGivenNames t; refine islv_cut  (t := t) ?_ ?_; all_goals first | (intro ht; clear_value t) | subst t)
    | extract_lets +onlyGivenNames t | split | (refine islv_fst ?_ (by with_reducible assumption))
    | (refine islv_snd ?_ (by with_reducible assumption)) | (with_reducible intro x) | dsimp +zetaDelta only)

theorem State.dropFetch_islv (s : State) (q : Nat) (hs : s.islv = (I, false, F))
    : (State.dropFetch s q).islv = (I, false, F) := by
  unfold State.dropFetch
  repeat' (first
    | (with_reducible first
        | assumption | refine islv_foldl ?_ (fun x y hx => ?_) | refine islv_foldl_fst ?_ (fun x y hx => ?_))
    | simp -zeta only [↓islv_mk]
    | (extract_lets +onlyGivenNames t; refine islv_cut  (t := t) ?_ ?_; all_goals first | (intro ht; clear_value t) | subst t)
    | extract_lets +onlyGivenNames t | split | (refine islv_fst ?_ (by with_reducible assumption))
    | (refine islv_snd ?_ (by with_reducible assumption)) | (with_reducible intro x) | dsimp +zetaDelta only)

theorem State.lostCompletion_islv (s : State) (c : Cmd) (hs : s.islv = (I, false, F))
    : (State.lostCompletion s c).islv = (I, false, F) := by
  unfold State.lostCompletion
  repeat' (first
    | (with_reducible first
        | assumption | apply State.setQp_islv | apply State.dropFetch_islv | apply State.dropCmd_islv
        | refine islv_foldl ?_ (fun x y hx => ?_) | refine islv_foldl_fst ?_ (fun x y hx => ?_))
    | simp -zeta only [↓islv_mk]
    | (extract_lets +onlyGivenNames t; refine islv_cut  (t := t) ?_ ?_; all_goals first | (intro ht; clear_value t) | subst t)
    | extract_lets +onlyGivenNames t | split | (refine islv_fst ?_ (by with_reducible assumption))
    | (refine islv_snd ?_ (by with_reducible assumption)) | (with_reducible intro x) | dsimp +zetaDelta only)

theorem State.sendCompletion_islv (s : State) (c : Cmd) (slot : Nat) (entry : Bytes) (hs : s.islv = (I, false, F))
    : (State.sendCompletion s c slot entry).islv = (I, false, F) := by
  unfold State.sendCompletion
  repeat' (first
    | (with_reducible first
        | assumption | apply State.useContext_islv | apply State.emit_islv | apply State.hostPut_islv
        | apply State.sendVector_islv | apply State.pushEgress_islv | refine islv_foldl ?_ (fun x y hx => ?_)
        | refine islv_foldl_fst ?_ (fun x y hx => ?_))
    | simp -zeta only [↓islv_mk]
    | (extract_lets +onlyGivenNames t; refine islv_cut  (t := t) ?_ ?_; all_goals first | (intro ht; clear_value t) | subst t)
    | extract_lets +onlyGivenNames t | split | (refine islv_fst ?_ (by with_reducible assumption))
    | (refine islv_snd ?_ (by with_reducible assumption)) | (with_reducible intro x) | dsimp +zetaDelta only)

theorem State.callHook_islv (s : State) (att : Nat) (c : Cmd) (hook : Nat) (input : Bytes) (hs : s.islv = (I, false, F))
    : (State.callHook s att c hook input).islv = (I, false, F) := by
  unfold State.callHook
  repeat' (first
    | (with_reducible first
        | assumption | apply State.updCmd_islv | refine islv_foldl ?_ (fun x y hx => ?_)
        | refine islv_foldl_fst ?_ (fun x y hx => ?_))
    | simp -zeta only [↓islv_mk]
    | (extract_lets +onlyGivenNames t; refine islv_cut  (t := t) ?_ ?_; all_goals first | (intro ht; clear_value t) | subst t)
    | extract_lets +onlyGivenNames t | split | (refine islv_fst ?_ (by with_reducible assumption))
    | (refine islv_snd ?_ (by with_reducible assumption)) | (with_reducible intro x) | dsimp +zetaDelta only)

theorem State.postTry_islv (s : State) (seq : Nat) (hs : s.islv = (I, false, F))
    : (State.postTry s seq).islv = (I, false, F) := by
  unfold State.postTry
  repeat' (first
    | (with_reducible first
        | assumption | apply State.dropCmd_islv | apply State.lostCompletion_islv | apply State.sendCompletion_islv
        | apply State.touch_islv | apply State.callHook_islv | apply State.logRec_islv | apply State.setQp_islv
        | apply State.updCmd_islv | refine islv_foldl ?_ (fun x y hx => ?_)
        | refine islv_foldl_fst ?_ (fun x y hx => ?_))
    | simp -zeta only [↓islv_mk]
    | (extract_lets +onlyGivenNames t; refine islv_cut  (t := t) ?_ ?_; all_goals first | (intro ht; clear_value t) | subst t)
    | extract_lets +onlyGivenNames t | split | (refine islv_fst ?_ (by with_reducible assumption))
    | (refine islv_snd ?_ (by with_reducible assumption)) | (with_reducible intro x) | dsimp +zetaDelta only)

theorem State.finishCore_islv (s : State) (seq status info : Nat) (hs : s.islv = (I, false, F))
    : (State.finishCore s seq status info).islv = (I, false, F) := by
  unfold State.finishCore
  repeat' (first
    | (with_reducible first
        | assumption | apply State.updCmd_islv | apply State.postTry_islv | refine islv_foldl ?_ (fun x y hx => ?_)
        | refine islv_foldl_fst ?_ (fun x y hx => ?_))
    | simp -zeta only [↓islv_mk]
    | (extract_lets +onlyGivenNames t; refine islv_cut  (t := t) ?_ ?_; all_goals first | (intro ht; clear_value t) | subst t)
    | extract_lets +onlyGivenNames t | split | (refine islv_fst ?_ (by with_reducible assumption))
    | (refine islv_snd ?_ (by with_reducible assumption)) | (with_reducible intro x) | dsimp +zetaDelta only)

theorem State.endEarly_islv (s : State) (seq status : Nat) (hs : s.islv = (I, false, F))
    : (State.endEarly s seq status).islv = (I, false, F) := by
  unfold State.endEarly
  repeat' (first
    | (with_reducible first
        | assumption | apply State.release_islv | apply State.updCmd_islv | apply State.finishCore_islv
        | refine islv_foldl ?_ (fun x y hx => ?_) | refine islv_foldl_fst ?_ (fun x y hx => ?_))
    | simp -zeta only [↓islv_mk]
    | (extract_lets +onlyGivenNames t; refine islv_cut  (t := t) ?_ ?_; all_goals first | (intro ht; clear_value t) | subst t)
    | extract_lets +onlyGivenNames t | split | (refine islv_fst ?_ (by with_reducible assumption))
    | (refine islv_snd ?_ (by with_reducible assumption)) | (with_reducible intro x) | dsimp +zetaDelta only)

theorem State.endUnissued_islv (s : State) (c : Cmd) (status : Nat) (hs : s.islv = (I, false, F))
    : (State.endUnissued s c status).islv = (I, false, F) := by
  unfold State.endUnissued
  repeat' (first
    | (with_reducible first
        | assumption | apply State.updCmd_islv | apply State.postTry_islv | apply State.take_islv
        | apply State.logRec_islv | refine islv_foldl ?_ (fun x y hx => ?_)
        | refine islv_foldl_fst ?_ (fun x y hx => ?_))
    | simp -zeta only [↓islv_mk]
    | (extract_lets +onlyGivenNames t; refine islv_cut  (t := t) ?_ ?_; all_goals first | (intro ht; clear_value t) | subst t)
    | extract_lets +onlyGivenNames t | split | (refine islv_fst ?_ (by with_reducible assumption))
    | (refine islv_snd ?_ (by with_reducible assumption)) | (with_reducible intro x) | dsimp +zetaDelta only)

theorem State.freeQp_islv (s : State) (q : Nat) (hs : s.islv = (I, false, F)) : (State.freeQp s q).islv = (I, false, F) := by
  unfold State.freeQp
  repeat' (first
    | (with_reducible first
        | assumption | apply State.dropFetch_islv | refine islv_foldl ?_ (fun x y hx => ?_)
        | refine islv_foldl_fst ?_ (fun x y hx => ?_))
    | simp -zeta only [↓islv_mk]
    | (extract_lets +onlyGivenNames t; refine islv_cut  (t := t) ?_ ?_; all_goals first | (intro ht; clear_value t) | subst t)
    | extract_lets +onlyGivenNames t | split | (refine islv_fst ?_ (by with_reducible assumption))
    | (refine islv_snd ?_ (by with_reducible assumption)) | (with_reducible intro x) | dsimp +zetaDelta only)

theorem State.drainEnd_islv (s : State) (q : Nat) (hs : s.islv = (I, false, F))
    : (State.drainEnd s q).islv = (I, false, F) := by
  unfold State.drainEnd
  repeat' (first
    | (with_reducible first
        | assumption | apply State.freeQp_islv | apply State.touch_islv | apply State.finishCore_islv
        | apply State.count_islv | apply State.setQp_islv | refine islv_foldl ?_ (fun x y hx => ?_)
        | refine islv_foldl_fst ?_ (fun x y hx => ?_))
    | simp -zeta only [↓islv_mk]
    | (extract_lets +onlyGivenNames t; refine islv_cut  (t := t) ?_ ?_; all_goals first | (intro ht; clear_value t) | subst t)
    | extract_lets +onlyGivenNames t | split | (refine islv_fst ?_ (by with_reducible assumption))
    | (refine islv_snd ?_ (by with_reducible assumption)) | (with_reducible intro x) | dsimp +zetaDelta only)

theorem State.freeKeyEntry_islv (s : State) (idx : Nat) (hs : s.islv = (I, false, F))
    : (State.freeKeyEntry s idx).islv = (I, false, F) := by
  unfold State.freeKeyEntry
  dsimp only
  apply State.putKey_islv
  split <;> exact hs

theorem State.walkBegin_islv (s : State) (seq : Nat) (hs : s.islv = (I, false, F))
    : (State.walkBegin s seq).islv = (I, false, F) := by
  unfold State.walkBegin
  repeat' (first
    | (with_reducible first
        | assumption | refine islv_foldl ?_ (fun x y hx => ?_) | refine islv_foldl_fst ?_ (fun x y hx => ?_))
    | simp -zeta only [↓islv_mk]
    | (extract_lets +onlyGivenNames t; refine islv_cut  (t := t) ?_ ?_; all_goals first | (intro ht; clear_value t) | subst t)
    | extract_lets +onlyGivenNames t | split | (refine islv_fst ?_ (by with_reducible assumption))
    | (refine islv_snd ?_ (by with_reducible assumption)) | (with_reducible intro x) | dsimp +zetaDelta only)

theorem State.volumeMade_islv (s : State) (h : Nat) (hs : s.islv = (I, false, F))
    : (State.volumeMade s h).islv = (I, false, F) := by
  unfold State.volumeMade
  repeat' (first
    | (with_reducible first
        | assumption | refine islv_foldl ?_ (fun x y hx => ?_) | refine islv_foldl_fst ?_ (fun x y hx => ?_))
    | simp -zeta only [↓islv_mk]
    | (extract_lets +onlyGivenNames t; refine islv_cut  (t := t) ?_ ?_; all_goals first | (intro ht; clear_value t) | subst t)
    | extract_lets +onlyGivenNames t | split | (refine islv_fst ?_ (by with_reducible assumption))
    | (refine islv_snd ?_ (by with_reducible assumption)) | (with_reducible intro x) | dsimp +zetaDelta only)

theorem State.settleCmd_islv (s : State) (hs : s.islv = (I, false, F))
    : ∀ t, (State.settleCmd s) = some t → t.islv = (I, false, F) := by
  unfold State.settleCmd
  intro t ht
  split at ht
  · cases ht
    exact State.endEarly_islv _ _ _ hs
  · split at ht
    · cases ht
      apply State.finishCore_islv
      split
      · exact State.freeKeyEntry_islv _ _ hs
      · split
        · exact State.volumeMade_islv _ _ hs
        · exact State.walkBegin_islv _ _ hs
    · cases ht

theorem State.settleStep_islv (s : State) (hs : s.islv = (I, false, F))
    : ∀ t, (State.settleStep s) = some t → t.islv = (I, false, F) := by
  unfold State.settleStep
  intro t ht
  split at ht
  · next h => cases ht; exact State.settleCmd_islv _ hs _ h
  · split at ht
    · cases ht; exact State.drainEnd_islv _ _ hs
    · split at ht
      · cases ht; exact State.setFunc_islv _ _ _ hs
      · split at ht
        · cases ht; exact State.setOdt_islv _ _ _ hs
        · cases ht

theorem State.settleN_islv (n : Nat) (s : State) (hs : s.islv = (I, false, F))
    : (State.settleN n s).islv = (I, false, F) := by
  induction n generalizing s with
  | zero => exact hs
  | succ n ih =>
    unfold State.settleN
    split
    · next h => exact ih _ (State.settleStep_islv _ hs _ h)
    · exact hs

theorem State.settle_islv (s : State) (hs : s.islv = (I, false, F)) : (State.settle s).islv = (I, false, F) := by
  unfold State.settle
  repeat' (first
    | (with_reducible first
        | assumption | apply State.settleN_islv | refine islv_foldl ?_ (fun x y hx => ?_)
        | refine islv_foldl_fst ?_ (fun x y hx => ?_))
    | simp -zeta only [↓islv_mk]
    | (extract_lets +onlyGivenNames t; refine islv_cut  (t := t) ?_ ?_; all_goals first | (intro ht; clear_value t) | subst t)
    | extract_lets +onlyGivenNames t | split | (refine islv_fst ?_ (by with_reducible assumption))
    | (refine islv_snd ?_ (by with_reducible assumption)) | (with_reducible intro x) | dsimp +zetaDelta only)

theorem State.finish_islv (s : State) (seq status info : Nat) (hs : s.islv = (I, false, F))
    : (State.finish s seq status info).islv = (I, false, F) := by
  unfold State.finish
  repeat' (first
    | (with_reducible first
        | assumption | apply State.finishCore_islv | apply State.settle_islv | refine islv_foldl ?_ (fun x y hx => ?_)
        | refine islv_foldl_fst ?_ (fun x y hx => ?_))
    | simp -zeta only [↓islv_mk]
    | (extract_lets +onlyGivenNames t; refine islv_cut  (t := t) ?_ ?_; all_goals first | (intro ht; clear_value t) | subst t)
    | extract_lets +onlyGivenNames t | split | (refine islv_fst ?_ (by with_reducible assumption))
    | (refine islv_snd ?_ (by with_reducible assumption)) | (with_reducible intro x) | dsimp +zetaDelta only)

theorem State.qpError_islv (s : State) (q : Nat) (hs : s.islv = (I, false, F))
    : (State.qpError s q).islv = (I, false, F) := by
  unfold State.qpError
  repeat' (first
    | (with_reducible first
        | assumption | apply State.setQp_islv | apply State.dropFetch_islv | apply State.touch_islv
        | apply State.settle_islv | refine islv_foldl ?_ (fun x y hx => ?_)
        | refine islv_foldl_fst ?_ (fun x y hx => ?_))
    | simp -zeta only [↓islv_mk]
    | (extract_lets +onlyGivenNames t; refine islv_cut  (t := t) ?_ ?_; all_goals first | (intro ht; clear_value t) | subst t)
    | extract_lets +onlyGivenNames t | split | (refine islv_fst ?_ (by with_reducible assumption))
    | (refine islv_snd ?_ (by with_reducible assumption)) | (with_reducible intro x) | dsimp +zetaDelta only)

theorem State.resetReach_islv (s : State) (q : Nat) (k : DrainKind) (hs : s.islv = (I, false, F))
    : (State.resetReach s q k).islv = (I, false, F) := by
  unfold State.resetReach
  repeat' (first
    | (with_reducible first
        | assumption | apply State.setQp_islv | apply State.flr_islv | apply State.count_islv
        | apply State.dropFetch_islv | apply State.endUnissued_islv | apply State.lostCompletion_islv
        | apply State.touch_islv | apply State.settle_islv | refine islv_foldl ?_ (fun x y hx => ?_)
        | refine islv_foldl_fst ?_ (fun x y hx => ?_))
    | simp -zeta only [↓islv_mk]
    | (extract_lets +onlyGivenNames t; refine islv_cut  (t := t) ?_ ?_; all_goals first | (intro ht; clear_value t) | subst t)
    | extract_lets +onlyGivenNames t | split | (refine islv_fst ?_ (by with_reducible assumption))
    | (refine islv_snd ?_ (by with_reducible assumption)) | (with_reducible intro x) | dsimp +zetaDelta only)

theorem State.syncDispatch_islv (s : State) (cluster : Nat) (hs : s.islv = (I, false, F))
    : (State.syncDispatch s cluster).islv = (I, false, F) := by
  unfold State.syncDispatch
  repeat' (first
    | (with_reducible first
        | assumption | apply State.dispatch_islv | refine islv_foldl ?_ (fun x y hx => ?_)
        | refine islv_foldl_fst ?_ (fun x y hx => ?_))
    | simp -zeta only [↓islv_mk]
    | (extract_lets +onlyGivenNames t; refine islv_cut  (t := t) ?_ ?_; all_goals first | (intro ht; clear_value t) | subst t)
    | extract_lets +onlyGivenNames t | split | (refine islv_fst ?_ (by with_reducible assumption))
    | (refine islv_snd ?_ (by with_reducible assumption)) | (with_reducible intro x) | dsimp +zetaDelta only)

theorem State.syncAll_islv (s : State) (hs : s.islv = (I, false, F)) : (State.syncAll s).islv = (I, false, F) := by
  unfold State.syncAll
  repeat' (first
    | (with_reducible first
        | assumption | apply State.syncDispatch_islv | refine islv_foldl ?_ (fun x y hx => ?_)
        | refine islv_foldl_fst ?_ (fun x y hx => ?_))
    | simp -zeta only [↓islv_mk]
    | (extract_lets +onlyGivenNames t; refine islv_cut  (t := t) ?_ ?_; all_goals first | (intro ht; clear_value t) | subst t)
    | extract_lets +onlyGivenNames t | split | (refine islv_fst ?_ (by with_reducible assumption))
    | (refine islv_snd ?_ (by with_reducible assumption)) | (with_reducible intro x) | dsimp +zetaDelta only)

theorem State.makeReady_islv (s : State) (seq : Nat) (hs : s.islv = (I, false, F))
    : (State.makeReady s seq).islv = (I, false, F) := by
  unfold State.makeReady
  repeat' (first
    | (with_reducible first
        | assumption | apply State.updCmd_islv | refine islv_foldl ?_ (fun x y hx => ?_)
        | refine islv_foldl_fst ?_ (fun x y hx => ?_))
    | simp -zeta only [↓islv_mk]
    | (extract_lets +onlyGivenNames t; refine islv_cut  (t := t) ?_ ?_; all_goals first | (intro ht; clear_value t) | subst t)
    | extract_lets +onlyGivenNames t | split | (refine islv_fst ?_ (by with_reducible assumption))
    | (refine islv_snd ?_ (by with_reducible assumption)) | (with_reducible intro x) | dsimp +zetaDelta only)

theorem State.setShaperEntry_islv (s : State) (tenant : Nat) (e : ShaperEntry) (hs : s.islv = (I, false, F))
    : (State.setShaperEntry s tenant e).islv = (I, false, F) := by
  unfold State.setShaperEntry
  repeat' (first
    | (with_reducible first
        | assumption | refine islv_foldl ?_ (fun x y hx => ?_) | refine islv_foldl_fst ?_ (fun x y hx => ?_))
    | simp -zeta only [↓islv_mk]
    | (extract_lets +onlyGivenNames t; refine islv_cut  (t := t) ?_ ?_; all_goals first | (intro ht; clear_value t) | subst t)
    | extract_lets +onlyGivenNames t | split | (refine islv_fst ?_ (by with_reducible assumption))
    | (refine islv_snd ?_ (by with_reducible assumption)) | (with_reducible intro x) | dsimp +zetaDelta only)

theorem State.clsCount_islv (s : State) (r : Reg) (tenant i : Nat) (hs : s.islv = (I, false, F))
    : (State.clsCount s r tenant i).islv = (I, false, F) := by
  unfold State.clsCount
  repeat' (first
    | (with_reducible first
        | assumption | apply State.count_islv | apply State.setShaperEntry_islv
        | refine islv_foldl ?_ (fun x y hx => ?_) | refine islv_foldl_fst ?_ (fun x y hx => ?_))
    | simp -zeta only [↓islv_mk]
    | (extract_lets +onlyGivenNames t; refine islv_cut  (t := t) ?_ ?_; all_goals first | (intro ht; clear_value t) | subst t)
    | extract_lets +onlyGivenNames t | split | (refine islv_fst ?_ (by with_reducible assumption))
    | (refine islv_snd ?_ (by with_reducible assumption)) | (with_reducible intro x) | dsimp +zetaDelta only)

theorem State.applyColour_islv (s : State) (seq : Nat) (col : Colour) (hs : s.islv = (I, false, F))
    : (State.applyColour s seq col).islv = (I, false, F) := by
  unfold State.applyColour
  repeat' (first
    | (with_reducible first
        | assumption | apply State.clsCount_islv | apply State.updCmd_islv | apply State.makeReady_islv
        | refine islv_foldl ?_ (fun x y hx => ?_) | refine islv_foldl_fst ?_ (fun x y hx => ?_))
    | simp -zeta only [↓islv_mk]
    | (extract_lets +onlyGivenNames t; refine islv_cut  (t := t) ?_ ?_; all_goals first | (intro ht; clear_value t) | subst t)
    | extract_lets +onlyGivenNames t | split | (refine islv_fst ?_ (by with_reducible assumption))
    | (refine islv_snd ?_ (by with_reducible assumption)) | (with_reducible intro x) | dsimp +zetaDelta only)

theorem State.holdCmd_islv (s : State) (seq : Nat) (hs : s.islv = (I, false, F))
    : (State.holdCmd s seq).islv = (I, false, F) := by
  unfold State.holdCmd
  repeat' (first
    | (with_reducible first
        | assumption | apply State.updCmd_islv | apply State.clsCount_islv | refine islv_foldl ?_ (fun x y hx => ?_)
        | refine islv_foldl_fst ?_ (fun x y hx => ?_))
    | simp -zeta only [↓islv_mk]
    | (extract_lets +onlyGivenNames t; refine islv_cut  (t := t) ?_ ?_; all_goals first | (intro ht; clear_value t) | subst t)
    | extract_lets +onlyGivenNames t | split | (refine islv_fst ?_ (by with_reducible assumption))
    | (refine islv_snd ?_ (by with_reducible assumption)) | (with_reducible intro x) | dsimp +zetaDelta only)

theorem State.police_islv (s : State) (seq : Nat) (hs : s.islv = (I, false, F))
    : (State.police s seq).islv = (I, false, F) := by
  unfold State.police
  repeat' (first
    | (with_reducible first
        | assumption | apply State.makeReady_islv | apply State.holdCmd_islv | apply State.setShaperEntry_islv
        | apply State.applyColour_islv | refine islv_foldl ?_ (fun x y hx => ?_)
        | refine islv_foldl_fst ?_ (fun x y hx => ?_))
    | simp -zeta only [↓islv_mk]
    | (extract_lets +onlyGivenNames t; refine islv_cut  (t := t) ?_ ?_; all_goals first | (intro ht; clear_value t) | subst t)
    | extract_lets +onlyGivenNames t | split | (refine islv_fst ?_ (by with_reducible assumption))
    | (refine islv_snd ?_ (by with_reducible assumption)) | (with_reducible intro x) | dsimp +zetaDelta only)

theorem State.classify_islv (s : State) (seq : Nat) (hs : s.islv = (I, false, F))
    : (State.classify s seq).islv = (I, false, F) := by
  unfold State.classify
  repeat' (first
    | (with_reducible first
        | assumption | apply State.updCmd_islv | apply State.police_islv | apply State.clsCount_islv
        | apply State.callHook_islv | apply State.take_islv | refine islv_foldl ?_ (fun x y hx => ?_)
        | refine islv_foldl_fst ?_ (fun x y hx => ?_))
    | simp -zeta only [↓islv_mk]
    | (extract_lets +onlyGivenNames t; refine islv_cut  (t := t) ?_ ?_; all_goals first | (intro ht; clear_value t) | subst t)
    | extract_lets +onlyGivenNames t | split | (refine islv_fst ?_ (by with_reducible assumption))
    | (refine islv_snd ?_ (by with_reducible assumption)) | (with_reducible intro x) | dsimp +zetaDelta only)

theorem State.reject_islv (s : State) (seq status info : Nat) (hs : s.islv = (I, false, F))
    : (State.reject s seq status info).islv = (I, false, F) := by
  unfold State.reject
  repeat' (first
    | (with_reducible first
        | assumption | apply State.finishCore_islv | refine islv_foldl ?_ (fun x y hx => ?_)
        | refine islv_foldl_fst ?_ (fun x y hx => ?_))
    | simp -zeta only [↓islv_mk]
    | (extract_lets +onlyGivenNames t; refine islv_cut  (t := t) ?_ ?_; all_goals first | (intro ht; clear_value t) | subst t)
    | extract_lets +onlyGivenNames t | split | (refine islv_fst ?_ (by with_reducible assumption))
    | (refine islv_snd ?_ (by with_reducible assumption)) | (with_reducible intro x) | dsimp +zetaDelta only)

theorem State.enter_islv (s : State) (seq : Nat) (hs : s.islv = (I, false, F))
    : (State.enter s seq).islv = (I, false, F) := by
  unfold State.enter
  repeat' (first
    | (with_reducible first
        | assumption | apply State.count_islv | apply State.updCmd_islv | apply State.reject_islv
        | apply State.holdKey_islv | apply State.classify_islv | apply State.callHook_islv | apply State.take_islv
        | refine islv_foldl ?_ (fun x y hx => ?_) | refine islv_foldl_fst ?_ (fun x y hx => ?_))
    | simp -zeta only [↓islv_mk]
    | (extract_lets +onlyGivenNames t; refine islv_cut  (t := t) ?_ ?_; all_goals first | (intro ht; clear_value t) | subst t)
    | extract_lets +onlyGivenNames t | split | (refine islv_fst ?_ (by with_reducible assumption))
    | (refine islv_snd ?_ (by with_reducible assumption)) | (with_reducible intro x) | dsimp +zetaDelta only)

theorem State.ackTaken_islv (s : State) (f : Face) (psn : Nat) (r : Option Nat) (hs : s.islv = (I, false, F))
    : (State.ackTaken s f psn r).islv = (I, false, F) := by
  unfold State.ackTaken
  repeat' (first
    | (with_reducible first
        | assumption | apply State.setRoce_islv | apply State.roceFrame_islv | refine islv_foldl ?_ (fun x y hx => ?_)
        | refine islv_foldl_fst ?_ (fun x y hx => ?_))
    | simp -zeta only [↓islv_mk]
    | (extract_lets +onlyGivenNames t; refine islv_cut  (t := t) ?_ ?_; all_goals first | (intro ht; clear_value t) | subst t)
    | extract_lets +onlyGivenNames t | split | (refine islv_fst ?_ (by with_reducible assumption))
    | (refine islv_snd ?_ (by with_reducible assumption)) | (with_reducible intro x) | dsimp +zetaDelta only)

theorem State.take_islv (s : State) (q slot : Nat) (entry : Bytes) (src : Nat) (hs : s.islv = (I, false, F))
    : (State.take s q slot entry src).islv = (I, false, F) := by
  unfold State.take
  dsimp -zeta only
  split
  · exact State.setQp_islv _ _ _ hs
  · dsimp only
    generalize hu : State.ackTaken _ _ _ _ = u
    have h3 : u.islv = (I, false, F) := hu ▸ State.ackTaken_islv _ _ _ _ (State.logRec_islv _ _ (State.setQp_islv _ _ _ hs))
    clear hu
    split
    · exact State.enter_islv _ _ h3
    · exact State.reject_islv _ _ _ _ h3
    · exact State.callHook_islv _ _ _ _ _ h3

theorem State.takeInline_islv (n q : Nat) (s : State) (hs : s.islv = (I, false, F))
    : (State.takeInline n q s).islv = (I, false, F) := by
  induction n generalizing s with
  | zero => exact hs
  | succ n ih =>
    unfold State.takeInline
    repeat' (first
      | (with_reducible first
          | assumption | apply goodOut_next | apply State.setQp_islv | apply State.take_islv | apply ih
          | refine islv_foldl ?_ (fun x y hx => ?_) | refine islv_foldl_fst ?_ (fun x y hx => ?_))
      | simp -zeta only [↓islv_mk]
      | (extract_lets +onlyGivenNames t; refine islv_cut  (t := t) ?_ ?_; all_goals first | (intro ht; clear_value t) | subst t)
      | extract_lets +onlyGivenNames t | split | (refine islv_fst ?_ (by with_reducible assumption))
      | (refine islv_snd ?_ (by with_reducible assumption)) | (with_reducible intro x) | dsimp +zetaDelta only)

theorem State.pump_islv (s : State) (q : Nat) (hs : s.islv = (I, false, F)) : (State.pump s q).islv = (I, false, F) := by
  unfold State.pump
  repeat' (first
    | (with_reducible first
        | assumption | apply State.takeInline_islv | apply State.settle_islv | apply State.syncAll_islv
        | refine islv_foldl ?_ (fun x y hx => ?_) | refine islv_foldl_fst ?_ (fun x y hx => ?_))
    | simp -zeta only [↓islv_mk]
    | (extract_lets +onlyGivenNames t; refine islv_cut  (t := t) ?_ ?_; all_goals first | (intro ht; clear_value t) | subst t)
    | extract_lets +onlyGivenNames t | split | (refine islv_fst ?_ (by with_reducible assumption))
    | (refine islv_snd ?_ (by with_reducible assumption)) | (with_reducible intro x) | dsimp +zetaDelta only)

theorem State.flow_islv (s : State) (hs : s.islv = (I, false, F)) : (State.flow s).islv = (I, false, F) := by
  unfold State.flow
  repeat' (first
    | (with_reducible first
        | assumption | apply State.settle_islv | apply State.takeInline_islv | apply State.syncAll_islv
        | refine islv_foldl ?_ (fun x y hx => ?_) | refine islv_foldl_fst ?_ (fun x y hx => ?_))
    | simp -zeta only [↓islv_mk]
    | (extract_lets +onlyGivenNames t; refine islv_cut  (t := t) ?_ ?_; all_goals first | (intro ht; clear_value t) | subst t)
    | extract_lets +onlyGivenNames t | split | (refine islv_fst ?_ (by with_reducible assumption))
    | (refine islv_snd ?_ (by with_reducible assumption)) | (with_reducible intro x) | dsimp +zetaDelta only)

theorem State.inlineDb_islv (s : State) (q t' : Nat) (entry : Bytes) (src : Nat) (hs : s.islv = (I, false, F))
    : (State.inlineDb s q t' entry src).1.islv = (I, false, F) := by
  unfold State.inlineDb
  repeat' (first
    | (with_reducible first
        | assumption | apply State.count_islv | apply State.useContext_islv | apply State.badDoorbell_islv
        | apply State.clsCount_islv | apply State.setQp_islv | apply State.pump_islv
        | refine islv_foldl ?_ (fun x y hx => ?_) | refine islv_foldl_fst ?_ (fun x y hx => ?_))
    | simp -zeta only [↓islv_mk]
    | (extract_lets +onlyGivenNames t; refine islv_cut  (t := t) ?_ ?_; all_goals first | (intro ht; clear_value t) | subst t)
    | extract_lets +onlyGivenNames t | split | (refine islv_fst ?_ (by with_reducible assumption))
    | (refine islv_snd ?_ (by with_reducible assumption)) | (with_reducible intro x) | dsimp +zetaDelta only)

theorem State.markPast_islv (s : State) (seq : Nat) (hs : s.islv = (I, false, F))
    : (State.markPast s seq).islv = (I, false, F) := by
  unfold State.markPast
  repeat' (first
    | (with_reducible first
        | assumption | apply State.updCmd_islv | apply State.issued_islv | refine islv_foldl ?_ (fun x y hx => ?_)
        | refine islv_foldl_fst ?_ (fun x y hx => ?_))
    | simp -zeta only [↓islv_mk]
    | (extract_lets +onlyGivenNames t; refine islv_cut  (t := t) ?_ ?_; all_goals first | (intro ht; clear_value t) | subst t)
    | extract_lets +onlyGivenNames t | split | (refine islv_fst ?_ (by with_reducible assumption))
    | (refine islv_snd ?_ (by with_reducible assumption)) | (with_reducible intro x) | dsimp +zetaDelta only)

theorem State.markWaiting_islv (s : State) (seq : Nat) (hs : s.islv = (I, false, F))
    : (State.markWaiting s seq).islv = (I, false, F) := by
  unfold State.markWaiting
  repeat' (first
    | (with_reducible first
        | assumption | apply State.updCmd_islv | refine islv_foldl ?_ (fun x y hx => ?_)
        | refine islv_foldl_fst ?_ (fun x y hx => ?_))
    | simp -zeta only [↓islv_mk]
    | (extract_lets +onlyGivenNames t; refine islv_cut  (t := t) ?_ ?_; all_goals first | (intro ht; clear_value t) | subst t)
    | extract_lets +onlyGivenNames t | split | (refine islv_fst ?_ (by with_reducible assumption))
    | (refine islv_snd ?_ (by with_reducible assumption)) | (with_reducible intro x) | dsimp +zetaDelta only)

theorem State.retest_islv (s : State) (tenant : Nat) (l : List Cmd) (hs : s.islv = (I, false, F))
    : (State.retest s tenant l).islv = (I, false, F) := by
  induction l generalizing s with
  | nil =>
    unfold State.retest
    repeat' (first
      | (with_reducible first
          | assumption | apply goodOut_next | apply State.setShaperEntry_islv | apply State.applyColour_islv
          | refine islv_foldl ?_ (fun x y hx => ?_) | refine islv_foldl_fst ?_ (fun x y hx => ?_))
      | simp -zeta only [↓islv_mk]
      | (extract_lets +onlyGivenNames t; refine islv_cut  (t := t) ?_ ?_; all_goals first | (intro ht; clear_value t) | subst t)
      | extract_lets +onlyGivenNames t | split | (refine islv_fst ?_ (by with_reducible assumption))
      | (refine islv_snd ?_ (by with_reducible assumption)) | (with_reducible intro x) | dsimp +zetaDelta only)
  | cons c l ih =>
    unfold State.retest
    repeat' (first
      | (with_reducible first
          | assumption | apply goodOut_next | apply State.setShaperEntry_islv | apply State.applyColour_islv | apply ih
          | refine islv_foldl ?_ (fun x y hx => ?_) | refine islv_foldl_fst ?_ (fun x y hx => ?_))
      | simp -zeta only [↓islv_mk]
      | (extract_lets +onlyGivenNames t; refine islv_cut  (t := t) ?_ ?_; all_goals first | (intro ht; clear_value t) | subst t)
      | extract_lets +onlyGivenNames t | split | (refine islv_fst ?_ (by with_reducible assumption))
      | (refine islv_snd ?_ (by with_reducible assumption)) | (with_reducible intro x) | dsimp +zetaDelta only)

theorem State.finishShapers_islv (s : State) (hs : s.islv = (I, false, F))
    : (State.finishShapers s).islv = (I, false, F) := by
  unfold State.finishShapers
  repeat' (first
    | (with_reducible first
        | assumption | apply State.finishCore_islv | refine islv_foldl ?_ (fun x y hx => ?_)
        | refine islv_foldl_fst ?_ (fun x y hx => ?_))
    | simp -zeta only [↓islv_mk]
    | (extract_lets +onlyGivenNames t; refine islv_cut  (t := t) ?_ ?_; all_goals first | (intro ht; clear_value t) | subst t)
    | extract_lets +onlyGivenNames t | split | (refine islv_fst ?_ (by with_reducible assumption))
    | (refine islv_snd ?_ (by with_reducible assumption)) | (with_reducible intro x) | dsimp +zetaDelta only)

theorem State.refills_islv (s : State) (k : Nat) (hs : s.islv = (I, false, F))
    : (State.refills s k).islv = (I, false, F) := by
  unfold State.refills
  repeat' (first
    | (with_reducible first
        | assumption | apply State.retest_islv | apply State.finishShapers_islv | apply State.flow_islv
        | refine islv_foldl ?_ (fun x y hx => ?_) | refine islv_foldl_fst ?_ (fun x y hx => ?_))
    | simp -zeta only [↓islv_mk]
    | (extract_lets +onlyGivenNames t; refine islv_cut  (t := t) ?_ ?_; all_goals first | (intro ht; clear_value t) | subst t)
    | extract_lets +onlyGivenNames t | split | (refine islv_fst ?_ (by with_reducible assumption))
    | (refine islv_snd ?_ (by with_reducible assumption)) | (with_reducible intro x) | dsimp +zetaDelta only)

theorem State.reach_islv (s : State) (hs : s.islv = (I, false, F)) : (State.reach s).islv = (I, false, F) := by
  unfold State.reach
  repeat' (first
    | (with_reducible first
        | assumption | refine islv_foldl ?_ (fun x y hx => ?_) | refine islv_foldl_fst ?_ (fun x y hx => ?_))
    | simp -zeta only [↓islv_mk]
    | (extract_lets +onlyGivenNames t; refine islv_cut  (t := t) ?_ ?_; all_goals first | (intro ht; clear_value t) | subst t)
    | extract_lets +onlyGivenNames t | split | (refine islv_fst ?_ (by with_reducible assumption))
    | (refine islv_snd ?_ (by with_reducible assumption)) | (with_reducible intro x) | dsimp +zetaDelta only)

theorem State.reachChange_islv (s : State) (hs : s.islv = (I, false, F)) : (State.reachChange s).islv = (I, false, F) := by
  unfold State.reachChange
  repeat' (first
    | (with_reducible first
        | assumption | apply State.raise_islv | apply State.reach_islv | refine islv_foldl ?_ (fun x y hx => ?_)
        | refine islv_foldl_fst ?_ (fun x y hx => ?_))
    | simp -zeta only [↓islv_mk]
    | (extract_lets +onlyGivenNames t; refine islv_cut  (t := t) ?_ ?_; all_goals first | (intro ht; clear_value t) | subst t)
    | extract_lets +onlyGivenNames t | split | (refine islv_fst ?_ (by with_reducible assumption))
    | (refine islv_snd ?_ (by with_reducible assumption)) | (with_reducible intro x) | dsimp +zetaDelta only)

theorem State.setKeySlot_islv (s : State) (i : Nat) (k : KeySlot) (hs : s.islv = (I, false, F))
    : (State.setKeySlot s i k).islv = (I, false, F) := by
  unfold State.setKeySlot
  repeat' (first
    | (with_reducible first
        | assumption | refine islv_foldl ?_ (fun x y hx => ?_) | refine islv_foldl_fst ?_ (fun x y hx => ?_))
    | simp -zeta only [↓islv_mk]
    | (extract_lets +onlyGivenNames t; refine islv_cut  (t := t) ?_ ?_; all_goals first | (intro ht; clear_value t) | subst t)
    | extract_lets +onlyGivenNames t | split | (refine islv_fst ?_ (by with_reducible assumption))
    | (refine islv_snd ?_ (by with_reducible assumption)) | (with_reducible intro x) | dsimp +zetaDelta only)

theorem State.raiseMark_islv (s : State) (i : Nat) (hs : s.islv = (I, false, F))
    : (State.raiseMark s i).islv = (I, false, F) := by
  unfold State.raiseMark
  repeat' (first
    | (with_reducible first
        | assumption | apply State.count_islv | apply State.setKeySlot_islv | apply State.cfgPut_islv
        | apply State.record_islv | apply State.touch_islv | refine islv_foldl ?_ (fun x y hx => ?_)
        | refine islv_foldl_fst ?_ (fun x y hx => ?_))
    | simp -zeta only [↓islv_mk]
    | (extract_lets +onlyGivenNames t; refine islv_cut  (t := t) ?_ ?_; all_goals first | (intro ht; clear_value t) | subst t)
    | extract_lets +onlyGivenNames t | split | (refine islv_fst ?_ (by with_reducible assumption))
    | (refine islv_snd ?_ (by with_reducible assumption)) | (with_reducible intro x) | dsimp +zetaDelta only)

theorem State.markCheck_islv (s : State) (i : Nat) (hs : s.islv = (I, false, F))
    : (State.markCheck s i).islv = (I, false, F) := by
  unfold State.markCheck
  repeat' (first
    | (with_reducible first
        | assumption | apply State.setKeySlot_islv | refine islv_foldl ?_ (fun x y hx => ?_)
        | refine islv_foldl_fst ?_ (fun x y hx => ?_))
    | simp -zeta only [↓islv_mk]
    | (extract_lets +onlyGivenNames t; refine islv_cut  (t := t) ?_ ?_; all_goals first | (intro ht; clear_value t) | subst t)
    | extract_lets +onlyGivenNames t | split | (refine islv_fst ?_ (by with_reducible assumption))
    | (refine islv_snd ?_ (by with_reducible assumption)) | (with_reducible intro x) | dsimp +zetaDelta only)

theorem State.takeGen_islv (s : State) (i : Nat) (limited : Bool) (hs : s.islv = (I, false, F))
    : (State.takeGen s i limited).1.islv = (I, false, F) := by
  unfold State.takeGen
  repeat' (first
    | (with_reducible first
        | assumption | apply State.count_islv | apply State.raiseMark_islv | apply State.setKeySlot_islv
        | apply State.event_islv | apply State.touch_islv | refine islv_foldl ?_ (fun x y hx => ?_)
        | refine islv_foldl_fst ?_ (fun x y hx => ?_))
    | simp -zeta only [↓islv_mk]
    | (extract_lets +onlyGivenNames t; refine islv_cut  (t := t) ?_ ?_; all_goals first | (intro ht; clear_value t) | subst t)
    | extract_lets +onlyGivenNames t | split | (refine islv_fst ?_ (by with_reducible assumption))
    | (refine islv_snd ?_ (by with_reducible assumption)) | (with_reducible intro x) | dsimp +zetaDelta only)

theorem State.laneMessage_islv (s : State) (n cls : Nat) (hs : s.islv = (I, false, F))
    : (State.laneMessage s n cls).islv = (I, false, F) := by
  unfold State.laneMessage
  repeat' (first
    | (with_reducible first
        | assumption | apply State.count_islv | refine islv_foldl ?_ (fun x y hx => ?_)
        | refine islv_foldl_fst ?_ (fun x y hx => ?_))
    | simp -zeta only [↓islv_mk]
    | (extract_lets +onlyGivenNames t; refine islv_cut  (t := t) ?_ ?_; all_goals first | (intro ht; clear_value t) | subst t)
    | extract_lets +onlyGivenNames t | split | (refine islv_fst ?_ (by with_reducible assumption))
    | (refine islv_snd ?_ (by with_reducible assumption)) | (with_reducible intro x) | dsimp +zetaDelta only)

theorem State.syncDrive_islv (s : State) (sl : Nat) (hs : s.islv = (I, false, F))
    : (State.syncDrive s sl).islv = (I, false, F) := by
  unfold State.syncDrive
  repeat' (first
    | (with_reducible first
        | assumption | refine islv_foldl ?_ (fun x y hx => ?_) | refine islv_foldl_fst ?_ (fun x y hx => ?_))
    | simp -zeta only [↓islv_mk]
    | (extract_lets +onlyGivenNames t; refine islv_cut  (t := t) ?_ ?_; all_goals first | (intro ht; clear_value t) | subst t)
    | extract_lets +onlyGivenNames t | split | (refine islv_fst ?_ (by with_reducible assumption))
    | (refine islv_snd ?_ (by with_reducible assumption)) | (with_reducible intro x) | dsimp +zetaDelta only)

theorem State.addMem_islv (s : State) (slot : Nat) (op : MemOp) (lba n : Nat) (data : Bytes) (cls : Nat) (who : MemFor) (cells : Nat) (hs : s.islv = (I, false, F))
    : (State.addMem s slot op lba n data cls who cells).islv = (I, false, F) := by
  unfold State.addMem
  repeat' (first
    | (with_reducible first
        | assumption | apply State.syncDrive_islv | refine islv_foldl ?_ (fun x y hx => ?_)
        | refine islv_foldl_fst ?_ (fun x y hx => ?_))
    | simp -zeta only [↓islv_mk]
    | (extract_lets +onlyGivenNames t; refine islv_cut  (t := t) ?_ ?_; all_goals first | (intro ht; clear_value t) | subst t)
    | extract_lets +onlyGivenNames t | split | (refine islv_fst ?_ (by with_reducible assumption))
    | (refine islv_snd ?_ (by with_reducible assumption)) | (with_reducible intro x) | dsimp +zetaDelta only)

theorem State.dropMem_islv (s : State) (sl : Nat) (p : MemCmd → Bool) (hs : s.islv = (I, false, F))
    : (State.dropMem s sl p).islv = (I, false, F) := by
  unfold State.dropMem
  repeat' (first
    | (with_reducible first
        | assumption | apply State.issued_islv | apply State.freeHeld_islv | apply State.syncDrive_islv
        | refine islv_foldl ?_ (fun x y hx => ?_) | refine islv_foldl_fst ?_ (fun x y hx => ?_))
    | simp -zeta only [↓islv_mk]
    | (extract_lets +onlyGivenNames t; refine islv_cut  (t := t) ?_ ?_; all_goals first | (intro ht; clear_value t) | subst t)
    | extract_lets +onlyGivenNames t | split | (refine islv_fst ?_ (by with_reducible assumption))
    | (refine islv_snd ?_ (by with_reducible assumption)) | (with_reducible intro x) | dsimp +zetaDelta only)

theorem State.rewriteLabels_islv (s : State) (gi : Nat) (hs : s.islv = (I, false, F))
    : (State.rewriteLabels s gi).islv = (I, false, F) := by
  unfold State.rewriteLabels
  repeat' (first
    | (with_reducible first
        | assumption | apply State.setGroup_islv | apply State.touch_islv | apply State.addMem_islv
        | refine islv_foldl ?_ (fun x y hx => ?_) | refine islv_foldl_fst ?_ (fun x y hx => ?_))
    | simp -zeta only [↓islv_mk]
    | (extract_lets +onlyGivenNames t; refine islv_cut  (t := t) ?_ ?_; all_goals first | (intro ht; clear_value t) | subst t)
    | extract_lets +onlyGivenNames t | split | (refine islv_fst ?_ (by with_reducible assumption))
    | (refine islv_snd ?_ (by with_reducible assumption)) | (with_reducible intro x) | dsimp +zetaDelta only)

theorem State.labelsEnd_islv (s : State) (gi : Nat) (hs : s.islv = (I, false, F))
    : (State.labelsEnd s gi).islv = (I, false, F) := by
  unfold State.labelsEnd
  repeat' (first
    | (with_reducible first
        | assumption | apply State.updGroup_islv | refine islv_foldl ?_ (fun x y hx => ?_)
        | refine islv_foldl_fst ?_ (fun x y hx => ?_))
    | simp -zeta only [↓islv_mk]
    | (extract_lets +onlyGivenNames t; refine islv_cut  (t := t) ?_ ?_; all_goals first | (intro ht; clear_value t) | subst t)
    | extract_lets +onlyGivenNames t | split | (refine islv_fst ?_ (by with_reducible assumption))
    | (refine islv_snd ?_ (by with_reducible assumption)) | (with_reducible intro x) | dsimp +zetaDelta only)

theorem State.putRecord_islv (s : State) (gi : Nat) (hs : s.islv = (I, false, F))
    : (State.putRecord s gi).islv = (I, false, F) := by
  unfold State.putRecord
  repeat' (first
    | (with_reducible first
        | assumption | apply State.refills_islv | apply State.refill_islv | apply State.setGroup_islv
        | apply State.cfgPut_islv | apply State.touch_islv | refine islv_foldl ?_ (fun x y hx => ?_)
        | refine islv_foldl_fst ?_ (fun x y hx => ?_))
    | simp -zeta only [↓islv_mk]
    | (extract_lets +onlyGivenNames t; refine islv_cut  (t := t) ?_ ?_; all_goals first | (intro ht; clear_value t) | subst t)
    | extract_lets +onlyGivenNames t | split | (refine islv_fst ?_ (by with_reducible assumption))
    | (refine islv_snd ?_ (by with_reducible assumption)) | (with_reducible intro x) | dsimp +zetaDelta only)

theorem State.setBit_islv (s : State) (gi x cls : Nat) (seq : Option Nat) (hs : s.islv = (I, false, F))
    : (State.setBit s gi x cls seq).1.islv = (I, false, F) := by
  unfold State.setBit
  repeat' (first
    | (with_reducible first
        | assumption | apply State.setGroup_islv | apply State.count_islv | apply State.addMem_islv
        | refine islv_foldl ?_ (fun x y hx => ?_) | refine islv_foldl_fst ?_ (fun x y hx => ?_))
    | simp -zeta only [↓islv_mk]
    | (extract_lets +onlyGivenNames t; refine islv_cut  (t := t) ?_ ?_; all_goals first | (intro ht; clear_value t) | subst t)
    | extract_lets +onlyGivenNames t | split | (refine islv_fst ?_ (by with_reducible assumption))
    | (refine islv_snd ?_ (by with_reducible assumption)) | (with_reducible intro x) | dsimp +zetaDelta only)

theorem State.bitSetEnd_islv (s : State) (gi x : Nat) (hs : s.islv = (I, false, F))
    : (State.bitSetEnd s gi x).islv = (I, false, F) := by
  unfold State.bitSetEnd
  repeat' (first
    | (with_reducible first
        | assumption | apply State.updGroup_islv | refine islv_foldl ?_ (fun x y hx => ?_)
        | refine islv_foldl_fst ?_ (fun x y hx => ?_))
    | simp -zeta only [↓islv_mk]
    | (extract_lets +onlyGivenNames t; refine islv_cut  (t := t) ?_ ?_; all_goals first | (intro ht; clear_value t) | subst t)
    | extract_lets +onlyGivenNames t | split | (refine islv_fst ?_ (by with_reducible assumption))
    | (refine islv_snd ?_ (by with_reducible assumption)) | (with_reducible intro x) | dsimp +zetaDelta only)

theorem State.clearBit_islv (s : State) (gi x : Nat) (hs : s.islv = (I, false, F))
    : (State.clearBit s gi x).islv = (I, false, F) := by
  unfold State.clearBit
  repeat' (first
    | (with_reducible first
        | assumption | apply State.setGroup_islv | apply State.addMem_islv | refine islv_foldl ?_ (fun x y hx => ?_)
        | refine islv_foldl_fst ?_ (fun x y hx => ?_))
    | simp -zeta only [↓islv_mk]
    | (extract_lets +onlyGivenNames t; refine islv_cut  (t := t) ?_ ?_; all_goals first | (intro ht; clear_value t) | subst t)
    | extract_lets +onlyGivenNames t | split | (refine islv_fst ?_ (by with_reducible assumption))
    | (refine islv_snd ?_ (by with_reducible assumption)) | (with_reducible intro x) | dsimp +zetaDelta only)

theorem State.bitClearEnd_islv (s : State) (gi x : Nat) (hs : s.islv = (I, false, F))
    : (State.bitClearEnd s gi x).islv = (I, false, F) := by
  unfold State.bitClearEnd
  repeat' (first
    | (with_reducible first
        | assumption | apply State.updGroup_islv | refine islv_foldl ?_ (fun x y hx => ?_)
        | refine islv_foldl_fst ?_ (fun x y hx => ?_))
    | simp -zeta only [↓islv_mk]
    | (extract_lets +onlyGivenNames t; refine islv_cut  (t := t) ?_ ?_; all_goals first | (intro ht; clear_value t) | subst t)
    | extract_lets +onlyGivenNames t | split | (refine islv_fst ?_ (by with_reducible assumption))
    | (refine islv_snd ?_ (by with_reducible assumption)) | (with_reducible intro x) | dsimp +zetaDelta only)

theorem State.replicaStart_islv (s : State) (gi : Nat) (hs : s.islv = (I, false, F))
    : (State.replicaStart s gi).islv = (I, false, F) := by
  unfold State.replicaStart
  repeat' (first
    | (with_reducible first
        | assumption | apply State.setGroup_islv | apply State.addMem_islv | refine islv_foldl ?_ (fun x y hx => ?_)
        | refine islv_foldl_fst ?_ (fun x y hx => ?_))
    | simp -zeta only [↓islv_mk]
    | (extract_lets +onlyGivenNames t; refine islv_cut  (t := t) ?_ ?_; all_goals first | (intro ht; clear_value t) | subst t)
    | extract_lets +onlyGivenNames t | split | (refine islv_fst ?_ (by with_reducible assumption))
    | (refine islv_snd ?_ (by with_reducible assumption)) | (with_reducible intro x) | dsimp +zetaDelta only)

theorem State.replicaWritten_islv (s : State) (gi : Nat) (hs : s.islv = (I, false, F))
    : (State.replicaWritten s gi).islv = (I, false, F) := by
  unfold State.replicaWritten
  repeat' (first
    | (with_reducible first
        | assumption | apply State.setGroup_islv | apply State.rewriteLabels_islv
        | refine islv_foldl ?_ (fun x y hx => ?_) | refine islv_foldl_fst ?_ (fun x y hx => ?_))
    | simp -zeta only [↓islv_mk]
    | (extract_lets +onlyGivenNames t; refine islv_cut  (t := t) ?_ ?_; all_goals first | (intro ht; clear_value t) | subst t)
    | extract_lets +onlyGivenNames t | split | (refine islv_fst ?_ (by with_reducible assumption))
    | (refine islv_snd ?_ (by with_reducible assumption)) | (with_reducible intro x) | dsimp +zetaDelta only)

theorem State.replicaEnd_islv (s : State) (gi : Nat) (hs : s.islv = (I, false, F))
    : (State.replicaEnd s gi).islv = (I, false, F) := by
  unfold State.replicaEnd
  repeat' (first
    | (with_reducible first
        | assumption | apply State.setGroup_islv | apply State.clearBit_islv | apply State.putRecord_islv
        | apply State.replicaStart_islv | refine islv_foldl ?_ (fun x y hx => ?_)
        | refine islv_foldl_fst ?_ (fun x y hx => ?_))
    | simp -zeta only [↓islv_mk]
    | (extract_lets +onlyGivenNames t; refine islv_cut  (t := t) ?_ ?_; all_goals first | (intro ht; clear_value t) | subst t)
    | extract_lets +onlyGivenNames t | split | (refine islv_fst ?_ (by with_reducible assumption))
    | (refine islv_snd ?_ (by with_reducible assumption)) | (with_reducible intro x) | dsimp +zetaDelta only)

theorem State.replicaLost_islv (s : State) (gi sl : Nat) (hs : s.islv = (I, false, F))
    : (State.replicaLost s gi sl).islv = (I, false, F) := by
  unfold State.replicaLost
  repeat' (first
    | (with_reducible first
        | assumption | apply State.setGroup_islv | apply State.replicaStart_islv | apply State.updGroup_islv
        | refine islv_foldl ?_ (fun x y hx => ?_) | refine islv_foldl_fst ?_ (fun x y hx => ?_))
    | simp -zeta only [↓islv_mk]
    | (extract_lets +onlyGivenNames t; refine islv_cut  (t := t) ?_ ?_; all_goals first | (intro ht; clear_value t) | subst t)
    | extract_lets +onlyGivenNames t | split | (refine islv_fst ?_ (by with_reducible assumption))
    | (refine islv_snd ?_ (by with_reducible assumption)) | (with_reducible intro x) | dsimp +zetaDelta only)

theorem State.winLeave_islv (s : State) (gi x : Nat) (hs : s.islv = (I, false, F))
    : (State.winLeave s gi x).islv = (I, false, F) := by
  unfold State.winLeave
  repeat' (first
    | (with_reducible first
        | assumption | apply State.clearBit_islv | refine islv_foldl ?_ (fun x y hx => ?_)
        | refine islv_foldl_fst ?_ (fun x y hx => ?_))
    | simp -zeta only [↓islv_mk]
    | (extract_lets +onlyGivenNames t; refine islv_cut  (t := t) ?_ ?_; all_goals first | (intro ht; clear_value t) | subst t)
    | extract_lets +onlyGivenNames t | split | (refine islv_fst ?_ (by with_reducible assumption))
    | (refine islv_snd ?_ (by with_reducible assumption)) | (with_reducible intro x) | dsimp +zetaDelta only)

theorem State.winAdmit_islv (s : State) (gi x : Nat) (class0 : Bool) (hs : s.islv = (I, false, F))
    : (State.winAdmit s gi x class0).1.islv = (I, false, F) := by
  unfold State.winAdmit
  repeat' (first
    | (with_reducible first
        | assumption | apply State.winLeave_islv | refine islv_foldl ?_ (fun x y hx => ?_)
        | refine islv_foldl_fst ?_ (fun x y hx => ?_))
    | simp -zeta only [↓islv_mk]
    | (extract_lets +onlyGivenNames t; refine islv_cut  (t := t) ?_ ?_; all_goals first | (intro ht; clear_value t) | subst t)
    | extract_lets +onlyGivenNames t | split | (refine islv_fst ?_ (by with_reducible assumption))
    | (refine islv_snd ?_ (by with_reducible assumption)) | (with_reducible intro x) | dsimp +zetaDelta only)

theorem State.winAcked_islv (s : State) (n : Nat) (hs : s.islv = (I, false, F))
    : (State.winAcked s n).islv = (I, false, F) := by
  unfold State.winAcked
  repeat' (first
    | (with_reducible first
        | assumption | apply State.clearBit_islv | refine islv_foldl ?_ (fun x y hx => ?_)
        | refine islv_foldl_fst ?_ (fun x y hx => ?_))
    | simp -zeta only [↓islv_mk]
    | (extract_lets +onlyGivenNames t; refine islv_cut  (t := t) ?_ ?_; all_goals first | (intro ht; clear_value t) | subst t)
    | extract_lets +onlyGivenNames t | split | (refine islv_fst ?_ (by with_reducible assumption))
    | (refine islv_snd ?_ (by with_reducible assumption)) | (with_reducible intro x) | dsimp +zetaDelta only)

theorem State.evaluate_islv (s : State) (gi : Nat) (add : List Nat) (hs : s.islv = (I, false, F))
    : (State.evaluate s gi add).islv = (I, false, F) := by
  unfold State.evaluate
  repeat' (first
    | (with_reducible first
        | assumption | apply State.setGroup_islv | apply State.count_islv | apply State.updMember_islv
        | apply State.putRecord_islv | refine islv_foldl ?_ (fun x y hx => ?_)
        | refine islv_foldl_fst ?_ (fun x y hx => ?_))
    | simp -zeta only [↓islv_mk]
    | (extract_lets +onlyGivenNames t; refine islv_cut  (t := t) ?_ ?_; all_goals first | (intro ht; clear_value t) | subst t)
    | extract_lets +onlyGivenNames t | split | (refine islv_fst ?_ (by with_reducible assumption))
    | (refine islv_snd ?_ (by with_reducible assumption)) | (with_reducible intro x) | dsimp +zetaDelta only)

theorem State.startRebuild_islv (s : State) (gi sl : Nat) (hs : s.islv = (I, false, F))
    : (State.startRebuild s gi sl).islv = (I, false, F) := by
  unfold State.startRebuild
  repeat' (first
    | (with_reducible first
        | assumption | apply State.updMember_islv | apply State.evaluate_islv | apply State.putRecord_islv
        | refine islv_foldl ?_ (fun x y hx => ?_) | refine islv_foldl_fst ?_ (fun x y hx => ?_))
    | simp -zeta only [↓islv_mk]
    | (extract_lets +onlyGivenNames t; refine islv_cut  (t := t) ?_ ?_; all_goals first | (intro ht; clear_value t) | subst t)
    | extract_lets +onlyGivenNames t | split | (refine islv_fst ?_ (by with_reducible assumption))
    | (refine islv_snd ?_ (by with_reducible assumption)) | (with_reducible intro x) | dsimp +zetaDelta only)

theorem State.resolvePolicy_islv (s : State) (gi : Nat) (hs : s.islv = (I, false, F))
    : (State.resolvePolicy s gi).islv = (I, false, F) := by
  unfold State.resolvePolicy
  repeat' (first
    | (with_reducible first
        | assumption | apply State.updGroup_islv | refine islv_foldl ?_ (fun x y hx => ?_)
        | refine islv_foldl_fst ?_ (fun x y hx => ?_))
    | simp -zeta only [↓islv_mk]
    | (extract_lets +onlyGivenNames t; refine islv_cut  (t := t) ?_ ?_; all_goals first | (intro ht; clear_value t) | subst t)
    | extract_lets +onlyGivenNames t | split | (refine islv_fst ?_ (by with_reducible assumption))
    | (refine islv_snd ?_ (by with_reducible assumption)) | (with_reducible intro x) | dsimp +zetaDelta only)

theorem State.enterFailed_islv (s : State) (gi : Nat) (hs : s.islv = (I, false, F))
    : (State.enterFailed s gi).islv = (I, false, F) := by
  unfold State.enterFailed
  repeat' (first
    | (with_reducible first
        | assumption | apply State.setGroup_islv | apply State.endEarly_islv | refine islv_foldl ?_ (fun x y hx => ?_)
        | refine islv_foldl_fst ?_ (fun x y hx => ?_))
    | simp -zeta only [↓islv_mk]
    | (extract_lets +onlyGivenNames t; refine islv_cut  (t := t) ?_ ?_; all_goals first | (intro ht; clear_value t) | subst t)
    | extract_lets +onlyGivenNames t | split | (refine islv_fst ?_ (by with_reducible assumption))
    | (refine islv_snd ?_ (by with_reducible assumption)) | (with_reducible intro x) | dsimp +zetaDelta only)

theorem State.sendAcquire_islv (s : State) (sl : Nat) (hs : s.islv = (I, false, F))
    : (State.sendAcquire s sl).islv = (I, false, F) := by
  unfold State.sendAcquire
  repeat' (first
    | (with_reducible first
        | assumption | apply State.acquire_islv | apply State.issued_islv | apply State.emit_islv
        | refine islv_foldl ?_ (fun x y hx => ?_) | refine islv_foldl_fst ?_ (fun x y hx => ?_))
    | simp -zeta only [↓islv_mk]
    | (extract_lets +onlyGivenNames t; refine islv_cut  (t := t) ?_ ?_; all_goals first | (intro ht; clear_value t) | subst t)
    | extract_lets +onlyGivenNames t | split | (refine islv_fst ?_ (by with_reducible assumption))
    | (refine islv_snd ?_ (by with_reducible assumption)) | (with_reducible intro x) | dsimp +zetaDelta only)

theorem State.acquire_islv (s : State) (sl : Nat) (hs : s.islv = (I, false, F))
    : (State.acquire s sl).islv = (I, false, F) := by
  unfold State.acquire
  repeat' (first
    | (with_reducible first
        | assumption | apply State.sendAcquire_islv | refine islv_foldl ?_ (fun x y hx => ?_)
        | refine islv_foldl_fst ?_ (fun x y hx => ?_))
    | simp -zeta only [↓islv_mk]
    | (extract_lets +onlyGivenNames t; refine islv_cut  (t := t) ?_ ?_; all_goals first | (intro ht; clear_value t) | subst t)
    | extract_lets +onlyGivenNames t | split | (refine islv_fst ?_ (by with_reducible assumption))
    | (refine islv_snd ?_ (by with_reducible assumption)) | (with_reducible intro x) | dsimp +zetaDelta only)

theorem State.adopt_islv (s : State) (gi sl : Nat) (hs : s.islv = (I, false, F))
    : (State.adopt s gi sl).islv = (I, false, F) := by
  unfold State.adopt
  repeat' (first
    | (with_reducible first
        | assumption | apply State.updMember_islv | apply State.refill_islv | apply State.acquire_islv
        | apply State.addMem_islv | apply State.enterFailed_islv | apply State.putRecord_islv | apply State.touch_islv
        | refine islv_foldl ?_ (fun x y hx => ?_) | refine islv_foldl_fst ?_ (fun x y hx => ?_))
    | simp -zeta only [↓islv_mk]
    | (extract_lets +onlyGivenNames t; refine islv_cut  (t := t) ?_ ?_; all_goals first | (intro ht; clear_value t) | subst t)
    | extract_lets +onlyGivenNames t | split | (refine islv_fst ?_ (by with_reducible assumption))
    | (refine islv_snd ?_ (by with_reducible assumption)) | (with_reducible intro x) | dsimp +zetaDelta only)

theorem State.autoAct_islv (s : State) (gi : Nat) (hs : s.islv = (I, false, F))
    : (State.autoAct s gi).islv = (I, false, F) := by
  unfold State.autoAct
  repeat' (first
    | (with_reducible first
        | assumption | apply State.adopt_islv | apply State.startRebuild_islv | refine islv_foldl ?_ (fun x y hx => ?_)
        | refine islv_foldl_fst ?_ (fun x y hx => ?_))
    | simp -zeta only [↓islv_mk]
    | (extract_lets +onlyGivenNames t; refine islv_cut  (t := t) ?_ ?_; all_goals first | (intro ht; clear_value t) | subst t)
    | extract_lets +onlyGivenNames t | split | (refine islv_fst ?_ (by with_reducible assumption))
    | (refine islv_snd ?_ (by with_reducible assumption)) | (with_reducible intro x) | dsimp +zetaDelta only)

theorem State.updRun_islv (s : State) (seq vblk : Nat) (f : ReadRun → ReadRun) (hs : s.islv = (I, false, F))
    : (State.updRun s seq vblk f).islv = (I, false, F) := by
  unfold State.updRun
  repeat' (first
    | (with_reducible first
        | assumption | apply State.updCmd_islv | refine islv_foldl ?_ (fun x y hx => ?_)
        | refine islv_foldl_fst ?_ (fun x y hx => ?_))
    | simp -zeta only [↓islv_mk]
    | (extract_lets +onlyGivenNames t; refine islv_cut  (t := t) ?_ ?_; all_goals first | (intro ht; clear_value t) | subst t)
    | extract_lets +onlyGivenNames t | split | (refine islv_fst ?_ (by with_reducible assumption))
    | (refine islv_snd ?_ (by with_reducible assumption)) | (with_reducible intro x) | dsimp +zetaDelta only)

theorem State.readPos_islv (s : State) (c : Cmd) (g : Group) (r : ReadRun) (pos : Nat) (hs : s.islv = (I, false, F))
    : (State.readPos s c g r pos).islv = (I, false, F) := by
  unfold State.readPos
  repeat' (first
    | (with_reducible first
        | assumption | apply State.updRun_islv | apply State.addMem_islv | refine islv_foldl ?_ (fun x y hx => ?_)
        | refine islv_foldl_fst ?_ (fun x y hx => ?_))
    | simp -zeta only [↓islv_mk]
    | (extract_lets +onlyGivenNames t; refine islv_cut  (t := t) ?_ ?_; all_goals first | (intro ht; clear_value t) | subst t)
    | extract_lets +onlyGivenNames t | split | (refine islv_fst ?_ (by with_reducible assumption))
    | (refine islv_snd ?_ (by with_reducible assumption)) | (with_reducible intro x) | dsimp +zetaDelta only)

theorem State.runIssue_islv (s : State) (c : Cmd) (g : Group) (r : ReadRun) (hs : s.islv = (I, false, F))
    : (State.runIssue s c g r).islv = (I, false, F) := by
  unfold State.runIssue
  repeat' (first
    | (with_reducible first
        | assumption | apply State.updRun_islv | apply State.readPos_islv | refine islv_foldl ?_ (fun x y hx => ?_)
        | refine islv_foldl_fst ?_ (fun x y hx => ?_))
    | simp -zeta only [↓islv_mk]
    | (extract_lets +onlyGivenNames t; refine islv_cut  (t := t) ?_ ?_; all_goals first | (intro ht; clear_value t) | subst t)
    | extract_lets +onlyGivenNames t | split | (refine islv_fst ?_ (by with_reducible assumption))
    | (refine islv_snd ?_ (by with_reducible assumption)) | (with_reducible intro x) | dsimp +zetaDelta only)

theorem State.c0Take_islv (s : State) (c : Cmd) (n : Nat) (hs : s.islv = (I, false, F))
    : (State.c0Take s c n).islv = (I, false, F) := by
  unfold State.c0Take
  repeat' (first
    | (with_reducible first
        | assumption | apply State.updCmd_islv | refine islv_foldl ?_ (fun x y hx => ?_)
        | refine islv_foldl_fst ?_ (fun x y hx => ?_))
    | simp -zeta only [↓islv_mk]
    | (extract_lets +onlyGivenNames t; refine islv_cut  (t := t) ?_ ?_; all_goals first | (intro ht; clear_value t) | subst t)
    | extract_lets +onlyGivenNames t | split | (refine islv_fst ?_ (by with_reducible assumption))
    | (refine islv_snd ?_ (by with_reducible assumption)) | (with_reducible intro x) | dsimp +zetaDelta only)

theorem State.sendRun_islv (s : State) (c : Cmd) (g : Group) (r : ReadRun) (src : Nat) (keyed : Bool) (b : Bytes) (hs : s.islv = (I, false, F))
    : (State.sendRun s c g r src keyed b).islv = (I, false, F) := by
  unfold State.sendRun
  repeat' (first
    | (with_reducible first
        | assumption | apply State.c0Take_islv | apply State.pushRun_islv | refine islv_foldl ?_ (fun x y hx => ?_)
        | refine islv_foldl_fst ?_ (fun x y hx => ?_))
    | simp -zeta only [↓islv_mk]
    | (extract_lets +onlyGivenNames t; refine islv_cut  (t := t) ?_ ?_; all_goals first | (intro ht; clear_value t) | subst t)
    | extract_lets +onlyGivenNames t | split | (refine islv_fst ?_ (by with_reducible assumption))
    | (refine islv_snd ?_ (by with_reducible assumption)) | (with_reducible intro x) | dsimp +zetaDelta only)

theorem State.runSurvive_islv (s : State) (c : Cmd) (g : Group) (r : ReadRun) (hs : s.islv = (I, false, F))
    : (State.runSurvive s c g r).islv = (I, false, F) := by
  unfold State.runSurvive
  repeat' (first
    | (with_reducible first
        | assumption | apply State.updRun_islv | apply State.c0Take_islv | apply State.pushRun_islv
        | refine islv_foldl ?_ (fun x y hx => ?_) | refine islv_foldl_fst ?_ (fun x y hx => ?_))
    | simp -zeta only [↓islv_mk]
    | (extract_lets +onlyGivenNames t; refine islv_cut  (t := t) ?_ ?_; all_goals first | (intro ht; clear_value t) | subst t)
    | extract_lets +onlyGivenNames t | split | (refine islv_fst ?_ (by with_reducible assumption))
    | (refine islv_snd ?_ (by with_reducible assumption)) | (with_reducible intro x) | dsimp +zetaDelta only)

theorem State.runSlice_islv (s : State) (c : Cmd) (r : ReadRun) (hs : s.islv = (I, false, F))
    : (State.runSlice s c r).islv = (I, false, F) := by
  unfold State.runSlice
  repeat' (first
    | (with_reducible first
        | assumption | apply State.takeSlice_islv | apply State.updRun_islv | apply State.count_islv
        | refine islv_foldl ?_ (fun x y hx => ?_) | refine islv_foldl_fst ?_ (fun x y hx => ?_))
    | simp -zeta only [↓islv_mk]
    | (extract_lets +onlyGivenNames t; refine islv_cut  (t := t) ?_ ?_; all_goals first | (intro ht; clear_value t) | subst t)
    | extract_lets +onlyGivenNames t | split | (refine islv_fst ?_ (by with_reducible assumption))
    | (refine islv_snd ?_ (by with_reducible assumption)) | (with_reducible intro x) | dsimp +zetaDelta only)

theorem State.addRepair_islv (s : State) (x : Repair) (hs : s.islv = (I, false, F))
    : (State.addRepair s x).islv = (I, false, F) := by
  unfold State.addRepair
  repeat' (first
    | (with_reducible first
        | assumption | refine islv_foldl ?_ (fun x y hx => ?_) | refine islv_foldl_fst ?_ (fun x y hx => ?_))
    | simp -zeta only [↓islv_mk]
    | (extract_lets +onlyGivenNames t; refine islv_cut  (t := t) ?_ ?_; all_goals first | (intro ht; clear_value t) | subst t)
    | extract_lets +onlyGivenNames t | split | (refine islv_fst ?_ (by with_reducible assumption))
    | (refine islv_snd ?_ (by with_reducible assumption)) | (with_reducible intro x) | dsimp +zetaDelta only)

theorem State.runGo_islv (s : State) (c : Cmd) (v : Volume) (g : Group) (r : ReadRun) (hs : s.islv = (I, false, F))
    : (State.runGo s c v g r).islv = (I, false, F) := by
  unfold State.runGo
  repeat' (first
    | (with_reducible first
        | assumption | apply State.runIssue_islv | apply State.runSlice_islv | apply State.runSurvive_islv
        | apply State.updRun_islv | apply State.sendRun_islv | refine islv_foldl ?_ (fun x y hx => ?_)
        | refine islv_foldl_fst ?_ (fun x y hx => ?_))
    | simp -zeta only [↓islv_mk]
    | (extract_lets +onlyGivenNames t; refine islv_cut  (t := t) ?_ ?_; all_goals first | (intro ht; clear_value t) | subst t)
    | extract_lets +onlyGivenNames t | split | (refine islv_fst ?_ (by with_reducible assumption))
    | (refine islv_snd ?_ (by with_reducible assumption)) | (with_reducible intro x) | dsimp +zetaDelta only)

theorem State.runEval_islv (s : State) (seq vblk : Nat) (hs : s.islv = (I, false, F))
    : (State.runEval s seq vblk).islv = (I, false, F) := by
  unfold State.runEval
  repeat' (first
    | (with_reducible first
        | assumption | apply State.runGo_islv | apply State.addRepair_islv | apply State.updCmd_islv
        | refine islv_foldl ?_ (fun x y hx => ?_) | refine islv_foldl_fst ?_ (fun x y hx => ?_))
    | simp -zeta only [↓islv_mk]
    | (extract_lets +onlyGivenNames t; refine islv_cut  (t := t) ?_ ?_; all_goals first | (intro ht; clear_value t) | subst t)
    | extract_lets +onlyGivenNames t | split | (refine islv_fst ?_ (by with_reducible assumption))
    | (refine islv_snd ?_ (by with_reducible assumption)) | (with_reducible intro x) | dsimp +zetaDelta only)

theorem State.readEnd_islv (s : State) (seq : Nat) (hs : s.islv = (I, false, F))
    : (State.readEnd s seq).islv = (I, false, F) := by
  unfold State.readEnd
  repeat' (first
    | (with_reducible first
        | assumption | apply State.finish_islv | apply State.crossed_islv | apply State.count_islv
        | apply State.event_islv | apply State.updCmd_islv | apply State.hostPut_islv
        | refine islv_foldl ?_ (fun x y hx => ?_) | refine islv_foldl_fst ?_ (fun x y hx => ?_))
    | simp -zeta only [↓islv_mk]
    | (extract_lets +onlyGivenNames t; refine islv_cut  (t := t) ?_ ?_; all_goals first | (intro ht; clear_value t) | subst t)
    | extract_lets +onlyGivenNames t | split | (refine islv_fst ?_ (by with_reducible assumption))
    | (refine islv_snd ?_ (by with_reducible assumption)) | (with_reducible intro x) | dsimp +zetaDelta only)

theorem State.updOpen_islv (s : State) (gi st : Nat) (f : OpenStripe → OpenStripe) (hs : s.islv = (I, false, F))
    : (State.updOpen s gi st f).islv = (I, false, F) := by
  unfold State.updOpen
  repeat' (first
    | (with_reducible first
        | assumption | refine islv_foldl ?_ (fun x y hx => ?_) | refine islv_foldl_fst ?_ (fun x y hx => ?_))
    | simp -zeta only [↓islv_mk]
    | (extract_lets +onlyGivenNames t; refine islv_cut  (t := t) ?_ ?_; all_goals first | (intro ht; clear_value t) | subst t)
    | extract_lets +onlyGivenNames t | split | (refine islv_fst ?_ (by with_reducible assumption))
    | (refine islv_snd ?_ (by with_reducible assumption)) | (with_reducible intro x) | dsimp +zetaDelta only)

theorem State.preRead_islv (s : State) (g : Group) (o : OpenStripe) (keys : List Nat) (hs : s.islv = (I, false, F))
    : (State.preRead s g o keys).islv = (I, false, F) := by
  unfold State.preRead
  repeat' (first
    | (with_reducible first
        | assumption | apply State.addMem_islv | refine islv_foldl ?_ (fun x y hx => ?_)
        | refine islv_foldl_fst ?_ (fun x y hx => ?_))
    | simp -zeta only [↓islv_mk]
    | (extract_lets +onlyGivenNames t; refine islv_cut  (t := t) ?_ ?_; all_goals first | (intro ht; clear_value t) | subst t)
    | extract_lets +onlyGivenNames t | split | (refine islv_fst ?_ (by with_reducible assumption))
    | (refine islv_snd ?_ (by with_reducible assumption)) | (with_reducible intro x) | dsimp +zetaDelta only)

theorem State.markBlock_islv (s : State) (gi : Nat) (g : Group) (kind st unit off : Nat) (hs : s.islv = (I, false, F))
    : (State.markBlock s gi g kind st unit off).islv = (I, false, F) := by
  unfold State.markBlock
  extract_lets a1 a2 a3 a4 a5 a6 a7
  apply State.putRecord_islv
  have h1 : a1.islv = (I, false, F) := State.count_islv _ _ _ hs
  have h5 : a5.islv = (I, false, F) := State.setField_islv _ _ _ _ _ _ h1
  clear_value a1 a5 a2 a4 a6
  simp only [a7]
  split
  · exact islv_str _ _ h1
  split
  · exact islv_str _ _ h1
  · exact islv_str _ _ h5

theorem State.clearBlocks_islv (s : State) (gi : Nat) (bs : List BlockAt) (hs : s.islv = (I, false, F))
    : (State.clearBlocks s gi bs).islv = (I, false, F) := by
  unfold State.clearBlocks
  repeat' (first
    | (with_reducible first
        | assumption | apply State.putRecord_islv | refine islv_foldl ?_ (fun x y hx => ?_)
        | refine islv_foldl_fst ?_ (fun x y hx => ?_))
    | simp -zeta only [↓islv_mk]
    | (extract_lets +onlyGivenNames t; refine islv_cut  (t := t) ?_ ?_; all_goals first | (intro ht; clear_value t) | subst t)
    | extract_lets +onlyGivenNames t | split | (refine islv_fst ?_ (by with_reducible assumption))
    | (refine islv_snd ?_ (by with_reducible assumption)) | (with_reducible intro x) | dsimp +zetaDelta only)

theorem State.spoil_islv (s : State) (q st : Nat) (g : Group) (fails : List (Nat × Nat)) (hs : s.islv = (I, false, F))
    : (State.spoil s q st g fails).islv = (I, false, F) := by
  unfold State.spoil
  repeat' (first
    | (with_reducible first
        | assumption | apply State.updCmd_islv | refine islv_foldl ?_ (fun x y hx => ?_)
        | refine islv_foldl_fst ?_ (fun x y hx => ?_))
    | simp -zeta only [↓islv_mk]
    | (extract_lets +onlyGivenNames t; refine islv_cut  (t := t) ?_ ?_; all_goals first | (intro ht; clear_value t) | subst t)
    | extract_lets +onlyGivenNames t | split | (refine islv_fst ?_ (by with_reducible assumption))
    | (refine islv_snd ?_ (by with_reducible assumption)) | (with_reducible intro x) | dsimp +zetaDelta only)

theorem State.planStripe_islv (s : State) (gi st : Nat) (hs : s.islv = (I, false, F))
    : (State.planStripe s gi st).islv = (I, false, F) := by
  unfold State.planStripe
  repeat' (first
    | (with_reducible first
        | assumption | apply State.updOpen_islv | apply State.preRead_islv | apply State.spoil_islv
        | apply State.markBlock_islv | refine islv_foldl ?_ (fun x y hx => ?_)
        | refine islv_foldl_fst ?_ (fun x y hx => ?_))
    | simp -zeta only [↓islv_mk]
    | (extract_lets +onlyGivenNames t; refine islv_cut  (t := t) ?_ ?_; all_goals first | (intro ht; clear_value t) | subst t)
    | extract_lets +onlyGivenNames t | split | (refine islv_fst ?_ (by with_reducible assumption))
    | (refine islv_snd ?_ (by with_reducible assumption)) | (with_reducible intro x) | dsimp +zetaDelta only)

theorem State.sendStripe_islv (s : State) (gi : Nat) (g : Group) (o : OpenStripe) (seq src : Nat) (hs : s.islv = (I, false, F))
    : (State.sendStripe s gi g o seq src).islv = (I, false, F) := by
  unfold State.sendStripe
  repeat' (first
    | (with_reducible first
        | assumption | apply State.updOpen_islv | apply State.updCmd_islv | apply State.pushRun_islv
        | refine islv_foldl ?_ (fun x y hx => ?_) | refine islv_foldl_fst ?_ (fun x y hx => ?_))
    | simp -zeta only [↓islv_mk]
    | (extract_lets +onlyGivenNames t; refine islv_cut  (t := t) ?_ ?_; all_goals first | (intro ht; clear_value t) | subst t)
    | extract_lets +onlyGivenNames t | split | (refine islv_fst ?_ (by with_reducible assumption))
    | (refine islv_snd ?_ (by with_reducible assumption)) | (with_reducible intro x) | dsimp +zetaDelta only)

theorem State.sendPre_islv (s : State) (gi : Nat) (g : Group) (o : OpenStripe) (slot n : Nat) (hs : s.islv = (I, false, F))
    : (State.sendPre s gi g o slot n).islv = (I, false, F) := by
  unfold State.sendPre
  repeat' (first
    | (with_reducible first
        | assumption | apply State.updOpen_islv | apply State.pushRun_islv | refine islv_foldl ?_ (fun x y hx => ?_)
        | refine islv_foldl_fst ?_ (fun x y hx => ?_))
    | simp -zeta only [↓islv_mk]
    | (extract_lets +onlyGivenNames t; refine islv_cut  (t := t) ?_ ?_; all_goals first | (intro ht; clear_value t) | subst t)
    | extract_lets +onlyGivenNames t | split | (refine islv_fst ?_ (by with_reducible assumption))
    | (refine islv_snd ?_ (by with_reducible assumption)) | (with_reducible intro x) | dsimp +zetaDelta only)

theorem State.sendParity_islv (s : State) (gi : Nat) (g : Group) (o : OpenStripe) (hs : s.islv = (I, false, F))
    : (State.sendParity s gi g o).islv = (I, false, F) := by
  unfold State.sendParity
  repeat' (first
    | (with_reducible first
        | assumption | apply State.updOpen_islv | apply State.count_islv | apply State.pushRun_islv
        | refine islv_foldl ?_ (fun x y hx => ?_) | refine islv_foldl_fst ?_ (fun x y hx => ?_))
    | simp -zeta only [↓islv_mk]
    | (extract_lets +onlyGivenNames t; refine islv_cut  (t := t) ?_ ?_; all_goals first | (intro ht; clear_value t) | subst t)
    | extract_lets +onlyGivenNames t | split | (refine islv_fst ?_ (by with_reducible assumption))
    | (refine islv_snd ?_ (by with_reducible assumption)) | (with_reducible intro x) | dsimp +zetaDelta only)

theorem State.queueWrites_islv (s : State) (gi : Nat) (g : Group) (o : OpenStripe) (hs : s.islv = (I, false, F))
    : (State.queueWrites s gi g o).islv = (I, false, F) := by
  unfold State.queueWrites
  repeat' (first
    | (with_reducible first
        | assumption | apply State.updOpen_islv | apply State.freeHeld_islv | apply State.addMem_islv
        | refine islv_foldl ?_ (fun x y hx => ?_) | refine islv_foldl_fst ?_ (fun x y hx => ?_))
    | simp -zeta only [↓islv_mk]
    | (extract_lets +onlyGivenNames t; refine islv_cut  (t := t) ?_ ?_; all_goals first | (intro ht; clear_value t) | subst t)
    | extract_lets +onlyGivenNames t | split | (refine islv_fst ?_ (by with_reducible assumption))
    | (refine islv_snd ?_ (by with_reducible assumption)) | (with_reducible intro x) | dsimp +zetaDelta only)

theorem State.walkMessages_islv (s : State) (x n : Nat) (hs : s.islv = (I, false, F))
    : (State.walkMessages s x n).islv = (I, false, F) := by
  unfold State.walkMessages
  repeat' (first
    | (with_reducible first
        | assumption | apply State.laneMessage_islv | refine islv_foldl ?_ (fun x y hx => ?_)
        | refine islv_foldl_fst ?_ (fun x y hx => ?_))
    | simp -zeta only [↓islv_mk]
    | (extract_lets +onlyGivenNames t; refine islv_cut  (t := t) ?_ ?_; all_goals first | (intro ht; clear_value t) | subst t)
    | extract_lets +onlyGivenNames t | split | (refine islv_fst ?_ (by with_reducible assumption))
    | (refine islv_snd ?_ (by with_reducible assumption)) | (with_reducible intro x) | dsimp +zetaDelta only)

theorem State.paceCharge_islv (s : State) (w : Writer) (cost : Cost) (hs : s.islv = (I, false, F))
    : (State.paceCharge s w cost).islv = (I, false, F) := by
  unfold State.paceCharge
  repeat' (first
    | (with_reducible first
        | assumption | refine islv_foldl ?_ (fun x y hx => ?_) | refine islv_foldl_fst ?_ (fun x y hx => ?_))
    | simp -zeta only [↓islv_mk]
    | (extract_lets +onlyGivenNames t; refine islv_cut  (t := t) ?_ ?_; all_goals first | (intro ht; clear_value t) | subst t)
    | extract_lets +onlyGivenNames t | split | (refine islv_fst ?_ (by with_reducible assumption))
    | (refine islv_snd ?_ (by with_reducible assumption)) | (with_reducible intro x) | dsimp +zetaDelta only)

theorem State.bgRead_islv (s : State) (g : Group) (o : OpenStripe) (keys : List Nat) (hs : s.islv = (I, false, F))
    : (State.bgRead s g o keys).islv = (I, false, F) := by
  unfold State.bgRead
  repeat' (first
    | (with_reducible first
        | assumption | apply State.updOpen_islv | apply State.paceCharge_islv | apply State.preRead_islv
        | refine islv_foldl ?_ (fun x y hx => ?_) | refine islv_foldl_fst ?_ (fun x y hx => ?_))
    | simp -zeta only [↓islv_mk]
    | (extract_lets +onlyGivenNames t; refine islv_cut  (t := t) ?_ ?_; all_goals first | (intro ht; clear_value t) | subst t)
    | extract_lets +onlyGivenNames t | split | (refine islv_fst ?_ (by with_reducible assumption))
    | (refine islv_snd ?_ (by with_reducible assumption)) | (with_reducible intro x) | dsimp +zetaDelta only)

theorem State.bgPlanned_islv (s : State) (gi : Nat) (g : Group) (o : OpenStripe) (j : Job) (method : Method) (new : Tbl Bytes) (ws : List StripeWrite) (hs : s.islv = (I, false, F))
    : (State.bgPlanned s gi g o j method new ws).islv = (I, false, F) := by
  unfold State.bgPlanned
  repeat' (first
    | (with_reducible first
        | assumption | apply State.markBlock_islv | apply State.paceCharge_islv | apply State.updOpen_islv
        | refine islv_foldl ?_ (fun x y hx => ?_) | refine islv_foldl_fst ?_ (fun x y hx => ?_))
    | simp -zeta only [↓islv_mk]
    | (extract_lets +onlyGivenNames t; refine islv_cut  (t := t) ?_ ?_; all_goals first | (intro ht; clear_value t) | subst t)
    | extract_lets +onlyGivenNames t | split | (refine islv_fst ?_ (by with_reducible assumption))
    | (refine islv_snd ?_ (by with_reducible assumption)) | (with_reducible intro x) | dsimp +zetaDelta only)

theorem State.planBg_islv (s : State) (gi : Nat) (g : Group) (o : OpenStripe) (hs : s.islv = (I, false, F))
    : ∀ t, (State.planBg s gi g o) = some t → t.islv = (I, false, F) := by
  unfold State.planBg
  intro t ht
  extract_lets j at ht
  clear_value j
  repeat' (first
    | contradiction | (cases ht; done) | split at ht | (injection ht with ht; subst ht) | extract_lets at ht)
  all_goals
    repeat' (first
      | (with_reducible first
          | assumption | apply goodOut_next | apply State.bgRead_islv | apply State.bgPlanned_islv
          | apply State.takeGen_islv | apply State.count_islv | apply State.walkMessages_islv
          | refine islv_foldl ?_ (fun x y hx => ?_) | refine islv_foldl_fst ?_ (fun x y hx => ?_))
      | simp -zeta only [↓islv_mk]
      | (extract_lets +onlyGivenNames t; refine islv_cut  (t := t) ?_ ?_; all_goals first | (intro ht; clear_value t) | subst t)
      | extract_lets +onlyGivenNames t | split | (refine islv_fst ?_ (by with_reducible assumption))
      | (refine islv_snd ?_ (by with_reducible assumption)) | (with_reducible intro x) | dsimp +zetaDelta only)

theorem State.setDrive_islv (s : State) (sl : Nat) (d : Drive) (hs : s.islv = (I, false, F))
    : (State.setDrive s sl d).islv = (I, false, F) := by
  unfold State.setDrive
  repeat' (first
    | (with_reducible first
        | assumption | apply State.reachChange_islv | refine islv_foldl ?_ (fun x y hx => ?_)
        | refine islv_foldl_fst ?_ (fun x y hx => ?_))
    | simp -zeta only [↓islv_mk]
    | (extract_lets +onlyGivenNames t; refine islv_cut  (t := t) ?_ ?_; all_goals first | (intro ht; clear_value t) | subst t)
    | extract_lets +onlyGivenNames t | split | (refine islv_fst ?_ (by with_reducible assumption))
    | (refine islv_snd ?_ (by with_reducible assumption)) | (with_reducible intro x) | dsimp +zetaDelta only)

theorem State.setLabel_islv (s : State) (sl : Nat) (b : Bytes) (hs : s.islv = (I, false, F))
    : (State.setLabel s sl b).islv = (I, false, F) := by
  unfold State.setLabel
  repeat' (first
    | (with_reducible first
        | assumption | apply State.setDrive_islv | refine islv_foldl ?_ (fun x y hx => ?_)
        | refine islv_foldl_fst ?_ (fun x y hx => ?_))
    | simp -zeta only [↓islv_mk]
    | (extract_lets +onlyGivenNames t; refine islv_cut  (t := t) ?_ ?_; all_goals first | (intro ht; clear_value t) | subst t)
    | extract_lets +onlyGivenNames t | split | (refine islv_fst ?_ (by with_reducible assumption))
    | (refine islv_snd ?_ (by with_reducible assumption)) | (with_reducible intro x) | dsimp +zetaDelta only)

theorem State.writeEnd_islv (s : State) (seq : Nat) (hs : s.islv = (I, false, F))
    : (State.writeEnd s seq).islv = (I, false, F) := by
  unfold State.writeEnd
  repeat' (first
    | (with_reducible first
        | assumption | apply State.finish_islv | apply State.flow_islv | refine islv_foldl ?_ (fun x y hx => ?_)
        | refine islv_foldl_fst ?_ (fun x y hx => ?_))
    | simp -zeta only [↓islv_mk]
    | (extract_lets +onlyGivenNames t; refine islv_cut  (t := t) ?_ ?_; all_goals first | (intro ht; clear_value t) | subst t)
    | extract_lets +onlyGivenNames t | split | (refine islv_fst ?_ (by with_reducible assumption))
    | (refine islv_snd ?_ (by with_reducible assumption)) | (with_reducible intro x) | dsimp +zetaDelta only)

theorem State.failedCheck_islv (s : State) (gi : Nat) (hs : s.islv = (I, false, F))
    : (State.failedCheck s gi).islv = (I, false, F) := by
  unfold State.failedCheck
  repeat' (first
    | (with_reducible first
        | assumption | apply State.setGroup_islv | refine islv_foldl ?_ (fun x y hx => ?_)
        | refine islv_foldl_fst ?_ (fun x y hx => ?_))
    | simp -zeta only [↓islv_mk]
    | (extract_lets +onlyGivenNames t; refine islv_cut  (t := t) ?_ ?_; all_goals first | (intro ht; clear_value t) | subst t)
    | extract_lets +onlyGivenNames t | split | (refine islv_fst ?_ (by with_reducible assumption))
    | (refine islv_snd ?_ (by with_reducible assumption)) | (with_reducible intro x) | dsimp +zetaDelta only)

theorem State.enterService_islv (s : State) (gi sl : Nat) (hs : s.islv = (I, false, F))
    : (State.enterService s gi sl).islv = (I, false, F) := by
  unfold State.enterService
  repeat' (first
    | (with_reducible first
        | assumption | apply State.updMember_islv | apply State.refill_islv | apply State.failedCheck_islv
        | apply State.evaluate_islv | apply State.rewriteLabels_islv | apply State.replicaStart_islv
        | apply State.putRecord_islv | refine islv_foldl ?_ (fun x y hx => ?_)
        | refine islv_foldl_fst ?_ (fun x y hx => ?_))
    | simp -zeta only [↓islv_mk]
    | (extract_lets +onlyGivenNames t; refine islv_cut  (t := t) ?_ ?_; all_goals first | (intro ht; clear_value t) | subst t)
    | extract_lets +onlyGivenNames t | split | (refine islv_fst ?_ (by with_reducible assumption))
    | (refine islv_snd ?_ (by with_reducible assumption)) | (with_reducible intro x) | dsimp +zetaDelta only)

theorem State.rebuildTo_islv (s : State) (gi sl nxt : Nat) (hs : s.islv = (I, false, F))
    : (State.rebuildTo s gi sl nxt).islv = (I, false, F) := by
  unfold State.rebuildTo
  repeat' (first
    | (with_reducible first
        | assumption | apply State.count_islv | apply State.updMember_islv | apply State.putRecord_islv
        | apply State.failedCheck_islv | apply State.rewriteLabels_islv | refine islv_foldl ?_ (fun x y hx => ?_)
        | refine islv_foldl_fst ?_ (fun x y hx => ?_))
    | simp -zeta only [↓islv_mk]
    | (extract_lets +onlyGivenNames t; refine islv_cut  (t := t) ?_ ?_; all_goals first | (intro ht; clear_value t) | subst t)
    | extract_lets +onlyGivenNames t | split | (refine islv_fst ?_ (by with_reducible assumption))
    | (refine islv_snd ?_ (by with_reducible assumption)) | (with_reducible intro x) | dsimp +zetaDelta only)

theorem State.refillTo_islv (s : State) (gi sl nxt : Nat) (hs : s.islv = (I, false, F))
    : (State.refillTo s gi sl nxt).islv = (I, false, F) := by
  unfold State.refillTo
  repeat' (first
    | (with_reducible first
        | assumption | apply State.updMember_islv | apply State.refill_islv | apply State.putRecord_islv
        | apply State.enterService_islv | refine islv_foldl ?_ (fun x y hx => ?_)
        | refine islv_foldl_fst ?_ (fun x y hx => ?_))
    | simp -zeta only [↓islv_mk]
    | (extract_lets +onlyGivenNames t; refine islv_cut  (t := t) ?_ ?_; all_goals first | (intro ht; clear_value t) | subst t)
    | extract_lets +onlyGivenNames t | split | (refine islv_fst ?_ (by with_reducible assumption))
    | (refine islv_snd ?_ (by with_reducible assumption)) | (with_reducible intro x) | dsimp +zetaDelta only)

theorem State.deltaTo_islv (s : State) (gi sl at_ : Nat) (hs : s.islv = (I, false, F))
    : (State.deltaTo s gi sl at_).islv = (I, false, F) := by
  unfold State.deltaTo
  repeat' (first
    | (with_reducible first
        | assumption | apply State.updMember_islv | apply State.enterService_islv
        | refine islv_foldl ?_ (fun x y hx => ?_) | refine islv_foldl_fst ?_ (fun x y hx => ?_))
    | simp -zeta only [↓islv_mk]
    | (extract_lets +onlyGivenNames t; refine islv_cut  (t := t) ?_ ?_; all_goals first | (intro ht; clear_value t) | subst t)
    | extract_lets +onlyGivenNames t | split | (refine islv_fst ?_ (by with_reducible assumption))
    | (refine islv_snd ?_ (by with_reducible assumption)) | (with_reducible intro x) | dsimp +zetaDelta only)

theorem State.sweepZeros_islv (s : State) (gi : Nat) (g : Group) (sw : Sweep) (hs : s.islv = (I, false, F))
    : (State.sweepZeros s gi g sw).islv = (I, false, F) := by
  unfold State.sweepZeros
  repeat' (first
    | (with_reducible first
        | assumption | apply State.setGroup_islv | apply State.paceCharge_islv | apply State.addMem_islv
        | refine islv_foldl ?_ (fun x y hx => ?_) | refine islv_foldl_fst ?_ (fun x y hx => ?_))
    | simp -zeta only [↓islv_mk]
    | (extract_lets +onlyGivenNames t; refine islv_cut  (t := t) ?_ ?_; all_goals first | (intro ht; clear_value t) | subst t)
    | extract_lets +onlyGivenNames t | split | (refine islv_fst ?_ (by with_reducible assumption))
    | (refine islv_snd ?_ (by with_reducible assumption)) | (with_reducible intro x) | dsimp +zetaDelta only)

theorem State.lateStarts_islv (s : State) (gi : Nat) (hs : s.islv = (I, false, F))
    : (State.lateStarts s gi).islv = (I, false, F) := by
  unfold State.lateStarts
  repeat' (first
    | (with_reducible first
        | assumption | apply State.startRebuild_islv | refine islv_foldl ?_ (fun x y hx => ?_)
        | refine islv_foldl_fst ?_ (fun x y hx => ?_))
    | simp -zeta only [↓islv_mk]
    | (extract_lets +onlyGivenNames t; refine islv_cut  (t := t) ?_ ?_; all_goals first | (intro ht; clear_value t) | subst t)
    | extract_lets +onlyGivenNames t | split | (refine islv_fst ?_ (by with_reducible assumption))
    | (refine islv_snd ?_ (by with_reducible assumption)) | (with_reducible intro x) | dsimp +zetaDelta only)

theorem State.sweepCheck_islv (s : State) (gi : Nat) (hs : s.islv = (I, false, F))
    : (State.sweepCheck s gi).islv = (I, false, F) := by
  unfold State.sweepCheck
  repeat' (first
    | (with_reducible first
        | assumption | apply State.sweepZeros_islv | apply State.freeSlice_islv | apply State.setGroup_islv
        | apply State.putRecord_islv | apply State.touch_islv | apply State.evaluate_islv | apply State.autoAct_islv
        | apply State.lateStarts_islv | refine islv_foldl ?_ (fun x y hx => ?_)
        | refine islv_foldl_fst ?_ (fun x y hx => ?_))
    | simp -zeta only [↓islv_mk]
    | (extract_lets +onlyGivenNames t; refine islv_cut  (t := t) ?_ ?_; all_goals first | (intro ht; clear_value t) | subst t)
    | extract_lets +onlyGivenNames t | split | (refine islv_fst ?_ (by with_reducible assumption))
    | (refine islv_snd ?_ (by with_reducible assumption)) | (with_reducible intro x) | dsimp +zetaDelta only)

theorem State.walkPass_islv (s : State) (vol : Nat) (g : Group) (st : Nat) (hs : s.islv = (I, false, F))
    : (State.walkPass s vol g st).islv = (I, false, F) := by
  unfold State.walkPass
  repeat' (first
    | (with_reducible first
        | assumption | apply State.cfgPut_islv | apply State.touch_islv | refine islv_foldl ?_ (fun x y hx => ?_)
        | refine islv_foldl_fst ?_ (fun x y hx => ?_))
    | simp -zeta only [↓islv_mk]
    | (extract_lets +onlyGivenNames t; refine islv_cut  (t := t) ?_ ?_; all_goals first | (intro ht; clear_value t) | subst t)
    | extract_lets +onlyGivenNames t | split | (refine islv_fst ?_ (by with_reducible assumption))
    | (refine islv_snd ?_ (by with_reducible assumption)) | (with_reducible intro x) | dsimp +zetaDelta only)

theorem State.stripeClose_islv (s : State) (gi st : Nat) (hs : s.islv = (I, false, F))
    : (State.stripeClose s gi st).islv = (I, false, F) := by
  unfold State.stripeClose
  repeat' (first
    | (with_reducible first
        | assumption | apply State.sweepCheck_islv | apply State.freeSlice_islv | apply State.unstage_islv
        | apply State.touch_islv | apply State.clearBlocks_islv | apply State.updCmd_islv | apply State.writeEnd_islv
        | apply State.updGroup_islv | apply State.rebuildTo_islv | apply State.refill_islv | apply State.refillTo_islv
        | apply State.deltaTo_islv | apply State.walkPass_islv | refine islv_foldl ?_ (fun x y hx => ?_)
        | refine islv_foldl_fst ?_ (fun x y hx => ?_))
    | simp -zeta only [↓islv_mk]
    | (extract_lets +onlyGivenNames t; refine islv_cut  (t := t) ?_ ?_; all_goals first | (intro ht; clear_value t) | subst t)
    | extract_lets +onlyGivenNames t | split | (refine islv_fst ?_ (by with_reducible assumption))
    | (refine islv_snd ?_ (by with_reducible assumption)) | (with_reducible intro x) | dsimp +zetaDelta only)

theorem State.stripeStage_islv (s : State) (gi st : Nat) (hs : s.islv = (I, false, F))
    : ∀ t, (State.stripeStage s gi st) = some t → t.islv = (I, false, F) := by
  unfold State.stripeStage
  intro t ht
  repeat' (first
    | contradiction | (cases ht; done) | split at ht | (injection ht with ht; subst ht)
    | exact State.planBg_islv _ _ _ _ hs _ ht)
  all_goals
    repeat' (first
      | (with_reducible first
          | assumption | apply goodOut_next | apply State.takeSlice_islv | apply State.updOpen_islv
          | apply State.count_islv | apply State.sendStripe_islv | apply State.planStripe_islv
          | apply State.sendParity_islv | apply State.queueWrites_islv | apply State.stripeClose_islv
          | refine islv_foldl ?_ (fun x y hx => ?_) | refine islv_foldl_fst ?_ (fun x y hx => ?_))
      | refine State.planBg_islv _ _ _ _ ?_ _ (by with_reducible assumption) | simp -zeta only [↓islv_mk]
      | (extract_lets +onlyGivenNames t; refine islv_cut  (t := t) ?_ ?_; all_goals first | (intro ht; clear_value t) | subst t)
      | extract_lets +onlyGivenNames t | split | (refine islv_fst ?_ (by with_reducible assumption))
      | (refine islv_snd ?_ (by with_reducible assumption)) | (with_reducible intro x) | dsimp +zetaDelta only)

theorem State.stripeGo_islv (n gi st : Nat) (s : State) (hs : s.islv = (I, false, F))
    : (State.stripeGo n gi st s).islv = (I, false, F) := by
  induction n generalizing s with
  | zero => exact hs
  | succ n ih =>
    unfold State.stripeGo
    split
    · next h =>
      split
      · exact ih _ (State.stripeStage_islv _ _ _ hs _ h)
      · exact State.stripeStage_islv _ _ _ hs _ h
    · exact hs

theorem State.stripeAdvance_islv (s : State) (gi st : Nat) (hs : s.islv = (I, false, F))
    : (State.stripeAdvance s gi st).islv = (I, false, F) := by
  unfold State.stripeAdvance
  repeat' (first
    | (with_reducible first
        | assumption | apply State.stripeGo_islv | refine islv_foldl ?_ (fun x y hx => ?_)
        | refine islv_foldl_fst ?_ (fun x y hx => ?_))
    | simp -zeta only [↓islv_mk]
    | (extract_lets +onlyGivenNames t; refine islv_cut  (t := t) ?_ ?_; all_goals first | (intro ht; clear_value t) | subst t)
    | extract_lets +onlyGivenNames t | split | (refine islv_fst ?_ (by with_reducible assumption))
    | (refine islv_snd ?_ (by with_reducible assumption)) | (with_reducible intro x) | dsimp +zetaDelta only)

theorem State.pushCreating_islv (s : State) (hs : s.islv = (I, false, F)) : (State.pushCreating s).islv = (I, false, F) := by
  unfold State.pushCreating
  repeat' (first
    | (with_reducible first
        | assumption | apply State.setBit_islv | apply State.winAdmit_islv | refine islv_foldl ?_ (fun x y hx => ?_)
        | refine islv_foldl_fst ?_ (fun x y hx => ?_))
    | simp -zeta only [↓islv_mk]
    | (extract_lets +onlyGivenNames t; refine islv_cut  (t := t) ?_ ?_; all_goals first | (intro ht; clear_value t) | subst t)
    | extract_lets +onlyGivenNames t | split | (refine islv_fst ?_ (by with_reducible assumption))
    | (refine islv_snd ?_ (by with_reducible assumption)) | (with_reducible intro x) | dsimp +zetaDelta only)

theorem State.preReadEnd_islv (s : State) (gi st pos : Nat) (m : MemCmd) (r : Option Bytes) (ure : Bool) (hs : s.islv = (I, false, F))
    : (State.preReadEnd s gi st pos m r ure).islv = (I, false, F) := by
  unfold State.preReadEnd
  repeat' (first
    | (with_reducible first
        | assumption | apply State.addRepair_islv | apply State.updOpen_islv | apply State.sendPre_islv
        | apply State.stripeAdvance_islv | refine islv_foldl ?_ (fun x y hx => ?_)
        | refine islv_foldl_fst ?_ (fun x y hx => ?_))
    | simp -zeta only [↓islv_mk]
    | (extract_lets +onlyGivenNames t; refine islv_cut  (t := t) ?_ ?_; all_goals first | (intro ht; clear_value t) | subst t)
    | extract_lets +onlyGivenNames t | split | (refine islv_fst ?_ (by with_reducible assumption))
    | (refine islv_snd ?_ (by with_reducible assumption)) | (with_reducible intro x) | dsimp +zetaDelta only)

theorem State.lanternReadEnd_islv (s : State) (gi st pos : Nat) (m : MemCmd) (r : Option Bytes) (ure : Bool) (hs : s.islv = (I, false, F))
    : (State.lanternReadEnd s gi st pos m r ure).islv = (I, false, F) := by
  unfold State.lanternReadEnd
  repeat' (first
    | (with_reducible first
        | assumption | refine islv_foldl ?_ (fun x y hx => ?_) | refine islv_foldl_fst ?_ (fun x y hx => ?_))
    | simp -zeta only [↓islv_mk]
    | (extract_lets +onlyGivenNames t; refine islv_cut  (t := t) ?_ ?_; all_goals first | (intro ht; clear_value t) | subst t)
    | extract_lets +onlyGivenNames t | split | (refine islv_fst ?_ (by with_reducible assumption))
    | (refine islv_snd ?_ (by with_reducible assumption)) | (with_reducible intro x) | dsimp +zetaDelta only)

theorem State.readRunEnd_islv (s : State) (seq vblk pos : Nat) (r : Option Bytes) (ure : Bool) (hs : s.islv = (I, false, F))
    : (State.readRunEnd s seq vblk pos r ure).islv = (I, false, F) := by
  unfold State.readRunEnd
  repeat' (first
    | (with_reducible first
        | assumption | apply State.addRepair_islv | apply State.updRun_islv | apply State.runEval_islv
        | apply State.readEnd_islv | apply State.flow_islv | refine islv_foldl ?_ (fun x y hx => ?_)
        | refine islv_foldl_fst ?_ (fun x y hx => ?_))
    | simp -zeta only [↓islv_mk]
    | (extract_lets +onlyGivenNames t; refine islv_cut  (t := t) ?_ ?_; all_goals first | (intro ht; clear_value t) | subst t)
    | extract_lets +onlyGivenNames t | split | (refine islv_fst ?_ (by with_reducible assumption))
    | (refine islv_snd ?_ (by with_reducible assumption)) | (with_reducible intro x) | dsimp +zetaDelta only)

theorem State.groupMade_islv (s : State) (x : Creating) (hs : s.islv = (I, false, F))
    : (State.groupMade s x).islv = (I, false, F) := by
  unfold State.groupMade
  repeat' (first
    | (with_reducible first
        | assumption | apply State.setGroup_islv | apply State.acquire_islv | apply State.resolvePolicy_islv
        | apply State.putRecord_islv | apply State.finish_islv | refine islv_foldl ?_ (fun x y hx => ?_)
        | refine islv_foldl_fst ?_ (fun x y hx => ?_))
    | simp -zeta only [↓islv_mk]
    | (extract_lets +onlyGivenNames t; refine islv_cut  (t := t) ?_ ?_; all_goals first | (intro ht; clear_value t) | subst t)
    | extract_lets +onlyGivenNames t | split | (refine islv_fst ?_ (by with_reducible assumption))
    | (refine islv_snd ?_ (by with_reducible assumption)) | (with_reducible intro x) | dsimp +zetaDelta only)

theorem State.creatingEnd_islv (s : State) (gi : Nat) (ok : Bool) (hs : s.islv = (I, false, F))
    : (State.creatingEnd s gi ok).islv = (I, false, F) := by
  unfold State.creatingEnd
  repeat' (first
    | (with_reducible first
        | assumption | apply State.groupMade_islv | apply State.flow_islv | apply State.finish_islv
        | apply State.addMem_islv | refine islv_foldl ?_ (fun x y hx => ?_)
        | refine islv_foldl_fst ?_ (fun x y hx => ?_))
    | simp -zeta only [↓islv_mk]
    | (extract_lets +onlyGivenNames t; refine islv_cut  (t := t) ?_ ?_; all_goals first | (intro ht; clear_value t) | subst t)
    | extract_lets +onlyGivenNames t | split | (refine islv_fst ?_ (by with_reducible assumption))
    | (refine islv_snd ?_ (by with_reducible assumption)) | (with_reducible intro x) | dsimp +zetaDelta only)

theorem State.memEndNow_islv (s : State) (m : MemCmd) (r : Option Bytes) (ure : Bool) (hs : s.islv = (I, false, F))
    : (State.memEndNow s m r ure).islv = (I, false, F) := by
  unfold State.memEndNow
  repeat' (first
    | (with_reducible first
        | assumption | apply State.readRunEnd_islv | apply State.preRead_islv | apply State.preReadEnd_islv
        | apply State.updOpen_islv | apply State.count_islv | apply State.stripeClose_islv | apply State.bitSetEnd_islv
        | apply State.bitClearEnd_islv | apply State.pushCreating_islv | apply State.replicaWritten_islv
        | apply State.setLabel_islv | apply State.labelsEnd_islv | apply State.replicaEnd_islv | apply State.flow_islv
        | apply State.createGroup_islv | apply State.creatingEnd_islv | apply State.rebuildTo_islv
        | apply State.sweepCheck_islv | apply State.lanternReadEnd_islv | apply State.finish_islv
        | apply State.acquire_islv | refine islv_foldl ?_ (fun x y hx => ?_)
        | refine islv_foldl_fst ?_ (fun x y hx => ?_))
    | simp -zeta only [↓islv_mk]
    | (extract_lets +onlyGivenNames t; refine islv_cut  (t := t) ?_ ?_; all_goals first | (intro ht; clear_value t) | subst t)
    | extract_lets +onlyGivenNames t | split | (refine islv_fst ?_ (by with_reducible assumption))
    | (refine islv_snd ?_ (by with_reducible assumption)) | (with_reducible intro x) | dsimp +zetaDelta only)

theorem State.memEnd_islv (s : State) (m : MemCmd) (r : Option Bytes) (ure : Bool) (hs : s.islv = (I, false, F))
    : (State.memEnd s m r ure).islv = (I, false, F) := by
  unfold State.memEnd
  repeat' (first
    | (with_reducible first
        | assumption | apply State.memEndNow_islv | refine islv_foldl ?_ (fun x y hx => ?_)
        | refine islv_foldl_fst ?_ (fun x y hx => ?_))
    | simp -zeta only [↓islv_mk]
    | (extract_lets +onlyGivenNames t; refine islv_cut  (t := t) ?_ ?_; all_goals first | (intro ht; clear_value t) | subst t)
    | extract_lets +onlyGivenNames t | split | (refine islv_fst ?_ (by with_reducible assumption))
    | (refine islv_snd ?_ (by with_reducible assumption)) | (with_reducible intro x) | dsimp +zetaDelta only)

theorem State.failMem_islv (s : State) (sl : Nat) (p : MemCmd → Bool) (hs : s.islv = (I, false, F))
    : (State.failMem s sl p).islv = (I, false, F) := by
  unfold State.failMem
  repeat' (first
    | (with_reducible first
        | assumption | apply State.dropMem_islv | apply State.memEnd_islv | refine islv_foldl ?_ (fun x y hx => ?_)
        | refine islv_foldl_fst ?_ (fun x y hx => ?_))
    | simp -zeta only [↓islv_mk]
    | (extract_lets +onlyGivenNames t; refine islv_cut  (t := t) ?_ ?_; all_goals first | (intro ht; clear_value t) | subst t)
    | extract_lets +onlyGivenNames t | split | (refine islv_fst ?_ (by with_reducible assumption))
    | (refine islv_snd ?_ (by with_reducible assumption)) | (with_reducible intro x) | dsimp +zetaDelta only)

theorem State.memberMissing_islv (s : State) (sl : Nat) (hs : s.islv = (I, false, F))
    : (State.memberMissing s sl).islv = (I, false, F) := by
  unfold State.memberMissing
  repeat' (first
    | (with_reducible first
        | assumption | apply State.refill_islv | apply State.updMember_islv | apply State.resolvePolicy_islv
        | apply State.enterFailed_islv | apply State.replicaLost_islv | apply State.failMem_islv
        | apply State.rewriteLabels_islv | apply State.autoAct_islv | apply State.evaluate_islv
        | apply State.putRecord_islv | apply State.flow_islv | refine islv_foldl ?_ (fun x y hx => ?_)
        | refine islv_foldl_fst ?_ (fun x y hx => ?_))
    | simp -zeta only [↓islv_mk]
    | (extract_lets +onlyGivenNames t; refine islv_cut  (t := t) ?_ ?_; all_goals first | (intro ht; clear_value t) | subst t)
    | extract_lets +onlyGivenNames t | split | (refine islv_fst ?_ (by with_reducible assumption))
    | (refine islv_snd ?_ (by with_reducible assumption)) | (with_reducible intro x) | dsimp +zetaDelta only)

theorem State.driveLost_islv (s : State) (sl : Nat) (hs : s.islv = (I, false, F))
    : (State.driveLost s sl).islv = (I, false, F) := by
  unfold State.driveLost
  repeat' (first
    | (with_reducible first
        | assumption | apply State.memberMissing_islv | apply State.failMem_islv
        | refine islv_foldl ?_ (fun x y hx => ?_) | refine islv_foldl_fst ?_ (fun x y hx => ?_))
    | simp -zeta only [↓islv_mk]
    | (extract_lets +onlyGivenNames t; refine islv_cut  (t := t) ?_ ?_; all_goals first | (intro ht; clear_value t) | subst t)
    | extract_lets +onlyGivenNames t | split | (refine islv_fst ?_ (by with_reducible assumption))
    | (refine islv_snd ?_ (by with_reducible assumption)) | (with_reducible intro x) | dsimp +zetaDelta only)

theorem State.mgmtDrop_islv (s : State) (hs : s.islv = (I, false, F)) : (State.mgmtDrop s).islv = (I, false, F) := by
  unfold State.mgmtDrop
  repeat' (first
    | (with_reducible first
        | assumption | apply State.err_islv | apply State.count_islv | refine islv_foldl ?_ (fun x y hx => ?_)
        | refine islv_foldl_fst ?_ (fun x y hx => ?_))
    | simp -zeta only [↓islv_mk]
    | (extract_lets +onlyGivenNames t; refine islv_cut  (t := t) ?_ ?_; all_goals first | (intro ht; clear_value t) | subst t)
    | extract_lets +onlyGivenNames t | split | (refine islv_fst ?_ (by with_reducible assumption))
    | (refine islv_snd ?_ (by with_reducible assumption)) | (with_reducible intro x) | dsimp +zetaDelta only)

theorem State.linkDown_islv (s : State) (m u : Nat) (hs : s.islv = (I, false, F))
    : (State.linkDown s m u).islv = (I, false, F) := by
  unfold State.linkDown
  repeat' (first
    | (with_reducible first
        | assumption | apply State.setReg_islv | apply State.event_islv | apply State.reachChange_islv
        | refine islv_foldl ?_ (fun x y hx => ?_) | refine islv_foldl_fst ?_ (fun x y hx => ?_))
    | simp -zeta only [↓islv_mk]
    | (extract_lets +onlyGivenNames t; refine islv_cut  (t := t) ?_ ?_; all_goals first | (intro ht; clear_value t) | subst t)
    | extract_lets +onlyGivenNames t | split | (refine islv_fst ?_ (by with_reducible assumption))
    | (refine islv_snd ?_ (by with_reducible assumption)) | (with_reducible intro x) | dsimp +zetaDelta only)

theorem State.odtDrop_islv (s : State) (mac : Nat) (hs : s.islv = (I, false, F))
    : (State.odtDrop s mac).islv = (I, false, F) := by
  unfold State.odtDrop
  repeat' (first
    | (with_reducible first
        | assumption | apply State.mgmtDrop_islv | apply State.count_islv | refine islv_foldl ?_ (fun x y hx => ?_)
        | refine islv_foldl_fst ?_ (fun x y hx => ?_))
    | simp -zeta only [↓islv_mk]
    | (extract_lets +onlyGivenNames t; refine islv_cut  (t := t) ?_ ?_; all_goals first | (intro ht; clear_value t) | subst t)
    | extract_lets +onlyGivenNames t | split | (refine islv_fst ?_ (by with_reducible assumption))
    | (refine islv_snd ?_ (by with_reducible assumption)) | (with_reducible intro x) | dsimp +zetaDelta only)

theorem State.odtHeard_islv (s : State) (h : OdtHdr) (hs : s.islv = (I, false, F))
    : (State.odtHeard s h).islv = (I, false, F) := by
  unfold State.odtHeard
  repeat' (first
    | (with_reducible first
        | assumption | apply State.setOdt_islv | refine islv_foldl ?_ (fun x y hx => ?_)
        | refine islv_foldl_fst ?_ (fun x y hx => ?_))
    | simp -zeta only [↓islv_mk]
    | (extract_lets +onlyGivenNames t; refine islv_cut  (t := t) ?_ ?_; all_goals first | (intro ht; clear_value t) | subst t)
    | extract_lets +onlyGivenNames t | split | (refine islv_fst ?_ (by with_reducible assumption))
    | (refine islv_snd ?_ (by with_reducible assumption)) | (with_reducible intro x) | dsimp +zetaDelta only)

theorem State.receipt_islv (s : State) (k qpn flags : Nat) (hs : s.islv = (I, false, F))
    : (State.receipt s k qpn flags).islv = (I, false, F) := by
  unfold State.receipt
  repeat' (first
    | (with_reducible first
        | assumption | apply State.odtCtl_islv | refine islv_foldl ?_ (fun x y hx => ?_)
        | refine islv_foldl_fst ?_ (fun x y hx => ?_))
    | simp -zeta only [↓islv_mk]
    | (extract_lets +onlyGivenNames t; refine islv_cut  (t := t) ?_ ?_; all_goals first | (intro ht; clear_value t) | subst t)
    | extract_lets +onlyGivenNames t | split | (refine islv_fst ?_ (by with_reducible assumption))
    | (refine islv_snd ?_ (by with_reducible assumption)) | (with_reducible intro x) | dsimp +zetaDelta only)

theorem State.odtBell_islv (s : State) (h : OdtHdr) (apply : State → State × Nat) (hs : s.islv = (I, false, F)) (happly : ∀ x0, x0.islv = (I, false, F) → (apply x0).1.islv = (I, false, F))
    : (State.odtBell s h apply).islv = (I, false, F) := by
  unfold State.odtBell
  repeat' (first
    | (with_reducible first
        | assumption | apply happly | apply State.odtDrop_islv | apply State.odtHeard_islv | apply State.setOdt_islv
        | apply State.touch_islv | apply State.receipt_islv | apply State.count_islv
        | refine islv_foldl ?_ (fun x y hx => ?_) | refine islv_foldl_fst ?_ (fun x y hx => ?_))
    | simp -zeta only [↓islv_mk]
    | (extract_lets +onlyGivenNames t; refine islv_cut  (t := t) ?_ ?_; all_goals first | (intro ht; clear_value t) | subst t)
    | extract_lets +onlyGivenNames t | split | (refine islv_fst ?_ (by with_reducible assumption))
    | (refine islv_snd ?_ (by with_reducible assumption)) | (with_reducible intro x) | dsimp +zetaDelta only)

theorem State.odtApply_islv (h : OdtHdr) (s : State) (hs : s.islv = (I, false, F))
    : (State.odtApply h s).1.islv = (I, false, F) := by
  unfold State.odtApply
  repeat' (first
    | (with_reducible first
        | assumption | apply State.badDoorbell_islv | apply State.cqHeadDb_islv | apply State.sqTail_islv
        | apply State.pump_islv | refine islv_foldl ?_ (fun x y hx => ?_)
        | refine islv_foldl_fst ?_ (fun x y hx => ?_))
    | simp -zeta only [↓islv_mk]
    | (extract_lets +onlyGivenNames t; refine islv_cut  (t := t) ?_ ?_; all_goals first | (intro ht; clear_value t) | subst t)
    | extract_lets +onlyGivenNames t | split | (refine islv_fst ?_ (by with_reducible assumption))
    | (refine islv_snd ?_ (by with_reducible assumption)) | (with_reducible intro x) | dsimp +zetaDelta only)

theorem State.odtApplyInline_islv (h : OdtHdr) (entry : Bytes) (s : State) (hs : s.islv = (I, false, F))
    : (State.odtApplyInline h entry s).1.islv = (I, false, F) := by
  unfold State.odtApplyInline
  repeat' (first
    | (with_reducible first
        | assumption | apply State.badDoorbell_islv | apply State.inlineDb_islv
        | refine islv_foldl ?_ (fun x y hx => ?_) | refine islv_foldl_fst ?_ (fun x y hx => ?_))
    | simp -zeta only [↓islv_mk]
    | (extract_lets +onlyGivenNames t; refine islv_cut  (t := t) ?_ ?_; all_goals first | (intro ht; clear_value t) | subst t)
    | extract_lets +onlyGivenNames t | split | (refine islv_fst ?_ (by with_reducible assumption))
    | (refine islv_snd ?_ (by with_reducible assumption)) | (with_reducible intro x) | dsimp +zetaDelta only)

theorem State.odtDoor_islv (s : State) (h : OdtHdr) (hs : s.islv = (I, false, F))
    : (State.odtDoor s h).islv = (I, false, F) := by
  unfold State.odtDoor
  repeat' (first
    | (with_reducible first
        | assumption | refine State.atQpe_islv _ _ _ ?_ (fun x0 hx => ?_)
        | refine State.odtBell_islv _ _ _ ?_ (fun x0 hx => ?_) | apply State.odtApply_islv
        | refine islv_foldl ?_ (fun x y hx => ?_) | refine islv_foldl_fst ?_ (fun x y hx => ?_))
    | simp -zeta only [↓islv_mk]
    | (extract_lets +onlyGivenNames t; refine islv_cut  (t := t) ?_ ?_; all_goals first | (intro ht; clear_value t) | subst t)
    | extract_lets +onlyGivenNames t | split | (refine islv_fst ?_ (by with_reducible assumption))
    | (refine islv_snd ?_ (by with_reducible assumption)) | (with_reducible intro x) | dsimp +zetaDelta only)

theorem State.odtInlineDoor_islv (s : State) (h : OdtHdr) (entry : Bytes) (hs : s.islv = (I, false, F))
    : (State.odtInlineDoor s h entry).islv = (I, false, F) := by
  unfold State.odtInlineDoor
  repeat' (first
    | (with_reducible first
        | assumption | refine State.atQpe_islv _ _ _ ?_ (fun x0 hx => ?_)
        | refine State.odtBell_islv _ _ _ ?_ (fun x0 hx => ?_) | apply State.odtApplyInline_islv
        | refine islv_foldl ?_ (fun x y hx => ?_) | refine islv_foldl_fst ?_ (fun x y hx => ?_))
    | simp -zeta only [↓islv_mk]
    | (extract_lets +onlyGivenNames t; refine islv_cut  (t := t) ?_ ?_; all_goals first | (intro ht; clear_value t) | subst t)
    | extract_lets +onlyGivenNames t | split | (refine islv_fst ?_ (by with_reducible assumption))
    | (refine islv_snd ?_ (by with_reducible assumption)) | (with_reducible intro x) | dsimp +zetaDelta only)

theorem State.updRoce_islv (s : State) (k : Nat) (f : RoceConn → RoceConn) (hs : s.islv = (I, false, F))
    : (State.updRoce s k f).islv = (I, false, F) := by
  unfold State.updRoce
  repeat' (first
    | (with_reducible first
        | assumption | apply State.setRoce_islv | refine islv_foldl ?_ (fun x y hx => ?_)
        | refine islv_foldl_fst ?_ (fun x y hx => ?_))
    | simp -zeta only [↓islv_mk]
    | (extract_lets +onlyGivenNames t; refine islv_cut  (t := t) ?_ ?_; all_goals first | (intro ht; clear_value t) | subst t)
    | extract_lets +onlyGivenNames t | split | (refine islv_fst ?_ (by with_reducible assumption))
    | (refine islv_snd ?_ (by with_reducible assumption)) | (with_reducible intro x) | dsimp +zetaDelta only)

theorem State.roceDrop_islv (s : State) (hs : s.islv = (I, false, F)) : (State.roceDrop s).islv = (I, false, F) := by
  unfold State.roceDrop
  repeat' (first
    | (with_reducible first
        | assumption | apply State.count_islv | refine islv_foldl ?_ (fun x y hx => ?_)
        | refine islv_foldl_fst ?_ (fun x y hx => ?_))
    | simp -zeta only [↓islv_mk]
    | (extract_lets +onlyGivenNames t; refine islv_cut  (t := t) ?_ ?_; all_goals first | (intro ht; clear_value t) | subst t)
    | extract_lets +onlyGivenNames t | split | (refine islv_fst ?_ (by with_reducible assumption))
    | (refine islv_snd ?_ (by with_reducible assumption)) | (with_reducible intro x) | dsimp +zetaDelta only)

theorem State.roceEnd_islv (s : State) (k : Nat) (error : Bool) (hs : s.islv = (I, false, F))
    : (State.roceEnd s k error).islv = (I, false, F) := by
  unfold State.roceEnd
  repeat' (first
    | (with_reducible first
        | assumption | apply State.updCmd_islv | apply State.dropEgress_islv | apply State.descsFail_islv
        | apply State.qpError_islv | apply State.touch_islv | apply State.flow_islv
        | refine islv_foldl ?_ (fun x y hx => ?_) | refine islv_foldl_fst ?_ (fun x y hx => ?_))
    | simp -zeta only [↓islv_mk]
    | (extract_lets +onlyGivenNames t; refine islv_cut  (t := t) ?_ ?_; all_goals first | (intro ht; clear_value t) | subst t)
    | extract_lets +onlyGivenNames t | split | (refine islv_fst ?_ (by with_reducible assumption))
    | (refine islv_snd ?_ (by with_reducible assumption)) | (with_reducible intro x) | dsimp +zetaDelta only)

theorem State.roceEndHost_islv (s : State) (host : Nat) (hs : s.islv = (I, false, F))
    : (State.roceEndHost s host).islv = (I, false, F) := by
  unfold State.roceEndHost
  repeat' (first
    | (with_reducible first
        | assumption | apply State.roceEnd_islv | apply State.roceFrame_islv | refine islv_foldl ?_ (fun x y hx => ?_)
        | refine islv_foldl_fst ?_ (fun x y hx => ?_))
    | simp -zeta only [↓islv_mk]
    | (extract_lets +onlyGivenNames t; refine islv_cut  (t := t) ?_ ?_; all_goals first | (intro ht; clear_value t) | subst t)
    | extract_lets +onlyGivenNames t | split | (refine islv_fst ?_ (by with_reducible assumption))
    | (refine islv_snd ?_ (by with_reducible assumption)) | (with_reducible intro x) | dsimp +zetaDelta only)

theorem State.roceOut_islv (s : State) (k : Nat) (o : Out) (hs : s.islv = (I, false, F))
    : (State.roceOut s k o).islv = (I, false, F) := by
  unfold State.roceOut
  repeat' (first
    | (with_reducible first
        | assumption | apply State.roceFrame_islv | refine islv_foldl ?_ (fun x y hx => ?_)
        | refine islv_foldl_fst ?_ (fun x y hx => ?_))
    | simp -zeta only [↓islv_mk]
    | (extract_lets +onlyGivenNames t; refine islv_cut  (t := t) ?_ ?_; all_goals first | (intro ht; clear_value t) | subst t)
    | extract_lets +onlyGivenNames t | split | (refine islv_fst ?_ (by with_reducible assumption))
    | (refine islv_snd ?_ (by with_reducible assumption)) | (with_reducible intro x) | dsimp +zetaDelta only)

theorem State.nvReply_islv (s : State) (k cid dw0 status : Nat) (data : Bytes) (hs : s.islv = (I, false, F))
    : (State.nvReply s k cid dw0 status data).islv = (I, false, F) := by
  unfold State.nvReply
  repeat' (first
    | (with_reducible first
        | assumption | apply State.roceFrame_islv | refine islv_foldl ?_ (fun x y hx => ?_)
        | refine islv_foldl_fst ?_ (fun x y hx => ?_))
    | simp -zeta only [↓islv_mk]
    | (extract_lets +onlyGivenNames t; refine islv_cut  (t := t) ?_ ?_; all_goals first | (intro ht; clear_value t) | subst t)
    | extract_lets +onlyGivenNames t | split | (refine islv_fst ?_ (by with_reducible assumption))
    | (refine islv_snd ?_ (by with_reducible assumption)) | (with_reducible intro x) | dsimp +zetaDelta only)

theorem State.transient_islv (s : State) (k tenant access addr len rkey : Nat) (hs : s.islv = (I, false, F))
    : ∀ t, (State.transient s k tenant access addr len rkey) = some t → t.1.islv = (I, false, F) := by
  unfold State.transient
  intro t ht
  simp only [Option.map_eq_some_iff] at ht
  obtain ⟨i, _, rfl⟩ := ht
  exact State.putKey_islv _ _ _ hs

theorem State.roceAckTaken_islv (s : State) (k psn : Nat) (rec : Option Nat) (hs : s.islv = (I, false, F))
    : (State.roceAckTaken s k psn rec).islv = (I, false, F) := by
  unfold State.roceAckTaken
  repeat' (first
    | (with_reducible first
        | assumption | apply State.updRoce_islv | apply State.roceOut_islv | refine islv_foldl ?_ (fun x y hx => ?_)
        | refine islv_foldl_fst ?_ (fun x y hx => ?_))
    | simp -zeta only [↓islv_mk]
    | (extract_lets +onlyGivenNames t; refine islv_cut  (t := t) ?_ ?_; all_goals first | (intro ht; clear_value t) | subst t)
    | extract_lets +onlyGivenNames t | split | (refine islv_fst ?_ (by with_reducible assumption))
    | (refine islv_snd ?_ (by with_reducible assumption)) | (with_reducible intro x) | dsimp +zetaDelta only)

theorem State.roceAckLater_islv (s : State) (k psn : Nat) (hs : s.islv = (I, false, F))
    : (State.roceAckLater s k psn).islv = (I, false, F) := by
  unfold State.roceAckLater
  repeat' (first
    | (with_reducible first
        | assumption | apply State.updRoce_islv | apply State.roceAckTaken_islv
        | refine islv_foldl ?_ (fun x y hx => ?_) | refine islv_foldl_fst ?_ (fun x y hx => ?_))
    | simp -zeta only [↓islv_mk]
    | (extract_lets +onlyGivenNames t; refine islv_cut  (t := t) ?_ ?_; all_goals first | (intro ht; clear_value t) | subst t)
    | extract_lets +onlyGivenNames t | split | (refine islv_fst ?_ (by with_reducible assumption))
    | (refine islv_snd ?_ (by with_reducible assumption)) | (with_reducible intro x) | dsimp +zetaDelta only)

theorem State.roceInline_islv (s : State) (k psn q : Nat) (entry : Bytes) (hs : s.islv = (I, false, F))
    : (State.roceInline s k psn q entry).islv = (I, false, F) := by
  unfold State.roceInline
  repeat' (first
    | (with_reducible first
        | assumption | apply State.inlineDb_islv | apply State.dropKey_islv | apply State.roceOut_islv
        | apply State.roceAckTaken_islv | apply State.roceAckLater_islv | refine islv_foldl ?_ (fun x y hx => ?_)
        | refine islv_foldl_fst ?_ (fun x y hx => ?_))
    | simp -zeta only [↓islv_mk]
    | (extract_lets +onlyGivenNames t; refine islv_cut  (t := t) ?_ ?_; all_goals first | (intro ht; clear_value t) | subst t)
    | extract_lets +onlyGivenNames t | split | (refine islv_fst ?_ (by with_reducible assumption))
    | (refine islv_snd ?_ (by with_reducible assumption)) | (with_reducible intro x) | dsimp +zetaDelta only)

theorem State.roceCapsule_islv (s : State) (k psn : Nat) (b : Bytes) (extra : Bool) (hs : s.islv = (I, false, F))
    : (State.roceCapsule s k psn b extra).islv = (I, false, F) := by
  unfold State.roceCapsule
  repeat' (first
    | (with_reducible first
        | assumption | apply State.roceDrop_islv | apply State.roceOut_islv | apply State.roceAckTaken_islv
        | apply State.nvReply_islv | apply State.roceInline_islv | apply State.updRoce_islv | apply State.roceSend_islv
        | refine islv_foldl ?_ (fun x y hx => ?_) | refine islv_foldl_fst ?_ (fun x y hx => ?_))
    | refine State.transient_islv _ _ _ _ _ _ _ ?_ _ (by with_reducible assumption) | simp -zeta only [↓islv_mk]
    | (extract_lets +onlyGivenNames t; refine islv_cut  (t := t) ?_ ?_; all_goals first | (intro ht; clear_value t) | subst t)
    | extract_lets +onlyGivenNames t | split | (refine islv_fst ?_ (by with_reducible assumption))
    | (refine islv_snd ?_ (by with_reducible assumption)) | (with_reducible intro x) | dsimp +zetaDelta only)

theorem State.capsuleDoor_islv (s : State) (conn psn : Nat) (capsule : Bytes) (extra : Bool) (hs : s.islv = (I, false, F))
    : (State.capsuleDoor s conn psn capsule extra).islv = (I, false, F) := by
  unfold State.capsuleDoor
  repeat' (first
    | (with_reducible first
        | assumption | refine State.atQpe_islv _ _ _ ?_ (fun x0 hx => ?_) | apply State.roceCapsule_islv
        | refine islv_foldl ?_ (fun x y hx => ?_) | refine islv_foldl_fst ?_ (fun x y hx => ?_))
    | simp -zeta only [↓islv_mk]
    | (extract_lets +onlyGivenNames t; refine islv_cut  (t := t) ?_ ?_; all_goals first | (intro ht; clear_value t) | subst t)
    | extract_lets +onlyGivenNames t | split | (refine islv_fst ?_ (by with_reducible assumption))
    | (refine islv_snd ?_ (by with_reducible assumption)) | (with_reducible intro x) | dsimp +zetaDelta only)

theorem State.dsmArrive_islv (s : State) (k cid : Nat) (range : Option Bytes) (hs : s.islv = (I, false, F))
    : (State.dsmArrive s k cid range).islv = (I, false, F) := by
  unfold State.dsmArrive
  repeat' (first
    | (with_reducible first
        | assumption | apply State.roceDrop_islv | apply State.roceEndHost_islv | apply State.setRoce_islv
        | apply State.dropKey_islv | apply State.inlineDb_islv | apply State.rocePump_islv | apply State.updRoce_islv
        | refine islv_foldl ?_ (fun x y hx => ?_) | refine islv_foldl_fst ?_ (fun x y hx => ?_))
    | simp -zeta only [↓islv_mk]
    | (extract_lets +onlyGivenNames t; refine islv_cut  (t := t) ?_ ?_; all_goals first | (intro ht; clear_value t) | subst t)
    | extract_lets +onlyGivenNames t | split | (refine islv_fst ?_ (by with_reducible assumption))
    | (refine islv_snd ?_ (by with_reducible assumption)) | (with_reducible intro x) | dsimp +zetaDelta only)

theorem State.rangeDoor_islv (s : State) (conn cid : Nat) (range : Option Bytes) (hs : s.islv = (I, false, F))
    : (State.rangeDoor s conn cid range).islv = (I, false, F) := by
  unfold State.rangeDoor
  repeat' (first
    | (with_reducible first
        | assumption | refine State.atQpe_islv _ _ _ ?_ (fun x0 hx => ?_) | apply State.dsmArrive_islv
        | refine islv_foldl ?_ (fun x y hx => ?_) | refine islv_foldl_fst ?_ (fun x y hx => ?_))
    | simp -zeta only [↓islv_mk]
    | (extract_lets +onlyGivenNames t; refine islv_cut  (t := t) ?_ ?_; all_goals first | (intro ht; clear_value t) | subst t)
    | extract_lets +onlyGivenNames t | split | (refine islv_fst ?_ (by with_reducible assumption))
    | (refine islv_snd ?_ (by with_reducible assumption)) | (with_reducible intro x) | dsimp +zetaDelta only)

theorem State.unsupported_islv (s : State) (kind : Nat) (hs : s.islv = (I, false, F))
    : (State.unsupported s kind).islv = (I, false, F) := by
  unfold State.unsupported
  repeat' (first
    | (with_reducible first
        | assumption | apply State.emit_islv | refine islv_foldl ?_ (fun x y hx => ?_)
        | refine islv_foldl_fst ?_ (fun x y hx => ?_))
    | simp -zeta only [↓islv_mk]
    | (extract_lets +onlyGivenNames t; refine islv_cut  (t := t) ?_ ?_; all_goals first | (intro ht; clear_value t) | subst t)
    | extract_lets +onlyGivenNames t | split | (refine islv_fst ?_ (by with_reducible assumption))
    | (refine islv_snd ?_ (by with_reducible assumption)) | (with_reducible intro x) | dsimp +zetaDelta only)

theorem State.slotWrite_islv (s : State) (f q : Nat) (d : Door) (g : State → State) (hs : s.islv = (I, false, F)) (hg : ∀ x0, x0.islv = (I, false, F) → (g x0).islv = (I, false, F))
    : (State.slotWrite s f q d g).islv = (I, false, F) := by
  unfold State.slotWrite
  repeat' (first
    | (with_reducible first
        | assumption | apply hg | apply State.unsupported_islv | apply State.count_islv
        | refine State.atQpe_islv _ _ _ ?_ (fun x0 hx => ?_) | refine islv_foldl ?_ (fun x y hx => ?_)
        | refine islv_foldl_fst ?_ (fun x y hx => ?_))
    | simp -zeta only [↓islv_mk]
    | (extract_lets +onlyGivenNames t; refine islv_cut  (t := t) ?_ ?_; all_goals first | (intro ht; clear_value t) | subst t)
    | extract_lets +onlyGivenNames t | split | (refine islv_fst ?_ (by with_reducible assumption))
    | (refine islv_snd ?_ (by with_reducible assumption)) | (with_reducible intro x) | dsimp +zetaDelta only)

theorem State.slotBad_islv (s : State) (q : Nat) (hs : s.islv = (I, false, F))
    : (State.slotBad s q).islv = (I, false, F) := by
  unfold State.slotBad
  repeat' (first
    | (with_reducible first
        | assumption | apply State.count_islv | apply State.badDoorbell_islv | refine islv_foldl ?_ (fun x y hx => ?_)
        | refine islv_foldl_fst ?_ (fun x y hx => ?_))
    | simp -zeta only [↓islv_mk]
    | (extract_lets +onlyGivenNames t; refine islv_cut  (t := t) ?_ ?_; all_goals first | (intro ht; clear_value t) | subst t)
    | extract_lets +onlyGivenNames t | split | (refine islv_fst ?_ (by with_reducible assumption))
    | (refine islv_snd ?_ (by with_reducible assumption)) | (with_reducible intro x) | dsimp +zetaDelta only)

theorem State.epSqTail_islv (s : State) (f q v : Nat) (hs : s.islv = (I, false, F))
    : (State.epSqTail s f q v).islv = (I, false, F) := by
  unfold State.epSqTail
  repeat' (first
    | (with_reducible first
        | assumption | refine State.slotWrite_islv _ _ _ _ _ ?_ (fun x0 hx => ?_) | apply State.sqTail_islv
        | apply State.slotBad_islv | apply State.pump_islv | refine islv_foldl ?_ (fun x y hx => ?_)
        | refine islv_foldl_fst ?_ (fun x y hx => ?_))
    | simp -zeta only [↓islv_mk]
    | (extract_lets +onlyGivenNames t; refine islv_cut  (t := t) ?_ ?_; all_goals first | (intro ht; clear_value t) | subst t)
    | extract_lets +onlyGivenNames t | split | (refine islv_fst ?_ (by with_reducible assumption))
    | (refine islv_snd ?_ (by with_reducible assumption)) | (with_reducible intro x) | dsimp +zetaDelta only)

theorem State.epCqHead_islv (s : State) (f q v : Nat) (hs : s.islv = (I, false, F))
    : (State.epCqHead s f q v).islv = (I, false, F) := by
  unfold State.epCqHead
  repeat' (first
    | (with_reducible first
        | assumption | refine State.slotWrite_islv _ _ _ _ _ ?_ (fun x0 hx => ?_) | apply State.slotBad_islv
        | apply State.cqHeadDb_islv | apply State.pump_islv | refine islv_foldl ?_ (fun x y hx => ?_)
        | refine islv_foldl_fst ?_ (fun x y hx => ?_))
    | simp -zeta only [↓islv_mk]
    | (extract_lets +onlyGivenNames t; refine islv_cut  (t := t) ?_ ?_; all_goals first | (intro ht; clear_value t) | subst t)
    | extract_lets +onlyGivenNames t | split | (refine islv_fst ?_ (by with_reducible assumption))
    | (refine islv_snd ?_ (by with_reducible assumption)) | (with_reducible intro x) | dsimp +zetaDelta only)

theorem State.epInline_islv (s : State) (f q : Nat) (b : Bytes) (hs : s.islv = (I, false, F))
    : (State.epInline s f q b).islv = (I, false, F) := by
  unfold State.epInline
  repeat' (first
    | (with_reducible first
        | assumption | refine State.slotWrite_islv _ _ _ _ _ ?_ (fun x0 hx => ?_) | apply State.slotBad_islv
        | apply State.inlineDb_islv | apply State.updQp_islv | refine islv_foldl ?_ (fun x y hx => ?_)
        | refine islv_foldl_fst ?_ (fun x y hx => ?_))
    | simp -zeta only [↓islv_mk]
    | (extract_lets +onlyGivenNames t; refine islv_cut  (t := t) ?_ ?_; all_goals first | (intro ht; clear_value t) | subst t)
    | extract_lets +onlyGivenNames t | split | (refine islv_fst ?_ (by with_reducible assumption))
    | (refine islv_snd ?_ (by with_reducible assumption)) | (with_reducible intro x) | dsimp +zetaDelta only)

theorem State.withdraw_islv (s : State) (f : Nat) (hs : s.islv = (I, false, F))
    : (State.withdraw s f).islv = (I, false, F) := by
  unfold State.withdraw
  repeat' (first
    | (with_reducible first
        | assumption | apply State.count_islv | apply State.setFunc_islv | apply State.dropEgress_islv
        | apply State.updCmd_islv | apply State.endEarly_islv | apply State.descFail_islv | apply State.qpError_islv
        | apply State.flow_islv | refine islv_foldl ?_ (fun x y hx => ?_)
        | refine islv_foldl_fst ?_ (fun x y hx => ?_))
    | simp -zeta only [↓islv_mk]
    | (extract_lets +onlyGivenNames t; refine islv_cut  (t := t) ?_ ?_; all_goals first | (intro ht; clear_value t) | subst t)
    | extract_lets +onlyGivenNames t | split | (refine islv_fst ?_ (by with_reducible assumption))
    | (refine islv_snd ?_ (by with_reducible assumption)) | (with_reducible intro x) | dsimp +zetaDelta only)

theorem State.funcReset_islv (s : State) (f : Nat) (hs : s.islv = (I, false, F))
    : (State.funcReset s f).islv = (I, false, F) := by
  unfold State.funcReset
  repeat' (first
    | (with_reducible first
        | assumption | apply State.setFunc_islv | apply State.resetReach_islv | apply State.flr_islv
        | apply State.flow_islv | refine islv_foldl ?_ (fun x y hx => ?_)
        | refine islv_foldl_fst ?_ (fun x y hx => ?_))
    | simp -zeta only [↓islv_mk]
    | (extract_lets +onlyGivenNames t; refine islv_cut  (t := t) ?_ ?_; all_goals first | (intro ht; clear_value t) | subst t)
    | extract_lets +onlyGivenNames t | split | (refine islv_fst ?_ (by with_reducible assumption))
    | (refine islv_snd ?_ (by with_reducible assumption)) | (with_reducible intro x) | dsimp +zetaDelta only)

theorem State.resetFuncs_islv (s : State) (a b : Nat) (hs : s.islv = (I, false, F))
    : (State.resetFuncs s a b).islv = (I, false, F) := by
  unfold State.resetFuncs
  repeat' (first
    | (with_reducible first
        | assumption | apply State.withdraw_islv | apply State.funcReset_islv | refine islv_foldl ?_ (fun x y hx => ?_)
        | refine islv_foldl_fst ?_ (fun x y hx => ?_))
    | simp -zeta only [↓islv_mk]
    | (extract_lets +onlyGivenNames t; refine islv_cut  (t := t) ?_ ?_; all_goals first | (intro ht; clear_value t) | subst t)
    | extract_lets +onlyGivenNames t | split | (refine islv_fst ?_ (by with_reducible assumption))
    | (refine islv_snd ?_ (by with_reducible assumption)) | (with_reducible intro x) | dsimp +zetaDelta only)

theorem State.flr_islv (s : State) (f : Nat) (hs : s.islv = (I, false, F)) : (State.flr s f).islv = (I, false, F) := by
  unfold State.flr
  repeat' (first
    | (with_reducible first
        | assumption | apply State.resetFuncs_islv | refine islv_foldl ?_ (fun x y hx => ?_)
        | refine islv_foldl_fst ?_ (fun x y hx => ?_))
    | simp -zeta only [↓islv_mk]
    | (extract_lets +onlyGivenNames t; refine islv_cut  (t := t) ?_ ?_; all_goals first | (intro ht; clear_value t) | subst t)
    | extract_lets +onlyGivenNames t | split | (refine islv_fst ?_ (by with_reducible assumption))
    | (refine islv_snd ?_ (by with_reducible assumption)) | (with_reducible intro x) | dsimp +zetaDelta only)

theorem State.epLinkDown_islv (s : State) (hs : s.islv = (I, false, F)) : (State.epLinkDown s).islv = (I, false, F) := by
  unfold State.epLinkDown
  repeat' (first
    | (with_reducible first
        | assumption | apply State.resetFuncs_islv | apply State.setField_islv | apply State.event_islv
        | refine islv_foldl ?_ (fun x y hx => ?_) | refine islv_foldl_fst ?_ (fun x y hx => ?_))
    | simp -zeta only [↓islv_mk]
    | (extract_lets +onlyGivenNames t; refine islv_cut  (t := t) ?_ ?_; all_goals first | (intro ht; clear_value t) | subst t)
    | extract_lets +onlyGivenNames t | split | (refine islv_fst ?_ (by with_reducible assumption))
    | (refine islv_snd ?_ (by with_reducible assumption)) | (with_reducible intro x) | dsimp +zetaDelta only)

theorem State.doorsOpen_islv (s : State) (hs : s.islv = (I, false, F)) : (State.doorsOpen s).islv = (I, false, F) := by
  unfold State.doorsOpen
  repeat' (first
    | (with_reducible first
        | assumption | apply State.sqTail_islv | apply State.epSqTail_islv | apply State.epCqHead_islv
        | apply State.epInline_islv | apply State.odtDoor_islv | apply State.odtInlineDoor_islv
        | apply State.capsuleDoor_islv | apply State.rangeDoor_islv | refine islv_foldl ?_ (fun x y hx => ?_)
        | refine islv_foldl_fst ?_ (fun x y hx => ?_))
    | simp -zeta only [↓islv_mk]
    | (extract_lets +onlyGivenNames t; refine islv_cut  (t := t) ?_ ?_; all_goals first | (intro ht; clear_value t) | subst t)
    | extract_lets +onlyGivenNames t | split | (refine islv_fst ?_ (by with_reducible assumption))
    | (refine islv_snd ?_ (by with_reducible assumption)) | (with_reducible intro x) | dsimp +zetaDelta only)

theorem State.losePower_islv (s : State) (i : Nat) (hs : s.islv = (I, false, F))
    : (State.losePower s i).islv = (I, false, F) := by
  unfold State.losePower
  extract_lets t
  have h : t.islv = (I, false, F) := hs
  clear_value t
  repeat' (first | with_reducible assumption | with_reducible refine islv_ite (fun _ => ?_) (fun _ => ?_) | exact h)

theorem State.createWrites_islv (s : State) (gi : Nat) (g : Group) (sl : Nat) (hs : s.islv = (I, false, F))
    : (State.createWrites s gi g sl).islv = (I, false, F) := by
  unfold State.createWrites
  repeat' (first
    | (with_reducible first
        | assumption | apply State.addMem_islv | apply State.createGroup_islv | refine islv_foldl ?_ (fun x y hx => ?_)
        | refine islv_foldl_fst ?_ (fun x y hx => ?_))
    | simp -zeta only [↓islv_mk]
    | (extract_lets +onlyGivenNames t; refine islv_cut  (t := t) ?_ ?_; all_goals first | (intro ht; clear_value t) | subst t)
    | extract_lets +onlyGivenNames t | split | (refine islv_fst ?_ (by with_reducible assumption))
    | (refine islv_snd ?_ (by with_reducible assumption)) | (with_reducible intro x) | dsimp +zetaDelta only)

theorem State.createGroup_islv (s : State) (c : Cmd) (hs : s.islv = (I, false, F))
    : (State.createGroup s c).islv = (I, false, F) := by
  unfold State.createGroup
  repeat' (first
    | (with_reducible first
        | assumption | apply State.drew_islv | apply State.markPast_islv | apply State.markWaiting_islv
        | apply State.createWrites_islv | apply State.flow_islv | refine islv_foldl ?_ (fun x y hx => ?_)
        | refine islv_foldl_fst ?_ (fun x y hx => ?_))
    | simp -zeta only [↓islv_mk]
    | (extract_lets +onlyGivenNames t; refine islv_cut  (t := t) ?_ ?_; all_goals first | (intro ht; clear_value t) | subst t)
    | extract_lets +onlyGivenNames t | split | (refine islv_fst ?_ (by with_reducible assumption))
    | (refine islv_snd ?_ (by with_reducible assumption)) | (with_reducible intro x) | dsimp +zetaDelta only)

theorem State.logProgress_islv (s : State) (hs : s.islv = (I, false, F)) : (State.logProgress s).islv = (I, false, F) := by
  unfold State.logProgress
  repeat' (first
    | (with_reducible first
        | assumption | apply State.postTry_islv | apply State.roceFrame_islv | apply State.updRoce_islv
        | apply State.rocePump_islv | apply State.flow_islv | refine islv_foldl ?_ (fun x y hx => ?_)
        | refine islv_foldl_fst ?_ (fun x y hx => ?_))
    | simp -zeta only [↓islv_mk]
    | (extract_lets +onlyGivenNames t; refine islv_cut  (t := t) ?_ ?_; all_goals first | (intro ht; clear_value t) | subst t)
    | extract_lets +onlyGivenNames t | split | (refine islv_fst ?_ (by with_reducible assumption))
    | (refine islv_snd ?_ (by with_reducible assumption)) | (with_reducible intro x) | dsimp +zetaDelta only)

theorem State.waitsEnd_islv (s : State) (hs : s.islv = (I, false, F)) : (State.waitsEnd s).islv = (I, false, F) := by
  unfold State.waitsEnd
  repeat' (first
    | (with_reducible first
        | assumption | apply State.winAcked_islv | apply State.markCheck_islv | apply State.pushCreating_islv
        | apply State.logProgress_islv | refine islv_foldl ?_ (fun x y hx => ?_)
        | refine islv_foldl_fst ?_ (fun x y hx => ?_))
    | simp -zeta only [↓islv_mk]
    | (extract_lets +onlyGivenNames t; refine islv_cut  (t := t) ?_ ?_; all_goals first | (intro ht; clear_value t) | subst t)
    | extract_lets +onlyGivenNames t | split | (refine islv_fst ?_ (by with_reducible assumption))
    | (refine islv_snd ?_ (by with_reducible assumption)) | (with_reducible intro x) | dsimp +zetaDelta only)

theorem State.unpair_islv (s : State) (hs : s.islv = (I, false, F)) : (State.unpair s).islv = (I, false, F) := by
  unfold State.unpair
  repeat' (first
    | (with_reducible first
        | assumption | apply State.bulk_islv | apply State.fatal_islv | refine islv_foldl ?_ (fun x y hx => ?_)
        | refine islv_foldl_fst ?_ (fun x y hx => ?_))
    | simp -zeta only [↓islv_mk]
    | (extract_lets +onlyGivenNames t; refine islv_cut  (t := t) ?_ ?_; all_goals first | (intro ht; clear_value t) | subst t)
    | extract_lets +onlyGivenNames t | split | (refine islv_fst ?_ (by with_reducible assumption))
    | (refine islv_snd ?_ (by with_reducible assumption)) | (with_reducible intro x) | dsimp +zetaDelta only)

theorem State.assertFence_islv (s : State) (hs : s.islv = (I, false, F)) : (State.assertFence s).islv = (I, false, F) := by
  unfold State.assertFence
  repeat' (first
    | (with_reducible first
        | assumption | apply State.raise_islv | refine islv_foldl ?_ (fun x y hx => ?_)
        | refine islv_foldl_fst ?_ (fun x y hx => ?_))
    | simp -zeta only [↓islv_mk]
    | (extract_lets +onlyGivenNames t; refine islv_cut  (t := t) ?_ ?_; all_goals first | (intro ht; clear_value t) | subst t)
    | extract_lets +onlyGivenNames t | split | (refine islv_fst ?_ (by with_reducible assumption))
    | (refine islv_snd ?_ (by with_reducible assumption)) | (with_reducible intro x) | dsimp +zetaDelta only)

theorem State.sendCopy_islv (s : State) (hs : s.islv = (I, false, F)) : (State.sendCopy s).islv = (I, false, F) := by
  unfold State.sendCopy
  repeat' (first
    | (with_reducible first
        | assumption | apply State.mirror_islv | apply State.lines_islv | apply State.emit_islv
        | apply State.commit_islv | apply State.count_islv | apply State.take_islv
        | refine islv_foldl ?_ (fun x y hx => ?_) | refine islv_foldl_fst ?_ (fun x y hx => ?_))
    | simp -zeta only [↓islv_mk]
    | (extract_lets +onlyGivenNames t; refine islv_cut  (t := t) ?_ ?_; all_goals first | (intro ht; clear_value t) | subst t)
    | extract_lets +onlyGivenNames t | split | (refine islv_fst ?_ (by with_reducible assumption))
    | (refine islv_snd ?_ (by with_reducible assumption)) | (with_reducible intro x) | dsimp +zetaDelta only)

theorem State.cutCopy_islv (s : State) (num : Nat) (lines : List (Nat × Nat)) (image : Bool) (hs : s.islv = (I, false, F))
    : (State.cutCopy s num lines image).islv = (I, false, F) := by
  unfold State.cutCopy
  repeat' (first
    | (with_reducible first
        | assumption | apply State.lines_islv | apply State.sendCopy_islv | refine islv_foldl ?_ (fun x y hx => ?_)
        | refine islv_foldl_fst ?_ (fun x y hx => ?_))
    | simp -zeta only [↓islv_mk]
    | (extract_lets +onlyGivenNames t; refine islv_cut  (t := t) ?_ ?_; all_goals first | (intro ht; clear_value t) | subst t)
    | extract_lets +onlyGivenNames t | split | (refine islv_fst ?_ (by with_reducible assumption))
    | (refine islv_snd ?_ (by with_reducible assumption)) | (with_reducible intro x) | dsimp +zetaDelta only)

theorem State.releaseShelf_islv (s : State) (hs : s.islv = (I, false, F)) : (State.releaseShelf s).islv = (I, false, F) := by
  unfold State.releaseShelf
  repeat' (first
    | (with_reducible first
        | assumption | apply State.count_islv | apply State.assertFence_islv | apply State.lines_islv
        | apply State.mirrorLog_islv | apply State.cutCopy_islv | refine islv_foldl ?_ (fun x y hx => ?_)
        | refine islv_foldl_fst ?_ (fun x y hx => ?_))
    | simp -zeta only [↓islv_mk]
    | (extract_lets +onlyGivenNames t; refine islv_cut  (t := t) ?_ ?_; all_goals first | (intro ht; clear_value t) | subst t)
    | extract_lets +onlyGivenNames t | split | (refine islv_fst ?_ (by with_reducible assumption))
    | (refine islv_snd ?_ (by with_reducible assumption)) | (with_reducible intro x) | dsimp +zetaDelta only)

theorem State.bulkNext_islv (s : State) (hs : s.islv = (I, false, F)) : (State.bulkNext s).islv = (I, false, F) := by
  unfold State.bulkNext
  repeat' (first
    | (with_reducible first
        | assumption | apply State.bulk_islv | apply State.mirror_islv | apply State.take_islv
        | refine islv_foldl ?_ (fun x y hx => ?_) | refine islv_foldl_fst ?_ (fun x y hx => ?_))
    | simp -zeta only [↓islv_mk]
    | (extract_lets +onlyGivenNames t; refine islv_cut  (t := t) ?_ ?_; all_goals first | (intro ht; clear_value t) | subst t)
    | extract_lets +onlyGivenNames t | split | (refine islv_fst ?_ (by with_reducible assumption))
    | (refine islv_snd ?_ (by with_reducible assumption)) | (with_reducible intro x) | dsimp +zetaDelta only)

theorem State.mirrorLost_islv (s : State) (hs : s.islv = (I, false, F)) : (State.mirrorLost s).islv = (I, false, F) := by
  unfold State.mirrorLost
  repeat' (first
    | (with_reducible first
        | assumption | apply State.fatal_islv | apply State.err_islv | apply State.raise_islv | apply State.unpair_islv
        | apply State.waitsEnd_islv | refine islv_foldl ?_ (fun x y hx => ?_)
        | refine islv_foldl_fst ?_ (fun x y hx => ?_))
    | simp -zeta only [↓islv_mk]
    | (extract_lets +onlyGivenNames t; refine islv_cut  (t := t) ?_ ?_; all_goals first | (intro ht; clear_value t) | subst t)
    | extract_lets +onlyGivenNames t | split | (refine islv_fst ?_ (by with_reducible assumption))
    | (refine islv_snd ?_ (by with_reducible assumption)) | (with_reducible intro x) | dsimp +zetaDelta only)

theorem State.mirrorHalf_islv (s : State) (half : Nat) (up : Bool) (hs : s.islv = (I, false, F))
    : (State.mirrorHalf s half up).islv = (I, false, F) := by
  unfold State.mirrorHalf
  repeat' (first
    | (with_reducible first
        | assumption | apply State.mirrorLost_islv | apply State.raise_islv | apply State.bulkNext_islv
        | refine islv_foldl ?_ (fun x y hx => ?_) | refine islv_foldl_fst ?_ (fun x y hx => ?_))
    | simp -zeta only [↓islv_mk]
    | (extract_lets +onlyGivenNames t; refine islv_cut  (t := t) ?_ ?_; all_goals first | (intro ht; clear_value t) | subst t)
    | extract_lets +onlyGivenNames t | split | (refine islv_fst ?_ (by with_reducible assumption))
    | (refine islv_snd ?_ (by with_reducible assumption)) | (with_reducible intro x) | dsimp +zetaDelta only)

theorem State.sampleIslands_islv (s : State) (p : Nat → Bool) (hs : s.islv = (I, false, F))
    : (State.sampleIslands s p).islv = (I, false, F) := by
  unfold State.sampleIslands
  repeat' (first
    | (with_reducible first
        | assumption | refine islv_foldl ?_ (fun x y hx => ?_) | refine islv_foldl_fst ?_ (fun x y hx => ?_))
    | simp -zeta only [↓islv_mk]
    | (extract_lets +onlyGivenNames t; refine islv_cut  (t := t) ?_ ?_; all_goals first | (intro ht; clear_value t) | subst t)
    | extract_lets +onlyGivenNames t | split | (refine islv_fst ?_ (by with_reducible assumption))
    | (refine islv_snd ?_ (by with_reducible assumption)) | (with_reducible intro x) | dsimp +zetaDelta only)

theorem State.portsOff_islv (s : State) (n : Nat) (hs : s.islv = (I, false, F))
    : (State.portsOff s n).islv = (I, false, F) := by
  unfold State.portsOff
  repeat' (first
    | (with_reducible first
        | assumption | apply State.linkDown_islv | apply State.setField_islv | apply State.cfgPut_islv
        | refine islv_foldl ?_ (fun x y hx => ?_) | refine islv_foldl_fst ?_ (fun x y hx => ?_))
    | simp -zeta only [↓islv_mk]
    | (extract_lets +onlyGivenNames t; refine islv_cut  (t := t) ?_ ?_; all_goals first | (intro ht; clear_value t) | subst t)
    | extract_lets +onlyGivenNames t | split | (refine islv_fst ?_ (by with_reducible assumption))
    | (refine islv_snd ?_ (by with_reducible assumption)) | (with_reducible intro x) | dsimp +zetaDelta only)

theorem State.dataDown_islv (s : State) (n : Nat) (hs : s.islv = (I, false, F))
    : (State.dataDown s n).islv = (I, false, F) := by
  unfold State.dataDown
  repeat' (first
    | (with_reducible first
        | assumption | apply State.linkDown_islv | apply State.setDrive_islv | apply State.driveLost_islv
        | apply State.mirrorHalf_islv | apply State.epLinkDown_islv | refine islv_foldl ?_ (fun x y hx => ?_)
        | refine islv_foldl_fst ?_ (fun x y hx => ?_))
    | simp -zeta only [↓islv_mk]
    | (extract_lets +onlyGivenNames t; refine islv_cut  (t := t) ?_ ?_; all_goals first | (intro ht; clear_value t) | subst t)
    | extract_lets +onlyGivenNames t | split | (refine islv_fst ?_ (by with_reducible assumption))
    | (refine islv_snd ?_ (by with_reducible assumption)) | (with_reducible intro x) | dsimp +zetaDelta only)

end Sys2Proof.Machine
end

