-- ==== Sys2Proof/Laws/State.lean ====
section
/-! SUPPORT. The basic updates of the state: each leaves every field alone that it does not name. -/

namespace Sys2Proof.Machine

@[simp] theorem State.setReg_variant (s : State) (r : Reg) (v : Nat) (i : Nat) : (State.setReg s r v i).variant = s.variant := by
  unfold State.setReg; rfl
@[simp] theorem State.setReg_now (s : State) (r : Reg) (v : Nat) (i : Nat) : (State.setReg s r v i).now = s.now := by
  unfold State.setReg; rfl
@[simp] theorem State.setReg_isl (s : State) (r : Reg) (v : Nat) (i : Nat) : (State.setReg s r v i).isl = s.isl := by
  unfold State.setReg; rfl
@[simp] theorem State.setReg_mem (s : State) (r : Reg) (v : Nat) (i : Nat) : (State.setReg s r v i).mem = s.mem := by
  unfold State.setReg; rfl
@[simp] theorem State.setReg_fab (s : State) (r : Reg) (v : Nat) (i : Nat) : (State.setReg s r v i).fab = s.fab := by
  unfold State.setReg; rfl
@[simp] theorem State.setReg_icu (s : State) (r : Reg) (v : Nat) (i : Nat) : (State.setReg s r v i).icu = s.icu := by
  unfold State.setReg; rfl
@[simp] theorem State.setReg_glm (s : State) (r : Reg) (v : Nat) (i : Nat) : (State.setReg s r v i).glm = s.glm := by
  unfold State.setReg; rfl
@[simp] theorem State.setReg_gnm (s : State) (r : Reg) (v : Nat) (i : Nat) : (State.setReg s r v i).gnm = s.gnm := by
  unfold State.setReg; rfl
@[simp] theorem State.setReg_qpe (s : State) (r : Reg) (v : Nat) (i : Nat) : (State.setReg s r v i).qpe = s.qpe := by
  unfold State.setReg; rfl
@[simp] theorem State.setReg_cls (s : State) (r : Reg) (v : Nat) (i : Nat) : (State.setReg s r v i).cls = s.cls := by
  unfold State.setReg; rfl
@[simp] theorem State.setReg_str (s : State) (r : Reg) (v : Nat) (i : Nat) : (State.setReg s r v i).str = s.str := by
  unfold State.setReg; rfl
@[simp] theorem State.setReg_net (s : State) (r : Reg) (v : Nat) (i : Nat) : (State.setReg s r v i).net = s.net := by
  unfold State.setReg; rfl
@[simp] theorem State.setReg_epf (s : State) (r : Reg) (v : Nat) (i : Nat) : (State.setReg s r v i).epf = s.epf := by
  unfold State.setReg; rfl
@[simp] theorem State.setReg_xbr (s : State) (r : Reg) (v : Nat) (i : Nat) : (State.setReg s r v i).xbr = s.xbr := by
  unfold State.setReg; rfl
@[simp] theorem State.setReg_cph (s : State) (r : Reg) (v : Nat) (i : Nat) : (State.setReg s r v i).cph = s.cph := by
  unfold State.setReg; rfl
@[simp] theorem State.setReg_shd (s : State) (r : Reg) (v : Nat) (i : Nat) : (State.setReg s r v i).shd = s.shd := by
  unfold State.setReg; rfl
@[simp] theorem State.setReg_spm (s : State) (r : Reg) (v : Nat) (i : Nat) : (State.setReg s r v i).spm = s.spm := by
  unfold State.setReg; rfl
@[simp] theorem State.setReg_fct (s : State) (r : Reg) (v : Nat) (i : Nat) : (State.setReg s r v i).fct = s.fct := by
  unfold State.setReg; rfl
@[simp] theorem State.setReg_sys (s : State) (r : Reg) (v : Nat) (i : Nat) : (State.setReg s r v i).sys = s.sys := by
  unfold State.setReg; rfl
@[simp] theorem State.setReg_frames (s : State) (r : Reg) (v : Nat) (i : Nat) : (State.setReg s r v i).frames = s.frames := by
  unfold State.setReg; rfl
@[simp] theorem State.setReg_out (s : State) (r : Reg) (v : Nat) (i : Nat) : (State.setReg s r v i).out = s.out := by
  unfold State.setReg; rfl
@[simp] theorem State.setReg_draws (s : State) (r : Reg) (v : Nat) (i : Nat) : (State.setReg s r v i).draws = s.draws := by
  unfold State.setReg; rfl
@[simp] theorem State.setReg_pending (s : State) (r : Reg) (v : Nat) (i : Nat) : (State.setReg s r v i).pending = s.pending := by
  unfold State.setReg; rfl

@[simp] theorem State.setField_variant (s : State) (r : Reg) (msb lsb v : Nat) (i : Nat) : (State.setField s r msb lsb v i).variant = s.variant := by
  unfold State.setField; rfl
@[simp] theorem State.setField_now (s : State) (r : Reg) (msb lsb v : Nat) (i : Nat) : (State.setField s r msb lsb v i).now = s.now := by
  unfold State.setField; rfl
@[simp] theorem State.setField_isl (s : State) (r : Reg) (msb lsb v : Nat) (i : Nat) : (State.setField s r msb lsb v i).isl = s.isl := by
  unfold State.setField; rfl
@[simp] theorem State.setField_mem (s : State) (r : Reg) (msb lsb v : Nat) (i : Nat) : (State.setField s r msb lsb v i).mem = s.mem := by
  unfold State.setField; rfl
@[simp] theorem State.setField_fab (s : State) (r : Reg) (msb lsb v : Nat) (i : Nat) : (State.setField s r msb lsb v i).fab = s.fab := by
  unfold State.setField; rfl
@[simp] theorem State.setField_icu (s : State) (r : Reg) (msb lsb v : Nat) (i : Nat) : (State.setField s r msb lsb v i).icu = s.icu := by
  unfold State.setField; rfl
@[simp] theorem State.setField_glm (s : State) (r : Reg) (msb lsb v : Nat) (i : Nat) : (State.setField s r msb lsb v i).glm = s.glm := by
  unfold State.setField; rfl
@[simp] theorem State.setField_gnm (s : State) (r : Reg) (msb lsb v : Nat) (i : Nat) : (State.setField s r msb lsb v i).gnm = s.gnm := by
  unfold State.setField; rfl
@[simp] theorem State.setField_qpe (s : State) (r : Reg) (msb lsb v : Nat) (i : Nat) : (State.setField s r msb lsb v i).qpe = s.qpe := by
  unfold State.setField; rfl
@[simp] theorem State.setField_cls (s : State) (r : Reg) (msb lsb v : Nat) (i : Nat) : (State.setField s r msb lsb v i).cls = s.cls := by
  unfold State.setField; rfl
@[simp] theorem State.setField_str (s : State) (r : Reg) (msb lsb v : Nat) (i : Nat) : (State.setField s r msb lsb v i).str = s.str := by
  unfold State.setField; rfl
@[simp] theorem State.setField_net (s : State) (r : Reg) (msb lsb v : Nat) (i : Nat) : (State.setField s r msb lsb v i).net = s.net := by
  unfold State.setField; rfl
@[simp] theorem State.setField_epf (s : State) (r : Reg) (msb lsb v : Nat) (i : Nat) : (State.setField s r msb lsb v i).epf = s.epf := by
  unfold State.setField; rfl
@[simp] theorem State.setField_xbr (s : State) (r : Reg) (msb lsb v : Nat) (i : Nat) : (State.setField s r msb lsb v i).xbr = s.xbr := by
  unfold State.setField; rfl
@[simp] theorem State.setField_cph (s : State) (r : Reg) (msb lsb v : Nat) (i : Nat) : (State.setField s r msb lsb v i).cph = s.cph := by
  unfold State.setField; rfl
@[simp] theorem State.setField_shd (s : State) (r : Reg) (msb lsb v : Nat) (i : Nat) : (State.setField s r msb lsb v i).shd = s.shd := by
  unfold State.setField; rfl
@[simp] theorem State.setField_spm (s : State) (r : Reg) (msb lsb v : Nat) (i : Nat) : (State.setField s r msb lsb v i).spm = s.spm := by
  unfold State.setField; rfl
@[simp] theorem State.setField_fct (s : State) (r : Reg) (msb lsb v : Nat) (i : Nat) : (State.setField s r msb lsb v i).fct = s.fct := by
  unfold State.setField; rfl
@[simp] theorem State.setField_sys (s : State) (r : Reg) (msb lsb v : Nat) (i : Nat) : (State.setField s r msb lsb v i).sys = s.sys := by
  unfold State.setField; rfl
@[simp] theorem State.setField_frames (s : State) (r : Reg) (msb lsb v : Nat) (i : Nat) : (State.setField s r msb lsb v i).frames = s.frames := by
  unfold State.setField; rfl
@[simp] theorem State.setField_out (s : State) (r : Reg) (msb lsb v : Nat) (i : Nat) : (State.setField s r msb lsb v i).out = s.out := by
  unfold State.setField; rfl
@[simp] theorem State.setField_draws (s : State) (r : Reg) (msb lsb v : Nat) (i : Nat) : (State.setField s r msb lsb v i).draws = s.draws := by
  unfold State.setField; rfl
@[simp] theorem State.setField_pending (s : State) (r : Reg) (msb lsb v : Nat) (i : Nat) : (State.setField s r msb lsb v i).pending = s.pending := by
  unfold State.setField; rfl

@[simp] theorem State.count_variant (s : State) (r : Reg) (n : Nat) : (State.count s r n).variant = s.variant := by
  unfold State.count; rfl
@[simp] theorem State.count_now (s : State) (r : Reg) (n : Nat) : (State.count s r n).now = s.now := by
  unfold State.count; rfl
@[simp] theorem State.count_isl (s : State) (r : Reg) (n : Nat) : (State.count s r n).isl = s.isl := by
  unfold State.count; rfl
@[simp] theorem State.count_mem (s : State) (r : Reg) (n : Nat) : (State.count s r n).mem = s.mem := by
  unfold State.count; rfl
@[simp] theorem State.count_fab (s : State) (r : Reg) (n : Nat) : (State.count s r n).fab = s.fab := by
  unfold State.count; rfl
@[simp] theorem State.count_icu (s : State) (r : Reg) (n : Nat) : (State.count s r n).icu = s.icu := by
  unfold State.count; rfl
@[simp] theorem State.count_glm (s : State) (r : Reg) (n : Nat) : (State.count s r n).glm = s.glm := by
  unfold State.count; rfl
@[simp] theorem State.count_gnm (s : State) (r : Reg) (n : Nat) : (State.count s r n).gnm = s.gnm := by
  unfold State.count; rfl
@[simp] theorem State.count_qpe (s : State) (r : Reg) (n : Nat) : (State.count s r n).qpe = s.qpe := by
  unfold State.count; rfl
@[simp] theorem State.count_cls (s : State) (r : Reg) (n : Nat) : (State.count s r n).cls = s.cls := by
  unfold State.count; rfl
@[simp] theorem State.count_str (s : State) (r : Reg) (n : Nat) : (State.count s r n).str = s.str := by
  unfold State.count; rfl
@[simp] theorem State.count_net (s : State) (r : Reg) (n : Nat) : (State.count s r n).net = s.net := by
  unfold State.count; rfl
@[simp] theorem State.count_epf (s : State) (r : Reg) (n : Nat) : (State.count s r n).epf = s.epf := by
  unfold State.count; rfl
@[simp] theorem State.count_xbr (s : State) (r : Reg) (n : Nat) : (State.count s r n).xbr = s.xbr := by
  unfold State.count; rfl
@[simp] theorem State.count_cph (s : State) (r : Reg) (n : Nat) : (State.count s r n).cph = s.cph := by
  unfold State.count; rfl
@[simp] theorem State.count_shd (s : State) (r : Reg) (n : Nat) : (State.count s r n).shd = s.shd := by
  unfold State.count; rfl
@[simp] theorem State.count_spm (s : State) (r : Reg) (n : Nat) : (State.count s r n).spm = s.spm := by
  unfold State.count; rfl
@[simp] theorem State.count_fct (s : State) (r : Reg) (n : Nat) : (State.count s r n).fct = s.fct := by
  unfold State.count; rfl
@[simp] theorem State.count_sys (s : State) (r : Reg) (n : Nat) : (State.count s r n).sys = s.sys := by
  unfold State.count; rfl
@[simp] theorem State.count_frames (s : State) (r : Reg) (n : Nat) : (State.count s r n).frames = s.frames := by
  unfold State.count; rfl
@[simp] theorem State.count_out (s : State) (r : Reg) (n : Nat) : (State.count s r n).out = s.out := by
  unfold State.count; rfl
@[simp] theorem State.count_draws (s : State) (r : Reg) (n : Nat) : (State.count s r n).draws = s.draws := by
  unfold State.count; rfl
@[simp] theorem State.count_pending (s : State) (r : Reg) (n : Nat) : (State.count s r n).pending = s.pending := by
  unfold State.count; rfl

@[simp] theorem State.emit_variant (s : State) (o : Out) : (State.emit s o).variant = s.variant := by unfold State.emit; rfl
@[simp] theorem State.emit_now (s : State) (o : Out) : (State.emit s o).now = s.now := by unfold State.emit; rfl
@[simp] theorem State.emit_regs (s : State) (o : Out) : (State.emit s o).regs = s.regs := by unfold State.emit; rfl
@[simp] theorem State.emit_isl (s : State) (o : Out) : (State.emit s o).isl = s.isl := by unfold State.emit; rfl
@[simp] theorem State.emit_mem (s : State) (o : Out) : (State.emit s o).mem = s.mem := by unfold State.emit; rfl
@[simp] theorem State.emit_fab (s : State) (o : Out) : (State.emit s o).fab = s.fab := by unfold State.emit; rfl
@[simp] theorem State.emit_icu (s : State) (o : Out) : (State.emit s o).icu = s.icu := by unfold State.emit; rfl
@[simp] theorem State.emit_glm (s : State) (o : Out) : (State.emit s o).glm = s.glm := by unfold State.emit; rfl
@[simp] theorem State.emit_gnm (s : State) (o : Out) : (State.emit s o).gnm = s.gnm := by unfold State.emit; rfl
@[simp] theorem State.emit_qpe (s : State) (o : Out) : (State.emit s o).qpe = s.qpe := by unfold State.emit; rfl
@[simp] theorem State.emit_cls (s : State) (o : Out) : (State.emit s o).cls = s.cls := by unfold State.emit; rfl
@[simp] theorem State.emit_str (s : State) (o : Out) : (State.emit s o).str = s.str := by unfold State.emit; rfl
@[simp] theorem State.emit_net (s : State) (o : Out) : (State.emit s o).net = s.net := by unfold State.emit; rfl
@[simp] theorem State.emit_epf (s : State) (o : Out) : (State.emit s o).epf = s.epf := by unfold State.emit; rfl
@[simp] theorem State.emit_xbr (s : State) (o : Out) : (State.emit s o).xbr = s.xbr := by unfold State.emit; rfl
@[simp] theorem State.emit_cph (s : State) (o : Out) : (State.emit s o).cph = s.cph := by unfold State.emit; rfl
@[simp] theorem State.emit_shd (s : State) (o : Out) : (State.emit s o).shd = s.shd := by unfold State.emit; rfl
@[simp] theorem State.emit_spm (s : State) (o : Out) : (State.emit s o).spm = s.spm := by unfold State.emit; rfl
@[simp] theorem State.emit_fct (s : State) (o : Out) : (State.emit s o).fct = s.fct := by unfold State.emit; rfl
@[simp] theorem State.emit_sys (s : State) (o : Out) : (State.emit s o).sys = s.sys := by unfold State.emit; rfl
@[simp] theorem State.emit_frames (s : State) (o : Out) : (State.emit s o).frames = s.frames := by unfold State.emit; rfl
@[simp] theorem State.emit_draws (s : State) (o : Out) : (State.emit s o).draws = s.draws := by unfold State.emit; rfl
@[simp] theorem State.emit_pending (s : State) (o : Out) : (State.emit s o).pending = s.pending := by unfold State.emit; rfl

@[simp] theorem State.emits_variant (s : State) (os : List Out) : (State.emits s os).variant = s.variant := by
  unfold State.emits; rfl
@[simp] theorem State.emits_now (s : State) (os : List Out) : (State.emits s os).now = s.now := by unfold State.emits; rfl
@[simp] theorem State.emits_regs (s : State) (os : List Out) : (State.emits s os).regs = s.regs := by
  unfold State.emits; rfl
@[simp] theorem State.emits_isl (s : State) (os : List Out) : (State.emits s os).isl = s.isl := by unfold State.emits; rfl
@[simp] theorem State.emits_mem (s : State) (os : List Out) : (State.emits s os).mem = s.mem := by unfold State.emits; rfl
@[simp] theorem State.emits_fab (s : State) (os : List Out) : (State.emits s os).fab = s.fab := by unfold State.emits; rfl
@[simp] theorem State.emits_icu (s : State) (os : List Out) : (State.emits s os).icu = s.icu := by unfold State.emits; rfl
@[simp] theorem State.emits_glm (s : State) (os : List Out) : (State.emits s os).glm = s.glm := by unfold State.emits; rfl
@[simp] theorem State.emits_gnm (s : State) (os : List Out) : (State.emits s os).gnm = s.gnm := by unfold State.emits; rfl
@[simp] theorem State.emits_qpe (s : State) (os : List Out) : (State.emits s os).qpe = s.qpe := by unfold State.emits; rfl
@[simp] theorem State.emits_cls (s : State) (os : List Out) : (State.emits s os).cls = s.cls := by unfold State.emits; rfl
@[simp] theorem State.emits_str (s : State) (os : List Out) : (State.emits s os).str = s.str := by unfold State.emits; rfl
@[simp] theorem State.emits_net (s : State) (os : List Out) : (State.emits s os).net = s.net := by unfold State.emits; rfl
@[simp] theorem State.emits_epf (s : State) (os : List Out) : (State.emits s os).epf = s.epf := by unfold State.emits; rfl
@[simp] theorem State.emits_xbr (s : State) (os : List Out) : (State.emits s os).xbr = s.xbr := by unfold State.emits; rfl
@[simp] theorem State.emits_cph (s : State) (os : List Out) : (State.emits s os).cph = s.cph := by unfold State.emits; rfl
@[simp] theorem State.emits_shd (s : State) (os : List Out) : (State.emits s os).shd = s.shd := by unfold State.emits; rfl
@[simp] theorem State.emits_spm (s : State) (os : List Out) : (State.emits s os).spm = s.spm := by unfold State.emits; rfl
@[simp] theorem State.emits_fct (s : State) (os : List Out) : (State.emits s os).fct = s.fct := by unfold State.emits; rfl
@[simp] theorem State.emits_sys (s : State) (os : List Out) : (State.emits s os).sys = s.sys := by unfold State.emits; rfl
@[simp] theorem State.emits_frames (s : State) (os : List Out) : (State.emits s os).frames = s.frames := by
  unfold State.emits; rfl
@[simp] theorem State.emits_draws (s : State) (os : List Out) : (State.emits s os).draws = s.draws := by
  unfold State.emits; rfl
@[simp] theorem State.emits_pending (s : State) (os : List Out) : (State.emits s os).pending = s.pending := by
  unfold State.emits; rfl

@[simp] theorem State.drew_variant (s : State) (n : Nat) : (State.drew s n).variant = s.variant := by unfold State.drew; rfl
@[simp] theorem State.drew_now (s : State) (n : Nat) : (State.drew s n).now = s.now := by unfold State.drew; rfl
@[simp] theorem State.drew_regs (s : State) (n : Nat) : (State.drew s n).regs = s.regs := by unfold State.drew; rfl
@[simp] theorem State.drew_isl (s : State) (n : Nat) : (State.drew s n).isl = s.isl := by unfold State.drew; rfl
@[simp] theorem State.drew_mem (s : State) (n : Nat) : (State.drew s n).mem = s.mem := by unfold State.drew; rfl
@[simp] theorem State.drew_fab (s : State) (n : Nat) : (State.drew s n).fab = s.fab := by unfold State.drew; rfl
@[simp] theorem State.drew_icu (s : State) (n : Nat) : (State.drew s n).icu = s.icu := by unfold State.drew; rfl
@[simp] theorem State.drew_glm (s : State) (n : Nat) : (State.drew s n).glm = s.glm := by unfold State.drew; rfl
@[simp] theorem State.drew_gnm (s : State) (n : Nat) : (State.drew s n).gnm = s.gnm := by unfold State.drew; rfl
@[simp] theorem State.drew_qpe (s : State) (n : Nat) : (State.drew s n).qpe = s.qpe := by unfold State.drew; rfl
@[simp] theorem State.drew_cls (s : State) (n : Nat) : (State.drew s n).cls = s.cls := by unfold State.drew; rfl
@[simp] theorem State.drew_str (s : State) (n : Nat) : (State.drew s n).str = s.str := by unfold State.drew; rfl
@[simp] theorem State.drew_net (s : State) (n : Nat) : (State.drew s n).net = s.net := by unfold State.drew; rfl
@[simp] theorem State.drew_epf (s : State) (n : Nat) : (State.drew s n).epf = s.epf := by unfold State.drew; rfl
@[simp] theorem State.drew_xbr (s : State) (n : Nat) : (State.drew s n).xbr = s.xbr := by unfold State.drew; rfl
@[simp] theorem State.drew_cph (s : State) (n : Nat) : (State.drew s n).cph = s.cph := by unfold State.drew; rfl
@[simp] theorem State.drew_shd (s : State) (n : Nat) : (State.drew s n).shd = s.shd := by unfold State.drew; rfl
@[simp] theorem State.drew_spm (s : State) (n : Nat) : (State.drew s n).spm = s.spm := by unfold State.drew; rfl
@[simp] theorem State.drew_fct (s : State) (n : Nat) : (State.drew s n).fct = s.fct := by unfold State.drew; rfl
@[simp] theorem State.drew_sys (s : State) (n : Nat) : (State.drew s n).sys = s.sys := by unfold State.drew; rfl
@[simp] theorem State.drew_frames (s : State) (n : Nat) : (State.drew s n).frames = s.frames := by unfold State.drew; rfl
@[simp] theorem State.drew_out (s : State) (n : Nat) : (State.drew s n).out = s.out := by unfold State.drew; rfl
@[simp] theorem State.drew_pending (s : State) (n : Nat) : (State.drew s n).pending = s.pending := by unfold State.drew; rfl

@[simp] theorem State.setIsland_variant (s : State) (i : Nat) (x : Island) : (State.setIsland s i x).variant = s.variant := by
  unfold State.setIsland; rfl
@[simp] theorem State.setIsland_now (s : State) (i : Nat) (x : Island) : (State.setIsland s i x).now = s.now := by
  unfold State.setIsland; rfl
@[simp] theorem State.setIsland_regs (s : State) (i : Nat) (x : Island) : (State.setIsland s i x).regs = s.regs := by
  unfold State.setIsland; rfl
@[simp] theorem State.setIsland_mem (s : State) (i : Nat) (x : Island) : (State.setIsland s i x).mem = s.mem := by
  unfold State.setIsland; rfl
@[simp] theorem State.setIsland_fab (s : State) (i : Nat) (x : Island) : (State.setIsland s i x).fab = s.fab := by
  unfold State.setIsland; rfl
@[simp] theorem State.setIsland_icu (s : State) (i : Nat) (x : Island) : (State.setIsland s i x).icu = s.icu := by
  unfold State.setIsland; rfl
@[simp] theorem State.setIsland_glm (s : State) (i : Nat) (x : Island) : (State.setIsland s i x).glm = s.glm := by
  unfold State.setIsland; rfl
@[simp] theorem State.setIsland_gnm (s : State) (i : Nat) (x : Island) : (State.setIsland s i x).gnm = s.gnm := by
  unfold State.setIsland; rfl
@[simp] theorem State.setIsland_qpe (s : State) (i : Nat) (x : Island) : (State.setIsland s i x).qpe = s.qpe := by
  unfold State.setIsland; rfl
@[simp] theorem State.setIsland_cls (s : State) (i : Nat) (x : Island) : (State.setIsland s i x).cls = s.cls := by
  unfold State.setIsland; rfl
@[simp] theorem State.setIsland_str (s : State) (i : Nat) (x : Island) : (State.setIsland s i x).str = s.str := by
  unfold State.setIsland; rfl
@[simp] theorem State.setIsland_net (s : State) (i : Nat) (x : Island) : (State.setIsland s i x).net = s.net := by
  unfold State.setIsland; rfl
@[simp] theorem State.setIsland_epf (s : State) (i : Nat) (x : Island) : (State.setIsland s i x).epf = s.epf := by
  unfold State.setIsland; rfl
@[simp] theorem State.setIsland_xbr (s : State) (i : Nat) (x : Island) : (State.setIsland s i x).xbr = s.xbr := by
  unfold State.setIsland; rfl
@[simp] theorem State.setIsland_cph (s : State) (i : Nat) (x : Island) : (State.setIsland s i x).cph = s.cph := by
  unfold State.setIsland; rfl
@[simp] theorem State.setIsland_shd (s : State) (i : Nat) (x : Island) : (State.setIsland s i x).shd = s.shd := by
  unfold State.setIsland; rfl
@[simp] theorem State.setIsland_spm (s : State) (i : Nat) (x : Island) : (State.setIsland s i x).spm = s.spm := by
  unfold State.setIsland; rfl
@[simp] theorem State.setIsland_fct (s : State) (i : Nat) (x : Island) : (State.setIsland s i x).fct = s.fct := by
  unfold State.setIsland; rfl
@[simp] theorem State.setIsland_sys (s : State) (i : Nat) (x : Island) : (State.setIsland s i x).sys = s.sys := by
  unfold State.setIsland; rfl
@[simp] theorem State.setIsland_frames (s : State) (i : Nat) (x : Island) : (State.setIsland s i x).frames = s.frames := by
  unfold State.setIsland; rfl
@[simp] theorem State.setIsland_out (s : State) (i : Nat) (x : Island) : (State.setIsland s i x).out = s.out := by
  unfold State.setIsland; rfl
@[simp] theorem State.setIsland_draws (s : State) (i : Nat) (x : Island) : (State.setIsland s i x).draws = s.draws := by
  unfold State.setIsland; rfl
@[simp] theorem State.setIsland_pending (s : State) (i : Nat) (x : Island) : (State.setIsland s i x).pending = s.pending := by
  unfold State.setIsland; rfl

@[simp] theorem State.wake_variant (s : State) (src : Option Nat) : (State.wake s src).variant = s.variant := by
  unfold State.wake; split <;> simp
@[simp] theorem State.wake_now (s : State) (src : Option Nat) : (State.wake s src).now = s.now := by
  unfold State.wake; split <;> simp
@[simp] theorem State.wake_mem (s : State) (src : Option Nat) : (State.wake s src).mem = s.mem := by
  unfold State.wake; split <;> simp
@[simp] theorem State.wake_fab (s : State) (src : Option Nat) : (State.wake s src).fab = s.fab := by
  unfold State.wake; split <;> simp
@[simp] theorem State.wake_gnm (s : State) (src : Option Nat) : (State.wake s src).gnm = s.gnm := by
  unfold State.wake; split <;> simp
@[simp] theorem State.wake_qpe (s : State) (src : Option Nat) : (State.wake s src).qpe = s.qpe := by
  unfold State.wake; split <;> simp
@[simp] theorem State.wake_cls (s : State) (src : Option Nat) : (State.wake s src).cls = s.cls := by
  unfold State.wake; split <;> simp
@[simp] theorem State.wake_str (s : State) (src : Option Nat) : (State.wake s src).str = s.str := by
  unfold State.wake; split <;> simp
@[simp] theorem State.wake_net (s : State) (src : Option Nat) : (State.wake s src).net = s.net := by
  unfold State.wake; split <;> simp
@[simp] theorem State.wake_epf (s : State) (src : Option Nat) : (State.wake s src).epf = s.epf := by
  unfold State.wake; split <;> simp
@[simp] theorem State.wake_xbr (s : State) (src : Option Nat) : (State.wake s src).xbr = s.xbr := by
  unfold State.wake; split <;> simp
@[simp] theorem State.wake_cph (s : State) (src : Option Nat) : (State.wake s src).cph = s.cph := by
  unfold State.wake; split <;> simp
@[simp] theorem State.wake_shd (s : State) (src : Option Nat) : (State.wake s src).shd = s.shd := by
  unfold State.wake; split <;> simp
@[simp] theorem State.wake_spm (s : State) (src : Option Nat) : (State.wake s src).spm = s.spm := by
  unfold State.wake; split <;> simp
@[simp] theorem State.wake_fct (s : State) (src : Option Nat) : (State.wake s src).fct = s.fct := by
  unfold State.wake; split <;> simp
@[simp] theorem State.wake_sys (s : State) (src : Option Nat) : (State.wake s src).sys = s.sys := by
  unfold State.wake; split <;> simp
@[simp] theorem State.wake_frames (s : State) (src : Option Nat) : (State.wake s src).frames = s.frames := by
  unfold State.wake; split <;> simp
@[simp] theorem State.wake_out (s : State) (src : Option Nat) : (State.wake s src).out = s.out := by
  unfold State.wake; split <;> simp
@[simp] theorem State.wake_draws (s : State) (src : Option Nat) : (State.wake s src).draws = s.draws := by
  unfold State.wake; split <;> simp
@[simp] theorem State.wake_pending (s : State) (src : Option Nat) : (State.wake s src).pending = s.pending := by
  unfold State.wake; split <;> simp

@[simp] theorem State.raise_variant (s : State) (n : Nat) : (State.raise s n).variant = s.variant := by
  unfold State.raise; dsimp only; repeat' (first | rfl | simp; done | split)
@[simp] theorem State.raise_now (s : State) (n : Nat) : (State.raise s n).now = s.now := by
  unfold State.raise; dsimp only; repeat' (first | rfl | simp; done | split)
@[simp] theorem State.raise_mem (s : State) (n : Nat) : (State.raise s n).mem = s.mem := by
  unfold State.raise; dsimp only; repeat' (first | rfl | simp; done | split)
@[simp] theorem State.raise_fab (s : State) (n : Nat) : (State.raise s n).fab = s.fab := by
  unfold State.raise; dsimp only; repeat' (first | rfl | simp; done | split)
@[simp] theorem State.raise_gnm (s : State) (n : Nat) : (State.raise s n).gnm = s.gnm := by
  unfold State.raise; dsimp only; repeat' (first | rfl | simp; done | split)
@[simp] theorem State.raise_qpe (s : State) (n : Nat) : (State.raise s n).qpe = s.qpe := by
  unfold State.raise; dsimp only; repeat' (first | rfl | simp; done | split)
@[simp] theorem State.raise_cls (s : State) (n : Nat) : (State.raise s n).cls = s.cls := by
  unfold State.raise; dsimp only; repeat' (first | rfl | simp; done | split)
@[simp] theorem State.raise_str (s : State) (n : Nat) : (State.raise s n).str = s.str := by
  unfold State.raise; dsimp only; repeat' (first | rfl | simp; done | split)
@[simp] theorem State.raise_net (s : State) (n : Nat) : (State.raise s n).net = s.net := by
  unfold State.raise; dsimp only; repeat' (first | rfl | simp; done | split)
@[simp] theorem State.raise_epf (s : State) (n : Nat) : (State.raise s n).epf = s.epf := by
  unfold State.raise; dsimp only; repeat' (first | rfl | simp; done | split)
@[simp] theorem State.raise_xbr (s : State) (n : Nat) : (State.raise s n).xbr = s.xbr := by
  unfold State.raise; dsimp only; repeat' (first | rfl | simp; done | split)
@[simp] theorem State.raise_cph (s : State) (n : Nat) : (State.raise s n).cph = s.cph := by
  unfold State.raise; dsimp only; repeat' (first | rfl | simp; done | split)
@[simp] theorem State.raise_shd (s : State) (n : Nat) : (State.raise s n).shd = s.shd := by
  unfold State.raise; dsimp only; repeat' (first | rfl | simp; done | split)
@[simp] theorem State.raise_spm (s : State) (n : Nat) : (State.raise s n).spm = s.spm := by
  unfold State.raise; dsimp only; repeat' (first | rfl | simp; done | split)
@[simp] theorem State.raise_fct (s : State) (n : Nat) : (State.raise s n).fct = s.fct := by
  unfold State.raise; dsimp only; repeat' (first | rfl | simp; done | split)
@[simp] theorem State.raise_sys (s : State) (n : Nat) : (State.raise s n).sys = s.sys := by
  unfold State.raise; dsimp only; repeat' (first | rfl | simp; done | split)
@[simp] theorem State.raise_frames (s : State) (n : Nat) : (State.raise s n).frames = s.frames := by
  unfold State.raise; dsimp only; repeat' (first | rfl | simp; done | split)
@[simp] theorem State.raise_out (s : State) (n : Nat) : (State.raise s n).out = s.out := by
  unfold State.raise; dsimp only; repeat' (first | rfl | simp; done | split)
@[simp] theorem State.raise_draws (s : State) (n : Nat) : (State.raise s n).draws = s.draws := by
  unfold State.raise; dsimp only; repeat' (first | rfl | simp; done | split)
@[simp] theorem State.raise_pending (s : State) (n : Nat) : (State.raise s n).pending = s.pending := by
  unfold State.raise; dsimp only; repeat' (first | rfl | simp; done | split)

@[simp] theorem State.event_variant (s : State) (u : UnitEvent) : (State.event s u).variant = s.variant := by
  simp [State.event]
@[simp] theorem State.event_now (s : State) (u : UnitEvent) : (State.event s u).now = s.now := by simp [State.event]
@[simp] theorem State.event_mem (s : State) (u : UnitEvent) : (State.event s u).mem = s.mem := by simp [State.event]
@[simp] theorem State.event_fab (s : State) (u : UnitEvent) : (State.event s u).fab = s.fab := by simp [State.event]
@[simp] theorem State.event_gnm (s : State) (u : UnitEvent) : (State.event s u).gnm = s.gnm := by simp [State.event]
@[simp] theorem State.event_qpe (s : State) (u : UnitEvent) : (State.event s u).qpe = s.qpe := by simp [State.event]
@[simp] theorem State.event_cls (s : State) (u : UnitEvent) : (State.event s u).cls = s.cls := by simp [State.event]
@[simp] theorem State.event_str (s : State) (u : UnitEvent) : (State.event s u).str = s.str := by simp [State.event]
@[simp] theorem State.event_net (s : State) (u : UnitEvent) : (State.event s u).net = s.net := by simp [State.event]
@[simp] theorem State.event_epf (s : State) (u : UnitEvent) : (State.event s u).epf = s.epf := by simp [State.event]
@[simp] theorem State.event_xbr (s : State) (u : UnitEvent) : (State.event s u).xbr = s.xbr := by simp [State.event]
@[simp] theorem State.event_cph (s : State) (u : UnitEvent) : (State.event s u).cph = s.cph := by simp [State.event]
@[simp] theorem State.event_shd (s : State) (u : UnitEvent) : (State.event s u).shd = s.shd := by simp [State.event]
@[simp] theorem State.event_spm (s : State) (u : UnitEvent) : (State.event s u).spm = s.spm := by simp [State.event]
@[simp] theorem State.event_fct (s : State) (u : UnitEvent) : (State.event s u).fct = s.fct := by simp [State.event]
@[simp] theorem State.event_sys (s : State) (u : UnitEvent) : (State.event s u).sys = s.sys := by simp [State.event]
@[simp] theorem State.event_frames (s : State) (u : UnitEvent) : (State.event s u).frames = s.frames := by
  simp [State.event]
@[simp] theorem State.event_out (s : State) (u : UnitEvent) : (State.event s u).out = s.out := by simp [State.event]
@[simp] theorem State.event_draws (s : State) (u : UnitEvent) : (State.event s u).draws = s.draws := by simp [State.event]
@[simp] theorem State.event_pending (s : State) (u : UnitEvent) : (State.event s u).pending = s.pending := by
  simp [State.event]

@[simp] theorem State.trace_variant (s : State) (kind island : Nat) : (State.trace s kind island).variant = s.variant := by
  unfold State.trace; rfl
@[simp] theorem State.trace_now (s : State) (kind island : Nat) : (State.trace s kind island).now = s.now := by
  unfold State.trace; rfl
@[simp] theorem State.trace_regs (s : State) (kind island : Nat) : (State.trace s kind island).regs = s.regs := by
  unfold State.trace; rfl
@[simp] theorem State.trace_isl (s : State) (kind island : Nat) : (State.trace s kind island).isl = s.isl := by
  unfold State.trace; rfl
@[simp] theorem State.trace_mem (s : State) (kind island : Nat) : (State.trace s kind island).mem = s.mem := by
  unfold State.trace; rfl
@[simp] theorem State.trace_fab (s : State) (kind island : Nat) : (State.trace s kind island).fab = s.fab := by
  unfold State.trace; rfl
@[simp] theorem State.trace_icu (s : State) (kind island : Nat) : (State.trace s kind island).icu = s.icu := by
  unfold State.trace; rfl
@[simp] theorem State.trace_glm (s : State) (kind island : Nat) : (State.trace s kind island).glm = s.glm := by
  unfold State.trace; rfl
@[simp] theorem State.trace_gnm (s : State) (kind island : Nat) : (State.trace s kind island).gnm = s.gnm := by
  unfold State.trace; rfl
@[simp] theorem State.trace_qpe (s : State) (kind island : Nat) : (State.trace s kind island).qpe = s.qpe := by
  unfold State.trace; rfl
@[simp] theorem State.trace_cls (s : State) (kind island : Nat) : (State.trace s kind island).cls = s.cls := by
  unfold State.trace; rfl
@[simp] theorem State.trace_str (s : State) (kind island : Nat) : (State.trace s kind island).str = s.str := by
  unfold State.trace; rfl
@[simp] theorem State.trace_net (s : State) (kind island : Nat) : (State.trace s kind island).net = s.net := by
  unfold State.trace; rfl
@[simp] theorem State.trace_epf (s : State) (kind island : Nat) : (State.trace s kind island).epf = s.epf := by
  unfold State.trace; rfl
@[simp] theorem State.trace_xbr (s : State) (kind island : Nat) : (State.trace s kind island).xbr = s.xbr := by
  unfold State.trace; rfl
@[simp] theorem State.trace_cph (s : State) (kind island : Nat) : (State.trace s kind island).cph = s.cph := by
  unfold State.trace; rfl
@[simp] theorem State.trace_shd (s : State) (kind island : Nat) : (State.trace s kind island).shd = s.shd := by
  unfold State.trace; rfl
@[simp] theorem State.trace_spm (s : State) (kind island : Nat) : (State.trace s kind island).spm = s.spm := by
  unfold State.trace; rfl
@[simp] theorem State.trace_fct (s : State) (kind island : Nat) : (State.trace s kind island).fct = s.fct := by
  unfold State.trace; rfl
@[simp] theorem State.trace_frames (s : State) (kind island : Nat) : (State.trace s kind island).frames = s.frames := by
  unfold State.trace; rfl
@[simp] theorem State.trace_out (s : State) (kind island : Nat) : (State.trace s kind island).out = s.out := by
  unfold State.trace; rfl
@[simp] theorem State.trace_pending (s : State) (kind island : Nat) : (State.trace s kind island).pending = s.pending := by
  unfold State.trace; rfl

@[simp] theorem State.err_variant (s : State) (n : Nat) : (State.err s n).variant = s.variant := by
  unfold State.err; dsimp only; split <;> simp
@[simp] theorem State.err_now (s : State) (n : Nat) : (State.err s n).now = s.now := by
  unfold State.err; dsimp only; split <;> simp
@[simp] theorem State.err_mem (s : State) (n : Nat) : (State.err s n).mem = s.mem := by
  unfold State.err; dsimp only; split <;> simp
@[simp] theorem State.err_fab (s : State) (n : Nat) : (State.err s n).fab = s.fab := by
  unfold State.err; dsimp only; split <;> simp
@[simp] theorem State.err_gnm (s : State) (n : Nat) : (State.err s n).gnm = s.gnm := by
  unfold State.err; dsimp only; split <;> simp
@[simp] theorem State.err_qpe (s : State) (n : Nat) : (State.err s n).qpe = s.qpe := by
  unfold State.err; dsimp only; split <;> simp
@[simp] theorem State.err_cls (s : State) (n : Nat) : (State.err s n).cls = s.cls := by
  unfold State.err; dsimp only; split <;> simp
@[simp] theorem State.err_str (s : State) (n : Nat) : (State.err s n).str = s.str := by
  unfold State.err; dsimp only; split <;> simp
@[simp] theorem State.err_net (s : State) (n : Nat) : (State.err s n).net = s.net := by
  unfold State.err; dsimp only; split <;> simp
@[simp] theorem State.err_epf (s : State) (n : Nat) : (State.err s n).epf = s.epf := by
  unfold State.err; dsimp only; split <;> simp
@[simp] theorem State.err_xbr (s : State) (n : Nat) : (State.err s n).xbr = s.xbr := by
  unfold State.err; dsimp only; split <;> simp
@[simp] theorem State.err_cph (s : State) (n : Nat) : (State.err s n).cph = s.cph := by
  unfold State.err; dsimp only; split <;> simp
@[simp] theorem State.err_shd (s : State) (n : Nat) : (State.err s n).shd = s.shd := by
  unfold State.err; dsimp only; split <;> simp
@[simp] theorem State.err_spm (s : State) (n : Nat) : (State.err s n).spm = s.spm := by
  unfold State.err; dsimp only; split <;> simp
@[simp] theorem State.err_fct (s : State) (n : Nat) : (State.err s n).fct = s.fct := by
  unfold State.err; dsimp only; split <;> simp
@[simp] theorem State.err_frames (s : State) (n : Nat) : (State.err s n).frames = s.frames := by
  unfold State.err; dsimp only; split <;> simp
@[simp] theorem State.err_out (s : State) (n : Nat) : (State.err s n).out = s.out := by
  unfold State.err; dsimp only; split <;> simp
@[simp] theorem State.err_pending (s : State) (n : Nat) : (State.err s n).pending = s.pending := by
  unfold State.err; dsimp only; split <;> simp

@[simp] theorem State.advance_variant (s : State) (n : Nat) : (State.advance s n).variant = s.variant := by
  unfold State.advance; rfl
@[simp] theorem State.advance_regs (s : State) (n : Nat) : (State.advance s n).regs = s.regs := by unfold State.advance; rfl
@[simp] theorem State.advance_isl (s : State) (n : Nat) : (State.advance s n).isl = s.isl := by unfold State.advance; rfl
@[simp] theorem State.advance_mem (s : State) (n : Nat) : (State.advance s n).mem = s.mem := by unfold State.advance; rfl
@[simp] theorem State.advance_fab (s : State) (n : Nat) : (State.advance s n).fab = s.fab := by unfold State.advance; rfl
@[simp] theorem State.advance_icu (s : State) (n : Nat) : (State.advance s n).icu = s.icu := by unfold State.advance; rfl
@[simp] theorem State.advance_glm (s : State) (n : Nat) : (State.advance s n).glm = s.glm := by unfold State.advance; rfl
@[simp] theorem State.advance_qpe (s : State) (n : Nat) : (State.advance s n).qpe = s.qpe := by unfold State.advance; rfl
@[simp] theorem State.advance_cls (s : State) (n : Nat) : (State.advance s n).cls = s.cls := by unfold State.advance; rfl
@[simp] theorem State.advance_str (s : State) (n : Nat) : (State.advance s n).str = s.str := by unfold State.advance; rfl
@[simp] theorem State.advance_net (s : State) (n : Nat) : (State.advance s n).net = s.net := by unfold State.advance; rfl
@[simp] theorem State.advance_epf (s : State) (n : Nat) : (State.advance s n).epf = s.epf := by unfold State.advance; rfl
@[simp] theorem State.advance_xbr (s : State) (n : Nat) : (State.advance s n).xbr = s.xbr := by unfold State.advance; rfl
@[simp] theorem State.advance_cph (s : State) (n : Nat) : (State.advance s n).cph = s.cph := by unfold State.advance; rfl
@[simp] theorem State.advance_shd (s : State) (n : Nat) : (State.advance s n).shd = s.shd := by unfold State.advance; rfl
@[simp] theorem State.advance_spm (s : State) (n : Nat) : (State.advance s n).spm = s.spm := by unfold State.advance; rfl
@[simp] theorem State.advance_fct (s : State) (n : Nat) : (State.advance s n).fct = s.fct := by unfold State.advance; rfl
@[simp] theorem State.advance_sys (s : State) (n : Nat) : (State.advance s n).sys = s.sys := by unfold State.advance; rfl
@[simp] theorem State.advance_frames (s : State) (n : Nat) : (State.advance s n).frames = s.frames := by
  unfold State.advance; rfl
@[simp] theorem State.advance_out (s : State) (n : Nat) : (State.advance s n).out = s.out := by unfold State.advance; rfl
@[simp] theorem State.advance_draws (s : State) (n : Nat) : (State.advance s n).draws = s.draws := by
  unfold State.advance; rfl
@[simp] theorem State.advance_pending (s : State) (n : Nat) : (State.advance s n).pending = s.pending := by
  unfold State.advance; rfl

@[simp] theorem State.advanceTo_variant (s : State) (t : Nat) : (State.advanceTo s t).variant = s.variant := by
  unfold State.advanceTo; rfl
@[simp] theorem State.advanceTo_regs (s : State) (t : Nat) : (State.advanceTo s t).regs = s.regs := by
  unfold State.advanceTo; rfl
@[simp] theorem State.advanceTo_isl (s : State) (t : Nat) : (State.advanceTo s t).isl = s.isl := by
  unfold State.advanceTo; rfl
@[simp] theorem State.advanceTo_mem (s : State) (t : Nat) : (State.advanceTo s t).mem = s.mem := by
  unfold State.advanceTo; rfl
@[simp] theorem State.advanceTo_fab (s : State) (t : Nat) : (State.advanceTo s t).fab = s.fab := by
  unfold State.advanceTo; rfl
@[simp] theorem State.advanceTo_icu (s : State) (t : Nat) : (State.advanceTo s t).icu = s.icu := by
  unfold State.advanceTo; rfl
@[simp] theorem State.advanceTo_glm (s : State) (t : Nat) : (State.advanceTo s t).glm = s.glm := by
  unfold State.advanceTo; rfl
@[simp] theorem State.advanceTo_qpe (s : State) (t : Nat) : (State.advanceTo s t).qpe = s.qpe := by
  unfold State.advanceTo; rfl
@[simp] theorem State.advanceTo_cls (s : State) (t : Nat) : (State.advanceTo s t).cls = s.cls := by
  unfold State.advanceTo; rfl
@[simp] theorem State.advanceTo_str (s : State) (t : Nat) : (State.advanceTo s t).str = s.str := by
  unfold State.advanceTo; rfl
@[simp] theorem State.advanceTo_net (s : State) (t : Nat) : (State.advanceTo s t).net = s.net := by
  unfold State.advanceTo; rfl
@[simp] theorem State.advanceTo_epf (s : State) (t : Nat) : (State.advanceTo s t).epf = s.epf := by
  unfold State.advanceTo; rfl
@[simp] theorem State.advanceTo_xbr (s : State) (t : Nat) : (State.advanceTo s t).xbr = s.xbr := by
  unfold State.advanceTo; rfl
@[simp] theorem State.advanceTo_cph (s : State) (t : Nat) : (State.advanceTo s t).cph = s.cph := by
  unfold State.advanceTo; rfl
@[simp] theorem State.advanceTo_shd (s : State) (t : Nat) : (State.advanceTo s t).shd = s.shd := by
  unfold State.advanceTo; rfl
@[simp] theorem State.advanceTo_spm (s : State) (t : Nat) : (State.advanceTo s t).spm = s.spm := by
  unfold State.advanceTo; rfl
@[simp] theorem State.advanceTo_fct (s : State) (t : Nat) : (State.advanceTo s t).fct = s.fct := by
  unfold State.advanceTo; rfl
@[simp] theorem State.advanceTo_sys (s : State) (t : Nat) : (State.advanceTo s t).sys = s.sys := by
  unfold State.advanceTo; rfl
@[simp] theorem State.advanceTo_frames (s : State) (t : Nat) : (State.advanceTo s t).frames = s.frames := by
  unfold State.advanceTo; rfl
@[simp] theorem State.advanceTo_out (s : State) (t : Nat) : (State.advanceTo s t).out = s.out := by
  unfold State.advanceTo; rfl
@[simp] theorem State.advanceTo_draws (s : State) (t : Nat) : (State.advanceTo s t).draws = s.draws := by
  unfold State.advanceTo; rfl
@[simp] theorem State.advanceTo_pending (s : State) (t : Nat) : (State.advanceTo s t).pending = s.pending := by
  unfold State.advanceTo; rfl

@[simp] theorem State.store_variant (s : State) (a : Nat) (b : Bytes) : (State.store s a b).variant = s.variant := by
  unfold State.store; rfl
@[simp] theorem State.store_now (s : State) (a : Nat) (b : Bytes) : (State.store s a b).now = s.now := by
  unfold State.store; rfl
@[simp] theorem State.store_regs (s : State) (a : Nat) (b : Bytes) : (State.store s a b).regs = s.regs := by
  unfold State.store; rfl
@[simp] theorem State.store_isl (s : State) (a : Nat) (b : Bytes) : (State.store s a b).isl = s.isl := by
  unfold State.store; rfl
@[simp] theorem State.store_fab (s : State) (a : Nat) (b : Bytes) : (State.store s a b).fab = s.fab := by
  unfold State.store; rfl
@[simp] theorem State.store_icu (s : State) (a : Nat) (b : Bytes) : (State.store s a b).icu = s.icu := by
  unfold State.store; rfl
@[simp] theorem State.store_glm (s : State) (a : Nat) (b : Bytes) : (State.store s a b).glm = s.glm := by
  unfold State.store; rfl
@[simp] theorem State.store_gnm (s : State) (a : Nat) (b : Bytes) : (State.store s a b).gnm = s.gnm := by
  unfold State.store; rfl
@[simp] theorem State.store_qpe (s : State) (a : Nat) (b : Bytes) : (State.store s a b).qpe = s.qpe := by
  unfold State.store; rfl
@[simp] theorem State.store_cls (s : State) (a : Nat) (b : Bytes) : (State.store s a b).cls = s.cls := by
  unfold State.store; rfl
@[simp] theorem State.store_str (s : State) (a : Nat) (b : Bytes) : (State.store s a b).str = s.str := by
  unfold State.store; rfl
@[simp] theorem State.store_net (s : State) (a : Nat) (b : Bytes) : (State.store s a b).net = s.net := by
  unfold State.store; rfl
@[simp] theorem State.store_epf (s : State) (a : Nat) (b : Bytes) : (State.store s a b).epf = s.epf := by
  unfold State.store; rfl
@[simp] theorem State.store_xbr (s : State) (a : Nat) (b : Bytes) : (State.store s a b).xbr = s.xbr := by
  unfold State.store; rfl
@[simp] theorem State.store_cph (s : State) (a : Nat) (b : Bytes) : (State.store s a b).cph = s.cph := by
  unfold State.store; rfl
@[simp] theorem State.store_spm (s : State) (a : Nat) (b : Bytes) : (State.store s a b).spm = s.spm := by
  unfold State.store; rfl
@[simp] theorem State.store_fct (s : State) (a : Nat) (b : Bytes) : (State.store s a b).fct = s.fct := by
  unfold State.store; rfl
@[simp] theorem State.store_sys (s : State) (a : Nat) (b : Bytes) : (State.store s a b).sys = s.sys := by
  unfold State.store; rfl
@[simp] theorem State.store_frames (s : State) (a : Nat) (b : Bytes) : (State.store s a b).frames = s.frames := by
  unfold State.store; rfl
@[simp] theorem State.store_out (s : State) (a : Nat) (b : Bytes) : (State.store s a b).out = s.out := by
  unfold State.store; rfl
@[simp] theorem State.store_draws (s : State) (a : Nat) (b : Bytes) : (State.store s a b).draws = s.draws := by
  unfold State.store; rfl
@[simp] theorem State.store_pending (s : State) (a : Nat) (b : Bytes) : (State.store s a b).pending = s.pending := by
  unfold State.store; rfl

@[simp] theorem State.setPart_variant (s : State) (p : Nat) (x : Part) : (State.setPart s p x).variant = s.variant := by
  unfold State.setPart; rfl
@[simp] theorem State.setPart_now (s : State) (p : Nat) (x : Part) : (State.setPart s p x).now = s.now := by
  unfold State.setPart; rfl
@[simp] theorem State.setPart_regs (s : State) (p : Nat) (x : Part) : (State.setPart s p x).regs = s.regs := by
  unfold State.setPart; rfl
@[simp] theorem State.setPart_isl (s : State) (p : Nat) (x : Part) : (State.setPart s p x).isl = s.isl := by
  unfold State.setPart; rfl
@[simp] theorem State.setPart_mem (s : State) (p : Nat) (x : Part) : (State.setPart s p x).mem = s.mem := by
  unfold State.setPart; rfl
@[simp] theorem State.setPart_fab (s : State) (p : Nat) (x : Part) : (State.setPart s p x).fab = s.fab := by
  unfold State.setPart; rfl
@[simp] theorem State.setPart_icu (s : State) (p : Nat) (x : Part) : (State.setPart s p x).icu = s.icu := by
  unfold State.setPart; rfl
@[simp] theorem State.setPart_glm (s : State) (p : Nat) (x : Part) : (State.setPart s p x).glm = s.glm := by
  unfold State.setPart; rfl
@[simp] theorem State.setPart_gnm (s : State) (p : Nat) (x : Part) : (State.setPart s p x).gnm = s.gnm := by
  unfold State.setPart; rfl
@[simp] theorem State.setPart_qpe (s : State) (p : Nat) (x : Part) : (State.setPart s p x).qpe = s.qpe := by
  unfold State.setPart; rfl
@[simp] theorem State.setPart_cls (s : State) (p : Nat) (x : Part) : (State.setPart s p x).cls = s.cls := by
  unfold State.setPart; rfl
@[simp] theorem State.setPart_str (s : State) (p : Nat) (x : Part) : (State.setPart s p x).str = s.str := by
  unfold State.setPart; rfl
@[simp] theorem State.setPart_net (s : State) (p : Nat) (x : Part) : (State.setPart s p x).net = s.net := by
  unfold State.setPart; rfl
@[simp] theorem State.setPart_epf (s : State) (p : Nat) (x : Part) : (State.setPart s p x).epf = s.epf := by
  unfold State.setPart; rfl
@[simp] theorem State.setPart_cph (s : State) (p : Nat) (x : Part) : (State.setPart s p x).cph = s.cph := by
  unfold State.setPart; rfl
@[simp] theorem State.setPart_shd (s : State) (p : Nat) (x : Part) : (State.setPart s p x).shd = s.shd := by
  unfold State.setPart; rfl
@[simp] theorem State.setPart_spm (s : State) (p : Nat) (x : Part) : (State.setPart s p x).spm = s.spm := by
  unfold State.setPart; rfl
@[simp] theorem State.setPart_fct (s : State) (p : Nat) (x : Part) : (State.setPart s p x).fct = s.fct := by
  unfold State.setPart; rfl
@[simp] theorem State.setPart_sys (s : State) (p : Nat) (x : Part) : (State.setPart s p x).sys = s.sys := by
  unfold State.setPart; rfl
@[simp] theorem State.setPart_frames (s : State) (p : Nat) (x : Part) : (State.setPart s p x).frames = s.frames := by
  unfold State.setPart; rfl
@[simp] theorem State.setPart_out (s : State) (p : Nat) (x : Part) : (State.setPart s p x).out = s.out := by
  unfold State.setPart; rfl
@[simp] theorem State.setPart_draws (s : State) (p : Nat) (x : Part) : (State.setPart s p x).draws = s.draws := by
  unfold State.setPart; rfl
@[simp] theorem State.setPart_pending (s : State) (p : Nat) (x : Part) : (State.setPart s p x).pending = s.pending := by
  unfold State.setPart; rfl

@[simp] theorem State.setSlice_variant (s : State) (i : Nat) (x : Slice) : (State.setSlice s i x).variant = s.variant := by
  unfold State.setSlice; rfl
@[simp] theorem State.setSlice_now (s : State) (i : Nat) (x : Slice) : (State.setSlice s i x).now = s.now := by
  unfold State.setSlice; rfl
@[simp] theorem State.setSlice_regs (s : State) (i : Nat) (x : Slice) : (State.setSlice s i x).regs = s.regs := by
  unfold State.setSlice; rfl
@[simp] theorem State.setSlice_isl (s : State) (i : Nat) (x : Slice) : (State.setSlice s i x).isl = s.isl := by
  unfold State.setSlice; rfl
@[simp] theorem State.setSlice_mem (s : State) (i : Nat) (x : Slice) : (State.setSlice s i x).mem = s.mem := by
  unfold State.setSlice; rfl
@[simp] theorem State.setSlice_fab (s : State) (i : Nat) (x : Slice) : (State.setSlice s i x).fab = s.fab := by
  unfold State.setSlice; rfl
@[simp] theorem State.setSlice_icu (s : State) (i : Nat) (x : Slice) : (State.setSlice s i x).icu = s.icu := by
  unfold State.setSlice; rfl
@[simp] theorem State.setSlice_glm (s : State) (i : Nat) (x : Slice) : (State.setSlice s i x).glm = s.glm := by
  unfold State.setSlice; rfl
@[simp] theorem State.setSlice_gnm (s : State) (i : Nat) (x : Slice) : (State.setSlice s i x).gnm = s.gnm := by
  unfold State.setSlice; rfl
@[simp] theorem State.setSlice_qpe (s : State) (i : Nat) (x : Slice) : (State.setSlice s i x).qpe = s.qpe := by
  unfold State.setSlice; rfl
@[simp] theorem State.setSlice_cls (s : State) (i : Nat) (x : Slice) : (State.setSlice s i x).cls = s.cls := by
  unfold State.setSlice; rfl
@[simp] theorem State.setSlice_net (s : State) (i : Nat) (x : Slice) : (State.setSlice s i x).net = s.net := by
  unfold State.setSlice; rfl
@[simp] theorem State.setSlice_epf (s : State) (i : Nat) (x : Slice) : (State.setSlice s i x).epf = s.epf := by
  unfold State.setSlice; rfl
@[simp] theorem State.setSlice_xbr (s : State) (i : Nat) (x : Slice) : (State.setSlice s i x).xbr = s.xbr := by
  unfold State.setSlice; rfl
@[simp] theorem State.setSlice_cph (s : State) (i : Nat) (x : Slice) : (State.setSlice s i x).cph = s.cph := by
  unfold State.setSlice; rfl
@[simp] theorem State.setSlice_shd (s : State) (i : Nat) (x : Slice) : (State.setSlice s i x).shd = s.shd := by
  unfold State.setSlice; rfl
@[simp] theorem State.setSlice_spm (s : State) (i : Nat) (x : Slice) : (State.setSlice s i x).spm = s.spm := by
  unfold State.setSlice; rfl
@[simp] theorem State.setSlice_fct (s : State) (i : Nat) (x : Slice) : (State.setSlice s i x).fct = s.fct := by
  unfold State.setSlice; rfl
@[simp] theorem State.setSlice_sys (s : State) (i : Nat) (x : Slice) : (State.setSlice s i x).sys = s.sys := by
  unfold State.setSlice; rfl
@[simp] theorem State.setSlice_frames (s : State) (i : Nat) (x : Slice) : (State.setSlice s i x).frames = s.frames := by
  unfold State.setSlice; rfl
@[simp] theorem State.setSlice_out (s : State) (i : Nat) (x : Slice) : (State.setSlice s i x).out = s.out := by
  unfold State.setSlice; rfl
@[simp] theorem State.setSlice_draws (s : State) (i : Nat) (x : Slice) : (State.setSlice s i x).draws = s.draws := by
  unfold State.setSlice; rfl
@[simp] theorem State.setSlice_pending (s : State) (i : Nat) (x : Slice) : (State.setSlice s i x).pending = s.pending := by
  unfold State.setSlice; rfl

@[simp] theorem State.takeSlice_variant (s : State) (i : Nat) (c0 : Bool) : (State.takeSlice s i c0).variant = s.variant := by
  unfold State.takeSlice; rfl
@[simp] theorem State.takeSlice_now (s : State) (i : Nat) (c0 : Bool) : (State.takeSlice s i c0).now = s.now := by
  unfold State.takeSlice; rfl
@[simp] theorem State.takeSlice_regs (s : State) (i : Nat) (c0 : Bool) : (State.takeSlice s i c0).regs = s.regs := by
  unfold State.takeSlice; rfl
@[simp] theorem State.takeSlice_isl (s : State) (i : Nat) (c0 : Bool) : (State.takeSlice s i c0).isl = s.isl := by
  unfold State.takeSlice; rfl
@[simp] theorem State.takeSlice_mem (s : State) (i : Nat) (c0 : Bool) : (State.takeSlice s i c0).mem = s.mem := by
  unfold State.takeSlice; rfl
@[simp] theorem State.takeSlice_fab (s : State) (i : Nat) (c0 : Bool) : (State.takeSlice s i c0).fab = s.fab := by
  unfold State.takeSlice; rfl
@[simp] theorem State.takeSlice_icu (s : State) (i : Nat) (c0 : Bool) : (State.takeSlice s i c0).icu = s.icu := by
  unfold State.takeSlice; rfl
@[simp] theorem State.takeSlice_glm (s : State) (i : Nat) (c0 : Bool) : (State.takeSlice s i c0).glm = s.glm := by
  unfold State.takeSlice; rfl
@[simp] theorem State.takeSlice_gnm (s : State) (i : Nat) (c0 : Bool) : (State.takeSlice s i c0).gnm = s.gnm := by
  unfold State.takeSlice; rfl
@[simp] theorem State.takeSlice_qpe (s : State) (i : Nat) (c0 : Bool) : (State.takeSlice s i c0).qpe = s.qpe := by
  unfold State.takeSlice; rfl
@[simp] theorem State.takeSlice_cls (s : State) (i : Nat) (c0 : Bool) : (State.takeSlice s i c0).cls = s.cls := by
  unfold State.takeSlice; rfl
@[simp] theorem State.takeSlice_net (s : State) (i : Nat) (c0 : Bool) : (State.takeSlice s i c0).net = s.net := by
  unfold State.takeSlice; rfl
@[simp] theorem State.takeSlice_epf (s : State) (i : Nat) (c0 : Bool) : (State.takeSlice s i c0).epf = s.epf := by
  unfold State.takeSlice; rfl
@[simp] theorem State.takeSlice_xbr (s : State) (i : Nat) (c0 : Bool) : (State.takeSlice s i c0).xbr = s.xbr := by
  unfold State.takeSlice; rfl
@[simp] theorem State.takeSlice_cph (s : State) (i : Nat) (c0 : Bool) : (State.takeSlice s i c0).cph = s.cph := by
  unfold State.takeSlice; rfl
@[simp] theorem State.takeSlice_shd (s : State) (i : Nat) (c0 : Bool) : (State.takeSlice s i c0).shd = s.shd := by
  unfold State.takeSlice; rfl
@[simp] theorem State.takeSlice_spm (s : State) (i : Nat) (c0 : Bool) : (State.takeSlice s i c0).spm = s.spm := by
  unfold State.takeSlice; rfl
@[simp] theorem State.takeSlice_fct (s : State) (i : Nat) (c0 : Bool) : (State.takeSlice s i c0).fct = s.fct := by
  unfold State.takeSlice; rfl
@[simp] theorem State.takeSlice_sys (s : State) (i : Nat) (c0 : Bool) : (State.takeSlice s i c0).sys = s.sys := by
  unfold State.takeSlice; rfl
@[simp] theorem State.takeSlice_frames (s : State) (i : Nat) (c0 : Bool) : (State.takeSlice s i c0).frames = s.frames := by
  unfold State.takeSlice; rfl
@[simp] theorem State.takeSlice_out (s : State) (i : Nat) (c0 : Bool) : (State.takeSlice s i c0).out = s.out := by
  unfold State.takeSlice; rfl
@[simp] theorem State.takeSlice_draws (s : State) (i : Nat) (c0 : Bool) : (State.takeSlice s i c0).draws = s.draws := by
  unfold State.takeSlice; rfl
@[simp] theorem State.takeSlice_pending (s : State) (i : Nat) (c0 : Bool) : (State.takeSlice s i c0).pending = s.pending := by
  unfold State.takeSlice; rfl

@[simp] theorem State.freeSlice_variant (s : State) (h : Option (Nat × Bool)) : (State.freeSlice s h).variant = s.variant := by
  unfold State.freeSlice; split <;> simp
@[simp] theorem State.freeSlice_now (s : State) (h : Option (Nat × Bool)) : (State.freeSlice s h).now = s.now := by
  unfold State.freeSlice; split <;> simp
@[simp] theorem State.freeSlice_regs (s : State) (h : Option (Nat × Bool)) : (State.freeSlice s h).regs = s.regs := by
  unfold State.freeSlice; split <;> simp
@[simp] theorem State.freeSlice_isl (s : State) (h : Option (Nat × Bool)) : (State.freeSlice s h).isl = s.isl := by
  unfold State.freeSlice; split <;> simp
@[simp] theorem State.freeSlice_mem (s : State) (h : Option (Nat × Bool)) : (State.freeSlice s h).mem = s.mem := by
  unfold State.freeSlice; split <;> simp
@[simp] theorem State.freeSlice_fab (s : State) (h : Option (Nat × Bool)) : (State.freeSlice s h).fab = s.fab := by
  unfold State.freeSlice; split <;> simp
@[simp] theorem State.freeSlice_icu (s : State) (h : Option (Nat × Bool)) : (State.freeSlice s h).icu = s.icu := by
  unfold State.freeSlice; split <;> simp
@[simp] theorem State.freeSlice_glm (s : State) (h : Option (Nat × Bool)) : (State.freeSlice s h).glm = s.glm := by
  unfold State.freeSlice; split <;> simp
@[simp] theorem State.freeSlice_gnm (s : State) (h : Option (Nat × Bool)) : (State.freeSlice s h).gnm = s.gnm := by
  unfold State.freeSlice; split <;> simp
@[simp] theorem State.freeSlice_qpe (s : State) (h : Option (Nat × Bool)) : (State.freeSlice s h).qpe = s.qpe := by
  unfold State.freeSlice; split <;> simp
@[simp] theorem State.freeSlice_cls (s : State) (h : Option (Nat × Bool)) : (State.freeSlice s h).cls = s.cls := by
  unfold State.freeSlice; split <;> simp
@[simp] theorem State.freeSlice_net (s : State) (h : Option (Nat × Bool)) : (State.freeSlice s h).net = s.net := by
  unfold State.freeSlice; split <;> simp
@[simp] theorem State.freeSlice_epf (s : State) (h : Option (Nat × Bool)) : (State.freeSlice s h).epf = s.epf := by
  unfold State.freeSlice; split <;> simp
@[simp] theorem State.freeSlice_xbr (s : State) (h : Option (Nat × Bool)) : (State.freeSlice s h).xbr = s.xbr := by
  unfold State.freeSlice; split <;> simp
@[simp] theorem State.freeSlice_cph (s : State) (h : Option (Nat × Bool)) : (State.freeSlice s h).cph = s.cph := by
  unfold State.freeSlice; split <;> simp
@[simp] theorem State.freeSlice_shd (s : State) (h : Option (Nat × Bool)) : (State.freeSlice s h).shd = s.shd := by
  unfold State.freeSlice; split <;> simp
@[simp] theorem State.freeSlice_spm (s : State) (h : Option (Nat × Bool)) : (State.freeSlice s h).spm = s.spm := by
  unfold State.freeSlice; split <;> simp
@[simp] theorem State.freeSlice_fct (s : State) (h : Option (Nat × Bool)) : (State.freeSlice s h).fct = s.fct := by
  unfold State.freeSlice; split <;> simp
@[simp] theorem State.freeSlice_sys (s : State) (h : Option (Nat × Bool)) : (State.freeSlice s h).sys = s.sys := by
  unfold State.freeSlice; split <;> simp
@[simp] theorem State.freeSlice_frames (s : State) (h : Option (Nat × Bool)) : (State.freeSlice s h).frames = s.frames := by
  unfold State.freeSlice; split <;> simp
@[simp] theorem State.freeSlice_out (s : State) (h : Option (Nat × Bool)) : (State.freeSlice s h).out = s.out := by
  unfold State.freeSlice; split <;> simp
@[simp] theorem State.freeSlice_draws (s : State) (h : Option (Nat × Bool)) : (State.freeSlice s h).draws = s.draws := by
  unfold State.freeSlice; split <;> simp
@[simp] theorem State.freeSlice_pending (s : State) (h : Option (Nat × Bool)) : (State.freeSlice s h).pending = s.pending := by
  unfold State.freeSlice; split <;> simp

@[simp] theorem State.setThr_variant (s : State) (e t : Nat) (x : Thread) : (State.setThr s e t x).variant = s.variant := by
  unfold State.setThr; rfl
@[simp] theorem State.setThr_now (s : State) (e t : Nat) (x : Thread) : (State.setThr s e t x).now = s.now := by
  unfold State.setThr; rfl
@[simp] theorem State.setThr_regs (s : State) (e t : Nat) (x : Thread) : (State.setThr s e t x).regs = s.regs := by
  unfold State.setThr; rfl
@[simp] theorem State.setThr_isl (s : State) (e t : Nat) (x : Thread) : (State.setThr s e t x).isl = s.isl := by
  unfold State.setThr; rfl
@[simp] theorem State.setThr_mem (s : State) (e t : Nat) (x : Thread) : (State.setThr s e t x).mem = s.mem := by
  unfold State.setThr; rfl
@[simp] theorem State.setThr_fab (s : State) (e t : Nat) (x : Thread) : (State.setThr s e t x).fab = s.fab := by
  unfold State.setThr; rfl
@[simp] theorem State.setThr_icu (s : State) (e t : Nat) (x : Thread) : (State.setThr s e t x).icu = s.icu := by
  unfold State.setThr; rfl
@[simp] theorem State.setThr_glm (s : State) (e t : Nat) (x : Thread) : (State.setThr s e t x).glm = s.glm := by
  unfold State.setThr; rfl
@[simp] theorem State.setThr_gnm (s : State) (e t : Nat) (x : Thread) : (State.setThr s e t x).gnm = s.gnm := by
  unfold State.setThr; rfl
@[simp] theorem State.setThr_qpe (s : State) (e t : Nat) (x : Thread) : (State.setThr s e t x).qpe = s.qpe := by
  unfold State.setThr; rfl
@[simp] theorem State.setThr_cls (s : State) (e t : Nat) (x : Thread) : (State.setThr s e t x).cls = s.cls := by
  unfold State.setThr; rfl
@[simp] theorem State.setThr_str (s : State) (e t : Nat) (x : Thread) : (State.setThr s e t x).str = s.str := by
  unfold State.setThr; rfl
@[simp] theorem State.setThr_net (s : State) (e t : Nat) (x : Thread) : (State.setThr s e t x).net = s.net := by
  unfold State.setThr; rfl
@[simp] theorem State.setThr_epf (s : State) (e t : Nat) (x : Thread) : (State.setThr s e t x).epf = s.epf := by
  unfold State.setThr; rfl
@[simp] theorem State.setThr_xbr (s : State) (e t : Nat) (x : Thread) : (State.setThr s e t x).xbr = s.xbr := by
  unfold State.setThr; rfl
@[simp] theorem State.setThr_cph (s : State) (e t : Nat) (x : Thread) : (State.setThr s e t x).cph = s.cph := by
  unfold State.setThr; rfl
@[simp] theorem State.setThr_shd (s : State) (e t : Nat) (x : Thread) : (State.setThr s e t x).shd = s.shd := by
  unfold State.setThr; rfl
@[simp] theorem State.setThr_spm (s : State) (e t : Nat) (x : Thread) : (State.setThr s e t x).spm = s.spm := by
  unfold State.setThr; rfl
@[simp] theorem State.setThr_sys (s : State) (e t : Nat) (x : Thread) : (State.setThr s e t x).sys = s.sys := by
  unfold State.setThr; rfl
@[simp] theorem State.setThr_frames (s : State) (e t : Nat) (x : Thread) : (State.setThr s e t x).frames = s.frames := by
  unfold State.setThr; rfl
@[simp] theorem State.setThr_out (s : State) (e t : Nat) (x : Thread) : (State.setThr s e t x).out = s.out := by
  unfold State.setThr; rfl
@[simp] theorem State.setThr_draws (s : State) (e t : Nat) (x : Thread) : (State.setThr s e t x).draws = s.draws := by
  unfold State.setThr; rfl
@[simp] theorem State.setThr_pending (s : State) (e t : Nat) (x : Thread) : (State.setThr s e t x).pending = s.pending := by
  unfold State.setThr; rfl

@[simp] theorem State.updThr_variant (s : State) (e t : Nat) (f : Thread → Thread) : (State.updThr s e t f).variant = s.variant := by
  unfold State.updThr; rfl
@[simp] theorem State.updThr_now (s : State) (e t : Nat) (f : Thread → Thread) : (State.updThr s e t f).now = s.now := by
  unfold State.updThr; rfl
@[simp] theorem State.updThr_regs (s : State) (e t : Nat) (f : Thread → Thread) : (State.updThr s e t f).regs = s.regs := by
  unfold State.updThr; rfl
@[simp] theorem State.updThr_isl (s : State) (e t : Nat) (f : Thread → Thread) : (State.updThr s e t f).isl = s.isl := by
  unfold State.updThr; rfl
@[simp] theorem State.updThr_mem (s : State) (e t : Nat) (f : Thread → Thread) : (State.updThr s e t f).mem = s.mem := by
  unfold State.updThr; rfl
@[simp] theorem State.updThr_fab (s : State) (e t : Nat) (f : Thread → Thread) : (State.updThr s e t f).fab = s.fab := by
  unfold State.updThr; rfl
@[simp] theorem State.updThr_icu (s : State) (e t : Nat) (f : Thread → Thread) : (State.updThr s e t f).icu = s.icu := by
  unfold State.updThr; rfl
@[simp] theorem State.updThr_glm (s : State) (e t : Nat) (f : Thread → Thread) : (State.updThr s e t f).glm = s.glm := by
  unfold State.updThr; rfl
@[simp] theorem State.updThr_gnm (s : State) (e t : Nat) (f : Thread → Thread) : (State.updThr s e t f).gnm = s.gnm := by
  unfold State.updThr; rfl
@[simp] theorem State.updThr_qpe (s : State) (e t : Nat) (f : Thread → Thread) : (State.updThr s e t f).qpe = s.qpe := by
  unfold State.updThr; rfl
@[simp] theorem State.updThr_cls (s : State) (e t : Nat) (f : Thread → Thread) : (State.updThr s e t f).cls = s.cls := by
  unfold State.updThr; rfl
@[simp] theorem State.updThr_str (s : State) (e t : Nat) (f : Thread → Thread) : (State.updThr s e t f).str = s.str := by
  unfold State.updThr; rfl
@[simp] theorem State.updThr_net (s : State) (e t : Nat) (f : Thread → Thread) : (State.updThr s e t f).net = s.net := by
  unfold State.updThr; rfl
@[simp] theorem State.updThr_epf (s : State) (e t : Nat) (f : Thread → Thread) : (State.updThr s e t f).epf = s.epf := by
  unfold State.updThr; rfl
@[simp] theorem State.updThr_xbr (s : State) (e t : Nat) (f : Thread → Thread) : (State.updThr s e t f).xbr = s.xbr := by
  unfold State.updThr; rfl
@[simp] theorem State.updThr_cph (s : State) (e t : Nat) (f : Thread → Thread) : (State.updThr s e t f).cph = s.cph := by
  unfold State.updThr; rfl
@[simp] theorem State.updThr_shd (s : State) (e t : Nat) (f : Thread → Thread) : (State.updThr s e t f).shd = s.shd := by
  unfold State.updThr; rfl
@[simp] theorem State.updThr_spm (s : State) (e t : Nat) (f : Thread → Thread) : (State.updThr s e t f).spm = s.spm := by
  unfold State.updThr; rfl
@[simp] theorem State.updThr_sys (s : State) (e t : Nat) (f : Thread → Thread) : (State.updThr s e t f).sys = s.sys := by
  unfold State.updThr; rfl
@[simp] theorem State.updThr_frames (s : State) (e t : Nat) (f : Thread → Thread) : (State.updThr s e t f).frames = s.frames := by
  unfold State.updThr; rfl
@[simp] theorem State.updThr_out (s : State) (e t : Nat) (f : Thread → Thread) : (State.updThr s e t f).out = s.out := by
  unfold State.updThr; rfl
@[simp] theorem State.updThr_draws (s : State) (e t : Nat) (f : Thread → Thread) : (State.updThr s e t f).draws = s.draws := by
  unfold State.updThr; rfl
@[simp] theorem State.updThr_pending (s : State) (e t : Nat) (f : Thread → Thread) : (State.updThr s e t f).pending = s.pending := by
  unfold State.updThr; rfl

@[simp] theorem State.setEng_variant (s : State) (e : Nat) (x : Engine) : (State.setEng s e x).variant = s.variant := by
  unfold State.setEng; rfl
@[simp] theorem State.setEng_now (s : State) (e : Nat) (x : Engine) : (State.setEng s e x).now = s.now := by
  unfold State.setEng; rfl
@[simp] theorem State.setEng_regs (s : State) (e : Nat) (x : Engine) : (State.setEng s e x).regs = s.regs := by
  unfold State.setEng; rfl
@[simp] theorem State.setEng_isl (s : State) (e : Nat) (x : Engine) : (State.setEng s e x).isl = s.isl := by
  unfold State.setEng; rfl
@[simp] theorem State.setEng_mem (s : State) (e : Nat) (x : Engine) : (State.setEng s e x).mem = s.mem := by
  unfold State.setEng; rfl
@[simp] theorem State.setEng_fab (s : State) (e : Nat) (x : Engine) : (State.setEng s e x).fab = s.fab := by
  unfold State.setEng; rfl
@[simp] theorem State.setEng_icu (s : State) (e : Nat) (x : Engine) : (State.setEng s e x).icu = s.icu := by
  unfold State.setEng; rfl
@[simp] theorem State.setEng_glm (s : State) (e : Nat) (x : Engine) : (State.setEng s e x).glm = s.glm := by
  unfold State.setEng; rfl
@[simp] theorem State.setEng_gnm (s : State) (e : Nat) (x : Engine) : (State.setEng s e x).gnm = s.gnm := by
  unfold State.setEng; rfl
@[simp] theorem State.setEng_qpe (s : State) (e : Nat) (x : Engine) : (State.setEng s e x).qpe = s.qpe := by
  unfold State.setEng; rfl
@[simp] theorem State.setEng_cls (s : State) (e : Nat) (x : Engine) : (State.setEng s e x).cls = s.cls := by
  unfold State.setEng; rfl
@[simp] theorem State.setEng_str (s : State) (e : Nat) (x : Engine) : (State.setEng s e x).str = s.str := by
  unfold State.setEng; rfl
@[simp] theorem State.setEng_net (s : State) (e : Nat) (x : Engine) : (State.setEng s e x).net = s.net := by
  unfold State.setEng; rfl
@[simp] theorem State.setEng_epf (s : State) (e : Nat) (x : Engine) : (State.setEng s e x).epf = s.epf := by
  unfold State.setEng; rfl
@[simp] theorem State.setEng_xbr (s : State) (e : Nat) (x : Engine) : (State.setEng s e x).xbr = s.xbr := by
  unfold State.setEng; rfl
@[simp] theorem State.setEng_cph (s : State) (e : Nat) (x : Engine) : (State.setEng s e x).cph = s.cph := by
  unfold State.setEng; rfl
@[simp] theorem State.setEng_shd (s : State) (e : Nat) (x : Engine) : (State.setEng s e x).shd = s.shd := by
  unfold State.setEng; rfl
@[simp] theorem State.setEng_spm (s : State) (e : Nat) (x : Engine) : (State.setEng s e x).spm = s.spm := by
  unfold State.setEng; rfl
@[simp] theorem State.setEng_sys (s : State) (e : Nat) (x : Engine) : (State.setEng s e x).sys = s.sys := by
  unfold State.setEng; rfl
@[simp] theorem State.setEng_frames (s : State) (e : Nat) (x : Engine) : (State.setEng s e x).frames = s.frames := by
  unfold State.setEng; rfl
@[simp] theorem State.setEng_out (s : State) (e : Nat) (x : Engine) : (State.setEng s e x).out = s.out := by
  unfold State.setEng; rfl
@[simp] theorem State.setEng_draws (s : State) (e : Nat) (x : Engine) : (State.setEng s e x).draws = s.draws := by
  unfold State.setEng; rfl
@[simp] theorem State.setEng_pending (s : State) (e : Nat) (x : Engine) : (State.setEng s e x).pending = s.pending := by
  unfold State.setEng; rfl

@[simp] theorem State.setClu_variant (s : State) (c : Nat) (x : Cluster) : (State.setClu s c x).variant = s.variant := by
  unfold State.setClu; rfl
@[simp] theorem State.setClu_now (s : State) (c : Nat) (x : Cluster) : (State.setClu s c x).now = s.now := by
  unfold State.setClu; rfl
@[simp] theorem State.setClu_regs (s : State) (c : Nat) (x : Cluster) : (State.setClu s c x).regs = s.regs := by
  unfold State.setClu; rfl
@[simp] theorem State.setClu_isl (s : State) (c : Nat) (x : Cluster) : (State.setClu s c x).isl = s.isl := by
  unfold State.setClu; rfl
@[simp] theorem State.setClu_mem (s : State) (c : Nat) (x : Cluster) : (State.setClu s c x).mem = s.mem := by
  unfold State.setClu; rfl
@[simp] theorem State.setClu_fab (s : State) (c : Nat) (x : Cluster) : (State.setClu s c x).fab = s.fab := by
  unfold State.setClu; rfl
@[simp] theorem State.setClu_icu (s : State) (c : Nat) (x : Cluster) : (State.setClu s c x).icu = s.icu := by
  unfold State.setClu; rfl
@[simp] theorem State.setClu_glm (s : State) (c : Nat) (x : Cluster) : (State.setClu s c x).glm = s.glm := by
  unfold State.setClu; rfl
@[simp] theorem State.setClu_gnm (s : State) (c : Nat) (x : Cluster) : (State.setClu s c x).gnm = s.gnm := by
  unfold State.setClu; rfl
@[simp] theorem State.setClu_qpe (s : State) (c : Nat) (x : Cluster) : (State.setClu s c x).qpe = s.qpe := by
  unfold State.setClu; rfl
@[simp] theorem State.setClu_cls (s : State) (c : Nat) (x : Cluster) : (State.setClu s c x).cls = s.cls := by
  unfold State.setClu; rfl
@[simp] theorem State.setClu_str (s : State) (c : Nat) (x : Cluster) : (State.setClu s c x).str = s.str := by
  unfold State.setClu; rfl
@[simp] theorem State.setClu_net (s : State) (c : Nat) (x : Cluster) : (State.setClu s c x).net = s.net := by
  unfold State.setClu; rfl
@[simp] theorem State.setClu_epf (s : State) (c : Nat) (x : Cluster) : (State.setClu s c x).epf = s.epf := by
  unfold State.setClu; rfl
@[simp] theorem State.setClu_xbr (s : State) (c : Nat) (x : Cluster) : (State.setClu s c x).xbr = s.xbr := by
  unfold State.setClu; rfl
@[simp] theorem State.setClu_cph (s : State) (c : Nat) (x : Cluster) : (State.setClu s c x).cph = s.cph := by
  unfold State.setClu; rfl
@[simp] theorem State.setClu_shd (s : State) (c : Nat) (x : Cluster) : (State.setClu s c x).shd = s.shd := by
  unfold State.setClu; rfl
@[simp] theorem State.setClu_spm (s : State) (c : Nat) (x : Cluster) : (State.setClu s c x).spm = s.spm := by
  unfold State.setClu; rfl
@[simp] theorem State.setClu_sys (s : State) (c : Nat) (x : Cluster) : (State.setClu s c x).sys = s.sys := by
  unfold State.setClu; rfl
@[simp] theorem State.setClu_frames (s : State) (c : Nat) (x : Cluster) : (State.setClu s c x).frames = s.frames := by
  unfold State.setClu; rfl
@[simp] theorem State.setClu_out (s : State) (c : Nat) (x : Cluster) : (State.setClu s c x).out = s.out := by
  unfold State.setClu; rfl
@[simp] theorem State.setClu_draws (s : State) (c : Nat) (x : Cluster) : (State.setClu s c x).draws = s.draws := by
  unfold State.setClu; rfl
@[simp] theorem State.setClu_pending (s : State) (c : Nat) (x : Cluster) : (State.setClu s c x).pending = s.pending := by
  unfold State.setClu; rfl

@[simp] theorem State.putKey_variant (s : State) (idx : Nat) (k : KeyEntry) : (State.putKey s idx k).variant = s.variant := by
  simp [State.putKey]
@[simp] theorem State.putKey_now (s : State) (idx : Nat) (k : KeyEntry) : (State.putKey s idx k).now = s.now := by
  simp [State.putKey]
@[simp] theorem State.putKey_regs (s : State) (idx : Nat) (k : KeyEntry) : (State.putKey s idx k).regs = s.regs := by
  simp [State.putKey]
@[simp] theorem State.putKey_isl (s : State) (idx : Nat) (k : KeyEntry) : (State.putKey s idx k).isl = s.isl := by
  simp [State.putKey]
@[simp] theorem State.putKey_fab (s : State) (idx : Nat) (k : KeyEntry) : (State.putKey s idx k).fab = s.fab := by
  simp [State.putKey]
@[simp] theorem State.putKey_icu (s : State) (idx : Nat) (k : KeyEntry) : (State.putKey s idx k).icu = s.icu := by
  simp [State.putKey]
@[simp] theorem State.putKey_glm (s : State) (idx : Nat) (k : KeyEntry) : (State.putKey s idx k).glm = s.glm := by
  simp [State.putKey]
@[simp] theorem State.putKey_gnm (s : State) (idx : Nat) (k : KeyEntry) : (State.putKey s idx k).gnm = s.gnm := by
  simp [State.putKey]
@[simp] theorem State.putKey_qpe (s : State) (idx : Nat) (k : KeyEntry) : (State.putKey s idx k).qpe = s.qpe := by
  simp [State.putKey]
@[simp] theorem State.putKey_cls (s : State) (idx : Nat) (k : KeyEntry) : (State.putKey s idx k).cls = s.cls := by
  simp [State.putKey]
@[simp] theorem State.putKey_str (s : State) (idx : Nat) (k : KeyEntry) : (State.putKey s idx k).str = s.str := by
  simp [State.putKey]
@[simp] theorem State.putKey_net (s : State) (idx : Nat) (k : KeyEntry) : (State.putKey s idx k).net = s.net := by
  simp [State.putKey]
@[simp] theorem State.putKey_epf (s : State) (idx : Nat) (k : KeyEntry) : (State.putKey s idx k).epf = s.epf := by
  simp [State.putKey]
@[simp] theorem State.putKey_xbr (s : State) (idx : Nat) (k : KeyEntry) : (State.putKey s idx k).xbr = s.xbr := by
  simp [State.putKey]
@[simp] theorem State.putKey_cph (s : State) (idx : Nat) (k : KeyEntry) : (State.putKey s idx k).cph = s.cph := by
  simp [State.putKey]
@[simp] theorem State.putKey_spm (s : State) (idx : Nat) (k : KeyEntry) : (State.putKey s idx k).spm = s.spm := by
  simp [State.putKey]
@[simp] theorem State.putKey_fct (s : State) (idx : Nat) (k : KeyEntry) : (State.putKey s idx k).fct = s.fct := by
  simp [State.putKey]
@[simp] theorem State.putKey_sys (s : State) (idx : Nat) (k : KeyEntry) : (State.putKey s idx k).sys = s.sys := by
  simp [State.putKey]
@[simp] theorem State.putKey_frames (s : State) (idx : Nat) (k : KeyEntry) : (State.putKey s idx k).frames = s.frames := by
  simp [State.putKey]
@[simp] theorem State.putKey_out (s : State) (idx : Nat) (k : KeyEntry) : (State.putKey s idx k).out = s.out := by
  simp [State.putKey]
@[simp] theorem State.putKey_draws (s : State) (idx : Nat) (k : KeyEntry) : (State.putKey s idx k).draws = s.draws := by
  simp [State.putKey]
@[simp] theorem State.putKey_pending (s : State) (idx : Nat) (k : KeyEntry) : (State.putKey s idx k).pending = s.pending := by
  simp [State.putKey]

@[simp] theorem State.holdKey_variant (s : State) (mkey : Nat) : (State.holdKey s mkey).variant = s.variant := by
  unfold State.holdKey; dsimp only; split <;> simp
@[simp] theorem State.holdKey_now (s : State) (mkey : Nat) : (State.holdKey s mkey).now = s.now := by
  unfold State.holdKey; dsimp only; split <;> simp
@[simp] theorem State.holdKey_regs (s : State) (mkey : Nat) : (State.holdKey s mkey).regs = s.regs := by
  unfold State.holdKey; dsimp only; split <;> simp
@[simp] theorem State.holdKey_isl (s : State) (mkey : Nat) : (State.holdKey s mkey).isl = s.isl := by
  unfold State.holdKey; dsimp only; split <;> simp
@[simp] theorem State.holdKey_fab (s : State) (mkey : Nat) : (State.holdKey s mkey).fab = s.fab := by
  unfold State.holdKey; dsimp only; split <;> simp
@[simp] theorem State.holdKey_icu (s : State) (mkey : Nat) : (State.holdKey s mkey).icu = s.icu := by
  unfold State.holdKey; dsimp only; split <;> simp
@[simp] theorem State.holdKey_glm (s : State) (mkey : Nat) : (State.holdKey s mkey).glm = s.glm := by
  unfold State.holdKey; dsimp only; split <;> simp
@[simp] theorem State.holdKey_gnm (s : State) (mkey : Nat) : (State.holdKey s mkey).gnm = s.gnm := by
  unfold State.holdKey; dsimp only; split <;> simp
@[simp] theorem State.holdKey_qpe (s : State) (mkey : Nat) : (State.holdKey s mkey).qpe = s.qpe := by
  unfold State.holdKey; dsimp only; split <;> simp
@[simp] theorem State.holdKey_cls (s : State) (mkey : Nat) : (State.holdKey s mkey).cls = s.cls := by
  unfold State.holdKey; dsimp only; split <;> simp
@[simp] theorem State.holdKey_str (s : State) (mkey : Nat) : (State.holdKey s mkey).str = s.str := by
  unfold State.holdKey; dsimp only; split <;> simp
@[simp] theorem State.holdKey_net (s : State) (mkey : Nat) : (State.holdKey s mkey).net = s.net := by
  unfold State.holdKey; dsimp only; split <;> simp
@[simp] theorem State.holdKey_epf (s : State) (mkey : Nat) : (State.holdKey s mkey).epf = s.epf := by
  unfold State.holdKey; dsimp only; split <;> simp
@[simp] theorem State.holdKey_xbr (s : State) (mkey : Nat) : (State.holdKey s mkey).xbr = s.xbr := by
  unfold State.holdKey; dsimp only; split <;> simp
@[simp] theorem State.holdKey_cph (s : State) (mkey : Nat) : (State.holdKey s mkey).cph = s.cph := by
  unfold State.holdKey; dsimp only; split <;> simp
@[simp] theorem State.holdKey_spm (s : State) (mkey : Nat) : (State.holdKey s mkey).spm = s.spm := by
  unfold State.holdKey; dsimp only; split <;> simp
@[simp] theorem State.holdKey_fct (s : State) (mkey : Nat) : (State.holdKey s mkey).fct = s.fct := by
  unfold State.holdKey; dsimp only; split <;> simp
@[simp] theorem State.holdKey_sys (s : State) (mkey : Nat) : (State.holdKey s mkey).sys = s.sys := by
  unfold State.holdKey; dsimp only; split <;> simp
@[simp] theorem State.holdKey_frames (s : State) (mkey : Nat) : (State.holdKey s mkey).frames = s.frames := by
  unfold State.holdKey; dsimp only; split <;> simp
@[simp] theorem State.holdKey_out (s : State) (mkey : Nat) : (State.holdKey s mkey).out = s.out := by
  unfold State.holdKey; dsimp only; split <;> simp
@[simp] theorem State.holdKey_draws (s : State) (mkey : Nat) : (State.holdKey s mkey).draws = s.draws := by
  unfold State.holdKey; dsimp only; split <;> simp
@[simp] theorem State.holdKey_pending (s : State) (mkey : Nat) : (State.holdKey s mkey).pending = s.pending := by
  unfold State.holdKey; dsimp only; split <;> simp

@[simp] theorem State.dropKey_variant (s : State) (mkey : Nat) : (State.dropKey s mkey).variant = s.variant := by
  unfold State.dropKey; dsimp only; split; simp; split <;> simp
@[simp] theorem State.dropKey_now (s : State) (mkey : Nat) : (State.dropKey s mkey).now = s.now := by
  unfold State.dropKey; dsimp only; split; simp; split <;> simp
@[simp] theorem State.dropKey_regs (s : State) (mkey : Nat) : (State.dropKey s mkey).regs = s.regs := by
  unfold State.dropKey; dsimp only; split; simp; split <;> simp
@[simp] theorem State.dropKey_isl (s : State) (mkey : Nat) : (State.dropKey s mkey).isl = s.isl := by
  unfold State.dropKey; dsimp only; split; simp; split <;> simp
@[simp] theorem State.dropKey_fab (s : State) (mkey : Nat) : (State.dropKey s mkey).fab = s.fab := by
  unfold State.dropKey; dsimp only; split; simp; split <;> simp
@[simp] theorem State.dropKey_icu (s : State) (mkey : Nat) : (State.dropKey s mkey).icu = s.icu := by
  unfold State.dropKey; dsimp only; split; simp; split <;> simp
@[simp] theorem State.dropKey_glm (s : State) (mkey : Nat) : (State.dropKey s mkey).glm = s.glm := by
  unfold State.dropKey; dsimp only; split; simp; split <;> simp
@[simp] theorem State.dropKey_gnm (s : State) (mkey : Nat) : (State.dropKey s mkey).gnm = s.gnm := by
  unfold State.dropKey; dsimp only; split; simp; split <;> simp
@[simp] theorem State.dropKey_qpe (s : State) (mkey : Nat) : (State.dropKey s mkey).qpe = s.qpe := by
  unfold State.dropKey; dsimp only; split; simp; split <;> simp
@[simp] theorem State.dropKey_cls (s : State) (mkey : Nat) : (State.dropKey s mkey).cls = s.cls := by
  unfold State.dropKey; dsimp only; split; simp; split <;> simp
@[simp] theorem State.dropKey_str (s : State) (mkey : Nat) : (State.dropKey s mkey).str = s.str := by
  unfold State.dropKey; dsimp only; split; simp; split <;> simp
@[simp] theorem State.dropKey_net (s : State) (mkey : Nat) : (State.dropKey s mkey).net = s.net := by
  unfold State.dropKey; dsimp only; split; simp; split <;> simp
@[simp] theorem State.dropKey_epf (s : State) (mkey : Nat) : (State.dropKey s mkey).epf = s.epf := by
  unfold State.dropKey; dsimp only; split; simp; split <;> simp
@[simp] theorem State.dropKey_xbr (s : State) (mkey : Nat) : (State.dropKey s mkey).xbr = s.xbr := by
  unfold State.dropKey; dsimp only; split; simp; split <;> simp
@[simp] theorem State.dropKey_cph (s : State) (mkey : Nat) : (State.dropKey s mkey).cph = s.cph := by
  unfold State.dropKey; dsimp only; split; simp; split <;> simp
@[simp] theorem State.dropKey_spm (s : State) (mkey : Nat) : (State.dropKey s mkey).spm = s.spm := by
  unfold State.dropKey; dsimp only; split; simp; split <;> simp
@[simp] theorem State.dropKey_fct (s : State) (mkey : Nat) : (State.dropKey s mkey).fct = s.fct := by
  unfold State.dropKey; dsimp only; split; simp; split <;> simp
@[simp] theorem State.dropKey_sys (s : State) (mkey : Nat) : (State.dropKey s mkey).sys = s.sys := by
  unfold State.dropKey; dsimp only; split; simp; split <;> simp
@[simp] theorem State.dropKey_frames (s : State) (mkey : Nat) : (State.dropKey s mkey).frames = s.frames := by
  unfold State.dropKey; dsimp only; split; simp; split <;> simp
@[simp] theorem State.dropKey_out (s : State) (mkey : Nat) : (State.dropKey s mkey).out = s.out := by
  unfold State.dropKey; dsimp only; split; simp; split <;> simp
@[simp] theorem State.dropKey_draws (s : State) (mkey : Nat) : (State.dropKey s mkey).draws = s.draws := by
  unfold State.dropKey; dsimp only; split; simp; split <;> simp
@[simp] theorem State.dropKey_pending (s : State) (mkey : Nat) : (State.dropKey s mkey).pending = s.pending := by
  unfold State.dropKey; dsimp only; split; simp; split <;> simp

@[simp] theorem State.wireNext_variant (s : State) : (State.wireNext s).variant = s.variant := by
  unfold State.wireNext; dsimp only; split; simp; split <;> simp
@[simp] theorem State.wireNext_now (s : State) : (State.wireNext s).now = s.now := by
  unfold State.wireNext; dsimp only; split; simp; split <;> simp
@[simp] theorem State.wireNext_regs (s : State) : (State.wireNext s).regs = s.regs := by
  unfold State.wireNext; dsimp only; split; simp; split <;> simp
@[simp] theorem State.wireNext_isl (s : State) : (State.wireNext s).isl = s.isl := by
  unfold State.wireNext; dsimp only; split; simp; split <;> simp
@[simp] theorem State.wireNext_mem (s : State) : (State.wireNext s).mem = s.mem := by
  unfold State.wireNext; dsimp only; split; simp; split <;> simp
@[simp] theorem State.wireNext_fab (s : State) : (State.wireNext s).fab = s.fab := by
  unfold State.wireNext; dsimp only; split; simp; split <;> simp
@[simp] theorem State.wireNext_icu (s : State) : (State.wireNext s).icu = s.icu := by
  unfold State.wireNext; dsimp only; split; simp; split <;> simp
@[simp] theorem State.wireNext_glm (s : State) : (State.wireNext s).glm = s.glm := by
  unfold State.wireNext; dsimp only; split; simp; split <;> simp
@[simp] theorem State.wireNext_gnm (s : State) : (State.wireNext s).gnm = s.gnm := by
  unfold State.wireNext; dsimp only; split; simp; split <;> simp
@[simp] theorem State.wireNext_qpe (s : State) : (State.wireNext s).qpe = s.qpe := by
  unfold State.wireNext; dsimp only; split; simp; split <;> simp
@[simp] theorem State.wireNext_cls (s : State) : (State.wireNext s).cls = s.cls := by
  unfold State.wireNext; dsimp only; split; simp; split <;> simp
@[simp] theorem State.wireNext_str (s : State) : (State.wireNext s).str = s.str := by
  unfold State.wireNext; dsimp only; split; simp; split <;> simp
@[simp] theorem State.wireNext_net (s : State) : (State.wireNext s).net = s.net := by
  unfold State.wireNext; dsimp only; split; simp; split <;> simp
@[simp] theorem State.wireNext_epf (s : State) : (State.wireNext s).epf = s.epf := by
  unfold State.wireNext; dsimp only; split; simp; split <;> simp
@[simp] theorem State.wireNext_xbr (s : State) : (State.wireNext s).xbr = s.xbr := by
  unfold State.wireNext; dsimp only; split; simp; split <;> simp
@[simp] theorem State.wireNext_cph (s : State) : (State.wireNext s).cph = s.cph := by
  unfold State.wireNext; dsimp only; split; simp; split <;> simp
@[simp] theorem State.wireNext_spm (s : State) : (State.wireNext s).spm = s.spm := by
  unfold State.wireNext; dsimp only; split; simp; split <;> simp
@[simp] theorem State.wireNext_fct (s : State) : (State.wireNext s).fct = s.fct := by
  unfold State.wireNext; dsimp only; split; simp; split <;> simp
@[simp] theorem State.wireNext_sys (s : State) : (State.wireNext s).sys = s.sys := by
  unfold State.wireNext; dsimp only; split; simp; split <;> simp
@[simp] theorem State.wireNext_frames (s : State) : (State.wireNext s).frames = s.frames := by
  unfold State.wireNext; dsimp only; split; simp; split <;> simp
@[simp] theorem State.wireNext_draws (s : State) : (State.wireNext s).draws = s.draws := by
  unfold State.wireNext; dsimp only; split; simp; split <;> simp
@[simp] theorem State.wireNext_pending (s : State) : (State.wireNext s).pending = s.pending := by
  unfold State.wireNext; dsimp only; split; simp; split <;> simp

@[simp] theorem State.pushFrame_variant (s : State) (f : MirFrame) : (State.pushFrame s f).variant = s.variant := by
  unfold State.pushFrame; split <;> simp
@[simp] theorem State.pushFrame_now (s : State) (f : MirFrame) : (State.pushFrame s f).now = s.now := by
  unfold State.pushFrame; split <;> simp
@[simp] theorem State.pushFrame_regs (s : State) (f : MirFrame) : (State.pushFrame s f).regs = s.regs := by
  unfold State.pushFrame; split <;> simp
@[simp] theorem State.pushFrame_isl (s : State) (f : MirFrame) : (State.pushFrame s f).isl = s.isl := by
  unfold State.pushFrame; split <;> simp
@[simp] theorem State.pushFrame_mem (s : State) (f : MirFrame) : (State.pushFrame s f).mem = s.mem := by
  unfold State.pushFrame; split <;> simp
@[simp] theorem State.pushFrame_fab (s : State) (f : MirFrame) : (State.pushFrame s f).fab = s.fab := by
  unfold State.pushFrame; split <;> simp
@[simp] theorem State.pushFrame_icu (s : State) (f : MirFrame) : (State.pushFrame s f).icu = s.icu := by
  unfold State.pushFrame; split <;> simp
@[simp] theorem State.pushFrame_glm (s : State) (f : MirFrame) : (State.pushFrame s f).glm = s.glm := by
  unfold State.pushFrame; split <;> simp
@[simp] theorem State.pushFrame_gnm (s : State) (f : MirFrame) : (State.pushFrame s f).gnm = s.gnm := by
  unfold State.pushFrame; split <;> simp
@[simp] theorem State.pushFrame_qpe (s : State) (f : MirFrame) : (State.pushFrame s f).qpe = s.qpe := by
  unfold State.pushFrame; split <;> simp
@[simp] theorem State.pushFrame_cls (s : State) (f : MirFrame) : (State.pushFrame s f).cls = s.cls := by
  unfold State.pushFrame; split <;> simp
@[simp] theorem State.pushFrame_str (s : State) (f : MirFrame) : (State.pushFrame s f).str = s.str := by
  unfold State.pushFrame; split <;> simp
@[simp] theorem State.pushFrame_net (s : State) (f : MirFrame) : (State.pushFrame s f).net = s.net := by
  unfold State.pushFrame; split <;> simp
@[simp] theorem State.pushFrame_epf (s : State) (f : MirFrame) : (State.pushFrame s f).epf = s.epf := by
  unfold State.pushFrame; split <;> simp
@[simp] theorem State.pushFrame_xbr (s : State) (f : MirFrame) : (State.pushFrame s f).xbr = s.xbr := by
  unfold State.pushFrame; split <;> simp
@[simp] theorem State.pushFrame_cph (s : State) (f : MirFrame) : (State.pushFrame s f).cph = s.cph := by
  unfold State.pushFrame; split <;> simp
@[simp] theorem State.pushFrame_spm (s : State) (f : MirFrame) : (State.pushFrame s f).spm = s.spm := by
  unfold State.pushFrame; split <;> simp
@[simp] theorem State.pushFrame_fct (s : State) (f : MirFrame) : (State.pushFrame s f).fct = s.fct := by
  unfold State.pushFrame; split <;> simp
@[simp] theorem State.pushFrame_sys (s : State) (f : MirFrame) : (State.pushFrame s f).sys = s.sys := by
  unfold State.pushFrame; split <;> simp
@[simp] theorem State.pushFrame_frames (s : State) (f : MirFrame) : (State.pushFrame s f).frames = s.frames := by
  unfold State.pushFrame; split <;> simp
@[simp] theorem State.pushFrame_draws (s : State) (f : MirFrame) : (State.pushFrame s f).draws = s.draws := by
  unfold State.pushFrame; split <;> simp
@[simp] theorem State.pushFrame_pending (s : State) (f : MirFrame) : (State.pushFrame s f).pending = s.pending := by
  unfold State.pushFrame; split <;> simp

@[simp] theorem State.mirror_variant (s : State) (kind : MirKind) (args : List Nat) (b : Bytes) : (State.mirror s kind args b).variant = s.variant := by
  simp [State.mirror]
@[simp] theorem State.mirror_now (s : State) (kind : MirKind) (args : List Nat) (b : Bytes) : (State.mirror s kind args b).now = s.now := by
  simp [State.mirror]
@[simp] theorem State.mirror_regs (s : State) (kind : MirKind) (args : List Nat) (b : Bytes) : (State.mirror s kind args b).regs = s.regs := by
  simp [State.mirror]
@[simp] theorem State.mirror_isl (s : State) (kind : MirKind) (args : List Nat) (b : Bytes) : (State.mirror s kind args b).isl = s.isl := by
  simp [State.mirror]
@[simp] theorem State.mirror_mem (s : State) (kind : MirKind) (args : List Nat) (b : Bytes) : (State.mirror s kind args b).mem = s.mem := by
  simp [State.mirror]
@[simp] theorem State.mirror_fab (s : State) (kind : MirKind) (args : List Nat) (b : Bytes) : (State.mirror s kind args b).fab = s.fab := by
  simp [State.mirror]
@[simp] theorem State.mirror_icu (s : State) (kind : MirKind) (args : List Nat) (b : Bytes) : (State.mirror s kind args b).icu = s.icu := by
  simp [State.mirror]
@[simp] theorem State.mirror_glm (s : State) (kind : MirKind) (args : List Nat) (b : Bytes) : (State.mirror s kind args b).glm = s.glm := by
  simp [State.mirror]
@[simp] theorem State.mirror_gnm (s : State) (kind : MirKind) (args : List Nat) (b : Bytes) : (State.mirror s kind args b).gnm = s.gnm := by
  simp [State.mirror]
@[simp] theorem State.mirror_qpe (s : State) (kind : MirKind) (args : List Nat) (b : Bytes) : (State.mirror s kind args b).qpe = s.qpe := by
  simp [State.mirror]
@[simp] theorem State.mirror_cls (s : State) (kind : MirKind) (args : List Nat) (b : Bytes) : (State.mirror s kind args b).cls = s.cls := by
  simp [State.mirror]
@[simp] theorem State.mirror_str (s : State) (kind : MirKind) (args : List Nat) (b : Bytes) : (State.mirror s kind args b).str = s.str := by
  simp [State.mirror]
@[simp] theorem State.mirror_net (s : State) (kind : MirKind) (args : List Nat) (b : Bytes) : (State.mirror s kind args b).net = s.net := by
  simp [State.mirror]
@[simp] theorem State.mirror_epf (s : State) (kind : MirKind) (args : List Nat) (b : Bytes) : (State.mirror s kind args b).epf = s.epf := by
  simp [State.mirror]
@[simp] theorem State.mirror_xbr (s : State) (kind : MirKind) (args : List Nat) (b : Bytes) : (State.mirror s kind args b).xbr = s.xbr := by
  simp [State.mirror]
@[simp] theorem State.mirror_cph (s : State) (kind : MirKind) (args : List Nat) (b : Bytes) : (State.mirror s kind args b).cph = s.cph := by
  simp [State.mirror]
@[simp] theorem State.mirror_spm (s : State) (kind : MirKind) (args : List Nat) (b : Bytes) : (State.mirror s kind args b).spm = s.spm := by
  simp [State.mirror]
@[simp] theorem State.mirror_fct (s : State) (kind : MirKind) (args : List Nat) (b : Bytes) : (State.mirror s kind args b).fct = s.fct := by
  simp [State.mirror]
@[simp] theorem State.mirror_sys (s : State) (kind : MirKind) (args : List Nat) (b : Bytes) : (State.mirror s kind args b).sys = s.sys := by
  simp [State.mirror]
@[simp] theorem State.mirror_frames (s : State) (kind : MirKind) (args : List Nat) (b : Bytes) : (State.mirror s kind args b).frames = s.frames := by
  simp [State.mirror]
@[simp] theorem State.mirror_draws (s : State) (kind : MirKind) (args : List Nat) (b : Bytes) : (State.mirror s kind args b).draws = s.draws := by
  simp [State.mirror]
@[simp] theorem State.mirror_pending (s : State) (kind : MirKind) (args : List Nat) (b : Bytes) : (State.mirror s kind args b).pending = s.pending := by
  simp [State.mirror]

@[simp] theorem State.mirrorLog_variant (s : State) (r : LogRec) : (State.mirrorLog s r).variant = s.variant := by
  simp [State.mirrorLog]
@[simp] theorem State.mirrorLog_now (s : State) (r : LogRec) : (State.mirrorLog s r).now = s.now := by
  simp [State.mirrorLog]
@[simp] theorem State.mirrorLog_regs (s : State) (r : LogRec) : (State.mirrorLog s r).regs = s.regs := by
  simp [State.mirrorLog]
@[simp] theorem State.mirrorLog_isl (s : State) (r : LogRec) : (State.mirrorLog s r).isl = s.isl := by
  simp [State.mirrorLog]
@[simp] theorem State.mirrorLog_mem (s : State) (r : LogRec) : (State.mirrorLog s r).mem = s.mem := by
  simp [State.mirrorLog]
@[simp] theorem State.mirrorLog_fab (s : State) (r : LogRec) : (State.mirrorLog s r).fab = s.fab := by
  simp [State.mirrorLog]
@[simp] theorem State.mirrorLog_icu (s : State) (r : LogRec) : (State.mirrorLog s r).icu = s.icu := by
  simp [State.mirrorLog]
@[simp] theorem State.mirrorLog_glm (s : State) (r : LogRec) : (State.mirrorLog s r).glm = s.glm := by
  simp [State.mirrorLog]
@[simp] theorem State.mirrorLog_gnm (s : State) (r : LogRec) : (State.mirrorLog s r).gnm = s.gnm := by
  simp [State.mirrorLog]
@[simp] theorem State.mirrorLog_qpe (s : State) (r : LogRec) : (State.mirrorLog s r).qpe = s.qpe := by
  simp [State.mirrorLog]
@[simp] theorem State.mirrorLog_cls (s : State) (r : LogRec) : (State.mirrorLog s r).cls = s.cls := by
  simp [State.mirrorLog]
@[simp] theorem State.mirrorLog_str (s : State) (r : LogRec) : (State.mirrorLog s r).str = s.str := by
  simp [State.mirrorLog]
@[simp] theorem State.mirrorLog_net (s : State) (r : LogRec) : (State.mirrorLog s r).net = s.net := by
  simp [State.mirrorLog]
@[simp] theorem State.mirrorLog_epf (s : State) (r : LogRec) : (State.mirrorLog s r).epf = s.epf := by
  simp [State.mirrorLog]
@[simp] theorem State.mirrorLog_xbr (s : State) (r : LogRec) : (State.mirrorLog s r).xbr = s.xbr := by
  simp [State.mirrorLog]
@[simp] theorem State.mirrorLog_cph (s : State) (r : LogRec) : (State.mirrorLog s r).cph = s.cph := by
  simp [State.mirrorLog]
@[simp] theorem State.mirrorLog_spm (s : State) (r : LogRec) : (State.mirrorLog s r).spm = s.spm := by
  simp [State.mirrorLog]
@[simp] theorem State.mirrorLog_fct (s : State) (r : LogRec) : (State.mirrorLog s r).fct = s.fct := by
  simp [State.mirrorLog]
@[simp] theorem State.mirrorLog_sys (s : State) (r : LogRec) : (State.mirrorLog s r).sys = s.sys := by
  simp [State.mirrorLog]
@[simp] theorem State.mirrorLog_frames (s : State) (r : LogRec) : (State.mirrorLog s r).frames = s.frames := by
  simp [State.mirrorLog]
@[simp] theorem State.mirrorLog_draws (s : State) (r : LogRec) : (State.mirrorLog s r).draws = s.draws := by
  simp [State.mirrorLog]
@[simp] theorem State.mirrorLog_pending (s : State) (r : LogRec) : (State.mirrorLog s r).pending = s.pending := by
  simp [State.mirrorLog]

@[simp] theorem State.touch_variant (s : State) : (State.touch s).variant = s.variant := by unfold State.touch; rfl
@[simp] theorem State.touch_now (s : State) : (State.touch s).now = s.now := by unfold State.touch; rfl
@[simp] theorem State.touch_regs (s : State) : (State.touch s).regs = s.regs := by unfold State.touch; rfl
@[simp] theorem State.touch_isl (s : State) : (State.touch s).isl = s.isl := by unfold State.touch; rfl
@[simp] theorem State.touch_mem (s : State) : (State.touch s).mem = s.mem := by unfold State.touch; rfl
@[simp] theorem State.touch_fab (s : State) : (State.touch s).fab = s.fab := by unfold State.touch; rfl
@[simp] theorem State.touch_icu (s : State) : (State.touch s).icu = s.icu := by unfold State.touch; rfl
@[simp] theorem State.touch_glm (s : State) : (State.touch s).glm = s.glm := by unfold State.touch; rfl
@[simp] theorem State.touch_gnm (s : State) : (State.touch s).gnm = s.gnm := by unfold State.touch; rfl
@[simp] theorem State.touch_qpe (s : State) : (State.touch s).qpe = s.qpe := by unfold State.touch; rfl
@[simp] theorem State.touch_cls (s : State) : (State.touch s).cls = s.cls := by unfold State.touch; rfl
@[simp] theorem State.touch_str (s : State) : (State.touch s).str = s.str := by unfold State.touch; rfl
@[simp] theorem State.touch_net (s : State) : (State.touch s).net = s.net := by unfold State.touch; rfl
@[simp] theorem State.touch_epf (s : State) : (State.touch s).epf = s.epf := by unfold State.touch; rfl
@[simp] theorem State.touch_xbr (s : State) : (State.touch s).xbr = s.xbr := by unfold State.touch; rfl
@[simp] theorem State.touch_cph (s : State) : (State.touch s).cph = s.cph := by unfold State.touch; rfl
@[simp] theorem State.touch_spm (s : State) : (State.touch s).spm = s.spm := by unfold State.touch; rfl
@[simp] theorem State.touch_fct (s : State) : (State.touch s).fct = s.fct := by unfold State.touch; rfl
@[simp] theorem State.touch_sys (s : State) : (State.touch s).sys = s.sys := by unfold State.touch; rfl
@[simp] theorem State.touch_frames (s : State) : (State.touch s).frames = s.frames := by unfold State.touch; rfl
@[simp] theorem State.touch_out (s : State) : (State.touch s).out = s.out := by unfold State.touch; rfl
@[simp] theorem State.touch_draws (s : State) : (State.touch s).draws = s.draws := by unfold State.touch; rfl
@[simp] theorem State.touch_pending (s : State) : (State.touch s).pending = s.pending := by unfold State.touch; rfl

@[simp] theorem State.cfgPut_variant (s : State) (typ key : Nat) (v : Option CfgVal) : (State.cfgPut s typ key v).variant = s.variant := by
  unfold State.cfgPut; rfl
@[simp] theorem State.cfgPut_now (s : State) (typ key : Nat) (v : Option CfgVal) : (State.cfgPut s typ key v).now = s.now := by
  unfold State.cfgPut; rfl
@[simp] theorem State.cfgPut_regs (s : State) (typ key : Nat) (v : Option CfgVal) : (State.cfgPut s typ key v).regs = s.regs := by
  unfold State.cfgPut; rfl
@[simp] theorem State.cfgPut_isl (s : State) (typ key : Nat) (v : Option CfgVal) : (State.cfgPut s typ key v).isl = s.isl := by
  unfold State.cfgPut; rfl
@[simp] theorem State.cfgPut_mem (s : State) (typ key : Nat) (v : Option CfgVal) : (State.cfgPut s typ key v).mem = s.mem := by
  unfold State.cfgPut; rfl
@[simp] theorem State.cfgPut_fab (s : State) (typ key : Nat) (v : Option CfgVal) : (State.cfgPut s typ key v).fab = s.fab := by
  unfold State.cfgPut; rfl
@[simp] theorem State.cfgPut_icu (s : State) (typ key : Nat) (v : Option CfgVal) : (State.cfgPut s typ key v).icu = s.icu := by
  unfold State.cfgPut; rfl
@[simp] theorem State.cfgPut_glm (s : State) (typ key : Nat) (v : Option CfgVal) : (State.cfgPut s typ key v).glm = s.glm := by
  unfold State.cfgPut; rfl
@[simp] theorem State.cfgPut_gnm (s : State) (typ key : Nat) (v : Option CfgVal) : (State.cfgPut s typ key v).gnm = s.gnm := by
  unfold State.cfgPut; rfl
@[simp] theorem State.cfgPut_qpe (s : State) (typ key : Nat) (v : Option CfgVal) : (State.cfgPut s typ key v).qpe = s.qpe := by
  unfold State.cfgPut; rfl
@[simp] theorem State.cfgPut_cls (s : State) (typ key : Nat) (v : Option CfgVal) : (State.cfgPut s typ key v).cls = s.cls := by
  unfold State.cfgPut; rfl
@[simp] theorem State.cfgPut_str (s : State) (typ key : Nat) (v : Option CfgVal) : (State.cfgPut s typ key v).str = s.str := by
  unfold State.cfgPut; rfl
@[simp] theorem State.cfgPut_net (s : State) (typ key : Nat) (v : Option CfgVal) : (State.cfgPut s typ key v).net = s.net := by
  unfold State.cfgPut; rfl
@[simp] theorem State.cfgPut_epf (s : State) (typ key : Nat) (v : Option CfgVal) : (State.cfgPut s typ key v).epf = s.epf := by
  unfold State.cfgPut; rfl
@[simp] theorem State.cfgPut_xbr (s : State) (typ key : Nat) (v : Option CfgVal) : (State.cfgPut s typ key v).xbr = s.xbr := by
  unfold State.cfgPut; rfl
@[simp] theorem State.cfgPut_cph (s : State) (typ key : Nat) (v : Option CfgVal) : (State.cfgPut s typ key v).cph = s.cph := by
  unfold State.cfgPut; rfl
@[simp] theorem State.cfgPut_shd (s : State) (typ key : Nat) (v : Option CfgVal) : (State.cfgPut s typ key v).shd = s.shd := by
  unfold State.cfgPut; rfl
@[simp] theorem State.cfgPut_spm (s : State) (typ key : Nat) (v : Option CfgVal) : (State.cfgPut s typ key v).spm = s.spm := by
  unfold State.cfgPut; rfl
@[simp] theorem State.cfgPut_fct (s : State) (typ key : Nat) (v : Option CfgVal) : (State.cfgPut s typ key v).fct = s.fct := by
  unfold State.cfgPut; rfl
@[simp] theorem State.cfgPut_frames (s : State) (typ key : Nat) (v : Option CfgVal) : (State.cfgPut s typ key v).frames = s.frames := by
  unfold State.cfgPut; rfl
@[simp] theorem State.cfgPut_out (s : State) (typ key : Nat) (v : Option CfgVal) : (State.cfgPut s typ key v).out = s.out := by
  unfold State.cfgPut; rfl
@[simp] theorem State.cfgPut_draws (s : State) (typ key : Nat) (v : Option CfgVal) : (State.cfgPut s typ key v).draws = s.draws := by
  unfold State.cfgPut; rfl
@[simp] theorem State.cfgPut_pending (s : State) (typ key : Nat) (v : Option CfgVal) : (State.cfgPut s typ key v).pending = s.pending := by
  unfold State.cfgPut; rfl

@[simp] theorem State.setFunc_variant (s : State) (f : Nat) (x : EpFunc) : (State.setFunc s f x).variant = s.variant := by
  unfold State.setFunc; rfl
@[simp] theorem State.setFunc_now (s : State) (f : Nat) (x : EpFunc) : (State.setFunc s f x).now = s.now := by
  unfold State.setFunc; rfl
@[simp] theorem State.setFunc_regs (s : State) (f : Nat) (x : EpFunc) : (State.setFunc s f x).regs = s.regs := by
  unfold State.setFunc; rfl
@[simp] theorem State.setFunc_isl (s : State) (f : Nat) (x : EpFunc) : (State.setFunc s f x).isl = s.isl := by
  unfold State.setFunc; rfl
@[simp] theorem State.setFunc_mem (s : State) (f : Nat) (x : EpFunc) : (State.setFunc s f x).mem = s.mem := by
  unfold State.setFunc; rfl
@[simp] theorem State.setFunc_fab (s : State) (f : Nat) (x : EpFunc) : (State.setFunc s f x).fab = s.fab := by
  unfold State.setFunc; rfl
@[simp] theorem State.setFunc_icu (s : State) (f : Nat) (x : EpFunc) : (State.setFunc s f x).icu = s.icu := by
  unfold State.setFunc; rfl
@[simp] theorem State.setFunc_glm (s : State) (f : Nat) (x : EpFunc) : (State.setFunc s f x).glm = s.glm := by
  unfold State.setFunc; rfl
@[simp] theorem State.setFunc_gnm (s : State) (f : Nat) (x : EpFunc) : (State.setFunc s f x).gnm = s.gnm := by
  unfold State.setFunc; rfl
@[simp] theorem State.setFunc_qpe (s : State) (f : Nat) (x : EpFunc) : (State.setFunc s f x).qpe = s.qpe := by
  unfold State.setFunc; rfl
@[simp] theorem State.setFunc_cls (s : State) (f : Nat) (x : EpFunc) : (State.setFunc s f x).cls = s.cls := by
  unfold State.setFunc; rfl
@[simp] theorem State.setFunc_str (s : State) (f : Nat) (x : EpFunc) : (State.setFunc s f x).str = s.str := by
  unfold State.setFunc; rfl
@[simp] theorem State.setFunc_net (s : State) (f : Nat) (x : EpFunc) : (State.setFunc s f x).net = s.net := by
  unfold State.setFunc; rfl
@[simp] theorem State.setFunc_xbr (s : State) (f : Nat) (x : EpFunc) : (State.setFunc s f x).xbr = s.xbr := by
  unfold State.setFunc; rfl
@[simp] theorem State.setFunc_cph (s : State) (f : Nat) (x : EpFunc) : (State.setFunc s f x).cph = s.cph := by
  unfold State.setFunc; rfl
@[simp] theorem State.setFunc_shd (s : State) (f : Nat) (x : EpFunc) : (State.setFunc s f x).shd = s.shd := by
  unfold State.setFunc; rfl
@[simp] theorem State.setFunc_spm (s : State) (f : Nat) (x : EpFunc) : (State.setFunc s f x).spm = s.spm := by
  unfold State.setFunc; rfl
@[simp] theorem State.setFunc_fct (s : State) (f : Nat) (x : EpFunc) : (State.setFunc s f x).fct = s.fct := by
  unfold State.setFunc; rfl
@[simp] theorem State.setFunc_sys (s : State) (f : Nat) (x : EpFunc) : (State.setFunc s f x).sys = s.sys := by
  unfold State.setFunc; rfl
@[simp] theorem State.setFunc_frames (s : State) (f : Nat) (x : EpFunc) : (State.setFunc s f x).frames = s.frames := by
  unfold State.setFunc; rfl
@[simp] theorem State.setFunc_out (s : State) (f : Nat) (x : EpFunc) : (State.setFunc s f x).out = s.out := by
  unfold State.setFunc; rfl
@[simp] theorem State.setFunc_draws (s : State) (f : Nat) (x : EpFunc) : (State.setFunc s f x).draws = s.draws := by
  unfold State.setFunc; rfl
@[simp] theorem State.setFunc_pending (s : State) (f : Nat) (x : EpFunc) : (State.setFunc s f x).pending = s.pending := by
  unfold State.setFunc; rfl

@[simp] theorem State.syncEgress_variant (s : State) (pt : Nat) : (State.syncEgress s pt).variant = s.variant := by
  unfold State.syncEgress; rfl
@[simp] theorem State.syncEgress_now (s : State) (pt : Nat) : (State.syncEgress s pt).now = s.now := by
  unfold State.syncEgress; rfl
@[simp] theorem State.syncEgress_regs (s : State) (pt : Nat) : (State.syncEgress s pt).regs = s.regs := by
  unfold State.syncEgress; rfl
@[simp] theorem State.syncEgress_isl (s : State) (pt : Nat) : (State.syncEgress s pt).isl = s.isl := by
  unfold State.syncEgress; rfl
@[simp] theorem State.syncEgress_mem (s : State) (pt : Nat) : (State.syncEgress s pt).mem = s.mem := by
  unfold State.syncEgress; rfl
@[simp] theorem State.syncEgress_fab (s : State) (pt : Nat) : (State.syncEgress s pt).fab = s.fab := by
  unfold State.syncEgress; rfl
@[simp] theorem State.syncEgress_icu (s : State) (pt : Nat) : (State.syncEgress s pt).icu = s.icu := by
  unfold State.syncEgress; rfl
@[simp] theorem State.syncEgress_glm (s : State) (pt : Nat) : (State.syncEgress s pt).glm = s.glm := by
  unfold State.syncEgress; rfl
@[simp] theorem State.syncEgress_gnm (s : State) (pt : Nat) : (State.syncEgress s pt).gnm = s.gnm := by
  unfold State.syncEgress; rfl
@[simp] theorem State.syncEgress_qpe (s : State) (pt : Nat) : (State.syncEgress s pt).qpe = s.qpe := by
  unfold State.syncEgress; rfl
@[simp] theorem State.syncEgress_str (s : State) (pt : Nat) : (State.syncEgress s pt).str = s.str := by
  unfold State.syncEgress; rfl
@[simp] theorem State.syncEgress_net (s : State) (pt : Nat) : (State.syncEgress s pt).net = s.net := by
  unfold State.syncEgress; rfl
@[simp] theorem State.syncEgress_epf (s : State) (pt : Nat) : (State.syncEgress s pt).epf = s.epf := by
  unfold State.syncEgress; rfl
@[simp] theorem State.syncEgress_xbr (s : State) (pt : Nat) : (State.syncEgress s pt).xbr = s.xbr := by
  unfold State.syncEgress; rfl
@[simp] theorem State.syncEgress_cph (s : State) (pt : Nat) : (State.syncEgress s pt).cph = s.cph := by
  unfold State.syncEgress; rfl
@[simp] theorem State.syncEgress_shd (s : State) (pt : Nat) : (State.syncEgress s pt).shd = s.shd := by
  unfold State.syncEgress; rfl
@[simp] theorem State.syncEgress_spm (s : State) (pt : Nat) : (State.syncEgress s pt).spm = s.spm := by
  unfold State.syncEgress; rfl
@[simp] theorem State.syncEgress_fct (s : State) (pt : Nat) : (State.syncEgress s pt).fct = s.fct := by
  unfold State.syncEgress; rfl
@[simp] theorem State.syncEgress_sys (s : State) (pt : Nat) : (State.syncEgress s pt).sys = s.sys := by
  unfold State.syncEgress; rfl
@[simp] theorem State.syncEgress_frames (s : State) (pt : Nat) : (State.syncEgress s pt).frames = s.frames := by
  unfold State.syncEgress; rfl
@[simp] theorem State.syncEgress_out (s : State) (pt : Nat) : (State.syncEgress s pt).out = s.out := by
  unfold State.syncEgress; rfl
@[simp] theorem State.syncEgress_draws (s : State) (pt : Nat) : (State.syncEgress s pt).draws = s.draws := by
  unfold State.syncEgress; rfl
@[simp] theorem State.syncEgress_pending (s : State) (pt : Nat) : (State.syncEgress s pt).pending = s.pending := by
  unfold State.syncEgress; rfl

@[simp] theorem State.pushEgress_variant (s : State) (pt cls : Nat) (w : EgWhat) (cpl : Option Cpl) (more : Bool) : (State.pushEgress s pt cls w cpl more).variant = s.variant := by
  unfold State.pushEgress; rfl
@[simp] theorem State.pushEgress_now (s : State) (pt cls : Nat) (w : EgWhat) (cpl : Option Cpl) (more : Bool) : (State.pushEgress s pt cls w cpl more).now = s.now := by
  unfold State.pushEgress; rfl
@[simp] theorem State.pushEgress_regs (s : State) (pt cls : Nat) (w : EgWhat) (cpl : Option Cpl) (more : Bool) : (State.pushEgress s pt cls w cpl more).regs = s.regs := by
  unfold State.pushEgress; rfl
@[simp] theorem State.pushEgress_isl (s : State) (pt cls : Nat) (w : EgWhat) (cpl : Option Cpl) (more : Bool) : (State.pushEgress s pt cls w cpl more).isl = s.isl := by
  unfold State.pushEgress; rfl
@[simp] theorem State.pushEgress_mem (s : State) (pt cls : Nat) (w : EgWhat) (cpl : Option Cpl) (more : Bool) : (State.pushEgress s pt cls w cpl more).mem = s.mem := by
  unfold State.pushEgress; rfl
@[simp] theorem State.pushEgress_fab (s : State) (pt cls : Nat) (w : EgWhat) (cpl : Option Cpl) (more : Bool) : (State.pushEgress s pt cls w cpl more).fab = s.fab := by
  unfold State.pushEgress; rfl
@[simp] theorem State.pushEgress_icu (s : State) (pt cls : Nat) (w : EgWhat) (cpl : Option Cpl) (more : Bool) : (State.pushEgress s pt cls w cpl more).icu = s.icu := by
  unfold State.pushEgress; rfl
@[simp] theorem State.pushEgress_glm (s : State) (pt cls : Nat) (w : EgWhat) (cpl : Option Cpl) (more : Bool) : (State.pushEgress s pt cls w cpl more).glm = s.glm := by
  unfold State.pushEgress; rfl
@[simp] theorem State.pushEgress_gnm (s : State) (pt cls : Nat) (w : EgWhat) (cpl : Option Cpl) (more : Bool) : (State.pushEgress s pt cls w cpl more).gnm = s.gnm := by
  unfold State.pushEgress; rfl
@[simp] theorem State.pushEgress_qpe (s : State) (pt cls : Nat) (w : EgWhat) (cpl : Option Cpl) (more : Bool) : (State.pushEgress s pt cls w cpl more).qpe = s.qpe := by
  unfold State.pushEgress; rfl
@[simp] theorem State.pushEgress_str (s : State) (pt cls : Nat) (w : EgWhat) (cpl : Option Cpl) (more : Bool) : (State.pushEgress s pt cls w cpl more).str = s.str := by
  unfold State.pushEgress; rfl
@[simp] theorem State.pushEgress_epf (s : State) (pt cls : Nat) (w : EgWhat) (cpl : Option Cpl) (more : Bool) : (State.pushEgress s pt cls w cpl more).epf = s.epf := by
  unfold State.pushEgress; rfl
@[simp] theorem State.pushEgress_xbr (s : State) (pt cls : Nat) (w : EgWhat) (cpl : Option Cpl) (more : Bool) : (State.pushEgress s pt cls w cpl more).xbr = s.xbr := by
  unfold State.pushEgress; rfl
@[simp] theorem State.pushEgress_cph (s : State) (pt cls : Nat) (w : EgWhat) (cpl : Option Cpl) (more : Bool) : (State.pushEgress s pt cls w cpl more).cph = s.cph := by
  unfold State.pushEgress; rfl
@[simp] theorem State.pushEgress_shd (s : State) (pt cls : Nat) (w : EgWhat) (cpl : Option Cpl) (more : Bool) : (State.pushEgress s pt cls w cpl more).shd = s.shd := by
  unfold State.pushEgress; rfl
@[simp] theorem State.pushEgress_spm (s : State) (pt cls : Nat) (w : EgWhat) (cpl : Option Cpl) (more : Bool) : (State.pushEgress s pt cls w cpl more).spm = s.spm := by
  unfold State.pushEgress; rfl
@[simp] theorem State.pushEgress_fct (s : State) (pt cls : Nat) (w : EgWhat) (cpl : Option Cpl) (more : Bool) : (State.pushEgress s pt cls w cpl more).fct = s.fct := by
  unfold State.pushEgress; rfl
@[simp] theorem State.pushEgress_sys (s : State) (pt cls : Nat) (w : EgWhat) (cpl : Option Cpl) (more : Bool) : (State.pushEgress s pt cls w cpl more).sys = s.sys := by
  unfold State.pushEgress; rfl
@[simp] theorem State.pushEgress_frames (s : State) (pt cls : Nat) (w : EgWhat) (cpl : Option Cpl) (more : Bool) : (State.pushEgress s pt cls w cpl more).frames = s.frames := by
  unfold State.pushEgress; rfl
@[simp] theorem State.pushEgress_out (s : State) (pt cls : Nat) (w : EgWhat) (cpl : Option Cpl) (more : Bool) : (State.pushEgress s pt cls w cpl more).out = s.out := by
  unfold State.pushEgress; rfl
@[simp] theorem State.pushEgress_draws (s : State) (pt cls : Nat) (w : EgWhat) (cpl : Option Cpl) (more : Bool) : (State.pushEgress s pt cls w cpl more).draws = s.draws := by
  unfold State.pushEgress; rfl
@[simp] theorem State.pushEgress_pending (s : State) (pt cls : Nat) (w : EgWhat) (cpl : Option Cpl) (more : Bool) : (State.pushEgress s pt cls w cpl more).pending = s.pending := by
  unfold State.pushEgress; rfl

@[simp] theorem State.setOdt_variant (s : State) (c : Nat) (x : OdtConn) : (State.setOdt s c x).variant = s.variant := by
  unfold State.setOdt; rfl
@[simp] theorem State.setOdt_now (s : State) (c : Nat) (x : OdtConn) : (State.setOdt s c x).now = s.now := by
  unfold State.setOdt; rfl
@[simp] theorem State.setOdt_regs (s : State) (c : Nat) (x : OdtConn) : (State.setOdt s c x).regs = s.regs := by
  unfold State.setOdt; rfl
@[simp] theorem State.setOdt_isl (s : State) (c : Nat) (x : OdtConn) : (State.setOdt s c x).isl = s.isl := by
  unfold State.setOdt; rfl
@[simp] theorem State.setOdt_mem (s : State) (c : Nat) (x : OdtConn) : (State.setOdt s c x).mem = s.mem := by
  unfold State.setOdt; rfl
@[simp] theorem State.setOdt_fab (s : State) (c : Nat) (x : OdtConn) : (State.setOdt s c x).fab = s.fab := by
  unfold State.setOdt; rfl
@[simp] theorem State.setOdt_icu (s : State) (c : Nat) (x : OdtConn) : (State.setOdt s c x).icu = s.icu := by
  unfold State.setOdt; rfl
@[simp] theorem State.setOdt_glm (s : State) (c : Nat) (x : OdtConn) : (State.setOdt s c x).glm = s.glm := by
  unfold State.setOdt; rfl
@[simp] theorem State.setOdt_gnm (s : State) (c : Nat) (x : OdtConn) : (State.setOdt s c x).gnm = s.gnm := by
  unfold State.setOdt; rfl
@[simp] theorem State.setOdt_qpe (s : State) (c : Nat) (x : OdtConn) : (State.setOdt s c x).qpe = s.qpe := by
  unfold State.setOdt; rfl
@[simp] theorem State.setOdt_cls (s : State) (c : Nat) (x : OdtConn) : (State.setOdt s c x).cls = s.cls := by
  unfold State.setOdt; rfl
@[simp] theorem State.setOdt_str (s : State) (c : Nat) (x : OdtConn) : (State.setOdt s c x).str = s.str := by
  unfold State.setOdt; rfl
@[simp] theorem State.setOdt_epf (s : State) (c : Nat) (x : OdtConn) : (State.setOdt s c x).epf = s.epf := by
  unfold State.setOdt; rfl
@[simp] theorem State.setOdt_xbr (s : State) (c : Nat) (x : OdtConn) : (State.setOdt s c x).xbr = s.xbr := by
  unfold State.setOdt; rfl
@[simp] theorem State.setOdt_cph (s : State) (c : Nat) (x : OdtConn) : (State.setOdt s c x).cph = s.cph := by
  unfold State.setOdt; rfl
@[simp] theorem State.setOdt_shd (s : State) (c : Nat) (x : OdtConn) : (State.setOdt s c x).shd = s.shd := by
  unfold State.setOdt; rfl
@[simp] theorem State.setOdt_spm (s : State) (c : Nat) (x : OdtConn) : (State.setOdt s c x).spm = s.spm := by
  unfold State.setOdt; rfl
@[simp] theorem State.setOdt_fct (s : State) (c : Nat) (x : OdtConn) : (State.setOdt s c x).fct = s.fct := by
  unfold State.setOdt; rfl
@[simp] theorem State.setOdt_sys (s : State) (c : Nat) (x : OdtConn) : (State.setOdt s c x).sys = s.sys := by
  unfold State.setOdt; rfl
@[simp] theorem State.setOdt_frames (s : State) (c : Nat) (x : OdtConn) : (State.setOdt s c x).frames = s.frames := by
  unfold State.setOdt; rfl
@[simp] theorem State.setOdt_out (s : State) (c : Nat) (x : OdtConn) : (State.setOdt s c x).out = s.out := by
  unfold State.setOdt; rfl
@[simp] theorem State.setOdt_draws (s : State) (c : Nat) (x : OdtConn) : (State.setOdt s c x).draws = s.draws := by
  unfold State.setOdt; rfl
@[simp] theorem State.setOdt_pending (s : State) (c : Nat) (x : OdtConn) : (State.setOdt s c x).pending = s.pending := by
  unfold State.setOdt; rfl

@[simp] theorem State.setRoce_variant (s : State) (k : Nat) (x : RoceConn) : (State.setRoce s k x).variant = s.variant := by
  unfold State.setRoce; rfl
@[simp] theorem State.setRoce_now (s : State) (k : Nat) (x : RoceConn) : (State.setRoce s k x).now = s.now := by
  unfold State.setRoce; rfl
@[simp] theorem State.setRoce_regs (s : State) (k : Nat) (x : RoceConn) : (State.setRoce s k x).regs = s.regs := by
  unfold State.setRoce; rfl
@[simp] theorem State.setRoce_isl (s : State) (k : Nat) (x : RoceConn) : (State.setRoce s k x).isl = s.isl := by
  unfold State.setRoce; rfl
@[simp] theorem State.setRoce_mem (s : State) (k : Nat) (x : RoceConn) : (State.setRoce s k x).mem = s.mem := by
  unfold State.setRoce; rfl
@[simp] theorem State.setRoce_fab (s : State) (k : Nat) (x : RoceConn) : (State.setRoce s k x).fab = s.fab := by
  unfold State.setRoce; rfl
@[simp] theorem State.setRoce_icu (s : State) (k : Nat) (x : RoceConn) : (State.setRoce s k x).icu = s.icu := by
  unfold State.setRoce; rfl
@[simp] theorem State.setRoce_glm (s : State) (k : Nat) (x : RoceConn) : (State.setRoce s k x).glm = s.glm := by
  unfold State.setRoce; rfl
@[simp] theorem State.setRoce_gnm (s : State) (k : Nat) (x : RoceConn) : (State.setRoce s k x).gnm = s.gnm := by
  unfold State.setRoce; rfl
@[simp] theorem State.setRoce_qpe (s : State) (k : Nat) (x : RoceConn) : (State.setRoce s k x).qpe = s.qpe := by
  unfold State.setRoce; rfl
@[simp] theorem State.setRoce_cls (s : State) (k : Nat) (x : RoceConn) : (State.setRoce s k x).cls = s.cls := by
  unfold State.setRoce; rfl
@[simp] theorem State.setRoce_str (s : State) (k : Nat) (x : RoceConn) : (State.setRoce s k x).str = s.str := by
  unfold State.setRoce; rfl
@[simp] theorem State.setRoce_epf (s : State) (k : Nat) (x : RoceConn) : (State.setRoce s k x).epf = s.epf := by
  unfold State.setRoce; rfl
@[simp] theorem State.setRoce_xbr (s : State) (k : Nat) (x : RoceConn) : (State.setRoce s k x).xbr = s.xbr := by
  unfold State.setRoce; rfl
@[simp] theorem State.setRoce_cph (s : State) (k : Nat) (x : RoceConn) : (State.setRoce s k x).cph = s.cph := by
  unfold State.setRoce; rfl
@[simp] theorem State.setRoce_shd (s : State) (k : Nat) (x : RoceConn) : (State.setRoce s k x).shd = s.shd := by
  unfold State.setRoce; rfl
@[simp] theorem State.setRoce_spm (s : State) (k : Nat) (x : RoceConn) : (State.setRoce s k x).spm = s.spm := by
  unfold State.setRoce; rfl
@[simp] theorem State.setRoce_fct (s : State) (k : Nat) (x : RoceConn) : (State.setRoce s k x).fct = s.fct := by
  unfold State.setRoce; rfl
@[simp] theorem State.setRoce_sys (s : State) (k : Nat) (x : RoceConn) : (State.setRoce s k x).sys = s.sys := by
  unfold State.setRoce; rfl
@[simp] theorem State.setRoce_frames (s : State) (k : Nat) (x : RoceConn) : (State.setRoce s k x).frames = s.frames := by
  unfold State.setRoce; rfl
@[simp] theorem State.setRoce_out (s : State) (k : Nat) (x : RoceConn) : (State.setRoce s k x).out = s.out := by
  unfold State.setRoce; rfl
@[simp] theorem State.setRoce_draws (s : State) (k : Nat) (x : RoceConn) : (State.setRoce s k x).draws = s.draws := by
  unfold State.setRoce; rfl
@[simp] theorem State.setRoce_pending (s : State) (k : Nat) (x : RoceConn) : (State.setRoce s k x).pending = s.pending := by
  unfold State.setRoce; rfl

@[simp] theorem State.sendVector_variant (s : State) (f v cls : Nat) : (State.sendVector s f v cls).variant = s.variant := by
  unfold State.sendVector; dsimp only; repeat' (first | rfl | simp; done | split)
@[simp] theorem State.sendVector_now (s : State) (f v cls : Nat) : (State.sendVector s f v cls).now = s.now := by
  unfold State.sendVector; dsimp only; repeat' (first | rfl | simp; done | split)
@[simp] theorem State.sendVector_regs (s : State) (f v cls : Nat) : (State.sendVector s f v cls).regs = s.regs := by
  unfold State.sendVector; dsimp only; repeat' (first | rfl | simp; done | split)
@[simp] theorem State.sendVector_isl (s : State) (f v cls : Nat) : (State.sendVector s f v cls).isl = s.isl := by
  unfold State.sendVector; dsimp only; repeat' (first | rfl | simp; done | split)
@[simp] theorem State.sendVector_mem (s : State) (f v cls : Nat) : (State.sendVector s f v cls).mem = s.mem := by
  unfold State.sendVector; dsimp only; repeat' (first | rfl | simp; done | split)
@[simp] theorem State.sendVector_fab (s : State) (f v cls : Nat) : (State.sendVector s f v cls).fab = s.fab := by
  unfold State.sendVector; dsimp only; repeat' (first | rfl | simp; done | split)
@[simp] theorem State.sendVector_icu (s : State) (f v cls : Nat) : (State.sendVector s f v cls).icu = s.icu := by
  unfold State.sendVector; dsimp only; repeat' (first | rfl | simp; done | split)
@[simp] theorem State.sendVector_glm (s : State) (f v cls : Nat) : (State.sendVector s f v cls).glm = s.glm := by
  unfold State.sendVector; dsimp only; repeat' (first | rfl | simp; done | split)
@[simp] theorem State.sendVector_gnm (s : State) (f v cls : Nat) : (State.sendVector s f v cls).gnm = s.gnm := by
  unfold State.sendVector; dsimp only; repeat' (first | rfl | simp; done | split)
@[simp] theorem State.sendVector_qpe (s : State) (f v cls : Nat) : (State.sendVector s f v cls).qpe = s.qpe := by
  unfold State.sendVector; dsimp only; repeat' (first | rfl | simp; done | split)
@[simp] theorem State.sendVector_str (s : State) (f v cls : Nat) : (State.sendVector s f v cls).str = s.str := by
  unfold State.sendVector; dsimp only; repeat' (first | rfl | simp; done | split)
@[simp] theorem State.sendVector_xbr (s : State) (f v cls : Nat) : (State.sendVector s f v cls).xbr = s.xbr := by
  unfold State.sendVector; dsimp only; repeat' (first | rfl | simp; done | split)
@[simp] theorem State.sendVector_cph (s : State) (f v cls : Nat) : (State.sendVector s f v cls).cph = s.cph := by
  unfold State.sendVector; dsimp only; repeat' (first | rfl | simp; done | split)
@[simp] theorem State.sendVector_shd (s : State) (f v cls : Nat) : (State.sendVector s f v cls).shd = s.shd := by
  unfold State.sendVector; dsimp only; repeat' (first | rfl | simp; done | split)
@[simp] theorem State.sendVector_spm (s : State) (f v cls : Nat) : (State.sendVector s f v cls).spm = s.spm := by
  unfold State.sendVector; dsimp only; repeat' (first | rfl | simp; done | split)
@[simp] theorem State.sendVector_fct (s : State) (f v cls : Nat) : (State.sendVector s f v cls).fct = s.fct := by
  unfold State.sendVector; dsimp only; repeat' (first | rfl | simp; done | split)
@[simp] theorem State.sendVector_sys (s : State) (f v cls : Nat) : (State.sendVector s f v cls).sys = s.sys := by
  unfold State.sendVector; dsimp only; repeat' (first | rfl | simp; done | split)
@[simp] theorem State.sendVector_frames (s : State) (f v cls : Nat) : (State.sendVector s f v cls).frames = s.frames := by
  unfold State.sendVector; dsimp only; repeat' (first | rfl | simp; done | split)
@[simp] theorem State.sendVector_out (s : State) (f v cls : Nat) : (State.sendVector s f v cls).out = s.out := by
  unfold State.sendVector; dsimp only; repeat' (first | rfl | simp; done | split)
@[simp] theorem State.sendVector_draws (s : State) (f v cls : Nat) : (State.sendVector s f v cls).draws = s.draws := by
  unfold State.sendVector; dsimp only; repeat' (first | rfl | simp; done | split)
@[simp] theorem State.sendVector_pending (s : State) (f v cls : Nat) : (State.sendVector s f v cls).pending = s.pending := by
  unfold State.sendVector; dsimp only; repeat' (first | rfl | simp; done | split)

@[simp] theorem State.setGroup_variant (s : State) (i : Nat) (g : Group) : (State.setGroup s i g).variant = s.variant := by
  unfold State.setGroup; rfl
@[simp] theorem State.setGroup_now (s : State) (i : Nat) (g : Group) : (State.setGroup s i g).now = s.now := by
  unfold State.setGroup; rfl
@[simp] theorem State.setGroup_regs (s : State) (i : Nat) (g : Group) : (State.setGroup s i g).regs = s.regs := by
  unfold State.setGroup; rfl
@[simp] theorem State.setGroup_isl (s : State) (i : Nat) (g : Group) : (State.setGroup s i g).isl = s.isl := by
  unfold State.setGroup; rfl
@[simp] theorem State.setGroup_mem (s : State) (i : Nat) (g : Group) : (State.setGroup s i g).mem = s.mem := by
  unfold State.setGroup; rfl
@[simp] theorem State.setGroup_fab (s : State) (i : Nat) (g : Group) : (State.setGroup s i g).fab = s.fab := by
  unfold State.setGroup; rfl
@[simp] theorem State.setGroup_icu (s : State) (i : Nat) (g : Group) : (State.setGroup s i g).icu = s.icu := by
  unfold State.setGroup; rfl
@[simp] theorem State.setGroup_glm (s : State) (i : Nat) (g : Group) : (State.setGroup s i g).glm = s.glm := by
  unfold State.setGroup; rfl
@[simp] theorem State.setGroup_gnm (s : State) (i : Nat) (g : Group) : (State.setGroup s i g).gnm = s.gnm := by
  unfold State.setGroup; rfl
@[simp] theorem State.setGroup_qpe (s : State) (i : Nat) (g : Group) : (State.setGroup s i g).qpe = s.qpe := by
  unfold State.setGroup; rfl
@[simp] theorem State.setGroup_cls (s : State) (i : Nat) (g : Group) : (State.setGroup s i g).cls = s.cls := by
  unfold State.setGroup; rfl
@[simp] theorem State.setGroup_net (s : State) (i : Nat) (g : Group) : (State.setGroup s i g).net = s.net := by
  unfold State.setGroup; rfl
@[simp] theorem State.setGroup_epf (s : State) (i : Nat) (g : Group) : (State.setGroup s i g).epf = s.epf := by
  unfold State.setGroup; rfl
@[simp] theorem State.setGroup_xbr (s : State) (i : Nat) (g : Group) : (State.setGroup s i g).xbr = s.xbr := by
  unfold State.setGroup; rfl
@[simp] theorem State.setGroup_cph (s : State) (i : Nat) (g : Group) : (State.setGroup s i g).cph = s.cph := by
  unfold State.setGroup; rfl
@[simp] theorem State.setGroup_shd (s : State) (i : Nat) (g : Group) : (State.setGroup s i g).shd = s.shd := by
  unfold State.setGroup; rfl
@[simp] theorem State.setGroup_spm (s : State) (i : Nat) (g : Group) : (State.setGroup s i g).spm = s.spm := by
  unfold State.setGroup; rfl
@[simp] theorem State.setGroup_fct (s : State) (i : Nat) (g : Group) : (State.setGroup s i g).fct = s.fct := by
  unfold State.setGroup; rfl
@[simp] theorem State.setGroup_sys (s : State) (i : Nat) (g : Group) : (State.setGroup s i g).sys = s.sys := by
  unfold State.setGroup; rfl
@[simp] theorem State.setGroup_frames (s : State) (i : Nat) (g : Group) : (State.setGroup s i g).frames = s.frames := by
  unfold State.setGroup; rfl
@[simp] theorem State.setGroup_out (s : State) (i : Nat) (g : Group) : (State.setGroup s i g).out = s.out := by
  unfold State.setGroup; rfl
@[simp] theorem State.setGroup_draws (s : State) (i : Nat) (g : Group) : (State.setGroup s i g).draws = s.draws := by
  unfold State.setGroup; rfl
@[simp] theorem State.setGroup_pending (s : State) (i : Nat) (g : Group) : (State.setGroup s i g).pending = s.pending := by
  unfold State.setGroup; rfl

@[simp] theorem State.updGroup_variant (s : State) (i : Nat) (f : Group → Group) : (State.updGroup s i f).variant = s.variant := by
  unfold State.updGroup; split <;> simp
@[simp] theorem State.updGroup_now (s : State) (i : Nat) (f : Group → Group) : (State.updGroup s i f).now = s.now := by
  unfold State.updGroup; split <;> simp
@[simp] theorem State.updGroup_regs (s : State) (i : Nat) (f : Group → Group) : (State.updGroup s i f).regs = s.regs := by
  unfold State.updGroup; split <;> simp
@[simp] theorem State.updGroup_isl (s : State) (i : Nat) (f : Group → Group) : (State.updGroup s i f).isl = s.isl := by
  unfold State.updGroup; split <;> simp
@[simp] theorem State.updGroup_mem (s : State) (i : Nat) (f : Group → Group) : (State.updGroup s i f).mem = s.mem := by
  unfold State.updGroup; split <;> simp
@[simp] theorem State.updGroup_fab (s : State) (i : Nat) (f : Group → Group) : (State.updGroup s i f).fab = s.fab := by
  unfold State.updGroup; split <;> simp
@[simp] theorem State.updGroup_icu (s : State) (i : Nat) (f : Group → Group) : (State.updGroup s i f).icu = s.icu := by
  unfold State.updGroup; split <;> simp
@[simp] theorem State.updGroup_glm (s : State) (i : Nat) (f : Group → Group) : (State.updGroup s i f).glm = s.glm := by
  unfold State.updGroup; split <;> simp
@[simp] theorem State.updGroup_gnm (s : State) (i : Nat) (f : Group → Group) : (State.updGroup s i f).gnm = s.gnm := by
  unfold State.updGroup; split <;> simp
@[simp] theorem State.updGroup_qpe (s : State) (i : Nat) (f : Group → Group) : (State.updGroup s i f).qpe = s.qpe := by
  unfold State.updGroup; split <;> simp
@[simp] theorem State.updGroup_cls (s : State) (i : Nat) (f : Group → Group) : (State.updGroup s i f).cls = s.cls := by
  unfold State.updGroup; split <;> simp
@[simp] theorem State.updGroup_net (s : State) (i : Nat) (f : Group → Group) : (State.updGroup s i f).net = s.net := by
  unfold State.updGroup; split <;> simp
@[simp] theorem State.updGroup_epf (s : State) (i : Nat) (f : Group → Group) : (State.updGroup s i f).epf = s.epf := by
  unfold State.updGroup; split <;> simp
@[simp] theorem State.updGroup_xbr (s : State) (i : Nat) (f : Group → Group) : (State.updGroup s i f).xbr = s.xbr := by
  unfold State.updGroup; split <;> simp
@[simp] theorem State.updGroup_cph (s : State) (i : Nat) (f : Group → Group) : (State.updGroup s i f).cph = s.cph := by
  unfold State.updGroup; split <;> simp
@[simp] theorem State.updGroup_shd (s : State) (i : Nat) (f : Group → Group) : (State.updGroup s i f).shd = s.shd := by
  unfold State.updGroup; split <;> simp
@[simp] theorem State.updGroup_spm (s : State) (i : Nat) (f : Group → Group) : (State.updGroup s i f).spm = s.spm := by
  unfold State.updGroup; split <;> simp
@[simp] theorem State.updGroup_fct (s : State) (i : Nat) (f : Group → Group) : (State.updGroup s i f).fct = s.fct := by
  unfold State.updGroup; split <;> simp
@[simp] theorem State.updGroup_sys (s : State) (i : Nat) (f : Group → Group) : (State.updGroup s i f).sys = s.sys := by
  unfold State.updGroup; split <;> simp
@[simp] theorem State.updGroup_frames (s : State) (i : Nat) (f : Group → Group) : (State.updGroup s i f).frames = s.frames := by
  unfold State.updGroup; split <;> simp
@[simp] theorem State.updGroup_out (s : State) (i : Nat) (f : Group → Group) : (State.updGroup s i f).out = s.out := by
  unfold State.updGroup; split <;> simp
@[simp] theorem State.updGroup_draws (s : State) (i : Nat) (f : Group → Group) : (State.updGroup s i f).draws = s.draws := by
  unfold State.updGroup; split <;> simp
@[simp] theorem State.updGroup_pending (s : State) (i : Nat) (f : Group → Group) : (State.updGroup s i f).pending = s.pending := by
  unfold State.updGroup; split <;> simp

@[simp] theorem State.updMember_variant (s : State) (sl : Nat) (f : Member → Member) : (State.updMember s sl f).variant = s.variant := by
  unfold State.updMember; dsimp only; repeat' (first | rfl | simp; done | split)
@[simp] theorem State.updMember_now (s : State) (sl : Nat) (f : Member → Member) : (State.updMember s sl f).now = s.now := by
  unfold State.updMember; dsimp only; repeat' (first | rfl | simp; done | split)
@[simp] theorem State.updMember_regs (s : State) (sl : Nat) (f : Member → Member) : (State.updMember s sl f).regs = s.regs := by
  unfold State.updMember; dsimp only; repeat' (first | rfl | simp; done | split)
@[simp] theorem State.updMember_isl (s : State) (sl : Nat) (f : Member → Member) : (State.updMember s sl f).isl = s.isl := by
  unfold State.updMember; dsimp only; repeat' (first | rfl | simp; done | split)
@[simp] theorem State.updMember_mem (s : State) (sl : Nat) (f : Member → Member) : (State.updMember s sl f).mem = s.mem := by
  unfold State.updMember; dsimp only; repeat' (first | rfl | simp; done | split)
@[simp] theorem State.updMember_fab (s : State) (sl : Nat) (f : Member → Member) : (State.updMember s sl f).fab = s.fab := by
  unfold State.updMember; dsimp only; repeat' (first | rfl | simp; done | split)
@[simp] theorem State.updMember_icu (s : State) (sl : Nat) (f : Member → Member) : (State.updMember s sl f).icu = s.icu := by
  unfold State.updMember; dsimp only; repeat' (first | rfl | simp; done | split)
@[simp] theorem State.updMember_glm (s : State) (sl : Nat) (f : Member → Member) : (State.updMember s sl f).glm = s.glm := by
  unfold State.updMember; dsimp only; repeat' (first | rfl | simp; done | split)
@[simp] theorem State.updMember_gnm (s : State) (sl : Nat) (f : Member → Member) : (State.updMember s sl f).gnm = s.gnm := by
  unfold State.updMember; dsimp only; repeat' (first | rfl | simp; done | split)
@[simp] theorem State.updMember_qpe (s : State) (sl : Nat) (f : Member → Member) : (State.updMember s sl f).qpe = s.qpe := by
  unfold State.updMember; dsimp only; repeat' (first | rfl | simp; done | split)
@[simp] theorem State.updMember_cls (s : State) (sl : Nat) (f : Member → Member) : (State.updMember s sl f).cls = s.cls := by
  unfold State.updMember; dsimp only; repeat' (first | rfl | simp; done | split)
@[simp] theorem State.updMember_net (s : State) (sl : Nat) (f : Member → Member) : (State.updMember s sl f).net = s.net := by
  unfold State.updMember; dsimp only; repeat' (first | rfl | simp; done | split)
@[simp] theorem State.updMember_epf (s : State) (sl : Nat) (f : Member → Member) : (State.updMember s sl f).epf = s.epf := by
  unfold State.updMember; dsimp only; repeat' (first | rfl | simp; done | split)
@[simp] theorem State.updMember_xbr (s : State) (sl : Nat) (f : Member → Member) : (State.updMember s sl f).xbr = s.xbr := by
  unfold State.updMember; dsimp only; repeat' (first | rfl | simp; done | split)
@[simp] theorem State.updMember_cph (s : State) (sl : Nat) (f : Member → Member) : (State.updMember s sl f).cph = s.cph := by
  unfold State.updMember; dsimp only; repeat' (first | rfl | simp; done | split)
@[simp] theorem State.updMember_spm (s : State) (sl : Nat) (f : Member → Member) : (State.updMember s sl f).spm = s.spm := by
  unfold State.updMember; dsimp only; repeat' (first | rfl | simp; done | split)
@[simp] theorem State.updMember_fct (s : State) (sl : Nat) (f : Member → Member) : (State.updMember s sl f).fct = s.fct := by
  unfold State.updMember; dsimp only; repeat' (first | rfl | simp; done | split)
@[simp] theorem State.updMember_frames (s : State) (sl : Nat) (f : Member → Member) : (State.updMember s sl f).frames = s.frames := by
  unfold State.updMember; dsimp only; repeat' (first | rfl | simp; done | split)
@[simp] theorem State.updMember_out (s : State) (sl : Nat) (f : Member → Member) : (State.updMember s sl f).out = s.out := by
  unfold State.updMember; dsimp only; repeat' (first | rfl | simp; done | split)
@[simp] theorem State.updMember_pending (s : State) (sl : Nat) (f : Member → Member) : (State.updMember s sl f).pending = s.pending := by
  unfold State.updMember; dsimp only; repeat' (first | rfl | simp; done | split)

@[simp] theorem State.setQp_variant (s : State) (q : Nat) (x : Qp) : (State.setQp s q x).variant = s.variant := by
  unfold State.setQp; split <;> simp
@[simp] theorem State.setQp_now (s : State) (q : Nat) (x : Qp) : (State.setQp s q x).now = s.now := by
  unfold State.setQp; split <;> simp
@[simp] theorem State.setQp_regs (s : State) (q : Nat) (x : Qp) : (State.setQp s q x).regs = s.regs := by
  unfold State.setQp; split <;> simp
@[simp] theorem State.setQp_isl (s : State) (q : Nat) (x : Qp) : (State.setQp s q x).isl = s.isl := by
  unfold State.setQp; split <;> simp
@[simp] theorem State.setQp_mem (s : State) (q : Nat) (x : Qp) : (State.setQp s q x).mem = s.mem := by
  unfold State.setQp; split <;> simp
@[simp] theorem State.setQp_fab (s : State) (q : Nat) (x : Qp) : (State.setQp s q x).fab = s.fab := by
  unfold State.setQp; split <;> simp
@[simp] theorem State.setQp_icu (s : State) (q : Nat) (x : Qp) : (State.setQp s q x).icu = s.icu := by
  unfold State.setQp; split <;> simp
@[simp] theorem State.setQp_glm (s : State) (q : Nat) (x : Qp) : (State.setQp s q x).glm = s.glm := by
  unfold State.setQp; split <;> simp
@[simp] theorem State.setQp_gnm (s : State) (q : Nat) (x : Qp) : (State.setQp s q x).gnm = s.gnm := by
  unfold State.setQp; split <;> simp
@[simp] theorem State.setQp_cls (s : State) (q : Nat) (x : Qp) : (State.setQp s q x).cls = s.cls := by
  unfold State.setQp; split <;> simp
@[simp] theorem State.setQp_str (s : State) (q : Nat) (x : Qp) : (State.setQp s q x).str = s.str := by
  unfold State.setQp; split <;> simp
@[simp] theorem State.setQp_net (s : State) (q : Nat) (x : Qp) : (State.setQp s q x).net = s.net := by
  unfold State.setQp; split <;> simp
@[simp] theorem State.setQp_epf (s : State) (q : Nat) (x : Qp) : (State.setQp s q x).epf = s.epf := by
  unfold State.setQp; split <;> simp
@[simp] theorem State.setQp_xbr (s : State) (q : Nat) (x : Qp) : (State.setQp s q x).xbr = s.xbr := by
  unfold State.setQp; split <;> simp
@[simp] theorem State.setQp_cph (s : State) (q : Nat) (x : Qp) : (State.setQp s q x).cph = s.cph := by
  unfold State.setQp; split <;> simp
@[simp] theorem State.setQp_shd (s : State) (q : Nat) (x : Qp) : (State.setQp s q x).shd = s.shd := by
  unfold State.setQp; split <;> simp
@[simp] theorem State.setQp_spm (s : State) (q : Nat) (x : Qp) : (State.setQp s q x).spm = s.spm := by
  unfold State.setQp; split <;> simp
@[simp] theorem State.setQp_fct (s : State) (q : Nat) (x : Qp) : (State.setQp s q x).fct = s.fct := by
  unfold State.setQp; split <;> simp
@[simp] theorem State.setQp_frames (s : State) (q : Nat) (x : Qp) : (State.setQp s q x).frames = s.frames := by
  unfold State.setQp; split <;> simp
@[simp] theorem State.setQp_out (s : State) (q : Nat) (x : Qp) : (State.setQp s q x).out = s.out := by
  unfold State.setQp; split <;> simp
@[simp] theorem State.setQp_pending (s : State) (q : Nat) (x : Qp) : (State.setQp s q x).pending = s.pending := by
  unfold State.setQp; split <;> simp

@[simp] theorem State.updQp_variant (s : State) (q : Nat) (f : Qp → Qp) : (State.updQp s q f).variant = s.variant := by
  simp [State.updQp]
@[simp] theorem State.updQp_now (s : State) (q : Nat) (f : Qp → Qp) : (State.updQp s q f).now = s.now := by
  simp [State.updQp]
@[simp] theorem State.updQp_regs (s : State) (q : Nat) (f : Qp → Qp) : (State.updQp s q f).regs = s.regs := by
  simp [State.updQp]
@[simp] theorem State.updQp_isl (s : State) (q : Nat) (f : Qp → Qp) : (State.updQp s q f).isl = s.isl := by
  simp [State.updQp]
@[simp] theorem State.updQp_mem (s : State) (q : Nat) (f : Qp → Qp) : (State.updQp s q f).mem = s.mem := by
  simp [State.updQp]
@[simp] theorem State.updQp_fab (s : State) (q : Nat) (f : Qp → Qp) : (State.updQp s q f).fab = s.fab := by
  simp [State.updQp]
@[simp] theorem State.updQp_icu (s : State) (q : Nat) (f : Qp → Qp) : (State.updQp s q f).icu = s.icu := by
  simp [State.updQp]
@[simp] theorem State.updQp_glm (s : State) (q : Nat) (f : Qp → Qp) : (State.updQp s q f).glm = s.glm := by
  simp [State.updQp]
@[simp] theorem State.updQp_gnm (s : State) (q : Nat) (f : Qp → Qp) : (State.updQp s q f).gnm = s.gnm := by
  simp [State.updQp]
@[simp] theorem State.updQp_cls (s : State) (q : Nat) (f : Qp → Qp) : (State.updQp s q f).cls = s.cls := by
  simp [State.updQp]
@[simp] theorem State.updQp_str (s : State) (q : Nat) (f : Qp → Qp) : (State.updQp s q f).str = s.str := by
  simp [State.updQp]
@[simp] theorem State.updQp_net (s : State) (q : Nat) (f : Qp → Qp) : (State.updQp s q f).net = s.net := by
  simp [State.updQp]
@[simp] theorem State.updQp_epf (s : State) (q : Nat) (f : Qp → Qp) : (State.updQp s q f).epf = s.epf := by
  simp [State.updQp]
@[simp] theorem State.updQp_xbr (s : State) (q : Nat) (f : Qp → Qp) : (State.updQp s q f).xbr = s.xbr := by
  simp [State.updQp]
@[simp] theorem State.updQp_cph (s : State) (q : Nat) (f : Qp → Qp) : (State.updQp s q f).cph = s.cph := by
  simp [State.updQp]
@[simp] theorem State.updQp_shd (s : State) (q : Nat) (f : Qp → Qp) : (State.updQp s q f).shd = s.shd := by
  simp [State.updQp]
@[simp] theorem State.updQp_spm (s : State) (q : Nat) (f : Qp → Qp) : (State.updQp s q f).spm = s.spm := by
  simp [State.updQp]
@[simp] theorem State.updQp_fct (s : State) (q : Nat) (f : Qp → Qp) : (State.updQp s q f).fct = s.fct := by
  simp [State.updQp]
@[simp] theorem State.updQp_frames (s : State) (q : Nat) (f : Qp → Qp) : (State.updQp s q f).frames = s.frames := by
  simp [State.updQp]
@[simp] theorem State.updQp_out (s : State) (q : Nat) (f : Qp → Qp) : (State.updQp s q f).out = s.out := by
  simp [State.updQp]
@[simp] theorem State.updQp_pending (s : State) (q : Nat) (f : Qp → Qp) : (State.updQp s q f).pending = s.pending := by
  simp [State.updQp]

@[simp] theorem State.updCmd_variant (s : State) (seq : Nat) (f : Cmd → Cmd) : (State.updCmd s seq f).variant = s.variant := by
  unfold State.updCmd; rfl
@[simp] theorem State.updCmd_now (s : State) (seq : Nat) (f : Cmd → Cmd) : (State.updCmd s seq f).now = s.now := by
  unfold State.updCmd; rfl
@[simp] theorem State.updCmd_regs (s : State) (seq : Nat) (f : Cmd → Cmd) : (State.updCmd s seq f).regs = s.regs := by
  unfold State.updCmd; rfl
@[simp] theorem State.updCmd_isl (s : State) (seq : Nat) (f : Cmd → Cmd) : (State.updCmd s seq f).isl = s.isl := by
  unfold State.updCmd; rfl
@[simp] theorem State.updCmd_mem (s : State) (seq : Nat) (f : Cmd → Cmd) : (State.updCmd s seq f).mem = s.mem := by
  unfold State.updCmd; rfl
@[simp] theorem State.updCmd_fab (s : State) (seq : Nat) (f : Cmd → Cmd) : (State.updCmd s seq f).fab = s.fab := by
  unfold State.updCmd; rfl
@[simp] theorem State.updCmd_icu (s : State) (seq : Nat) (f : Cmd → Cmd) : (State.updCmd s seq f).icu = s.icu := by
  unfold State.updCmd; rfl
@[simp] theorem State.updCmd_glm (s : State) (seq : Nat) (f : Cmd → Cmd) : (State.updCmd s seq f).glm = s.glm := by
  unfold State.updCmd; rfl
@[simp] theorem State.updCmd_gnm (s : State) (seq : Nat) (f : Cmd → Cmd) : (State.updCmd s seq f).gnm = s.gnm := by
  unfold State.updCmd; rfl
@[simp] theorem State.updCmd_cls (s : State) (seq : Nat) (f : Cmd → Cmd) : (State.updCmd s seq f).cls = s.cls := by
  unfold State.updCmd; rfl
@[simp] theorem State.updCmd_str (s : State) (seq : Nat) (f : Cmd → Cmd) : (State.updCmd s seq f).str = s.str := by
  unfold State.updCmd; rfl
@[simp] theorem State.updCmd_net (s : State) (seq : Nat) (f : Cmd → Cmd) : (State.updCmd s seq f).net = s.net := by
  unfold State.updCmd; rfl
@[simp] theorem State.updCmd_epf (s : State) (seq : Nat) (f : Cmd → Cmd) : (State.updCmd s seq f).epf = s.epf := by
  unfold State.updCmd; rfl
@[simp] theorem State.updCmd_xbr (s : State) (seq : Nat) (f : Cmd → Cmd) : (State.updCmd s seq f).xbr = s.xbr := by
  unfold State.updCmd; rfl
@[simp] theorem State.updCmd_cph (s : State) (seq : Nat) (f : Cmd → Cmd) : (State.updCmd s seq f).cph = s.cph := by
  unfold State.updCmd; rfl
@[simp] theorem State.updCmd_shd (s : State) (seq : Nat) (f : Cmd → Cmd) : (State.updCmd s seq f).shd = s.shd := by
  unfold State.updCmd; rfl
@[simp] theorem State.updCmd_spm (s : State) (seq : Nat) (f : Cmd → Cmd) : (State.updCmd s seq f).spm = s.spm := by
  unfold State.updCmd; rfl
@[simp] theorem State.updCmd_fct (s : State) (seq : Nat) (f : Cmd → Cmd) : (State.updCmd s seq f).fct = s.fct := by
  unfold State.updCmd; rfl
@[simp] theorem State.updCmd_sys (s : State) (seq : Nat) (f : Cmd → Cmd) : (State.updCmd s seq f).sys = s.sys := by
  unfold State.updCmd; rfl
@[simp] theorem State.updCmd_frames (s : State) (seq : Nat) (f : Cmd → Cmd) : (State.updCmd s seq f).frames = s.frames := by
  unfold State.updCmd; rfl
@[simp] theorem State.updCmd_out (s : State) (seq : Nat) (f : Cmd → Cmd) : (State.updCmd s seq f).out = s.out := by
  unfold State.updCmd; rfl
@[simp] theorem State.updCmd_draws (s : State) (seq : Nat) (f : Cmd → Cmd) : (State.updCmd s seq f).draws = s.draws := by
  unfold State.updCmd; rfl
@[simp] theorem State.updCmd_pending (s : State) (seq : Nat) (f : Cmd → Cmd) : (State.updCmd s seq f).pending = s.pending := by
  unfold State.updCmd; rfl

@[simp] theorem State.useContext_variant (s : State) (q : Nat) : (State.useContext s q).variant = s.variant := by
  unfold State.useContext; split <;> simp
@[simp] theorem State.useContext_now (s : State) (q : Nat) : (State.useContext s q).now = s.now := by
  unfold State.useContext; split <;> simp
@[simp] theorem State.useContext_isl (s : State) (q : Nat) : (State.useContext s q).isl = s.isl := by
  unfold State.useContext; split <;> simp
@[simp] theorem State.useContext_mem (s : State) (q : Nat) : (State.useContext s q).mem = s.mem := by
  unfold State.useContext; split <;> simp
@[simp] theorem State.useContext_fab (s : State) (q : Nat) : (State.useContext s q).fab = s.fab := by
  unfold State.useContext; split <;> simp
@[simp] theorem State.useContext_icu (s : State) (q : Nat) : (State.useContext s q).icu = s.icu := by
  unfold State.useContext; split <;> simp
@[simp] theorem State.useContext_glm (s : State) (q : Nat) : (State.useContext s q).glm = s.glm := by
  unfold State.useContext; split <;> simp
@[simp] theorem State.useContext_gnm (s : State) (q : Nat) : (State.useContext s q).gnm = s.gnm := by
  unfold State.useContext; split <;> simp
@[simp] theorem State.useContext_cls (s : State) (q : Nat) : (State.useContext s q).cls = s.cls := by
  unfold State.useContext; split <;> simp
@[simp] theorem State.useContext_str (s : State) (q : Nat) : (State.useContext s q).str = s.str := by
  unfold State.useContext; split <;> simp
@[simp] theorem State.useContext_net (s : State) (q : Nat) : (State.useContext s q).net = s.net := by
  unfold State.useContext; split <;> simp
@[simp] theorem State.useContext_epf (s : State) (q : Nat) : (State.useContext s q).epf = s.epf := by
  unfold State.useContext; split <;> simp
@[simp] theorem State.useContext_xbr (s : State) (q : Nat) : (State.useContext s q).xbr = s.xbr := by
  unfold State.useContext; split <;> simp
@[simp] theorem State.useContext_cph (s : State) (q : Nat) : (State.useContext s q).cph = s.cph := by
  unfold State.useContext; split <;> simp
@[simp] theorem State.useContext_shd (s : State) (q : Nat) : (State.useContext s q).shd = s.shd := by
  unfold State.useContext; split <;> simp
@[simp] theorem State.useContext_spm (s : State) (q : Nat) : (State.useContext s q).spm = s.spm := by
  unfold State.useContext; split <;> simp
@[simp] theorem State.useContext_fct (s : State) (q : Nat) : (State.useContext s q).fct = s.fct := by
  unfold State.useContext; split <;> simp
@[simp] theorem State.useContext_sys (s : State) (q : Nat) : (State.useContext s q).sys = s.sys := by
  unfold State.useContext; split <;> simp
@[simp] theorem State.useContext_frames (s : State) (q : Nat) : (State.useContext s q).frames = s.frames := by
  unfold State.useContext; split <;> simp
@[simp] theorem State.useContext_out (s : State) (q : Nat) : (State.useContext s q).out = s.out := by
  unfold State.useContext; split <;> simp
@[simp] theorem State.useContext_draws (s : State) (q : Nat) : (State.useContext s q).draws = s.draws := by
  unfold State.useContext; split <;> simp
@[simp] theorem State.useContext_pending (s : State) (q : Nat) : (State.useContext s q).pending = s.pending := by
  unfold State.useContext; split <;> simp

@[simp] theorem State.badDoorbell_variant (s : State) : (State.badDoorbell s).variant = s.variant := by
  simp [State.badDoorbell]
@[simp] theorem State.badDoorbell_now (s : State) : (State.badDoorbell s).now = s.now := by simp [State.badDoorbell]
@[simp] theorem State.badDoorbell_mem (s : State) : (State.badDoorbell s).mem = s.mem := by simp [State.badDoorbell]
@[simp] theorem State.badDoorbell_fab (s : State) : (State.badDoorbell s).fab = s.fab := by simp [State.badDoorbell]
@[simp] theorem State.badDoorbell_gnm (s : State) : (State.badDoorbell s).gnm = s.gnm := by simp [State.badDoorbell]
@[simp] theorem State.badDoorbell_qpe (s : State) : (State.badDoorbell s).qpe = s.qpe := by simp [State.badDoorbell]
@[simp] theorem State.badDoorbell_cls (s : State) : (State.badDoorbell s).cls = s.cls := by simp [State.badDoorbell]
@[simp] theorem State.badDoorbell_str (s : State) : (State.badDoorbell s).str = s.str := by simp [State.badDoorbell]
@[simp] theorem State.badDoorbell_net (s : State) : (State.badDoorbell s).net = s.net := by simp [State.badDoorbell]
@[simp] theorem State.badDoorbell_epf (s : State) : (State.badDoorbell s).epf = s.epf := by simp [State.badDoorbell]
@[simp] theorem State.badDoorbell_xbr (s : State) : (State.badDoorbell s).xbr = s.xbr := by simp [State.badDoorbell]
@[simp] theorem State.badDoorbell_cph (s : State) : (State.badDoorbell s).cph = s.cph := by simp [State.badDoorbell]
@[simp] theorem State.badDoorbell_shd (s : State) : (State.badDoorbell s).shd = s.shd := by simp [State.badDoorbell]
@[simp] theorem State.badDoorbell_spm (s : State) : (State.badDoorbell s).spm = s.spm := by simp [State.badDoorbell]
@[simp] theorem State.badDoorbell_fct (s : State) : (State.badDoorbell s).fct = s.fct := by simp [State.badDoorbell]
@[simp] theorem State.badDoorbell_sys (s : State) : (State.badDoorbell s).sys = s.sys := by simp [State.badDoorbell]
@[simp] theorem State.badDoorbell_frames (s : State) : (State.badDoorbell s).frames = s.frames := by
  simp [State.badDoorbell]
@[simp] theorem State.badDoorbell_out (s : State) : (State.badDoorbell s).out = s.out := by simp [State.badDoorbell]
@[simp] theorem State.badDoorbell_draws (s : State) : (State.badDoorbell s).draws = s.draws := by simp [State.badDoorbell]
@[simp] theorem State.badDoorbell_pending (s : State) : (State.badDoorbell s).pending = s.pending := by
  simp [State.badDoorbell]

@[simp] theorem State.unstage_variant (s : State) (pt n : Nat) : (State.unstage s pt n).variant = s.variant := by
  unfold State.unstage; split <;> simp
@[simp] theorem State.unstage_now (s : State) (pt n : Nat) : (State.unstage s pt n).now = s.now := by
  unfold State.unstage; split <;> simp
@[simp] theorem State.unstage_regs (s : State) (pt n : Nat) : (State.unstage s pt n).regs = s.regs := by
  unfold State.unstage; split <;> simp
@[simp] theorem State.unstage_isl (s : State) (pt n : Nat) : (State.unstage s pt n).isl = s.isl := by
  unfold State.unstage; split <;> simp
@[simp] theorem State.unstage_mem (s : State) (pt n : Nat) : (State.unstage s pt n).mem = s.mem := by
  unfold State.unstage; split <;> simp
@[simp] theorem State.unstage_fab (s : State) (pt n : Nat) : (State.unstage s pt n).fab = s.fab := by
  unfold State.unstage; split <;> simp
@[simp] theorem State.unstage_icu (s : State) (pt n : Nat) : (State.unstage s pt n).icu = s.icu := by
  unfold State.unstage; split <;> simp
@[simp] theorem State.unstage_glm (s : State) (pt n : Nat) : (State.unstage s pt n).glm = s.glm := by
  unfold State.unstage; split <;> simp
@[simp] theorem State.unstage_gnm (s : State) (pt n : Nat) : (State.unstage s pt n).gnm = s.gnm := by
  unfold State.unstage; split <;> simp
@[simp] theorem State.unstage_qpe (s : State) (pt n : Nat) : (State.unstage s pt n).qpe = s.qpe := by
  unfold State.unstage; split <;> simp
@[simp] theorem State.unstage_cls (s : State) (pt n : Nat) : (State.unstage s pt n).cls = s.cls := by
  unfold State.unstage; split <;> simp
@[simp] theorem State.unstage_net (s : State) (pt n : Nat) : (State.unstage s pt n).net = s.net := by
  unfold State.unstage; split <;> simp
@[simp] theorem State.unstage_epf (s : State) (pt n : Nat) : (State.unstage s pt n).epf = s.epf := by
  unfold State.unstage; split <;> simp
@[simp] theorem State.unstage_xbr (s : State) (pt n : Nat) : (State.unstage s pt n).xbr = s.xbr := by
  unfold State.unstage; split <;> simp
@[simp] theorem State.unstage_cph (s : State) (pt n : Nat) : (State.unstage s pt n).cph = s.cph := by
  unfold State.unstage; split <;> simp
@[simp] theorem State.unstage_shd (s : State) (pt n : Nat) : (State.unstage s pt n).shd = s.shd := by
  unfold State.unstage; split <;> simp
@[simp] theorem State.unstage_spm (s : State) (pt n : Nat) : (State.unstage s pt n).spm = s.spm := by
  unfold State.unstage; split <;> simp
@[simp] theorem State.unstage_fct (s : State) (pt n : Nat) : (State.unstage s pt n).fct = s.fct := by
  unfold State.unstage; split <;> simp
@[simp] theorem State.unstage_sys (s : State) (pt n : Nat) : (State.unstage s pt n).sys = s.sys := by
  unfold State.unstage; split <;> simp
@[simp] theorem State.unstage_frames (s : State) (pt n : Nat) : (State.unstage s pt n).frames = s.frames := by
  unfold State.unstage; split <;> simp
@[simp] theorem State.unstage_out (s : State) (pt n : Nat) : (State.unstage s pt n).out = s.out := by
  unfold State.unstage; split <;> simp
@[simp] theorem State.unstage_draws (s : State) (pt n : Nat) : (State.unstage s pt n).draws = s.draws := by
  unfold State.unstage; split <;> simp
@[simp] theorem State.unstage_pending (s : State) (pt n : Nat) : (State.unstage s pt n).pending = s.pending := by
  unfold State.unstage; split <;> simp

@[simp] theorem State.callHook_variant (s : State) (att : Nat) (c : Cmd) (hook : Nat) (input : Bytes) : (State.callHook s att c hook input).variant = s.variant := by
  unfold State.callHook; rfl
@[simp] theorem State.callHook_now (s : State) (att : Nat) (c : Cmd) (hook : Nat) (input : Bytes) : (State.callHook s att c hook input).now = s.now := by
  unfold State.callHook; rfl
@[simp] theorem State.callHook_regs (s : State) (att : Nat) (c : Cmd) (hook : Nat) (input : Bytes) : (State.callHook s att c hook input).regs = s.regs := by
  unfold State.callHook; rfl
@[simp] theorem State.callHook_isl (s : State) (att : Nat) (c : Cmd) (hook : Nat) (input : Bytes) : (State.callHook s att c hook input).isl = s.isl := by
  unfold State.callHook; rfl
@[simp] theorem State.callHook_mem (s : State) (att : Nat) (c : Cmd) (hook : Nat) (input : Bytes) : (State.callHook s att c hook input).mem = s.mem := by
  unfold State.callHook; rfl
@[simp] theorem State.callHook_fab (s : State) (att : Nat) (c : Cmd) (hook : Nat) (input : Bytes) : (State.callHook s att c hook input).fab = s.fab := by
  unfold State.callHook; rfl
@[simp] theorem State.callHook_icu (s : State) (att : Nat) (c : Cmd) (hook : Nat) (input : Bytes) : (State.callHook s att c hook input).icu = s.icu := by
  unfold State.callHook; rfl
@[simp] theorem State.callHook_glm (s : State) (att : Nat) (c : Cmd) (hook : Nat) (input : Bytes) : (State.callHook s att c hook input).glm = s.glm := by
  unfold State.callHook; rfl
@[simp] theorem State.callHook_gnm (s : State) (att : Nat) (c : Cmd) (hook : Nat) (input : Bytes) : (State.callHook s att c hook input).gnm = s.gnm := by
  unfold State.callHook; rfl
@[simp] theorem State.callHook_cls (s : State) (att : Nat) (c : Cmd) (hook : Nat) (input : Bytes) : (State.callHook s att c hook input).cls = s.cls := by
  unfold State.callHook; rfl
@[simp] theorem State.callHook_str (s : State) (att : Nat) (c : Cmd) (hook : Nat) (input : Bytes) : (State.callHook s att c hook input).str = s.str := by
  unfold State.callHook; rfl
@[simp] theorem State.callHook_net (s : State) (att : Nat) (c : Cmd) (hook : Nat) (input : Bytes) : (State.callHook s att c hook input).net = s.net := by
  unfold State.callHook; rfl
@[simp] theorem State.callHook_epf (s : State) (att : Nat) (c : Cmd) (hook : Nat) (input : Bytes) : (State.callHook s att c hook input).epf = s.epf := by
  unfold State.callHook; rfl
@[simp] theorem State.callHook_xbr (s : State) (att : Nat) (c : Cmd) (hook : Nat) (input : Bytes) : (State.callHook s att c hook input).xbr = s.xbr := by
  unfold State.callHook; rfl
@[simp] theorem State.callHook_cph (s : State) (att : Nat) (c : Cmd) (hook : Nat) (input : Bytes) : (State.callHook s att c hook input).cph = s.cph := by
  unfold State.callHook; rfl
@[simp] theorem State.callHook_shd (s : State) (att : Nat) (c : Cmd) (hook : Nat) (input : Bytes) : (State.callHook s att c hook input).shd = s.shd := by
  unfold State.callHook; rfl
@[simp] theorem State.callHook_spm (s : State) (att : Nat) (c : Cmd) (hook : Nat) (input : Bytes) : (State.callHook s att c hook input).spm = s.spm := by
  unfold State.callHook; rfl
@[simp] theorem State.callHook_sys (s : State) (att : Nat) (c : Cmd) (hook : Nat) (input : Bytes) : (State.callHook s att c hook input).sys = s.sys := by
  unfold State.callHook; rfl
@[simp] theorem State.callHook_frames (s : State) (att : Nat) (c : Cmd) (hook : Nat) (input : Bytes) : (State.callHook s att c hook input).frames = s.frames := by
  unfold State.callHook; rfl
@[simp] theorem State.callHook_out (s : State) (att : Nat) (c : Cmd) (hook : Nat) (input : Bytes) : (State.callHook s att c hook input).out = s.out := by
  unfold State.callHook; rfl
@[simp] theorem State.callHook_draws (s : State) (att : Nat) (c : Cmd) (hook : Nat) (input : Bytes) : (State.callHook s att c hook input).draws = s.draws := by
  unfold State.callHook; rfl
@[simp] theorem State.callHook_pending (s : State) (att : Nat) (c : Cmd) (hook : Nat) (input : Bytes) : (State.callHook s att c hook input).pending = s.pending := by
  unfold State.callHook; rfl

@[simp] theorem State.syncDispatch_variant (s : State) (cluster : Nat) : (State.syncDispatch s cluster).variant = s.variant := by
  unfold State.syncDispatch; rfl
@[simp] theorem State.syncDispatch_now (s : State) (cluster : Nat) : (State.syncDispatch s cluster).now = s.now := by
  unfold State.syncDispatch; rfl
@[simp] theorem State.syncDispatch_isl (s : State) (cluster : Nat) : (State.syncDispatch s cluster).isl = s.isl := by
  unfold State.syncDispatch; rfl
@[simp] theorem State.syncDispatch_mem (s : State) (cluster : Nat) : (State.syncDispatch s cluster).mem = s.mem := by
  unfold State.syncDispatch; rfl
@[simp] theorem State.syncDispatch_fab (s : State) (cluster : Nat) : (State.syncDispatch s cluster).fab = s.fab := by
  unfold State.syncDispatch; rfl
@[simp] theorem State.syncDispatch_icu (s : State) (cluster : Nat) : (State.syncDispatch s cluster).icu = s.icu := by
  unfold State.syncDispatch; rfl
@[simp] theorem State.syncDispatch_glm (s : State) (cluster : Nat) : (State.syncDispatch s cluster).glm = s.glm := by
  unfold State.syncDispatch; rfl
@[simp] theorem State.syncDispatch_gnm (s : State) (cluster : Nat) : (State.syncDispatch s cluster).gnm = s.gnm := by
  unfold State.syncDispatch; rfl
@[simp] theorem State.syncDispatch_str (s : State) (cluster : Nat) : (State.syncDispatch s cluster).str = s.str := by
  unfold State.syncDispatch; rfl
@[simp] theorem State.syncDispatch_net (s : State) (cluster : Nat) : (State.syncDispatch s cluster).net = s.net := by
  unfold State.syncDispatch; rfl
@[simp] theorem State.syncDispatch_epf (s : State) (cluster : Nat) : (State.syncDispatch s cluster).epf = s.epf := by
  unfold State.syncDispatch; rfl
@[simp] theorem State.syncDispatch_xbr (s : State) (cluster : Nat) : (State.syncDispatch s cluster).xbr = s.xbr := by
  unfold State.syncDispatch; rfl
@[simp] theorem State.syncDispatch_cph (s : State) (cluster : Nat) : (State.syncDispatch s cluster).cph = s.cph := by
  unfold State.syncDispatch; rfl
@[simp] theorem State.syncDispatch_shd (s : State) (cluster : Nat) : (State.syncDispatch s cluster).shd = s.shd := by
  unfold State.syncDispatch; rfl
@[simp] theorem State.syncDispatch_spm (s : State) (cluster : Nat) : (State.syncDispatch s cluster).spm = s.spm := by
  unfold State.syncDispatch; rfl
@[simp] theorem State.syncDispatch_fct (s : State) (cluster : Nat) : (State.syncDispatch s cluster).fct = s.fct := by
  unfold State.syncDispatch; rfl
@[simp] theorem State.syncDispatch_sys (s : State) (cluster : Nat) : (State.syncDispatch s cluster).sys = s.sys := by
  unfold State.syncDispatch; rfl
@[simp] theorem State.syncDispatch_frames (s : State) (cluster : Nat) : (State.syncDispatch s cluster).frames = s.frames := by
  unfold State.syncDispatch; rfl
@[simp] theorem State.syncDispatch_out (s : State) (cluster : Nat) : (State.syncDispatch s cluster).out = s.out := by
  unfold State.syncDispatch; rfl
@[simp] theorem State.syncDispatch_draws (s : State) (cluster : Nat) : (State.syncDispatch s cluster).draws = s.draws := by
  unfold State.syncDispatch; rfl
@[simp] theorem State.syncDispatch_pending (s : State) (cluster : Nat) : (State.syncDispatch s cluster).pending = s.pending := by
  unfold State.syncDispatch; rfl

@[simp] theorem State.makeReady_variant (s : State) (seq : Nat) : (State.makeReady s seq).variant = s.variant := by
  unfold State.makeReady; rfl
@[simp] theorem State.makeReady_now (s : State) (seq : Nat) : (State.makeReady s seq).now = s.now := by
  unfold State.makeReady; rfl
@[simp] theorem State.makeReady_regs (s : State) (seq : Nat) : (State.makeReady s seq).regs = s.regs := by
  unfold State.makeReady; rfl
@[simp] theorem State.makeReady_isl (s : State) (seq : Nat) : (State.makeReady s seq).isl = s.isl := by
  unfold State.makeReady; rfl
@[simp] theorem State.makeReady_mem (s : State) (seq : Nat) : (State.makeReady s seq).mem = s.mem := by
  unfold State.makeReady; rfl
@[simp] theorem State.makeReady_fab (s : State) (seq : Nat) : (State.makeReady s seq).fab = s.fab := by
  unfold State.makeReady; rfl
@[simp] theorem State.makeReady_icu (s : State) (seq : Nat) : (State.makeReady s seq).icu = s.icu := by
  unfold State.makeReady; rfl
@[simp] theorem State.makeReady_glm (s : State) (seq : Nat) : (State.makeReady s seq).glm = s.glm := by
  unfold State.makeReady; rfl
@[simp] theorem State.makeReady_gnm (s : State) (seq : Nat) : (State.makeReady s seq).gnm = s.gnm := by
  unfold State.makeReady; rfl
@[simp] theorem State.makeReady_cls (s : State) (seq : Nat) : (State.makeReady s seq).cls = s.cls := by
  unfold State.makeReady; rfl
@[simp] theorem State.makeReady_str (s : State) (seq : Nat) : (State.makeReady s seq).str = s.str := by
  unfold State.makeReady; rfl
@[simp] theorem State.makeReady_net (s : State) (seq : Nat) : (State.makeReady s seq).net = s.net := by
  unfold State.makeReady; rfl
@[simp] theorem State.makeReady_epf (s : State) (seq : Nat) : (State.makeReady s seq).epf = s.epf := by
  unfold State.makeReady; rfl
@[simp] theorem State.makeReady_xbr (s : State) (seq : Nat) : (State.makeReady s seq).xbr = s.xbr := by
  unfold State.makeReady; rfl
@[simp] theorem State.makeReady_cph (s : State) (seq : Nat) : (State.makeReady s seq).cph = s.cph := by
  unfold State.makeReady; rfl
@[simp] theorem State.makeReady_shd (s : State) (seq : Nat) : (State.makeReady s seq).shd = s.shd := by
  unfold State.makeReady; rfl
@[simp] theorem State.makeReady_spm (s : State) (seq : Nat) : (State.makeReady s seq).spm = s.spm := by
  unfold State.makeReady; rfl
@[simp] theorem State.makeReady_fct (s : State) (seq : Nat) : (State.makeReady s seq).fct = s.fct := by
  unfold State.makeReady; rfl
@[simp] theorem State.makeReady_sys (s : State) (seq : Nat) : (State.makeReady s seq).sys = s.sys := by
  unfold State.makeReady; rfl
@[simp] theorem State.makeReady_frames (s : State) (seq : Nat) : (State.makeReady s seq).frames = s.frames := by
  unfold State.makeReady; rfl
@[simp] theorem State.makeReady_out (s : State) (seq : Nat) : (State.makeReady s seq).out = s.out := by
  unfold State.makeReady; rfl
@[simp] theorem State.makeReady_draws (s : State) (seq : Nat) : (State.makeReady s seq).draws = s.draws := by
  unfold State.makeReady; rfl
@[simp] theorem State.makeReady_pending (s : State) (seq : Nat) : (State.makeReady s seq).pending = s.pending := by
  unfold State.makeReady; rfl

@[simp] theorem State.setShaperEntry_variant (s : State) (tenant : Nat) (e : ShaperEntry) : (State.setShaperEntry s tenant e).variant = s.variant := by
  unfold State.setShaperEntry; rfl
@[simp] theorem State.setShaperEntry_now (s : State) (tenant : Nat) (e : ShaperEntry) : (State.setShaperEntry s tenant e).now = s.now := by
  unfold State.setShaperEntry; rfl
@[simp] theorem State.setShaperEntry_regs (s : State) (tenant : Nat) (e : ShaperEntry) : (State.setShaperEntry s tenant e).regs = s.regs := by
  unfold State.setShaperEntry; rfl
@[simp] theorem State.setShaperEntry_isl (s : State) (tenant : Nat) (e : ShaperEntry) : (State.setShaperEntry s tenant e).isl = s.isl := by
  unfold State.setShaperEntry; rfl
@[simp] theorem State.setShaperEntry_mem (s : State) (tenant : Nat) (e : ShaperEntry) : (State.setShaperEntry s tenant e).mem = s.mem := by
  unfold State.setShaperEntry; rfl
@[simp] theorem State.setShaperEntry_fab (s : State) (tenant : Nat) (e : ShaperEntry) : (State.setShaperEntry s tenant e).fab = s.fab := by
  unfold State.setShaperEntry; rfl
@[simp] theorem State.setShaperEntry_icu (s : State) (tenant : Nat) (e : ShaperEntry) : (State.setShaperEntry s tenant e).icu = s.icu := by
  unfold State.setShaperEntry; rfl
@[simp] theorem State.setShaperEntry_glm (s : State) (tenant : Nat) (e : ShaperEntry) : (State.setShaperEntry s tenant e).glm = s.glm := by
  unfold State.setShaperEntry; rfl
@[simp] theorem State.setShaperEntry_gnm (s : State) (tenant : Nat) (e : ShaperEntry) : (State.setShaperEntry s tenant e).gnm = s.gnm := by
  unfold State.setShaperEntry; rfl
@[simp] theorem State.setShaperEntry_qpe (s : State) (tenant : Nat) (e : ShaperEntry) : (State.setShaperEntry s tenant e).qpe = s.qpe := by
  unfold State.setShaperEntry; rfl
@[simp] theorem State.setShaperEntry_str (s : State) (tenant : Nat) (e : ShaperEntry) : (State.setShaperEntry s tenant e).str = s.str := by
  unfold State.setShaperEntry; rfl
@[simp] theorem State.setShaperEntry_net (s : State) (tenant : Nat) (e : ShaperEntry) : (State.setShaperEntry s tenant e).net = s.net := by
  unfold State.setShaperEntry; rfl
@[simp] theorem State.setShaperEntry_epf (s : State) (tenant : Nat) (e : ShaperEntry) : (State.setShaperEntry s tenant e).epf = s.epf := by
  unfold State.setShaperEntry; rfl
@[simp] theorem State.setShaperEntry_xbr (s : State) (tenant : Nat) (e : ShaperEntry) : (State.setShaperEntry s tenant e).xbr = s.xbr := by
  unfold State.setShaperEntry; rfl
@[simp] theorem State.setShaperEntry_cph (s : State) (tenant : Nat) (e : ShaperEntry) : (State.setShaperEntry s tenant e).cph = s.cph := by
  unfold State.setShaperEntry; rfl
@[simp] theorem State.setShaperEntry_shd (s : State) (tenant : Nat) (e : ShaperEntry) : (State.setShaperEntry s tenant e).shd = s.shd := by
  unfold State.setShaperEntry; rfl
@[simp] theorem State.setShaperEntry_spm (s : State) (tenant : Nat) (e : ShaperEntry) : (State.setShaperEntry s tenant e).spm = s.spm := by
  unfold State.setShaperEntry; rfl
@[simp] theorem State.setShaperEntry_fct (s : State) (tenant : Nat) (e : ShaperEntry) : (State.setShaperEntry s tenant e).fct = s.fct := by
  unfold State.setShaperEntry; rfl
@[simp] theorem State.setShaperEntry_sys (s : State) (tenant : Nat) (e : ShaperEntry) : (State.setShaperEntry s tenant e).sys = s.sys := by
  unfold State.setShaperEntry; rfl
@[simp] theorem State.setShaperEntry_frames (s : State) (tenant : Nat) (e : ShaperEntry) : (State.setShaperEntry s tenant e).frames = s.frames := by
  unfold State.setShaperEntry; rfl
@[simp] theorem State.setShaperEntry_out (s : State) (tenant : Nat) (e : ShaperEntry) : (State.setShaperEntry s tenant e).out = s.out := by
  unfold State.setShaperEntry; rfl
@[simp] theorem State.setShaperEntry_draws (s : State) (tenant : Nat) (e : ShaperEntry) : (State.setShaperEntry s tenant e).draws = s.draws := by
  unfold State.setShaperEntry; rfl
@[simp] theorem State.setShaperEntry_pending (s : State) (tenant : Nat) (e : ShaperEntry) : (State.setShaperEntry s tenant e).pending = s.pending := by
  unfold State.setShaperEntry; rfl

@[simp] theorem State.clsCount_variant (s : State) (r : Reg) (tenant i : Nat) : (State.clsCount s r tenant i).variant = s.variant := by
  unfold State.clsCount; dsimp only; split <;> simp
@[simp] theorem State.clsCount_now (s : State) (r : Reg) (tenant i : Nat) : (State.clsCount s r tenant i).now = s.now := by
  unfold State.clsCount; dsimp only; split <;> simp
@[simp] theorem State.clsCount_isl (s : State) (r : Reg) (tenant i : Nat) : (State.clsCount s r tenant i).isl = s.isl := by
  unfold State.clsCount; dsimp only; split <;> simp
@[simp] theorem State.clsCount_mem (s : State) (r : Reg) (tenant i : Nat) : (State.clsCount s r tenant i).mem = s.mem := by
  unfold State.clsCount; dsimp only; split <;> simp
@[simp] theorem State.clsCount_fab (s : State) (r : Reg) (tenant i : Nat) : (State.clsCount s r tenant i).fab = s.fab := by
  unfold State.clsCount; dsimp only; split <;> simp
@[simp] theorem State.clsCount_icu (s : State) (r : Reg) (tenant i : Nat) : (State.clsCount s r tenant i).icu = s.icu := by
  unfold State.clsCount; dsimp only; split <;> simp
@[simp] theorem State.clsCount_glm (s : State) (r : Reg) (tenant i : Nat) : (State.clsCount s r tenant i).glm = s.glm := by
  unfold State.clsCount; dsimp only; split <;> simp
@[simp] theorem State.clsCount_gnm (s : State) (r : Reg) (tenant i : Nat) : (State.clsCount s r tenant i).gnm = s.gnm := by
  unfold State.clsCount; dsimp only; split <;> simp
@[simp] theorem State.clsCount_qpe (s : State) (r : Reg) (tenant i : Nat) : (State.clsCount s r tenant i).qpe = s.qpe := by
  unfold State.clsCount; dsimp only; split <;> simp
@[simp] theorem State.clsCount_str (s : State) (r : Reg) (tenant i : Nat) : (State.clsCount s r tenant i).str = s.str := by
  unfold State.clsCount; dsimp only; split <;> simp
@[simp] theorem State.clsCount_net (s : State) (r : Reg) (tenant i : Nat) : (State.clsCount s r tenant i).net = s.net := by
  unfold State.clsCount; dsimp only; split <;> simp
@[simp] theorem State.clsCount_epf (s : State) (r : Reg) (tenant i : Nat) : (State.clsCount s r tenant i).epf = s.epf := by
  unfold State.clsCount; dsimp only; split <;> simp
@[simp] theorem State.clsCount_xbr (s : State) (r : Reg) (tenant i : Nat) : (State.clsCount s r tenant i).xbr = s.xbr := by
  unfold State.clsCount; dsimp only; split <;> simp
@[simp] theorem State.clsCount_cph (s : State) (r : Reg) (tenant i : Nat) : (State.clsCount s r tenant i).cph = s.cph := by
  unfold State.clsCount; dsimp only; split <;> simp
@[simp] theorem State.clsCount_shd (s : State) (r : Reg) (tenant i : Nat) : (State.clsCount s r tenant i).shd = s.shd := by
  unfold State.clsCount; dsimp only; split <;> simp
@[simp] theorem State.clsCount_spm (s : State) (r : Reg) (tenant i : Nat) : (State.clsCount s r tenant i).spm = s.spm := by
  unfold State.clsCount; dsimp only; split <;> simp
@[simp] theorem State.clsCount_fct (s : State) (r : Reg) (tenant i : Nat) : (State.clsCount s r tenant i).fct = s.fct := by
  unfold State.clsCount; dsimp only; split <;> simp
@[simp] theorem State.clsCount_sys (s : State) (r : Reg) (tenant i : Nat) : (State.clsCount s r tenant i).sys = s.sys := by
  unfold State.clsCount; dsimp only; split <;> simp
@[simp] theorem State.clsCount_frames (s : State) (r : Reg) (tenant i : Nat) : (State.clsCount s r tenant i).frames = s.frames := by
  unfold State.clsCount; dsimp only; split <;> simp
@[simp] theorem State.clsCount_out (s : State) (r : Reg) (tenant i : Nat) : (State.clsCount s r tenant i).out = s.out := by
  unfold State.clsCount; dsimp only; split <;> simp
@[simp] theorem State.clsCount_draws (s : State) (r : Reg) (tenant i : Nat) : (State.clsCount s r tenant i).draws = s.draws := by
  unfold State.clsCount; dsimp only; split <;> simp
@[simp] theorem State.clsCount_pending (s : State) (r : Reg) (tenant i : Nat) : (State.clsCount s r tenant i).pending = s.pending := by
  unfold State.clsCount; dsimp only; split <;> simp

@[simp] theorem State.markPast_variant (s : State) (seq : Nat) : (State.markPast s seq).variant = s.variant := by
  unfold State.markPast; rfl
@[simp] theorem State.markPast_now (s : State) (seq : Nat) : (State.markPast s seq).now = s.now := by
  unfold State.markPast; rfl
@[simp] theorem State.markPast_regs (s : State) (seq : Nat) : (State.markPast s seq).regs = s.regs := by
  unfold State.markPast; rfl
@[simp] theorem State.markPast_isl (s : State) (seq : Nat) : (State.markPast s seq).isl = s.isl := by
  unfold State.markPast; rfl
@[simp] theorem State.markPast_mem (s : State) (seq : Nat) : (State.markPast s seq).mem = s.mem := by
  unfold State.markPast; rfl
@[simp] theorem State.markPast_fab (s : State) (seq : Nat) : (State.markPast s seq).fab = s.fab := by
  unfold State.markPast; rfl
@[simp] theorem State.markPast_icu (s : State) (seq : Nat) : (State.markPast s seq).icu = s.icu := by
  unfold State.markPast; rfl
@[simp] theorem State.markPast_glm (s : State) (seq : Nat) : (State.markPast s seq).glm = s.glm := by
  unfold State.markPast; rfl
@[simp] theorem State.markPast_gnm (s : State) (seq : Nat) : (State.markPast s seq).gnm = s.gnm := by
  unfold State.markPast; rfl
@[simp] theorem State.markPast_cls (s : State) (seq : Nat) : (State.markPast s seq).cls = s.cls := by
  unfold State.markPast; rfl
@[simp] theorem State.markPast_str (s : State) (seq : Nat) : (State.markPast s seq).str = s.str := by
  unfold State.markPast; rfl
@[simp] theorem State.markPast_net (s : State) (seq : Nat) : (State.markPast s seq).net = s.net := by
  unfold State.markPast; rfl
@[simp] theorem State.markPast_epf (s : State) (seq : Nat) : (State.markPast s seq).epf = s.epf := by
  unfold State.markPast; rfl
@[simp] theorem State.markPast_xbr (s : State) (seq : Nat) : (State.markPast s seq).xbr = s.xbr := by
  unfold State.markPast; rfl
@[simp] theorem State.markPast_cph (s : State) (seq : Nat) : (State.markPast s seq).cph = s.cph := by
  unfold State.markPast; rfl
@[simp] theorem State.markPast_shd (s : State) (seq : Nat) : (State.markPast s seq).shd = s.shd := by
  unfold State.markPast; rfl
@[simp] theorem State.markPast_spm (s : State) (seq : Nat) : (State.markPast s seq).spm = s.spm := by
  unfold State.markPast; rfl
@[simp] theorem State.markPast_fct (s : State) (seq : Nat) : (State.markPast s seq).fct = s.fct := by
  unfold State.markPast; rfl
@[simp] theorem State.markPast_sys (s : State) (seq : Nat) : (State.markPast s seq).sys = s.sys := by
  unfold State.markPast; rfl
@[simp] theorem State.markPast_frames (s : State) (seq : Nat) : (State.markPast s seq).frames = s.frames := by
  unfold State.markPast; rfl
@[simp] theorem State.markPast_out (s : State) (seq : Nat) : (State.markPast s seq).out = s.out := by
  unfold State.markPast; rfl
@[simp] theorem State.markPast_draws (s : State) (seq : Nat) : (State.markPast s seq).draws = s.draws := by
  unfold State.markPast; rfl
@[simp] theorem State.markPast_pending (s : State) (seq : Nat) : (State.markPast s seq).pending = s.pending := by
  unfold State.markPast; rfl

@[simp] theorem State.markWaiting_variant (s : State) (seq : Nat) : (State.markWaiting s seq).variant = s.variant := by
  unfold State.markWaiting; rfl
@[simp] theorem State.markWaiting_now (s : State) (seq : Nat) : (State.markWaiting s seq).now = s.now := by
  unfold State.markWaiting; rfl
@[simp] theorem State.markWaiting_regs (s : State) (seq : Nat) : (State.markWaiting s seq).regs = s.regs := by
  unfold State.markWaiting; rfl
@[simp] theorem State.markWaiting_isl (s : State) (seq : Nat) : (State.markWaiting s seq).isl = s.isl := by
  unfold State.markWaiting; rfl
@[simp] theorem State.markWaiting_mem (s : State) (seq : Nat) : (State.markWaiting s seq).mem = s.mem := by
  unfold State.markWaiting; rfl
@[simp] theorem State.markWaiting_fab (s : State) (seq : Nat) : (State.markWaiting s seq).fab = s.fab := by
  unfold State.markWaiting; rfl
@[simp] theorem State.markWaiting_icu (s : State) (seq : Nat) : (State.markWaiting s seq).icu = s.icu := by
  unfold State.markWaiting; rfl
@[simp] theorem State.markWaiting_glm (s : State) (seq : Nat) : (State.markWaiting s seq).glm = s.glm := by
  unfold State.markWaiting; rfl
@[simp] theorem State.markWaiting_gnm (s : State) (seq : Nat) : (State.markWaiting s seq).gnm = s.gnm := by
  unfold State.markWaiting; rfl
@[simp] theorem State.markWaiting_cls (s : State) (seq : Nat) : (State.markWaiting s seq).cls = s.cls := by
  unfold State.markWaiting; rfl
@[simp] theorem State.markWaiting_str (s : State) (seq : Nat) : (State.markWaiting s seq).str = s.str := by
  unfold State.markWaiting; rfl
@[simp] theorem State.markWaiting_net (s : State) (seq : Nat) : (State.markWaiting s seq).net = s.net := by
  unfold State.markWaiting; rfl
@[simp] theorem State.markWaiting_epf (s : State) (seq : Nat) : (State.markWaiting s seq).epf = s.epf := by
  unfold State.markWaiting; rfl
@[simp] theorem State.markWaiting_xbr (s : State) (seq : Nat) : (State.markWaiting s seq).xbr = s.xbr := by
  unfold State.markWaiting; rfl
@[simp] theorem State.markWaiting_cph (s : State) (seq : Nat) : (State.markWaiting s seq).cph = s.cph := by
  unfold State.markWaiting; rfl
@[simp] theorem State.markWaiting_shd (s : State) (seq : Nat) : (State.markWaiting s seq).shd = s.shd := by
  unfold State.markWaiting; rfl
@[simp] theorem State.markWaiting_spm (s : State) (seq : Nat) : (State.markWaiting s seq).spm = s.spm := by
  unfold State.markWaiting; rfl
@[simp] theorem State.markWaiting_fct (s : State) (seq : Nat) : (State.markWaiting s seq).fct = s.fct := by
  unfold State.markWaiting; rfl
@[simp] theorem State.markWaiting_sys (s : State) (seq : Nat) : (State.markWaiting s seq).sys = s.sys := by
  unfold State.markWaiting; rfl
@[simp] theorem State.markWaiting_frames (s : State) (seq : Nat) : (State.markWaiting s seq).frames = s.frames := by
  unfold State.markWaiting; rfl
@[simp] theorem State.markWaiting_out (s : State) (seq : Nat) : (State.markWaiting s seq).out = s.out := by
  unfold State.markWaiting; rfl
@[simp] theorem State.markWaiting_draws (s : State) (seq : Nat) : (State.markWaiting s seq).draws = s.draws := by
  unfold State.markWaiting; rfl
@[simp] theorem State.markWaiting_pending (s : State) (seq : Nat) : (State.markWaiting s seq).pending = s.pending := by
  unfold State.markWaiting; rfl

@[simp] theorem State.endStep_variant (s : State) (c : Cmd) : (State.endStep s c).variant = s.variant := by
  unfold State.endStep; split <;> simp
@[simp] theorem State.endStep_now (s : State) (c : Cmd) : (State.endStep s c).now = s.now := by
  unfold State.endStep; split <;> simp
@[simp] theorem State.endStep_regs (s : State) (c : Cmd) : (State.endStep s c).regs = s.regs := by
  unfold State.endStep; split <;> simp
@[simp] theorem State.endStep_isl (s : State) (c : Cmd) : (State.endStep s c).isl = s.isl := by
  unfold State.endStep; split <;> simp
@[simp] theorem State.endStep_mem (s : State) (c : Cmd) : (State.endStep s c).mem = s.mem := by
  unfold State.endStep; split <;> simp
@[simp] theorem State.endStep_fab (s : State) (c : Cmd) : (State.endStep s c).fab = s.fab := by
  unfold State.endStep; split <;> simp
@[simp] theorem State.endStep_icu (s : State) (c : Cmd) : (State.endStep s c).icu = s.icu := by
  unfold State.endStep; split <;> simp
@[simp] theorem State.endStep_glm (s : State) (c : Cmd) : (State.endStep s c).glm = s.glm := by
  unfold State.endStep; split <;> simp
@[simp] theorem State.endStep_gnm (s : State) (c : Cmd) : (State.endStep s c).gnm = s.gnm := by
  unfold State.endStep; split <;> simp
@[simp] theorem State.endStep_qpe (s : State) (c : Cmd) : (State.endStep s c).qpe = s.qpe := by
  unfold State.endStep; split <;> simp
@[simp] theorem State.endStep_str (s : State) (c : Cmd) : (State.endStep s c).str = s.str := by
  unfold State.endStep; split <;> simp
@[simp] theorem State.endStep_net (s : State) (c : Cmd) : (State.endStep s c).net = s.net := by
  unfold State.endStep; split <;> simp
@[simp] theorem State.endStep_epf (s : State) (c : Cmd) : (State.endStep s c).epf = s.epf := by
  unfold State.endStep; split <;> simp
@[simp] theorem State.endStep_xbr (s : State) (c : Cmd) : (State.endStep s c).xbr = s.xbr := by
  unfold State.endStep; split <;> simp
@[simp] theorem State.endStep_cph (s : State) (c : Cmd) : (State.endStep s c).cph = s.cph := by
  unfold State.endStep; split <;> simp
@[simp] theorem State.endStep_shd (s : State) (c : Cmd) : (State.endStep s c).shd = s.shd := by
  unfold State.endStep; split <;> simp
@[simp] theorem State.endStep_spm (s : State) (c : Cmd) : (State.endStep s c).spm = s.spm := by
  unfold State.endStep; split <;> simp
@[simp] theorem State.endStep_fct (s : State) (c : Cmd) : (State.endStep s c).fct = s.fct := by
  unfold State.endStep; split <;> simp
@[simp] theorem State.endStep_sys (s : State) (c : Cmd) : (State.endStep s c).sys = s.sys := by
  unfold State.endStep; split <;> simp
@[simp] theorem State.endStep_frames (s : State) (c : Cmd) : (State.endStep s c).frames = s.frames := by
  unfold State.endStep; split <;> simp
@[simp] theorem State.endStep_out (s : State) (c : Cmd) : (State.endStep s c).out = s.out := by
  unfold State.endStep; split <;> simp
@[simp] theorem State.endStep_draws (s : State) (c : Cmd) : (State.endStep s c).draws = s.draws := by
  unfold State.endStep; split <;> simp
@[simp] theorem State.endStep_pending (s : State) (c : Cmd) : (State.endStep s c).pending = s.pending := by
  unfold State.endStep; split <;> simp

@[simp] theorem State.dispatchTo_variant (s : State) (c : Cmd) (e t : Nat) : (State.dispatchTo s c e t).variant = s.variant := by
  unfold State.dispatchTo; rfl
@[simp] theorem State.dispatchTo_now (s : State) (c : Cmd) (e t : Nat) : (State.dispatchTo s c e t).now = s.now := by
  unfold State.dispatchTo; rfl
@[simp] theorem State.dispatchTo_regs (s : State) (c : Cmd) (e t : Nat) : (State.dispatchTo s c e t).regs = s.regs := by
  unfold State.dispatchTo; rfl
@[simp] theorem State.dispatchTo_isl (s : State) (c : Cmd) (e t : Nat) : (State.dispatchTo s c e t).isl = s.isl := by
  unfold State.dispatchTo; rfl
@[simp] theorem State.dispatchTo_mem (s : State) (c : Cmd) (e t : Nat) : (State.dispatchTo s c e t).mem = s.mem := by
  unfold State.dispatchTo; rfl
@[simp] theorem State.dispatchTo_fab (s : State) (c : Cmd) (e t : Nat) : (State.dispatchTo s c e t).fab = s.fab := by
  unfold State.dispatchTo; rfl
@[simp] theorem State.dispatchTo_icu (s : State) (c : Cmd) (e t : Nat) : (State.dispatchTo s c e t).icu = s.icu := by
  unfold State.dispatchTo; rfl
@[simp] theorem State.dispatchTo_glm (s : State) (c : Cmd) (e t : Nat) : (State.dispatchTo s c e t).glm = s.glm := by
  unfold State.dispatchTo; rfl
@[simp] theorem State.dispatchTo_gnm (s : State) (c : Cmd) (e t : Nat) : (State.dispatchTo s c e t).gnm = s.gnm := by
  unfold State.dispatchTo; rfl
@[simp] theorem State.dispatchTo_str (s : State) (c : Cmd) (e t : Nat) : (State.dispatchTo s c e t).str = s.str := by
  unfold State.dispatchTo; rfl
@[simp] theorem State.dispatchTo_net (s : State) (c : Cmd) (e t : Nat) : (State.dispatchTo s c e t).net = s.net := by
  unfold State.dispatchTo; rfl
@[simp] theorem State.dispatchTo_epf (s : State) (c : Cmd) (e t : Nat) : (State.dispatchTo s c e t).epf = s.epf := by
  unfold State.dispatchTo; rfl
@[simp] theorem State.dispatchTo_xbr (s : State) (c : Cmd) (e t : Nat) : (State.dispatchTo s c e t).xbr = s.xbr := by
  unfold State.dispatchTo; rfl
@[simp] theorem State.dispatchTo_cph (s : State) (c : Cmd) (e t : Nat) : (State.dispatchTo s c e t).cph = s.cph := by
  unfold State.dispatchTo; rfl
@[simp] theorem State.dispatchTo_shd (s : State) (c : Cmd) (e t : Nat) : (State.dispatchTo s c e t).shd = s.shd := by
  unfold State.dispatchTo; rfl
@[simp] theorem State.dispatchTo_spm (s : State) (c : Cmd) (e t : Nat) : (State.dispatchTo s c e t).spm = s.spm := by
  unfold State.dispatchTo; rfl
@[simp] theorem State.dispatchTo_fct (s : State) (c : Cmd) (e t : Nat) : (State.dispatchTo s c e t).fct = s.fct := by
  unfold State.dispatchTo; rfl
@[simp] theorem State.dispatchTo_sys (s : State) (c : Cmd) (e t : Nat) : (State.dispatchTo s c e t).sys = s.sys := by
  unfold State.dispatchTo; rfl
@[simp] theorem State.dispatchTo_frames (s : State) (c : Cmd) (e t : Nat) : (State.dispatchTo s c e t).frames = s.frames := by
  unfold State.dispatchTo; rfl
@[simp] theorem State.dispatchTo_out (s : State) (c : Cmd) (e t : Nat) : (State.dispatchTo s c e t).out = s.out := by
  unfold State.dispatchTo; rfl
@[simp] theorem State.dispatchTo_draws (s : State) (c : Cmd) (e t : Nat) : (State.dispatchTo s c e t).draws = s.draws := by
  unfold State.dispatchTo; rfl
@[simp] theorem State.dispatchTo_pending (s : State) (c : Cmd) (e t : Nat) : (State.dispatchTo s c e t).pending = s.pending := by
  unfold State.dispatchTo; rfl

@[simp] theorem State.reach_variant (s : State) : (State.reach s).variant = s.variant := by unfold State.reach; rfl
@[simp] theorem State.reach_now (s : State) : (State.reach s).now = s.now := by unfold State.reach; rfl
@[simp] theorem State.reach_regs (s : State) : (State.reach s).regs = s.regs := by unfold State.reach; rfl
@[simp] theorem State.reach_isl (s : State) : (State.reach s).isl = s.isl := by unfold State.reach; rfl
@[simp] theorem State.reach_mem (s : State) : (State.reach s).mem = s.mem := by unfold State.reach; rfl
@[simp] theorem State.reach_fab (s : State) : (State.reach s).fab = s.fab := by unfold State.reach; rfl
@[simp] theorem State.reach_icu (s : State) : (State.reach s).icu = s.icu := by unfold State.reach; rfl
@[simp] theorem State.reach_glm (s : State) : (State.reach s).glm = s.glm := by unfold State.reach; rfl
@[simp] theorem State.reach_gnm (s : State) : (State.reach s).gnm = s.gnm := by unfold State.reach; rfl
@[simp] theorem State.reach_qpe (s : State) : (State.reach s).qpe = s.qpe := by unfold State.reach; rfl
@[simp] theorem State.reach_cls (s : State) : (State.reach s).cls = s.cls := by unfold State.reach; rfl
@[simp] theorem State.reach_str (s : State) : (State.reach s).str = s.str := by unfold State.reach; rfl
@[simp] theorem State.reach_net (s : State) : (State.reach s).net = s.net := by unfold State.reach; rfl
@[simp] theorem State.reach_epf (s : State) : (State.reach s).epf = s.epf := by unfold State.reach; rfl
@[simp] theorem State.reach_xbr (s : State) : (State.reach s).xbr = s.xbr := by unfold State.reach; rfl
@[simp] theorem State.reach_cph (s : State) : (State.reach s).cph = s.cph := by unfold State.reach; rfl
@[simp] theorem State.reach_spm (s : State) : (State.reach s).spm = s.spm := by unfold State.reach; rfl
@[simp] theorem State.reach_fct (s : State) : (State.reach s).fct = s.fct := by unfold State.reach; rfl
@[simp] theorem State.reach_sys (s : State) : (State.reach s).sys = s.sys := by unfold State.reach; rfl
@[simp] theorem State.reach_frames (s : State) : (State.reach s).frames = s.frames := by unfold State.reach; rfl
@[simp] theorem State.reach_out (s : State) : (State.reach s).out = s.out := by unfold State.reach; rfl
@[simp] theorem State.reach_draws (s : State) : (State.reach s).draws = s.draws := by unfold State.reach; rfl
@[simp] theorem State.reach_pending (s : State) : (State.reach s).pending = s.pending := by unfold State.reach; rfl

@[simp] theorem State.setKeySlot_variant (s : State) (i : Nat) (k : KeySlot) : (State.setKeySlot s i k).variant = s.variant := by
  unfold State.setKeySlot; rfl
@[simp] theorem State.setKeySlot_now (s : State) (i : Nat) (k : KeySlot) : (State.setKeySlot s i k).now = s.now := by
  unfold State.setKeySlot; rfl
@[simp] theorem State.setKeySlot_regs (s : State) (i : Nat) (k : KeySlot) : (State.setKeySlot s i k).regs = s.regs := by
  unfold State.setKeySlot; rfl
@[simp] theorem State.setKeySlot_isl (s : State) (i : Nat) (k : KeySlot) : (State.setKeySlot s i k).isl = s.isl := by
  unfold State.setKeySlot; rfl
@[simp] theorem State.setKeySlot_mem (s : State) (i : Nat) (k : KeySlot) : (State.setKeySlot s i k).mem = s.mem := by
  unfold State.setKeySlot; rfl
@[simp] theorem State.setKeySlot_fab (s : State) (i : Nat) (k : KeySlot) : (State.setKeySlot s i k).fab = s.fab := by
  unfold State.setKeySlot; rfl
@[simp] theorem State.setKeySlot_icu (s : State) (i : Nat) (k : KeySlot) : (State.setKeySlot s i k).icu = s.icu := by
  unfold State.setKeySlot; rfl
@[simp] theorem State.setKeySlot_glm (s : State) (i : Nat) (k : KeySlot) : (State.setKeySlot s i k).glm = s.glm := by
  unfold State.setKeySlot; rfl
@[simp] theorem State.setKeySlot_gnm (s : State) (i : Nat) (k : KeySlot) : (State.setKeySlot s i k).gnm = s.gnm := by
  unfold State.setKeySlot; rfl
@[simp] theorem State.setKeySlot_qpe (s : State) (i : Nat) (k : KeySlot) : (State.setKeySlot s i k).qpe = s.qpe := by
  unfold State.setKeySlot; rfl
@[simp] theorem State.setKeySlot_cls (s : State) (i : Nat) (k : KeySlot) : (State.setKeySlot s i k).cls = s.cls := by
  unfold State.setKeySlot; rfl
@[simp] theorem State.setKeySlot_str (s : State) (i : Nat) (k : KeySlot) : (State.setKeySlot s i k).str = s.str := by
  unfold State.setKeySlot; rfl
@[simp] theorem State.setKeySlot_net (s : State) (i : Nat) (k : KeySlot) : (State.setKeySlot s i k).net = s.net := by
  unfold State.setKeySlot; rfl
@[simp] theorem State.setKeySlot_epf (s : State) (i : Nat) (k : KeySlot) : (State.setKeySlot s i k).epf = s.epf := by
  unfold State.setKeySlot; rfl
@[simp] theorem State.setKeySlot_xbr (s : State) (i : Nat) (k : KeySlot) : (State.setKeySlot s i k).xbr = s.xbr := by
  unfold State.setKeySlot; rfl
@[simp] theorem State.setKeySlot_shd (s : State) (i : Nat) (k : KeySlot) : (State.setKeySlot s i k).shd = s.shd := by
  unfold State.setKeySlot; rfl
@[simp] theorem State.setKeySlot_spm (s : State) (i : Nat) (k : KeySlot) : (State.setKeySlot s i k).spm = s.spm := by
  unfold State.setKeySlot; rfl
@[simp] theorem State.setKeySlot_fct (s : State) (i : Nat) (k : KeySlot) : (State.setKeySlot s i k).fct = s.fct := by
  unfold State.setKeySlot; rfl
@[simp] theorem State.setKeySlot_sys (s : State) (i : Nat) (k : KeySlot) : (State.setKeySlot s i k).sys = s.sys := by
  unfold State.setKeySlot; rfl
@[simp] theorem State.setKeySlot_frames (s : State) (i : Nat) (k : KeySlot) : (State.setKeySlot s i k).frames = s.frames := by
  unfold State.setKeySlot; rfl
@[simp] theorem State.setKeySlot_out (s : State) (i : Nat) (k : KeySlot) : (State.setKeySlot s i k).out = s.out := by
  unfold State.setKeySlot; rfl
@[simp] theorem State.setKeySlot_draws (s : State) (i : Nat) (k : KeySlot) : (State.setKeySlot s i k).draws = s.draws := by
  unfold State.setKeySlot; rfl
@[simp] theorem State.setKeySlot_pending (s : State) (i : Nat) (k : KeySlot) : (State.setKeySlot s i k).pending = s.pending := by
  unfold State.setKeySlot; rfl

@[simp] theorem State.syncDrive_variant (s : State) (sl : Nat) : (State.syncDrive s sl).variant = s.variant := by
  unfold State.syncDrive; rfl
@[simp] theorem State.syncDrive_now (s : State) (sl : Nat) : (State.syncDrive s sl).now = s.now := by
  unfold State.syncDrive; rfl
@[simp] theorem State.syncDrive_regs (s : State) (sl : Nat) : (State.syncDrive s sl).regs = s.regs := by
  unfold State.syncDrive; rfl
@[simp] theorem State.syncDrive_isl (s : State) (sl : Nat) : (State.syncDrive s sl).isl = s.isl := by
  unfold State.syncDrive; rfl
@[simp] theorem State.syncDrive_mem (s : State) (sl : Nat) : (State.syncDrive s sl).mem = s.mem := by
  unfold State.syncDrive; rfl
@[simp] theorem State.syncDrive_fab (s : State) (sl : Nat) : (State.syncDrive s sl).fab = s.fab := by
  unfold State.syncDrive; rfl
@[simp] theorem State.syncDrive_icu (s : State) (sl : Nat) : (State.syncDrive s sl).icu = s.icu := by
  unfold State.syncDrive; rfl
@[simp] theorem State.syncDrive_glm (s : State) (sl : Nat) : (State.syncDrive s sl).glm = s.glm := by
  unfold State.syncDrive; rfl
@[simp] theorem State.syncDrive_gnm (s : State) (sl : Nat) : (State.syncDrive s sl).gnm = s.gnm := by
  unfold State.syncDrive; rfl
@[simp] theorem State.syncDrive_qpe (s : State) (sl : Nat) : (State.syncDrive s sl).qpe = s.qpe := by
  unfold State.syncDrive; rfl
@[simp] theorem State.syncDrive_str (s : State) (sl : Nat) : (State.syncDrive s sl).str = s.str := by
  unfold State.syncDrive; rfl
@[simp] theorem State.syncDrive_net (s : State) (sl : Nat) : (State.syncDrive s sl).net = s.net := by
  unfold State.syncDrive; rfl
@[simp] theorem State.syncDrive_epf (s : State) (sl : Nat) : (State.syncDrive s sl).epf = s.epf := by
  unfold State.syncDrive; rfl
@[simp] theorem State.syncDrive_xbr (s : State) (sl : Nat) : (State.syncDrive s sl).xbr = s.xbr := by
  unfold State.syncDrive; rfl
@[simp] theorem State.syncDrive_cph (s : State) (sl : Nat) : (State.syncDrive s sl).cph = s.cph := by
  unfold State.syncDrive; rfl
@[simp] theorem State.syncDrive_shd (s : State) (sl : Nat) : (State.syncDrive s sl).shd = s.shd := by
  unfold State.syncDrive; rfl
@[simp] theorem State.syncDrive_spm (s : State) (sl : Nat) : (State.syncDrive s sl).spm = s.spm := by
  unfold State.syncDrive; rfl
@[simp] theorem State.syncDrive_fct (s : State) (sl : Nat) : (State.syncDrive s sl).fct = s.fct := by
  unfold State.syncDrive; rfl
@[simp] theorem State.syncDrive_sys (s : State) (sl : Nat) : (State.syncDrive s sl).sys = s.sys := by
  unfold State.syncDrive; rfl
@[simp] theorem State.syncDrive_frames (s : State) (sl : Nat) : (State.syncDrive s sl).frames = s.frames := by
  unfold State.syncDrive; rfl
@[simp] theorem State.syncDrive_out (s : State) (sl : Nat) : (State.syncDrive s sl).out = s.out := by
  unfold State.syncDrive; rfl
@[simp] theorem State.syncDrive_draws (s : State) (sl : Nat) : (State.syncDrive s sl).draws = s.draws := by
  unfold State.syncDrive; rfl
@[simp] theorem State.syncDrive_pending (s : State) (sl : Nat) : (State.syncDrive s sl).pending = s.pending := by
  unfold State.syncDrive; rfl

@[simp] theorem State.addMem_variant (s : State) (slot : Nat) (op : MemOp) (lba n : Nat) (data : Bytes) (cls : Nat) (who : MemFor) (cells : Nat) : (State.addMem s slot op lba n data cls who cells).variant = s.variant := by
  unfold State.addMem; rfl
@[simp] theorem State.addMem_now (s : State) (slot : Nat) (op : MemOp) (lba n : Nat) (data : Bytes) (cls : Nat) (who : MemFor) (cells : Nat) : (State.addMem s slot op lba n data cls who cells).now = s.now := by
  unfold State.addMem; rfl
@[simp] theorem State.addMem_regs (s : State) (slot : Nat) (op : MemOp) (lba n : Nat) (data : Bytes) (cls : Nat) (who : MemFor) (cells : Nat) : (State.addMem s slot op lba n data cls who cells).regs = s.regs := by
  unfold State.addMem; rfl
@[simp] theorem State.addMem_isl (s : State) (slot : Nat) (op : MemOp) (lba n : Nat) (data : Bytes) (cls : Nat) (who : MemFor) (cells : Nat) : (State.addMem s slot op lba n data cls who cells).isl = s.isl := by
  unfold State.addMem; rfl
@[simp] theorem State.addMem_fab (s : State) (slot : Nat) (op : MemOp) (lba n : Nat) (data : Bytes) (cls : Nat) (who : MemFor) (cells : Nat) : (State.addMem s slot op lba n data cls who cells).fab = s.fab := by
  unfold State.addMem; rfl
@[simp] theorem State.addMem_icu (s : State) (slot : Nat) (op : MemOp) (lba n : Nat) (data : Bytes) (cls : Nat) (who : MemFor) (cells : Nat) : (State.addMem s slot op lba n data cls who cells).icu = s.icu := by
  unfold State.addMem; rfl
@[simp] theorem State.addMem_glm (s : State) (slot : Nat) (op : MemOp) (lba n : Nat) (data : Bytes) (cls : Nat) (who : MemFor) (cells : Nat) : (State.addMem s slot op lba n data cls who cells).glm = s.glm := by
  unfold State.addMem; rfl
@[simp] theorem State.addMem_gnm (s : State) (slot : Nat) (op : MemOp) (lba n : Nat) (data : Bytes) (cls : Nat) (who : MemFor) (cells : Nat) : (State.addMem s slot op lba n data cls who cells).gnm = s.gnm := by
  unfold State.addMem; rfl
@[simp] theorem State.addMem_qpe (s : State) (slot : Nat) (op : MemOp) (lba n : Nat) (data : Bytes) (cls : Nat) (who : MemFor) (cells : Nat) : (State.addMem s slot op lba n data cls who cells).qpe = s.qpe := by
  unfold State.addMem; rfl
@[simp] theorem State.addMem_net (s : State) (slot : Nat) (op : MemOp) (lba n : Nat) (data : Bytes) (cls : Nat) (who : MemFor) (cells : Nat) : (State.addMem s slot op lba n data cls who cells).net = s.net := by
  unfold State.addMem; rfl
@[simp] theorem State.addMem_epf (s : State) (slot : Nat) (op : MemOp) (lba n : Nat) (data : Bytes) (cls : Nat) (who : MemFor) (cells : Nat) : (State.addMem s slot op lba n data cls who cells).epf = s.epf := by
  unfold State.addMem; rfl
@[simp] theorem State.addMem_xbr (s : State) (slot : Nat) (op : MemOp) (lba n : Nat) (data : Bytes) (cls : Nat) (who : MemFor) (cells : Nat) : (State.addMem s slot op lba n data cls who cells).xbr = s.xbr := by
  unfold State.addMem; rfl
@[simp] theorem State.addMem_cph (s : State) (slot : Nat) (op : MemOp) (lba n : Nat) (data : Bytes) (cls : Nat) (who : MemFor) (cells : Nat) : (State.addMem s slot op lba n data cls who cells).cph = s.cph := by
  unfold State.addMem; rfl
@[simp] theorem State.addMem_shd (s : State) (slot : Nat) (op : MemOp) (lba n : Nat) (data : Bytes) (cls : Nat) (who : MemFor) (cells : Nat) : (State.addMem s slot op lba n data cls who cells).shd = s.shd := by
  unfold State.addMem; rfl
@[simp] theorem State.addMem_spm (s : State) (slot : Nat) (op : MemOp) (lba n : Nat) (data : Bytes) (cls : Nat) (who : MemFor) (cells : Nat) : (State.addMem s slot op lba n data cls who cells).spm = s.spm := by
  unfold State.addMem; rfl
@[simp] theorem State.addMem_fct (s : State) (slot : Nat) (op : MemOp) (lba n : Nat) (data : Bytes) (cls : Nat) (who : MemFor) (cells : Nat) : (State.addMem s slot op lba n data cls who cells).fct = s.fct := by
  unfold State.addMem; rfl
@[simp] theorem State.addMem_sys (s : State) (slot : Nat) (op : MemOp) (lba n : Nat) (data : Bytes) (cls : Nat) (who : MemFor) (cells : Nat) : (State.addMem s slot op lba n data cls who cells).sys = s.sys := by
  unfold State.addMem; rfl
@[simp] theorem State.addMem_frames (s : State) (slot : Nat) (op : MemOp) (lba n : Nat) (data : Bytes) (cls : Nat) (who : MemFor) (cells : Nat) : (State.addMem s slot op lba n data cls who cells).frames = s.frames := by
  unfold State.addMem; rfl
@[simp] theorem State.addMem_out (s : State) (slot : Nat) (op : MemOp) (lba n : Nat) (data : Bytes) (cls : Nat) (who : MemFor) (cells : Nat) : (State.addMem s slot op lba n data cls who cells).out = s.out := by
  unfold State.addMem; rfl
@[simp] theorem State.addMem_draws (s : State) (slot : Nat) (op : MemOp) (lba n : Nat) (data : Bytes) (cls : Nat) (who : MemFor) (cells : Nat) : (State.addMem s slot op lba n data cls who cells).draws = s.draws := by
  unfold State.addMem; rfl
@[simp] theorem State.addMem_pending (s : State) (slot : Nat) (op : MemOp) (lba n : Nat) (data : Bytes) (cls : Nat) (who : MemFor) (cells : Nat) : (State.addMem s slot op lba n data cls who cells).pending = s.pending := by
  unfold State.addMem; rfl

@[simp] theorem State.putRecord_variant (s : State) (gi : Nat) : (State.putRecord s gi).variant = s.variant := by
  unfold State.putRecord; split <;> simp
@[simp] theorem State.putRecord_now (s : State) (gi : Nat) : (State.putRecord s gi).now = s.now := by
  unfold State.putRecord; split <;> simp
@[simp] theorem State.putRecord_regs (s : State) (gi : Nat) : (State.putRecord s gi).regs = s.regs := by
  unfold State.putRecord; split <;> simp
@[simp] theorem State.putRecord_isl (s : State) (gi : Nat) : (State.putRecord s gi).isl = s.isl := by
  unfold State.putRecord; split <;> simp
@[simp] theorem State.putRecord_mem (s : State) (gi : Nat) : (State.putRecord s gi).mem = s.mem := by
  unfold State.putRecord; split <;> simp
@[simp] theorem State.putRecord_fab (s : State) (gi : Nat) : (State.putRecord s gi).fab = s.fab := by
  unfold State.putRecord; split <;> simp
@[simp] theorem State.putRecord_icu (s : State) (gi : Nat) : (State.putRecord s gi).icu = s.icu := by
  unfold State.putRecord; split <;> simp
@[simp] theorem State.putRecord_glm (s : State) (gi : Nat) : (State.putRecord s gi).glm = s.glm := by
  unfold State.putRecord; split <;> simp
@[simp] theorem State.putRecord_gnm (s : State) (gi : Nat) : (State.putRecord s gi).gnm = s.gnm := by
  unfold State.putRecord; split <;> simp
@[simp] theorem State.putRecord_qpe (s : State) (gi : Nat) : (State.putRecord s gi).qpe = s.qpe := by
  unfold State.putRecord; split <;> simp
@[simp] theorem State.putRecord_cls (s : State) (gi : Nat) : (State.putRecord s gi).cls = s.cls := by
  unfold State.putRecord; split <;> simp
@[simp] theorem State.putRecord_net (s : State) (gi : Nat) : (State.putRecord s gi).net = s.net := by
  unfold State.putRecord; split <;> simp
@[simp] theorem State.putRecord_epf (s : State) (gi : Nat) : (State.putRecord s gi).epf = s.epf := by
  unfold State.putRecord; split <;> simp
@[simp] theorem State.putRecord_xbr (s : State) (gi : Nat) : (State.putRecord s gi).xbr = s.xbr := by
  unfold State.putRecord; split <;> simp
@[simp] theorem State.putRecord_cph (s : State) (gi : Nat) : (State.putRecord s gi).cph = s.cph := by
  unfold State.putRecord; split <;> simp
@[simp] theorem State.putRecord_spm (s : State) (gi : Nat) : (State.putRecord s gi).spm = s.spm := by
  unfold State.putRecord; split <;> simp
@[simp] theorem State.putRecord_fct (s : State) (gi : Nat) : (State.putRecord s gi).fct = s.fct := by
  unfold State.putRecord; split <;> simp
@[simp] theorem State.putRecord_frames (s : State) (gi : Nat) : (State.putRecord s gi).frames = s.frames := by
  unfold State.putRecord; split <;> simp
@[simp] theorem State.putRecord_out (s : State) (gi : Nat) : (State.putRecord s gi).out = s.out := by
  unfold State.putRecord; split <;> simp
@[simp] theorem State.putRecord_draws (s : State) (gi : Nat) : (State.putRecord s gi).draws = s.draws := by
  unfold State.putRecord; split <;> simp
@[simp] theorem State.putRecord_pending (s : State) (gi : Nat) : (State.putRecord s gi).pending = s.pending := by
  unfold State.putRecord; split <;> simp

@[simp] theorem State.updRun_variant (s : State) (seq vblk : Nat) (f : ReadRun → ReadRun) : (State.updRun s seq vblk f).variant = s.variant := by
  unfold State.updRun; rfl
@[simp] theorem State.updRun_now (s : State) (seq vblk : Nat) (f : ReadRun → ReadRun) : (State.updRun s seq vblk f).now = s.now := by
  unfold State.updRun; rfl
@[simp] theorem State.updRun_regs (s : State) (seq vblk : Nat) (f : ReadRun → ReadRun) : (State.updRun s seq vblk f).regs = s.regs := by
  unfold State.updRun; rfl
@[simp] theorem State.updRun_isl (s : State) (seq vblk : Nat) (f : ReadRun → ReadRun) : (State.updRun s seq vblk f).isl = s.isl := by
  unfold State.updRun; rfl
@[simp] theorem State.updRun_mem (s : State) (seq vblk : Nat) (f : ReadRun → ReadRun) : (State.updRun s seq vblk f).mem = s.mem := by
  unfold State.updRun; rfl
@[simp] theorem State.updRun_fab (s : State) (seq vblk : Nat) (f : ReadRun → ReadRun) : (State.updRun s seq vblk f).fab = s.fab := by
  unfold State.updRun; rfl
@[simp] theorem State.updRun_icu (s : State) (seq vblk : Nat) (f : ReadRun → ReadRun) : (State.updRun s seq vblk f).icu = s.icu := by
  unfold State.updRun; rfl
@[simp] theorem State.updRun_glm (s : State) (seq vblk : Nat) (f : ReadRun → ReadRun) : (State.updRun s seq vblk f).glm = s.glm := by
  unfold State.updRun; rfl
@[simp] theorem State.updRun_gnm (s : State) (seq vblk : Nat) (f : ReadRun → ReadRun) : (State.updRun s seq vblk f).gnm = s.gnm := by
  unfold State.updRun; rfl
@[simp] theorem State.updRun_cls (s : State) (seq vblk : Nat) (f : ReadRun → ReadRun) : (State.updRun s seq vblk f).cls = s.cls := by
  unfold State.updRun; rfl
@[simp] theorem State.updRun_str (s : State) (seq vblk : Nat) (f : ReadRun → ReadRun) : (State.updRun s seq vblk f).str = s.str := by
  unfold State.updRun; rfl
@[simp] theorem State.updRun_net (s : State) (seq vblk : Nat) (f : ReadRun → ReadRun) : (State.updRun s seq vblk f).net = s.net := by
  unfold State.updRun; rfl
@[simp] theorem State.updRun_epf (s : State) (seq vblk : Nat) (f : ReadRun → ReadRun) : (State.updRun s seq vblk f).epf = s.epf := by
  unfold State.updRun; rfl
@[simp] theorem State.updRun_xbr (s : State) (seq vblk : Nat) (f : ReadRun → ReadRun) : (State.updRun s seq vblk f).xbr = s.xbr := by
  unfold State.updRun; rfl
@[simp] theorem State.updRun_cph (s : State) (seq vblk : Nat) (f : ReadRun → ReadRun) : (State.updRun s seq vblk f).cph = s.cph := by
  unfold State.updRun; rfl
@[simp] theorem State.updRun_shd (s : State) (seq vblk : Nat) (f : ReadRun → ReadRun) : (State.updRun s seq vblk f).shd = s.shd := by
  unfold State.updRun; rfl
@[simp] theorem State.updRun_spm (s : State) (seq vblk : Nat) (f : ReadRun → ReadRun) : (State.updRun s seq vblk f).spm = s.spm := by
  unfold State.updRun; rfl
@[simp] theorem State.updRun_fct (s : State) (seq vblk : Nat) (f : ReadRun → ReadRun) : (State.updRun s seq vblk f).fct = s.fct := by
  unfold State.updRun; rfl
@[simp] theorem State.updRun_sys (s : State) (seq vblk : Nat) (f : ReadRun → ReadRun) : (State.updRun s seq vblk f).sys = s.sys := by
  unfold State.updRun; rfl
@[simp] theorem State.updRun_frames (s : State) (seq vblk : Nat) (f : ReadRun → ReadRun) : (State.updRun s seq vblk f).frames = s.frames := by
  unfold State.updRun; rfl
@[simp] theorem State.updRun_out (s : State) (seq vblk : Nat) (f : ReadRun → ReadRun) : (State.updRun s seq vblk f).out = s.out := by
  unfold State.updRun; rfl
@[simp] theorem State.updRun_draws (s : State) (seq vblk : Nat) (f : ReadRun → ReadRun) : (State.updRun s seq vblk f).draws = s.draws := by
  unfold State.updRun; rfl
@[simp] theorem State.updRun_pending (s : State) (seq vblk : Nat) (f : ReadRun → ReadRun) : (State.updRun s seq vblk f).pending = s.pending := by
  unfold State.updRun; rfl

@[simp] theorem State.updOpen_variant (s : State) (gi st : Nat) (f : OpenStripe → OpenStripe) : (State.updOpen s gi st f).variant = s.variant := by
  unfold State.updOpen; rfl
@[simp] theorem State.updOpen_now (s : State) (gi st : Nat) (f : OpenStripe → OpenStripe) : (State.updOpen s gi st f).now = s.now := by
  unfold State.updOpen; rfl
@[simp] theorem State.updOpen_regs (s : State) (gi st : Nat) (f : OpenStripe → OpenStripe) : (State.updOpen s gi st f).regs = s.regs := by
  unfold State.updOpen; rfl
@[simp] theorem State.updOpen_isl (s : State) (gi st : Nat) (f : OpenStripe → OpenStripe) : (State.updOpen s gi st f).isl = s.isl := by
  unfold State.updOpen; rfl
@[simp] theorem State.updOpen_mem (s : State) (gi st : Nat) (f : OpenStripe → OpenStripe) : (State.updOpen s gi st f).mem = s.mem := by
  unfold State.updOpen; rfl
@[simp] theorem State.updOpen_fab (s : State) (gi st : Nat) (f : OpenStripe → OpenStripe) : (State.updOpen s gi st f).fab = s.fab := by
  unfold State.updOpen; rfl
@[simp] theorem State.updOpen_icu (s : State) (gi st : Nat) (f : OpenStripe → OpenStripe) : (State.updOpen s gi st f).icu = s.icu := by
  unfold State.updOpen; rfl
@[simp] theorem State.updOpen_glm (s : State) (gi st : Nat) (f : OpenStripe → OpenStripe) : (State.updOpen s gi st f).glm = s.glm := by
  unfold State.updOpen; rfl
@[simp] theorem State.updOpen_gnm (s : State) (gi st : Nat) (f : OpenStripe → OpenStripe) : (State.updOpen s gi st f).gnm = s.gnm := by
  unfold State.updOpen; rfl
@[simp] theorem State.updOpen_qpe (s : State) (gi st : Nat) (f : OpenStripe → OpenStripe) : (State.updOpen s gi st f).qpe = s.qpe := by
  unfold State.updOpen; rfl
@[simp] theorem State.updOpen_cls (s : State) (gi st : Nat) (f : OpenStripe → OpenStripe) : (State.updOpen s gi st f).cls = s.cls := by
  unfold State.updOpen; rfl
@[simp] theorem State.updOpen_net (s : State) (gi st : Nat) (f : OpenStripe → OpenStripe) : (State.updOpen s gi st f).net = s.net := by
  unfold State.updOpen; rfl
@[simp] theorem State.updOpen_epf (s : State) (gi st : Nat) (f : OpenStripe → OpenStripe) : (State.updOpen s gi st f).epf = s.epf := by
  unfold State.updOpen; rfl
@[simp] theorem State.updOpen_xbr (s : State) (gi st : Nat) (f : OpenStripe → OpenStripe) : (State.updOpen s gi st f).xbr = s.xbr := by
  unfold State.updOpen; rfl
@[simp] theorem State.updOpen_cph (s : State) (gi st : Nat) (f : OpenStripe → OpenStripe) : (State.updOpen s gi st f).cph = s.cph := by
  unfold State.updOpen; rfl
@[simp] theorem State.updOpen_shd (s : State) (gi st : Nat) (f : OpenStripe → OpenStripe) : (State.updOpen s gi st f).shd = s.shd := by
  unfold State.updOpen; rfl
@[simp] theorem State.updOpen_spm (s : State) (gi st : Nat) (f : OpenStripe → OpenStripe) : (State.updOpen s gi st f).spm = s.spm := by
  unfold State.updOpen; rfl
@[simp] theorem State.updOpen_fct (s : State) (gi st : Nat) (f : OpenStripe → OpenStripe) : (State.updOpen s gi st f).fct = s.fct := by
  unfold State.updOpen; rfl
@[simp] theorem State.updOpen_sys (s : State) (gi st : Nat) (f : OpenStripe → OpenStripe) : (State.updOpen s gi st f).sys = s.sys := by
  unfold State.updOpen; rfl
@[simp] theorem State.updOpen_frames (s : State) (gi st : Nat) (f : OpenStripe → OpenStripe) : (State.updOpen s gi st f).frames = s.frames := by
  unfold State.updOpen; rfl
@[simp] theorem State.updOpen_out (s : State) (gi st : Nat) (f : OpenStripe → OpenStripe) : (State.updOpen s gi st f).out = s.out := by
  unfold State.updOpen; rfl
@[simp] theorem State.updOpen_draws (s : State) (gi st : Nat) (f : OpenStripe → OpenStripe) : (State.updOpen s gi st f).draws = s.draws := by
  unfold State.updOpen; rfl
@[simp] theorem State.updOpen_pending (s : State) (gi st : Nat) (f : OpenStripe → OpenStripe) : (State.updOpen s gi st f).pending = s.pending := by
  unfold State.updOpen; rfl

@[simp] theorem State.setPfc_variant (s : State) (mac pri : Nat) (p : Pfc) : (State.setPfc s mac pri p).variant = s.variant := by
  unfold State.setPfc; rfl
@[simp] theorem State.setPfc_now (s : State) (mac pri : Nat) (p : Pfc) : (State.setPfc s mac pri p).now = s.now := by
  unfold State.setPfc; rfl
@[simp] theorem State.setPfc_regs (s : State) (mac pri : Nat) (p : Pfc) : (State.setPfc s mac pri p).regs = s.regs := by
  unfold State.setPfc; rfl
@[simp] theorem State.setPfc_isl (s : State) (mac pri : Nat) (p : Pfc) : (State.setPfc s mac pri p).isl = s.isl := by
  unfold State.setPfc; rfl
@[simp] theorem State.setPfc_mem (s : State) (mac pri : Nat) (p : Pfc) : (State.setPfc s mac pri p).mem = s.mem := by
  unfold State.setPfc; rfl
@[simp] theorem State.setPfc_fab (s : State) (mac pri : Nat) (p : Pfc) : (State.setPfc s mac pri p).fab = s.fab := by
  unfold State.setPfc; rfl
@[simp] theorem State.setPfc_icu (s : State) (mac pri : Nat) (p : Pfc) : (State.setPfc s mac pri p).icu = s.icu := by
  unfold State.setPfc; rfl
@[simp] theorem State.setPfc_glm (s : State) (mac pri : Nat) (p : Pfc) : (State.setPfc s mac pri p).glm = s.glm := by
  unfold State.setPfc; rfl
@[simp] theorem State.setPfc_gnm (s : State) (mac pri : Nat) (p : Pfc) : (State.setPfc s mac pri p).gnm = s.gnm := by
  unfold State.setPfc; rfl
@[simp] theorem State.setPfc_qpe (s : State) (mac pri : Nat) (p : Pfc) : (State.setPfc s mac pri p).qpe = s.qpe := by
  unfold State.setPfc; rfl
@[simp] theorem State.setPfc_cls (s : State) (mac pri : Nat) (p : Pfc) : (State.setPfc s mac pri p).cls = s.cls := by
  unfold State.setPfc; rfl
@[simp] theorem State.setPfc_str (s : State) (mac pri : Nat) (p : Pfc) : (State.setPfc s mac pri p).str = s.str := by
  unfold State.setPfc; rfl
@[simp] theorem State.setPfc_epf (s : State) (mac pri : Nat) (p : Pfc) : (State.setPfc s mac pri p).epf = s.epf := by
  unfold State.setPfc; rfl
@[simp] theorem State.setPfc_xbr (s : State) (mac pri : Nat) (p : Pfc) : (State.setPfc s mac pri p).xbr = s.xbr := by
  unfold State.setPfc; rfl
@[simp] theorem State.setPfc_cph (s : State) (mac pri : Nat) (p : Pfc) : (State.setPfc s mac pri p).cph = s.cph := by
  unfold State.setPfc; rfl
@[simp] theorem State.setPfc_shd (s : State) (mac pri : Nat) (p : Pfc) : (State.setPfc s mac pri p).shd = s.shd := by
  unfold State.setPfc; rfl
@[simp] theorem State.setPfc_spm (s : State) (mac pri : Nat) (p : Pfc) : (State.setPfc s mac pri p).spm = s.spm := by
  unfold State.setPfc; rfl
@[simp] theorem State.setPfc_fct (s : State) (mac pri : Nat) (p : Pfc) : (State.setPfc s mac pri p).fct = s.fct := by
  unfold State.setPfc; rfl
@[simp] theorem State.setPfc_sys (s : State) (mac pri : Nat) (p : Pfc) : (State.setPfc s mac pri p).sys = s.sys := by
  unfold State.setPfc; rfl
@[simp] theorem State.setPfc_frames (s : State) (mac pri : Nat) (p : Pfc) : (State.setPfc s mac pri p).frames = s.frames := by
  unfold State.setPfc; rfl
@[simp] theorem State.setPfc_out (s : State) (mac pri : Nat) (p : Pfc) : (State.setPfc s mac pri p).out = s.out := by
  unfold State.setPfc; rfl
@[simp] theorem State.setPfc_draws (s : State) (mac pri : Nat) (p : Pfc) : (State.setPfc s mac pri p).draws = s.draws := by
  unfold State.setPfc; rfl
@[simp] theorem State.setPfc_pending (s : State) (mac pri : Nat) (p : Pfc) : (State.setPfc s mac pri p).pending = s.pending := by
  unfold State.setPfc; rfl

@[simp] theorem State.odtHeard_variant (s : State) (h : OdtHdr) : (State.odtHeard s h).variant = s.variant := by
  unfold State.odtHeard; rfl
@[simp] theorem State.odtHeard_now (s : State) (h : OdtHdr) : (State.odtHeard s h).now = s.now := by
  unfold State.odtHeard; rfl
@[simp] theorem State.odtHeard_regs (s : State) (h : OdtHdr) : (State.odtHeard s h).regs = s.regs := by
  unfold State.odtHeard; rfl
@[simp] theorem State.odtHeard_isl (s : State) (h : OdtHdr) : (State.odtHeard s h).isl = s.isl := by
  unfold State.odtHeard; rfl
@[simp] theorem State.odtHeard_mem (s : State) (h : OdtHdr) : (State.odtHeard s h).mem = s.mem := by
  unfold State.odtHeard; rfl
@[simp] theorem State.odtHeard_fab (s : State) (h : OdtHdr) : (State.odtHeard s h).fab = s.fab := by
  unfold State.odtHeard; rfl
@[simp] theorem State.odtHeard_icu (s : State) (h : OdtHdr) : (State.odtHeard s h).icu = s.icu := by
  unfold State.odtHeard; rfl
@[simp] theorem State.odtHeard_glm (s : State) (h : OdtHdr) : (State.odtHeard s h).glm = s.glm := by
  unfold State.odtHeard; rfl
@[simp] theorem State.odtHeard_gnm (s : State) (h : OdtHdr) : (State.odtHeard s h).gnm = s.gnm := by
  unfold State.odtHeard; rfl
@[simp] theorem State.odtHeard_qpe (s : State) (h : OdtHdr) : (State.odtHeard s h).qpe = s.qpe := by
  unfold State.odtHeard; rfl
@[simp] theorem State.odtHeard_cls (s : State) (h : OdtHdr) : (State.odtHeard s h).cls = s.cls := by
  unfold State.odtHeard; rfl
@[simp] theorem State.odtHeard_str (s : State) (h : OdtHdr) : (State.odtHeard s h).str = s.str := by
  unfold State.odtHeard; rfl
@[simp] theorem State.odtHeard_epf (s : State) (h : OdtHdr) : (State.odtHeard s h).epf = s.epf := by
  unfold State.odtHeard; rfl
@[simp] theorem State.odtHeard_xbr (s : State) (h : OdtHdr) : (State.odtHeard s h).xbr = s.xbr := by
  unfold State.odtHeard; rfl
@[simp] theorem State.odtHeard_cph (s : State) (h : OdtHdr) : (State.odtHeard s h).cph = s.cph := by
  unfold State.odtHeard; rfl
@[simp] theorem State.odtHeard_shd (s : State) (h : OdtHdr) : (State.odtHeard s h).shd = s.shd := by
  unfold State.odtHeard; rfl
@[simp] theorem State.odtHeard_spm (s : State) (h : OdtHdr) : (State.odtHeard s h).spm = s.spm := by
  unfold State.odtHeard; rfl
@[simp] theorem State.odtHeard_fct (s : State) (h : OdtHdr) : (State.odtHeard s h).fct = s.fct := by
  unfold State.odtHeard; rfl
@[simp] theorem State.odtHeard_sys (s : State) (h : OdtHdr) : (State.odtHeard s h).sys = s.sys := by
  unfold State.odtHeard; rfl
@[simp] theorem State.odtHeard_frames (s : State) (h : OdtHdr) : (State.odtHeard s h).frames = s.frames := by
  unfold State.odtHeard; rfl
@[simp] theorem State.odtHeard_out (s : State) (h : OdtHdr) : (State.odtHeard s h).out = s.out := by
  unfold State.odtHeard; rfl
@[simp] theorem State.odtHeard_draws (s : State) (h : OdtHdr) : (State.odtHeard s h).draws = s.draws := by
  unfold State.odtHeard; rfl
@[simp] theorem State.odtHeard_pending (s : State) (h : OdtHdr) : (State.odtHeard s h).pending = s.pending := by
  unfold State.odtHeard; rfl

@[simp] theorem State.updRoce_variant (s : State) (k : Nat) (f : RoceConn → RoceConn) : (State.updRoce s k f).variant = s.variant := by
  unfold State.updRoce; split <;> simp
@[simp] theorem State.updRoce_now (s : State) (k : Nat) (f : RoceConn → RoceConn) : (State.updRoce s k f).now = s.now := by
  unfold State.updRoce; split <;> simp
@[simp] theorem State.updRoce_regs (s : State) (k : Nat) (f : RoceConn → RoceConn) : (State.updRoce s k f).regs = s.regs := by
  unfold State.updRoce; split <;> simp
@[simp] theorem State.updRoce_isl (s : State) (k : Nat) (f : RoceConn → RoceConn) : (State.updRoce s k f).isl = s.isl := by
  unfold State.updRoce; split <;> simp
@[simp] theorem State.updRoce_mem (s : State) (k : Nat) (f : RoceConn → RoceConn) : (State.updRoce s k f).mem = s.mem := by
  unfold State.updRoce; split <;> simp
@[simp] theorem State.updRoce_fab (s : State) (k : Nat) (f : RoceConn → RoceConn) : (State.updRoce s k f).fab = s.fab := by
  unfold State.updRoce; split <;> simp
@[simp] theorem State.updRoce_icu (s : State) (k : Nat) (f : RoceConn → RoceConn) : (State.updRoce s k f).icu = s.icu := by
  unfold State.updRoce; split <;> simp
@[simp] theorem State.updRoce_glm (s : State) (k : Nat) (f : RoceConn → RoceConn) : (State.updRoce s k f).glm = s.glm := by
  unfold State.updRoce; split <;> simp
@[simp] theorem State.updRoce_gnm (s : State) (k : Nat) (f : RoceConn → RoceConn) : (State.updRoce s k f).gnm = s.gnm := by
  unfold State.updRoce; split <;> simp
@[simp] theorem State.updRoce_qpe (s : State) (k : Nat) (f : RoceConn → RoceConn) : (State.updRoce s k f).qpe = s.qpe := by
  unfold State.updRoce; split <;> simp
@[simp] theorem State.updRoce_cls (s : State) (k : Nat) (f : RoceConn → RoceConn) : (State.updRoce s k f).cls = s.cls := by
  unfold State.updRoce; split <;> simp
@[simp] theorem State.updRoce_str (s : State) (k : Nat) (f : RoceConn → RoceConn) : (State.updRoce s k f).str = s.str := by
  unfold State.updRoce; split <;> simp
@[simp] theorem State.updRoce_epf (s : State) (k : Nat) (f : RoceConn → RoceConn) : (State.updRoce s k f).epf = s.epf := by
  unfold State.updRoce; split <;> simp
@[simp] theorem State.updRoce_xbr (s : State) (k : Nat) (f : RoceConn → RoceConn) : (State.updRoce s k f).xbr = s.xbr := by
  unfold State.updRoce; split <;> simp
@[simp] theorem State.updRoce_cph (s : State) (k : Nat) (f : RoceConn → RoceConn) : (State.updRoce s k f).cph = s.cph := by
  unfold State.updRoce; split <;> simp
@[simp] theorem State.updRoce_shd (s : State) (k : Nat) (f : RoceConn → RoceConn) : (State.updRoce s k f).shd = s.shd := by
  unfold State.updRoce; split <;> simp
@[simp] theorem State.updRoce_spm (s : State) (k : Nat) (f : RoceConn → RoceConn) : (State.updRoce s k f).spm = s.spm := by
  unfold State.updRoce; split <;> simp
@[simp] theorem State.updRoce_fct (s : State) (k : Nat) (f : RoceConn → RoceConn) : (State.updRoce s k f).fct = s.fct := by
  unfold State.updRoce; split <;> simp
@[simp] theorem State.updRoce_sys (s : State) (k : Nat) (f : RoceConn → RoceConn) : (State.updRoce s k f).sys = s.sys := by
  unfold State.updRoce; split <;> simp
@[simp] theorem State.updRoce_frames (s : State) (k : Nat) (f : RoceConn → RoceConn) : (State.updRoce s k f).frames = s.frames := by
  unfold State.updRoce; split <;> simp
@[simp] theorem State.updRoce_out (s : State) (k : Nat) (f : RoceConn → RoceConn) : (State.updRoce s k f).out = s.out := by
  unfold State.updRoce; split <;> simp
@[simp] theorem State.updRoce_draws (s : State) (k : Nat) (f : RoceConn → RoceConn) : (State.updRoce s k f).draws = s.draws := by
  unfold State.updRoce; split <;> simp
@[simp] theorem State.updRoce_pending (s : State) (k : Nat) (f : RoceConn → RoceConn) : (State.updRoce s k f).pending = s.pending := by
  unfold State.updRoce; split <;> simp

@[simp] theorem State.assertFence_variant (s : State) : (State.assertFence s).variant = s.variant := by
  unfold State.assertFence; split <;> simp
@[simp] theorem State.assertFence_now (s : State) : (State.assertFence s).now = s.now := by
  unfold State.assertFence; split <;> simp
@[simp] theorem State.assertFence_mem (s : State) : (State.assertFence s).mem = s.mem := by
  unfold State.assertFence; split <;> simp
@[simp] theorem State.assertFence_fab (s : State) : (State.assertFence s).fab = s.fab := by
  unfold State.assertFence; split <;> simp
@[simp] theorem State.assertFence_gnm (s : State) : (State.assertFence s).gnm = s.gnm := by
  unfold State.assertFence; split <;> simp
@[simp] theorem State.assertFence_qpe (s : State) : (State.assertFence s).qpe = s.qpe := by
  unfold State.assertFence; split <;> simp
@[simp] theorem State.assertFence_cls (s : State) : (State.assertFence s).cls = s.cls := by
  unfold State.assertFence; split <;> simp
@[simp] theorem State.assertFence_str (s : State) : (State.assertFence s).str = s.str := by
  unfold State.assertFence; split <;> simp
@[simp] theorem State.assertFence_net (s : State) : (State.assertFence s).net = s.net := by
  unfold State.assertFence; split <;> simp
@[simp] theorem State.assertFence_epf (s : State) : (State.assertFence s).epf = s.epf := by
  unfold State.assertFence; split <;> simp
@[simp] theorem State.assertFence_xbr (s : State) : (State.assertFence s).xbr = s.xbr := by
  unfold State.assertFence; split <;> simp
@[simp] theorem State.assertFence_cph (s : State) : (State.assertFence s).cph = s.cph := by
  unfold State.assertFence; split <;> simp
@[simp] theorem State.assertFence_spm (s : State) : (State.assertFence s).spm = s.spm := by
  unfold State.assertFence; split <;> simp
@[simp] theorem State.assertFence_fct (s : State) : (State.assertFence s).fct = s.fct := by
  unfold State.assertFence; split <;> simp
@[simp] theorem State.assertFence_sys (s : State) : (State.assertFence s).sys = s.sys := by
  unfold State.assertFence; split <;> simp
@[simp] theorem State.assertFence_frames (s : State) : (State.assertFence s).frames = s.frames := by
  unfold State.assertFence; split <;> simp
@[simp] theorem State.assertFence_out (s : State) : (State.assertFence s).out = s.out := by
  unfold State.assertFence; split <;> simp
@[simp] theorem State.assertFence_draws (s : State) : (State.assertFence s).draws = s.draws := by
  unfold State.assertFence; split <;> simp
@[simp] theorem State.assertFence_pending (s : State) : (State.assertFence s).pending = s.pending := by
  unfold State.assertFence; split <;> simp

@[simp] theorem State.setMbox_variant (s : State) (c n : Nat) (l : List Message) : (State.setMbox s c n l).variant = s.variant := by
  unfold State.setMbox; split <;> simp
@[simp] theorem State.setMbox_now (s : State) (c n : Nat) (l : List Message) : (State.setMbox s c n l).now = s.now := by
  unfold State.setMbox; split <;> simp
@[simp] theorem State.setMbox_regs (s : State) (c n : Nat) (l : List Message) : (State.setMbox s c n l).regs = s.regs := by
  unfold State.setMbox; split <;> simp
@[simp] theorem State.setMbox_isl (s : State) (c n : Nat) (l : List Message) : (State.setMbox s c n l).isl = s.isl := by
  unfold State.setMbox; split <;> simp
@[simp] theorem State.setMbox_mem (s : State) (c n : Nat) (l : List Message) : (State.setMbox s c n l).mem = s.mem := by
  unfold State.setMbox; split <;> simp
@[simp] theorem State.setMbox_fab (s : State) (c n : Nat) (l : List Message) : (State.setMbox s c n l).fab = s.fab := by
  unfold State.setMbox; split <;> simp
@[simp] theorem State.setMbox_icu (s : State) (c n : Nat) (l : List Message) : (State.setMbox s c n l).icu = s.icu := by
  unfold State.setMbox; split <;> simp
@[simp] theorem State.setMbox_glm (s : State) (c n : Nat) (l : List Message) : (State.setMbox s c n l).glm = s.glm := by
  unfold State.setMbox; split <;> simp
@[simp] theorem State.setMbox_gnm (s : State) (c n : Nat) (l : List Message) : (State.setMbox s c n l).gnm = s.gnm := by
  unfold State.setMbox; split <;> simp
@[simp] theorem State.setMbox_qpe (s : State) (c n : Nat) (l : List Message) : (State.setMbox s c n l).qpe = s.qpe := by
  unfold State.setMbox; split <;> simp
@[simp] theorem State.setMbox_cls (s : State) (c n : Nat) (l : List Message) : (State.setMbox s c n l).cls = s.cls := by
  unfold State.setMbox; split <;> simp
@[simp] theorem State.setMbox_str (s : State) (c n : Nat) (l : List Message) : (State.setMbox s c n l).str = s.str := by
  unfold State.setMbox; split <;> simp
@[simp] theorem State.setMbox_net (s : State) (c n : Nat) (l : List Message) : (State.setMbox s c n l).net = s.net := by
  unfold State.setMbox; split <;> simp
@[simp] theorem State.setMbox_epf (s : State) (c n : Nat) (l : List Message) : (State.setMbox s c n l).epf = s.epf := by
  unfold State.setMbox; split <;> simp
@[simp] theorem State.setMbox_xbr (s : State) (c n : Nat) (l : List Message) : (State.setMbox s c n l).xbr = s.xbr := by
  unfold State.setMbox; split <;> simp
@[simp] theorem State.setMbox_cph (s : State) (c n : Nat) (l : List Message) : (State.setMbox s c n l).cph = s.cph := by
  unfold State.setMbox; split <;> simp
@[simp] theorem State.setMbox_shd (s : State) (c n : Nat) (l : List Message) : (State.setMbox s c n l).shd = s.shd := by
  unfold State.setMbox; split <;> simp
@[simp] theorem State.setMbox_spm (s : State) (c n : Nat) (l : List Message) : (State.setMbox s c n l).spm = s.spm := by
  unfold State.setMbox; split <;> simp
@[simp] theorem State.setMbox_sys (s : State) (c n : Nat) (l : List Message) : (State.setMbox s c n l).sys = s.sys := by
  unfold State.setMbox; split <;> simp
@[simp] theorem State.setMbox_frames (s : State) (c n : Nat) (l : List Message) : (State.setMbox s c n l).frames = s.frames := by
  unfold State.setMbox; split <;> simp
@[simp] theorem State.setMbox_out (s : State) (c n : Nat) (l : List Message) : (State.setMbox s c n l).out = s.out := by
  unfold State.setMbox; split <;> simp
@[simp] theorem State.setMbox_draws (s : State) (c n : Nat) (l : List Message) : (State.setMbox s c n l).draws = s.draws := by
  unfold State.setMbox; split <;> simp
@[simp] theorem State.setMbox_pending (s : State) (c n : Nat) (l : List Message) : (State.setMbox s c n l).pending = s.pending := by
  unfold State.setMbox; split <;> simp

@[simp] theorem State.setSlot_variant (s : State) (sl : Nat) (x : Slot) : (State.setSlot s sl x).variant = s.variant := by
  unfold State.setSlot; rfl
@[simp] theorem State.setSlot_now (s : State) (sl : Nat) (x : Slot) : (State.setSlot s sl x).now = s.now := by
  unfold State.setSlot; rfl
@[simp] theorem State.setSlot_regs (s : State) (sl : Nat) (x : Slot) : (State.setSlot s sl x).regs = s.regs := by
  unfold State.setSlot; rfl
@[simp] theorem State.setSlot_isl (s : State) (sl : Nat) (x : Slot) : (State.setSlot s sl x).isl = s.isl := by
  unfold State.setSlot; rfl
@[simp] theorem State.setSlot_mem (s : State) (sl : Nat) (x : Slot) : (State.setSlot s sl x).mem = s.mem := by
  unfold State.setSlot; rfl
@[simp] theorem State.setSlot_fab (s : State) (sl : Nat) (x : Slot) : (State.setSlot s sl x).fab = s.fab := by
  unfold State.setSlot; rfl
@[simp] theorem State.setSlot_icu (s : State) (sl : Nat) (x : Slot) : (State.setSlot s sl x).icu = s.icu := by
  unfold State.setSlot; rfl
@[simp] theorem State.setSlot_glm (s : State) (sl : Nat) (x : Slot) : (State.setSlot s sl x).glm = s.glm := by
  unfold State.setSlot; rfl
@[simp] theorem State.setSlot_gnm (s : State) (sl : Nat) (x : Slot) : (State.setSlot s sl x).gnm = s.gnm := by
  unfold State.setSlot; rfl
@[simp] theorem State.setSlot_qpe (s : State) (sl : Nat) (x : Slot) : (State.setSlot s sl x).qpe = s.qpe := by
  unfold State.setSlot; rfl
@[simp] theorem State.setSlot_cls (s : State) (sl : Nat) (x : Slot) : (State.setSlot s sl x).cls = s.cls := by
  unfold State.setSlot; rfl
@[simp] theorem State.setSlot_str (s : State) (sl : Nat) (x : Slot) : (State.setSlot s sl x).str = s.str := by
  unfold State.setSlot; rfl
@[simp] theorem State.setSlot_net (s : State) (sl : Nat) (x : Slot) : (State.setSlot s sl x).net = s.net := by
  unfold State.setSlot; rfl
@[simp] theorem State.setSlot_epf (s : State) (sl : Nat) (x : Slot) : (State.setSlot s sl x).epf = s.epf := by
  unfold State.setSlot; rfl
@[simp] theorem State.setSlot_xbr (s : State) (sl : Nat) (x : Slot) : (State.setSlot s sl x).xbr = s.xbr := by
  unfold State.setSlot; rfl
@[simp] theorem State.setSlot_cph (s : State) (sl : Nat) (x : Slot) : (State.setSlot s sl x).cph = s.cph := by
  unfold State.setSlot; rfl
@[simp] theorem State.setSlot_shd (s : State) (sl : Nat) (x : Slot) : (State.setSlot s sl x).shd = s.shd := by
  unfold State.setSlot; rfl
@[simp] theorem State.setSlot_fct (s : State) (sl : Nat) (x : Slot) : (State.setSlot s sl x).fct = s.fct := by
  unfold State.setSlot; rfl
@[simp] theorem State.setSlot_sys (s : State) (sl : Nat) (x : Slot) : (State.setSlot s sl x).sys = s.sys := by
  unfold State.setSlot; rfl
@[simp] theorem State.setSlot_frames (s : State) (sl : Nat) (x : Slot) : (State.setSlot s sl x).frames = s.frames := by
  unfold State.setSlot; rfl
@[simp] theorem State.setSlot_out (s : State) (sl : Nat) (x : Slot) : (State.setSlot s sl x).out = s.out := by
  unfold State.setSlot; rfl
@[simp] theorem State.setSlot_draws (s : State) (sl : Nat) (x : Slot) : (State.setSlot s sl x).draws = s.draws := by
  unfold State.setSlot; rfl
@[simp] theorem State.setSlot_pending (s : State) (sl : Nat) (x : Slot) : (State.setSlot s sl x).pending = s.pending := by
  unfold State.setSlot; rfl

@[simp] theorem State.setRail_variant (s : State) (g : Nat) (x : Rail) : (State.setRail s g x).variant = s.variant := by
  unfold State.setRail; rfl
@[simp] theorem State.setRail_now (s : State) (g : Nat) (x : Rail) : (State.setRail s g x).now = s.now := by
  unfold State.setRail; rfl
@[simp] theorem State.setRail_regs (s : State) (g : Nat) (x : Rail) : (State.setRail s g x).regs = s.regs := by
  unfold State.setRail; rfl
@[simp] theorem State.setRail_isl (s : State) (g : Nat) (x : Rail) : (State.setRail s g x).isl = s.isl := by
  unfold State.setRail; rfl
@[simp] theorem State.setRail_mem (s : State) (g : Nat) (x : Rail) : (State.setRail s g x).mem = s.mem := by
  unfold State.setRail; rfl
@[simp] theorem State.setRail_fab (s : State) (g : Nat) (x : Rail) : (State.setRail s g x).fab = s.fab := by
  unfold State.setRail; rfl
@[simp] theorem State.setRail_icu (s : State) (g : Nat) (x : Rail) : (State.setRail s g x).icu = s.icu := by
  unfold State.setRail; rfl
@[simp] theorem State.setRail_glm (s : State) (g : Nat) (x : Rail) : (State.setRail s g x).glm = s.glm := by
  unfold State.setRail; rfl
@[simp] theorem State.setRail_gnm (s : State) (g : Nat) (x : Rail) : (State.setRail s g x).gnm = s.gnm := by
  unfold State.setRail; rfl
@[simp] theorem State.setRail_qpe (s : State) (g : Nat) (x : Rail) : (State.setRail s g x).qpe = s.qpe := by
  unfold State.setRail; rfl
@[simp] theorem State.setRail_cls (s : State) (g : Nat) (x : Rail) : (State.setRail s g x).cls = s.cls := by
  unfold State.setRail; rfl
@[simp] theorem State.setRail_str (s : State) (g : Nat) (x : Rail) : (State.setRail s g x).str = s.str := by
  unfold State.setRail; rfl
@[simp] theorem State.setRail_net (s : State) (g : Nat) (x : Rail) : (State.setRail s g x).net = s.net := by
  unfold State.setRail; rfl
@[simp] theorem State.setRail_epf (s : State) (g : Nat) (x : Rail) : (State.setRail s g x).epf = s.epf := by
  unfold State.setRail; rfl
@[simp] theorem State.setRail_xbr (s : State) (g : Nat) (x : Rail) : (State.setRail s g x).xbr = s.xbr := by
  unfold State.setRail; rfl
@[simp] theorem State.setRail_cph (s : State) (g : Nat) (x : Rail) : (State.setRail s g x).cph = s.cph := by
  unfold State.setRail; rfl
@[simp] theorem State.setRail_shd (s : State) (g : Nat) (x : Rail) : (State.setRail s g x).shd = s.shd := by
  unfold State.setRail; rfl
@[simp] theorem State.setRail_fct (s : State) (g : Nat) (x : Rail) : (State.setRail s g x).fct = s.fct := by
  unfold State.setRail; rfl
@[simp] theorem State.setRail_sys (s : State) (g : Nat) (x : Rail) : (State.setRail s g x).sys = s.sys := by
  unfold State.setRail; rfl
@[simp] theorem State.setRail_frames (s : State) (g : Nat) (x : Rail) : (State.setRail s g x).frames = s.frames := by
  unfold State.setRail; rfl
@[simp] theorem State.setRail_out (s : State) (g : Nat) (x : Rail) : (State.setRail s g x).out = s.out := by
  unfold State.setRail; rfl
@[simp] theorem State.setRail_draws (s : State) (g : Nat) (x : Rail) : (State.setRail s g x).draws = s.draws := by
  unfold State.setRail; rfl
@[simp] theorem State.setRail_pending (s : State) (g : Nat) (x : Rail) : (State.setRail s g x).pending = s.pending := by
  unfold State.setRail; rfl

@[simp] theorem State.slotRecord_variant (s : State) (sl : Nat) : (State.slotRecord s sl).variant = s.variant := by
  unfold State.slotRecord; rfl
@[simp] theorem State.slotRecord_now (s : State) (sl : Nat) : (State.slotRecord s sl).now = s.now := by
  unfold State.slotRecord; rfl
@[simp] theorem State.slotRecord_regs (s : State) (sl : Nat) : (State.slotRecord s sl).regs = s.regs := by
  unfold State.slotRecord; rfl
@[simp] theorem State.slotRecord_isl (s : State) (sl : Nat) : (State.slotRecord s sl).isl = s.isl := by
  unfold State.slotRecord; rfl
@[simp] theorem State.slotRecord_mem (s : State) (sl : Nat) : (State.slotRecord s sl).mem = s.mem := by
  unfold State.slotRecord; rfl
@[simp] theorem State.slotRecord_fab (s : State) (sl : Nat) : (State.slotRecord s sl).fab = s.fab := by
  unfold State.slotRecord; rfl
@[simp] theorem State.slotRecord_icu (s : State) (sl : Nat) : (State.slotRecord s sl).icu = s.icu := by
  unfold State.slotRecord; rfl
@[simp] theorem State.slotRecord_glm (s : State) (sl : Nat) : (State.slotRecord s sl).glm = s.glm := by
  unfold State.slotRecord; rfl
@[simp] theorem State.slotRecord_gnm (s : State) (sl : Nat) : (State.slotRecord s sl).gnm = s.gnm := by
  unfold State.slotRecord; rfl
@[simp] theorem State.slotRecord_qpe (s : State) (sl : Nat) : (State.slotRecord s sl).qpe = s.qpe := by
  unfold State.slotRecord; rfl
@[simp] theorem State.slotRecord_cls (s : State) (sl : Nat) : (State.slotRecord s sl).cls = s.cls := by
  unfold State.slotRecord; rfl
@[simp] theorem State.slotRecord_str (s : State) (sl : Nat) : (State.slotRecord s sl).str = s.str := by
  unfold State.slotRecord; rfl
@[simp] theorem State.slotRecord_net (s : State) (sl : Nat) : (State.slotRecord s sl).net = s.net := by
  unfold State.slotRecord; rfl
@[simp] theorem State.slotRecord_epf (s : State) (sl : Nat) : (State.slotRecord s sl).epf = s.epf := by
  unfold State.slotRecord; rfl
@[simp] theorem State.slotRecord_xbr (s : State) (sl : Nat) : (State.slotRecord s sl).xbr = s.xbr := by
  unfold State.slotRecord; rfl
@[simp] theorem State.slotRecord_cph (s : State) (sl : Nat) : (State.slotRecord s sl).cph = s.cph := by
  unfold State.slotRecord; rfl
@[simp] theorem State.slotRecord_shd (s : State) (sl : Nat) : (State.slotRecord s sl).shd = s.shd := by
  unfold State.slotRecord; rfl
@[simp] theorem State.slotRecord_spm (s : State) (sl : Nat) : (State.slotRecord s sl).spm = s.spm := by
  unfold State.slotRecord; rfl
@[simp] theorem State.slotRecord_fct (s : State) (sl : Nat) : (State.slotRecord s sl).fct = s.fct := by
  unfold State.slotRecord; rfl
@[simp] theorem State.slotRecord_frames (s : State) (sl : Nat) : (State.slotRecord s sl).frames = s.frames := by
  unfold State.slotRecord; rfl
@[simp] theorem State.slotRecord_out (s : State) (sl : Nat) : (State.slotRecord s sl).out = s.out := by
  unfold State.slotRecord; rfl
@[simp] theorem State.slotRecord_draws (s : State) (sl : Nat) : (State.slotRecord s sl).draws = s.draws := by
  unfold State.slotRecord; rfl
@[simp] theorem State.slotRecord_pending (s : State) (sl : Nat) : (State.slotRecord s sl).pending = s.pending := by
  unfold State.slotRecord; rfl

@[simp] theorem State.updEng_variant (s : State) (e : Nat) (f : Engine → Engine) : (State.updEng s e f).variant = s.variant := by
  unfold State.updEng; split <;> simp
@[simp] theorem State.updEng_now (s : State) (e : Nat) (f : Engine → Engine) : (State.updEng s e f).now = s.now := by
  unfold State.updEng; split <;> simp
@[simp] theorem State.updEng_regs (s : State) (e : Nat) (f : Engine → Engine) : (State.updEng s e f).regs = s.regs := by
  unfold State.updEng; split <;> simp
@[simp] theorem State.updEng_isl (s : State) (e : Nat) (f : Engine → Engine) : (State.updEng s e f).isl = s.isl := by
  unfold State.updEng; split <;> simp
@[simp] theorem State.updEng_mem (s : State) (e : Nat) (f : Engine → Engine) : (State.updEng s e f).mem = s.mem := by
  unfold State.updEng; split <;> simp
@[simp] theorem State.updEng_fab (s : State) (e : Nat) (f : Engine → Engine) : (State.updEng s e f).fab = s.fab := by
  unfold State.updEng; split <;> simp
@[simp] theorem State.updEng_icu (s : State) (e : Nat) (f : Engine → Engine) : (State.updEng s e f).icu = s.icu := by
  unfold State.updEng; split <;> simp
@[simp] theorem State.updEng_glm (s : State) (e : Nat) (f : Engine → Engine) : (State.updEng s e f).glm = s.glm := by
  unfold State.updEng; split <;> simp
@[simp] theorem State.updEng_gnm (s : State) (e : Nat) (f : Engine → Engine) : (State.updEng s e f).gnm = s.gnm := by
  unfold State.updEng; split <;> simp
@[simp] theorem State.updEng_qpe (s : State) (e : Nat) (f : Engine → Engine) : (State.updEng s e f).qpe = s.qpe := by
  unfold State.updEng; split <;> simp
@[simp] theorem State.updEng_cls (s : State) (e : Nat) (f : Engine → Engine) : (State.updEng s e f).cls = s.cls := by
  unfold State.updEng; split <;> simp
@[simp] theorem State.updEng_str (s : State) (e : Nat) (f : Engine → Engine) : (State.updEng s e f).str = s.str := by
  unfold State.updEng; split <;> simp
@[simp] theorem State.updEng_net (s : State) (e : Nat) (f : Engine → Engine) : (State.updEng s e f).net = s.net := by
  unfold State.updEng; split <;> simp
@[simp] theorem State.updEng_epf (s : State) (e : Nat) (f : Engine → Engine) : (State.updEng s e f).epf = s.epf := by
  unfold State.updEng; split <;> simp
@[simp] theorem State.updEng_xbr (s : State) (e : Nat) (f : Engine → Engine) : (State.updEng s e f).xbr = s.xbr := by
  unfold State.updEng; split <;> simp
@[simp] theorem State.updEng_cph (s : State) (e : Nat) (f : Engine → Engine) : (State.updEng s e f).cph = s.cph := by
  unfold State.updEng; split <;> simp
@[simp] theorem State.updEng_shd (s : State) (e : Nat) (f : Engine → Engine) : (State.updEng s e f).shd = s.shd := by
  unfold State.updEng; split <;> simp
@[simp] theorem State.updEng_spm (s : State) (e : Nat) (f : Engine → Engine) : (State.updEng s e f).spm = s.spm := by
  unfold State.updEng; split <;> simp
@[simp] theorem State.updEng_sys (s : State) (e : Nat) (f : Engine → Engine) : (State.updEng s e f).sys = s.sys := by
  unfold State.updEng; split <;> simp
@[simp] theorem State.updEng_frames (s : State) (e : Nat) (f : Engine → Engine) : (State.updEng s e f).frames = s.frames := by
  unfold State.updEng; split <;> simp
@[simp] theorem State.updEng_out (s : State) (e : Nat) (f : Engine → Engine) : (State.updEng s e f).out = s.out := by
  unfold State.updEng; split <;> simp
@[simp] theorem State.updEng_draws (s : State) (e : Nat) (f : Engine → Engine) : (State.updEng s e f).draws = s.draws := by
  unfold State.updEng; split <;> simp
@[simp] theorem State.updEng_pending (s : State) (e : Nat) (f : Engine → Engine) : (State.updEng s e f).pending = s.pending := by
  unfold State.updEng; split <;> simp

@[simp] theorem State.updAcc_variant (s : State) (c : Nat) (p : AccReq → Bool) (f : AccReq → AccReq) : (State.updAcc s c p f).variant = s.variant := by
  unfold State.updAcc; rfl
@[simp] theorem State.updAcc_now (s : State) (c : Nat) (p : AccReq → Bool) (f : AccReq → AccReq) : (State.updAcc s c p f).now = s.now := by
  unfold State.updAcc; rfl
@[simp] theorem State.updAcc_regs (s : State) (c : Nat) (p : AccReq → Bool) (f : AccReq → AccReq) : (State.updAcc s c p f).regs = s.regs := by
  unfold State.updAcc; rfl
@[simp] theorem State.updAcc_isl (s : State) (c : Nat) (p : AccReq → Bool) (f : AccReq → AccReq) : (State.updAcc s c p f).isl = s.isl := by
  unfold State.updAcc; rfl
@[simp] theorem State.updAcc_mem (s : State) (c : Nat) (p : AccReq → Bool) (f : AccReq → AccReq) : (State.updAcc s c p f).mem = s.mem := by
  unfold State.updAcc; rfl
@[simp] theorem State.updAcc_fab (s : State) (c : Nat) (p : AccReq → Bool) (f : AccReq → AccReq) : (State.updAcc s c p f).fab = s.fab := by
  unfold State.updAcc; rfl
@[simp] theorem State.updAcc_icu (s : State) (c : Nat) (p : AccReq → Bool) (f : AccReq → AccReq) : (State.updAcc s c p f).icu = s.icu := by
  unfold State.updAcc; rfl
@[simp] theorem State.updAcc_glm (s : State) (c : Nat) (p : AccReq → Bool) (f : AccReq → AccReq) : (State.updAcc s c p f).glm = s.glm := by
  unfold State.updAcc; rfl
@[simp] theorem State.updAcc_gnm (s : State) (c : Nat) (p : AccReq → Bool) (f : AccReq → AccReq) : (State.updAcc s c p f).gnm = s.gnm := by
  unfold State.updAcc; rfl
@[simp] theorem State.updAcc_qpe (s : State) (c : Nat) (p : AccReq → Bool) (f : AccReq → AccReq) : (State.updAcc s c p f).qpe = s.qpe := by
  unfold State.updAcc; rfl
@[simp] theorem State.updAcc_cls (s : State) (c : Nat) (p : AccReq → Bool) (f : AccReq → AccReq) : (State.updAcc s c p f).cls = s.cls := by
  unfold State.updAcc; rfl
@[simp] theorem State.updAcc_str (s : State) (c : Nat) (p : AccReq → Bool) (f : AccReq → AccReq) : (State.updAcc s c p f).str = s.str := by
  unfold State.updAcc; rfl
@[simp] theorem State.updAcc_net (s : State) (c : Nat) (p : AccReq → Bool) (f : AccReq → AccReq) : (State.updAcc s c p f).net = s.net := by
  unfold State.updAcc; rfl
@[simp] theorem State.updAcc_epf (s : State) (c : Nat) (p : AccReq → Bool) (f : AccReq → AccReq) : (State.updAcc s c p f).epf = s.epf := by
  unfold State.updAcc; rfl
@[simp] theorem State.updAcc_xbr (s : State) (c : Nat) (p : AccReq → Bool) (f : AccReq → AccReq) : (State.updAcc s c p f).xbr = s.xbr := by
  unfold State.updAcc; rfl
@[simp] theorem State.updAcc_cph (s : State) (c : Nat) (p : AccReq → Bool) (f : AccReq → AccReq) : (State.updAcc s c p f).cph = s.cph := by
  unfold State.updAcc; rfl
@[simp] theorem State.updAcc_shd (s : State) (c : Nat) (p : AccReq → Bool) (f : AccReq → AccReq) : (State.updAcc s c p f).shd = s.shd := by
  unfold State.updAcc; rfl
@[simp] theorem State.updAcc_spm (s : State) (c : Nat) (p : AccReq → Bool) (f : AccReq → AccReq) : (State.updAcc s c p f).spm = s.spm := by
  unfold State.updAcc; rfl
@[simp] theorem State.updAcc_sys (s : State) (c : Nat) (p : AccReq → Bool) (f : AccReq → AccReq) : (State.updAcc s c p f).sys = s.sys := by
  unfold State.updAcc; rfl
@[simp] theorem State.updAcc_frames (s : State) (c : Nat) (p : AccReq → Bool) (f : AccReq → AccReq) : (State.updAcc s c p f).frames = s.frames := by
  unfold State.updAcc; rfl
@[simp] theorem State.updAcc_out (s : State) (c : Nat) (p : AccReq → Bool) (f : AccReq → AccReq) : (State.updAcc s c p f).out = s.out := by
  unfold State.updAcc; rfl
@[simp] theorem State.updAcc_draws (s : State) (c : Nat) (p : AccReq → Bool) (f : AccReq → AccReq) : (State.updAcc s c p f).draws = s.draws := by
  unfold State.updAcc; rfl
@[simp] theorem State.updAcc_pending (s : State) (c : Nat) (p : AccReq → Bool) (f : AccReq → AccReq) : (State.updAcc s c p f).pending = s.pending := by
  unfold State.updAcc; rfl

end Sys2Proof.Machine
end

