-- ==== Sys2Proof/Laws/Still.lean ====
section
/-! SUPPORT. What the end of a command, and what follows from it, never touch. -/

namespace Sys2Proof.Machine

variable {K : Still}

theorem still_cut {t : State} {Q : Prop} (h : t.still = K) (k : t.still = K → Q) : Q := k h

theorem still_fst {α : Type} {p : State × α} {s : State} {b : α} (h : p.1.still = K) (e : p = (s, b)) :
    s.still = K := by subst e; exact h

theorem still_snd {α : Type} {p : α × State} {s : State} {b : α} (h : p.2.still = K) (e : p = (b, s)) :
    s.still = K := by subst e; exact h

theorem still_foldl {α : Type} {f : State → α → State} {l : List α} {s : State} (h : s.still = K)
    (hf : ∀ t a, t.still = K → (f t a).still = K) : (l.foldl f s).still = K := by
  induction l generalizing s with
  | nil => exact h
  | cons a l ih => exact ih (hf s a h)

theorem still_foldl_fst {α β : Type} {f : State × β → α → State × β} {l : List α} {p : State × β} (h : p.1.still = K)
    (hf : ∀ p a, p.1.still = K → (f p a).1.still = K) : (l.foldl f p).1.still = K := by
  induction l generalizing p with
  | nil => exact h
  | cons a l ih => exact ih (hf p a h)

theorem State.setReg_still (s : State) (r : Reg) (v : Nat) (i : Nat) (hs : s.still = K)
    : (State.setReg s r v i).still = K := by
  unfold State.setReg
  repeat' (first
    | (with_reducible first
        | assumption | refine still_foldl ?_ (fun x y hx => ?_) | refine still_foldl_fst ?_ (fun x y hx => ?_))
    | (extract_lets +onlyGivenNames t; refine still_cut (K := K) (t := t) ?_ ?_; all_goals first | (intro ht; clear_value t) | subst t)
    | extract_lets +onlyGivenNames t | split | (refine still_fst ?_ (by with_reducible assumption))
    | (refine still_snd ?_ (by with_reducible assumption)) | (with_reducible intro x) | dsimp +zetaDelta only)

theorem State.setField_still (s : State) (r : Reg) (msb lsb v : Nat) (i : Nat) (hs : s.still = K)
    : (State.setField s r msb lsb v i).still = K := by
  unfold State.setField
  repeat' (first
    | (with_reducible first
        | assumption | apply State.setReg_still | refine still_foldl ?_ (fun x y hx => ?_)
        | refine still_foldl_fst ?_ (fun x y hx => ?_))
    | (extract_lets +onlyGivenNames t; refine still_cut (K := K) (t := t) ?_ ?_; all_goals first | (intro ht; clear_value t) | subst t)
    | extract_lets +onlyGivenNames t | split | (refine still_fst ?_ (by with_reducible assumption))
    | (refine still_snd ?_ (by with_reducible assumption)) | (with_reducible intro x) | dsimp +zetaDelta only)

theorem State.count_still (s : State) (r : Reg) (n : Nat) (hs : s.still = K) : (State.count s r n).still = K := by
  unfold State.count
  repeat' (first
    | (with_reducible first
        | assumption | apply State.setReg_still | refine still_foldl ?_ (fun x y hx => ?_)
        | refine still_foldl_fst ?_ (fun x y hx => ?_))
    | (extract_lets +onlyGivenNames t; refine still_cut (K := K) (t := t) ?_ ?_; all_goals first | (intro ht; clear_value t) | subst t)
    | extract_lets +onlyGivenNames t | split | (refine still_fst ?_ (by with_reducible assumption))
    | (refine still_snd ?_ (by with_reducible assumption)) | (with_reducible intro x) | dsimp +zetaDelta only)

theorem State.emit_still (s : State) (o : Out) (hs : s.still = K) : (State.emit s o).still = K := by
  unfold State.emit
  repeat' (first | with_reducible assumption | split | (with_reducible exact hs))

theorem State.drew_still (s : State) (n : Nat) (hs : s.still = K) : (State.drew s n).still = K := by
  unfold State.drew
  repeat' (first | with_reducible assumption | split | (with_reducible exact hs))

theorem State.trace_still (s : State) (kind island : Nat) (hs : s.still = K) : (State.trace s kind island).still = K := by
  unfold State.trace
  repeat' (first
    | (with_reducible first
        | assumption | apply State.take_still | apply State.since_draws | refine still_foldl ?_ (fun x y hx => ?_)
        | refine still_foldl_fst ?_ (fun x y hx => ?_))
    | (extract_lets +onlyGivenNames t; refine still_cut (K := K) (t := t) ?_ ?_; all_goals first | (intro ht; clear_value t) | subst t)
    | extract_lets +onlyGivenNames t | split | (refine still_fst ?_ (by with_reducible assumption))
    | (refine still_snd ?_ (by with_reducible assumption)) | (with_reducible intro x) | dsimp +zetaDelta only)

theorem State.store_still (s : State) (a : Nat) (b : Bytes) (hs : s.still = K) : (State.store s a b).still = K := by
  unfold State.store State.marked
  dsimp only
  split <;> exact hs

theorem State.setPart_still (s : State) (p : Nat) (x : Part) (hs : s.still = K) : (State.setPart s p x).still = K := by
  unfold State.setPart
  repeat' (first
    | (with_reducible first
        | assumption | refine still_foldl ?_ (fun x y hx => ?_) | refine still_foldl_fst ?_ (fun x y hx => ?_))
    | (extract_lets +onlyGivenNames t; refine still_cut (K := K) (t := t) ?_ ?_; all_goals first | (intro ht; clear_value t) | subst t)
    | extract_lets +onlyGivenNames t | split | (refine still_fst ?_ (by with_reducible assumption))
    | (refine still_snd ?_ (by with_reducible assumption)) | (with_reducible intro x) | dsimp +zetaDelta only)

theorem State.charge1_still (s : State) (p level n : Nat) (hs : s.still = K) : (State.charge1 s p level n).still = K := by
  unfold State.charge1
  repeat' (first
    | (with_reducible first
        | assumption | apply State.count_still | apply State.setPart_still | refine still_foldl ?_ (fun x y hx => ?_)
        | refine still_foldl_fst ?_ (fun x y hx => ?_))
    | (extract_lets +onlyGivenNames t; refine still_cut (K := K) (t := t) ?_ ?_; all_goals first | (intro ht; clear_value t) | subst t)
    | extract_lets +onlyGivenNames t | split | (refine still_fst ?_ (by with_reducible assumption))
    | (refine still_snd ?_ (by with_reducible assumption)) | (with_reducible intro x) | dsimp +zetaDelta only)

theorem State.release1_still (s : State) (p n : Nat) (hs : s.still = K) : (State.release1 s p n).still = K := by
  unfold State.release1
  repeat' (first
    | (with_reducible first
        | assumption | apply State.setPart_still | refine still_foldl ?_ (fun x y hx => ?_)
        | refine still_foldl_fst ?_ (fun x y hx => ?_))
    | (extract_lets +onlyGivenNames t; refine still_cut (K := K) (t := t) ?_ ?_; all_goals first | (intro ht; clear_value t) | subst t)
    | extract_lets +onlyGivenNames t | split | (refine still_fst ?_ (by with_reducible assumption))
    | (refine still_snd ?_ (by with_reducible assumption)) | (with_reducible intro x) | dsimp +zetaDelta only)

theorem State.chargeCells_still (s : State) (p level n : Nat) (hs : s.still = K)
    : (State.chargeCells s p level n).still = K := by
  unfold State.chargeCells
  repeat' (first
    | (with_reducible first
        | assumption | apply State.setPart_still | apply State.charge1_still | refine still_foldl ?_ (fun x y hx => ?_)
        | refine still_foldl_fst ?_ (fun x y hx => ?_))
    | (extract_lets +onlyGivenNames t; refine still_cut (K := K) (t := t) ?_ ?_; all_goals first | (intro ht; clear_value t) | subst t)
    | extract_lets +onlyGivenNames t | split | (refine still_fst ?_ (by with_reducible assumption))
    | (refine still_snd ?_ (by with_reducible assumption)) | (with_reducible intro x) | dsimp +zetaDelta only)

theorem State.releaseCells_still (s : State) (p level n : Nat) (hs : s.still = K)
    : (State.releaseCells s p level n).still = K := by
  unfold State.releaseCells
  repeat' (first
    | (with_reducible first
        | assumption | apply State.setPart_still | apply State.release1_still
        | refine still_foldl ?_ (fun x y hx => ?_) | refine still_foldl_fst ?_ (fun x y hx => ?_))
    | (extract_lets +onlyGivenNames t; refine still_cut (K := K) (t := t) ?_ ?_; all_goals first | (intro ht; clear_value t) | subst t)
    | extract_lets +onlyGivenNames t | split | (refine still_fst ?_ (by with_reducible assumption))
    | (refine still_snd ?_ (by with_reducible assumption)) | (with_reducible intro x) | dsimp +zetaDelta only)

theorem State.pushRun_still (s : State) (src : Nat) (dsts : List Nat) (cls n : Nat) (who : CellFor) (keyed charged : Bool) (owner : Option Nat) (record : Bool) (blank : List Nat) (pri : Nat) (packed : Bool) (hs : s.still = K)
    : (State.pushRun s src dsts cls n who keyed charged owner record blank pri packed).still = K := by
  unfold State.pushRun
  repeat' (first
    | (with_reducible first
        | assumption | apply State.record_still | apply State.chargeCells_still
        | refine still_foldl ?_ (fun x y hx => ?_) | refine still_foldl_fst ?_ (fun x y hx => ?_))
    | (extract_lets +onlyGivenNames t; refine still_cut (K := K) (t := t) ?_ ?_; all_goals first | (intro ht; clear_value t) | subst t)
    | extract_lets +onlyGivenNames t | split | (refine still_fst ?_ (by with_reducible assumption))
    | (refine still_snd ?_ (by with_reducible assumption)) | (with_reducible intro x) | dsimp +zetaDelta only)

theorem State.discardRuns_still (s : State) (p : CellRun → Bool) (hs : s.still = K) : (State.discardRuns s p).still = K := by
  unfold State.discardRuns
  repeat' (first
    | (with_reducible first
        | assumption | apply State.count_still | apply State.releaseCells_still
        | refine still_foldl ?_ (fun x y hx => ?_) | refine still_foldl_fst ?_ (fun x y hx => ?_))
    | (extract_lets +onlyGivenNames t; refine still_cut (K := K) (t := t) ?_ ?_; all_goals first | (intro ht; clear_value t) | subst t)
    | extract_lets +onlyGivenNames t | split | (refine still_fst ?_ (by with_reducible assumption))
    | (refine still_snd ?_ (by with_reducible assumption)) | (with_reducible intro x) | dsimp +zetaDelta only)

theorem State.freeHeld_still (s : State) (cls : Nat) (held : Tbl Nat) (hs : s.still = K)
    : (State.freeHeld s cls held).still = K := by
  unfold State.freeHeld
  repeat' (first
    | (with_reducible first
        | assumption | apply State.releaseCells_still | refine still_foldl ?_ (fun x y hx => ?_)
        | refine still_foldl_fst ?_ (fun x y hx => ?_))
    | (extract_lets +onlyGivenNames t; refine still_cut (K := K) (t := t) ?_ ?_; all_goals first | (intro ht; clear_value t) | subst t)
    | extract_lets +onlyGivenNames t | split | (refine still_fst ?_ (by with_reducible assumption))
    | (refine still_snd ?_ (by with_reducible assumption)) | (with_reducible intro x) | dsimp +zetaDelta only)

theorem State.setSlice_still (s : State) (i : Nat) (x : Slice) (hs : s.still = K) : (State.setSlice s i x).still = K := by
  unfold State.setSlice
  repeat' (first
    | (with_reducible first
        | assumption | refine still_foldl ?_ (fun x y hx => ?_) | refine still_foldl_fst ?_ (fun x y hx => ?_))
    | (extract_lets +onlyGivenNames t; refine still_cut (K := K) (t := t) ?_ ?_; all_goals first | (intro ht; clear_value t) | subst t)
    | extract_lets +onlyGivenNames t | split | (refine still_fst ?_ (by with_reducible assumption))
    | (refine still_snd ?_ (by with_reducible assumption)) | (with_reducible intro x) | dsimp +zetaDelta only)

theorem State.freeSlice_still (s : State) (h : Option (Nat × Bool)) (hs : s.still = K)
    : (State.freeSlice s h).still = K := by
  unfold State.freeSlice
  repeat' (first
    | (with_reducible first
        | assumption | apply State.setSlice_still | refine still_foldl ?_ (fun x y hx => ?_)
        | refine still_foldl_fst ?_ (fun x y hx => ?_))
    | (extract_lets +onlyGivenNames t; refine still_cut (K := K) (t := t) ?_ ?_; all_goals first | (intro ht; clear_value t) | subst t)
    | extract_lets +onlyGivenNames t | split | (refine still_fst ?_ (by with_reducible assumption))
    | (refine still_snd ?_ (by with_reducible assumption)) | (with_reducible intro x) | dsimp +zetaDelta only)

theorem State.prismLose_still (s : State) (p : Nat) (hs : s.still = K) : (State.prismLose s p).still = K := by
  unfold State.prismLose
  repeat' (first
    | (with_reducible first
        | assumption | apply State.count_still | refine still_foldl ?_ (fun x y hx => ?_)
        | refine still_foldl_fst ?_ (fun x y hx => ?_))
    | (extract_lets +onlyGivenNames t; refine still_cut (K := K) (t := t) ?_ ?_; all_goals first | (intro ht; clear_value t) | subst t)
    | extract_lets +onlyGivenNames t | split | (refine still_fst ?_ (by with_reducible assumption))
    | (refine still_snd ?_ (by with_reducible assumption)) | (with_reducible intro x) | dsimp +zetaDelta only)

theorem State.prismPush_still (s : State) (p : Nat) (cell : Bytes) (hs : s.still = K)
    : (State.prismPush s p cell).still = K := by
  unfold State.prismPush
  repeat' (first
    | (with_reducible first
        | assumption | apply State.pushRun_still | apply State.prismLose_still
        | refine still_foldl ?_ (fun x y hx => ?_) | refine still_foldl_fst ?_ (fun x y hx => ?_))
    | (extract_lets +onlyGivenNames t; refine still_cut (K := K) (t := t) ?_ ?_; all_goals first | (intro ht; clear_value t) | subst t)
    | extract_lets +onlyGivenNames t | split | (refine still_fst ?_ (by with_reducible assumption))
    | (refine still_snd ?_ (by with_reducible assumption)) | (with_reducible intro x) | dsimp +zetaDelta only)

theorem State.tap_still (s : State) (p sub len : Nat) (dropped : Bool) (hdr : Option Bytes) (hs : s.still = K)
    : (State.tap s p sub len dropped hdr).still = K := by
  unfold State.tap
  repeat' (first
    | (with_reducible first
        | assumption | apply State.prismCtl_still | apply State.prismPush_still | apply State.drew_still
        | refine still_foldl ?_ (fun x y hx => ?_) | refine still_foldl_fst ?_ (fun x y hx => ?_))
    | (extract_lets +onlyGivenNames t; refine still_cut (K := K) (t := t) ?_ ?_; all_goals first | (intro ht; clear_value t) | subst t)
    | extract_lets +onlyGivenNames t | split | (refine still_fst ?_ (by with_reducible assumption))
    | (refine still_snd ?_ (by with_reducible assumption)) | (with_reducible intro x) | dsimp +zetaDelta only)

theorem State.sendFrame_still (s : State) (mac sub : Nat) (o : Out) (hs : s.still = K)
    : (State.sendFrame s mac sub o).still = K := by
  unfold State.sendFrame
  repeat' (first
    | (with_reducible first
        | assumption | apply State.emit_still | apply State.tap_still | refine still_foldl ?_ (fun x y hx => ?_)
        | refine still_foldl_fst ?_ (fun x y hx => ?_))
    | (extract_lets +onlyGivenNames t; refine still_cut (K := K) (t := t) ?_ ?_; all_goals first | (intro ht; clear_value t) | subst t)
    | extract_lets +onlyGivenNames t | split | (refine still_fst ?_ (by with_reducible assumption))
    | (refine still_snd ?_ (by with_reducible assumption)) | (with_reducible intro x) | dsimp +zetaDelta only)

theorem State.sendAs_still (s : State) (mac sub cls : Nat) (ect udpSum : Bool) (o : Out) (hs : s.still = K)
    : (State.sendAs s mac sub cls ect udpSum o).still = K := by
  unfold State.sendAs
  repeat' (first
    | (with_reducible first
        | assumption | apply State.emit_still | apply State.sendFrame_still | refine still_foldl ?_ (fun x y hx => ?_)
        | refine still_foldl_fst ?_ (fun x y hx => ?_))
    | (extract_lets +onlyGivenNames t; refine still_cut (K := K) (t := t) ?_ ?_; all_goals first | (intro ht; clear_value t) | subst t)
    | extract_lets +onlyGivenNames t | split | (refine still_fst ?_ (by with_reducible assumption))
    | (refine still_snd ?_ (by with_reducible assumption)) | (with_reducible intro x) | dsimp +zetaDelta only)

theorem State.prismCtl_still (s : State) (w : Nat) (hs : s.still = K) : (State.prismCtl s w).still = K := by
  unfold State.prismCtl
  repeat' (first
    | (with_reducible first
        | assumption | apply State.setField_still | apply State.setReg_still | refine still_foldl ?_ (fun x y hx => ?_)
        | refine still_foldl_fst ?_ (fun x y hx => ?_))
    | (extract_lets +onlyGivenNames t; refine still_cut (K := K) (t := t) ?_ ?_; all_goals first | (intro ht; clear_value t) | subst t)
    | extract_lets +onlyGivenNames t | split | (refine still_fst ?_ (by with_reducible assumption))
    | (refine still_snd ?_ (by with_reducible assumption)) | (with_reducible intro x) | dsimp +zetaDelta only)

theorem State.putKey_still (s : State) (idx : Nat) (k : KeyEntry) (hs : s.still = K) : (State.putKey s idx k).still = K := by
  unfold State.putKey
  repeat' (first
    | (with_reducible first
        | assumption | apply State.store_still | refine still_foldl ?_ (fun x y hx => ?_)
        | refine still_foldl_fst ?_ (fun x y hx => ?_))
    | (extract_lets +onlyGivenNames t; refine still_cut (K := K) (t := t) ?_ ?_; all_goals first | (intro ht; clear_value t) | subst t)
    | extract_lets +onlyGivenNames t | split | (refine still_fst ?_ (by with_reducible assumption))
    | (refine still_snd ?_ (by with_reducible assumption)) | (with_reducible intro x) | dsimp +zetaDelta only)

theorem State.holdKey_still (s : State) (mkey : Nat) (hs : s.still = K) : (State.holdKey s mkey).still = K := by
  unfold State.holdKey
  repeat' (first
    | (with_reducible first
        | assumption | apply State.putKey_still | refine still_foldl ?_ (fun x y hx => ?_)
        | refine still_foldl_fst ?_ (fun x y hx => ?_))
    | (extract_lets +onlyGivenNames t; refine still_cut (K := K) (t := t) ?_ ?_; all_goals first | (intro ht; clear_value t) | subst t)
    | extract_lets +onlyGivenNames t | split | (refine still_fst ?_ (by with_reducible assumption))
    | (refine still_snd ?_ (by with_reducible assumption)) | (with_reducible intro x) | dsimp +zetaDelta only)

theorem State.dropKey_still (s : State) (mkey : Nat) (hs : s.still = K) : (State.dropKey s mkey).still = K := by
  unfold State.dropKey
  repeat' (first
    | (with_reducible first
        | assumption | apply State.putKey_still | refine still_foldl ?_ (fun x y hx => ?_)
        | refine still_foldl_fst ?_ (fun x y hx => ?_))
    | (extract_lets +onlyGivenNames t; refine still_cut (K := K) (t := t) ?_ ?_; all_goals first | (intro ht; clear_value t) | subst t)
    | extract_lets +onlyGivenNames t | split | (refine still_fst ?_ (by with_reducible assumption))
    | (refine still_snd ?_ (by with_reducible assumption)) | (with_reducible intro x) | dsimp +zetaDelta only)

theorem State.wireNext_still (s : State) (hs : s.still = K) : (State.wireNext s).still = K := by
  unfold State.wireNext
  dsimp only
  split
  · exact hs
  · split
    · exact hs
    · exact hs

theorem State.pushFrame_still (s : State) (f : MirFrame) (hs : s.still = K) : (State.pushFrame s f).still = K := by
  unfold State.pushFrame
  repeat' (first
    | (with_reducible first
        | assumption | apply State.wireNext_still | refine still_foldl ?_ (fun x y hx => ?_)
        | refine still_foldl_fst ?_ (fun x y hx => ?_))
    | (extract_lets +onlyGivenNames t; refine still_cut (K := K) (t := t) ?_ ?_; all_goals first | (intro ht; clear_value t) | subst t)
    | extract_lets +onlyGivenNames t | split | (refine still_fst ?_ (by with_reducible assumption))
    | (refine still_snd ?_ (by with_reducible assumption)) | (with_reducible intro x) | dsimp +zetaDelta only)

theorem State.mirror_still (s : State) (kind : MirKind) (args : List Nat) (b : Bytes) (hs : s.still = K)
    : (State.mirror s kind args b).still = K := by
  unfold State.mirror
  repeat' (first
    | (with_reducible first
        | assumption | apply State.pushFrame_still | refine still_foldl ?_ (fun x y hx => ?_)
        | refine still_foldl_fst ?_ (fun x y hx => ?_))
    | (extract_lets +onlyGivenNames t; refine still_cut (K := K) (t := t) ?_ ?_; all_goals first | (intro ht; clear_value t) | subst t)
    | extract_lets +onlyGivenNames t | split | (refine still_fst ?_ (by with_reducible assumption))
    | (refine still_snd ?_ (by with_reducible assumption)) | (with_reducible intro x) | dsimp +zetaDelta only)

theorem State.mirrorLog_still (s : State) (r : LogRec) (hs : s.still = K) : (State.mirrorLog s r).still = K := by
  unfold State.mirrorLog
  repeat' (first
    | (with_reducible first
        | assumption | apply State.pushFrame_still | apply State.record_still
        | refine still_foldl ?_ (fun x y hx => ?_) | refine still_foldl_fst ?_ (fun x y hx => ?_))
    | (extract_lets +onlyGivenNames t; refine still_cut (K := K) (t := t) ?_ ?_; all_goals first | (intro ht; clear_value t) | subst t)
    | extract_lets +onlyGivenNames t | split | (refine still_fst ?_ (by with_reducible assumption))
    | (refine still_snd ?_ (by with_reducible assumption)) | (with_reducible intro x) | dsimp +zetaDelta only)

theorem State.logRec_still (s : State) (k : LogKind) (hs : s.still = K) : (State.logRec s k).1.still = K := by
  unfold State.logRec
  repeat' (first
    | (with_reducible first
        | assumption | apply State.mirrorLog_still | refine still_foldl ?_ (fun x y hx => ?_)
        | refine still_foldl_fst ?_ (fun x y hx => ?_))
    | (extract_lets +onlyGivenNames t; refine still_cut (K := K) (t := t) ?_ ?_; all_goals first | (intro ht; clear_value t) | subst t)
    | extract_lets +onlyGivenNames t | split | (refine still_fst ?_ (by with_reducible assumption))
    | (refine still_snd ?_ (by with_reducible assumption)) | (with_reducible intro x) | dsimp +zetaDelta only)

theorem State.touch_still (s : State) (hs : s.still = K) : (State.touch s).still = K := by
  unfold State.touch
  repeat' (first
    | (with_reducible first
        | assumption | refine still_foldl ?_ (fun x y hx => ?_) | refine still_foldl_fst ?_ (fun x y hx => ?_))
    | (extract_lets +onlyGivenNames t; refine still_cut (K := K) (t := t) ?_ ?_; all_goals first | (intro ht; clear_value t) | subst t)
    | extract_lets +onlyGivenNames t | split | (refine still_fst ?_ (by with_reducible assumption))
    | (refine still_snd ?_ (by with_reducible assumption)) | (with_reducible intro x) | dsimp +zetaDelta only)

theorem State.setFunc_still (s : State) (f : Nat) (x : EpFunc) (hs : s.still = K) : (State.setFunc s f x).still = K := by
  unfold State.setFunc
  repeat' (first
    | (with_reducible first
        | assumption | refine still_foldl ?_ (fun x y hx => ?_) | refine still_foldl_fst ?_ (fun x y hx => ?_))
    | (extract_lets +onlyGivenNames t; refine still_cut (K := K) (t := t) ?_ ?_; all_goals first | (intro ht; clear_value t) | subst t)
    | extract_lets +onlyGivenNames t | split | (refine still_fst ?_ (by with_reducible assumption))
    | (refine still_snd ?_ (by with_reducible assumption)) | (with_reducible intro x) | dsimp +zetaDelta only)

theorem State.syncEgress_still (s : State) (pt : Nat) (hs : s.still = K) : (State.syncEgress s pt).still = K := by
  unfold State.syncEgress
  repeat' (first
    | (with_reducible first
        | assumption | refine still_foldl ?_ (fun x y hx => ?_) | refine still_foldl_fst ?_ (fun x y hx => ?_))
    | (extract_lets +onlyGivenNames t; refine still_cut (K := K) (t := t) ?_ ?_; all_goals first | (intro ht; clear_value t) | subst t)
    | extract_lets +onlyGivenNames t | split | (refine still_fst ?_ (by with_reducible assumption))
    | (refine still_snd ?_ (by with_reducible assumption)) | (with_reducible intro x) | dsimp +zetaDelta only)

theorem State.pushEgress_still (s : State) (pt cls : Nat) (w : EgWhat) (cpl : Option Cpl) (more : Bool) (hs : s.still = K)
    : (State.pushEgress s pt cls w cpl more).still = K := by
  unfold State.pushEgress
  repeat' (first
    | (with_reducible first
        | assumption | apply State.syncEgress_still | refine still_foldl ?_ (fun x y hx => ?_)
        | refine still_foldl_fst ?_ (fun x y hx => ?_))
    | (extract_lets +onlyGivenNames t; refine still_cut (K := K) (t := t) ?_ ?_; all_goals first | (intro ht; clear_value t) | subst t)
    | extract_lets +onlyGivenNames t | split | (refine still_fst ?_ (by with_reducible assumption))
    | (refine still_snd ?_ (by with_reducible assumption)) | (with_reducible intro x) | dsimp +zetaDelta only)

theorem State.setOdt_still (s : State) (c : Nat) (x : OdtConn) (hs : s.still = K) : (State.setOdt s c x).still = K := by
  unfold State.setOdt
  repeat' (first
    | (with_reducible first
        | assumption | refine still_foldl ?_ (fun x y hx => ?_) | refine still_foldl_fst ?_ (fun x y hx => ?_))
    | (extract_lets +onlyGivenNames t; refine still_cut (K := K) (t := t) ?_ ?_; all_goals first | (intro ht; clear_value t) | subst t)
    | extract_lets +onlyGivenNames t | split | (refine still_fst ?_ (by with_reducible assumption))
    | (refine still_snd ?_ (by with_reducible assumption)) | (with_reducible intro x) | dsimp +zetaDelta only)

theorem State.odtWire_still (s : State) (k cls qpn flags seq : Nat) (msg : OdtOut) (hs : s.still = K)
    : (State.odtWire s k cls qpn flags seq msg).still = K := by
  unfold State.odtWire
  repeat' (first
    | (with_reducible first
        | assumption | apply State.sendAs_still | refine still_foldl ?_ (fun x y hx => ?_)
        | refine still_foldl_fst ?_ (fun x y hx => ?_))
    | (extract_lets +onlyGivenNames t; refine still_cut (K := K) (t := t) ?_ ?_; all_goals first | (intro ht; clear_value t) | subst t)
    | extract_lets +onlyGivenNames t | split | (refine still_fst ?_ (by with_reducible assumption))
    | (refine still_snd ?_ (by with_reducible assumption)) | (with_reducible intro x) | dsimp +zetaDelta only)

theorem State.odtEmit_still (s : State) (k cls qpn flags : Nat) (msg : OdtOut) (hs : s.still = K)
    : (State.odtEmit s k cls qpn flags msg).still = K := by
  unfold State.odtEmit
  repeat' (first
    | (with_reducible first
        | assumption | apply State.setOdt_still | apply State.odtWire_still | refine still_foldl ?_ (fun x y hx => ?_)
        | refine still_foldl_fst ?_ (fun x y hx => ?_))
    | (extract_lets +onlyGivenNames t; refine still_cut (K := K) (t := t) ?_ ?_; all_goals first | (intro ht; clear_value t) | subst t)
    | extract_lets +onlyGivenNames t | split | (refine still_fst ?_ (by with_reducible assumption))
    | (refine still_snd ?_ (by with_reducible assumption)) | (with_reducible intro x) | dsimp +zetaDelta only)

theorem State.odtAgain_still (s : State) (k seq : Nat) (hs : s.still = K) : (State.odtAgain s k seq).still = K := by
  unfold State.odtAgain
  repeat' (first
    | (with_reducible first
        | assumption | apply State.setOdt_still | apply State.count_still | apply State.odtWire_still
        | refine still_foldl ?_ (fun x y hx => ?_) | refine still_foldl_fst ?_ (fun x y hx => ?_))
    | (extract_lets +onlyGivenNames t; refine still_cut (K := K) (t := t) ?_ ?_; all_goals first | (intro ht; clear_value t) | subst t)
    | extract_lets +onlyGivenNames t | split | (refine still_fst ?_ (by with_reducible assumption))
    | (refine still_snd ?_ (by with_reducible assumption)) | (with_reducible intro x) | dsimp +zetaDelta only)

theorem State.heldSend_still (s : State) (h : HeldFrame) (hs : s.still = K) : (State.heldSend s h).still = K := by
  unfold State.heldSend
  repeat' (first
    | (with_reducible first
        | assumption | apply State.odtEmit_still | apply State.odtAgain_still | apply State.sendAs_still
        | refine still_foldl ?_ (fun x y hx => ?_) | refine still_foldl_fst ?_ (fun x y hx => ?_))
    | (extract_lets +onlyGivenNames t; refine still_cut (K := K) (t := t) ?_ ?_; all_goals first | (intro ht; clear_value t) | subst t)
    | extract_lets +onlyGivenNames t | split | (refine still_fst ?_ (by with_reducible assumption))
    | (refine still_snd ?_ (by with_reducible assumption)) | (with_reducible intro x) | dsimp +zetaDelta only)

theorem State.heldRelease_still (s : State) (mac : Nat) (hs : s.still = K) : (State.heldRelease s mac).still = K := by
  unfold State.heldRelease
  repeat' (first
    | (with_reducible first
        | assumption | apply State.heldSend_still | refine still_foldl ?_ (fun x y hx => ?_)
        | refine still_foldl_fst ?_ (fun x y hx => ?_))
    | (extract_lets +onlyGivenNames t; refine still_cut (K := K) (t := t) ?_ ?_; all_goals first | (intro ht; clear_value t) | subst t)
    | extract_lets +onlyGivenNames t | split | (refine still_fst ?_ (by with_reducible assumption))
    | (refine still_snd ?_ (by with_reducible assumption)) | (with_reducible intro x) | dsimp +zetaDelta only)

theorem State.sendOrHold_still (s : State) (h : HeldFrame) (hs : s.still = K) : (State.sendOrHold s h).still = K := by
  unfold State.sendOrHold
  repeat' (first
    | (with_reducible first
        | assumption | apply State.heldRelease_still | apply State.heldSend_still
        | refine still_foldl ?_ (fun x y hx => ?_) | refine still_foldl_fst ?_ (fun x y hx => ?_))
    | (extract_lets +onlyGivenNames t; refine still_cut (K := K) (t := t) ?_ ?_; all_goals first | (intro ht; clear_value t) | subst t)
    | extract_lets +onlyGivenNames t | split | (refine still_fst ?_ (by with_reducible assumption))
    | (refine still_snd ?_ (by with_reducible assumption)) | (with_reducible intro x) | dsimp +zetaDelta only)

theorem State.setRoce_still (s : State) (k : Nat) (x : RoceConn) (hs : s.still = K) : (State.setRoce s k x).still = K := by
  unfold State.setRoce
  repeat' (first
    | (with_reducible first
        | assumption | refine still_foldl ?_ (fun x y hx => ?_) | refine still_foldl_fst ?_ (fun x y hx => ?_))
    | (extract_lets +onlyGivenNames t; refine still_cut (K := K) (t := t) ?_ ?_; all_goals first | (intro ht; clear_value t) | subst t)
    | extract_lets +onlyGivenNames t | split | (refine still_fst ?_ (by with_reducible assumption))
    | (refine still_snd ?_ (by with_reducible assumption)) | (with_reducible intro x) | dsimp +zetaDelta only)

theorem State.roceFrame_still (s : State) (mac sub cls : Nat) (o : Out) (hs : s.still = K)
    : (State.roceFrame s mac sub cls o).still = K := by
  unfold State.roceFrame
  repeat' (first
    | (with_reducible first
        | assumption | apply State.sendOrHold_still | refine still_foldl ?_ (fun x y hx => ?_)
        | refine still_foldl_fst ?_ (fun x y hx => ?_))
    | (extract_lets +onlyGivenNames t; refine still_cut (K := K) (t := t) ?_ ?_; all_goals first | (intro ht; clear_value t) | subst t)
    | extract_lets +onlyGivenNames t | split | (refine still_fst ?_ (by with_reducible assumption))
    | (refine still_snd ?_ (by with_reducible assumption)) | (with_reducible intro x) | dsimp +zetaDelta only)

theorem State.sendVector_still (s : State) (f v cls : Nat) (hs : s.still = K) : (State.sendVector s f v cls).still = K := by
  unfold State.sendVector
  repeat' (first
    | (with_reducible first
        | assumption | apply State.pushEgress_still | apply State.setFunc_still
        | refine still_foldl ?_ (fun x y hx => ?_) | refine still_foldl_fst ?_ (fun x y hx => ?_))
    | (extract_lets +onlyGivenNames t; refine still_cut (K := K) (t := t) ?_ ?_; all_goals first | (intro ht; clear_value t) | subst t)
    | extract_lets +onlyGivenNames t | split | (refine still_fst ?_ (by with_reducible assumption))
    | (refine still_snd ?_ (by with_reducible assumption)) | (with_reducible intro x) | dsimp +zetaDelta only)

theorem State.pushMessage_still (s : State) (pt cls : Nat) (cpl : Option Cpl) (l : List EgWhat) (hs : s.still = K) :
    (State.pushMessage s pt cls cpl l).still = K := by
  induction l generalizing s with
  | nil => exact hs
  | cons w l ih =>
    cases l with
    | nil => exact State.pushEgress_still _ _ _ _ _ _ hs
    | cons a l => exact ih _ (State.pushEgress_still _ _ _ _ _ _ hs)

theorem State.hostPut_still (s : State) (mkey a cls owner : Nat) (b : Bytes) (cpl : Option Cpl) (hs : s.still = K)
    : (State.hostPut s mkey a cls owner b cpl).still = K := by
  unfold State.hostPut
  extract_lets k bus f n c ps
  split
  · exact State.pushMessage_still _ _ _ _ _ hs
  · exact State.pushMessage_still _ _ _ _ _ hs
  · split
    · exact State.pushMessage_still _ _ _ _ _ hs
    · exact hs
  · exact State.store_still _ _ _ hs

theorem State.setGroup_still (s : State) (i : Nat) (g : Group) (hs : s.still = K) : (State.setGroup s i g).still = K := by
  unfold State.setGroup
  repeat' (first | with_reducible assumption | split | (with_reducible exact hs))

theorem State.updGroup_still (s : State) (i : Nat) (f : Group → Group) (hs : s.still = K)
    : (State.updGroup s i f).still = K := by
  unfold State.updGroup
  repeat' (first
    | (with_reducible first
        | assumption | apply State.setGroup_still | refine still_foldl ?_ (fun x y hx => ?_)
        | refine still_foldl_fst ?_ (fun x y hx => ?_))
    | (extract_lets +onlyGivenNames t; refine still_cut (K := K) (t := t) ?_ ?_; all_goals first | (intro ht; clear_value t) | subst t)
    | extract_lets +onlyGivenNames t | split | (refine still_fst ?_ (by with_reducible assumption))
    | (refine still_snd ?_ (by with_reducible assumption)) | (with_reducible intro x) | dsimp +zetaDelta only)

theorem State.setQp_still (s : State) (q : Nat) (x : Qp) (hs : s.still = K) : (State.setQp s q x).still = K := by
  unfold State.setQp
  dsimp only
  split
  · exact hs
  · exact State.trace_still s 6 160 hs

theorem State.updCmd_still (s : State) (seq : Nat) (f : Cmd → Cmd) (hs : s.still = K)
    : (State.updCmd s seq f).still = K := by
  unfold State.updCmd
  repeat' (first
    | (with_reducible first
        | assumption | refine still_foldl ?_ (fun x y hx => ?_) | refine still_foldl_fst ?_ (fun x y hx => ?_))
    | (extract_lets +onlyGivenNames t; refine still_cut (K := K) (t := t) ?_ ?_; all_goals first | (intro ht; clear_value t) | subst t)
    | extract_lets +onlyGivenNames t | split | (refine still_fst ?_ (by with_reducible assumption))
    | (refine still_snd ?_ (by with_reducible assumption)) | (with_reducible intro x) | dsimp +zetaDelta only)

theorem State.useContext_still (s : State) (q : Nat) (hs : s.still = K) : (State.useContext s q).still = K := by
  unfold State.useContext
  repeat' (first
    | (with_reducible first
        | assumption | apply State.count_still | refine still_foldl ?_ (fun x y hx => ?_)
        | refine still_foldl_fst ?_ (fun x y hx => ?_))
    | (extract_lets +onlyGivenNames t; refine still_cut (K := K) (t := t) ?_ ?_; all_goals first | (intro ht; clear_value t) | subst t)
    | extract_lets +onlyGivenNames t | split | (refine still_fst ?_ (by with_reducible assumption))
    | (refine still_snd ?_ (by with_reducible assumption)) | (with_reducible intro x) | dsimp +zetaDelta only)

theorem State.unstage_still (s : State) (pt n : Nat) (hs : s.still = K) : (State.unstage s pt n).still = K := by
  unfold State.unstage
  repeat' (first
    | (with_reducible first
        | assumption | refine still_foldl ?_ (fun x y hx => ?_) | refine still_foldl_fst ?_ (fun x y hx => ?_))
    | (extract_lets +onlyGivenNames t; refine still_cut (K := K) (t := t) ?_ ?_; all_goals first | (intro ht; clear_value t) | subst t)
    | extract_lets +onlyGivenNames t | split | (refine still_fst ?_ (by with_reducible assumption))
    | (refine still_snd ?_ (by with_reducible assumption)) | (with_reducible intro x) | dsimp +zetaDelta only)

theorem State.releaseMedia_still (s : State) (c : Cmd) (hs : s.still = K) : (State.releaseMedia s c).still = K := by
  unfold State.releaseMedia
  repeat' (first
    | (with_reducible first
        | assumption | apply State.issued_still | apply State.discardRuns_still | apply State.freeHeld_still
        | apply State.freeSlice_still | apply State.unstage_still | apply State.updGroup_still
        | refine still_foldl ?_ (fun x y hx => ?_) | refine still_foldl_fst ?_ (fun x y hx => ?_))
    | (extract_lets +onlyGivenNames t; refine still_cut (K := K) (t := t) ?_ ?_; all_goals first | (intro ht; clear_value t) | subst t)
    | extract_lets +onlyGivenNames t | split | (refine still_fst ?_ (by with_reducible assumption))
    | (refine still_snd ?_ (by with_reducible assumption)) | (with_reducible intro x) | dsimp +zetaDelta only)

theorem State.release_still (s : State) (c : Cmd) (hs : s.still = K) : (State.release s c).still = K := by
  unfold State.release
  repeat' (first
    | (with_reducible first
        | assumption | apply State.releaseMedia_still | apply State.unstage_still | apply State.releaseCells_still
        | apply State.updCmd_still | apply State.dropKey_still | refine still_foldl ?_ (fun x y hx => ?_)
        | refine still_foldl_fst ?_ (fun x y hx => ?_))
    | (extract_lets +onlyGivenNames t; refine still_cut (K := K) (t := t) ?_ ?_; all_goals first | (intro ht; clear_value t) | subst t)
    | extract_lets +onlyGivenNames t | split | (refine still_fst ?_ (by with_reducible assumption))
    | (refine still_snd ?_ (by with_reducible assumption)) | (with_reducible intro x) | dsimp +zetaDelta only)

theorem State.dropCmd_still (s : State) (c : Cmd) (hs : s.still = K) : (State.dropCmd s c).still = K := by
  unfold State.dropCmd
  repeat' (first
    | (with_reducible first
        | assumption | apply State.release_still | apply State.trace_still | refine still_foldl ?_ (fun x y hx => ?_)
        | refine still_foldl_fst ?_ (fun x y hx => ?_))
    | (extract_lets +onlyGivenNames t; refine still_cut (K := K) (t := t) ?_ ?_; all_goals first | (intro ht; clear_value t) | subst t)
    | extract_lets +onlyGivenNames t | split | (refine still_fst ?_ (by with_reducible assumption))
    | (refine still_snd ?_ (by with_reducible assumption)) | (with_reducible intro x) | dsimp +zetaDelta only)

theorem State.dropFetch_still (s : State) (q : Nat) (hs : s.still = K) : (State.dropFetch s q).still = K := by
  unfold State.dropFetch
  repeat' (first
    | (with_reducible first
        | assumption | refine still_foldl ?_ (fun x y hx => ?_) | refine still_foldl_fst ?_ (fun x y hx => ?_))
    | (extract_lets +onlyGivenNames t; refine still_cut (K := K) (t := t) ?_ ?_; all_goals first | (intro ht; clear_value t) | subst t)
    | extract_lets +onlyGivenNames t | split | (refine still_fst ?_ (by with_reducible assumption))
    | (refine still_snd ?_ (by with_reducible assumption)) | (with_reducible intro x) | dsimp +zetaDelta only)

theorem State.lostCompletion_still (s : State) (c : Cmd) (hs : s.still = K) : (State.lostCompletion s c).still = K := by
  unfold State.lostCompletion
  repeat' (first
    | (with_reducible first
        | assumption | apply State.setQp_still | apply State.dropFetch_still | apply State.dropCmd_still
        | refine still_foldl ?_ (fun x y hx => ?_) | refine still_foldl_fst ?_ (fun x y hx => ?_))
    | (extract_lets +onlyGivenNames t; refine still_cut (K := K) (t := t) ?_ ?_; all_goals first | (intro ht; clear_value t) | subst t)
    | extract_lets +onlyGivenNames t | split | (refine still_fst ?_ (by with_reducible assumption))
    | (refine still_snd ?_ (by with_reducible assumption)) | (with_reducible intro x) | dsimp +zetaDelta only)

theorem State.sendCompletion_still (s : State) (c : Cmd) (slot : Nat) (entry : Bytes) (hs : s.still = K)
    : (State.sendCompletion s c slot entry).still = K := by
  unfold State.sendCompletion
  repeat' (first
    | (with_reducible first
        | assumption | apply State.useContext_still | apply State.emit_still | apply State.hostPut_still
        | apply State.sendVector_still | apply State.pushEgress_still | refine still_foldl ?_ (fun x y hx => ?_)
        | refine still_foldl_fst ?_ (fun x y hx => ?_))
    | (extract_lets +onlyGivenNames t; refine still_cut (K := K) (t := t) ?_ ?_; all_goals first | (intro ht; clear_value t) | subst t)
    | extract_lets +onlyGivenNames t | split | (refine still_fst ?_ (by with_reducible assumption))
    | (refine still_snd ?_ (by with_reducible assumption)) | (with_reducible intro x) | dsimp +zetaDelta only)

theorem State.callHook_still (s : State) (att : Nat) (c : Cmd) (hook : Nat) (input : Bytes) (hs : s.still = K)
    : (State.callHook s att c hook input).still = K := by
  unfold State.callHook
  repeat' (first
    | (with_reducible first
        | assumption | apply State.updCmd_still | refine still_foldl ?_ (fun x y hx => ?_)
        | refine still_foldl_fst ?_ (fun x y hx => ?_))
    | (extract_lets +onlyGivenNames t; refine still_cut (K := K) (t := t) ?_ ?_; all_goals first | (intro ht; clear_value t) | subst t)
    | extract_lets +onlyGivenNames t | split | (refine still_fst ?_ (by with_reducible assumption))
    | (refine still_snd ?_ (by with_reducible assumption)) | (with_reducible intro x) | dsimp +zetaDelta only)

theorem State.postTry_still (s : State) (seq : Nat) (hs : s.still = K) : (State.postTry s seq).still = K := by
  unfold State.postTry
  repeat' (first
    | (with_reducible first
        | assumption | apply State.dropCmd_still | apply State.lostCompletion_still | apply State.sendCompletion_still
        | apply State.touch_still | apply State.callHook_still | apply State.logRec_still | apply State.setQp_still
        | apply State.updCmd_still | refine still_foldl ?_ (fun x y hx => ?_)
        | refine still_foldl_fst ?_ (fun x y hx => ?_))
    | (extract_lets +onlyGivenNames t; refine still_cut (K := K) (t := t) ?_ ?_; all_goals first | (intro ht; clear_value t) | subst t)
    | extract_lets +onlyGivenNames t | split | (refine still_fst ?_ (by with_reducible assumption))
    | (refine still_snd ?_ (by with_reducible assumption)) | (with_reducible intro x) | dsimp +zetaDelta only)

theorem State.finishCore_still (s : State) (seq status info : Nat) (hs : s.still = K)
    : (State.finishCore s seq status info).still = K := by
  unfold State.finishCore
  repeat' (first
    | (with_reducible first
        | assumption | apply State.updCmd_still | apply State.postTry_still | refine still_foldl ?_ (fun x y hx => ?_)
        | refine still_foldl_fst ?_ (fun x y hx => ?_))
    | (extract_lets +onlyGivenNames t; refine still_cut (K := K) (t := t) ?_ ?_; all_goals first | (intro ht; clear_value t) | subst t)
    | extract_lets +onlyGivenNames t | split | (refine still_fst ?_ (by with_reducible assumption))
    | (refine still_snd ?_ (by with_reducible assumption)) | (with_reducible intro x) | dsimp +zetaDelta only)

theorem State.endEarly_still (s : State) (seq status : Nat) (hs : s.still = K)
    : (State.endEarly s seq status).still = K := by
  unfold State.endEarly
  repeat' (first
    | (with_reducible first
        | assumption | apply State.release_still | apply State.updCmd_still | apply State.finishCore_still
        | refine still_foldl ?_ (fun x y hx => ?_) | refine still_foldl_fst ?_ (fun x y hx => ?_))
    | (extract_lets +onlyGivenNames t; refine still_cut (K := K) (t := t) ?_ ?_; all_goals first | (intro ht; clear_value t) | subst t)
    | extract_lets +onlyGivenNames t | split | (refine still_fst ?_ (by with_reducible assumption))
    | (refine still_snd ?_ (by with_reducible assumption)) | (with_reducible intro x) | dsimp +zetaDelta only)

theorem State.freeQp_still (s : State) (q : Nat) (hs : s.still = K) : (State.freeQp s q).still = K := by
  unfold State.freeQp
  repeat' (first
    | (with_reducible first
        | assumption | apply State.dropFetch_still | refine still_foldl ?_ (fun x y hx => ?_)
        | refine still_foldl_fst ?_ (fun x y hx => ?_))
    | (extract_lets +onlyGivenNames t; refine still_cut (K := K) (t := t) ?_ ?_; all_goals first | (intro ht; clear_value t) | subst t)
    | extract_lets +onlyGivenNames t | split | (refine still_fst ?_ (by with_reducible assumption))
    | (refine still_snd ?_ (by with_reducible assumption)) | (with_reducible intro x) | dsimp +zetaDelta only)

theorem State.drainEnd_still (s : State) (q : Nat) (hs : s.still = K) : (State.drainEnd s q).still = K := by
  unfold State.drainEnd
  repeat' (first
    | (with_reducible first
        | assumption | apply State.freeQp_still | apply State.touch_still | apply State.finishCore_still
        | apply State.count_still | apply State.setQp_still | refine still_foldl ?_ (fun x y hx => ?_)
        | refine still_foldl_fst ?_ (fun x y hx => ?_))
    | (extract_lets +onlyGivenNames t; refine still_cut (K := K) (t := t) ?_ ?_; all_goals first | (intro ht; clear_value t) | subst t)
    | extract_lets +onlyGivenNames t | split | (refine still_fst ?_ (by with_reducible assumption))
    | (refine still_snd ?_ (by with_reducible assumption)) | (with_reducible intro x) | dsimp +zetaDelta only)

theorem State.freeKeyEntry_still (s : State) (idx : Nat) (hs : s.still = K) : (State.freeKeyEntry s idx).still = K := by
  unfold State.freeKeyEntry
  dsimp only
  apply State.putKey_still
  split <;> exact hs

theorem State.walkBegin_still (s : State) (seq : Nat) (hs : s.still = K) : (State.walkBegin s seq).still = K := by
  unfold State.walkBegin
  repeat' (first
    | (with_reducible first
        | assumption | refine still_foldl ?_ (fun x y hx => ?_) | refine still_foldl_fst ?_ (fun x y hx => ?_))
    | (extract_lets +onlyGivenNames t; refine still_cut (K := K) (t := t) ?_ ?_; all_goals first | (intro ht; clear_value t) | subst t)
    | extract_lets +onlyGivenNames t | split | (refine still_fst ?_ (by with_reducible assumption))
    | (refine still_snd ?_ (by with_reducible assumption)) | (with_reducible intro x) | dsimp +zetaDelta only)

theorem State.volumeMade_still (s : State) (h : Nat) (hs : s.still = K) : (State.volumeMade s h).still = K := by
  unfold State.volumeMade
  repeat' (first
    | (with_reducible first
        | assumption | refine still_foldl ?_ (fun x y hx => ?_) | refine still_foldl_fst ?_ (fun x y hx => ?_))
    | (extract_lets +onlyGivenNames t; refine still_cut (K := K) (t := t) ?_ ?_; all_goals first | (intro ht; clear_value t) | subst t)
    | extract_lets +onlyGivenNames t | split | (refine still_fst ?_ (by with_reducible assumption))
    | (refine still_snd ?_ (by with_reducible assumption)) | (with_reducible intro x) | dsimp +zetaDelta only)

theorem State.settleCmd_still (s : State) (hs : s.still = K) : ∀ t, (State.settleCmd s) = some t → t.still = K := by
  unfold State.settleCmd
  intro t ht
  split at ht
  · cases ht
    exact State.endEarly_still _ _ _ hs
  · split at ht
    · cases ht
      apply State.finishCore_still
      split
      · exact State.freeKeyEntry_still _ _ hs
      · split
        · exact State.volumeMade_still _ _ hs
        · exact State.walkBegin_still _ _ hs
    · cases ht

theorem State.settleStep_still (s : State) (hs : s.still = K) : ∀ t, (State.settleStep s) = some t → t.still = K := by
  unfold State.settleStep
  intro t ht
  split at ht
  · next h => cases ht; exact State.settleCmd_still _ hs _ h
  · split at ht
    · cases ht; exact State.drainEnd_still _ _ hs
    · split at ht
      · cases ht; exact State.setFunc_still _ _ _ hs
      · split at ht
        · cases ht; exact State.setOdt_still _ _ _ hs
        · cases ht

theorem State.settleN_still (n : Nat) (s : State) (hs : s.still = K) : (State.settleN n s).still = K := by
  induction n generalizing s with
  | zero => exact hs
  | succ n ih =>
    unfold State.settleN
    split
    · next h => exact ih _ (State.settleStep_still _ hs _ h)
    · exact hs

theorem State.settle_still (s : State) (hs : s.still = K) : (State.settle s).still = K := by
  unfold State.settle
  repeat' (first
    | (with_reducible first
        | assumption | apply State.settleN_still | refine still_foldl ?_ (fun x y hx => ?_)
        | refine still_foldl_fst ?_ (fun x y hx => ?_))
    | (extract_lets +onlyGivenNames t; refine still_cut (K := K) (t := t) ?_ ?_; all_goals first | (intro ht; clear_value t) | subst t)
    | extract_lets +onlyGivenNames t | split | (refine still_fst ?_ (by with_reducible assumption))
    | (refine still_snd ?_ (by with_reducible assumption)) | (with_reducible intro x) | dsimp +zetaDelta only)

theorem State.finish_still (s : State) (seq status info : Nat) (hs : s.still = K)
    : (State.finish s seq status info).still = K := by
  unfold State.finish
  repeat' (first
    | (with_reducible first
        | assumption | apply State.finishCore_still | apply State.settle_still
        | refine still_foldl ?_ (fun x y hx => ?_) | refine still_foldl_fst ?_ (fun x y hx => ?_))
    | (extract_lets +onlyGivenNames t; refine still_cut (K := K) (t := t) ?_ ?_; all_goals first | (intro ht; clear_value t) | subst t)
    | extract_lets +onlyGivenNames t | split | (refine still_fst ?_ (by with_reducible assumption))
    | (refine still_snd ?_ (by with_reducible assumption)) | (with_reducible intro x) | dsimp +zetaDelta only)

theorem State.syncDispatch_still (s : State) (cluster : Nat) (hs : s.still = K)
    : (State.syncDispatch s cluster).still = K := by
  unfold State.syncDispatch
  repeat' (first
    | (with_reducible first
        | assumption | apply State.dispatch_still | refine still_foldl ?_ (fun x y hx => ?_)
        | refine still_foldl_fst ?_ (fun x y hx => ?_))
    | (extract_lets +onlyGivenNames t; refine still_cut (K := K) (t := t) ?_ ?_; all_goals first | (intro ht; clear_value t) | subst t)
    | extract_lets +onlyGivenNames t | split | (refine still_fst ?_ (by with_reducible assumption))
    | (refine still_snd ?_ (by with_reducible assumption)) | (with_reducible intro x) | dsimp +zetaDelta only)

theorem State.syncAll_still (s : State) (hs : s.still = K) : (State.syncAll s).still = K := by
  unfold State.syncAll
  repeat' (first
    | (with_reducible first
        | assumption | apply State.syncDispatch_still | refine still_foldl ?_ (fun x y hx => ?_)
        | refine still_foldl_fst ?_ (fun x y hx => ?_))
    | (extract_lets +onlyGivenNames t; refine still_cut (K := K) (t := t) ?_ ?_; all_goals first | (intro ht; clear_value t) | subst t)
    | extract_lets +onlyGivenNames t | split | (refine still_fst ?_ (by with_reducible assumption))
    | (refine still_snd ?_ (by with_reducible assumption)) | (with_reducible intro x) | dsimp +zetaDelta only)

theorem State.makeReady_still (s : State) (seq : Nat) (hs : s.still = K) : (State.makeReady s seq).still = K := by
  unfold State.makeReady
  repeat' (first
    | (with_reducible first
        | assumption | apply State.updCmd_still | refine still_foldl ?_ (fun x y hx => ?_)
        | refine still_foldl_fst ?_ (fun x y hx => ?_))
    | (extract_lets +onlyGivenNames t; refine still_cut (K := K) (t := t) ?_ ?_; all_goals first | (intro ht; clear_value t) | subst t)
    | extract_lets +onlyGivenNames t | split | (refine still_fst ?_ (by with_reducible assumption))
    | (refine still_snd ?_ (by with_reducible assumption)) | (with_reducible intro x) | dsimp +zetaDelta only)

theorem State.setShaperEntry_still (s : State) (tenant : Nat) (e : ShaperEntry) (hs : s.still = K)
    : (State.setShaperEntry s tenant e).still = K := by
  unfold State.setShaperEntry
  repeat' (first
    | (with_reducible first
        | assumption | refine still_foldl ?_ (fun x y hx => ?_) | refine still_foldl_fst ?_ (fun x y hx => ?_))
    | (extract_lets +onlyGivenNames t; refine still_cut (K := K) (t := t) ?_ ?_; all_goals first | (intro ht; clear_value t) | subst t)
    | extract_lets +onlyGivenNames t | split | (refine still_fst ?_ (by with_reducible assumption))
    | (refine still_snd ?_ (by with_reducible assumption)) | (with_reducible intro x) | dsimp +zetaDelta only)

theorem State.clsCount_still (s : State) (r : Reg) (tenant i : Nat) (hs : s.still = K)
    : (State.clsCount s r tenant i).still = K := by
  unfold State.clsCount
  repeat' (first
    | (with_reducible first
        | assumption | apply State.count_still | apply State.setShaperEntry_still
        | refine still_foldl ?_ (fun x y hx => ?_) | refine still_foldl_fst ?_ (fun x y hx => ?_))
    | (extract_lets +onlyGivenNames t; refine still_cut (K := K) (t := t) ?_ ?_; all_goals first | (intro ht; clear_value t) | subst t)
    | extract_lets +onlyGivenNames t | split | (refine still_fst ?_ (by with_reducible assumption))
    | (refine still_snd ?_ (by with_reducible assumption)) | (with_reducible intro x) | dsimp +zetaDelta only)

theorem State.applyColour_still (s : State) (seq : Nat) (col : Colour) (hs : s.still = K)
    : (State.applyColour s seq col).still = K := by
  unfold State.applyColour
  repeat' (first
    | (with_reducible first
        | assumption | apply State.clsCount_still | apply State.updCmd_still | apply State.makeReady_still
        | refine still_foldl ?_ (fun x y hx => ?_) | refine still_foldl_fst ?_ (fun x y hx => ?_))
    | (extract_lets +onlyGivenNames t; refine still_cut (K := K) (t := t) ?_ ?_; all_goals first | (intro ht; clear_value t) | subst t)
    | extract_lets +onlyGivenNames t | split | (refine still_fst ?_ (by with_reducible assumption))
    | (refine still_snd ?_ (by with_reducible assumption)) | (with_reducible intro x) | dsimp +zetaDelta only)

theorem State.holdCmd_still (s : State) (seq : Nat) (hs : s.still = K) : (State.holdCmd s seq).still = K := by
  unfold State.holdCmd
  repeat' (first
    | (with_reducible first
        | assumption | apply State.updCmd_still | apply State.clsCount_still | refine still_foldl ?_ (fun x y hx => ?_)
        | refine still_foldl_fst ?_ (fun x y hx => ?_))
    | (extract_lets +onlyGivenNames t; refine still_cut (K := K) (t := t) ?_ ?_; all_goals first | (intro ht; clear_value t) | subst t)
    | extract_lets +onlyGivenNames t | split | (refine still_fst ?_ (by with_reducible assumption))
    | (refine still_snd ?_ (by with_reducible assumption)) | (with_reducible intro x) | dsimp +zetaDelta only)

theorem State.police_still (s : State) (seq : Nat) (hs : s.still = K) : (State.police s seq).still = K := by
  unfold State.police
  repeat' (first
    | (with_reducible first
        | assumption | apply State.makeReady_still | apply State.holdCmd_still | apply State.setShaperEntry_still
        | apply State.applyColour_still | refine still_foldl ?_ (fun x y hx => ?_)
        | refine still_foldl_fst ?_ (fun x y hx => ?_))
    | (extract_lets +onlyGivenNames t; refine still_cut (K := K) (t := t) ?_ ?_; all_goals first | (intro ht; clear_value t) | subst t)
    | extract_lets +onlyGivenNames t | split | (refine still_fst ?_ (by with_reducible assumption))
    | (refine still_snd ?_ (by with_reducible assumption)) | (with_reducible intro x) | dsimp +zetaDelta only)

theorem State.classify_still (s : State) (seq : Nat) (hs : s.still = K) : (State.classify s seq).still = K := by
  unfold State.classify
  repeat' (first
    | (with_reducible first
        | assumption | apply State.updCmd_still | apply State.police_still | apply State.clsCount_still
        | apply State.callHook_still | apply State.take_still | refine still_foldl ?_ (fun x y hx => ?_)
        | refine still_foldl_fst ?_ (fun x y hx => ?_))
    | (extract_lets +onlyGivenNames t; refine still_cut (K := K) (t := t) ?_ ?_; all_goals first | (intro ht; clear_value t) | subst t)
    | extract_lets +onlyGivenNames t | split | (refine still_fst ?_ (by with_reducible assumption))
    | (refine still_snd ?_ (by with_reducible assumption)) | (with_reducible intro x) | dsimp +zetaDelta only)

theorem State.reject_still (s : State) (seq status info : Nat) (hs : s.still = K)
    : (State.reject s seq status info).still = K := by
  unfold State.reject
  repeat' (first
    | (with_reducible first
        | assumption | apply State.finishCore_still | refine still_foldl ?_ (fun x y hx => ?_)
        | refine still_foldl_fst ?_ (fun x y hx => ?_))
    | (extract_lets +onlyGivenNames t; refine still_cut (K := K) (t := t) ?_ ?_; all_goals first | (intro ht; clear_value t) | subst t)
    | extract_lets +onlyGivenNames t | split | (refine still_fst ?_ (by with_reducible assumption))
    | (refine still_snd ?_ (by with_reducible assumption)) | (with_reducible intro x) | dsimp +zetaDelta only)

theorem State.enter_still (s : State) (seq : Nat) (hs : s.still = K) : (State.enter s seq).still = K := by
  unfold State.enter
  repeat' (first
    | (with_reducible first
        | assumption | apply State.count_still | apply State.updCmd_still | apply State.reject_still
        | apply State.holdKey_still | apply State.classify_still | apply State.callHook_still | apply State.take_still
        | refine still_foldl ?_ (fun x y hx => ?_) | refine still_foldl_fst ?_ (fun x y hx => ?_))
    | (extract_lets +onlyGivenNames t; refine still_cut (K := K) (t := t) ?_ ?_; all_goals first | (intro ht; clear_value t) | subst t)
    | extract_lets +onlyGivenNames t | split | (refine still_fst ?_ (by with_reducible assumption))
    | (refine still_snd ?_ (by with_reducible assumption)) | (with_reducible intro x) | dsimp +zetaDelta only)

theorem State.ackTaken_still (s : State) (f : Face) (psn : Nat) (r : Option Nat) (hs : s.still = K)
    : (State.ackTaken s f psn r).still = K := by
  unfold State.ackTaken
  repeat' (first
    | (with_reducible first
        | assumption | apply State.setRoce_still | apply State.roceFrame_still
        | refine still_foldl ?_ (fun x y hx => ?_) | refine still_foldl_fst ?_ (fun x y hx => ?_))
    | (extract_lets +onlyGivenNames t; refine still_cut (K := K) (t := t) ?_ ?_; all_goals first | (intro ht; clear_value t) | subst t)
    | extract_lets +onlyGivenNames t | split | (refine still_fst ?_ (by with_reducible assumption))
    | (refine still_snd ?_ (by with_reducible assumption)) | (with_reducible intro x) | dsimp +zetaDelta only)

theorem State.take_still (s : State) (q slot : Nat) (entry : Bytes) (src : Nat) (hs : s.still = K)
    : (State.take s q slot entry src).still = K := by
  unfold State.take
  dsimp -zeta only
  split
  · exact State.setQp_still _ _ _ hs
  · dsimp only
    generalize hu : State.ackTaken _ _ _ _ = u
    have h3 : u.still = K := hu ▸ State.ackTaken_still _ _ _ _ (State.logRec_still _ _ (State.setQp_still _ _ _ hs))
    clear hu
    split
    · exact State.enter_still _ _ h3
    · exact State.reject_still _ _ _ _ h3
    · exact State.callHook_still _ _ _ _ _ h3

theorem State.takeInline_still (n q : Nat) (s : State) (hs : s.still = K) : (State.takeInline n q s).still = K := by
  induction n generalizing s with
  | zero => exact hs
  | succ n ih =>
    unfold State.takeInline
    repeat' (first
      | with_reducible assumption
      | with_reducible apply goodOut_next
      | with_reducible apply State.setQp_still
      | with_reducible apply State.take_still
      | with_reducible apply ih
        | with_reducible refine still_foldl ?_ (fun x y hx => ?_)
      | with_reducible refine still_foldl_fst ?_ (fun x y hx => ?_)
      | (extract_lets +onlyGivenNames t; refine still_cut (K := K) (t := t) ?_ ?_; all_goals first | (intro ht; clear_value t) | subst t)
      | extract_lets +onlyGivenNames t
      | split
      | (refine still_fst ?_ (by with_reducible assumption))
      | (refine still_snd ?_ (by with_reducible assumption))
      | (with_reducible intro x)
      | dsimp +zetaDelta only)

theorem State.flow_still (s : State) (hs : s.still = K) : (State.flow s).still = K := by
  unfold State.flow
  repeat' (first
    | (with_reducible first
        | assumption | apply State.settle_still | apply State.takeInline_still | apply State.syncAll_still
        | refine still_foldl ?_ (fun x y hx => ?_) | refine still_foldl_fst ?_ (fun x y hx => ?_))
    | (extract_lets +onlyGivenNames t; refine still_cut (K := K) (t := t) ?_ ?_; all_goals first | (intro ht; clear_value t) | subst t)
    | extract_lets +onlyGivenNames t | split | (refine still_fst ?_ (by with_reducible assumption))
    | (refine still_snd ?_ (by with_reducible assumption)) | (with_reducible intro x) | dsimp +zetaDelta only)

theorem State.markPast_still (s : State) (seq : Nat) (hs : s.still = K) : (State.markPast s seq).still = K := by
  unfold State.markPast
  repeat' (first
    | (with_reducible first
        | assumption | apply State.updCmd_still | apply State.issued_still | refine still_foldl ?_ (fun x y hx => ?_)
        | refine still_foldl_fst ?_ (fun x y hx => ?_))
    | (extract_lets +onlyGivenNames t; refine still_cut (K := K) (t := t) ?_ ?_; all_goals first | (intro ht; clear_value t) | subst t)
    | extract_lets +onlyGivenNames t | split | (refine still_fst ?_ (by with_reducible assumption))
    | (refine still_snd ?_ (by with_reducible assumption)) | (with_reducible intro x) | dsimp +zetaDelta only)

theorem State.markWaiting_still (s : State) (seq : Nat) (hs : s.still = K) : (State.markWaiting s seq).still = K := by
  unfold State.markWaiting
  repeat' (first
    | (with_reducible first
        | assumption | apply State.updCmd_still | refine still_foldl ?_ (fun x y hx => ?_)
        | refine still_foldl_fst ?_ (fun x y hx => ?_))
    | (extract_lets +onlyGivenNames t; refine still_cut (K := K) (t := t) ?_ ?_; all_goals first | (intro ht; clear_value t) | subst t)
    | extract_lets +onlyGivenNames t | split | (refine still_fst ?_ (by with_reducible assumption))
    | (refine still_snd ?_ (by with_reducible assumption)) | (with_reducible intro x) | dsimp +zetaDelta only)

theorem State.endStep_still (s : State) (c : Cmd) (hs : s.still = K) : (State.endStep s c).still = K := by
  unfold State.endStep
  repeat' (first
    | (with_reducible first
        | assumption | refine still_foldl ?_ (fun x y hx => ?_) | refine still_foldl_fst ?_ (fun x y hx => ?_))
    | (extract_lets +onlyGivenNames t; refine still_cut (K := K) (t := t) ?_ ?_; all_goals first | (intro ht; clear_value t) | subst t)
    | extract_lets +onlyGivenNames t | split | (refine still_fst ?_ (by with_reducible assumption))
    | (refine still_snd ?_ (by with_reducible assumption)) | (with_reducible intro x) | dsimp +zetaDelta only)

end Sys2Proof.Machine
end

