-- ==== Sys2Proof/Laws/AdminLaws.lean ====
section
/-! SUPPORT. When an admin command runs, and what the queue-pair and key operations leave. -/

namespace Sys2Proof.Machine

theorem adminRun_can {s : State} {q cid op : Nat} {c : Cmd} (h : s.adminCan q cid op c) (f : State → Cmd → State) :
    s.adminRun q cid op f = f s c := by
  obtain ⟨h1, h2, h3, h4⟩ := h
  unfold State.adminRun
  rw [h1]; simp [h2, h3, h4]
theorem adminRun_none {s : State} {q cid op : Nat} (h : s.carried q cid op = none) (f : State → Cmd → State) :
    s.adminRun q cid op f = s := by unfold State.adminRun; rw [h]
theorem adminRun_waits {s : State} {q cid op : Nat} {c : Cmd} (h : s.carried q cid op = some c) (hw : c.waiting = true) (f : State → Cmd → State) :
    s.adminRun q cid op f = s := by unfold State.adminRun; rw [h]; simp [hw]
theorem adminRun_fails {s : State} {q cid op k : Nat} {c : Cmd} (h : s.carried q cid op = some c) (hw : c.waiting = false)
   (hf : lowest (s.ownOf q c.entry).fails = some k) (f : State → Cmd → State) :
    s.adminRun q cid op f = (s.finish c.seq stInvalidField k).flow := by unfold State.adminRun; rw [h]; simp [hw, hf]
theorem adminRun_absent {s : State} {q cid op : Nat} {c : Cmd} (h : s.carried q cid op = some c) (hw : c.waiting = false)
   (hf : lowest (s.ownOf q c.entry).fails = none) (ha : (s.ownOf q c.entry).absent = true) (f : State → Cmd → State) :
    s.adminRun q cid op f = (s.finish c.seq stUnitAbsent 0).flow := by unfold State.adminRun; rw [h]; simp [hw, hf, ha]
theorem adminRows_run (q cid : Nat) : ∀ x ∈ adminRows q cid, ∃ f, ∀ s, exec x.2 s = .next (s.adminRun q cid x.1 f) := by
  unfold adminRows
  simp only [List.forall_mem_cons]
  and_intros
  all_goals first | exact ⟨_, fun _ => rfl⟩ | exact fun _ h => absurd h List.not_mem_nil
theorem qp_setQp_ne (s : State) (q k : Nat) (x : Qp) (h : k ≠ q) : (s.setQp q x).qp k = s.qp k := by
  have : ∀ t : State, t.qpe = s.qpe → tblGet {} (tblPut ({} : Qp) t.qpe.qps q x) k = s.qp k := by
    intro t ht
    rw [ht]
    unfold tblGet tblPut State.qp tblGet
    split
    · rw [tblFind_del_ne h]
    · rw [tblFind_ins_ne h]
  unfold State.setQp
  dsimp only
  split
  · exact this s rfl
  · exact this _ rfl
theorem qp_setQp (s : State) (q : Nat) (x : Qp) (h : x ≠ {}) : (s.setQp q x).qp q = x := by
  unfold State.setQp
  dsimp only
  split <;> · unfold State.qp tblGet tblPut
              rw [if_neg h, tblFind_ins_self]; rfl
theorem setQp_rest (s : State) (q : Nat) (x : Qp) : (s.setQp q x).still = s.still ∧ (s.setQp q x).mem = s.mem ∧ (s.setQp q x).out = s.out
   ∧ (s.setQp q x).cls = s.cls ∧ (s.setQp q x).qpe.cmds = s.qpe.cmds := by
  unfold State.setQp
  dsimp only
  split <;> exact ⟨rfl, rfl, rfl, rfl, rfl⟩
theorem createQp_facts (s : State) (n : Nat) (x : Qp) (hx : x.state = .active) :
    (s.createQp n x).qp n = x ∧ (∀ k, k ≠ n → (s.createQp n x).qp k = s.qp k) ∧ (s.createQp n x).still = s.still
    ∧ (s.createQp n x).mem = s.mem ∧ (s.createQp n x).out = s.out ∧ (bitOf x.mask 0 = true → n ∈ (s.createQp n x).qpe.cache)
    ∧ (s.shaper x.tenant = none → (s.createQp n x).shaper x.tenant = some (newShaperEntry { s.cls.dflt with c0 := false, c0Port := 0, c0Group := 0 }))
    ∧ (∀ e, s.shaper x.tenant = some e → (s.createQp n x).cls = s.cls) := by
  have hne : x ≠ {} := by intro h; rw [h] at hx; cases hx
  have a1 := qp_setQp s n x hne
  have a2 := fun k hk => qp_setQp_ne s n k x hk
  obtain ⟨a3, a4, a5, a6, a7⟩ := setQp_rest s n x
  unfold State.createQp
  generalize s.setQp n x = t at *
  have key : ∀ w : State, w.qpe.qps = t.qpe.qps → w.still = t.still → w.mem = t.mem → w.out = t.out → w.cls = t.cls →
      (bitOf x.mask 0 = true → n ∈ w.qpe.cache) →
      ∀ v : State, v = (match w.shaper x.tenant with
        | some _ => w
        | none => w.setShaperEntry x.tenant (newShaperEntry { w.cls.dflt with c0 := false, c0Port := 0, c0Group := 0 })).touch →
      v.qp n = x ∧ (∀ k, k ≠ n → v.qp k = s.qp k) ∧ v.still = s.still
        ∧ v.mem = s.mem ∧ v.out = s.out ∧ (bitOf x.mask 0 = true → n ∈ v.qpe.cache)
        ∧ (s.shaper x.tenant = none → v.shaper x.tenant = some (newShaperEntry { s.cls.dflt with c0 := false, c0Port := 0, c0Group := 0 }))
        ∧ (∀ e, s.shaper x.tenant = some e → v.cls = s.cls) := by
    intro w h1 h2 h3 h4 h5 h6 v hv
    have hq : ∀ k, w.qp k = t.qp k := fun k => by unfold State.qp; rw [h1]
    have hsh : w.shaper x.tenant = s.shaper x.tenant := by unfold State.shaper; rw [h5, a6]
    rw [hsh] at hv
    have hd : w.cls.dflt = s.cls.dflt := by rw [h5, a6]
    rw [hd] at hv
    cases hs : s.shaper x.tenant with
    | none =>
      rw [hs] at hv
      subst hv
      refine ⟨(hq n).trans a1, fun k hk => (hq k).trans (a2 k hk), h2.trans a3, h3.trans a4, h4.trans a5, h6, fun _ => ?_, fun e h => absurd h (by simp)⟩
      exact tblFind_ins_self _ _ _
    | some e =>
      rw [hs] at hv
      subst hv
      refine ⟨(hq n).trans a1, fun k hk => (hq k).trans (a2 k hk), h2.trans a3, h3.trans a4, h4.trans a5, h6, fun h => absurd h (by simp), fun e h => h5.trans a6⟩
  split
  · refine key ((t.useContext n).setReg .qpeCtxMiss (t.reg .qpeCtxMiss)) ?_ ?_ ?_ ?_ ?_ ?_ _ rfl
    iterate 5 (· unfold State.useContext State.count; dsimp only; split <;> rfl)
    · intro _
      unfold State.useContext State.count; dsimp only
      split
      · exact List.mem_cons_self
      · split
        · exact List.mem_cons_self
        · split
          · next p hp =>
            have := List.find?_some hp
            simp only [Bool.and_eq_true, bne_iff_ne, ne_eq] at this
            refine List.mem_filter.mpr ⟨List.mem_cons_self, ?_⟩
            simp only [bne_iff_ne, ne_eq]
            exact fun e => this.1 e.symm
          · exact List.mem_cons_self
  · next hb => exact key t rfl rfl rfl rfl rfl (fun h => absurd h hb) _ rfl
theorem dropFetch_keeps (s : State) (q : Nat) : (s.dropFetch q).qpe = s.qpe ∧ (s.dropFetch q).still = s.still
    ∧ (s.dropFetch q).mem = s.mem := ⟨rfl, rfl, rfl⟩
/-- What a reset or a deletion does to a queue pair that lives and is not draining. -/
theorem resetReach_live (s : State) (q : Nat) (k : DrainKind) (h1 : (s.qp q).state ≠ .free) (h2 : (s.qp q).state ≠ .draining) :
    ∃ (u : State) (fin : List Cmd) (n : Nat),
      s.resetReach q k = (fin.foldl (fun s d => if d.noIssue ∧ !d.past then s.endUnissued d.unready stAbortedReset
          else s.lostCompletion d.unready) u).touch.settle
      ∧ fin = ((s.cmdsOf q).filter fun d => d.phase == .finished)
      ∧ n = (fin.filter fun d => d.ready.isSome).length
      ∧ u.qp q = { s.qp q with
          state := .draining, fetch := none, fetchSegs := [], inl := [], unwritten := 0
          reserved := (s.qp q).reserved + n
          post := ((s.qp q).post + (s.qp q).cqSize - n) % (s.qp q).cqSize
          phase := if (s.qp q).post < n then !(s.qp q).phase else (s.qp q).phase
          drain := some { kind := k, count := (s.qp q).unwritten } }
      ∧ (∀ j, j ≠ q → u.qp j = s.qp j) ∧ u.still = s.still ∧ u.mem = s.mem := by
  unfold State.resetReach
  dsimp only
  rw [if_neg h1, if_neg h2]
  refine ⟨_, _, _, rfl, rfl, rfl, ?_⟩
  generalize hx : ({ s.qp q with
          state := .draining, fetch := none, fetchSegs := [], inl := [], unwritten := 0
          reserved := _
          post := _
          phase := _
          drain := some { kind := k, count := (s.qp q).unwritten } } : Qp) = x
  have hne : x ≠ {} := by rw [← hx]; intro e; have := congrArg Qp.state e; cases this
  have b1 := qp_setQp s q x hne
  have b2 := fun j hj => qp_setQp_ne s q j x hj
  obtain ⟨b3, b4, -⟩ := setQp_rest s q x
  generalize s.setQp q x = w at *
  obtain ⟨d1, d2, d3⟩ := dropFetch_keeps w q
  generalize w.dropFetch q = v at *
  have e1 : ∀ (y : State) j, y.qpe.qps = w.qpe.qps → y.qp j = w.qp j := fun y j h => by unfold State.qp; rw [h]
  refine ⟨(e1 _ q ?_).trans b1, fun j hj => (e1 _ j ?_).trans (b2 j hj), d2.trans b3, d3.trans b4⟩
  all_goals exact show v.qpe.qps = w.qpe.qps from congrArg _ d1
theorem withBuffer_in {s : State} {c : Cmd} {b : Bytes} (h : s.bufferIn c b) (f : State → Cmd → Bytes → State) :
    s.withBuffer c f = f s c b := by
  obtain ⟨h1, h2, h3, rfl⟩ := h
  unfold State.withBuffer
  have hp : c.pull.isNone = false := by cases hc : c.pull <;> simp_all
  have hu : s.pullTo c.seq (eLen c.entry) = s := by
    unfold State.pullTo
    rw [h1]
    dsimp only
    rw [if_pos]
    cases hc : c.pull <;> simp_all
  simp only [hp, hu, h1, h3]
  simp

end Sys2Proof.Machine
end

