-- ==== Sys2Proof/Laws/NetAdminLaws.lean ====
section
/-! SUPPORT. The admin commands and captures of shapers, addresses and connections. -/

namespace Sys2Proof.Machine

theorem shaper_setEntry (s : State) (t : Nat) (e : ShaperEntry) : (s.setShaperEntry t e).shaper t = some e := tblFind_ins_self _ _ _
theorem shaper_setEntry_ne (s : State) (t k : Nat) (e : ShaperEntry) (h : k ≠ t) : (s.setShaperEntry t e).shaper k = s.shaper k :=
  tblFind_ins_ne h _ _
theorem whenOn_on {s : State} {i : Nat} (h : s.readsOn i = true) (f : State → State) : s.whenOn i f = f s := by
  unfold State.whenOn; rw [if_pos h]
theorem whenOn_off {s : State} {i : Nat} (h : s.readsOn i = false) (f : State → State) : s.whenOn i f = s := by
  unfold State.whenOn; rw [if_neg (by simp [h])]
theorem ite_flip {α : Type} (b : Bool) (x y : α) : (if (!b) = true then x else y) = if b = true then y else x := by cases b <;> rfl
theorem shaperCommit_eq (s : State) (w : Nat) : s.shaperCommit w =
    let m := s.setReg .clsShpCfg (w % 2 ^ 24 - bitsOf w 12 10 * 2 ^ 10)
    let d := bitOf (m.reg .clsShpSel) 31
    let t := bitsOf (m.reg .clsShpSel) 19 0
    let room := match m.shaper t with
      | some x => x.written || decide (m.writtenShapers < m.qpCount)
      | none => decide (m.writtenShapers < m.qpCount)
    if ((m.shaperFails m.stagedShaper).isEmpty
      && (if d then !m.stagedShaper.c0 else t != 0 && room && (!m.stagedShaper.c0 || m.chargeFits (m.chargedOf t) m.stagedShaper))) = true
    then (if d then (m.setField .clsShpState 30 30 0).setDefaults m.stagedShaper
      else (m.setField .clsShpState 30 30 0).applyShaper t m.stagedShaper)
    else m.setField .clsShpState 30 30 1 := by
  unfold State.shaperCommit
  dsimp only
  rw [ite_flip]
  all_goals
    generalize (s.setReg .clsShpCfg (w % 2 ^ 24 - bitsOf w 12 10 * 2 ^ 10)).shaper
      (bitsOf ((s.setReg .clsShpCfg (w % 2 ^ 24 - bitsOf w 12 10 * 2 ^ 10)).reg .clsShpSel) 19 0) = x
    cases x <;> rfl

end Sys2Proof.Machine
end

