-- ==== Sys2Proof/Laws/BootLaws.lean ====
section
/-! SUPPORT. Resets, configuration records, the console and the switch of a cluster. -/

namespace Sys2Proof.Machine

/-- The start-up that follows a reset, by what the ROM's choice answers (R660, R667). -/
theorem startUp_of {b u : State} (hu : u = (((List.range 168).foldl State.bringUp b.romStep.1).stepFour.setReg .sysMode 0).setField .sysBoot 31 28 7) :
    b.startUp = if b.romStep.2 then ({ u with sys := { u.sys with started := true, serviceAt := some u.now } } : State).stepSix.stepNine else b.romStep.1 := by
  unfold State.startUp
  generalize b.romStep = r at hu ⊢
  obtain ⟨r, ok⟩ := r
  cases ok
  · rfl
  · dsimp only at hu ⊢; rw [if_pos rfl, hu]
/-- SYS_RST with ORDERLY where it acts (R679). -/
theorem rstOrderly_acts {s : State} {req : Requester} {v : Word} (h : s.sysDown req = false) (hk : rstKey req v.toNat = true) (hb : bitOf v.toNat 30 = true)
    (ho : s.sys.orderly = none) : exec (.sysRstOrderly req v) s = .next (s.orderlyBegin 4).orderlyStep := by
  show execSysRstOrderly req v s = _
  unfold execSysRstOrderly
  rw [if_neg (by rw [h]; decide)]
  unfold State.rstOrderly
  rw [if_pos (by rw [hk, hb, ho]; rfl)]

end Sys2Proof.Machine
end

