-- ==== Sys2Proof/Laws/QueueLaws.lean ====
section
/-! SUPPORT. Doorbells, ring fetches and the completion commands of a queue pair. -/

namespace Sys2Proof.Machine

theorem noQp_state {s : State} {q : Nat} (h : s.noQp q = false) : q < s.qpCount ∧ (s.qp q).state ≠ .free ∧ (s.qp q).state ≠ .draining := by
  unfold State.noQp at h
  simp only [Bool.or_eq_false_iff, decide_eq_false_iff_not, beq_eq_false_iff_ne] at h
  exact ⟨by omega, h.1.2, h.2⟩
theorem qp_ne_default {x : Qp} (h : x.state ≠ .free) : x ≠ {} := fun e => h (by rw [e])
theorem slotWrite_in {s : State} {f q : Nat} (h1 : s.epf.linkUp = true) (h2 : s.funcEnabled f = true) (h3 : (s.epFunc f).mse = true)
    (h4 : s.foreign f q = false) (h5 : s.isOn 160 = true) (d : Door) (g : State → State) : s.slotWrite f q d g = g s := by
  unfold State.slotWrite State.atQpe; simp [h1, h2, h3, h4, h5]
theorem slotWrite_away {s : State} {f q : Nat} (h1 : s.epf.linkUp = true) (h2 : s.funcEnabled f = true) (h3 : (s.epFunc f).mse = true)
    (h4 : s.foreign f q = false) (h5 : s.isOn 160 = false) (d : Door) (g : State → State) : s.slotWrite f q d g =
      if (s.island 160).busy.isSome then { s with qpe := { s.qpe with doors := s.qpe.doors ++ [d] } }
      else s.emit (.refusedAtIsland 160) := by
  unfold State.slotWrite State.atQpe; simp [h1, h2, h3, h4, h5]
theorem slotWrite_foreign {s : State} {f q : Nat} (h1 : s.epf.linkUp = true) (h2 : s.funcEnabled f = true) (h3 : (s.epFunc f).mse = true)
    (h4 : s.foreign f q = true) (d : Door) (g : State → State) : s.slotWrite f q d g = s.count .epfDbForeign := by
  unfold State.slotWrite; simp [h1, h2, h3, h4]
theorem slotWrite_out {s : State} {f q : Nat} (h1 : s.epf.linkUp = true) (h2 : s.funcEnabled f = false ∨ (s.epFunc f).mse = false)
    (d : Door) (g : State → State) : s.slotWrite f q d g = s.emit (.unsupported 0) := by
  unfold State.slotWrite State.unsupported; rcases h2 with h2 | h2 <;> simp [h1, h2]
theorem useContext_rest (s : State) (q : Nat) : (s.useContext q).qpe.qps = s.qpe.qps ∧ (s.useContext q).mem = s.mem
    ∧ (s.useContext q).out = s.out ∧ (s.useContext q).still = s.still ∧ (s.useContext q).qpe.cmds = s.qpe.cmds
    ∧ (s.useContext q).variant = s.variant := by
  unfold State.useContext State.count
  dsimp only
  split <;> exact ⟨rfl, rfl, rfl, rfl, rfl, rfl⟩
theorem useContext_held (s : State) (q k : Nat) : (s.useContext q).heldOf k = s.heldOf k := by
  unfold State.heldOf State.cmdsOf
  rw [(useContext_rest s q).2.2.2.2.1]
theorem useContext_qp (s : State) (q k : Nat) : (s.useContext q).qp k = s.qp k := by
  unfold State.qp
  rw [(useContext_rest s q).1]
/-- A context found for use and then written: that queue pair is the one written, and nothing else of the state that R53 names moves. -/
theorem useContext_setQp (s : State) (q : Nat) {x : Qp} (hx : x ≠ {}) : ((s.useContext q).setQp q x).qp q = x
    ∧ (∀ k, k ≠ q → ((s.useContext q).setQp q x).qp k = s.qp k) ∧ ((s.useContext q).setQp q x).still = s.still
    ∧ ((s.useContext q).setQp q x).mem = s.mem ∧ ((s.useContext q).setQp q x).out = s.out := by
  obtain ⟨a, b, c, -, -⟩ := setQp_rest (s.useContext q) q x
  obtain ⟨-, d, e, f, -⟩ := useContext_rest s q
  exact ⟨qp_setQp _ _ _ hx, fun k hk => (qp_setQp_ne _ _ _ _ hk).trans (useContext_qp s q k), a.trans f, b.trans d, c.trans e⟩
theorem inlineDb_ok {s : State} {q : Nat} (hn : s.noQp q = false) (hst : (s.qp q).state ≠ .error)
    (hr : ringCount (s.qp q).head (s.qp q).tail (s.qp q).sqSize < (s.qp q).sqSize - 1) (hh : (s.heldOf q).length < 4) (e : Bytes) :
    ∃ h, s.inlineDb q (((s.qp q).tail + 1) % (s.qp q).sqSize) e 0 = (((s.useContext q).setQp q { s.qp q with
      tail := ((s.qp q).tail + 1) % (s.qp q).sqSize, inl := (s.qp q).inl ++ [((s.qp q).tail, e, 0)] }).pump q, .applied, h) := by
  unfold State.inlineDb
  dsimp only
  rw [if_neg (by simp [hn]), if_neg hst, if_neg (by simp [hr]), if_neg (by rw [useContext_held]; omega)]
  exact ⟨_, rfl⟩
theorem inlineDb_refused {s : State} {q : Nat} (hn : s.noQp q = false) (hst : (s.qp q).state ≠ .error)
    (hr : ringCount (s.qp q).head (s.qp q).tail (s.qp q).sqSize < (s.qp q).sqSize - 1) (hh : 4 ≤ (s.heldOf q).length) (e : Bytes) :
    s.inlineDb q (((s.qp q).tail + 1) % (s.qp q).sqSize) e 0 = ((s.useContext q).clsCount .clsInlRefused (s.qp q).tenant 3, .refused, false) := by
  unfold State.inlineDb
  dsimp only
  rw [if_neg (by simp [hn]), if_neg hst, if_neg (by simp [hr]), if_pos (by rw [useContext_held]; exact hh)]
theorem pump_variant (s : State) (q : Nat) : (s.pump q).variant = s.variant :=
  have h := State.syncAll_still _ (State.settle_still _ (State.takeInline_still (s.qp q).inl.length q s (K := s.still) rfl))
  congrArg Still.variant h
theorem qp_of_qpe {s t : State} (h : t.qpe = s.qpe) {q : Nat} : t.qp q = s.qp q := by unfold State.qp; rw [h]
theorem clsCount_qpe (s : State) (r : Reg) (t i : Nat) : (s.clsCount r t i).qpe = s.qpe ∧ (s.clsCount r t i).variant = s.variant := by
  unfold State.clsCount
  dsimp only
  split <;> exact ⟨rfl, rfl⟩
theorem fetchCount_le (s : State) (q : Nat) : s.fetchCount q ≤ min (min (4 - s.mayHold q) (ringCount (s.qp q).head (s.qp q).tail (s.qp q).sqSize)) (min ((s.qp q).sqSize - (s.qp q).head) (s.qp q).freeSlots)
   ∧ ∀ i, i < s.fetchCount q → ∀ e ∈ (s.qp q).inl, e.1 ≠ (s.qp q).head + i := by
  unfold State.fetchCount
  dsimp only
  split
  · next i h =>
    have hm := List.mem_of_find?_eq_some h
    refine ⟨by have := List.mem_range.mp hm; omega, fun j hj e he hh => ?_⟩
    have hm' := List.mem_range.mp hm
    have := List.find?_range_eq_some.mp h
    have := this.2.2 j hj
    simp only [Bool.not_eq_true', List.any_eq_false, beq_iff_eq] at this
    exact this e he hh
  · next h =>
    refine ⟨Nat.le_refl _, fun j hj e he hh => ?_⟩
    have := List.find?_eq_none.mp h j (List.mem_range.mpr hj)
    exact this (List.any_eq_true.mpr ⟨e, he, by simpa using hh⟩)
/-- The read of the ring that `ENTRY_FETCH` asks for. -/
def entryAsk (a q : Nat) (x : Qp) (n : Nat) (s : State) : State :=
      match (s.keyAt (keyIndex x.sqMkey)).kind with
      | 0 =>
        if s.funcSends ((s.keyAt (keyIndex x.sqMkey)).binding % 64) then s.epRead ((s.keyAt (keyIndex x.sqMkey)).binding % 64) ((s.keyAt (keyIndex x.sqMkey)).target + (a - (s.keyAt (keyIndex x.sqMkey)).base)) (64 * n) fun o => .fetch q o
        else s.masterDisabled ((s.keyAt (keyIndex x.sqMkey)).binding % 64) none
      | 1 =>
        (s.setOdt ((s.keyAt (keyIndex x.sqMkey)).binding % 2 ^ 16) { s.odtConn ((s.keyAt (keyIndex x.sqMkey)).binding % 2 ^ 16) with asks := (s.odtConn ((s.keyAt (keyIndex x.sqMkey)).binding % 2 ^ 16)).asks ++ [{ seq := 0, qp := q, slots := some (x.head, n) }] }).odtCtl ((s.keyAt (keyIndex x.sqMkey)).binding % 2 ^ 16) q 0 (.fetchReq x.head n) x.baseClass
      | _ => s.updQp q fun y => { y with fetchSegs := [(0, s.mem.readN (s.devAddr y.sqMkey a) (64 * n))] }
theorem entryAsk_eq (a q : Nat) (x : Qp) (n : Nat) (s : State) : (
      let k := s.keyAt (keyIndex x.sqMkey)
      match k.kind with
      | 0 =>
        let f := k.binding % 64
        if s.funcSends f then s.epRead f (k.target + (a - k.base)) (64 * n) fun o => .fetch q o
        else s.masterDisabled f none
      | 1 =>
        let c := k.binding % 2 ^ 16
        let y := s.odtConn c
        let ask : OdtAsk := { seq := 0, qp := q, slots := some (x.head, n) }
        (s.setOdt c { y with asks := y.asks ++ [ask] }).odtCtl c q 0 (.fetchReq x.head n) x.baseClass
      | _ => s.updQp q fun x => { x with fetchSegs := [(0, s.mem.readN (s.devAddr x.sqMkey a) (64 * n))] }) = entryAsk a q x n s := by
  dsimp only
  by_cases h0 : (s.keyAt (keyIndex x.sqMkey)).kind = 0
  · simp only [entryAsk, h0]
  · by_cases h1 : (s.keyAt (keyIndex x.sqMkey)).kind = 1
    · simp only [entryAsk, h1]
    · obtain ⟨n, hn⟩ : ∃ n, (s.keyAt (keyIndex x.sqMkey)).kind = n + 2 := ⟨(s.keyAt (keyIndex x.sqMkey)).kind - 2, by omega⟩
      simp only [entryAsk, hn]
theorem updFirst_find {α : Type} (p : α → Bool) (f : α → α) (h : ∀ x, p x = true → p (f x) = true) (l : List α) (c : α)
    (hc : l.find? p = some c) : (updFirst p f l).find? p = some (f c) := by
  induction l with
  | nil => cases hc
  | cons a l ih =>
    unfold updFirst
    by_cases hp : p a = true
    · rw [if_pos hp]
      simp only [List.find?_cons, hp] at hc
      cases hc
      simp [h _ hp]
    · rw [if_neg hp]
      simp only [List.find?_cons, hp] at hc ⊢
      exact ih hc
theorem cmd_updCmd {s : State} {c : Cmd} {seq : Nat} (hc : s.cmd seq = some c) (f : Cmd → Cmd) (hf : ∀ x, (f x).seq = x.seq) :
    (s.updCmd seq f).cmd seq = some (f c) := by
  unfold State.cmd State.updCmd
  exact updFirst_find _ _ (fun x hx => by simpa [hf] using hx) _ _ hc
theorem advanceGnm_cls (s : State) (n : Nat) : (s.advanceGnm n).cls = s.cls := by
  unfold State.advanceGnm State.advance; split <;> rfl
theorem policerRefill_eq (s : State) : s.policerRefill = (s.advanceGnm ((s.cls.refilled + 1) * 1000)).refillAll
    ((s.advanceGnm ((s.cls.refilled + 1) * 1000)).gnmNs / 1000 - (s.advanceGnm ((s.cls.refilled + 1) * 1000)).cls.refilled)
    ((s.advanceGnm ((s.cls.refilled + 1) * 1000)).gnmNs / 1000 - (s.advanceGnm ((s.cls.refilled + 1) * 1000)).cls.refilled) := by
  unfold State.policerRefill
  dsimp only

end Sys2Proof.Machine
end

