-- ==== Sys2Proof/Laws/ClassSevenLaws.lean ====
section
/-! SUPPORT. The Class 7 work of the array and the captures of rows and key slots. -/

namespace Sys2Proof.Machine

theorem setReg_group (s : State) (r : Reg) (n k : Nat) : (s.setReg r n).group k = s.group k := rfl
theorem setReg_pair (c : State) (r : Reg) (f : Nat → Nat → Nat) {p : Nat × Nat} {x y : Nat} (h : p = (x, y)) :
    (match p with | (slot, layer) => c.setReg r (f slot layer)) = c.setReg r (f x y) := by
  subst h
  rfl
theorem rowCapture_some {s : State} {w gi i l : Nat} {g : Group} (hgi : gi = bitsOf w 29 24) (hi : i = bitsOf w 12 0)
    (hg : s.group gi = some g) (hl : g.seq[i]? = some l) : s.rowCapture w = (s.setReg .strRowSel (gi * 2 ^ 24 + i)).setReg
      .strRowData (2 ^ 31 + g.slots.getD l 0 * 2 ^ 16 + (i / g.w) % 2 ^ 7) := by
  subst hgi hi
  refine setReg_pair (s.setReg .strRowSel (bitsOf w 29 24 * 2 ^ 24 + bitsOf w 12 0)) .strRowData (fun a b => 2 ^ 31 + a * 2 ^ 16 + b % 2 ^ 7) ?_
  rw [setReg_group, hg]
  dsimp only
  rw [hl]
theorem rowCapture_none {s : State} {w gi i : Nat} (hgi : gi = bitsOf w 29 24) (hi : i = bitsOf w 12 0)
    (hn : s.group gi = none ∨ ∃ g, s.group gi = some g ∧ g.seq[i]? = none) : s.rowCapture w = (s.setReg .strRowSel
      (gi * 2 ^ 24 + i)).setReg .strRowData (2 ^ 31 + 0x3F * 2 ^ 16 + 0x7F % 2 ^ 7) := by
  subst hgi hi
  refine setReg_pair (s.setReg .strRowSel (bitsOf w 29 24 * 2 ^ 24 + bitsOf w 12 0)) .strRowData (fun a b => 2 ^ 31 + a * 2 ^ 16 + b % 2 ^ 7) ?_
  rcases hn with hn | ⟨g, hg, hl⟩
  · rw [setReg_group, hn]
  · rw [setReg_group, hg]
    dsimp only
    rw [hl]
theorem keyCapture_none {s : State} {w i : Nat} (hi : i = bitsOf w 13 0) (hn : s.keySlot i = none) : s.keyCapture w
    = ((((s.setReg .cphKeySel i).setReg .cphKeyState (2 ^ 31 + 0)).setReg .cphKeyCount 0).setReg .cphKeyLimit 0).setReg .cphKeyMark 0 := by
  unfold State.keyCapture
  rw [← hi]
  extract_lets x a put
  rw [show a.keySlot x = none from hn]
theorem keyCapture_some {s : State} {w i : Nat} {k : KeySlot} {off on : Bool} (hi : i = bitsOf w 13 0) (hk : s.keySlot i = some k)
    (ho : off = (tblFind s.cph.walks k.volume).any fun w => w.old == i) (hn : on = (tblFind s.cph.walks k.volume).any fun w => w.new == i) :
    s.keyCapture w = ((((s.setReg .cphKeySel i).setReg .cphKeyState (2 ^ 31 + (2 ^ 30 + 2 ^ 29 * b2n k.xts
        + 2 ^ 28 * k.phase + 2 ^ 27 * b2n off + 2 ^ 26 * b2n on + k.volume))).setReg .cphKeyCount k.count).setReg
          .cphKeyLimit k.limit).setReg .cphKeyMark k.mark := by
  subst hi ho hn
  unfold State.keyCapture
  extract_lets x a put
  rw [show a.keySlot x = some k from hk]
  rfl
theorem sweepStep_eq {s : State} {gi : Nat} {g : Group} {sw : Sweep} {mv : List Spare} {rows : List Nat} {stOf : Spare → Nat}
    (hg : s.group gi = some g) (hsw : g.sweep = some sw) (hmv : mv = (s.sweepMoves g sw).mergeSort fun a b => decide (a.row ≤ b.row))
    (hst : stOf = fun x => sw.period * g.rows + x.row) (hrows : rows = ((mv.map stOf).eraseDups).filter fun st => decide (st < g.usedStripes))
    (h1 : s.serves = true) (h2 : (s.str.opens.any fun o => o.group == gi && o.writer == .sweep) = false)
    (h3 : (s.str.mem.any fun m => m.who == .sweepZero gi) = false) (h4 : (rows.any fun st => !s.bgCan gi st || g.inScope st) = false)
    (h5 : s.rebuildRate true ≠ 0)
    (h6 : paceOk s.str.paced (s.rebuildRate true) (costOf (storedBytes g.format1) (mv.map fun x => (x.slot, 16))) = true) :
    s.sweepStep gi = match (rows.map g.regionOf).eraseDups.foldl
        (fun (a : State × Bool) x => ((a.1.bgAdmit gi x).1, a.2 && (a.1.bgAdmit gi x).2)) (s, true) with
      | (u, ok) => if !ok then u else
          (((rows.foldl (fun s st => ((s.noteOpen g gi st).touch).stripeAdvance gi st)
            ({ u with str := { u.str with opens := u.str.opens ++ rows.map fun st =>
              { group := gi, stripe := st, writer := .sweep, method := g.bgMethod, positions := ((mv.filter fun x => stOf x == st).map fun x => (x.pos, x.slot, g.chunkLba sw.period x.layer)).map (·.1), epoch := u.shd.epoch, fills := (mv.filter fun x => stOf x == st).map fun x => (x.pos, x.slot, g.chunkLba sw.period x.layer) } } } : State)).sweepCheck gi).flow) := by
  unfold State.sweepStep
  simp only [hg, hsw]
  subst hst hrows hmv
  rw [if_neg (by simp [h1, h2, h3]), if_neg (by simp only [h4, h5, h6]; decide)]

end Sys2Proof.Machine
end

