-- ==== Sys2Proof/Laws/CrossbarGnomonLaws.lean ====
section
/-! SUPPORT. The crossbar's slot, its partition capture and the Prism tap; Gnomon's edges, windows and seconds; the housekeeping edge. -/

namespace Sys2Proof.Machine

theorem setField_gnm (s : State) (r : Reg) (hi lo v i : Nat) : (s.setField r hi lo v i).gnm = s.gnm := by
  unfold State.setField State.setReg
  rfl

end Sys2Proof.Machine
end

