-- ==== Sys2Proof/Laws/DriveLaws.lean ====
section
/-! SUPPORT. The events of a drive and its link, and the assembly deadline. -/

namespace Sys2Proof.Machine

theorem driveReady_eq {s w v : State} {sl : Nat} {id : DriveId} {l : Bytes} {rd : BitmapReads} (h1 : sl < Config.slots s.variant)
    (h2 : s.readsOn (32 + sl) = true) (h3 : (tblGet ({} : Slot) s.spm.slots sl).perstOff = true) (h5 : parseLabel l = none)
    (hw : w = (s.setDrive sl { ready := true, linkUp := true, id, label := none }).emit (.driveCtl sl "REGISTER"))
    (h4 : tblFind w.shd.acquiring sl = none) (hv : v = { w with str := { w.str with
      bitmaps := rd ++ w.str.bitmaps.filter fun x => !(rd.any fun y => y.1 == x.1 && y.2.1 == x.2.1) } }) :
    s.driveBecomesReady sl id l rd = if v.shd.role = Role.shadow then v else
      match v.member sl with
      | none => v
      | some m =>
        match v.group m.group with
        | none => v
        | some g =>
          if g.online then (if v.serves then (v.driveArrived m.group sl).flow else v)
          else if (v.groupRecord m.group).isNone then v
          else if v.sys.deadlinePassed then (v.tryAssemble m.group v.str.bitmaps false).flow
          else if g.slots.all fun x => (v.drive x).ready then (v.tryAssemble m.group v.str.bitmaps true).flow
          else v := by
  unfold State.driveBecomesReady
  extract_lets p
  rw [if_neg (by simp only [Nat.not_le.mpr h1, h2, show p = true from h3]; decide)]
  rename_i lab w0 w1 w2 w3 sr v' rd'
  have el : lab = none := h5
  have e1 : w1 = w := by
    rw [hw]
    simp only [w1, w0, el]
  have e2 : w2 = w := by
    simp only [w2, e1, h4]
    rfl
  have e3 : w3 = w := by simp only [w3, el, e2]
  have e4 : v' = v := by
    rw [hv]
    simp only [v', sr, e3]
  simp only [rd', e4]
  all_goals rfl

end Sys2Proof.Machine
end

