-- ==== Sys2Proof/Laws/EndpointLaws.lean ====
section
/-! SUPPORT. The endpoint face: the peer window, MSI-X, withdrawal and reset of functions, tags and the link. -/

namespace Sys2Proof.Machine

theorem peerTlp_on {s : State} {off rid n : Nat} {b : Bytes} {wr : Bool} {ap : Aperture} (ha : ap = tblGet {} s.epf.force (off / 2 ^ 24))
    (he : (s.epf.linkUp && (s.epFunc 0).mse && decide (off < 2 ^ 30)) = true) : s.peerTlp off rid wr n b =
      if !(ap.en && ap.reqId == rid) then s.winDrop
      else if ap.data then
        if !wr then s.winDrop
        else
          let k := s.keyAt (keyIndex ap.mkey)
          if s.keyOk ap.mkey true (ap.off + off % 2 ^ 24) b.length && k.kind == 3 && bitOf k.access 2 then
            s.storeStaged (s.devAddr ap.mkey (ap.off + off % 2 ^ 24)) (b.length + 1) b
          else (s.count .mmuKeyFail).winDrop
      else if s.bar0Size < ap.off + off % 2 ^ 24 + (if wr then b.length else n) then s.winDrop
      else if wr then s.barWrite ap.func (ap.off + off % 2 ^ 24) b
      else if s.funcEnabled ap.func && (s.epFunc ap.func).mse then s.emit (.winRead (s.barRead ap.func (ap.off + off % 2 ^ 24) n))
      else s.unsupported 1 := by
  unfold State.peerTlp
  rw [if_neg (by rw [he]; decide), ← ha]

end Sys2Proof.Machine
end

