-- ==== Sys2Proof/Laws/FabricLaws.lean ====
section
/-! SUPPORT. The register fabric: writes, reads, posted and stalled accesses, the mode and snapshots. -/

namespace Sys2Proof.Machine

theorem whenAwake_on {s : State} (h : s.glm.asleep = false) (f : State → State) : s.whenAwake f = .next (f s) :=
  congrArg Host.Outcome.next (if_neg (by rw [h]; decide))
theorem whenAwake_off {s : State} (h : s.glm.asleep = true) (f : State → State) : s.whenAwake f = .next s :=
  congrArg Host.Outcome.next (if_pos h)
theorem wsync_at : regAt (Reg.off .sysWsync) = some (.sysWsync, 0, false) := by decide +kernel
theorem fabRead_wsync {s : State} {req : Requester} (h : s.isStalled req = false) : s.fabRead req (Reg.off .sysWsync) none
    = (s.wsync req).1.emit (.readData req (Reg.off .sysWsync) (s.wsync req).2) := by
  have e : s.servedNow (Reg.off .sysWsync) = true := by
    unfold State.servedNow
    rw [wsync_at]
    dsimp only
    rw [show Reg.owner .sysWsync 0 = 165 by decide +kernel]
    rfl
  have r : s.readWord req (Reg.off .sysWsync) none true = s.wsync req := by
    unfold State.readWord
    dsimp only
    rw [wsync_at]
    rfl
  unfold State.fabRead
  rw [if_neg (by rw [h]; decide), if_pos e, r]
theorem fabRead_eq {s : State} {req : Requester} {off : Nat} {al : Option Nat} (h : s.isStalled req = false) :
    (s.servedNow off = true → s.fabRead req off al = (s.readWord req off al true).1.emit (.readData req off (s.readWord req off al true).2))
    ∧ (s.servedNow off = false → s.fabRead req off al = { s with fab := { s.fab with
        stalled := s.fab.stalled ++ [{ req, off, op := none, aliasBit := al, since := s.now }] } }) := by
  unfold State.fabRead
  rw [if_neg (by rw [h]; decide)]
  exact ⟨fun e => by rw [if_pos e], fun e => by rw [if_neg (by rw [e]; decide)]⟩
theorem fabWrite_eq {s : State} {req : Requester} {off : Nat} {op : RegOp} {r : Reg} {i : Nat} {up : Bool} (h : s.isStalled req = false)
    (hr : regAt off = some (r, i, up)) (ha : s.absentReg r i = false) : s.fabWrite req off op =
      match op, r.info.wide with
      | .word v, true =>
        let rest := s.fab.held.filter fun e => !(e.1 == req && e.2.1 == r.off i)
        if up then
          match s.fab.held.find? (fun e => e.1 == req && e.2.1 == r.off i) with
          | some e => ({ s with fab := { s.fab with held := rest } } : State).submit req r i false (r.off i) (.wide e.2.2 v)
          | none => s.submit req r i true off op
        else { s with fab := { s.fab with held := rest ++ [(req, r.off i, v)] } }
      | _, _ => s.submit req r i up off op := by
  unfold State.fabWrite
  rw [if_neg (by rw [h]; decide), hr]
  dsimp only
  rw [if_neg (by rw [ha]; decide)]
  all_goals (cases op <;> cases r.info.wide <;> rfl)
theorem registerWrite_awake {s : State} (req : Requester) (off : Nat) (v : Word) (h : s.glm.asleep = false) : exec (.registerWrite req off v) s
    = .next (if off % 4 ≠ 0 then s.unmappedAt req off else s.fabWrite req off (.word v.toNat)) := by
  show execRegisterWrite req off v s = _
  unfold execRegisterWrite
  exact whenAwake_on h _
theorem aliasWrite_awake {s : State} (req : Requester) (off bit : Nat) (v : Word) (h : s.glm.asleep = false) : exec (.aliasWrite req off bit v) s
    = .next (if off % 4 ≠ 0 then s.unmappedAt req off else if bit < 32 then s.fabWrite req off (.bit bit (bitOf v.toNat 0)) else s) := by
  show execAliasWrite req off bit v s = _
  unfold execAliasWrite
  exact whenAwake_on h _
theorem rcRead_awake {s : State} (req : Requester) (off : Nat) (al : Option Nat) (h : s.glm.asleep = false) : exec (.rcRead req off al) s
    = .next (if off % 4 ≠ 0 then s.unmappedAt req off else match regAt off, al with
        | some (.icuClaim, k, _), none => if s.isStalled req then s else s.icuClaim req k
        | _, _ => s.fabRead req off al) := by
  show execRcRead req off al s = _
  unfold execRcRead
  exact whenAwake_on h _
theorem sysWsync_awake {s : State} (req : Requester) (h : s.glm.asleep = false) : exec (.sysWsync req) s
    = .next (s.fabRead req (Reg.off .sysWsync) none) := by
  show execSysWsync req s = _
  unfold execSysWsync
  exact whenAwake_on h _
theorem sysMode_awake {s : State} (req : Requester) (v : Word) (h : s.glm.asleep = false) : exec (.sysMode req v) s
    = .next (if s.isStalled req then s else s.setMode req (v.toNat % 4)) := by
  show execSysMode req v s = _
  unfold execSysMode
  exact whenAwake_on h _
theorem sysSnap_awake {s : State} (v : Word) (h : s.glm.asleep = false) : exec (.sysSnap v) s
    = .next (if bitOf v.toNat 31 then s.snapGo else s) := by
  show execSysSnap v s = _
  unfold execSysSnap
  exact whenAwake_on h _
theorem postedWriteApply_awake {s : State} (req : Requester) (isl : Nat) (h : s.glm.asleep = false) : exec (.postedWriteApply req isl) s
    = .next (s.postedApply req isl) := by
  show execPostedWriteApply req isl s = _
  unfold execPostedWriteApply
  exact whenAwake_on h _
theorem busErrorTimeout_awake {s : State} (req : Requester) (h : s.glm.asleep = false) : exec (.busErrorTimeout req) s
    = .next (s.busErrorAfter req) := by
  show execBusErrorTimeout req s = _
  unfold execBusErrorTimeout
  exact whenAwake_on h _

end Sys2Proof.Machine
end

