-- ==== Sys2Proof/Laws/FabricsLaws.lean ====
section
/-! SUPPORT. The NVMe over Fabrics admin queue: Connect, properties, Identify, features, Keep Alive and Abort. -/

namespace Sys2Proof.Machine

theorem onAdminQueue_on {s : State} {k : Nat} {c : RoceConn} {f : RoceConn → State} (h : s.roceLive k = some c)
    (hq : c.qid = some 0) : s.onAdminQueue k f = f c := by
  unfold State.onAdminQueue
  rw [h]
  exact if_pos hq

end Sys2Proof.Machine
end

