-- ==== Sys2Proof/Laws/FacetLaws.lean ====
section
/-! SUPPORT. A Facet instruction that is fetched: what its body does, retired or trapped. -/

namespace Sys2Proof.Machine

theorem instr_body {s f : State} {e t : Nat} {g : Guard} (h : s.issues e t g f) (body : State → Res) :
    s.instr e t g false body = match body f with
      | .trap u tr => u.trapTo e t tr
      | .retire u target => u.retire e t target
      | .hold u => u
      | .cut u => u := by
  obtain ⟨⟨h1, h2, h3, h4, h5, u, pa, h6, rfl⟩, h7, h8⟩ := h
  unfold State.instr
  dsimp only
  rw [if_neg (by simp [h1, h2, h3, h4]), if_neg (by simp [h5]), h6]
  simp only [State.cutOk, Option.filter, h8, h7, if_true, Bool.false_eq_true, if_false]
  all_goals (cases body (u.fetchLine e t pa) <;> rfl)
theorem instr_pre (s : State) (e t : Nat) (g : Guard) (body : State → Res) (c : Bool) :
    s.instr e t g false body none c = s.instr e t g false body := by
  unfold State.instr State.cutOk
  rfl
theorem instr_illegal {s f : State} {e t : Nat} (h : s.fetched e t f) (g : Guard) (body : State → Res) :
    s.instr e t g true body = f.trapTo e t ⟨0x01, none⟩ := by
  obtain ⟨h1, h2, h3, h4, h5, u, pa, h6, rfl⟩ := h
  unfold State.instr
  dsimp only
  rw [if_neg (by simp [h1, h2, h3, h4]), if_neg (by simp [h5]), h6]
  simp only [State.cutOk, Option.filter, if_true]
theorem instr_off {s f : State} {e t : Nat} {g : Guard} (h : s.fetched e t f) (hg : (f.thr e t).guardOn g = false)
    (hb : f.budgetSpent e t = false) (body : State → Res) : s.instr e t g false body = f.retire e t none := by
  obtain ⟨h1, h2, h3, h4, h5, u, pa, h6, rfl⟩ := h
  unfold State.instr
  dsimp only
  rw [if_neg (by simp [h1, h2, h3, h4]), if_neg (by simp [h5]), h6]
  simp only [State.cutOk, Option.filter, hb, hg, Bool.false_eq_true, if_false]
theorem instrRegs_body {s f : State} {e t : Nat} {g : Guard} (h : s.issues e t g f) (w : Thread → Thread) :
    s.instrRegs e t g false w = (f.updThr e t w).retire e t none := instr_body h _
theorem instrRegs_puts {s f : State} {e t : Nat} {g : Guard} (h : s.fetched e t f) (w : Thread → Thread) :
    (s.issues e t g f → s.instrRegs e t g false w = (f.updThr e t w).retire e t none)
    ∧ ((f.thr e t).guardOn g = false → f.budgetSpent e t = false → s.instrRegs e t g false w = f.retire e t none) :=
  ⟨fun hi => instrRegs_body hi w, fun hg hb => instr_off h hg hb _⟩
theorem bad_of {s f : State} {e t : Nat} {g : Guard} {b : Bool} {w : Thread → Thread} (h : s.fetched e t f) (hb : b = true) :
    (.next (s.instrRegs e t g b w) : Outcome) = .next (f.trapTo e t ⟨0x01, none⟩) := by
  subst hb; exact congrArg _ (instr_illegal h g _)

end Sys2Proof.Machine
end

