-- ==== Sys2Proof/Laws/FacetFlowLaws.lean ====
section
/-! SUPPORT. Facet instructions that branch, trap, wait, reach memory and reach the control and status registers. -/

namespace Sys2Proof.Machine

theorem exec_of_body {s f : State} {e t : Nat} {g : Guard} {i : Instr} (h : s.issues e t g f) {body : State → Res}
    (hi : exec i s = .next (s.instr e t g false body)) {u : State} {target : Option DWord} (hb : body f = .retire u target) :
    exec i s = .next (u.retire e t target) := by
  rw [hi, instr_body h, hb]
theorem exec_of_trap {s f : State} {e t : Nat} {g : Guard} {i : Instr} (h : s.issues e t g f) {body : State → Res}
    (hi : exec i s = .next (s.instr e t g false body)) {u : State} {tr : Trap} (hb : body f = .trap u tr) :
    exec i s = .next (u.trapTo e t tr) := by
  rw [hi, instr_body h, hb]
theorem exec_of_hold {s f : State} {e t : Nat} {g : Guard} {i : Instr} (h : s.issues e t g f) {body : State → Res}
    (hi : exec i s = .next (s.instr e t g false body)) {u : State} (hb : body f = .hold u) : exec i s = .next u := by
  rw [hi, instr_body h, hb]
theorem branch_to {f : State} {e t : Nat} {link : Option (Fin 32)} {v : DWord} (h : v &&& 3#64 = 0#64) :
    f.branch e t link v = .retire (match link with
      | some r => f.setThr e t ((f.thr e t).setReg r ((f.thr e t).pc + 4))
      | none => f) (some v) := by
  unfold State.branch; rw [if_neg (by simp [h])]; all_goals (cases link <;> rfl)
theorem branch_bad {f : State} {e t : Nat} {link : Option (Fin 32)} {v : DWord} (h : v &&& 3#64 ≠ 0#64) :
    f.branch e t link v = .trap f ⟨0x03, some v.toNat⟩ := by
  unfold State.branch; rw [if_pos h]

end Sys2Proof.Machine
end

