-- ==== Sys2Proof/Laws/FacetCsrLaws.lean ====
section
/-! SUPPORT. Facet accesses to control and status registers, fences, and the events of a thread. -/

namespace Sys2Proof.Machine

theorem csr_illegal {f : State} {e t n : Nat} {rd : Option (Fin 32)} {w : Option (DWord → DWord)}
    (h : csrNamed n = false ∨ w.isSome = true ∧ csrWritable n = false) : f.csrInstr e t n rd w = .trap f ⟨0x01, none⟩ := by
  unfold State.csrInstr
  dsimp only
  rw [if_pos (by rcases h with h | h <;> simp [h])]
theorem csr_priv {f : State} {e t n : Nat} {rd : Option (Fin 32)} {w : Option (DWord → DWord)}
    (h : csrNamed n = true) (hw : w.isSome = true → csrWritable n = true) (hu : (f.thr e t).umode = true) (hc : f.csrUser n = false) :
    f.csrInstr e t n rd w = .trap f ⟨0x02, none⟩ := by
  unfold State.csrInstr
  dsimp only
  rw [if_neg (by simp only [h, Bool.not_true, Bool.false_or]; cases hs : w.isSome <;> simp_all), if_pos (by simp [hu, hc])]
theorem csr_open {f : State} {e t n : Nat} {rd : Option (Fin 32)} {w : Option (DWord → DWord)}
    (h : csrNamed n = true) (hw : w.isSome = true → csrWritable n = true) (hu : (f.thr e t).umode = false ∨ f.csrUser n = true) :
    f.csrInstr e t n rd w = match (match w with | some k => f.csrWrite e t n (k (f.csrRead e t n)) | none => .ok f) with
      | .error tr => .trap f tr
      | .ok s => .retire (match rd with | some r => s.updThr e t fun x => x.setReg r (f.csrRead e t n) | none => s) none := by
  unfold State.csrInstr
  dsimp only
  rw [if_neg (by simp only [h, Bool.not_true, Bool.false_or]; cases hs : w.isSome <;> simp_all),
    if_neg (by rcases hu with hu | hu <;> simp [hu])]
  all_goals rfl
theorem fence_res {s f : State} {e t : Nat} {g : Guard} {ra rb : Fin 32} {fm : Fin 128} (h : s.issues e t g f) (hr : f.resumed e t = none)
    (hx : ¬ (5 < fm.val ∨ (fm.val = 0 ∨ fm.val = 4 ∨ fm.val = 5) ∧ (ra ≠ 0 ∨ rb ≠ 0))) :
    exec (.fence e t g ra rb fm none) s = .next (
      if (f.thr e t).umode = true ∧ 4 ≤ fm.val then f.trapTo e t ⟨0x02, none⟩
      else if fm.val = 0 then f.retire e t none
      else if fm.val = 5 then (f.setEng e { f.eng e with icache := [] }).retire e t none
      else (if fm.val = 4 then (((f.eng e).dcache.map (·.1)).take (f.eng e).dcache.length).foldl (fun s l => s.evict e l) f
        else f.fenceRange e t fm.val (((f.thr e t).reg ra).toNat / 64)
          (fenceLines ((f.thr e t).reg ra).toNat ((f.thr e t).reg rb).toNat)).retire e t none) := by
  have hb : (decide (5 < fm.val) || ((fm.val == 0 || fm.val == 4 || fm.val == 5) && (ra != 0 || rb != 0))) = false := by
    simp only [Bool.or_eq_false_iff, decide_eq_false_iff_not, Bool.and_eq_false_iff, beq_eq_false_iff_ne, bne_eq_false_iff_eq]
    by_cases h1 : fm.val = 0 ∨ fm.val = 4 ∨ fm.val = 5
    · refine ⟨fun hh => hx (.inl hh), .inr ?_⟩
      by_cases h2 : ra = 0
      · by_cases h3 : rb = 0
        · exact ⟨h2, h3⟩
        · exact absurd (.inr ⟨h1, .inr h3⟩) hx
      · exact absurd (.inr ⟨h1, .inl h2⟩) hx
    · exact ⟨fun hh => hx (.inl hh), .inl ⟨⟨fun a => h1 (.inl a), fun a => h1 (.inr (.inl a))⟩, fun a => h1 (.inr (.inr a))⟩⟩
  simp only [exec, execFence]
  rw [hb, instr_body h]
  by_cases h1 : (f.thr e t).umode = true ∧ 4 ≤ fm.val
  · rw [if_pos h1, if_pos h1]
  · rw [if_neg h1, if_neg h1]
    by_cases h2 : fm.val = 0
    · rw [if_pos h2, if_pos h2]
    · rw [if_neg h2, if_neg h2]
      by_cases h3 : fm.val = 5
      · rw [if_pos h3, if_pos h3]
      · rw [if_neg h3, if_neg h3]
        simp only [hr, State.cutOk, Nat.zero_add, Nat.sub_zero, Nat.add_zero]
        by_cases h4 : fm.val = 4
        · simp only [h4, if_true, List.length_map]
        · simp only [h4, if_false]

end Sys2Proof.Machine
end

