-- ==== Sys2Proof/Laws/FacetMailLaws.lean ====
section
/-! SUPPORT. Facet messages, descriptors and accelerator requests, and the units that end them. -/

namespace Sys2Proof.Machine

theorem instr_free {s f : State} {e t : Nat} {g : Guard} (h : s.issues e t g f) (body : State → Res) (c : Bool) :
    s.instr e t g false body none c = match body f with
      | .trap u tr => u.trapTo e t tr
      | .retire u target => u.retire e t target
      | .hold u => u
      | .cut u => u := by
  rw [instr_pre, instr_body h]; all_goals (cases body f <;> rfl)

theorem descEnd_eq {s : State} {id : Nat} {d : Desc} (h1 : tblFind s.fct.descs id = some d) (h2 : s.streamGone d = false)
    (h3 : s.fromFace d = false ∨ d.failed = true ∨ d.chunks = []) : exec (.descriptorEnd id) s = .next (
      let start := match d.chunks with | c :: _ => c.off | [] => d.done
      let m := d.keys.foldl (fun s k => s.dropKey k) (d.chunks.foldl (fun s c => s.moveChunk id d start c) s)
      let w := (({ m with fct := { m.fct with descs := tblDel m.fct.descs id } } : State).store (d.pa + 8)
        (toLe d.done 8)).store (d.pa + 2) (toLe d.status 1)
      let w := if d.status = 2 then
          (w.count .mmuDmaFault).updThr d.engine d.thread fun x => { x with faults := x.faults ++ [BitVec.ofNat 64 (d.va + d.fault)] }
        else w.latch d.engine d.thread 1
      let w := w.haltCheck d.engine d.thread
      (match (if d.status = 4 ∨ d.status = 5 then s.descCmd d else none) with
        | none => w
        | some c =>
          (if c.past then w else w.endEarly c.seq (if d.status = 4 then stMasterDisabled else stAbortedReset)).qpError c.qp).flow) := by
  show Host.Outcome.next (s.descEnd id) = _
  unfold State.descEnd
  rw [h1]
  dsimp only
  rw [if_neg, h2]
  · rfl
  · rcases h3 with h3 | h3 | h3
    · simp [h3]
    · simp [h3]
    · rw [h3]; simp

end Sys2Proof.Machine
end

