-- ==== Sys2Proof/Laws/FacetMemLaws.lean ====
section
/-! SUPPORT. Facet loads, stores, atomics, fences and accesses to control and status registers. -/

namespace Sys2Proof.Machine

theorem load_body {s f : State} {e t : Nat} {g : Guard} (h : s.issues e t g f) (rd ra : Fin 32) (imm : BitVec 12) (n : Nat) (sgn : Bool)
    (va : Nat) (d : State) (hva : va = ((f.thr e t).reg ra + imm.signExtend 64).toNat) (hd : d = f.updThr e t (fun x => { x with daddr := va })) :
        (va % n ≠ 0 → s.loadInstr e t g rd ra imm n sgn = (d.trapTo e t ⟨0x03, some va⟩))
        ∧ (va % n = 0 → ∀ u tr, d.access e t .load (n == 4) va = (u, .error tr) → s.loadInstr e t g rd ra imm n sgn = (u.trapTo e t tr))
        ∧ (va % n = 0 → ∀ u pa, d.access e t .load (n == 4) va = (u, .ok pa) →
          ((∀ o, u.place pa ≠ .regs o) → (∀ o b, u.place pa ≠ .bitAlias o b) → s.loadInstr e t g rd ra imm n sgn =
            (((u.loadLine e t pa n).1.updThr e t fun x => x.setReg rd (loadValue sgn (u.loadLine e t pa n).2)).retire e t none))
          ∧ (∀ o al, (u.place pa = .regs o ∧ al = none ∨ ∃ b, u.place pa = .bitAlias o b ∧ al = some b) → u.servedNow o = true →
            s.loadInstr e t g rd ra imm n sgn = (((u.readWord (.thread e t) o al (!(u.thr e t).umode)).1.updThr e t fun x => x.setReg rd
              (loadValue sgn (toLe (u.readWord (.thread e t) o al (!(u.thr e t).umode)).2 4))).retire e t none))) := by
  unfold State.loadInstr
  rw [instr_body h]
  have e1 : (f.thr e t).lsAddr ra imm = va := hva.symm
  simp only [e1, ← hd]
  refine ⟨fun h1 => ?_, fun h1 u tr h2 => ?_, fun h1 u pa h2 => ⟨fun h3 h4 => ?_, fun o al h3 h4 => ?_⟩⟩
  · rw [if_pos h1]
  · rw [if_neg (by simp [h1]), h2]
  · rw [if_neg (by simp [h1]), h2]
    dsimp only
    split
    · next hh => split at hh
                 · next o hp => exact absurd hp (h3 o)
                 · next o b hp => exact absurd hp (h4 o b)
                 · cases hh
    · next hh => split at hh
                 · next o hp => exact absurd hp (h3 o)
                 · next o b hp => exact absurd hp (h4 o b)
                 · cases hh; rfl
    · next hh => split at hh
                 · next o hp => exact absurd hp (h3 o)
                 · next o b hp => exact absurd hp (h4 o b)
                 · cases hh
    · next hh => split at hh
                 · next o hp => exact absurd hp (h3 o)
                 · next o b hp => exact absurd hp (h4 o b)
                 · cases hh
  · rw [if_neg (by simp [h1]), h2]
    rcases h3 with ⟨h3, rfl⟩ | ⟨b, h3, rfl⟩ <;>
    · dsimp only
      rw [h3]
      simp only [State.regLoad, h4, if_true]
theorem store_body {s f : State} {e t : Nat} {g : Guard} (h : s.issues e t g f) (rd ra : Fin 32) (imm : BitVec 12) (n : Nat)
    (va : Nat) (d : State) (hva : va = ((f.thr e t).reg ra + imm.signExtend 64).toNat) (hd : d = f.updThr e t (fun x => { x with daddr := va })) :
        (va % n ≠ 0 → s.storeInstr e t g rd ra imm n = (d.trapTo e t ⟨0x03, some va⟩))
        ∧ (va % n = 0 → ∀ u tr, d.access e t .store (n == 4) va = (u, .error tr) → s.storeInstr e t g rd ra imm n = (u.trapTo e t tr))
        ∧ (va % n = 0 → ∀ u pa, d.access e t .store (n == 4) va = (u, .ok pa) →
          ((∀ o, u.place pa ≠ .regs o) → (∀ o b, u.place pa ≠ .bitAlias o b) → s.storeInstr e t g rd ra imm n =
            ((u.storeLine e t pa (toLe ((f.thr e t).reg rd).toNat n)).retire e t none))
          ∧ (∀ o op, (u.place pa = .regs o ∧ op = .word (((f.thr e t).reg rd).toNat % 2 ^ 32)
                ∨ ∃ b, u.place pa = .bitAlias o b ∧ op = .bit b (bitOf ((f.thr e t).reg rd).toNat 0)) → ∀ v,
              v = u.fabWrite (.thread e t) o op →
            (v.isStalled (.thread e t) = false → s.storeInstr e t g rd ra imm n = (v.retire e t none))
            ∧ (v.isStalled (.thread e t) = true →
              s.storeInstr e t g rd ra imm n = (v.blockOn e t { rd := 0, signed := false, store := true, va })))) := by
  unfold State.storeInstr
  rw [instr_body h]
  have e1 : (f.thr e t).lsAddr ra imm = va := hva.symm
  simp only [e1, ← hd]
  refine ⟨fun h1 => ?_, fun h1 u tr h2 => ?_, fun h1 u pa h2 => ⟨fun h3 h4 => ?_, fun o op h3 v hv => ⟨fun h4 => ?_, fun h4 => ?_⟩⟩⟩
  · rw [if_pos h1]
  · rw [if_neg (by simp [h1]), h2]
  · rw [if_neg (by simp [h1]), h2]
    dsimp only
    generalize hp : u.place pa = p at h3 h4
    cases p <;> first | exact absurd rfl (h3 _) | exact absurd rfl (h4 _ _) | rfl
  · rw [if_neg (by simp [h1]), h2]
    subst hv
    rcases h3 with ⟨h3, rfl⟩ | ⟨b, h3, rfl⟩ <;>
    · dsimp only
      rw [h3]
      simp only [State.regStore, h4, Bool.false_eq_true, if_false]
  · rw [if_neg (by simp [h1]), h2]
    subst hv
    rcases h3 with ⟨h3, rfl⟩ | ⟨b, h3, rfl⟩ <;>
    · dsimp only
      rw [h3]
      simp only [State.regStore, h4, if_true]

end Sys2Proof.Machine
end

