-- ==== Sys2Proof/Laws/FatalLaws.lean ====
section
/-! SUPPORT. Fatal events, their image, the watchdog and what ends them. -/

namespace Sys2Proof.Machine

/-- A field of a register leaves the fatal event noted as it is. -/
theorem setField_fatal {s : State} {r : Reg} {hi lo v i : Nat} : (s.setField r hi lo v i).sys = s.sys := rfl
theorem whole_word (v : Word) : v.toNat &&& 0xFFFFFFFF = v.toNat :=
  (Nat.and_two_pow_sub_one_eq_mod v.toNat 32).trans (Nat.mod_eq_of_lt v.isLt)
/-- A write of the whole of SYS_ERR_CTL or SYS_WDOG (R697). -/
theorem errCtl_whole (s : State) (req : Requester) (v : Word) : s.errCtl req 0xFFFFFFFF v.toNat
    = if bitOf v.toNat 31 ∧ v.toNat % 2 ^ 16 = 0xFA7A then (s.setField .sysErrCtl 30 30 (bitsOf v.toNat 30 30)).fatal 8 (siteOf req) 0 false
      else s.setField .sysErrCtl 30 30 (bitsOf v.toNat 30 30) := by
  unfold State.errCtl
  rw [show bitOf 0xFFFFFFFF 30 = true by decide, whole_word]
  rfl
theorem wdogCtl_whole (s : State) (k : Nat) (v : Word) : s.wdogCtl (.basalt k) 0xFFFFFFFF v.toNat
    = (let u := s.setField .sysWdog 15 0 (v.toNat % 2 ^ 16)
       if bitOf v.toNat 31 then { u with sys := { u.sys with petAt := some u.now } } else u) := by
  unfold State.wdogCtl
  dsimp only
  have h : s.field .sysWdog 15 0 &&& 0xFFFFFFFF = s.field .sysWdog 15 0 :=
    (Nat.and_two_pow_sub_one_eq_mod _ 32).trans (Nat.mod_eq_of_lt (Nat.lt_trans (Nat.mod_lt _ (by decide)) (by decide : 2 ^ 16 < 2 ^ 32)))
  rw [whole_word, h, Nat.sub_self, Nat.zero_add]

end Sys2Proof.Machine
end

