-- ==== Sys2Proof/Laws/HostIoLaws.lean ====
section
/-! SUPPORT. The steps of a host's READ and writes from dispatch to the stripe. -/

namespace Sys2Proof.Machine

theorem writeStart_gen {s : State} {q cid op : Nat} {c d : Cmd} {v : Volume} {g : Group} {w : State} {r : Bool}
    (hc : s.carried q cid op = some c) (ht : s.target c = some (v, g)) (hb : c.begun = false) (hg : s.groupDown v g = false)
    (hs : s.stepThread c = true) (hw : s.genStep c v g = (w, r)) (hd : w.cmd c.seq = some d) :
    s.writeStart q cid op = match r with
      | true =>
        if op = opWrite ∧ (w.keyAt (keyIndex (eMkey d.entry))).kind = 0 ∧ !w.funcSends ((w.keyAt (keyIndex (eMkey d.entry))).binding % 64)
        then w.masterDisabled ((w.keyAt (keyIndex (eMkey d.entry))).binding % 64) (some d.seq)
        else match (w.updCmd d.seq fun c => { c with begun := true, todo := writeStripes c v g }).cmd d.seq with
          | none => w.updCmd d.seq fun c => { c with begun := true, todo := writeStripes c v g }
          | some c => (if c.cls = 0 then (w.updCmd d.seq fun c => { c with begun := true, todo := writeStripes c v g }).c0Reserve c v g
              else (w.updCmd d.seq fun c => { c with begun := true, todo := writeStripes c v g }).spaceTake c v g).endStep c
      | false => w.endStep d := by
  unfold State.writeStart
  have hq : d.seq = c.seq := by simpa using List.find?_some hd
  simp only [hc, ht, hb, hg, hs, hw, hd, Bool.false_eq_true, if_false, Bool.not_true]
  cases r
  · rfl
  · rfl

end Sys2Proof.Machine
end

