-- ==== Sys2Proof/Laws/IslandLaws.lean ====
section
/-! SUPPORT. What the operations on islands leave, and what a fatal event does to them. -/

namespace Sys2Proof.Machine

theorem islBegin_now (s : State) (n : Nat) (hb : (s.island n).busy = none) (h1 : (s.island n).req ≠ (s.island n).state)
    (h2 : (s.island n).state ≠ .fused) (h3 : ¬((s.island n).state = .off ∧ (s.island n).req = .retain)) :
    ∃ w : State, s.islBegin n = (w.setIsland n { s.island n with busy := some { target := (s.island n).req, since := w.now } }).trace 1 n
      ∧ w = if cellIslands.contains n ∧ (s.island n).state = .on then
            { s with xbr := { s.xbr with intake := some (s.xbr.intake.getD s.xbr.nextRun) } } else s := by
  refine ⟨_, ?_, rfl⟩
  unfold State.islBegin
  dsimp only
  rw [if_neg (by simp [hb, h1, h2]; simpa using h3)]
  simp only [Bool.and_eq_true, beq_iff_eq]
  try rfl
theorem trace_congr {a b : State} (h : a = b) (k n : Nat) : a.trace k n = b.trace k n := by rw [h]
theorem isl_same (s : State) (n : Nat) (x : Island) (h : n < s.isl.length) : (s.setIsland n x).island n = x := by
  unfold State.setIsland State.island; exact ((setAt_getD _ _ _ _ _ h).trans (if_pos rfl))
theorem isl_ne (s : State) (n m : Nat) (x : Island) (h : m ≠ n) : (s.setIsland n x).island m = s.island m := by
  unfold State.setIsland State.island; exact setAt_getD_ne _ _ _ _ _ (Ne.symm h)
theorem isl_of (s t : State) (h : t.isl = s.isl) (m : Nat) : t.island m = s.island m := by
  unfold State.island; rw [h]
theorem setIsl_isl (s t : State) (n : Nat) (x y : Island) (h : t.isl = s.isl) (hx : x = y) : (t.setIsland n x).isl = (s.setIsland n y).isl := by
  unfold State.setIsland; simp [h, hx]
theorem State.fatalStop_islv (s : State) (f : FatalRun) (sh : Bool) (ha : s.glm.asleep = false) :
    (s.fatalStop f sh).islv = (s.isl, false, some f) := by
  unfold State.fatalStop
  extract_lets s1 s2 t u v w x fr
  have ht : t.islv = (s.isl, false, some f) := by show (s.isl, s.glm.asleep, some f) = _; rw [ha]
  clear_value t
  have hu : u.islv = (s.isl, false, some f) := by
    simp only [u]; split
    · exact State.assertFence_islv _ ht
    · exact ht
  clear_value u
  have hv : v.islv = (s.isl, false, some f) := State.store_islv _ _ _ hu
  clear_value v
  have hw : w.islv = (s.isl, false, some f) := State.emit_islv _ _ (State.err_islv _ _ (State.setReg_islv _ _ _ _ hv))
  clear_value w
  have hx : x.islv = (s.isl, false, some f) := State.trace_islv _ _ _ (State.raise_islv _ _ (State.setReg_islv _ _ _ _ hw))
  clear_value x fr
  split
  · exact State.releaseShelf_islv _ hx
  · exact hx
theorem fatal_isl (s : State) (c site a : Nat) (sh : Bool) (ha : s.glm.asleep = false) (hf : s.sys.fatal = none) :
    ∃ f, (s.fatal c site a sh).islv = (s.isl, false, some f) ∧ f.cause = c ∧ f.site = site ∧ f.complete = none := by
  unfold State.fatal
  dsimp only
  have h : (s.setField Reg.sysFatal 7 0 (min 255 (s.field Reg.sysFatal 7 0 + 1))).sys.fatal = none := hf
  rw [h]
  refine ⟨_, State.fatalStop_islv _ _ _ ha, rfl, rfl, rfl⟩
theorem islBegin_isl (s : State) (n : Nat) (h : (s.island n).busy.isSome ∨ (s.island n).req = (s.island n).state ∨ (s.island n).state = .fused
    ∨ ((s.island n).state = .off ∧ (s.island n).req = .retain)) : s.islBegin n = s := by
  unfold State.islBegin
  rw [if_pos h]
theorem islBegin_fatal (s : State) (n : Nat) : (s.islBegin n).sys.fatal = s.sys.fatal := by
  unfold State.islBegin
  dsimp only
  split
  · rfl
  · split <;> rfl
theorem islBegin_ne (s : State) (n m : Nat) (h : m ≠ n) : (s.islBegin n).island m = s.island m := by
  unfold State.islBegin
  dsimp only
  split
  · rfl
  · split <;> exact isl_ne _ _ _ _ h
theorem down_islv {I F} (s : State) (n : Nat) (nxt : IslState) (hs : s.islv = (I, false, F)) :
    (if n = 160 then (if nxt = .off then ((s.dataDown n).sampleIslands (· == n)).losePower n
        else ((s.dataDown n).sampleIslands (· == n))).doorsRefused
      else (if nxt = .off then ((s.dataDown n).sampleIslands (· == n)).losePower n
        else ((s.dataDown n).sampleIslands (· == n)))).islv = (I, false, F) := by
  have h : (if nxt = .off then ((s.dataDown n).sampleIslands (· == n)).losePower n
      else ((s.dataDown n).sampleIslands (· == n))).islv = (I, false, F) := by
    split
    · exact State.losePower_islv _ _ (State.sampleIslands_islv _ _ (State.dataDown_islv _ _ hs))
    · exact State.sampleIslands_islv _ _ (State.dataDown_islv _ _ hs)
  split
  · exact State.doorsRefused_islv _ h
  · exact h
theorem fatalUnlinked_id (s : State) (w : Bool) (h : ∀ f, s.sys.fatal = some f → f.complete = none) : s.fatalUnlinked w = s := by
  unfold State.fatalUnlinked
  extract_lets d
  have : d = false := by
    simp only [d]
    split
    · next f hf => rw [h f hf]; rfl
    · rfl
  simp [this]
theorem islandDown_islands (s : State) (n : Nat) (nxt : IslState) (F) (ha : s.glm.asleep = false) (hF : s.sys.fatal = F)
    (hc : ∀ f, F = some f → f.complete = none) (hn : n < s.isl.length) :
    (s.islandDown n nxt).sys.fatal = F ∧ (∀ m, m ≠ n → (s.islandDown n nxt).island m = s.island m)
    ∧ ((s.island n).req = nxt → (s.islandDown n nxt).island n = { s.island n with state := nxt, busy := none, trans := s.gnmNs })
    ∧ ((s.island n).req ≠ nxt → nxt = .retain →
            ∃ c, (s.islandDown n nxt).island n = { s.island n with state := nxt, busy := some c, trans := s.gnmNs }
              ∧ c.target = (s.island n).req) := by
  unfold State.islandDown
  extract_lets was isl0 a b c d
  have hx : a.islv = (a.isl, false, F) := by show (_, s.glm.asleep, s.sys.fatal) = _; rw [ha, hF]
  have hal : a.isl.length = s.isl.length := setAt_length ..
  have han : a.island n = { s.island n with state := nxt, busy := none, trans := s.gnmNs } := isl_same _ _ _ hn
  have ham : ∀ m, m ≠ n → a.island m = s.island m := fun m hm => isl_ne _ _ _ _ hm
  have hd : ((d.trace 1 n).raise (64 + n)).islv = (a.isl, false, F) :=
    State.raise_islv _ _ (State.trace_islv _ _ _ (down_islv a n nxt hx))
  generalize ((d.trace 1 n).raise (64 + n)) = e at *
  have he : e.isl = a.isl := congrArg (fun x => x.1) hd
  have hef : e.sys.fatal = F := congrArg (fun x => x.2.2) hd
  have hei := isl_of a e he
  have key : ∀ f, (e.islBegin n).sys.fatal = some f → f.complete = none := by
    intro f hf
    refine hc f (hef.symm.trans ?_)
    rw [← hf, islBegin_fatal]
  rw [fatalUnlinked_id _ _ key]
  have hen := (hei n).trans han
  refine ⟨?_, ?_, ?_, ?_⟩
  · rw [← hef, islBegin_fatal]
  · intro m hm
    rw [islBegin_ne _ _ _ hm, hei, ham m hm]
  · intro hr
    rw [islBegin_isl]
    · exact hen
    · rw [hen]; right; left; exact hr
  · intro hr h2
    obtain ⟨w, h3, h4⟩ := islBegin_now e n (by rw [hen]) (by rw [hen]; exact hr) (by rw [hen]; subst h2; simp)
      (by rw [hen]; subst h2; simp)
    have hwl : w.isl = e.isl := by rw [h4]; split <;> rfl
    rw [h3]
    refine ⟨{ target := (s.island n).req, since := w.now }, ?_, rfl⟩
    refine (isl_same _ _ _ ?_).trans ?_
    · rw [hwl, he, hal]; exact hn
    · rw [hen]
theorem advanceTo_isl (s : State) (t : Nat) : (s.advanceTo t).isl = s.isl ∧ (s.advanceTo t).glm = s.glm ∧ (s.advanceTo t).sys = s.sys := ⟨rfl, rfl, rfl⟩

end Sys2Proof.Machine
end

