-- ==== Sys2Proof/Laws/MirrorEventLaws.lean ====
section
/-! SUPPORT. The timers, controls and link of the Mirror pair. -/

namespace Sys2Proof.Machine

theorem mirrorHalf_lost {s : State} {h : Nat} (h2 : h < 2) (was : (if h = 0 then s.shd.halfA else s.shd.halfB) = true)
    (other : (if h = 0 then s.shd.halfB else s.shd.halfA) = false) : s.mirrorHalf h false = s.mirrorLost := by
  unfold State.mirrorHalf; dsimp only; rw [was, other, if_neg (by simp; omega), if_pos (by simp)]

end Sys2Proof.Machine
end

