-- ==== Sys2Proof/Laws/MirrorFrameLaws.lean ====
section
/-! SUPPORT. The frames of the Mirror link. -/

namespace Sys2Proof.Machine

theorem mirrorRx_on {s : State} (hu : (s.shd.halfA || s.shd.halfB) = true) (ho : s.isOn 162 = true) (f : State → State) :
    s.mirrorRx true f = f s := by
  unfold State.mirrorRx
  rw [if_neg (by rw [hu, ho]; decide)]
  rfl
theorem staged_getD (o : Option (Nat × List (Nat × Bytes))) (n : Nat) :
    (match o with | some (m, l) => if m = n then l else [] | none => []) = ((o.filter fun x => x.1 == n).map (·.2)).getD [] := by
  cases o with
  | none => rfl
  | some x =>
    dsimp only [Option.filter]
    by_cases h : x.1 = n
    · rw [if_pos h, if_pos (by simpa using h)]; rfl
    · rw [if_neg h, if_neg (by simpa using h)]; rfl
theorem bulkIn_getD (o : Option (BulkKind × Bytes)) : (match o with | some x => x.2 | none => []) = (o.map (·.2)).getD [] := by
  cases o <;> rfl

end Sys2Proof.Machine
end

