-- ==== Sys2Proof/Laws/NetAdminLaws2.lean ====
section
/-! SUPPORT. The admin commands and captures of addresses and connections. -/

namespace Sys2Proof.Machine

theorem dropEgress_odt (s : State) (f : EgUnit → Bool) : (s.dropEgress f).net.odt = s.net.odt := by
  unfold State.dropEgress
  dsimp only
  have : ∀ (l : List Nat) (u : State), (l.foldl (fun s p => s.syncEgress p) u).net.odt = u.net.odt := by
    intro l
    induction l with
    | nil => exact fun _ => rfl
    | cons a l ih => exact fun u => (ih _).trans rfl
  exact this _ _
theorem setOdt_conn (s : State) (k : Nat) (x : OdtConn) (h : x ≠ {}) : (s.setOdt k x).odtConn k = x := by
  unfold State.odtConn State.setOdt tblGet tblPut
  rw [if_neg h, tblFind_ins_self]; rfl
theorem setOdt_closed (s : State) (k : Nat) (h : tblSorted none s.net.odt = true) : (s.setOdt k {}).odtConn k = {} := by
  unfold State.odtConn State.setOdt tblGet tblPut
  rw [if_pos rfl]
  dsimp only
  rw [tblFind_del_self none h]; rfl
theorem setOdt_conn_ne (s : State) (k j : Nat) (x : OdtConn) (h : j ≠ k) : tblFind (s.setOdt k x).net.odt j = tblFind s.net.odt j := by
  unfold State.setOdt tblPut
  dsimp only
  split
  · rw [tblFind_del_ne h]
  · rw [tblFind_ins_ne h]
theorem tblPut_get_ne {α : Type} [DecidableEq α] (d : α) (t : Tbl α) (k j : Nat) (x : α) (h : j ≠ k) :
    tblGet d (tblPut d t k x) j = tblGet d t j := by
  unfold tblGet tblPut
  split
  · rw [tblFind_del_ne h]
  · rw [tblFind_ins_ne h]

end Sys2Proof.Machine
end

