-- ==== Sys2Proof/Laws/OdtLaws.lean ====
section
/-! SUPPORT. The Oclos Direct Transport: doorbells, answers, credit, keepalives and the timers of a connection. -/

namespace Sys2Proof.Machine

theorem odtBell_eq {s : State} {h : OdtHdr} {f : State → State × Nat} (hs : (s.serves && s.subUp h.mac h.sub) = true)
    (ha : s.odtAccepts h true = true) {w : State} (hw : w = s.odtHeard h) {c : OdtConn} (hc : c = w.odtConn h.conn) :
    s.odtBell h f =
      if h.seq = (c.hseq + 1) % 2 ^ 32 ∧ seqGe (w.odtLimit h.conn) h.seq ∧ c.state ≠ .opening then
        let d := (f w).1.odtConn h.conn
        ((f w).1.setOdt h.conn { d with
              hseq := h.seq, given := tblPut 0 (d.given.filter fun e => decide ((h.seq + 2 ^ 32 - e.1) % 2 ^ 32 < 256)) h.seq (f w).2,
              state := if d.state = .suspect then .established else d.state }).touch.receipt h.conn h.qpn (f w).2
      else if seqGe c.hseq h.seq ∧ c.state ≠ .opening then
        (w.count .netOdtDup).receipt h.conn h.qpn
              (if (c.hseq + 2 ^ 32 - h.seq) % 2 ^ 32 < 256 then tblGet 0 c.given h.seq else 0)
      else (w.count .netOdtDiscard).receipt h.conn h.qpn 0x400 := by
  subst hw hc
  unfold State.odtBell
  rw [if_neg (by rw [hs]; decide), if_neg (by rw [ha]; decide)]
theorem bell_on {s : State} {h : OdtHdr} {b : Bytes} {i : Instr} {f : State → State × Nat} (ho : s.isOn 160 = true)
    (hi : i = .doorbell h ∧ f = State.odtApply h ∨ i = .doorbellInline h b ∧ f = State.odtApplyInline h b) :
    exec i s = .next (s.odtBell h f) := by
  rcases hi with ⟨rfl, rfl⟩ | ⟨rfl, rfl⟩
  · show Host.Outcome.next (s.atQpe _ _) = _
    unfold State.atQpe; rw [if_pos ho]
  · show Host.Outcome.next (s.atQpe _ _) = _
    unfold State.atQpe; rw [if_pos ho]

end Sys2Proof.Machine
end

