-- ==== Sys2Proof/Laws/ResetLaws.lean ====
section
/-! SUPPORT. The islands at the start of a COLD and of a WARM reset. -/

namespace Sys2Proof.Machine

theorem island_map (f : Nat → Island) (s : State) (h : s.isl = (List.range 168).map f) (i : Nat) (hi : i < 168) : s.island i = f i := by
  unfold State.island; rw [h]; simp [hi]
theorem coldBase_island (s : State) (i : Nat) (hi : i < 168) : s.coldBase.island i = Island.reset s.variant i :=
  island_map _ _ (by unfold State.coldBase; simp only [State.setReg_isl]; rfl) i hi
theorem warmBase_island (s : State) (k i : Nat) (hi : i < 168) : (s.warmBase k).island i = s.warmIsland i :=
  island_map _ _ (by unfold State.warmBase; simp only [State.setReg_isl]) i hi

end Sys2Proof.Machine
end

