-- ==== Sys2Proof/Laws/RoceLaws.lean ====
section
/-! SUPPORT. The RoCEv2 connections: their making and end, capsules, and the requester's packets and timers. -/

namespace Sys2Proof.Machine

theorem capsule_on {s : State} {k psn : Nat} {b : Bytes} {x : Bool} (h : s.isOn 160 = true) :
    exec (.roceCommandCapsule k psn b x) s = .next (s.roceCapsule k psn b x) := by
  show Host.Outcome.next (s.atQpe _ _) = _
  unfold State.atQpe
  rw [if_pos h]
theorem roceCapsule_eq {s : State} {k psn q : Nat} {b : Bytes} {x : Bool} {c : RoceConn} {a : RoceAllow} (hc : s.roceLive k = some c)
    (hq : c.qp = some q) (ha : tblFind s.net.allow c.allow = some a) : s.roceCapsule k psn b x =
      if x then s.roceOut k (.roceAck k psn 2)
      else if psn ≠ c.ePsn then
        if (c.ePsn + 2 ^ 24 - psn) % 2 ^ 24 < 2 ^ 23 then s.roceOut k (.roceAck k ((c.ePsn + 2 ^ 24 - 1) % 2 ^ 24) 0)
        else s.roceOut k (.roceAck k c.ePsn 4)
      else if !(byteAt b 0 == 0 || byteAt b 0 == 1 || byteAt b 0 == 2 || byteAt b 0 == 8 || byteAt b 0 == 9) then
        (s.roceAckTaken k psn none).nvReply k (leAt b 2 2) 0 nvInvalidOpcode
      else if capsuleBad b then (s.roceAckTaken k psn none).nvReply k (leAt b 2 2) 0 nvInvalidField
      else if byteAt b 0 ≠ 0 ∧ byteAt b 7 ≠ 0 then (s.roceAckTaken k psn none).nvReply k (leAt b 2 2) 0 nvInvalidNamespace
      else if byteAt b 0 = 0 ∨ byteAt b 0 = 8 then s.roceInline k psn q (capsuleEntry a b 0)
      else
        match s.transient k a.tenant (if byteAt b 0 = 2 then 2 else 1) (sglAddr b) (sglLen b) (sglKey b) with
        | none => s.roceOut k (.roceAck k psn 1)
        | some (s, m) =>
          if byteAt b 0 = 9 then
            let s := (s.roceAckTaken k psn none).updRoce k fun c => { c with dsm := tblIns c.dsm (leAt b 2 2) (b ++ toLe m 4) }
            s.roceSend k (.readRange (s.qp q).baseClass (leAt b 2 2))
          else s.roceInline k psn q (capsuleEntry a b m) := by
  unfold State.roceCapsule
  rw [hc]
  simp only [hq, ha]
  all_goals (cases s.transient k a.tenant (if byteAt b 0 = 2 then 2 else 1) (sglAddr b) (sglLen b) (sglKey b) <;> rfl)

end Sys2Proof.Machine
end

