-- ==== Sys2Proof/Laws/SensorLaws.lean ====
section
/-! SUPPORT. What clocks, sensors, supplies, buses and memories report. -/

namespace Sys2Proof.Machine

/-- A list none of whose members fails a test, or one that has such a member. -/
theorem all_yes {l : List Int} (p : Int → Bool) (h : ∀ z ∈ l, p z = true) : l.all p = true := List.all_eq_true.mpr h
theorem all_no {l : List Int} (p : Int → Bool) {z : Int} (hz : z ∈ l) (h : p z = false) : l.all p = false :=
  Bool.eq_false_iff.mpr fun c => Bool.noConfusion (h.symm.trans (List.all_eq_true.mp c z hz))
/-- A thread that uses a memory with an error traps where it runs (R435, R686). -/
theorem eccTrap_of {s : State} {e t : Nat} :
    ((s.engineRuns e = true ∧ t < 16 ∧ (s.thr e t).state = .ready) → s.eccTrap e t = (s.contained false).trapTo e t ⟨0x0E, none⟩)
    ∧ (¬ (s.engineRuns e = true ∧ t < 16 ∧ (s.thr e t).state = .ready) → s.eccTrap e t = s) := by
  unfold State.eccTrap
  refine ⟨fun h => if_pos (by rw [h.1, h.2.2]; simp [h.2.1]), fun h => if_neg (fun c => h ?_)⟩
  simp only [Bool.and_eq_true, decide_eq_true_eq, beq_iff_eq] at c
  exact ⟨c.1.1, c.1.2, c.2⟩
/-- A reading in range of a sensor the variant has (R684). -/
theorem temperature_inRange {s u : State} {i : Nat} {t : Int} {l : List Int} (hf : sensorFused s.variant i = false) (h1 : -220 ≤ t) (h2 : t ≤ 600)
    (hl : l = (t :: (tblFind s.sys.temps i).getD []).take 3)
    (hu : u = (({ s with sys := { s.sys with temps := tblIns s.sys.temps i l, tempValid := tblPut false s.sys.tempValid i true } } : State).showTemp)) :
    exec (.temperatureReading i t) s = .next (if u.hottest ≠ some i ∨ l.length < 3 then u
      else
        let s := if l.all fun x => decide (400 ≤ x) then u.err 6 else u
        let s := if l.all fun x => decide (440 < x) then (s.err 7).selfCheck 3 else s
        if l.all fun x => decide (480 ≤ x) then s.fatal 6 (sensorSite i) 0 false else s) := by
  show Host.Outcome.next (s.temperature i t) = _
  unfold State.temperature
  rw [if_neg (by rw [hf]; decide), if_neg (by omega)]
  dsimp only
  rw [← hl, ← hu]

end Sys2Proof.Machine
end

