-- ==== Sys2Proof/Laws/ServiceLaws.lean ====
section
/-! SUPPORT. Dispatch, egress and drive issue, and the ends of what they send. -/

namespace Sys2Proof.Machine

theorem releaseCells_out (s : State) (p level n : Nat) : (s.releaseCells p level n).out = s.out := by
  unfold State.releaseCells State.release1
  dsimp only
  repeat' split
  all_goals rfl
theorem issueMem_out (a : State) (m : MemCmd) : (a.issueMem m).out
    = .drive m.id m.slot m.op m.lba m.n (m.op == .write || m.op == .writeZeroes) (a.memData m) :: a.out := by
  unfold State.issueMem State.emit
  dsimp only
  congr 1
  cases a.memHost m.who with
  | none => exact releaseCells_out _ _ _ _
  | some q =>
    dsimp only
    have k : ∀ u : State, (u.c0End q m.cells).out = u.out := by
      intro u
      unfold State.c0End
      dsimp only
      split <;> rfl
    split
    · exact (k _).trans (releaseCells_out _ _ _ _)
    · exact releaseCells_out _ _ _ _

end Sys2Proof.Machine
end

