-- ==== Sys2Proof/Laws/Since.lean ====
section
/-! SUPPORT. The invariant of every step, and what a step never takes back: how a proof of them goes through one
definition. -/

namespace Sys2Proof.Machine

variable {P : Past}

/-- The fields that the invariant and the past read. -/
theorem State.since_of_eq {s t : State} (h : s.since P) (hv : t.variant = s.variant) (hi : t.isl = s.isl)
    (hm : t.mem = s.mem) (ho : t.out = s.out) (hn : t.now = s.now) (hd : t.draws = s.draws)
    (hp : t.pending = s.pending) : t.since P := by
  unfold State.since State.invAt State.island at *; rw [hv, hi, hm, ho, hn, hd, hp]; exact h

/-- The same for a state written out. -/
theorem State.since_mk (s : State) (regs) (fab) (icu) (glm) (gnm) (qpe) (cls) (str) (net) (epf)
    (xbr) (cph) (shd) (spm) (fct) (sys) (frames) :
    State.since ⟨s.variant, s.now, regs, s.isl, s.mem, fab, icu, glm, gnm, qpe, cls, str, net, epf, xbr, cph, shd, spm, fct,
      sys, frames, s.out, s.draws, s.pending⟩ P ↔ s.since P :=
  ⟨fun h => State.since_of_eq h rfl rfl rfl rfl rfl rfl rfl, fun h => State.since_of_eq h rfl rfl rfl rfl rfl rfl rfl⟩

/-- Drawing free values. -/
theorem State.since_draws {s : State} {n : Nat} (h : s.since P) (regs) (fab) (icu) (glm) (gnm) (qpe) (cls) (str) (net) (epf)
    (xbr) (cph) (shd) (spm) (fct) (sys) (frames) :
    State.since ⟨s.variant, s.now, regs, s.isl, s.mem, fab, icu, glm, gnm, qpe, cls, str, net, epf, xbr, cph, shd, spm, fct,
      sys, frames, s.out, s.draws + n, s.pending⟩ P :=
  ⟨h.1, h.2.1, h.2.2.1, Nat.le_trans h.2.2.2.1 (Nat.le_add_right _ _), h.2.2.2.2⟩

theorem State.since_mem {s t : State} (h : s.since P) (hm : t.mem.wf = true) (hv : t.variant = s.variant)
    (hi : t.isl = s.isl) (ho : t.out = s.out) (hn : t.now = s.now) (hd : t.draws = s.draws)
    (hp : t.pending = s.pending) : t.since P := by
  obtain ⟨⟨h1, h2, h3, h4⟩, h5⟩ := h
  refine ⟨⟨hv.trans h1, hm, hi ▸ h3, fun i h => ?_⟩, by rw [ho, hn, hd, hp]; exact h5⟩
  have := h4 i h
  unfold State.island at *
  rw [hi]
  exact this

theorem State.since_ite {c : Prop} [Decidable c] {a b : State} (ha : c → a.since P) (hb : ¬c → b.since P) :
    (if c then a else b).since P := by
  split
  · exact ha ‹_›
  · exact hb ‹_›

theorem State.since_elim {α : Type} (o : Option α) (x : State) (f : α → State) (hx : x.since P) (hf : ∀ i, (f i).since P) :
    (o.elim x f).since P := by
  cases o
  · exact hx
  · exact hf _

theorem State.since_cut {t : State} {Q : Prop} (h : t.since P) (k : t.since P → Q) : Q := k h

theorem State.since_fst {α : Type} {p : State × α} {s : State} {b : α} (h : p.1.since P) (e : p = (s, b)) :
    s.since P := by subst e; exact h

theorem State.since_snd {α : Type} {p : α × State} {s : State} {b : α} (h : p.2.since P) (e : p = (b, s)) :
    s.since P := by subst e; exact h

theorem State.since_foldl {α : Type} {f : State → α → State} {l : List α} {s : State} (h : s.since P)
    (hf : ∀ t a, t.since P → (f t a).since P) : (l.foldl f s).since P := by
  induction l generalizing s with
  | nil => exact h
  | cons a l ih => exact ih (hf s a h)

theorem since_foldl_fst {α β : Type} {f : State × β → α → State × β} {l : List α} {p : State × β} (h : p.1.since P)
    (hf : ∀ p a, p.1.since P → (f p a).1.since P) : (l.foldl f p).1.since P := by
  induction l generalizing p with
  | nil => exact h
  | cons a l ih => exact ih (hf p a h)

/-- Whatever next state an outcome answers comes after `P`. -/
def goodOut (P : Past) (o : Outcome) : Prop := ∀ t, o = .next t → t.since P

theorem goodOut_next {t : State} (h : t.since P) : goodOut P (.next t) := fun u e => by cases e; exact h

theorem Island.reset_okFor (v : Variant) (i : Nat) : (Island.reset v i).okFor (Config.fused v i) := by
  unfold Island.reset
  split
  · next h => rw [h]; exact ⟨by simp, by simp, by simp⟩
  · next h =>
    have h : Config.fused v i = false := by simpa using h
    rw [h]
    split <;> exact ⟨by simp, by simp, by simp⟩

/-- Whatever state an instruction's result carries comes after `P`. -/
def goodRes (P : Past) (r : Res) : Prop :=
  match r with
  | .trap s _ => s.since P
  | .retire s _ => s.since P
  | .hold s => s.since P
  | .cut s => s.since P

theorem goodRes_trap {s : State} {t : Trap} (h : s.since P) : goodRes P (.trap s t) := h
theorem goodRes_retire {s : State} {t : Option DWord} (h : s.since P) : goodRes P (.retire s t) := h
theorem goodRes_hold {s : State} (h : s.since P) : goodRes P (.hold s) := h
theorem goodRes_cut {s : State} (h : s.since P) : goodRes P (.cut s) := h

end Sys2Proof.Machine
end

