-- ==== Sys2Proof/Laws/SinceOps.lean ====
section
/-! SUPPORT. The invariant, and what a step never takes back, through every operation of the shared operations, the face, keys, queue pairs and intake. -/

namespace Sys2Proof.Machine

variable {P : Past}

theorem State.setReg_since (s : State) (r : Reg) (v : Nat) (i : Nat) (hs : s.since P) : (State.setReg s r v i).since P := by
  unfold State.setReg
  repeat' (first | with_reducible assumption | simp -zeta only [↓State.since_mk])

theorem State.setField_since (s : State) (r : Reg) (msb lsb v : Nat) (i : Nat) (hs : s.since P)
    : (State.setField s r msb lsb v i).since P := by
  unfold State.setField
  repeat' with_reducible first | assumption | apply State.setReg_since

theorem State.count_since (s : State) (r : Reg) (n : Nat) (hs : s.since P) : (State.count s r n).since P := by
  unfold State.count
  repeat' with_reducible first | assumption | apply State.setReg_since

theorem State.resetOf_inv (v : Variant) : (State.resetOf v).invAt v := by
  refine ⟨rfl, rfl, by simp [State.resetOf], fun i hi => ?_⟩
  unfold State.island State.resetOf
  dsimp only
  rw [List.getD_eq_getElem?_getD, List.getElem?_map, List.getElem?_range hi]
  exact Island.reset_okFor v i

theorem State.emit_since (s : State) (o : Out) (hs : s.since P) : (State.emit s o).since P := by
  exact ⟨hs.1, hs.2.1.trans (List.suffix_cons _ _), hs.2.2⟩

theorem State.emits_since (s : State) (os : List Out) (hs : s.since P) : (State.emits s os).since P := by
  exact ⟨hs.1, hs.2.1.trans (List.suffix_append _ _), hs.2.2⟩

theorem State.drew_since (s : State) (n : Nat) (hs : s.since P) : (State.drew s n).since P := by
  exact ⟨hs.1, hs.2.1, hs.2.2.1, Nat.le_trans hs.2.2.2.1 (Nat.le_add_right _ _), hs.2.2.2.2⟩

theorem State.setIsland_since (s : State) (i : Nat) (x : Island) (hs : s.since P) (hx : i < 168 → x.okFor (Config.fused P.variant i)) :
    (s.setIsland i x).since P := by
  obtain ⟨⟨h1, h2, h3, h4⟩, h5⟩ := hs
  refine ⟨⟨h1, h2, (setAt_length ..).trans h3, fun j hj => ?_⟩, h5⟩
  unfold State.setIsland State.island
  dsimp only
  rw [setAt_getD _ _ _ _ _ (h3.symm ▸ hj)]
  split
  · next h => exact h ▸ hx (h ▸ hj)
  · exact h4 j hj

theorem State.island_okFor (s : State) (i : Nat) (hs : s.since P) (hi : i < 168)
    : (s.island i).okFor (Config.fused P.variant i) :=
  hs.1.2.2.2 i hi

theorem State.wake_since (s : State) (src : Option Nat) (hs : s.since P) : (State.wake s src).since P := by
  unfold State.wake
  split
  · assumption
  · dsimp only
    rw [State.since_mk]
    apply State.count_since
    apply State.setIsland_since
    · apply State.setIsland_since _ _ _ hs
      intro _
      exact ⟨⟨fun e => (by cases e), fun e => (by cases e)⟩, fun e => (by cases e), fun _ e => by cases e⟩
    · intro _
      exact ⟨⟨fun e => (by cases e), fun e => (by cases e)⟩, fun e => (by cases e), fun _ e => by cases e⟩

theorem State.raise_since (s : State) (n : Nat) (hs : s.since P) : (State.raise s n).since P := by
  unfold State.raise
  repeat' (first
    | (with_reducible first | assumption | apply State.wake_since)
    | simp -zeta only [↓State.since_mk]
    | (extract_lets +onlyGivenNames t; refine State.since_cut (P := P) (t := t) ?_ ?_; all_goals first | (intro ht; clear_value t) | subst t)
    | extract_lets +onlyGivenNames t | split)

theorem State.event_since (s : State) (u : UnitEvent) (hs : s.since P) : (State.event s u).since P := by
  unfold State.event
  repeat' with_reducible first | assumption | apply State.raise_since

theorem State.trace_since (s : State) (kind island : Nat) (hs : s.since P) : (State.trace s kind island).since P := by
  unfold State.trace
  repeat' with_reducible first | assumption | apply State.since_draws

theorem State.err_since (s : State) (n : Nat) (hs : s.since P) : (State.err s n).since P := by
  unfold State.err
  repeat' (first
    | (with_reducible first | assumption | apply State.setReg_since | apply State.trace_since | apply State.wake_since)
    | (extract_lets +onlyGivenNames t; refine State.since_cut (P := P) (t := t) ?_ ?_; all_goals first | (intro ht; clear_value t) | subst t)
    | split)

theorem State.advance_since (s : State) (n : Nat) (hs : s.since P) : (State.advance s n).since P := by
  exact ⟨hs.1, hs.2.1, Nat.le_trans hs.2.2.1 (Nat.le_add_right _ _), hs.2.2.2⟩

theorem State.advanceTo_since (s : State) (t : Nat) (hs : s.since P) : (State.advanceTo s t).since P := by
  unfold State.advanceTo
  repeat' with_reducible first | assumption | apply State.advance_since

theorem State.store_since (s : State) (a : Nat) (b : Bytes) (hs : s.since P) : (State.store s a b).since P := by
  unfold State.store
  exact State.since_mem hs (Memory.wf_writeN hs.1.2.1 _ _) rfl rfl rfl rfl rfl rfl

theorem State.setPart_since (s : State) (p : Nat) (x : Part) (hs : s.since P) : (State.setPart s p x).since P := by
  unfold State.setPart
  repeat' (first | with_reducible assumption | simp -zeta only [↓State.since_mk])

theorem State.charge1_since (s : State) (p level n : Nat) (hs : s.since P) : (State.charge1 s p level n).since P := by
  unfold State.charge1
  repeat' (first | (with_reducible first | assumption | apply State.count_since | apply State.setPart_since) | split)

theorem State.release1_since (s : State) (p n : Nat) (hs : s.since P) : (State.release1 s p n).since P := by
  unfold State.release1
  repeat' with_reducible first | assumption | apply State.setPart_since

theorem State.chargeCells_since (s : State) (p level n : Nat) (hs : s.since P)
    : (State.chargeCells s p level n).since P := by
  unfold State.chargeCells
  repeat' (first | (with_reducible first | assumption | apply State.setPart_since | apply State.charge1_since) | split)

theorem State.releaseCells_since (s : State) (p level n : Nat) (hs : s.since P)
    : (State.releaseCells s p level n).since P := by
  unfold State.releaseCells
  repeat' (first | (with_reducible first | assumption | apply State.setPart_since | apply State.release1_since) | split)

theorem State.pushRun_since (s : State) (src : Nat) (dsts : List Nat) (cls n : Nat) (who : CellFor) (keyed charged : Bool) (owner : Option Nat) (record : Bool) (blank : List Nat) (pri : Nat) (packed : Bool) (hs : s.since P)
    : (State.pushRun s src dsts cls n who keyed charged owner record blank pri packed).since P := by
  unfold State.pushRun
  repeat' (first
    | (with_reducible first | assumption | apply State.chargeCells_since)
    | simp -zeta only [↓State.since_mk]
    | (extract_lets +onlyGivenNames t; refine State.since_cut (P := P) (t := t) ?_ ?_; all_goals first | (intro ht; clear_value t) | subst t)
    | extract_lets +onlyGivenNames t | split)

theorem Match.accept_since (m : Match) (it i : Nat) (gs : List (Nat × XReq)) (hm : m.st.since P)
    : (Match.accept m it i gs).st.since P := by
  unfold Match.accept
  split
  · exact hm
  · dsimp only
    split
    · exact hm
    · rw [State.since_mk]
      exact hm

theorem Match.accepts_since (l : List Nat) (it : Nat) (g : Nat → List (Nat × XReq)) (m : Match) (hm : m.st.since P) :
    (l.foldl (fun m' i => m'.accept it i (g i)) m).st.since P := by
  induction l generalizing m with
  | nil => exact hm
  | cons a l ih => exact ih _ (Match.accept_since _ _ _ _ hm)

theorem Match.iterate_since (m : Match) (it : Nat) (hm : m.st.since P) : (Match.iterate m it).st.since P := by
  unfold Match.iterate
  exact Match.accepts_since _ _ _ _ hm

theorem State.crossed_since (s : State) (i : Nat) (take : List Nat) (q : XReq) (hs : s.since P)
    : (State.crossed s i take q).1.since P := by
  unfold State.crossed
  repeat' (first
    | (with_reducible first
        | assumption | apply State.chargeCells_since | apply State.count_since | apply State.releaseCells_since
        | refine State.since_foldl ?_ (fun x y hx => ?_))
    | simp -zeta only [↓State.since_mk] | extract_lets +onlyGivenNames t | split)

theorem State.xbarSlot_since (s : State) (hs : s.since P) : (State.xbarSlot s).1.since P := by
  unfold State.xbarSlot
  split
  · exact hs
  · extract_lets ports m0 m1
    have h1 : m1.st.since P := Match.iterate_since _ _ (Match.iterate_since _ _ (Match.iterate_since _ _ hs))
    clear_value m1
    dsimp only
    refine since_foldl_fst h1 fun p a hp => ?_
    exact State.crossed_since _ _ _ _ hp

theorem State.discardRuns_since (s : State) (p : CellRun → Bool) (hs : s.since P) : (State.discardRuns s p).since P := by
  unfold State.discardRuns
  repeat' (first
    | (with_reducible first
        | assumption | apply State.count_since | apply State.releaseCells_since
        | refine State.since_foldl ?_ (fun x y hx => ?_))
    | simp -zeta only [↓State.since_mk])

theorem State.freeHeld_since (s : State) (cls : Nat) (held : Tbl Nat) (hs : s.since P)
    : (State.freeHeld s cls held).since P := by
  unfold State.freeHeld
  repeat' with_reducible first
    | assumption | apply State.releaseCells_since | refine State.since_foldl ?_ (fun x y hx => ?_)

theorem State.setSlice_since (s : State) (i : Nat) (x : Slice) (hs : s.since P) : (State.setSlice s i x).since P := by
  unfold State.setSlice
  repeat' (first | with_reducible assumption | simp -zeta only [↓State.since_mk])

theorem State.takeSlice_since (s : State) (i : Nat) (c0 : Bool) (hs : s.since P) : (State.takeSlice s i c0).since P := by
  unfold State.takeSlice
  repeat' with_reducible first | assumption | apply State.setSlice_since

theorem State.freeSlice_since (s : State) (h : Option (Nat × Bool)) (hs : s.since P) : (State.freeSlice s h).since P := by
  unfold State.freeSlice
  repeat' (first | (with_reducible first | assumption | apply State.setSlice_since) | split)

theorem State.prismLose_since (s : State) (p : Nat) (hs : s.since P) : (State.prismLose s p).since P := by
  unfold State.prismLose
  repeat' (first
    | (with_reducible first | assumption | apply State.count_since)
    | simp -zeta only [↓State.since_mk]
    | (extract_lets +onlyGivenNames t; refine State.since_cut (P := P) (t := t) ?_ ?_; all_goals first | (intro ht; clear_value t) | subst t))

theorem State.prismPush_since (s : State) (p : Nat) (cell : Bytes) (hs : s.since P)
    : (State.prismPush s p cell).since P := by
  unfold State.prismPush
  repeat' (first
    | (with_reducible first | assumption | apply State.pushRun_since | apply State.prismLose_since)
    | extract_lets +onlyGivenNames t | split)

theorem State.tap_since (s : State) (p sub len : Nat) (dropped : Bool) (hdr : Option Bytes) (hs : s.since P)
    : (State.tap s p sub len dropped hdr).since P := by
  unfold State.tap
  repeat' (first
    | (with_reducible first | assumption | apply State.prismPush_since | apply State.drew_since)
    | simp -zeta only [↓State.since_mk]
    | (extract_lets +onlyGivenNames t; refine State.since_cut (P := P) (t := t) ?_ ?_; all_goals first | (intro ht; clear_value t) | subst t)
    | extract_lets +onlyGivenNames t | split)

theorem State.sendFrame_since (s : State) (mac sub : Nat) (o : Out) (hs : s.since P)
    : (State.sendFrame s mac sub o).since P := by
  unfold State.sendFrame
  repeat' (first | (with_reducible first | assumption | apply State.emit_since | apply State.tap_since) | split)

theorem State.sendAs_since (s : State) (mac sub cls : Nat) (ect udpSum : Bool) (o : Out) (hs : s.since P)
    : (State.sendAs s mac sub cls ect udpSum o).since P := by
  unfold State.sendAs
  repeat' (first | (with_reducible first | assumption | apply State.emit_since | apply State.sendFrame_since) | split)

theorem State.prismWrite_since (s : State) (p : Nat) (cell : Bytes) (hs : s.since P)
    : (State.prismWrite s p cell).since P := by
  unfold State.prismWrite
  repeat' (first
    | (with_reducible first
        | assumption | apply State.prismLose_since | apply State.store_since | apply State.setReg_since
        | apply State.count_since | apply State.emit_since | apply State.event_since)
    | simp -zeta only [↓State.since_mk]
    | (extract_lets +onlyGivenNames t; refine State.since_cut (P := P) (t := t) ?_ ?_; all_goals first | (intro ht; clear_value t) | subst t)
    | extract_lets +onlyGivenNames t | split)

theorem State.prismCtl_since (s : State) (w : Nat) (hs : s.since P) : (State.prismCtl s w).since P := by
  unfold State.prismCtl
  repeat' (first
    | (with_reducible first | assumption | apply State.setField_since | apply State.setReg_since)
    | extract_lets +onlyGivenNames t | split)

theorem execPrismEnable_since (v : Word) (s : State) (hs : s.since P) : goodOut P (execPrismEnable v s) := by
  unfold execPrismEnable
  repeat' (first | (with_reducible first | assumption | apply goodOut_next | apply State.prismCtl_since) | split)

theorem State.setThr_since (s : State) (e t : Nat) (x : Thread) (hs : s.since P) : (State.setThr s e t x).since P := by
  unfold State.setThr
  repeat' (first | with_reducible assumption | simp -zeta only [↓State.since_mk])

theorem State.updThr_since (s : State) (e t : Nat) (f : Thread → Thread) (hs : s.since P)
    : (State.updThr s e t f).since P := by
  unfold State.updThr
  repeat' with_reducible first | assumption | apply State.setThr_since

theorem State.setEng_since (s : State) (e : Nat) (x : Engine) (hs : s.since P) : (State.setEng s e x).since P := by
  unfold State.setEng
  repeat' (first | with_reducible assumption | simp -zeta only [↓State.since_mk])

theorem State.setClu_since (s : State) (c : Nat) (x : Cluster) (hs : s.since P) : (State.setClu s c x).since P := by
  unfold State.setClu
  repeat' (first | with_reducible assumption | simp -zeta only [↓State.since_mk])

theorem State.pmc_since (s : State) (e t ev n : Nat) (hs : s.since P) : (State.pmc s e t ev n).since P := by
  unfold State.pmc
  repeat' (first
    | (with_reducible first
        | assumption | apply State.setReg_since | apply State.setField_since | apply State.raise_since
        | apply State.updThr_since | refine State.since_foldl ?_ (fun x y hx => ?_))
    | (extract_lets +onlyGivenNames t; refine State.since_cut (P := P) (t := t) ?_ ?_; all_goals first | (intro ht; clear_value t) | subst t)
    | extract_lets +onlyGivenNames t | split)

theorem State.meets_since (s : State) (e t b : Nat) (hs : s.since P) : (State.meets s e t b).since P := by
  unfold State.meets
  repeat' with_reducible first | assumption | apply State.updThr_since

theorem State.sample_since (s : State) (e t : Nat) (pc : DWord) (daddr met : Nat) (skid umode : Bool) (hs : s.since P)
    : (State.sample s e t pc daddr met skid umode).since P := by
  unfold State.sample
  repeat' (first
    | (with_reducible first
        | assumption | apply State.count_since | apply State.store_since | apply State.setReg_since
        | apply State.emit_since | apply State.event_since)
    | extract_lets +onlyGivenNames t | split)

theorem State.smpCtl_since (s : State) (w : Nat) (hs : s.since P) : (State.smpCtl s w).since P := by
  unfold State.smpCtl
  repeat' (first
    | (with_reducible first | assumption | apply State.setField_since | apply State.setReg_since)
    | extract_lets +onlyGivenNames t | split)

theorem State.walk_since (s : State) (c root va asid : Nat) (hs : s.since P) : (State.walk s c root va asid).1.since P := by
  unfold State.walk
  repeat' (first
    | (with_reducible first | assumption | apply State.count_since)
    | (extract_lets +onlyGivenNames t; refine State.since_cut (P := P) (t := t) ?_ ?_; all_goals first | (intro ht; clear_value t) | subst t)
    | split)

theorem State.clLookup_since (s : State) (c root va asid : Nat) (hs : s.since P)
    : (State.clLookup s c root va asid).1.since P := by
  unfold State.clLookup
  repeat' (first
    | (with_reducible first | assumption | apply State.walk_since | apply State.setClu_since | apply State.drew_since)
    | simp -zeta only [↓State.since_mk] | split)

theorem State.lookup_since (s : State) (e t va : Nat) (hs : s.since P) : (State.lookup s e t va).1.since P := by
  unfold State.lookup
  repeat' (first
    | (with_reducible first
        | assumption | apply State.pmc_since | apply State.meets_since | apply State.clLookup_since
        | apply State.setEng_since | apply State.drew_since)
    | simp -zeta only [↓State.since_mk]
    | (extract_lets +onlyGivenNames t; refine State.since_cut (P := P) (t := t) ?_ ?_; all_goals first | (intro ht; clear_value t) | subst t)
    | extract_lets +onlyGivenNames t | split)

theorem State.access_since (s : State) (e t : Nat) (n : Need) (word : Bool) (va : Nat) (hs : s.since P)
    : (State.access s e t n word va).1.since P := by
  unfold State.access
  repeat' (first
    | (with_reducible first | assumption | apply State.lookup_since)
    | simp -zeta only [↓State.since_mk] | extract_lets +onlyGivenNames t | split)

theorem State.evict_since (s : State) (e line : Nat) (hs : s.since P) : (State.evict s e line).since P := by
  unfold State.evict
  repeat' (first
    | (with_reducible first | assumption | apply State.setEng_since | apply State.store_since)
    | extract_lets +onlyGivenNames t | split)

theorem State.cleanLine_since (s : State) (e line : Nat) (hs : s.since P) : (State.cleanLine s e line).since P := by
  unfold State.cleanLine
  repeat' (first
    | (with_reducible first | assumption | apply State.setEng_since | apply State.store_since)
    | extract_lets +onlyGivenNames t | split)

theorem State.fill_since (s : State) (e t line : Nat) (hs : s.since P) : (State.fill s e t line).since P := by
  unfold State.fill
  repeat' (first
    | (with_reducible first
        | assumption | apply State.pmc_since | apply State.meets_since | apply State.evict_since
        | apply State.drew_since | apply State.setEng_since)
    | split)

theorem State.sramCount_since (s : State) (e t pa : Nat) (hs : s.since P) : (State.sramCount s e t pa).since P := by
  unfold State.sramCount
  repeat' (first | (with_reducible first | assumption | apply State.pmc_since) | split)

theorem State.loadLine_since (s : State) (e t pa n : Nat) (hs : s.since P) : (State.loadLine s e t pa n).1.since P := by
  unfold State.loadLine
  repeat' (first
    | (with_reducible first | assumption | apply State.fill_since | apply State.sramCount_since)
    | (extract_lets +onlyGivenNames t; refine State.since_cut (P := P) (t := t) ?_ ?_; all_goals first | (intro ht; clear_value t) | subst t)
    | split)

theorem State.storeLine_since (s : State) (e t pa : Nat) (b : Bytes) (hs : s.since P)
    : (State.storeLine s e t pa b).since P := by
  unfold State.storeLine
  repeat' (first
    | (with_reducible first
        | assumption | apply State.fill_since | apply State.setEng_since | apply State.sramCount_since
        | apply State.store_since)
    | extract_lets +onlyGivenNames t | split)

theorem State.fetchLine_since (s : State) (e t pa : Nat) (hs : s.since P) : (State.fetchLine s e t pa).since P := by
  unfold State.fetchLine
  repeat' (first
    | (with_reducible first
        | assumption | apply State.pmc_since | apply State.meets_since | apply State.setEng_since
        | apply State.drew_since)
    | extract_lets +onlyGivenNames t | split)

theorem State.mmuInvCtl_since (s : State) (w : Nat) (hs : s.since P) : (State.mmuInvCtl s w).since P := by
  unfold State.mmuInvCtl
  repeat' (first
    | (with_reducible first | assumption | apply State.setField_since)
    | simp -zeta only [↓State.since_mk] | extract_lets +onlyGivenNames t | split)

theorem State.invalDone_since (s : State) (hs : s.since P) : (State.invalDone s).since P := by
  unfold State.invalDone
  repeat' (first
    | (with_reducible first | assumption | apply State.setField_since)
    | simp -zeta only [↓State.since_mk] | split)

theorem State.putKey_since (s : State) (idx : Nat) (k : KeyEntry) (hs : s.since P) : (State.putKey s idx k).since P := by
  unfold State.putKey
  repeat' with_reducible first | assumption | apply State.store_since

theorem State.holdKey_since (s : State) (mkey : Nat) (hs : s.since P) : (State.holdKey s mkey).since P := by
  unfold State.holdKey
  repeat' (first
    | (with_reducible first | assumption | apply State.putKey_since)
    | extract_lets +onlyGivenNames t | split)

theorem State.dropKey_since (s : State) (mkey : Nat) (hs : s.since P) : (State.dropKey s mkey).since P := by
  unfold State.dropKey
  repeat' (first
    | (with_reducible first | assumption | apply State.putKey_since)
    | extract_lets +onlyGivenNames t | split)

theorem State.wireNext_since (s : State) (hs : s.since P) : (State.wireNext s).since P := by
  unfold State.wireNext
  repeat' (first
    | (with_reducible first | assumption | apply State.emit_since)
    | simp -zeta only [↓State.since_mk] | extract_lets +onlyGivenNames t | split)

theorem State.pushFrame_since (s : State) (f : MirFrame) (hs : s.since P) : (State.pushFrame s f).since P := by
  unfold State.pushFrame
  repeat' (first
    | (with_reducible first | assumption | apply State.wireNext_since)
    | simp -zeta only [↓State.since_mk] | split)

theorem State.mirror_since (s : State) (kind : MirKind) (args : List Nat) (b : Bytes) (hs : s.since P)
    : (State.mirror s kind args b).since P := by
  unfold State.mirror
  repeat' with_reducible first | assumption | apply State.pushFrame_since

theorem State.mirrorLog_since (s : State) (r : LogRec) (hs : s.since P) : (State.mirrorLog s r).since P := by
  unfold State.mirrorLog
  repeat' with_reducible first | assumption | apply State.pushFrame_since

theorem State.logRec_since (s : State) (k : LogKind) (hs : s.since P) : (State.logRec s k).1.since P := by
  unfold State.logRec
  repeat' (first
    | (with_reducible first | assumption | apply State.mirrorLog_since)
    | simp -zeta only [↓State.since_mk] | extract_lets +onlyGivenNames t | split)

theorem State.touch_since (s : State) (hs : s.since P) : (State.touch s).since P := by
  unfold State.touch
  repeat' (first | with_reducible assumption | simp -zeta only [↓State.since_mk])

theorem State.cfgPut_since (s : State) (typ key : Nat) (v : Option CfgVal) (hs : s.since P)
    : (State.cfgPut s typ key v).since P := by
  unfold State.cfgPut
  repeat' (first | with_reducible assumption | simp -zeta only [↓State.since_mk])

theorem State.setFunc_since (s : State) (f : Nat) (x : EpFunc) (hs : s.since P) : (State.setFunc s f x).since P := by
  unfold State.setFunc
  repeat' (first | with_reducible assumption | simp -zeta only [↓State.since_mk])

theorem State.syncEgress_since (s : State) (pt : Nat) (hs : s.since P) : (State.syncEgress s pt).since P := by
  unfold State.syncEgress
  repeat' (first | with_reducible assumption | simp -zeta only [↓State.since_mk] | extract_lets +onlyGivenNames t)

theorem State.pushEgress_since (s : State) (pt cls : Nat) (w : EgWhat) (cpl : Option Cpl) (more : Bool) (hs : s.since P)
    : (State.pushEgress s pt cls w cpl more).since P := by
  unfold State.pushEgress
  repeat' (first
    | (with_reducible first | assumption | apply State.syncEgress_since)
    | simp -zeta only [↓State.since_mk])

theorem State.dropEgress_since (s : State) (keep : EgUnit → Bool) (hs : s.since P) : (State.dropEgress s keep).since P := by
  unfold State.dropEgress
  repeat' (first
    | (with_reducible first
        | assumption | apply State.syncEgress_since | refine State.since_foldl ?_ (fun x y hx => ?_))
    | simp -zeta only [↓State.since_mk])

theorem State.setOdt_since (s : State) (c : Nat) (x : OdtConn) (hs : s.since P) : (State.setOdt s c x).since P := by
  unfold State.setOdt
  repeat' (first | with_reducible assumption | simp -zeta only [↓State.since_mk])

theorem State.odtWire_since (s : State) (k cls qpn flags seq : Nat) (msg : OdtOut) (hs : s.since P)
    : (State.odtWire s k cls qpn flags seq msg).since P := by
  unfold State.odtWire
  repeat' with_reducible first | assumption | apply State.sendAs_since

theorem State.odtEmit_since (s : State) (k cls qpn flags : Nat) (msg : OdtOut) (hs : s.since P)
    : (State.odtEmit s k cls qpn flags msg).since P := by
  unfold State.odtEmit
  repeat' with_reducible first | assumption | apply State.setOdt_since | apply State.odtWire_since

theorem State.odtAgain_since (s : State) (k seq : Nat) (hs : s.since P) : (State.odtAgain s k seq).since P := by
  unfold State.odtAgain
  repeat' (first
    | (with_reducible first
        | assumption | apply State.setOdt_since | apply State.count_since | apply State.odtWire_since)
    | extract_lets +onlyGivenNames t | split)

theorem State.heldSend_since (s : State) (h : HeldFrame) (hs : s.since P) : (State.heldSend s h).since P := by
  unfold State.heldSend
  repeat' (first
    | (with_reducible first
        | assumption | apply State.odtEmit_since | apply State.odtAgain_since | apply State.sendAs_since)
    | split)

theorem State.heldRelease_since (s : State) (mac : Nat) (hs : s.since P) : (State.heldRelease s mac).since P := by
  unfold State.heldRelease
  repeat' (first
    | (with_reducible first | assumption | apply State.heldSend_since | refine State.since_foldl ?_ (fun x y hx => ?_))
    | simp -zeta only [↓State.since_mk])

theorem State.sendOrHold_since (s : State) (h : HeldFrame) (hs : s.since P) : (State.sendOrHold s h).since P := by
  unfold State.sendOrHold
  repeat' (first
    | (with_reducible first | assumption | apply State.heldRelease_since | apply State.heldSend_since)
    | simp -zeta only [↓State.since_mk]
    | (extract_lets +onlyGivenNames t; refine State.since_cut (P := P) (t := t) ?_ ?_; all_goals first | (intro ht; clear_value t) | subst t)
    | split)

theorem State.odtCtl_since (s : State) (k qpn flags : Nat) (msg : OdtOut) (cls : Nat) (hs : s.since P)
    : (State.odtCtl s k qpn flags msg cls).since P := by
  unfold State.odtCtl
  repeat' (first | (with_reducible first | assumption | apply State.sendOrHold_since) | split)

theorem State.dropHeld_since (s : State) (k : Nat) (hs : s.since P) : (State.dropHeld s k).since P := by
  unfold State.dropHeld
  repeat' (first | with_reducible assumption | simp -zeta only [↓State.since_mk])

theorem State.setRoce_since (s : State) (k : Nat) (x : RoceConn) (hs : s.since P) : (State.setRoce s k x).since P := by
  unfold State.setRoce
  repeat' (first | with_reducible assumption | simp -zeta only [↓State.since_mk])

theorem State.rocePump_since (n k : Nat) (s : State) (hs : s.since P) : (State.rocePump n k s).since P := by
  induction n generalizing s with
  | zero => exact hs
  | succ n ih =>
    unfold State.rocePump
    repeat' (first
      | (with_reducible first
          | assumption | apply State.logRec_since | apply State.setRoce_since | apply State.sendAs_since | apply ih
          | refine since_foldl_fst ?_ (fun x y hx => ?_))
      | simp -zeta only [↓State.since_mk] | extract_lets +onlyGivenNames t | split)

theorem State.roceSend_since (s : State) (k : Nat) (r : RoceReq) (hs : s.since P) : (State.roceSend s k r).since P := by
  unfold State.roceSend
  repeat' (first | (with_reducible first | assumption | apply State.setRoce_since | apply State.rocePump_since) | split)

theorem State.roceFrame_since (s : State) (mac sub cls : Nat) (o : Out) (hs : s.since P)
    : (State.roceFrame s mac sub cls o).since P := by
  unfold State.roceFrame
  repeat' with_reducible first | assumption | apply State.sendOrHold_since

theorem State.resumeMac_since (s : State) (mac : Nat) (hs : s.since P) : (State.resumeMac s mac).since P := by
  unfold State.resumeMac
  repeat' with_reducible first
    | assumption | apply State.heldRelease_since | apply State.rocePump_since
    | refine State.since_foldl ?_ (fun x y hx => ?_)

theorem State.epPump_since (n : Nat) (s : State) (hs : s.since P) : (State.epPump n s).since P := by
  induction n generalizing s with
  | zero => exact hs
  | succ n ih =>
    unfold State.epPump
    repeat' (first
      | (with_reducible first | assumption | apply State.emit_since | apply ih)
      | simp -zeta only [↓State.since_mk] | split)

theorem State.epRead_since (s : State) (f a len : Nat) (who : Nat → DmaFor) (hs : s.since P)
    : (State.epRead s f a len who).since P := by
  unfold State.epRead
  repeat' (first | (with_reducible first | assumption | apply State.epPump_since) | simp -zeta only [↓State.since_mk])

theorem State.sendVector_since (s : State) (f v cls : Nat) (hs : s.since P) : (State.sendVector s f v cls).since P := by
  unfold State.sendVector
  repeat' (first
    | (with_reducible first | assumption | apply State.pushEgress_since | apply State.setFunc_since)
    | split)

theorem State.pushMessage_since (s : State) (pt cls : Nat) (cpl : Option Cpl) (l : List EgWhat) (hs : s.since P) :
    (State.pushMessage s pt cls cpl l).since P := by
  induction l generalizing s with
  | nil => exact hs
  | cons w l ih =>
    cases l with
    | nil => exact State.pushEgress_since _ _ _ _ _ _ hs
    | cons a l => exact ih _ (State.pushEgress_since _ _ _ _ _ _ hs)

theorem State.hostPut_since (s : State) (mkey a cls owner : Nat) (b : Bytes) (cpl : Option Cpl) (hs : s.since P)
    : (State.hostPut s mkey a cls owner b cpl).since P := by
  unfold State.hostPut
  extract_lets k bus f n c ps
  split
  · exact State.pushMessage_since _ _ _ _ _ hs
  · exact State.pushMessage_since _ _ _ _ _ hs
  · split
    · exact State.pushMessage_since _ _ _ _ _ hs
    · exact hs
  · exact State.store_since _ _ _ hs

theorem State.descFail_since (s : State) (id status : Nat) (hs : s.since P) : (State.descFail s id status).since P := by
  unfold State.descFail
  repeat' (first
    | with_reducible assumption | simp -zeta only [↓State.since_mk] | extract_lets +onlyGivenNames t | split)

theorem State.descsFail_since (s : State) (kind binding status : Nat) (hs : s.since P)
    : (State.descsFail s kind binding status).since P := by
  unfold State.descsFail
  repeat' with_reducible first
    | assumption | apply State.descFail_since | refine State.since_foldl ?_ (fun x y hx => ?_)

theorem State.setGroup_since (s : State) (i : Nat) (g : Group) (hs : s.since P) : (State.setGroup s i g).since P := by
  unfold State.setGroup
  repeat' (first | with_reducible assumption | simp -zeta only [↓State.since_mk])

theorem State.updGroup_since (s : State) (i : Nat) (f : Group → Group) (hs : s.since P)
    : (State.updGroup s i f).since P := by
  unfold State.updGroup
  repeat' (first | (with_reducible first | assumption | apply State.setGroup_since) | split)

theorem State.updMember_since (s : State) (sl : Nat) (f : Member → Member) (hs : s.since P)
    : (State.updMember s sl f).since P := by
  unfold State.updMember
  repeat' (first
    | (with_reducible first | assumption | apply State.trace_since)
    | simp -zeta only [↓State.since_mk]
    | (extract_lets +onlyGivenNames t; refine State.since_cut (P := P) (t := t) ?_ ?_; all_goals first | (intro ht; clear_value t) | subst t)
    | extract_lets +onlyGivenNames t | split)

theorem State.setQp_since (s : State) (q : Nat) (x : Qp) (hs : s.since P) : (State.setQp s q x).since P := by
  unfold State.setQp
  repeat' (first
    | (with_reducible first | assumption | apply State.trace_since)
    | simp -zeta only [↓State.since_mk]
    | (extract_lets +onlyGivenNames t; refine State.since_cut (P := P) (t := t) ?_ ?_; all_goals first | (intro ht; clear_value t) | subst t)
    | split)

theorem State.updQp_since (s : State) (q : Nat) (f : Qp → Qp) (hs : s.since P) : (State.updQp s q f).since P := by
  unfold State.updQp
  repeat' with_reducible first | assumption | apply State.setQp_since

theorem State.updCmd_since (s : State) (seq : Nat) (f : Cmd → Cmd) (hs : s.since P) : (State.updCmd s seq f).since P := by
  unfold State.updCmd
  repeat' (first | with_reducible assumption | simp -zeta only [↓State.since_mk])

theorem State.atQpe_since (s : State) (d : Door) (g : State → State) (hs : s.since P) (hg : ∀ x0, x0.since P → (g x0).since P)
    : (State.atQpe s d g).since P := by
  unfold State.atQpe
  repeat' (first
    | (with_reducible first | assumption | apply hg | apply State.emit_since)
    | simp -zeta only [↓State.since_mk] | split)

theorem State.doorsRefused_since (s : State) (hs : s.since P) : (State.doorsRefused s).since P := by
  unfold State.doorsRefused
  repeat' (first | (with_reducible first | assumption | apply State.emits_since) | simp -zeta only [↓State.since_mk])

theorem State.useContext_since (s : State) (q : Nat) (hs : s.since P) : (State.useContext s q).since P := by
  unfold State.useContext
  repeat' (first
    | (with_reducible first | assumption | apply State.count_since)
    | simp -zeta only [↓State.since_mk] | extract_lets +onlyGivenNames t | split)

theorem State.badDoorbell_since (s : State) (hs : s.since P) : (State.badDoorbell s).since P := by
  unfold State.badDoorbell
  repeat' with_reducible first | assumption | apply State.count_since | apply State.event_since

theorem State.sqTail_since (s : State) (q t' : Nat) (hs : s.since P) : (State.sqTail s q t').1.since P := by
  unfold State.sqTail
  repeat' (first
    | (with_reducible first
        | assumption | apply State.count_since | apply State.useContext_since | apply State.setQp_since
        | apply State.badDoorbell_since)
    | extract_lets +onlyGivenNames t | split)

theorem State.cqHeadDb_since (s : State) (q c' : Nat) (hs : s.since P) : (State.cqHeadDb s q c').1.since P := by
  unfold State.cqHeadDb
  repeat' (first
    | (with_reducible first
        | assumption | apply State.count_since | apply State.useContext_since | apply State.setQp_since
        | apply State.badDoorbell_since)
    | extract_lets +onlyGivenNames t | split)

theorem State.unstage_since (s : State) (pt n : Nat) (hs : s.since P) : (State.unstage s pt n).since P := by
  unfold State.unstage
  repeat' (first | with_reducible assumption | simp -zeta only [↓State.since_mk] | split)

theorem State.c0End_since (s : State) (seq n : Nat) (hs : s.since P) : (State.c0End s seq n).since P := by
  unfold State.c0End
  repeat' (first
    | (with_reducible first | assumption | apply State.updCmd_since)
    | simp -zeta only [↓State.since_mk] | split)

theorem State.releaseMedia_since (s : State) (c : Cmd) (hs : s.since P) : (State.releaseMedia s c).since P := by
  unfold State.releaseMedia
  repeat' (first
    | (with_reducible first
        | assumption | apply State.discardRuns_since | apply State.freeHeld_since | apply State.freeSlice_since
        | apply State.unstage_since | apply State.updGroup_since | refine State.since_foldl ?_ (fun x y hx => ?_))
    | simp -zeta only [↓State.since_mk])

theorem State.release_since (s : State) (c : Cmd) (hs : s.since P) : (State.release s c).since P := by
  unfold State.release
  repeat' (first
    | (with_reducible first
        | assumption | apply State.releaseMedia_since | apply State.unstage_since | apply State.releaseCells_since
        | apply State.updCmd_since | apply State.dropKey_since | refine State.since_foldl ?_ (fun x y hx => ?_))
    | simp -zeta only [↓State.since_mk] | split)

theorem State.dropCmd_since (s : State) (c : Cmd) (hs : s.since P) : (State.dropCmd s c).since P := by
  unfold State.dropCmd
  repeat' (first
    | (with_reducible first | assumption | apply State.release_since | apply State.trace_since)
    | simp -zeta only [↓State.since_mk]
    | (extract_lets +onlyGivenNames t; refine State.since_cut (P := P) (t := t) ?_ ?_; all_goals first | (intro ht; clear_value t) | subst t)
    | split)

theorem State.dropFetch_since (s : State) (q : Nat) (hs : s.since P) : (State.dropFetch s q).since P := by
  unfold State.dropFetch
  repeat' (first
    | with_reducible assumption | simp -zeta only [↓State.since_mk]
    | (extract_lets +onlyGivenNames t; refine State.since_cut (P := P) (t := t) ?_ ?_; all_goals first | (intro ht; clear_value t) | subst t)
    | extract_lets +onlyGivenNames t)

theorem State.lostCompletion_since (s : State) (c : Cmd) (hs : s.since P) : (State.lostCompletion s c).since P := by
  unfold State.lostCompletion
  repeat' (first
    | (with_reducible first
        | assumption | apply State.setQp_since | apply State.dropFetch_since | apply State.dropCmd_since)
    | split)

theorem State.sendCompletion_since (s : State) (c : Cmd) (slot : Nat) (entry : Bytes) (hs : s.since P)
    : (State.sendCompletion s c slot entry).since P := by
  unfold State.sendCompletion
  repeat' (first
    | (with_reducible first
        | assumption | apply State.useContext_since | apply State.emit_since | apply State.hostPut_since
        | apply State.sendVector_since | apply State.pushEgress_since)
    | (extract_lets +onlyGivenNames t; refine State.since_cut (P := P) (t := t) ?_ ?_; all_goals first | (intro ht; clear_value t) | subst t)
    | extract_lets +onlyGivenNames t | split)

theorem State.callHook_since (s : State) (att : Nat) (c : Cmd) (hook : Nat) (input : Bytes) (hs : s.since P)
    : (State.callHook s att c hook input).since P := by
  unfold State.callHook
  repeat' (first
    | (with_reducible first | assumption | apply State.updCmd_since)
    | simp -zeta only [↓State.since_mk]
    | (extract_lets +onlyGivenNames t; refine State.since_cut (P := P) (t := t) ?_ ?_; all_goals first | (intro ht; clear_value t) | subst t))

theorem State.postTry_since (s : State) (seq : Nat) (hs : s.since P) : (State.postTry s seq).since P := by
  unfold State.postTry
  repeat' (first
    | (with_reducible first
        | assumption | apply State.dropCmd_since | apply State.lostCompletion_since | apply State.sendCompletion_since
        | apply State.touch_since | apply State.callHook_since | apply State.logRec_since | apply State.setQp_since
        | apply State.updCmd_since)
    | simp -zeta only [↓State.since_mk] | extract_lets +onlyGivenNames t | split)

theorem State.finishCore_since (s : State) (seq status info : Nat) (hs : s.since P)
    : (State.finishCore s seq status info).since P := by
  unfold State.finishCore
  repeat' with_reducible first | assumption | apply State.updCmd_since | apply State.postTry_since

theorem State.endEarly_since (s : State) (seq status : Nat) (hs : s.since P) : (State.endEarly s seq status).since P := by
  unfold State.endEarly
  repeat' (first
    | (with_reducible first
        | assumption | apply State.release_since | apply State.updCmd_since | apply State.finishCore_since)
    | split)

theorem State.endUnissued_since (s : State) (c : Cmd) (status : Nat) (hs : s.since P)
    : (State.endUnissued s c status).since P := by
  unfold State.endUnissued
  repeat' (first
    | (with_reducible first
        | assumption | apply State.updCmd_since | apply State.postTry_since | apply State.logRec_since)
    | split)

theorem State.freeQp_since (s : State) (q : Nat) (hs : s.since P) : (State.freeQp s q).since P := by
  unfold State.freeQp
  repeat' (first
    | (with_reducible first | assumption | apply State.dropFetch_since)
    | simp -zeta only [↓State.since_mk]
    | (extract_lets +onlyGivenNames t; refine State.since_cut (P := P) (t := t) ?_ ?_; all_goals first | (intro ht; clear_value t) | subst t)
    | extract_lets +onlyGivenNames t | split)

theorem State.drainEnd_since (s : State) (q : Nat) (hs : s.since P) : (State.drainEnd s q).since P := by
  unfold State.drainEnd
  repeat' (first
    | (with_reducible first
        | assumption | apply State.freeQp_since | apply State.touch_since | apply State.finishCore_since
        | apply State.setQp_since)
    | extract_lets +onlyGivenNames t | split)

theorem State.freeKeyEntry_since (s : State) (idx : Nat) (hs : s.since P) : (State.freeKeyEntry s idx).since P := by
  unfold State.freeKeyEntry
  dsimp only
  apply State.putKey_since
  split
  · exact State.since_mem hs (Memory.wf_lose hs.1.2.1 _ _) rfl rfl rfl rfl rfl rfl
  · exact hs

theorem State.walkBegin_since (s : State) (seq : Nat) (hs : s.since P) : (State.walkBegin s seq).since P := by
  unfold State.walkBegin
  repeat' (first | with_reducible assumption | simp -zeta only [↓State.since_mk])

theorem State.volumeMade_since (s : State) (h : Nat) (hs : s.since P) : (State.volumeMade s h).since P := by
  unfold State.volumeMade
  repeat' (first | with_reducible assumption | simp -zeta only [↓State.since_mk] | split)

theorem State.settleCmd_since (s : State) (hs : s.since P) : ∀ t, (State.settleCmd s) = some t → t.since P := by
  unfold State.settleCmd
  intro t ht
  split at ht
  · cases ht
    exact State.endEarly_since _ _ _ hs
  · split at ht
    · cases ht
      apply State.finishCore_since
      split
      · exact State.freeKeyEntry_since _ _ hs
      · split
        · exact State.volumeMade_since _ _ hs
        · exact State.walkBegin_since _ _ hs
    · cases ht

theorem State.settleStep_since (s : State) (hs : s.since P) : ∀ t, (State.settleStep s) = some t → t.since P := by
  unfold State.settleStep
  intro t ht
  split at ht
  · next h => cases ht; exact State.settleCmd_since _ hs _ h
  · split at ht
    · cases ht; exact State.drainEnd_since _ _ hs
    · split at ht
      · cases ht; exact State.setFunc_since _ _ _ hs
      · split at ht
        · cases ht; exact State.setOdt_since _ _ _ hs
        · cases ht

theorem State.settleN_since (n : Nat) (s : State) (hs : s.since P) : (State.settleN n s).since P := by
  induction n generalizing s with
  | zero => exact hs
  | succ n ih =>
    unfold State.settleN
    split
    · next h => exact ih _ (State.settleStep_since _ hs _ h)
    · exact hs

theorem State.settle_since (s : State) (hs : s.since P) : (State.settle s).since P := by
  unfold State.settle
  repeat' with_reducible first | assumption | apply State.settleN_since

theorem State.finish_since (s : State) (seq status info : Nat) (hs : s.since P)
    : (State.finish s seq status info).since P := by
  unfold State.finish
  repeat' with_reducible first | assumption | apply State.finishCore_since | apply State.settle_since

theorem State.qpError_since (s : State) (q : Nat) (hs : s.since P) : (State.qpError s q).since P := by
  unfold State.qpError
  repeat' (first
    | (with_reducible first
        | assumption | apply State.setQp_since | apply State.dropFetch_since | apply State.touch_since
        | apply State.settle_since)
    | extract_lets +onlyGivenNames t | split)

theorem State.resetReach_since (s : State) (q : Nat) (k : DrainKind) (hs : s.since P)
    : (State.resetReach s q k).since P := by
  unfold State.resetReach
  repeat' (first
    | (with_reducible first
        | assumption | apply State.setQp_since | apply State.dropFetch_since | apply State.endUnissued_since
        | apply State.lostCompletion_since | apply State.touch_since | apply State.settle_since
        | refine State.since_foldl ?_ (fun x y hx => ?_))
    | simp -zeta only [↓State.since_mk]
    | (extract_lets +onlyGivenNames t; refine State.since_cut (P := P) (t := t) ?_ ?_; all_goals first | (intro ht; clear_value t) | subst t)
    | extract_lets +onlyGivenNames t | split)

theorem State.writeSlot_since (s : State) (i off : Nat) (b : Bytes) (hs : s.since P)
    : (State.writeSlot s i off b).since P := by
  unfold State.writeSlot
  repeat' (first | with_reducible assumption | simp -zeta only [↓State.since_mk] | extract_lets +onlyGivenNames t)

theorem State.withPointers_since (s : State) (sys : Sys) (hs : s.since P) : (State.withPointers s sys).since P := by
  unfold State.withPointers
  repeat' (first
    | (with_reducible first | assumption | apply State.emit_since)
    | simp -zeta only [↓State.since_mk] | split | dsimp +zetaDelta only)

theorem State.putPointer_since (s : State) (slot trial : Nat) (hs : s.since P)
    : (State.putPointer s slot trial).since P := by
  unfold State.putPointer
  repeat' with_reducible first | assumption | apply State.withPointers_since

theorem State.compact_since (s : State) (hs : s.since P) : (State.compact s).since P := by
  unfold State.compact
  repeat' (first
    | (with_reducible first | assumption | apply State.emit_since | refine since_foldl_fst ?_ (fun x y hx => ?_))
    | simp -zeta only [↓State.since_mk] | extract_lets +onlyGivenNames t)

theorem State.placeRecord_since (s : State) (r : CfgRec) (hs : s.since P) : (State.placeRecord s r).since P := by
  unfold State.placeRecord
  repeat' (first
    | (with_reducible first | assumption | apply State.emit_since | apply State.compact_since)
    | simp -zeta only [↓State.since_mk]
    | (extract_lets +onlyGivenNames t; refine State.since_cut (P := P) (t := t) ?_ ?_; all_goals first | (intro ht; clear_value t) | subst t)
    | extract_lets +onlyGivenNames t | split)

theorem State.syncDispatch_since (s : State) (cluster : Nat) (hs : s.since P) : (State.syncDispatch s cluster).since P := by
  unfold State.syncDispatch
  repeat' (first | with_reducible assumption | simp -zeta only [↓State.since_mk] | extract_lets +onlyGivenNames t)

theorem State.syncAll_since (s : State) (hs : s.since P) : (State.syncAll s).since P := by
  unfold State.syncAll
  repeat' with_reducible first
    | assumption | apply State.syncDispatch_since | refine State.since_foldl ?_ (fun x y hx => ?_)

theorem State.makeReady_since (s : State) (seq : Nat) (hs : s.since P) : (State.makeReady s seq).since P := by
  unfold State.makeReady
  repeat' (first | (with_reducible first | assumption | apply State.updCmd_since) | simp -zeta only [↓State.since_mk])

theorem State.setShaperEntry_since (s : State) (tenant : Nat) (e : ShaperEntry) (hs : s.since P)
    : (State.setShaperEntry s tenant e).since P := by
  unfold State.setShaperEntry
  repeat' (first | with_reducible assumption | simp -zeta only [↓State.since_mk])

theorem State.clsCount_since (s : State) (r : Reg) (tenant i : Nat) (hs : s.since P)
    : (State.clsCount s r tenant i).since P := by
  unfold State.clsCount
  repeat' (first
    | (with_reducible first | assumption | apply State.count_since | apply State.setShaperEntry_since)
    | (extract_lets +onlyGivenNames t; refine State.since_cut (P := P) (t := t) ?_ ?_; all_goals first | (intro ht; clear_value t) | subst t)
    | split)

theorem State.applyColour_since (s : State) (seq : Nat) (col : Colour) (hs : s.since P)
    : (State.applyColour s seq col).since P := by
  unfold State.applyColour
  repeat' (first
    | (with_reducible first
        | assumption | apply State.clsCount_since | apply State.updCmd_since | apply State.makeReady_since)
    | split)

theorem State.holdCmd_since (s : State) (seq : Nat) (hs : s.since P) : (State.holdCmd s seq).since P := by
  unfold State.holdCmd
  repeat' with_reducible first | assumption | apply State.updCmd_since | apply State.clsCount_since

theorem State.police_since (s : State) (seq : Nat) (hs : s.since P) : (State.police s seq).since P := by
  unfold State.police
  repeat' (first
    | (with_reducible first
        | assumption | apply State.makeReady_since | apply State.holdCmd_since | apply State.setShaperEntry_since
        | apply State.applyColour_since)
    | extract_lets +onlyGivenNames t | split)

theorem State.classify_since (s : State) (seq : Nat) (hs : s.since P) : (State.classify s seq).since P := by
  unfold State.classify
  repeat' (first
    | (with_reducible first
        | assumption | apply State.updCmd_since | apply State.police_since | apply State.clsCount_since
        | apply State.callHook_since)
    | extract_lets +onlyGivenNames t | split)

theorem State.classResult_since (s : State) (seq : Nat) (r : Option Nat) (hs : s.since P)
    : (State.classResult s seq r).since P := by
  unfold State.classResult
  repeat' (first
    | (with_reducible first
        | assumption | apply State.updCmd_since | apply State.police_since | apply State.clsCount_since)
    | extract_lets +onlyGivenNames t | split)

theorem State.reject_since (s : State) (seq status info : Nat) (hs : s.since P)
    : (State.reject s seq status info).since P := by
  unfold State.reject
  repeat' with_reducible first | assumption | apply State.finishCore_since

theorem State.enter_since (s : State) (seq : Nat) (hs : s.since P) : (State.enter s seq).since P := by
  unfold State.enter
  repeat' (first
    | (with_reducible first
        | assumption | apply State.count_since | apply State.updCmd_since | apply State.reject_since
        | apply State.holdKey_since | apply State.classify_since | apply State.callHook_since)
    | (extract_lets +onlyGivenNames t; refine State.since_cut (P := P) (t := t) ?_ ?_; all_goals first | (intro ht; clear_value t) | subst t)
    | extract_lets +onlyGivenNames t | split)

theorem State.admissionResult_since (s : State) (seq : Nat) (failAction : Nat) (r : Option (Nat × Nat)) (hs : s.since P)
    : (State.admissionResult s seq failAction r).since P := by
  unfold State.admissionResult
  repeat' (first
    | (with_reducible first
        | assumption | apply State.updCmd_since | apply State.classify_since | apply State.reject_since)
    | split)

theorem State.ackTaken_since (s : State) (f : Face) (psn : Nat) (r : Option Nat) (hs : s.since P)
    : (State.ackTaken s f psn r).since P := by
  unfold State.ackTaken
  repeat' (first
    | (with_reducible first | assumption | apply State.setRoce_since | apply State.roceFrame_since)
    | split)

theorem State.take_since (s : State) (q slot : Nat) (entry : Bytes) (src : Nat) (hs : s.since P)
    : (State.take s q slot entry src).since P := by
  unfold State.take
  repeat' (first
    | (with_reducible first
        | assumption | apply State.setQp_since | apply State.logRec_since | apply State.ackTaken_since
        | apply State.enter_since | apply State.reject_since | apply State.callHook_since)
    | simp -zeta only [↓State.since_mk] | split | dsimp +zetaDelta only)

theorem State.personalityResult_since (s : State) (seq : Nat) (r : Option Bytes) (hs : s.since P)
    : (State.personalityResult s seq r).since P := by
  unfold State.personalityResult
  repeat' (first
    | (with_reducible first
        | assumption | apply State.updCmd_since | apply State.enter_since | apply State.reject_since)
    | split)

theorem State.takeInline_since (n q : Nat) (s : State) (hs : s.since P) : (State.takeInline n q s).since P := by
  induction n generalizing s with
  | zero => exact hs
  | succ n ih =>
    unfold State.takeInline
    repeat' (first
      | (with_reducible first | assumption | apply State.setQp_since | apply State.take_since | apply ih)
      | extract_lets +onlyGivenNames t | split)

theorem State.pump_since (s : State) (q : Nat) (hs : s.since P) : (State.pump s q).since P := by
  unfold State.pump
  repeat' with_reducible first
    | assumption | apply State.takeInline_since | apply State.settle_since | apply State.syncAll_since

theorem State.flow_since (s : State) (hs : s.since P) : (State.flow s).since P := by
  unfold State.flow
  repeat' with_reducible first
    | assumption | apply State.settle_since | apply State.takeInline_since | apply State.syncAll_since
    | refine State.since_foldl ?_ (fun x y hx => ?_)

theorem State.inlineDb_since (s : State) (q t' : Nat) (entry : Bytes) (src : Nat) (hs : s.since P)
    : (State.inlineDb s q t' entry src).1.since P := by
  unfold State.inlineDb
  repeat' (first
    | (with_reducible first
        | assumption | apply State.count_since | apply State.useContext_since | apply State.badDoorbell_since
        | apply State.clsCount_since | apply State.setQp_since | apply State.pump_since)
    | extract_lets +onlyGivenNames t | split)

theorem State.masterDisabled_since (s : State) (f : Nat) (seq : Option Nat) (hs : s.since P)
    : (State.masterDisabled s f seq).since P := by
  unfold State.masterDisabled
  repeat' (first
    | (with_reducible first
        | assumption | apply State.count_since | apply State.setFunc_since | apply State.endEarly_since
        | apply State.qpError_since | apply State.flow_since | refine State.since_foldl ?_ (fun x y hx => ?_))
    | split)

theorem State.whenOn_since (s : State) (island : Nat) (f : State → State) (hs : s.since P) (hf : ∀ x0, x0.since P → (f x0).since P)
    : (State.whenOn s island f).since P := by
  unfold State.whenOn
  repeat' (first | (with_reducible first | assumption | apply hf) | split)

theorem State.adminRun_since (s : State) (q cid op : Nat) (f : State → Cmd → State) (hs : s.since P) (hf : ∀ x0 x1, x0.since P → (f x0 x1).since P)
    : (State.adminRun s q cid op f).since P := by
  unfold State.adminRun
  repeat' (first
    | (with_reducible first | assumption | apply hf | apply State.finish_since | apply State.flow_since)
    | extract_lets +onlyGivenNames t | split)

theorem State.markPast_since (s : State) (seq : Nat) (hs : s.since P) : (State.markPast s seq).since P := by
  unfold State.markPast
  repeat' with_reducible first | assumption | apply State.updCmd_since

theorem State.markWaiting_since (s : State) (seq : Nat) (hs : s.since P) : (State.markWaiting s seq).since P := by
  unfold State.markWaiting
  repeat' with_reducible first | assumption | apply State.updCmd_since

theorem State.endStep_since (s : State) (c : Cmd) (hs : s.since P) : (State.endStep s c).since P := by
  unfold State.endStep
  repeat' (first | with_reducible assumption | simp -zeta only [↓State.since_mk] | split)

theorem State.entryFetch_since (s : State) (q : Nat) (hs : s.since P) : (State.entryFetch s q).since P := by
  unfold State.entryFetch
  repeat' (first
    | (with_reducible first
        | assumption | apply State.useContext_since | apply State.count_since | apply State.qpError_since
        | apply State.flow_since | apply State.setQp_since | apply State.emit_since | apply State.epRead_since
        | apply State.masterDisabled_since | apply State.setOdt_since | apply State.odtCtl_since
        | apply State.updQp_since)
    | extract_lets +onlyGivenNames t | split)

theorem State.takeSlots_since (s : State) (q slot : Nat) (b : Bytes) (n : Nat) (hs : s.since P) :
    (State.takeSlots s q slot b n).since P := by
  induction n generalizing s slot b with
  | zero => exact hs
  | succ n ih =>
    unfold State.takeSlots
    repeat' with_reducible first | assumption | apply State.take_since | apply ih

theorem State.entryFetchDone_since (s : State) (q : Nat) (hs : s.since P) : (State.entryFetchDone s q).since P := by
  unfold State.entryFetchDone
  repeat' (first
    | (with_reducible first
        | assumption | apply State.useContext_since | apply State.setQp_since | apply State.takeSlots_since
        | apply State.pump_since)
    | extract_lets +onlyGivenNames t | split)

theorem execEntryFetch_since (qp : Nat) (s : State) (hs : s.since P) : goodOut P (execEntryFetch qp s) := by
  unfold execEntryFetch
  repeat' with_reducible first | assumption | apply goodOut_next | apply State.entryFetch_since

theorem execEntryFetchDone_since (qp : Nat) (s : State) (hs : s.since P) : goodOut P (execEntryFetchDone qp s) := by
  unfold execEntryFetchDone
  repeat' with_reducible first | assumption | apply goodOut_next | apply State.entryFetchDone_since

theorem State.flush_since (s : State) (q cid : Nat) (hs : s.since P) : (State.flush s q cid).since P := by
  unfold State.flush
  repeat' (first
    | (with_reducible first
        | assumption | apply State.markWaiting_since | apply State.endStep_since | apply State.flow_since)
    | split)

theorem State.abort_since (s : State) (q cid : Nat) (hs : s.since P) : (State.abort s q cid).since P := by
  unfold State.abort
  repeat' (first
    | (with_reducible first
        | assumption | apply State.finish_since | apply State.flow_since | apply State.updCmd_since
        | apply State.endUnissued_since | apply State.settle_since | apply State.endEarly_since)
    | extract_lets +onlyGivenNames t | split)

theorem execFlush_since (qp cid : Nat) (s : State) (hs : s.since P) : goodOut P (execFlush qp cid s) := by
  unfold execFlush
  repeat' with_reducible first | assumption | apply goodOut_next | apply State.flush_since

theorem execAbort_since (qp cid : Nat) (s : State) (hs : s.since P) : goodOut P (execAbort qp cid s) := by
  unfold execAbort
  repeat' with_reducible first | assumption | apply goodOut_next | apply State.abort_since

theorem State.createQp_since (s : State) (q : Nat) (x : Qp) (hs : s.since P) : (State.createQp s q x).since P := by
  unfold State.createQp
  repeat' (first
    | (with_reducible first
        | assumption | apply State.setQp_since | apply State.useContext_since | apply State.setReg_since
        | apply State.setShaperEntry_since | apply State.touch_since)
    | split)

theorem execCreateQp_since (qp cid : Nat) (s : State) (hs : s.since P) : goodOut P (execCreateQp qp cid s) := by
  unfold execCreateQp
  repeat' with_reducible first
    | assumption | apply goodOut_next | refine State.adminRun_since _ _ _ _ _ ?_ (fun x0 x1 hx => ?_)
    | apply State.markPast_since | apply State.createQp_since | apply State.finish_since | apply State.flow_since

theorem State.resetCommand_since (s : State) (c : Cmd) (k : DrainKind) (hs : s.since P)
    : (State.resetCommand s c k).since P := by
  unfold State.resetCommand
  repeat' with_reducible first
    | assumption | apply State.markPast_since | apply State.markWaiting_since | apply State.resetReach_since
    | apply State.flow_since

theorem execDeleteQp_since (qp cid : Nat) (s : State) (hs : s.since P) : goodOut P (execDeleteQp qp cid s) := by
  unfold execDeleteQp
  repeat' with_reducible first
    | assumption | apply goodOut_next | refine State.adminRun_since _ _ _ _ _ ?_ (fun x0 x1 hx => ?_)
    | apply State.resetCommand_since

theorem execResetQp_since (qp cid : Nat) (s : State) (hs : s.since P) : goodOut P (execResetQp qp cid s) := by
  unfold execResetQp
  repeat' with_reducible first
    | assumption | apply goodOut_next | refine State.adminRun_since _ _ _ _ _ ?_ (fun x0 x1 hx => ?_)
    | apply State.resetCommand_since

theorem State.inspect_since (s : State) (q : Nat) (hs : s.since P) : (State.inspect s q).since P := by
  unfold State.inspect
  repeat' with_reducible first | assumption | apply State.setReg_since

theorem execQpeInspSel_since (v : Word) (s : State) (hs : s.since P) : goodOut P (execQpeInspSel v s) := by
  unfold execQpeInspSel
  repeat' with_reducible first
    | assumption | apply goodOut_next | refine State.whenOn_since _ _ _ ?_ (fun x0 hx => ?_) | apply State.setReg_since
    | apply State.inspect_since

theorem State.retest_since (s : State) (tenant : Nat) (l : List Cmd) (hs : s.since P)
    : (State.retest s tenant l).since P := by
  induction l generalizing s with
  | nil =>
    unfold State.retest
    repeat' (first
      | (with_reducible first | assumption | apply State.setShaperEntry_since | apply State.applyColour_since)
      | simp -zeta only [↓State.since_mk] | split | (refine State.since_fst ?_ (by with_reducible assumption)))
  | cons c l ih =>
    unfold State.retest
    repeat' (first
      | (with_reducible first
          | assumption | apply State.setShaperEntry_since | apply State.applyColour_since | apply ih)
      | extract_lets +onlyGivenNames t | split)

theorem State.finishShapers_since (s : State) (hs : s.since P) : (State.finishShapers s).since P := by
  unfold State.finishShapers
  repeat' with_reducible first
    | assumption | apply State.finishCore_since | refine State.since_foldl ?_ (fun x y hx => ?_)

theorem State.advanceGnm_since (s : State) (ns : Nat) (hs : s.since P) : (State.advanceGnm s ns).since P := by
  unfold State.advanceGnm
  repeat' (first | (with_reducible first | assumption | apply State.advance_since) | split)

theorem State.refills_since (s : State) (k : Nat) (hs : s.since P) : (State.refills s k).since P := by
  unfold State.refills
  repeat' (first
    | (with_reducible first
        | assumption | apply State.retest_since | apply State.finishShapers_since | apply State.flow_since
        | refine State.since_foldl ?_ (fun x y hx => ?_))
    | simp -zeta only [↓State.since_mk])

theorem State.refillAll_since (n left : Nat) (s : State) (hs : s.since P) : (State.refillAll n left s).since P := by
  induction n generalizing s left with
  | zero => exact hs
  | succ n ih =>
    unfold State.refillAll
    split
    · exact hs
    · exact ih _ _ (State.refills_since _ _ hs)

theorem State.policerRefill_since (s : State) (hs : s.since P) : (State.policerRefill s).since P := by
  unfold State.policerRefill
  exact State.refillAll_since _ _ _ (State.advanceGnm_since _ _ hs)

theorem execPolicerRefill_since (s : State) (hs : s.since P) : goodOut P (execPolicerRefill s) := by
  unfold execPolicerRefill
  repeat' with_reducible first
    | assumption | apply goodOut_next | refine State.whenOn_since _ _ _ ?_ (fun x0 hx => ?_)
    | apply State.policerRefill_since

theorem State.applyShaper_since (s : State) (tenant : Nat) (v : Shaper) (hs : s.since P)
    : (State.applyShaper s tenant v).since P := by
  unfold State.applyShaper
  repeat' with_reducible first
    | assumption | apply State.setShaperEntry_since | apply State.cfgPut_since | apply State.touch_since

theorem State.setDefaults_since (s : State) (v : Shaper) (hs : s.since P) : (State.setDefaults s v).since P := by
  unfold State.setDefaults
  repeat' (first
    | (with_reducible first | assumption | apply State.cfgPut_since | apply State.touch_since)
    | simp -zeta only [↓State.since_mk])

theorem State.removeShaper_since (s : State) (tenant : Nat) (hs : s.since P) : (State.removeShaper s tenant).since P := by
  unfold State.removeShaper
  repeat' (first
    | (with_reducible first
        | assumption | apply State.setShaperEntry_since | apply State.cfgPut_since | apply State.touch_since)
    | split)

theorem execSetShaper_since (qp cid : Nat) (s : State) (hs : s.since P) : goodOut P (execSetShaper qp cid s) := by
  unfold execSetShaper
  repeat' (first
    | (with_reducible first
        | assumption | apply goodOut_next | refine State.adminRun_since _ _ _ _ _ ?_ (fun x0 x1 hx => ?_)
        | apply State.markPast_since | apply State.markWaiting_since | apply State.setDefaults_since
        | apply State.removeShaper_since | apply State.applyShaper_since)
    | extract_lets +onlyGivenNames t | split)

theorem State.shaperCommit_since (s : State) (w : Nat) (hs : s.since P) : (State.shaperCommit s w).since P := by
  unfold State.shaperCommit
  repeat' (first
    | (with_reducible first
        | assumption | apply State.setReg_since | apply State.setField_since | apply State.setDefaults_since
        | apply State.applyShaper_since)
    | extract_lets +onlyGivenNames t | split)

theorem execShaperCommit_since (v : Word) (s : State) (hs : s.since P) : goodOut P (execShaperCommit v s) := by
  unfold execShaperCommit
  repeat' with_reducible first
    | assumption | apply goodOut_next | refine State.whenOn_since _ _ _ ?_ (fun x0 hx => ?_)
    | apply State.shaperCommit_since

theorem State.shaperCapture_since (s : State) (w : Nat) (hs : s.since P) : (State.shaperCapture s w).since P := by
  unfold State.shaperCapture
  repeat' with_reducible first | assumption | apply State.setReg_since

theorem execClsShpSel_since (v : Word) (s : State) (hs : s.since P) : goodOut P (execClsShpSel v s) := by
  unfold execClsShpSel
  repeat' with_reducible first
    | assumption | apply goodOut_next | refine State.whenOn_since _ _ _ ?_ (fun x0 hx => ?_)
    | apply State.shaperCapture_since

theorem State.policyPeriod_since (s : State) (att : Nat) (hs : s.since P) : (State.policyPeriod s att).since P := by
  unfold State.policyPeriod
  repeat' (first
    | (with_reducible first | assumption | apply State.advanceTo_since | apply State.setShaperEntry_since)
    | simp -zeta only [↓State.since_mk] | split | dsimp +zetaDelta only)

theorem execTenantPolicyPeriod_since (att : Nat) (s : State) (hs : s.since P)
    : goodOut P (execTenantPolicyPeriod att s) := by
  unfold execTenantPolicyPeriod
  repeat' with_reducible first | assumption | apply goodOut_next | apply State.policyPeriod_since

theorem State.policyResult_since (s : State) (tenant : Nat) (out : Bytes) (hs : s.since P)
    : (State.policyResult s tenant out).1.since P := by
  unfold State.policyResult
  repeat' (first
    | (with_reducible first | assumption | apply State.applyShaper_since)
    | extract_lets +onlyGivenNames t | split)

theorem State.dispatchTo_since (s : State) (c : Cmd) (e t : Nat) (hs : s.since P) : (State.dispatchTo s c e t).since P := by
  unfold State.dispatchTo
  repeat' (first
    | (with_reducible first | assumption | apply State.updCmd_since)
    | simp -zeta only [↓State.since_mk]
    | (extract_lets +onlyGivenNames t; refine State.since_cut (P := P) (t := t) ?_ ?_; all_goals first | (intro ht; clear_value t) | subst t))

theorem State.dispatch_since (s : State) (cluster : Nat) (hs : s.since P) : (State.dispatch s cluster).since P := by
  unfold State.dispatch
  repeat' (first
    | (with_reducible first
        | assumption | apply State.syncDispatch_since | apply State.dispatchTo_since | apply State.clsCount_since)
    | simp -zeta only [↓State.since_mk]
    | (extract_lets +onlyGivenNames t; refine State.since_cut (P := P) (t := t) ?_ ?_; all_goals first | (intro ht; clear_value t) | subst t)
    | extract_lets +onlyGivenNames t | split)

theorem State.egressSend_since (s : State) (u : EgUnit) (hs : s.since P) : (State.egressSend s u).since P := by
  unfold State.egressSend
  repeat' (first
    | (with_reducible first
        | assumption | apply State.odtEmit_since | apply State.roceSend_since | apply State.emit_since)
    | split)

theorem State.egressServe_since (s : State) (pt : Nat) (hs : s.since P) : (State.egressServe s pt).since P := by
  unfold State.egressServe
  repeat' (first
    | (with_reducible first | assumption | apply State.syncEgress_since | apply State.egressSend_since)
    | simp -zeta only [↓State.since_mk] | split | dsimp +zetaDelta only)

theorem execEgressServe_since (point : Nat) (s : State) (hs : s.since P) : goodOut P (execEgressServe point s) := by
  unfold execEgressServe
  repeat' (first | (with_reducible first | assumption | apply goodOut_next | apply State.egressServe_since) | split)

theorem State.reach_since (s : State) (hs : s.since P) : (State.reach s).since P := by
  unfold State.reach
  repeat' (first | with_reducible assumption | simp -zeta only [↓State.since_mk] | extract_lets +onlyGivenNames t)

theorem State.reachChange_since (s : State) (hs : s.since P) : (State.reachChange s).since P := by
  unfold State.reachChange
  repeat' with_reducible first | assumption | apply State.raise_since | apply State.reach_since

end Sys2Proof.Machine
end

