-- ==== Sys2Proof/Laws/SinceMedia.lean ====
section
/-! SUPPORT. The invariant, and what a step never takes back, through every operation of stripes, members and class 7. -/

namespace Sys2Proof.Machine

variable {P : Past}

theorem State.setKeySlot_since (s : State) (i : Nat) (k : KeySlot) (hs : s.since P) : (State.setKeySlot s i k).since P := by
  unfold State.setKeySlot
  repeat' (first | with_reducible assumption | simp -zeta only [↓State.since_mk])

theorem State.raiseMark_since (s : State) (i : Nat) (hs : s.since P) : (State.raiseMark s i).since P := by
  unfold State.raiseMark
  repeat' (first
    | (with_reducible first
        | assumption | apply State.setKeySlot_since | apply State.cfgPut_since | apply State.touch_since)
    | extract_lets +onlyGivenNames t | split)

theorem State.markCheck_since (s : State) (i : Nat) (hs : s.since P) : (State.markCheck s i).since P := by
  unfold State.markCheck
  repeat' (first
    | (with_reducible first | assumption | apply State.setKeySlot_since)
    | extract_lets +onlyGivenNames t | split)

theorem State.takeGen_since (s : State) (i : Nat) (limited : Bool) (hs : s.since P)
    : (State.takeGen s i limited).1.since P := by
  unfold State.takeGen
  repeat' (first
    | (with_reducible first
        | assumption | apply State.raiseMark_since | apply State.setKeySlot_since | apply State.event_since
        | apply State.touch_since)
    | (extract_lets +onlyGivenNames t; refine State.since_cut (P := P) (t := t) ?_ ?_; all_goals first | (intro ht; clear_value t) | subst t)
    | extract_lets +onlyGivenNames t | split)

theorem State.storeStaged_since (s : State) (a n : Nat) (b : Bytes) (hs : s.since P)
    : (State.storeStaged s a n b).since P := by
  induction n generalizing s a b with
  | zero => exact hs
  | succ n ih =>
    unfold State.storeStaged
    repeat' (first
      | (with_reducible first | assumption | apply State.store_since | apply State.count_since | apply ih)
      | split)

theorem State.laneMessage_since (s : State) (n cls : Nat) (hs : s.since P) : (State.laneMessage s n cls).since P := by
  unfold State.laneMessage
  repeat' (first
    | (with_reducible first | assumption | apply State.count_since)
    | simp -zeta only [↓State.since_mk]
    | (extract_lets +onlyGivenNames t; refine State.since_cut (P := P) (t := t) ?_ ?_; all_goals first | (intro ht; clear_value t) | subst t)
    | extract_lets +onlyGivenNames t | split)

theorem State.syncDrive_since (s : State) (sl : Nat) (hs : s.since P) : (State.syncDrive s sl).since P := by
  unfold State.syncDrive
  repeat' (first | with_reducible assumption | simp -zeta only [↓State.since_mk] | extract_lets +onlyGivenNames t)

theorem State.addMem_since (s : State) (slot : Nat) (op : MemOp) (lba n : Nat) (data : Bytes) (cls : Nat) (who : MemFor) (cells : Nat) (hs : s.since P)
    : (State.addMem s slot op lba n data cls who cells).since P := by
  unfold State.addMem
  repeat' (first
    | (with_reducible first | assumption | apply State.syncDrive_since)
    | simp -zeta only [↓State.since_mk])

theorem State.dropMem_since (s : State) (sl : Nat) (p : MemCmd → Bool) (hs : s.since P)
    : (State.dropMem s sl p).since P := by
  unfold State.dropMem
  repeat' (first
    | (with_reducible first
        | assumption | apply State.freeHeld_since | apply State.syncDrive_since
        | refine State.since_foldl ?_ (fun x y hx => ?_))
    | simp -zeta only [↓State.since_mk])

theorem State.rewriteLabels_since (s : State) (gi : Nat) (hs : s.since P) : (State.rewriteLabels s gi).since P := by
  unfold State.rewriteLabels
  repeat' (first
    | (with_reducible first
        | assumption | apply State.setGroup_since | apply State.touch_since | apply State.addMem_since
        | refine State.since_foldl ?_ (fun x y hx => ?_))
    | split)

theorem State.labelsEnd_since (s : State) (gi : Nat) (hs : s.since P) : (State.labelsEnd s gi).since P := by
  unfold State.labelsEnd
  repeat' (first | (with_reducible first | assumption | apply State.updGroup_since) | split)

theorem State.putRecord_since (s : State) (gi : Nat) (hs : s.since P) : (State.putRecord s gi).since P := by
  unfold State.putRecord
  repeat' (first
    | (with_reducible first
        | assumption | apply State.setGroup_since | apply State.cfgPut_since | apply State.touch_since)
    | split)

theorem State.setBit_since (s : State) (gi x cls : Nat) (seq : Option Nat) (hs : s.since P)
    : (State.setBit s gi x cls seq).1.since P := by
  unfold State.setBit
  repeat' (first
    | (with_reducible first
        | assumption | apply State.setGroup_since | apply State.count_since | apply State.addMem_since
        | refine State.since_foldl ?_ (fun x y hx => ?_))
    | split)

theorem State.bitSetEnd_since (s : State) (gi x : Nat) (hs : s.since P) : (State.bitSetEnd s gi x).since P := by
  unfold State.bitSetEnd
  repeat' with_reducible first | assumption | apply State.updGroup_since

theorem State.clearBit_since (s : State) (gi x : Nat) (hs : s.since P) : (State.clearBit s gi x).since P := by
  unfold State.clearBit
  repeat' (first
    | (with_reducible first
        | assumption | apply State.setGroup_since | apply State.addMem_since
        | refine State.since_foldl ?_ (fun x y hx => ?_))
    | split)

theorem State.bitClearEnd_since (s : State) (gi x : Nat) (hs : s.since P) : (State.bitClearEnd s gi x).since P := by
  unfold State.bitClearEnd
  repeat' with_reducible first | assumption | apply State.updGroup_since

theorem State.replicaStart_since (s : State) (gi : Nat) (hs : s.since P) : (State.replicaStart s gi).since P := by
  unfold State.replicaStart
  repeat' (first
    | (with_reducible first
        | assumption | apply State.setGroup_since | apply State.addMem_since
        | refine State.since_foldl ?_ (fun x y hx => ?_))
    | split)

theorem State.replicaWritten_since (s : State) (gi : Nat) (hs : s.since P) : (State.replicaWritten s gi).since P := by
  unfold State.replicaWritten
  repeat' (first
    | (with_reducible first | assumption | apply State.setGroup_since | apply State.rewriteLabels_since)
    | split)

theorem State.replicaEnd_since (s : State) (gi : Nat) (hs : s.since P) : (State.replicaEnd s gi).since P := by
  unfold State.replicaEnd
  repeat' (first
    | (with_reducible first
        | assumption | apply State.setGroup_since | apply State.clearBit_since | apply State.putRecord_since
        | apply State.replicaStart_since | refine State.since_foldl ?_ (fun x y hx => ?_))
    | extract_lets +onlyGivenNames t | split)

theorem State.replicaLost_since (s : State) (gi sl : Nat) (hs : s.since P) : (State.replicaLost s gi sl).since P := by
  unfold State.replicaLost
  repeat' (first
    | (with_reducible first
        | assumption | apply State.setGroup_since | apply State.replicaStart_since | apply State.updGroup_since)
    | extract_lets +onlyGivenNames t | split)

theorem State.winLeave_since (s : State) (gi x : Nat) (hs : s.since P) : (State.winLeave s gi x).since P := by
  unfold State.winLeave
  repeat' (first
    | (with_reducible first | assumption | apply State.clearBit_since)
    | simp -zeta only [↓State.since_mk] | split)

theorem State.winAdmit_since (s : State) (gi x : Nat) (class0 : Bool) (hs : s.since P)
    : (State.winAdmit s gi x class0).1.since P := by
  unfold State.winAdmit
  repeat' (first
    | (with_reducible first | assumption | apply State.winLeave_since)
    | simp -zeta only [↓State.since_mk]
    | (extract_lets +onlyGivenNames t; refine State.since_cut (P := P) (t := t) ?_ ?_; all_goals first | (intro ht; clear_value t) | subst t)
    | extract_lets +onlyGivenNames t | split)

theorem State.winAcked_since (s : State) (n : Nat) (hs : s.since P) : (State.winAcked s n).since P := by
  unfold State.winAcked
  repeat' (first
    | (with_reducible first | assumption | apply State.clearBit_since | refine State.since_foldl ?_ (fun x y hx => ?_))
    | simp -zeta only [↓State.since_mk])

theorem State.evaluate_since (s : State) (gi : Nat) (add : List Nat) (hs : s.since P)
    : (State.evaluate s gi add).since P := by
  unfold State.evaluate
  repeat' (first
    | (with_reducible first
        | assumption | apply State.setGroup_since | apply State.count_since | apply State.updMember_since
        | apply State.putRecord_since | refine State.since_foldl ?_ (fun x y hx => ?_))
    | extract_lets +onlyGivenNames t | split)

theorem State.startRebuild_since (s : State) (gi sl : Nat) (hs : s.since P) : (State.startRebuild s gi sl).since P := by
  unfold State.startRebuild
  repeat' (first
    | (with_reducible first
        | assumption | apply State.updMember_since | apply State.evaluate_since | apply State.putRecord_since)
    | split)

theorem State.resolvePolicy_since (s : State) (gi : Nat) (hs : s.since P) : (State.resolvePolicy s gi).since P := by
  unfold State.resolvePolicy
  repeat' with_reducible first | assumption | apply State.updGroup_since

theorem State.enterFailed_since (s : State) (gi : Nat) (hs : s.since P) : (State.enterFailed s gi).since P := by
  unfold State.enterFailed
  repeat' (first
    | (with_reducible first
        | assumption | apply State.setGroup_since | apply State.endEarly_since
        | refine State.since_foldl ?_ (fun x y hx => ?_))
    | split)

theorem State.sendAcquire_since (s : State) (sl : Nat) (hs : s.since P) : (State.sendAcquire s sl).since P := by
  unfold State.sendAcquire
  repeat' (first
    | (with_reducible first | assumption | apply State.emit_since)
    | simp -zeta only [↓State.since_mk] | extract_lets +onlyGivenNames t)

theorem State.acquire_since (s : State) (sl : Nat) (hs : s.since P) : (State.acquire s sl).since P := by
  unfold State.acquire
  repeat' (first
    | (with_reducible first | assumption | apply State.sendAcquire_since)
    | simp -zeta only [↓State.since_mk]
    | (extract_lets +onlyGivenNames t; refine State.since_cut (P := P) (t := t) ?_ ?_; all_goals first | (intro ht; clear_value t) | subst t)
    | extract_lets +onlyGivenNames t | split)

theorem State.adopt_since (s : State) (gi sl : Nat) (hs : s.since P) : (State.adopt s gi sl).since P := by
  unfold State.adopt
  repeat' with_reducible first
    | assumption | apply State.updMember_since | apply State.acquire_since | apply State.addMem_since
    | apply State.enterFailed_since | apply State.putRecord_since | apply State.touch_since

theorem State.autoAct_since (s : State) (gi : Nat) (hs : s.since P) : (State.autoAct s gi).since P := by
  unfold State.autoAct
  repeat' (first
    | (with_reducible first
        | assumption | apply State.adopt_since | apply State.startRebuild_since
        | refine State.since_foldl ?_ (fun x y hx => ?_))
    | extract_lets +onlyGivenNames t | split)

theorem State.markStale_since (s : State) (st : Nat) (g : Group) (hs : s.since P) : (State.markStale s st g).since P := by
  unfold State.markStale
  repeat' (first
    | (with_reducible first | assumption | apply State.updMember_since | refine State.since_foldl ?_ (fun x y hx => ?_))
    | split)

theorem State.updRun_since (s : State) (seq vblk : Nat) (f : ReadRun → ReadRun) (hs : s.since P)
    : (State.updRun s seq vblk f).since P := by
  unfold State.updRun
  repeat' with_reducible first | assumption | apply State.updCmd_since

theorem State.readPos_since (s : State) (c : Cmd) (g : Group) (r : ReadRun) (pos : Nat) (hs : s.since P)
    : (State.readPos s c g r pos).since P := by
  unfold State.readPos
  repeat' (first | (with_reducible first | assumption | apply State.updRun_since | apply State.addMem_since) | split)

theorem State.runIssue_since (s : State) (c : Cmd) (g : Group) (r : ReadRun) (hs : s.since P)
    : (State.runIssue s c g r).since P := by
  unfold State.runIssue
  repeat' (first
    | (with_reducible first
        | assumption | apply State.updRun_since | apply State.readPos_since
        | refine State.since_foldl ?_ (fun x y hx => ?_))
    | extract_lets +onlyGivenNames t | split)

theorem State.c0Take_since (s : State) (c : Cmd) (n : Nat) (hs : s.since P) : (State.c0Take s c n).since P := by
  unfold State.c0Take
  repeat' (first
    | (with_reducible first | assumption | apply State.updCmd_since)
    | simp -zeta only [↓State.since_mk] | split)

theorem State.sendRun_since (s : State) (c : Cmd) (g : Group) (r : ReadRun) (src : Nat) (keyed : Bool) (b : Bytes) (hs : s.since P)
    : (State.sendRun s c g r src keyed b).since P := by
  unfold State.sendRun
  repeat' with_reducible first | assumption | apply State.c0Take_since | apply State.pushRun_since

theorem State.runSolve_since (s : State) (c : Cmd) (v : Volume) (g : Group) (r : ReadRun) (hs : s.since P)
    : (State.runSolve s c v g r).since P := by
  unfold State.runSolve
  repeat' (first
    | (with_reducible first
        | assumption | apply State.updRun_since | apply State.freeSlice_since | apply State.count_since
        | apply State.sendRun_since)
    | split | dsimp +zetaDelta only)

theorem State.runSurvive_since (s : State) (c : Cmd) (g : Group) (r : ReadRun) (hs : s.since P)
    : (State.runSurvive s c g r).since P := by
  unfold State.runSurvive
  repeat' (first
    | (with_reducible first
        | assumption | apply State.updRun_since | apply State.c0Take_since | apply State.pushRun_since
        | refine State.since_foldl ?_ (fun x y hx => ?_))
    | split)

theorem State.runSlice_since (s : State) (c : Cmd) (r : ReadRun) (hs : s.since P) : (State.runSlice s c r).since P := by
  unfold State.runSlice
  repeat' (first
    | (with_reducible first
        | assumption | apply State.takeSlice_since | apply State.updRun_since | apply State.count_since)
    | extract_lets +onlyGivenNames t | split)

theorem State.addRepair_since (s : State) (x : Repair) (hs : s.since P) : (State.addRepair s x).since P := by
  unfold State.addRepair
  repeat' (first | with_reducible assumption | simp -zeta only [↓State.since_mk] | split)

theorem State.runGo_since (s : State) (c : Cmd) (v : Volume) (g : Group) (r : ReadRun) (hs : s.since P)
    : (State.runGo s c v g r).since P := by
  unfold State.runGo
  repeat' (first
    | (with_reducible first
        | assumption | apply State.runIssue_since | apply State.runSlice_since | apply State.runSurvive_since
        | apply State.updRun_since | apply State.sendRun_since)
    | (extract_lets +onlyGivenNames t; refine State.since_cut (P := P) (t := t) ?_ ?_; all_goals first | (intro ht; clear_value t) | subst t)
    | split)

theorem State.runEval_since (s : State) (seq vblk : Nat) (hs : s.since P) : (State.runEval s seq vblk).since P := by
  unfold State.runEval
  repeat' (first
    | (with_reducible first
        | assumption | apply State.runGo_since | apply State.addRepair_since | apply State.updCmd_since
        | refine State.since_foldl ?_ (fun x y hx => ?_))
    | extract_lets +onlyGivenNames t | split)

theorem State.readEnd_since (s : State) (seq : Nat) (hs : s.since P) : (State.readEnd s seq).since P := by
  unfold State.readEnd
  repeat' (first
    | (with_reducible first
        | assumption | apply State.finish_since | apply State.count_since | apply State.event_since
        | apply State.updCmd_since | apply State.hostPut_since)
    | split | dsimp +zetaDelta only)

theorem State.readStart_since (s : State) (q cid : Nat) (hs : s.since P) : (State.readStart s q cid).since P := by
  unfold State.readStart
  repeat' (first
    | (with_reducible first
        | assumption | apply State.finish_since | apply State.flow_since | apply State.endEarly_since
        | apply State.endStep_since | apply State.updCmd_since | apply State.runIssue_since | apply State.readEnd_since
        | refine State.since_foldl ?_ (fun x y hx => ?_))
    | extract_lets +onlyGivenNames t | split)

theorem execRead_since (qp cid : Nat) (s : State) (hs : s.since P) : goodOut P (execRead qp cid s) := by
  unfold execRead
  repeat' with_reducible first | assumption | apply goodOut_next | apply State.readStart_since

theorem State.pullData_since (s : State) (c : Cmd) (off len : Nat) (hs : s.since P)
    : (State.pullData s c off len).since P := by
  unfold State.pullData
  repeat' (first
    | (with_reducible first
        | assumption | apply State.epRead_since | apply State.setOdt_since | apply State.odtCtl_since
        | apply State.roceSend_since | apply State.updCmd_since)
    | extract_lets +onlyGivenNames t | split)

theorem State.gathered_since (s : State) (seq : Nat) (hs : s.since P) : (State.gathered s seq).since P := by
  unfold State.gathered
  repeat' with_reducible first | assumption | apply State.updCmd_since

theorem State.pullTo_since (s : State) (seq upto : Nat) (hs : s.since P) : (State.pullTo s seq upto).since P := by
  unfold State.pullTo
  repeat' (first
    | (with_reducible first
        | assumption | apply State.updCmd_since | apply State.pullData_since | apply State.gathered_since)
    | extract_lets +onlyGivenNames t | split)

theorem State.c0Reserve_since (s : State) (c : Cmd) (v : Volume) (g : Group) (hs : s.since P)
    : (State.c0Reserve s c v g).since P := by
  unfold State.c0Reserve
  repeat' (first
    | (with_reducible first
        | assumption | apply State.setPart_since | apply State.updCmd_since | apply State.pullTo_since)
    | simp -zeta only [↓State.since_mk]
    | (extract_lets +onlyGivenNames t; refine State.since_cut (P := P) (t := t) ?_ ?_; all_goals first | (intro ht; clear_value t) | subst t)
    | extract_lets +onlyGivenNames t | split)

theorem State.rowReserve_since (s : State) (c : Cmd) (v : Volume) (g : Group) (hs : s.since P)
    : (State.rowReserve s c v g).since P := by
  unfold State.rowReserve
  repeat' (first
    | (with_reducible first
        | assumption | apply State.updCmd_since | apply State.pullTo_since | apply State.count_since)
    | simp -zeta only [↓State.since_mk]
    | (extract_lets +onlyGivenNames t; refine State.since_cut (P := P) (t := t) ?_ ?_; all_goals first | (intro ht; clear_value t) | subst t)
    | extract_lets +onlyGivenNames t | split)

theorem State.spaceTake_since (s : State) (c : Cmd) (v : Volume) (g : Group) (hs : s.since P)
    : (State.spaceTake s c v g).since P := by
  unfold State.spaceTake
  repeat' (first
    | (with_reducible first
        | assumption | apply State.updCmd_since | apply State.charge1_since | apply State.pullTo_since
        | apply State.rowReserve_since)
    | extract_lets +onlyGivenNames t | split)

theorem State.genStep_since (s : State) (c : Cmd) (v : Volume) (g : Group) (hs : s.since P)
    : (State.genStep s c v g).1.since P := by
  unfold State.genStep
  repeat' (first
    | (with_reducible first
        | assumption | apply State.count_since | apply State.endEarly_since | apply State.flow_since
        | apply State.takeGen_since | apply State.updCmd_since | apply State.release_since | apply State.finish_since)
    | extract_lets +onlyGivenNames t | split | (refine State.since_fst ?_ (by with_reducible assumption)))

theorem State.writeStart_since (s : State) (q cid op : Nat) (hs : s.since P) : (State.writeStart s q cid op).since P := by
  unfold State.writeStart
  repeat' (first
    | (with_reducible first
        | assumption | apply State.finish_since | apply State.flow_since | apply State.endEarly_since
        | apply State.genStep_since | apply State.masterDisabled_since | apply State.updCmd_since
        | apply State.c0Reserve_since | apply State.spaceTake_since | apply State.endStep_since)
    | simp -zeta only [↓State.since_mk] | extract_lets +onlyGivenNames t | split)

theorem execWrite_since (qp cid : Nat) (s : State) (hs : s.since P) : goodOut P (execWrite qp cid s) := by
  unfold execWrite
  repeat' with_reducible first | assumption | apply goodOut_next | apply State.writeStart_since

theorem execWriteZeroes_since (qp cid : Nat) (s : State) (hs : s.since P) : goodOut P (execWriteZeroes qp cid s) := by
  unfold execWriteZeroes
  repeat' with_reducible first | assumption | apply goodOut_next | apply State.writeStart_since

theorem execTrim_since (qp cid : Nat) (s : State) (hs : s.since P) : goodOut P (execTrim qp cid s) := by
  unfold execTrim
  repeat' with_reducible first | assumption | apply goodOut_next | apply State.writeStart_since

theorem State.c0PoolReserve_since (s : State) (q cid : Nat) (hs : s.since P) : (State.c0PoolReserve s q cid).since P := by
  unfold State.c0PoolReserve
  repeat' (first | (with_reducible first | assumption | apply State.c0Reserve_since) | split)

theorem execC0PoolReserve_since (qp cid : Nat) (s : State) (hs : s.since P) : goodOut P (execC0PoolReserve qp cid s) := by
  unfold execC0PoolReserve
  repeat' with_reducible first | assumption | apply goodOut_next | apply State.c0PoolReserve_since

theorem State.stagingReserve_since (s : State) (q cid : Nat) (hs : s.since P) : (State.stagingReserve s q cid).since P := by
  unfold State.stagingReserve
  repeat' (first | (with_reducible first | assumption | apply State.spaceTake_since) | split)

theorem execStagingReserve_since (qp cid : Nat) (s : State) (hs : s.since P) : goodOut P (execStagingReserve qp cid s) := by
  unfold execStagingReserve
  repeat' with_reducible first | assumption | apply goodOut_next | apply State.stagingReserve_since

theorem State.updOpen_since (s : State) (gi st : Nat) (f : OpenStripe → OpenStripe) (hs : s.since P)
    : (State.updOpen s gi st f).since P := by
  unfold State.updOpen
  repeat' (first | with_reducible assumption | simp -zeta only [↓State.since_mk])

theorem State.preRead_since (s : State) (g : Group) (o : OpenStripe) (keys : List Nat) (hs : s.since P)
    : (State.preRead s g o keys).since P := by
  unfold State.preRead
  repeat' (first
    | (with_reducible first | assumption | apply State.addMem_since | refine State.since_foldl ?_ (fun x y hx => ?_))
    | split)

theorem State.markBlock_since (s : State) (gi : Nat) (g : Group) (kind st unit off : Nat) (hs : s.since P)
    : (State.markBlock s gi g kind st unit off).since P := by
  unfold State.markBlock
  repeat' (first
    | (with_reducible first
        | assumption | apply State.count_since | apply State.setField_since | apply State.putRecord_since)
    | simp -zeta only [↓State.since_mk]
    | (extract_lets +onlyGivenNames t; refine State.since_cut (P := P) (t := t) ?_ ?_; all_goals first | (intro ht; clear_value t) | subst t)
    | split)

theorem State.clearBlocks_since (s : State) (gi : Nat) (bs : List BlockAt) (hs : s.since P)
    : (State.clearBlocks s gi bs).since P := by
  unfold State.clearBlocks
  repeat' (first
    | (with_reducible first | assumption | apply State.putRecord_since)
    | simp -zeta only [↓State.since_mk]
    | (extract_lets +onlyGivenNames t; refine State.since_cut (P := P) (t := t) ?_ ?_; all_goals first | (intro ht; clear_value t) | subst t)
    | extract_lets +onlyGivenNames t | split)

theorem State.spoil_since (s : State) (q st : Nat) (g : Group) (fails : List (Nat × Nat)) (hs : s.since P)
    : (State.spoil s q st g fails).since P := by
  unfold State.spoil
  repeat' (first | (with_reducible first | assumption | apply State.updCmd_since) | split)

theorem State.planStripe_since (s : State) (gi st : Nat) (hs : s.since P) : (State.planStripe s gi st).since P := by
  unfold State.planStripe
  repeat' (first
    | (with_reducible first
        | assumption | apply State.updOpen_since | apply State.preRead_since | apply State.spoil_since
        | apply State.markBlock_since | refine State.since_foldl ?_ (fun x y hx => ?_))
    | (extract_lets +onlyGivenNames t; refine State.since_cut (P := P) (t := t) ?_ ?_; all_goals first | (intro ht; clear_value t) | subst t)
    | extract_lets +onlyGivenNames t | split)

theorem State.sendStripe_since (s : State) (gi : Nat) (g : Group) (o : OpenStripe) (seq src : Nat) (hs : s.since P)
    : (State.sendStripe s gi g o seq src).since P := by
  unfold State.sendStripe
  repeat' (first
    | (with_reducible first
        | assumption | apply State.updOpen_since | apply State.updCmd_since | apply State.pushRun_since
        | refine State.since_foldl ?_ (fun x y hx => ?_))
    | split)

theorem State.sendPre_since (s : State) (gi : Nat) (g : Group) (o : OpenStripe) (slot n : Nat) (hs : s.since P)
    : (State.sendPre s gi g o slot n).since P := by
  unfold State.sendPre
  repeat' (first | (with_reducible first | assumption | apply State.updOpen_since | apply State.pushRun_since) | split)

theorem State.sendParity_since (s : State) (gi : Nat) (g : Group) (o : OpenStripe) (hs : s.since P)
    : (State.sendParity s gi g o).since P := by
  unfold State.sendParity
  repeat' (first
    | (with_reducible first
        | assumption | apply State.updOpen_since | apply State.count_since | apply State.pushRun_since
        | refine State.since_foldl ?_ (fun x y hx => ?_))
    | split)

theorem State.queueWrites_since (s : State) (gi : Nat) (g : Group) (o : OpenStripe) (hs : s.since P)
    : (State.queueWrites s gi g o).since P := by
  unfold State.queueWrites
  repeat' with_reducible first
    | assumption | apply State.updOpen_since | apply State.freeHeld_since | apply State.addMem_since
    | refine State.since_foldl ?_ (fun x y hx => ?_)

theorem State.stripeSlice_since (s : State) (gi st : Nat) (c0 : Bool) (hs : s.since P)
    : (State.stripeSlice s gi st c0).since P := by
  unfold State.stripeSlice
  repeat' (first
    | (with_reducible first | assumption | apply State.takeSlice_since | apply State.updOpen_since)
    | split)

theorem State.walkMessages_since (s : State) (x n : Nat) (hs : s.since P) : (State.walkMessages s x n).since P := by
  unfold State.walkMessages
  repeat' (first
    | (with_reducible first
        | assumption | apply State.laneMessage_since | refine State.since_foldl ?_ (fun x y hx => ?_))
    | split)

theorem State.paceCharge_since (s : State) (w : Writer) (cost : Cost) (hs : s.since P)
    : (State.paceCharge s w cost).since P := by
  unfold State.paceCharge
  repeat' (first | with_reducible assumption | simp -zeta only [↓State.since_mk] | split)

theorem State.bgRead_since (s : State) (g : Group) (o : OpenStripe) (keys : List Nat) (hs : s.since P)
    : (State.bgRead s g o keys).since P := by
  unfold State.bgRead
  repeat' with_reducible first
    | assumption | apply State.updOpen_since | apply State.paceCharge_since | apply State.preRead_since

theorem State.bgPlanned_since (s : State) (gi : Nat) (g : Group) (o : OpenStripe) (j : Job) (method : Method) (new : Tbl Bytes) (ws : List StripeWrite) (hs : s.since P)
    : (State.bgPlanned s gi g o j method new ws).since P := by
  unfold State.bgPlanned
  repeat' with_reducible first
    | assumption | apply State.markBlock_since | apply State.paceCharge_since | apply State.updOpen_since
    | refine State.since_foldl ?_ (fun x y hx => ?_)

theorem State.planBg_since (s : State) (gi : Nat) (g : Group) (o : OpenStripe) (hs : s.since P)
    : ∀ t, (State.planBg s gi g o) = some t → t.since P := by
  unfold State.planBg
  intro t ht
  extract_lets j at ht
  clear_value j
  repeat' (first
    | contradiction
    | split at ht
    | (injection ht with ht; subst ht)
    | extract_lets at ht)
  all_goals
    repeat' (first
      | with_reducible assumption
      | with_reducible apply State.bgRead_since
      | with_reducible apply State.bgPlanned_since
      | with_reducible apply State.takeGen_since
      | with_reducible apply State.count_since
      | with_reducible apply State.walkMessages_since
      | (refine State.since_fst ?_ (by with_reducible assumption)))

theorem State.noteOpen_since (s : State) (g : Group) (gi st : Nat) (hs : s.since P)
    : (State.noteOpen s g gi st).since P := by
  unfold State.noteOpen
  repeat' (first
    | (with_reducible first | assumption | apply State.markStale_since)
    | simp -zeta only [↓State.since_mk]
    | (extract_lets +onlyGivenNames t; refine State.since_cut (P := P) (t := t) ?_ ?_; all_goals first | (intro ht; clear_value t) | subst t))

theorem State.setDrive_since (s : State) (sl : Nat) (d : Drive) (hs : s.since P) : (State.setDrive s sl d).since P := by
  unfold State.setDrive
  repeat' (first
    | (with_reducible first | assumption | apply State.reachChange_since)
    | simp -zeta only [↓State.since_mk]
    | (extract_lets +onlyGivenNames t; refine State.since_cut (P := P) (t := t) ?_ ?_; all_goals first | (intro ht; clear_value t) | subst t)
    | extract_lets +onlyGivenNames t | split)

theorem State.setLabel_since (s : State) (sl : Nat) (b : Bytes) (hs : s.since P) : (State.setLabel s sl b).since P := by
  unfold State.setLabel
  repeat' with_reducible first | assumption | apply State.setDrive_since

theorem State.writeEnd_since (s : State) (seq : Nat) (hs : s.since P) : (State.writeEnd s seq).since P := by
  unfold State.writeEnd
  repeat' (first | (with_reducible first | assumption | apply State.finish_since | apply State.flow_since) | split)

theorem State.failedCheck_since (s : State) (gi : Nat) (hs : s.since P) : (State.failedCheck s gi).since P := by
  unfold State.failedCheck
  repeat' (first | (with_reducible first | assumption | apply State.setGroup_since) | split)

theorem State.enterService_since (s : State) (gi sl : Nat) (hs : s.since P) : (State.enterService s gi sl).since P := by
  unfold State.enterService
  repeat' with_reducible first
    | assumption | apply State.updMember_since | apply State.failedCheck_since | apply State.evaluate_since
    | apply State.rewriteLabels_since | apply State.replicaStart_since | apply State.putRecord_since

theorem State.rebuildTo_since (s : State) (gi sl nxt : Nat) (hs : s.since P) : (State.rebuildTo s gi sl nxt).since P := by
  unfold State.rebuildTo
  repeat' (first
    | (with_reducible first
        | assumption | apply State.count_since | apply State.updMember_since | apply State.putRecord_since
        | apply State.failedCheck_since | apply State.rewriteLabels_since)
    | split)

theorem State.refillTo_since (s : State) (gi sl nxt : Nat) (hs : s.since P) : (State.refillTo s gi sl nxt).since P := by
  unfold State.refillTo
  repeat' (first
    | (with_reducible first
        | assumption | apply State.updMember_since | apply State.putRecord_since | apply State.enterService_since)
    | split)

theorem State.deltaTo_since (s : State) (gi sl at_ : Nat) (hs : s.since P) : (State.deltaTo s gi sl at_).since P := by
  unfold State.deltaTo
  repeat' (first
    | (with_reducible first | assumption | apply State.updMember_since | apply State.enterService_since)
    | split)

theorem State.sweepZeros_since (s : State) (gi : Nat) (g : Group) (sw : Sweep) (hs : s.since P)
    : (State.sweepZeros s gi g sw).since P := by
  unfold State.sweepZeros
  repeat' with_reducible first
    | assumption | apply State.setGroup_since | apply State.paceCharge_since | apply State.addMem_since
    | refine State.since_foldl ?_ (fun x y hx => ?_)

theorem State.lateStarts_since (s : State) (gi : Nat) (hs : s.since P) : (State.lateStarts s gi).since P := by
  unfold State.lateStarts
  repeat' (first
    | (with_reducible first
        | assumption | apply State.startRebuild_since | refine State.since_foldl ?_ (fun x y hx => ?_))
    | split)

theorem State.sweepCheck_since (s : State) (gi : Nat) (hs : s.since P) : (State.sweepCheck s gi).since P := by
  unfold State.sweepCheck
  repeat' (first
    | (with_reducible first
        | assumption | apply State.sweepZeros_since | apply State.freeSlice_since | apply State.setGroup_since
        | apply State.putRecord_since | apply State.touch_since | apply State.evaluate_since
        | apply State.autoAct_since | apply State.lateStarts_since | refine State.since_foldl ?_ (fun x y hx => ?_))
    | simp -zeta only [↓State.since_mk]
    | (extract_lets +onlyGivenNames t; refine State.since_cut (P := P) (t := t) ?_ ?_; all_goals first | (intro ht; clear_value t) | subst t)
    | extract_lets +onlyGivenNames t | split)

theorem State.walkPass_since (s : State) (vol : Nat) (g : Group) (st : Nat) (hs : s.since P)
    : (State.walkPass s vol g st).since P := by
  unfold State.walkPass
  repeat' (first
    | (with_reducible first | assumption | apply State.cfgPut_since | apply State.touch_since)
    | simp -zeta only [↓State.since_mk]
    | (extract_lets +onlyGivenNames t; refine State.since_cut (P := P) (t := t) ?_ ?_; all_goals first | (intro ht; clear_value t) | subst t)
    | extract_lets +onlyGivenNames t | split)

theorem State.stripeClose_since (s : State) (gi st : Nat) (hs : s.since P) : (State.stripeClose s gi st).since P := by
  unfold State.stripeClose
  repeat' (first
    | (with_reducible first
        | assumption | apply State.sweepCheck_since | apply State.freeSlice_since | apply State.unstage_since
        | apply State.touch_since | apply State.clearBlocks_since | apply State.updCmd_since
        | apply State.writeEnd_since | apply State.updGroup_since | apply State.rebuildTo_since
        | apply State.refillTo_since | apply State.deltaTo_since | apply State.walkPass_since)
    | simp -zeta only [↓State.since_mk] | split)

theorem State.stripeStage_since (s : State) (gi st : Nat) (hs : s.since P)
    : ∀ t, (State.stripeStage s gi st) = some t → t.since P := by
  unfold State.stripeStage
  intro t ht
  repeat' (first
    | contradiction
    | split at ht
    | (injection ht with ht; subst ht)
    | exact State.planBg_since _ _ _ _ hs _ ht)
  all_goals
    repeat' (first
      | with_reducible assumption
      | with_reducible apply State.takeSlice_since
      | with_reducible apply State.updOpen_since
      | with_reducible apply State.count_since
      | with_reducible apply State.sendStripe_since
      | with_reducible apply State.planStripe_since
      | with_reducible apply State.sendParity_since
      | with_reducible apply State.queueWrites_since
      | with_reducible apply State.stripeClose_since
      | split)

theorem State.stripeGo_since (n gi st : Nat) (s : State) (hs : s.since P) : (State.stripeGo n gi st s).since P := by
  induction n generalizing s with
  | zero => exact hs
  | succ n ih =>
    unfold State.stripeGo
    split
    · next h =>
      split
      · exact ih _ (State.stripeStage_since _ _ _ hs _ h)
      · exact State.stripeStage_since _ _ _ hs _ h
    · exact hs

theorem State.stripeAdvance_since (s : State) (gi st : Nat) (hs : s.since P) : (State.stripeAdvance s gi st).since P := by
  unfold State.stripeAdvance
  repeat' (first
    | (with_reducible first | assumption | apply State.stripeGo_since | refine State.since_foldl ?_ (fun x y hx => ?_))
    | extract_lets +onlyGivenNames t | split)

theorem State.pushCreating_since (s : State) (hs : s.since P) : (State.pushCreating s).since P := by
  unfold State.pushCreating
  repeat' (first
    | (with_reducible first
        | assumption | apply State.setBit_since | apply State.winAdmit_since
        | refine State.since_foldl ?_ (fun x y hx => ?_))
    | split)

theorem State.preReadEnd_since (s : State) (gi st pos : Nat) (m : MemCmd) (r : Option Bytes) (ure : Bool) (hs : s.since P)
    : (State.preReadEnd s gi st pos m r ure).since P := by
  unfold State.preReadEnd
  repeat' (first
    | (with_reducible first
        | assumption | apply State.addRepair_since | apply State.updOpen_since | apply State.sendPre_since
        | apply State.stripeAdvance_since)
    | split)

theorem State.lanternReadEnd_since (s : State) (gi st pos : Nat) (m : MemCmd) (r : Option Bytes) (ure : Bool) (hs : s.since P)
    : (State.lanternReadEnd s gi st pos m r ure).since P := by
  unfold State.lanternReadEnd
  repeat' (first
    | with_reducible assumption | simp -zeta only [↓State.since_mk] | extract_lets +onlyGivenNames t | split)

theorem State.readRunEnd_since (s : State) (seq vblk pos : Nat) (r : Option Bytes) (ure : Bool) (hs : s.since P)
    : (State.readRunEnd s seq vblk pos r ure).since P := by
  unfold State.readRunEnd
  repeat' (first
    | (with_reducible first
        | assumption | apply State.addRepair_since | apply State.updRun_since | apply State.runEval_since
        | apply State.readEnd_since | apply State.flow_since)
    | split)

theorem State.groupMade_since (s : State) (x : Creating) (hs : s.since P) : (State.groupMade s x).since P := by
  unfold State.groupMade
  repeat' (first
    | (with_reducible first
        | assumption | apply State.setGroup_since | apply State.acquire_since | apply State.resolvePolicy_since
        | apply State.putRecord_since | apply State.finish_since | refine State.since_foldl ?_ (fun x y hx => ?_))
    | simp -zeta only [↓State.since_mk])

theorem State.creatingEnd_since (s : State) (gi : Nat) (ok : Bool) (hs : s.since P)
    : (State.creatingEnd s gi ok).since P := by
  unfold State.creatingEnd
  repeat' (first
    | (with_reducible first
        | assumption | apply State.groupMade_since | apply State.flow_since | apply State.finish_since
        | apply State.addMem_since | refine State.since_foldl ?_ (fun x y hx => ?_))
    | simp -zeta only [↓State.since_mk]
    | (extract_lets +onlyGivenNames t; refine State.since_cut (P := P) (t := t) ?_ ?_; all_goals first | (intro ht; clear_value t) | subst t)
    | extract_lets +onlyGivenNames t | split)

theorem State.memEndNow_since (s : State) (m : MemCmd) (r : Option Bytes) (ure : Bool) (hs : s.since P)
    : (State.memEndNow s m r ure).since P := by
  unfold State.memEndNow
  repeat' (first
    | (with_reducible first
        | assumption | apply State.readRunEnd_since | apply State.preReadEnd_since | apply State.updOpen_since
        | apply State.count_since | apply State.stripeClose_since | apply State.bitSetEnd_since
        | apply State.bitClearEnd_since | apply State.pushCreating_since | apply State.replicaWritten_since
        | apply State.setLabel_since | apply State.labelsEnd_since | apply State.replicaEnd_since
        | apply State.flow_since | apply State.creatingEnd_since | apply State.rebuildTo_since
        | apply State.sweepCheck_since | apply State.lanternReadEnd_since | apply State.finish_since)
    | simp -zeta only [↓State.since_mk]
    | (extract_lets +onlyGivenNames t; refine State.since_cut (P := P) (t := t) ?_ ?_; all_goals first | (intro ht; clear_value t) | subst t)
    | split)

theorem State.memEnd_since (s : State) (m : MemCmd) (r : Option Bytes) (ure : Bool) (hs : s.since P)
    : (State.memEnd s m r ure).since P := by
  unfold State.memEnd
  repeat' (first
    | (with_reducible first | assumption | apply State.memEndNow_since)
    | simp -zeta only [↓State.since_mk] | split)

theorem State.failMem_since (s : State) (sl : Nat) (p : MemCmd → Bool) (hs : s.since P)
    : (State.failMem s sl p).since P := by
  unfold State.failMem
  repeat' with_reducible first
    | assumption | apply State.dropMem_since | apply State.memEnd_since
    | refine State.since_foldl ?_ (fun x y hx => ?_)

theorem State.memberMissing_since (s : State) (sl : Nat) (hs : s.since P) : (State.memberMissing s sl).since P := by
  unfold State.memberMissing
  repeat' (first
    | (with_reducible first
        | assumption | apply State.updMember_since | apply State.resolvePolicy_since | apply State.enterFailed_since
        | apply State.replicaLost_since | apply State.failMem_since | apply State.rewriteLabels_since
        | apply State.autoAct_since | apply State.evaluate_since | apply State.putRecord_since
        | apply State.flow_since)
    | simp -zeta only [↓State.since_mk] | split)

theorem State.driveLost_since (s : State) (sl : Nat) (hs : s.since P) : (State.driveLost s sl).since P := by
  unfold State.driveLost
  repeat' with_reducible first | assumption | apply State.memberMissing_since | apply State.failMem_since

theorem State.issueMem_since (s : State) (m : MemCmd) (hs : s.since P) : (State.issueMem s m).since P := by
  unfold State.issueMem
  repeat' (first
    | (with_reducible first
        | assumption | apply State.releaseCells_since | apply State.c0End_since | apply State.markPast_since
        | apply State.emit_since)
    | simp -zeta only [↓State.since_mk] | split)

theorem State.driveIssue_since (s : State) (sl : Nat) (hs : s.since P) : (State.driveIssue s sl).since P := by
  unfold State.driveIssue
  repeat' (first
    | (with_reducible first | assumption | apply State.syncDrive_since | apply State.issueMem_since)
    | simp -zeta only [↓State.since_mk]
    | (extract_lets +onlyGivenNames t; refine State.since_cut (P := P) (t := t) ?_ ?_; all_goals first | (intro ht; clear_value t) | subst t)
    | extract_lets +onlyGivenNames t | split)

theorem execDriveIssue_since (slot : Nat) (s : State) (hs : s.since P) : goodOut P (execDriveIssue slot s) := by
  unfold execDriveIssue
  repeat' with_reducible first | assumption | apply goodOut_next | apply State.driveIssue_since

theorem State.openStripe_since (s : State) (c : Cmd) (v : Volume) (g : Group) (st : Nat) (hs : s.since P)
    : (State.openStripe s c v g st).since P := by
  unfold State.openStripe
  repeat' (first
    | (with_reducible first
        | assumption | apply State.updCmd_since | apply State.preRead_since | apply State.noteOpen_since
        | apply State.touch_since | apply State.stripeAdvance_since)
    | simp -zeta only [↓State.since_mk])

theorem State.stripeOpen_since (s : State) (q cid : Nat) (hs : s.since P) : (State.stripeOpen s q cid).since P := by
  unfold State.stripeOpen
  repeat' (first
    | (with_reducible first
        | assumption | apply State.updCmd_since | apply State.writeEnd_since | apply State.endEarly_since
        | apply State.flow_since | apply State.setBit_since | apply State.winAdmit_since | apply State.count_since
        | apply State.openStripe_since)
    | simp -zeta only [↓State.since_mk] | extract_lets +onlyGivenNames t | split)

theorem execStripeOpen_since (qp cid : Nat) (s : State) (hs : s.since P) : goodOut P (execStripeOpen qp cid s) := by
  unfold execStripeOpen
  repeat' with_reducible first | assumption | apply goodOut_next | apply State.stripeOpen_since

theorem State.memberCompletion_since (s : State) (sl id status : Nat) (data : Bytes) (hs : s.since P)
    : (State.memberCompletion s sl id status data).since P := by
  unfold State.memberCompletion
  repeat' (first
    | (with_reducible first
        | assumption | apply State.err_since | apply State.count_since | apply State.dropMem_since
        | apply State.memEnd_since | apply State.flow_since | apply State.memberMissing_since)
    | split)

theorem State.memberTimeout_since (s : State) (sl id : Nat) (hs : s.since P) : (State.memberTimeout s sl id).since P := by
  unfold State.memberTimeout
  repeat' (first
    | (with_reducible first
        | assumption | apply State.advanceTo_since | apply State.err_since | apply State.driveLost_since)
    | split)

theorem execMemberCommandTimeout_since (slot mid : Nat) (s : State) (hs : s.since P)
    : goodOut P (execMemberCommandTimeout slot mid s) := by
  unfold execMemberCommandTimeout
  repeat' with_reducible first | assumption | apply goodOut_next | apply State.memberTimeout_since

theorem State.driveLink_since (s : State) (sl : Nat) (up : Bool) (hs : s.since P) : (State.driveLink s sl up).since P := by
  unfold State.driveLink
  repeat' (first
    | (with_reducible first | assumption | apply State.setDrive_since)
    | extract_lets +onlyGivenNames t | split)

theorem execDriveLinkChange_since (slot : Nat) (up : Bool) (s : State) (hs : s.since P)
    : goodOut P (execDriveLinkChange slot up s) := by
  unfold execDriveLinkChange
  repeat' with_reducible first | assumption | apply goodOut_next | apply State.driveLink_since

theorem State.driveLinkTimeout_since (s : State) (sl : Nat) (hs : s.since P) : (State.driveLinkTimeout s sl).since P := by
  unfold State.driveLinkTimeout
  repeat' (first
    | (with_reducible first
        | assumption | apply State.advanceTo_since | apply State.err_since | apply State.setDrive_since
        | apply State.driveLost_since)
    | extract_lets +onlyGivenNames t | split)

theorem execDriveLinkDownTimeout_since (slot : Nat) (s : State) (hs : s.since P)
    : goodOut P (execDriveLinkDownTimeout slot s) := by
  unfold execDriveLinkDownTimeout
  repeat' with_reducible first | assumption | apply goodOut_next | apply State.driveLinkTimeout_since

theorem execDriveCriticalWarning_since (slot : Nat) (s : State) (hs : s.since P)
    : goodOut P (execDriveCriticalWarning slot s) := by
  unfold execDriveCriticalWarning
  repeat' (first | (with_reducible first | assumption | apply goodOut_next | apply State.memberMissing_since) | split)

theorem State.windowIdle_since (s : State) (gi x : Nat) (hs : s.since P) : (State.windowIdle s gi x).since P := by
  unfold State.windowIdle
  repeat' (first
    | (with_reducible first
        | assumption | apply State.advanceTo_since | apply State.winLeave_since | apply State.pushCreating_since
        | apply State.flow_since)
    | split)

theorem execWindowRegionIdle_since (group region : Nat) (s : State) (hs : s.since P)
    : goodOut P (execWindowRegionIdle group region s) := by
  unfold execWindowRegionIdle
  repeat' with_reducible first | assumption | apply goodOut_next | apply State.windowIdle_since

theorem State.paceRebuild_since (s : State) (pausable : Bool) (cost : Cost) (hs : s.since P)
    : ∀ t, (State.paceRebuild s pausable cost) = some t → t.since P := by
  unfold State.paceRebuild
  intro t ht
  dsimp only at ht
  split at ht
  · injection ht with ht
    subst ht
    rw [State.since_mk]
    exact hs
  · cases ht

theorem State.pacingRefill_since (s : State) (hs : s.since P) : (State.pacingRefill s).since P := by
  unfold State.pacingRefill
  repeat' (first
    | (with_reducible first | assumption | apply State.advanceTo_since)
    | simp -zeta only [↓State.since_mk]
    | (extract_lets +onlyGivenNames t; refine State.since_cut (P := P) (t := t) ?_ ?_; all_goals first | (intro ht; clear_value t) | subst t))

theorem execRebuildPacingRefill_since (s : State) (hs : s.since P) : goodOut P (execRebuildPacingRefill s) := by
  unfold execRebuildPacingRefill
  repeat' with_reducible first | assumption | apply goodOut_next | apply State.pacingRefill_since

theorem State.bgAdmit_since (s : State) (gi x : Nat) (hs : s.since P) : (State.bgAdmit s gi x).1.since P := by
  unfold State.bgAdmit
  repeat' (first
    | (with_reducible first | assumption | apply State.setBit_since | apply State.winAdmit_since)
    | simp -zeta only [↓State.since_mk] | split)

theorem State.openBg_since (s : State) (gi : Nat) (g : Group) (o : OpenStripe) (hs : s.since P)
    : (State.openBg s gi g o).since P := by
  unfold State.openBg
  repeat' (first
    | (with_reducible first
        | assumption | apply State.noteOpen_since | apply State.touch_since | apply State.stripeAdvance_since
        | apply State.flow_since)
    | simp -zeta only [↓State.since_mk])

theorem State.runFill_since (s : State) (gi : Nat) (g : Group) (st pos sl lba : Nat) (writer : Writer) (pausable : Bool) (hs : s.since P)
    : (State.runFill s gi g st pos sl lba writer pausable).since P := by
  unfold State.runFill
  repeat' (first
    | (with_reducible first | assumption | apply State.openBg_since)
    | extract_lets +onlyGivenNames t | split)

theorem State.rebuildStep_since (s : State) (sl : Nat) (hs : s.since P) : (State.rebuildStep s sl).since P := by
  unfold State.rebuildStep
  repeat' (first
    | (with_reducible first
        | assumption | apply State.rebuildTo_since | apply State.flow_since | apply State.addMem_since
        | apply State.runFill_since)
    | refine State.paceRebuild_since _ _ _ ?_ _ (by with_reducible assumption) | extract_lets +onlyGivenNames t
    | split)

theorem execRebuildStripe_since (slot : Nat) (s : State) (hs : s.since P) : goodOut P (execRebuildStripe slot s) := by
  unfold execRebuildStripe
  repeat' with_reducible first | assumption | apply goodOut_next | apply State.rebuildStep_since

theorem State.refillStep_since (s : State) (sl : Nat) (hs : s.since P) : (State.refillStep s sl).since P := by
  unfold State.refillStep
  repeat' (first
    | (with_reducible first
        | assumption | apply State.refillTo_since | apply State.flow_since | apply State.runFill_since)
    | extract_lets +onlyGivenNames t | split)

theorem execRefillPosition_since (slot : Nat) (s : State) (hs : s.since P) : goodOut P (execRefillPosition slot s) := by
  unfold execRefillPosition
  repeat' with_reducible first | assumption | apply goodOut_next | apply State.refillStep_since

theorem State.deltaStep_since (s : State) (sl : Nat) (hs : s.since P) : (State.deltaStep s sl).since P := by
  unfold State.deltaStep
  repeat' (first
    | (with_reducible first
        | assumption | apply State.deltaTo_since | apply State.flow_since | apply State.openBg_since)
    | extract_lets +onlyGivenNames t | split)

theorem execDeltaResyncStripe_since (slot : Nat) (s : State) (hs : s.since P)
    : goodOut P (execDeltaResyncStripe slot s) := by
  unfold execDeltaResyncStripe
  repeat' with_reducible first | assumption | apply goodOut_next | apply State.deltaStep_since

theorem State.sweepStep_since (s : State) (gi : Nat) (hs : s.since P) : (State.sweepStep s gi).since P := by
  unfold State.sweepStep
  repeat' (first
    | (with_reducible first
        | assumption | apply State.bgAdmit_since | apply State.noteOpen_since | apply State.touch_since
        | apply State.stripeAdvance_since | apply State.sweepCheck_since | apply State.flow_since
        | refine State.since_foldl ?_ (fun x y hx => ?_) | refine since_foldl_fst ?_ (fun x y hx => ?_))
    | simp -zeta only [↓State.since_mk]
    | (extract_lets +onlyGivenNames t; refine State.since_cut (P := P) (t := t) ?_ ?_; all_goals first | (intro ht; clear_value t) | subst t)
    | extract_lets +onlyGivenNames t | split)

theorem execRelocationSweepPeriod_since (group : Nat) (s : State) (hs : s.since P)
    : goodOut P (execRelocationSweepPeriod group s) := by
  unfold execRelocationSweepPeriod
  repeat' with_reducible first | assumption | apply goodOut_next | apply State.sweepStep_since

theorem State.resyncStep_since (s : State) (gi : Nat) (hs : s.since P) : (State.resyncStep s gi).since P := by
  unfold State.resyncStep
  repeat' (first
    | (with_reducible first | assumption | apply State.bgAdmit_since | apply State.openBg_since)
    | simp -zeta only [↓State.since_mk] | extract_lets +onlyGivenNames t | split)

theorem execResyncStripe_since (group : Nat) (s : State) (hs : s.since P) : goodOut P (execResyncStripe group s) := by
  unfold execResyncStripe
  repeat' with_reducible first | assumption | apply goodOut_next | apply State.resyncStep_since

theorem State.repairStep_since (s : State) (hs : s.since P) : (State.repairStep s).since P := by
  unfold State.repairStep
  repeat' (first
    | (with_reducible first | assumption | apply State.bgAdmit_since | apply State.openBg_since)
    | simp -zeta only [↓State.since_mk] | split | dsimp +zetaDelta only)

theorem execRepairBlock_since (s : State) (hs : s.since P) : goodOut P (execRepairBlock s) := by
  unfold execRepairBlock
  repeat' with_reducible first | assumption | apply goodOut_next | apply State.repairStep_since

theorem State.record_since (s : State) (gi st outcome position mask : Nat) (hs : s.since P)
    : (State.record s gi st outcome position mask).since P := by
  unfold State.record
  repeat' (first
    | (with_reducible first | assumption | apply State.count_since | apply State.event_since)
    | simp -zeta only [↓State.since_mk] | split)

theorem State.lanternRead_since (s : State) (gi r i : Nat) (g : Group) (again : Bool) (hs : s.since P)
    : (State.lanternRead s gi r i g again).since P := by
  unfold State.lanternRead
  repeat' (first
    | (with_reducible first | assumption | apply State.addMem_since | refine State.since_foldl ?_ (fun x y hx => ?_))
    | simp -zeta only [↓State.since_mk]
    | (extract_lets +onlyGivenNames t; refine State.since_cut (P := P) (t := t) ?_ ?_; all_goals first | (intro ht; clear_value t) | subst t)
    | extract_lets +onlyGivenNames t | split)

theorem State.lanternCompare_since (s : State) (t : LanternTask) (g : Group) (hs : s.since P)
    : (State.lanternCompare s t g).since P := by
  unfold State.lanternCompare
  repeat' (first
    | (with_reducible first
        | assumption | apply State.count_since | apply State.record_since | apply State.addRepair_since
        | refine State.since_foldl ?_ (fun x y hx => ?_))
    | simp -zeta only [↓State.since_mk] | extract_lets +onlyGivenNames t | split)

theorem State.lanternMend_since (s : State) (hs : s.since P) : (State.lanternMend s).since P := by
  unfold State.lanternMend
  repeat' (first
    | (with_reducible first | assumption | apply State.bgAdmit_since | apply State.openBg_since)
    | simp -zeta only [↓State.since_mk] | split)

theorem State.lanternNext_since (s : State) (hs : s.since P) : (State.lanternNext s).since P := by
  unfold State.lanternNext
  repeat' (first
    | (with_reducible first | assumption | apply State.lanternRead_since | apply State.count_since)
    | simp -zeta only [↓State.since_mk] | split | dsimp +zetaDelta only)

theorem State.lanternStep_since (s : State) (hs : s.since P) : (State.lanternStep s).since P := by
  unfold State.lanternStep
  repeat' (first
    | (with_reducible first
        | assumption | apply State.lanternMend_since | apply State.lanternNext_since | apply State.lanternCompare_since
        | apply State.flow_since)
    | simp -zeta only [↓State.since_mk]
    | (extract_lets +onlyGivenNames t; refine State.since_cut (P := P) (t := t) ?_ ?_; all_goals first | (intro ht; clear_value t) | subst t)
    | extract_lets +onlyGivenNames t | split)

theorem execLanternStripe_since (s : State) (hs : s.since P) : goodOut P (execLanternStripe s) := by
  unfold execLanternStripe
  repeat' with_reducible first | assumption | apply goodOut_next | apply State.lanternStep_since

theorem execLntRestart_since (s : State) (hs : s.since P) : goodOut P (execLntRestart s) := by
  unfold execLntRestart
  repeat' (first
    | (with_reducible first | assumption | apply goodOut_next | refine State.whenOn_since _ _ _ ?_ (fun x0 hx => ?_))
    | simp -zeta only [↓State.since_mk])

theorem State.zeroingStep_since (s : State) (gi : Nat) (hs : s.since P) : (State.zeroingStep s gi).since P := by
  unfold State.zeroingStep
  repeat' (first
    | (with_reducible first | assumption | apply State.bgAdmit_since | apply State.openBg_since)
    | simp -zeta only [↓State.since_mk] | extract_lets +onlyGivenNames t | split)

theorem execZeroingStripe_since (group : Nat) (s : State) (hs : s.since P) : goodOut P (execZeroingStripe group s) := by
  unfold execZeroingStripe
  repeat' with_reducible first | assumption | apply goodOut_next | apply State.zeroingStep_since

theorem State.walkEnd_since (s : State) (vol : Nat) (w : Walk) (hs : s.since P) : (State.walkEnd s vol w).since P := by
  unfold State.walkEnd
  repeat' (first
    | (with_reducible first | assumption | apply State.cfgPut_since | apply State.touch_since | apply State.event_since)
    | simp -zeta only [↓State.since_mk])

theorem State.walkStep_since (s : State) (vol : Nat) (hs : s.since P) : (State.walkStep s vol).since P := by
  unfold State.walkStep
  repeat' (first
    | (with_reducible first
        | assumption | apply State.event_since | apply State.stripeAdvance_since | apply State.walkEnd_since
        | apply State.bgAdmit_since | apply State.openBg_since)
    | simp -zeta only [↓State.since_mk] | extract_lets +onlyGivenNames t | split)

theorem execRekeyWalkStripe_since (vol : Nat) (s : State) (hs : s.since P) : goodOut P (execRekeyWalkStripe vol s) := by
  unfold execRekeyWalkStripe
  repeat' with_reducible first | assumption | apply goodOut_next | apply State.walkStep_since | apply State.flow_since

end Sys2Proof.Machine
end

