-- ==== Sys2Proof/Laws/SinceNet.lean ====
section
/-! SUPPORT. The invariant, and what a step never takes back, through every operation of the network, the transports, keys and the endpoint. -/

namespace Sys2Proof.Machine

variable {P : Past}

theorem State.mgmtDrop_since (s : State) (hs : s.since P) : (State.mgmtDrop s).since P := by
  unfold State.mgmtDrop
  repeat' with_reducible first | assumption | apply State.err_since | apply State.count_since

theorem State.mgmtFrame_since (s : State) (f : Frame) (hs : s.since P) : (State.mgmtFrame s f).since P := by
  unfold State.mgmtFrame
  repeat' (first
    | (with_reducible first | assumption | apply State.mgmtDrop_since)
    | simp -zeta only [↓State.since_mk]
    | (extract_lets +onlyGivenNames t; refine State.since_cut (P := P) (t := t) ?_ ?_; all_goals first | (intro ht; clear_value t) | subst t)
    | extract_lets +onlyGivenNames t | split)

theorem State.answerFrame_since (s : State) (m u : Nat) (f : Frame) (hs : s.since P)
    : (State.answerFrame s m u f).since P := by
  unfold State.answerFrame
  repeat' (first | (with_reducible first | assumption | apply State.sendOrHold_since | apply State.emit_since) | split)

theorem State.toBasalt_since (s : State) (m u : Nat) (f : Frame) (hs : s.since P) : (State.toBasalt s m u f).since P := by
  unfold State.toBasalt
  repeat' (first
    | (with_reducible first
        | assumption | apply State.count_since | apply State.emit_since | apply State.answerFrame_since)
    | simp -zeta only [↓State.since_mk]
    | (extract_lets +onlyGivenNames t; refine State.since_cut (P := P) (t := t) ?_ ?_; all_goals first | (intro ht; clear_value t) | subst t)
    | extract_lets +onlyGivenNames t | split)

theorem State.setPfc_since (s : State) (mac pri : Nat) (p : Pfc) (hs : s.since P) : (State.setPfc s mac pri p).since P := by
  unfold State.setPfc
  repeat' (first | with_reducible assumption | simp -zeta only [↓State.since_mk])

theorem State.pfcSend_since (s : State) (mac pri quanta : Nat) (hs : s.since P)
    : (State.pfcSend s mac pri quanta).since P := by
  unfold State.pfcSend
  repeat' (first | (with_reducible first | assumption | apply State.sendFrame_since) | split)

theorem State.pfcSync_since (s : State) (mac pri : Nat) (hs : s.since P) : (State.pfcSync s mac pri).since P := by
  unfold State.pfcSync
  repeat' (first
    | (with_reducible first | assumption | apply State.setPfc_since | apply State.pfcSend_since)
    | extract_lets +onlyGivenNames t | split)

theorem State.pfcSyncAll_since (s : State) (mac : Nat) (hs : s.since P) : (State.pfcSyncAll s mac).since P := by
  unfold State.pfcSyncAll
  repeat' (first
    | (with_reducible first | assumption | apply State.pfcSync_since | refine State.since_foldl ?_ (fun x y hx => ?_))
    | split)

theorem State.ceMark_since (s : State) (f : Frame) (hs : s.since P) : (State.ceMark s f).since P := by
  unfold State.ceMark
  repeat' (first
    | (with_reducible first
        | assumption | apply State.count_since | apply State.setOdt_since | apply State.setRoce_since
        | apply State.roceFrame_since)
    | extract_lets +onlyGivenNames t | split)

theorem State.frameReceive_since (s : State) (m u : Nat) (f : Frame) (hs : s.since P)
    : (State.frameReceive s m u f).since P := by
  unfold State.frameReceive
  repeat' (first
    | (with_reducible first
        | assumption | apply State.mgmtFrame_since | apply State.count_since | apply State.tap_since
        | apply State.toBasalt_since | apply State.ceMark_since)
    | (extract_lets +onlyGivenNames t; refine State.since_cut (P := P) (t := t) ?_ ?_; all_goals first | (intro ht; clear_value t) | subst t)
    | split)

theorem State.pfcRx_since (s : State) (mac pri q : Nat) (hs : s.since P) : (State.pfcRx s mac pri q).since P := by
  unfold State.pfcRx
  repeat' (first
    | (with_reducible first | assumption | apply State.setPfc_since | apply State.resumeMac_since)
    | extract_lets +onlyGivenNames t | split)

theorem State.pfcFrame_since (s : State) (mac vec : Nat) (quanta : List Nat) (hs : s.since P)
    : (State.pfcFrame s mac vec quanta).since P := by
  unfold State.pfcFrame
  repeat' (first
    | (with_reducible first | assumption | apply State.pfcRx_since | refine State.since_foldl ?_ (fun x y hx => ?_))
    | split)

theorem State.pfcExpire_since (s : State) (mac pri : Nat) (hs : s.since P) : (State.pfcExpire s mac pri).since P := by
  unfold State.pfcExpire
  repeat' (first
    | (with_reducible first
        | assumption | apply State.advanceTo_since | apply State.setPfc_since | apply State.resumeMac_since)
    | split)

theorem State.pfcRepeat_since (s : State) (mac pri : Nat) (hs : s.since P) : (State.pfcRepeat s mac pri).since P := by
  unfold State.pfcRepeat
  repeat' (first
    | (with_reducible first
        | assumption | apply State.advanceTo_since | apply State.pfcSync_since | apply State.setPfc_since
        | apply State.pfcSend_since)
    | extract_lets +onlyGivenNames t | split)

theorem State.pfcTrip_since (s : State) (mac pri : Nat) (hs : s.since P) : (State.pfcTrip s mac pri).since P := by
  unfold State.pfcTrip
  repeat' (first
    | (with_reducible first
        | assumption | apply State.advanceTo_since | apply State.setPfc_since | apply State.count_since
        | apply State.event_since | apply State.resumeMac_since)
    | extract_lets +onlyGivenNames t | split)

theorem State.pfcClear_since (s : State) (mac pri : Nat) (hs : s.since P) : (State.pfcClear s mac pri).since P := by
  unfold State.pfcClear
  repeat' (first
    | (with_reducible first | assumption | apply State.advanceTo_since | apply State.setPfc_since)
    | extract_lets +onlyGivenNames t | split)

theorem execFrameReceive_since (mac sub : Nat) (frame : Frame) (s : State) (hs : s.since P)
    : goodOut P (execFrameReceive mac sub frame s) := by
  unfold execFrameReceive
  repeat' with_reducible first | assumption | apply goodOut_next | apply State.frameReceive_since

theorem execPfcFrameReceive_since (mac vec : Nat) (quanta : List Nat) (s : State) (hs : s.since P)
    : goodOut P (execPfcFrameReceive mac vec quanta s) := by
  unfold execPfcFrameReceive
  repeat' with_reducible first | assumption | apply goodOut_next | apply State.pfcFrame_since

theorem execPfcPauseExpire_since (mac pri : Nat) (s : State) (hs : s.since P)
    : goodOut P (execPfcPauseExpire mac pri s) := by
  unfold execPfcPauseExpire
  repeat' with_reducible first | assumption | apply goodOut_next | apply State.pfcExpire_since

theorem execPfcXoffRepeat_since (mac pri : Nat) (s : State) (hs : s.since P) : goodOut P (execPfcXoffRepeat mac pri s) := by
  unfold execPfcXoffRepeat
  repeat' with_reducible first | assumption | apply goodOut_next | apply State.pfcRepeat_since

theorem execPfcWatchdogTrip_since (mac pri : Nat) (s : State) (hs : s.since P)
    : goodOut P (execPfcWatchdogTrip mac pri s) := by
  unfold execPfcWatchdogTrip
  repeat' with_reducible first | assumption | apply goodOut_next | apply State.pfcTrip_since

theorem execPfcWatchdogClear_since (mac pri : Nat) (s : State) (hs : s.since P)
    : goodOut P (execPfcWatchdogClear mac pri s) := by
  unfold execPfcWatchdogClear
  repeat' with_reducible first | assumption | apply goodOut_next | apply State.pfcClear_since

theorem State.linkDown_since (s : State) (m u : Nat) (hs : s.since P) : (State.linkDown s m u).since P := by
  unfold State.linkDown
  repeat' (first
    | (with_reducible first
        | assumption | apply State.setReg_since | apply State.event_since | apply State.reachChange_since)
    | simp -zeta only [↓State.since_mk] | split)

theorem State.linkChange_since (s : State) (m u : Nat) (up : Bool) (hs : s.since P)
    : (State.linkChange s m u up).since P := by
  unfold State.linkChange
  repeat' (first
    | (with_reducible first | assumption | apply State.reachChange_since | apply State.linkDown_since)
    | simp -zeta only [↓State.since_mk] | split)

theorem execNetworkLinkChange_since (mac sub : Nat) (up : Bool) (s : State) (hs : s.since P)
    : goodOut P (execNetworkLinkChange mac sub up s) := by
  unfold execNetworkLinkChange
  repeat' with_reducible first | assumption | apply goodOut_next | apply State.linkChange_since

theorem State.announceAll_since (s : State) (hs : s.since P) : (State.announceAll s).since P := by
  unfold State.announceAll
  repeat' (first
    | (with_reducible first
        | assumption | apply State.sendOrHold_since | refine State.since_foldl ?_ (fun x y hx => ?_))
    | split)

theorem State.announceNext_since (s : State) (hs : s.since P) : (State.announceNext s).since P := by
  unfold State.announceNext
  repeat' (first
    | (with_reducible first | assumption | apply State.advanceTo_since | apply State.announceAll_since)
    | simp -zeta only [↓State.since_mk] | split)

theorem execAddressAnnounce_since (s : State) (hs : s.since P) : goodOut P (execAddressAnnounce s) := by
  unfold execAddressAnnounce
  repeat' with_reducible first | assumption | apply goodOut_next | apply State.announceNext_since

theorem execSetAddress_since (qp cid : Nat) (s : State) (hs : s.since P) : goodOut P (execSetAddress qp cid s) := by
  unfold execSetAddress
  repeat' (first
    | (with_reducible first
        | assumption | apply goodOut_next | refine State.adminRun_since _ _ _ _ _ ?_ (fun x0 x1 hx => ?_)
        | apply State.markPast_since | apply State.cfgPut_since | apply State.touch_since | apply State.finish_since
        | apply State.flow_since)
    | simp -zeta only [↓State.since_mk])

theorem execRoceAllow_since (qp cid : Nat) (s : State) (hs : s.since P) : goodOut P (execRoceAllow qp cid s) := by
  unfold execRoceAllow
  repeat' (first
    | (with_reducible first
        | assumption | apply goodOut_next | refine State.adminRun_since _ _ _ _ _ ?_ (fun x0 x1 hx => ?_)
        | apply State.markPast_since | apply State.cfgPut_since | apply State.touch_since | apply State.finish_since
        | apply State.flow_since)
    | simp -zeta only [↓State.since_mk])

theorem execOdtConnect_since (qp cid : Nat) (s : State) (hs : s.since P) : goodOut P (execOdtConnect qp cid s) := by
  unfold execOdtConnect
  repeat' with_reducible first
    | assumption | apply goodOut_next | refine State.adminRun_since _ _ _ _ _ ?_ (fun x0 x1 hx => ?_)
    | apply State.markPast_since | apply State.setOdt_since | apply State.touch_since | apply State.finish_since
    | apply State.flow_since

theorem execOdtClose_since (qp cid : Nat) (s : State) (hs : s.since P) : goodOut P (execOdtClose qp cid s) := by
  unfold execOdtClose
  repeat' (first
    | (with_reducible first
        | assumption | apply goodOut_next | refine State.adminRun_since _ _ _ _ _ ?_ (fun x0 x1 hx => ?_)
        | apply State.markPast_since | apply State.dropHeld_since | apply State.sendOrHold_since
        | apply State.dropEgress_since | apply State.setOdt_since | apply State.touch_since | apply State.finish_since
        | apply State.flow_since)
    | split)

theorem State.odtCapture_since (s : State) (k : Nat) (hs : s.since P) : (State.odtCapture s k).since P := by
  unfold State.odtCapture
  repeat' with_reducible first | assumption | apply State.setReg_since

theorem execNetOdtSel_since (v : Word) (s : State) (hs : s.since P) : goodOut P (execNetOdtSel v s) := by
  unfold execNetOdtSel
  repeat' with_reducible first
    | assumption | apply goodOut_next | refine State.whenOn_since _ _ _ ?_ (fun x0 hx => ?_)
    | apply State.odtCapture_since

theorem State.poolEnd_since (s : State) (r : CellRun) (hs : s.since P) : (State.poolEnd s r).since P := by
  unfold State.poolEnd
  repeat' (first | (with_reducible first | assumption | apply State.c0End_since) | split)

theorem State.cellAt_since (s : State) (r : CellRun) (o : Nat) (hs : s.since P) : (State.cellAt s r o).since P := by
  unfold State.cellAt
  repeat' (first
    | (with_reducible first
        | assumption | apply State.count_since | apply State.releaseCells_since | apply State.poolEnd_since
        | apply State.prismWrite_since | apply State.updCmd_since | apply State.updOpen_since)
    | split)

theorem State.cellCipher_since (s : State) (r : CellRun) (hs : s.since P) : (State.cellCipher s r).since P := by
  unfold State.cellCipher
  repeat' (first | (with_reducible first | assumption | apply State.laneMessage_since) | split)

theorem State.cellCrossed_since (s : State) (outs : List Nat) (r : CellRun) (hs : s.since P)
    : (State.cellCrossed s outs r).since P := by
  unfold State.cellCrossed
  repeat' (first
    | (with_reducible first
        | assumption | apply State.cellAt_since | apply State.cellCipher_since | apply State.poolEnd_since
        | apply State.pfcSyncAll_since | refine State.since_foldl ?_ (fun x y hx => ?_))
    | split)

theorem State.runCrossed_since (s : State) (r : CellRun) (hs : s.since P) : (State.runCrossed s r).since P := by
  unfold State.runCrossed
  repeat' (first
    | (with_reducible first
        | assumption | apply State.updRun_since | apply State.runSolve_since | apply State.readEnd_since
        | apply State.updOpen_since | apply State.stripeAdvance_since)
    | (extract_lets +onlyGivenNames t; refine State.since_cut (P := P) (t := t) ?_ ?_; all_goals first | (intro ht; clear_value t) | subst t)
    | split)

theorem State.crossbarSlot_since (s : State) (hs : s.since P) : (State.crossbarSlot s).since P := by
  unfold State.crossbarSlot
  repeat' with_reducible first
    | assumption | apply State.advance_since | apply State.xbarSlot_since | apply State.cellCrossed_since
    | apply State.runCrossed_since | apply State.flow_since | refine State.since_foldl ?_ (fun x y hx => ?_)

theorem execCrossbarSlot_since (s : State) (hs : s.since P) : goodOut P (execCrossbarSlot s) := by
  unfold execCrossbarSlot
  repeat' with_reducible first | assumption | apply goodOut_next | apply State.crossbarSlot_since

theorem State.assignStripe_since (s : State) (hs : s.since P) : ∀ t, (State.assignStripe s) = some t → t.since P := by
  unfold State.assignStripe
  intro t ht
  split at ht
  · injection ht with ht
    subst ht
    exact State.flow_since _ (State.stripeAdvance_since _ _ _ hs)
  · obtain ⟨c, _, hc⟩ := List.exists_of_findSome?_eq_some ht
    split at hc
    · cases hc
    · split at hc
      · dsimp only at hc
        injection hc with hc
        subst hc
        split
        · exact State.runSurvive_since _ _ _ _ (State.runSlice_since _ _ _ hs)
        · exact State.runSlice_since _ _ _ hs
      · cases hc

theorem State.partCapture_since (s : State) (w : Nat) (hs : s.since P) : (State.partCapture s w).since P := by
  unfold State.partCapture
  repeat' (first
    | (with_reducible first | assumption | apply State.setReg_since)
    | extract_lets +onlyGivenNames t | split)

theorem execXbrPartSel_since (v : Word) (s : State) (hs : s.since P) : goodOut P (execXbrPartSel v s) := by
  unfold execXbrPartSel
  repeat' with_reducible first
    | assumption | apply goodOut_next | refine State.whenOn_since _ _ _ ?_ (fun x0 hx => ?_)
    | apply State.partCapture_since

theorem State.withBuffer_since (s : State) (c : Cmd) (f : State → Cmd → Bytes → State) (hs : s.since P) (hf : ∀ x0 x1 x2, x0.since P → (f x0 x1 x2).since P)
    : (State.withBuffer s c f).since P := by
  unfold State.withBuffer
  repeat' (first
    | (with_reducible first | assumption | apply hf | apply State.masterDisabled_since | apply State.pullTo_since)
    | extract_lets +onlyGivenNames t | split)

theorem State.bothForce_since (s : State) (seq : Nat) (cfgs : List (Nat × Nat)) (info : Nat) (hs : s.since P)
    : (State.bothForce s seq cfgs info).since P := by
  unfold State.bothForce
  repeat' with_reducible first
    | assumption | apply State.updCmd_since | apply State.touch_since | apply State.settle_since
    | apply State.flow_since

theorem State.refuseCmd_since (s : State) (seq info : Nat) (hs : s.since P) : (State.refuseCmd s seq info).since P := by
  unfold State.refuseCmd
  repeat' with_reducible first | assumption | apply State.finish_since | apply State.flow_since

theorem State.loadKek_since (s : State) (c : Cmd) (b : Bytes) (hs : s.since P) : (State.loadKek s c b).since P := by
  unfold State.loadKek
  repeat' (first
    | (with_reducible first
        | assumption | apply State.refuseCmd_since | apply State.count_since | apply State.cfgPut_since
        | apply State.touch_since | apply State.markPast_since | apply State.finish_since | apply State.flow_since)
    | simp -zeta only [↓State.since_mk] | extract_lets +onlyGivenNames t | split)

theorem execLoadKek_since (qp cid : Nat) (s : State) (hs : s.since P) : goodOut P (execLoadKek qp cid s) := by
  unfold execLoadKek
  repeat' with_reducible first
    | assumption | apply goodOut_next | refine State.adminRun_since _ _ _ _ _ ?_ (fun x0 x1 hx => ?_)
    | refine State.withBuffer_since _ _ _ ?_ (fun x0 x1 x2 hx => ?_) | apply State.loadKek_since

theorem State.loadKey_since (s : State) (c : Cmd) (b : Bytes) (hs : s.since P) : (State.loadKey s c b).since P := by
  unfold State.loadKey
  repeat' (first
    | (with_reducible first
        | assumption | apply State.count_since | apply State.refuseCmd_since | apply State.setKeySlot_since
        | apply State.cfgPut_since | apply State.bothForce_since)
    | simp -zeta only [↓State.since_mk] | split | dsimp +zetaDelta only)

theorem execLoadKey_since (qp cid : Nat) (s : State) (hs : s.since P) : goodOut P (execLoadKey qp cid s) := by
  unfold execLoadKey
  repeat' with_reducible first
    | assumption | apply goodOut_next | refine State.adminRun_since _ _ _ _ _ ?_ (fun x0 x1 hx => ?_)
    | refine State.withBuffer_since _ _ _ ?_ (fun x0 x1 x2 hx => ?_) | apply State.loadKey_since

theorem State.keyCapture_since (s : State) (w : Nat) (hs : s.since P) : (State.keyCapture s w).since P := by
  unfold State.keyCapture
  repeat' (first
    | (with_reducible first | assumption | apply State.setReg_since)
    | extract_lets +onlyGivenNames t | split)

theorem execCphKeySel_since (v : Word) (s : State) (hs : s.since P) : goodOut P (execCphKeySel v s) := by
  unfold execCphKeySel
  repeat' with_reducible first
    | assumption | apply goodOut_next | refine State.whenOn_since _ _ _ ?_ (fun x0 hx => ?_)
    | apply State.keyCapture_since

theorem State.regKey_since (s : State) (c : Cmd) (hs : s.since P) : (State.regKey s c).since P := by
  unfold State.regKey
  dsimp only
  refine State.since_elim _ _ _ (State.refuseCmd_since _ _ _ hs) fun i => ?_
  generalize s.newTag i = tag
  refine State.flow_since _ (State.finish_since _ _ _ _ (State.markPast_since _ _ (State.touch_since _ (State.putKey_since _ _ _ ?_))))
  split
  · exact State.since_mem hs (Memory.wf_lose hs.1.2.1 _ _) rfl rfl rfl rfl rfl rfl
  · exact hs

theorem execRegKey_since (qp cid : Nat) (s : State) (hs : s.since P) : goodOut P (execRegKey qp cid s) := by
  unfold execRegKey
  repeat' with_reducible first
    | assumption | apply goodOut_next | refine State.adminRun_since _ _ _ _ _ ?_ (fun x0 x1 hx => ?_)
    | apply State.regKey_since

theorem State.deregKey_since (s : State) (c : Cmd) (hs : s.since P) : (State.deregKey s c).since P := by
  unfold State.deregKey
  repeat' with_reducible first
    | assumption | apply State.putKey_since | apply State.touch_since | apply State.markPast_since
    | apply State.markWaiting_since | apply State.settle_since | apply State.flow_since

theorem execDeregKey_since (qp cid : Nat) (s : State) (hs : s.since P) : goodOut P (execDeregKey qp cid s) := by
  unfold execDeregKey
  repeat' with_reducible first
    | assumption | apply goodOut_next | refine State.adminRun_since _ _ _ _ _ ?_ (fun x0 x1 hx => ?_)
    | apply State.deregKey_since

theorem State.thaw_since (s : State) (mine : Qp → Bool) (hs : s.since P) : (State.thaw s mine).since P := by
  unfold State.thaw
  repeat' with_reducible first
    | assumption | apply State.updQp_since | apply State.postTry_since | refine State.since_foldl ?_ (fun x y hx => ?_)

theorem State.takeReposts_since (s : State) (mine : Qp → Bool) (hs : s.since P) : (State.takeReposts s mine).2.since P := by
  unfold State.takeReposts
  dsimp only
  rw [State.since_mk]
  exact hs

theorem State.odtRecover_since (s : State) (k ack : Nat) (hs : s.since P) : (State.odtRecover s k ack).since P := by
  unfold State.odtRecover
  repeat' (first
    | (with_reducible first
        | assumption | apply State.takeReposts_since | apply State.setOdt_since | apply State.odtEmit_since
        | apply State.thaw_since | apply State.flow_since | refine State.since_foldl ?_ (fun x y hx => ?_))
    | extract_lets +onlyGivenNames t | split)

theorem State.roceRecover_since (s : State) (k psn : Nat) (hs : s.since P) : (State.roceRecover s k psn).since P := by
  unfold State.roceRecover
  repeat' (first
    | (with_reducible first
        | assumption | apply State.takeReposts_since | apply State.setRoce_since | apply State.rocePump_since
        | apply State.thaw_since | apply State.flow_since)
    | split)

theorem State.odtDrop_since (s : State) (mac : Nat) (hs : s.since P) : (State.odtDrop s mac).since P := by
  unfold State.odtDrop
  repeat' (first | (with_reducible first | assumption | apply State.mgmtDrop_since | apply State.count_since) | split)

theorem State.odtHeard_since (s : State) (h : OdtHdr) (hs : s.since P) : (State.odtHeard s h).since P := by
  unfold State.odtHeard
  repeat' with_reducible first | assumption | apply State.setOdt_since

theorem State.receipt_since (s : State) (k qpn flags : Nat) (hs : s.since P) : (State.receipt s k qpn flags).since P := by
  unfold State.receipt
  repeat' with_reducible first | assumption | apply State.odtCtl_since

theorem State.odtSuspect_since (s : State) (k : Nat) (hs : s.since P) : (State.odtSuspect s k).since P := by
  unfold State.odtSuspect
  repeat' (first
    | (with_reducible first | assumption | apply State.setOdt_since | apply State.touch_since | apply State.count_since)
    | extract_lets +onlyGivenNames t | split)

theorem State.odtBell_since (s : State) (h : OdtHdr) (apply : State → State × Nat) (hs : s.since P) (happly : ∀ x0, x0.since P → (apply x0).1.since P)
    : (State.odtBell s h apply).since P := by
  unfold State.odtBell
  repeat' (first
    | (with_reducible first
        | assumption | apply happly | apply State.odtDrop_since | apply State.odtHeard_since | apply State.setOdt_since
        | apply State.touch_since | apply State.receipt_since | apply State.count_since)
    | extract_lets +onlyGivenNames t | split)

theorem State.odtApply_since (h : OdtHdr) (s : State) (hs : s.since P) : (State.odtApply h s).1.since P := by
  unfold State.odtApply
  repeat' (first
    | (with_reducible first
        | assumption | apply State.badDoorbell_since | apply State.cqHeadDb_since | apply State.sqTail_since
        | apply State.pump_since)
    | split)

theorem State.odtApplyInline_since (h : OdtHdr) (entry : Bytes) (s : State) (hs : s.since P)
    : (State.odtApplyInline h entry s).1.since P := by
  unfold State.odtApplyInline
  repeat' (first
    | (with_reducible first | assumption | apply State.badDoorbell_since | apply State.inlineDb_since)
    | split)

theorem State.odtDoor_since (s : State) (h : OdtHdr) (hs : s.since P) : (State.odtDoor s h).since P := by
  unfold State.odtDoor
  repeat' with_reducible first
    | assumption | refine State.atQpe_since _ _ _ ?_ (fun x0 hx => ?_)
    | refine State.odtBell_since _ _ _ ?_ (fun x0 hx => ?_) | apply State.odtApply_since

theorem State.odtInlineDoor_since (s : State) (h : OdtHdr) (entry : Bytes) (hs : s.since P)
    : (State.odtInlineDoor s h entry).since P := by
  unfold State.odtInlineDoor
  repeat' with_reducible first
    | assumption | refine State.atQpe_since _ _ _ ?_ (fun x0 hx => ?_)
    | refine State.odtBell_since _ _ _ ?_ (fun x0 hx => ?_) | apply State.odtApplyInline_since

theorem execDoorbell_since (h : OdtHdr) (s : State) (hs : s.since P) : goodOut P (execDoorbell h s) := by
  unfold execDoorbell
  repeat' with_reducible first | assumption | apply goodOut_next | apply State.odtDoor_since

theorem execDoorbellInline_since (h : OdtHdr) (entry : Bytes) (s : State) (hs : s.since P)
    : goodOut P (execDoorbellInline h entry s) := by
  unfold execDoorbellInline
  repeat' with_reducible first | assumption | apply goodOut_next | apply State.odtInlineDoor_since

theorem State.odtFetchResp_since (s : State) (h : OdtHdr) (b : Bytes) (hs : s.since P)
    : (State.odtFetchResp s h b).since P := by
  unfold State.odtFetchResp
  repeat' (first
    | (with_reducible first
        | assumption | apply State.odtDrop_since | apply State.odtHeard_since | apply State.setOdt_since
        | apply State.updQp_since)
    | extract_lets +onlyGivenNames t | split)

theorem execFetchResp_since (h : OdtHdr) (slots : Bytes) (s : State) (hs : s.since P)
    : goodOut P (execFetchResp h slots s) := by
  unfold execFetchResp
  repeat' with_reducible first | assumption | apply goodOut_next | apply State.odtFetchResp_since

theorem State.odtCredit_since (s : State) (h : OdtHdr) (hs : s.since P) : (State.odtCredit s h).since P := by
  unfold State.odtCredit
  repeat' (first
    | (with_reducible first
        | assumption | apply State.odtDrop_since | apply State.odtHeard_since | apply State.setOdt_since
        | apply State.touch_since)
    | extract_lets +onlyGivenNames t | split)

theorem execCredit_since (h : OdtHdr) (s : State) (hs : s.since P) : goodOut P (execCredit h s) := by
  unfold execCredit
  repeat' with_reducible first | assumption | apply goodOut_next | apply State.odtCredit_since

theorem State.odtResend_since (s : State) (k : Nat) (m : OdtSent) (hs : s.since P) : (State.odtResend s k m).since P := by
  unfold State.odtResend
  repeat' (first
    | (with_reducible first | assumption | apply State.sendOrHold_since)
    | extract_lets +onlyGivenNames t | split)

theorem State.odtKeepalive_since (s : State) (h : OdtHdr) (hs : s.since P) : (State.odtKeepalive s h).since P := by
  unfold State.odtKeepalive
  repeat' (first
    | (with_reducible first
        | assumption | apply State.odtDrop_since | apply State.odtHeard_since | apply State.setOdt_since
        | apply State.touch_since | apply State.odtCtl_since | apply State.odtRecover_since
        | apply State.odtResend_since | refine State.since_foldl ?_ (fun x y hx => ?_))
    | extract_lets +onlyGivenNames t | split)

theorem execKeepalive_since (h : OdtHdr) (s : State) (hs : s.since P) : goodOut P (execKeepalive h s) := by
  unfold execKeepalive
  repeat' with_reducible first | assumption | apply goodOut_next | apply State.odtKeepalive_since

theorem State.odtRetransmit_since (s : State) (k : Nat) (hs : s.since P) : (State.odtRetransmit s k).since P := by
  unfold State.odtRetransmit
  repeat' (first
    | (with_reducible first
        | assumption | apply State.advanceTo_since | apply State.odtSuspect_since | apply State.setOdt_since
        | apply State.odtResend_since)
    | extract_lets +onlyGivenNames t | split)

theorem execOdtRetransmit_since (conn : Nat) (s : State) (hs : s.since P) : goodOut P (execOdtRetransmit conn s) := by
  unfold execOdtRetransmit
  repeat' with_reducible first | assumption | apply goodOut_next | apply State.odtRetransmit_since

theorem State.odtFetchRetry_since (s : State) (k : Nat) (hs : s.since P) : (State.odtFetchRetry s k).since P := by
  unfold State.odtFetchRetry
  repeat' (first
    | (with_reducible first
        | assumption | apply State.advanceTo_since | apply State.setOdt_since | apply State.odtCtl_since)
    | extract_lets +onlyGivenNames t | split)

theorem execOdtFetchRetry_since (conn : Nat) (s : State) (hs : s.since P) : goodOut P (execOdtFetchRetry conn s) := by
  unfold execOdtFetchRetry
  repeat' with_reducible first | assumption | apply goodOut_next | apply State.odtFetchRetry_since

theorem State.odtKeepaliveSend_since (s : State) (k : Nat) (hs : s.since P) : (State.odtKeepaliveSend s k).since P := by
  unfold State.odtKeepaliveSend
  repeat' (first
    | (with_reducible first | assumption | apply State.advanceTo_since | apply State.odtCtl_since)
    | extract_lets +onlyGivenNames t | split)

theorem execOdtKeepaliveSend_since (conn : Nat) (s : State) (hs : s.since P) : goodOut P (execOdtKeepaliveSend conn s) := by
  unfold execOdtKeepaliveSend
  repeat' with_reducible first | assumption | apply goodOut_next | apply State.odtKeepaliveSend_since

theorem State.odtSilence_since (s : State) (k : Nat) (hs : s.since P) : (State.odtSilence s k).since P := by
  unfold State.odtSilence
  repeat' (first
    | (with_reducible first | assumption | apply State.advanceTo_since | apply State.odtSuspect_since)
    | extract_lets +onlyGivenNames t | split)

theorem execOdtHostSilence_since (conn : Nat) (s : State) (hs : s.since P) : goodOut P (execOdtHostSilence conn s) := by
  unfold execOdtHostSilence
  repeat' with_reducible first | assumption | apply goodOut_next | apply State.odtSilence_since

theorem State.odtFail_since (s : State) (k : Nat) (hs : s.since P) : (State.odtFail s k).since P := by
  unfold State.odtFail
  repeat' with_reducible first
    | assumption | apply State.setOdt_since | apply State.count_since | apply State.dropHeld_since
    | apply State.dropEgress_since | apply State.descsFail_since | apply State.updCmd_since | apply State.qpError_since
    | apply State.touch_since | apply State.flow_since | refine State.since_foldl ?_ (fun x y hx => ?_)

theorem State.odtResumeExpire_since (s : State) (k : Nat) (hs : s.since P) : (State.odtResumeExpire s k).since P := by
  unfold State.odtResumeExpire
  repeat' (first
    | (with_reducible first | assumption | apply State.advanceTo_since | apply State.odtFail_since)
    | extract_lets +onlyGivenNames t | split)

theorem State.odtOpeningExpire_since (s : State) (k : Nat) (hs : s.since P) : (State.odtOpeningExpire s k).since P := by
  unfold State.odtOpeningExpire
  repeat' (first
    | (with_reducible first | assumption | apply State.advanceTo_since | apply State.odtFail_since)
    | extract_lets +onlyGivenNames t | split)

theorem execOdtResumeExpire_since (conn : Nat) (s : State) (hs : s.since P) : goodOut P (execOdtResumeExpire conn s) := by
  unfold execOdtResumeExpire
  repeat' with_reducible first | assumption | apply goodOut_next | apply State.odtResumeExpire_since

theorem execOdtOpeningExpire_since (conn : Nat) (s : State) (hs : s.since P) : goodOut P (execOdtOpeningExpire conn s) := by
  unfold execOdtOpeningExpire
  repeat' with_reducible first | assumption | apply goodOut_next | apply State.odtOpeningExpire_since

theorem State.updRoce_since (s : State) (k : Nat) (f : RoceConn → RoceConn) (hs : s.since P)
    : (State.updRoce s k f).since P := by
  unfold State.updRoce
  repeat' (first | (with_reducible first | assumption | apply State.setRoce_since) | split)

theorem State.roceDrop_since (s : State) (hs : s.since P) : (State.roceDrop s).since P := by
  unfold State.roceDrop
  repeat' (first | (with_reducible first | assumption | apply State.count_since) | split)

theorem State.cmReq_since (s : State) (r : CmReq) (hs : s.since P) : (State.cmReq s r).since P := by
  unfold State.cmReq
  repeat' (first
    | (with_reducible first
        | assumption | apply State.roceFrame_since | apply State.drew_since | apply State.setRoce_since
        | apply State.touch_since)
    | split)

theorem State.cmRtu_since (s : State) (k : Nat) (hs : s.since P) : (State.cmRtu s k).since P := by
  unfold State.cmRtu
  repeat' (first | (with_reducible first | assumption | apply State.updRoce_since | apply State.touch_since) | split)

theorem execCmReq_since (req : CmReq) (s : State) (hs : s.since P) : goodOut P (execCmReq req s) := by
  unfold execCmReq
  repeat' with_reducible first | assumption | apply goodOut_next | apply State.cmReq_since

theorem execCmRtu_since (conn : Nat) (s : State) (hs : s.since P) : goodOut P (execCmRtu conn s) := by
  unfold execCmRtu
  repeat' with_reducible first | assumption | apply goodOut_next | apply State.cmRtu_since

theorem State.roceEnd_since (s : State) (k : Nat) (error : Bool) (hs : s.since P) : (State.roceEnd s k error).since P := by
  unfold State.roceEnd
  repeat' (first
    | (with_reducible first
        | assumption | apply State.updCmd_since | apply State.dropEgress_since | apply State.descsFail_since
        | apply State.qpError_since | apply State.touch_since | apply State.flow_since
        | refine State.since_foldl ?_ (fun x y hx => ?_))
    | simp -zeta only [↓State.since_mk] | split)

theorem State.cmDreq_since (s : State) (k : Nat) (hs : s.since P) : (State.cmDreq s k).since P := by
  unfold State.cmDreq
  repeat' (first
    | (with_reducible first | assumption | apply State.roceEnd_since | apply State.roceFrame_since)
    | split)

theorem execCmDreq_since (conn : Nat) (s : State) (hs : s.since P) : goodOut P (execCmDreq conn s) := by
  unfold execCmDreq
  repeat' with_reducible first | assumption | apply goodOut_next | apply State.cmDreq_since

theorem State.roceEndHost_since (s : State) (host : Nat) (hs : s.since P) : (State.roceEndHost s host).since P := by
  unfold State.roceEndHost
  repeat' with_reducible first
    | assumption | apply State.roceEnd_since | apply State.roceFrame_since
    | refine State.since_foldl ?_ (fun x y hx => ?_)

theorem State.roceOut_since (s : State) (k : Nat) (o : Out) (hs : s.since P) : (State.roceOut s k o).since P := by
  unfold State.roceOut
  repeat' (first | (with_reducible first | assumption | apply State.roceFrame_since) | split)

theorem State.nvReply_since (s : State) (k cid dw0 status : Nat) (data : Bytes) (hs : s.since P)
    : (State.nvReply s k cid dw0 status data).since P := by
  unfold State.nvReply
  repeat' (first | (with_reducible first | assumption | apply State.roceFrame_since) | split)

theorem State.fabricsConnect_since (s : State) (k cid qid sqsize kato : Nat) (nqn : Bytes) (hs : s.since P)
    : (State.fabricsConnect s k cid qid sqsize kato nqn).since P := by
  unfold State.fabricsConnect
  repeat' (first
    | (with_reducible first
        | assumption | apply State.roceDrop_since | apply State.nvReply_since | apply State.setRoce_since
        | apply State.touch_since)
    | extract_lets +onlyGivenNames t | split)

theorem execFabricsConnect_since (conn cid qid sqsize kato : Nat) (nqn : Bytes) (s : State) (hs : s.since P)
    : goodOut P (execFabricsConnect conn cid qid sqsize kato nqn s) := by
  unfold execFabricsConnect
  repeat' with_reducible first | assumption | apply goodOut_next | apply State.fabricsConnect_since

theorem State.onAdminQueue_since (s : State) (k : Nat) (f : RoceConn → State) (hs : s.since P) (hf : ∀ x0, (f x0).since P)
    : (State.onAdminQueue s k f).since P := by
  unfold State.onAdminQueue
  repeat' (first | (with_reducible first | assumption | apply hf | apply State.roceDrop_since) | split)

theorem State.propertyGet_since (s : State) (k cid off : Nat) (hs : s.since P)
    : (State.propertyGet s k cid off).since P := by
  unfold State.propertyGet
  repeat' (first
    | (with_reducible first
        | assumption | refine State.onAdminQueue_since _ _ _ ?_ (fun x0 => ?_) | apply State.nvReply_since)
    | split)

theorem State.propertySet_since (s : State) (k cid off v : Nat) (hs : s.since P)
    : (State.propertySet s k cid off v).since P := by
  unfold State.propertySet
  repeat' (first
    | (with_reducible first
        | assumption | refine State.onAdminQueue_since _ _ _ ?_ (fun x0 => ?_) | apply State.setRoce_since
        | apply State.touch_since | apply State.nvReply_since)
    | split)

theorem State.nvIdentify_since (s : State) (k cid cns nsid : Nat) (hs : s.since P)
    : (State.nvIdentify s k cid cns nsid).since P := by
  unfold State.nvIdentify
  repeat' (first
    | (with_reducible first
        | assumption | refine State.onAdminQueue_since _ _ _ ?_ (fun x0 => ?_) | apply State.nvReply_since)
    | extract_lets +onlyGivenNames t | split)

theorem State.getFeatures_since (s : State) (k cid fid : Nat) (hs : s.since P)
    : (State.getFeatures s k cid fid).since P := by
  unfold State.getFeatures
  repeat' (first
    | (with_reducible first
        | assumption | refine State.onAdminQueue_since _ _ _ ?_ (fun x0 => ?_) | apply State.nvReply_since)
    | split)

theorem State.setFeatures_since (s : State) (k cid fid v : Nat) (hs : s.since P)
    : (State.setFeatures s k cid fid v).since P := by
  unfold State.setFeatures
  repeat' (first
    | (with_reducible first
        | assumption | refine State.onAdminQueue_since _ _ _ ?_ (fun x0 => ?_) | apply State.setRoce_since
        | apply State.touch_since | apply State.nvReply_since)
    | split)

theorem State.nvKeepAlive_since (s : State) (k cid : Nat) (hs : s.since P) : (State.nvKeepAlive s k cid).since P := by
  unfold State.nvKeepAlive
  repeat' with_reducible first
    | assumption | refine State.onAdminQueue_since _ _ _ ?_ (fun x0 => ?_) | apply State.setRoce_since
    | apply State.nvReply_since

theorem State.nvAbort_since (s : State) (k cid sqid target : Nat) (hs : s.since P)
    : (State.nvAbort s k cid sqid target).since P := by
  unfold State.nvAbort
  repeat' (first
    | (with_reducible first
        | assumption | refine State.onAdminQueue_since _ _ _ ?_ (fun x0 => ?_) | apply State.nvReply_since
        | apply State.endEarly_since | apply State.endUnissued_since | apply State.settle_since | apply State.flow_since)
    | extract_lets +onlyGivenNames t | split)

theorem State.nvKaTimeout_since (s : State) (k : Nat) (hs : s.since P) : (State.nvKaTimeout s k).since P := by
  unfold State.nvKaTimeout
  repeat' (first
    | (with_reducible first | assumption | apply State.advanceTo_since | apply State.roceEndHost_since)
    | split)

theorem execPropertyGet_since (conn cid off : Nat) (s : State) (hs : s.since P)
    : goodOut P (execPropertyGet conn cid off s) := by
  unfold execPropertyGet
  repeat' with_reducible first | assumption | apply goodOut_next | apply State.propertyGet_since

theorem execPropertySet_since (conn cid off v : Nat) (s : State) (hs : s.since P)
    : goodOut P (execPropertySet conn cid off v s) := by
  unfold execPropertySet
  repeat' with_reducible first | assumption | apply goodOut_next | apply State.propertySet_since

theorem execNvmeofIdentify_since (conn cid cns nsid : Nat) (s : State) (hs : s.since P)
    : goodOut P (execNvmeofIdentify conn cid cns nsid s) := by
  unfold execNvmeofIdentify
  repeat' with_reducible first | assumption | apply goodOut_next | apply State.nvIdentify_since

theorem execGetFeatures_since (conn cid fid : Nat) (s : State) (hs : s.since P)
    : goodOut P (execGetFeatures conn cid fid s) := by
  unfold execGetFeatures
  repeat' with_reducible first | assumption | apply goodOut_next | apply State.getFeatures_since

theorem execSetFeatures_since (conn cid fid v : Nat) (s : State) (hs : s.since P)
    : goodOut P (execSetFeatures conn cid fid v s) := by
  unfold execSetFeatures
  repeat' with_reducible first | assumption | apply goodOut_next | apply State.setFeatures_since

theorem execKeepAlive_since (conn cid : Nat) (s : State) (hs : s.since P) : goodOut P (execKeepAlive conn cid s) := by
  unfold execKeepAlive
  repeat' with_reducible first | assumption | apply goodOut_next | apply State.nvKeepAlive_since

theorem execNvmeofAbort_since (conn cid sqid target : Nat) (s : State) (hs : s.since P)
    : goodOut P (execNvmeofAbort conn cid sqid target s) := by
  unfold execNvmeofAbort
  repeat' with_reducible first | assumption | apply goodOut_next | apply State.nvAbort_since

theorem execKeepAliveTimeout_since (conn : Nat) (s : State) (hs : s.since P) : goodOut P (execKeepAliveTimeout conn s) := by
  unfold execKeepAliveTimeout
  repeat' with_reducible first | assumption | apply goodOut_next | apply State.nvKaTimeout_since

theorem State.transient_since (s : State) (k tenant access addr len rkey : Nat) (hs : s.since P)
    : ∀ t, (State.transient s k tenant access addr len rkey) = some t → t.1.since P := by
  unfold State.transient
  intro t ht
  simp only [Option.map_eq_some_iff] at ht
  obtain ⟨i, _, rfl⟩ := ht
  exact State.putKey_since _ _ _ hs

theorem State.roceAckTaken_since (s : State) (k psn : Nat) (rec : Option Nat) (hs : s.since P)
    : (State.roceAckTaken s k psn rec).since P := by
  unfold State.roceAckTaken
  repeat' (first
    | (with_reducible first | assumption | apply State.updRoce_since | apply State.roceOut_since)
    | (extract_lets +onlyGivenNames t; refine State.since_cut (P := P) (t := t) ?_ ?_; all_goals first | (intro ht; clear_value t) | subst t)
    | split)

theorem State.roceAckLater_since (s : State) (k psn : Nat) (hs : s.since P) : (State.roceAckLater s k psn).since P := by
  unfold State.roceAckLater
  repeat' (first
    | (with_reducible first | assumption | apply State.updRoce_since | apply State.roceAckTaken_since)
    | split)

theorem State.roceInline_since (s : State) (k psn q : Nat) (entry : Bytes) (hs : s.since P)
    : (State.roceInline s k psn q entry).since P := by
  unfold State.roceInline
  repeat' (first
    | (with_reducible first
        | assumption | apply State.inlineDb_since | apply State.dropKey_since | apply State.roceOut_since
        | apply State.roceAckTaken_since | apply State.roceAckLater_since)
    | simp -zeta only [↓State.since_mk] | extract_lets +onlyGivenNames t | split)

theorem State.roceCapsule_since (s : State) (k psn : Nat) (b : Bytes) (extra : Bool) (hs : s.since P)
    : (State.roceCapsule s k psn b extra).since P := by
  unfold State.roceCapsule
  repeat' (first
    | (with_reducible first
        | assumption | apply State.roceDrop_since | apply State.roceOut_since | apply State.roceAckTaken_since
        | apply State.nvReply_since | apply State.roceInline_since | apply State.updRoce_since
        | apply State.roceSend_since)
    | refine State.transient_since _ _ _ _ _ _ _ ?_ _ (by with_reducible assumption) | extract_lets +onlyGivenNames t
    | split)

theorem State.capsuleDoor_since (s : State) (conn psn : Nat) (capsule : Bytes) (extra : Bool) (hs : s.since P)
    : (State.capsuleDoor s conn psn capsule extra).since P := by
  unfold State.capsuleDoor
  repeat' with_reducible first
    | assumption | refine State.atQpe_since _ _ _ ?_ (fun x0 hx => ?_) | apply State.roceCapsule_since

theorem execRoceCommandCapsule_since (conn psn : Nat) (capsule : Bytes) (extra : Bool) (s : State) (hs : s.since P)
    : goodOut P (execRoceCommandCapsule conn psn capsule extra s) := by
  unfold execRoceCommandCapsule
  repeat' with_reducible first | assumption | apply goodOut_next | apply State.capsuleDoor_since

theorem State.dsmArrive_since (s : State) (k cid : Nat) (range : Option Bytes) (hs : s.since P)
    : (State.dsmArrive s k cid range).since P := by
  unfold State.dsmArrive
  repeat' (first
    | (with_reducible first
        | assumption | apply State.roceDrop_since | apply State.roceEndHost_since | apply State.setRoce_since
        | apply State.dropKey_since | apply State.inlineDb_since | apply State.rocePump_since
        | apply State.updRoce_since)
    | simp -zeta only [↓State.since_mk] | extract_lets +onlyGivenNames t | split)

theorem State.rangeDoor_since (s : State) (conn cid : Nat) (range : Option Bytes) (hs : s.since P)
    : (State.rangeDoor s conn cid range).since P := by
  unfold State.rangeDoor
  repeat' with_reducible first
    | assumption | refine State.atQpe_since _ _ _ ?_ (fun x0 hx => ?_) | apply State.dsmArrive_since

theorem execDsmRangeArrive_since (conn cid : Nat) (range : Option Bytes) (s : State) (hs : s.since P)
    : goodOut P (execDsmRangeArrive conn cid range s) := by
  unfold execDsmRangeArrive
  repeat' with_reducible first | assumption | apply goodOut_next | apply State.rangeDoor_since

theorem State.roceRemote_since (s : State) (k psn : Nat) (hs : s.since P) : (State.roceRemote s k psn).since P := by
  unfold State.roceRemote
  repeat' (first | (with_reducible first | assumption | apply State.roceOut_since | apply State.roceDrop_since) | split)

theorem execRoceRemoteAccess_since (conn psn : Nat) (s : State) (hs : s.since P)
    : goodOut P (execRoceRemoteAccess conn psn s) := by
  unfold execRoceRemoteAccess
  repeat' with_reducible first | assumption | apply goodOut_next | apply State.roceRemote_since

theorem State.roceResend_since (s : State) (k : Nat) (hs : s.since P) : (State.roceResend s k).since P := by
  unfold State.roceResend
  repeat' (first
    | (with_reducible first
        | assumption | apply State.setRoce_since | apply State.roceFrame_since
        | refine State.since_foldl ?_ (fun x y hx => ?_))
    | split)

theorem State.roceAckRx_since (s : State) (k : Nat) (kind : RoceAckKind) (psn : Nat) (hs : s.since P)
    : (State.roceAckRx s k kind psn).since P := by
  unfold State.roceAckRx
  repeat' (first
    | (with_reducible first
        | assumption | apply State.roceDrop_since | apply State.setRoce_since | apply State.rocePump_since
        | apply State.roceRecover_since | apply State.roceResend_since | apply State.roceEndHost_since)
    | split)

theorem execRoceAckReceive_since (conn : Nat) (kind : RoceAckKind) (psn : Nat) (s : State) (hs : s.since P)
    : goodOut P (execRoceAckReceive conn kind psn s) := by
  unfold execRoceAckReceive
  repeat' with_reducible first | assumption | apply goodOut_next | apply State.roceAckRx_since

theorem State.roceAckTimeout_since (s : State) (k : Nat) (hs : s.since P) : (State.roceAckTimeout s k).since P := by
  unfold State.roceAckTimeout
  repeat' (first
    | (with_reducible first
        | assumption | apply State.advanceTo_since | apply State.roceEndHost_since | apply State.setRoce_since
        | apply State.roceResend_since)
    | (extract_lets +onlyGivenNames t; refine State.since_cut (P := P) (t := t) ?_ ?_; all_goals first | (intro ht; clear_value t) | subst t)
    | split)

theorem execRoceAckTimeout_since (conn : Nat) (s : State) (hs : s.since P) : goodOut P (execRoceAckTimeout conn s) := by
  unfold execRoceAckTimeout
  repeat' with_reducible first | assumption | apply goodOut_next | apply State.roceAckTimeout_since

theorem State.roceRnrExpire_since (s : State) (k : Nat) (hs : s.since P) : (State.roceRnrExpire s k).since P := by
  unfold State.roceRnrExpire
  repeat' (first
    | (with_reducible first
        | assumption | apply State.advanceTo_since | apply State.roceEndHost_since | apply State.setRoce_since
        | apply State.roceResend_since | apply State.rocePump_since)
    | extract_lets +onlyGivenNames t | split)

theorem execRoceRnrTimerExpire_since (conn : Nat) (s : State) (hs : s.since P)
    : goodOut P (execRoceRnrTimerExpire conn s) := by
  unfold execRoceRnrTimerExpire
  repeat' with_reducible first | assumption | apply goodOut_next | apply State.roceRnrExpire_since

theorem State.unsupported_since (s : State) (kind : Nat) (hs : s.since P) : (State.unsupported s kind).since P := by
  unfold State.unsupported
  repeat' (first | (with_reducible first | assumption | apply State.emit_since) | split)

theorem State.slotWrite_since (s : State) (f q : Nat) (d : Door) (g : State → State) (hs : s.since P) (hg : ∀ x0, x0.since P → (g x0).since P)
    : (State.slotWrite s f q d g).since P := by
  unfold State.slotWrite
  repeat' (first
    | (with_reducible first
        | assumption | apply hg | apply State.unsupported_since | apply State.count_since
        | refine State.atQpe_since _ _ _ ?_ (fun x0 hx => ?_))
    | split)

theorem State.slotBad_since (s : State) (q : Nat) (hs : s.since P) : (State.slotBad s q).since P := by
  unfold State.slotBad
  repeat' (first
    | (with_reducible first | assumption | apply State.count_since | apply State.badDoorbell_since)
    | split)

theorem State.epSqTail_since (s : State) (f q v : Nat) (hs : s.since P) : (State.epSqTail s f q v).since P := by
  unfold State.epSqTail
  repeat' (first
    | (with_reducible first
        | assumption | refine State.slotWrite_since _ _ _ _ _ ?_ (fun x0 hx => ?_) | apply State.sqTail_since
        | apply State.slotBad_since | apply State.pump_since)
    | split)

theorem State.epCqHead_since (s : State) (f q v : Nat) (hs : s.since P) : (State.epCqHead s f q v).since P := by
  unfold State.epCqHead
  repeat' (first
    | (with_reducible first
        | assumption | refine State.slotWrite_since _ _ _ _ _ ?_ (fun x0 hx => ?_) | apply State.slotBad_since
        | apply State.cqHeadDb_since | apply State.pump_since)
    | split)

theorem State.epInline_since (s : State) (f q : Nat) (b : Bytes) (hs : s.since P) : (State.epInline s f q b).since P := by
  unfold State.epInline
  repeat' (first
    | (with_reducible first
        | assumption | refine State.slotWrite_since _ _ _ _ _ ?_ (fun x0 hx => ?_) | apply State.slotBad_since
        | apply State.inlineDb_since | apply State.updQp_since)
    | simp -zeta only [↓State.since_mk] | extract_lets +onlyGivenNames t | split)

theorem State.barWrite_since (s : State) (f a : Nat) (b : Bytes) (hs : s.since P) : (State.barWrite s f a b).since P := by
  unfold State.barWrite
  repeat' (first
    | (with_reducible first
        | assumption | apply State.epSqTail_since | apply State.epCqHead_since | apply State.epInline_since)
    | extract_lets +onlyGivenNames t | split)

theorem execSqTailDb_since (func qp : Nat) (v : Word) (s : State) (hs : s.since P)
    : goodOut P (execSqTailDb func qp v s) := by
  unfold execSqTailDb
  repeat' with_reducible first | assumption | apply goodOut_next | apply State.epSqTail_since

theorem execCqHeadDb_since (func qp : Nat) (v : Word) (s : State) (hs : s.since P)
    : goodOut P (execCqHeadDb func qp v s) := by
  unfold execCqHeadDb
  repeat' with_reducible first | assumption | apply goodOut_next | apply State.epCqHead_since

theorem execInlEntry_since (func qp : Nat) (entry : Bytes) (s : State) (hs : s.since P)
    : goodOut P (execInlEntry func qp entry s) := by
  unfold execInlEntry
  repeat' with_reducible first | assumption | apply goodOut_next | apply State.epInline_since

theorem execUnsupportedRequest_since (kind : Nat) (s : State) (hs : s.since P)
    : goodOut P (execUnsupportedRequest kind s) := by
  unfold execUnsupportedRequest
  repeat' with_reducible first | assumption | apply goodOut_next | apply State.unsupported_since

theorem State.winDrop_since (s : State) (hs : s.since P) : (State.winDrop s).since P := by
  unfold State.winDrop
  repeat' with_reducible first | assumption | apply State.count_since | apply State.unsupported_since

theorem State.peerTlp_since (s : State) (off reqId : Nat) (write : Bool) (n : Nat) (b : Bytes) (hs : s.since P)
    : (State.peerTlp s off reqId write n b).since P := by
  unfold State.peerTlp
  repeat' (first
    | (with_reducible first
        | assumption | apply State.unsupported_since | apply State.winDrop_since | apply State.storeStaged_since
        | apply State.count_since | apply State.barWrite_since | apply State.emit_since)
    | extract_lets +onlyGivenNames t | split)

theorem execPeerWindowTlp_since (off reqId : Nat) (write : Bool) (len : Nat) (bytes : Bytes) (s : State) (hs : s.since P)
    : goodOut P (execPeerWindowTlp off reqId write len bytes s) := by
  unfold execPeerWindowTlp
  repeat' with_reducible first | assumption | apply goodOut_next | apply State.peerTlp_since

theorem State.winCommit_since (s : State) (hs : s.since P) : (State.winCommit s).since P := by
  unfold State.winCommit
  repeat' (first
    | (with_reducible first | assumption | apply State.setField_since)
    | simp -zeta only [↓State.since_mk]
    | (extract_lets +onlyGivenNames t; refine State.since_cut (P := P) (t := t) ?_ ?_; all_goals first | (intro ht; clear_value t) | subst t)
    | extract_lets +onlyGivenNames t | split)

theorem execEpfWinCommit_since (s : State) (hs : s.since P) : goodOut P (execEpfWinCommit s) := by
  unfold execEpfWinCommit
  repeat' (first
    | (with_reducible first
        | assumption | apply goodOut_next | refine State.whenOn_since _ _ _ ?_ (fun x0 hx => ?_)
        | apply State.winCommit_since)
    | split)

theorem State.sendPending_since (s : State) (f : Nat) (p : Nat → Bool) (hs : s.since P)
    : (State.sendPending s f p).since P := by
  unfold State.sendPending
  repeat' (first
    | (with_reducible first
        | assumption | apply State.setFunc_since | apply State.pushEgress_since
        | refine State.since_foldl ?_ (fun x y hx => ?_))
    | split)

theorem State.msixUnmask_since (s : State) (f : Nat) (what : MsixPermit) (hs : s.since P)
    : (State.msixUnmask s f what).since P := by
  unfold State.msixUnmask
  repeat' (first
    | (with_reducible first | assumption | apply State.setFunc_since | apply State.sendPending_since)
    | split)

theorem execMsixUnmask_since (func : Nat) (what : MsixPermit) (s : State) (hs : s.since P)
    : goodOut P (execMsixUnmask func what s) := by
  unfold execMsixUnmask
  repeat' with_reducible first | assumption | apply goodOut_next | apply State.msixUnmask_since

theorem State.withdraw_since (s : State) (f : Nat) (hs : s.since P) : (State.withdraw s f).since P := by
  unfold State.withdraw
  repeat' (first
    | (with_reducible first
        | assumption | apply State.count_since | apply State.setFunc_since | apply State.dropEgress_since
        | apply State.updCmd_since | apply State.endEarly_since | apply State.descFail_since
        | apply State.qpError_since | apply State.flow_since | refine State.since_foldl ?_ (fun x y hx => ?_))
    | simp -zeta only [↓State.since_mk] | split)

theorem State.funcReset_since (s : State) (f : Nat) (hs : s.since P) : (State.funcReset s f).since P := by
  unfold State.funcReset
  repeat' with_reducible first
    | assumption | apply State.setFunc_since | apply State.resetReach_since | apply State.flow_since
    | refine State.since_foldl ?_ (fun x y hx => ?_)

theorem State.resetFuncs_since (s : State) (a b : Nat) (hs : s.since P) : (State.resetFuncs s a b).since P := by
  unfold State.resetFuncs
  repeat' with_reducible first
    | assumption | apply State.withdraw_since | apply State.funcReset_since
    | refine State.since_foldl ?_ (fun x y hx => ?_)

theorem State.bmeOff_since (s : State) (f : Nat) (mse : Bool) (hs : s.since P) : (State.bmeOff s f mse).since P := by
  unfold State.bmeOff
  repeat' (first
    | (with_reducible first | assumption | apply State.setFunc_since | apply State.withdraw_since)
    | extract_lets +onlyGivenNames t | split)

theorem State.d3hot_since (s : State) (f : Nat) (hs : s.since P) : (State.d3hot s f).since P := by
  unfold State.d3hot
  repeat' (first | (with_reducible first | assumption | apply State.setFunc_since | apply State.withdraw_since) | split)

theorem State.flr_since (s : State) (f : Nat) (hs : s.since P) : (State.flr s f).since P := by
  unfold State.flr
  repeat' (first
    | (with_reducible first | assumption | apply State.resetFuncs_since)
    | simp -zeta only [↓State.since_mk]
    | (extract_lets +onlyGivenNames t; refine State.since_cut (P := P) (t := t) ?_ ?_; all_goals first | (intro ht; clear_value t) | subst t)
    | split)

theorem State.vfDisable_since (s : State) (n : Nat) (hs : s.since P) : (State.vfDisable s n).since P := by
  unfold State.vfDisable
  repeat' (first
    | (with_reducible first | assumption | apply State.resetFuncs_since)
    | simp -zeta only [↓State.since_mk]
    | (extract_lets +onlyGivenNames t; refine State.since_cut (P := P) (t := t) ?_ ?_; all_goals first | (intro ht; clear_value t) | subst t)
    | split)

theorem State.presentFuncs_since (s : State) (a b : Nat) (hs : s.since P) : (State.presentFuncs s a b).since P := by
  unfold State.presentFuncs
  repeat' with_reducible first | assumption | apply State.emit_since | refine State.since_foldl ?_ (fun x y hx => ?_)

theorem State.vfEnable_since (s : State) (n : Nat) (hs : s.since P) : (State.vfEnable s n).since P := by
  unfold State.vfEnable
  repeat' (first
    | (with_reducible first | assumption | apply State.presentFuncs_since)
    | simp -zeta only [↓State.since_mk] | split)

theorem State.epLinkDown_since (s : State) (hs : s.since P) : (State.epLinkDown s).since P := by
  unfold State.epLinkDown
  repeat' (first
    | (with_reducible first
        | assumption | apply State.resetFuncs_since | apply State.setField_since | apply State.event_since)
    | simp -zeta only [↓State.since_mk] | split)

theorem State.epLinkUp_since (s : State) (speed width : Nat) (flit : Bool) (hs : s.since P)
    : (State.epLinkUp s speed width flit).since P := by
  unfold State.epLinkUp
  repeat' (first
    | (with_reducible first | assumption | apply State.presentFuncs_since)
    | simp -zeta only [↓State.since_mk] | extract_lets +onlyGivenNames t | split)

theorem execBusMasterDisable_since (func : Nat) (mse : Bool) (s : State) (hs : s.since P)
    : goodOut P (execBusMasterDisable func mse s) := by
  unfold execBusMasterDisable
  repeat' with_reducible first | assumption | apply goodOut_next | apply State.bmeOff_since

theorem execD3hotEntry_since (func : Nat) (s : State) (hs : s.since P) : goodOut P (execD3hotEntry func s) := by
  unfold execD3hotEntry
  repeat' with_reducible first | assumption | apply goodOut_next | apply State.d3hot_since

theorem execFunctionLevelReset_since (func : Nat) (s : State) (hs : s.since P)
    : goodOut P (execFunctionLevelReset func s) := by
  unfold execFunctionLevelReset
  repeat' with_reducible first | assumption | apply goodOut_next | apply State.flr_since

theorem execVfDisable_since (numVfs : Nat) (s : State) (hs : s.since P) : goodOut P (execVfDisable numVfs s) := by
  unfold execVfDisable
  repeat' with_reducible first | assumption | apply goodOut_next | apply State.vfDisable_since

theorem execVfEnable_since (numVfs : Nat) (s : State) (hs : s.since P) : goodOut P (execVfEnable numVfs s) := by
  unfold execVfEnable
  repeat' with_reducible first | assumption | apply goodOut_next | apply State.vfEnable_since

theorem execEndpointLinkLoss_since (s : State) (hs : s.since P) : goodOut P (execEndpointLinkLoss s) := by
  unfold execEndpointLinkLoss
  repeat' with_reducible first | assumption | apply goodOut_next | apply State.epLinkDown_since

theorem execEndpointLinkUp_since (speed width : Nat) (flit : Bool) (s : State) (hs : s.since P)
    : goodOut P (execEndpointLinkUp speed width flit s) := by
  unfold execEndpointLinkUp
  repeat' with_reducible first | assumption | apply goodOut_next | apply State.epLinkUp_since

theorem execEpPerstAssert_since (s : State) (hs : s.since P) : goodOut P (execEpPerstAssert s) := by
  unfold execEpPerstAssert
  repeat' (first
    | (with_reducible first | assumption | apply goodOut_next | apply State.epLinkDown_since)
    | simp -zeta only [↓State.since_mk])

theorem execEpPerstDeassert_since (s : State) (hs : s.since P) : goodOut P (execEpPerstDeassert s) := by
  unfold execEpPerstDeassert
  repeat' (first | (with_reducible first | assumption | apply goodOut_next) | simp -zeta only [↓State.since_mk])

theorem State.cplTimeout_since (s : State) (tag : Nat) (hs : s.since P) : (State.cplTimeout s tag).since P := by
  unfold State.cplTimeout
  repeat' (first
    | (with_reducible first
        | assumption | apply State.advanceTo_since | apply State.count_since | apply State.emit_since
        | apply State.qpError_since | apply State.updCmd_since | apply State.descFail_since | apply State.epPump_since
        | apply State.flow_since)
    | simp -zeta only [↓State.since_mk] | split)

theorem execCompletionTimeout_since (tag : Nat) (s : State) (hs : s.since P) : goodOut P (execCompletionTimeout tag s) := by
  unfold execCompletionTimeout
  repeat' with_reducible first | assumption | apply goodOut_next | apply State.cplTimeout_since

theorem State.tagRelease_since (s : State) (f : Nat) (hs : s.since P) : (State.tagRelease s f).since P := by
  unfold State.tagRelease
  repeat' (first
    | (with_reducible first | assumption | apply State.advanceTo_since | apply State.epPump_since)
    | simp -zeta only [↓State.since_mk] | extract_lets +onlyGivenNames t | split)

theorem execTagRelease_since (func : Nat) (s : State) (hs : s.since P) : goodOut P (execTagRelease func s) := by
  unfold execTagRelease
  repeat' with_reducible first | assumption | apply goodOut_next | apply State.tagRelease_since

theorem State.doorsOpen_since (s : State) (hs : s.since P) : (State.doorsOpen s).since P := by
  unfold State.doorsOpen
  repeat' (first
    | (with_reducible first
        | assumption | apply State.epSqTail_since | apply State.epCqHead_since | apply State.epInline_since
        | apply State.odtDoor_since | apply State.odtInlineDoor_since | apply State.capsuleDoor_since
        | apply State.rangeDoor_since | refine State.since_foldl ?_ (fun x y hx => ?_))
    | simp -zeta only [↓State.since_mk] | split)

theorem State.cfgRead_since (s : State) (f off : Nat) (hs : s.since P) : (State.cfgRead s f off).since P := by
  unfold State.cfgRead
  repeat' (first
    | (with_reducible first | assumption | apply State.setFunc_since | apply State.emit_since)
    | split | dsimp +zetaDelta only)

theorem State.masterLostRead_since (s : State) (f : Nat) (hs : s.since P) : (State.masterLostRead s f).since P := by
  unfold State.masterLostRead
  repeat' with_reducible first | assumption | apply State.cfgRead_since

theorem execMasterLostRead_since (func : Nat) (s : State) (hs : s.since P) : goodOut P (execMasterLostRead func s) := by
  unfold execMasterLostRead
  repeat' with_reducible first | assumption | apply goodOut_next | apply State.masterLostRead_since

end Sys2Proof.Machine
end

