-- ==== Sys2Proof/Laws/SinceGroup.lean ====
section
/-! SUPPORT. The invariant, and what a step never takes back, through every operation of groups, pairing and the fatal stop. -/

namespace Sys2Proof.Machine

variable {P : Past}

theorem State.losePower_since (s : State) (i : Nat) (hs : s.since P) : (State.losePower s i).since P := by
  unfold State.losePower
  extract_lets t
  have h : t.since P := by
    simp -zeta only [t, State.since_mk]
    exact hs
  clear_value t
  repeat' (first
    | (with_reducible first | assumption | refine State.since_ite (fun _ => ?_) (fun _ => ?_))
    | (simp -zeta only [↓State.since_mk])
    | exact State.since_mem h (Memory.wf_filter h.1.2.1 _) rfl rfl rfl rfl rfl rfl)

theorem State.gainPower_since (s : State) (i : Nat) (hs : s.since P) : (State.gainPower s i).since P := by
  unfold State.gainPower
  repeat' (first
    | (with_reducible first | assumption | apply State.since_draws)
    | simp -zeta only [↓State.since_mk] | split)

theorem State.islandOn_since (s : State) (i : Nat) (hs : s.since P) (hi : i < 168 → (s.island i).state ≠ .fused) :
    (s.islandOn i).since P := by
  unfold State.islandOn
  extract_lets x t u xb v
  have ht : t.since P := by
    simp only [t]
    split
    · exact State.gainPower_since _ _ hs
    · exact hs
  clear_value t
  have hu : u.since P := by
    apply State.raise_since
    apply State.trace_since
    apply State.setIsland_since _ _ _ ht
    intro h
    obtain ⟨a, b, c⟩ := State.island_okFor s i hs h
    have hf := hi h
    refine ⟨⟨fun e => (by cases e), fun e => absurd (a.2 e) hf⟩, b, fun _ e => by cases e⟩
  clear_value u
  have hv : v.since P := by
    simp only [v]
    split
    · exact hu
    · exact hu
  clear_value v
  split
  · exact State.doorsOpen_since _ hv
  · exact hv

theorem State.bringUp_since (s : State) (i : Nat) (hs : s.since P) : (State.bringUp s i).since P := by
  unfold State.bringUp
  extract_lets x
  split
  · exact hs
  · next h =>
    have hf : x.state ≠ .fused := fun e => h (.inl e)
    apply State.islandOn_since
    · apply State.setIsland_since _ _ _ hs
      intro hi
      obtain ⟨a, b, c⟩ := State.island_okFor s i hs hi
      exact ⟨a, fun e => (by cases e), fun b hb => ⟨hf, (c b hb).2⟩⟩
    · intro hi
      unfold State.setIsland State.island
      dsimp only
      rw [setAt_getD _ _ _ _ _ (hs.1.2.2.1.symm ▸ hi)]
      simpa using hf

theorem State.createWrites_since (s : State) (gi : Nat) (g : Group) (sl : Nat) (hs : s.since P)
    : (State.createWrites s gi g sl).since P := by
  unfold State.createWrites
  repeat' with_reducible first | assumption | apply State.addMem_since

theorem State.createGroup_since (s : State) (c : Cmd) (hs : s.since P) : (State.createGroup s c).since P := by
  unfold State.createGroup
  repeat' (first
    | (with_reducible first
        | assumption | apply State.drew_since | apply State.markPast_since | apply State.markWaiting_since
        | apply State.createWrites_since | apply State.flow_since | refine State.since_foldl ?_ (fun x y hx => ?_))
    | simp -zeta only [↓State.since_mk])

theorem execCreateGroup_since (qp cid : Nat) (s : State) (hs : s.since P) : goodOut P (execCreateGroup qp cid s) := by
  unfold execCreateGroup
  repeat' with_reducible first
    | assumption | apply goodOut_next | refine State.adminRun_since _ _ _ _ _ ?_ (fun x0 x1 hx => ?_)
    | apply State.createGroup_since

theorem State.deleteGroup_since (s : State) (c : Cmd) (hs : s.since P) : (State.deleteGroup s c).since P := by
  unfold State.deleteGroup
  repeat' (first
    | (with_reducible first
        | assumption | apply State.markPast_since | apply State.markWaiting_since | apply State.freeSlice_since
        | apply State.freeHeld_since | apply State.dropMem_since | apply State.addMem_since | apply State.cfgPut_since
        | apply State.touch_since | apply State.finish_since | apply State.flow_since
        | refine State.since_foldl ?_ (fun x y hx => ?_))
    | simp -zeta only [↓State.since_mk]
    | (extract_lets +onlyGivenNames t; refine State.since_cut (P := P) (t := t) ?_ ?_; all_goals first | (intro ht; clear_value t) | subst t)
    | extract_lets +onlyGivenNames t | split)

theorem execDeleteGroup_since (qp cid : Nat) (s : State) (hs : s.since P) : goodOut P (execDeleteGroup qp cid s) := by
  unfold execDeleteGroup
  repeat' with_reducible first
    | assumption | apply goodOut_next | refine State.adminRun_since _ _ _ _ _ ?_ (fun x0 x1 hx => ?_)
    | apply State.deleteGroup_since

theorem State.createVolume_since (s : State) (c : Cmd) (hs : s.since P) : (State.createVolume s c).since P := by
  unfold State.createVolume
  repeat' (first
    | (with_reducible first
        | assumption | apply State.markPast_since | apply State.cfgPut_since | apply State.touch_since
        | apply State.markWaiting_since | apply State.pushCreating_since | apply State.flow_since
        | apply State.finish_since)
    | simp -zeta only [↓State.since_mk]
    | (extract_lets +onlyGivenNames t; refine State.since_cut (P := P) (t := t) ?_ ?_; all_goals first | (intro ht; clear_value t) | subst t)
    | extract_lets +onlyGivenNames t | split)

theorem execCreateVolume_since (qp cid : Nat) (s : State) (hs : s.since P) : goodOut P (execCreateVolume qp cid s) := by
  unfold execCreateVolume
  repeat' with_reducible first
    | assumption | apply goodOut_next | refine State.adminRun_since _ _ _ _ _ ?_ (fun x0 x1 hx => ?_)
    | apply State.createVolume_since

theorem State.dropKeys_since (s : State) (h : Nat) (hs : s.since P) : (State.dropKeys s h).since P := by
  unfold State.dropKeys
  repeat' (first
    | (with_reducible first | assumption | apply State.cfgPut_since | refine State.since_foldl ?_ (fun x y hx => ?_))
    | simp -zeta only [↓State.since_mk]
    | (extract_lets +onlyGivenNames t; refine State.since_cut (P := P) (t := t) ?_ ?_; all_goals first | (intro ht; clear_value t) | subst t)
    | extract_lets +onlyGivenNames t | split)

theorem State.deleteVolume_since (s : State) (c : Cmd) (hs : s.since P) : (State.deleteVolume s c).since P := by
  unfold State.deleteVolume
  repeat' (first
    | (with_reducible first
        | assumption | apply State.markPast_since | apply State.dropKeys_since | apply State.updGroup_since
        | apply State.cfgPut_since | apply State.touch_since | apply State.putRecord_since | apply State.finish_since
        | apply State.flow_since)
    | simp -zeta only [↓State.since_mk] | extract_lets +onlyGivenNames t | split)

theorem execDeleteVolume_since (qp cid : Nat) (s : State) (hs : s.since P) : goodOut P (execDeleteVolume qp cid s) := by
  unfold execDeleteVolume
  repeat' with_reducible first
    | assumption | apply goodOut_next | refine State.adminRun_since _ _ _ _ _ ?_ (fun x0 x1 hx => ?_)
    | apply State.deleteVolume_since

theorem State.answer_since (s : State) (c : Cmd) (b : Bytes) (hs : s.since P) : (State.answer s c b).since P := by
  unfold State.answer
  repeat' with_reducible first
    | assumption | apply State.hostPut_since | apply State.finish_since | apply State.flow_since

theorem execIdentifyVolume_since (qp cid : Nat) (s : State) (hs : s.since P) : goodOut P (execIdentifyVolume qp cid s) := by
  unfold execIdentifyVolume
  repeat' (first
    | (with_reducible first
        | assumption | apply goodOut_next | refine State.adminRun_since _ _ _ _ _ ?_ (fun x0 x1 hx => ?_)
        | apply State.answer_since)
    | split)

theorem execIdentifyGroup_since (qp cid : Nat) (s : State) (hs : s.since P) : goodOut P (execIdentifyGroup qp cid s) := by
  unfold execIdentifyGroup
  repeat' (first
    | (with_reducible first
        | assumption | apply goodOut_next | refine State.adminRun_since _ _ _ _ _ ?_ (fun x0 x1 hx => ?_)
        | apply State.answer_since)
    | split)

theorem execListBlocks_since (qp cid : Nat) (s : State) (hs : s.since P) : goodOut P (execListBlocks qp cid s) := by
  unfold execListBlocks
  repeat' with_reducible first
    | assumption | apply goodOut_next | refine State.adminRun_since _ _ _ _ _ ?_ (fun x0 x1 hx => ?_)
    | apply State.answer_since

theorem State.rowCapture_since (s : State) (w : Nat) (hs : s.since P) : (State.rowCapture s w).since P := by
  unfold State.rowCapture
  repeat' with_reducible first | assumption | apply State.setReg_since

theorem execStrRowSel_since (v : Word) (s : State) (hs : s.since P) : goodOut P (execStrRowSel v s) := by
  unfold execStrRowSel
  repeat' with_reducible first
    | assumption | apply goodOut_next | refine State.whenOn_since _ _ _ ?_ (fun x0 hx => ?_)
    | apply State.rowCapture_since

theorem State.assemble_since (s : State) (gi : Nat) (reads : BitmapReads) (hs : s.since P)
    : (State.assemble s gi reads).since P := by
  unfold State.assemble
  repeat' (first
    | (with_reducible first
        | assumption | apply State.setGroup_since | apply State.resolvePolicy_since | apply State.updGroup_since
        | apply State.touch_since | refine State.since_foldl ?_ (fun x y hx => ?_))
    | simp -zeta only [↓State.since_mk] | split)

theorem State.driveArrived_since (s : State) (gi sl : Nat) (hs : s.since P) : (State.driveArrived s gi sl).since P := by
  unfold State.driveArrived
  repeat' (first
    | (with_reducible first
        | assumption | apply State.updMember_since | apply State.acquire_since | apply State.failedCheck_since
        | apply State.deltaTo_since | apply State.putRecord_since | apply State.autoAct_since | apply State.adopt_since
        | apply State.event_since)
    | extract_lets +onlyGivenNames t | split)

theorem State.takeUp_since (s : State) (gi : Nat) (hs : s.since P) : (State.takeUp s gi).since P := by
  unfold State.takeUp
  repeat' (first
    | (with_reducible first
        | assumption | apply State.setGroup_since | apply State.rewriteLabels_since | apply State.replicaStart_since
        | apply State.setBit_since | apply State.winAdmit_since | apply State.driveArrived_since
        | apply State.evaluate_since | apply State.autoAct_since | apply State.putRecord_since
        | refine State.since_foldl ?_ (fun x y hx => ?_))
    | split)

theorem State.tryAssemble_since (s : State) (gi : Nat) (reads : BitmapReads) (force : Bool) (hs : s.since P)
    : (State.tryAssemble s gi reads force).since P := by
  unfold State.tryAssemble
  repeat' (first
    | (with_reducible first
        | assumption | apply State.assemble_since | apply State.acquire_since | apply State.takeUp_since
        | refine State.since_foldl ?_ (fun x y hx => ?_))
    | (extract_lets +onlyGivenNames t; refine State.since_cut (P := P) (t := t) ?_ ?_; all_goals first | (intro ht; clear_value t) | subst t)
    | split)

theorem State.learn_since (s : State) (gi : Nat) (hs : s.since P) : (State.learn s gi).since P := by
  unfold State.learn
  repeat' (first
    | (with_reducible first | assumption | apply State.setGroup_since | refine State.since_foldl ?_ (fun x y hx => ?_))
    | simp -zeta only [↓State.since_mk]
    | (extract_lets +onlyGivenNames t; refine State.since_cut (P := P) (t := t) ?_ ?_; all_goals first | (intro ht; clear_value t) | subst t)
    | extract_lets +onlyGivenNames t | split)

theorem State.driveBecomesReady_since (s : State) (sl : Nat) (id : DriveId) (blk0 : Bytes) (reads : BitmapReads) (hs : s.since P)
    : (State.driveBecomesReady s sl id blk0 reads).since P := by
  unfold State.driveBecomesReady
  extract_lets powered label s1 s2 s3 s4 st s5
  clear_value label
  split
  · exact hs
  · have h1 : s2.since P := State.emit_since _ _ (State.setDrive_since _ _ _ hs)
    clear_value s2
    have h3 : s3.since P := by
      simp only [s3]
      split
      · exact State.sendAcquire_since _ _ h1
      · exact h1
    clear_value s3
    have h4 : s4.since P := by
      simp only [s4]
      split
      · split
        · exact h3
        · exact State.learn_since _ _ h3
      · exact h3
    clear_value s4
    have h2 : s5.since P := by
      simp -zeta only [s5, State.since_mk]
      exact h4
    clear_value s5
    split
    · exact h2
    split
    · exact h2
    · extract_lets gi
      clear_value gi
      split
      · exact h2
      · refine State.since_ite (fun _ => ?_) (fun _ => ?_)
        · refine State.since_ite (fun _ => ?_) (fun _ => h2)
          exact State.flow_since _ (State.driveArrived_since _ _ _ h2)
        · refine State.since_ite (fun _ => h2) (fun _ => ?_)
          refine State.since_ite (fun _ => ?_) (fun _ => ?_)
          · exact State.flow_since _ (State.tryAssemble_since _ _ _ _ h2)
          · refine State.since_ite (fun _ => ?_) (fun _ => h2)
            exact State.flow_since _ (State.tryAssemble_since _ _ _ _ h2)

theorem State.assemblyDeadline_since (s : State) (reads : BitmapReads) (hs : s.since P)
    : (State.assemblyDeadline s reads).since P := by
  unfold State.assemblyDeadline
  repeat' (first
    | (with_reducible first
        | assumption | apply State.advanceTo_since | apply State.tryAssemble_since | apply State.flow_since
        | refine State.since_foldl ?_ (fun x y hx => ?_))
    | simp -zeta only [↓State.since_mk] | split)

theorem State.adoptCommand_since (s : State) (gi sl : Nat) (hs : s.since P) : (State.adoptCommand s gi sl).since P := by
  unfold State.adoptCommand
  repeat' (first
    | (with_reducible first
        | assumption | apply State.tryAssemble_since | apply State.setDrive_since | apply State.addMem_since
        | apply State.adopt_since)
    | (extract_lets +onlyGivenNames t; refine State.since_cut (P := P) (t := t) ?_ ?_; all_goals first | (intro ht; clear_value t) | subst t)
    | split)

theorem State.memberControl_since (s : State) (c : Cmd) (hs : s.since P) : (State.memberControl s c).since P := by
  unfold State.memberControl
  repeat' (first
    | (with_reducible first
        | assumption | apply State.markPast_since | apply State.startRebuild_since | apply State.updGroup_since
        | apply State.resolvePolicy_since | apply State.autoAct_since | apply State.putRecord_since
        | apply State.touch_since | apply State.memberMissing_since | apply State.adoptCommand_since
        | apply State.finish_since | apply State.flow_since)
    | split)

theorem execMemberControl_since (qp cid : Nat) (s : State) (hs : s.since P) : goodOut P (execMemberControl qp cid s) := by
  unfold execMemberControl
  repeat' with_reducible first
    | assumption | apply goodOut_next | refine State.adminRun_since _ _ _ _ _ ?_ (fun x0 x1 hx => ?_)
    | apply State.memberControl_since

theorem State.setLastActive_since (s : State) (b : Bool) (hs : s.since P) : (State.setLastActive s b).since P := by
  unfold State.setLastActive
  repeat' (first | (with_reducible first | assumption | apply State.cfgPut_since) | split)

theorem State.createAdmin_since (s : State) (hs : s.since P) : (State.createAdmin s).since P := by
  unfold State.createAdmin
  split
  · split
    · exact hs
    · dsimp only
      refine State.since_elim _ _ _ (State.setOdt_since _ _ _ hs) fun i => ?_
      refine State.since_elim _ _ _ (State.putKey_since _ _ _ (State.setOdt_since _ _ _ hs)) fun j => ?_
      exact State.createQp_since _ _ _ (State.putKey_since _ _ _ (State.putKey_since _ _ _ (State.setOdt_since _ _ _ hs)))
  · exact hs

theorem State.bootDone_since (s : State) (hs : s.since P) : (State.bootDone s).since P := by
  unfold State.bootDone
  repeat' (first
    | (with_reducible first | assumption | apply State.setField_since | apply State.putPointer_since)
    | (extract_lets +onlyGivenNames t; refine State.since_cut (P := P) (t := t) ?_ ?_; all_goals first | (intro ht; clear_value t) | subst t)
    | split)

theorem State.startServing_since (s : State) (hs : s.since P) : (State.startServing s).since P := by
  unfold State.startServing
  repeat' (first
    | (with_reducible first
        | assumption | apply State.setLastActive_since | apply State.setField_since | apply State.bootDone_since
        | apply State.acquire_since | apply State.takeUp_since | apply State.createAdmin_since
        | apply State.announceAll_since | apply State.flow_since | refine State.since_foldl ?_ (fun x y hx => ?_))
    | simp -zeta only [↓State.since_mk])

theorem State.logProgress_since (s : State) (hs : s.since P) : (State.logProgress s).since P := by
  unfold State.logProgress
  repeat' with_reducible first
    | assumption | apply State.postTry_since | apply State.roceFrame_since | apply State.updRoce_since
    | apply State.rocePump_since | apply State.flow_since | refine State.since_foldl ?_ (fun x y hx => ?_)

theorem State.waitsEnd_since (s : State) (hs : s.since P) : (State.waitsEnd s).since P := by
  unfold State.waitsEnd
  repeat' (first
    | (with_reducible first
        | assumption | apply State.winAcked_since | apply State.markCheck_since | apply State.pushCreating_since
        | apply State.logProgress_since | refine State.since_foldl ?_ (fun x y hx => ?_))
    | simp -zeta only [↓State.since_mk])

theorem State.unpair_since (s : State) (hs : s.since P) : (State.unpair s).since P := by
  unfold State.unpair
  repeat' (first | with_reducible assumption | simp -zeta only [↓State.since_mk])

theorem State.setRole_since (s : State) (r : Role) (hs : s.since P) : (State.setRole s r).since P := by
  unfold State.setRole
  repeat' (first | (with_reducible first | assumption | apply State.trace_since) | simp -zeta only [↓State.since_mk])

theorem State.becomeSolo_since (s : State) (hs : s.since P) : (State.becomeSolo s).since P := by
  unfold State.becomeSolo
  repeat' (first
    | (with_reducible first
        | assumption | apply State.unpair_since | apply State.setRole_since | apply State.waitsEnd_since
        | apply State.startServing_since)
    | simp -zeta only [↓State.since_mk]
    | (extract_lets +onlyGivenNames t; refine State.since_cut (P := P) (t := t) ?_ ?_; all_goals first | (intro ht; clear_value t) | subst t)
    | extract_lets +onlyGivenNames t | split)

theorem State.assertFence_since (s : State) (hs : s.since P) : (State.assertFence s).since P := by
  unfold State.assertFence
  repeat' (first
    | (with_reducible first | assumption | apply State.raise_since)
    | simp -zeta only [↓State.since_mk] | split)

theorem State.becomeFenced_since (s : State) (tie : Option Tie) (hs : s.since P) : (State.becomeFenced s tie).since P := by
  unfold State.becomeFenced
  repeat' (first
    | (with_reducible first
        | assumption | apply State.assertFence_since | apply State.unpair_since | apply State.setRole_since
        | apply State.setLastActive_since)
    | simp -zeta only [↓State.since_mk])

theorem State.sendCopy_since (s : State) (hs : s.since P) : (State.sendCopy s).since P := by
  unfold State.sendCopy
  repeat' (first
    | (with_reducible first
        | assumption | apply State.mirror_since | apply State.emit_since | apply State.count_since
        | refine State.since_foldl ?_ (fun x y hx => ?_))
    | simp -zeta only [↓State.since_mk]
    | (extract_lets +onlyGivenNames t; refine State.since_cut (P := P) (t := t) ?_ ?_; all_goals first | (intro ht; clear_value t) | subst t)
    | extract_lets +onlyGivenNames t | split)

theorem State.cutCopy_since (s : State) (num : Nat) (lines : List (Nat × Nat)) (image : Bool) (hs : s.since P)
    : (State.cutCopy s num lines image).since P := by
  unfold State.cutCopy
  repeat' (first | (with_reducible first | assumption | apply State.sendCopy_since) | simp -zeta only [↓State.since_mk])

theorem State.cutFirst_since (s : State) (hs : s.since P) : (State.cutFirst s).since P := by
  unfold State.cutFirst
  repeat' (first | (with_reducible first | assumption | apply State.cutCopy_since) | simp -zeta only [↓State.since_mk])

theorem State.cutMarked_since (s : State) (hs : s.since P) : (State.cutMarked s).since P := by
  unfold State.cutMarked
  repeat' (first | (with_reducible first | assumption | apply State.sendCopy_since | apply State.cutCopy_since) | split)

theorem State.releaseShelf_since (s : State) (hs : s.since P) : (State.releaseShelf s).since P := by
  unfold State.releaseShelf
  repeat' (first
    | (with_reducible first
        | assumption | apply State.count_since | apply State.assertFence_since | apply State.mirrorLog_since
        | apply State.cutCopy_since | refine State.since_foldl ?_ (fun x y hx => ?_))
    | simp -zeta only [↓State.since_mk] | split)

theorem State.selfCheck_since (s : State) (b : Nat) (hs : s.since P) : (State.selfCheck s b).since P := by
  unfold State.selfCheck
  repeat' (first
    | (with_reducible first
        | assumption | apply State.setReg_since | apply State.raise_since | apply State.trace_since
        | apply State.releaseShelf_since)
    | extract_lets +onlyGivenNames t | split)

theorem State.bulkNext_since (s : State) (hs : s.since P) : (State.bulkNext s).since P := by
  unfold State.bulkNext
  repeat' (first | (with_reducible first | assumption | apply State.mirror_since) | split)

theorem State.sendBulk_since (s : State) (kind : BulkKind) (bytes : Bytes) (seq : Option Nat) (hs : s.since P)
    : (State.sendBulk s kind bytes seq).since P := by
  unfold State.sendBulk
  repeat' (first
    | (with_reducible first | assumption | apply State.bulkNext_since)
    | simp -zeta only [↓State.since_mk]
    | (extract_lets +onlyGivenNames t; refine State.since_cut (P := P) (t := t) ?_ ?_; all_goals first | (intro ht; clear_value t) | subst t)
    | extract_lets +onlyGivenNames t | split)

theorem State.mirrorRx_since (s : State) (crcOk : Bool) (f : State → State) (hs : s.since P) (hf : ∀ x0, x0.since P → (f x0).since P)
    : (State.mirrorRx s crcOk f).since P := by
  unfold State.mirrorRx
  repeat' (first | (with_reducible first | assumption | apply hf | apply State.count_since) | split)

theorem State.elect_since (s : State) (hs : s.since P) : (State.elect s).since P := by
  unfold State.elect
  repeat' (first
    | (with_reducible first | assumption | apply State.cutFirst_since)
    | simp -zeta only [↓State.since_mk]
    | (extract_lets +onlyGivenNames t; refine State.since_cut (P := P) (t := t) ?_ ?_; all_goals first | (intro ht; clear_value t) | subst t)
    | extract_lets +onlyGivenNames t | split)

theorem State.hello_since (s : State) (serial : Nat) (role : Role) (last : Bool) (drive net : Nat) (hs : s.since P)
    : (State.hello s serial role last drive net).since P := by
  unfold State.hello
  repeat' (first
    | (with_reducible first
        | assumption | apply State.raise_since | apply State.setRole_since | apply State.elect_since
        | apply State.cutFirst_since)
    | simp -zeta only [↓State.since_mk]
    | (extract_lets +onlyGivenNames t; refine State.since_cut (P := P) (t := t) ?_ ?_; all_goals first | (intro ht; clear_value t) | subst t)
    | extract_lets +onlyGivenNames t | split)

theorem execHello_since (serial : Nat) (role : Role) (last : Bool) (drive net : Nat) (crcOk : Bool) (s : State) (hs : s.since P)
    : goodOut P (execHello serial role last drive net crcOk s) := by
  unfold execHello
  repeat' with_reducible first
    | assumption | apply goodOut_next | refine State.mirrorRx_since _ _ _ ?_ (fun x0 hx => ?_)
    | apply State.hello_since

theorem State.helloSend_since (s : State) (hs : s.since P) : (State.helloSend s).since P := by
  unfold State.helloSend
  repeat' (first
    | (with_reducible first | assumption | apply State.advanceTo_since | apply State.mirror_since)
    | simp -zeta only [↓State.since_mk]
    | (extract_lets +onlyGivenNames t; refine State.since_cut (P := P) (t := t) ?_ ?_; all_goals first | (intro ht; clear_value t) | subst t)
    | split)

theorem execHelloSend_since (s : State) (hs : s.since P) : goodOut P (execHelloSend s) := by
  unfold execHelloSend
  repeat' with_reducible first | assumption | apply goodOut_next | apply State.helloSend_since

theorem State.pairingTimeout_since (s : State) (hs : s.since P) : (State.pairingTimeout s).since P := by
  unfold State.pairingTimeout
  repeat' (first
    | (with_reducible first | assumption | apply State.advanceTo_since | apply State.becomeSolo_since)
    | split)

theorem execPairingTimeout_since (s : State) (hs : s.since P) : goodOut P (execPairingTimeout s) := by
  unfold execPairingTimeout
  repeat' with_reducible first | assumption | apply goodOut_next | apply State.pairingTimeout_since

theorem State.tryActive_since (s : State) (hs : s.since P) : (State.tryActive s).since P := by
  unfold State.tryActive
  repeat' (first
    | (with_reducible first
        | assumption | apply State.setRole_since | apply State.setLastActive_since | apply State.startServing_since
        | apply State.selfCheck_since)
    | (extract_lets +onlyGivenNames t; refine State.since_cut (P := P) (t := t) ?_ ?_; all_goals first | (intro ht; clear_value t) | subst t)
    | extract_lets +onlyGivenNames t | split)

theorem State.epochChecks_since (s : State) (hs : s.since P) : (State.epochChecks s).since P := by
  unfold State.epochChecks
  repeat' (first
    | (with_reducible first | assumption | apply State.selfCheck_since)
    | simp -zeta only [↓State.since_mk]
    | (extract_lets +onlyGivenNames t; refine State.since_cut (P := P) (t := t) ?_ ?_; all_goals first | (intro ht; clear_value t) | subst t)
    | extract_lets +onlyGivenNames t | split)

theorem State.epochEnd_since (s : State) (hs : s.since P) : (State.epochEnd s).since P := by
  unfold State.epochEnd
  repeat' (first
    | (with_reducible first
        | assumption | apply State.advanceTo_since | apply State.mirror_since | apply State.cutMarked_since
        | apply State.epochChecks_since)
    | simp -zeta only [↓State.since_mk]
    | (extract_lets +onlyGivenNames t; refine State.since_cut (P := P) (t := t) ?_ ?_; all_goals first | (intro ht; clear_value t) | subst t)
    | extract_lets +onlyGivenNames t | split)

theorem execEpochEnd_since (s : State) (hs : s.since P) : goodOut P (execEpochEnd s) := by
  unfold execEpochEnd
  repeat' with_reducible first | assumption | apply goodOut_next | apply State.epochEnd_since

theorem State.renew_since (s : State) (n : Nat) (hs : s.since P) : (State.renew s n).since P := by
  unfold State.renew
  repeat' (first
    | (with_reducible first | assumption | apply State.mirror_since)
    | simp -zeta only [↓State.since_mk] | split)

theorem execRenew_since (n : Nat) (crcOk : Bool) (s : State) (hs : s.since P) : goodOut P (execRenew n crcOk s) := by
  unfold execRenew
  repeat' with_reducible first
    | assumption | apply goodOut_next | refine State.mirrorRx_since _ _ _ ?_ (fun x0 hx => ?_)
    | apply State.renew_since

theorem State.renewAck_since (s : State) (n drive net : Nat) (hs : s.since P) : (State.renewAck s n drive net).since P := by
  unfold State.renewAck
  repeat' (first
    | (with_reducible first | assumption | apply State.reach_since | apply State.tryActive_since)
    | simp -zeta only [↓State.since_mk] | split)

theorem execRenewAck_since (n drive net : Nat) (crcOk : Bool) (s : State) (hs : s.since P)
    : goodOut P (execRenewAck n drive net crcOk s) := by
  unfold execRenewAck
  repeat' with_reducible first
    | assumption | apply goodOut_next | refine State.mirrorRx_since _ _ _ ?_ (fun x0 hx => ?_)
    | apply State.renewAck_since

theorem State.lines_since (s : State) (copy : Nat) (entries : List (Nat × Bytes)) (hs : s.since P)
    : (State.lines s copy entries).since P := by
  unfold State.lines
  repeat' (first
    | with_reducible assumption | simp -zeta only [↓State.since_mk] | extract_lets +onlyGivenNames t | split)

theorem execLines_since (copy : Nat) (entries : List (Nat × Bytes)) (crcOk : Bool) (s : State) (hs : s.since P)
    : goodOut P (execLines copy entries crcOk s) := by
  unfold execLines
  repeat' with_reducible first
    | assumption | apply goodOut_next | refine State.mirrorRx_since _ _ _ ?_ (fun x0 hx => ?_)
    | apply State.lines_since

theorem State.ackFlash_since (s : State) (copy : Nat) (hs : s.since P) : (State.ackFlash s copy).since P := by
  unfold State.ackFlash
  repeat' with_reducible first | assumption | apply State.mirror_since

theorem State.writes_since (l : List (Nat × Bytes)) (m : Memory) (h : m.wf = true) :
    Memory.wf (l.foldl (fun (m : Memory) e => m.writeN e.1 (e.2.take 64)) m) = true := by
  induction l generalizing m with
  | nil => exact h
  | cons e l ih => exact ih _ (Memory.wf_writeN h _ _)

theorem State.applyCopy_since (s : State) (copy : Nat) (entries : List (Nat × Bytes)) (image : Option RepImage) (hs : s.since P)
    : (State.applyCopy s copy entries image).since P := by
  unfold State.applyCopy
  extract_lets mem sh t
  have ht : t.since P := State.since_mem hs (State.writes_since entries s.mem hs.1.2.1) rfl rfl rfl rfl rfl rfl
  clear_value t
  repeat' (first
    | (with_reducible first
        | assumption | apply State.mirror_since | apply State.ackFlash_since | apply State.cfgPut_since
        | apply State.raise_since | apply State.setRole_since | apply State.setLastActive_since
        | apply State.bootDone_since | refine State.since_foldl ?_ (fun x y hx => ?_))
    | simp -zeta only [↓State.since_mk] | split | dsimp +zetaDelta only)

theorem State.commit_since (s : State) (copy count crc : Nat) (image : Option RepImage) (hs : s.since P)
    : (State.commit s copy count crc image).since P := by
  unfold State.commit
  repeat' (first
    | (with_reducible first | assumption | apply State.applyCopy_since | apply State.mirror_since)
    | simp -zeta only [↓State.since_mk] | extract_lets +onlyGivenNames t | split)

theorem execCommit_since (copy count crc : Nat) (image : Option RepImage) (crcOk : Bool) (s : State) (hs : s.since P)
    : goodOut P (execCommit copy count crc image crcOk s) := by
  unfold execCommit
  repeat' with_reducible first
    | assumption | apply goodOut_next | refine State.mirrorRx_since _ _ _ ?_ (fun x0 hx => ?_)
    | apply State.commit_since

theorem State.sendCredits_since (s : State) (ks : List Nat) (hs : s.since P) : (State.sendCredits s ks).since P := by
  unfold State.sendCredits
  repeat' (first
    | (with_reducible first | assumption | apply State.odtCtl_since | refine State.since_foldl ?_ (fun x y hx => ?_))
    | extract_lets +onlyGivenNames t | split)

theorem State.copyDone_since (s : State) (c : Copy) (hs : s.since P) : (State.copyDone s c).since P := by
  unfold State.copyDone
  repeat' (first
    | (with_reducible first
        | assumption | apply State.tryActive_since | apply State.winAcked_since | apply State.pushCreating_since
        | apply State.flow_since | apply State.sendCredits_since | apply State.mirror_since
        | apply State.becomeFenced_since)
    | simp -zeta only [↓State.since_mk]
    | (extract_lets +onlyGivenNames t; refine State.since_cut (P := P) (t := t) ?_ ?_; all_goals first | (intro ht; clear_value t) | subst t)
    | extract_lets +onlyGivenNames t | split)

theorem State.copyAck_since (s : State) (n : Nat) (resend flash : Bool) (hs : s.since P)
    : (State.copyAck s n resend flash).since P := by
  unfold State.copyAck
  repeat' (first
    | (with_reducible first
        | assumption | apply State.markCheck_since | apply State.flow_since | apply State.sendCopy_since
        | apply State.copyDone_since | refine State.since_foldl ?_ (fun x y hx => ?_))
    | simp -zeta only [↓State.since_mk] | split)

theorem execCopyAck_since (copy : Nat) (resend flash crcOk : Bool) (s : State) (hs : s.since P)
    : goodOut P (execCopyAck copy resend flash crcOk s) := by
  unfold execCopyAck
  repeat' with_reducible first
    | assumption | apply goodOut_next | refine State.mirrorRx_since _ _ _ ?_ (fun x0 hx => ?_)
    | apply State.copyAck_since

theorem State.logRx_since (s : State) (rs : List LogRec) (hs : s.since P) : (State.logRx s rs).since P := by
  unfold State.logRx
  repeat' (first
    | (with_reducible first | assumption | apply State.mirror_since)
    | simp -zeta only [↓State.since_mk] | split)

theorem execLog_since (records : List LogRec) (crcOk : Bool) (s : State) (hs : s.since P)
    : goodOut P (execLog records crcOk s) := by
  unfold execLog
  repeat' with_reducible first
    | assumption | apply goodOut_next | refine State.mirrorRx_since _ _ _ ?_ (fun x0 hx => ?_)
    | apply State.logRx_since

theorem State.logAck_since (s : State) (num : Nat) (hs : s.since P) : (State.logAck s num).since P := by
  unfold State.logAck
  repeat' (first
    | (with_reducible first
        | assumption | apply State.mirrorLog_since | apply State.logProgress_since
        | refine State.since_foldl ?_ (fun x y hx => ?_))
    | simp -zeta only [↓State.since_mk] | split)

theorem execLogAck_since (num : Nat) (crcOk : Bool) (s : State) (hs : s.since P) : goodOut P (execLogAck num crcOk s) := by
  unfold execLogAck
  repeat' with_reducible first
    | assumption | apply goodOut_next | refine State.mirrorRx_since _ _ _ ?_ (fun x0 hx => ?_)
    | apply State.logAck_since

theorem State.logResend_since (s : State) (hs : s.since P) : (State.logResend s).since P := by
  unfold State.logResend
  repeat' (first
    | (with_reducible first
        | assumption | apply State.advanceTo_since | apply State.count_since | apply State.mirrorLog_since)
    | simp -zeta only [↓State.since_mk] | split)

theorem execLogResend_since (s : State) (hs : s.since P) : goodOut P (execLogResend s) := by
  unfold execLogResend
  repeat' with_reducible first | assumption | apply goodOut_next | apply State.logResend_since

theorem State.loadImage_since (s : State) (img : RepImage) (silent : Bool) (hs : s.since P)
    : (State.loadImage s img silent).since P := by
  unfold State.loadImage
  repeat' (first | with_reducible assumption | simp -zeta only [↓State.since_mk] | extract_lets +onlyGivenNames t)

theorem State.finishTakeover_since (s : State) (hs : s.since P) : (State.finishTakeover s).since P := by
  unfold State.finishTakeover
  repeat' (first
    | (with_reducible first
        | assumption | apply State.setField_since | apply State.unpair_since | apply State.setRole_since
        | apply State.startServing_since)
    | simp -zeta only [↓State.since_mk] | split)

theorem State.takeover_since (s : State) (silent : Bool) (hs : s.since P) : (State.takeover s silent).since P := by
  unfold State.takeover
  repeat' (first
    | (with_reducible first
        | assumption | apply State.raise_since | apply State.wake_since | apply State.count_since
        | apply State.setRole_since | apply State.bringUp_since | apply State.loadImage_since | apply State.emit_since
        | apply State.finishTakeover_since | refine State.since_foldl ?_ (fun x y hx => ?_))
    | simp -zeta only [↓State.since_mk]
    | (extract_lets +onlyGivenNames t; refine State.since_cut (P := P) (t := t) ?_ ?_; all_goals first | (intro ht; clear_value t) | subst t)
    | extract_lets +onlyGivenNames t | split)

theorem State.releaseRx_since (s : State) (copy : Nat) (hs : s.since P) : (State.releaseRx s copy).since P := by
  unfold State.releaseRx
  repeat' (first | (with_reducible first | assumption | apply State.takeover_since) | split)

theorem execRelease_since (copy : Nat) (crcOk : Bool) (s : State) (hs : s.since P)
    : goodOut P (execRelease copy crcOk s) := by
  unfold execRelease
  repeat' with_reducible first
    | assumption | apply goodOut_next | refine State.mirrorRx_since _ _ _ ?_ (fun x0 hx => ?_)
    | apply State.releaseRx_since

theorem State.leaveRx_since (s : State) (hs : s.since P) : (State.leaveRx s).since P := by
  unfold State.leaveRx
  repeat' (first
    | (with_reducible first
        | assumption | apply State.becomeFenced_since | apply State.putPointer_since | apply State.becomeSolo_since)
    | simp -zeta only [↓State.since_mk] | split)

theorem execLeave_since (crcOk : Bool) (s : State) (hs : s.since P) : goodOut P (execLeave crcOk s) := by
  unfold execLeave
  repeat' with_reducible first
    | assumption | apply goodOut_next | refine State.mirrorRx_since _ _ _ ?_ (fun x0 hx => ?_)
    | apply State.leaveRx_since

theorem State.activeExpire_since (s : State) (hs : s.since P) : (State.activeExpire s).since P := by
  unfold State.activeExpire
  repeat' (first
    | (with_reducible first | assumption | apply State.advanceTo_since | apply State.becomeFenced_since)
    | split)

theorem execActiveLeaseExpire_since (s : State) (hs : s.since P) : goodOut P (execActiveLeaseExpire s) := by
  unfold execActiveLeaseExpire
  repeat' with_reducible first | assumption | apply goodOut_next | apply State.activeExpire_since

theorem State.shadowExpire_since (s : State) (hs : s.since P) : (State.shadowExpire s).since P := by
  unfold State.shadowExpire
  repeat' (first
    | (with_reducible first | assumption | apply State.advanceTo_since | apply State.takeover_since)
    | split)

theorem execShadowLeaseExpire_since (s : State) (hs : s.since P) : goodOut P (execShadowLeaseExpire s) := by
  unfold execShadowLeaseExpire
  repeat' with_reducible first | assumption | apply goodOut_next | apply State.shadowExpire_since

theorem State.tieWait_since (s : State) (hs : s.since P) : (State.tieWait s).since P := by
  unfold State.tieWait
  repeat' (first
    | (with_reducible first | assumption | apply State.advanceTo_since | apply State.emit_since)
    | simp -zeta only [↓State.since_mk]
    | (extract_lets +onlyGivenNames t; refine State.since_cut (P := P) (t := t) ?_ ?_; all_goals first | (intro ht; clear_value t) | subst t)
    | split)

theorem execTieBreakWait_since (s : State) (hs : s.since P) : goodOut P (execTieBreakWait s) := by
  unfold execTieBreakWait
  repeat' with_reducible first | assumption | apply goodOut_next | apply State.tieWait_since

theorem State.preemptDone_since (s : State) (ok : Bool) (hs : s.since P) : (State.preemptDone s ok).since P := by
  unfold State.preemptDone
  repeat' (first
    | (with_reducible first
        | assumption | apply State.finishTakeover_since | apply State.becomeFenced_since
        | apply State.becomeSolo_since)
    | simp -zeta only [↓State.since_mk] | split)

theorem execArbiterPreemptDone_since (ok : Bool) (s : State) (hs : s.since P) : goodOut P (execArbiterPreemptDone ok s) := by
  unfold execArbiterPreemptDone
  repeat' with_reducible first | assumption | apply goodOut_next | apply State.preemptDone_since

theorem State.acquireTimeout_since (s : State) (sl : Nat) (hs : s.since P) : (State.acquireTimeout s sl).since P := by
  unfold State.acquireTimeout
  repeat' (first
    | (with_reducible first | assumption | apply State.advanceTo_since | apply State.memberMissing_since)
    | simp -zeta only [↓State.since_mk] | split)

theorem execReservationAcquireTimeout_since (slot : Nat) (s : State) (hs : s.since P)
    : goodOut P (execReservationAcquireTimeout slot s) := by
  unfold execReservationAcquireTimeout
  repeat' with_reducible first | assumption | apply goodOut_next | apply State.acquireTimeout_since

theorem execShdCtlRelease_since (s : State) (hs : s.since P) : goodOut P (execShdCtlRelease s) := by
  unfold execShdCtlRelease
  repeat' with_reducible first
    | assumption | apply goodOut_next | refine State.whenOn_since _ _ _ ?_ (fun x0 hx => ?_)
    | apply State.releaseShelf_since

theorem State.sendLeave_since (s : State) (hs : s.since P) : (State.sendLeave s).since P := by
  unfold State.sendLeave
  repeat' (first
    | (with_reducible first
        | assumption | apply State.mirror_since | apply State.advanceTo_since | apply State.wireNext_since
        | refine State.since_foldl ?_ (fun x y hx => ?_))
    | split)

theorem State.leaveCtl_since (s : State) (hs : s.since P) : (State.leaveCtl s).since P := by
  unfold State.leaveCtl
  repeat' (first
    | (with_reducible first
        | assumption | apply State.mirror_since | apply State.setField_since | apply State.cfgPut_since
        | apply State.unpair_since | apply State.setRole_since)
    | simp -zeta only [↓State.since_mk]
    | (extract_lets +onlyGivenNames t; refine State.since_cut (P := P) (t := t) ?_ ?_; all_goals first | (intro ht; clear_value t) | subst t)
    | split)

theorem execShdCtlLeave_since (s : State) (hs : s.since P) : goodOut P (execShdCtlLeave s) := by
  unfold execShdCtlLeave
  repeat' with_reducible first
    | assumption | apply goodOut_next | refine State.whenOn_since _ _ _ ?_ (fun x0 hx => ?_)
    | apply State.leaveCtl_since

theorem State.mirrorLost_since (s : State) (hs : s.since P) : (State.mirrorLost s).since P := by
  unfold State.mirrorLost
  repeat' (first
    | (with_reducible first
        | assumption | apply State.err_since | apply State.raise_since | apply State.unpair_since
        | apply State.waitsEnd_since)
    | simp -zeta only [↓State.since_mk]
    | (extract_lets +onlyGivenNames t; refine State.since_cut (P := P) (t := t) ?_ ?_; all_goals first | (intro ht; clear_value t) | subst t)
    | extract_lets +onlyGivenNames t | split)

theorem State.mirrorLoss_since (s : State) (hs : s.since P) : (State.mirrorLoss s).since P := by
  unfold State.mirrorLoss
  repeat' (first | (with_reducible first | assumption | apply State.mirrorLost_since) | split)

theorem State.mirrorHalf_since (s : State) (half : Nat) (up : Bool) (hs : s.since P)
    : (State.mirrorHalf s half up).since P := by
  unfold State.mirrorHalf
  repeat' (first
    | (with_reducible first
        | assumption | apply State.mirrorLost_since | apply State.raise_since | apply State.bulkNext_since)
    | simp -zeta only [↓State.since_mk]
    | (extract_lets +onlyGivenNames t; refine State.since_cut (P := P) (t := t) ?_ ?_; all_goals first | (intro ht; clear_value t) | subst t)
    | extract_lets +onlyGivenNames t | split)

theorem State.fatalStop_since (s : State) (f : FatalRun) (shared : Bool) (hs : s.since P)
    : (State.fatalStop s f shared).since P := by
  unfold State.fatalStop
  repeat' (first
    | (with_reducible first
        | assumption | apply State.assertFence_since | apply State.store_since | apply State.setReg_since
        | apply State.err_since | apply State.emit_since | apply State.raise_since | apply State.trace_since
        | apply State.releaseShelf_since)
    | simp -zeta only [↓State.since_mk]
    | (extract_lets +onlyGivenNames t; refine State.since_cut (P := P) (t := t) ?_ ?_; all_goals first | (intro ht; clear_value t) | subst t)
    | extract_lets +onlyGivenNames t | split)

theorem State.fatal_since (s : State) (cause site addr : Nat) (shared : Bool) (hs : s.since P)
    : (State.fatal s cause site addr shared).since P := by
  unfold State.fatal
  repeat' (first
    | (with_reducible first | assumption | apply State.setField_since | apply State.fatalStop_since)
    | simp -zeta only [↓State.since_mk] | extract_lets +onlyGivenNames t | split)

theorem State.errCtl_since (s : State) (req : Requester) (m v : Nat) (hs : s.since P)
    : (State.errCtl s req m v).since P := by
  unfold State.errCtl
  repeat' (first | (with_reducible first | assumption | apply State.setField_since | apply State.fatal_since) | split)

theorem State.wdogCtl_since (s : State) (req : Requester) (m v : Nat) (hs : s.since P)
    : (State.wdogCtl s req m v).since P := by
  unfold State.wdogCtl
  repeat' (first
    | (with_reducible first | assumption | apply State.setField_since)
    | simp -zeta only [↓State.since_mk] | extract_lets +onlyGivenNames t | split)

end Sys2Proof.Machine
end

