-- ==== Sys2Proof/Laws/SinceFct.lean ====
section
/-! SUPPORT. The invariant, and what a step never takes back, through every operation of the engines. -/

namespace Sys2Proof.Machine

variable {P : Past}

theorem State.personalityEnd_since (s : State) (seq : Nat) (r : HookEnd) (hs : s.since P)
    : (State.personalityEnd s seq r).since P := by
  unfold State.personalityEnd
  repeat' (first
    | (with_reducible first
        | assumption | apply State.updCmd_since | apply State.postTry_since | apply State.personalityResult_since
        | apply State.enter_since)
    | split)

theorem State.hookApply_since (s : State) (a : Attachment) (i : Invocation) (r : HookEnd) (hs : s.since P)
    : (State.hookApply s a i r).1.since P := by
  unfold State.hookApply
  repeat' (first
    | (with_reducible first
        | assumption | apply State.admissionResult_since | apply State.classResult_since | apply State.updCmd_since
        | apply State.police_since | apply State.personalityEnd_since | apply State.policyResult_since)
    | split)

theorem State.endWaiting_since (s : State) (att : Nat) (a : Attachment) (r : HookEnd) (hs : s.since P)
    : (State.endWaiting s att a r).since P := by
  unfold State.endWaiting
  repeat' (first
    | (with_reducible first | assumption | apply State.hookApply_since | refine State.since_foldl ?_ (fun x y hx => ?_))
    | simp -zeta only [↓State.since_mk])

theorem State.hookFailed_since (s : State) (att : Nat) (hs : s.since P) : (State.hookFailed s att).since P := by
  unfold State.hookFailed
  repeat' (first
    | (with_reducible first
        | assumption | apply State.count_since | apply State.event_since | apply State.touch_since
        | apply State.endWaiting_since)
    | simp -zeta only [↓State.since_mk]
    | (extract_lets +onlyGivenNames t; refine State.since_cut (P := P) (t := t) ?_ ?_; all_goals first | (intro ht; clear_value t) | subst t)
    | extract_lets +onlyGivenNames t | split)

theorem State.detachCheck_since (s : State) (att : Nat) (hs : s.since P) : (State.detachCheck s att).since P := by
  unfold State.detachCheck
  repeat' (first
    | (with_reducible first | assumption | apply State.cfgPut_since | apply State.bothForce_since)
    | simp -zeta only [↓State.since_mk] | split)

theorem State.invEnd_since (s : State) (e t : Nat) (r : HookEnd) (hs : s.since P) : (State.invEnd s e t r).since P := by
  unfold State.invEnd
  repeat' (first
    | (with_reducible first
        | assumption | apply State.pmc_since | apply State.hookApply_since | apply State.hookFailed_since
        | apply State.detachCheck_since | apply State.flow_since)
    | simp -zeta only [↓State.since_mk]
    | (extract_lets +onlyGivenNames t; refine State.since_cut (P := P) (t := t) ?_ ?_; all_goals first | (intro ht; clear_value t) | subst t)
    | extract_lets +onlyGivenNames t | split)

theorem State.invStart_since (s : State) (e t : Nat) (hs : s.since P) : (State.invStart s e t).since P := by
  unfold State.invStart
  repeat' (first
    | (with_reducible first | assumption | apply State.count_since)
    | simp -zeta only [↓State.since_mk]
    | (extract_lets +onlyGivenNames t; refine State.since_cut (P := P) (t := t) ?_ ?_; all_goals first | (intro ht; clear_value t) | subst t)
    | split)

theorem State.haltCheck_since (s : State) (e t : Nat) (hs : s.since P) : (State.haltCheck s e t).since P := by
  unfold State.haltCheck
  repeat' (first
    | (with_reducible first | assumption | apply State.setThr_since)
    | extract_lets +onlyGivenNames t | split)

theorem State.unpreempt_since (s : State) (e t : Nat) (hs : s.since P) : (State.unpreempt s e t).since P := by
  unfold State.unpreempt
  repeat' (first
    | (with_reducible first | assumption | apply State.setThr_since | refine State.since_foldl ?_ (fun x y hx => ?_))
    | extract_lets +onlyGivenNames t | split)

theorem State.tagEnd_since (s : State) (e t : Nat) (trapped : Bool) (hs : s.since P)
    : (State.tagEnd s e t trapped).since P := by
  unfold State.tagEnd
  repeat' (first | (with_reducible first | assumption | apply State.sample_since | apply State.updThr_since) | split)

theorem State.retire_since (s : State) (e t : Nat) (target : Option DWord) (hs : s.since P)
    : (State.retire s e t target).since P := by
  unfold State.retire
  repeat' (first
    | (with_reducible first
        | assumption | apply State.pmc_since | apply State.tagEnd_since | apply State.setThr_since
        | apply State.unpreempt_since)
    | simp -zeta only [↓State.since_mk])

theorem State.wakeThread_since (s : State) (e t : Nat) (hs : s.since P) : (State.wakeThread s e t).since P := by
  unfold State.wakeThread
  repeat' (first
    | (with_reducible first | assumption | apply State.setThr_since | apply State.pmc_since | apply State.retire_since)
    | extract_lets +onlyGivenNames t | split)

theorem State.latch_since (s : State) (e t bit : Nat) (hs : s.since P) : (State.latch s e t bit).since P := by
  unfold State.latch
  repeat' with_reducible first | assumption | apply State.updThr_since | apply State.wakeThread_since

theorem State.timerEvent_since (s : State) (e t : Nat) (hs : s.since P) : (State.timerEvent s e t).since P := by
  unfold State.timerEvent
  repeat' (first
    | (with_reducible first | assumption | apply State.advanceGnm_since | apply State.wakeThread_since)
    | split)

theorem State.setMbox_since (s : State) (c n : Nat) (l : List Message) (hs : s.since P)
    : (State.setMbox s c n l).since P := by
  unfold State.setMbox
  repeat' (first | (with_reducible first | assumption | apply State.updThr_since | apply State.setClu_since) | split)

theorem State.wakeCluster_since (s : State) (c : Nat) (hs : s.since P) : (State.wakeCluster s c).since P := by
  unfold State.wakeCluster
  repeat' (first
    | (with_reducible first
        | assumption | apply State.wakeThread_since | refine State.since_foldl ?_ (fun x y hx => ?_))
    | split)

theorem State.deliver_since (s : State) (c n : Nat) (m : Message) (hs : s.since P) : (State.deliver s c n m).since P := by
  unfold State.deliver
  repeat' (first
    | (with_reducible first
        | assumption | apply State.setMbox_since | apply State.wakeThread_since | apply State.wakeCluster_since)
    | split)

theorem State.hwSend_since (s : State) (c n : Nat) (m : Message) (hs : s.since P) : (State.hwSend s c n m).since P := by
  unfold State.hwSend
  repeat' (first
    | (with_reducible first | assumption | apply State.deliver_since | apply State.setClu_since)
    | extract_lets +onlyGivenNames t | split)

theorem State.refill_since (s : State) (c n : Nat) (hs : s.since P) : (State.refill s c n).since P := by
  unfold State.refill
  repeat' (first
    | (with_reducible first | assumption | apply State.setClu_since | apply State.deliver_since)
    | extract_lets +onlyGivenNames t | split)

theorem State.trapTo_since (s : State) (e t : Nat) (tr : Trap) (hs : s.since P) : (State.trapTo s e t tr).since P := by
  unfold State.trapTo
  repeat' (first
    | (with_reducible first
        | assumption | apply State.drew_since | apply State.pmc_since | apply State.tagEnd_since
        | apply State.count_since | apply State.setThr_since | apply State.unpreempt_since | apply State.fatal_since
        | apply State.invEnd_since)
    | (extract_lets +onlyGivenNames t; refine State.since_cut (P := P) (t := t) ?_ ?_; all_goals first | (intro ht; clear_value t) | subst t)
    | extract_lets +onlyGivenNames t | split)

theorem State.dmaTrap_since (s : State) (e t : Nat) (hs : s.since P) : (State.dmaTrap s e t).since P := by
  unfold State.dmaTrap
  repeat' (first
    | (with_reducible first | assumption | apply State.setThr_since | apply State.trapTo_since)
    | extract_lets +onlyGivenNames t | split)

theorem State.issued_since (s : State) (e t : Nat) (hs : s.since P) : (State.issued s e t).since P := by
  unfold State.issued
  repeat' (first
    | (with_reducible first
        | assumption | apply State.setEng_since | apply State.setThr_since | apply State.pmc_since
        | apply State.sample_since | apply State.drew_since | apply State.updThr_since
        | refine State.since_foldl ?_ (fun x y hx => ?_))
    | (extract_lets +onlyGivenNames t; refine State.since_cut (P := P) (t := t) ?_ ?_; all_goals first | (intro ht; clear_value t) | subst t)
    | extract_lets +onlyGivenNames t | split)

theorem State.preempt_since (s : State) (e t r kind progress dest : Nat) (msg : Bytes) (hs : s.since P)
    : (State.preempt s e t r kind progress dest msg).since P := by
  unfold State.preempt
  repeat' with_reducible first
    | assumption | apply State.pmc_since | apply State.meets_since | apply State.count_since | apply State.store_since
    | apply State.setThr_since

theorem State.instr_since (s : State) (e t : Nat) (g : Guard) (illegal : Bool) (body : State → Res) (pre : Option Cut) (cancels : Bool) (hs : s.since P) (hbody : ∀ x0, x0.since P → goodRes P (body x0))
    : (State.instr s e t g illegal body pre cancels).since P := by
  unfold State.instr
  extract_lets x cut s1
  split
  · exact hs
  · split
    · exact State.dmaTrap_since _ _ _ hs
    · have h1 : s1.since P := State.issued_since _ _ _ hs
      clear_value s1
      have h2 := State.access_since s1 e t .fetch false x.pc.toNat h1
      generalize s1.access e t .fetch false x.pc.toNat = p at *
      obtain ⟨s2, r⟩ := p
      cases r with
      | error tr => exact State.trapTo_since _ _ _ _ h2
      | ok pa =>
        dsimp only at h2 ⊢
        split
        · exact State.preempt_since _ _ _ _ _ _ _ _ h1
        have h3 := State.fetchLine_since s2 e t pa h2
        generalize s2.fetchLine e t pa = s3 at *
        split
        · exact State.trapTo_since _ _ _ _ h3
        · have hr : goodRes P (if (s3.thr e t).guardOn g then body s3 else .retire s3 none) := by
            split
            · exact hbody _ h3
            · exact h3
          generalize (if (s3.thr e t).guardOn g then body s3 else .retire s3 none) = r at *
          cases r with
          | trap s4 tr => exact State.trapTo_since _ _ _ _ hr
          | retire s4 tgt =>
            dsimp only
            split
            · exact State.trapTo_since _ _ _ _ h3
            · exact State.retire_since _ _ _ _ hr
          | hold s4 =>
            dsimp only
            split
            · exact State.trapTo_since _ _ _ _ h3
            · exact hr
          | cut s4 => exact hr

theorem State.instrRegs_since (s : State) (e t : Nat) (g : Guard) (illegal : Bool) (f : Thread → Thread) (hs : s.since P)
    : (State.instrRegs s e t g illegal f).since P := by
  unfold State.instrRegs
  repeat' with_reducible first
    | assumption | apply goodRes_retire | refine State.instr_since _ _ _ _ _ _ _ _ ?_ (fun x0 hx => ?_)
    | apply State.updThr_since

theorem State.lines64_since (s : State) (e t : Nat) (n : Need) (va k : Nat) (hs : s.since P) :
    (State.lines64 s e t n va k).1.since P := by
  induction k generalizing s va with
  | zero => exact hs
  | succ k ih =>
    unfold State.lines64
    repeat' (first
      | (with_reducible first | assumption | apply State.access_since | apply ih)
      | split | (refine State.since_fst ?_ (by with_reducible assumption)))

theorem State.operand_since (s : State) (e t : Nat) (n : Need) (va al k : Nat) (hs : s.since P)
    : (State.operand s e t n va al k).1.since P := by
  unfold State.operand
  repeat' (first | (with_reducible first | assumption | apply State.lines64_since) | split)

theorem State.loadLines_since (s : State) (e t : Nat) (l : List Nat) (hs : s.since P) :
    (State.loadLines s e t l).1.since P := by
  induction l generalizing s with
  | nil => exact hs
  | cons p l ih =>
    unfold State.loadLines
    exact ih _ (State.loadLine_since _ _ _ _ _ hs)

theorem State.storeLines_since (s : State) (e t : Nat) (b : Bytes) (from_ upto i : Nat) (l : List Nat) (hs : s.since P) :
    (State.storeLines s e t b from_ upto i l).since P := by
  induction l generalizing s i with
  | nil => unfold State.storeLines; exact hs
  | cons p l ih =>
    unfold State.storeLines
    repeat' (first | (with_reducible first | assumption | apply State.storeLine_since | apply ih) | split)

theorem State.qpop_since (s : State) (e t : Nat) (pd : Fin 8) (ra rb : Fin 32) (own : Bool) (pre : Option Cut) (hs : s.since P)
    : goodRes P (State.qpop s e t pd ra rb own pre) := by
  unfold State.qpop
  repeat' (first
    | (with_reducible first
        | assumption | apply goodRes_trap | apply goodRes_retire | apply goodRes_cut | apply State.storeLines_since
        | apply State.updThr_since | apply State.operand_since | apply State.setMbox_since | apply State.refill_since
        | apply State.pmc_since | apply State.preempt_since)
    | extract_lets +onlyGivenNames t | split | (refine State.since_fst ?_ (by with_reducible assumption)))

theorem execQpop_since (e t : Nat) (g : Guard) (pd : Fin 8) (ra rb : Fin 32) (own : Bool) (pre : Option Cut) (s : State) (hs : s.since P)
    : goodOut P (execQpop e t g pd ra rb own pre s) := by
  unfold execQpop
  repeat' with_reducible first
    | assumption | apply goodOut_next | refine State.instr_since _ _ _ _ _ _ _ _ ?_ (fun x0 hx => ?_)
    | apply State.qpop_since

theorem State.qpush_since (s : State) (e t : Nat) (pd : Fin 8) (ra rb : Fin 32) (hs : s.since P)
    : goodRes P (State.qpush s e t pd ra rb) := by
  unfold State.qpush
  repeat' (first
    | (with_reducible first
        | assumption | apply goodRes_trap | apply goodRes_retire | apply State.operand_since
        | apply State.loadLines_since | apply State.deliver_since | apply State.pmc_since | apply State.updThr_since)
    | extract_lets +onlyGivenNames t | split | (refine State.since_fst ?_ (by with_reducible assumption)))

theorem execQpush_since (e t : Nat) (g : Guard) (pd : Fin 8) (ra rb : Fin 32) (pre : Option Cut) (s : State) (hs : s.since P)
    : goodOut P (execQpush e t g pd ra rb pre s) := by
  unfold execQpush
  repeat' with_reducible first
    | assumption | apply goodOut_next | refine State.instr_since _ _ _ _ _ _ _ _ ?_ (fun x0 hx => ?_)
    | apply State.qpush_since

theorem State.qhook_since (s : State) (e t : Nat) (pd : Fin 8) (ra rb : Fin 32) (ret : Bool) (hs : s.since P)
    : goodRes P (State.qhook s e t pd ra rb ret) := by
  unfold State.qhook
  repeat' (first
    | (with_reducible first
        | assumption | apply goodRes_trap | apply goodRes_retire | apply State.updThr_since | apply State.operand_since
        | apply State.loadLines_since | apply State.deliver_since | apply State.pmc_since | apply State.haltCheck_since
        | apply State.invStart_since)
    | extract_lets +onlyGivenNames t | split | (refine State.since_fst ?_ (by with_reducible assumption)))

theorem execQhook_since (e t : Nat) (g : Guard) (pd : Fin 8) (ra rb : Fin 32) (ret : Bool) (pre : Option Cut) (s : State) (hs : s.since P)
    : goodOut P (execQhook e t g pd ra rb ret pre s) := by
  unfold execQhook
  repeat' with_reducible first
    | assumption | apply goodOut_next | refine State.instr_since _ _ _ _ _ _ _ _ ?_ (fun x0 hx => ?_)
    | apply State.qhook_since

theorem State.sideAt_since (s : State) (d : Desc) (umode : Bool) (asid root : Nat) (x : DescSide) (off : Nat) (wr : Bool) (hs : s.since P)
    : (State.sideAt s d umode asid root x off wr).1.since P := by
  unfold State.sideAt
  repeat' (first
    | (with_reducible first | assumption | apply State.clLookup_since)
    | simp -zeta only [↓State.since_mk] | extract_lets +onlyGivenNames t | split)

theorem State.startChunks_since (s : State) (umode : Bool) (asid root len k off : Nat) (d : Desc) (hs : s.since P) :
    (State.startChunks s umode asid root len k off d).1.since P := by
  induction k generalizing s off d with
  | zero => exact hs
  | succ k ih =>
    unfold State.startChunks
    repeat' (first
      | (with_reducible first | assumption | apply State.sideAt_since | apply ih)
      | split | (refine State.since_fst ?_ (by with_reducible assumption)))

theorem State.descRead_since (s : State) (id mkey a n : Nat) (hs : s.since P) : (State.descRead s id mkey a n).since P := by
  unfold State.descRead
  repeat' (first
    | (with_reducible first
        | assumption | apply State.epRead_since | apply State.setOdt_since | apply State.odtCtl_since
        | apply State.roceSend_since)
    | extract_lets +onlyGivenNames t | split)

theorem State.descIssue_since (s : State) (e t va pa : Nat) (b : Bytes) (hs : s.since P)
    : (State.descIssue s e t va pa b).since P := by
  unfold State.descIssue
  repeat' (first
    | (with_reducible first
        | assumption | apply State.count_since | apply State.holdKey_since | apply State.startChunks_since
        | apply State.descRead_since | refine State.since_foldl ?_ (fun x y hx => ?_))
    | simp -zeta only [↓State.since_mk] | split | dsimp +zetaDelta only)

theorem State.dmad_since (s : State) (e t : Nat) (pd : Fin 8) (ra : Fin 32) (hs : s.since P)
    : goodRes P (State.dmad s e t pd ra) := by
  unfold State.dmad
  repeat' (first
    | (with_reducible first
        | assumption | apply goodRes_trap | apply goodRes_retire | apply State.operand_since | apply State.updThr_since
        | apply State.loadLines_since | apply State.pmc_since | apply State.descIssue_since)
    | extract_lets +onlyGivenNames t | split | (refine State.since_fst ?_ (by with_reducible assumption)))

theorem execDmad_since (e t : Nat) (g : Guard) (pd : Fin 8) (ra : Fin 32) (pre : Option Cut) (s : State) (hs : s.since P)
    : goodOut P (execDmad e t g pd ra pre s) := by
  unfold execDmad
  repeat' with_reducible first
    | assumption | apply goodOut_next | refine State.instr_since _ _ _ _ _ _ _ _ ?_ (fun x0 hx => ?_)
    | apply State.dmad_since

theorem State.moveChunk_since (s : State) (id : Nat) (d : Desc) (start : Nat) (c : Chunk) (hs : s.since P)
    : (State.moveChunk s id d start c).since P := by
  unfold State.moveChunk
  repeat' (first
    | (with_reducible first | assumption | apply State.store_since | apply State.hostPut_since)
    | simp -zeta only [↓State.since_mk] | extract_lets +onlyGivenNames t | split)

theorem State.descEnd_since (s : State) (id : Nat) (hs : s.since P) : (State.descEnd s id).since P := by
  unfold State.descEnd
  repeat' (first
    | (with_reducible first
        | assumption | apply State.moveChunk_since | apply State.dropKey_since | apply State.store_since
        | apply State.count_since | apply State.updThr_since | apply State.latch_since | apply State.haltCheck_since
        | apply State.endEarly_since | apply State.qpError_since | apply State.flow_since
        | refine State.since_foldl ?_ (fun x y hx => ?_))
    | simp -zeta only [↓State.since_mk]
    | (extract_lets +onlyGivenNames t; refine State.since_cut (P := P) (t := t) ?_ ?_; all_goals first | (intro ht; clear_value t) | subst t)
    | extract_lets +onlyGivenNames t | split)

theorem execDescriptorEnd_since (id : Nat) (s : State) (hs : s.since P) : goodOut P (execDescriptorEnd id s) := by
  unfold execDescriptorEnd
  repeat' with_reducible first | assumption | apply goodOut_next | apply State.descEnd_since

theorem State.hwMessage_since (s : State) (typ : Nat) (c : Cmd) (entry : Option Bytes) (hs : s.since P)
    : (State.hwMessage s typ c entry).1.since P := by
  unfold State.hwMessage
  repeat' with_reducible first | assumption | apply State.drew_since

theorem State.tellThread_since (s : State) (typ : Nat) (c : Cmd) (entry : Option Bytes) (hs : s.since P)
    : (State.tellThread s typ c entry).since P := by
  unfold State.tellThread
  repeat' (first
    | (with_reducible first | assumption | apply State.hwMessage_since | apply State.hwSend_since)
    | simp -zeta only [↓State.since_mk] | extract_lets +onlyGivenNames t | split)

theorem State.openStream_since (s : State) (c : Cmd) (b : Bytes) (hs : s.since P) : (State.openStream s c b).since P := by
  unfold State.openStream
  repeat' (first
    | with_reducible assumption | simp -zeta only [↓State.since_mk] | extract_lets +onlyGivenNames t | split)

theorem State.dataDone_since (s : State) (seq : Nat) (hs : s.since P) : (State.dataDone s seq).since P := by
  unfold State.dataDone
  repeat' (first
    | (with_reducible first | assumption | apply State.openStream_since | apply State.tellThread_since)
    | split)

theorem State.memberDone_since (s : State) (seq : Nat) (b : Option Bytes) (hs : s.since P)
    : (State.memberDone s seq b).since P := by
  unfold State.memberDone
  repeat' (first
    | (with_reducible first | assumption | apply State.openStream_since | apply State.tellThread_since)
    | split)

theorem State.dispatchTell_since (s : State) (cluster : Nat) (hs : s.since P) : (State.dispatchTell s cluster).since P := by
  unfold State.dispatchTell
  repeat' (first
    | (with_reducible first | assumption | apply State.dispatch_since | apply State.tellThread_since)
    | (extract_lets +onlyGivenNames t; refine State.since_cut (P := P) (t := t) ?_ ?_; all_goals first | (intro ht; clear_value t) | subst t)
    | split)

theorem execDispatch_since (cluster : Nat) (s : State) (hs : s.since P) : goodOut P (execDispatch cluster s) := by
  unfold execDispatch
  repeat' (first
    | (with_reducible first
        | assumption | apply goodOut_next | refine State.whenOn_since _ _ _ ?_ (fun x0 hx => ?_)
        | apply State.dispatchTell_since)
    | split)

theorem State.memberTell_since (s : State) (sl id status : Nat) (data : Bytes) (hs : s.since P)
    : (State.memberTell s sl id status data).since P := by
  unfold State.memberTell
  repeat' (first
    | (with_reducible first | assumption | apply State.memberCompletion_since | apply State.memberDone_since)
    | split | dsimp +zetaDelta only)

theorem execMemberCompletion_since (slot mid status : Nat) (data : Bytes) (s : State) (hs : s.since P)
    : goodOut P (execMemberCompletion slot mid status data s) := by
  unfold execMemberCompletion
  repeat' with_reducible first | assumption | apply goodOut_next | apply State.memberTell_since

theorem State.pullArrive_since (s : State) (seq off : Nat) (b : Bytes) (hs : s.since P)
    : (State.pullArrive s seq off b).since P := by
  unfold State.pullArrive
  repeat' (first
    | (with_reducible first
        | assumption | apply State.updCmd_since | apply State.gathered_since | apply State.dataDone_since)
    | extract_lets +onlyGivenNames t | split)

theorem State.arrivedAs_since (s : State) (seq mac dscp : Nat) (hs : s.since P)
    : (State.arrivedAs s seq mac dscp).since P := by
  unfold State.arrivedAs
  repeat' with_reducible first | assumption | apply State.updCmd_since | apply State.pfcSyncAll_since

theorem State.descArrive_since (s : State) (id off : Nat) (b : Bytes) (hs : s.since P)
    : (State.descArrive s id off b).since P := by
  unfold State.descArrive
  repeat' (first
    | with_reducible assumption | simp -zeta only [↓State.since_mk] | extract_lets +onlyGivenNames t | split)

theorem State.odtData_since (s : State) (h : OdtHdr) (b : Bytes) (hs : s.since P) : (State.odtData s h b).since P := by
  unfold State.odtData
  repeat' (first
    | (with_reducible first
        | assumption | apply State.odtDrop_since | apply State.odtHeard_since | apply State.descArrive_since
        | apply State.pullArrive_since | apply State.arrivedAs_since | apply State.setOdt_since
        | apply State.flow_since)
    | (extract_lets +onlyGivenNames t; refine State.since_cut (P := P) (t := t) ?_ ?_; all_goals first | (intro ht; clear_value t) | subst t)
    | extract_lets +onlyGivenNames t | split)

theorem execData_since (h : OdtHdr) (bytes : Bytes) (s : State) (hs : s.since P) : goodOut P (execData h bytes s) := by
  unfold execData
  repeat' with_reducible first | assumption | apply goodOut_next | apply State.odtData_since

theorem State.roceReadResp_since (s : State) (k psn dscp : Nat) (b : Bytes) (hs : s.since P)
    : (State.roceReadResp s k psn dscp b).since P := by
  unfold State.roceReadResp
  split
  · exact State.roceDrop_since _ hs
  · split
    · exact hs
    · next m hm =>
      extract_lets at_ place
      have hp : ∀ len put all, place = some (len, put, all) → ∀ x : State, x.since P → (put x).since P := by
        intro len put all h x hx
        simp only [place] at h
        split at h
        · cases h
          exact State.arrivedAs_since _ _ _ _ (State.pullArrive_since _ _ _ _ hx)
        · cases h
          exact State.descArrive_since _ _ _ _ hx
        · cases h
      clear_value place
      split
      · exact hs
      · next len put all =>
        have hq := hp len put all rfl
        split
        · exact hs
        · extract_lets t
          have ht : t.since P := hq _ (State.setRoce_since _ _ _ hs)
          clear_value t
          split
          · exact State.flow_since _ (State.rocePump_since _ _ _ (State.updRoce_since _ _ _ ht))
          · exact ht

theorem execRoceReadResponse_since (conn psn dscp : Nat) (bytes : Bytes) (s : State) (hs : s.since P)
    : goodOut P (execRoceReadResponse conn psn dscp bytes s) := by
  unfold execRoceReadResponse
  repeat' with_reducible first | assumption | apply goodOut_next | apply State.roceReadResp_since

theorem State.dmaCompletion_since (s : State) (tag : Nat) (b : Bytes) (hs : s.since P)
    : (State.dmaCompletion s tag b).since P := by
  unfold State.dmaCompletion
  repeat' (first
    | (with_reducible first
        | assumption | apply State.count_since | apply State.updQp_since | apply State.pullArrive_since
        | apply State.descArrive_since | apply State.epPump_since | apply State.flow_since)
    | simp -zeta only [↓State.since_mk]
    | (extract_lets +onlyGivenNames t; refine State.since_cut (P := P) (t := t) ?_ ?_; all_goals first | (intro ht; clear_value t) | subst t)
    | extract_lets +onlyGivenNames t | split)

theorem execDmaCompletionTlp_since (tag : Nat) (bytes : Bytes) (s : State) (hs : s.since P)
    : goodOut P (execDmaCompletionTlp tag bytes s) := by
  unfold execDmaCompletionTlp
  repeat' with_reducible first | assumption | apply goodOut_next | apply State.dmaCompletion_since

end Sys2Proof.Machine
end

