-- ==== Sys2Proof/Laws/SincePower.lean ====
section
/-! SUPPORT. The invariant, and what a step never takes back, through every operation of slot power, start-up, interrupts, the fabric and islands. -/

namespace Sys2Proof.Machine

variable {P : Past}

theorem State.setSlot_since (s : State) (sl : Nat) (x : Slot) (hs : s.since P) : (State.setSlot s sl x).since P := by
  unfold State.setSlot
  repeat' (first | with_reducible assumption | simp -zeta only [↓State.since_mk])

theorem State.setRail_since (s : State) (g : Nat) (x : Rail) (hs : s.since P) : (State.setRail s g x).since P := by
  unfold State.setRail
  repeat' (first | with_reducible assumption | simp -zeta only [↓State.since_mk])

theorem State.slotRecord_since (s : State) (sl : Nat) (hs : s.since P) : (State.slotRecord s sl).since P := by
  unfold State.slotRecord
  repeat' with_reducible first | assumption | apply State.cfgPut_since

theorem State.slotTo_since (s : State) (sl : Nat) (nxt : SlotState) (hs : s.since P) : (State.slotTo s sl nxt).since P := by
  unfold State.slotTo
  repeat' (first
    | (with_reducible first
        | assumption | apply State.setSlot_since | apply State.emit_since | apply State.setDrive_since
        | apply State.driveLost_since | apply State.bothForce_since | apply State.setField_since
        | apply State.slotRecord_since | refine State.since_foldl ?_ (fun x y hx => ?_))
    | (extract_lets +onlyGivenNames t; refine State.since_cut (P := P) (t := t) ?_ ?_; all_goals first | (intro ht; clear_value t) | subst t)
    | extract_lets +onlyGivenNames t | split)

theorem State.slotRetry_since (s : State) (sl : Nat) (hs : s.since P) : (State.slotRetry s sl).since P := by
  unfold State.slotRetry
  repeat' with_reducible first | assumption | apply State.slotTo_since

theorem State.slotIn_since (s : State) (sl : Nat) (hs : s.since P) : (State.slotIn s sl).since P := by
  unfold State.slotIn
  repeat' with_reducible first | assumption | apply State.slotTo_since

theorem State.slotFault_since (s : State) (sl cause : Nat) (hs : s.since P) : (State.slotFault s sl cause).since P := by
  unfold State.slotFault
  repeat' (first
    | (with_reducible first
        | assumption | apply State.setSlot_since | apply State.count_since | apply State.event_since
        | apply State.slotTo_since)
    | extract_lets +onlyGivenNames t | split)

theorem State.presenceEdge_since (s : State) (sl : Nat) (hs : s.since P) : (State.presenceEdge s sl).since P := by
  unfold State.presenceEdge
  repeat' (first
    | (with_reducible first | assumption | apply State.setSlot_since | apply State.slotIn_since)
    | extract_lets +onlyGivenNames t | split)

theorem execPresenceEdge_since (slot : Nat) (s : State) (hs : s.since P) : goodOut P (execPresenceEdge slot s) := by
  unfold execPresenceEdge
  repeat' with_reducible first | assumption | apply goodOut_next | apply State.presenceEdge_since

theorem State.presenceLost_since (s : State) (sl : Nat) (hs : s.since P) : (State.presenceLost s sl).since P := by
  unfold State.presenceLost
  repeat' (first
    | (with_reducible first | assumption | apply State.setSlot_since | apply State.slotTo_since)
    | extract_lets +onlyGivenNames t | split)

theorem execPresenceLost_since (slot : Nat) (s : State) (hs : s.since P) : goodOut P (execPresenceLost slot s) := by
  unfold execPresenceLost
  repeat' with_reducible first | assumption | apply goodOut_next | apply State.presenceLost_since

theorem execPresenceBounce_since (slot : Nat) (s : State) (hs : s.since P) : goodOut P (execPresenceBounce slot s) := by
  unfold execPresenceBounce
  repeat' (first | (with_reducible first | assumption | apply goodOut_next | apply State.count_since) | split)

theorem State.fastTrip_since (s : State) (sl : Nat) (hs : s.since P) : (State.fastTrip s sl).since P := by
  unfold State.fastTrip
  repeat' (first
    | (with_reducible first | assumption | apply State.setSlot_since | apply State.slotFault_since)
    | extract_lets +onlyGivenNames t | split)

theorem execFastTrip_since (slot : Nat) (s : State) (hs : s.since P) : goodOut P (execFastTrip slot s) := by
  unfold execFastTrip
  repeat' with_reducible first | assumption | apply goodOut_next | apply State.fastTrip_since

theorem State.timerFault_since (s : State) (sl : Nat) (hs : s.since P) : (State.timerFault s sl).since P := by
  unfold State.timerFault
  repeat' (first
    | (with_reducible first | assumption | apply State.slotFault_since)
    | extract_lets +onlyGivenNames t | split)

theorem execFaultTimerExpire_since (slot : Nat) (s : State) (hs : s.since P) : goodOut P (execFaultTimerExpire slot s) := by
  unfold execFaultTimerExpire
  repeat' with_reducible first | assumption | apply goodOut_next | apply State.timerFault_since

theorem State.rampTimeout_since (s : State) (sl : Nat) (hs : s.since P) : (State.rampTimeout s sl).since P := by
  unfold State.rampTimeout
  repeat' (first
    | (with_reducible first | assumption | apply State.advanceTo_since | apply State.slotFault_since)
    | extract_lets +onlyGivenNames t | split)

theorem execRampTimeout_since (slot : Nat) (s : State) (hs : s.since P) : goodOut P (execRampTimeout slot s) := by
  unfold execRampTimeout
  repeat' with_reducible first | assumption | apply goodOut_next | apply State.rampTimeout_since

theorem State.rampComplete_since (s : State) (sl : Nat) (hs : s.since P) : (State.rampComplete s sl).since P := by
  unfold State.rampComplete
  repeat' (first
    | (with_reducible first | assumption | apply State.slotTo_since)
    | extract_lets +onlyGivenNames t | split)

theorem execRampComplete_since (slot : Nat) (s : State) (hs : s.since P) : goodOut P (execRampComplete slot s) := by
  unfold execRampComplete
  repeat' with_reducible first | assumption | apply goodOut_next | apply State.rampComplete_since

theorem State.pgLost_since (s : State) (sl : Nat) (hs : s.since P) : (State.pgLost s sl).since P := by
  unfold State.pgLost
  repeat' (first
    | (with_reducible first | assumption | apply State.setSlot_since | apply State.slotFault_since)
    | extract_lets +onlyGivenNames t | split)

theorem execPowerGoodLost_since (slot : Nat) (s : State) (hs : s.since P) : goodOut P (execPowerGoodLost slot s) := by
  unfold execPowerGoodLost
  repeat' with_reducible first | assumption | apply goodOut_next | apply State.pgLost_since

theorem State.historyExpire_since (s : State) (sl : Nat) (hs : s.since P) : (State.historyExpire s sl).since P := by
  unfold State.historyExpire
  repeat' (first
    | (with_reducible first | assumption | apply State.advanceTo_since | apply State.setSlot_since)
    | extract_lets +onlyGivenNames t | split)

theorem execFaultHistoryExpire_since (slot : Nat) (s : State) (hs : s.since P)
    : goodOut P (execFaultHistoryExpire slot s) := by
  unfold execFaultHistoryExpire
  repeat' with_reducible first | assumption | apply goodOut_next | apply State.historyExpire_since

theorem State.railGood_since (s : State) (g : Nat) (hs : s.since P) : (State.railGood s g).since P := by
  unfold State.railGood
  repeat' (first
    | (with_reducible first | assumption | apply State.advanceTo_since | apply State.setRail_since)
    | extract_lets +onlyGivenNames t | split)

theorem execRailGroupGood_since (group : Nat) (s : State) (hs : s.since P) : goodOut P (execRailGroupGood group s) := by
  unfold execRailGroupGood
  repeat' with_reducible first | assumption | apply goodOut_next | apply State.railGood_since

theorem State.railBad_since (s : State) (g : Nat) (hs : s.since P) : (State.railBad s g).since P := by
  unfold State.railBad
  repeat' (first
    | (with_reducible first
        | assumption | apply State.setRail_since | apply State.count_since | apply State.event_since
        | apply State.slotTo_since | refine State.since_foldl ?_ (fun x y hx => ?_))
    | extract_lets +onlyGivenNames t | split)

theorem execRailGroupNotGood_since (group : Nat) (s : State) (hs : s.since P)
    : goodOut P (execRailGroupNotGood group s) := by
  unfold execRailGroupNotGood
  repeat' with_reducible first | assumption | apply goodOut_next | apply State.railBad_since

theorem State.slotSample_since (s : State) (sl code : Nat) (hs : s.since P) : (State.slotSample s sl code).since P := by
  unfold State.slotSample
  repeat' (first
    | (with_reducible first | assumption | apply State.setSlot_since)
    | extract_lets +onlyGivenNames t | split)

theorem State.railSample_since (s : State) (g : Nat) (twelve : Bool) (code : Nat) (hs : s.since P)
    : (State.railSample s g twelve code).since P := by
  unfold State.railSample
  repeat' with_reducible first | assumption | apply State.setRail_since

theorem State.converterSample_since (s : State) (conv chan code : Nat) (hs : s.since P)
    : (State.converterSample s conv chan code).since P := by
  unfold State.converterSample
  repeat' (first
    | (with_reducible first | assumption | apply State.slotSample_since | apply State.railSample_since)
    | split)

theorem execConverterSample_since (conv chan code : Nat) (s : State) (hs : s.since P)
    : goodOut P (execConverterSample conv chan code s) := by
  unfold execConverterSample
  repeat' with_reducible first | assumption | apply goodOut_next | apply State.converterSample_since

theorem State.insertExpire_since (s : State) (sl : Nat) (hs : s.since P) : (State.insertExpire s sl).since P := by
  unfold State.insertExpire
  repeat' (first
    | (with_reducible first | assumption | apply State.advanceTo_since | apply State.slotTo_since)
    | extract_lets +onlyGivenNames t | split)

theorem execInsertDelayExpire_since (slot : Nat) (s : State) (hs : s.since P)
    : goodOut P (execInsertDelayExpire slot s) := by
  unfold execInsertDelayExpire
  repeat' with_reducible first | assumption | apply goodOut_next | apply State.insertExpire_since

theorem State.rampStart_since (s : State) (sl : Nat) (hs : s.since P) : (State.rampStart s sl).since P := by
  unfold State.rampStart
  repeat' (first | (with_reducible first | assumption | apply State.slotTo_since) | split)

theorem execRampStart_since (slot : Nat) (s : State) (hs : s.since P) : goodOut P (execRampStart slot s) := by
  unfold execRampStart
  repeat' with_reducible first | assumption | apply goodOut_next | apply State.rampStart_since

theorem State.retryExpire_since (s : State) (sl : Nat) (hs : s.since P) : (State.retryExpire s sl).since P := by
  unfold State.retryExpire
  repeat' (first
    | (with_reducible first | assumption | apply State.advanceTo_since | apply State.slotRetry_since)
    | extract_lets +onlyGivenNames t | split)

theorem execRetryExpire_since (slot : Nat) (s : State) (hs : s.since P) : goodOut P (execRetryExpire slot s) := by
  unfold execRetryExpire
  repeat' with_reducible first | assumption | apply goodOut_next | apply State.retryExpire_since

theorem State.peerHold_since (s : State) (sl : Nat) (hs : s.since P) : (State.peerHold s sl).since P := by
  unfold State.peerHold
  repeat' (first
    | (with_reducible first | assumption | apply State.setSlot_since | apply State.event_since)
    | extract_lets +onlyGivenNames t | split)

theorem execPeerHoldDetect_since (slot : Nat) (s : State) (hs : s.since P) : goodOut P (execPeerHoldDetect slot s) := by
  unfold execPeerHoldDetect
  repeat' with_reducible first | assumption | apply goodOut_next | apply State.peerHold_since

theorem State.pgDown_since (s : State) (sl : Nat) (hs : s.since P) : (State.pgDown s sl).since P := by
  unfold State.pgDown
  repeat' (first
    | (with_reducible first | assumption | apply State.setSlot_since)
    | extract_lets +onlyGivenNames t | split)

theorem execPgoodDeassert_since (slot : Nat) (s : State) (hs : s.since P) : goodOut P (execPgoodDeassert slot s) := by
  unfold execPgoodDeassert
  repeat' with_reducible first | assumption | apply goodOut_next | apply State.pgDown_since

theorem State.trainStart_since (s : State) (sl : Nat) (hs : s.since P) : (State.trainStart s sl).since P := by
  unfold State.trainStart
  repeat' (first
    | (with_reducible first
        | assumption | apply State.advanceTo_since | apply State.setSlot_since | apply State.emit_since)
    | extract_lets +onlyGivenNames t | split)

theorem execRootPortTrainStart_since (slot : Nat) (s : State) (hs : s.since P)
    : goodOut P (execRootPortTrainStart slot s) := by
  unfold execRootPortTrainStart
  repeat' with_reducible first | assumption | apply goodOut_next | apply State.trainStart_since

theorem State.writeEn_since (s : State) (sl : Nat) (en : Bool) (hs : s.since P) : (State.writeEn s sl en).since P := by
  unfold State.writeEn
  repeat' (first
    | (with_reducible first | assumption | apply State.setField_since | apply State.slotTo_since)
    | (extract_lets +onlyGivenNames t; refine State.since_cut (P := P) (t := t) ?_ ?_; all_goals first | (intro ht; clear_value t) | subst t)
    | split)

theorem State.slotCycle_since (s : State) (sl : Nat) (hs : s.since P) : (State.slotCycle s sl).since P := by
  unfold State.slotCycle
  repeat' (first | (with_reducible first | assumption | apply State.slotRetry_since) | split)

theorem State.slotRelease_since (s : State) (sl : Nat) (hs : s.since P) : (State.slotRelease s sl).since P := by
  unfold State.slotRelease
  repeat' (first
    | (with_reducible first
        | assumption | apply State.setSlot_since | apply State.slotIn_since | apply State.slotTo_since)
    | extract_lets +onlyGivenNames t | split)

theorem execSpmSlotCycle_since (slot : Nat) (s : State) (hs : s.since P) : goodOut P (execSpmSlotCycle slot s) := by
  unfold execSpmSlotCycle
  repeat' with_reducible first | assumption | apply goodOut_next | apply State.slotCycle_since

theorem execSpmSlotRelease_since (slot : Nat) (s : State) (hs : s.since P) : goodOut P (execSpmSlotRelease slot s) := by
  unfold execSpmSlotRelease
  repeat' with_reducible first | assumption | apply goodOut_next | apply State.slotRelease_since

theorem State.slotControl_since (s : State) (c : Cmd) (hs : s.since P) : (State.slotControl s c).since P := by
  unfold State.slotControl
  repeat' (first
    | (with_reducible first
        | assumption | apply State.slotRecord_since | apply State.bothForce_since | apply State.writeEn_since
        | apply State.markPast_since | apply State.setSlot_since | apply State.emit_since | apply State.slotCycle_since
        | apply State.slotRelease_since)
    | extract_lets +onlyGivenNames t | split)

theorem execSlotControl_since (qp cid : Nat) (s : State) (hs : s.since P) : goodOut P (execSlotControl qp cid s) := by
  unfold execSlotControl
  repeat' with_reducible first
    | assumption | apply goodOut_next | refine State.adminRun_since _ _ _ _ _ ?_ (fun x0 x1 hx => ?_)
    | apply State.slotControl_since

theorem State.shutdownDone_since (s : State) (sl : Nat) (done : Bool) (hs : s.since P)
    : (State.shutdownDone s sl done).since P := by
  unfold State.shutdownDone
  repeat' (first | (with_reducible first | assumption | apply State.advanceTo_since | apply State.slotTo_since) | split)

theorem execShutdownComplete_since (slot : Nat) (done : Bool) (s : State) (hs : s.since P)
    : goodOut P (execShutdownComplete slot done s) := by
  unfold execShutdownComplete
  repeat' with_reducible first | assumption | apply goodOut_next | apply State.shutdownDone_since

theorem State.bothBulk_since (s : State) (seq typ key : Nat) (v : Option CfgVal) (b : Option (BulkKind × Bytes)) (info : Nat) (hs : s.since P)
    : (State.bothBulk s seq typ key v b info).since P := by
  unfold State.bothBulk
  repeat' (first
    | (with_reducible first
        | assumption | apply State.cfgPut_since | apply State.sendBulk_since | apply State.bothForce_since)
    | split)

theorem State.installSigner_since (s : State) (c : Cmd) (b : Bytes) (hs : s.since P)
    : (State.installSigner s c b).since P := by
  unfold State.installSigner
  repeat' (first
    | (with_reducible first | assumption | apply State.refuseCmd_since | apply State.bothBulk_since)
    | simp -zeta only [↓State.since_mk]
    | (extract_lets +onlyGivenNames t; refine State.since_cut (P := P) (t := t) ?_ ?_; all_goals first | (intro ht; clear_value t) | subst t)
    | extract_lets +onlyGivenNames t | split)

theorem State.setSigner_since (s : State) (c : Cmd) (hs : s.since P) : (State.setSigner s c).since P := by
  unfold State.setSigner
  repeat' (first
    | (with_reducible first
        | assumption | refine State.withBuffer_since _ _ _ ?_ (fun x0 x1 x2 hx => ?_) | apply State.installSigner_since
        | apply State.bothBulk_since)
    | simp -zeta only [↓State.since_mk] | split)

theorem execSetSigner_since (qp cid : Nat) (s : State) (hs : s.since P) : goodOut P (execSetSigner qp cid s) := by
  unfold execSetSigner
  repeat' with_reducible first
    | assumption | apply goodOut_next | refine State.adminRun_since _ _ _ _ _ ?_ (fun x0 x1 hx => ?_)
    | apply State.setSigner_since

theorem State.loadExt_since (s : State) (c : Cmd) (b : Bytes) (hs : s.since P) : (State.loadExt s c b).since P := by
  unfold State.loadExt
  repeat' (first
    | (with_reducible first
        | assumption | apply State.refuseCmd_since | apply State.count_since | apply State.bothBulk_since)
    | simp -zeta only [↓State.since_mk] | split)

theorem execLoadExt_since (qp cid : Nat) (s : State) (hs : s.since P) : goodOut P (execLoadExt qp cid s) := by
  unfold execLoadExt
  repeat' with_reducible first
    | assumption | apply goodOut_next | refine State.adminRun_since _ _ _ _ _ ?_ (fun x0 x1 hx => ?_)
    | refine State.withBuffer_since _ _ _ ?_ (fun x0 x1 x2 hx => ?_) | apply State.loadExt_since

theorem State.attachHook_since (s : State) (c : Cmd) (hs : s.since P) : (State.attachHook s c).since P := by
  unfold State.attachHook
  repeat' (first
    | (with_reducible first | assumption | apply State.cfgPut_since | apply State.bothForce_since)
    | simp -zeta only [↓State.since_mk]
    | (extract_lets +onlyGivenNames t; refine State.since_cut (P := P) (t := t) ?_ ?_; all_goals first | (intro ht; clear_value t) | subst t)
    | extract_lets +onlyGivenNames t | split)

theorem execAttachHook_since (qp cid : Nat) (s : State) (hs : s.since P) : goodOut P (execAttachHook qp cid s) := by
  unfold execAttachHook
  repeat' with_reducible first
    | assumption | apply goodOut_next | refine State.adminRun_since _ _ _ _ _ ?_ (fun x0 x1 hx => ?_)
    | apply State.attachHook_since

theorem State.detachHook_since (s : State) (c : Cmd) (hs : s.since P) : (State.detachHook s c).since P := by
  unfold State.detachHook
  repeat' (first
    | (with_reducible first
        | assumption | apply State.refuseCmd_since | apply State.markPast_since | apply State.markWaiting_since
        | apply State.endWaiting_since | apply State.detachCheck_since | apply State.flow_since)
    | simp -zeta only [↓State.since_mk] | extract_lets +onlyGivenNames t | split)

theorem execDetachHook_since (qp cid : Nat) (s : State) (hs : s.since P) : goodOut P (execDetachHook qp cid s) := by
  unfold execDetachHook
  repeat' with_reducible first
    | assumption | apply goodOut_next | refine State.adminRun_since _ _ _ _ _ ?_ (fun x0 x1 hx => ?_)
    | apply State.detachHook_since

theorem State.unloadExt_since (s : State) (c : Cmd) (hs : s.since P) : (State.unloadExt s c).since P := by
  unfold State.unloadExt
  repeat' (first | (with_reducible first | assumption | apply State.bothBulk_since) | simp -zeta only [↓State.since_mk])

theorem execUnloadExt_since (qp cid : Nat) (s : State) (hs : s.since P) : goodOut P (execUnloadExt qp cid s) := by
  unfold execUnloadExt
  repeat' with_reducible first
    | assumption | apply goodOut_next | refine State.adminRun_since _ _ _ _ _ ?_ (fun x0 x1 hx => ?_)
    | apply State.unloadExt_since

theorem State.warmIsland_okFor (s : State) (i : Nat) (hs : s.since P) (hi : i < 168) :
    (s.warmIsland i).okFor (Config.fused P.variant i) := by
  unfold State.warmIsland
  split
  · next h => subst h; exact State.island_okFor s 167 hs hi
  · split
    · next h =>
      have hf : Config.fused P.variant i = false := by simpa [hs.1.1] using h.2
      rw [hf]
      exact ⟨⟨fun e => (by cases e), fun e => (by cases e)⟩, fun e => (by cases e), fun _ e => by cases e⟩
    · rw [hs.1.1]
      exact Island.reset_okFor P.variant i

theorem State.keepAll_since (s t : State) (hs : s.since P) (ht : t.invAt P.variant) : (s.keepAll t).since P :=
  ⟨ht, hs.2.1.trans (List.suffix_append _ _), hs.2.2⟩

theorem State.warmBase_since (s : State) (cause : Nat) (hs : s.since P) : (State.warmBase s cause).since P := by
  unfold State.warmBase
  have hk : (s.keepAll (State.resetOf s.variant)).variant = P.variant := hs.1.1
  extract_lets t0 g t
  have ht : t.since P := by
    refine ⟨⟨hk, Memory.wf_filter hs.1.2.1 _, by simp [t], fun i hi => ?_⟩, hs.2.1.trans (List.suffix_append _ _), hs.2.2⟩
    unfold State.island
    simp only [t]
    rw [List.getD_eq_getElem?_getD, List.getElem?_map, List.getElem?_range hi]
    exact State.warmIsland_okFor s i hs hi
  clear_value t
  repeat' with_reducible first | assumption | apply State.setReg_since

theorem State.coldBase_since (s : State) (hs : s.since P) : (State.coldBase s).since P := by
  unfold State.coldBase
  have h := State.resetOf_inv s.variant
  rw [hs.1.1] at h ⊢
  exact State.setReg_since _ _ _ _ (State.setReg_since _ _ _ _ (State.keepAll_since _ _ hs h))

theorem State.avsMove_since (s : State) (hs : s.since P) : (State.avsMove s).since P := by
  unfold State.avsMove
  repeat' with_reducible first | assumption | apply State.emit_since | refine State.since_foldl ?_ (fun x y hx => ?_)

theorem State.romStep_since (s : State) (hs : s.since P) : (State.romStep s).1.since P := by
  unfold State.romStep
  repeat' (first
    | (with_reducible first
        | assumption | apply State.bringUp_since | apply State.withPointers_since | apply State.setReg_since
        | apply State.avsMove_since | refine State.since_foldl ?_ (fun x y hx => ?_))
    | simp -zeta only [↓State.since_mk]
    | (extract_lets +onlyGivenNames t; refine State.since_cut (P := P) (t := t) ?_ ?_; all_goals first | (intro ht; clear_value t) | subst t)
    | extract_lets +onlyGivenNames t | split)

theorem State.restoreRec_since (s : State) (r : CfgRec) (hs : s.since P) : (State.restoreRec s r).since P := by
  unfold State.restoreRec
  repeat' (first
    | (with_reducible first | assumption | apply State.setShaperEntry_since | apply State.setReg_since)
    | simp -zeta only [↓State.since_mk] | extract_lets +onlyGivenNames t | split)

theorem State.restoreKey_since (s : State) (r : CfgRec) (hs : s.since P) : (State.restoreKey s r).since P := by
  unfold State.restoreKey
  repeat' (first
    | (with_reducible first | assumption | apply State.setKeySlot_since)
    | simp -zeta only [↓State.since_mk] | extract_lets +onlyGivenNames t | split)

theorem State.startThreads_since (s : State) (hs : s.since P) : (State.startThreads s).since P := by
  unfold State.startThreads
  repeat' (first | with_reducible assumption | simp -zeta only [↓State.since_mk] | extract_lets +onlyGivenNames t)

theorem State.stepFour_since (s : State) (hs : s.since P) : (State.stepFour s).since P := by
  unfold State.stepFour
  repeat' with_reducible first
    | assumption | apply State.setField_since | apply State.setShaperEntry_since | apply State.restoreRec_since
    | apply State.restoreKey_since | apply State.startThreads_since | refine State.since_foldl ?_ (fun x y hx => ?_)

theorem State.stepSix_since (s : State) (hs : s.since P) : (State.stepSix s).since P := by
  unfold State.stepSix
  repeat' (first
    | (with_reducible first | assumption | apply State.writeEn_since | refine State.since_foldl ?_ (fun x y hx => ?_))
    | extract_lets +onlyGivenNames t | split)

theorem State.stepNine_since (s : State) (hs : s.since P) : (State.stepNine s).since P := by
  unfold State.stepNine
  repeat' (first
    | (with_reducible first | assumption | apply State.setField_since)
    | simp -zeta only [↓State.since_mk] | extract_lets +onlyGivenNames t | split)

theorem State.startUp_since (s : State) (hs : s.since P) : (State.startUp s).since P := by
  unfold State.startUp
  repeat' (first
    | (with_reducible first
        | assumption | apply State.romStep_since | apply State.bringUp_since | apply State.stepFour_since
        | apply State.setReg_since | apply State.setField_since | apply State.stepSix_since
        | apply State.stepNine_since | refine State.since_foldl ?_ (fun x y hx => ?_))
    | simp -zeta only [↓State.since_mk] | split | (refine State.since_fst ?_ (by with_reducible assumption)))

theorem State.coldReset_since (s : State) (hs : s.since P) : (State.coldReset s).since P := by
  unfold State.coldReset
  repeat' with_reducible first | assumption | apply State.coldBase_since | apply State.startUp_since

theorem State.warmReset_since (s : State) (cause : Nat) (hs : s.since P) : (State.warmReset s cause).since P := by
  unfold State.warmReset
  repeat' with_reducible first | assumption | apply State.warmBase_since | apply State.startUp_since

theorem execPorstN_since (s : State) (hs : s.since P) : goodOut P (execPorstN s) := by
  unfold execPorstN
  repeat' with_reducible first | assumption | apply goodOut_next | apply State.coldReset_since

theorem execWarmRstN_since (s : State) (hs : s.since P) : goodOut P (execWarmRstN s) := by
  unfold execWarmRstN
  repeat' with_reducible first | assumption | apply goodOut_next | apply State.warmReset_since

theorem execJtagReset_since (s : State) (hs : s.since P) : goodOut P (execJtagReset s) := by
  unfold execJtagReset
  repeat' with_reducible first | assumption | apply goodOut_next | apply State.warmReset_since

theorem State.fatalUnlinked_since (s : State) (was : Bool) (hs : s.since P) : (State.fatalUnlinked s was).since P := by
  unfold State.fatalUnlinked
  repeat' (first
    | (with_reducible first | assumption | apply State.warmReset_since)
    | extract_lets +onlyGivenNames t | split)

theorem execMirrorLinkLoss_since (s : State) (hs : s.since P) : goodOut P (execMirrorLinkLoss s) := by
  unfold execMirrorLinkLoss
  repeat' with_reducible first
    | assumption | apply goodOut_next | apply State.mirrorLoss_since | apply State.fatalUnlinked_since

theorem execMirrorLinkHalfChange_since (half : Nat) (up : Bool) (s : State) (hs : s.since P)
    : goodOut P (execMirrorLinkHalfChange half up s) := by
  unfold execMirrorLinkHalfChange
  repeat' with_reducible first
    | assumption | apply goodOut_next | apply State.mirrorHalf_since | apply State.fatalUnlinked_since

theorem execDriveReady_since (slot : Nat) (id : DriveId) (label : Bytes) (reads : List (Nat × Nat × List Nat)) (s : State) (hs : s.since P)
    : goodOut P (execDriveReady slot id label reads s) := by
  unfold execDriveReady
  repeat' with_reducible first
    | assumption | apply goodOut_next | apply State.driveBecomesReady_since | apply State.stepNine_since

theorem execAssemblyDeadline_since (reads : List (Nat × Nat × List Nat)) (s : State) (hs : s.since P)
    : goodOut P (execAssemblyDeadline reads s) := by
  unfold execAssemblyDeadline
  repeat' with_reducible first
    | assumption | apply goodOut_next | apply State.assemblyDeadline_since | apply State.stepNine_since

theorem State.cleanLabels_since (s : State) (hs : s.since P) : (State.cleanLabels s).since P := by
  unfold State.cleanLabels
  repeat' with_reducible first
    | assumption | apply State.updGroup_since | apply State.rewriteLabels_since
    | refine State.since_foldl ?_ (fun x y hx => ?_)

theorem State.orderlyBegin_since (s : State) (cause : Nat) (hs : s.since P) : (State.orderlyBegin s cause).since P := by
  unfold State.orderlyBegin
  repeat' (first
    | (with_reducible first
        | assumption | apply State.resetReach_since | apply State.flow_since | apply State.releaseShelf_since
        | apply State.sendLeave_since | apply State.warmReset_since | refine State.since_foldl ?_ (fun x y hx => ?_))
    | simp -zeta only [↓State.since_mk] | split | dsimp +zetaDelta only)

theorem State.resetStart_since (s : State) (seq : Nat) (hs : s.since P) : (State.resetStart s seq).since P := by
  unfold State.resetStart
  repeat' (first
    | (with_reducible first
        | assumption | apply State.markPast_since | apply State.finish_since | apply State.flow_since)
    | simp -zeta only [↓State.since_mk]
    | (extract_lets +onlyGivenNames t; refine State.since_cut (P := P) (t := t) ?_ ?_; all_goals first | (intro ht; clear_value t) | subst t))

theorem State.orderlyOnce_since (s : State) (hs : s.since P) : (State.orderlyOnce s).since P := by
  unfold State.orderlyOnce
  repeat' (first
    | (with_reducible first
        | assumption | apply State.resetStart_since | apply State.orderlyBegin_since | apply State.cleanLabels_since
        | apply State.warmReset_since)
    | simp -zeta only [↓State.since_mk]
    | (extract_lets +onlyGivenNames t; refine State.since_cut (P := P) (t := t) ?_ ?_; all_goals first | (intro ht; clear_value t) | subst t)
    | split)

theorem State.orderlyStep_since (s : State) (hs : s.since P) : (State.orderlyStep s).since P := by
  unfold State.orderlyStep
  repeat' with_reducible first | assumption | apply State.orderlyOnce_since

theorem State.resetController_since (s : State) (c : Cmd) (hs : s.since P) : (State.resetController s c).since P := by
  unfold State.resetController
  repeat' (first
    | (with_reducible first
        | assumption | apply State.markPast_since | apply State.finish_since | apply State.flow_since
        | apply State.markWaiting_since | apply State.resetStart_since | apply State.orderlyStep_since)
    | simp -zeta only [↓State.since_mk]
    | (extract_lets +onlyGivenNames t; refine State.since_cut (P := P) (t := t) ?_ ?_; all_goals first | (intro ht; clear_value t) | subst t)
    | split)

theorem execResetController_since (qp cid : Nat) (s : State) (hs : s.since P)
    : goodOut P (execResetController qp cid s) := by
  unfold execResetController
  repeat' with_reducible first
    | assumption | apply goodOut_next | refine State.adminRun_since _ _ _ _ _ ?_ (fun x0 x1 hx => ?_)
    | apply State.resetController_since

theorem State.rstWarm_since (s : State) (req : Requester) (v : Nat) (hs : s.since P) : (State.rstWarm s req v).since P := by
  unfold State.rstWarm
  repeat' (first | (with_reducible first | assumption | apply State.warmReset_since) | split)

theorem State.rstOrderly_since (s : State) (req : Requester) (v : Nat) (hs : s.since P)
    : (State.rstOrderly s req v).since P := by
  unfold State.rstOrderly
  repeat' (first
    | (with_reducible first | assumption | apply State.orderlyBegin_since | apply State.orderlyStep_since)
    | split)

theorem execSysRstWarm_since (req : Requester) (v : Word) (s : State) (hs : s.since P)
    : goodOut P (execSysRstWarm req v s) := by
  unfold execSysRstWarm
  repeat' (first | (with_reducible first | assumption | apply goodOut_next | apply State.rstWarm_since) | split)

theorem execSysRstOrderly_since (req : Requester) (v : Word) (s : State) (hs : s.since P)
    : goodOut P (execSysRstOrderly req v s) := by
  unfold execSysRstOrderly
  repeat' (first | (with_reducible first | assumption | apply goodOut_next | apply State.rstOrderly_since) | split)

theorem State.recordDone_since (s : State) (r : CfgRec) (hs : s.since P) : (State.recordDone s r).since P := by
  unfold State.recordDone
  repeat' (first
    | (with_reducible first
        | assumption | apply State.markCheck_since | apply State.stripeAdvance_since | apply State.ackFlash_since
        | apply State.emit_since | apply State.settle_since | apply State.flow_since
        | refine State.since_foldl ?_ (fun x y hx => ?_))
    | simp -zeta only [↓State.since_mk] | extract_lets +onlyGivenNames t | split | (with_reducible intro x))

theorem State.recordWritten_since (s : State) (ok : Bool) (hs : s.since P) : (State.recordWritten s ok).since P := by
  unfold State.recordWritten
  repeat' (first
    | (with_reducible first
        | assumption | apply State.err_since | apply State.placeRecord_since | apply State.recordDone_since)
    | simp -zeta only [↓State.since_mk] | split)

theorem execConfigRecordWritten_since (ok : Bool) (s : State) (hs : s.since P)
    : goodOut P (execConfigRecordWritten ok s) := by
  unfold execConfigRecordWritten
  repeat' with_reducible first | assumption | apply goodOut_next | apply State.recordWritten_since

theorem State.inBad_since (s : State) (hs : s.since P) : (State.inBad s).since P := by
  unfold State.inBad
  repeat' with_reducible first | assumption | apply State.count_since

theorem State.uartLine_since (s : State) (l : Bytes) (hs : s.since P) : (State.uartLine s l).since P := by
  unfold State.uartLine
  repeat' (first
    | (with_reducible first | assumption | apply State.inBad_since | apply State.emit_since | apply State.cfgPut_since)
    | simp -zeta only [↓State.since_mk]
    | (extract_lets +onlyGivenNames t; refine State.since_cut (P := P) (t := t) ?_ ?_; all_goals first | (intro ht; clear_value t) | subst t)
    | extract_lets +onlyGivenNames t | split)

theorem State.uartChars_since (s : State) (b : Bytes) (hs : s.since P) : (State.uartChars s b).since P := by
  unfold State.uartChars
  repeat' (first
    | (with_reducible first | assumption | apply State.uartLine_since)
    | simp -zeta only [↓State.since_mk] | extract_lets +onlyGivenNames t | split)

theorem State.uartTimeout_since (s : State) (hs : s.since P) : (State.uartTimeout s).since P := by
  unfold State.uartTimeout
  repeat' (first
    | (with_reducible first
        | assumption | apply State.advanceTo_since | apply State.inBad_since | apply State.emit_since)
    | simp -zeta only [↓State.since_mk] | split)

theorem execUartAdminLine_since (chars : Bytes) (s : State) (hs : s.since P) : goodOut P (execUartAdminLine chars s) := by
  unfold execUartAdminLine
  repeat' with_reducible first | assumption | apply goodOut_next | apply State.uartChars_since

theorem execUartLineTimeout_since (s : State) (hs : s.since P) : goodOut P (execUartLineTimeout s) := by
  unfold execUartLineTimeout
  repeat' with_reducible first | assumption | apply goodOut_next | apply State.uartTimeout_since

theorem State.gnmTo_since (s : State) (g : GnmState) (hs : s.since P) : (State.gnmTo s g).since P := by
  unfold State.gnmTo
  repeat' (first
    | (with_reducible first | assumption | apply State.count_since | apply State.raise_since)
    | simp -zeta only [↓State.since_mk] | split)

theorem State.candidate_since (s : State) (hs : s.since P) : (State.candidate s).since P := by
  unfold State.candidate
  repeat' (first
    | (with_reducible first | assumption | apply State.gnmTo_since)
    | simp -zeta only [↓State.since_mk]
    | (extract_lets +onlyGivenNames t; refine State.since_cut (P := P) (t := t) ?_ ?_; all_goals first | (intro ht; clear_value t) | subst t)
    | extract_lets +onlyGivenNames t | split)

theorem State.align_since (s : State) (k : Nat) (hs : s.since P) : (State.align s k).since P := by
  unfold State.align
  repeat' (first | with_reducible assumption | simp -zeta only [↓State.since_mk] | extract_lets +onlyGivenNames t)

theorem State.ppsEdge_since (s : State) (hs : s.since P) : (State.ppsEdge s).since P := by
  unfold State.ppsEdge
  repeat' (first
    | (with_reducible first
        | assumption | apply State.candidate_since | apply State.align_since | apply State.gnmTo_since
        | apply State.count_since | apply State.raise_since)
    | split)

theorem State.ppsWindowClose_since (s : State) (hs : s.since P) : (State.ppsWindowClose s).since P := by
  unfold State.ppsWindowClose
  repeat' (first
    | (with_reducible first
        | assumption | apply State.advanceTo_since | apply State.count_since | apply State.gnmTo_since)
    | simp -zeta only [↓State.since_mk]
    | (extract_lets +onlyGivenNames t; refine State.since_cut (P := P) (t := t) ?_ ?_; all_goals first | (intro ht; clear_value t) | subst t)
    | extract_lets +onlyGivenNames t | split)

theorem State.rateSecond_since (s : State) (hs : s.since P) : (State.rateSecond s).since P := by
  unfold State.rateSecond
  repeat' (first | (with_reducible first | assumption | apply State.advance_since) | split)

theorem State.ppsDisable_since (s : State) (hs : s.since P) : (State.ppsDisable s).since P := by
  unfold State.ppsDisable
  repeat' (first
    | (with_reducible first | assumption | apply State.setField_since | apply State.gnmTo_since)
    | (extract_lets +onlyGivenNames t; refine State.since_cut (P := P) (t := t) ?_ ?_; all_goals first | (intro ht; clear_value t) | subst t)
    | split)

theorem State.secAdj_since (s : State) (v : Nat) (hs : s.since P) : (State.secAdj s v).since P := by
  unfold State.secAdj
  repeat' (first
    | (with_reducible first | assumption | apply State.setField_since)
    | simp -zeta only [↓State.since_mk]
    | (extract_lets +onlyGivenNames t; refine State.since_cut (P := P) (t := t) ?_ ?_; all_goals first | (intro ht; clear_value t) | subst t))

theorem execPpsEdge_since (s : State) (hs : s.since P) : goodOut P (execPpsEdge s) := by
  unfold execPpsEdge
  repeat' with_reducible first | assumption | apply goodOut_next | apply State.ppsEdge_since

theorem execPpsWindowClose_since (s : State) (hs : s.since P) : goodOut P (execPpsWindowClose s) := by
  unfold execPpsWindowClose
  repeat' with_reducible first | assumption | apply goodOut_next | apply State.ppsWindowClose_since

theorem execRateSecond_since (s : State) (hs : s.since P) : goodOut P (execRateSecond s) := by
  unfold execRateSecond
  repeat' with_reducible first | assumption | apply goodOut_next | apply State.rateSecond_since

theorem execPpsDisable_since (s : State) (hs : s.since P) : goodOut P (execPpsDisable s) := by
  unfold execPpsDisable
  repeat' (first | (with_reducible first | assumption | apply goodOut_next | apply State.ppsDisable_since) | split)

theorem State.icuClaim_since (s : State) (req : Requester) (k : Nat) (hs : s.since P)
    : (State.icuClaim s req k).since P := by
  unfold State.icuClaim
  repeat' (first
    | (with_reducible first | assumption | apply State.emit_since)
    | simp -zeta only [↓State.since_mk] | extract_lets +onlyGivenNames t | split)

theorem State.icuEoi_since (s : State) (k n : Nat) (hs : s.since P) : (State.icuEoi s k n).since P := by
  unfold State.icuEoi
  repeat' (first
    | (with_reducible first | assumption | apply State.count_since)
    | simp -zeta only [↓State.since_mk] | split)

theorem State.icuMask_since (s : State) (w v : Nat) (on : Bool) (hs : s.since P) : (State.icuMask s w v on).since P := by
  unfold State.icuMask
  repeat' (first | with_reducible assumption | simp -zeta only [↓State.since_mk] | extract_lets +onlyGivenNames t)

theorem State.icuPend_since (s : State) (w v : Nat) (on : Bool) (hs : s.since P) : (State.icuPend s w v on).since P := by
  unfold State.icuPend
  repeat' (first | with_reducible assumption | simp -zeta only [↓State.since_mk] | extract_lets +onlyGivenNames t)

theorem State.whenAwake_since (s : State) (f : State → State) (hs : s.since P) (hf : ∀ x0, x0.since P → (f x0).since P)
    : goodOut P (State.whenAwake s f) := by
  unfold State.whenAwake
  repeat' (first | (with_reducible first | assumption | apply goodOut_next | apply hf) | split)

theorem execIcuClaim_since (req : Requester) (k : Nat) (s : State) (hs : s.since P) : goodOut P (execIcuClaim req k s) := by
  unfold execIcuClaim
  repeat' with_reducible first
    | assumption | refine State.whenAwake_since _ _ ?_ (fun x0 hx => ?_) | apply State.icuClaim_since

theorem execIcuEoi_since (k n : Nat) (s : State) (hs : s.since P) : goodOut P (execIcuEoi k n s) := by
  unfold execIcuEoi
  repeat' with_reducible first
    | assumption | refine State.whenAwake_since _ _ ?_ (fun x0 hx => ?_) | apply State.icuEoi_since

theorem execIcuMaskSet_since (w : Nat) (v : Word) (s : State) (hs : s.since P) : goodOut P (execIcuMaskSet w v s) := by
  unfold execIcuMaskSet
  repeat' with_reducible first
    | assumption | refine State.whenAwake_since _ _ ?_ (fun x0 hx => ?_) | apply State.icuMask_since

theorem execIcuMaskClr_since (w : Nat) (v : Word) (s : State) (hs : s.since P) : goodOut P (execIcuMaskClr w v s) := by
  unfold execIcuMaskClr
  repeat' with_reducible first
    | assumption | refine State.whenAwake_since _ _ ?_ (fun x0 hx => ?_) | apply State.icuMask_since

theorem execIcuPendSet_since (w : Nat) (v : Word) (s : State) (hs : s.since P) : goodOut P (execIcuPendSet w v s) := by
  unfold execIcuPendSet
  repeat' with_reducible first
    | assumption | refine State.whenAwake_since _ _ ?_ (fun x0 hx => ?_) | apply State.icuPend_since

theorem execIcuPendClr_since (w : Nat) (v : Word) (s : State) (hs : s.since P) : goodOut P (execIcuPendClr w v s) := by
  unfold execIcuPendClr
  repeat' with_reducible first
    | assumption | refine State.whenAwake_since _ _ ?_ (fun x0 hx => ?_) | apply State.icuPend_since

theorem State.glimmerSleep_since (s : State) (hs : s.since P) : (State.glimmerSleep s).since P := by
  unfold State.glimmerSleep
  repeat' (first | with_reducible assumption | simp -zeta only [↓State.since_mk])

theorem State.glimmerDown_since (s : State) (i : Nat) (hi : 165 ≤ i) (hs : s.since P) :
    ((s.setIsland i { s.island i with state := .retain, busy := none, trans := s.gnmNs }).trace 1 i).since P := by
  apply State.trace_since
  apply State.setIsland_since _ _ _ hs
  intro h
  obtain ⟨a, b, c⟩ := State.island_okFor s i hs h
  have hf : Config.fused P.variant i = false := by
    unfold Config.fused
    repeat' split
    all_goals first | rfl | omega
  rw [hf]
  exact ⟨⟨fun e => (by cases e), fun e => (by cases e)⟩, b, fun _ e => by cases e⟩

theorem State.glimmerEnter_since (s : State) (hs : s.since P) : (State.glimmerEnter s).since P := by
  unfold State.glimmerEnter
  split
  · exact hs
  · extract_lets g t down
    have ht : t.since P := by
      simp -zeta only [t, State.since_mk]
      exact hs
    clear_value t
    split
    · exact State.setField_since _ _ _ _ _ _ ht
    · apply State.raise_since
      apply State.raise_since
      rw [State.since_mk]
      exact State.glimmerDown_since _ _ (by omega) (State.glimmerDown_since _ _ (by omega) ht)

theorem State.glimmerTimer_since (s : State) (hs : s.since P) : (State.glimmerTimer s).since P := by
  unfold State.glimmerTimer
  repeat' (first
    | (with_reducible first | assumption | apply State.advanceTo_since | apply State.wake_since)
    | simp -zeta only [↓State.since_mk] | extract_lets +onlyGivenNames t | split)

theorem execGlimmerSleep_since (core : Nat) (s : State) (hs : s.since P) : goodOut P (execGlimmerSleep core s) := by
  unfold execGlimmerSleep
  repeat' (first
    | (with_reducible first
        | assumption | refine State.whenAwake_since _ _ ?_ (fun x0 hx => ?_) | apply State.glimmerSleep_since)
    | split)

theorem execGlimmerSleepEnter_since (s : State) (hs : s.since P) : goodOut P (execGlimmerSleepEnter s) := by
  unfold execGlimmerSleepEnter
  repeat' with_reducible first | assumption | apply goodOut_next | apply State.glimmerEnter_since

theorem execGlimmerTimer_since (s : State) (hs : s.since P) : goodOut P (execGlimmerTimer s) := by
  unfold execGlimmerTimer
  repeat' with_reducible first | assumption | apply goodOut_next | apply State.glimmerTimer_since

theorem State.csrWrite_since (s : State) (e t n : Nat) (v : DWord) (hs : s.since P) :
    ∀ r, State.csrWrite s e t n v = .ok r → r.since P := by
  unfold State.csrWrite
  intro r hr
  dsimp only at hr
  split at hr
  · split at hr
    · injection hr with hr
      subst hr
      exact State.latch_since _ _ _ _ hs
    · cases hr
  · split at hr
    · injection hr with hr
      subst hr
      apply State.updThr_since
      exact hs
    · injection hr with hr
      subst hr
      apply State.updThr_since
      exact hs

theorem State.csrInstr_since (s : State) (e t n : Nat) (rd : Option (Fin 32)) (f : Option (DWord → DWord)) (hs : s.since P)
    : goodRes P (State.csrInstr s e t n rd f) := by
  unfold State.csrInstr
  extract_lets x old w
  split
  · exact hs
  · split
    · exact hs
    · have hw : ∀ r, w = .ok r → r.since P := by
        intro r hr
        simp only [w] at hr
        split at hr
        · exact State.csrWrite_since _ _ _ _ _ hs _ hr
        · injection hr with hr
          subst hr
          exact hs
      clear_value w
      split
      · exact hs
      · have h := hw _ rfl
        apply goodRes_retire
        split
        · apply State.updThr_since
          exact h
        · exact h

theorem execGetc_since (e t : Nat) (g : Guard) (rd : Fin 32) (csr : BitVec 8) (s : State) (hs : s.since P)
    : goodOut P (execGetc e t g rd csr s) := by
  unfold execGetc
  repeat' with_reducible first
    | assumption | apply goodOut_next | refine State.instr_since _ _ _ _ _ _ _ _ ?_ (fun x0 hx => ?_)
    | apply State.csrInstr_since

theorem execPutc_since (e t : Nat) (g : Guard) (csr : BitVec 8) (ra : Fin 32) (s : State) (hs : s.since P)
    : goodOut P (execPutc e t g csr ra s) := by
  unfold execPutc
  repeat' with_reducible first
    | assumption | apply goodOut_next | refine State.instr_since _ _ _ _ _ _ _ _ ?_ (fun x0 hx => ?_)
    | apply State.csrInstr_since

theorem execSwpc_since (e t : Nat) (g : Guard) (rd : Fin 32) (csr : BitVec 8) (ra : Fin 32) (s : State) (hs : s.since P)
    : goodOut P (execSwpc e t g rd csr ra s) := by
  unfold execSwpc
  repeat' with_reducible first
    | assumption | apply goodOut_next | refine State.instr_since _ _ _ _ _ _ _ _ ?_ (fun x0 hx => ?_)
    | apply State.csrInstr_since

theorem execBitc_since (e t : Nat) (g : Guard) (rd : Fin 32) (csr : BitVec 8) (n : Fin 64) (v : Bool) (s : State) (hs : s.since P)
    : goodOut P (execBitc e t g rd csr n v s) := by
  unfold execBitc
  repeat' (first
    | (with_reducible first
        | assumption | apply goodOut_next | apply goodRes_trap
        | refine State.instr_since _ _ _ _ _ _ _ _ ?_ (fun x0 hx => ?_) | apply State.csrInstr_since)
    | split)

theorem execTrap_since (e t : Nat) (g : Guard) (code : BitVec 12) (s : State) (hs : s.since P)
    : goodOut P (execTrap e t g code s) := by
  unfold execTrap
  repeat' with_reducible first
    | assumption | apply goodOut_next | apply goodRes_trap
    | refine State.instr_since _ _ _ _ _ _ _ _ ?_ (fun x0 hx => ?_)

theorem execEret_since (e t : Nat) (g : Guard) (s : State) (hs : s.since P) : goodOut P (execEret e t g s) := by
  unfold execEret
  repeat' (first
    | (with_reducible first
        | assumption | apply goodOut_next | apply goodRes_trap | apply goodRes_retire
        | refine State.instr_since _ _ _ _ _ _ _ _ ?_ (fun x0 hx => ?_) | apply State.setThr_since)
    | extract_lets +onlyGivenNames t | split)

theorem execWait_since (e t : Nat) (g : Guard) (rd rb : Fin 32) (s : State) (hs : s.since P)
    : goodOut P (execWait e t g rd rb s) := by
  unfold execWait
  repeat' (first
    | (with_reducible first
        | assumption | apply goodOut_next | apply goodRes_trap | apply goodRes_retire | apply goodRes_hold
        | refine State.instr_since _ _ _ _ _ _ _ _ ?_ (fun x0 hx => ?_) | apply State.setThr_since)
    | extract_lets +onlyGivenNames t | split)

theorem execYield_since (e t : Nat) (g : Guard) (s : State) (hs : s.since P) : goodOut P (execYield e t g s) := by
  unfold execYield
  repeat' with_reducible first
    | assumption | apply goodOut_next | apply goodRes_retire
    | refine State.instr_since _ _ _ _ _ _ _ _ ?_ (fun x0 hx => ?_) | apply State.updThr_since

theorem execTimerEvent_since (e t : Nat) (s : State) (hs : s.since P) : goodOut P (execTimerEvent e t s) := by
  unfold execTimerEvent
  repeat' with_reducible first | assumption | apply goodOut_next | apply State.timerEvent_since

theorem execDmaFaultTrap_since (e t : Nat) (s : State) (hs : s.since P) : goodOut P (execDmaFaultTrap e t s) := by
  unfold execDmaFaultTrap
  repeat' (first | (with_reducible first | assumption | apply goodOut_next | apply State.dmaTrap_since) | split)

theorem State.lineOf_since (s : State) (e t va : Nat) (hs : s.since P) : (State.lineOf s e t va).1.since P := by
  unfold State.lineOf
  repeat' (first
    | (with_reducible first | assumption | apply State.lookup_since)
    | extract_lets +onlyGivenNames t | split)

theorem State.fenceLine_since (s : State) (e form line : Nat) (hs : s.since P)
    : (State.fenceLine s e form line).since P := by
  unfold State.fenceLine
  repeat' (first
    | (with_reducible first
        | assumption | apply State.cleanLine_since | apply State.setEng_since | apply State.evict_since)
    | split)

theorem State.fenceRange_since (s : State) (e t form v n : Nat) (hs : s.since P)
    : (State.fenceRange s e t form v n).since P := by
  induction n generalizing s v with
  | zero => exact hs
  | succ n ih =>
    unfold State.fenceRange
    repeat' (first
      | (with_reducible first | assumption | apply State.lineOf_since | apply State.fenceLine_since | apply ih)
      | split)

theorem execFence_since (e t : Nat) (g : Guard) (ra rb : Fin 32) (form : Fin 128) (pre : Option Cut) (s : State) (hs : s.since P)
    : goodOut P (execFence e t g ra rb form pre s) := by
  unfold execFence
  repeat' (first
    | (with_reducible first
        | assumption | apply goodOut_next | apply goodRes_trap | apply goodRes_retire | apply goodRes_cut
        | refine State.instr_since _ _ _ _ _ _ _ _ ?_ (fun x0 hx => ?_) | apply State.setEng_since
        | apply State.evict_since | apply State.fenceRange_since | apply State.preempt_since
        | refine State.since_foldl ?_ (fun x y hx => ?_))
    | split | dsimp +zetaDelta only)

theorem State.thrCapture_since (s : State) (w : Nat) (hs : s.since P) : (State.thrCapture s w).since P := by
  unfold State.thrCapture
  repeat' with_reducible first | assumption | apply State.setReg_since

theorem execFctThrSel_since (v : Word) (s : State) (hs : s.since P) : goodOut P (execFctThrSel v s) := by
  unfold execFctThrSel
  repeat' with_reducible first
    | assumption | apply goodOut_next | refine State.whenOn_since _ _ _ ?_ (fun x0 hx => ?_)
    | apply State.thrCapture_since

theorem execPmcSampleEnable_since (v : Word) (s : State) (hs : s.since P) : goodOut P (execPmcSampleEnable v s) := by
  unfold execPmcSampleEnable
  repeat' with_reducible first
    | assumption | apply goodOut_next | refine State.whenOn_since _ _ _ ?_ (fun x0 hx => ?_) | apply State.smpCtl_since

theorem execMmuInvalidate_since (v : Word) (s : State) (hs : s.since P) : goodOut P (execMmuInvalidate v s) := by
  unfold execMmuInvalidate
  repeat' with_reducible first
    | assumption | apply goodOut_next | refine State.whenOn_since _ _ _ ?_ (fun x0 hx => ?_)
    | apply State.mmuInvCtl_since

theorem execInvalidationComplete_since (s : State) (hs : s.since P) : goodOut P (execInvalidationComplete s) := by
  unfold execInvalidationComplete
  repeat' with_reducible first | assumption | apply goodOut_next | apply State.invalDone_since

theorem State.sampleIslands_since (s : State) (p : Nat → Bool) (hs : s.since P) : (State.sampleIslands s p).since P := by
  unfold State.sampleIslands
  repeat' (first | with_reducible assumption | simp -zeta only [↓State.since_mk] | extract_lets +onlyGivenNames t)

theorem State.housekeeping_since (s : State) (hs : s.since P) : (State.housekeeping s).since P := by
  unfold State.housekeeping
  repeat' (first
    | (with_reducible first | assumption | apply State.sampleIslands_since)
    | simp -zeta only [↓State.since_mk] | extract_lets +onlyGivenNames t)

theorem execHousekeepingEdge_since (s : State) (hs : s.since P) : goodOut P (execHousekeepingEdge s) := by
  unfold execHousekeepingEdge
  repeat' (first | (with_reducible first | assumption | apply goodOut_next | apply State.housekeeping_since) | split)

theorem State.islBegin_since (s : State) (n : Nat) (hs : s.since P) : (State.islBegin s n).since P := by
  unfold State.islBegin
  extract_lets x xb u
  split
  · exact hs
  · next h =>
    apply State.trace_since
    have hu : u.since P := by
      simp only [u]
      split
      · exact hs
      · exact hs
    clear_value u
    apply State.setIsland_since _ _ _ hu
    intro hi
    obtain ⟨a, b, c⟩ := State.island_okFor s n hs hi
    refine ⟨a, b, fun y hy => ?_⟩
    injection hy with hy
    subst hy
    exact ⟨fun e => h (.inr (.inr (.inl e))), b⟩

theorem State.portsOff_since (s : State) (n : Nat) (hs : s.since P) : (State.portsOff s n).since P := by
  unfold State.portsOff
  repeat' (first
    | (with_reducible first
        | assumption | apply State.linkDown_since | apply State.setField_since | apply State.cfgPut_since
        | refine State.since_foldl ?_ (fun x y hx => ?_))
    | extract_lets +onlyGivenNames t | split)

theorem State.islReq_since (s : State) (req : Requester) (n v : Nat) (hs : s.since P)
    : (State.islReq s req n v).since P := by
  unfold State.islReq
  split
  · next nxt hn =>
    split
    · exact hs
    · next h =>
      extract_lets u
      have hu : u.since P := by
        simp only [u]
        split
        · exact hs
        · exact State.portsOff_since _ _ hs
      clear_value u
      apply State.islBegin_since
      apply State.setIsland_since _ _ _ hu
      intro hi
      obtain ⟨a, b, c⟩ := State.island_okFor u n hu hi
      refine ⟨a, ?_, c⟩
      dsimp only
      revert hn
      unfold IslState.ofReq
      split <;> intro h <;> first | cases h; done | (injection h with h; subst h; exact fun e => by cases e)
  · exact hs

theorem execIslandReqWrite_since (req : Requester) (isl : Nat) (v : Word) (s : State) (hs : s.since P)
    : goodOut P (execIslandReqWrite req isl v s) := by
  unfold execIslandReqWrite
  repeat' (first | (with_reducible first | assumption | apply goodOut_next | apply State.islReq_since) | split)

theorem State.dataDown_since (s : State) (n : Nat) (hs : s.since P) : (State.dataDown s n).since P := by
  unfold State.dataDown
  repeat' (first
    | (with_reducible first
        | assumption | apply State.linkDown_since | apply State.setDrive_since | apply State.driveLost_since
        | apply State.mirrorHalf_since | apply State.epLinkDown_since | refine State.since_foldl ?_ (fun x y hx => ?_))
    | extract_lets +onlyGivenNames t | split)

theorem State.islandDown_since (s : State) (n : Nat) (nxt : IslState) (hs : s.since P)
    (hn : n < 168 → nxt ≠ .fused ∧ Config.fused P.variant n = false) : (s.islandDown n nxt).since P := by
  unfold State.islandDown
  extract_lets was x t t2 t3 t4
  have ht : t.since P := by
    simp only [t]
    apply State.setIsland_since _ _ _ hs
    intro h
    obtain ⟨a, b, c⟩ := State.island_okFor s n hs h
    have hh := hn h
    rw [hh.2]
    exact ⟨⟨fun e => absurd e hh.1, fun e => (by cases e)⟩, b, fun _ e => by cases e⟩
  clear_value t
  have ht2 : t2.since P := State.sampleIslands_since _ _ (State.dataDown_since _ _ ht)
  clear_value t2
  have ht3 : t3.since P := by
    simp only [t3]
    split
    · exact State.losePower_since _ _ ht2
    · exact ht2
  clear_value t3
  have ht4 : t4.since P := by
    simp only [t4]
    split
    · exact State.doorsRefused_since _ ht3
    · exact ht3
  clear_value t4
  exact State.fatalUnlinked_since _ _ (State.islBegin_since _ _ (State.raise_since _ _ (State.trace_since _ _ _ ht4)))

theorem State.busy_ok (s : State) (n : Nat) (b : Transition) (hs : s.since P) (hb : (s.island n).busy = some b)
    (h : n < 168) : b.target ≠ .fused ∧ Config.fused P.variant n = false := by
  obtain ⟨a, _, c⟩ := State.island_okFor s n hs h
  have := c b hb
  refine ⟨this.2, ?_⟩
  cases hf : Config.fused P.variant n with
  | false => rfl
  | true => exact absurd (a.2 hf) this.1

theorem State.islandDrained_since (s : State) (n : Nat) (hs : s.since P) : (State.islandDrained s n).since P := by
  unfold State.islandDrained
  split
  · next b hb =>
    split
    · exact hs
    · exact State.islandDown_since _ _ _ hs (State.busy_ok s n b hs hb)
  · exact hs

theorem execIslandDrainEnd_since (isl : Nat) (s : State) (hs : s.since P) : goodOut P (execIslandDrainEnd isl s) := by
  unfold execIslandDrainEnd
  repeat' with_reducible first | assumption | apply goodOut_next | apply State.islandDrained_since

theorem State.forcedDown_since (s : State) (n : Nat) (hs : s.since P) : (State.forcedDown s n).since P := by
  unfold State.forcedDown
  repeat' (first | (with_reducible first | assumption | apply State.fatal_since) | split)

theorem State.drainTimeout_since (s : State) (n : Nat) (hs : s.since P) : (State.drainTimeout s n).since P := by
  unfold State.drainTimeout
  split
  · next b hb =>
    split
    · exact hs
    · have ht : (s.advanceTo (b.since + 100 * usec)).since P := State.advanceTo_since _ _ hs
      dsimp only
      generalize s.advanceTo (b.since + 100 * usec) = t at *
      refine State.islandDown_since _ _ _ (State.forcedDown_since _ _ (State.setIsland_since _ _ _ ht fun h => ?_))
        (State.busy_ok s n b hs hb)
      exact State.island_okFor t n ht h
  · exact hs

theorem execIslandDrainTimeout_since (isl : Nat) (s : State) (hs : s.since P)
    : goodOut P (execIslandDrainTimeout isl s) := by
  unfold execIslandDrainTimeout
  repeat' with_reducible first | assumption | apply goodOut_next | apply State.drainTimeout_since

theorem State.powerUp_since (s : State) (n : Nat) (hs : s.since P) : (State.powerUp s n).since P := by
  unfold State.powerUp
  split
  · next b hb =>
    split
    · apply State.islBegin_since
      apply State.islandOn_since _ _ hs
      intro h
      exact ((State.island_okFor s n hs h).2.2 b hb).1
    · exact hs
  · exact hs

theorem State.setMode_since (s : State) (req : Requester) (v : Nat) (hs : s.since P) : (State.setMode s req v).since P := by
  unfold State.setMode
  repeat' (first
    | (with_reducible first | assumption | apply State.setField_since)
    | extract_lets +onlyGivenNames t | split)

theorem State.snapGo_since (s : State) (hs : s.since P) : (State.snapGo s).since P := by
  unfold State.snapGo
  repeat' (first
    | (with_reducible first | assumption | apply State.setField_since)
    | simp -zeta only [↓State.since_mk] | split)

theorem State.portWrite_since (s : State) (n new : Nat) (hs : s.since P) : (State.portWrite s n new).since P := by
  unfold State.portWrite
  repeat' (first
    | (with_reducible first
        | assumption | apply State.setReg_since | apply State.linkDown_since
        | refine State.since_foldl ?_ (fun x y hx => ?_))
    | split)

theorem State.slotWrite606_since (s : State) (sl new m v : Nat) (hs : s.since P)
    : (State.slotWrite606 s sl new m v).since P := by
  unfold State.slotWrite606
  repeat' (first
    | (with_reducible first
        | assumption | apply State.setField_since | apply State.writeEn_since | apply State.slotCycle_since
        | apply State.slotRelease_since)
    | split)

theorem State.writeReg_since (s : State) (req : Requester) (r : Reg) (i m v : Nat) (hs : s.since P)
    : (State.writeReg s req r i m v).since P := by
  unfold State.writeReg
  repeat' (first
    | (with_reducible first
        | assumption | apply State.setReg_since | apply State.setMode_since | apply State.snapGo_since
        | apply State.rstWarm_since | apply State.rstOrderly_since | apply State.errCtl_since
        | apply State.wdogCtl_since | apply State.islReq_since | apply State.icuMask_since | apply State.icuPend_since
        | apply State.icuEoi_since | apply State.glimmerSleep_since | apply State.ppsDisable_since
        | apply State.secAdj_since | apply State.slotWrite606_since | apply State.releaseShelf_since
        | apply State.leaveCtl_since | apply State.portWrite_since | apply State.resumeMac_since
        | apply State.odtCapture_since | apply State.winCommit_since | apply State.partCapture_since
        | apply State.prismCtl_since | apply State.keyCapture_since | apply State.rowCapture_since
        | apply State.inspect_since | apply State.shaperCapture_since | apply State.shaperCommit_since
        | apply State.thrCapture_since | apply State.mmuInvCtl_since | apply State.smpCtl_since
        | refine State.since_foldl ?_ (fun x y hx => ?_))
    | simp -zeta only [↓State.since_mk]
    | (extract_lets +onlyGivenNames t; refine State.since_cut (P := P) (t := t) ?_ ?_; all_goals first | (intro ht; clear_value t) | subst t)
    | extract_lets +onlyGivenNames t | split)

theorem State.applyWrite_since (s : State) (req : Requester) (r : Reg) (i m v : Nat) (hs : s.since P)
    : (State.applyWrite s req r i m v).since P := by
  unfold State.applyWrite
  repeat' (first
    | (with_reducible first | assumption | apply State.writeReg_since | apply State.cfgPut_since)
    | extract_lets +onlyGivenNames t | split)

theorem State.applyOp_since (s : State) (req : Requester) (off : Nat) (op : RegOp) (hs : s.since P)
    : (State.applyOp s req off op).since P := by
  unfold State.applyOp
  repeat' (first | (with_reducible first | assumption | apply State.applyWrite_since) | split)

theorem State.clearRead_since (s : State) (r : Reg) (i v : Nat) (hs : s.since P) : (State.clearRead s r i v).since P := by
  unfold State.clearRead
  split
  · exact hs
  · extract_lets c src t f
    have ht : t.since P := by
      simp only [t]
      split
      · split
        · apply State.setIsland_since _ _ _ hs
          intro h
          exact State.island_okFor s i hs h
        · exact hs
      · exact State.setReg_since _ _ _ _ hs
    clear_value t
    split
    · exact ht
    · rw [State.since_mk]
      exact ht

theorem State.wsync_since (s : State) (req : Requester) (hs : s.since P) : (State.wsync s req).1.since P := by
  unfold State.wsync
  repeat' (first
    | (with_reducible first
        | assumption | apply State.applyOp_since | apply State.advance_since
        | refine State.since_foldl ?_ (fun x y hx => ?_))
    | simp -zeta only [↓State.since_mk]
    | (extract_lets +onlyGivenNames t; refine State.since_cut (P := P) (t := t) ?_ ?_; all_goals first | (intro ht; clear_value t) | subst t)
    | extract_lets +onlyGivenNames t | split)

theorem State.readWord_since (s : State) (req : Requester) (off : Nat) (al : Option Nat) (clears : Bool) (hs : s.since P)
    : (State.readWord s req off al clears).1.since P := by
  unfold State.readWord
  repeat' (first
    | (with_reducible first | assumption | apply State.wsync_since | apply State.clearRead_since)
    | simp -zeta only [↓State.since_mk]
    | (extract_lets +onlyGivenNames t; refine State.since_cut (P := P) (t := t) ?_ ?_; all_goals first | (intro ht; clear_value t) | subst t)
    | extract_lets +onlyGivenNames t | split)

theorem State.accessEnd_since (s : State) (req : Requester) (off : Nat) (v : Option Nat) (hs : s.since P)
    : (State.accessEnd s req off v).since P := by
  unfold State.accessEnd
  repeat' (first
    | (with_reducible first | assumption | apply State.setThr_since | apply State.retire_since | apply State.emit_since)
    | extract_lets +onlyGivenNames t | split)

theorem State.fabRead_since (s : State) (req : Requester) (off : Nat) (al : Option Nat) (hs : s.since P)
    : (State.fabRead s req off al).since P := by
  unfold State.fabRead
  repeat' (first
    | (with_reducible first | assumption | apply State.readWord_since | apply State.emit_since)
    | simp -zeta only [↓State.since_mk] | split)

theorem State.overlay_since (s : State) (r : Reg) (i : Nat) (b : Nat × Nat) (hs : s.since P)
    : (State.overlay s r i b).since P := by
  unfold State.overlay
  repeat' (first | with_reducible assumption | simp -zeta only [↓State.since_mk] | extract_lets +onlyGivenNames t)

theorem State.applySeen_since (s : State) (req : Requester) (off : Nat) (op : RegOp) (hs : s.since P)
    : (State.applySeen s req off op).since P := by
  unfold State.applySeen
  repeat' (first | (with_reducible first | assumption | apply State.applyOp_since | apply State.overlay_since) | split)

theorem State.submit_since (s : State) (req : Requester) (r : Reg) (i : Nat) (up : Bool) (off : Nat) (op : RegOp) (hs : s.since P)
    : (State.submit s req r i up off op).since P := by
  unfold State.submit
  repeat' (first
    | (with_reducible first
        | assumption | apply State.applyOp_since | apply State.overlay_since | apply State.applySeen_since)
    | simp -zeta only [↓State.since_mk] | split)

theorem State.fabWrite_since (s : State) (req : Requester) (off : Nat) (op : RegOp) (hs : s.since P)
    : (State.fabWrite s req off op).since P := by
  unfold State.fabWrite
  repeat' (first
    | (with_reducible first | assumption | apply State.submit_since)
    | simp -zeta only [↓State.since_mk]
    | (extract_lets +onlyGivenNames t; refine State.since_cut (P := P) (t := t) ?_ ?_; all_goals first | (intro ht; clear_value t) | subst t)
    | extract_lets +onlyGivenNames t | split)

theorem State.unmappedAt_since (s : State) (req : Requester) (off : Nat) (hs : s.since P)
    : (State.unmappedAt s req off).since P := by
  unfold State.unmappedAt
  repeat' (first | (with_reducible first | assumption | apply State.count_since | apply State.emit_since) | split)

theorem execRegisterWrite_since (req : Requester) (off : Nat) (v : Word) (s : State) (hs : s.since P)
    : goodOut P (execRegisterWrite req off v s) := by
  unfold execRegisterWrite
  repeat' (first
    | (with_reducible first
        | assumption | refine State.whenAwake_since _ _ ?_ (fun x0 hx => ?_) | apply State.unmappedAt_since
        | apply State.fabWrite_since)
    | split)

theorem execAliasWrite_since (req : Requester) (off : Nat) (bit : Nat) (v : Word) (s : State) (hs : s.since P)
    : goodOut P (execAliasWrite req off bit v s) := by
  unfold execAliasWrite
  repeat' (first
    | (with_reducible first
        | assumption | refine State.whenAwake_since _ _ ?_ (fun x0 hx => ?_) | apply State.unmappedAt_since
        | apply State.fabWrite_since)
    | split)

theorem execRcRead_since (req : Requester) (off : Nat) (aliasBit : Option Nat) (s : State) (hs : s.since P)
    : goodOut P (execRcRead req off aliasBit s) := by
  unfold execRcRead
  repeat' (first
    | (with_reducible first
        | assumption | refine State.whenAwake_since _ _ ?_ (fun x0 hx => ?_) | apply State.unmappedAt_since
        | apply State.icuClaim_since | apply State.fabRead_since)
    | split)

theorem execSysWsync_since (req : Requester) (s : State) (hs : s.since P) : goodOut P (execSysWsync req s) := by
  unfold execSysWsync
  repeat' with_reducible first
    | assumption | refine State.whenAwake_since _ _ ?_ (fun x0 hx => ?_) | apply State.fabRead_since

theorem execSysMode_since (req : Requester) (v : Word) (s : State) (hs : s.since P) : goodOut P (execSysMode req v s) := by
  unfold execSysMode
  repeat' (first
    | (with_reducible first
        | assumption | refine State.whenAwake_since _ _ ?_ (fun x0 hx => ?_) | apply State.setMode_since)
    | split)

theorem execSysSnap_since (v : Word) (s : State) (hs : s.since P) : goodOut P (execSysSnap v s) := by
  unfold execSysSnap
  repeat' (first
    | (with_reducible first
        | assumption | refine State.whenAwake_since _ _ ?_ (fun x0 hx => ?_) | apply State.snapGo_since)
    | split)

theorem State.postedApply_since (s : State) (req : Requester) (isl : Nat) (hs : s.since P)
    : (State.postedApply s req isl).since P := by
  unfold State.postedApply
  repeat' (first
    | (with_reducible first | assumption | apply State.applyOp_since)
    | simp -zeta only [↓State.since_mk]
    | (extract_lets +onlyGivenNames t; refine State.since_cut (P := P) (t := t) ?_ ?_; all_goals first | (intro ht; clear_value t) | subst t)
    | extract_lets +onlyGivenNames t | split)

theorem execPostedWriteApply_since (req : Requester) (isl : Nat) (s : State) (hs : s.since P)
    : goodOut P (execPostedWriteApply req isl s) := by
  unfold execPostedWriteApply
  repeat' with_reducible first
    | assumption | refine State.whenAwake_since _ _ ?_ (fun x0 hx => ?_) | apply State.postedApply_since

theorem State.busErrorAfter_since (s : State) (req : Requester) (hs : s.since P) : (State.busErrorAfter s req).since P := by
  unfold State.busErrorAfter
  repeat' (first
    | (with_reducible first
        | assumption | apply State.advanceTo_since | apply State.count_since | apply State.updThr_since
        | apply State.trapTo_since | apply State.emit_since)
    | simp -zeta only [↓State.since_mk]
    | (extract_lets +onlyGivenNames t; refine State.since_cut (P := P) (t := t) ?_ ?_; all_goals first | (intro ht; clear_value t) | subst t)
    | extract_lets +onlyGivenNames t | split)

theorem execBusErrorTimeout_since (req : Requester) (s : State) (hs : s.since P)
    : goodOut P (execBusErrorTimeout req s) := by
  unfold execBusErrorTimeout
  repeat' with_reducible first
    | assumption | refine State.whenAwake_since _ _ ?_ (fun x0 hx => ?_) | apply State.busErrorAfter_since

theorem State.serveStalled_since (s : State) (hs : s.since P) : (State.serveStalled s).since P := by
  unfold State.serveStalled
  repeat' (first
    | (with_reducible first
        | assumption | apply State.applySeen_since | apply State.accessEnd_since | apply State.readWord_since
        | refine State.since_foldl ?_ (fun x y hx => ?_))
    | simp -zeta only [↓State.since_mk] | split)

theorem execIslandPowerUp_since (isl : Nat) (s : State) (hs : s.since P) : goodOut P (execIslandPowerUp isl s) := by
  unfold execIslandPowerUp
  repeat' with_reducible first
    | assumption | apply goodOut_next | apply State.powerUp_since | apply State.serveStalled_since

theorem State.snapCapture_since (s : State) (hs : s.since P) : (State.snapCapture s).since P := by
  unfold State.snapCapture
  repeat' (first
    | (with_reducible first
        | assumption | apply State.advanceGnm_since | apply State.setField_since | apply State.setReg_since
        | apply State.raise_since)
    | simp -zeta only [↓State.since_mk] | split)

theorem execSnapshotCapture_since (s : State) (hs : s.since P) : goodOut P (execSnapshotCapture s) := by
  unfold execSnapshotCapture
  repeat' with_reducible first | assumption | apply goodOut_next | apply State.snapCapture_since

end Sys2Proof.Machine
end

