-- ==== Sys2Proof/Laws/SinceExec.lean ====
section
/-! SUPPORT. The invariant, and what a step never takes back, through every operation of fatal images, errors, instructions, firmware and the tick. -/

namespace Sys2Proof.Machine

variable {P : Past}

theorem State.updFatal_since (s : State) (f : FatalRun → FatalRun) (hs : s.since P) : (State.updFatal s f).since P := by
  unfold State.updFatal
  repeat' (first | with_reducible assumption | simp -zeta only [↓State.since_mk])

theorem State.imageComplete_since (s : State) (hs : s.since P) : (State.imageComplete s).since P := by
  unfold State.imageComplete
  repeat' (first
    | (with_reducible first
        | assumption | apply State.store_since | apply State.drew_since | apply State.setField_since
        | apply State.updFatal_since | apply State.sendBulk_since)
    | extract_lets +onlyGivenNames t | split)

theorem execFatalImageComplete_since (s : State) (hs : s.since P) : goodOut P (execFatalImageComplete s) := by
  unfold execFatalImageComplete
  repeat' with_reducible first | assumption | apply goodOut_next | apply State.imageComplete_since

theorem State.fatalTimer_since (s : State) (hs : s.since P) : (State.fatalTimer s).since P := by
  unfold State.fatalTimer
  repeat' (first
    | (with_reducible first | assumption | apply State.advanceTo_since | apply State.warmReset_since)
    | split)

theorem execFatalResetTimer_since (s : State) (hs : s.since P) : goodOut P (execFatalResetTimer s) := by
  unfold execFatalResetTimer
  repeat' with_reducible first | assumption | apply goodOut_next | apply State.fatalTimer_since

theorem State.watchdogExpire_since (s : State) (hs : s.since P) : (State.watchdogExpire s).since P := by
  unfold State.watchdogExpire
  repeat' (first
    | (with_reducible first
        | assumption | apply State.advanceTo_since | apply State.fatal_since | apply State.warmReset_since
        | apply State.updFatal_since)
    | simp -zeta only [↓State.since_mk]
    | (extract_lets +onlyGivenNames t; refine State.since_cut (P := P) (t := t) ?_ ?_; all_goals first | (intro ht; clear_value t) | subst t)
    | extract_lets +onlyGivenNames t | split)

theorem execWatchdogExpire_since (s : State) (hs : s.since P) : goodOut P (execWatchdogExpire s) := by
  unfold execWatchdogExpire
  repeat' with_reducible first | assumption | apply goodOut_next | apply State.watchdogExpire_since

theorem State.watchdogReset_since (s : State) (hs : s.since P) : (State.watchdogReset s).since P := by
  unfold State.watchdogReset
  repeat' (first
    | (with_reducible first | assumption | apply State.advanceTo_since | apply State.warmReset_since)
    | split)

theorem execFatalWatchdogReset_since (s : State) (hs : s.since P) : goodOut P (execFatalWatchdogReset s) := by
  unfold execFatalWatchdogReset
  repeat' with_reducible first | assumption | apply goodOut_next | apply State.watchdogReset_since

theorem execWatchdogPet_since (req : Requester) (v : Word) (s : State) (hs : s.since P)
    : goodOut P (execWatchdogPet req v s) := by
  unfold execWatchdogPet
  repeat' (first | (with_reducible first | assumption | apply goodOut_next | apply State.wdogCtl_since) | split)

theorem execSysErrFatal_since (req : Requester) (v : Word) (s : State) (hs : s.since P)
    : goodOut P (execSysErrFatal req v s) := by
  unfold execSysErrFatal
  repeat' (first | (with_reducible first | assumption | apply goodOut_next | apply State.errCtl_since) | split)

theorem execJtagFatalRequest_since (s : State) (hs : s.since P) : goodOut P (execJtagFatalRequest s) := by
  unfold execJtagFatalRequest
  repeat' with_reducible first | assumption | apply goodOut_next | apply State.fatal_since

theorem State.getFatal_since (s : State) (c : Cmd) (hs : s.since P) : (State.getFatal s c).since P := by
  unfold State.getFatal
  repeat' (first
    | (with_reducible first
        | assumption | apply State.setField_since | apply State.markPast_since | apply State.hostPut_since
        | apply State.finish_since | apply State.flow_since)
    | split)

theorem execGetFatal_since (qp cid : Nat) (s : State) (hs : s.since P) : goodOut P (execGetFatal qp cid s) := by
  unfold execGetFatal
  repeat' with_reducible first
    | assumption | apply goodOut_next | refine State.adminRun_since _ _ _ _ _ ?_ (fun x0 x1 hx => ?_)
    | apply State.getFatal_since

theorem State.setBulkIn_since (s : State) (kind : BulkKind) (b : Option Bytes) (hs : s.since P)
    : (State.setBulkIn s kind b).since P := by
  unfold State.setBulkIn
  repeat' (first | with_reducible assumption | simp -zeta only [↓State.since_mk] | extract_lets +onlyGivenNames t)

theorem State.bulkFatal_since (s : State) (b : Bytes) (hs : s.since P) : (State.bulkFatal s b).since P := by
  unfold State.bulkFatal
  repeat' (first
    | (with_reducible first | assumption | apply State.store_since | apply State.setField_since)
    | extract_lets +onlyGivenNames t | split)

theorem State.bulkWhole_since (s : State) (kind : BulkKind) (b : Bytes) (hs : s.since P)
    : (State.bulkWhole s kind b).since P := by
  unfold State.bulkWhole
  repeat' (first
    | (with_reducible first
        | assumption | apply State.cfgPut_since | apply State.writeSlot_since | apply State.emit_since
        | apply State.putPointer_since | apply State.sendLeave_since | apply State.warmReset_since
        | apply State.bulkFatal_since)
    | simp -zeta only [↓State.since_mk]
    | (extract_lets +onlyGivenNames t; refine State.since_cut (P := P) (t := t) ?_ ?_; all_goals first | (intro ht; clear_value t) | subst t)
    | split)

theorem State.bulk_since (s : State) (kind : BulkKind) (off : Nat) (b : Bytes) (last : Bool) (hs : s.since P)
    : (State.bulk s kind off b last).since P := by
  unfold State.bulk
  repeat' (first
    | (with_reducible first
        | assumption | apply State.mirror_since | apply State.raise_since | apply State.setBulkIn_since
        | apply State.bulkWhole_since)
    | extract_lets +onlyGivenNames t | split)

theorem execBulk_since (kind : BulkKind) (off : Nat) (bytes : Bytes) (last crcOk : Bool) (s : State) (hs : s.since P)
    : goodOut P (execBulk kind off bytes last crcOk s) := by
  unfold execBulk
  repeat' with_reducible first
    | assumption | apply goodOut_next | refine State.mirrorRx_since _ _ _ ?_ (fun x0 hx => ?_) | apply State.bulk_since

theorem State.bulkDone_since (s : State) (x : Bulk) (hs : s.since P) : (State.bulkDone s x).since P := by
  unfold State.bulkDone
  repeat' (first
    | (with_reducible first
        | assumption | apply State.setField_since | apply State.updFatal_since | apply State.warmReset_since
        | apply State.bulkNext_since | apply State.settle_since | apply State.flow_since)
    | (extract_lets +onlyGivenNames t; refine State.since_cut (P := P) (t := t) ?_ ?_; all_goals first | (intro ht; clear_value t) | subst t)
    | split)

theorem State.bulkAck_since (s : State) (kind : BulkKind) (off : Nat) (hs : s.since P)
    : (State.bulkAck s kind off).since P := by
  unfold State.bulkAck
  repeat' (first
    | (with_reducible first | assumption | apply State.bulkDone_since | apply State.bulkNext_since)
    | simp -zeta only [↓State.since_mk] | split)

theorem execBulkAck_since (kind : BulkKind) (off : Nat) (crcOk : Bool) (s : State) (hs : s.since P)
    : goodOut P (execBulkAck kind off crcOk s) := by
  unfold execBulkAck
  repeat' with_reducible first
    | assumption | apply goodOut_next | refine State.mirrorRx_since _ _ _ ?_ (fun x0 hx => ?_)
    | apply State.bulkAck_since

theorem execRefClockLoss_since (s : State) (hs : s.since P) : goodOut P (execRefClockLoss s) := by
  unfold execRefClockLoss
  repeat' with_reducible first | assumption | apply goodOut_next | apply State.fatal_since

theorem execAonClockLoss_since (s : State) (hs : s.since P) : goodOut P (execAonClockLoss s) := by
  unfold execAonClockLoss
  repeat' (first
    | (with_reducible first | assumption | apply goodOut_next | apply State.err_since)
    | simp -zeta only [↓State.since_mk]
    | (extract_lets +onlyGivenNames t; refine State.since_cut (P := P) (t := t) ?_ ?_; all_goals first | (intro ht; clear_value t) | subst t))

theorem State.pllUnlock_since (s : State) (p : PllRef) (hs : s.since P) : (State.pllUnlock s p).since P := by
  unfold State.pllUnlock
  repeat' (first
    | (with_reducible first
        | assumption | apply State.err_since | apply State.linkDown_since | apply State.selfCheck_since
        | apply State.epLinkDown_since | apply State.driveLink_since | refine State.since_foldl ?_ (fun x y hx => ?_))
    | split)

theorem execPllUnlock_since (pll : PllRef) (s : State) (hs : s.since P) : goodOut P (execPllUnlock pll s) := by
  unfold execPllUnlock
  repeat' with_reducible first | assumption | apply goodOut_next | apply State.pllUnlock_since

theorem execSmbusTimeout_since (controller : Nat) (s : State) (hs : s.since P)
    : goodOut P (execSmbusTimeout controller s) := by
  unfold execSmbusTimeout
  repeat' with_reducible first
    | assumption | apply goodOut_next | apply State.err_since | apply State.inBad_since | apply State.emit_since

theorem execHandshakeTimeout_since (isl : Nat) (s : State) (hs : s.since P) : goodOut P (execHandshakeTimeout isl s) := by
  unfold execHandshakeTimeout
  repeat' (first | (with_reducible first | assumption | apply goodOut_next | apply State.fatal_since) | split)

theorem State.showTemp_since (s : State) (hs : s.since P) : (State.showTemp s).since P := by
  unfold State.showTemp
  repeat' with_reducible first | assumption | apply State.setReg_since

theorem State.temperature_since (s : State) (i : Nat) (t : Int) (hs : s.since P) : (State.temperature s i t).since P := by
  unfold State.temperature
  repeat' (first
    | (with_reducible first
        | assumption | apply State.showTemp_since | apply State.err_since | apply State.selfCheck_since
        | apply State.fatal_since)
    | simp -zeta only [↓State.since_mk]
    | (extract_lets +onlyGivenNames t; refine State.since_cut (P := P) (t := t) ?_ ?_; all_goals first | (intro ht; clear_value t) | subst t)
    | extract_lets +onlyGivenNames t | split)

theorem execTemperatureReading_since (sensor : Nat) (quarters : Int) (s : State) (hs : s.since P)
    : goodOut P (execTemperatureReading sensor quarters s) := by
  unfold execTemperatureReading
  repeat' with_reducible first | assumption | apply goodOut_next | apply State.temperature_since

theorem State.supplyOut_since (s : State) (r : Nat) (hs : s.since P) : (State.supplyOut s r).since P := by
  unfold State.supplyOut
  repeat' (first
    | (with_reducible first
        | assumption | apply State.setField_since | apply State.err_since | apply State.selfCheck_since)
    | (extract_lets +onlyGivenNames t; refine State.since_cut (P := P) (t := t) ?_ ?_; all_goals first | (intro ht; clear_value t) | subst t)
    | split)

theorem State.supplyBack_since (s : State) (r : Nat) (hs : s.since P) : (State.supplyBack s r).since P := by
  unfold State.supplyBack
  repeat' (first | (with_reducible first | assumption | apply State.setField_since) | split)

theorem execSupplyOutOfWindow_since (rail : Nat) (s : State) (hs : s.since P)
    : goodOut P (execSupplyOutOfWindow rail s) := by
  unfold execSupplyOutOfWindow
  repeat' with_reducible first | assumption | apply goodOut_next | apply State.supplyOut_since

theorem execSupplyReturnToWindow_since (rail : Nat) (s : State) (hs : s.since P)
    : goodOut P (execSupplyReturnToWindow rail s) := by
  unfold execSupplyReturnToWindow
  repeat' with_reducible first | assumption | apply goodOut_next | apply State.supplyBack_since

theorem execSupplyBelowResetLevel_since (rail : Nat) (s : State) (hs : s.since P)
    : goodOut P (execSupplyBelowResetLevel rail s) := by
  unfold execSupplyBelowResetLevel
  repeat' (first | (with_reducible first | assumption | apply goodOut_next | apply State.coldReset_since) | split)

theorem State.corrected_since (s : State) (hbm : Bool) (hs : s.since P) : (State.corrected s hbm).since P := by
  unfold State.corrected
  repeat' with_reducible first | assumption | apply State.count_since | apply State.err_since

theorem State.contained_since (s : State) (hbm : Bool) (hs : s.since P) : (State.contained s hbm).since P := by
  unfold State.contained
  repeat' with_reducible first | assumption | apply State.count_since | apply State.err_since

theorem State.eccTrap_since (s : State) (e t : Nat) (hs : s.since P) : (State.eccTrap s e t).since P := by
  unfold State.eccTrap
  repeat' (first | (with_reducible first | assumption | apply State.contained_since | apply State.trapTo_since) | split)

theorem State.dropRun_since (s : State) (c : Cmd) (g : Group) (r : ReadRun) (hs : s.since P)
    : (State.dropRun s c g r).since P := by
  unfold State.dropRun
  repeat' (first
    | (with_reducible first
        | assumption | apply State.releaseCells_since | apply State.freeSlice_since | apply State.c0End_since
        | apply State.updCmd_since | refine State.since_foldl ?_ (fun x y hx => ?_))
    | simp -zeta only [↓State.since_mk])

theorem State.readCellError_since (s : State) (c : Cmd) (b pos : Nat) (hbm : Bool) (hs : s.since P)
    : (State.readCellError s c b pos hbm).since P := by
  unfold State.readCellError
  repeat' (first
    | (with_reducible first
        | assumption | apply State.contained_since | apply State.selfCheck_since | apply State.dropRun_since
        | apply State.updCmd_since | apply State.runGo_since | apply State.readEnd_since | apply State.flow_since
        | refine State.since_foldl ?_ (fun x y hx => ?_))
    | (extract_lets +onlyGivenNames t; refine State.since_cut (P := P) (t := t) ?_ ?_; all_goals first | (intro ht; clear_value t) | subst t)
    | extract_lets +onlyGivenNames t | split)

theorem State.writeCellError_since (s : State) (c : Cmd) (b : Nat) (hbm : Bool) (hs : s.since P)
    : (State.writeCellError s c b hbm).since P := by
  unfold State.writeCellError
  repeat' (first
    | (with_reducible first
        | assumption | apply State.selfCheck_since | apply State.fatal_since | apply State.contained_since
        | apply State.updCmd_since | apply State.gathered_since | apply State.pullData_since)
    | split)

theorem State.updEng_since (s : State) (e : Nat) (f : Engine → Engine) (hs : s.since P) : (State.updEng s e f).since P := by
  unfold State.updEng
  repeat' (first | (with_reducible first | assumption | apply State.setEng_since) | split)

theorem State.memoryError_since (s : State) (x : MemSite) (hs : s.since P) : (State.memoryError s x).since P := by
  cases x <;> unfold State.memoryError
  all_goals
    repeat' (first
      | (with_reducible first
          | assumption | apply State.corrected_since | apply State.updEng_since | apply State.setClu_since
          | apply State.eccTrap_since | apply State.readCellError_since | apply State.writeCellError_since
          | apply State.contained_since | apply State.prismLose_since | apply State.count_since
          | apply State.fatal_since | apply State.setReg_since | apply State.raise_since | apply State.trace_since
          | apply State.selfCheck_since)
      | split)

theorem execMemoryError_since (site : MemSite) (s : State) (hs : s.since P) : goodOut P (execMemoryError site s) := by
  unfold execMemoryError
  repeat' with_reducible first | assumption | apply goodOut_next | apply State.memoryError_since

theorem State.rangeOf_since (s : State) (e t : Nat) (n : Need) (l : List (Nat × Nat)) (hs : s.since P) :
    (State.rangeOf s e t n l).1.since P := by
  induction l generalizing s with
  | nil => exact hs
  | cons p l ih =>
    unfold State.rangeOf
    repeat' (first
      | (with_reducible first | assumption | apply State.access_since | apply ih)
      | split | (refine State.since_fst ?_ (by with_reducible assumption)))

theorem State.loadBeats_since (s : State) (e t : Nat) (l : List (Nat × Nat)) (hs : s.since P) :
    (State.loadBeats s e t l).1.since P := by
  induction l generalizing s with
  | nil => exact hs
  | cons p l ih =>
    unfold State.loadBeats
    exact ih _ (State.loadLine_since _ _ _ _ _ hs)

theorem State.accIssue_since (s : State) (e t : Nat) (pd : Fin 8) (ra : Fin 32) (hs : s.since P)
    : goodRes P (State.accIssue s e t pd ra) := by
  unfold State.accIssue
  repeat' (first
    | (with_reducible first
        | assumption | apply goodRes_trap | apply goodRes_retire | apply State.updThr_since | apply State.rangeOf_since
        | apply State.loadBeats_since | apply State.setClu_since | apply State.pmc_since)
    | extract_lets +onlyGivenNames t | split | (refine State.since_fst ?_ (by with_reducible assumption)))

theorem execAcc_since (e t : Nat) (g : Guard) (pd : Fin 8) (ra : Fin 32) (pre : Option Cut) (s : State) (hs : s.since P)
    : goodOut P (execAcc e t g pd ra pre s) := by
  unfold execAcc
  repeat' with_reducible first
    | assumption | apply goodOut_next | refine State.instr_since _ _ _ _ _ _ _ _ ?_ (fun x0 hx => ?_)
    | apply State.accIssue_since

theorem State.updAcc_since (s : State) (c : Nat) (p : AccReq → Bool) (f : AccReq → AccReq) (hs : s.since P)
    : (State.updAcc s c p f).since P := by
  unfold State.updAcc
  repeat' with_reducible first | assumption | apply State.setClu_since

theorem State.ecAssign_since (s : State) (c : Nat) (a : AccReq) (hs : s.since P) : (State.ecAssign s c a).since P := by
  unfold State.ecAssign
  repeat' (first | (with_reducible first | assumption | apply State.takeSlice_since | apply State.updAcc_since) | split)

theorem State.accArbitrate_since (s : State) (c : Nat) (hs : s.since P) : (State.accArbitrate s c).since P := by
  unfold State.accArbitrate
  repeat' (first
    | (with_reducible first
        | assumption | apply State.setClu_since | apply State.pmc_since | apply State.count_since
        | apply State.ecAssign_since)
    | extract_lets +onlyGivenNames t | split)

theorem execAccBusArbitration_since (cluster : Nat) (s : State) (hs : s.since P)
    : goodOut P (execAccBusArbitration cluster s) := by
  unfold execAccBusArbitration
  repeat' (first | (with_reducible first | assumption | apply goodOut_next | apply State.accArbitrate_since) | split)

theorem State.sliceAssign_since (s : State) (hs : s.since P) : (State.sliceAssign s).since P := by
  unfold State.sliceAssign
  repeat' (first
    | (with_reducible first | assumption | apply State.ecAssign_since)
    | refine State.assignStripe_since _ ?_ _ (by with_reducible assumption) | extract_lets +onlyGivenNames t | split)

theorem execSliceAssign_since (s : State) (hs : s.since P) : goodOut P (execSliceAssign s) := by
  unfold execSliceAssign
  repeat' with_reducible first | assumption | apply goodOut_next | apply State.sliceAssign_since

theorem State.ecServe_since (s : State) (c : Nat) (b : Bytes) (hs : s.since P) : (State.ecServe s c b).1.since P := by
  unfold State.ecServe
  repeat' (first
    | (with_reducible first
        | assumption | apply State.count_since | apply State.since_draws
        | refine State.since_foldl ?_ (fun x y hx => ?_))
    | split | dsimp +zetaDelta only)

theorem State.storePieces_since (s : State) (l : List (Nat × Nat)) (b : Bytes) (hs : s.since P) :
    (State.storePieces s l b).since P := by
  induction l generalizing s b with
  | nil => exact hs
  | cons p l ih =>
    unfold State.storePieces
    exact ih _ _ (State.store_since _ _ _ hs)

theorem State.accResult_since (s : State) (e t : Nat) (hs : s.since P) : (State.accResult s e t).since P := by
  unfold State.accResult
  repeat' (first
    | (with_reducible first
        | assumption | apply State.ecServe_since | apply State.storePieces_since | apply State.setClu_since
        | apply State.freeSlice_since | apply State.latch_since | apply State.haltCheck_since | apply State.flow_since)
    | extract_lets +onlyGivenNames t | split)

theorem execAccResult_since (e t : Nat) (s : State) (hs : s.since P) : goodOut P (execAccResult e t s) := by
  unfold execAccResult
  repeat' (first | (with_reducible first | assumption | apply goodOut_next | apply State.accResult_since) | split)

theorem execAlu_since (e t : Nat) (g : Guard) (rd ra rb : Fin 32) (fn : Fin 128) (s : State) (hs : s.since P)
    : goodOut P (execAlu e t g rd ra rb fn s) := by
  unfold execAlu
  repeat' with_reducible first | assumption | apply goodOut_next | apply State.instrRegs_since

theorem State.instrImm_since (s : State) (e t : Nat) (g : Guard) (rd ra : Fin 32) (f : DWord → DWord) (hs : s.since P)
    : (State.instrImm s e t g rd ra f).since P := by
  unfold State.instrImm
  repeat' with_reducible first | assumption | apply State.instrRegs_since

theorem execAddi_since (e t : Nat) (g : Guard) (rd ra : Fin 32) (imm : BitVec 12) (s : State) (hs : s.since P)
    : goodOut P (execAddi e t g rd ra imm s) := by
  unfold execAddi
  repeat' with_reducible first | assumption | apply goodOut_next | apply State.instrImm_since

theorem execAndi_since (e t : Nat) (g : Guard) (rd ra : Fin 32) (imm : BitVec 12) (s : State) (hs : s.since P)
    : goodOut P (execAndi e t g rd ra imm s) := by
  unfold execAndi
  repeat' with_reducible first | assumption | apply goodOut_next | apply State.instrImm_since

theorem execOri_since (e t : Nat) (g : Guard) (rd ra : Fin 32) (imm : BitVec 12) (s : State) (hs : s.since P)
    : goodOut P (execOri e t g rd ra imm s) := by
  unfold execOri
  repeat' with_reducible first | assumption | apply goodOut_next | apply State.instrImm_since

theorem execXori_since (e t : Nat) (g : Guard) (rd ra : Fin 32) (imm : BitVec 12) (s : State) (hs : s.since P)
    : goodOut P (execXori e t g rd ra imm s) := by
  unfold execXori
  repeat' with_reducible first | assumption | apply goodOut_next | apply State.instrImm_since

theorem execShi_since (e t : Nat) (g : Guard) (rd ra : Fin 32) (imm : BitVec 12) (s : State) (hs : s.since P)
    : goodOut P (execShi e t g rd ra imm s) := by
  unfold execShi
  repeat' with_reducible first | assumption | apply goodOut_next | apply State.instrRegs_since

theorem execSeti_since (e t : Nat) (g : Guard) (rd : Fin 32) (imm : BitVec 16) (s : State) (hs : s.since P)
    : goodOut P (execSeti e t g rd imm s) := by
  unfold execSeti
  repeat' with_reducible first | assumption | apply goodOut_next | apply State.instrImm_since

theorem execSetiu_since (e t : Nat) (g : Guard) (rd : Fin 32) (imm : BitVec 16) (s : State) (hs : s.since P)
    : goodOut P (execSetiu e t g rd imm s) := by
  unfold execSetiu
  repeat' with_reducible first | assumption | apply goodOut_next | apply State.instrImm_since

theorem execShin_since (e t : Nat) (g : Guard) (rd : Fin 32) (imm : BitVec 16) (s : State) (hs : s.since P)
    : goodOut P (execShin e t g rd imm s) := by
  unfold execShin
  repeat' with_reducible first | assumption | apply goodOut_next | apply State.instrImm_since

theorem State.branch_since (s : State) (e t : Nat) (link : Option (Fin 32)) (target : DWord) (hs : s.since P)
    : goodRes P (State.branch s e t link target) := by
  unfold State.branch
  repeat' (first
    | (with_reducible first | assumption | apply goodRes_trap | apply goodRes_retire | apply State.setThr_since)
    | split)

theorem execB_since (e t : Nat) (g : Guard) (off : BitVec 22) (s : State) (hs : s.since P)
    : goodOut P (execB e t g off s) := by
  unfold execB
  repeat' with_reducible first
    | assumption | apply goodOut_next | refine State.instr_since _ _ _ _ _ _ _ _ ?_ (fun x0 hx => ?_)
    | apply State.branch_since

theorem execBl_since (e t : Nat) (g : Guard) (off : BitVec 22) (s : State) (hs : s.since P)
    : goodOut P (execBl e t g off s) := by
  unfold execBl
  repeat' with_reducible first
    | assumption | apply goodOut_next | refine State.instr_since _ _ _ _ _ _ _ _ ?_ (fun x0 hx => ?_)
    | apply State.branch_since

theorem execBr_since (e t : Nat) (g : Guard) (ra : Fin 32) (s : State) (hs : s.since P) : goodOut P (execBr e t g ra s) := by
  unfold execBr
  repeat' with_reducible first
    | assumption | apply goodOut_next | refine State.instr_since _ _ _ _ _ _ _ _ ?_ (fun x0 hx => ?_)
    | apply State.branch_since

theorem execBlr_since (e t : Nat) (g : Guard) (rd ra : Fin 32) (s : State) (hs : s.since P)
    : goodOut P (execBlr e t g rd ra s) := by
  unfold execBlr
  repeat' with_reducible first
    | assumption | apply goodOut_next | refine State.instr_since _ _ _ _ _ _ _ _ ?_ (fun x0 hx => ?_)
    | apply State.branch_since

theorem execCmp_since (e t : Nat) (g : Guard) (pd : Fin 8) (ra rb : Fin 32) (fn : Fin 128) (s : State) (hs : s.since P)
    : goodOut P (execCmp e t g pd ra rb fn s) := by
  unfold execCmp
  repeat' with_reducible first | assumption | apply goodOut_next | apply State.instrRegs_since

theorem execCmpi_since (e t : Nat) (g : Guard) (pd cc : Fin 8) (ra : Fin 32) (imm : BitVec 11) (s : State) (hs : s.since P)
    : goodOut P (execCmpi e t g pd cc ra imm s) := by
  unfold execCmpi
  repeat' with_reducible first | assumption | apply goodOut_next | apply State.instrRegs_since

theorem execPlog_since (e t : Nat) (g : Guard) (pd pa pb fn : Fin 8) (s : State) (hs : s.since P)
    : goodOut P (execPlog e t g pd pa pb fn s) := by
  unfold execPlog
  repeat' with_reducible first | assumption | apply goodOut_next | apply State.instrRegs_since

theorem execIllegalWord_since (e t : Nat) (w : Word) (s : State) (hs : s.since P) : goodOut P (execIllegalWord e t w s) := by
  unfold execIllegalWord
  repeat' (first
    | (with_reducible first
        | assumption | apply goodOut_next | apply goodRes_retire
        | refine State.instr_since _ _ _ _ _ _ _ _ ?_ (fun x0 hx => ?_))
    | split)

theorem State.blockOn_since (s : State) (e t : Nat) (a : RegAccess) (hs : s.since P) : (State.blockOn s e t a).since P := by
  unfold State.blockOn
  repeat' with_reducible first | assumption | apply State.updThr_since

theorem State.regLoad_since (s : State) (e t : Nat) (rd : Fin 32) (signed : Bool) (va off : Nat) (al : Option Nat) (hs : s.since P)
    : goodRes P (State.regLoad s e t rd signed va off al) := by
  unfold State.regLoad
  repeat' (first
    | (with_reducible first
        | assumption | apply goodRes_retire | apply goodRes_hold | apply State.readWord_since
        | apply State.updThr_since | apply State.blockOn_since)
    | simp -zeta only [↓State.since_mk] | split)

theorem State.regStore_since (s : State) (e t va off : Nat) (op : RegOp) (hs : s.since P)
    : goodRes P (State.regStore s e t va off op) := by
  unfold State.regStore
  repeat' (first
    | (with_reducible first
        | assumption | apply goodRes_retire | apply goodRes_hold | apply State.fabWrite_since
        | apply State.blockOn_since)
    | extract_lets +onlyGivenNames t | split)

theorem State.loadInstr_since (s : State) (e t : Nat) (g : Guard) (rd ra : Fin 32) (imm : BitVec 12) (n : Nat) (signed : Bool) (hs : s.since P)
    : (State.loadInstr s e t g rd ra imm n signed).since P := by
  unfold State.loadInstr
  repeat' (first
    | (with_reducible first
        | assumption | apply goodRes_trap | apply goodRes_retire
        | refine State.instr_since _ _ _ _ _ _ _ _ ?_ (fun x0 hx => ?_) | apply State.updThr_since
        | apply State.access_since | apply State.regLoad_since | apply State.loadLine_since)
    | extract_lets +onlyGivenNames t | split | (refine State.since_fst ?_ (by with_reducible assumption)))

theorem State.storeInstr_since (s : State) (e t : Nat) (g : Guard) (rd ra : Fin 32) (imm : BitVec 12) (n : Nat) (hs : s.since P)
    : (State.storeInstr s e t g rd ra imm n).since P := by
  unfold State.storeInstr
  repeat' (first
    | (with_reducible first
        | assumption | apply goodRes_trap | apply goodRes_retire
        | refine State.instr_since _ _ _ _ _ _ _ _ ?_ (fun x0 hx => ?_) | apply State.updThr_since
        | apply State.access_since | apply State.regStore_since | apply State.storeLine_since)
    | extract_lets +onlyGivenNames t | split | (refine State.since_fst ?_ (by with_reducible assumption)))

theorem execLb_since (e t : Nat) (g : Guard) (rd ra : Fin 32) (imm : BitVec 12) (s : State) (hs : s.since P)
    : goodOut P (execLb e t g rd ra imm s) := by
  unfold execLb
  repeat' with_reducible first | assumption | apply goodOut_next | apply State.loadInstr_since

theorem execLbu_since (e t : Nat) (g : Guard) (rd ra : Fin 32) (imm : BitVec 12) (s : State) (hs : s.since P)
    : goodOut P (execLbu e t g rd ra imm s) := by
  unfold execLbu
  repeat' with_reducible first | assumption | apply goodOut_next | apply State.loadInstr_since

theorem execLh_since (e t : Nat) (g : Guard) (rd ra : Fin 32) (imm : BitVec 12) (s : State) (hs : s.since P)
    : goodOut P (execLh e t g rd ra imm s) := by
  unfold execLh
  repeat' with_reducible first | assumption | apply goodOut_next | apply State.loadInstr_since

theorem execLhu_since (e t : Nat) (g : Guard) (rd ra : Fin 32) (imm : BitVec 12) (s : State) (hs : s.since P)
    : goodOut P (execLhu e t g rd ra imm s) := by
  unfold execLhu
  repeat' with_reducible first | assumption | apply goodOut_next | apply State.loadInstr_since

theorem execLw_since (e t : Nat) (g : Guard) (rd ra : Fin 32) (imm : BitVec 12) (s : State) (hs : s.since P)
    : goodOut P (execLw e t g rd ra imm s) := by
  unfold execLw
  repeat' with_reducible first | assumption | apply goodOut_next | apply State.loadInstr_since

theorem execLwu_since (e t : Nat) (g : Guard) (rd ra : Fin 32) (imm : BitVec 12) (s : State) (hs : s.since P)
    : goodOut P (execLwu e t g rd ra imm s) := by
  unfold execLwu
  repeat' with_reducible first | assumption | apply goodOut_next | apply State.loadInstr_since

theorem execLd_since (e t : Nat) (g : Guard) (rd ra : Fin 32) (imm : BitVec 12) (s : State) (hs : s.since P)
    : goodOut P (execLd e t g rd ra imm s) := by
  unfold execLd
  repeat' with_reducible first | assumption | apply goodOut_next | apply State.loadInstr_since

theorem execSb_since (e t : Nat) (g : Guard) (rd ra : Fin 32) (imm : BitVec 12) (s : State) (hs : s.since P)
    : goodOut P (execSb e t g rd ra imm s) := by
  unfold execSb
  repeat' with_reducible first | assumption | apply goodOut_next | apply State.storeInstr_since

theorem execSh_since (e t : Nat) (g : Guard) (rd ra : Fin 32) (imm : BitVec 12) (s : State) (hs : s.since P)
    : goodOut P (execSh e t g rd ra imm s) := by
  unfold execSh
  repeat' with_reducible first | assumption | apply goodOut_next | apply State.storeInstr_since

theorem execSw_since (e t : Nat) (g : Guard) (rd ra : Fin 32) (imm : BitVec 12) (s : State) (hs : s.since P)
    : goodOut P (execSw e t g rd ra imm s) := by
  unfold execSw
  repeat' with_reducible first | assumption | apply goodOut_next | apply State.storeInstr_since

theorem execSd_since (e t : Nat) (g : Guard) (rd ra : Fin 32) (imm : BitVec 12) (s : State) (hs : s.since P)
    : goodOut P (execSd e t g rd ra imm s) := by
  unfold execSd
  repeat' with_reducible first | assumption | apply goodOut_next | apply State.storeInstr_since

theorem State.atomInstr_since (s : State) (e t : Nat) (g : Guard) (rd ra rb : Fin 32) (fn : Fin 128) (hs : s.since P)
    : (State.atomInstr s e t g rd ra rb fn).since P := by
  unfold State.atomInstr
  repeat' (first
    | (with_reducible first
        | assumption | apply goodRes_trap | apply goodRes_retire
        | refine State.instr_since _ _ _ _ _ _ _ _ ?_ (fun x0 hx => ?_) | apply State.updThr_since
        | apply State.access_since | apply State.pmc_since | apply State.evict_since | apply State.sramCount_since
        | apply State.store_since)
    | extract_lets +onlyGivenNames t | split | (refine State.since_fst ?_ (by with_reducible assumption)))

theorem execAtom_since (e t : Nat) (g : Guard) (rd ra rb : Fin 32) (fn : Fin 128) (s : State) (hs : s.since P)
    : goodOut P (execAtom e t g rd ra rb fn s) := by
  unfold execAtom
  repeat' with_reducible first | assumption | apply goodOut_next | apply State.atomInstr_since

theorem State.fwWrite_since (s : State) (c : Cmd) (b : Bytes) (hs : s.since P) : (State.fwWrite s c b).since P := by
  unfold State.fwWrite
  repeat' (first
    | (with_reducible first
        | assumption | apply State.writeSlot_since | apply State.emit_since | apply State.sendBulk_since
        | apply State.bothForce_since)
    | split)

theorem execFwDownload_since (qp cid : Nat) (s : State) (hs : s.since P) : goodOut P (execFwDownload qp cid s) := by
  unfold execFwDownload
  repeat' with_reducible first
    | assumption | apply goodOut_next | refine State.adminRun_since _ _ _ _ _ ?_ (fun x0 x1 hx => ?_)
    | refine State.withBuffer_since _ _ _ ?_ (fun x0 x1 x2 hx => ?_) | apply State.fwWrite_since

theorem State.fwPhase_since (s : State) (busy phase cluster : Nat) (hs : s.since P)
    : (State.fwPhase s busy phase cluster).since P := by
  unfold State.fwPhase
  repeat' with_reducible first | assumption | apply State.setField_since

theorem State.setActivation_since (s : State) (a : Activation) (hs : s.since P) : (State.setActivation s a).since P := by
  unfold State.setActivation
  repeat' (first | (with_reducible first | assumption | apply State.fwPhase_since) | simp -zeta only [↓State.since_mk])

theorem State.fwActivate_since (s : State) (c : Cmd) (hs : s.since P) : (State.fwActivate s c).since P := by
  unfold State.fwActivate
  repeat' (first
    | (with_reducible first
        | assumption | apply State.putPointer_since | apply State.sendBulk_since | apply State.bothForce_since
        | apply State.markPast_since | apply State.markWaiting_since | apply State.setField_since
        | apply State.setActivation_since)
    | split)

theorem execFwActivate_since (qp cid : Nat) (s : State) (hs : s.since P) : goodOut P (execFwActivate qp cid s) := by
  unfold execFwActivate
  repeat' with_reducible first
    | assumption | apply goodOut_next | refine State.adminRun_since _ _ _ _ _ ?_ (fun x0 x1 hx => ?_)
    | apply State.fwActivate_since

theorem State.fwEnd_since (s : State) (a : Activation) (result : Nat) (hs : s.since P)
    : (State.fwEnd s a result).since P := by
  unfold State.fwEnd
  repeat' (first
    | (with_reducible first
        | assumption | apply State.fwPhase_since | apply State.setField_since | apply State.finish_since
        | apply State.flow_since | apply State.orderlyStep_since)
    | simp -zeta only [↓State.since_mk] | split)

theorem State.activationStep_since (s : State) (hs : s.since P) : (State.activationStep s).since P := by
  unfold State.activationStep
  repeat' (first
    | (with_reducible first
        | assumption | apply State.fwEnd_since | apply State.setActivation_since | apply State.putPointer_since)
    | split)

theorem State.stallCluster_since (s : State) (k : Nat) (from_ nxt : QpState) (hs : s.since P)
    : (State.stallCluster s k from_ nxt).since P := by
  unfold State.stallCluster
  repeat' with_reducible first | assumption | apply State.updQp_since | refine State.since_foldl ?_ (fun x y hx => ?_)

theorem State.dropText_since (s : State) (k : Nat) (hs : s.since P) : (State.dropText s k).since P := by
  unfold State.dropText
  repeat' (first | with_reducible assumption | simp -zeta only [↓State.since_mk])

theorem State.unpark_since (s : State) (hs : s.since P) : (State.unpark s).since P := by
  unfold State.unpark
  repeat' (first
    | (with_reducible first
        | assumption | apply State.memEnd_since | apply State.postTry_since
        | refine State.since_foldl ?_ (fun x y hx => ?_))
    | simp -zeta only [↓State.since_mk])

theorem State.stallEnd_since (s : State) (a : Activation) (from_ us : Nat) (ok : Bool) (hs : s.since P)
    : (State.stallEnd s a from_ us ok).since P := by
  unfold State.stallEnd
  repeat' (first
    | (with_reducible first
        | assumption | apply State.advanceTo_since | apply State.setActivation_since | apply State.stallCluster_since
        | apply State.unpark_since | apply State.setField_since | apply State.wakeCluster_since
        | apply State.settle_since | apply State.flow_since | apply State.fwEnd_since | apply State.dropText_since
        | apply State.putPointer_since | apply State.sendBulk_since | refine State.since_foldl ?_ (fun x y hx => ?_))
    | extract_lets +onlyGivenNames t | split)

theorem State.clusterSwitch_since (s : State) (ok : Bool) (us : Nat) (hs : s.since P)
    : (State.clusterSwitch s ok us).since P := by
  unfold State.clusterSwitch
  repeat' (first
    | (with_reducible first
        | assumption | apply State.stallEnd_since | apply State.advanceTo_since | apply State.stallCluster_since
        | apply State.dropText_since | apply State.setActivation_since)
    | split)

theorem execClusterSwitch_since (ok : Bool) (stallUs : Nat) (s : State) (hs : s.since P)
    : goodOut P (execClusterSwitch ok stallUs s) := by
  unfold execClusterSwitch
  repeat' with_reducible first | assumption | apply goodOut_next | apply State.clusterSwitch_since

theorem State.stallStep_since (s : State) (hs : s.since P) : (State.stallStep s).since P := by
  unfold State.stallStep
  repeat' (first | (with_reducible first | assumption | apply State.stallEnd_since) | split)

theorem State.tick_since (s : State) (hs : s.since P) : (State.tick s).since P := by
  unfold State.tick
  repeat' with_reducible first
    | assumption | apply State.advance_since | apply State.wireNext_since | apply State.stallStep_since
    | apply State.activationStep_since | apply State.orderlyStep_since

end Sys2Proof.Machine
end

