-- ==== Sys2Proof/Laws/SlotLaws.lean ====
section
/-! SUPPORT. The drive slots' power: presence, faults, supply samples, insertion, inrush and retries. -/

namespace Sys2Proof.Machine

theorem some_getD_match (o : Option Nat) (d : Nat) : (match o with | some t => some t | none => some d) = some (o.getD d) := by
  cases o <;> rfl

end Sys2Proof.Machine
end

