-- ==== Sys2Proof/Laws/StepLaws.lean ====
section
/-! SUPPORT. Each command, from a state that has the invariant, answers one that has it and comes after it. -/

namespace Sys2Proof.Machine

theorem goodOut_of {P : Past} {o : Outcome} (h : goodOut P o) : goodOut P o := h
theorem exec_since {P : Past} (i : Instr) (s : State) (hs : s.since P) : goodOut P (exec i s) := by
  cases i
  case islandReqWrite => refine goodOut_of (o := execIslandReqWrite ..) ?_; with_reducible apply execIslandReqWrite_since; exact hs
  case islandDrainEnd => refine goodOut_of (o := execIslandDrainEnd ..) ?_; with_reducible apply execIslandDrainEnd_since; exact hs
  case islandDrainTimeout => refine goodOut_of (o := execIslandDrainTimeout ..) ?_; with_reducible apply execIslandDrainTimeout_since; exact hs
  case islandPowerUp => refine goodOut_of (o := execIslandPowerUp ..) ?_; with_reducible apply execIslandPowerUp_since; exact hs
  case read => refine goodOut_of (o := execRead ..) ?_; with_reducible apply execRead_since; exact hs
  case write => refine goodOut_of (o := execWrite ..) ?_; with_reducible apply execWrite_since; exact hs
  case flush => refine goodOut_of (o := execFlush ..) ?_; with_reducible apply execFlush_since; exact hs
  case writeZeroes => refine goodOut_of (o := execWriteZeroes ..) ?_; with_reducible apply execWriteZeroes_since; exact hs
  case trim => refine goodOut_of (o := execTrim ..) ?_; with_reducible apply execTrim_since; exact hs
  case abort => refine goodOut_of (o := execAbort ..) ?_; with_reducible apply execAbort_since; exact hs
  case entryFetch => refine goodOut_of (o := execEntryFetch ..) ?_; with_reducible apply execEntryFetch_since; exact hs
  case entryFetchDone => refine goodOut_of (o := execEntryFetchDone ..) ?_; with_reducible apply execEntryFetchDone_since; exact hs
  case createQp => refine goodOut_of (o := execCreateQp ..) ?_; with_reducible apply execCreateQp_since; exact hs
  case deleteQp => refine goodOut_of (o := execDeleteQp ..) ?_; with_reducible apply execDeleteQp_since; exact hs
  case resetQp => refine goodOut_of (o := execResetQp ..) ?_; with_reducible apply execResetQp_since; exact hs
  case qpeInspSel => refine goodOut_of (o := execQpeInspSel ..) ?_; with_reducible apply execQpeInspSel_since; exact hs
  case policerRefill => refine goodOut_of (o := execPolicerRefill ..) ?_; with_reducible apply execPolicerRefill_since; exact hs
  case dispatch => refine goodOut_of (o := execDispatch ..) ?_; with_reducible apply execDispatch_since; exact hs
  case driveIssue => refine goodOut_of (o := execDriveIssue ..) ?_; with_reducible apply execDriveIssue_since; exact hs
  case egressServe => refine goodOut_of (o := execEgressServe ..) ?_; with_reducible apply execEgressServe_since; exact hs
  case setShaper => refine goodOut_of (o := execSetShaper ..) ?_; with_reducible apply execSetShaper_since; exact hs
  case shaperCommit => refine goodOut_of (o := execShaperCommit ..) ?_; with_reducible apply execShaperCommit_since; exact hs
  case clsShpSel => refine goodOut_of (o := execClsShpSel ..) ?_; with_reducible apply execClsShpSel_since; exact hs
  case tenantPolicyPeriod => refine goodOut_of (o := execTenantPolicyPeriod ..) ?_; with_reducible apply execTenantPolicyPeriod_since; exact hs
  case stripeOpen => refine goodOut_of (o := execStripeOpen ..) ?_; with_reducible apply execStripeOpen_since; exact hs
  case memberCompletion => refine goodOut_of (o := execMemberCompletion ..) ?_; with_reducible apply execMemberCompletion_since; exact hs
  case stagingReserve => refine goodOut_of (o := execStagingReserve ..) ?_; with_reducible apply execStagingReserve_since; exact hs
  case sliceAssign => refine goodOut_of (o := execSliceAssign ..) ?_; with_reducible apply execSliceAssign_since; exact hs
  case windowRegionIdle => refine goodOut_of (o := execWindowRegionIdle ..) ?_; with_reducible apply execWindowRegionIdle_since; exact hs
  case createGroup => refine goodOut_of (o := execCreateGroup ..) ?_; with_reducible apply execCreateGroup_since; exact hs
  case deleteGroup => refine goodOut_of (o := execDeleteGroup ..) ?_; with_reducible apply execDeleteGroup_since; exact hs
  case createVolume => refine goodOut_of (o := execCreateVolume ..) ?_; with_reducible apply execCreateVolume_since; exact hs
  case deleteVolume => refine goodOut_of (o := execDeleteVolume ..) ?_; with_reducible apply execDeleteVolume_since; exact hs
  case identifyVolume => refine goodOut_of (o := execIdentifyVolume ..) ?_; with_reducible apply execIdentifyVolume_since; exact hs
  case identifyGroup => refine goodOut_of (o := execIdentifyGroup ..) ?_; with_reducible apply execIdentifyGroup_since; exact hs
  case strRowSel => refine goodOut_of (o := execStrRowSel ..) ?_; with_reducible apply execStrRowSel_since; exact hs
  case zeroingStripe => refine goodOut_of (o := execZeroingStripe ..) ?_; with_reducible apply execZeroingStripe_since; exact hs
  case memberCommandTimeout => refine goodOut_of (o := execMemberCommandTimeout ..) ?_; with_reducible apply execMemberCommandTimeout_since; exact hs
  case driveLinkDownTimeout => refine goodOut_of (o := execDriveLinkDownTimeout ..) ?_; with_reducible apply execDriveLinkDownTimeout_since; exact hs
  case driveCriticalWarning => refine goodOut_of (o := execDriveCriticalWarning ..) ?_; with_reducible apply execDriveCriticalWarning_since; exact hs
  case rebuildStripe => refine goodOut_of (o := execRebuildStripe ..) ?_; with_reducible apply execRebuildStripe_since; exact hs
  case refillPosition => refine goodOut_of (o := execRefillPosition ..) ?_; with_reducible apply execRefillPosition_since; exact hs
  case relocationSweepPeriod => refine goodOut_of (o := execRelocationSweepPeriod ..) ?_; with_reducible apply execRelocationSweepPeriod_since; exact hs
  case resyncStripe => refine goodOut_of (o := execResyncStripe ..) ?_; with_reducible apply execResyncStripe_since; exact hs
  case deltaResyncStripe => refine goodOut_of (o := execDeltaResyncStripe ..) ?_; with_reducible apply execDeltaResyncStripe_since; exact hs
  case repairBlock => refine goodOut_of (o := execRepairBlock ..) ?_; with_reducible apply execRepairBlock_since; exact hs
  case lanternStripe => refine goodOut_of (o := execLanternStripe ..) ?_; with_reducible apply execLanternStripe_since; exact hs
  case lntRestart => refine goodOut_of (o := execLntRestart ..) ?_; with_reducible apply execLntRestart_since; exact hs
  case rebuildPacingRefill => refine goodOut_of (o := execRebuildPacingRefill ..) ?_; with_reducible apply execRebuildPacingRefill_since; exact hs
  case driveReady => refine goodOut_of (o := execDriveReady ..) ?_; with_reducible apply execDriveReady_since; exact hs
  case assemblyDeadline => refine goodOut_of (o := execAssemblyDeadline ..) ?_; with_reducible apply execAssemblyDeadline_since; exact hs
  case memberControl => refine goodOut_of (o := execMemberControl ..) ?_; with_reducible apply execMemberControl_since; exact hs
  case listBlocks => refine goodOut_of (o := execListBlocks ..) ?_; with_reducible apply execListBlocks_since; exact hs
  case frameReceive => refine goodOut_of (o := execFrameReceive ..) ?_; with_reducible apply execFrameReceive_since; exact hs
  case pfcFrameReceive => refine goodOut_of (o := execPfcFrameReceive ..) ?_; with_reducible apply execPfcFrameReceive_since; exact hs
  case pfcPauseExpire => refine goodOut_of (o := execPfcPauseExpire ..) ?_; with_reducible apply execPfcPauseExpire_since; exact hs
  case pfcXoffRepeat => refine goodOut_of (o := execPfcXoffRepeat ..) ?_; with_reducible apply execPfcXoffRepeat_since; exact hs
  case pfcWatchdogTrip => refine goodOut_of (o := execPfcWatchdogTrip ..) ?_; with_reducible apply execPfcWatchdogTrip_since; exact hs
  case pfcWatchdogClear => refine goodOut_of (o := execPfcWatchdogClear ..) ?_; with_reducible apply execPfcWatchdogClear_since; exact hs
  case networkLinkChange => refine goodOut_of (o := execNetworkLinkChange ..) ?_; with_reducible apply execNetworkLinkChange_since; exact hs
  case addressAnnounce => refine goodOut_of (o := execAddressAnnounce ..) ?_; with_reducible apply execAddressAnnounce_since; exact hs
  case setAddress => refine goodOut_of (o := execSetAddress ..) ?_; with_reducible apply execSetAddress_since; exact hs
  case roceAllow => refine goodOut_of (o := execRoceAllow ..) ?_; with_reducible apply execRoceAllow_since; exact hs
  case cmReq => refine goodOut_of (o := execCmReq ..) ?_; with_reducible apply execCmReq_since; exact hs
  case cmDreq => refine goodOut_of (o := execCmDreq ..) ?_; with_reducible apply execCmDreq_since; exact hs
  case fabricsConnect => refine goodOut_of (o := execFabricsConnect ..) ?_; with_reducible apply execFabricsConnect_since; exact hs
  case propertyGet => refine goodOut_of (o := execPropertyGet ..) ?_; with_reducible apply execPropertyGet_since; exact hs
  case propertySet => refine goodOut_of (o := execPropertySet ..) ?_; with_reducible apply execPropertySet_since; exact hs
  case nvmeofIdentify => refine goodOut_of (o := execNvmeofIdentify ..) ?_; with_reducible apply execNvmeofIdentify_since; exact hs
  case getFeatures => refine goodOut_of (o := execGetFeatures ..) ?_; with_reducible apply execGetFeatures_since; exact hs
  case setFeatures => refine goodOut_of (o := execSetFeatures ..) ?_; with_reducible apply execSetFeatures_since; exact hs
  case keepAlive => refine goodOut_of (o := execKeepAlive ..) ?_; with_reducible apply execKeepAlive_since; exact hs
  case nvmeofAbort => refine goodOut_of (o := execNvmeofAbort ..) ?_; with_reducible apply execNvmeofAbort_since; exact hs
  case keepAliveTimeout => refine goodOut_of (o := execKeepAliveTimeout ..) ?_; with_reducible apply execKeepAliveTimeout_since; exact hs
  case roceCommandCapsule => refine goodOut_of (o := execRoceCommandCapsule ..) ?_; with_reducible apply execRoceCommandCapsule_since; exact hs
  case dsmRangeArrive => refine goodOut_of (o := execDsmRangeArrive ..) ?_; with_reducible apply execDsmRangeArrive_since; exact hs
  case roceRemoteAccess => refine goodOut_of (o := execRoceRemoteAccess ..) ?_; with_reducible apply execRoceRemoteAccess_since; exact hs
  case roceAckReceive => refine goodOut_of (o := execRoceAckReceive ..) ?_; with_reducible apply execRoceAckReceive_since; exact hs
  case roceReadResponse => refine goodOut_of (o := execRoceReadResponse ..) ?_; with_reducible apply execRoceReadResponse_since; exact hs
  case roceAckTimeout => refine goodOut_of (o := execRoceAckTimeout ..) ?_; with_reducible apply execRoceAckTimeout_since; exact hs
  case doorbell => refine goodOut_of (o := execDoorbell ..) ?_; with_reducible apply execDoorbell_since; exact hs
  case doorbellInline => refine goodOut_of (o := execDoorbellInline ..) ?_; with_reducible apply execDoorbellInline_since; exact hs
  case fetchResp => refine goodOut_of (o := execFetchResp ..) ?_; with_reducible apply execFetchResp_since; exact hs
  case data => refine goodOut_of (o := execData ..) ?_; with_reducible apply execData_since; exact hs
  case credit => refine goodOut_of (o := execCredit ..) ?_; with_reducible apply execCredit_since; exact hs
  case keepalive => refine goodOut_of (o := execKeepalive ..) ?_; with_reducible apply execKeepalive_since; exact hs
  case odtRetransmit => refine goodOut_of (o := execOdtRetransmit ..) ?_; with_reducible apply execOdtRetransmit_since; exact hs
  case odtFetchRetry => refine goodOut_of (o := execOdtFetchRetry ..) ?_; with_reducible apply execOdtFetchRetry_since; exact hs
  case odtKeepaliveSend => refine goodOut_of (o := execOdtKeepaliveSend ..) ?_; with_reducible apply execOdtKeepaliveSend_since; exact hs
  case odtHostSilence => refine goodOut_of (o := execOdtHostSilence ..) ?_; with_reducible apply execOdtHostSilence_since; exact hs
  case odtResumeExpire => refine goodOut_of (o := execOdtResumeExpire ..) ?_; with_reducible apply execOdtResumeExpire_since; exact hs
  case odtOpeningExpire => refine goodOut_of (o := execOdtOpeningExpire ..) ?_; with_reducible apply execOdtOpeningExpire_since; exact hs
  case odtConnect => refine goodOut_of (o := execOdtConnect ..) ?_; with_reducible apply execOdtConnect_since; exact hs
  case odtClose => refine goodOut_of (o := execOdtClose ..) ?_; with_reducible apply execOdtClose_since; exact hs
  case netOdtSel => refine goodOut_of (o := execNetOdtSel ..) ?_; with_reducible apply execNetOdtSel_since; exact hs
  case sqTailDb => refine goodOut_of (o := execSqTailDb ..) ?_; with_reducible apply execSqTailDb_since; exact hs
  case cqHeadDb => refine goodOut_of (o := execCqHeadDb ..) ?_; with_reducible apply execCqHeadDb_since; exact hs
  case inlEntry => refine goodOut_of (o := execInlEntry ..) ?_; with_reducible apply execInlEntry_since; exact hs
  case unsupportedRequest => refine goodOut_of (o := execUnsupportedRequest ..) ?_; with_reducible apply execUnsupportedRequest_since; exact hs
  case peerWindowTlp => refine goodOut_of (o := execPeerWindowTlp ..) ?_; with_reducible apply execPeerWindowTlp_since; exact hs
  case epfWinCommit => refine goodOut_of (o := execEpfWinCommit ..) ?_; with_reducible apply execEpfWinCommit_since; exact hs
  case busMasterDisable => refine goodOut_of (o := execBusMasterDisable ..) ?_; with_reducible apply execBusMasterDisable_since; exact hs
  case d3hotEntry => refine goodOut_of (o := execD3hotEntry ..) ?_; with_reducible apply execD3hotEntry_since; exact hs
  case functionLevelReset => refine goodOut_of (o := execFunctionLevelReset ..) ?_; with_reducible apply execFunctionLevelReset_since; exact hs
  case vfDisable => refine goodOut_of (o := execVfDisable ..) ?_; with_reducible apply execVfDisable_since; exact hs
  case endpointLinkLoss => refine goodOut_of (o := execEndpointLinkLoss ..) ?_; with_reducible apply execEndpointLinkLoss_since; exact hs
  case epPerstAssert => refine goodOut_of (o := execEpPerstAssert ..) ?_; with_reducible apply execEpPerstAssert_since; exact hs
  case dmaCompletionTlp => refine goodOut_of (o := execDmaCompletionTlp ..) ?_; with_reducible apply execDmaCompletionTlp_since; exact hs
  case completionTimeout => refine goodOut_of (o := execCompletionTimeout ..) ?_; with_reducible apply execCompletionTimeout_since; exact hs
  case tagRelease => refine goodOut_of (o := execTagRelease ..) ?_; with_reducible apply execTagRelease_since; exact hs
  case msixUnmask => refine goodOut_of (o := execMsixUnmask ..) ?_; with_reducible apply execMsixUnmask_since; exact hs
  case crossbarSlot => refine goodOut_of (o := execCrossbarSlot ..) ?_; with_reducible apply execCrossbarSlot_since; exact hs
  case c0PoolReserve => refine goodOut_of (o := execC0PoolReserve ..) ?_; with_reducible apply execC0PoolReserve_since; exact hs
  case accBusArbitration => refine goodOut_of (o := execAccBusArbitration ..) ?_; with_reducible apply execAccBusArbitration_since; exact hs
  case prismEnable => refine goodOut_of (o := execPrismEnable ..) ?_; with_reducible apply execPrismEnable_since; exact hs
  case xbrPartSel => refine goodOut_of (o := execXbrPartSel ..) ?_; with_reducible apply execXbrPartSel_since; exact hs
  case loadKek => refine goodOut_of (o := execLoadKek ..) ?_; with_reducible apply execLoadKek_since; exact hs
  case loadKey => refine goodOut_of (o := execLoadKey ..) ?_; with_reducible apply execLoadKey_since; exact hs
  case rekeyWalkStripe => refine goodOut_of (o := execRekeyWalkStripe ..) ?_; with_reducible apply execRekeyWalkStripe_since; exact hs
  case cphKeySel => refine goodOut_of (o := execCphKeySel ..) ?_; with_reducible apply execCphKeySel_since; exact hs
  case alu => refine goodOut_of (o := execAlu ..) ?_; with_reducible apply execAlu_since; exact hs
  case addi => refine goodOut_of (o := execAddi ..) ?_; with_reducible apply execAddi_since; exact hs
  case andi => refine goodOut_of (o := execAndi ..) ?_; with_reducible apply execAndi_since; exact hs
  case ori => refine goodOut_of (o := execOri ..) ?_; with_reducible apply execOri_since; exact hs
  case xori => refine goodOut_of (o := execXori ..) ?_; with_reducible apply execXori_since; exact hs
  case shi => refine goodOut_of (o := execShi ..) ?_; with_reducible apply execShi_since; exact hs
  case seti => refine goodOut_of (o := execSeti ..) ?_; with_reducible apply execSeti_since; exact hs
  case setiu => refine goodOut_of (o := execSetiu ..) ?_; with_reducible apply execSetiu_since; exact hs
  case shin => refine goodOut_of (o := execShin ..) ?_; with_reducible apply execShin_since; exact hs
  case lb => refine goodOut_of (o := execLb ..) ?_; with_reducible apply execLb_since; exact hs
  case lbu => refine goodOut_of (o := execLbu ..) ?_; with_reducible apply execLbu_since; exact hs
  case lh => refine goodOut_of (o := execLh ..) ?_; with_reducible apply execLh_since; exact hs
  case lhu => refine goodOut_of (o := execLhu ..) ?_; with_reducible apply execLhu_since; exact hs
  case lw => refine goodOut_of (o := execLw ..) ?_; with_reducible apply execLw_since; exact hs
  case lwu => refine goodOut_of (o := execLwu ..) ?_; with_reducible apply execLwu_since; exact hs
  case ld => refine goodOut_of (o := execLd ..) ?_; with_reducible apply execLd_since; exact hs
  case sb => refine goodOut_of (o := execSb ..) ?_; with_reducible apply execSb_since; exact hs
  case sh => refine goodOut_of (o := execSh ..) ?_; with_reducible apply execSh_since; exact hs
  case sw => refine goodOut_of (o := execSw ..) ?_; with_reducible apply execSw_since; exact hs
  case sd => refine goodOut_of (o := execSd ..) ?_; with_reducible apply execSd_since; exact hs
  case atom => refine goodOut_of (o := execAtom ..) ?_; with_reducible apply execAtom_since; exact hs
  case b => refine goodOut_of (o := execB ..) ?_; with_reducible apply execB_since; exact hs
  case bl => refine goodOut_of (o := execBl ..) ?_; with_reducible apply execBl_since; exact hs
  case br => refine goodOut_of (o := execBr ..) ?_; with_reducible apply execBr_since; exact hs
  case blr => refine goodOut_of (o := execBlr ..) ?_; with_reducible apply execBlr_since; exact hs
  case cmp => refine goodOut_of (o := execCmp ..) ?_; with_reducible apply execCmp_since; exact hs
  case cmpi => refine goodOut_of (o := execCmpi ..) ?_; with_reducible apply execCmpi_since; exact hs
  case plog => refine goodOut_of (o := execPlog ..) ?_; with_reducible apply execPlog_since; exact hs
  case qpop => refine goodOut_of (o := execQpop ..) ?_; with_reducible apply execQpop_since; exact hs
  case qpush => refine goodOut_of (o := execQpush ..) ?_; with_reducible apply execQpush_since; exact hs
  case qhook => refine goodOut_of (o := execQhook ..) ?_; with_reducible apply execQhook_since; exact hs
  case dmad => refine goodOut_of (o := execDmad ..) ?_; with_reducible apply execDmad_since; exact hs
  case acc => refine goodOut_of (o := execAcc ..) ?_; with_reducible apply execAcc_since; exact hs
  case wait => refine goodOut_of (o := execWait ..) ?_; with_reducible apply execWait_since; exact hs
  case yield => refine goodOut_of (o := execYield ..) ?_; with_reducible apply execYield_since; exact hs
  case getc => refine goodOut_of (o := execGetc ..) ?_; with_reducible apply execGetc_since; exact hs
  case putc => refine goodOut_of (o := execPutc ..) ?_; with_reducible apply execPutc_since; exact hs
  case swpc => refine goodOut_of (o := execSwpc ..) ?_; with_reducible apply execSwpc_since; exact hs
  case bitc => refine goodOut_of (o := execBitc ..) ?_; with_reducible apply execBitc_since; exact hs
  case trap => refine goodOut_of (o := execTrap ..) ?_; with_reducible apply execTrap_since; exact hs
  case eret => refine goodOut_of (o := execEret ..) ?_; with_reducible apply execEret_since; exact hs
  case fence => refine goodOut_of (o := execFence ..) ?_; with_reducible apply execFence_since; exact hs
  case illegalWord => refine goodOut_of (o := execIllegalWord ..) ?_; with_reducible apply execIllegalWord_since; exact hs
  case descriptorEnd => refine goodOut_of (o := execDescriptorEnd ..) ?_; with_reducible apply execDescriptorEnd_since; exact hs
  case dmaFaultTrap => refine goodOut_of (o := execDmaFaultTrap ..) ?_; with_reducible apply execDmaFaultTrap_since; exact hs
  case accResult => refine goodOut_of (o := execAccResult ..) ?_; with_reducible apply execAccResult_since; exact hs
  case timerEvent => refine goodOut_of (o := execTimerEvent ..) ?_; with_reducible apply execTimerEvent_since; exact hs
  case setSigner => refine goodOut_of (o := execSetSigner ..) ?_; with_reducible apply execSetSigner_since; exact hs
  case loadExt => refine goodOut_of (o := execLoadExt ..) ?_; with_reducible apply execLoadExt_since; exact hs
  case attachHook => refine goodOut_of (o := execAttachHook ..) ?_; with_reducible apply execAttachHook_since; exact hs
  case detachHook => refine goodOut_of (o := execDetachHook ..) ?_; with_reducible apply execDetachHook_since; exact hs
  case unloadExt => refine goodOut_of (o := execUnloadExt ..) ?_; with_reducible apply execUnloadExt_since; exact hs
  case fctThrSel => refine goodOut_of (o := execFctThrSel ..) ?_; with_reducible apply execFctThrSel_since; exact hs
  case pmcSampleEnable => refine goodOut_of (o := execPmcSampleEnable ..) ?_; with_reducible apply execPmcSampleEnable_since; exact hs
  case mmuInvalidate => refine goodOut_of (o := execMmuInvalidate ..) ?_; with_reducible apply execMmuInvalidate_since; exact hs
  case invalidationComplete => refine goodOut_of (o := execInvalidationComplete ..) ?_; with_reducible apply execInvalidationComplete_since; exact hs
  case regKey => refine goodOut_of (o := execRegKey ..) ?_; with_reducible apply execRegKey_since; exact hs
  case deregKey => refine goodOut_of (o := execDeregKey ..) ?_; with_reducible apply execDeregKey_since; exact hs
  case hello => refine goodOut_of (o := execHello ..) ?_; with_reducible apply execHello_since; exact hs
  case helloSend => refine goodOut_of (o := execHelloSend ..) ?_; with_reducible apply execHelloSend_since; exact hs
  case pairingTimeout => refine goodOut_of (o := execPairingTimeout ..) ?_; with_reducible apply execPairingTimeout_since; exact hs
  case epochEnd => refine goodOut_of (o := execEpochEnd ..) ?_; with_reducible apply execEpochEnd_since; exact hs
  case renew => refine goodOut_of (o := execRenew ..) ?_; with_reducible apply execRenew_since; exact hs
  case renewAck => refine goodOut_of (o := execRenewAck ..) ?_; with_reducible apply execRenewAck_since; exact hs
  case lines => refine goodOut_of (o := execLines ..) ?_; with_reducible apply execLines_since; exact hs
  case commit => refine goodOut_of (o := execCommit ..) ?_; with_reducible apply execCommit_since; exact hs
  case copyAck => refine goodOut_of (o := execCopyAck ..) ?_; with_reducible apply execCopyAck_since; exact hs
  case log => refine goodOut_of (o := execLog ..) ?_; with_reducible apply execLog_since; exact hs
  case logAck => refine goodOut_of (o := execLogAck ..) ?_; with_reducible apply execLogAck_since; exact hs
  case logResend => refine goodOut_of (o := execLogResend ..) ?_; with_reducible apply execLogResend_since; exact hs
  case release => refine goodOut_of (o := execRelease ..) ?_; with_reducible apply execRelease_since; exact hs
  case leave => refine goodOut_of (o := execLeave ..) ?_; with_reducible apply execLeave_since; exact hs
  case bulk => refine goodOut_of (o := execBulk ..) ?_; with_reducible apply execBulk_since; exact hs
  case bulkAck => refine goodOut_of (o := execBulkAck ..) ?_; with_reducible apply execBulkAck_since; exact hs
  case activeLeaseExpire => refine goodOut_of (o := execActiveLeaseExpire ..) ?_; with_reducible apply execActiveLeaseExpire_since; exact hs
  case shadowLeaseExpire => refine goodOut_of (o := execShadowLeaseExpire ..) ?_; with_reducible apply execShadowLeaseExpire_since; exact hs
  case tieBreakWait => refine goodOut_of (o := execTieBreakWait ..) ?_; with_reducible apply execTieBreakWait_since; exact hs
  case arbiterPreemptDone => refine goodOut_of (o := execArbiterPreemptDone ..) ?_; with_reducible apply execArbiterPreemptDone_since; exact hs
  case reservationAcquireTimeout => refine goodOut_of (o := execReservationAcquireTimeout ..) ?_; with_reducible apply execReservationAcquireTimeout_since; exact hs
  case shdCtlRelease => refine goodOut_of (o := execShdCtlRelease ..) ?_; with_reducible apply execShdCtlRelease_since; exact hs
  case shdCtlLeave => refine goodOut_of (o := execShdCtlLeave ..) ?_; with_reducible apply execShdCtlLeave_since; exact hs
  case mirrorLinkLoss => refine goodOut_of (o := execMirrorLinkLoss ..) ?_; with_reducible apply execMirrorLinkLoss_since; exact hs
  case glimmerSleep => refine goodOut_of (o := execGlimmerSleep ..) ?_; with_reducible apply execGlimmerSleep_since; exact hs
  case glimmerSleepEnter => refine goodOut_of (o := execGlimmerSleepEnter ..) ?_; with_reducible apply execGlimmerSleepEnter_since; exact hs
  case glimmerTimer => refine goodOut_of (o := execGlimmerTimer ..) ?_; with_reducible apply execGlimmerTimer_since; exact hs
  case presenceEdge => refine goodOut_of (o := execPresenceEdge ..) ?_; with_reducible apply execPresenceEdge_since; exact hs
  case presenceLost => refine goodOut_of (o := execPresenceLost ..) ?_; with_reducible apply execPresenceLost_since; exact hs
  case fastTrip => refine goodOut_of (o := execFastTrip ..) ?_; with_reducible apply execFastTrip_since; exact hs
  case faultTimerExpire => refine goodOut_of (o := execFaultTimerExpire ..) ?_; with_reducible apply execFaultTimerExpire_since; exact hs
  case rampTimeout => refine goodOut_of (o := execRampTimeout ..) ?_; with_reducible apply execRampTimeout_since; exact hs
  case rampComplete => refine goodOut_of (o := execRampComplete ..) ?_; with_reducible apply execRampComplete_since; exact hs
  case powerGoodLost => refine goodOut_of (o := execPowerGoodLost ..) ?_; with_reducible apply execPowerGoodLost_since; exact hs
  case railGroupGood => refine goodOut_of (o := execRailGroupGood ..) ?_; with_reducible apply execRailGroupGood_since; exact hs
  case railGroupNotGood => refine goodOut_of (o := execRailGroupNotGood ..) ?_; with_reducible apply execRailGroupNotGood_since; exact hs
  case insertDelayExpire => refine goodOut_of (o := execInsertDelayExpire ..) ?_; with_reducible apply execInsertDelayExpire_since; exact hs
  case rampStart => refine goodOut_of (o := execRampStart ..) ?_; with_reducible apply execRampStart_since; exact hs
  case retryExpire => refine goodOut_of (o := execRetryExpire ..) ?_; with_reducible apply execRetryExpire_since; exact hs
  case peerHoldDetect => refine goodOut_of (o := execPeerHoldDetect ..) ?_; with_reducible apply execPeerHoldDetect_since; exact hs
  case shutdownComplete => refine goodOut_of (o := execShutdownComplete ..) ?_; with_reducible apply execShutdownComplete_since; exact hs
  case rootPortTrainStart => refine goodOut_of (o := execRootPortTrainStart ..) ?_; with_reducible apply execRootPortTrainStart_since; exact hs
  case slotControl => refine goodOut_of (o := execSlotControl ..) ?_; with_reducible apply execSlotControl_since; exact hs
  case spmSlotCycle => refine goodOut_of (o := execSpmSlotCycle ..) ?_; with_reducible apply execSpmSlotCycle_since; exact hs
  case spmSlotRelease => refine goodOut_of (o := execSpmSlotRelease ..) ?_; with_reducible apply execSpmSlotRelease_since; exact hs
  case registerWrite => refine goodOut_of (o := execRegisterWrite ..) ?_; with_reducible apply execRegisterWrite_since; exact hs
  case rcRead => refine goodOut_of (o := execRcRead ..) ?_; with_reducible apply execRcRead_since; exact hs
  case aliasWrite => refine goodOut_of (o := execAliasWrite ..) ?_; with_reducible apply execAliasWrite_since; exact hs
  case postedWriteApply => refine goodOut_of (o := execPostedWriteApply ..) ?_; with_reducible apply execPostedWriteApply_since; exact hs
  case sysWsync => refine goodOut_of (o := execSysWsync ..) ?_; with_reducible apply execSysWsync_since; exact hs
  case busErrorTimeout => refine goodOut_of (o := execBusErrorTimeout ..) ?_; with_reducible apply execBusErrorTimeout_since; exact hs
  case sysMode => refine goodOut_of (o := execSysMode ..) ?_; with_reducible apply execSysMode_since; exact hs
  case sysSnap => refine goodOut_of (o := execSysSnap ..) ?_; with_reducible apply execSysSnap_since; exact hs
  case snapshotCapture => refine goodOut_of (o := execSnapshotCapture ..) ?_; with_reducible apply execSnapshotCapture_since; exact hs
  case icuClaim => refine goodOut_of (o := execIcuClaim ..) ?_; with_reducible apply execIcuClaim_since; exact hs
  case icuEoi => refine goodOut_of (o := execIcuEoi ..) ?_; with_reducible apply execIcuEoi_since; exact hs
  case icuMaskSet => refine goodOut_of (o := execIcuMaskSet ..) ?_; with_reducible apply execIcuMaskSet_since; exact hs
  case icuMaskClr => refine goodOut_of (o := execIcuMaskClr ..) ?_; with_reducible apply execIcuMaskClr_since; exact hs
  case icuPendSet => refine goodOut_of (o := execIcuPendSet ..) ?_; with_reducible apply execIcuPendSet_since; exact hs
  case icuPendClr => refine goodOut_of (o := execIcuPendClr ..) ?_; with_reducible apply execIcuPendClr_since; exact hs
  case ppsEdge => refine goodOut_of (o := execPpsEdge ..) ?_; with_reducible apply execPpsEdge_since; exact hs
  case ppsWindowClose => refine goodOut_of (o := execPpsWindowClose ..) ?_; with_reducible apply execPpsWindowClose_since; exact hs
  case rateSecond => refine goodOut_of (o := execRateSecond ..) ?_; with_reducible apply execRateSecond_since; exact hs
  case ppsDisable => refine goodOut_of (o := execPpsDisable ..) ?_; with_reducible apply execPpsDisable_since; exact hs
  case porstN => refine goodOut_of (o := execPorstN ..) ?_; with_reducible apply execPorstN_since; exact hs
  case warmRstN => refine goodOut_of (o := execWarmRstN ..) ?_; with_reducible apply execWarmRstN_since; exact hs
  case sysRstWarm => refine goodOut_of (o := execSysRstWarm ..) ?_; with_reducible apply execSysRstWarm_since; exact hs
  case sysRstOrderly => refine goodOut_of (o := execSysRstOrderly ..) ?_; with_reducible apply execSysRstOrderly_since; exact hs
  case resetController => refine goodOut_of (o := execResetController ..) ?_; with_reducible apply execResetController_since; exact hs
  case fwDownload => refine goodOut_of (o := execFwDownload ..) ?_; with_reducible apply execFwDownload_since; exact hs
  case fwActivate => refine goodOut_of (o := execFwActivate ..) ?_; with_reducible apply execFwActivate_since; exact hs
  case clusterSwitch => refine goodOut_of (o := execClusterSwitch ..) ?_; with_reducible apply execClusterSwitch_since; exact hs
  case uartAdminLine => refine goodOut_of (o := execUartAdminLine ..) ?_; with_reducible apply execUartAdminLine_since; exact hs
  case uartLineTimeout => refine goodOut_of (o := execUartLineTimeout ..) ?_; with_reducible apply execUartLineTimeout_since; exact hs
  case configRecordWritten => refine goodOut_of (o := execConfigRecordWritten ..) ?_; with_reducible apply execConfigRecordWritten_since; exact hs
  case sysErrFatal => refine goodOut_of (o := execSysErrFatal ..) ?_; with_reducible apply execSysErrFatal_since; exact hs
  case watchdogExpire => refine goodOut_of (o := execWatchdogExpire ..) ?_; with_reducible apply execWatchdogExpire_since; exact hs
  case watchdogPet => refine goodOut_of (o := execWatchdogPet ..) ?_; with_reducible apply execWatchdogPet_since; exact hs
  case temperatureReading => refine goodOut_of (o := execTemperatureReading ..) ?_; with_reducible apply execTemperatureReading_since; exact hs
  case refClockLoss => refine goodOut_of (o := execRefClockLoss ..) ?_; with_reducible apply execRefClockLoss_since; exact hs
  case aonClockLoss => refine goodOut_of (o := execAonClockLoss ..) ?_; with_reducible apply execAonClockLoss_since; exact hs
  case pllUnlock => refine goodOut_of (o := execPllUnlock ..) ?_; with_reducible apply execPllUnlock_since; exact hs
  case smbusTimeout => refine goodOut_of (o := execSmbusTimeout ..) ?_; with_reducible apply execSmbusTimeout_since; exact hs
  case handshakeTimeout => refine goodOut_of (o := execHandshakeTimeout ..) ?_; with_reducible apply execHandshakeTimeout_since; exact hs
  case memoryError => refine goodOut_of (o := execMemoryError ..) ?_; with_reducible apply execMemoryError_since; exact hs
  case fatalImageComplete => refine goodOut_of (o := execFatalImageComplete ..) ?_; with_reducible apply execFatalImageComplete_since; exact hs
  case fatalResetTimer => refine goodOut_of (o := execFatalResetTimer ..) ?_; with_reducible apply execFatalResetTimer_since; exact hs
  case fatalWatchdogReset => refine goodOut_of (o := execFatalWatchdogReset ..) ?_; with_reducible apply execFatalWatchdogReset_since; exact hs
  case getFatal => refine goodOut_of (o := execGetFatal ..) ?_; with_reducible apply execGetFatal_since; exact hs
  case supplyOutOfWindow => refine goodOut_of (o := execSupplyOutOfWindow ..) ?_; with_reducible apply execSupplyOutOfWindow_since; exact hs
  case supplyBelowResetLevel => refine goodOut_of (o := execSupplyBelowResetLevel ..) ?_; with_reducible apply execSupplyBelowResetLevel_since; exact hs
  case cmRtu => refine goodOut_of (o := execCmRtu ..) ?_; with_reducible apply execCmRtu_since; exact hs
  case roceRnrTimerExpire => refine goodOut_of (o := execRoceRnrTimerExpire ..) ?_; with_reducible apply execRoceRnrTimerExpire_since; exact hs
  case vfEnable => refine goodOut_of (o := execVfEnable ..) ?_; with_reducible apply execVfEnable_since; exact hs
  case endpointLinkUp => refine goodOut_of (o := execEndpointLinkUp ..) ?_; with_reducible apply execEndpointLinkUp_since; exact hs
  case epPerstDeassert => refine goodOut_of (o := execEpPerstDeassert ..) ?_; with_reducible apply execEpPerstDeassert_since; exact hs
  case masterLostRead => refine goodOut_of (o := execMasterLostRead ..) ?_; with_reducible apply execMasterLostRead_since; exact hs
  case mirrorLinkHalfChange => refine goodOut_of (o := execMirrorLinkHalfChange ..) ?_; with_reducible apply execMirrorLinkHalfChange_since; exact hs
  case driveLinkChange => refine goodOut_of (o := execDriveLinkChange ..) ?_; with_reducible apply execDriveLinkChange_since; exact hs
  case presenceBounce => refine goodOut_of (o := execPresenceBounce ..) ?_; with_reducible apply execPresenceBounce_since; exact hs
  case pgoodDeassert => refine goodOut_of (o := execPgoodDeassert ..) ?_; with_reducible apply execPgoodDeassert_since; exact hs
  case converterSample => refine goodOut_of (o := execConverterSample ..) ?_; with_reducible apply execConverterSample_since; exact hs
  case supplyReturnToWindow => refine goodOut_of (o := execSupplyReturnToWindow ..) ?_; with_reducible apply execSupplyReturnToWindow_since; exact hs
  case jtagReset => refine goodOut_of (o := execJtagReset ..) ?_; with_reducible apply execJtagReset_since; exact hs
  case jtagFatalRequest => refine goodOut_of (o := execJtagFatalRequest ..) ?_; with_reducible apply execJtagFatalRequest_since; exact hs
  case housekeepingEdge => refine goodOut_of (o := execHousekeepingEdge ..) ?_; with_reducible apply execHousekeepingEdge_since; exact hs
  case faultHistoryExpire => refine goodOut_of (o := execFaultHistoryExpire ..) ?_; with_reducible apply execFaultHistoryExpire_since; exact hs

end Sys2Proof.Machine
end

