-- ==== Sys2Proof/Laws/StrataAdminLaws.lean ====
section
/-! SUPPORT. The admin commands of groups, members and volumes. -/

namespace Sys2Proof.Machine

theorem updGroup_group {s : State} {gi : Nat} {g : Group} (h : s.group gi = some g) (f : Group → Group) :
    (s.updGroup gi f).group gi = some (f g) := by
  unfold State.updGroup State.group at *
  rw [h]
  unfold State.setGroup
  exact tblFind_ins_self _ _ _
theorem cfgs_fold (l : List (Nat × KeySlot)) : ∀ s : State, (l.foldl (fun s e => s.cfgPut 0x05 e.1 none) s).str = s.str
    ∧ (l.foldl (fun s e => s.cfgPut 0x05 e.1 none) s).cph = s.cph ∧ (l.foldl (fun s e => s.cfgPut 0x05 e.1 none) s).regs = s.regs
    ∧ (l.foldl (fun s e => s.cfgPut 0x05 e.1 none) s).mem = s.mem ∧ (l.foldl (fun s e => s.cfgPut 0x05 e.1 none) s).out = s.out := by
  induction l with
  | nil => exact fun s => ⟨rfl, rfl, rfl, rfl, rfl⟩
  | cons a l ih => exact fun s => ih (s.cfgPut 0x05 a.1 none)
theorem dropKeys_facts (s : State) (h : Nat) : (s.dropKeys h).str = s.str ∧ (s.dropKeys h).cph.slots = s.cph.slots.filter (fun e => e.2.volume != h)
    ∧ (s.dropKeys h).regs = s.regs ∧ (s.dropKeys h).mem = s.mem ∧ (s.dropKeys h).out = s.out := by
  unfold State.dropKeys
  dsimp only
  obtain ⟨a, b, c, d, e⟩ := cfgs_fold (s.cph.slots.filter fun e => e.2.volume == h) { s with cph := { s.cph with
    slots := s.cph.slots.filter fun e => e.2.volume != h
    walks := tblDel s.cph.walks h
    phase := tblDel s.cph.phase h } }
  split
  · exact ⟨a, congrArg Cph.slots b, c, d, e⟩
  · exact ⟨a, congrArg Cph.slots b, c, d, e⟩
/-- The state with volume `h` gone, before its group learns what to zero. -/
def volumeGone (d : State) (h : Nat) (v : Volume) : State :=
  let inVol (gi st : Nat) : Bool := gi == v.group && (match d.group gi with
      | some g => v.ext.contains (g.regionOf st)
      | none => false)
  { d with str := { d.str with
      volumes := tblDel d.str.volumes h
      ubl := d.str.ubl.filter fun e => e.volume != h
      ublOver := d.str.ublOver.filter fun x => !inVol x.1 x.2.1
      window := d.str.window.map fun w =>
        if w.group = v.group ∧ v.ext.contains w.region then { w with class0 := false } else w } }
theorem updGroup_str (s : State) (gi : Nat) (f : Group → Group) : (s.updGroup gi f).str.volumes = s.str.volumes
    ∧ (s.updGroup gi f).str.ubl = s.str.ubl ∧ (s.updGroup gi f).str.members = s.str.members ∧ (s.updGroup gi f).str.opens = s.str.opens
    ∧ (s.updGroup gi f).cph = s.cph ∧ (s.updGroup gi f).regs = s.regs ∧ (s.updGroup gi f).mem = s.mem ∧ (s.updGroup gi f).out = s.out := by
  unfold State.updGroup
  split <;> exact ⟨rfl, rfl, rfl, rfl, rfl, rfl, rfl, rfl⟩
theorem deleteGroup_eq {s : State} {c : Cmd} {gi : Nat} {g : Group} {d w : State} {live : List Nat} (hgi : gi = byteAt c.entry 8)
    (hg : s.group gi = some g) (hd : d = { (s.markPast c.seq).markWaiting c.seq with str := { s.str with
          groups := tblDel s.str.groups gi
          members := s.str.members.filter fun e => e.2.group != gi
          opens := s.str.opens.filter fun o => !(o.group == gi)
          window := s.str.window.filter fun w => w.group != gi
          repairs := s.str.repairs.filter fun r => r.group != gi } })
    (hw : w = g.slots.foldl (fun s sl => s.dropMem sl fun _ => true)
          ((s.str.opens.filter fun o => o.group == gi).foldl (fun s o => (s.freeSlice o.slice).freeHeld o.cls o.held) d))
    (hl : live = (g.slots.filter fun sl => (w.drive sl).ready && (w.drive sl).linkUp)) :
    s.deleteGroup c = if live.isEmpty then ((((live.foldl (fun s sl =>
          s.addMem sl .write 0 1 (zeros (storedBytes g.format1)) 1 (.deleteLabel (some c.seq))) w).cfgPut 0x07 gi none).touch).finish c.seq stSuccess 0).flow
      else ((((live.foldl (fun s sl =>
          s.addMem sl .write 0 1 (zeros (storedBytes g.format1)) 1 (.deleteLabel (some c.seq))) w).cfgPut 0x07 gi none).touch).flow) := by
  unfold State.deleteGroup
  extract_lets gi'
  have : gi' = gi := hgi.symm
  clear_value gi'
  subst this
  rw [hg]
  dsimp -zeta only
  extract_lets s4 live' s5 s6
  rename_i d' s2
  have e2 : d' = d := by subst hd; rfl
  have e4 : s4 = w := by subst hw; subst e2; rfl
  have el : live' = live := by subst hl; subst e4; rfl
  clear_value live'
  subst el
  clear_value s4
  subst e4
  rfl
theorem getFatal_keeps {s : State} {c : Cmd} {base len : Nat} {b : Bytes}
    (hb : base = s.fatalBase + (if byteAt c.entry 8 = 1 then 2 ^ 27 else 0)) (hl : len = s.mem.readLe (base + 48) 4)
    (hbb : b = s.mem.readN (base + leAt c.entry 40 4) (min (eLen c.entry) (len - leAt c.entry 40 4))) (h9 : byteAt c.entry 9 ≠ 1) :
    s.getFatal c = ((s.hostPut (eMkey c.entry) (eAddr c.entry) c.cls c.seq b).finish c.seq stSuccess len).flow := by
  unfold State.getFatal
  extract_lets peer base' off len' b' s1 s2
  have e0 : base' = base := by
    subst hb
    simp only [base', peer, beq_iff_eq]
  have e1 : len' = len := by subst hl; rw [← e0]
  have e2 : b' = b := by subst hbb; rw [← e1, ← e0]
  have e3 : s2 = s := by
    simp only [s2, s1, if_neg h9]
  rw [e1, e2, e3]
theorem getFatal_clears {s u : State} {c : Cmd} {base len : Nat} {b : Bytes}
    (hb : base = s.fatalBase + (if byteAt c.entry 8 = 1 then 2 ^ 27 else 0)) (hl : len = s.mem.readLe (base + 48) 4)
    (hbb : b = s.mem.readN (base + leAt c.entry 40 4) (min (eLen c.entry) (len - leAt c.entry 40 4))) (h9 : byteAt c.entry 9 = 1)
    (hu : u = (if byteAt c.entry 8 = 1 then s.setField .sysFatal 30 30 0 else s.setField .sysFatal 31 31 0).markPast c.seq) :
    s.getFatal c = ((u.hostPut (eMkey c.entry) (eAddr c.entry) c.cls c.seq b).finish c.seq stSuccess len).flow := by
  unfold State.getFatal
  extract_lets peer base' off len' b' s1 s2
  have e0 : base' = base := by
    subst hb
    simp only [base', peer, beq_iff_eq]
  have e1 : len' = len := by subst hl; rw [← e0]
  have e2 : b' = b := by subst hbb; rw [← e1, ← e0]
  have e3 : s2 = u := by
    simp only [s2, s1, if_pos h9, hu, peer, beq_iff_eq]
  rw [e1, e2, e3]

end Sys2Proof.Machine
end

