-- ==== Sys2Proof/Laws/WakeLaws.lean ====
section
/-! SUPPORT. The interrupt controller's and Glimmer's commands. -/

namespace Sys2Proof.Machine

/-- The commands of the interrupt controller while Glimmer is awake. -/
theorem icuClaim_awake {s : State} (req : Requester) (k : Nat) (h : s.glm.asleep = false) : exec (.icuClaim req k) s = .next (s.icuClaim req k) := by
  show execIcuClaim req k s = _; unfold execIcuClaim; exact whenAwake_on h _
theorem icuEoi_awake {s : State} (k n : Nat) (h : s.glm.asleep = false) : exec (.icuEoi k n) s = .next (s.icuEoi k n) := by
  show execIcuEoi k n s = _; unfold execIcuEoi; exact whenAwake_on h _

end Sys2Proof.Machine
end

