-- ==== Sys2Proof/WellFormed.lean ====
section
/-! DEFINITION. Which commands a sender can send: every operand within the range its rule gives it. The meanings are total: a command
that is not well formed runs too, and finds nothing where its operand points nowhere. -/

namespace Sys2Proof

open Sys2Proof.Machine

/-- A Basalt core 0 to 3, or a thread 0 to 15 of an engine 0 to 47 (R22, R417). -/
def Requester.wellFormed : Requester → Bool
  | .basalt c => decide (c < 4)
  | .thread e t => decide (e < 48 ∧ t < 16)
  | .jtag => true

/-- The fields of an ODT header fit their places (R285). -/
def OdtHdr.wellFormed (h : OdtHdr) : Bool :=
  decide (h.mac < 10 ∧ h.mac ≠ 8 ∧ h.sub < 4 ∧ h.port < 2 ^ 16 ∧ h.conn < 2 ^ 16 ∧ h.tenant < 2 ^ 32
    ∧ h.qpn < 2 ^ 32 ∧ h.seq < 2 ^ 32
    ∧ h.ack < 2 ^ 32 ∧ h.flags < 2 ^ 16 ∧ h.arg < 2 ^ 32 ∧ h.arg2 < 2 ^ 32 ∧ h.version < 256 ∧ h.dscp < 64)

/-- The site of an ECC error exists (R22, R417, R686). -/
def MemSite.wellFormed : MemSite → Bool
  | .corrected _ | .pmcRing | .fatalRegion | .replicated _ | .contextCache _ => true
  | .instrLine e _ | .engineTlb e _ | .cleanLine e _ => decide (e < 48)
  | .clusterTlb k _ => decide (k < 4)
  | .dirtyLine e t | .scratch e t | .inbox e t | .sharedSram e t => decide (e < 48 ∧ t < 16)
  | .readCell q cid _ _ _ | .writeCell q cid _ _ => decide (q < 2 ^ 18 ∧ cid < 2 ^ 16)
  | .prismRing p => decide (p < 16)
  | .control isl _ => decide (isl < 168)

/-- Every operand of the command is in range. -/
def Instr.wellFormed : Instr → Bool
  | .islandReqWrite req isl _ => req.wellFormed && decide (isl < 168)
  | .islandDrainEnd isl => decide (isl < 168)
  | .islandDrainTimeout isl => decide (isl < 168)
  | .islandPowerUp isl => decide (isl < 168)
  | .read qp cid => decide (qp < 2 ^ 18) && decide (cid < 2 ^ 16)
  | .write qp cid => decide (qp < 2 ^ 18) && decide (cid < 2 ^ 16)
  | .flush qp cid => decide (qp < 2 ^ 18) && decide (cid < 2 ^ 16)
  | .writeZeroes qp cid => decide (qp < 2 ^ 18) && decide (cid < 2 ^ 16)
  | .trim qp cid => decide (qp < 2 ^ 18) && decide (cid < 2 ^ 16)
  | .abort qp cid => decide (qp < 2 ^ 18) && decide (cid < 2 ^ 16)
  | .entryFetch qp => decide (qp < 2 ^ 18)
  | .entryFetchDone qp => decide (qp < 2 ^ 18)
  | .createQp qp cid => decide (qp < 2 ^ 18) && decide (cid < 2 ^ 16)
  | .deleteQp qp cid => decide (qp < 2 ^ 18) && decide (cid < 2 ^ 16)
  | .resetQp qp cid => decide (qp < 2 ^ 18) && decide (cid < 2 ^ 16)
  | .qpeInspSel _ => true
  | .policerRefill => true
  | .dispatch cluster => decide (cluster < 4)
  | .driveIssue slot => decide (slot < 48)
  | .egressServe point => decide (point < 10)
  | .setShaper qp cid => decide (qp < 2 ^ 18) && decide (cid < 2 ^ 16)
  | .shaperCommit _ => true
  | .clsShpSel _ => true
  | .tenantPolicyPeriod att => decide (att < 4096)
  | .stripeOpen qp cid => decide (qp < 2 ^ 18) && decide (cid < 2 ^ 16)
  | .memberCompletion slot _ _ _ => decide (slot < 48)
  | .stagingReserve qp cid => decide (qp < 2 ^ 18) && decide (cid < 2 ^ 16)
  | .sliceAssign => true
  | .windowRegionIdle group region => decide (group < 64) && decide (region < 2 ^ 32)
  | .createGroup qp cid => decide (qp < 2 ^ 18) && decide (cid < 2 ^ 16)
  | .deleteGroup qp cid => decide (qp < 2 ^ 18) && decide (cid < 2 ^ 16)
  | .createVolume qp cid => decide (qp < 2 ^ 18) && decide (cid < 2 ^ 16)
  | .deleteVolume qp cid => decide (qp < 2 ^ 18) && decide (cid < 2 ^ 16)
  | .identifyVolume qp cid => decide (qp < 2 ^ 18) && decide (cid < 2 ^ 16)
  | .identifyGroup qp cid => decide (qp < 2 ^ 18) && decide (cid < 2 ^ 16)
  | .strRowSel _ => true
  | .zeroingStripe group => decide (group < 64)
  | .memberCommandTimeout slot _ => decide (slot < 48)
  | .driveLinkDownTimeout slot => decide (slot < 48)
  | .driveCriticalWarning slot => decide (slot < 48)
  | .rebuildStripe slot => decide (slot < 48)
  | .refillPosition slot => decide (slot < 48)
  | .relocationSweepPeriod group => decide (group < 64)
  | .resyncStripe group => decide (group < 64)
  | .deltaResyncStripe slot => decide (slot < 48)
  | .repairBlock => true
  | .lanternStripe => true
  | .lntRestart => true
  | .rebuildPacingRefill => true
  | .driveReady slot _ _ _ => decide (slot < 48)
  | .assemblyDeadline _ => true
  | .memberControl qp cid => decide (qp < 2 ^ 18) && decide (cid < 2 ^ 16)
  | .listBlocks qp cid => decide (qp < 2 ^ 18) && decide (cid < 2 ^ 16)
  | .frameReceive mac sub f => decide (mac < 10 ∧ mac ≠ 8) && decide (sub < 4) && decide (f.dscp < 64)
  | .pfcFrameReceive mac vec _ => decide (mac < 8) && decide (vec < 256)
  | .pfcPauseExpire mac pri => decide (mac < 8) && decide (pri < 8)
  | .pfcXoffRepeat mac pri => decide (mac < 8) && decide (pri < 8)
  | .pfcWatchdogTrip mac pri => decide (mac < 8) && decide (pri < 8)
  | .pfcWatchdogClear mac pri => decide (mac < 8) && decide (pri < 8)
  | .networkLinkChange mac sub _ => decide (mac < 8) && decide (sub < 4)
  | .addressAnnounce => true
  | .setAddress qp cid => decide (qp < 2 ^ 18) && decide (cid < 2 ^ 16)
  | .roceAllow qp cid => decide (qp < 2 ^ 18) && decide (cid < 2 ^ 16)
  | .cmReq req => decide (req.mac < 8 ∧ req.sub < 4 ∧ req.psn < 2 ^ 24)
  | .cmDreq conn => decide (conn < 2 ^ 14)
  | .fabricsConnect conn cid qid _ _ _ => decide (conn < 2 ^ 14) && decide (cid < 2 ^ 16) && decide (qid < 2 ^ 16)
  | .propertyGet conn cid _ => decide (conn < 2 ^ 14) && decide (cid < 2 ^ 16)
  | .propertySet conn cid _ _ => decide (conn < 2 ^ 14) && decide (cid < 2 ^ 16)
  | .nvmeofIdentify conn cid _ _ => decide (conn < 2 ^ 14) && decide (cid < 2 ^ 16)
  | .getFeatures conn cid _ => decide (conn < 2 ^ 14) && decide (cid < 2 ^ 16)
  | .setFeatures conn cid _ _ => decide (conn < 2 ^ 14) && decide (cid < 2 ^ 16)
  | .keepAlive conn cid => decide (conn < 2 ^ 14) && decide (cid < 2 ^ 16)
  | .nvmeofAbort conn cid _ _ => decide (conn < 2 ^ 14) && decide (cid < 2 ^ 16)
  | .keepAliveTimeout conn => decide (conn < 2 ^ 14)
  | .roceCommandCapsule conn psn capsule _ => decide (conn < 2 ^ 14) && decide (psn < 2 ^ 24) && capsule.length == 64
  | .dsmRangeArrive conn cid _ => decide (conn < 2 ^ 14) && decide (cid < 2 ^ 16)
  | .roceRemoteAccess conn psn => decide (conn < 2 ^ 14) && decide (psn < 2 ^ 24)
  | .roceAckReceive conn _ psn => decide (conn < 2 ^ 14) && decide (psn < 2 ^ 24)
  | .roceReadResponse conn psn dscp _ => decide (conn < 2 ^ 14) && decide (psn < 2 ^ 24) && decide (dscp < 64)
  | .roceAckTimeout conn => decide (conn < 2 ^ 14)
  | .doorbell h => h.wellFormed
  | .doorbellInline h entry => h.wellFormed && entry.length == 64
  | .fetchResp h _ => h.wellFormed
  | .data h _ => h.wellFormed
  | .credit h => h.wellFormed
  | .keepalive h => h.wellFormed
  | .odtRetransmit conn => decide (conn < 2 ^ 16)
  | .odtFetchRetry conn => decide (conn < 2 ^ 16)
  | .odtKeepaliveSend conn => decide (conn < 2 ^ 16)
  | .odtHostSilence conn => decide (conn < 2 ^ 16)
  | .odtResumeExpire conn => decide (conn < 2 ^ 16)
  | .odtOpeningExpire conn => decide (conn < 2 ^ 16)
  | .odtConnect qp cid => decide (qp < 2 ^ 18) && decide (cid < 2 ^ 16)
  | .odtClose qp cid => decide (qp < 2 ^ 18) && decide (cid < 2 ^ 16)
  | .netOdtSel _ => true
  | .sqTailDb func qp _ => decide (func < 64) && decide (qp < 2 ^ 18)
  | .cqHeadDb func qp _ => decide (func < 64) && decide (qp < 2 ^ 18)
  | .inlEntry func qp entry => decide (func < 64) && decide (qp < 2 ^ 18) && entry.length == 64
  | .unsupportedRequest _ => true
  | .peerWindowTlp _ reqId _ _ _ => decide (reqId < 2 ^ 16)
  | .epfWinCommit => true
  | .busMasterDisable func _ => decide (func < 64)
  | .d3hotEntry func => decide (func < 64)
  | .functionLevelReset func => decide (func < 64)
  | .vfDisable numVfs => decide (numVfs < 64)
  | .endpointLinkLoss => true
  | .epPerstAssert => true
  | .dmaCompletionTlp tag _ => decide (tag < 1024)
  | .completionTimeout tag => decide (tag < 1024)
  | .tagRelease func => decide (func < 64)
  | .msixUnmask func _ => decide (func < 64)
  | .crossbarSlot => true
  | .c0PoolReserve qp cid => decide (qp < 2 ^ 18) && decide (cid < 2 ^ 16)
  | .accBusArbitration cluster => decide (cluster < 4)
  | .prismEnable _ => true
  | .xbrPartSel _ => true
  | .loadKek qp cid => decide (qp < 2 ^ 18) && decide (cid < 2 ^ 16)
  | .loadKey qp cid => decide (qp < 2 ^ 18) && decide (cid < 2 ^ 16)
  | .rekeyWalkStripe vol => decide (vol < 2 ^ 24)
  | .cphKeySel _ => true
  | .alu e t _ _ _ _ _ => decide (e < 48) && decide (t < 16)
  | .addi e t _ _ _ _ => decide (e < 48) && decide (t < 16)
  | .andi e t _ _ _ _ => decide (e < 48) && decide (t < 16)
  | .ori e t _ _ _ _ => decide (e < 48) && decide (t < 16)
  | .xori e t _ _ _ _ => decide (e < 48) && decide (t < 16)
  | .shi e t _ _ _ _ => decide (e < 48) && decide (t < 16)
  | .seti e t _ _ _ => decide (e < 48) && decide (t < 16)
  | .setiu e t _ _ _ => decide (e < 48) && decide (t < 16)
  | .shin e t _ _ _ => decide (e < 48) && decide (t < 16)
  | .lb e t _ _ _ _ => decide (e < 48) && decide (t < 16)
  | .lbu e t _ _ _ _ => decide (e < 48) && decide (t < 16)
  | .lh e t _ _ _ _ => decide (e < 48) && decide (t < 16)
  | .lhu e t _ _ _ _ => decide (e < 48) && decide (t < 16)
  | .lw e t _ _ _ _ => decide (e < 48) && decide (t < 16)
  | .lwu e t _ _ _ _ => decide (e < 48) && decide (t < 16)
  | .ld e t _ _ _ _ => decide (e < 48) && decide (t < 16)
  | .sb e t _ _ _ _ => decide (e < 48) && decide (t < 16)
  | .sh e t _ _ _ _ => decide (e < 48) && decide (t < 16)
  | .sw e t _ _ _ _ => decide (e < 48) && decide (t < 16)
  | .sd e t _ _ _ _ => decide (e < 48) && decide (t < 16)
  | .atom e t _ _ _ _ _ => decide (e < 48) && decide (t < 16)
  | .b e t _ _ => decide (e < 48) && decide (t < 16)
  | .bl e t _ _ => decide (e < 48) && decide (t < 16)
  | .br e t _ _ => decide (e < 48) && decide (t < 16)
  | .blr e t _ _ _ => decide (e < 48) && decide (t < 16)
  | .cmp e t _ _ _ _ _ => decide (e < 48) && decide (t < 16)
  | .cmpi e t _ _ _ _ _ => decide (e < 48) && decide (t < 16)
  | .plog e t _ _ _ _ _ => decide (e < 48) && decide (t < 16)
  | .qpop e t _ _ _ _ _ _ => decide (e < 48) && decide (t < 16)
  | .qpush e t _ _ _ _ _ => decide (e < 48) && decide (t < 16)
  | .qhook e t _ _ _ _ _ _ => decide (e < 48) && decide (t < 16)
  | .dmad e t _ _ _ _ => decide (e < 48) && decide (t < 16)
  | .acc e t _ _ _ _ => decide (e < 48) && decide (t < 16)
  | .wait e t _ _ _ => decide (e < 48) && decide (t < 16)
  | .yield e t _ => decide (e < 48) && decide (t < 16)
  | .getc e t _ _ _ => decide (e < 48) && decide (t < 16)
  | .putc e t _ _ _ => decide (e < 48) && decide (t < 16)
  | .swpc e t _ _ _ _ => decide (e < 48) && decide (t < 16)
  | .bitc e t _ _ _ _ _ => decide (e < 48) && decide (t < 16)
  | .trap e t _ _ => decide (e < 48) && decide (t < 16)
  | .eret e t _ => decide (e < 48) && decide (t < 16)
  | .fence e t _ _ _ _ _ => decide (e < 48) && decide (t < 16)
  | .illegalWord e t _ => decide (e < 48) && decide (t < 16)
  | .descriptorEnd _ => true
  | .dmaFaultTrap e t => decide (e < 48) && decide (t < 16)
  | .accResult e t => decide (e < 48) && decide (t < 16)
  | .timerEvent e t => decide (e < 48) && decide (t < 16)
  | .setSigner qp cid => decide (qp < 2 ^ 18) && decide (cid < 2 ^ 16)
  | .loadExt qp cid => decide (qp < 2 ^ 18) && decide (cid < 2 ^ 16)
  | .attachHook qp cid => decide (qp < 2 ^ 18) && decide (cid < 2 ^ 16)
  | .detachHook qp cid => decide (qp < 2 ^ 18) && decide (cid < 2 ^ 16)
  | .unloadExt qp cid => decide (qp < 2 ^ 18) && decide (cid < 2 ^ 16)
  | .fctThrSel _ => true
  | .pmcSampleEnable _ => true
  | .mmuInvalidate _ => true
  | .invalidationComplete => true
  | .regKey qp cid => decide (qp < 2 ^ 18) && decide (cid < 2 ^ 16)
  | .deregKey qp cid => decide (qp < 2 ^ 18) && decide (cid < 2 ^ 16)
  | .hello serial _ _ _ _ _ => decide (serial < 2 ^ 64)
  | .helloSend => true
  | .pairingTimeout => true
  | .epochEnd => true
  | .renew _ _ => true
  | .renewAck _ _ _ _ => true
  | .lines copy _ _ => decide (copy < 2 ^ 32)
  | .commit copy _ _ _ _ => decide (copy < 2 ^ 32)
  | .copyAck copy _ _ _ => decide (copy < 2 ^ 32)
  | .log _ _ => true
  | .logAck _ _ => true
  | .logResend => true
  | .release copy _ => decide (copy < 2 ^ 32)
  | .leave _ => true
  | .bulk _ _ _ _ _ => true
  | .bulkAck _ _ _ => true
  | .activeLeaseExpire => true
  | .shadowLeaseExpire => true
  | .tieBreakWait => true
  | .arbiterPreemptDone _ => true
  | .reservationAcquireTimeout slot => decide (slot < 48)
  | .shdCtlRelease => true
  | .shdCtlLeave => true
  | .mirrorLinkLoss => true
  | .glimmerSleep core => decide (core < 4)
  | .glimmerSleepEnter => true
  | .glimmerTimer => true
  | .presenceEdge slot => decide (slot < 48)
  | .presenceLost slot => decide (slot < 48)
  | .fastTrip slot => decide (slot < 48)
  | .faultTimerExpire slot => decide (slot < 48)
  | .rampTimeout slot => decide (slot < 48)
  | .rampComplete slot => decide (slot < 48)
  | .powerGoodLost slot => decide (slot < 48)
  | .railGroupGood group => decide (group < 4)
  | .railGroupNotGood group => decide (group < 4)
  | .insertDelayExpire slot => decide (slot < 48)
  | .rampStart slot => decide (slot < 48)
  | .retryExpire slot => decide (slot < 48)
  | .peerHoldDetect slot => decide (slot < 48)
  | .shutdownComplete slot _ => decide (slot < 48)
  | .rootPortTrainStart slot => decide (slot < 48)
  | .slotControl qp cid => decide (qp < 2 ^ 18) && decide (cid < 2 ^ 16)
  | .spmSlotCycle slot => decide (slot < 48)
  | .spmSlotRelease slot => decide (slot < 48)
  | .registerWrite req off _ => req.wellFormed && decide (off < 2 ^ 28 ∧ off % 4 = 0)
  | .rcRead req off aliasBit => req.wellFormed && decide (off < 2 ^ 28 ∧ off % 4 = 0) && aliasBit.all fun b => decide (b < 32)
  | .aliasWrite req off bit _ => req.wellFormed && decide (off < 2 ^ 28 ∧ off % 4 = 0) && decide (bit < 32)
  | .postedWriteApply req isl => req.wellFormed && decide (isl < 168)
  | .sysWsync req => req.wellFormed
  | .busErrorTimeout req => req.wellFormed
  | .sysMode req _ => req.wellFormed
  | .sysSnap _ => true
  | .snapshotCapture => true
  | .icuClaim req k => req.wellFormed && decide (k < 4)
  | .icuEoi k n => decide (k < 4) && decide (n < 4096)
  | .icuMaskSet w _ => decide (w < 128)
  | .icuMaskClr w _ => decide (w < 128)
  | .icuPendSet w _ => decide (w < 128)
  | .icuPendClr w _ => decide (w < 128)
  | .ppsEdge => true
  | .ppsWindowClose => true
  | .rateSecond => true
  | .ppsDisable => true
  | .porstN => true
  | .warmRstN => true
  | .sysRstWarm req _ => req.wellFormed
  | .sysRstOrderly req _ => req.wellFormed
  | .resetController qp cid => decide (qp < 2 ^ 18) && decide (cid < 2 ^ 16)
  | .fwDownload qp cid => decide (qp < 2 ^ 18) && decide (cid < 2 ^ 16)
  | .fwActivate qp cid => decide (qp < 2 ^ 18) && decide (cid < 2 ^ 16)
  | .clusterSwitch _ stallUs => decide (stallUs < 401)
  | .uartAdminLine _ => true
  | .uartLineTimeout => true
  | .configRecordWritten _ => true
  | .sysErrFatal req _ => req.wellFormed
  | .watchdogExpire => true
  | .watchdogPet req _ => req.wellFormed
  | .temperatureReading sensor _ => decide (sensor < 8)
  | .refClockLoss => true
  | .aonClockLoss => true
  | .pllUnlock _ => true
  | .smbusTimeout controller => decide (controller < 4)
  | .handshakeTimeout isl => decide (isl < 168)
  | .memoryError site => site.wellFormed
  | .fatalImageComplete => true
  | .fatalResetTimer => true
  | .fatalWatchdogReset => true
  | .getFatal qp cid => decide (qp < 2 ^ 18) && decide (cid < 2 ^ 16)
  | .supplyOutOfWindow rail => decide (rail < 9)
  | .supplyBelowResetLevel rail => decide (rail < 9)
  | .cmRtu conn => decide (conn < 2 ^ 14)
  | .roceRnrTimerExpire conn => decide (conn < 2 ^ 14)
  | .vfEnable numVfs => decide (numVfs < 64)
  | .endpointLinkUp speed width _ => decide (speed < 7) && decide (width < 9)
  | .epPerstDeassert => true
  | .masterLostRead func => decide (func < 64)
  | .mirrorLinkHalfChange half _ => decide (half < 2)
  | .driveLinkChange slot _ => decide (slot < 48)
  | .presenceBounce slot => decide (slot < 48)
  | .pgoodDeassert slot => decide (slot < 48)
  | .converterSample conv chan code => decide (conv < 4) && decide (chan < 14) && decide (code < 4096)
  | .supplyReturnToWindow rail => decide (rail < 9)
  | .jtagReset => true
  | .jtagFatalRequest => true
  | .housekeepingEdge => true
  | .faultHistoryExpire slot => decide (slot < 48)

end Sys2Proof
end

