-- ==== Sys2Proof/Tests/Slice0.lean ====
section
/-! SUPPORT. The model's own tests: an ill-formed command for each check of WellFormed, witnesses that the hypotheses of the
statements can be met, and a few single steps with results worked out from the rules by hand. -/

namespace Sys2Proof.Tests

open Sys2Proof Sys2Proof.Machine

-- One theorem after the other: each is a small evaluation by the kernel, and a thread for each would be many at once.
set_option Elab.async false

/-! ### Helpers -/

/-- A 64-byte entry with little-endian fields given as offset, width and value. -/
def ent (l : List (Nat × Nat × Nat)) : Bytes :=
  l.foldl (fun b x => b.take x.1 ++ toLe x.2.2 x.2.1 ++ b.drop (x.1 + x.2.1)) (zeros 64)

/-- An ACTIVE queue pair of 16 slots with the ADMIN attribute on function 0 of the endpoint. -/
def wQp : Qp := { state := .active, admin := true, mask := 2, sqSize := 16, cqSize := 16, face := .endpoint 0 0 }

/-- A command of queue pair 5 with CID 9 that a thread carries. -/
def wCmd (e : Bytes) : Cmd := { qp := 5, cid := 9, entry := e, seq := 3, phase := .dispatched }

/-- A part with every island ON, queue pair 5 as above, and that command. -/
def wState (e : Bytes) : State :=
  { State.reset with
    isl := (List.range 168).map fun _ => { state := .on, req := .on }
    qpe := { qps := [(5, wQp)], cmds := [wCmd e], nextSeq := 4 }
    epf := { State.reset.epf with linkUp := true, funcs := [(0, { mse := true, bme := true })] } }

/-- An ODT header and a CM request whose fields fit. -/
def goodHdr : OdtHdr :=
  { mac := 0, sub := 0, addr := 0, port := 0, conn := 0, tenant := 0, qpn := 0, seq := 0 }
def goodReq : CmReq := { mac := 0, sub := 0, family := 0, host := 0 }

/-! ### An ill-formed command for each check of WellFormed -/

theorem test_ill_formed_refused_1 : ([
    .islandReqWrite .jtag 168 0#32,  .islandReqWrite (.thread 48 0) 0 0#32,  .islandDrainEnd 168,
    .islandDrainTimeout 168,  .islandPowerUp 168,  .read (2 ^ 18) 0,  .read 0 (2 ^ 16),  .write (2 ^ 18) 0,
    .write 0 (2 ^ 16),  .flush (2 ^ 18) 0,  .flush 0 (2 ^ 16),  .writeZeroes (2 ^ 18) 0,  .writeZeroes 0 (2 ^ 16),
    .trim (2 ^ 18) 0,  .trim 0 (2 ^ 16),  .abort (2 ^ 18) 0,  .abort 0 (2 ^ 16),  .entryFetch (2 ^ 18),
    .entryFetchDone (2 ^ 18),  .createQp (2 ^ 18) 0,  .createQp 0 (2 ^ 16),  .deleteQp (2 ^ 18) 0,
    .deleteQp 0 (2 ^ 16),  .resetQp (2 ^ 18) 0] : List Instr).all (fun i => !i.wellFormed) = true := by decide

theorem test_ill_formed_refused_2 : ([
    .resetQp 0 (2 ^ 16),  .dispatch 4,  .driveIssue 48,  .egressServe 10,  .setShaper (2 ^ 18) 0,
    .setShaper 0 (2 ^ 16),  .tenantPolicyPeriod 4096,  .stripeOpen (2 ^ 18) 0,  .stripeOpen 0 (2 ^ 16),
    .memberCompletion 48 0 0 [],  .stagingReserve (2 ^ 18) 0,  .stagingReserve 0 (2 ^ 16),  .windowRegionIdle 64 0,
    .windowRegionIdle 0 (2 ^ 32),  .createGroup (2 ^ 18) 0,  .createGroup 0 (2 ^ 16),  .deleteGroup (2 ^ 18) 0,
    .deleteGroup 0 (2 ^ 16),  .createVolume (2 ^ 18) 0,  .createVolume 0 (2 ^ 16),  .deleteVolume (2 ^ 18) 0,
    .deleteVolume 0 (2 ^ 16),  .identifyVolume (2 ^ 18) 0,  .identifyVolume 0 (2 ^ 16)] : List Instr).all (fun i => !i.wellFormed) = true := by decide

theorem test_ill_formed_refused_3 : ([
    .identifyGroup (2 ^ 18) 0,  .identifyGroup 0 (2 ^ 16),  .zeroingStripe 64,  .memberCommandTimeout 48 0,
    .driveLinkDownTimeout 48,  .driveCriticalWarning 48,  .rebuildStripe 48,  .refillPosition 48,
    .relocationSweepPeriod 64,  .resyncStripe 64,  .deltaResyncStripe 48,  .driveReady 48 {} [] [],
    .memberControl (2 ^ 18) 0,  .memberControl 0 (2 ^ 16),  .listBlocks (2 ^ 18) 0,  .listBlocks 0 (2 ^ 16),
    .frameReceive 10 0 { kind := .arp, dst := .group },  .frameReceive 0 4 { kind := .arp, dst := .group },
    .frameReceive 8 0 { kind := .arp, dst := .group },  .pfcFrameReceive 8 0 [],  .pfcFrameReceive 0 256 [],
    .pfcPauseExpire 8 0,  .pfcPauseExpire 0 8,  .pfcXoffRepeat 8 0] : List Instr).all (fun i => !i.wellFormed) = true := by decide

theorem test_ill_formed_refused_4 : ([
    .pfcXoffRepeat 0 8,  .pfcWatchdogTrip 8 0,  .pfcWatchdogTrip 0 8,  .pfcWatchdogClear 8 0,  .pfcWatchdogClear 0 8,
    .networkLinkChange 8 0 false,  .networkLinkChange 0 4 false,  .setAddress (2 ^ 18) 0,  .setAddress 0 (2 ^ 16),
    .roceAllow (2 ^ 18) 0,  .roceAllow 0 (2 ^ 16),  .cmReq { goodReq with mac := 8 },
    .cmReq { goodReq with sub := 4 },  .cmReq { goodReq with psn := 2 ^ 24 },  .cmDreq (2 ^ 14),
    .fabricsConnect (2 ^ 14) 0 0 0 0 [],  .fabricsConnect 0 (2 ^ 16) 0 0 0 [],  .fabricsConnect 0 0 (2 ^ 16) 0 0 [],
    .propertyGet (2 ^ 14) 0 0,  .propertyGet 0 (2 ^ 16) 0,  .propertySet (2 ^ 14) 0 0 0,  .propertySet 0 (2 ^ 16) 0 0,
    .nvmeofIdentify (2 ^ 14) 0 0 0,  .nvmeofIdentify 0 (2 ^ 16) 0 0] : List Instr).all (fun i => !i.wellFormed) = true := by decide

theorem test_ill_formed_refused_5 : ([
    .getFeatures (2 ^ 14) 0 0,  .getFeatures 0 (2 ^ 16) 0,  .setFeatures (2 ^ 14) 0 0 0,  .setFeatures 0 (2 ^ 16) 0 0,
    .keepAlive (2 ^ 14) 0,  .keepAlive 0 (2 ^ 16),  .nvmeofAbort (2 ^ 14) 0 0 0,  .nvmeofAbort 0 (2 ^ 16) 0 0,
    .keepAliveTimeout (2 ^ 14),  .roceCommandCapsule (2 ^ 14) 0 (zeros 64) false,
    .roceCommandCapsule 0 (2 ^ 24) (zeros 64) false,  .roceCommandCapsule 0 0 (zeros 63) false,
    .dsmRangeArrive (2 ^ 14) 0 none,  .dsmRangeArrive 0 (2 ^ 16) none,  .roceRemoteAccess (2 ^ 14) 0,
    .roceRemoteAccess 0 (2 ^ 24),  .roceAckReceive (2 ^ 14) .ack 0,  .roceAckReceive 0 .ack (2 ^ 24),
    .roceReadResponse (2 ^ 14) 0 0 [],  .roceReadResponse 0 (2 ^ 24) 0 [],  .roceReadResponse 0 0 64 [],
    .roceAckTimeout (2 ^ 14),  .doorbell { goodHdr with mac := 8 },  .doorbell { goodHdr with mac := 10 }] : List Instr).all (fun i => !i.wellFormed) = true := by decide

theorem test_ill_formed_refused_6 : ([
    .doorbell { goodHdr with dscp := 64 },  .doorbellInline goodHdr (zeros 63),
    .doorbellInline { goodHdr with mac := 8 } (zeros 64),  .doorbellInline { goodHdr with mac := 10 } (zeros 64),
    .doorbellInline { goodHdr with dscp := 64 } (zeros 64),  .fetchResp { goodHdr with mac := 8 } [],
    .fetchResp { goodHdr with mac := 10 } [],  .fetchResp { goodHdr with dscp := 64 } [],
    .data { goodHdr with mac := 8 } [],  .data { goodHdr with mac := 10 } [],  .data { goodHdr with dscp := 64 } [],
    .credit { goodHdr with mac := 8 },  .credit { goodHdr with mac := 10 },  .credit { goodHdr with dscp := 64 },
    .keepalive { goodHdr with mac := 8 },  .keepalive { goodHdr with mac := 10 },
    .keepalive { goodHdr with dscp := 64 },  .odtRetransmit (2 ^ 16),  .odtFetchRetry (2 ^ 16),
    .odtKeepaliveSend (2 ^ 16),  .odtHostSilence (2 ^ 16),  .odtResumeExpire (2 ^ 16),  .odtOpeningExpire (2 ^ 16),
    .odtConnect (2 ^ 18) 0] : List Instr).all (fun i => !i.wellFormed) = true := by decide

theorem test_ill_formed_refused_7 : ([
    .odtConnect 0 (2 ^ 16),  .odtClose (2 ^ 18) 0,  .odtClose 0 (2 ^ 16),  .sqTailDb 64 0 0#32,
    .sqTailDb 0 (2 ^ 18) 0#32,  .cqHeadDb 64 0 0#32,  .cqHeadDb 0 (2 ^ 18) 0#32,  .inlEntry 64 0 (zeros 64),
    .inlEntry 0 (2 ^ 18) (zeros 64),  .inlEntry 0 0 (zeros 63),  .peerWindowTlp 0 (2 ^ 16) false 0 [],
    .busMasterDisable 64 false,  .d3hotEntry 64,  .functionLevelReset 64,  .vfDisable 64,  .dmaCompletionTlp 1024 [],
    .completionTimeout 1024,  .tagRelease 64,  .msixUnmask 64 .control,  .c0PoolReserve (2 ^ 18) 0,
    .c0PoolReserve 0 (2 ^ 16),  .accBusArbitration 4,  .loadKek (2 ^ 18) 0,  .loadKek 0 (2 ^ 16)] : List Instr).all (fun i => !i.wellFormed) = true := by decide

theorem test_ill_formed_refused_8 : ([
    .loadKey (2 ^ 18) 0,  .loadKey 0 (2 ^ 16),  .rekeyWalkStripe (2 ^ 24),  .alu 48 0 {} 0 0 0 0,
    .alu 0 16 {} 0 0 0 0,  .addi 48 0 {} 0 0 0,  .addi 0 16 {} 0 0 0,  .andi 48 0 {} 0 0 0,  .andi 0 16 {} 0 0 0,
    .ori 48 0 {} 0 0 0,  .ori 0 16 {} 0 0 0,  .xori 48 0 {} 0 0 0,  .xori 0 16 {} 0 0 0,  .shi 48 0 {} 0 0 0,
    .shi 0 16 {} 0 0 0,  .seti 48 0 {} 0 0,  .seti 0 16 {} 0 0,  .setiu 48 0 {} 0 0,  .setiu 0 16 {} 0 0,
    .shin 48 0 {} 0 0,  .shin 0 16 {} 0 0,  .lb 48 0 {} 0 0 0,  .lb 0 16 {} 0 0 0,  .lbu 48 0 {} 0 0 0] : List Instr).all (fun i => !i.wellFormed) = true := by decide

theorem test_ill_formed_refused_9 : ([
    .lbu 0 16 {} 0 0 0,  .lh 48 0 {} 0 0 0,  .lh 0 16 {} 0 0 0,  .lhu 48 0 {} 0 0 0,  .lhu 0 16 {} 0 0 0,
    .lw 48 0 {} 0 0 0,  .lw 0 16 {} 0 0 0,  .lwu 48 0 {} 0 0 0,  .lwu 0 16 {} 0 0 0,  .ld 48 0 {} 0 0 0,
    .ld 0 16 {} 0 0 0,  .sb 48 0 {} 0 0 0,  .sb 0 16 {} 0 0 0,  .sh 48 0 {} 0 0 0,  .sh 0 16 {} 0 0 0,
    .sw 48 0 {} 0 0 0,  .sw 0 16 {} 0 0 0,  .sd 48 0 {} 0 0 0,  .sd 0 16 {} 0 0 0,  .atom 48 0 {} 0 0 0 0,
    .atom 0 16 {} 0 0 0 0,  .b 48 0 {} 0,  .b 0 16 {} 0,  .bl 48 0 {} 0] : List Instr).all (fun i => !i.wellFormed) = true := by decide

theorem test_ill_formed_refused_10 : ([
    .bl 0 16 {} 0,  .br 48 0 {} 0,  .br 0 16 {} 0,  .blr 48 0 {} 0 0,  .blr 0 16 {} 0 0,  .cmp 48 0 {} 0 0 0 0,
    .cmp 0 16 {} 0 0 0 0,  .cmpi 48 0 {} 0 0 0 0,  .cmpi 0 16 {} 0 0 0 0,  .plog 48 0 {} 0 0 0 0,
    .plog 0 16 {} 0 0 0 0,  .qpop 48 0 {} 0 0 0 false none,  .qpop 0 16 {} 0 0 0 false none,
    .qpush 48 0 {} 0 0 0 none,  .qpush 0 16 {} 0 0 0 none,  .qhook 48 0 {} 0 0 0 false none,
    .qhook 0 16 {} 0 0 0 false none,  .dmad 48 0 {} 0 0 none,  .dmad 0 16 {} 0 0 none,  .acc 48 0 {} 0 0 none,
    .acc 0 16 {} 0 0 none,  .wait 48 0 {} 0 0,  .wait 0 16 {} 0 0,  .yield 48 0 {}] : List Instr).all (fun i => !i.wellFormed) = true := by decide

theorem test_ill_formed_refused_11 : ([
    .yield 0 16 {},  .getc 48 0 {} 0 0,  .getc 0 16 {} 0 0,  .putc 48 0 {} 0 0,  .putc 0 16 {} 0 0,
    .swpc 48 0 {} 0 0 0,  .swpc 0 16 {} 0 0 0,  .bitc 48 0 {} 0 0 0 false,  .bitc 0 16 {} 0 0 0 false,
    .trap 48 0 {} 0,  .trap 0 16 {} 0,  .eret 48 0 {},  .eret 0 16 {},  .fence 48 0 {} 0 0 0 none,
    .fence 0 16 {} 0 0 0 none,  .illegalWord 48 0 0#32,  .illegalWord 0 16 0#32,  .dmaFaultTrap 48 0,
    .dmaFaultTrap 0 16,  .accResult 48 0,  .accResult 0 16,  .timerEvent 48 0,  .timerEvent 0 16,
    .setSigner (2 ^ 18) 0] : List Instr).all (fun i => !i.wellFormed) = true := by decide

theorem test_ill_formed_refused_12 : ([
    .setSigner 0 (2 ^ 16),  .loadExt (2 ^ 18) 0,  .loadExt 0 (2 ^ 16),  .attachHook (2 ^ 18) 0,
    .attachHook 0 (2 ^ 16),  .detachHook (2 ^ 18) 0,  .detachHook 0 (2 ^ 16),  .unloadExt (2 ^ 18) 0,
    .unloadExt 0 (2 ^ 16),  .regKey (2 ^ 18) 0,  .regKey 0 (2 ^ 16),  .deregKey (2 ^ 18) 0,  .deregKey 0 (2 ^ 16),
    .hello (2 ^ 64) .active false 0 0 false,  .lines (2 ^ 32) [] false,  .commit (2 ^ 32) 0 0 none false,
    .copyAck (2 ^ 32) false false false,  .release (2 ^ 32) false,  .reservationAcquireTimeout 48,  .glimmerSleep 4,
    .presenceEdge 48,  .presenceLost 48,  .fastTrip 48,  .faultTimerExpire 48] : List Instr).all (fun i => !i.wellFormed) = true := by decide

theorem test_ill_formed_refused_13 : ([
    .rampTimeout 48,  .rampComplete 48,  .powerGoodLost 48,  .railGroupGood 4,  .railGroupNotGood 4,
    .insertDelayExpire 48,  .rampStart 48,  .retryExpire 48,  .peerHoldDetect 48,  .shutdownComplete 48 false,
    .rootPortTrainStart 48,  .slotControl (2 ^ 18) 0,  .slotControl 0 (2 ^ 16),  .spmSlotCycle 48,
    .spmSlotRelease 48,  .registerWrite .jtag (2 ^ 28) 0#32,  .registerWrite .jtag 2 0#32,
    .registerWrite (.thread 48 0) 0 0#32,  .rcRead .jtag (2 ^ 28) none,  .rcRead .jtag 2 none,
    .rcRead (.thread 48 0) 0 none,  .rcRead .jtag 0 (some 32),  .aliasWrite .jtag (2 ^ 28) 0 0#32,
    .aliasWrite .jtag 0 32 0#32] : List Instr).all (fun i => !i.wellFormed) = true := by decide

theorem test_ill_formed_refused_14 : ([
    .aliasWrite .jtag 2 0 0#32,  .aliasWrite (.thread 48 0) 0 0 0#32,  .postedWriteApply .jtag 168,
    .postedWriteApply (.thread 48 0) 0,  .sysWsync (.thread 48 0),  .busErrorTimeout (.thread 48 0),
    .sysMode (.thread 48 0) 0#32,  .icuClaim .jtag 4,  .icuClaim (.thread 48 0) 0,  .icuEoi 4 0,  .icuEoi 0 4096,
    .icuMaskSet 128 0#32,  .icuMaskClr 128 0#32,  .icuPendSet 128 0#32,  .icuPendClr 128 0#32,
    .sysRstWarm (.thread 48 0) 0#32,  .sysRstOrderly (.thread 48 0) 0#32,  .resetController (2 ^ 18) 0,
    .resetController 0 (2 ^ 16),  .fwDownload (2 ^ 18) 0,  .fwDownload 0 (2 ^ 16),  .fwActivate (2 ^ 18) 0,
    .fwActivate 0 (2 ^ 16),  .clusterSwitch false 401] : List Instr).all (fun i => !i.wellFormed) = true := by decide

theorem test_ill_formed_refused_15 : ([
    .sysErrFatal (.thread 48 0) 0#32,  .watchdogPet (.thread 48 0) 0#32,  .temperatureReading 8 0,  .smbusTimeout 4,
    .handshakeTimeout 168,  .memoryError (.control 168 0),  .getFatal (2 ^ 18) 0,  .getFatal 0 (2 ^ 16),
    .supplyOutOfWindow 9,  .supplyBelowResetLevel 9,  .cmRtu (2 ^ 14),  .roceRnrTimerExpire (2 ^ 14),  .vfEnable 64,
    .endpointLinkUp 7 0 false,  .endpointLinkUp 0 9 false,  .masterLostRead 64,  .mirrorLinkHalfChange 2 false,
    .driveLinkChange 48 false,  .presenceBounce 48,  .pgoodDeassert 48,  .converterSample 4 0 0,
    .converterSample 0 14 0,  .converterSample 0 0 4096,  .supplyReturnToWindow 9] : List Instr).all (fun i => !i.wellFormed) = true := by decide

theorem test_ill_formed_refused_16 : ([
    .faultHistoryExpire 48] : List Instr).all (fun i => !i.wellFormed) = true := by decide

/-! ### Witnesses: states and operands that meet the hypotheses of the statements -/

theorem test_witness_step_invariant : ∃ t, State.reset.inv ∧ step State.reset = .next t :=
  ⟨State.reset.tick, ⟨rfl, rfl, rfl, fun i hi => by
    have h : State.reset.island i = Island.reset .kn4896 i := by
      show ((List.range 168).map (Island.reset .kn4896)).getD i _ = _
      simp [hi]
    rw [h]
    show Island.okFor (Config.fused .kn4896 i) _
    unfold Island.reset Island.okFor
    split
    · next h => simp [h]
    · next h => split <;> simp [h]⟩, rfl⟩

theorem test_witness_island_request : State.reset.glm.asleep = false ∧ IslState.ofReq ((0#32 : Word).toNat % 4) = some .on
    ∧ State.reset.reqRefused 144 .on = false ∧ (State.reset.island 144).busy = none
    ∧ IslState.on ≠ (State.reset.island 144).state ∧ State.reset.isl.length = 168 := by decide +kernel

theorem test_witness_island_request_ignored : State.reset.glm.asleep = false ∧ (∀ k, Requester.thread 0 0 ≠ .basalt k)
    ∧ (3#32 : Word).toNat % 4 = 3 ∧ 165 ≤ 165 ∧ (1#32 : Word).toNat % 4 ≠ 0 := by
  refine ⟨rfl, fun k h => (nomatch h), by decide, by decide, by decide⟩

/-- Island `n` on its way from ON to `t`. -/
def wMoving (n : Nat) (t : IslState) : State :=
  { State.reset with isl := (List.range 168).map fun i =>
      if i = n then { state := if t = .on then .off else .on, req := t, busy := some ⟨t, 0⟩ } else { state := .on, req := .on } }

theorem test_witness_island_drains : (wMoving 95 .off).glm.asleep = false ∧ (wMoving 95 .off).sys.fatal = none
    ∧ (wMoving 95 .off).isl.length = 168 ∧ ((wMoving 95 .off).island 95).busy = some ⟨.off, 0⟩
    ∧ (wMoving 95 .off).inflight 95 = false ∧ ((wMoving 95 .off).island 95).req = .off
    ∧ ((wMoving 95 .on).island 95).busy = some ⟨.on, 0⟩ ∧ ((wMoving 95 .on).island 95).req = .on := by decide +kernel

theorem test_witness_island_times_out : ({ wMoving 160 .retain with qpe := { cmds := [wCmd []] } } : State).inflight 160 = true
    ∧ (({ wMoving 160 .retain with qpe := { cmds := [wCmd []] } } : State).island 160).busy = some ⟨.retain, 0⟩
    ∧ (({ wMoving 160 .retain with qpe := { cmds := [wCmd []] } } : State).island 160).req = .retain := by decide +kernel

theorem test_witness_admin_rows : (0x42, Instr.deleteQp 5 9) ∈ adminRows 5 9 ∧ State.reset.carried 5 9 0x42 = none := by decide +kernel

theorem test_witness_admin_fails : (wState (ent [(0, 1, 0x42), (2, 2, 9), (56, 4, 5)])).carried 5 9 0x42
      = some (wCmd (ent [(0, 1, 0x42), (2, 2, 9), (56, 4, 5)]))
    ∧ lowest ((wState (ent [(0, 1, 0x42), (2, 2, 9), (56, 4, 5)])).ownOf 5 (ent [(0, 1, 0x42), (2, 2, 9), (56, 4, 5)])).fails
      = some 56 := by decide +kernel

/-- CREATE_QP of queue pair 6 for QID 1 of RoCEv2 permission 0, on engine 6, on a KN4848, which has no engine 6. -/
def wSmall (e : Bytes) : State := { wState e with
  variant := .kn4848
  net := { (wState e).net with allow := [(0, { mac := 0, sub := 0, family := 0, cls := 2, tenant := 0, host := 0 })] } }

def wAbsent : Bytes :=
  ent [(0, 1, 0x41), (2, 2, 9), (8, 1, 6), (9, 1, 2), (10, 1, 2), (12, 4, 0x10000), (16, 4, 2), (28, 4, 2), (56, 4, 6)]
theorem test_witness_admin_absent : lowest ((wSmall wAbsent).ownOf 5 wAbsent).fails = none
    ∧ ((wSmall wAbsent).ownOf 5 wAbsent).absent = true := by decide +kernel

/-- CREATE_QP of queue pair 6 for QID 1 of RoCEv2 permission 0, and DELETE_QP of queue pair 7. -/
def wCreate : Bytes := ent [(0, 1, 0x41), (2, 2, 9), (8, 1, 3), (9, 1, 2), (10, 1, 2), (12, 4, 0x10000), (16, 4, 2), (28, 4, 2), (56, 4, 6)]
def wRoce (e : Bytes) : State := { wState e with
  net := { (wState e).net with allow := [(0, { mac := 0, sub := 0, family := 0, cls := 2, tenant := 0, host := 0 })] } }
def wDelete (op : Nat) : Bytes := ent [(0, 1, op), (2, 2, 9), (56, 4, 7)]
def wTwo (e : Bytes) : State := { wState e with qpe := { (wState e).qpe with qps := [(5, wQp), (7, wQp)] } }

theorem test_witness_create_qp : (wRoce wCreate).adminCan 5 9 0x41 (wCmd wCreate) := by decide +kernel
theorem test_witness_delete_qp : (wTwo (wDelete 0x42)).adminCan 5 9 0x42 (wCmd (wDelete 0x42))
    ∧ ((wTwo (wDelete 0x42)).qp (leAt (wDelete 0x42) 56 4)).state = .active := by decide +kernel
theorem test_witness_reset_qp : (wTwo (wDelete 0x43)).adminCan 5 9 0x43 (wCmd (wDelete 0x43)) := by decide +kernel

/-- A key of function 0 that reads and writes all of its memory. -/
def wKey : KeyEntry :=
  { state := 1, kind := 0, access := 3, tag := 1, tenant := 0, binding := 0, uses := 0, base := 0, length := 2 ^ 48, target := 0
    rkey := 0 }
/-- A part with a key table at the start of HBM: its key 1 is that key. -/
def wKeys (e : Bytes) : State :=
  { wState e with regs := [(Reg.off .mmuKeyBase, 2 ^ 36)], mem := Memory.writeN [] 0x1000000040 wKey.bytes }
def wReg : Bytes := ent [(0, 1, 0x44), (2, 2, 9), (9, 1, 3), (20, 4, 1), (40, 8, 4096)]
def wDereg : Bytes := ent [(0, 1, 0x45), (2, 2, 9), (24, 4, 0x1000001)]

theorem test_witness_reg_key : (wKeys wReg).adminCan 5 9 0x44 (wCmd wReg) ∧ (wKeys wReg).pickKey = some 2 := by decide +kernel
theorem test_witness_dereg_key : (wKeys wDereg).adminCan 5 9 0x45 (wCmd wDereg) := by decide +kernel
/-- The same part with the command's buffer of bytes already pulled and arrived. -/
def wBuffered (e b : Bytes) : State := let s := wKeys e
  { s with qpe := { s.qpe with cmds := [{ wCmd e with pull := some b.length, data := b }] } }
def wKekE : Bytes := ent [(0, 1, 0x58), (2, 2, 9), (24, 4, 0x1000001), (28, 4, 96)]
def wKeyE : Bytes := ent [(0, 1, 0x59), (2, 2, 9), (4, 3, 5), (24, 4, 0x1000001), (28, 4, 40)]
theorem test_witness_load_kek : (wBuffered wKekE (zeros 96)).adminCan 5 9 0x58
      { wCmd wKekE with pull := some 96, data := zeros 96 }
    ∧ (wBuffered wKekE (zeros 96)).bufferIn { wCmd wKekE with pull := some 96, data := zeros 96 } (zeros 96)
    ∧ (wBuffered wKekE (zeros 96)).paired = false := by decide +kernel

theorem test_witness_still_clock : (wSmall []).shd.halfA = false ∧ (wSmall []).shd.halfB = false
    ∧ (wSmall []).sys.activation = none ∧ (wSmall []).sys.orderly = none ∧ (wSmall []).pending = [] := by decide +kernel

theorem test_witness_fused_island : ((wSmall []).coldBase.island 88).state = .fused := by decide +kernel

theorem test_witness_completion_entry : (wCmd []).cid < 2 ^ 16 ∧ (0 : Nat) < 2 ^ 8 ∧ wQp.head < 2 ^ 16 ∧ (5 : Nat) < 2 ^ 32 := by decide

theorem test_witness_doorbell : (wState []).epf.linkUp = true ∧ (wState []).funcEnabled 0 = true ∧ ((wState []).epFunc 0).mse = true
    ∧ (wState []).foreign 0 5 = false ∧ (wState []).isOn 160 = true ∧ (wState []).noQp 5 = false ∧ ((wState []).qp 5).state ≠ .error
    ∧ (15#32 : Word).toNat < ((wState []).qp 5).sqSize ∧ ringCount 0 0 16 ≤ ringCount 0 15 16
    ∧ (0#32 : Word).toNat < ((wState []).qp 5).cqSize ∧ (16#32 : Word).toNat < 2 ^ 16 ∧ ((wState []).qp 5).sqSize ≤ 16
    ∧ ringCount ((wState []).qp 5).head ((wState []).qp 5).tail 16 < 15 ∧ ((wState []).heldOf 5).length < 4 := by decide +kernel
/-- The same with island 160 OFF, or draining towards RETAIN. -/
def wQpeAway (busy : Bool) : State := { wState [] with
  isl := (wState []).isl.set 160 { state := if busy then .on else .off, req := if busy then .retain else .off,
                                      busy := if busy then some { target := .retain, since := 0 } else none } }

theorem test_witness_doorbell_away : (wQpeAway true).isOn 160 = false ∧ ((wQpeAway true).island 160).busy.isSome = true
    ∧ (wQpeAway false).isOn 160 = false ∧ ((wQpeAway false).island 160).busy.isSome = false
    ∧ (wQpeAway true).foreign 0 5 = false := by decide +kernel
theorem test_witness_doorbell_elsewhere : (wState []).foreign 0 6 = false ∧ (wState []).noQp 6 = true
    ∧ (wState []).foreign 1 5 = true ∧ (wState []).funcEnabled 1 = false := by decide +kernel

/-- Queue pair 5 with three slots announced, its ring read with key 1. -/
def wRing : State := { wKeys [] with qpe := { (wKeys []).qpe with
  qps := [(5, { wQp with tail := 3, sqMkey := 0x1000001 })], cmds := [] } }

theorem test_witness_entry_fetch : wRing.isOn 160 = true ∧ (wRing.qp 5).state = .active ∧ (wRing.qp 5).fetch = none ∧ wRing.fetchCount 5 = 3
    ∧ wRing.fetchHeld 5 = false ∧ (wRing.useContext 5).keyOk (wRing.qp 5).sqMkey false 0 192 = true
    ∧ (wRing.useContext 5).keyOk (wRing.qp 5).sqMkey false (2 ^ 48) 192 = false := by decide +kernel
theorem test_witness_entry_fetch_done :
    (({ wRing with qpe := { wRing.qpe with qps := [(5, { wQp with fetch := some (0, 1), fetchSegs := [(0, zeros 64)] })] } } : State).qp
      5).fetch = some (0, 1) ∧ gather 64 [(0, zeros 64)] = some (zeros 64) ∧ gather 64 [(0, zeros 32)] = none := by decide +kernel

def wAbort : Bytes := ent [(0, 1, 8), (2, 2, 9), (40, 2, 4)]
/-- Queue pair 5 carries an ABORT of CID 4, which is a READ not yet issued. -/
def wAborting : State := { wState wAbort with qpe := { (wState wAbort).qpe with
  cmds := [{ wCmd (ent [(0, 1, 1), (2, 2, 4)]) with cid := 4, seq := 1 }, wCmd wAbort] } }

theorem test_witness_flush : (wState (ent [(0, 1, 3), (2, 2, 9)])).carried 5 9 opFlush = some (wCmd (ent [(0, 1, 3), (2, 2, 9)]))
    ∧ (wState (ent [(0, 1, 3), (2, 2, 9)])).cmd 3 = some (wCmd (ent [(0, 1, 3), (2, 2, 9)])) := by decide +kernel
theorem test_witness_abort : wAborting.carried 5 9 opAbort = some (wCmd wAbort)
    ∧ (wAborting.findCmd 5 (leAt wAbort 40 2)).map (fun t => (t.past, t.phase, eOpcode t.entry)) = some (false, .dispatched, 1)
    ∧ (wState wAbort).findCmd 5 (leAt wAbort 40 2) = none := by decide +kernel

theorem test_witness_inspection : (wState []).readsOn 160 = true ∧ 5 = (5#32 : Word).toNat % 2 ^ 18 ∧ 5 < (wState []).qpCount
    ∧ ((wState []).qp 5).state ≠ .free ∧ State.reset.readsOn 160 = false
    ∧ ({ wState [] with variant := .kn4848 } : State).qpCount ≤ (65536#32 : Word).toNat % 2 ^ 18
    ∧ (wState []).readsOn 161 = true ∧ (wState []).gnmNs / 1000 = (wState []).cls.refilled
    ∧ ((wState []).advanceGnm 1000).gnmNs / 1000 = (wState []).cls.refilled + 1
    ∧ ((wState []).advanceGnm 1000).refillStride ≠ 0 := by decide +kernel

/-- Thread 3 of engine 0 is READY with its PC in the scratch memory of the engine. -/
def wThread : State := { wState [] with
  fct := { (wState []).fct with threads := [(3, { state := .ready, pc := 0x4000000#64 })] } }
/-- The state in which its word has been fetched. -/
def wFetched : State := ((wThread.issued 0 3).access 0 3 .fetch false 0x4000000).1.fetchLine 0 3 0x4000000

/-- The address a translation answers. -/
def okAt (r : Except Trap Nat) : Option Nat := match r with | .ok a => some a | .error _ => none
theorem ok_of {p : State × Except Trap Nat} {a : Nat} (h : okAt p.2 = some a) : p = (p.1, .ok a) := by
  obtain ⟨s, r⟩ := p
  cases r <;> simp_all [okAt]

/-- The trap a translation answers. -/
def errAt (r : Except Trap Nat) : Option Trap := match r with | .ok _ => none | .error t => some t
theorem err_of {p : State × Except Trap Nat} {t : Trap} (h : errAt p.2 = some t) : p = (p.1, .error t) := by
  obtain ⟨s, r⟩ := p
  cases r <;> simp_all [errAt]

theorem test_witness_fetched : wThread.fetched 0 3 wFetched :=
  ⟨by decide +kernel, by decide, by decide +kernel, by decide +kernel, by decide +kernel, _, 0x4000000,
    ok_of (by decide +kernel), rfl⟩
theorem test_witness_issues : wThread.issues 0 3 {} wFetched :=
  ⟨test_witness_fetched, by decide +kernel, by decide +kernel⟩
theorem test_witness_register_forms : aluIllegal 0x15 0 = false ∧ (∀ a b, aluFn 0 a b = some (a + b)) ∧ (0x15 ≤ 0x18 ∧ (1 : Fin 32) ≠ 0)
    ∧ (wFetched.thr 0 3).guardOn { neg := true } = false ∧ bitsOf (0x085#12).toNat 7 6 = 2 ∧ bitsOf (0x0C0#12).toNat 7 6 = 3 :=
  ⟨by decide, fun _ _ => rfl, by decide, by decide +kernel, by decide, by decide⟩

theorem test_witness_flow : ((wFetched.thr 0 3).relTarget 1#22) &&& 3#64 = 0#64 ∧ (wFetched.thr 0 3).reg 0 &&& 3#64 = 0#64
    ∧ (wFetched.thr 0 3).umode = false ∧ (wFetched.thr 0 3).intrap = false ∧ ((wFetched.thr 0 3).reg 0).setWidth 16 = 0#16
    ∧ illegalWord (0#32 : Word).toNat = true := by decide +kernel
/-- The same thread in U mode, with g1 = 6 and INTRAP set. -/
def wThread2 (u : Bool) : State := { wState [] with
  fct := { (wState []).fct with threads := [(3, { state := .ready, pc := 0x4000000#64, umode := u, g := [(1, 6#64)], csr := [(0x80, 1#64)] })] } }
def wFetched2 : State := (((wThread2 false).issued 0 3).access 0 3 .fetch false 0x4000000).1.fetchLine 0 3 0x4000000
theorem test_witness_flow_misaligned : (wThread2 false).issues 0 3 {} wFetched2 ∧ (wFetched2.thr 0 3).intrap = true
    ∧ (wFetched2.thr 0 3).umode = false ∧ (wFetched2.thr 0 3).reg 1 &&& 3#64 ≠ 0#64
    ∧ ((wFetched2.thr 0 3).reg 1).setWidth 16 ≠ 0#16 ∧ wFetched2.eventsOf 0 3 &&& ((wFetched2.thr 0 3).reg 1).setWidth 16 = 0#16 :=
  ⟨⟨⟨by decide +kernel, by decide, by decide +kernel, by decide +kernel, by decide +kernel, _, 0x4000000,
    ok_of (by decide +kernel), rfl⟩, by decide +kernel, by decide +kernel⟩, by decide +kernel⟩
/-- The same in U mode, with a translation of its page. -/
def wThreadU : State := (wThread2 true).setEng 0 {
  tlb := [{ vpage := 0x4000000, ppage := 0x4000000, level := 1, asid := 0, flags := 0x3F }] }
def wFetchedU : State := ((wThreadU.issued 0 3).access 0 3 .fetch false 0x4000000).1.fetchLine 0 3 0x4000000
theorem test_witness_user : wThreadU.issues 0 3 {} wFetchedU ∧ (wFetchedU.thr 0 3).umode = true
    ∧ ((wFetchedU.thr 0 3).reg 1).setWidth 16 &&& ~~~0xD#16 ≠ 0#16 :=
  ⟨⟨⟨by decide +kernel, by decide, by decide +kernel, by decide +kernel, by decide +kernel, _, 0x4000000,
    ok_of (by decide +kernel), rfl⟩, by decide +kernel, by decide +kernel⟩, by decide +kernel⟩

theorem test_witness_memory_forms : ∃ u, (wFetched.updThr 0 3 fun x => { x with daddr := 0 }).access 0 3 .load true 0 = (u, .ok 0)
    ∧ u.place 0 = .rom := ⟨_, ok_of (by decide +kernel), by decide +kernel⟩
theorem test_witness_register_access : ∃ u, (wFetched.updThr 0 3 fun x => { x with daddr := 0x10000000 }).access 0 3 .load true
    0x10000000 = (u, .ok 0x10000000) ∧ u.place 0x10000000 = .regs 0 ∧ u.servedNow 0 = true ∧ u.place 0x200000004 = .bitAlias 0 1 :=
  ⟨_, ok_of (by decide +kernel), by decide +kernel⟩
theorem test_witness_memory_trap : ∃ u tr, (wFetched.updThr 0 3 fun x => { x with daddr := 0x40000 }).access 0 3 .store true 0x40000
    = (u, .error tr) := ⟨_, _, err_of (by decide +kernel : errAt _ = some ⟨0x07, some 0x40000⟩)⟩
theorem test_witness_atomic : ∃ u, (wFetched.updThr 0 3 fun x => { x with daddr := 0 }).access 0 3 .atomic false 0 = (u, .ok 0)
    ∧ ((wFetched.thr 0 3).reg 0).toNat % 4 = 0 := ⟨_, ok_of (by decide +kernel), by decide +kernel⟩

theorem test_witness_csr : csrNamed 0 = true ∧ csrWritable 0 = false ∧ csrNamed 5 = false ∧ csrNamed 0x89 = true
    ∧ csrWritable 0x89 = true ∧ wFetched.csrUser 0x89 = false ∧ wFetched.resumed 0 3 = none
    ∧ Config.enginePresent wFetched.variant (bitsOf (0#64 : DWord).toNat 15 10) = true
    ∧ Config.enginePresent .kn4848 (bitsOf (0xC000#64 : DWord).toNat 15 10) = false := by decide +kernel
theorem test_witness_csr_write : ∃ u, wFetched.csrWrite 0 3 0x89 0#64 = .ok u := ⟨_, rfl⟩
theorem test_witness_dma_fault :
    ((({ wThread with fct := { wThread.fct with threads := [(3, { state := .ready, faults := [7#64] })] } } : State).thr 0 3).faults
      = [7#64]) ∧ wThread.engineRuns 0 = true ∧ wThread.savedInstr 0 3 = false ∧ wThread.readsOn 164 = true
    ∧ wThread.readsOn 144 = true := by decide +kernel

/-- The thread with a message of TYPE 0x10 in its inbox, and its two lines at the scratch address in g2. -/
def wMail : State := { wState [] with
  fct := { (wState []).fct with
    threads := [(3, { state := .ready, pc := 0x4000000#64, g := [(1, 0xC0#64), (2, 0x4000040#64), (3, 0xC#64)],
                      inbox := [{ bytes := zeros 128 }] })] }
  mem := [(0x4000040, 0x10)] }
def wMailed : State := ((wMail.issued 0 3).access 0 3 .fetch false 0x4000000).1.fetchLine 0 3 0x4000000
/-- The operand lines of a message instruction, where they can be reached. -/
def linesAt (r : Except Trap (List Nat)) : Option (List Nat) := match r with | .ok a => some a | .error _ => none
theorem lines_of {p : State × Except Trap (List Nat)} {a : List Nat} (h : linesAt p.2 = some a) : p = (p.1, .ok a) := by
  obtain ⟨s, r⟩ := p
  cases r <;> simp_all [linesAt]
theorem test_witness_mail : wMail.issues 0 3 {} wMailed ∧ wMailed.resumed 0 3 = none ∧ (wMailed.thr 0 3).umode = false :=
  ⟨⟨⟨by decide +kernel, by decide, by decide +kernel, by decide +kernel, by decide +kernel, _, 0x4000000,
    ok_of (by decide +kernel), rfl⟩, by decide +kernel, by decide +kernel⟩, by decide +kernel, by decide +kernel⟩
theorem test_witness_qpop : ∃ u ps, wMailed.operand 0 3 .store ((wMailed.thr 0 3).reg 2).toNat 64 2 = (u, .ok ps)
    ∧ (u.mbox 0 3).length = 1 ∧ u.mbox 0 192 = [] :=
  ⟨_, [0x4000040, 0x4000080], lines_of (by decide +kernel), by decide +kernel⟩
theorem test_witness_qpush : ∃ u ps, wMailed.operand 0 3 .load ((wMailed.thr 0 3).reg 2).toNat 64 2 = (u, .ok ps)
    ∧ byteAt (u.loadLines 0 3 ps).2 0 = 0x10 ∧ bitOf (byteAt (u.loadLines 0 3 ps).2 1) 0 = false
    ∧ (u.loadLines 0 3 ps).1.mboxRoom 0 0xC0 = true ∧ ((u.loadLines 0 3 ps).1.clu 0).held = []
    ∧ wMailed.mboxAbsent 0xC0 = false ∧ (u.loadLines 0 3 ps).1.mboxRoom 0 12 = true
    ∧ ((u.loadLines 0 3 ps).1.thr 0 12).state = .halted :=
  ⟨_, [0x4000040, 0x4000080], lines_of (by decide +kernel), by decide +kernel⟩
theorem test_witness_dmad : ∃ u ps w qs, wMailed.operand 0 3 .load ((wMailed.thr 0 3).reg 2).toNat 64 1 = (u, .ok ps)
    ∧ u.operand 0 3 .store ((wMailed.thr 0 3).reg 2).toNat 64 1 = (w, .ok qs) ∧ w.dmaOut 0 3 < 16 :=
  ⟨_, [0x4000040], _, [0x4000040], lines_of (by decide +kernel), lines_of (by decide +kernel), by decide +kernel⟩
/-- The thread with an accelerator request of FUNC 2 over no bytes at the scratch address in g2. -/
def wAcc : State := { wMail with mem := Memory.writeN [] 0x4000040 (toLe 2 1 ++ toLe 2 1 ++ zeros 6 ++ toLe 0x4000100 8 ++ toLe 0x4000200 8 ++ zeros 40) }
def wAcced : State := ((wAcc.issued 0 3).access 0 3 .fetch false 0x4000000).1.fetchLine 0 3 0x4000000
def piecesAt (r : Except Trap (List (Nat × Nat))) : Option (List (Nat × Nat)) := match r with | .ok a => some a | .error _ => none
theorem pieces_of {p : State × Except Trap (List (Nat × Nat))} {a : List (Nat × Nat)} (h : piecesAt p.2 = some a) : p = (p.1, .ok a) := by
  obtain ⟨s, r⟩ := p
  cases r <;> simp_all [piecesAt]
def wAcc1 : State × Bytes := (wAcced.rangeOf 0 3 .load (beatsAt 0x4000040 1)).1.loadBeats 0 3 [(0x4000040, 32)]
def wAcc2 : State × Bytes := (wAcc1.1.rangeOf 0 3 .load (beatsAt 0x4000060 1)).1.loadBeats 0 3 [(0x4000060, 32)]
theorem test_witness_acc : ((wAcced.thr 0 3).reg 2).toNat = 0x4000040 ∧ wAcced.accOut 0 3 < 2
    ∧ byteAt wAcc1.2 1 = 2 ∧ accBad (wAcc1.2 ++ wAcc2.2) 3 = false ∧ byteAt (wAcc1.2 ++ wAcc2.2) 0 = 2
    ∧ (∃ u, wAcced.rangeOf 0 3 .load (beatsAt 0x4000040 1) = (u, .ok [(0x4000040, 32)]))
    ∧ (∃ u, wAcc1.1.rangeOf 0 3 .load (beatsAt (0x4000040 + 32) (2 - 1)) = (u, .ok [(0x4000060, 32)]))
    ∧ (∃ u, wAcc2.1.rangeOf 0 3 .load (pagePieces 18 0x4000200 0) = (u, .ok []))
    ∧ ∃ u, (wAcc2.1.rangeOf 0 3 .load (pagePieces 18 0x4000200 0)).1.rangeOf 0 3 .store (pagePieces 3 0x4000100 (8 + accResultBytes 2))
      = (u, .ok [(0x4000100, 8 + accResultBytes 2)]) :=
  ⟨by decide +kernel, by decide +kernel, by decide +kernel, by decide +kernel, by decide +kernel, ⟨_, pieces_of (by decide +kernel)⟩,
    ⟨_, pieces_of (by decide +kernel)⟩, ⟨_, pieces_of (by decide +kernel)⟩, ⟨_, pieces_of (by decide +kernel)⟩⟩

/-- A granted request of engine 0, thread 3 on the bus of cluster 0, and another that waits for its grant. -/
def wReq (g : Bool) (f : Nat) : AccReq := { engine := 0, thread := 3, c0 := false, func := f, req := zeros 64, src := [], res := [], granted := g, since := 0 }
def wBus (g : Bool) (f : Nat) : State := (wState []).setClu 0 { acc := [wReq g f] }
def wInval : Invalidation := { scope := 0, clusters := 1, asid := 0, va := 0 }
theorem test_witness_bus : (wBus false 2).isOn 144 = true ∧ (wBus false 2).grantOrder 0 = [0]
    ∧ (((wBus false 2).clu 0).presented 0).isSome = true
    ∧ (((wBus true 2).clu (0 / 12)).acc.find? fun a => a.engine == 0 && a.thread == 3 && a.granted && (a.func != 0x10 || a.slice.isSome))
      = some (wReq true 2) := by decide +kernel
theorem test_witness_slice_assign : (wBus true 16).assignStripe = none
    ∧ (((List.range 4).findSome? fun c => (((wBus true 16).clu c).acc.find? fun a => a.func == 0x10
            && a.granted && a.slice.isNone && ((wBus true 16).pickSlice a.c0).isSome).map fun a => (c, a))).isSome = true := by decide +kernel
def wDescs (c : List Chunk) (st : Nat) : State := { wState [] with fct := { (wState []).fct with
  descs := [(1, { engine := 0, thread := 3, va := 0x4000040, pa := 0x4000040, status := st, chunks := c })] } }
theorem test_witness_descriptor : ∃ d, tblFind (wDescs [] 2).fct.descs 1 = some d ∧ (wDescs [] 2).streamGone d = false ∧ d.chunks = []
    ∧ d.status = 2 := ⟨_, rfl, by decide +kernel, rfl, rfl⟩
theorem test_witness_inval : ({ wState [] with fct := { (wState []).fct with invals := [wInval] } } : State).fct.invals = [wInval]
    ∧ bitOf (0x81000000#32 : Word).toNat 31 = true ∧ bitsOf (0x81000000#32 : Word).toNat 27 24 ≠ 0
    ∧ bitOf (1#32 : Word).toNat 31 = false ∧ bitOf (1#32 : Word).toNat 0 = true ∧ (wState []).bit .pmcSmpCtl 0 = false
    ∧ (wState []).smpBase < 0x1000000000 ∧ bitOf (0#32 : Word).toNat 0 = false := by decide +kernel
theorem test_witness_sampling : (((wState []).setReg .pmcSmpBase 0x1000000000).setReg .pmcSmpCtl 1).bit .pmcSmpCtl 0 = true
    ∧ 0x1000000000 ≤ ((wState []).setReg .pmcSmpBase 0x1000000000).smpBase
    ∧ ((wState []).setReg .pmcSmpBase 0x1000000000).smpBase + 32 * 256 ≤ (wState []).hbmEnd := by decide +kernel

/-- Drives 0 to 3 are READY; group 0 mirrors slots 0 and 1 and holds volume 5 on its first region. -/
def wDrive : Drive := { ready := true, linkUp := true, id := { data4096 := true, metaBytes := 64, fua := true, pfau := 16, blocks := 2 ^ 28 } }
def wGroup : Group := { erasure := false, width := 2, m := 0, spare := 0, format1 := false, awu := 16, seed := 0, slots := [0, 1], periods := 1024 }
def wStrata (s : State) : State := { s with str := { s.str with
  drives := [(0, wDrive), (1, wDrive), (2, wDrive), (3, wDrive)]
  groups := [(0, wGroup)]
  members := [(0, { group := 0 }), (1, { group := 0 })]
  volumes := [(5, { group := 0, size := 1024, class0 := false, keyed := false, owner := 0, ext := [0] })] } }
def wMake : Bytes := ent [(0, 1, 0x48), (2, 2, 9), (8, 1, 1), (10, 1, 2), (40, 8, 12)]
def wUnmake : Bytes := ent [(0, 1, 0x49), (2, 2, 9), (8, 1, 0)]
def wNewVol (fl : Nat) : Bytes := ent [(0, 1, 0x4A), (2, 2, 9), (4, 3, 6), (8, 8, 1024), (41, 1, fl)]
def wOldVol : Bytes := ent [(0, 1, 0x4B), (2, 2, 9), (4, 3, 5)]
def wMember (a v : Nat) : Bytes := ent [(0, 1, 0x4E), (2, 2, 9), (9, 1, a), (10, 1, if a = 1 then 0 else 1), (11, 1, v)]
theorem test_witness_create_group : (wStrata (wState wMake)).adminCan 5 9 0x48 (wCmd wMake) := by decide +kernel
theorem test_witness_delete_group :
    ({ wStrata (wState wUnmake) with str := { (wStrata (wState wUnmake)).str with volumes := [] } } : State).adminCan 5 9 0x49 (wCmd wUnmake) := by
  decide +kernel
theorem test_witness_create_volume : (wStrata (wState (wNewVol 0))).adminCan 5 9 0x4A (wCmd (wNewVol 0))
    ∧ (wStrata (wState (wNewVol 1))).adminCan 5 9 0x4A (wCmd (wNewVol 1)) := by decide +kernel
theorem test_witness_delete_volume : (wStrata (wState wOldVol)).adminCan 5 9 0x4B (wCmd wOldVol) := by decide +kernel
theorem test_witness_member_control : (wStrata (wState (wMember 1 2))).adminCan 5 9 0x4E (wCmd (wMember 1 2)) := by decide +kernel
def wAsk (op : Nat) (l : List (Nat × Nat × Nat)) : Bytes := ent ([(0, 1, op), (2, 2, 9), (24, 4, 0x1000001), (28, 4, 4096)] ++ l)
theorem test_witness_identify : (wStrata (wKeys (wAsk 0x4C [(4, 3, 5)]))).adminCan 5 9 0x4C (wCmd (wAsk 0x4C [(4, 3, 5)]))
    ∧ (wStrata (wKeys (wAsk 0x4D []))).adminCan 5 9 0x4D (wCmd (wAsk 0x4D []))
    ∧ (wStrata (wKeys (wAsk 0x4F []))).adminCan 5 9 0x4F (wCmd (wAsk 0x4F [])) := by decide +kernel
/-- A fatal image of 4,096 bytes is held. -/
def wFatal (e : Bytes) : State := let s := wKeys e
  ({ s with mem := Memory.writeN s.mem (s.fatalBase + 48) [0, 0x10, 0, 0] } : State).setField .sysFatal 31 31 1
theorem test_witness_get_fatal : (wFatal (wAsk 0x60 [])).adminCan 5 9 0x60 (wCmd (wAsk 0x60 []))
    ∧ (wFatal (wAsk 0x60 [(9, 1, 1)])).adminCan 5 9 0x60 (wCmd (wAsk 0x60 [(9, 1, 1)])) := by decide +kernel

def wShp (l : List (Nat × Nat × Nat)) : Bytes := ent ([(0, 1, 0x50), (2, 2, 9), (8, 4, 100), (12, 4, 200), (16, 2, 10), (18, 2, 10)] ++ l)
theorem test_witness_set_shaper : (wState (wShp [(46, 1, 2)])).adminCan 5 9 0x50 (wCmd (wShp [(46, 1, 2)]))
    ∧ (wState (wShp [(40, 4, 3)])).adminCan 5 9 0x50 (wCmd (wShp [(40, 4, 3)])) ∧ (wState (wShp [(40, 4, 3)])).shaper 3 = none
    ∧ ({ wState (wShp [(40, 4, 3), (46, 1, 4)]) with cls := { (wState []).cls with shapers := [(3, newShaperEntry { })] } } : State).adminCan 5 9 0x50
      (wCmd (wShp [(40, 4, 3), (46, 1, 4)])) := by decide +kernel
theorem test_witness_commit : (wState []).readsOn 161 = true
    ∧ ((wState []).shaperFails (wState []).stagedShaper).isEmpty = true ∧ (wState []).stagedShaper.c0 = false := by decide +kernel

def wAddr (l : List (Nat × Nat × Nat)) : Bytes := ent ([(0, 1, 0x54), (2, 2, 9), (10, 1, 1), (12, 1, 24), (40, 4, 0x0A000001)] ++ l)
def wAllowE : Bytes := ent [(0, 1, 0x53), (2, 2, 9), (10, 1, 4), (11, 1, 2), (12, 2, 7), (20, 4, 3), (40, 4, 0x0A000002)]
def wConn (n : Nat) : Bytes := ent [(0, 1, 0x51), (2, 2, 9), (10, 1, 4), (12, 2, 99), (14, 2, 16), (20, 4, 3), (24, 4, 100), (40, 4, 0x0A000002), (56, 4, n)]
def wClose : Bytes := ent [(0, 1, 0x52), (2, 2, 9), (56, 4, 6)]
/-- A part whose MAC 0 has one sub-port and a maximum frame of 4096 bytes. -/
def wPorted (e : Bytes) : State := ((wState e).setReg .netPort 2 0).setReg .netMtu 4096 0
theorem test_witness_net_admin : (wPorted (wAddr [])).adminCan 5 9 0x54 (wCmd (wAddr []))
    ∧ (wPorted wAllowE).adminCan 5 9 0x53 (wCmd wAllowE) ∧ (wPorted (wConn (2 ^ 31))).adminCan 5 9 0x51 (wCmd (wConn (2 ^ 31)))
    ∧ ({ wPorted wClose with net := { (wPorted wClose).net with odt := [(6, { state := .opening })] } } : State).adminCan 5 9 0x52 (wCmd wClose)
    ∧ (wState []).readsOn 0 = true ∧ ((wState []).odtConn 6).state = .closed := by decide +kernel

def wSigner : Bytes := ent [(0, 1, 0x5B), (2, 2, 9), (24, 4, 0x1000001), (28, 4, 97)]
def wUnsign : Bytes := ent [(0, 1, 0x5B), (2, 2, 9), (9, 1, 1)]
def wExt : Bytes := ent [(0, 1, 0x5C), (2, 2, 9), (24, 4, 0x1000001), (28, 4, 260)]
def wDown : Bytes := ent [(0, 1, 0x46), (2, 2, 9), (8, 1, 1), (24, 4, 0x1000001), (28, 4, 4096)]
def wHook : Bytes := ent [(0, 1, 0x5D), (2, 2, 9), (12, 4, 64), (20, 4, 3), (56, 4, 3)]
def wUnhook : Bytes := ent [(0, 1, 0x5E), (2, 2, 9)]
def wUnload : Bytes := ent [(0, 1, 0x5F), (2, 2, 9)]
def wSlot (act : Nat) : Bytes := ent [(0, 1, 0x56), (2, 2, 9), (8, 1, 7), (9, 1, act)]
def wReset : Bytes := ent [(0, 1, 0x40), (2, 2, 9), (8, 2, 0x0B07)]
def wImages (e : Bytes) : State := let s := wState e
  { s with fct := { s.fct with images := [(0, zeros 28 ++ [64#8] ++ zeros 3)] } }
def wLatched (e : Bytes) (x : SlotState) : State := let s := wState e
  { s with spm := { s.spm with slots := [(7, { state := x })] } }
theorem test_witness_signer : (wBuffered wSigner (zeros 97)).adminCan 5 9 0x5B { wCmd wSigner with pull := some 97, data := zeros 97 }
    ∧ (wBuffered wSigner (zeros 97)).bufferIn { wCmd wSigner with pull := some 97, data := zeros 97 } (zeros 97)
    ∧ (zeros 97).length ≠ 193 ∧ byteAt wSigner 9 = 0
    ∧ ({ wState wUnsign with fct := { (wState wUnsign).fct with signers := [(0, zeros 97)] } } : State).adminCan 5 9 0x5B (wCmd wUnsign)
    ∧ byteAt wUnsign 9 = 1 := by decide +kernel
theorem test_witness_load_ext : (wBuffered wExt (zeros 260)).adminCan 5 9 0x5C { wCmd wExt with pull := some 260, data := zeros 260 }
    ∧ (wBuffered wExt (zeros 260)).bufferIn { wCmd wExt with pull := some 260, data := zeros 260 } (zeros 260)
    ∧ extHeaderOk (zeros 260) = false
    ∧ extHeaderOk ([0x4E#8, 0x47#8, 0x41#8, 0x54#8, 0x45#8, 0x58#8, 0x45#8, 0x31#8] ++ zeros 252) = false := by decide +kernel
theorem test_witness_hooks : (wImages wHook).adminCan 5 9 0x5D (wCmd wHook)
    ∧ ({ wImages wUnhook with fct := { (wImages wUnhook).fct with
      atts := [(0, { image := 0, hook := 0, kind := 0, failAction := 0, budget := 64, period := 0, tenant := 3, target := 3, due := 0 })] } } : State).adminCan 5 9 0x5E (wCmd wUnhook)
    ∧ (wImages wUnload).adminCan 5 9 0x5F (wCmd wUnload) := by decide +kernel
def withCmd (s : State) (c : Cmd) : State := { s with qpe := { s.qpe with cmds := [c] } }
theorem withCmd_own {s : State} {c : Cmd} {q : Nat} {e : Bytes} (g : eOpcode e = 0x46) : (withCmd s c).ownOf q e = s.ownOf q e := by
  simp only [State.ownOf, g]
  rfl
theorem withCmd_carried {s : State} {c : Cmd} (h : c.phase = .dispatched) (hs : s.stopped c = false) :
    (withCmd s c).carried c.qp c.cid (eOpcode c.entry) = some c := by
  have : (withCmd s c).stopped c = false := hs
  simp only [State.carried, withCmd] at *
  simp [h, this]
theorem withCmd_cmd {s : State} {c : Cmd} : (withCmd s c).cmd c.seq = some c := by
  simp only [State.cmd, withCmd]
  simp
theorem test_witness_download (b : Bytes) (h : b.length = 4096) : ∀ c : Cmd, c = { wCmd wDown with pull := some 4096, data := b } →
    (withCmd (wKeys wDown) c).adminCan 5 9 0x46 c ∧ (withCmd (wKeys wDown) c).bufferIn c b := by
  intro c hc
  have e : eLen wDown = 4096 := by decide +kernel
  have g : eOpcode wDown = 0x46 := by decide +kernel
  have f : lowest ((wKeys wDown).ownOf 5 wDown).fails = none ∧ ((wKeys wDown).ownOf 5 wDown).absent = false := by decide +kernel
  have n : (wKeys wDown).clusterStalled (clusterOf ((wKeys wDown).qp 5).home) = false := by decide +kernel
  have ce : c.entry = wDown ∧ c.qp = 5 ∧ c.cid = 9 ∧ c.phase = .dispatched ∧ c.waiting = false ∧ c.pull = some 4096
      ∧ c.data = b := by subst hc; exact ⟨rfl, rfl, rfl, rfl, rfl, rfl, rfl⟩
  obtain ⟨e1, e2, e3, e4, e5, e6, e7⟩ := ce
  have k := withCmd_carried (s := wKeys wDown) e4 (show (wKeys wDown).clusterStalled _ = false by rw [e2]; exact n)
  rw [e1, e2, e3, g] at k
  exact ⟨⟨k, e5, by rw [e1, withCmd_own g]; exact f.1, by rw [e1, withCmd_own g]; exact f.2⟩,
    withCmd_cmd, by rw [e1, e6, e]; rfl, by rw [e1, e, e7, h]; all_goals exact Nat.le_refl _, by rw [e1, e, e7, ← h, List.take_length]⟩
def wAct : Bytes := ent [(0, 1, 0x47), (2, 2, 9), (8, 1, 1), (9, 1, 1)]
/-- A part whose image slot 1 holds an image that loads. -/
def wImage (b : Bytes) : State := let s := wState wAct
  { s with sys := { s.sys with slots := [(1, b)] } }
theorem test_witness_activate (b : Bytes) (h : (wImage b).imageErr b = 0) : (wImage b).adminCan 5 9 0x47 (wCmd wAct) := by
  refine ⟨rfl, rfl, ?_, rfl⟩
  show lowest (must (decide (byteAt wAct 8 ≤ 1) && ((wImage b).imageErr b == 0) && true && (byteAt wAct 9 != 0 || _)) 8
    ++ must (decide (byteAt wAct 9 ≤ 1)) 9) = none
  rw [h, show (byteAt wAct 9 != 0) = true by decide +kernel, Bool.true_or]
  decide +kernel
theorem test_witness_slot_control : (wLatched (wSlot 0) .disabled).adminCan 5 9 0x56 (wCmd (wSlot 0))
    ∧ (wLatched (wSlot 1) .insert).adminCan 5 9 0x56 (wCmd (wSlot 1)) ∧ (wLatched (wSlot 1) .on).adminCan 5 9 0x56 (wCmd (wSlot 1))
    ∧ (wLatched (wSlot 2) .latched).adminCan 5 9 0x56 (wCmd (wSlot 2))
    ∧ (wLatched (wSlot 3) .quarantined).adminCan 5 9 0x56 (wCmd (wSlot 3))
    ∧ (wState wReset).adminCan 5 9 0x40 (wCmd wReset) ∧ (wState wReset).sys.orderly = none
    ∧ (wState wReset).sys.activation = none := by decide +kernel

def wRw (op : Nat) : Bytes := ent [(0, 1, op), (2, 2, 9), (4, 3, 5), (8, 8, 0), (16, 4, 4), (24, 4, 0x1000001)]
/-- A controller that serves with that group, queue pair and command. -/
def wServing (e : Bytes) : State := let s := wStrata (wKeys e)
  { s with shd := { s.shd with role := .solo }, qpe := { s.qpe with cmds := [{ wCmd e with cls := 2 }] } }
def wWriting (e : Bytes) (cls : Nat) : State := let s := wServing e
  { s with qpe := { s.qpe with cmds := [{ wCmd e with cls, begun := true, todo := [0] }] } }
def wZeroing (e : Bytes) : State := let s := wServing e
  { s with qpe := { s.qpe with cmds := [{ wCmd e with cls := 2, begun := true, todo := [0], pull := some 0 }] } }
def wV : Volume := { group := 0, size := 1024, class0 := false, keyed := false, owner := 0, ext := [0] }
theorem test_witness_read : let s := wServing (wRw opRead); let c := { wCmd (wRw opRead) with cls := 2 }
    s.target c = some (wV, wGroup) ∧ s.carried 5 9 opRead = some c ∧ s.groupDown wV wGroup = false ∧ s.stepThread c = true
      ∧ s.overlapWaits c = false ∧ s.readMasked c wV wGroup = none
      ∧ (readRuns wV wGroup (eSlba c.entry) (eNblk c.entry)).any (s.stripeWaits 0 wGroup.erasure) = false := by decide +kernel
theorem test_witness_write : ∀ op ∈ [opWrite, opZeroes, opTrim], let s := wServing (wRw op); let c := { wCmd (wRw op) with cls := 2 }
    s.target c = some (wV, wGroup) ∧ s.carried 5 9 op = some c ∧ s.groupDown wV wGroup = false ∧ s.stepThread c = true
      ∧ s.genStep c wV wGroup = (s, true) ∧ s.cmd c.seq = some c
      ∧ s.funcSends ((s.keyAt (keyIndex (eMkey c.entry))).binding % 64) = true := by decide +kernel
theorem test_witness_stripe_open : let s := wZeroing (wRw opZeroes)
    let c := { wCmd (wRw opZeroes) with cls := 2, begun := true, todo := [0], pull := some 0 }
    s.target c = some (wV, wGroup) ∧ s.writing 5 9 = some c ∧ s.serves = true ∧ s.overlapWaits c = false
      ∧ rowPresent c wV wGroup 0 = true ∧ s.openAt 0 0 = none ∧ s.uncleaning 0 = false ∧ s.groupDown wV wGroup = false
      ∧ (s.missing wGroup 0).length ≤ wGroup.tol ∧ s.journalFree (c.cls == 0) = true
      ∧ (s.setBit 0 0 c.cls (some c.seq)).2 = true ∧ ((s.setBit 0 0 c.cls (some c.seq)).1.winAdmit 0 0 false).2 = true := by
  decide +kernel
theorem test_witness_reserve : ∀ cls ∈ [2, 0], let s := wWriting (wRw opWrite) cls
    let c := { wCmd (wRw opWrite) with cls, begun := true, todo := [0] }
    s.target c = some (wV, wGroup) ∧ s.writing 5 9 = some c ∧ eOpcode c.entry = opWrite := by decide +kernel

/-- One taken command of class `cls` waits for a thread. -/
def wTaken (cls : Nat) : State := let s := wServing []
  { s with qpe := { s.qpe with cmds := [{ wCmd [] with phase := .taken, order := 1, cls }] } }
theorem test_witness_dispatch : (wTaken 0).readsOn 161 = true ∧ (wTaken 0).clusterStalled 0 = false
    ∧ ((wTaken 0).dispatch 0).cls.busy = (wTaken 0).cls.busy ++ [(0, 14, 5, 9)]
    ∧ (((wTaken 0).dispatch 0).qpe.cmds.find? fun c => c.thread == some (0, 14) && c.phase == .dispatched).isSome = true
    ∧ ((wTaken 2).dispatch 0).cls.busy = (wTaken 2).cls.busy ++ [(0, 0, 5, 9)]
    ∧ ((wState []).dispatch 0).cls.busy = (wState []).cls.busy := by decide +kernel
/-- One unit of class `cls` waits at egress point 8. -/
def wUnit (cls : Nat) : State := let s := wState []
  { s with net := { s.net with egress := [{ point := 8, cls, what := .tlp 0 4096 0 [] }] } }
theorem test_witness_egress : ∀ cls ∈ [0, 2], (wUnit cls).readsOn 161 = true
    ∧ ((wUnit cls).syncEgress 8).egressCan { point := 8, cls, what := .tlp 0 4096 0 [] } = true
    ∧ (wUnit cls).net.egress.length = 1 := by decide +kernel
/-- A member command of class `cls` waits at slot 0, or has been issued. -/
def wMemCmd (cls : Nat) (t : Option Nat) : MemCmd := { id := 7, slot := 0, op := .read, lba := 8, n := 1, cls, who := .label 0, issued := t }
def wMember1 (cls : Nat) (t : Option Nat) : State := let s := wServing []
  { s with str := { s.str with mem := [wMemCmd cls t] } }
theorem test_witness_drive_issue : ∀ cls ∈ [0, 2], (wMember1 cls none).slotServes 0 = true ∧ (wMember1 cls none).readsOn 161 = true
    ∧ ((wMember1 cls none).syncDrive 0).memCan (wMemCmd cls none) = true
    ∧ ((wMember1 cls none).syncDrive 0).waitingAt 0 = [wMemCmd cls none] := by decide +kernel
theorem test_witness_member_completion :
    ((wMember1 2 (some 1)).str.mem.find? fun m => m.slot == 0 && m.id == 7 && m.issued.isSome) = some (wMemCmd 2 (some 1))
    ∧ (wMember1 2 (some 1)).ownerOf (wMemCmd 2 (some 1)) = none ∧ (wMember1 2 (some 1)).takesWrites 0 = true
    ∧ (wState []).str.mem = [] ∧ (wState []).readsOn 32 = true := by decide +kernel
def wIdle : State := let s := wServing []
  { s with str := { s.str with window := [{ group := 0, region := 0, acked := true, last := 0, class0 := false }] } }
theorem test_witness_window_idle : (wIdle.str.window.find? fun w => w.group == 0 && w.region == 0).isSome = true
    ∧ wIdle.regionOpen 0 0 = false := by decide +kernel
def wPolicy : Attachment :=
  { image := 0, hook := 2, kind := 0, failAction := 0, budget := 64, period := 1, tenant := 3, target := 3, due := 0 }
theorem test_witness_policy :
    tblFind ({ wState [] with fct := { (wState []).fct with atts := [(0, wPolicy)] } } : State).fct.atts 0 = some wPolicy := by
  decide +kernel

theorem test_witness_drive_events :
    ((wMember1 2 (some 1)).str.mem.find? fun m => m.slot == 0 && m.id == 7) = some (wMemCmd 2 (some 1))
    ∧ (wMemCmd 2 (some 1)).issued = some 1
    ∧ (({ wState [] with str := { (wState []).str with drives := [(0, { downSince := some 5 })] } } : State).drive 0).downSince = some 5
    ∧ ((wServing []).drive 0).linkUp = true ∧ ((wState []).drive 0).linkUp = false ∧ ((wServing []).drive 0).ready = true
    ∧ ((wState []).drive 0).ready = false := by decide +kernel
theorem test_witness_missing : (wServing []).member 0 = some { group := 0 } ∧ (wServing []).group 0 = some wGroup
    ∧ (wServing []).takesWrites 0 = true ∧ (wServing []).shd.role ≠ .shadow ∧ (wState []).member 0 = none := by decide +kernel
/-- Slot `sl` is powered with its drive out of reset. -/
def wPowered (s : State) (sl : Nat) : State := { s with spm := { s.spm with slots := [(sl, { state := .on, perstOff := true })] } }
def wNewDrive (s : State) (sl : Nat) : State :=
  (s.setDrive sl { ready := true, linkUp := true, id := {}, label := none }).emit (.driveCtl sl "REGISTER")
theorem test_witness_drive_ready : ∀ sl ∈ [0, 4], let s := wPowered (wServing []) sl; let w := wNewDrive s sl
    sl < Config.slots s.variant ∧ s.readsOn (32 + sl) = true ∧ (tblGet ({} : Slot) s.spm.slots sl).perstOff = true
      ∧ parseLabel (zeros 4096) = none ∧ tblFind w.shd.acquiring sl = none ∧ w.shd.role ≠ .shadow ∧ w.serves = true
      ∧ w.member 4 = none ∧ w.member 0 = some { group := 0 } ∧ w.group 0 = some wGroup ∧ wGroup.online = true := by decide +kernel
theorem test_witness_deadline : (wState []).sys.serviceAt = none
    ∧ ({ wServing [] with sys := { (wServing []).sys with serviceAt := some 3 } } : State).sys.serviceAt = some 3
    ∧ (wServing []).sys.deadlinePassed = false := by decide +kernel

/-- An erasure group of 2 + 1 with one spare on slots 0 to 3, slot 0 evacuated onto its spare chunks. -/
def wErase : Group :=
  { erasure := true, width := 2, m := 1, spare := 1, format1 := false, awu := 16, seed := 0, slots := [0, 1, 2, 3], periods := 1024, place := { evac := [0] } }
def wArray (g : Group) (st : MemberState) (ext : List Nat) : State := let s := wServing []
  { s with str := { s.str with
    groups := [(0, g)]
    members := [(0, { group := 0, state := st }), (1, { group := 0 }), (2, { group := 0 }), (3, { group := 0 })]
    volumes := [(5, { wV with ext })]
    paced := [] } }
theorem test_witness_rebuild : let s := wArray wErase .rebuilding [0]; let st := wErase.rebuildNext 0 0
    s.serves = true ∧ s.bgBusy (.rebuild 0) = false ∧ s.rebuildRate true ≠ 0 ∧ st < wErase.usedStripes
      ∧ ((wErase.rebuildRows 0).find? fun x => x.row == st % wErase.rows).isSome = true
      ∧ (s.freeRegions 0 wErase).contains (wErase.regionOf st) = false ∧ s.bgCan 0 st = true ∧ wErase.inScope st = false
      ∧ paceOk s.str.paced (s.rebuildRate true) (s.fillCost wErase st 0) = true := by decide +kernel
theorem test_witness_rebuild_free : let s := wArray wErase .rebuilding []; let st := wErase.rebuildNext 0 0
    (s.freeRegions 0 wErase).contains (wErase.regionOf st) = true
      ∧ s.str.mem.any (fun y => y.who == .spareZero 0 0 st) = false
      ∧ (s.paceRebuild true (costOf (storedBytes wErase.format1) [(1, 16)])).isSome = true := by decide +kernel
theorem test_witness_rebuild_end : (wGroup.rebuildRows 0).find? (fun x => x.row == wGroup.rebuildNext 0 0 % wGroup.rows) = none
    ∧ (wArray wGroup .rebuilding [0]).rebuildRate true ≠ 0 ∧ wGroup.sweep = none
    ∧ wErase.usedStripes ≤ wErase.rebuildNext 0 wErase.usedStripes := by decide +kernel
theorem test_witness_refill : let s := wArray wErase .refilling [0]; let st := wErase.refillNext 0 0
    s.bgBusy (.refill 0) = false ∧ st < wErase.usedStripes ∧ ((wErase.homeRows 0).find? fun x => x.1 == st % wErase.rows).isSome = true
      ∧ wErase.usedStripes ≤ wErase.refillNext 0 wErase.usedStripes := by decide +kernel
/-- The same slot RETURNING with region 0 stale. -/
def wStale (l : Tbl Unit) : State := let s := wArray wErase .returning [0]
  { s with str := { s.str with members := tblIns s.str.members 0 { group := 0, state := .returning, stale := l } } }
theorem test_witness_delta : let u := (wStale [(0, ())]).deltaTo 0 0 0
    ((wStale [(0, ())]).bgBusy (.delta 0) = false) ∧ (u.member 0).any (fun n => n.state == .returning && n.staleAt == 0) = true
      ∧ (wErase.placesOn 0 0).isEmpty = false ∧ u.bgCan 0 0 = true ∧ wErase.inScope 0 = false
      ∧ ((((wStale []).deltaTo 0 0 0).member 0).any fun n => n.state != .returning) = true := by decide +kernel
def wSweep : State := wArray { wErase with sweep := some { old := {}, period := 0 } } .evacuated [0]
/-- The moves come in descending rows: reversed they are the sorted list of the statement. -/
theorem test_witness_sweep : let g := { wErase with sweep := some { old := {}, period := 0 } }
    let mv := (wSweep.sweepMoves g { old := {}, period := 0 }).reverse
    let rows := ((mv.map fun x => x.row).eraseDups).filter fun st => decide (st < g.usedStripes)
    wSweep.group 0 = some g ∧ wSweep.serves = true ∧ mv.Pairwise (fun a b => decide (a.row ≤ b.row) = true) ∧ rows.isEmpty = false
      ∧ rows.any (fun st => !wSweep.bgCan 0 st || g.inScope st) = false
      ∧ paceOk wSweep.str.paced (wSweep.rebuildRate true) (costOf (storedBytes g.format1) (mv.map fun x => (x.slot, 16))) = true := by
  decide +kernel
theorem test_witness_resync : let g := { wErase with resync := [3] }; let s := wArray g .inService [0]
    s.group 0 = some g ∧ g.resyncNext = some 3 ∧ s.gstate 0 ≠ 3 ∧ s.bgCan 0 3 = true
      ∧ paceOk s.str.paced (s.rebuildRate false) (costOf (storedBytes g.format1)
        ((List.range g.n).filterMap fun p => (s.posAt g 3 p).map fun x => (x.1, 16))) = true := by decide +kernel
theorem test_witness_zeroing : let g := { wErase with zeroing := [1] }; let s := wArray g .inService [0]
    s.group 0 = some g ∧ s.bgCan 0 (1 * g.t) = true ∧ s.gstate 0 ≠ 3 := by decide +kernel
def wRepair : State := let s := wArray wGroup .inService [0]
  { s with str := { s.str with repairs := [{ group := 0, stripe := 0, pos := 0, offs := [0], reread := false }] } }
theorem test_witness_repair : wRepair.nextRepair.isSome = true ∧ (wRepair.posAt wGroup 0 0).isSome = true
    ∧ wRepair.bgCan 0 0 = true := by decide +kernel
theorem test_witness_lantern : (wServing []).bit .lntCtl 0 = true ∧ (wServing []).field .lntRate 15 0 ≠ 0
    ∧ (wServing []).serves = true ∧ (wServing []).lanternMend.str.lanternNow = none ∧ (wServing []).readsOn 150 = true
    ∧ (wState []).serves = false := by decide +kernel
def wWalking (r : Nat) : State := let s := wArray wGroup .inService [0]
  { s with cph := { s.cph with walks := [(5, { old := 0, new := 1, begun := true, region := r })] } }
theorem test_witness_walk : let s := wWalking 0
    tblFind s.cph.walks 5 = some { old := 0, new := 1, begun := true } ∧ s.volume 5 = some { wV with ext := [0] }
      ∧ s.group 0 = some wGroup ∧ s.field .cphWalkRate 15 0 ≠ 0 ∧ s.bgCan 0 0 = true ∧ s.gstate 0 ≠ 3 ∧ (s.walkLane 0).isSome = true
      ∧ paceOk s.cph.paced (s.field .cphWalkRate 15 0) (costOf (storedBytes wGroup.format1)
        ((List.range wGroup.n).filterMap fun p => (s.posAt wGroup 0 p).map fun x => (x.1, 16))) = true
      ∧ (wWalking 1).volume 5 = some { wV with ext := [0] } := by decide +kernel
theorem test_witness_captures : (wServing []).readsOn 150 = true ∧ (wServing []).group 0 = some wGroup ∧ (wGroup.seq[0]?).isSome = true
    ∧ wGroup.seq[8000]? = none ∧ (wServing []).readsOn 158 = true ∧ (wServing []).keySlot 3 = none := by decide +kernel

def wLinked : State := let s := wPorted []
  { s with net := { s.net with link := [(0, true)] }, shd := { s.shd with role := .solo } }
def wFrame (k : FrameKind) (ce : Bool) : Frame := { kind := k, dst := if k = .arp then .group else .mac 9, ce, bytes := 128 }
theorem test_witness_frames :
    (wLinked.macPresent 0 && wLinked.subUp 0 0) = true ∧ (wLinked.macPresent 0 && wLinked.subUp 0 1) = false
    ∧ (let t := wLinked.tap 0 0 128 (wLinked.frameDrops 0 0 (wFrame .arp false)) (some []); t.frameDrops 0 0 (wFrame .arp false) = false
        ∧ t.serves = true ∧ t.frameDrops 0 0 (wFrame .other false) = true)
    ∧ (let s : State := { wLinked with net := { wLinked.net with addr := [(0, { mac := some 9 })], odt := [(3, { state := .opening })] } }
       let t := s.tap 0 0 128 (s.frameDrops 0 0 (wFrame (.odt 3) true)) (some [])
       t.frameDrops 0 0 (wFrame (.odt 3) true) = false ∧ t.serves = true ∧ ((t.count .netCeRx).odtConn 3).state ≠ .closed
        ∧ t.frameDrops 0 0 (wFrame .cnp false) = false) := by decide +kernel
/-- Priority 3 of MAC 0 in the state `p`, with PFC on for it. -/
def wPfc (p : Pfc) : State := let s := (wPorted []).setReg .netPfc (2 ^ 27 + 100 * 2 ^ 12 + 50)
  s.setPfc 0 3 p
theorem test_witness_pfc : (wPfc {}).macPresent 0 = true ∧ (wPfc {}).macPresent 8 = false ∧ bitOf ((wPfc {}).reg .netPfc) 27 = true
    ∧ bitOf ((wPfc {}).reg .netPfc) 26 = false ∧ ((wPfc {}).pfcOf 0 3).ignoring = false
    ∧ ((wPfc { ignoring := true }).pfcOf 0 3).ignoring = true ∧ ((wPfc { until_ := some 9 }).pfcOf 0 3).until_ = some 9
    ∧ ((wPfc { xoff := true }).pfcOf 0 3).xoff = true
    ∧ (let a := (wPfc { xoff := true }).advanceTo 2000; a.portCells 0 3 < a.xon)
    ∧ (let s := (wPfc { since := some 0, until_ := some (1000 * msec) }).setReg .netPfcWdog 5
       s.field .netPfcWdog 7 0 = 5 ∧ (s.pfcOf 0 3).since = some 0 ∧ (s.pfcOf 0 3).until_ = some (1000 * msec)) := by decide +kernel
theorem test_witness_links : (let s := (wPorted []).setReg .netPort (2 + 2 ^ 12) 0; (s.subMayRise 0 0 && !s.subUp 0 0) = true)
    ∧ (wLinked.subMayRise 0 0 && !wLinked.subUp 0 0) = false ∧ wLinked.subUp 0 0 = true ∧ (wPorted []).subUp 0 0 = false
    ∧ (wPorted []).net.announce = [] ∧ (({ wLinked with net := { wLinked.net with announce := [7] } } : State).net.announce = [7]) := by
  decide +kernel

/-- A served host of RoCEv2 permission 0 and its connection 3 on queue pair 5, with `m` sent. -/
def wRoceConn (m : List RoceSent) : State :=
  { wLinked with
    net := { wLinked.net with
      allow := [(0, { mac := 0, sub := 0, family := 4, cls := 2, tenant := 3, host := 0x0A000002 })]
      roce := [(3, { established := true, host := 0x0A000002, qp := some 5, sent := m })] } }
def wCmReq : CmReq := { mac := 0, sub := 0, family := 4, host := 0x0A000002 }
def wDesc : Desc := { engine := 0, thread := 0, va := 0, pa := 0 }
theorem test_witness_cm : (wLinked.serves && wLinked.subUp wCmReq.mac wCmReq.sub) = true ∧ (State.reset.serves && State.reset.subUp 0 0) = false
    ∧ (wRoceConn []).allowsOf wCmReq.mac wCmReq.sub wCmReq.family wCmReq.host = [0] ∧ (wRoceConn []).pickRoce = some 0
    ∧ wCmReq.rc = true ∧ wCmReq.service = 4420 ∧ wCmReq.mtu = 1024 ∧ wLinked.allowsOf wCmReq.mac wCmReq.sub wCmReq.family wCmReq.host = [] := by
  decide +kernel
theorem test_witness_roce_conn :
    (∃ c, tblFind (wRoceConn []).net.roce 3 = some c ∧ (wRoceConn []).roceLive 3 = some c ∧ (wRoceConn []).serves = true ∧ c.recover = false
      ∧ c.qp = some 5 ∧ tblFind (wRoceConn []).net.allow c.allow = some { mac := 0, sub := 0, family := 4, cls := 2, tenant := 3, host := 0x0A000002 }
      ∧ (wRoceConn []).isOn 160 = true
      ∧ c.sent.find? (fun m => m.req.isRead && decide ((9 + 2 ^ 24 - m.psn) % 2 ^ 24 < m.n)) = none)
    ∧ (wRoceConn []).roceLive 4 = none := by decide +kernel
theorem test_witness_roce_timers :
    (let s := wRoceConn [{ psn := 1, req := .response 2 [], at_ := 0 }]
     let a := s.advanceTo (0 + s.roceTimeout)
     a.field .netRoceCfg 10 8 = 7 ∧ (let s := s.setReg .netRoceCfg 0; (s.advanceTo (0 + s.roceTimeout)).field .netRoceCfg 10 8 ≤ 0))
    ∧ (let s := (wRoceConn []).setRoce 3 { established := true, rnrWait := some 100, sent := [{ psn := 1, req := .response 2 [], at_ := 0, rnrTries := 1 }] }
       (tblFind s.net.roce 3).map (·.rnrWait) = some (some 100) ∧ (s.advanceTo 100).field .netRoceCfg 6 4 = 7
       ∧ ((s.setReg .netRoceCfg 0).advanceTo 100).field .netRoceCfg 6 4 = 0) := by decide +kernel
theorem test_witness_roce_reads :
    (let m : RoceSent := { psn := 9, req := .readDesc 2 7 0 0 64, at_ := 0 }
     let c : RoceConn := { established := true, host := 0x0A000002, qp := some 5, sent := [m] }
     let s : State := { wRoceConn [m] with fct := { (wRoceConn [m]).fct with descs := [(7, wDesc)] } }
     s.roceLive 3 = some c ∧ c.sent.find? (fun m => m.req.isRead && decide ((9 + 2 ^ 24 - m.psn) % 2 ^ 24 < m.n)) = some m
     ∧ (tblFind (s.descArrive 7 0 (zeros 64)).fct.descs 7).map (·.arrived) = some 64 ∧ (zeros 64).length = min c.mtu (64 - 0)
     ∧ (zeros 63).length ≠ min c.mtu (64 - 0)
     ∧ (tblFind (s.descArrive 7 64 (zeros 64)).fct.descs 7).map (·.arrived) = some 0)
    ∧ (let m : RoceSent := { psn := 9, req := .readPull 2 3 0 0 64, at_ := 0 }
       let c : RoceConn := { established := true, host := 0x0A000002, qp := some 5, sent := [m] }
       let s : State := wRoceConn [m]
       s.roceLive 3 = some c ∧ c.sent.find? (fun m => m.req.isRead && decide ((9 + 2 ^ 24 - m.psn) % 2 ^ 24 < m.n)) = some m
       ∧ (s.cmd 3).isSome = true ∧ ((s.cmd 3).map fun x => s.readOff x 0) = some 0
       ∧ (((s.pullArrive 3 0 (zeros 64)).arrivedAs 3 c.mac 0).cmd 3).map (·.data.length) = some 64)
    ∧ (let m : RoceSent := { psn := 9, req := .readRange 2 4, at_ := 0 }
       [m].find? (fun m => m.req.isRead && decide ((9 + 2 ^ 24 - m.psn) % 2 ^ 24 < m.n)) = some m) := by decide +kernel
theorem test_witness_roce_island : (State.reset.isOn 160 = false ∧ (State.reset.island 160).busy.isSome = false)
    ∧ (let s : State := { wLinked with isl := wLinked.isl.set 160 { state := .on, req := .off, busy := some { target := .off, since := 0 } } }
       s.isOn 160 = false ∧ (s.island 160).busy.isSome = true) := by decide +kernel
/-- Capsules: a Flush, a Write and a Read of 4096 bytes, a Write Zeroes, and a Dataset Management. -/
def wCap (op len cdw11 : Nat) : Bytes :=
  ent [(0, 1, op), (2, 2, 9), (4, 4, 1), (24, 8, 4096), (32, 3, len), (35, 4, 77), (39, 1, 0x40), (44, 4, cdw11)]
theorem test_witness_capsules : capsuleBad (wCap 0 0 0) = false ∧ capsuleBad (wCap 1 4096 0) = false ∧ capsuleBad (wCap 2 4096 0) = false
    ∧ capsuleBad (wCap 8 0 0) = false ∧ capsuleBad (wCap 9 8 4) = true ∧ capsuleBad (ent [(0, 1, 2), (7, 1, 1), (39, 1, 0x40)]) = false
    ∧ byteAt (wCap 1 4096 0) 7 = 0 ∧ byteAt (ent [(0, 1, 2), (7, 1, 1), (39, 1, 0x40)]) 7 ≠ 0
    ∧ ((0 + 2 ^ 24 - 3) % 2 ^ 24 ≥ 2 ^ 23) ∧ ((0 + 2 ^ 24 - (2 ^ 24 - 3)) % 2 ^ 24 < 2 ^ 23)
    ∧ (wRoceConn []).pickKey = none ∧ (let s : State := { wKeys [] with net := (wRoceConn []).net }
       (s.transient 3 3 2 4096 4096 77).isSome = true ∧ (s.transient 3 3 1 4096 4096 77).isSome = true)
    ∧ (let s : State := (wRoceConn []).setRoce 3 { established := true, qp := some 5, dsm := [(9, wCap 9 16 4)] }
       (tblFind s.net.roce 3).map (fun c => (tblFind c.dsm 9).isSome) = some true) := by decide +kernel

/-- The admin queue of the host is connection 3; connection 4 is attached as identifier 1 to queue pair 5, which carries `l`. -/
def wNvme (l : List Cmd) : State := let s := wRoceConn []
  { s with
    net := { s.net with roce := [(3, { established := true, host := 0x0A000002, qid := some 0, kato := 1000 }),
      (4, { established := true, host := 0x0A000002, qid := some 1, qp := some 5 }), (6, { established := true, host := 0x0A000002 })] }
    qpe := { s.qpe with cmds := l, qps := [(5, { wQp with face := .roce 0 1 }), (7, { wQp with face := .roce 0 2 })] }
    str := { s.str with volumes := [(1, { group := 0, class0 := false, owner := 3, size := 4096, keyed := false, ext := [] })] } }
theorem test_witness_fabrics : (wNvme []).roceLive 9 = none
    ∧ (∃ c, (wNvme []).roceLive 4 = some c ∧ c.qid ≠ some 0 ∧ c.qid.isSome = true)
    ∧ (∃ c, (wNvme []).roceLive 6 = some c ∧ c.qid.isSome = false ∧ (wNvme []).allowsOf c.mac c.sub c.family c.host = [0])
    ∧ ((wNvme []).net.roce.any fun e => e.2.qp == some 5) = true ∧ ((wNvme []).net.roce.any fun e => e.2.qp == some 7) = false
    ∧ (∃ c, (wNvme []).roceLive 3 = some c ∧ c.qid = some 0 ∧ c.kato ≠ 0 ∧ (tblFind (wNvme []).net.allow c.allow).isSome = true)
    ∧ ((wNvme []).ownedBy 3).contains 1 = true ∧ ((wNvme []).ownedBy 3).contains 2 = false ∧ ((wNvme []).volume 1).isSome = true
    ∧ ((wNvme []).net.roce.find? fun e => e.2.host == 0x0A000002 && e.2.qid == some 1).bind (fun e => e.2.qp) = some 5 := by
  decide +kernel
theorem test_witness_fabrics_attach : (wNvme []).qpe.qps.find? (fun e => e.2.state != .free && (match e.2.face with
      | .roce a n => n == 2 && ((wNvme []).allowsOf 0 0 4 0x0A000002).contains a
      | _ => false)) = some (7, { wQp with face := .roce 0 2 })
    ∧ (wNvme []).qpe.qps.find? (fun e => e.2.state != .free && (match e.2.face with
      | .roce a n => n == 3 && ((wNvme []).allowsOf 0 0 4 0x0A000002).contains a
      | _ => false)) = none ∧ 15 + 1 ≤ ({ wQp with face := .roce 0 2 } : Qp).sqSize := by decide +kernel
theorem test_witness_fabrics_abort :
    (wNvme []).findCmd 5 9 = none
    ∧ (let t := { wCmd (ent [(0, 1, opRead)]) with past := false }
       (wNvme [t]).findCmd 5 9 = some t ∧ ¬ (eOpcode t.entry = opFlush ∨ eOpcode t.entry = opAbort) ∧ t.phase ≠ .finished ∧ t.noIssue = false)
    ∧ eOpcode (wCmd (ent [(0, 1, opFlush)])).entry = opFlush
    ∧ (let t := { wCmd (ent [(0, 1, 0x4C)]) with phase := .finished, result := some (stSuccess, 0) }
       t.noIssue = true ∧ t.past = false ∧ t.ready.isNone = true) := by decide +kernel

/-- Connection 0 of a served host is `c`; queue pair 5 is bound to it and has asked for slot 0. -/
def wOdt (c : OdtConn) : State :=
  { wLinked with
    net := { wLinked.net with odt := [(0, c)] }
    qpe := { wLinked.qpe with qps := [(5, { wQp with face := .odt 0, fetch := some (0, 1) })] } }
def wOdtAsk : OdtAsk := { seq := 1, qp := 5, slots := some (0, 1), ackedAt := some 0 }
def wPull : OdtAsk := { seq := 2, qp := 5, tag := 4, cmd := 3, len := 64, ackedAt := some 0 }
def wPullDesc : OdtAsk := { wPull with desc := some 7 }
def hdr (qpn seq arg arg2 : Nat) : OdtHdr := { goodHdr with qpn, seq, arg, arg2 }
theorem test_witness_odt_bell :
    (let s := wOdt { state := .established }
     (s.serves && s.subUp 0 0) = true ∧ s.isOn 160 = true ∧ s.odtAccepts (hdr 5 0 0 0) true = true
      ∧ s.odtAccepts { hdr 5 0 0 0 with version := 2 } true = false
      ∧ (let w := s.odtHeard (hdr 5 0 0 0); let c := w.odtConn 0
         (0 = (c.hseq + 1) % 2 ^ 32 ∧ seqGe (w.odtLimit 0) 0 = true ∧ c.state ≠ .opening)
         ∧ seqGe c.hseq 7 = false ∧ seqGe c.hseq (2 ^ 32 - 1) = true))
    ∧ (let s := wOdt { state := .opening }
       s.odtAccepts (hdr 5 0 0 0) true = true ∧ ((s.odtHeard (hdr 5 0 0 0)).odtConn 0).state = .opening) := by decide +kernel
theorem test_witness_odt_answers :
    (let s := wOdt { state := .established, credit := 9, asks := [wOdtAsk, wPull] }
     let w := s.odtHeard (hdr 5 0 0 1); let c := w.odtConn 0
     s.odtAccepts (hdr 5 0 0 1) false = true ∧ s.odtAccepts (hdr 6 0 0 1) false = false
      ∧ c.asks.find? (fun a => a.slots.isSome && a.qp == 5 && a.seq == 1) = some wOdtAsk
      ∧ (0 = 0 % 2 ^ 16 ∧ (zeros 64).length = 64 * 1 ∧ (w.qp wOdtAsk.qp).fetch = some (0, 1)) ∧ ¬ (zeros 63).length = 64 * 1
      ∧ c.asks.find? (fun a => a.slots.isSome && a.qp == 5 && a.seq == 2) = none
      ∧ c.asks.find? (fun a => a.slots.isNone && a.tag % 2 ^ 16 == 4 && a.qp == 5) = some wPull
      ∧ c.asks.find? (fun a => a.slots.isNone && a.tag % 2 ^ 16 == 5 && a.qp == 5) = none
      ∧ seqGe 10 c.credit = true ∧ seqGe 8 c.credit = false) := by decide +kernel
theorem test_witness_odt_data :
    (let s := wOdt { state := .established, asks := [wPull] }
     let w := s.odtHeard (hdr 5 0 4 0); let u := (w.pullArrive wPull.cmd (wPull.base + 0) (zeros 64)).arrivedAs wPull.cmd 0 0
     let v := (w.pullArrive wPull.cmd (wPull.base + 0) (zeros 32)).arrivedAs wPull.cmd 0 0
     (gather 64 (u.askSegs wPull)).isSome = true ∧ (gather 64 (v.askSegs wPull)).isSome = false)
    ∧ (let s := { wOdt { state := .established, asks := [wPullDesc] } with fct := { wLinked.fct with descs := [(7, wDesc)] } }
       let u := (s.odtHeard (hdr 5 0 4 0)).descArrive 7 0 (zeros 64)
       (gather 64 (u.askSegs wPullDesc)).isSome = true ∧ wPullDesc.desc = some 7) := by decide +kernel
theorem test_witness_odt_keepalive :
    (let s := wOdt { state := .failed }
     s.odtAccepts { hdr 0 0 0 0 with flags := 32 } false = true ∧ ((s.odtHeard { hdr 0 0 0 0 with flags := 32 }).odtConn 0).state = .failed)
    ∧ (let s := wOdt { state := .suspect, recover := true }
       s.odtAccepts (hdr 0 0 0 0) false = true ∧ ((s.odtHeard (hdr 0 0 0 0)).odtConn 0).recover = true
        ∧ bitOf 32 5 = true ∧ bitOf (hdr 0 0 0 0).flags 5 = false)
    ∧ (wOdt { state := .opening }).odtAccepts (hdr 0 0 0 0) false = true := by decide +kernel
theorem test_witness_odt_timers :
    (let m : OdtSent := { seq := 1, qpn := 5, flags := 0, msg := .receipt 0 0, at_ := 0, tries := 3 }
     let s := wOdt { state := .established, sent := [m] }
     (s.odtConn 0).state = .established ∧ (s.odtConn 0).sent = [m] ∧ 3 ≤ m.tries ∧ ({ m with tries := 0 } : OdtSent).tries < 3)
    ∧ [wOdtAsk].find? (fun a => a.ackedAt.isSome) = some wOdtAsk ∧ wOdtAsk.ackedAt = some 0 ∧ wOdtAsk.slots = some (0, 1)
    ∧ (let c : OdtConn := { state := .established, asks := [wPull] }
       let u := ((wOdt c).advanceTo (0 + 64 * usec)).setOdt 0 { c with asks := c.asks.map fun x => if x = wPull then { x with ackedAt := none } else x }
       wPull.slots = none ∧ (u.cmd wPull.cmd).isSome = true ∧ u.cmd 9 = none) := by decide +kernel

/-- The endpoint of a linked KN9648 with a virtual function, its aperture 0 translated to function 0. -/
def wEp (ap : Aperture) (tags : Tbl EpTag) : State := let s := wState []
  { s with epf := { s.epf with numVfs := 1, force := [(0, ap)], tags := tags } }
def wAp : Aperture := { en := true, reqId := 256 }
def wTag : EpTag := { func := 0, who := .gone, len := 64, at_ := 0 }
theorem test_witness_peer_window :
    (let s := wEp wAp []
     (s.epf.linkUp && (s.epFunc 0).mse && decide (0 < 2 ^ 30)) = true ∧ wAp = tblGet {} s.epf.force (0 / 2 ^ 24)
      ∧ (wAp.en && wAp.reqId == 256) = true ∧ (wAp.en && wAp.reqId == 257) = false ∧ wAp.data = false
      ∧ s.bar0Size < 2 ^ 25 + 4 ∧ 0 + 4 ≤ s.bar0Size ∧ (s.funcEnabled 0 && (s.epFunc 0).mse) = true
      ∧ (s.funcEnabled 2 && (s.epFunc 2).mse) = false)
    ∧ (State.reset.epf.linkUp && (State.reset.epFunc 0).mse && decide (0 < 2 ^ 30)) = false := by decide +kernel
/-- A device key with peer access, and the aperture that uses it. -/
def wPeerKey : State := (wKeys []).putKey 1
  { state := 1, kind := 3, access := 7, tag := 1, tenant := 0, binding := 0, uses := 0, base := 0, length := 4096, target := 2 ^ 38, rkey := 0 }
theorem test_witness_peer_data :
    (let s := wPeerKey; let k := s.keyAt (keyIndex (2 ^ 24 + 1))
     (s.keyOk (2 ^ 24 + 1) true 0 64 && k.kind == 3 && bitOf k.access 2) = true
      ∧ (let k := s.keyAt (keyIndex 5); (s.keyOk 5 true 0 64 && k.kind == 3 && bitOf k.access 2) = false)) := by decide +kernel
theorem test_witness_win_commit : (State.reset.readsOn 88 && Config.endpoint State.reset.variant) = false
    ∧ ((wState []).readsOn 88 && Config.endpoint (wState []).variant) = true
    ∧ ((List.range 64).all fun a => ((wState []).staged a).off % 4096 == 0 && (((wState []).staged a).data || (wState []).funcEnabled ((wState []).staged a).func)) = true
    ∧ (let s := (wState []).setReg .epfWinOff 4 0
       ((List.range 64).all fun a => (s.staged a).off % 4096 == 0 && ((s.staged a).data || s.funcEnabled (s.staged a).func)) = false) := by
  decide +kernel
theorem test_witness_functions :
    (let s := wEp wAp []
     (s.epf.linkUp && s.funcEnabled 0) = true ∧ (s.epf.linkUp && s.funcEnabled 1) = true ∧ (s.epf.linkUp && s.funcEnabled 2) = false
      ∧ (s.epFunc 0).bme = true ∧ (s.epFunc 1).bme = false ∧ (s.epFunc 0).d3hot = false
      ∧ ((s.setFunc 0 { s.epFunc 0 with d3hot := true }).epFunc 0).d3hot = true
      ∧ (s.epf.linkUp && decide (0 < s.epf.numVfs)) = true ∧ (s.epf.linkUp && decide (1 < s.epf.numVfs)) = false
      ∧ (s.epf.linkUp && Config.endpoint s.variant && decide (s.epf.numVfs < 2 ∧ 2 ≤ 63)) = true
      ∧ (s.epf.linkUp && Config.endpoint s.variant && decide (s.epf.numVfs < 64 ∧ 64 ≤ 63)) = false) := by decide +kernel
theorem test_witness_ep_link :
    (let s := ({ wState [] with epf := { State.reset.epf with perst := false } } : State).setField .epfLink 0 0 1
     (Config.endpoint s.variant && s.bit .epfLink 0 && !s.epf.perst && !s.epf.linkUp
        && ((List.range 8).all fun i => s.isOn (88 + i)) && decide (1 ≤ 5 ∧ 5 ≤ 6) && (8 == 1 || 8 == 2 || 8 == 4 || 8 == 8) && (false || decide (5 < 6))) = true)
    ∧ (wState []).epf.linkUp = true ∧ State.reset.epf.linkUp = false := by decide +kernel
theorem test_witness_tags :
    (let s := wEp wAp [(0, wTag), (1, { wTag with held := some 9 })]
     tblFind s.epf.tags 0 = some wTag ∧ wTag.held = none ∧ tblFind s.epf.tags 2 = none
      ∧ (tblFind s.epf.tags 1).map (·.held) = some (some 9)
      ∧ ((wTag.got ++ zeros 32).take wTag.len).length < wTag.len ∧ wTag.len ≤ ((wTag.got ++ zeros 64).take wTag.len).length
      ∧ (s.epf.tags.filterMap (fun t => if t.2.func = 0 then t.2.held else none)).min? = some 9
      ∧ s.epf.tags.filterMap (fun t => if t.2.func = 1 then t.2.held else none) = []) := by decide +kernel

def wGnm (g : GnmState) (at_ : Option Nat) : State := let s := wState []
  (({ s with gnm := { s.gnm with state := g, edgeAt := at_, missed := 2 } } : State).setField .gnmCtl 0 0 1).advance 1000000000
theorem test_witness_crossbar : (State.reset.advance 4).cellsMove = false ∧ State.reset.readsOn 144 = false ∧ (wState []).readsOn 144 = true
    ∧ Config.portPresent (wState []).variant 0 = true ∧ Config.portPresent (wState []).variant 63 = false
    ∧ (wState []).bit .prismCtl 0 = false ∧ ((wState []).setField .prismCtl 0 0 1).bit .prismCtl 0 = true
    ∧ ¬ (0x1000000000 ≤ (wState []).prismBase)
    ∧ (let s := (wState []).setReg .prismRingBase (2 ^ 36)
       0x1000000000 ≤ s.prismBase ∧ s.prismBase + 256 * 2 ^ (min 16 (max 8 (bitsOf 1 12 8))) ≤ s.hbmEnd) := by decide +kernel
theorem test_witness_pps : State.reset.isOn 164 = false ∧ (wState []).isOn 164 = true ∧ ((wState []).setField .gnmCtl 0 0 0).bit .gnmCtl 0 = false
    ∧ (let s := wGnm .locked (some 0)
       s.bit .gnmCtl 0 = true ∧ s.gnm.state = .locked ∧ (1 * 24997500 ≤ s.periods ∧ s.periods ≤ 1 * 25002500)
       ∧ ¬ (2 * 24997500 ≤ s.periods) ∧ s.gnm.missed + 1 = 3)
    ∧ (let s := wGnm .acquire none; s.gnm.state = .acquire ∧ ¬ (1 * 24997500 ≤ s.periods))
    ∧ (wGnm .free none).gnm.state = .free ∧ (wGnm .holdover none).gnm.rateNext.isSome = false
    ∧ (({ wState [] with gnm := { (wState []).gnm with rateNext := some 0 } } : State).gnm.rateNext.isSome = true)
    ∧ State.reset.glm.asleep = false
    ∧ (({ State.reset with glm := { State.reset.glm with asleep := true } } : State).glm.asleep = true) := by decide +kernel

/-- A linked controller, its pairing block changed by `f`. -/
def wMir (f : Shd → Shd) : State := { wState [] with shd := f { State.reset.shd with halfA := true } }
theorem test_witness_mirror_link : (State.reset.shd.halfA || State.reset.shd.halfB) = false
    ∧ ((wMir id).shd.halfA || (wMir id).shd.halfB) = true ∧ (wMir id).isOn 162 = true ∧ State.reset.isOn 162 = false := by decide +kernel
theorem test_witness_hello :
    (let s := (wMir fun s => { s with role := .active, copy0Acked := true }).setField .shdCtl 0 0 1
     s.bit .shdCtl 0 = true ∧ ((wMir id).setField .shdCtl 0 0 0).bit .shdCtl 0 = false
     ∧ (let u := ({ s with shd := { s.shd with peer := true, peerSerial := 7, peerRole := .pairing, peerLast := false, peerReach := 0, peerNet := 0 } } : State).raise 23
        u.shd.role = .active ∧ (s.shd.peer && s.shd.peerSerial == 7) = false ∧ u.shd.releasing = none))
    ∧ (wMir fun s => { s with role := .solo }).shd.role = .solo ∧ (wMir id).shd.role = .pairing ∧ (wMir id).shd.won = none
    ∧ ((wMir fun s => { s with role := .shadow }).shd.role = .shadow) := by decide +kernel
theorem test_witness_follow : (wMir fun s => { s with role := .shadow }).follows = true ∧ (wMir fun s => { s with role := .active }).follows = false
    ∧ (wMir fun s => { s with renews := [(3, 9)] }).shd.renews.find? (fun r => r.1 == 3) = some (3, 9)
    ∧ (wMir fun s => { s with renews := [(3, 9)] }).shd.renews.find? (fun r => r.1 == 4) = none
    ∧ ((wMir fun s => { s with staged := some (2, [(64, [])]) }).shd.staged.filter fun x => x.1 == 2) = some (2, [(64, [])])
    ∧ (([] : List (Nat × Bytes)).foldl (fun c e => crcRun c (toLe e.1 8 ++ e.2)) 0xFFFFFFFF ^^^ 0xFFFFFFFF = 0) := by decide +kernel
def wCopy : Copy := { num := 4, lines := [], left := [], committed := true }
def wRec (n : Nat) (b : Bool) : LogRec := { num := n, kind := .psnBlock 0 0, at_ := 0, resent := b }
theorem test_witness_log : (wMir id).shd.logging = false ∧ (wMir fun s => { s with logging := true }).shd.logging = true
    ∧ wCopy.num = 4 ∧ wCopy.committed = true ∧ (wMir id).shd.copy = none
    ∧ (true && [wRec 1 true, wRec 2 true].any fun r => r.resent) = true
    ∧ ([wRec 1 true, wRec 2 false].filter fun r => decide (1 < r.num)) = [wRec 2 false] := by decide +kernel
theorem test_witness_release :
    (let s := wMir fun s => { s with role := .shadow, applied := some 4 }; s.shd.role = .shadow ∧ s.shd.applied = some 4)
    ∧ (let s := wMir fun s => { s with role := .active, releasing := some { copy := 4 } }; s.shd.role = .active ∧ s.shd.releasing.isSome = true)
    ∧ (let s := wMir fun s => { s with role := .active }; s.shd.releasing.isSome = false ∧ s.sys.activation = none) := by decide +kernel
theorem test_witness_bulk : (wMir id).bulkTakes .fatal = false ∧ (wMir id).bulkTakes (.kek 1) = true
    ∧ ((wMir fun s => { s with bulkIn := [(.kek 1, zeros 4)] }).shd.bulkIn.find? fun x => x.1 == .kek 1) = some (.kek 1, zeros 4)
    ∧ (let x : Bulk := { kind := .kek 1, bytes := zeros 8 }
       x.bytes.length ≤ 8 ∧ x.acked < 4 ∧ 4 < x.bytes.length ∧ (wMir id).shd.bulk = []) := by decide +kernel

theorem test_witness_pairing :
    (let s := (wMir fun s => { s with pairStart := some 5 }).setField .shdCtl 0 0 1
     s.shd.role = .pairing ∧ s.shd.pairStart = some 5 ∧ s.bit .shdCtl 0 = true ∧ (s.shd.peer && s.bit .shdCtl 0) = false
      ∧ (s.setField .shdCtl 0 0 0).bit .shdCtl 0 = false)
    ∧ (let s := (wMir fun s => { s with pairStart := some 5, peer := true }).setField .shdCtl 0 0 1; (s.shd.peer && s.bit .shdCtl 0) = true)
    ∧ (wMir id).shd.pairStart = none := by decide +kernel
theorem test_witness_epoch :
    (let s := wMir fun s => { s with logging := true }
     (!s.shd.logging || !s.isOn 162 || (s.shd.stopped && s.shd.releasing.isNone)) = false)
    ∧ (!(wMir id).shd.logging || !(wMir id).isOn 162 || ((wMir id).shd.stopped && (wMir id).shd.releasing.isNone)) = true
    ∧ (wMir fun s => { s with log := [wRec 1 false] }).shd.log = [wRec 1 false] := by decide +kernel
theorem test_witness_lease :
    (let s := wMir fun s => { s with role := .active, leaseFrom := some 5 }; s.shd.role = .active ∧ s.shd.leaseFrom = some 5)
    ∧ (let s := wMir fun s => { s with role := .shadow, heardAt := some 5 }; s.shd.role = .shadow ∧ s.shd.heardAt = some 5)
    ∧ (let s := wMir fun s => { s with role := .fenced, tie := some (.waiting 5), arbiter := some 3 }
       s.shd.role = .fenced ∧ s.shd.tie = some (.waiting 5) ∧ (s.advanceTo (5 + 1200 * usec)).shd.arbiter = some 3)
    ∧ (let s := wMir fun s => { s with role := .takingOver, tie := some .preempting }; s.shd.role = .takingOver ∧ s.shd.tie = some .preempting)
    ∧ (let s := wMir fun s => { s with acquiring := [(7, 5)] }; tblFind s.shd.acquiring 7 = some 5 ∧ tblFind s.shd.acquiring 8 = none) := by
  decide +kernel
theorem test_witness_shd_ctl : (wMir id).readsOn 162 = true ∧ State.reset.readsOn 162 = false
    ∧ (let s := wMir fun s => { s with role := .active, copy0Acked := true }
       ¬ (s.shd.role ≠ .active ∨ s.shd.releasing.isSome = true ∨ s.shd.copy0Acked = false))
    ∧ (wMir fun s => { s with role := .shadow }).shd.role = .shadow := by decide +kernel
theorem test_witness_link : ((List.range 4).all fun l => (wMir id).isOn (80 + 4 * 1 + l)) = true ∧ (wMir id).shd.halfA = true
    ∧ (wMir id).shd.halfB = false ∧ ((List.range 4).all fun l => State.reset.isOn (80 + 4 * 1 + l)) = false
    ∧ (wMir fun s => { s with halfB := true }).shd.halfB = true := by decide +kernel

/-- Slot 0 and rail group 0 of a part with every island ON. -/
def wSlotRail (x : Slot) (r : Rail) : State := let s := wState []; { s with spm := { s.spm with slots := [(0, x)], rails := [(0, r)] } }
theorem test_witness_slots : State.reset.slotRuns 0 = false ∧ (wSlotRail {} {}).slotRuns 0 = true ∧ (wSlotRail {} {}).slotRuns 48 = false
    ∧ (wSlotRail { present := true } {}).slot 0 = { present := true } ∧ SlotState.gate .on = true ∧ SlotState.gate .latched = false
    ∧ (wSlotRail { timer := 100000, state := .on } {}).faultLimit ≤ 100000 ∧ ¬ (wSlotRail {} {}).faultLimit ≤ 0
    ∧ (wSlotRail { state := .ramp } {}).now ≤ 0 + 20 * msec ∧ (wSlotRail {} { good := true }).rail (0 / 12) = { good := true }
    ∧ (wSlotRail { state := .queued } { good := true }).nextRamp = some 0
    ∧ (wSlotRail { state := .queued } { good := true }).ramping < (wSlotRail { state := .queued } { good := true }).inrushMax
    ∧ (wSlotRail {} {}).nextRamp = none ∧ (wSlotRail { retryAt := some 9, state := .latched } {}).slot 0 = { retryAt := some 9, state := .latched }
    ∧ (wSlotRail { shutdown := some (0, []), state := .on } {}).slot 0 = { shutdown := some (0, []), state := .on } := by decide +kernel
theorem test_witness_rails : (wSlotRail {} {}).readsOn 163 = true ∧ (wSlotRail {} {}).railPresent 0 = true ∧ (wSlotRail {} {}).railPresent 9 = false
    ∧ (wSlotRail {} { inSince := some 0 }).rail 0 = { inSince := some 0 } ∧ State.reset.readsOn 163 = false
    ∧ (wSlotRail {} { good := true, ok12 := true, ok3 := true }).rail 0 = { good := true, ok12 := true, ok3 := true }
    ∧ 12 * 0 + 3 < Config.slots (wSlotRail {} {}).variant ∧ Config.slots (wSlotRail {} {}).variant ≤ 12 * 4 + 0
    ∧ (wSlotRail {} {}).slotLim 0 ≤ 4095 ∧ 0 < (wSlotRail {} {}).slotLim 0 := by decide +kernel

/-- The fabric with every island ON. -/
def wFab (f : Fabric) : State := { wState [] with fab := f }
theorem test_witness_fabric_access : (wFab {}).glm.asleep = false ∧ ({ State.reset with glm := { State.reset.glm with asleep := true } } : State).glm.asleep = true
    ∧ 6 % 4 ≠ 0 ∧ 234881032 % 4 = 0 ∧ (wFab {}).isStalled (.basalt 0) = false
    ∧ (wFab { stalled := [{ req := .basalt 0, off := 4, op := none, aliasBit := none, since := 0 }] }).isStalled (.basalt 0) = true
    ∧ regAt 12 = none ∧ regAt 4 = some (.sysMode, 0, false) ∧ (Reg.info .sysMode).wide = false ∧ (wFab {}).absentReg .sysMode 0 = false
    ∧ regAt 234881032 = some (.mmuKeyBase, 0, false) ∧ regAt 234881036 = some (.mmuKeyBase, 0, true) ∧ (Reg.info .mmuKeyBase).wide = true
    ∧ (wFab {}).absentReg .mmuKeyBase 0 = false ∧ regAt (Reg.off .icuClaim 0) = some (.icuClaim, 0, false)
    ∧ ({ wFab {} with variant := .kn4848 } : State).absentReg .spmRail 3 = true ∧ regAt (Reg.off .spmRail 3) = some (.spmRail, 3, false) ∧ (wFab {}).servedNow 4 = true
    ∧ ({ wFab {} with isl := [] } : State).servedNow 234881032 = false := by decide +kernel
theorem test_witness_fabric_wide :
    (wFab { held := [(.jtag, 234881032, 7)] }).fab.held.find? (fun e => e.1 == .jtag && e.2.1 == Reg.off .mmuKeyBase 0) = some (.jtag, 234881032, 7)
    ∧ (wFab {}).fab.held.find? (fun e => e.1 == Requester.jtag && e.2.1 == Reg.off .mmuKeyBase 0) = none := by decide +kernel
theorem test_witness_fabric_submit : Reg.owner .sysMode 0 = 165 ∧ Reg.owner .mmuKeyBase 0 ≠ 165 ∧ ((wFab {}).setReg .sysMode 0).field .sysMode 1 0 = 0
    ∧ (wFab {}).field .sysMode 1 0 ≠ 0 ∧ (wFab {}).isOn 144 = true ∧ ({ wFab {} with isl := [] } : State).isOn 144 = false := by decide +kernel
theorem test_witness_fabric_posted :
    (let s := wFab { posted := [{ req := .jtag, off := 234881032, op := .word 1 }] }
     s.fab.posted.find? (fun w => w.req == .jtag && ownerAt w.off == 144) = some { req := .jtag, off := 234881032, op := .word 1 }
      ∧ (s.island 144).busy.isSome = false ∧ s.fab.posted.find? (fun w => w.req == .jtag && ownerAt w.off == 165) = none) := by decide +kernel
theorem test_witness_fabric_error :
    (wFab {}).fab.stalled.find? (fun x => x.req == .jtag) = none
    ∧ (wFab { stalled := [{ req := .jtag, off := 4, op := none, aliasBit := none, since := 0 }] }).fab.stalled.find? (fun x => x.req == .jtag)
      = some { req := .jtag, off := 4, op := none, aliasBit := none, since := 0 }
    ∧ (let s := (wFab { stalled := [{ req := .thread 0 3, off := 4, op := none, aliasBit := none, since := 0 }] }).updThr 0 3 fun y => { y with access := some { rd := 1, signed := false, store := false, va := 8 } }
       s.fab.stalled.find? (fun x => x.req == .thread 0 3) = some { req := .thread 0 3, off := 4, op := none, aliasBit := none, since := 0 }
        ∧ (s.thr 0 3).access.isSome = true) := by decide +kernel
theorem test_witness_snapshot : bitOf (0x80000000#32).toNat 31 = true ∧ bitOf (1#32).toNat 31 = false ∧ (wFab {}).fab.snapAt = none
    ∧ (wFab { snapAt := some 5 }).fab.snapAt = some 5 ∧ (wFab { snapAt := some 5 }).readsOn 164 = true ∧ State.reset.readsOn 164 = false := by decide +kernel

/-- A part with every island ON whose interrupt controller and Glimmer stand as given. -/
def wWake (i : Icu) (g : Glimmer) : State := { wState [] with icu := i, glm := g }
theorem test_witness_icu : (wWake {} {}).glm.asleep = false ∧ (wWake {} { asleep := true }).glm.asleep = true ∧ (wWake {} {}).claimable 0 = none
    ∧ (wWake { pend := 1#4096 <<< 40, mask := 0#4096 } {}).claimable 0 = some 40 ∧ ¬ (Requester.jtag = .basalt 0 ∧ 0 < 4)
    ∧ (0 < 4 ∧ (wWake { active := [some 40] } {}).icu.active.getD 0 none = some 40) ∧ ¬ (0 < 4 ∧ (wWake {} {}).icu.active.getD 0 none = some 40) := by
  decide +kernel
theorem test_witness_sleep : (wWake {} {}).glm.asked = false ∧ (wWake {} { asked := true }).glm.asked = true
    ∧ (let u := (wWake { pend := 1#4096 <<< 40, mask := 0#4096 } { asked := false }).setReg .glmWatch (2 ^ 31 + 40) 0
       u.bit .glmWatch 31 0 = true ∧ srcBit u.pendings (u.field .glmWatch 11 0 0) = true)
    ∧ (∀ i < 64, ¬ ((wWake {} { asked := false }).bit .glmWatch 31 i = true ∧ srcBit (wWake {} {}).pendings ((wWake {} {}).field .glmWatch 11 0 i) = true))
    ∧ ((wWake {} { asleep := true }).setReg .glmTimer 5 0).field .glmTimer 23 0 = 5 ∧ ((wWake {} { asleep := true }).setReg .glmTimer 0 0).field .glmTimer 23 0 = 0
    ∧ (wWake {} { clockLost := true }).glm.clockLost = true ∧ (wWake {} {}).glm.clockLost = false := by decide +kernel

/-- An ADMIN record whose fields are in range. -/
def wAdminRec : Bytes := ([(0, 1, 4), (4, 2, 16), (8, 4, 16), (12, 4, 16), (16, 4, 0x0A000001), (32, 1, 24), (40, 4, 0x0A000002), (72, 4, 100)] : List (Nat × Nat × Nat)).foldl
  (fun b x => b.take x.1 ++ toLe x.2.2 x.2.1 ++ b.drop (x.1 + x.2.1)) (zeros 80)
/-- A part whose boot firmware stands as given. -/
def wSys (f : Sys → Sys) : State := { wState [] with sys := f (wState []).sys, shd := { (wState []).shd with role := .solo } }
theorem test_witness_resets : (wSys id).sysDown (.basalt 0) = false ∧ ({ wSys id with glm := { asleep := true } } : State).sysDown (.basalt 0) = true
    ∧ rstKey (.basalt 0) 0x80000B07 = true ∧ bitOf 0x80000B07 31 = true ∧ rstKey .jtag 0x40000B07 = true ∧ bitOf 0x40000B07 30 = true
    ∧ rstKey (.thread 0 0) 0x40000B07 = false ∧ bitOf 7 31 = false ∧ bitOf 7 30 = false ∧ (wSys id).sys.orderly = none
    ∧ (wSys fun x => { x with orderly := some (4, .drain) }).sys.orderly ≠ none := by decide +kernel
theorem test_witness_roles : (wMir fun s => { s with role := .active }).shd.role = .active ∧ (wMir fun s => { s with role := .shadow }).shd.role = .shadow
    ∧ (wMir fun s => { s with role := .fenced }).shd.role = .fenced ∧ (wMir id).sysDown .jtag = false ∧ (wMir id).sys.orderly = none := by decide +kernel
theorem test_witness_records : (wSys id).sys.flash.queue = []
    ∧ (wSys fun x => { x with flash := { x.flash with queue := [{ typ := 0x02, key := 0, val := none }] } }).sys.flash.queue
      = [{ typ := 0x02, key := 0, val := none }] := by decide +kernel
theorem test_witness_console_digits : hexBytes [0x34#8, 0x46#8] = some [0x4F#8] ∧ hexBytes [0x34#8] = none ∧ adminOk [] = false ∧ adminOk wAdminRec = true := by
  decide +kernel
theorem test_witness_console_line : (ascii "admin").take 5 = ascii "admin" ∧ (ascii "admin").length ≤ 256 ∧ [0x41#8].take 5 ≠ ascii "admin" ∧ 256 < (zeros 257).length
    ∧ [0x41#8].any (fun x => x == 0x0A#8 || x == 0x0D#8) = false ∧ [0x0A#8].any (fun x => x == 0x0A#8 || x == 0x0D#8) = true := by decide +kernel
theorem test_witness_console_state : (wSys id).sys.uart = none ∧ (wSys fun x => { x with uart := some ([], 5) }).sys.uart = some ([], 5) := by decide +kernel
theorem test_witness_switch :
    (let s := wSys fun x => { x with activation := some { seq := 3, slot := 1, old := 0, phase := 3 } }
     s.sys.activation = some { seq := 3, slot := 1, old := 0, phase := 3 } ∧ s.serves = true)
    ∧ (wSys fun x => { x with activation := some { seq := 3, slot := 1, old := 0, phase := 3, stalled := some (0, 4, true) } }).sys.activation
      = some { seq := 3, slot := 1, old := 0, phase := 3, stalled := some (0, 4, true) } ∧ (wSys id).sys.activation = none ∧ 100 ≤ 400 ∧ 400 < 401 := by decide +kernel

/-- A part whose fatal event stands as given. -/
def wFatally (f : Option FatalRun) : State := wSys fun x => { x with fatal := f }
def wRun (c e : Option Nat) : FatalRun := { cause := 5, site := 0, addr := 0, time := 0, role := .solo, complete := c, expired := e }
theorem test_witness_fatal : (wFatally none).sys.fatal = none ∧ (wFatally (some (wRun none none))).sys.fatal = some (wRun none none)
    ∧ (wRun none none).complete = none ∧ (wRun (some 5) none).complete ≠ none ∧ (wRun none (some 5)).expired = some 5 ∧ (wRun none none).expired = none
    ∧ (wRun (some 5) none).complete = some 5 ∧ (wFatally none).bit .sysErrCtl 30 = false ∧ ((wFatally none).setField .sysErrCtl 30 30 1).bit .sysErrCtl 30 = true
    ∧ ((wFatally none).island 40).busy = none ∧ ((wMoving 40 .off).island 40).busy ≠ none := by decide +kernel
theorem test_witness_fatal_words : bitOf (0x8000FA7A#32).toNat 31 = true ∧ (0x8000FA7A#32).toNat % 2 ^ 16 = 0xFA7A
    ∧ ¬ (bitOf (7#32).toNat 31 = true ∧ (7#32).toNat % 2 ^ 16 = 0xFA7A) ∧ (wFatally none).glm.asleep = false ∧ Requester.basalt 0 ≠ .jtag
    ∧ bitOf (0x80000005#32).toNat 31 = true ∧ bitOf (5#32).toNat 31 = false := by decide +kernel
theorem test_witness_watchdog :
    (let s := (wSys fun x => { x with petAt := some 0 }).setField .sysWdog 15 0 7
     s.sys.petAt = some 0 ∧ s.field .sysWdog 15 0 = 7) ∧ (wFatally none).sys.petAt = none ∧ ((wFatally none).setField .sysWdog 15 0 0).field .sysWdog 15 0 = 0
    ∧ (let s := (wSys fun x => { x with petAt := some 0 }).setField .sysWdog 15 0 7
       (s.advanceTo (7 * msec)).sys.fatal = none)
    ∧ (let s := (wSys fun x => { x with petAt := some 0, fatal := some (wRun none none) }).setField .sysWdog 15 0 7
       (s.advanceTo (7 * msec)).sys.fatal = some (wRun none none))
    ∧ (let s := (wSys fun x => { x with petAt := some 0, fatal := some (wRun (some 0) none) }).setField .sysWdog 15 0 7
       (s.advanceTo (7 * msec)).sys.fatal = some (wRun (some 0) none)) := by decide +kernel

/-- A part with three readings of sensor 0 just taken. -/
def wHot (l : List Int) : State := wSys fun x => { x with temps := [(0, l)], tempValid := [(0, true)] }
theorem test_witness_sensors : sensorFused (wHot []).variant 9 = true ∧ sensorFused (wHot []).variant 0 = false
    ∧ (∀ t ∈ ([500, 450, 420, 300] : List Int), -220 ≤ t ∧ t ≤ 600 ∧
      (let l := (t :: (tblFind (wHot [t, t]).sys.temps 0).getD []).take 3
       let u := ({ wHot [t, t] with sys := { (wHot [t, t]).sys with temps := tblIns (wHot [t, t]).sys.temps 0 l, tempValid := tblPut false (wHot [t, t]).sys.tempValid 0 true } } : State).showTemp
       u.hottest = some 0 ∧ l = [t, t, t])) ∧ (wHot []).showTemp.hottest ≠ some 3 := by decide +kernel
theorem test_witness_readings : (∃ x ∈ ([300, 300, 300] : List Int), x < 400) ∧ (∀ x ∈ ([420, 420, 420] : List Int), 400 ≤ x) ∧ (∃ x ∈ ([420, 420, 420] : List Int), x ≤ 440)
    ∧ (∀ x ∈ ([450, 450, 450] : List Int), 440 < x) ∧ (∃ x ∈ ([450, 450, 450] : List Int), x < 480) ∧ (∀ x ∈ ([500, 500, 500] : List Int), 480 ≤ x)
    ∧ (601 : Int) > 600 := by decide +kernel
theorem test_witness_supplies : ((wHot []).setReg .sysSupply 0x1FF).bit .sysSupply 2 = true ∧ ((wHot []).setReg .sysSupply 0).bit .sysSupply 2 = false ∧ 2 ∉ [0, 1, 7, 8] := by
  decide +kernel
theorem test_witness_memory :
    (let s := (wHot []).setEng 0 { dcache := [(64, { bytes := [], dirty := true }), (128, { bytes := [], dirty := false })] }
     (∀ x, tblFind (s.eng 0).dcache 64 = some x → x.dirty = true) ∧ tblFind (s.eng 0).dcache 128 = some { bytes := [], dirty := false })
    ∧ (let s := wThread; s.engineRuns 0 = true ∧ 3 < 16 ∧ (s.thr 0 3).state = .ready)
    ∧ ¬ ((wHot []).engineRuns 0 = true ∧ 99 < 16 ∧ ((wHot []).thr 0 99).state = .ready) := by
  refine ⟨⟨fun x h => ?_, by decide +kernel⟩, by decide +kernel, fun h => absurd h.2.1 (by decide)⟩
  have e : tblFind (((wHot []).setEng 0 { dcache := [(64, { bytes := [], dirty := true }), (128, { bytes := [], dirty := false })] }).eng 0).dcache 64
      = some { bytes := [], dirty := true } := by decide +kernel
  rw [e] at h; cases h; rfl
theorem test_witness_cells : (wState [0x01#8]).carried 5 9 opRead ≠ none ∧ (wState [0x02#8]).carried 5 9 opWrite ≠ none ∧ (wState []).carried 5 9 opRead = none
    ∧ (wState []).carried 5 9 opWrite = none ∧ (wCmd [0x02#8]).past = false ∧ (wCmd [0x02#8]).repulled.contains 0 = false
    ∧ 4096 * 0 + 4096 ≤ ({ wCmd [0x02#8] with data := zeros 4096 } : Cmd).data.length ∧ (wCmd []).data.length < 4096 * 0 + 4096 := by decide +kernel

end Sys2Proof.Tests
end

section
/-! PROOFS. Scope: an admin command's own checks, what one step is, and that every command completes. -/

namespace Sys2Proof.Machine

/-- With both halves of the Mirror link down no frame leaves (R548). -/
theorem State.wireNext_linkDown {s : State} (ha : s.shd.halfA = false) (hb : s.shd.halfB = false) : s.wireNext = s := by
  unfold State.wireNext
  exact if_pos (Or.inl (by rw [ha, hb]; rfl))

theorem State.stallStep_noActivation {s : State} (h : s.sys.activation = none) : s.stallStep = s := by
  unfold State.stallStep
  rw [h]

theorem State.activationStep_noActivation {s : State} (h : s.sys.activation = none) : s.activationStep = s := by
  unfold State.activationStep
  rw [h]

theorem State.orderlyOnce_noOrderly {s : State} (h : s.sys.orderly = none) : s.orderlyOnce = s := by
  unfold State.orderlyOnce
  rw [h]

theorem State.orderlyStep_noOrderly {s : State} (h : s.sys.orderly = none) : s.orderlyStep = s := by
  simp only [State.orderlyStep, State.orderlyOnce_noOrderly h]

/-- With nothing under way a cycle is the passing of time alone. -/
theorem State.tick_idle {s : State} (ha : s.shd.halfA = false) (hb : s.shd.halfB = false)
    (hact : s.sys.activation = none) (hord : s.sys.orderly = none) : s.tick = s.advance 1 := by
  have hwire : (s.advance 1).wireNext = s.advance 1 := State.wireNext_linkDown ha hb
  have hstall : (s.advance 1).stallStep = s.advance 1 := State.stallStep_noActivation hact
  have hswitch : (s.advance 1).activationStep = s.advance 1 := State.activationStep_noActivation hact
  have hreset : (s.advance 1).orderlyStep = s.advance 1 := State.orderlyStep_noOrderly hord
  unfold State.tick
  rw [hwire, hstall, hswitch, hreset]

theorem step_pending_nil {s : State} (h : s.pending = []) : step s = .next s.tick := by
  unfold step
  rw [h]

theorem step_pending_cons {s : State} {c : Instr} {rest : List Instr} (h : s.pending = c :: rest) :
    step s = exec c { s with pending := rest } := by
  unfold step
  rw [h]

/-- Settles O4: each of the 30 rows runs through `adminRun`, which checks before it takes effect. -/
theorem adminCommandsCheckTheirOwnFieldsFirst : Obligations.AdminCommandsCheckTheirOwnFieldsFirst := by
  intro s q cid op i hrow
  obtain ⟨f, hrun⟩ := adminRows_run q cid (op, i) hrow
  have hexec : exec i s = .next (s.adminRun q cid op f) := hrun s
  rw [hexec]
  refine ⟨fun hnone => ?_, fun c hcarried => ⟨fun hwaits => ?_, fun hready => ⟨fun k hfails => ?_, fun hpass habsent => ?_⟩⟩⟩
  · rw [adminRun_none hnone]
  · rw [adminRun_waits hcarried hwaits]
  · rw [adminRun_fails hcarried hready hfails]
  · rw [adminRun_absent hcarried hready hpass habsent]

/-- Settles O7: the queue is matched on, and with nothing under way the parts of a cycle behind the clock change nothing. -/
theorem aStepRunsTheFrontCommand : Obligations.AStepRunsTheFrontCommand := by
  refine ⟨fun c rest s => ?_, fun s hempty => ?_, fun s ha hb hact hord hempty => ?_⟩
  · exact step_pending_cons rfl
  · exact step_pending_nil hempty
  · rw [step_pending_nil hempty, State.tick_idle ha hb hact hord]
    rfl

/-- Settles O43: whatever the command, its meaning is `.next` of a state that it computes; no arm of the dispatcher is a
fault or a refusal (the model's convention, log entry 5). -/
theorem everyCommandCompletes : Obligations.EveryCommandCompletes := by
  intro i s
  cases i <;> exact ⟨_, rfl⟩

end Sys2Proof.Machine
end

section
/-! PROOFS. Scope: the invariant of every step, the islands at a reset, and a request for an island's state. -/

namespace Sys2Proof.Machine

/-! ### The invariant -/

theorem State.inv_since_past {s : State} (h : s.inv) : s.since s.past :=
  ⟨h, List.suffix_refl _, Nat.le_refl _, Nat.le_refl _, rfl⟩

/-- One step, whether it runs the front command or lets a cycle pass, goes on from the past with the front command taken. -/
theorem step_since {s t : State} (h : s.inv) (hstep : step s = .next t) :
    t.since { s.past with pending := s.pending.tail } := by
  cases hqueue : s.pending with
  | nil =>
    rw [step_pending_nil hqueue] at hstep
    cases hstep
    have hpast : ({ s.past with pending := [] } : Past) = s.past := by rw [← hqueue]; rfl
    rw [List.tail_nil, hpast]
    exact State.tick_since s (State.inv_since_past h)
  | cons c rest =>
    rw [step_pending_cons hqueue] at hstep
    have htaken : ({ s with pending := rest } : State).since { s.past with pending := rest } :=
      State.inv_since_past (s := { s with pending := rest }) h
    exact exec_since c _ htaken t hstep

/-- Settles O1: `exec_since` gives it for each command, `tick_since` for a cycle. -/
theorem everyStepKeepsTheInvariant : Obligations.EveryStepKeepsTheInvariant := by
  intro s t hinv hstep
  obtain ⟨hinvAt, hout, hnow, hdraws, hpending⟩ := step_since hinv hstep
  have hvariant : t.variant = s.variant := hinvAt.1
  refine ⟨?_, hvariant, hpending, hout, hnow, hdraws⟩
  unfold State.inv
  rw [hvariant]
  exact hinvAt

/-! ### The islands at a reset -/

theorem resetOf_island (v : Variant) {i : Nat} (hi : i < 168) : (State.resetOf v).island i = Island.reset v i :=
  island_map _ _ rfl i hi

/-- Settles O9: each island starts as its variant has it, and everything else of the invariant is empty. -/
theorem theResetStateHasTheInvariant : Obligations.TheResetStateHasTheInvariant := by
  refine ⟨⟨rfl, rfl, ?_, fun i hi => ?_⟩, rfl, rfl, rfl, rfl⟩
  · show ((List.range 168).map (Island.reset .kn4896)).length = 168
    rw [List.length_map, List.length_range]
  · rw [State.reset, resetOf_island _ hi]
    exact Island.reset_okFor _ i

theorem Island.reset_state (v : Variant) (i : Nat) :
    (Island.reset v i).state = if Config.fused v i then .fused else if 165 ≤ i then .on else .off := by
  unfold Island.reset
  split
  · rfl
  · split <;> rfl

theorem Island.reset_req (v : Variant) (i : Nat) :
    (Island.reset v i).req = if Config.fused v i then .off else if 165 ≤ i then .on else .off := by
  unfold Island.reset
  split
  · rfl
  · split <;> rfl

/-- Beside island 167, a WARM reset differs from a COLD one in the two islands that it leaves in RETAIN (R654). -/
theorem warmIsland_of_ne {s : State} {i : Nat} (hi : i ≠ 167) : s.warmIsland i =
    if (i = 148 ∨ i = 149) ∧ Config.fused s.variant i = false then { state := .retain, req := .retain }
    else Island.reset s.variant i := by
  unfold State.warmIsland
  rw [if_neg hi]
  simp only [Bool.not_eq_true']

theorem warmIsland_state {s : State} {i : Nat} (hi : i ≠ 167) : (s.warmIsland i).state =
    if Config.fused s.variant i then .fused else if 165 ≤ i then .on else if i = 148 ∨ i = 149 then .retain else .off := by
  rw [warmIsland_of_ne hi]
  by_cases hretain : i = 148 ∨ i = 149
  · have hlow : ¬ 165 ≤ i := by omega
    cases hfused : Config.fused s.variant i <;> simp [hretain, hlow, hfused, Island.reset_state]
  · simp [hretain, Island.reset_state]

theorem warmIsland_req {s : State} {i : Nat} (hi : i ≠ 167) : (s.warmIsland i).req =
    if Config.fused s.variant i then .off else if 165 ≤ i then .on else if i = 148 ∨ i = 149 then .retain else .off := by
  rw [warmIsland_of_ne hi]
  by_cases hretain : i = 148 ∨ i = 149
  · have hlow : ¬ 165 ≤ i := by omega
    cases hfused : Config.fused s.variant i <;> simp [hretain, hlow, hfused, Island.reset_req]
  · simp [hretain, Island.reset_req]

/-! ### A request for an island's state -/

theorem islandReqWrite_awake {s : State} (rq : Requester) (n : Nat) (v : Word) (h : s.glm.asleep = false) :
    exec (.islandReqWrite rq n v) s = .next (s.islReq rq n (v.toNat % 4)) := by
  show Host.Outcome.next _ = _
  rw [if_neg (by rw [h]; decide)]

/-- A write of REQ that changes nothing changes nothing while the device sleeps either. -/
theorem islandReqWrite_ignored {s : State} {rq : Requester} {n : Nat} {v : Word} (h : s.islReq rq n (v.toNat % 4) = s) :
    exec (.islandReqWrite rq n v) s = .next s := by
  show Host.Outcome.next _ = _
  rw [h, ite_self]

theorem reqRefused_fused {s : State} {n : Nat} (nxt : IslState) (h : (s.island n).state = .fused) :
    s.reqRefused n nxt = true := by
  unfold State.reqRefused
  simp [h]

/-- Islands 165 to 167 are always on (R33). -/
theorem reqRefused_alwaysOn {s : State} {n : Nat} {nxt : IslState} (h : 165 ≤ n) (hnxt : nxt ≠ .on) :
    s.reqRefused n nxt = true := by
  unfold State.reqRefused
  simp [h, hnxt]

theorem IslState.ofReq_ne_on {r : Nat} {nxt : IslState} (h : IslState.ofReq r = some nxt) (hr : r ≠ 0) : nxt ≠ .on := by
  intro hon
  subst hon
  unfold IslState.ofReq at h
  split at h <;> simp_all

theorem islReq_otherRequester {s : State} {rq : Requester} (n v : Nat) (h : ∀ k, rq ≠ .basalt k) : s.islReq rq n v = s := by
  cases rq with
  | basalt k => exact absurd rfl (h k)
  | jtag => rfl
  | thread e t => rfl

theorem islReq_noState {s : State} (rq : Requester) (n : Nat) {v : Nat} (h : IslState.ofReq v = none) : s.islReq rq n v = s := by
  unfold State.islReq
  rw [h]
  cases rq <;> rfl

theorem islReq_refused {s : State} (rq : Requester) {n v : Nat}
    (h : ∀ nxt, IslState.ofReq v = some nxt → 168 ≤ n ∨ s.reqRefused n nxt = true) : s.islReq rq n v = s := by
  unfold State.islReq
  split
  · next nxt hnxt => exact if_pos (h nxt hnxt)
  · rfl

/-- A write of REQ of a FUSED island (R33). -/
theorem islandReqWrite_fused {s : State} (rq : Requester) {n : Nat} (v : Word) (h : (s.island n).state = .fused) :
    exec (.islandReqWrite rq n v) s = .next s :=
  islandReqWrite_ignored (islReq_refused rq fun nxt _ => Or.inr (reqRefused_fused nxt h))

/-- Settles O8: the islands that `coldBase` and `warmBase` list, and the request that a FUSED island ignores. -/
theorem islandsAfterResetAreAsTheVariantSays : Obligations.IslandsAfterResetAreAsTheVariantSays := by
  refine ⟨fun s i hi => ?_, fun s k i hi => ⟨fun hne => ?_, fun heq => ?_⟩, fun s rq i v hfused => islandReqWrite_fused rq v hfused,
    fun i hi => resetOf_island _ hi, rfl, rfl⟩
  · rw [coldBase_island s i hi]
    exact ⟨Island.reset_state .., Island.reset_req ..⟩
  · rw [warmBase_island s k i hi]
    exact ⟨warmIsland_state hne, warmIsland_req hne⟩
  · rw [warmBase_island s k i hi, State.warmIsland, if_pos heq, heq]

theorem State.portsOff_isl {s : State} (n : Nat) (h : s.glm.asleep = false) : (s.portsOff n).isl = s.isl := by
  have hislv : (s.portsOff n).islv = (s.isl, false, s.sys.fatal) :=
    State.portsOff_islv s n (by rw [State.islv, h])
  exact congrArg Prod.fst hislv

/-- No sub-port uses an island that is no lane, nor a lane that no enabled sub-port names (R261). -/
theorem portsOff_unused {s : State} {k : Nat}
    (h : 32 ≤ k ∨ ∀ j, j < 4 → s.bit .netPort (12 + j) (k / 4) = true → (s.lanesOf (k / 4) j).contains k = false) :
    s.portsOff k = s := by
  unfold State.portsOff
  refine if_pos (h.imp id fun hunused => ?_)
  rw [List.isEmpty_iff, List.filter_eq_nil_iff]
  intro j hj husing
  obtain ⟨hbit, hlane⟩ := Bool.and_eq_true_iff.mp husing
  rw [hunused j (List.mem_range.mp hj) hbit] at hlane
  exact Bool.noConfusion hlane

theorem setIsland_setIsland (s : State) (n : Nat) (x y : Island) : (s.setIsland n x).setIsland n y = s.setIsland n y := by
  unfold State.setIsland
  rw [setAt_setAt]

/-- The steward begins the transition with the new REQ in place: one write of the island says both (R33, R35). -/
theorem islBegin_setReq {s : State} {n : Nat} {nxt : IslState} (hn : n < s.isl.length) (hbusy : (s.island n).busy = none)
    (hmoves : nxt ≠ (s.island n).state) (hfused : (s.island n).state ≠ .fused)
    (hretain : ¬((s.island n).state = .off ∧ nxt = .retain)) :
    ∃ w : State, (s.setIsland n { s.island n with req := nxt }).islBegin n
        = (w.setIsland n { s.island n with req := nxt, busy := some { target := nxt, since := w.now } }).trace 1 n
      ∧ w = if cellIslands.contains n ∧ (s.island n).state = .on then
          { s with xbr := { s.xbr with intake := some (s.xbr.intake.getD s.xbr.nextRun) } } else s := by
  have hisl := isl_same s n { s.island n with req := nxt } hn
  obtain ⟨w, hbegin, hw⟩ := islBegin_now (s.setIsland n { s.island n with req := nxt }) n (by rw [hisl]; exact hbusy)
    (by rw [hisl]; exact hmoves) (by rw [hisl]; exact hfused) (by rw [hisl]; exact hretain)
  refine ⟨_, ?_, rfl⟩
  rw [hbegin, hw, hisl]
  split
  · exact trace_congr (setIsland_setIsland { s with xbr := { s.xbr with intake := some (s.xbr.intake.getD s.xbr.nextRun) } } n _ _) 1 n
  · exact trace_congr (setIsland_setIsland s n _ _) 1 n

/-- Settles O2: a request that is neither ignored nor refused is `islBegin` with the new REQ in place. -/
theorem islandRequestStartsOnlyWhatBasaltMayAsk : Obligations.IslandRequestStartsOnlyWhatBasaltMayAsk := by
  refine fun s n v hawake => ⟨fun k nxt hn hreq hallowed hbusy hmoves hretain hlen => ?_, fun k => portsOff_unused,
    fun rq hignored => islandReqWrite_ignored ?_⟩
  · have hfused : (s.island n).state ≠ .fused := fun h => by
      rw [reqRefused_fused nxt h] at hallowed
      exact Bool.noConfusion hallowed
    obtain ⟨u, hu⟩ : ∃ u : State, u = if nxt = .on then s else s.portsOff n := ⟨_, rfl⟩
    have hisl : u.isl = s.isl := by
      rw [hu]
      split
      · rfl
      · exact State.portsOff_isl n hawake
    have hsame : u.island n = s.island n := isl_of s u hisl n
    obtain ⟨w, hbegin, hw⟩ := islBegin_setReq (s := u) (n := n) (nxt := nxt) (by rw [hisl, hlen]; exact hn)
      (by rw [hsame]; exact hbusy) (by rw [hsame]; exact hmoves) (by rw [hsame]; exact hfused) (by rw [hsame]; exact hretain)
    rw [hsame] at hbegin hw
    have hwrite : s.islReq (.basalt k) n (v.toNat % 4) = (u.setIsland n { u.island n with req := nxt }).islBegin n := by
      unfold State.islReq
      rw [hreq, hu]
      exact if_neg (by rw [hallowed]; simp; omega)
    refine ⟨u, w, ?_, hu, hisl, hw⟩
    rw [islandReqWrite_awake _ _ _ hawake, hwrite, hsame, hbegin]
  · rcases hignored with hother | hthree | hfused | hnone | ⟨halways, hnotOn⟩
    · exact islReq_otherRequester _ _ hother
    · exact islReq_noState _ _ (by rw [hthree]; rfl)
    · exact islReq_refused rq fun nxt _ => Or.inr (reqRefused_fused nxt hfused)
    · exact islReq_refused rq fun _ _ => Or.inl hnone
    · exact islReq_refused rq fun nxt hnxt => Or.inr (reqRefused_alwaysOn halways (IslState.ofReq_ne_on hnxt hnotOn))

end Sys2Proof.Machine
end

section
/-! PROOFS. Scope: the register fabric's writes, reads, posted and stalled accesses, the mode and the snapshots. -/

namespace Sys2Proof.Machine

/-! ### Accesses as they arrive -/

/-- While Glimmer sleeps no access is heard (R632). -/
theorem fabricCommands_asleep {s : State} (h : s.glm.asleep = true) (req : Requester) (off n : Nat) (v : Word) (al : Option Nat) :
    ∀ i ∈ [Instr.registerWrite req off v, .rcRead req off al, .aliasWrite req off n v, .postedWriteApply req n, .sysWsync req,
      .busErrorTimeout req, .sysMode req v, .sysSnap v], exec i s = .next s := by
  simp only [List.forall_mem_cons]
  exact ⟨(whenAwake_off h _ : execRegisterWrite req off v s = .next s), (whenAwake_off h _ : execRcRead req off al s = .next s),
    (whenAwake_off h _ : execAliasWrite req off n v s = .next s), (whenAwake_off h _ : execPostedWriteApply req n s = .next s),
    (whenAwake_off h _ : execSysWsync req s = .next s), (whenAwake_off h _ : execBusErrorTimeout req s = .next s),
    (whenAwake_off h _ : execSysMode req v s = .next s), (whenAwake_off h _ : execSysSnap v s = .next s),
    fun _ h => absurd h List.not_mem_nil⟩

/-- An offset that is no multiple of 4 (R45, R48): the three accesses meet one answer. -/
theorem unaligned_access {s : State} (req : Requester) {off : Nat} (b : Nat) (v : Word) (al : Option Nat)
    (hawake : s.glm.asleep = false) (hoff : off % 4 ≠ 0) :
    exec (.registerWrite req off v) s = .next (s.unmappedAt req off) ∧ exec (.rcRead req off al) s = .next (s.unmappedAt req off)
      ∧ exec (.aliasWrite req off b v) s = .next (s.unmappedAt req off) := by
  rw [registerWrite_awake _ _ _ hawake, rcRead_awake _ _ _ hawake, aliasWrite_awake _ _ _ _ hawake]
  exact ⟨congrArg Host.Outcome.next (if_pos hoff), congrArg Host.Outcome.next (if_pos hoff), congrArg Host.Outcome.next (if_pos hoff)⟩

theorem registerWrite_aligned {s : State} (req : Requester) {off : Nat} (v : Word) (hawake : s.glm.asleep = false)
    (hoff : off % 4 = 0) : exec (.registerWrite req off v) s = .next (s.fabWrite req off (.word v.toNat)) := by
  rw [registerWrite_awake _ _ _ hawake, if_neg (not_not_intro hoff)]

theorem aliasWrite_aligned {s : State} (req : Requester) {off : Nat} (b : Nat) (v : Word) (hawake : s.glm.asleep = false)
    (hoff : off % 4 = 0) : exec (.aliasWrite req off b v) s
      = .next (if b < 32 then s.fabWrite req off (.bit b (bitOf v.toNat 0)) else s) := by
  rw [aliasWrite_awake _ _ _ _ hawake, if_neg (not_not_intro hoff)]

/-- A read of ICU_CLAIM by word claims (R628). -/
theorem rcRead_claim {s : State} {req : Requester} {off k : Nat} {up : Bool} (hawake : s.glm.asleep = false)
    (hoff : off % 4 = 0) (hreg : regAt off = some (.icuClaim, k, up)) (hfree : s.isStalled req = false) :
    exec (.rcRead req off none) s = .next (s.icuClaim req k) := by
  rw [rcRead_awake _ _ _ hawake, if_neg (not_not_intro hoff), hreg]
  exact congrArg Host.Outcome.next (if_neg (by rw [hfree]; decide))

theorem rcRead_plain {s : State} {req : Requester} {off : Nat} {al : Option Nat} (hawake : s.glm.asleep = false)
    (hoff : off % 4 = 0) (hplain : al ≠ none ∨ ∀ k up, regAt off ≠ some (.icuClaim, k, up)) :
    exec (.rcRead req off al) s = .next (s.fabRead req off al) := by
  rw [rcRead_awake _ _ _ hawake, if_neg (not_not_intro hoff)]
  split
  · next k up hreg => exact (hplain.elim (fun h => h rfl) fun h => h k up hreg).elim
  · rfl

/-! ### A requester that waits sends none -/

theorem fabWrite_stalled {s : State} {req : Requester} (off : Nat) (op : RegOp) (h : s.isStalled req = true) :
    s.fabWrite req off op = s :=
  if_pos h

theorem fabRead_stalled {s : State} {req : Requester} (off : Nat) (al : Option Nat) (h : s.isStalled req = true) :
    s.fabRead req off al = s :=
  if_pos h

theorem rcRead_stalled {s : State} {req : Requester} {off : Nat} (al : Option Nat) (hawake : s.glm.asleep = false)
    (hoff : off % 4 = 0) (h : s.isStalled req = true) : exec (.rcRead req off al) s = .next s := by
  rw [rcRead_awake _ _ _ hawake, if_neg (not_not_intro hoff)]
  split
  · rw [if_pos h]
  · rw [fabRead_stalled off _ h]

theorem aliasWrite_stalled {s : State} {req : Requester} {off : Nat} (b : Nat) (v : Word) (hawake : s.glm.asleep = false)
    (hoff : off % 4 = 0) (h : s.isStalled req = true) : exec (.aliasWrite req off b v) s = .next s := by
  rw [aliasWrite_aligned _ _ _ hawake hoff, fabWrite_stalled off _ h, ite_self]

/-! ### Writes -/

theorem fabWrite_noRegister {s : State} (req : Requester) {off : Nat} (op : RegOp) (h : regAt off = none) :
    s.fabWrite req off op = s := by
  unfold State.fabWrite
  rw [h]
  exact ite_self s

theorem fabWrite_absent {s : State} (req : Requester) {off i : Nat} {r : Reg} {up : Bool} (op : RegOp)
    (hreg : regAt off = some (r, i, up)) (h : s.absentReg r i = true) : s.fabWrite req off op = s := by
  unfold State.fabWrite
  rw [hreg]
  dsimp only
  rw [if_pos h, ite_self]

/-- A bit write (R618) of a word that no requester can reach changes nothing. -/
theorem aliasWrite_ignored {s : State} {req : Requester} {off : Nat} (b : Nat) (v : Word) (hawake : s.glm.asleep = false)
    (hoff : off % 4 = 0) (h : ∀ op, s.fabWrite req off op = s) : exec (.aliasWrite req off b v) s = .next s := by
  rw [aliasWrite_aligned _ _ _ hawake hoff, h, ite_self]

section
variable {s : State} {req : Requester} {off i : Nat} {r : Reg} {up : Bool} (hfree : s.isStalled req = false)
  (hreg : regAt off = some (r, i, up)) (hpresent : s.absentReg r i = false)
include hfree hreg hpresent

theorem fabWrite_bit (b : Nat) (x : Bool) : s.fabWrite req off (.bit b x) = s.submit req r i up off (.bit b x) := by
  rw [fabWrite_eq hfree hreg hpresent]

theorem fabWrite_word (v : Nat) (hnarrow : r.info.wide = false) :
    s.fabWrite req off (.word v) = s.submit req r i up off (.word v) := by
  rw [fabWrite_eq hfree hreg hpresent, hnarrow]

/-- The lower word of a 64-bit register is held for the upper one (R619). -/
theorem fabWrite_lowerWord (v : Nat) (hwide : r.info.wide = true) (hlow : up = false) : s.fabWrite req off (.word v) =
    { s with fab := { s.fab with
      held := (s.fab.held.filter fun e => !(e.1 == req && e.2.1 == r.off i)) ++ [(req, r.off i, v)] } } := by
  simp only [fabWrite_eq hfree hreg hpresent, hwide, hlow, Bool.false_eq_true, if_false]

section
variable (v : Nat) (hwide : r.info.wide = true) (hup : up = true)
include hwide hup

/-- The upper word takes the held lower one along, as one write (R619). -/
theorem fabWrite_bothWords {e : Requester × Nat × Nat}
    (hheld : s.fab.held.find? (fun e => e.1 == req && e.2.1 == r.off i) = some e) : s.fabWrite req off (.word v) =
    ({ s with fab := { s.fab with held := s.fab.held.filter fun e => !(e.1 == req && e.2.1 == r.off i) } } : State).submit
      req r i false (r.off i) (.wide e.2.2 v) := by
  simp only [fabWrite_eq hfree hreg hpresent, hwide, hup, hheld, if_true]

theorem fabWrite_upperWord (hheld : s.fab.held.find? (fun e => e.1 == req && e.2.1 == r.off i) = none) :
    s.fabWrite req off (.word v) = s.submit req r i true off (.word v) := by
  simp only [fabWrite_eq hfree hreg hpresent, hwide, hup, hheld, if_true]

end

end

/-! ### Posted writes, the mode, bus errors and snapshots -/

theorem postedApply_waits {s : State} {req : Requester} {isl : Nat}
    (h : s.fab.posted.find? (fun w => w.req == req && ownerAt w.off == isl) = none ∨ (s.island isl).busy.isSome = true) :
    s.postedApply req isl = s := by
  unfold State.postedApply
  dsimp only
  split
  · rfl
  · next w hfound => exact if_pos (h.resolve_left (by rw [hfound]; exact Option.some_ne_none w))

theorem postedApply_takes {s : State} {req : Requester} {isl : Nat} {w : Posted}
    (hfound : s.fab.posted.find? (fun w => w.req == req && ownerAt w.off == isl) = some w)
    (hbusy : (s.island isl).busy.isSome = false) {u : State}
    (hu : u = { s with fab := { s.fab with posted := rmFirst (fun w => w.req == req && ownerAt w.off == isl) s.fab.posted } }) :
    s.postedApply req isl = if (s.island isl).state = .on then u.applyOp req w.off w.op else u := by
  subst hu
  unfold State.postedApply
  dsimp only
  rw [hfound]
  exact if_neg (by rw [hbusy]; decide)

theorem busErrorAfter_none {s : State} {req : Requester} (h : s.fab.stalled.find? (fun x => x.req == req) = none) :
    s.busErrorAfter req = s := by
  unfold State.busErrorAfter
  rw [h]

/-- The end of a stalled access that was not served (R614): an answer, or a trap where a thread's own load waits. -/
theorem busErrorAfter_answers {s a u : State} {req : Requester} {x : Stalled}
    (hfound : s.fab.stalled.find? (fun x => x.req == req) = some x) (ha : a = s.advanceTo (x.since + 2 * usec))
    (hu : u = ({ a with fab := { a.fab with stalled := rmFirst (fun y => y.req == req) a.fab.stalled } } : State).count .sysBusErr)
    (hnone : ∀ e t, req = .thread e t → (u.thr e t).access = none) : s.busErrorAfter req = u.emit (.busError req x.off) := by
  subst hu ha
  unfold State.busErrorAfter
  rw [hfound]
  cases req with
  | basalt k => rfl
  | jtag => rfl
  | thread e t => simp only [hnone e t rfl]

theorem busErrorAfter_traps {s a u : State} {e t : Nat} {x : Stalled} {m : RegAccess}
    (hfound : s.fab.stalled.find? (fun x => x.req == .thread e t) = some x) (ha : a = s.advanceTo (x.since + 2 * usec))
    (hu : u = ({ a with fab := { a.fab with stalled := rmFirst (fun y => y.req == .thread e t) a.fab.stalled } } : State).count
      .sysBusErr)
    (hload : (u.thr e t).access = some m) :
    s.busErrorAfter (.thread e t) = (u.updThr e t fun y => { y with access := none }).trapTo e t ⟨0x07, some m.va⟩ := by
  subst hu ha
  unfold State.busErrorAfter
  rw [hfound]
  simp only [hload]

theorem snapGo_busy {s : State} (h : s.fab.snapAt.isSome = true) : s.snapGo = s.setField .sysSnap 29 29 1 :=
  if_pos h

theorem snapGo_free {s : State} (h : s.fab.snapAt = none) : s.snapGo
    = ({ s with fab := { s.fab with snapAt := some (ceilDiv (s.gnm.time + 2 * (1000 * 2 ^ 32)) (1000 * 2 ^ 32) * 1000) } } : State).setField
        .sysSnap 30 30 1 :=
  if_neg (by rw [h]; decide)

theorem snapCapture_idle {s : State} (h : s.fab.snapAt = none ∨ s.readsOn 164 = false) : s.snapCapture = s := by
  unfold State.snapCapture
  split
  · rfl
  · next t hset => exact if_pos (by rw [h.resolve_left (by rw [hset]; exact Option.some_ne_none t)]; rfl)

theorem snapCapture_takes {s a u : State} {t : Nat} {h : Tbl Nat} (hset : s.fab.snapAt = some t) (hon : s.readsOn 164 = true)
    (ha : a = s.advanceGnm t)
    (hh : h = (allEntries.filter fun x => x.1.snapped).foldl (fun (h : Tbl Nat) (x : Reg × Nat) =>
        let g := tblPut 0 h (x.1.off x.2) (half (a.snapValue x.1 x.2) false)
        if x.1.info.wide then tblPut 0 g (x.1.off x.2 + 4) (half (a.snapValue x.1 x.2) true) else g) a.fab.holding)
    (hu : u = { a with fab := { a.fab with holding := h, snapAt := none } }) : s.snapCapture =
      (((u.setField .sysSnap 30 30 0).setField .sysSnap 15 0 (u.field .sysSnap 15 0 + 1)).setReg .sysSnapTime (t % 2 ^ 64)).raise 26 := by
  unfold State.snapCapture
  rw [hset]
  dsimp only
  rw [if_neg (by rw [hon]; decide), hu, hh, ha]

/-! ### The four ways of a write that reaches the fabric -/

section
variable {s : State} {r : Reg} {i : Nat} (req : Requester) (up : Bool) (off : Nat) (op : RegOp)

theorem submit_fabric (h : r.owner i = 165) : s.submit req r i up off op = s.applyOp req off op :=
  if_pos h

theorem submit_posted (h : r.owner i ≠ 165) (hmode : s.field .sysMode 1 0 = 0) : s.submit req r i up off op
    = ({ s with fab := { s.fab with posted := s.fab.posted ++ [{ req, off, op }] } } : State).overlay r i (op.bits up) :=
  (if_neg h).trans (if_pos hmode)

theorem submit_taken (h : r.owner i ≠ 165) (hmode : s.field .sysMode 1 0 ≠ 0) (hon : s.isOn (r.owner i) = true) :
    s.submit req r i up off op = s.applySeen req off op :=
  (if_neg h).trans ((if_neg hmode).trans (if_pos hon))

theorem submit_stalls (h : r.owner i ≠ 165) (hmode : s.field .sysMode 1 0 ≠ 0) (hon : s.isOn (r.owner i) = false) :
    s.submit req r i up off op = { s with fab := { s.fab with
      stalled := s.fab.stalled ++ [{ req, off, op := some op, aliasBit := none, since := s.now }] } } :=
  (if_neg h).trans ((if_neg hmode).trans (if_neg (by rw [hon]; decide)))

end

/-- Settles O38, command by command. -/
theorem registerFabricCommandsDoTheirEffect : Obligations.RegisterFabricCommandsDoTheirEffect := by
  refine ⟨fun s req off n v al hasleep => fabricCommands_asleep hasleep req off n v al, fun s req off b v al hawake => ⟨?_, fun hoff => ?_⟩,
    fun s req r i off up op => ⟨submit_fabric req up off op, submit_posted req up off op, submit_taken req up off op,
      submit_stalls req up off op⟩,
    fun s req v isl hawake => ⟨fun f hf => ⟨fun hwaits => ?_, fun w u hw hbusy hu => ?_⟩, fun hstalled => ⟨?_, ?_⟩,
      fun hfree => ⟨?_, fun old hold ok hok => ?_⟩, fun f hf => ⟨fun hnone => ?_, fun x a u hx ha hu => ⟨fun hnone => ?_, ?_⟩⟩,
      fun hgo => ?_, fun hgo => ⟨fun hbusy => ?_, fun hidle => ?_⟩⟩,
    fun s => ⟨fun hidle => congrArg Host.Outcome.next (snapCapture_idle hidle), ?_⟩⟩
  · rintro hoff u rfl
    exact unaligned_access req b v al hawake hoff
  · have hword := registerWrite_aligned req v hawake hoff
    have halias := aliasWrite_aligned req b v hawake hoff
    refine ⟨fun hb => ?_, fun hstalled => ⟨?_, rcRead_stalled al hawake hoff hstalled, aliasWrite_stalled b v hawake hoff hstalled⟩,
      fun hfree => ⟨fun hnone => ⟨?_, ?_⟩, fun r i up hreg => ⟨fun habsent => ⟨?_, ?_⟩, fun hpresent hb => ?_, fun hpresent hnarrow => ?_,
        fun hpresent hwide rest hrest => ?_⟩, ?_, fun hplain => ?_⟩⟩
    · rw [halias, if_neg (Nat.not_lt.mpr hb)]
    · rw [hword, fabWrite_stalled off _ hstalled]
    · rw [hword, fabWrite_noRegister req _ hnone]
    · exact aliasWrite_ignored b v hawake hoff fun op => fabWrite_noRegister req op hnone
    · rw [hword, fabWrite_absent req _ hreg habsent]
    · exact aliasWrite_ignored b v hawake hoff fun op => fabWrite_absent req op hreg habsent
    · rw [halias, if_pos hb, fabWrite_bit hfree hreg hpresent]
    · rw [hword, fabWrite_word hfree hreg hpresent _ hnarrow]
    · subst hrest
      rw [hword]
      refine ⟨fun hlow => ?_, fun hup => ⟨fun e he => ?_, fun hnone => ?_⟩⟩
      · rw [fabWrite_lowerWord hfree hreg hpresent _ hwide hlow]
      · rw [fabWrite_bothWords hfree hreg hpresent _ hwide hup he]
      · rw [fabWrite_upperWord hfree hreg hpresent _ hwide hup hnone]
    · rintro k up rfl hreg
      exact rcRead_claim hawake hoff hreg hfree
    · rw [rcRead_plain hawake hoff hplain]
      obtain ⟨hserved, hwaits⟩ := fabRead_eq (off := off) (al := al) hfree
      exact ⟨fun h => congrArg Host.Outcome.next (hserved h), fun h => congrArg Host.Outcome.next (hwaits h)⟩
  · subst hf
    rw [postedWriteApply_awake req isl hawake, postedApply_waits hwaits]
  · rw [postedWriteApply_awake req isl hawake, postedApply_takes (hf.symm.trans hw) hbusy hu]
  · rw [sysWsync_awake req hawake, fabRead_stalled _ _ hstalled]
  · rw [sysMode_awake req v hawake, if_pos hstalled]
  · rw [sysWsync_awake req hawake, fabRead_wsync hfree]
  · subst hok hold
    rw [sysMode_awake req v hawake, if_neg (by rw [hfree]; decide)]
    rfl
  · rw [busErrorTimeout_awake req hawake, busErrorAfter_none (hf.symm.trans hnone)]
  · rw [busErrorTimeout_awake req hawake, busErrorAfter_answers (hf.symm.trans hx) ha hu hnone]
  · rintro e t m rfl hload
    rw [busErrorTimeout_awake _ hawake, busErrorAfter_traps (hf.symm.trans hx) ha hu hload]
  · rw [sysSnap_awake v hawake, if_neg (by rw [hgo]; decide)]
  · rw [sysSnap_awake v hawake, if_pos hgo, snapGo_busy hbusy]
  · rw [sysSnap_awake v hawake, if_pos hgo, snapGo_free hidle]
  · intro t a h hset hon ha hh u hu
    show Host.Outcome.next s.snapCapture = _
    rw [snapCapture_takes hset hon ha hh hu]

end Sys2Proof.Machine
end

section
/-! PROOFS. Scope: the messages and the timers of the Oclos Direct Transport. -/

namespace Sys2Proof.Machine

/-! ### The boundary of island 160 -/

theorem atQpe_held {s : State} (d : Door) (g : State → State) (hoff : s.isOn 160 = false) (hbusy : (s.island 160).busy.isSome = true) :
    s.atQpe d g = { s with qpe := { s.qpe with doors := s.qpe.doors ++ [d] } } :=
  (if_neg (by rw [hoff]; decide)).trans (if_pos hbusy)

theorem atQpe_refused {s : State} (d : Door) (g : State → State) (hoff : s.isOn 160 = false)
    (hbusy : (s.island 160).busy.isSome = false) : s.atQpe d g = s.emit (.refusedAtIsland 160) :=
  (if_neg (by rw [hoff]; decide)).trans (if_neg (by rw [hbusy]; decide))

/-! ### Doorbells -/

theorem odtBell_deaf {s : State} {h : OdtHdr} (f : State → State × Nat) (hs : (s.serves && s.subUp h.mac h.sub) = false) :
    s.odtBell h f = s :=
  if_pos (by rw [hs]; rfl)

theorem odtBell_dropped {s : State} {h : OdtHdr} (f : State → State × Nat) (hs : (s.serves && s.subUp h.mac h.sub) = true)
    (ha : s.odtAccepts h true = false) : s.odtBell h f = s.odtDrop h.mac :=
  (if_neg (by rw [hs]; decide)).trans (if_pos (by rw [ha]; rfl))

section
variable {s w : State} {h : OdtHdr} {c : OdtConn} {f : State → State × Nat} (hs : (s.serves && s.subUp h.mac h.sub) = true)
  (ha : s.odtAccepts h true = true) (hw : w = s.odtHeard h) (hc : c = w.odtConn h.conn)
include hs ha hw hc

theorem odtBell_inOrder {u : State} {fl : Nat} {d : OdtConn} (hseq : h.seq = (c.hseq + 1) % 2 ^ 32)
    (hlimit : seqGe (w.odtLimit h.conn) h.seq = true) (hopen : c.state ≠ .opening) (hu : f w = (u, fl)) (hd : d = u.odtConn h.conn) :
    s.odtBell h f = (u.setOdt h.conn { d with
      hseq := h.seq
      given := tblPut 0 (d.given.filter fun e => decide ((h.seq + 2 ^ 32 - e.1) % 2 ^ 32 < 256)) h.seq fl
      state := if d.state = .suspect then .established else d.state }).touch.receipt h.conn h.qpn fl := by
  rw [odtBell_eq hs ha hw hc, if_pos ⟨hseq, hlimit, hopen⟩, hu, hd]

theorem odtBell_duplicate (hnext : ¬ (h.seq = (c.hseq + 1) % 2 ^ 32 ∧ seqGe (w.odtLimit h.conn) h.seq = true ∧ c.state ≠ .opening))
    (hold : seqGe c.hseq h.seq = true) (hopen : c.state ≠ .opening) :
    s.odtBell h f = (w.count .netOdtDup).receipt h.conn h.qpn
      (if (c.hseq + 2 ^ 32 - h.seq) % 2 ^ 32 < 256 then tblGet 0 c.given h.seq else 0) := by
  rw [odtBell_eq hs ha hw hc, if_neg hnext, if_pos ⟨hold, hopen⟩]

theorem odtBell_discarded (hnext : ¬ (h.seq = (c.hseq + 1) % 2 ^ 32 ∧ seqGe (w.odtLimit h.conn) h.seq = true ∧ c.state ≠ .opening))
    (hahead : ¬ (seqGe c.hseq h.seq = true ∧ c.state ≠ .opening)) :
    s.odtBell h f = (w.count .netOdtDiscard).receipt h.conn h.qpn 0x400 := by
  rw [odtBell_eq hs ha hw hc, if_neg hnext, if_neg hahead]

end

/-! ### Answers, credit and keepalives -/

/-- On a sub-port that is down, or in a controller that does not serve, none is heard (R273). -/
theorem odtMessages_deaf {s : State} {h : OdtHdr} (b : Bytes) (hs : (s.serves && s.subUp h.mac h.sub) = false) :
    ∀ i ∈ [Instr.fetchResp h b, .data h b, .credit h, .keepalive h], exec i s = .next s := by
  have hdeaf : (!(s.serves && s.subUp h.mac h.sub)) = true := by rw [hs]; rfl
  simp only [List.forall_mem_cons]
  exact ⟨congrArg Host.Outcome.next (if_pos hdeaf), congrArg Host.Outcome.next (if_pos hdeaf),
    congrArg Host.Outcome.next (if_pos hdeaf), congrArg Host.Outcome.next (if_pos hdeaf), fun _ h => absurd h List.not_mem_nil⟩

theorem odtMessages_dropped {s : State} {h : OdtHdr} (b : Bytes) (hs : (s.serves && s.subUp h.mac h.sub) = true)
    (ha : s.odtAccepts h false = false) :
    ∀ i ∈ [Instr.fetchResp h b, .data h b, .credit h, .keepalive h], exec i s = .next (s.odtDrop h.mac) := by
  have hheard : ¬ (!(s.serves && s.subUp h.mac h.sub)) = true := by rw [hs]; decide
  have hdrop : (!s.odtAccepts h false) = true := by rw [ha]; rfl
  simp only [List.forall_mem_cons]
  exact ⟨congrArg Host.Outcome.next ((if_neg hheard).trans (if_pos hdrop)), congrArg Host.Outcome.next ((if_neg hheard).trans (if_pos hdrop)),
    congrArg Host.Outcome.next ((if_neg hheard).trans (if_pos hdrop)), congrArg Host.Outcome.next ((if_neg hheard).trans (if_pos hdrop)),
    fun _ h => absurd h List.not_mem_nil⟩

section
variable {s w : State} {h : OdtHdr} {c : OdtConn} (b : Bytes) (hs : (s.serves && s.subUp h.mac h.sub) = true)
  (ha : s.odtAccepts h false = true) (hw : w = s.odtHeard h) (hc : c = w.odtConn h.conn)
include hs ha hw hc

theorem odtFetchResp_unasked (hask : c.asks.find? (fun a => a.slots.isSome && a.qp == h.qpn && a.seq == h.arg2) = none) :
    s.odtFetchResp h b = w := by
  subst hw hc
  unfold State.odtFetchResp
  rw [if_neg (by rw [hs]; decide), if_neg (by rw [ha]; decide)]
  simp only [hask]

theorem odtFetchResp_asked {a : OdtAsk} {slot n : Nat}
    (hask : c.asks.find? (fun a => a.slots.isSome && a.qp == h.qpn && a.seq == h.arg2) = some a) (hslots : a.slots = some (slot, n)) :
    s.odtFetchResp h b = if slot = h.arg % 2 ^ 16 ∧ b.length = 64 * n ∧ (w.qp a.qp).fetch = some (slot, n) then
      (w.setOdt h.conn { c with asks := c.asks.filter fun x => x != a }).updQp a.qp fun x => { x with fetchSegs := [(0, b)] }
    else w := by
  subst hw hc
  unfold State.odtFetchResp
  rw [if_neg (by rw [hs]; decide), if_neg (by rw [ha]; decide)]
  simp only [hask, hslots]

theorem odtData_unasked
    (hask : c.asks.find? (fun a => a.slots.isNone && a.tag % 2 ^ 16 == h.arg % 2 ^ 16 && a.qp == h.qpn) = none) :
    s.odtData h b = w := by
  subst hw hc
  unfold State.odtData
  rw [if_neg (by rw [hs]; decide), if_neg (by rw [ha]; decide)]
  simp only [hask]

theorem odtData_discarded {a : OdtAsk}
    (hask : c.asks.find? (fun a => a.slots.isNone && a.tag % 2 ^ 16 == h.arg % 2 ^ 16 && a.qp == h.qpn) = some a)
    (hbad : b = [] ∨ c.seg < b.length ∨ a.len < h.arg2 + b.length) : s.odtData h b = w := by
  subst hw hc
  unfold State.odtData
  rw [if_neg (by rw [hs]; decide), if_neg (by rw [ha]; decide)]
  simp only [hask]
  exact if_pos (hbad.imp_left fun h => by rw [h]; rfl)

/-- A segment within its pull fills the descriptor or the command it is for, and the last one ends the ask. -/
theorem odtData_taken {a : OdtAsk} {u : State}
    (hask : c.asks.find? (fun a => a.slots.isNone && a.tag % 2 ^ 16 == h.arg % 2 ^ 16 && a.qp == h.qpn) = some a)
    (hsome : b ≠ []) (hseg : b.length ≤ c.seg) (hlen : h.arg2 + b.length ≤ a.len)
    (hdesc : ∀ id, a.desc = some id → u = w.descArrive id h.arg2 b)
    (hpull : a.desc = none → u = (w.pullArrive a.cmd (a.base + h.arg2) b).arrivedAs a.cmd h.mac h.dscp) :
    s.odtData h b = if (gather a.len (u.askSegs a)).isSome = true then
        (u.setOdt h.conn { u.odtConn h.conn with asks := (u.odtConn h.conn).asks.filter fun x => x != a }).flow
      else u := by
  have hgood : ¬ (b.isEmpty = true ∨ c.seg < b.length ∨ a.len < h.arg2 + b.length) := by
    rw [List.isEmpty_iff]
    rintro (hnil | hlong | hbeyond)
    · exact hsome hnil
    · omega
    · omega
  subst hw hc
  unfold State.odtData
  rw [if_neg (by rw [hs]; decide), if_neg (by rw [ha]; decide)]
  simp only [hask]
  rw [if_neg hgood]
  cases hd : a.desc with
  | none => rw [hpull hd]
  | some id => rw [hdesc id hd]

theorem odtCredit_eq : s.odtCredit h = if seqGe h.arg c.credit then (w.setOdt h.conn { c with credit := h.arg }).touch else w := by
  subst hw hc
  unfold State.odtCredit
  rw [if_neg (by rw [hs]; decide), if_neg (by rw [ha]; decide)]

theorem odtKeepalive_opening (hst : c.state = .opening) : s.odtKeepalive h = (w.setOdt h.conn { c with
    state := .established, since := w.now, hseq := 0xFFFFFFFF, dseq := 0, given := [], safe := 0xFFFFFFFF
    carried := [], sent := [], asks := [], cells := 0 }).touch := by
  subst hw hc
  unfold State.odtKeepalive
  rw [if_neg (by rw [hs]; decide), if_neg (by rw [ha]; decide)]
  simp only [hst]

theorem odtKeepalive_failed (hst : c.state = .failed) :
    s.odtKeepalive h = w.odtCtl h.conn 0 0x40 (.keepalive ((c.hseq + 1) % 2 ^ 32)) := by
  subst hw hc
  unfold State.odtKeepalive
  rw [if_neg (by rw [hs]; decide), if_neg (by rw [ha]; decide)]
  simp only [hst]
  rfl

/-- A keepalive on a connection that is neither OPENING nor FAILED only is heard, but for RESUME (R294, R300, R569). -/
theorem odtKeepalive_alive (hopen : c.state ≠ .opening) (hfail : c.state ≠ .failed) {u : State}
    (hu : u = ((w.setOdt h.conn { c with state := .established, since := w.now }).touch).odtCtl h.conn 0 0x20
      (.keepalive ((c.hseq + 1) % 2 ^ 32))) :
    s.odtKeepalive h = if bitOf h.flags 5 = false then w else if c.recover then u.odtRecover h.conn h.ack
      else (u.odtConn h.conn).sent.foldl (fun s m => s.odtResend h.conn m) u := by
  subst hu hw hc
  unfold State.odtKeepalive
  rw [if_neg (by rw [hs]; decide), if_neg (by rw [ha]; decide)]
  dsimp only
  split
  · next hst => exact absurd hst hopen
  · next hst => exact absurd hst hfail
  · cases bitOf h.flags 5 <;> rfl

end

/-! ### Timers -/

section
variable {s : State} {k : Nat} {c : OdtConn} (hc : c = s.odtConn k)
include hc

theorem odtRetransmit_due {m : OdtSent} {ms : List OdtSent} {a : State} (hst : c.state = .established) (hsent : c.sent = m :: ms)
    (ha : a = s.advanceTo (m.at_ + s.odtRto k)) : s.odtRetransmit k = if 3 ≤ m.tries then a.odtSuspect k
      else (a.setOdt k { a.odtConn k with
        sent := (a.odtConn k).sent.map fun x => if x.seq = m.seq then { x with tries := x.tries + 1 } else x }).odtResend k m := by
  subst ha hc
  unfold State.odtRetransmit
  simp only [hst, hsent]

theorem odtRetransmit_idle (hidle : c.state ≠ .established ∨ c.sent = []) : s.odtRetransmit k = s := by
  subst hc
  unfold State.odtRetransmit
  dsimp only
  split
  · next m ms hst hsent => exact (hidle.elim (fun h => h hst) fun h => List.cons_ne_nil m ms (hsent.symm.trans h)).elim
  · rfl

theorem odtFetchRetry_none (hask : c.asks.find? (fun a => a.ackedAt.isSome) = none) : s.odtFetchRetry k = s := by
  subst hc
  unfold State.odtFetchRetry
  simp only [hask]

theorem odtFetchRetry_ring {a : OdtAsk} {t slot n : Nat} {u : State} (hask : c.asks.find? (fun a => a.ackedAt.isSome) = some a)
    (ht : a.ackedAt = some t) (hu : u = (s.advanceTo (t + 64 * usec)).setOdt k { c with
      asks := c.asks.map fun x => if x = a then { x with ackedAt := none } else x }) (hslots : a.slots = some (slot, n)) :
    s.odtFetchRetry k = u.odtCtl k a.qp 0 (.fetchReq slot n) (u.qp a.qp).baseClass := by
  subst hu hc
  unfold State.odtFetchRetry
  simp only [hask, ht, hslots, Option.getD_some]

/-- A pull is asked again for its first missing part, in the class of the descriptor or the command it is for. -/
theorem odtFetchRetry_pull {a : OdtAsk} {t cls : Nat} {m : Nat × Nat} {u : State}
    (hask : c.asks.find? (fun a => a.ackedAt.isSome) = some a) (ht : a.ackedAt = some t)
    (hu : u = (s.advanceTo (t + 64 * usec)).setOdt k { c with
      asks := c.asks.map fun x => if x = a then { x with ackedAt := none } else x }) (hslots : a.slots = none)
    (hm : m = missingRun a.len 0 (u.askSegs a)) (hdesc : ∀ id, a.desc = some id → cls = u.descClass id)
    (hcmd : ∀ x, a.desc = none → u.cmd a.cmd = some x → cls = x.cls) (hgone : a.desc = none → u.cmd a.cmd = none → cls = 1) :
    s.odtFetchRetry k = u.odtCtl k a.qp 0 (.dataPull a.tag m.2 a.mkey (a.addr + m.1)) cls := by
  subst hm hc
  unfold State.odtFetchRetry
  simp only [hask, ht, hslots, Option.getD_some, ← hu]
  cases hd : a.desc with
  | some id => rw [hdesc id hd]
  | none =>
    cases hx : u.cmd a.cmd with
    | some x => rw [hcmd x hd hx]
    | none => rw [hgone hd hx]

theorem odtKeepaliveSend_opening (hst : c.state = .opening) :
    s.odtKeepaliveSend k = (s.advanceTo (c.lastTx + msec)).odtCtl k 0 0 (.keepalive ((c.hseq + 1) % 2 ^ 32)) := by
  subst hc
  unfold State.odtKeepaliveSend
  simp only [hst]
  rfl

theorem odtKeepaliveSend_alive (hst : c.state = .established ∨ c.state = .suspect) :
    s.odtKeepaliveSend k = (s.advanceTo (c.lastTx + s.odtKa)).odtCtl k 0 0 (.keepalive ((c.hseq + 1) % 2 ^ 32)) := by
  subst hc
  unfold State.odtKeepaliveSend
  rcases hst with hst | hst <;> simp only [hst] <;> rfl

theorem odtKeepaliveSend_ended (hst : c.state = .closed ∨ c.state = .failed) : s.odtKeepaliveSend k = s := by
  subst hc
  unfold State.odtKeepaliveSend
  rcases hst with hst | hst <;> simp only [hst]

theorem odtSilence_eq : s.odtSilence k
    = if c.state = .established then (s.advanceTo (c.lastRx + 10 * s.odtKa)).odtSuspect k else s := by
  rw [hc]
  rfl

theorem odtResumeExpire_eq : s.odtResumeExpire k
    = if c.state = .suspect then (s.advanceTo (c.since + max 1 (s.field .netOdtCfg 7 0) * msec)).odtFail k else s := by
  rw [hc]
  rfl

theorem odtOpeningExpire_eq : s.odtOpeningExpire k
    = if c.state = .opening then (s.advanceTo (c.since + 1000 * msec)).odtFail k else s := by
  rw [hc]
  rfl

end

/-- Settles O32, message by message and timer by timer. -/
theorem odtMessagesAndTimersDoTheirEffect : Obligations.OdtMessagesAndTimersDoTheirEffect := by
  refine ⟨fun s h b hoff => ⟨fun hbusy => ⟨?_, ?_⟩, fun hidle => ⟨?_, ?_⟩⟩, fun s h b i f hon hi => ⟨fun hdeaf => ?_, fun hheard =>
      ⟨fun hrej => ?_, ?_⟩⟩, fun s h b i hi => ⟨fun hdeaf => odtMessages_deaf b hdeaf i hi,
      fun hheard hrej => odtMessages_dropped b hheard hrej i hi⟩, ?_, ?_⟩
  · exact congrArg Host.Outcome.next (atQpe_held _ _ hoff hbusy)
  · exact congrArg Host.Outcome.next (atQpe_held _ _ hoff hbusy)
  · exact congrArg Host.Outcome.next (atQpe_refused _ _ hoff hidle)
  · exact congrArg Host.Outcome.next (atQpe_refused _ _ hoff hidle)
  · rw [bell_on hon hi, odtBell_deaf f hdeaf]
  · rw [bell_on hon hi, odtBell_dropped f hheard hrej]
  · rintro hacc w c hw hc ok rfl
    rw [bell_on hon hi]
    refine ⟨fun hok u fl d hu hd => ?_, fun hok dup hdup => ?_⟩
    · simp only [Bool.and_eq_true, decide_eq_true_eq] at hok
      obtain ⟨⟨hseq, hlimit⟩, hopen⟩ := hok
      rw [odtBell_inOrder hheard hacc hw hc hseq hlimit hopen hu hd]
    · have hnext : ¬ (h.seq = (c.hseq + 1) % 2 ^ 32 ∧ seqGe (w.odtLimit h.conn) h.seq = true ∧ c.state ≠ .opening) := by
        rintro ⟨hseq, hlimit, hopen⟩
        rw [decide_eq_true hseq, hlimit, decide_eq_true hopen] at hok
        exact Bool.noConfusion hok
      subst hdup
      refine ⟨fun htaken => ?_, fun hahead => ?_⟩
      · obtain ⟨hold, hopen⟩ := Bool.and_eq_true_iff.mp htaken
        rw [odtBell_duplicate hheard hacc hw hc hnext hold (of_decide_eq_true hopen)]
      · rw [odtBell_discarded hheard hacc hw hc hnext fun ⟨hold, hopen⟩ => by simp [hold, hopen] at hahead]
  · intro s h b hheard hacc w c hw hc
    refine ⟨?_, ?_, fun hge => ?_, fun hlt => ?_, fun hst => ?_, fun hst => ?_, fun hopen hfail =>
      ⟨fun hplain => ?_, fun hresume u hu => ⟨fun hrec => ?_, fun hrec => ?_⟩⟩⟩
    · rintro r rfl
      refine ⟨fun hnone => congrArg Host.Outcome.next (odtFetchResp_unasked b hheard hacc hw hc hnone), fun a slot n hask hslots => ?_⟩
      have hresp := odtFetchResp_asked b hheard hacc hw hc hask hslots
      exact ⟨fun hfits => congrArg Host.Outcome.next (hresp.trans (if_pos hfits)),
        fun hbad => congrArg Host.Outcome.next (hresp.trans (if_neg hbad))⟩
    · rintro r rfl
      refine ⟨fun hnone => congrArg Host.Outcome.next (odtData_unasked b hheard hacc hw hc hnone), fun a hask => ⟨fun hbad =>
        congrArg Host.Outcome.next (odtData_discarded b hheard hacc hw hc hask hbad), fun hsome hseg hlen u hdesc hpull => ?_⟩⟩
      have hdata := odtData_taken b hheard hacc hw hc hask hsome hseg hlen hdesc hpull
      exact ⟨fun hall => congrArg Host.Outcome.next (hdata.trans (if_pos hall)),
        fun hpart => congrArg Host.Outcome.next (hdata.trans (if_neg (by rw [hpart]; decide)))⟩
    · exact congrArg Host.Outcome.next ((odtCredit_eq hheard hacc hw hc).trans (if_pos hge))
    · exact congrArg Host.Outcome.next ((odtCredit_eq hheard hacc hw hc).trans (if_neg (by rw [hlt]; decide)))
    · exact congrArg Host.Outcome.next (odtKeepalive_opening hheard hacc hw hc hst)
    · exact congrArg Host.Outcome.next (odtKeepalive_failed hheard hacc hw hc hst)
    · exact congrArg Host.Outcome.next ((odtKeepalive_alive hheard hacc hw hc hopen hfail rfl).trans (if_pos hplain))
    · exact congrArg Host.Outcome.next ((odtKeepalive_alive hheard hacc hw hc hopen hfail hu).trans
        ((if_neg (by rw [hresume]; decide)).trans (if_pos hrec)))
    · exact congrArg Host.Outcome.next ((odtKeepalive_alive hheard hacc hw hc hopen hfail hu).trans
        ((if_neg (by rw [hresume]; decide)).trans (if_neg (by rw [hrec]; decide))))
  · intro s k c hc
    refine ⟨fun m ms a hst hsent ha => ⟨fun hlast => ?_, fun hmore => ?_⟩, fun hidle => ?_, ?_, fun hst => ?_, fun hst => ?_, fun hst => ?_,
      fun hst => ?_, fun hst => ?_, fun hst => ?_, fun hst => ?_, fun hst => ?_, fun hst => ?_⟩
    · exact congrArg Host.Outcome.next ((odtRetransmit_due hc hst hsent ha).trans (if_pos hlast))
    · exact congrArg Host.Outcome.next ((odtRetransmit_due hc hst hsent ha).trans (if_neg (Nat.not_le.mpr hmore)))
    · exact congrArg Host.Outcome.next (odtRetransmit_idle hc hidle)
    · rintro r rfl
      refine ⟨fun hnone => congrArg Host.Outcome.next (odtFetchRetry_none hc hnone), fun a t u hask ht hu => ⟨fun slot n hslots =>
        congrArg Host.Outcome.next (odtFetchRetry_ring hc hask ht hu hslots), fun hslots m cls hm hdesc hcmd hgone =>
        congrArg Host.Outcome.next (odtFetchRetry_pull hc hask ht hu hslots hm hdesc hcmd hgone)⟩⟩
    · exact congrArg Host.Outcome.next (odtKeepaliveSend_opening hc hst)
    · exact congrArg Host.Outcome.next (odtKeepaliveSend_alive hc hst)
    · exact congrArg Host.Outcome.next (odtKeepaliveSend_ended hc hst)
    · exact congrArg Host.Outcome.next ((odtSilence_eq hc).trans (if_pos hst))
    · exact congrArg Host.Outcome.next ((odtSilence_eq hc).trans (if_neg hst))
    · exact congrArg Host.Outcome.next ((odtResumeExpire_eq hc).trans (if_pos hst))
    · exact congrArg Host.Outcome.next ((odtResumeExpire_eq hc).trans (if_neg hst))
    · exact congrArg Host.Outcome.next ((odtOpeningExpire_eq hc).trans (if_pos hst))
    · exact congrArg Host.Outcome.next ((odtOpeningExpire_eq hc).trans (if_neg hst))

end Sys2Proof.Machine
end

section
/-! PROOFS. Scope: RoCEv2 connections, their capsules, and the requester's packets and timers. -/

namespace Sys2Proof.Machine

/-! ### Connections -/

theorem cmReq_deaf {s : State} {r : CmReq} (hs : (s.serves && s.subUp r.mac r.sub) = false) : s.cmReq r = s :=
  if_pos (by rw [hs]; rfl)

/-- A host that an allow entry names, with room for a connection and a request in order, gets one (R276, R277). -/
theorem cmReq_accepted {s : State} {r : CmReq} {a k : Nat} {as : List Nat} (hs : (s.serves && s.subUp r.mac r.sub) = true)
    (hallow : s.allowsOf r.mac r.sub r.family r.host = a :: as) (hfree : s.pickRoce = some k) (hrc : r.rc = true)
    (hport : r.service = 4420) (hmtu : r.mtu = 1024 ∨ r.mtu = 2048 ∨ r.mtu = 4096) :
    s.cmReq r = (s.drew.setRoce k {
        mac := r.mac, sub := r.sub, family := r.family, host := r.host, allow := a, mtu := r.mtu, hostQpn := r.qpn
        ePsn := r.psn % 2 ^ 24, sPsn := Config.startPsn s.draws % 2 ^ 24 }).touch.roceFrame r.mac r.sub 0
      (.cm r.mac r.sub r.host 0) := by
  have hgood : (r.rc && r.service == 4420 && (r.mtu == 1024 || r.mtu == 2048 || r.mtu == 4096)) = true := by
    simp only [hrc, hport, beq_self_eq_true, Bool.and_self, Bool.true_and, Bool.or_eq_true, beq_iff_eq, or_assoc]
    exact hmtu
  unfold State.cmReq
  rw [if_neg (by rw [hs]; decide), hallow, hfree]
  exact if_pos hgood

theorem cmReq_rejected {s : State} {r : CmReq} (hs : (s.serves && s.subUp r.mac r.sub) = true)
    (hbad : s.allowsOf r.mac r.sub r.family r.host = [] ∨ s.pickRoce = none ∨ r.rc = false ∨ r.service ≠ 4420
      ∨ (r.mtu ≠ 1024 ∧ r.mtu ≠ 2048 ∧ r.mtu ≠ 4096)) :
    s.cmReq r = s.roceFrame r.mac r.sub 0 (.cm r.mac r.sub r.host 1) := by
  unfold State.cmReq
  rw [if_neg (by rw [hs]; decide)]
  dsimp only
  split
  · next a as k hallow hfree =>
    refine if_neg fun hgood => ?_
    simp only [Bool.and_eq_true, Bool.or_eq_true, beq_iff_eq] at hgood
    obtain ⟨⟨hrc, hport⟩, hmtu⟩ := hgood
    rcases hbad with hnone | hfull | hnot | hother | hno
    · exact List.cons_ne_nil _ _ (hallow.symm.trans hnone)
    · exact Option.some_ne_none _ (hfree.symm.trans hfull)
    · exact Bool.noConfusion (hnot.symm.trans hrc)
    · exact hother hport
    · omega
  · rfl

section
variable {s : State} {k : Nat} {c : RoceConn} (hc : tblFind s.net.roce k = some c)
include hc

theorem cmRtu_eq (hs : s.serves = true) : s.cmRtu k = (s.setRoce k { c with established := true }).touch := by
  unfold State.cmRtu State.updRoce
  rw [if_pos hs, hc]

theorem cmDreq_eq (hs : s.serves = true) :
    s.cmDreq k = (s.roceEnd k false).roceFrame c.mac c.sub 0 (.cm c.mac c.sub c.host 2) := by
  unfold State.cmDreq
  rw [hc]
  exact if_pos hs

theorem roceAckTimeout_eq {m : RoceSent} {ms : List RoceSent} {a : State} (hsent : c.sent = m :: ms) (hwait : c.rnrWait = none)
    (ha : a = s.advanceTo (m.at_ + s.roceTimeout)) : s.roceAckTimeout k =
      if a.field .netRoceCfg 10 8 ≤ m.tries then a.roceEndHost c.host
      else (a.setRoce k { c with sent := { m with tries := m.tries + 1 } :: ms }).roceResend k := by
  subst ha
  unfold State.roceAckTimeout
  simp only [hc, hsent]
  exact if_neg (by rw [hwait]; decide)

theorem roceRnrExpire_eq {t : Nat} {a : State} (hwait : c.rnrWait = some t) (ha : a = s.advanceTo t) : s.roceRnrExpire k =
    if (a.field .netRoceCfg 6 4 != 7 && c.sent.any fun m => decide (a.field .netRoceCfg 6 4 < m.rnrTries)) = true then
      a.roceEndHost c.host
    else ((a.setRoce k { c with rnrWait := none }).roceResend k).rocePump (c.queue.length + 1) k := by
  subst ha
  unfold State.roceRnrExpire
  simp only [hc, hwait]

end

/-! ### Packets on no established connection -/

theorem roceAckRx_dead {s : State} {k : Nat} (kind : RoceAckKind) (psn : Nat) (h : s.roceLive k = none) :
    s.roceAckRx k kind psn = s.roceDrop := by
  unfold State.roceAckRx
  rw [h]

theorem roceReadResp_dead {s : State} {k : Nat} (psn d : Nat) (b : Bytes) (h : s.roceLive k = none) :
    s.roceReadResp k psn d b = s.roceDrop := by
  unfold State.roceReadResp
  rw [h]

theorem roceRemote_dead {s : State} {k : Nat} (psn : Nat) (h : s.roceLive k = none) : s.roceRemote k psn = s.roceDrop := by
  unfold State.roceRemote
  rw [h]

/-! ### Packets on an established connection -/

section
variable {s : State} {k : Nat} {c : RoceConn} (psn : Nat) (hc : s.roceLive k = some c)
include hc

theorem roceRemote_live : s.roceRemote k psn = s.roceOut k (.roceAck k psn 3) := by
  unfold State.roceRemote
  rw [hc]

theorem roceAckRx_ack : s.roceAckRx k .ack psn = (s.setRoce k { c with
    sent := c.sent.filter fun m => m.req.isRead || !psnGe psn ((m.psn + m.n - 1) % 2 ^ 24) }).rocePump (c.queue.length + 1) k := by
  unfold State.roceAckRx
  rw [hc]

theorem roceAckRx_rnr (ns : Nat) : s.roceAckRx k (.rnr ns) psn = s.setRoce k { c with
    rnrWait := some (s.now + ns)
    sent := c.sent.map fun m => if m.psn = psn then { m with rnrTries := m.rnrTries + 1 } else m } := by
  unfold State.roceAckRx
  rw [hc]

theorem roceAckRx_sequence : s.roceAckRx k .sequence psn = if c.recover then s.roceRecover k psn
    else (s.setRoce k { c with
      sent := c.sent.filter fun m => m.req.isRead || psnGe ((m.psn + m.n - 1) % 2 ^ 24) psn }).roceResend k := by
  unfold State.roceAckRx
  rw [hc]

theorem roceAckRx_error : s.roceAckRx k .error psn = s.roceEndHost c.host := by
  unfold State.roceAckRx
  rw [hc]

section
variable (d : Nat) (b : Bytes)

theorem roceReadResp_unasked
    (hfind : c.sent.find? (fun m => m.req.isRead && decide ((psn + 2 ^ 24 - m.psn) % 2 ^ 24 < m.n)) = none) :
    s.roceReadResp k psn d b = s := by
  unfold State.roceReadResp
  simp only [hc, hfind]

variable {m : RoceSent}
  (hfind : c.sent.find? (fun m => m.req.isRead && decide ((psn + 2 ^ 24 - m.psn) % 2 ^ 24 < m.n)) = some m)
include hfind

/-- The read of a Dataset Management range has its own command, DSM_RANGE_ARRIVE. -/
theorem roceReadResp_range {cl cid : Nat} (hreq : m.req = .readRange cl cid) : s.roceReadResp k psn d b = s := by
  unfold State.roceReadResp
  simp only [hc, hfind, hreq]

section
variable {cl id va key len at_ : Nat} (hreq : m.req = .readDesc cl id va key len)
  (hat : at_ = (psn + 2 ^ 24 - m.psn) % 2 ^ 24 * c.mtu)
include hreq hat

theorem roceReadResp_descLength (hlen : b.length ≠ min c.mtu (len - at_)) : s.roceReadResp k psn d b = s := by
  subst hat
  unfold State.roceReadResp
  simp only [hc, hfind, hreq]
  exact if_pos hlen

/-- A packet for a descriptor: the read has ended once all bytes have come. -/
theorem roceReadResp_desc {u : State} {x : Desc} (hlen : b.length = min c.mtu (len - at_))
    (hu : u = (s.setRoce k { c with
      sent := c.sent.filter fun x => x.req.isRead || !psnGe m.psn ((x.psn + x.n) % 2 ^ 24) }).descArrive id at_ b)
    (hx : tblFind u.fct.descs id = some x) : s.roceReadResp k psn d b =
      if len ≤ x.arrived then
        ((u.updRoce k fun c => { c with sent := rmFirst (fun x => x == m) c.sent }).rocePump (c.queue.length + 1) k).flow
      else u := by
  subst hat
  unfold State.roceReadResp
  simp only [hc, hfind, hreq, ← hu, hx, decide_eq_true_eq]
  exact if_neg (not_not_intro hlen)

end

section
variable {cl seq va key len at_ : Nat} (hreq : m.req = .readPull cl seq va key len)
  (hat : at_ = (psn + 2 ^ 24 - m.psn) % 2 ^ 24 * c.mtu)
include hreq hat

theorem roceReadResp_pullLength (hlen : b.length ≠ min c.mtu (len - at_)) : s.roceReadResp k psn d b = s := by
  subst hat
  unfold State.roceReadResp
  simp only [hc, hfind, hreq]
  exact if_pos hlen

/-- A packet for a command's buffer: the read has ended once all bytes have come. -/
theorem roceReadResp_pull {off : Nat} {x y : Cmd} {u : State} (hcmd : s.cmd seq = some x) (hoff : off = s.readOff x va)
    (hlen : b.length = min c.mtu (len - at_))
    (hu : u = ((s.setRoce k { c with
      sent := c.sent.filter fun x => x.req.isRead || !psnGe m.psn ((x.psn + x.n) % 2 ^ 24) }).pullArrive seq (off + at_) b).arrivedAs
        seq c.mac d)
    (hy : u.cmd seq = some y) : s.roceReadResp k psn d b =
      if off + len ≤ y.data.length then
        ((u.updRoce k fun c => { c with sent := rmFirst (fun x => x == m) c.sent }).rocePump (c.queue.length + 1) k).flow
      else u := by
  subst hat
  unfold State.roceReadResp
  simp only [hc, hfind, hreq, hcmd, ← hoff, ← hu, hy, decide_eq_true_eq]
  exact if_neg (not_not_intro hlen)

end

end

/-! ### Capsules -/

theorem dsmArrive_failed {q cid : Nat} {a : RoceAllow} {e : Bytes} (hq : c.qp = some q)
    (ha : tblFind s.net.allow c.allow = some a) (he : tblFind c.dsm cid = some e) : s.dsmArrive k cid none = s.roceEndHost c.host := by
  unfold State.dsmArrive
  simp only [hc, hq, ha, he]

section
variable {q : Nat} {b : Bytes} {a : RoceAllow} (hq : c.qp = some q) (ha : tblFind s.net.allow c.allow = some a)
include hq ha

theorem roceCapsule_extra : s.roceCapsule k psn b true = s.roceOut k (.roceAck k psn 2) := by
  rw [roceCapsule_eq hc hq ha, if_pos rfl]

theorem roceCapsule_old (hne : psn ≠ c.ePsn) (hold : (c.ePsn + 2 ^ 24 - psn) % 2 ^ 24 < 2 ^ 23) :
    s.roceCapsule k psn b false = s.roceOut k (.roceAck k ((c.ePsn + 2 ^ 24 - 1) % 2 ^ 24) 0) := by
  rw [roceCapsule_eq hc hq ha, if_neg Bool.false_ne_true, if_pos hne, if_pos hold]

theorem roceCapsule_ahead (hne : psn ≠ c.ePsn) (hahead : 2 ^ 23 ≤ (c.ePsn + 2 ^ 24 - psn) % 2 ^ 24) :
    s.roceCapsule k psn b false = s.roceOut k (.roceAck k c.ePsn 4) := by
  rw [roceCapsule_eq hc hq ha, if_neg Bool.false_ne_true, if_pos hne, if_neg (Nat.not_lt.mpr hahead)]

variable (hpsn : psn = c.ePsn)
include hpsn

theorem roceCapsule_invalidOpcode
    (hop : (byteAt b 0 == 0 || byteAt b 0 == 1 || byteAt b 0 == 2 || byteAt b 0 == 8 || byteAt b 0 == 9) = false) :
    s.roceCapsule k psn b false = (s.roceAckTaken k psn none).nvReply k (leAt b 2 2) 0 nvInvalidOpcode := by
  rw [roceCapsule_eq hc hq ha, if_neg Bool.false_ne_true, if_neg (not_not_intro hpsn), hop]
  rfl

variable (hop : (byteAt b 0 == 0 || byteAt b 0 == 1 || byteAt b 0 == 2 || byteAt b 0 == 8 || byteAt b 0 == 9) = true)
include hop

theorem roceCapsule_invalidField (hbad : capsuleBad b = true) :
    s.roceCapsule k psn b false = (s.roceAckTaken k psn none).nvReply k (leAt b 2 2) 0 nvInvalidField := by
  rw [roceCapsule_eq hc hq ha, if_neg Bool.false_ne_true, if_neg (not_not_intro hpsn),
    if_neg (by rw [hop]; decide), if_pos hbad]

variable (hgood : capsuleBad b = false)
include hgood

theorem roceCapsule_invalidNamespace (hread : byteAt b 0 ≠ 0) (hns : byteAt b 7 ≠ 0) :
    s.roceCapsule k psn b false = (s.roceAckTaken k psn none).nvReply k (leAt b 2 2) 0 nvInvalidNamespace := by
  rw [roceCapsule_eq hc hq ha, if_neg Bool.false_ne_true, if_neg (not_not_intro hpsn),
    if_neg (by rw [hop]; decide), if_neg (by rw [hgood]; decide), if_pos ⟨hread, hns⟩]

/-- FLUSH and WRITE_ZEROES carry no data: the entry goes to the queue pair without a key. -/
theorem roceCapsule_noData (hns : ¬ (byteAt b 0 ≠ 0 ∧ byteAt b 7 ≠ 0)) (hcode : byteAt b 0 = 0 ∨ byteAt b 0 = 8) :
    s.roceCapsule k psn b false = s.roceInline k psn q (capsuleEntry a b 0) := by
  rw [roceCapsule_eq hc hq ha, if_neg Bool.false_ne_true, if_neg (not_not_intro hpsn),
    if_neg (by rw [hop]; decide), if_neg (by rw [hgood]; decide), if_neg hns, if_pos hcode]

/-- READ and WRITE take a transient key for their buffer, or an RNR NAK where none is free (log entry 107). -/
theorem roceCapsule_noKey (hns : byteAt b 7 = 0) (hcode : byteAt b 0 = 1 ∨ byteAt b 0 = 2)
    (hkey : s.transient k a.tenant (if byteAt b 0 = 2 then 2 else 1) (sglAddr b) (sglLen b) (sglKey b) = none) :
    s.roceCapsule k psn b false = s.roceOut k (.roceAck k psn 1) := by
  rw [roceCapsule_eq hc hq ha, if_neg Bool.false_ne_true, if_neg (not_not_intro hpsn),
    if_neg (by rw [hop]; decide), if_neg (by rw [hgood]; decide), if_neg fun h => h.2 hns, if_neg (by omega), hkey]

theorem roceCapsule_data (hns : byteAt b 7 = 0) (hcode : byteAt b 0 = 1 ∨ byteAt b 0 = 2) {u : State} {m : Nat}
    (hkey : s.transient k a.tenant (if byteAt b 0 = 2 then 2 else 1) (sglAddr b) (sglLen b) (sglKey b) = some (u, m)) :
    s.roceCapsule k psn b false = u.roceInline k psn q (capsuleEntry a b m) := by
  rw [roceCapsule_eq hc hq ha, if_neg Bool.false_ne_true, if_neg (not_not_intro hpsn),
    if_neg (by rw [hop]; decide), if_neg (by rw [hgood]; decide), if_neg fun h => h.2 hns, if_neg (by omega), hkey]
  exact if_neg (by omega)

end

end

/-- Settles O30, event by event. -/
theorem roceEventsDoTheirEffect : Obligations.RoceEventsDoTheirEffect := by
  refine ⟨fun s r => ⟨fun hdeaf => ?_, fun hheard => ⟨fun a as k hallow hfree hrc hport hmtu => ?_, fun hbad => ?_⟩⟩, ?_, ?_, ?_, ?_, ?_⟩
  · exact congrArg Host.Outcome.next (cmReq_deaf hdeaf)
  · exact congrArg Host.Outcome.next (cmReq_accepted hheard hallow hfree hrc hport hmtu)
  · exact congrArg Host.Outcome.next (cmReq_rejected hheard hbad)
  · intro s k c hc
    refine ⟨fun hserves => ?_, fun hserves => ?_, fun m ms hsent hwait a ha => ⟨fun hlast => ?_, fun hmore => ?_⟩,
      fun t lim hwait a ha hlim => ⟨fun hover => ?_, fun hunder => ?_⟩⟩
    · exact ⟨_, congrArg Host.Outcome.next (cmRtu_eq hc hserves), rfl, fun j hj => tblFind_ins_ne hj _ _, rfl, rfl, rfl, rfl⟩
    · exact congrArg Host.Outcome.next (cmDreq_eq hc hserves)
    · exact congrArg Host.Outcome.next ((roceAckTimeout_eq hc hsent hwait ha).trans (if_pos hlast))
    · exact congrArg Host.Outcome.next ((roceAckTimeout_eq hc hsent hwait ha).trans (if_neg (Nat.not_le.mpr hmore)))
    · subst hlim
      exact congrArg Host.Outcome.next ((roceRnrExpire_eq hc hwait ha).trans (if_pos hover))
    · subst hlim
      exact congrArg Host.Outcome.next ((roceRnrExpire_eq hc hwait ha).trans (if_neg (by rw [hunder]; decide)))
  · rintro s k psn ns d b hdead i (rfl | rfl | rfl | rfl | rfl | rfl)
    · exact congrArg Host.Outcome.next (roceAckRx_dead .ack psn hdead)
    · exact congrArg Host.Outcome.next (roceAckRx_dead (.rnr ns) psn hdead)
    · exact congrArg Host.Outcome.next (roceAckRx_dead .sequence psn hdead)
    · exact congrArg Host.Outcome.next (roceAckRx_dead .error psn hdead)
    · exact congrArg Host.Outcome.next (roceReadResp_dead psn d b hdead)
    · exact congrArg Host.Outcome.next (roceRemote_dead psn hdead)
  · intro s k psn ns d b c hc
    refine ⟨congrArg Host.Outcome.next (roceRemote_live psn hc), congrArg Host.Outcome.next (roceAckRx_ack psn hc),
      congrArg Host.Outcome.next (roceAckRx_rnr psn hc ns), fun hrec => ?_, fun hrec => ?_, congrArg Host.Outcome.next (roceAckRx_error psn hc),
      fun hnone => ?_, fun m hfind cl id va key len hreq at_ hat => ⟨fun hlen => ?_,
        fun hlen u hu => ⟨fun x hx hpart => ?_, fun x hx hall => ?_⟩⟩,
      fun m hfind cl seq va key len x hreq hcmd at_ off hat hoff => ⟨fun hlen => ?_,
        fun hlen u hu => ⟨fun y hy hpart => ?_, fun y hy hall => ?_⟩⟩,
      fun m cl cid hfind hreq => ?_⟩
    · exact congrArg Host.Outcome.next ((roceAckRx_sequence psn hc).trans (if_pos hrec))
    · exact congrArg Host.Outcome.next ((roceAckRx_sequence psn hc).trans (if_neg (by rw [hrec]; decide)))
    · exact congrArg Host.Outcome.next (roceReadResp_unasked psn hc d b hnone)
    · exact congrArg Host.Outcome.next (roceReadResp_descLength psn hc d b hfind hreq hat hlen)
    · exact congrArg Host.Outcome.next ((roceReadResp_desc psn hc d b hfind hreq hat hlen hu hx).trans (if_neg (Nat.not_le.mpr hpart)))
    · exact congrArg Host.Outcome.next ((roceReadResp_desc psn hc d b hfind hreq hat hlen hu hx).trans (if_pos hall))
    · exact congrArg Host.Outcome.next (roceReadResp_pullLength psn hc d b hfind hreq hat hlen)
    · exact congrArg Host.Outcome.next ((roceReadResp_pull psn hc d b hfind hreq hat hcmd hoff hlen hu hy).trans (if_neg (Nat.not_le.mpr hpart)))
    · exact congrArg Host.Outcome.next ((roceReadResp_pull psn hc d b hfind hreq hat hcmd hoff hlen hu hy).trans (if_pos hall))
    · exact congrArg Host.Outcome.next (roceReadResp_range psn hc d b hfind hreq)
  · refine fun s k psn cid b x r hoff => ⟨fun hbusy => ⟨⟨_, congrArg Host.Outcome.next (atQpe_held _ _ hoff hbusy), rfl, rfl, rfl, rfl⟩,
      ⟨_, congrArg Host.Outcome.next (atQpe_held _ _ hoff hbusy), rfl, rfl, rfl, rfl⟩⟩, fun hidle => ⟨?_, ?_⟩⟩
    · exact congrArg Host.Outcome.next (atQpe_refused _ _ hoff hidle)
    · exact congrArg Host.Outcome.next (atQpe_refused _ _ hoff hidle)
  · intro s k psn q b c a hon hc hq ha
    refine ⟨?_, fun hne hold => ?_, fun hne hahead => ?_, ?_, fun cid e he => ?_⟩
    · rw [capsule_on hon, roceCapsule_extra psn hc hq ha]
    · rw [capsule_on hon, roceCapsule_old psn hc hq ha hne hold]
    · rw [capsule_on hon, roceCapsule_ahead psn hc hq ha hne hahead]
    · rintro hpsn op cid ok rfl rfl rfl
      rw [capsule_on hon]
      refine ⟨fun hop => ?_, fun hop hbad => ?_, fun hop hgood hread hns => ?_, fun hgood hcode => ?_, fun hgood hcode hns => ?_⟩
      · rw [roceCapsule_invalidOpcode psn hc hq ha hpsn hop]
      · rw [roceCapsule_invalidField psn hc hq ha hpsn hop hbad]
      · rw [roceCapsule_invalidNamespace psn hc hq ha hpsn hop hgood hread hns]
      · have hop : (byteAt b 0 == 0 || byteAt b 0 == 1 || byteAt b 0 == 2 || byteAt b 0 == 8 || byteAt b 0 == 9) = true := by
          rcases hcode with h | ⟨h, -⟩ <;> rw [h] <;> rfl
        rw [roceCapsule_noData psn hc hq ha hpsn hop hgood (by omega) (by omega)]
      · have hop : (byteAt b 0 == 0 || byteAt b 0 == 1 || byteAt b 0 == 2 || byteAt b 0 == 8 || byteAt b 0 == 9) = true := by
          rcases hcode with h | h <;> rw [h] <;> rfl
        refine ⟨fun hkey => ?_, fun u m hkey => ?_⟩
        · rw [roceCapsule_noKey psn hc hq ha hpsn hop hgood hns hcode hkey]
        · rw [roceCapsule_data psn hc hq ha hpsn hop hgood hns hcode hkey]
    · exact congrArg Host.Outcome.next ((if_pos hon).trans (dsmArrive_failed hc hq ha he))

end Sys2Proof.Machine
end

section
/-! PROOFS. Scope: the layout of a completion entry. -/

namespace Sys2Proof.Machine

/-! ### Little-endian fields of a byte string -/

theorem toLe_length (v n : Nat) : (toLe v n).length = n := by
  induction n generalizing v with
  | zero => rfl
  | succ n ih => rw [toLe, List.length_cons, ih]

theorem byteAt_toLe (v : Nat) {n i : Nat} (h : i < n) : byteAt (toLe v n) i = v / 256 ^ i % 256 := by
  induction n generalizing v i with
  | zero => omega
  | succ n ih =>
    cases i with
    | zero => simp [byteAt, toLe]
    | succ i =>
      show byteAt (toLe (v / 256) n) i = _
      rw [ih (v / 256) (by omega), Nat.div_div_eq_div_mul, Nat.pow_succ']

theorem byteAt_append_left {a : Bytes} {i : Nat} (b : Bytes) (h : i < a.length) : byteAt (a ++ b) i = byteAt a i := by
  rw [byteAt, byteAt, List.getD_eq_getElem?_getD, List.getD_eq_getElem?_getD, List.getElem?_append_left h]

theorem byteAt_append_right {a : Bytes} {i : Nat} (b : Bytes) (h : a.length ≤ i) :
    byteAt (a ++ b) i = byteAt b (i - a.length) := by
  rw [byteAt, byteAt, List.getD_eq_getElem?_getD, List.getD_eq_getElem?_getD, List.getElem?_append_right h]

/-- A field that begins behind a first part is read from what follows that part. -/
theorem leAt_append_right {a : Bytes} {off : Nat} (b : Bytes) (n : Nat) (h : a.length ≤ off) :
    leAt (a ++ b) off n = leAt b (off - a.length) n := by
  induction n generalizing off with
  | zero => rfl
  | succ n ih => rw [leAt, leAt, byteAt_append_right b h, ih (by omega), Nat.sub_add_comm h]

/-- A field that ends within a first part is read from that part. -/
theorem leAt_append_left {a : Bytes} {off n : Nat} (b : Bytes) (h : off + n ≤ a.length) :
    leAt (a ++ b) off n = leAt a off n := by
  induction n generalizing off with
  | zero => rfl
  | succ n ih => rw [leAt, leAt, byteAt_append_left b (by omega), ih (by omega)]

theorem leAt_cons_succ (x : Byte) (b : Bytes) (off n : Nat) : leAt (x :: b) (off + 1) n = leAt b off n := by
  induction n generalizing off with
  | zero => rfl
  | succ n ih => rw [leAt, leAt, ih]; rfl

theorem leAt_toLe (v n : Nat) : leAt (toLe v n) 0 n = v % 256 ^ n := by
  induction n generalizing v with
  | zero => exact (Nat.mod_one v).symm
  | succ n ih =>
    rw [leAt, byteAt_toLe v (Nat.succ_pos n), toLe, leAt_cons_succ, ih, Nat.pow_zero, Nat.div_one, Nat.pow_succ', Nat.mod_mul]

theorem leAt_field (v n : Nat) (b : Bytes) : leAt (toLe v n ++ b) 0 n = v % 256 ^ n := by
  have hin : 0 + n ≤ (toLe v n).length := Nat.le_of_eq ((Nat.zero_add n).trans (toLe_length v n).symm)
  rw [leAt_append_left b hin, leAt_toLe]

theorem leAt_skip_field (v : Nat) {m off : Nat} (b : Bytes) (n : Nat) (h : m ≤ off) :
    leAt (toLe v m ++ b) off n = leAt b (off - m) n := by
  rw [leAt_append_right b n (by rwa [toLe_length]), toLe_length]

/-! ### The completion entry -/

/-- Byte 3 of a completion entry: PHASE, AUTH_FAIL and HELD (R63). -/
theorem completionFlags_lt (a b c : Bool) : b2n a + 2 * b2n b + 4 * b2n c < 256 ^ 1 := by
  cases a <;> cases b <;> cases c <;> decide

/-- The parts of a completion entry, each followed by the rest. -/
theorem completionEntry_parts (c : Cmd) (x : Qp) (status info time : Nat) : completionEntry c x status info time =
    toLe c.cid 2 ++ (toLe status 1 ++ (toLe (b2n x.phase + 2 * b2n c.authFail + 4 * b2n c.wasHeld) 1
      ++ (toLe x.head 2 ++ (toLe 0 2 ++ (toLe (time % 2 ^ 32) 4 ++ (toLe info 4 ++ zeros 16)))))) := by
  simp only [completionEntry, List.append_assoc]

/-- Each field of a completion entry, read behind the fields before it (R63). -/
theorem completionEntry_fields (c : Cmd) (x : Qp) (status info time : Nat) :
    leAt (completionEntry c x status info time) 0 2 = c.cid % 256 ^ 2
    ∧ leAt (completionEntry c x status info time) 2 1 = status % 256 ^ 1
    ∧ leAt (completionEntry c x status info time) 3 1
        = (b2n x.phase + 2 * b2n c.authFail + 4 * b2n c.wasHeld) % 256 ^ 1
    ∧ leAt (completionEntry c x status info time) 4 2 = x.head % 256 ^ 2
    ∧ leAt (completionEntry c x status info time) 6 2 = 0 % 256 ^ 2
    ∧ leAt (completionEntry c x status info time) 8 4 = time % 2 ^ 32 % 256 ^ 4
    ∧ leAt (completionEntry c x status info time) 12 4 = info % 256 ^ 4 := by
  rw [completionEntry_parts]
  simp only [leAt_field, leAt_skip_field, Nat.reduceLeDiff, Nat.reduceSub, and_self]

theorem completionEntry_length (c : Cmd) (x : Qp) (status info time : Nat) :
    (completionEntry c x status info time).length = 32 := by
  simp only [completionEntry_parts, List.length_append, toLe_length, zeros, List.length_replicate]

/-- The entry ends in 16 zero bytes. -/
theorem completionEntry_drop (c : Cmd) (x : Qp) (status info time : Nat) :
    (completionEntry c x status info time).drop 16 = zeros 16 := by
  rw [completionEntry]
  exact List.drop_left' (by simp only [List.length_append, toLe_length])

/-- Settles O10: each field is read behind the fields before it, and TIME is stored modulo 2^32. -/
theorem aCompletionEntryHasItsLayout : Obligations.ACompletionEntryHasItsLayout := by
  intro c x status info time hcid hstatus hhead hinfo
  have hflags := completionFlags_lt x.phase c.authFail c.wasHeld
  have hwrap : (time + 2 ^ 32) % 2 ^ 32 = time % 2 ^ 32 := Nat.add_mod_right time _
  obtain ⟨hcidAt, hstatusAt, hflagsAt, hheadAt, hzeroAt, htimeAt, hinfoAt⟩ := completionEntry_fields c x status info time
  refine ⟨completionEntry_length c x status info time, hcidAt.trans (by omega), hstatusAt.trans (by omega),
    hflagsAt.trans (Nat.mod_eq_of_lt hflags), hheadAt.trans (by omega), hzeroAt.trans (Nat.zero_mod _), htimeAt.trans (by omega),
    hinfoAt.trans (by omega), completionEntry_drop c x status info time, ?_⟩
  rw [completionEntry, completionEntry, hwrap]

end Sys2Proof.Machine
end

section
/-! PROOFS. Scope: ring fetches (R57, R75). -/

namespace Sys2Proof.Machine

/-! ### Where a ring read begins -/

/-- The queue pair may begin a read of its ring (R57, R75, R243). -/
def State.mayFetch (s : State) (q : Nat) : Prop :=
  s.isOn 160 = true ∧ (s.qp q).state = .active ∧ (s.qp q).fetch = none ∧ 0 < s.fetchCount q ∧ s.fetchHeld q = false
    ∧ ∀ a b, (s.qp q).face ≠ .roce a b

/-- The read of the ring has begun: the queue pair holds it, and nothing has been asked for yet. -/
def State.fetchBegun (s : State) (q : Nat) : State :=
  ((s.useContext q).setQp q { s.qp q with fetch := some ((s.qp q).head, s.fetchCount q), fetchSegs := [] }).emit
    (.ringRead q (s.qp q).head (s.fetchCount q))

/-- What `fetchBegun` leaves: the queue pair with its read, no other, and one more thing sent. -/
theorem fetchBegun_rest {s : State} {q : Nat} (h : (s.qp q).state = .active) :
    (s.fetchBegun q).qp q = { s.qp q with fetch := some ((s.qp q).head, s.fetchCount q), fetchSegs := [] }
    ∧ (∀ k, k ≠ q → (s.fetchBegun q).qp k = s.qp k) ∧ (s.fetchBegun q).mem = s.mem ∧ (s.fetchBegun q).still = s.still
    ∧ (s.fetchBegun q).out = .ringRead q (s.qp q).head (s.fetchCount q) :: s.out := by
  have hlive : ({ s.qp q with fetch := some ((s.qp q).head, s.fetchCount q), fetchSegs := [] } : Qp) ≠ {} :=
    qp_ne_default (by rw [h]; decide)
  obtain ⟨hqp, hother, hstill, hmem, hout⟩ := useContext_setQp s q hlive
  exact ⟨hqp, hother, hmem, hstill, congrArg (_ :: ·) hout⟩

theorem mayFetch_iff (s : State) (q : Nat) : s.mayFetch q ↔
    (s.isOn 160 = true ∧ (s.qp q).state = .active ∧ (s.qp q).fetch.isNone = true ∧ 0 < s.fetchCount q
      ∧ (!s.fetchHeld q) = true ∧ (!(match (s.qp q).face with | .roce _ _ => true | _ => false)) = true) := by
  have hface : (!(match (s.qp q).face with | .roce _ _ => true | _ => false)) = true ↔ ∀ a b, (s.qp q).face ≠ .roce a b := by
    cases (s.qp q).face <;> simp
  rw [hface, Option.isNone_iff_eq_none, Bool.not_eq_true', State.mayFetch]

theorem entryFetch_not {s : State} {q : Nat} (h : ¬ s.mayFetch q) : s.entryFetch q = s := by
  rw [mayFetch_iff] at h
  exact if_pos h

theorem entryFetch_noKey {s : State} {q : Nat} (h : s.mayFetch q)
    (hkey : (s.useContext q).keyOk (s.qp q).sqMkey false ((s.qp q).sqAddr + 64 * (s.qp q).head) (64 * s.fetchCount q) = false) :
    s.entryFetch q = (((s.useContext q).count .mmuKeyFail).qpError q).flow := by
  rw [mayFetch_iff] at h
  exact (if_neg (not_not_intro h)).trans (if_pos (by rw [hkey]; rfl))

theorem entryFetch_asks {s : State} {q : Nat} (h : s.mayFetch q)
    (hkey : (s.useContext q).keyOk (s.qp q).sqMkey false ((s.qp q).sqAddr + 64 * (s.qp q).head) (64 * s.fetchCount q) = true) :
    s.entryFetch q = entryAsk ((s.qp q).sqAddr + 64 * (s.qp q).head) q (s.qp q) (s.fetchCount q) (s.fetchBegun q) := by
  rw [mayFetch_iff] at h
  refine (if_neg (not_not_intro h)).trans ((if_neg (by rw [hkey]; decide)).trans ?_)
  exact entryAsk_eq _ q (s.qp q) (s.fetchCount q) (s.fetchBegun q)

/-! ### What is asked for, by the kind of the SQ key -/

theorem entryAsk_device {a q : Nat} {x : Qp} {n : Nat} {s : State} (h : (s.keyAt (keyIndex x.sqMkey)).kind = 3) :
    entryAsk a q x n s = s.updQp q fun y => { y with fetchSegs := [(0, s.mem.readN (s.devAddr y.sqMkey a) (64 * n))] } := by
  simp only [entryAsk, h]

theorem entryAsk_function {a q : Nat} {x : Qp} {n : Nat} {s : State} {k : KeyEntry} (hk : k = s.keyAt (keyIndex x.sqMkey))
    (h : k.kind = 0) : entryAsk a q x n s =
      if s.funcSends (k.binding % 64) then s.epRead (k.binding % 64) (k.target + (a - k.base)) (64 * n) fun o => .fetch q o
      else s.masterDisabled (k.binding % 64) none := by
  subst hk
  simp only [entryAsk, h]

theorem entryAsk_odt {a q : Nat} {x : Qp} {n : Nat} {s : State} {k : KeyEntry} (hk : k = s.keyAt (keyIndex x.sqMkey))
    (h : k.kind = 1) : entryAsk a q x n s =
      (s.setOdt (k.binding % 2 ^ 16) { s.odtConn (k.binding % 2 ^ 16) with
        asks := (s.odtConn (k.binding % 2 ^ 16)).asks ++ [{ seq := 0, qp := q, slots := some (x.head, n) }] }).odtCtl
        (k.binding % 2 ^ 16) q 0 (.fetchReq x.head n) x.baseClass := by
  subst hk
  simp only [entryAsk, h]

/-! ### The end of a ring read -/

theorem entryFetchDone_waits {s : State} {q slot n : Nat} (hact : (s.qp q).state = .active)
    (hread : (s.qp q).fetch = some (slot, n)) (h : gather (64 * n) (s.qp q).fetchSegs = none) : s.entryFetchDone q = s := by
  simp only [State.entryFetchDone, hact, hread, h]

theorem entryFetchDone_takes {s : State} {q slot n : Nat} {b : Bytes} (hact : (s.qp q).state = .active)
    (hread : (s.qp q).fetch = some (slot, n)) (h : gather (64 * n) (s.qp q).fetchSegs = some b) : s.entryFetchDone q =
      (((s.useContext q).setQp q { s.qp q with fetch := none, fetchSegs := [] }).takeSlots q slot b n).pump q := by
  simp only [State.entryFetchDone, hact, hread, h]

/-- Settles O12: `mayFetch` is what lets a read begin, and the SQ key's kind says of whom it is asked (a fetch uses the
context, log entry 91; one that cannot begin changes nothing, log entry 5). -/
theorem ringReadsFollowTheAnnouncedTail : Obligations.RingReadsFollowTheAnnouncedTail := by
  refine ⟨fun s q => ?_, fun s q hon hact hidle hcount hheld hface => ⟨fun hkey => ?_, fun hkey => ?_⟩, fun s q hnot => ?_,
    fun s q slot n hact hread => ⟨fun hpart => ?_, fun b hall => ?_⟩⟩
  · obtain ⟨hle, hinline⟩ := fetchCount_le s q
    exact ⟨by omega, by omega, by omega, by omega, hinline⟩
  · exact congrArg Host.Outcome.next (entryFetch_noKey ⟨hon, hact, hidle, hcount, hheld, hface⟩ hkey)
  · have hasks := entryFetch_asks ⟨hon, hact, hidle, hcount, hheld, hface⟩ hkey
    obtain ⟨hqp, hother, hmem, hstill, hout⟩ := fetchBegun_rest hact
    refine ⟨s.fetchBegun q, _, rfl, hqp, hother, hmem, hstill, hout, fun hdev => ?_, fun hfunc hsends => ?_,
      fun hfunc hoff => ?_, fun hodt => ?_⟩ <;> refine congrArg Host.Outcome.next (hasks.trans ?_)
    · exact entryAsk_device hdev
    · exact (entryAsk_function rfl hfunc).trans (if_pos hsends)
    · exact (entryAsk_function rfl hfunc).trans (if_neg (by rw [hoff]; decide))
    · exact entryAsk_odt rfl hodt
  · refine congrArg Host.Outcome.next (entryFetch_not ?_)
    rintro ⟨hon, hact, hidle, hcount, hheld, hface⟩
    rcases hnot with h | h | h | h | h | ⟨a, b, h⟩
    · exact Bool.noConfusion (hon.symm.trans h)
    · exact h hact
    · exact h hidle
    · omega
    · exact Bool.noConfusion (hheld.symm.trans h)
    · exact hface a b h
  · exact congrArg Host.Outcome.next (entryFetchDone_waits hact hread hpart)
  · have hlive : ({ s.qp q with fetch := none, fetchSegs := [] } : Qp) ≠ {} := qp_ne_default (by rw [hact]; decide)
    obtain ⟨hqp, hother, hstill, hmem, hout⟩ := useContext_setQp s q hlive
    exact ⟨_, congrArg Host.Outcome.next (entryFetchDone_takes hact hread hall), hqp, hother, hstill, hmem, hout⟩

end Sys2Proof.Machine
end

section
/-! PROOFS. Scope: FLUSH and ABORT (R85 to R91). -/

namespace Sys2Proof.Machine

theorem cmd_seq {s : State} {n : Nat} {c : Cmd} (h : s.cmd n = some c) : c.seq = n := by
  simpa using List.find?_some h

/-! ### FLUSH -/

theorem flush_carried {s : State} {q cid : Nat} {c : Cmd} (h : s.carried q cid opFlush = some c) :
    s.flush q cid = ((s.markWaiting c.seq).endStep c).flow := by
  simp only [State.flush, h]

/-! ### A wait that is over -/

/-- A waiting FLUSH is over when no command of its queue pair that was taken before it is left (R85). -/
theorem waitOver_flush {s : State} {c : Cmd} (hwait : c.waiting = true) (hrun : c.phase ≠ .finished) (hboth : c.both = false)
    (hop : eOpcode c.entry = opFlush) : s.waitOver c = true ↔ ∀ d ∈ s.qpe.cmds, d.qp = c.qp → c.seq ≤ d.seq := by
  simp [State.waitOver, hwait, hrun, hboth, hop, opFlush, opAbort]

/-- A waiting ABORT is over when none of its targets is left (R90). -/
theorem waitOver_abort {s : State} {c : Cmd} (hwait : c.waiting = true) (hrun : c.phase ≠ .finished) (hboth : c.both = false)
    (hop : eOpcode c.entry = opAbort) : s.waitOver c = true ↔ ∀ d ∈ s.qpe.cmds, d.seq ∉ c.todo := by
  simp [State.waitOver, hwait, hrun, hboth, hop, opFlush, opAbort]

/-- Where no command is to be ended for an ERROR or a reset, the first whose wait is over is finished. -/
theorem settleStep_waitOver {s : State} {c : Cmd}
    (hlive : (s.qpe.cmds.find? fun c => (((s.qp c.qp).state == .error || (s.qp c.qp).state == .draining) && !c.past
      && c.phase != .finished)) = none)
    (hover : s.qpe.cmds.find? s.waitOver = some c) (h45 : eOpcode c.entry ≠ 0x45) (h4A : eOpcode c.entry ≠ 0x4A) :
    s.settleStep = some ((s.walkBegin c.seq).finishCore c.seq stSuccess c.okInfo) := by
  have hcmd : s.settleCmd = some ((s.walkBegin c.seq).finishCore c.seq stSuccess c.okInfo) := by
    simp only [State.settleCmd, hlive, hover, if_neg h45, if_neg h4A]
  rw [State.settleStep, hcmd]

/-! ### ABORT -/

/-- An ABORT that has found its target waits for it. -/
def State.abortWaits (s : State) (a t : Cmd) : State := s.updCmd a.seq fun c => { c with waiting := true, todo := [t.seq] }

theorem abortWaits_cmd {s : State} {a : Cmd} (t : Cmd) (h : s.cmd a.seq = some a) :
    (s.abortWaits a t).cmd a.seq = some { a with waiting := true, todo := [t.seq] } :=
  cmd_updCmd h _ fun _ => rfl

theorem noIssue_finished {t : Cmd} (h : t.noIssue = true) : t.phase = .finished := by
  simp only [Cmd.noIssue, Bool.and_eq_true, beq_iff_eq] at h
  exact h.1.1

theorem abort_noTarget {s : State} {q cid : Nat} {a : Cmd} (h : s.carried q cid opAbort = some a) (hwait : a.waiting = false)
    (ht : s.findCmd q (leAt a.entry 40 2) = none) : s.abort q cid = (s.finish a.seq stAbortTooLate 1).flow := by
  simp only [State.abort, h, hwait, ht]
  rfl

/-- What an ABORT does with the target it has found, in the order of its tests (R88 to R91). -/
theorem abort_target {s : State} {q cid : Nat} {a t : Cmd} (h : s.carried q cid opAbort = some a) (hwait : a.waiting = false)
    (ht : s.findCmd q (leAt a.entry 40 2) = some t) : s.abort q cid =
      if eOpcode t.entry = opFlush ∨ eOpcode t.entry = opAbort then (s.finish a.seq stAbortTooLate 2).flow
      else if t.noIssue ∧ !t.past ∧ (t.ready.isNone ∨ t.raw.isNone) then
        (((s.abortWaits a t).endUnissued t stAbortedRequest).settle).flow
      else if t.phase = .finished ∧ t.result = some (stAbortedRequest, 0) then (s.finish a.seq stAbortTooLate 1).flow
      else if t.past ∨ t.phase = .finished then (s.finish a.seq stAbortTooLate 0).flow
      else ((s.abortWaits a t).endEarly t.seq stAbortedRequest).flow := by
  simp only [State.abort, h, hwait, ht]
  rfl

/-- The test for a finished target that has no issue point and whose entry is not on its way (R89). -/
theorem unissued_iff (t : Cmd) : (t.noIssue = true ∧ (!t.past) = true ∧ (t.ready.isNone = true ∨ t.raw.isNone = true))
    ↔ t.noIssue = true ∧ t.past = false ∧ (t.ready = none ∨ t.raw = none) := by
  rw [Bool.not_eq_true', Option.isNone_iff_eq_none, Option.isNone_iff_eq_none]

theorem not_unissued {t : Cmd} (h : t.noIssue = false ∨ t.past = true ∨ t.ready ≠ none ∧ t.raw ≠ none) :
    ¬ (t.noIssue = true ∧ (!t.past) = true ∧ (t.ready.isNone = true ∨ t.raw.isNone = true)) := by
  rw [unissued_iff]
  rintro ⟨hno, hpast, hentry⟩
  rcases h with h | h | ⟨hready, hraw⟩
  · exact Bool.noConfusion (hno.symm.trans h)
  · exact Bool.noConfusion (hpast.symm.trans h)
  · exact hentry.elim hready hraw

/-- Settles O13: FLUSH waits, a wait that is over finishes its command, and ABORT goes through the tests of `abort_target`. -/
theorem flushWaitsAndAbortEndsItsTargetOnce : Obligations.FlushWaitsAndAbortEndsItsTargetOnce := by
  refine fun s q cid c => ⟨fun hflush hc => ?_, fun hwait hrun hboth => ⟨waitOver_flush hwait hrun hboth, waitOver_abort hwait hrun hboth⟩,
    fun hlive hover hop => ?_, fun habort hwait => ⟨fun hnone => ?_, fun t ht => ?_⟩⟩
  · have hqpe : ((s.markWaiting c.seq).endStep c).qpe = (s.markWaiting c.seq).qpe := State.endStep_qpe _ c
    refine ⟨_, congrArg Host.Outcome.next (flush_carried hflush), ?_, State.endStep_mem _ c, State.endStep_still _ c rfl,
      State.endStep_out _ c, (congrArg Qpe.qps hqpe).trans rfl⟩
    have hcmd : ((s.markWaiting c.seq).endStep c).cmd c.seq = (s.markWaiting c.seq).cmd c.seq := by
      rw [State.cmd, hqpe, State.cmd]
    exact hcmd.trans (cmd_updCmd hc _ fun _ => rfl)
  · refine settleStep_waitOver hlive hover ?_ ?_ <;> rcases hop with hop | hop <;> rw [hop] <;> decide
  · exact congrArg Host.Outcome.next (abort_noTarget habort hwait hnone)
  · have hexec : exec (.abort q cid) s = .next _ := congrArg Host.Outcome.next (abort_target habort hwait ht)
    rw [hexec]
    refine ⟨fun hop => by rw [if_pos hop], fun hflush habt => ?_⟩
    rw [if_neg (not_or.mpr ⟨hflush, habt⟩)]
    refine ⟨fun hno hpast hentry => ?_, fun hissued => ?_, fun hpast hrun => ?_⟩
    · rw [if_pos ((unissued_iff t).mpr ⟨hno, hpast, hentry⟩)]
      exact ⟨s.abortWaits c t, rfl, abortWaits_cmd t, rfl, rfl, rfl⟩
    · rw [if_neg (not_unissued hissued)]
      refine ⟨fun hdone hresult => by rw [if_pos ⟨hdone, hresult⟩], fun hother hlate => ?_⟩
      rw [if_neg hother, if_pos hlate]
    · have hno : t.noIssue = false := Bool.eq_false_iff.mpr fun h => hrun (noIssue_finished h)
      rw [if_neg (not_unissued (Or.inl hno)), if_neg (fun h => hrun h.1), if_neg (by simp [hpast, hrun])]
      exact ⟨s.abortWaits c t, rfl, abortWaits_cmd t, rfl, rfl, rfl⟩

end Sys2Proof.Machine
end

section
/-! PROOFS. Scope: the inspection of a queue pair (R100 to R103) and the policer's refill (R240 to R243). -/

namespace Sys2Proof.Machine

/-! ### The capture of QPE_INSP_SEL -/

/-- The capture of a queue pair of the part that is in use. -/
theorem inspect_live {s : State} {q : Nat} (hq : q < s.qpCount) (hlive : (s.qp q).state ≠ .free) :
    s.inspect q = ((s.setReg .qpeInspState
      (min 0xFFFF (s.cmdsOf q).length * 2 ^ 16 + (s.qp q).home * 2 ^ 8
        + b2n (s.qp q).admin * 2 ^ 6 + b2n (s.fetchHeld q) * 2 ^ 5 + b2n (s.qpe.cache.contains q) * 2 ^ 4
        + b2n (bitOf (s.qp q).mask 0) * 2 ^ 3 + (s.qp q).state.code + 2 ^ 7)).setReg .qpeInspSq
      ((s.qp q).tail * 2 ^ 16 + (s.qp q).head)).setReg .qpeInspCq ((s.qp q).post * 2 ^ 16 + (s.qp q).cqHead) := by
  have hin : decide (s.qpCount ≤ q) = false := decide_eq_false (Nat.not_le.mpr hq)
  have hheld : ((s.qp q).state != .free && s.fetchHeld q) = s.fetchHeld q := by simp [hlive]
  simp only [State.inspect, hin, hheld, Bool.false_eq_true, if_false]

/-- The capture of a number beyond the last queue pair: VALID alone. -/
theorem inspect_beyond {s : State} {q : Nat} (hq : s.qpCount ≤ q) :
    s.inspect q = ((s.setReg .qpeInspState (2 ^ 7)).setReg .qpeInspSq 0).setReg .qpeInspCq 0 := by
  simp only [State.inspect, decide_eq_true hq, if_true, Nat.zero_add]

/-! ### The refill -/

/-- One microsecond has passed since the last refill: one refill follows. -/
theorem refillAll_one {s : State} (h : s.refillStride ≠ 0) : s.refillAll 1 1 = s.refills 1 := by
  have hone : min 1 s.refillStride = 1 := by omega
  simp only [State.refillAll, hone, Nat.one_ne_zero, if_false]

/-- The whole microseconds of Gnomon time since the last refill, where the last refill was that of the running one. -/
theorem policerRefill_next {s : State} (hnext : (s.advanceGnm ((s.cls.refilled + 1) * 1000)).gnmNs / 1000 = s.cls.refilled + 1)
    (hstride : (s.advanceGnm ((s.cls.refilled + 1) * 1000)).refillStride ≠ 0) :
    s.policerRefill = (s.advanceGnm ((s.cls.refilled + 1) * 1000)).refills 1 := by
  rw [policerRefill_eq, hnext, advanceGnm_cls, Nat.add_sub_cancel_left, refillAll_one hstride]

/-- Settles O14: the two captures, the refill of each microsecond that has passed, and what a refill does to an
entry (the row moves the clock to the refill, log entry 2). -/
theorem inspectionCapturesAndTheRefillAdds : Obligations.InspectionCapturesAndTheRefillAdds := by
  refine ⟨fun s v q hon hsel hq hlive => ?_, fun s v q hon hsel hq => ?_, fun s v hoff => ?_, fun s hon => ?_, fun s k => ?_,
    fun e k v hv => ?_⟩
  · subst hsel
    exact congrArg Host.Outcome.next ((whenOn_on hon _).trans (inspect_live (s := s.setReg .qpeInspSel _) hq hlive))
  · subst hsel
    exact congrArg Host.Outcome.next ((whenOn_on hon _).trans (inspect_beyond (s := s.setReg .qpeInspSel _) hq))
  · exact congrArg Host.Outcome.next (whenOn_off hoff _)
  · have hexec : exec .policerRefill s = .next s.policerRefill := congrArg Host.Outcome.next (whenOn_on hon _)
    refine ⟨_, rfl, hexec.trans (congrArg _ (policerRefill_eq s)), fun _ hnext hstride => ?_⟩
    rw [hexec, policerRefill_next hnext hstride]
  · exact ⟨_, rfl, rfl⟩
  · subst hv
    refine ⟨rfl, rfl, fun hcir hcbs => if_neg ?_, fun h => if_pos h, fun hpir hpbs => if_neg ?_, fun h => if_pos h, rfl⟩ <;> omega

end Sys2Proof.Machine
end

section
/-! PROOFS. Scope: the life of a queue pair (R81, R82, R94, R95). -/

namespace Sys2Proof.Machine

/-! ### Creation and the begin of a drain -/

/-- CREATE_QP that passes its checks. -/
theorem createQp_can {s : State} {q cid : Nat} {c : Cmd} (h : s.adminCan q cid 0x41 c) :
    exec (.createQp q cid) s = .next ((((s.markPast c.seq).createQp
      (if bitOf (leAt c.entry 56 4) 31 then s.pickQpn else leAt c.entry 56 4) (s.qpOfEntry c.entry)).finish c.seq stSuccess
      (if bitOf (leAt c.entry 56 4) 31 then s.pickQpn else leAt c.entry 56 4)).flow) :=
  congrArg Host.Outcome.next (adminRun_can h _)

/-- DELETE_QP and RESET_QP that pass their checks differ in the drain's kind alone. -/
theorem resetCommand_can {s : State} {q cid op : Nat} {c : Cmd} {i : Instr} {k : DrainKind}
    (hrow : (op, i, k) = (0x42, Instr.deleteQp q cid, DrainKind.deleteQp c.seq)
      ∨ (op, i, k) = (0x43, Instr.resetQp q cid, DrainKind.resetQp c.seq))
    (h : s.adminCan q cid op c) :
    exec i s = .next ((((s.markPast c.seq).markWaiting c.seq).resetReach (leAt c.entry 56 4) k).flow) := by
  rcases hrow with hrow | hrow <;> cases hrow <;> exact congrArg Host.Outcome.next (adminRun_can h _)

/-! ### The end of a drain -/

/-- A queue pair with both rings empty at index 0 and PHASE 1 (R95). -/
def Qp.restarted (x : Qp) : Qp :=
  { x with
    state := .active, head := 0, tail := 0, cqHead := 0, post := 0, phase := true, reserved := 0, fetch := none,
    fetchSegs := [], inl := [], drain := none, unwritten := 0, inlTail := 0, inlCount := 0, inlInvalid := false,
    inlRefused := false, inlHeld := false }

theorem drainEnd_restarts {s : State} {q n : Nat} {d : Drain} (hd : (s.qp q).drain = some d) (hk : d.kind = .resetQp n)
    (hstay : d.thenFree = false) :
    s.drainEnd q = ((s.setQp q (s.qp q).restarted).touch).finishCore n stSuccess d.count := by
  simp only [State.drainEnd, hd, hk, hstay]
  rfl

theorem drainEnd_frees {s : State} {q n : Nat} {d : Drain} (hd : (s.qp q).drain = some d)
    (hk : d.kind = .deleteQp n ∨ d.kind = .resetQp n ∧ d.thenFree = true) :
    s.drainEnd q = ((s.freeQp q).touch).finishCore n stSuccess d.count := by
  rcases hk with hk | ⟨hk, hfree⟩
  · simp only [State.drainEnd, hd, hk]
  · simp only [State.drainEnd, hd, hk, hfree, if_true]

/-- The context of a freed queue pair leaves the table and the cache (R54, R78). -/
theorem freeQp_gone (s : State) (q : Nat) : (s.freeQp q).qpe.qps = tblDel s.qpe.qps q ∧ q ∉ (s.freeQp q).qpe.cache
    ∧ (s.freeQp q).mem = s.mem := by
  have hcache : q ∉ s.qpe.cache.filter (· != q) := by simp
  unfold State.freeQp
  dsimp only
  split
  · split <;> exact ⟨rfl, hcache, rfl⟩
  · exact ⟨rfl, hcache, rfl⟩

/-- Settles O5: creation is `createQp_facts`, the begin of a drain `resetReach_live`, and its end restarts or
frees (ANY takes the lowest free number, log entry 23). -/
theorem queuePairsAreCreatedDrainedAndFreed : Obligations.QueuePairsAreCreatedDrainedAndFreed := by
  refine fun s q cid c => ⟨fun hcan => ?_, fun i op k hrow hcan hlive hrun => ?_, fun d hd => ⟨fun hk hstay => ?_, fun hk => ?_⟩⟩
  · obtain ⟨hqp, hother, hstill, hmem, hout, hcache, hnew, hold⟩ := createQp_facts (s.markPast c.seq)
      (if bitOf (leAt c.entry 56 4) 31 then s.pickQpn else leAt c.entry 56 4) (s.qpOfEntry c.entry) rfl
    exact ⟨_, _, createQp_can hcan, rfl, hqp, hother, hstill, hmem, hout, hcache, hnew, hold⟩
  · obtain ⟨u, fin, n, hreach, hfin, hn, hqp, hother, hstill, hmem⟩ :=
      resetReach_live ((s.markPast c.seq).markWaiting c.seq) (leAt c.entry 56 4) k hlive hrun
    exact ⟨u, fin, n, (resetCommand_can hrow hcan).trans (congrArg (fun t => Host.Outcome.next (State.flow t)) hreach),
      hfin, hn, hqp, hother, hstill, hmem⟩
  · obtain ⟨-, hmem, -⟩ := setQp_rest s q (s.qp q).restarted
    have hactive : (s.qp q).restarted ≠ {} := fun h => by cases congrArg Qp.state h
    exact ⟨_, drainEnd_restarts hd hk hstay, qp_setQp s q _ hactive, fun j hj => qp_setQp_ne s q j _ hj, hmem⟩
  · obtain ⟨hqps, hcache, hmem⟩ := freeQp_gone s q
    exact ⟨_, drainEnd_frees hd hk, hqps, hcache, hmem⟩

end Sys2Proof.Machine
end

section
/-! PROOFS. Scope: the steps of READ, WRITE, WRITE_ZEROES and TRIM (R121 to R136, R154, R156, R358). -/

namespace Sys2Proof.Machine

/-! ### READ -/

section
variable {s : State} {q cid : Nat} {c : Cmd} {v : Volume} {g : Group} (ht : s.target c = some (v, g))
  (hc : s.carried q cid opRead = some c) (hbegun : c.begun = false)
include ht hc hbegun

theorem readStart_down (hdown : s.groupDown v g = true) : s.readStart q cid = (s.endEarly c.seq stGroupFailed).flow := by
  simp only [State.readStart, hc, ht, hbegun, hdown, Bool.false_eq_true, if_false, if_true]

variable (hup : s.groupDown v g = false) (hthread : s.stepThread c = true)
include hup hthread

theorem readStart_overlap (hwait : s.overlapWaits c = true) : s.readStart q cid = s.endStep c := by
  simp only [State.readStart, hc, ht, hbegun, hup, hthread, hwait, Bool.not_true, Bool.false_eq_true, if_false, if_true]

variable (hfree : s.overlapWaits c = false)
include hfree

theorem readStart_masked {b st : Nat} (hmask : s.readMasked c v g = some (b, st)) :
    s.readStart q cid = (s.finish c.seq st b).flow := by
  simp only [State.readStart, hc, ht, hbegun, hup, hthread, hfree, hmask, Bool.not_true, Bool.false_eq_true, if_false]

variable (hmask : s.readMasked c v g = none)
include hmask

theorem readStart_stripeOpen
    (hopen : (readRuns v g (eSlba c.entry) (eNblk c.entry)).any (s.stripeWaits v.group g.erasure) = true) :
    s.readStart q cid = s.endStep c := by
  simp only [State.readStart, hc, ht, hbegun, hup, hthread, hfree, hmask, hopen, Bool.not_true, Bool.false_eq_true, if_false, if_true]

theorem readStart_begins
    (hopen : (readRuns v g (eSlba c.entry) (eNblk c.entry)).any (s.stripeWaits v.group g.erasure) = false)
    {cut : List ReadRun} (hcut : cut = (readRuns v g (eSlba c.entry) (eNblk c.entry)).flatMap
      (fun r => if s.sharedRoom (slotPort (g.home r.stripe r.unit).slot) = 0 ∧ c.cls ≠ 0 then cutRun 8 r.n r else [r])) :
    s.readStart q cid = ((((cut.foldl (fun s r => s.runIssue c g r)
      (s.updCmd c.seq fun c => { c with begun := true, runs := cut })).endStep c).readEnd c.seq).flow) := by
  subst hcut
  simp only [State.readStart, hc, ht, hbegun, hup, hthread, hfree, hmask, hopen, Bool.not_true, Bool.false_eq_true, if_false,
    Bool.and_eq_true, beq_iff_eq, bne_iff_ne]

end

/-! ### The start of a write -/

section
variable {s : State} {q cid op : Nat} {c : Cmd} {v : Volume} {g : Group} (ht : s.target c = some (v, g))
  (hc : s.carried q cid op = some c) (hbegun : c.begun = false)
include ht hc hbegun

theorem writeStart_down (hdown : s.groupDown v g = true) : s.writeStart q cid op = (s.endEarly c.seq stGroupFailed).flow := by
  simp only [State.writeStart, hc, ht, hbegun, hdown, Bool.false_eq_true, if_false, if_true]

variable (hup : s.groupDown v g = false) (hthread : s.stepThread c = true) {w : State} {d : Cmd} (hd : w.cmd c.seq = some d)
include hup hthread hd

/-- The key generation is not to be had now. -/
theorem writeStart_noGen (hgen : s.genStep c v g = (w, false)) : s.writeStart q cid op = w.endStep d :=
  writeStart_gen hc ht hbegun hup hthread hgen hd

variable (hgen : s.genStep c v g = (w, true))
include hgen

/-- The function of a WRITE's buffer may not send (R333). -/
theorem writeStart_disabled (hop : op = opWrite) (hkind : (w.keyAt (keyIndex (eMkey d.entry))).kind = 0)
    (hoff : w.funcSends ((w.keyAt (keyIndex (eMkey d.entry))).binding % 64) = false) :
    s.writeStart q cid op = w.masterDisabled ((w.keyAt (keyIndex (eMkey d.entry))).binding % 64) (some c.seq) := by
  rw [writeStart_gen hc ht hbegun hup hthread hgen hd, ← cmd_seq hd]
  exact if_pos ⟨hop, hkind, by rw [hoff]; rfl⟩

/-- The command begins: its stripes are its work, and its space is reserved. -/
theorem writeStart_begins
    (hsends : op = opWrite → (w.keyAt (keyIndex (eMkey d.entry))).kind = 0 →
      w.funcSends ((w.keyAt (keyIndex (eMkey d.entry))).binding % 64) = true)
    {b : Cmd} {u : State} (hb : b = { d with begun := true, todo := writeStripes d v g })
    (hu : u = w.updCmd c.seq (fun c => { c with begun := true, todo := writeStripes c v g })) :
    s.writeStart q cid op = (if d.cls = 0 then u.c0Reserve b v g else u.spaceTake b v g).endStep b := by
  subst hb hu
  have hself : w.cmd d.seq = some d := by rw [cmd_seq hd, hd]
  have hcmd : (w.updCmd d.seq fun c => { c with begun := true, todo := writeStripes c v g }).cmd d.seq
      = some { d with begun := true, todo := writeStripes d v g } := cmd_updCmd hself _ fun _ => rfl
  have hcan : ¬ (op = opWrite ∧ (w.keyAt (keyIndex (eMkey d.entry))).kind = 0
      ∧ (!w.funcSends ((w.keyAt (keyIndex (eMkey d.entry))).binding % 64)) = true) := by
    rintro ⟨hop, hkind, hoff⟩
    rw [hsends hop hkind] at hoff
    exact absurd hoff (by decide)
  rw [← cmd_seq hd, writeStart_gen hc ht hbegun hup hthread hgen hd]
  dsimp only
  rw [if_neg hcan, hcmd]

end

/-! ### The opening of a stripe, and the reservations -/

section
variable {s w u : State} {q cid st : Nat} {tl : List Nat} {c : Cmd} {v : Volume} {g : Group} (ht : s.target c = some (v, g))
  (hc : s.writing q cid = some c)
include ht hc

/-- Nothing is in the way of the lowest stripe of the command but its bitmap bit and its region (R125, R130). -/
theorem stripeOpen_clear (htodo : c.todo = st :: tl) (hserves : s.serves = true) (hfree : s.overlapWaits c = false)
    (hrow : rowPresent c v g st = true) (hopen : s.openAt v.group st = none) (hclean : s.uncleaning v.group = false)
    (hup : s.groupDown v g = false) (hmiss : (s.missing g st).length ≤ g.tol) (hjournal : s.journalFree (c.cls == 0) = true) :
    s.stripeOpen q cid = match s.setBit v.group (g.regionOf st) c.cls (some c.seq) with
      | (w, false) => w
      | (w, true) => match w.winAdmit v.group (g.regionOf st) v.class0 with
        | (u, false) => if c.winWaited then u else (u.count .strWinWait).updCmd c.seq fun c => { c with winWaited := true }
        | (u, true) => u.openStripe c v g st := by
  simp only [State.stripeOpen, hc, ht, htodo, hserves, hfree, hrow, hopen, hclean, hup, hjournal, Nat.not_lt.mpr hmiss,
    Option.isSome_none, Bool.not_true, Bool.false_eq_true, false_or, false_and, and_false, if_false]
  rcases s.setBit v.group (g.regionOf st) c.cls (some c.seq) with ⟨w, _ | _⟩
  · rfl
  · dsimp only
    rcases w.winAdmit v.group (g.regionOf st) v.class0 with ⟨u, _ | _⟩ <;> rfl

theorem stagingReserve_again (hcls : c.cls ≠ 0) (hop : eOpcode c.entry = opWrite) (hpull : c.pull = none) :
    s.stagingReserve q cid = s.spaceTake c v g := by
  simp only [State.stagingReserve, hc, ht]
  exact if_pos ⟨hcls, hop, Or.inl (by rw [hpull]; rfl)⟩

theorem c0PoolReserve_again (hcls : c.cls = 0) (hpull : c.pull = none) : s.c0PoolReserve q cid = s.c0Reserve c v g := by
  simp only [State.c0PoolReserve, hc, ht]
  exact if_pos ⟨hcls, by rw [hpull]; rfl⟩

end

/-- WRITE, WRITE_ZEROES and TRIM start alike. -/
theorem exec_writeStart {s : State} {q cid op : Nat} {i : Instr} (hi : i = .write q cid ∧ op = opWrite
    ∨ i = .writeZeroes q cid ∧ op = opZeroes ∨ i = .trim q cid ∧ op = opTrim) : exec i s = .next (s.writeStart q cid op) := by
  rcases hi with ⟨rfl, rfl⟩ | ⟨rfl, rfl⟩ | ⟨rfl, rfl⟩ <;> rfl

/-- Settles O25: each clause is one branch of `readStart`, `writeStart`, `stripeOpen` or a reservation (an overlapping later
command waits at its begin, log entry 32; a Class 0 step takes its thread for its own row, log entry 105). -/
theorem hostCommandsRunTheirSteps : Obligations.HostCommandsRunTheirSteps := by
  refine fun s q cid c v g ht => ⟨fun hc hbegun => ⟨fun hdown => ?_, fun hup hthread hwait => ?_, fun hup hthread hfree =>
      ⟨fun b st hmask => ?_, fun hmask rs hrs => ⟨fun hopen => ?_, fun hopen cut hcut => ?_⟩⟩⟩,
    fun i op hi hc hbegun => ⟨fun hdown => ?_, fun hup hthread w d hgen hd _ k hk => ⟨fun hop hkind hoff => ?_,
      fun hsends b u hb hu => ?_⟩, fun hup hthread w d hgen hd => ?_⟩,
    fun hc st tl htodo hserves hfree hrow hopen hclean hup hmiss hjournal => ?_,
    fun hc hcls hop hpull => ?_, fun hc hcls hpull => ?_⟩
  · exact congrArg Host.Outcome.next (readStart_down ht hc hbegun hdown)
  · exact congrArg Host.Outcome.next (readStart_overlap ht hc hbegun hup hthread hwait)
  · exact congrArg Host.Outcome.next (readStart_masked ht hc hbegun hup hthread hfree hmask)
  · subst hrs
    exact congrArg Host.Outcome.next (readStart_stripeOpen ht hc hbegun hup hthread hfree hmask hopen)
  · subst hrs
    exact congrArg Host.Outcome.next (readStart_begins ht hc hbegun hup hthread hfree hmask hopen hcut)
  · rw [exec_writeStart hi, writeStart_down ht hc hbegun hdown]
  · subst hk
    rw [exec_writeStart hi, writeStart_disabled ht hc hbegun hup hthread hd hgen hop hkind hoff]
  · subst hk
    rw [exec_writeStart hi, writeStart_begins ht hc hbegun hup hthread hd hgen hsends hb hu]
  · rw [exec_writeStart hi, writeStart_noGen ht hc hbegun hup hthread hd hgen]
  · have hexec : exec (.stripeOpen q cid) s = .next _ :=
      congrArg Host.Outcome.next (stripeOpen_clear ht hc htodo hserves hfree hrow hopen hclean hup hmiss hjournal)
    refine ⟨fun w hbit => ?_, fun w u hbit hwin => ?_, fun w u hbit hwin => ?_⟩
    · rw [hexec, hbit]
    · rw [hexec, hbit]
      dsimp only
      rw [hwin]
    · rw [hexec, hbit]
      dsimp only
      rw [hwin]
  · exact congrArg Host.Outcome.next (stagingReserve_again ht hc hcls hop hpull)
  · exact congrArg Host.Outcome.next (c0PoolReserve_again ht hc hcls hpull)

end Sys2Proof.Machine
end

section
/-! PROOFS. Scope: Connect and the admin queue of NVMe over Fabrics (R276 to R279). -/

namespace Sys2Proof.Machine

/-! ### The admin queue -/

theorem onAdminQueue_dead {s : State} {k : Nat} {f : RoceConn → State} (h : s.roceLive k = none) :
    s.onAdminQueue k f = s.roceDrop := by
  simp only [State.onAdminQueue, h]

theorem onAdminQueue_other {s : State} {k : Nat} {c : RoceConn} {f : RoceConn → State} (h : s.roceLive k = some c)
    (hq : c.qid ≠ some 0) : s.onAdminQueue k f = s := by
  simp only [State.onAdminQueue, h, if_neg hq]

/-- The commands of the admin queue all go through `onAdminQueue`. -/
theorem adminQueue_commands (s : State) (k cid a b : Nat) : ∀ i ∈ [Instr.propertyGet k cid a, .propertySet k cid a b,
    .nvmeofIdentify k cid a b, .getFeatures k cid a, .setFeatures k cid a b, .keepAlive k cid, .nvmeofAbort k cid a b],
    ∃ f, exec i s = .next (s.onAdminQueue k f) := by
  simp only [List.forall_mem_cons]
  exact ⟨⟨_, rfl⟩, ⟨_, rfl⟩, ⟨_, rfl⟩, ⟨_, rfl⟩, ⟨_, rfl⟩, ⟨_, rfl⟩, ⟨_, rfl⟩, fun _ h => absurd h List.not_mem_nil⟩

/-! ### Connect -/

theorem fabricsConnect_dead {s : State} {k cid qid sq ka : Nat} {nqn : Bytes} (h : s.roceLive k = none) :
    s.fabricsConnect k cid qid sq ka nqn = s.roceDrop := by
  simp only [State.fabricsConnect, h]

theorem fabricsConnect_again {s : State} {k cid qid sq ka : Nat} {nqn : Bytes} {c : RoceConn} (h : s.roceLive k = some c)
    (hq : c.qid.isSome = true) : s.fabricsConnect k cid qid sq ka nqn = s.nvReply k cid 0 nvConnectInvalid := by
  simp only [State.fabricsConnect, h, hq, if_true]

theorem fabricsConnect_admin {s : State} {k cid sq ka : Nat} {nqn : Bytes} {c : RoceConn} (h : s.roceLive k = some c)
    (hq : c.qid.isSome = false) : s.fabricsConnect k cid 0 sq ka nqn =
      ((s.setRoce k { c with qid := some 0, hostNqn := nqn, kato := max 1000 ka, kaAt := s.now }).touch).nvReply k cid 0 0 := by
  simp only [State.fabricsConnect, h, hq, Bool.false_eq_true, if_false, if_true]

/-- The queue pair in use that names an allow entry of the connection's host and the queue identifier (R278). -/
def State.connectPair (s : State) (c : RoceConn) (qid : Nat) : Option (Nat × Qp) :=
  s.qpe.qps.find? fun e => e.2.state != .free && (match e.2.face with
    | .roce a n => n == qid && (s.allowsOf c.mac c.sub c.family c.host).contains a
    | _ => false)

section
variable {s : State} {k cid qid sq ka : Nat} {nqn : Bytes} {c : RoceConn} (h : s.roceLive k = some c)
  (hq : c.qid.isSome = false) (hqid : qid ≠ 0)
include h hq hqid

theorem fabricsConnect_io : s.fabricsConnect k cid qid sq ka nqn = match s.connectPair c qid with
    | none => s.nvReply k cid 0 nvConnectInvalid
    | some (q, x) =>
      if (s.net.roce.any fun e => e.2.qp == some q) = true ∨ x.sqSize < sq + 1 then s.nvReply k cid 0 nvConnectInvalid
      else ((s.setRoce k { c with
        qid := some qid, qp := some q, hostNqn := nqn
        allow := match x.face with | .roce a _ => a | _ => c.allow }).touch).nvReply k cid 0 0 := by
  simp only [State.fabricsConnect, h, hq, if_neg hqid, Bool.false_eq_true, if_false]
  rfl

theorem fabricsConnect_noPair (hr : s.connectPair c qid = none) :
    s.fabricsConnect k cid qid sq ka nqn = s.nvReply k cid 0 nvConnectInvalid := by
  rw [fabricsConnect_io h hq hqid, hr]

theorem fabricsConnect_pair {q : Nat} {x : Qp} {a n : Nat} (hr : s.connectPair c qid = some (q, x)) (hx : x.face = .roce a n) :
    s.fabricsConnect k cid qid sq ka nqn =
      if (s.net.roce.any fun e => e.2.qp == some q) = true ∨ x.sqSize < sq + 1 then s.nvReply k cid 0 nvConnectInvalid
      else ((s.setRoce k { c with qid := some qid, qp := some q, allow := a, hostNqn := nqn }).touch).nvReply k cid 0 0 := by
  rw [fabricsConnect_io h hq hqid, hr]
  simp only [hx]

end

/-! ### Identify and Abort -/

section
variable {s : State} {k cid : Nat} {c : RoceConn} (h : s.roceLive k = some c) (hq : c.qid = some 0)
include h hq

theorem nvIdentify_namespace {nsid : Nat} {a : RoceAllow} (ha : tblFind s.net.allow c.allow = some a) :
    s.nvIdentify k cid 0 nsid = match (if (s.ownedBy a.tenant).contains nsid then s.volume nsid else none) with
      | some v => s.nvReply k cid 0 0 (toLe v.size 8 ++ Config.nvmeIdentify 0 nsid)
      | none => s.nvReply k cid 0 nvInvalidNamespace := by
  rw [State.nvIdentify, onAdminQueue_on h hq, ha]
  rfl

theorem nvIdentify_list {nsid : Nat} {a : RoceAllow} (ha : tblFind s.net.allow c.allow = some a) :
    s.nvIdentify k cid 2 nsid =
      (let l := (((s.ownedBy a.tenant).filter fun n => decide (nsid < n)).take 1024).flatMap fun n => toLe n 4
       s.nvReply k cid 0 0 (l ++ zeros (4096 - l.length))) := by
  rw [State.nvIdentify, onAdminQueue_on h hq, ha]
  rfl

theorem nvIdentify_other {cns : Nat} (nsid : Nat) (hcns : 2 < cns) :
    s.nvIdentify k cid cns nsid = s.nvReply k cid 0 nvInvalidField := by
  rw [State.nvIdentify, onAdminQueue_on h hq]
  dsimp only
  rw [if_neg (by omega), if_neg (by omega), if_neg (by omega)]

/-- The queue pair attached under a queue identifier of the host (R90). -/
theorem nvAbort_unattached {sqid tgt : Nat}
    (hr : (s.net.roce.find? fun e => e.2.host == c.host && e.2.qid == some sqid).bind (fun e => e.2.qp) = none) :
    s.nvAbort k cid sqid tgt = s.nvReply k cid 1 0 := by
  rw [State.nvAbort, onAdminQueue_on h hq, hr]

theorem nvAbort_noTarget {sqid tgt q : Nat}
    (hr : (s.net.roce.find? fun e => e.2.host == c.host && e.2.qid == some sqid).bind (fun e => e.2.qp) = some q)
    (ht : s.findCmd q tgt = none) : s.nvAbort k cid sqid tgt = s.nvReply k cid 1 0 := by
  rw [State.nvAbort, onAdminQueue_on h hq, hr]
  simp only [ht]

/-- What an NVMe-oF Abort does with the target it has found (R90): the tests of ABORT, each with its Dword 0. -/
theorem nvAbort_target {sqid tgt q : Nat} {t : Cmd}
    (hr : (s.net.roce.find? fun e => e.2.host == c.host && e.2.qid == some sqid).bind (fun e => e.2.qp) = some q)
    (ht : s.findCmd q tgt = some t) : s.nvAbort k cid sqid tgt =
      if eOpcode t.entry = opFlush ∨ eOpcode t.entry = opAbort then s.nvReply k cid 1 0
      else if t.noIssue = true ∧ t.past = false ∧ (t.ready.isNone = true ∨ t.raw.isNone = true) then
        (((s.endUnissued t stAbortedRequest).settle).flow).nvReply k cid 0 0
      else if t.past = true ∨ t.phase = .finished then s.nvReply k cid 1 0
      else ((s.endEarly t.seq stAbortedRequest).flow).nvReply k cid 0 0 := by
  rw [State.nvAbort, onAdminQueue_on h hq, hr]
  simp only [ht, Bool.not_eq_true']

end

/-! ### Keep Alive -/

theorem nvKaTimeout_some {s : State} {k : Nat} {c : RoceConn} (h : tblFind s.net.roce k = some c) : s.nvKaTimeout k =
    if c.qid = some 0 ∧ c.kato ≠ 0 then (s.advanceTo (c.kaAt + c.kato * msec)).roceEndHost c.host else s := by
  simp only [State.nvKaTimeout, h]

theorem nvKaTimeout_none {s : State} {k : Nat} (h : tblFind s.net.roce k = none) : s.nvKaTimeout k = s := by
  simp only [State.nvKaTimeout, h]

/-- On the admin queue a command means what it does with the connection. -/
theorem exec_onAdminQueue {s : State} {k : Nat} {c : RoceConn} {i : Instr} {f : RoceConn → State} (h : s.roceLive k = some c)
    (hq : c.qid = some 0) (hi : exec i s = .next (s.onAdminQueue k f)) : exec i s = .next (f c) := by
  rw [hi, onAdminQueue_on h hq]

/-- Settles O31: a command on a dead connection drops, one off the admin queue does nothing, and the others answer (CAP, VS
and CSTS by log entry 26). -/
theorem fabricsCommandsDoTheirEffect : Obligations.FabricsCommandsDoTheirEffect := by
  refine ⟨fun s k cid a b d nqn hdead i hi => ?_, fun s k cid a b c hlive hq i hi => ?_,
    fun s k cid qid sq ka nqn c hlive => ⟨fun hq => ?_, fun hq => ?_, fun hq hqid r hr => ⟨fun hnone => ?_, fun q x a n hsome hface =>
      ⟨fun hbad => ?_, fun hfree hroom => ?_⟩⟩⟩, fun s k cid off v nsid fid sqid tgt c hlive hq => ?_,
    fun s k => ⟨fun hnone => ?_, fun c hc => ⟨fun hq hkato => ?_, fun hoff => ?_⟩⟩⟩
  · rcases List.mem_cons.mp hi with rfl | hi
    · exact congrArg Host.Outcome.next (fabricsConnect_dead hdead)
    · obtain ⟨f, hf⟩ := adminQueue_commands s k cid a b i hi
      rw [hf, onAdminQueue_dead hdead]
      rfl
  · obtain ⟨f, hf⟩ := adminQueue_commands s k cid a b i hi
    rw [hf, onAdminQueue_other hlive hq]
  · exact congrArg Host.Outcome.next (fabricsConnect_again hlive hq)
  · exact congrArg Host.Outcome.next (fabricsConnect_admin hlive hq)
  · exact congrArg Host.Outcome.next (fabricsConnect_noPair hlive hq hqid (hr.symm.trans hnone))
  · exact congrArg Host.Outcome.next ((fabricsConnect_pair hlive hq hqid (hr.symm.trans hsome) hface).trans (if_pos hbad))
  · refine congrArg Host.Outcome.next ((fabricsConnect_pair hlive hq hqid (hr.symm.trans hsome) hface).trans (if_neg ?_))
    rintro (hany | hsmall)
    · exact Bool.noConfusion (hany.symm.trans hfree)
    · omega
  · have on (i : Instr) {f : RoceConn → State} (hi : exec i s = .next (s.onAdminQueue k f)) : exec i s = .next (f c) :=
      exec_onAdminQueue hlive hq hi
    refine ⟨on (.propertyGet k cid 0x14) rfl, on (.propertyGet k cid 0x1C) rfl, fun hoff => (on (.propertyGet k cid off) rfl).trans ?_,
      fun ⟨h0, h8, h14, h1C⟩ => (on (.propertyGet k cid off) rfl).trans ?_, on (.propertySet k cid 0x14 v) rfl,
      fun hoff => (on (.propertySet k cid off v) rfl).trans ?_,
      fun a ha => ⟨fun l hl => ?_, fun x hmine hx => ?_, fun hother => ?_⟩, on (.nvmeofIdentify k cid 1 nsid) rfl, fun hcns => ?_,
      on (.getFeatures k cid 7) rfl, on (.getFeatures k cid 15) rfl, on (.setFeatures k cid 7 v) rfl, on (.setFeatures k cid 15 v) rfl,
      fun ⟨h7, h15⟩ => ⟨(on (.getFeatures k cid fid) rfl).trans ?_, (on (.setFeatures k cid fid v) rfl).trans ?_⟩,
      on (.keepAlive k cid) rfl, fun r hr => ⟨fun hnone => ?_, fun q hsome => ⟨fun ht => ?_, fun t ht => ?_⟩⟩⟩
    · rw [if_neg (by omega), if_neg (by omega), if_pos hoff]
    · rw [if_neg h14, if_neg h1C, if_neg (by omega)]
    · rw [if_neg hoff]
    · subst hl
      exact congrArg Host.Outcome.next (nvIdentify_list hlive hq ha)
    · exact congrArg Host.Outcome.next ((nvIdentify_namespace hlive hq ha).trans (by rw [if_pos hmine, hx]))
    · exact congrArg Host.Outcome.next ((nvIdentify_namespace hlive hq ha).trans (by rw [hother]; rfl))
    · exact congrArg Host.Outcome.next (nvIdentify_other hlive hq nsid hcns)
    · rw [if_neg h7, if_neg h15]
    · rw [if_neg h7, if_neg h15]
    · exact congrArg Host.Outcome.next (nvAbort_unattached hlive hq (hr.symm.trans hnone))
    · exact congrArg Host.Outcome.next (nvAbort_noTarget hlive hq (hr.symm.trans hsome) ht)
    · have hexec : exec (.nvmeofAbort k cid sqid tgt) s = .next _ :=
        congrArg Host.Outcome.next (nvAbort_target hlive hq (hr.symm.trans hsome) ht)
      rw [hexec]
      refine ⟨fun hop => by rw [if_pos hop], fun hop => ?_⟩
      rw [if_neg hop]
      refine ⟨fun hno => by rw [if_pos hno], fun hissued => ?_⟩
      rw [if_neg hissued]
      refine ⟨fun hlate => by rw [if_pos hlate], fun hpast hrun => ?_⟩
      rw [if_neg (by simp [hpast, hrun])]
  · exact congrArg Host.Outcome.next (nvKaTimeout_none hnone)
  · exact congrArg Host.Outcome.next ((nvKaTimeout_some hc).trans (if_pos ⟨hq, hkato⟩))
  · exact congrArg Host.Outcome.next ((nvKaTimeout_some hc).trans (if_neg fun ⟨hq, hkato⟩ => hoff.elim (· hq) hkato))

end Sys2Proof.Machine
end

section
/-! PROOFS. Scope: the admin commands of groups, volumes and members, and those that answer into a buffer (R158 to R161, R217,
R218, R694). -/

namespace Sys2Proof.Machine

/-! ### Groups -/

/-- CREATE_GROUP up to its first member write (R158). -/
def groupBegun (s : State) (c : Cmd) (g : Group) : State :=
  (({ s.drew with str := { s.str with creating := s.str.creating ++
      [{ seq := c.seq, group := byteAt c.entry 8, shape := g, left := 4 * g.slots.length }] } } : State).markPast
    c.seq).markWaiting c.seq

theorem createGroup_can {s : State} {q cid : Nat} {c : Cmd} {g : Group} (hcan : s.adminCan q cid 0x48 c)
    (hg : g = s.groupOfEntry c.entry (Config.groupSeed s.draws % 2 ^ 64)) :
    exec (.createGroup q cid) s
      = .next ((g.slots.foldl (fun s sl => s.createWrites (byteAt c.entry 8) g sl) (groupBegun s c g)).flow) := by
  subst hg
  exact congrArg Host.Outcome.next (adminRun_can hcan _)

theorem deleteGroup_can {s : State} {q cid : Nat} {c : Cmd} (hcan : s.adminCan q cid 0x49 c) :
    exec (.deleteGroup q cid) s = .next (s.deleteGroup c) :=
  congrArg Host.Outcome.next (adminRun_can hcan _)

/-! ### Volumes -/

/-- CREATE_VOLUME with the volume made and its record waiting (R159). -/
def volumeCreated (s : State) (c : Cmd) (v : Volume) : State :=
  (({ s.markPast c.seq with str := { s.str with volumes := tblIns s.str.volumes (eVolume c.entry) v } } : State).cfgPut 0x08
    (eVolume c.entry) (some (.volume { v with creating := none }))).touch

theorem createVolume_eq {s : State} {c : Cmd} {g : Group} {v : Volume} (hg : s.group (byteAt c.entry 40) = some g)
    (hv : v = { group := byteAt c.entry 40, size := leAt c.entry 8 8, class0 := bitOf (byteAt c.entry 41) 0,
                keyed := bitOf (byteAt c.entry 41) 1, owner := leAt c.entry 44 4,
                ext := (s.freeRegions (byteAt c.entry 40) g).take (ceilDiv (leAt c.entry 8 8) g.rb),
                creating := if bitOf (byteAt c.entry 41) 0 then some c.seq else none }) :
    s.createVolume c = if v.class0 then (((volumeCreated s c v).markWaiting c.seq).pushCreating).flow
      else ((volumeCreated s c v).finish c.seq stSuccess 0).flow := by
  subst hv
  unfold State.createVolume
  dsimp only
  rw [hg]
  rfl

/-- DELETE_VOLUME up to the record of a group that has lost masked blocks (R160, R201, R395). -/
def volumeDeleted (s : State) (c : Cmd) (v : Volume) : State :=
  (((volumeGone ((s.markPast c.seq).dropKeys (eVolume c.entry)) (eVolume c.entry) v).updGroup v.group fun g =>
    g.addZeroing v.ext).cfgPut 0x08 (eVolume c.entry) none).touch

theorem deleteVolume_eq {s : State} {c : Cmd} {v : Volume} (hv : s.volume (eVolume c.entry) = some v) :
    s.deleteVolume c = ((if (s.str.ubl.any fun e => e.volume == eVolume c.entry) = true
      then (volumeDeleted s c v).putRecord v.group else volumeDeleted s c v).finish c.seq stSuccess 0).flow := by
  obtain ⟨hstr, -⟩ := dropKeys_facts (s.markPast c.seq) (eVolume c.entry)
  have hubl : ((s.markPast c.seq).dropKeys (eVolume c.entry)).str.ubl = s.str.ubl := congrArg Store.ubl hstr
  rw [← hubl]
  unfold State.deleteVolume
  dsimp only
  rw [hv]
  rfl

theorem volumeDeleted_tables (s : State) (c : Cmd) (v : Volume) :
    (volumeDeleted s c v).str.volumes = tblDel s.str.volumes (eVolume c.entry)
    ∧ (volumeDeleted s c v).str.ubl = s.str.ubl.filter (fun e => e.volume != eVolume c.entry)
    ∧ (volumeDeleted s c v).cph.slots = s.cph.slots.filter (fun e => e.2.volume != eVolume c.entry) := by
  obtain ⟨hstr, hslots, -⟩ := dropKeys_facts (s.markPast c.seq) (eVolume c.entry)
  obtain ⟨hvols, hubl, -, -, hcph, -⟩ := updGroup_str
    (volumeGone ((s.markPast c.seq).dropKeys (eVolume c.entry)) (eVolume c.entry) v) v.group fun g => g.addZeroing v.ext
  refine ⟨hvols.trans ?_, hubl.trans ?_, (congrArg Cph.slots hcph).trans hslots⟩
  · exact congrArg (fun t : Store => tblDel t.volumes (eVolume c.entry)) hstr
  · exact congrArg (fun t : Store => t.ubl.filter fun e => e.volume != eVolume c.entry) hstr

theorem volumeDeleted_frame (s : State) (c : Cmd) (v : Volume) :
    (volumeDeleted s c v).str.members = s.str.members ∧ (volumeDeleted s c v).str.opens = s.str.opens
    ∧ (volumeDeleted s c v).regs = s.regs ∧ (volumeDeleted s c v).mem = s.mem ∧ (volumeDeleted s c v).out = s.out := by
  obtain ⟨hstr, -, hregs, hmem, hout⟩ := dropKeys_facts (s.markPast c.seq) (eVolume c.entry)
  obtain ⟨-, -, hmembers, hopens, -, hregs', hmem', hout'⟩ := updGroup_str
    (volumeGone ((s.markPast c.seq).dropKeys (eVolume c.entry)) (eVolume c.entry) v) v.group fun g => g.addZeroing v.ext
  have hmembers₀ := congrArg Store.members hstr
  have hopens₀ := congrArg Store.opens hstr
  exact ⟨hmembers.trans hmembers₀, hopens.trans hopens₀, hregs'.trans hregs, hmem'.trans hmem, hout'.trans hout⟩

theorem volumeDeleted_group {s : State} {v : Volume} {g : Group} (c : Cmd) (hg : s.group v.group = some g) :
    (volumeDeleted s c v).group v.group = some (g.addZeroing v.ext) := by
  obtain ⟨hstr, -⟩ := dropKeys_facts (s.markPast c.seq) (eVolume c.entry)
  have hgone : (volumeGone ((s.markPast c.seq).dropKeys (eVolume c.entry)) (eVolume c.entry) v).group v.group = some g :=
    (congrArg (fun t : Store => tblFind t.groups v.group) hstr).trans hg
  exact updGroup_group hgone _

/-! ### Members -/

/-- What MEMBER_CONTROL does by its action (R217). -/
def memberActed (s : State) (c : Cmd) : State :=
  let gi := byteAt c.entry 8
  let sl := byteAt c.entry 10
  match byteAt c.entry 9 with
  | 0 => s.startRebuild gi sl
  | 1 =>
    let p : Policy := match byteAt c.entry 11 with | 1 => .auto | 2 => .heldP | _ => .dflt
    ((((s.updGroup gi fun g => { g with policySet := p }).resolvePolicy gi).autoAct gi).putRecord gi).touch
  | 2 => s.memberMissing sl
  | _ => s.adoptCommand gi sl

theorem memberControl_eq (s : State) (c : Cmd) :
    s.memberControl c = ((memberActed (s.markPast c.seq) c).finish c.seq stSuccess 0).flow := rfl

theorem policyOf_eq (n : Nat) :
    (match n with | 1 => Policy.auto | 2 => .heldP | _ => .dflt) = if n = 1 then .auto else if n = 2 then .heldP else .dflt := by
  split
  · rfl
  · rfl
  · next h1 h2 => rw [if_neg h1, if_neg h2]

/-! ### Answers into a buffer -/

/-- The commands that answer into their buffer, with the bytes that each sends (R161, R218). -/
theorem answer_can {s : State} {q cid op : Nat} {c : Cmd} {i : Instr} {b : Bytes}
    (hrow : i = .identifyVolume q cid ∧ op = 0x4C ∧ (∃ v g, s.target c = some (v, g) ∧ b = s.identifyBytes v.group g (some v))
      ∨ i = .identifyGroup q cid ∧ op = 0x4D
        ∧ (∃ g, s.group (byteAt c.entry 8) = some g ∧ b = s.identifyBytes (byteAt c.entry 8) g none)
      ∨ i = .listBlocks q cid ∧ op = 0x4F ∧ b = s.listBytes c.entry)
    (hcan : s.adminCan q cid op c) : exec i s = .next (s.answer c b) := by
  rcases hrow with ⟨rfl, rfl, v, g, htarget, rfl⟩ | ⟨rfl, rfl, g, hgroup, rfl⟩ | ⟨rfl, rfl, rfl⟩
  · refine congrArg Host.Outcome.next ((adminRun_can hcan _).trans ?_)
    rw [htarget]
  · refine congrArg Host.Outcome.next ((adminRun_can hcan _).trans ?_)
    rw [hgroup]
  · exact congrArg Host.Outcome.next (adminRun_can hcan _)

theorem getFatal_can {s : State} {q cid : Nat} {c : Cmd} (hcan : s.adminCan q cid 0x60 c) :
    exec (.getFatal q cid) s = .next (s.getFatal c) :=
  congrArg Host.Outcome.next (adminRun_can hcan _)

/-- Settles O21: each command that passes its checks is its own operation, whose state is written out above (the SEED of a
group is drawn, log entry 28). -/
theorem strataAdminCommandsDoTheirEffect : Obligations.StrataAdminCommandsDoTheirEffect := by
  refine fun s q cid c => ⟨fun hcan gi g hgi hg => ?_, fun hcan gi g hgi hg d w live hd hw hlive => ?_,
    fun hcan g v hg hv => ?_, fun hcan v hv => ?_, fun hcan gi sl hgi hsl => ?_, fun b i op hrow hcan => ?_,
    fun hcan base len hbase hlen b hb => ⟨fun hkeep => ?_, fun hclear u hu => ?_⟩⟩
  · subst hgi
    exact ⟨_, createGroup_can hcan hg, rfl, rfl, rfl, rfl, rfl, rfl, rfl⟩
  · rw [deleteGroup_can hcan, deleteGroup_eq hgi hg hd hw hlive]
    refine ⟨fun hsome => ?_, fun hnone => ?_⟩
    · rw [if_neg (by simpa using hsome)]
    · subst hnone
      rfl
  · have hexec : exec (.createVolume q cid) s = .next _ :=
      congrArg Host.Outcome.next ((adminRun_can hcan _).trans (createVolume_eq hg hv))
    refine ⟨volumeCreated s c v, fun hclass => ?_, fun hclass => ?_, rfl, rfl, rfl, rfl, rfl, rfl, rfl, rfl, rfl⟩
    · rw [hexec, hclass]
      rfl
    · rw [hexec, hclass]
      rfl
  · have hexec : exec (.deleteVolume q cid) s = .next _ :=
      congrArg Host.Outcome.next ((adminRun_can hcan _).trans (deleteVolume_eq hv))
    obtain ⟨hvols, hubl, hslots⟩ := volumeDeleted_tables s c v
    obtain ⟨hmembers, hopens, hregs, hmem, hout⟩ := volumeDeleted_frame s c v
    refine ⟨volumeDeleted s c v, fun hmask => ?_, fun hmask => ?_, hvols, hubl, fun g hg => volumeDeleted_group c hg, hslots,
      hmembers, hopens, hregs, hmem, hout⟩
    · rw [hexec, hmask]
      rfl
    · rw [hexec, hmask]
      rfl
  · subst hgi hsl
    refine ⟨memberActed (s.markPast c.seq) c, congrArg Host.Outcome.next ((adminRun_can hcan _).trans (memberControl_eq s c)),
      fun h0 => ?_, fun h1 p hp => ?_, fun h2 => ?_, fun h3 => ?_⟩
    · simp only [memberActed, h0]
    · simp only [memberActed, h1, policyOf_eq, hp]
    · simp only [memberActed, h2]
    · simp only [memberActed, h3]
  · exact answer_can hrow hcan
  · rw [getFatal_can hcan, getFatal_keeps hbase hlen hb hkeep]
  · rw [getFatal_can hcan, getFatal_clears hbase hlen hb hclear hu]

end Sys2Proof.Machine
end

section
/-! PROOFS. Scope: the service points: dispatch, egress and drive issue, the end of a member command, and the two timers (R132,
R146, R173, R231, R235 to R237, R439). -/

namespace Sys2Proof.Machine

/-! ### Dispatch -/

section
variable {s : State} {k : Nat}

theorem exec_dispatch (hon : s.readsOn 161 = true) (hk : k < 4) : exec (.dispatch k) s = .next (s.dispatchTell k) :=
  congrArg Host.Outcome.next ((whenOn_on hon _).trans (if_pos hk))

theorem dispatchTell_nobody (hbusy : (s.dispatch k).cls.busy = s.cls.busy) : s.dispatchTell k = s.dispatch k := by
  simp only [State.dispatchTell, hbusy, List.drop_length]

theorem dispatchTell_somebody {e t q i : Nat} {c : Cmd} (hbusy : (s.dispatch k).cls.busy = s.cls.busy ++ [(e, t, q, i)])
    (hc : (s.dispatch k).qpe.cmds.find? (fun c => c.thread == some (e, t) && c.phase == .dispatched) = some c) :
    s.dispatchTell k = (s.dispatch k).tellThread 0x01 c (some c.entry) := by
  simp only [State.dispatchTell, hbusy, List.drop_left, hc]

theorem dispatch_stalled (hstall : s.clusterStalled k = true) : s.dispatch k = s := if_pos (Or.inl hstall)

variable (hon : s.readsOn 161 = true) (hrun : s.clusterStalled k = false) {a : State} (ha : a = s.syncDispatch k) {c : Cmd}
include hon hrun ha

theorem dispatch_class0 (hc : firstReady ((a.readyCmds k).filter fun c => c.cls == 0) = some c) {e t : Nat}
    (ht : a.reservedThread (a.qp c.qp).home = some (e, t)) :
    s.dispatch k = (a.dispatchTo c e t).clsCount .clsC0Dispatch (a.qp c.qp).tenant 5 := by
  subst ha
  simp only [State.dispatch, hon, hrun, hc, ht, Bool.not_true, Bool.false_eq_true, or_false, if_false]

/-- With no reserved thread free nothing is served in place of the Class 0 command. -/
theorem dispatch_class0_waits (hc : firstReady ((a.readyCmds k).filter fun c => c.cls == 0) = some c)
    (hnone : a.reservedThread (a.qp c.qp).home = none) : s.dispatch k = a := by
  subst ha
  simp only [State.dispatch, hon, hrun, hc, hnone, Bool.not_true, Bool.false_eq_true, or_false, if_false]

theorem dispatch_flow {f : Flow} {turn : Bool} {p : Point} {t : Nat} {mine : List Cmd}
    (hno : firstReady ((a.readyCmds k).filter fun c => c.cls == 0) = none)
    (hpick : (a.cls.dispatch.getD k {}).pick (fun f => (a.freeThread (a.qp f.qp).home (List.range 12)).isSome)
      = (some (f, turn), p))
    (hmine : mine = (a.readyCmds k).filter (fun c => c.cls == f.cls && c.qp == f.qp)) (hc : firstReady mine = some c)
    (ht : a.freeThread (a.qp f.qp).home (List.range 12) = some t) :
    s.dispatch k = State.dispatchTo { a with cls := { a.cls with
      dispatch := setAt a.cls.dispatch k (p.served f turn (mine.length == 1) (a.quantum f.cls)) } } c (a.qp c.qp).home t := by
  subst ha hmine
  simp only [State.dispatch, hon, hrun, hno, hpick, hc, ht, Bool.not_true, Bool.false_eq_true, or_false, if_false]
  rfl

end

/-! ### Egress -/

section
variable {s a : State} {pt : Nat} {units : List EgUnit} (hon : s.readsOn 161 = true) (ha : a = s.syncEgress pt)
  (hunits : units = a.net.egress.filter fun u => u.point == pt && !(u.held && a.laneHolds pt))
include hon ha hunits

theorem egressServe_class0 {u : EgUnit} (hu : units.find? (fun u => u.cls == 0) = some u) :
    s.egressServe pt = if a.egressCan u = true
      then ({ a with net := { a.net with egress := rmFirst (fun x => x == u) a.net.egress } } : State).egressSend u else a := by
  subst ha hunits
  simp only [State.egressServe, hon, hu, Bool.not_true, Bool.false_eq_true, if_false]

variable (hno : units.find? (fun u => u.cls == 0) = none) {head : Flow → Option EgUnit} {can : Flow → Bool}
  (hhead : head = fun f => units.find? fun u => u.cls == f.cls) (hcan : can = fun f => (head f).any a.egressCan)
include hno hhead hcan

theorem egressServe_flow : s.egressServe pt = match (tblGet {} a.cls.egress pt).pick can with
    | (none, p) => { a with cls := { a.cls with egress := tblIns a.cls.egress pt p } }
    | (some (f, turn), p) => match head f with
      | none => a
      | some u => State.egressSend { a with
          cls := { a.cls with egress := tblIns a.cls.egress pt (p.served f turn
            ((units.filter fun x => x.cls == f.cls).length == 1) (a.quantum f.cls) (if u.more then 0 else 1)) }
          net := { a.net with egress := rmFirst (fun x => x == u) a.net.egress } } u := by
  subst ha hunits
  rw [State.egressServe, if_neg (by rw [hon]; decide)]
  extract_lets +onlyGivenNames a units drop p head' can'
  rw [hno]
  obtain rfl : head = head' := hhead
  obtain rfl : can' = can := by
    rw [hcan]
    funext f
    dsimp only [can']
    cases head' f <;> rfl
  rcases p.pick can' with ⟨_ | ⟨f, turn⟩, p⟩
  · rfl
  · cases head' f <;> rfl

end
/-! ### Drive issue -/

section
variable {s a : State} {sl : Nat} (hserves : s.slotServes sl = true) (hon : s.readsOn 161 = true) (ha : a = s.syncDrive sl)
include hserves hon ha

theorem driveIssue_class0 {m : MemCmd} (hm : (a.waitingAt sl).find? (fun m => m.cls == 0) = some m) {ok : Bool}
    (hok : ok = (a.memCan m && decide ((a.str.mem.filter fun m => m.slot == sl && m.issued.isSome && m.cls == 0).length < 256))) :
    s.driveIssue sl = if ok then a.issueMem m else a := by
  subst ha hok
  simp only [State.driveIssue, hserves, hon, hm, Bool.not_true, Bool.false_eq_true, or_false, if_false, Bool.and_eq_true,
    decide_eq_true_eq]

theorem driveIssue_flow (hno : (a.waitingAt sl).find? (fun m => m.cls == 0) = none) {head : Flow → Option MemCmd}
    {can : Flow → Bool} (hhead : head = fun f => (a.waitingAt sl).find? fun m => m.cls == f.cls)
    (hcan : can = fun f => (head f).any a.memCan) :
    s.driveIssue sl = match (tblGet {} a.cls.drive sl).pick can with
      | (none, p) => { a with cls := { a.cls with drive := tblPut {} a.cls.drive sl p } }
      | (some (f, turn), p) => match head f with
        | none => a
        | some m => State.issueMem { a with cls := { a.cls with
            drive := tblPut {} a.cls.drive sl (p.served f turn
              (((a.waitingAt sl).filter fun x => x.cls == f.cls).length == 1) (a.quantum f.cls)) } } m := by
  subst ha
  rw [State.driveIssue, if_neg (by rw [hserves, hon]; decide)]
  extract_lets +onlyGivenNames a ms c0 p head' can'
  rw [hno]
  obtain rfl : head = head' := hhead
  obtain rfl : can' = can := by
    rw [hcan]
    funext f
    dsimp only [can']
    cases head' f <;> rfl
  rcases p.pick can' with ⟨_ | ⟨f, turn⟩, p⟩
  · rfl
  · cases head' f <;> rfl

end

/-! ### The end of a member command -/

section
variable {s : State} {sl id st : Nat} {b : Bytes}

theorem memberCompletion_none (hno : s.str.mem.find? (fun m => m.slot == sl && m.id == id && m.issued.isSome) = none)
    (hslot : sl < Config.slots s.variant) (hon : s.readsOn (32 + sl) = true) :
    s.memberCompletion sl id st b = (s.err 10).count .sysInBad := by
  simp only [State.memberCompletion, hno, hslot, hon, and_self, if_true]

/-- With nothing issued under the number no command hears of it. -/
theorem memberTell_none (hno : s.str.mem.find? (fun m => m.slot == sl && m.id == id && m.issued.isSome) = none) :
    s.memberTell sl id st b = s.memberCompletion sl id st b := by
  simp only [State.memberTell, hno, Option.bind_none]

variable {m : MemCmd} (hm : s.str.mem.find? (fun m => m.slot == sl && m.id == id && m.issued.isSome) = some m)
include hm

theorem memberTell_unowned (howner : s.ownerOf m = none) : s.memberTell sl id st b = s.memberCompletion sl id st b := by
  simp only [State.memberTell, hm, Option.bind_some, howner, Option.map_none]

theorem memberTell_owned {c : Cmd} (howner : s.ownerOf m = some c) : s.memberTell sl id st b
    = (s.memberCompletion sl id st b).memberDone c.seq (if m.op = .read ∧ st = 0 then some b else none) := by
  simp only [State.memberTell, hm, Option.bind_some, howner, Option.map_some]

theorem memberCompletion_some {one : State} (hone : one = s.dropMem sl fun x => x.id == id) :
    s.memberCompletion sl id st b = if st = 0 then (one.memEnd m (some (fitBytes (m.n * s.slotStored sl) b)) false).flow
      else if st = 0x281 ∧ m.op = .read then (one.memEnd m none true).flow
      else if m.op ≠ .acquire ∧ s.takesWrites sl = true then s.memberMissing sl
      else (one.memEnd m none false).flow := by
  subst hone
  simp only [State.memberCompletion, hm]

end

/-! ### The timers of a window region and of a tenant policy -/

theorem windowIdle_leaves {s : State} {gi x : Nat} {w : WinRegion}
    (hw : s.str.window.find? (fun w => w.group == gi && w.region == x) = some w) (hclass : w.class0 = false)
    (hleave : w.leaving = false) (hack : w.acked = true) (hopen : s.regionOpen gi x = false) :
    s.windowIdle gi x = (((s.advanceTo (w.last + 1000 * msec)).winLeave gi x).pushCreating).flow := by
  simp only [State.windowIdle, hw, hclass, hleave, hack, hopen, Bool.not_true, Bool.false_eq_true, or_self, if_false]

/-- The policy's invocation is queued on `v`, the tenant's present state, with the values and counts it has had (R439, R503). -/
def policyQueued (v : State) (id : Nat) (a : Attachment) (val : Shaper) (counts : List Nat) : State :=
  { v with fct := { v.fct with
    atts := tblIns v.fct.atts id { a with due := a.due + a.period * msec }
    invs := if a.suspended then v.fct.invs else v.fct.invs ++
      [{ att := id, engine := v.policyEngine a.target, cmd := none, input := policyInput val counts }] } }

/-- A suspended attachment's invocation is not queued. -/
theorem policyQueued_invs (v : State) (id : Nat) (a : Attachment) (val : Shaper) (counts : List Nat) :
    (policyQueued v id a val counts).fct.invs = v.fct.invs ++ if a.suspended then [] else
      [{ att := id, engine := v.policyEngine a.target, cmd := none, input := policyInput val counts }] := by
  unfold policyQueued
  cases a.suspended <;> simp

section
variable {s d : State} {id : Nat} {a : Attachment} (hatt : tblFind s.fct.atts id = some a) (hhook : a.hook = 2)
  (hdetach : a.detach = none) (hd : d = s.advanceTo a.due)
include hatt hhook hdetach hd

theorem policyPeriod_noEntry (he : d.shaper a.target = none) :
    s.policyPeriod id = policyQueued d id a d.cls.dflt [0, 0, 0, 0, 0, 0] := by
  subst hd
  rw [State.policyPeriod, hatt]
  dsimp only
  rw [if_neg (by simp [hhook, hdetach]), he]
  rfl

theorem policyPeriod_entry {e : ShaperEntry} (he : d.shaper a.target = some e) :
    s.policyPeriod id = policyQueued (d.setShaperEntry a.target { e with counts := [0, 0, 0, 0, 0, 0] }) id a e.val e.counts := by
  subst hd
  rw [State.policyPeriod, hatt]
  dsimp only
  rw [if_neg (by simp [hhook, hdetach]), he]
  rfl

end

/-- Settles O26: Class 0 goes first at each point, then the flow that `Point.pick` takes (egress point 9 is the management
Ethernet, log entry 43; the timers move the clock, log entry 2). -/
theorem servicePointsServeInTheirOrder : Obligations.ServicePointsServeInTheirOrder := by
  refine ⟨fun s w k hon hk hw => ?_, fun s a pt units hon hpt ha hunits => ?_, fun s a sl hserves hon ha => ?_,
    fun s sl id st b => ⟨fun hno hslot hlane => ?_, fun m hm howner one hone => ?_, fun m c hm howner => ?_⟩,
    fun s gi x w hw hclass hleave hack hopen => ?_, fun s d id a hatt hhook hdetach hd => ?_⟩
  · subst hw
    refine ⟨fun hbusy => ?_, fun e t q i c hbusy hc => ?_, fun hstall => dispatch_stalled hstall, fun hrun a ha =>
      ⟨fun c hc => ⟨fun e t ht => ?_, fun hnone => ?_⟩, fun hno f turn p c t hpick mine hmine hc ht => ?_⟩⟩
    · rw [exec_dispatch hon hk, dispatchTell_nobody hbusy]
    · rw [exec_dispatch hon hk, dispatchTell_somebody hbusy hc]
    · exact dispatch_class0 hon hrun ha hc ht
    · exact dispatch_class0_waits hon hrun ha hc hnone
    · exact dispatch_flow hon hrun ha hno hpick hmine hc ht
  · have hexec : exec (.egressServe pt) s = .next (s.egressServe pt) := congrArg Host.Outcome.next (if_pos hpt)
    rw [hexec]
    refine ⟨fun u hu => ?_, fun hno head can hhead hcan => ⟨fun p hpick => ?_, fun f turn p u hpick hu => ?_⟩⟩
    · rw [egressServe_class0 hon ha hunits hu]
      exact ⟨fun hsend => by rw [if_pos hsend], fun hstay => by rw [hstay]; rfl⟩
    · rw [egressServe_flow hon ha hunits hno hhead hcan, hpick]
    · rw [egressServe_flow hon ha hunits hno hhead hcan, hpick]
      dsimp only
      rw [hu]
  · have hexec : exec (.driveIssue sl) s = .next (s.driveIssue sl) := rfl
    rw [hexec]
    refine ⟨fun m hm ok hok => ?_, fun hno head can hhead hcan => ⟨fun p hpick => ?_, fun f turn p m hpick hm => ?_⟩,
      fun m => issueMem_out a m⟩
    · rw [driveIssue_class0 hserves hon ha hm hok]
    · rw [driveIssue_flow hserves hon ha hno hhead hcan, hpick]
    · rw [driveIssue_flow hserves hon ha hno hhead hcan, hpick]
      dsimp only
      rw [hm]
  · exact congrArg Host.Outcome.next ((memberTell_none hno).trans (memberCompletion_none hno hslot hlane))
  · have hexec : exec (.memberCompletion sl id st b) s = .next _ :=
      congrArg Host.Outcome.next ((memberTell_unowned hm howner).trans (memberCompletion_some hm hone))
    rw [hexec]
    refine ⟨fun hok => by rw [if_pos hok], fun hbad hread => ?_, fun hfail hother hop htakes => ?_,
      fun hfail hother hrest => ?_⟩
    · rw [if_neg (by omega), if_pos ⟨hbad, hread⟩]
    · rw [if_neg hfail, if_neg hother, if_pos ⟨hop, htakes⟩]
    · rw [if_neg hfail, if_neg hother, if_neg]
      rintro ⟨hop, htakes⟩
      rcases hrest with hrest | hrest
      · exact hop hrest
      · exact Bool.noConfusion (htakes.symm.trans hrest)
  · exact congrArg Host.Outcome.next (memberTell_owned hm howner)
  · exact congrArg Host.Outcome.next (windowIdle_leaves hw hclass hleave hack hopen)
  · cases he : d.shaper a.target with
    | none =>
      refine ⟨_, congrArg Host.Outcome.next (policyPeriod_noEntry hatt hhook hdetach hd he), rfl,
        fun _ => policyQueued_invs d id a _ _, fun e h => (nomatch h), fun t _ => rfl, rfl, rfl, rfl, rfl, rfl⟩
    | some e =>
      refine ⟨_, congrArg Host.Outcome.next (policyPeriod_entry hatt hhook hdetach hd he), rfl, fun h => (nomatch h),
        fun e' h => ?_, fun t ht => shaper_setEntry_ne d a.target t _ ht, rfl, rfl, rfl, rfl, rfl⟩
      obtain rfl : e = e' := Option.some.inj h
      exact ⟨shaper_setEntry d a.target _, policyQueued_invs _ id a _ _⟩

end Sys2Proof.Machine
end

section
/-! PROOFS. Scope: the Class 7 steps, and the captures of rows and key slots (R160, R164, R182, R193 to R197, R205, R210, R215,
R224, R401, R415, R722). -/

namespace Sys2Proof.Machine

/-! ### Fills: rebuild, refill and delta resynchronisation -/

theorem runFill_opens {s : State} {gi st pos sl lba : Nat} {g : Group} {w : Writer} {p : Bool} (hcan : s.bgCan gi st = true)
    (hscope : g.inScope st = false) (hrate : s.rebuildRate p ≠ 0)
    (hpace : paceOk s.str.paced (s.rebuildRate p) (s.fillCost g st pos) = true) :
    s.runFill gi g st pos sl lba w p = s.openBg gi g
      { group := gi, stripe := st, writer := w, method := g.bgMethod, positions := [pos], fills := [(pos, sl, lba)] } := by
  simp only [State.runFill, hcan, hscope, hrate, hpace, Bool.not_true, Bool.false_eq_true, or_self, if_false]

section
variable {s : State} {sl : Nat} {m : Member} {g : Group} (hm : s.member sl = some m) (hg : s.group m.group = some g)
  (hserves : s.serves = true)
include hm hg hserves

section
variable (hstate : m.state = .rebuilding) (hsweep : g.sweep = none) (hidle : s.bgBusy (.rebuild sl) = false) {st : Nat}
  (hst : st = g.rebuildNext sl m.rebuild)
include hstate hsweep hidle hst

/-- A rebuild that has no position left in the row, or no stripe left in the group, is at its end. -/
theorem rebuildStep_ends
    (hend : (g.rebuildRows sl).find? (fun x => x.row == st % g.rows) = none
      ∨ (∃ x, (g.rebuildRows sl).find? (fun x => x.row == st % g.rows) = some x) ∧ g.usedStripes ≤ st)
    (hrate : s.rebuildRate true ≠ 0) : s.rebuildStep sl = (s.rebuildTo m.group sl g.usedStripes).flow := by
  subst hst
  rcases hend with hrow | ⟨⟨x, hrow⟩, hlast⟩
  · simp only [State.rebuildStep, hm, hg, hstate, hsweep, hserves, hidle, hrow, hrate, ne_eq, not_true_eq_false,
      Option.isSome_none, Bool.not_true, Bool.false_eq_true, or_self, if_false]
  · simp only [State.rebuildStep, hm, hg, hstate, hsweep, hserves, hidle, hrow, hrate, hlast, ne_eq, not_true_eq_false,
      Option.isSome_none, Bool.not_true, Bool.false_eq_true, or_self, if_false, if_true]

variable {x : Spare} (hrow : (g.rebuildRows sl).find? (fun x => x.row == st % g.rows) = some x) (hlast : st < g.usedStripes)
include hrow hlast

theorem rebuildStep_fills (hused : (s.freeRegions m.group g).contains (g.regionOf st) = false) :
    s.rebuildStep sl
      = s.runFill m.group g st x.pos x.slot (g.chunkLba (st / g.rows) x.layer) (.rebuild sl) true := by
  subst hst
  simp only [State.rebuildStep, hm, hg, hstate, hsweep, hserves, hidle, hrow, Nat.not_le.mpr hlast, hused, ne_eq,
    not_true_eq_false, Option.isSome_none, Bool.not_true, Bool.false_eq_true, or_self, if_false]

theorem rebuildStep_zeroes (hfree : (s.freeRegions m.group g).contains (g.regionOf st) = true)
    (hnone : s.str.mem.any (fun y => y.who == .spareZero m.group sl st) = false) {u : State}
    (hu : s.paceRebuild true (costOf (storedBytes g.format1) [(x.slot, 16)]) = some u) :
    s.rebuildStep sl
      = u.addMem x.slot .writeZeroes (g.chunkLba (st / g.rows) x.layer) 16 [] 7 (.spareZero m.group sl st) := by
  subst hst
  simp only [State.rebuildStep, hm, hg, hstate, hsweep, hserves, hidle, hrow, Nat.not_le.mpr hlast, hfree, hnone, hu, ne_eq,
    not_true_eq_false, Option.isSome_none, Bool.not_true, Bool.false_eq_true, or_self, if_false, if_true]

end

section
variable (hstate : m.state = .refilling) (hidle : s.bgBusy (.refill sl) = false) {st : Nat}
  (hst : st = g.refillNext sl m.refill)
include hstate hidle hst

theorem refillStep_ends (hlast : g.usedStripes ≤ st) (hrate : s.rebuildRate true ≠ 0) :
    s.refillStep sl = (s.refillTo m.group sl g.usedStripes).flow := by
  subst hst
  simp only [State.refillStep, hm, hg, hstate, hserves, hidle, hlast, hrate, ne_eq, not_true_eq_false, Bool.not_true,
    Bool.false_eq_true, or_self, if_false, if_true]

theorem refillStep_fills (hlast : st < g.usedStripes) {x : Nat × Nat}
    (hrow : (g.homeRows sl).find? (fun x => x.1 == st % g.rows) = some x) :
    s.refillStep sl
      = s.runFill m.group g st x.2 sl (g.chunkLba (st / g.rows) (g.home st x.2).layer) (.refill sl) true := by
  subst hst
  simp only [State.refillStep, hm, hg, hstate, hserves, hidle, Nat.not_le.mpr hlast, hrow, ne_eq, not_true_eq_false,
    Bool.not_true, Bool.false_eq_true, or_self, if_false]

end

section
variable (hstate : m.state = .returning) (hidle : s.bgBusy (.delta sl) = false) {u : State} {n : Member}
  (hu : u = s.deltaTo m.group sl m.staleAt) (hn : u.member sl = some n)
include hstate hidle hu hn

theorem deltaStep_ends (hback : n.state ≠ .returning) : s.deltaStep sl = u.flow := by
  subst hu
  simp only [State.deltaStep, hm, hg, hstate, hserves, hidle, hn, hback, ne_eq, not_true_eq_false, not_false_eq_true,
    Bool.not_true, Bool.false_eq_true, or_self, if_false, if_true]

theorem deltaStep_opens (hback : n.state = .returning) {p : Nat × Nat × Nat} {ps : List (Nat × Nat × Nat)}
    (hplaces : g.placesOn sl n.staleAt = p :: ps) (hcan : u.bgCan m.group n.staleAt = true)
    (hscope : g.inScope n.staleAt = false)
    (hpace : paceOk u.str.paced (u.rebuildRate false) (u.fillCost g n.staleAt p.1) = true) :
    s.deltaStep sl = u.openBg m.group g
      { group := m.group, stripe := n.staleAt, writer := .delta sl, method := g.bgMethod, positions := (p :: ps).map (·.1)
        fills := p :: ps } := by
  subst hu
  simp only [State.deltaStep, hm, hg, hstate, hserves, hidle, hn, hback, hplaces, hcan, hscope, hpace, ne_eq,
    not_true_eq_false, Bool.not_true, Bool.false_eq_true, or_self, if_false]

end

end

/-! ### Steps of a whole group: resynchronisation and zeroing -/

section
variable {s : State} {gi : Nat} {g : Group} (hg : s.group gi = some g) {u : State} {ok : Bool}
include hg

theorem resyncStep_opens {st : Nat} (hnext : g.resyncNext = some st) (hfailed : g.failed = false) (honline : g.online = true)
    (hstate : s.gstate gi ≠ 3) (hcan : s.bgCan gi st = true)
    (hpace : paceOk s.str.paced (s.rebuildRate false) (costOf (storedBytes g.format1)
      ((List.range g.n).filterMap fun p => (s.posAt g st p).map fun x => (x.1, 16))) = true)
    (hadmit : s.bgAdmit gi (g.regionOf st) = (u, ok)) :
    s.resyncStep gi = if ok then u.openBg gi g
      { group := gi, stripe := st, writer := .resync, method := g.bgMethod, positions := List.range g.n } else u := by
  simp only [State.resyncStep, hg, hnext, hfailed, honline, hstate, hcan, hpace, hadmit, Bool.not_true, Bool.false_eq_true,
    or_self, if_false]
  cases ok <;> rfl

theorem zeroingStep_opens {x : Nat} {xs : List Nat} (hzero : g.zeroing = x :: xs) {st : Nat} (hst : st = x * g.t + g.zeroAt)
    (hcan : s.bgCan gi st = true) (hstate : s.gstate gi ≠ 3) (hadmit : s.bgAdmit gi x = (u, ok)) {ws : List StripeWrite}
    (hws : ws = (List.range g.n).filterMap fun p => (u.posAt g st p).map fun y =>
      { pos := p, slot := y.1, op := .writeZeroes, lba := y.2, n := 16, data := [] }) :
    s.zeroingStep gi = if ok then u.openBg gi g
      { group := gi, stripe := st, writer := .zeroing, method := if g.erasure then .full else .copy
        positions := ws.map (·.pos), planned := true, writes := ws } else u := by
  subst hst hws
  simp only [State.zeroingStep, hg, hzero, hstate, hcan, hadmit, Bool.not_true, Bool.false_eq_true, or_self, if_false]
  cases ok <;> rfl

end

/-! ### Repair -/

theorem repairStep_opens {s : State} {r : Repair} {g : Group} {sl lba : Nat} (hr : s.nextRepair = some r)
    (hg : s.group r.group = some g) (hpos : s.posAt g r.stripe r.pos = some (sl, lba)) (hcan : s.bgCan r.group r.stripe = true)
    {u : State} {ok : Bool} (hadmit : s.bgAdmit r.group (g.regionOf r.stripe) = (u, ok)) {d : State}
    (hd : d = { u with str := { u.str with repairs := rmFirst (fun x => x == r) u.str.repairs } }) :
    s.repairStep = if ok then d.openBg r.group g
      { group := r.group, stripe := r.stripe, writer := .repair, method := g.bgMethod, positions := [r.pos], offs := r.offs
        fills := [(r.pos, sl, lba)], reread := r.reread } else u := by
  subst hd
  simp only [State.repairStep, hr, hg, hpos, hcan, hadmit, Bool.not_true, Bool.false_eq_true, if_false]
  cases ok <;> rfl

/-! ### The Lantern patrol -/

theorem lanternStep_stands {s : State} (hoff : s.bit .lntCtl 0 = false ∨ s.field .lntRate 15 0 = 0 ∨ s.serves = false) :
    s.lanternStep = s := by
  have hoff' : (!s.bit .lntCtl 0) = true ∨ s.field .lntRate 15 0 = 0 ∨ (!s.serves) = true := by
    simpa only [Bool.not_eq_true'] using hoff
  exact if_pos hoff'

section
variable {s w : State} (hon : s.bit .lntCtl 0 = true) (hrate : s.field .lntRate 15 0 ≠ 0) (hserves : s.serves = true)
  (hw : w = s.lanternMend)
include hon hrate hserves hw

theorem lanternStep_next (hnow : w.str.lanternNow = none) : s.lanternStep = w.lanternNext := by
  subst hw
  simp only [State.lanternStep, hon, hrate, hserves, hnow, Bool.not_true, Bool.false_eq_true, or_self, if_false]

variable {t : LanternTask} (hnow : w.str.lanternNow = some t)
include hnow

theorem lanternStep_reads (hpre : t.look.pre ≠ []) : s.lanternStep = w := by
  subst hw
  simp only [State.lanternStep, hon, hrate, hserves, hnow, Bool.not_true, Bool.false_eq_true, or_self, if_false,
    List.isEmpty_eq_false_iff.mpr hpre, Bool.not_false, if_true]

theorem lanternStep_compares (hpre : t.look.pre = []) {g : Group} (hg : w.group t.look.group = some g) : s.lanternStep
    = (({ w with str := { w.str with lanternNow := none } } : State).lanternCompare t g).flow := by
  have hg' : ({ w with str := { w.str with lanternNow := none } } : State).group t.look.group = some g := hg
  subst hw
  simp only [State.lanternStep, hon, hrate, hserves, hnow, hpre, hg', Bool.not_true, Bool.false_eq_true, or_self, if_false,
    List.isEmpty_nil]

end

/-! ### Pacing -/

theorem pacingRefill_eq {s a : State} (ha : a = s.advanceTo ((s.now / msec + 1) * msec)) : s.pacingRefill = { a with
    str := { a.str with
      paced := paceRefill a.str.paced (a.rebuildRate false)
      lntPaced := paceRefill a.str.lntPaced (a.field .lntRate 15 0) }
    cph := { a.cph with paced := paceRefill a.cph.paced (a.field .cphWalkRate 15 0) } } := by
  subst ha
  rfl

/-! ### The rekey walk -/

section
variable {s : State} {vol : Nat} {w : Walk} {v : Volume} {g : Group} (hw : tblFind s.cph.walks vol = some w)
  (hv : s.volume vol = some v) (hg : s.group v.group = some g) (hbegun : w.begun = true)
  (hrate : s.field .cphWalkRate 15 0 ≠ 0) (hserves : s.serves = true)
  (hidle : s.str.opens.find? (fun o => o.writer == .rekey vol) = none)
include hw hv hg hbegun hrate hserves hidle

theorem walkStep_ends (hend : (v.ext.mergeSort (· ≤ ·))[w.region]? = none) : s.walkStep vol = s.walkEnd vol w := by
  simp only [State.walkStep, hw, hv, hg, hbegun, hrate, hserves, hidle, hend, Bool.not_true, Bool.false_eq_true, or_self,
    if_false]

theorem walkStep_opens {x : Nat} (hx : (v.ext.mergeSort (· ≤ ·))[w.region]? = some x) {st : Nat}
    (hst : st = x * g.t + w.stripe) (hcan : s.bgCan v.group st = true) (hstate : s.gstate v.group ≠ 3)
    (hlane : (s.walkLane x).isSome = true)
    (hpace : paceOk s.cph.paced (s.field .cphWalkRate 15 0) (costOf (storedBytes g.format1)
      ((List.range g.n).filterMap fun p => (s.posAt g st p).map fun x => (x.1, 16))) = true)
    {u : State} {ok : Bool} (hadmit : s.bgAdmit v.group x = (u, ok)) :
    s.walkStep vol = if ok then u.openBg v.group g
      { group := v.group, stripe := st, writer := .rekey vol, method := g.bgMethod, keyed := true, positions := List.range g.n }
      else u := by
  subst hst
  simp only [State.walkStep, hw, hv, hg, hbegun, hrate, hserves, hidle, hx, hcan, hstate, hlane, hpace, hadmit, Bool.not_true,
    Bool.false_eq_true, or_self, if_false]
  cases ok <;> rfl

end

/-- Settles O28: each step opens its stripe in the branch where nothing is in its way (a rebuild stands still in a sweep, log
entry 31; the step's reads and writes follow as member commands, log entry 33; pacing looks at the reads, log entry 34). -/
theorem classSevenStepsOpenTheirStripe : Obligations.ClassSevenStepsOpenTheirStripe := by
  refine ⟨fun s gi sl lba st pos g w p hcan hscope hrate hpace => runFill_opens hcan hscope hrate hpace,
    fun s sl m g hm hg hserves => ⟨fun hstate hsweep hidle st hst => ⟨fun hrow hrate => ?_, fun x hrow =>
        ⟨fun hlast hrate => ?_, fun hlast hused => ?_, fun hlast hfree hnone u hu => ?_⟩⟩,
      fun hstate hidle st hst => ⟨fun hlast hrate => ?_, fun hlast x hrow => ?_⟩,
      fun hstate hidle u n hu hn => ⟨fun hback => ?_, fun hback p ps hplaces hcan hscope hpace => ?_⟩⟩,
    fun s gi g hg => ⟨fun sw hsw mv rows stOf hmv hstOf hrows hserves hopens hmem hcan hrate hpace u ok hadmit => ?_,
      fun st hnext hfailed honline hstate hcan hpace u ok hadmit => ?_,
      fun x xs hzero st hst hcan hstate u ok hadmit ws hws => ?_⟩,
    fun s r g sl lba hr hg hpos hcan u ok hadmit d hd => ?_,
    fun s => ⟨fun hoff => ?_, fun hon hrate hserves w hw =>
      ⟨fun hnow => ?_, fun t hnow hpre => ?_, fun t g hnow hpre hg => ?_⟩⟩,
    fun s hon => ?_, fun s a ha => ?_,
    fun s vol w v g hw hv hg hbegun hrate hserves hidle => ⟨fun hend => ?_,
      fun x hx st hst hcan hstate hlane hpace u ok hadmit => ?_⟩,
    fun s v gi i hon hgi hi => ⟨fun g l hg hl => ?_, fun hnone => ?_⟩,
    fun s v i hon hi => ⟨fun hnone => ?_, fun k hk off on hoff hwalk => ?_⟩⟩
  · exact congrArg Host.Outcome.next (rebuildStep_ends hm hg hserves hstate hsweep hidle hst (Or.inl hrow) hrate)
  · exact congrArg Host.Outcome.next
      (rebuildStep_ends hm hg hserves hstate hsweep hidle hst (Or.inr ⟨⟨x, hrow⟩, hlast⟩) hrate)
  · exact congrArg Host.Outcome.next (rebuildStep_fills hm hg hserves hstate hsweep hidle hst hrow hlast hused)
  · exact congrArg Host.Outcome.next (rebuildStep_zeroes hm hg hserves hstate hsweep hidle hst hrow hlast hfree hnone hu)
  · exact congrArg Host.Outcome.next (refillStep_ends hm hg hserves hstate hidle hst hlast hrate)
  · exact congrArg Host.Outcome.next (refillStep_fills hm hg hserves hstate hidle hst hlast hrow)
  · exact congrArg Host.Outcome.next (deltaStep_ends hm hg hserves hstate hidle hu hn hback)
  · exact congrArg Host.Outcome.next (deltaStep_opens hm hg hserves hstate hidle hu hn hback hplaces hcan hscope hpace)
  · have hexec : exec (.relocationSweepPeriod gi) s = .next _ :=
      congrArg Host.Outcome.next (sweepStep_eq hg hsw hmv hstOf hrows hserves hopens hmem hcan hrate hpace)
    rw [hexec, hadmit]
    refine ⟨fun hno => ?_, fun hyes os hos => ?_⟩
    · subst hno
      rfl
    · subst hyes hos
      rfl
  · exact congrArg Host.Outcome.next (resyncStep_opens hg hnext hfailed honline hstate hcan hpace hadmit)
  · exact congrArg Host.Outcome.next (zeroingStep_opens hg hzero hst hcan hstate hadmit hws)
  · exact congrArg Host.Outcome.next (repairStep_opens hr hg hpos hcan hadmit hd)
  · exact congrArg Host.Outcome.next (lanternStep_stands hoff)
  · exact congrArg Host.Outcome.next (lanternStep_next hon hrate hserves hw hnow)
  · exact congrArg Host.Outcome.next (lanternStep_reads hon hrate hserves hw hnow hpre)
  · exact congrArg Host.Outcome.next (lanternStep_compares hon hrate hserves hw hnow hpre hg)
  · exact ⟨_, congrArg Host.Outcome.next (whenOn_on hon _), rfl, rfl, rfl, rfl, rfl, rfl⟩
  · exact ⟨_, congrArg Host.Outcome.next (pacingRefill_eq ha), rfl, rfl, rfl, rfl, rfl, rfl⟩
  · exact congrArg (fun t : State => Host.Outcome.next t.flow) (walkStep_ends hw hv hg hbegun hrate hserves hidle hend)
  · exact congrArg (fun t : State => Host.Outcome.next t.flow)
      (walkStep_opens hw hv hg hbegun hrate hserves hidle hx hst hcan hstate hlane hpace hadmit)
  · exact congrArg Host.Outcome.next ((whenOn_on hon _).trans (rowCapture_some hgi hi hg hl))
  · exact congrArg Host.Outcome.next ((whenOn_on hon _).trans (rowCapture_none hgi hi hnone))
  · exact congrArg Host.Outcome.next ((whenOn_on hon _).trans (keyCapture_none hi hnone))
  · exact congrArg Host.Outcome.next ((whenOn_on hon _).trans (keyCapture_some hi hk hoff hwalk))

end Sys2Proof.Machine
end

section
/-! PROOFS. Scope: the shaper commands, the staged COMMIT and the capture of CLS_SHP_SEL (R244 to R247, R249, R250, R254 to
R256). -/

namespace Sys2Proof.Machine

/-! ### A tenant's entry and its configuration record -/

/-- A tenant's entry replaced, and its configuration record waiting (R247, R661). -/
def State.putShaper (s : State) (t : Nat) (e : ShaperEntry) (r : Option CfgVal) : State :=
  (s.setShaperEntry t e).cfgPut 0x09 t r

@[simp] theorem putShaper_shaper (s : State) (t : Nat) (e : ShaperEntry) (r : Option CfgVal) :
    (s.putShaper t e r).shaper t = some e := shaper_setEntry s t e

theorem putShaper_shaper_ne (s : State) {t k : Nat} (e : ShaperEntry) (r : Option CfgVal) (h : k ≠ t) :
    (s.putShaper t e r).shaper k = s.shaper k := shaper_setEntry_ne s t k e h

theorem applyShaper_some {s : State} {t : Nat} {e : ShaperEntry} (h : s.shaper t = some e) (v : Shaper) :
    s.applyShaper t v
      = (s.putShaper t { e with pending := some v, written := true, remove := false } (some (.shaper v))).touch := by
  simp only [State.applyShaper, State.putShaper, h]

theorem applyShaper_none {s : State} {t : Nat} (h : s.shaper t = none) (v : Shaper) :
    s.applyShaper t v = (s.putShaper t
      { newShaperEntry v with val := s.shaperVal t, pending := some v, written := true } (some (.shaper v))).touch := by
  simp only [State.applyShaper, State.putShaper, h]

theorem removeShaper_some {s : State} {t : Nat} {e : ShaperEntry} (h : s.shaper t = some e) :
    s.removeShaper t = (s.putShaper t { e with
      pending := some { e.charged with c0 := false, c0Port := 0, c0Group := 0 }, written := false, remove := true }
      none).touch := by
  simp only [State.removeShaper, State.putShaper, h]

/-! ### SET_SHAPER -/

/-- A command that begins to wait leaves the shaper table. -/
@[simp] theorem waits_shaper (s : State) (seq t : Nat) : ((s.markPast seq).markWaiting seq).shaper t = s.shaper t := rfl

/-- SET_SHAPER that passes its checks: the command waits for the refill, and its flags choose the change (R247, R249). -/
theorem setShaper_can {s : State} {q cid : Nat} {c : Cmd} (h : s.adminCan q cid 0x50 c) :
    exec (.setShaper q cid) s = .next
      (if bitOf (byteAt c.entry 46) 1 then ((s.markPast c.seq).markWaiting c.seq).setDefaults (shaperOf c.entry)
      else if bitOf (byteAt c.entry 46) 2 then ((s.markPast c.seq).markWaiting c.seq).removeShaper (leAt c.entry 40 4)
      else ((s.markPast c.seq).markWaiting c.seq).applyShaper (leAt c.entry 40 4) (shaperOf c.entry)) :=
  congrArg Host.Outcome.next (adminRun_can h _)

/-! ### COMMIT of the staged values -/

/-- The table has room for tenant `t`'s written entry (R250). -/
def State.shaperRoom (s : State) (t : Nat) : Bool :=
  match s.shaper t with
  | some x => x.written || decide (s.writtenShapers < s.qpCount)
  | none => decide (s.writtenShapers < s.qpCount)

theorem shaperRoom_iff (s : State) (t : Nat) : s.shaperRoom t = true ↔
    (∀ x, s.shaper t = some x → x.written = true ∨ s.writtenShapers < s.qpCount)
      ∧ (s.shaper t = none → s.writtenShapers < s.qpCount) := by
  unfold State.shaperRoom
  cases s.shaper t with
  | none => simp
  | some x => simp

/-- The checks that COMMIT makes of values `v` for tenant `t`, or of the defaults where `d` (R233, R249, R255). -/
def State.commitFits (s : State) (v : Shaper) (t : Nat) (d : Bool) : Bool :=
  (s.shaperFails v).isEmpty
    && (if d then !v.c0 else t != 0 && s.shaperRoom t && (!v.c0 || s.chargeFits (s.chargedOf t) v))

theorem commitFits_iff (s : State) (v : Shaper) (t : Nat) (d : Bool) : s.commitFits v t d = true ↔
    (s.shaperFails v).isEmpty = true ∧ (d = true ∧ v.c0 = false ∨ d = false ∧ t ≠ 0
      ∧ (∀ x, s.shaper t = some x → x.written = true ∨ s.writtenShapers < s.qpCount)
      ∧ (s.shaper t = none → s.writtenShapers < s.qpCount) ∧ (v.c0 = false ∨ s.chargeFits (s.chargedOf t) v = true)) := by
  have hroom := shaperRoom_iff s t
  cases d with
  | true => simp [State.commitFits]
  | false => simp [State.commitFits, hroom, and_assoc]

theorem shaperCommit_fits {s m : State} {w : Nat} (hm : m = s.setReg .clsShpCfg (w % 2 ^ 24 - bitsOf w 12 10 * 2 ^ 10)) :
    s.shaperCommit w
      = if m.commitFits m.stagedShaper (bitsOf (m.reg .clsShpSel) 19 0) (bitOf (m.reg .clsShpSel) 31) then
          if bitOf (m.reg .clsShpSel) 31 then (m.setField .clsShpState 30 30 0).setDefaults m.stagedShaper
          else (m.setField .clsShpState 30 30 0).applyShaper (bitsOf (m.reg .clsShpSel) 19 0) m.stagedShaper
        else m.setField .clsShpState 30 30 1 := by
  subst hm
  exact shaperCommit_eq s w

theorem shaperCommit_on {s : State} (h : s.readsOn 161 = true) (w : Word) :
    exec (.shaperCommit w) s = .next (s.shaperCommit w.toNat) :=
  congrArg Host.Outcome.next (whenOn_on h _)

/-! ### The capture of CLS_SHP_SEL -/

/-- The selection and the captured values `v` in their registers (R254, R255). -/
def State.captureValues (s : State) (w : Nat) (v : Shaper) : State :=
  ((((s.setReg .clsShpSel (bitsOf w 31 31 * 2 ^ 31 + w % 2 ^ 20)).setReg .clsShpCir v.cir).setReg .clsShpPir v.pir).setReg
    .clsShpBurst (v.cbs * 2 ^ 16 + v.pbs)).setReg .clsShpCfg
      (v.c0Group * 2 ^ 18 + v.c0Port * 2 ^ 14 + b2n v.c0 * 2 ^ 13 + v.xferCap)

/-- The entry that a write of CLS_SHP_SEL selects: none with DEFAULT set (R254). -/
def State.selectedShaper (s : State) (w : Nat) : Option ShaperEntry :=
  if bitOf w 31 then none else s.shaper (w % 2 ^ 20)

/- Proved by rewriting: `rfl` makes these definitional, and the kernel then compares register tables at each use. -/
@[simp] theorem setReg_shaper (s : State) (r : Reg) (n i t : Nat) : (s.setReg r n i).shaper t = s.shaper t := by
  rw [State.shaper, State.setReg_cls, State.shaper]

@[simp] theorem setReg_qp (s : State) (r : Reg) (n i q : Nat) : (s.setReg r n i).qp q = s.qp q := by
  rw [State.qp, State.setReg_qpe, State.qp]

/-- Without an entry the state word counts nothing, and EXISTS is the DEFAULT bit (R254, R256). -/
theorem shaperCapture_none {s : State} {w : Nat} (h : s.selectedShaper w = none) :
    s.shaperCapture w = (s.captureValues w s.cls.dflt).setReg .clsShpState
      (2 ^ 31 + (s.captureValues w s.cls.dflt).field .clsShpState 30 30 * 2 ^ 30 + b2n (bitOf w 31) * 2 ^ 29
        + 0 * 2 ^ 26 + 0 * 2 ^ 13 + 0) := by
  unfold State.selectedShaper at h
  simp only [State.shaperCapture, State.captureValues, setReg_shaper, State.setReg_cls, h, Option.isSome_none, Bool.or_false]

/-- With an entry the state word counts the tenant's held commands and its buckets' whole bytes, each up to its field (R256). -/
theorem shaperCapture_some {s : State} {w : Nat} {x : ShaperEntry} (h : s.selectedShaper w = some x) :
    s.shaperCapture w = (s.captureValues w x.val).setReg .clsShpState
      (2 ^ 31 + (s.captureValues w x.val).field .clsShpState 30 30 * 2 ^ 30 + 2 ^ 29
        + min 7 (s.qpe.cmds.filter fun c => c.held && (s.qp c.qp).tenant == w % 2 ^ 20).length * 2 ^ 26
        + min 0x1FFF (x.c / 1000000) * 2 ^ 13 + min 0x1FFF (x.p / 1000000)) := by
  have hone : b2n true = 1 := rfl
  unfold State.selectedShaper at h
  simp only [State.shaperCapture, State.captureValues, setReg_shaper, setReg_qp, State.setReg_qpe, h, Option.isSome_some,
    Bool.or_true, hone, Nat.one_mul]

theorem clsShpSel_on {s : State} (h : s.readsOn 161 = true) (w : Word) :
    exec (.clsShpSel w) s = .next (s.shaperCapture w.toNat) :=
  congrArg Host.Outcome.next (whenOn_on h _)

/-- Settles O22: each command's change is one entry put under the key it names (the defaults under 0xFFFFFFFF), COMMIT's checks
are read as the propositions they decide, and the capture splits on whether an entry is selected. A new entry holds the
former values until the refill and a removal is pending until then (log entry 104); the defaults change at once. -/
theorem shaperCommandsSetTheEntryTheyName : Obligations.ShaperCommandsSetTheEntryTheyName := by
  refine ⟨fun s q cid c hcan v t fl m hv ht hfl hm => ?_, fun s w m hon hm v t d hv hd ht => ?_,
    fun s w t d e v m hon ht hd he hv hm => ?_, fun s w hoff => ?_⟩
  · subst hv ht hfl hm
    have hexec := setShaper_can hcan
    refine ⟨fun hdflt => ?_, fun hdflt hrem e he => ?_, fun hdflt hrem => ?_⟩
    · rw [hdflt, if_pos rfl] at hexec
      exact ⟨_, hexec, rfl, rfl, rfl, rfl, rfl, rfl⟩
    · rw [hdflt, hrem, if_neg Bool.false_ne_true, if_pos rfl, removeShaper_some ((waits_shaper s _ _).trans he)] at hexec
      exact ⟨_, hexec, putShaper_shaper _ _ _ _, fun k hk => putShaper_shaper_ne _ _ _ hk, rfl, rfl, rfl, rfl, rfl⟩
    · rw [hdflt, hrem, if_neg Bool.false_ne_true, if_neg Bool.false_ne_true] at hexec
      cases he : s.shaper (leAt c.entry 40 4) with
      | some e =>
        rw [applyShaper_some ((waits_shaper s _ _).trans he)] at hexec
        refine ⟨_, hexec, fun e' h => ?_, fun h => (nomatch h), fun k hk => putShaper_shaper_ne _ _ _ hk,
          rfl, rfl, rfl, rfl, rfl⟩
        obtain rfl : e = e' := Option.some.inj h
        exact putShaper_shaper _ _ _ _
      | none =>
        rw [applyShaper_none ((waits_shaper s _ _).trans he)] at hexec
        exact ⟨_, hexec, fun e h => (nomatch h), fun _ => putShaper_shaper _ _ _ _,
          fun k hk => putShaper_shaper_ne _ _ _ hk, rfl, rfl, rfl, rfl, rfl⟩
  · subst hv ht hd
    intro fits
    have hfits : m.commitFits m.stagedShaper (bitsOf (m.reg .clsShpSel) 19 0) (bitOf (m.reg .clsShpSel) 31) = true ↔ fits :=
      commitFits_iff _ _ _ _
    rw [shaperCommit_on hon, shaperCommit_fits hm]
    refine ⟨fun hok hdflt => ?_, fun hok hdflt => ?_, fun hbad => ?_⟩
    · rw [if_pos (hfits.mpr hok), if_pos hdflt]
    · rw [if_pos (hfits.mpr hok), hdflt, if_neg Bool.false_ne_true]
    · rw [if_neg (mt hfits.mp hbad)]
  · subst ht hd
    have hsel : s.selectedShaper w.toNat = e := he.symm
    rw [clsShpSel_on hon]
    refine ⟨fun hnone => ?_, fun x hsome => ?_⟩
    · subst hnone hv hm
      rw [shaperCapture_none hsel]
      rfl
    · subst hsome hv hm
      rw [shaperCapture_some hsel]
      rfl
  · exact ⟨congrArg Host.Outcome.next (whenOn_off hoff _), congrArg Host.Outcome.next (whenOn_off hoff _)⟩

end Sys2Proof.Machine
end

section
/-! PROOFS. Scope: service addresses, RoCEv2 permissions, and the opening, closing and capture of an ODT connection (R271 to R274,
R278, R288, R304, R310). -/

namespace Sys2Proof.Machine

/-! ### Service addresses -/

/-- Sub-port `sub` with one address set or taken away, and its configuration record waiting (R272, R663). -/
def State.putAddress (s : State) (sub kind idx : Nat) (v : Option IpAddr) : State :=
  ({ s with net := { s.net with addr := tblPut {} s.net.addr sub ((tblGet {} s.net.addr sub).put kind idx v) } } : State).cfgPut
    0x0A (addrKey sub kind idx) (v.map fun a => .address a.addr a.pfx)

theorem putAddress_addr_ne (s : State) {sub k : Nat} (kind idx : Nat) (v : Option IpAddr) (h : k ≠ sub) :
    tblGet {} (s.putAddress sub kind idx v).net.addr k = tblGet {} s.net.addr k :=
  tblPut_get_ne {} s.net.addr sub k _ h

/-- SET_ADDRESS that passes its checks: byte 13 says whether the address is taken away (R272). -/
theorem setAddress_can {s : State} {q cid : Nat} {c : Cmd} (h : s.adminCan q cid 0x54 c) {v : Option IpAddr}
    (hv : v = if byteAt c.entry 13 = 1 then none else some { addr := addrOf c.entry, pfx := byteAt c.entry 12 }) :
    exec (.setAddress q cid) s = .next ((((s.markPast c.seq).putAddress (4 * byteAt c.entry 8 + byteAt c.entry 9)
      (byteAt c.entry 10) (byteAt c.entry 11) v).touch.finish c.seq stSuccess 0).flow) := by
  subst hv
  exact congrArg Host.Outcome.next (adminRun_can h _)

/-! ### RoCEv2 permissions -/

/-- The permission table with entry `i` set or taken away, and its configuration record waiting (R278, R663). -/
def State.putAllow (s : State) (i : Nat) (a : Option RoceAllow) : State :=
  ({ s with net := { s.net with allow := match a with
      | some x => tblIns s.net.allow i x
      | none => tblDel s.net.allow i } } : State).cfgPut 0x0B i (a.map .allow)

theorem putAllow_allow_ne (s : State) {i k : Nat} (a : Option RoceAllow) (h : k ≠ i) :
    tblFind (s.putAllow i a).net.allow k = tblFind s.net.allow k := by
  cases a with
  | some x => exact tblFind_ins_ne h x s.net.allow
  | none => exact tblFind_del_ne h s.net.allow

section
variable {s : State} {q cid : Nat} {c : Cmd} (h : s.adminCan q cid 0x53 c)
include h

theorem roceAllow_removes (hrm : byteAt c.entry 14 = 1) : exec (.roceAllow q cid) s
    = .next ((((s.markPast c.seq).putAllow (leAt c.entry 12 2) none).touch.finish c.seq stSuccess 0).flow) := by
  refine congrArg Host.Outcome.next ((adminRun_can h _).trans ?_)
  simp only [State.putAllow, hrm, beq_self_eq_true, if_true, Option.map_none]

theorem roceAllow_puts (hput : byteAt c.entry 14 ≠ 1) {a : RoceAllow}
    (ha : a = { mac := byteAt c.entry 8, sub := byteAt c.entry 9, family := byteAt c.entry 10, cls := byteAt c.entry 11,
                tenant := leAt c.entry 20 4, host := ipOf c.entry (byteAt c.entry 10) }) :
    exec (.roceAllow q cid) s
      = .next ((((s.markPast c.seq).putAllow (leAt c.entry 12 2) (some a)).touch.finish c.seq stSuccess 0).flow) := by
  subst ha
  refine congrArg Host.Outcome.next ((adminRun_can h _).trans ?_)
  simp only [State.putAllow, beq_eq_false_iff_ne.mpr hput, Bool.false_eq_true, if_false, Option.map_some]

end

/-! ### ODT connections -/

theorem odtConn_setOdt_ne (s : State) {k j : Nat} (x : OdtConn) (h : j ≠ k) : (s.setOdt k x).odtConn j = s.odtConn j :=
  tblPut_get_ne ({} : OdtConn) s.net.odt k j x h

/-- A connection that is not CLOSED is not the default entry, so it is listed as it is put. -/
theorem odtConn_setOdt_live (s : State) (k : Nat) {x : OdtConn} (h : x.state ≠ .closed) : (s.setOdt k x).odtConn k = x :=
  setOdt_conn s k x fun hx => h (congrArg OdtConn.state hx)

/-- A closed connection whose table is in canonical form reads as CLOSED, whatever left the egress points with it (R304). -/
theorem dropEgress_setOdt_closed (s : State) (k : Nat) (keep : EgUnit → Bool) (h : tblSorted none s.net.odt = true) :
    ((s.dropEgress keep).setOdt k {}).odtConn k = {} :=
  setOdt_closed _ k ((congrArg (tblSorted none) (dropEgress_odt s keep)).trans h)

/-- Closing a connection changes no other one's entry. -/
theorem dropEgress_setOdt_find (s : State) (k a : Nat) (keep : EgUnit → Bool) (x : OdtConn) :
    tblFind ((s.dropEgress keep).setOdt k x).net.odt a = tblFind s.net.odt a ∨ a = k := by
  by_cases hne : a = k
  · exact Or.inr hne
  · exact Or.inl ((setOdt_conn_ne _ k a x hne).trans (congrArg (tblFind · a) (dropEgress_odt s keep)))

/-! ### The capture of NET_ODT_SEL -/

/-- The connection that a selector names: a number that does not exist reads as CLOSED (R310). -/
def State.selectedOdt (s : State) (k : Nat) : OdtConn := if k < s.odtCount then s.odtConn k else {}

/-- The capture reads the selected connection behind the write of the selector, which leaves it. -/
theorem odtCapture_eq {s : State} {k : Nat} {x : OdtConn} (hx : x = s.selectedOdt k) : s.odtCapture k
    = (((s.setReg .netOdtSel k).setReg .netOdtState (2 ^ 31 + x.state.code * 2 ^ 28
        + (if x.state == .closed then 0 else x.mac * 2 ^ 25 + x.sub * 2 ^ 23 + x.tenant))).setReg .netOdtHseq
          (if x.state == .closed then 0 else x.hseq)).setReg .netOdtDseq (if x.state == .closed then 0 else x.dseq) := by
  subst hx
  rfl

theorem odtCapture_closed {s : State} {k : Nat} {x : OdtConn} (hx : x = s.selectedOdt k) (h : x.state = .closed) :
    s.odtCapture k = (((s.setReg .netOdtSel k).setReg .netOdtState (2 ^ 31 + x.state.code * 2 ^ 28 + 0)).setReg
      .netOdtHseq 0).setReg .netOdtDseq 0 := by
  simp only [odtCapture_eq hx, beq_iff_eq.mpr h, if_true]

theorem odtCapture_live {s : State} {k : Nat} {x : OdtConn} (hx : x = s.selectedOdt k) (h : x.state ≠ .closed) :
    s.odtCapture k = (((s.setReg .netOdtSel k).setReg .netOdtState
      (2 ^ 31 + x.state.code * 2 ^ 28 + (x.mac * 2 ^ 25 + x.sub * 2 ^ 23 + x.tenant))).setReg .netOdtHseq x.hseq).setReg
        .netOdtDseq x.dseq := by
  simp only [odtCapture_eq hx, beq_eq_false_iff_ne.mpr h, Bool.false_eq_true, if_false]

/-- Settles O23: each command that passes its checks is one write of its table, and a read of another entry passes the write by
(the number for CONN ANY is the model's lowest closed one, log entry 23). -/
theorem networkAdminCommandsChangeTheirTable : Obligations.NetworkAdminCommandsChangeTheirTable := by
  refine ⟨fun s q cid c => ⟨fun hcan sub v hsub hv => ?_, fun hcan i a hi ha => ?_, fun hcan n k hn hk => ?_,
    fun hcan k x m o d u hk hx hm ho hd hu => ?_⟩, fun s v k x hon hk hx => ⟨fun hclosed => ?_, fun hlive => ?_⟩⟩
  · subst hsub
    refine ⟨_, setAddress_can hcan hv, ?_⟩
    subst hv
    exact ⟨rfl, fun k hk => putAddress_addr_ne _ _ _ _ hk, rfl, rfl, rfl, rfl, rfl, rfl⟩
  · subst hi
    by_cases hrm : byteAt c.entry 14 = 1
    · exact ⟨_, roceAllow_removes hcan hrm, fun hput => absurd hrm hput, fun _ => ⟨rfl, rfl⟩,
        fun k hk => putAllow_allow_ne _ _ hk, rfl, rfl, rfl, rfl, rfl, rfl, rfl, rfl⟩
    · exact ⟨_, roceAllow_puts hcan hrm ha, fun _ => ⟨tblFind_ins_self _ _ _, rfl⟩, fun h => absurd h hrm,
        fun k hk => putAllow_allow_ne _ _ hk, rfl, rfl, rfl, rfl, rfl, rfl, rfl, rfl⟩
  · subst hn hk
    exact ⟨_, congrArg Host.Outcome.next (adminRun_can hcan _), odtConn_setOdt_live _ _ OdtState.noConfusion,
      fun j hj => odtConn_setOdt_ne _ _ hj, rfl, rfl, rfl, rfl, rfl, rfl⟩
  · have hexec : exec (.odtClose q cid) s = .next _ := congrArg Host.Outcome.next (adminRun_can hcan _)
    subst hk hx hm ho hd hu
    exact ⟨_, hexec, rfl, dropEgress_setOdt_closed _ _ _, fun a => dropEgress_setOdt_find _ _ a _ _⟩
  · subst hk
    exact congrArg Host.Outcome.next ((whenOn_on hon _).trans (odtCapture_closed hx hclosed))
  · subst hk
    exact congrArg Host.Outcome.next ((whenOn_on hon _).trans (odtCapture_live hx hlive))

end Sys2Proof.Machine
end

section
/-! PROOFS. Scope: received frames, PFC, links and address announcements (R260 to R264, R266 to R268, R274). -/

namespace Sys2Proof.Machine

/-! ### The management port -/

/-- The window of a second in which the management port counts its frames (R264, R683). -/
def State.mgmtWindow (s : State) : Nat × Nat :=
  if (s.mgmtOf 9).2 + 1000000000 ≤ s.now then (0, s.now) else s.mgmtOf 9

/-- One more frame counted on the management port. -/
def State.mgmtCounted (s : State) : State :=
  { s with net := { s.net with mgmt := tblIns s.net.mgmt 9 (s.mgmtWindow.1 + 1, s.mgmtWindow.2) } }

theorem mgmtFrame_foreign (s : State) {f : Frame} (h : ∀ k, f.kind ≠ .odt k) : s.mgmtFrame f = s.mgmtCounted.mgmtDrop := by
  unfold State.mgmtFrame
  split
  · next k hkind => exact absurd hkind (h k)
  · exact if_pos (by rw [Bool.not_false, Bool.or_true, Bool.true_or])

theorem mgmtFrame_odt (s : State) {f : Frame} {k : Nat} (h : f.kind = .odt k) : s.mgmtFrame f =
    if (!f.fcsOk || decide (f.bytes < 64) || decide (9216 < f.bytes) || decide (2 ≤ f.vlanTags) || f.ipBad || f.udpBad
      || f.persBad || !((s.qp 0).state != .free && (s.qp 0).face == .odt k) || decide (20000 ≤ s.mgmtWindow.1)) = true
    then s.mgmtCounted.mgmtDrop else s.mgmtCounted := by
  unfold State.mgmtFrame
  rw [h]
  rfl

/-! ### Frames on a MAC -/

section
variable {s : State} {m u : Nat} {f : Frame} (hm : m ≠ 9)
include hm

theorem frameReceive_down (hdown : (s.macPresent m && s.subUp m u) = false) : s.frameReceive m u f = s := by
  unfold State.frameReceive
  rw [if_neg hm, hdown]
  rfl

variable (hup : (s.macPresent m && s.subUp m u) = true)
include hup

theorem frameReceive_fcs (hfcs : f.fcsOk = false) : s.frameReceive m u f = s.count .netFcsErr := by
  unfold State.frameReceive
  rw [if_neg hm, hup, hfcs]
  rfl

variable (hfcs : f.fcsOk = true) {t : State} (ht : t = s.tap (2 * m) u f.bytes (s.frameDrops m u f) (some f.hdr))
include hfcs ht

theorem frameReceive_drops (hdrop : t.frameDrops m u f = true) : s.frameReceive m u f = t.count .netRxDrop := by
  subst ht
  unfold State.frameReceive
  rw [if_neg hm, hup, hfcs]
  exact if_pos hdrop

variable (hpass : t.frameDrops m u f = false)
include hpass

theorem frameReceive_idle (hserves : t.serves = false) : s.frameReceive m u f = t := by
  subst ht
  unfold State.frameReceive
  rw [if_neg hm, hup, hfcs]
  exact (if_neg (Bool.eq_false_iff.mp hpass)).trans (if_pos (congrArg not hserves))

/-- A frame that passes in a controller that serves goes where its kind says (R264, R268). -/
theorem frameReceive_passes (hserves : t.serves = true) : s.frameReceive m u f = match f.kind with
    | .arp | .icmp | .lldp | .ptp _ => t.toBasalt m u f
    | .cnp => t.count .netCnpRx
    | _ => t.ceMark f := by
  subst ht
  unfold State.frameReceive
  rw [if_neg hm, hup, hfcs]
  exact (if_neg (Bool.eq_false_iff.mp hpass)).trans (if_neg (by rw [hserves]; exact Bool.false_ne_true))

end

theorem ceMark_unmarked (s : State) {f : Frame} (h : f.ce = false) : s.ceMark f = s := by
  unfold State.ceMark
  rw [h]
  rfl

theorem ceMark_odt {s : State} {f : Frame} {k : Nat} (hce : f.ce = true) (hkind : f.kind = .odt k)
    (hlive : ((s.count .netCeRx).odtConn k).state ≠ .closed) :
    s.ceMark f = (s.count .netCeRx).setOdt k { (s.count .netCeRx).odtConn k with ece := true } := by
  unfold State.ceMark
  rw [hce, hkind]
  exact if_neg hlive

/-! ### PFC -/

theorem pfcFrame_present {s : State} {mac : Nat} (h : s.macPresent mac = true) (vec : Nat) (q : List Nat) : s.pfcFrame mac vec q
    = (List.range 8).foldl (fun s p => if bitOf vec p then s.pfcRx mac p (q.getD p 0) else s) s := by
  unfold State.pfcFrame
  rw [h]
  rfl

theorem pfcFrame_absent {s : State} {mac : Nat} (h : s.macPresent mac = false) (vec : Nat) (q : List Nat) :
    s.pfcFrame mac vec q = s := by
  unfold State.pfcFrame
  rw [h]
  rfl

theorem pfcRx_disabled {s : State} {mac pri n : Nat} (h : bitOf (s.reg .netPfc) (24 + pri) = false) :
    s.pfcRx mac pri n = s := by
  unfold State.pfcRx
  rw [h]
  rfl

section
variable {s : State} {mac pri n : Nat} {p : Pfc} (hp : p = s.pfcOf mac pri)

section
variable (hen : bitOf (s.reg .netPfc) (24 + pri) = true)
include hp hen

theorem pfcRx_ignored (hign : p.ignoring = true) : s.pfcRx mac pri n = s.setPfc mac pri { p with lastRx := s.now } := by
  simp only [State.pfcRx, ← hp, hen, hign, Bool.not_true, Bool.false_eq_true, if_false, if_true]

theorem pfcRx_ends (hign : p.ignoring = false) (hn : n = 0) : s.pfcRx mac pri n
    = (s.setPfc mac pri { p with until_ := none, since := none, lastRx := s.now }).resumeMac mac := by
  simp only [State.pfcRx, ← hp, hen, hign, hn, Bool.not_true, Bool.false_eq_true, if_false, if_true]

theorem pfcRx_pauses (hign : p.ignoring = false) (hn : n ≠ 0) : s.pfcRx mac pri n = s.setPfc mac pri { p with
    until_ := some (s.now + ceilDiv (n * 512) (s.macRate mac))
    since := if s.paused mac pri then p.since else some s.now
    lastRx := s.now } := by
  simp only [State.pfcRx, ← hp, hen, hign, hn, Bool.not_true, Bool.false_eq_true, if_false]

end

include hp

theorem pfcExpire_some {t : Nat} (ht : p.until_ = some t) {a : State} (ha : a = s.advanceTo t) : s.pfcExpire mac pri
    = (a.setPfc mac pri { a.pfcOf mac pri with until_ := none, since := none }).resumeMac mac := by
  subst hp ha
  unfold State.pfcExpire
  rw [ht]

section
variable (hxoff : p.xoff = true) {a : State} (ha : a = s.advanceTo (p.xoffAt + 2000))
include hxoff ha

theorem pfcRepeat_fallen (hcells : a.portCells mac pri < a.xon) : s.pfcRepeat mac pri = a.pfcSync mac pri := by
  simp only [State.pfcRepeat, ← hp, ← ha, hxoff, hcells, Bool.not_true, Bool.false_eq_true, if_false, if_true]

theorem pfcRepeat_sends (hcells : a.xon ≤ a.portCells mac pri) : s.pfcRepeat mac pri
    = (a.setPfc mac pri { p with xoffAt := a.now }).pfcSend mac pri 0xFFFF := by
  simp only [State.pfcRepeat, ← hp, ← ha, hxoff, Nat.not_lt.mpr hcells, Bool.not_true, Bool.false_eq_true, if_false]

end

theorem pfcRepeat_idle (hxoff : p.xoff = false) : s.pfcRepeat mac pri = s := by
  simp only [State.pfcRepeat, ← hp, hxoff, Bool.not_false, if_true]

theorem pfcTrip_trips {t e ms : Nat} (hsince : p.since = some t) (huntil : p.until_ = some e)
    (hms : ms = s.field .netPfcWdog 7 0) (hon : ms ≠ 0) (hign : p.ignoring = false) (hheld : t + ms * msec ≤ e) :
    s.pfcTrip mac pri = ((((s.advanceTo (t + ms * msec)).setPfc mac pri
      { p with ignoring := true, until_ := none, since := none }).count .netPfcWdogCt).event .net).resumeMac mac := by
  subst hp hms
  unfold State.pfcTrip
  simp only [hsince, huntil]
  exact if_neg (by simp only [hon, hign, Bool.false_eq_true, false_or, Nat.not_lt]; exact hheld)

theorem pfcClear_ignoring (hign : p.ignoring = true) {a : State} (ha : a = s.advanceTo (p.lastRx + msec)) :
    s.pfcClear mac pri = a.setPfc mac pri { p with ignoring := false } := by
  simp only [State.pfcClear, ← hp, ← ha, hign, Bool.not_true, Bool.false_eq_true, if_false]

theorem pfcClear_idle (hign : p.ignoring = false) : s.pfcClear mac pri = s := by
  simp only [State.pfcClear, ← hp, hign, Bool.not_false, if_true]

end

/-! ### Links and announcements -/

theorem linkChange_rises {s : State} {m u : Nat} (h : (s.subMayRise m u && !s.subUp m u) = true) : s.linkChange m u true
    = ({ s with net := { s.net with link := tblPut false s.net.link (4 * m + u) true } } : State).reachChange :=
  if_pos h

theorem linkChange_stays {s : State} {m u : Nat} (h : (s.subMayRise m u && !s.subUp m u) = false) :
    s.linkChange m u true = s :=
  if_neg (Bool.eq_false_iff.mp h)

theorem linkDown_down {s : State} {m u : Nat} (h : s.subUp m u = false) : s.linkDown m u = s :=
  if_neg (Bool.eq_false_iff.mp h)

theorem linkDown_up {s w : State} {m u : Nat} (h : s.subUp m u = true)
    (hw : w = { s with net := { s.net with link := tblPut false s.net.link (4 * m + u) false } }) :
    s.linkDown m u = ((w.setReg .netPort (w.reg .netPort m ||| 2 ^ (20 + u)) m).event .net).reachChange := by
  subst hw
  exact if_pos h

theorem announceNext_nil {s : State} (h : s.net.announce = []) : s.announceNext = s := by
  unfold State.announceNext
  rw [h]

theorem announceNext_cons {s a : State} {t : Nat} {r : List Nat} (h : s.net.announce = t :: r) (ha : a = s.advanceTo t) :
    s.announceNext = ({ a with net := { a.net with announce := r } } : State).announceAll := by
  subst ha
  unfold State.announceNext
  rw [h]

/-- Settles O29: each event is taken apart at its checks, in the order in which the model makes them (the management port is MAC
9 and has link, log entry 43; what Basalt answers is log entry 106; a timer's event moves the clock, log entry 2). -/
theorem networkEventsDoTheirEffect : Obligations.NetworkEventsDoTheirEffect := by
  refine ⟨fun s u f w hw hkind => ?_, fun s u k f bad w hw hkind hbad v hv => ?_, fun s m u f hm => ⟨fun hdown => ?_,
      fun hup => ⟨fun hfcs => ?_, fun hfcs t ht => ⟨fun hdrop => ?_, fun hpass hidle => ?_, fun hpass hserves =>
        ⟨fun hkind => ?_, fun hkind => ?_, fun hkind => ?_, fun hce => ?_, fun k hce hkind hlive => ?_⟩⟩⟩⟩,
    fun s mac vec q => ⟨fun hmac => ?_, fun hmac => ?_⟩,
    fun s mac pri n p hp => ⟨fun hdis => ?_, fun hen => ⟨fun hign => ?_, fun hign hn => ?_, fun hign hn => ?_⟩,
      fun t ht a ha => ?_, fun hxoff a ha => ⟨fun hcells => ?_, fun hcells => ?_⟩, fun hxoff => ?_,
      fun t e ms hsince huntil hms hon hign hheld => ?_, fun hign a ha => ?_, fun hign => ?_⟩,
    fun s m u => ⟨fun hrise => ?_, fun hstay => ?_, fun hdown => ?_, fun hup w hw => ?_⟩,
    fun s => ⟨fun hnil => ?_, fun t r hcons a ha => ?_⟩⟩
  · subst hw
    exact congrArg Host.Outcome.next (mgmtFrame_foreign s hkind)
  · subst hw hbad hv
    exact congrArg Host.Outcome.next (mgmtFrame_odt s hkind)
  · exact congrArg Host.Outcome.next (frameReceive_down hm hdown)
  · exact congrArg Host.Outcome.next (frameReceive_fcs hm hup hfcs)
  · exact congrArg Host.Outcome.next (frameReceive_drops hm hup hfcs ht hdrop)
  · exact congrArg Host.Outcome.next (frameReceive_idle hm hup hfcs ht hpass hidle)
  · refine congrArg Host.Outcome.next ((frameReceive_passes hm hup hfcs ht hpass hserves).trans ?_)
    rcases hkind with hkind | hkind | hkind | ⟨b, hkind⟩ <;> rw [hkind]
  · refine congrArg Host.Outcome.next ((frameReceive_passes hm hup hfcs ht hpass hserves).trans ?_)
    rw [hkind]
  · refine congrArg Host.Outcome.next ((frameReceive_passes hm hup hfcs ht hpass hserves).trans ?_)
    rcases hkind with ⟨k, hkind⟩ | ⟨k, hkind⟩ <;> rw [hkind]
  · exact ceMark_unmarked t hce
  · exact ceMark_odt hce hkind hlive
  · exact congrArg Host.Outcome.next (pfcFrame_present hmac vec q)
  · exact congrArg Host.Outcome.next (pfcFrame_absent hmac vec q)
  · exact pfcRx_disabled hdis
  · exact pfcRx_ignored hp hen hign
  · exact pfcRx_ends hp hen hign hn
  · exact pfcRx_pauses hp hen hign hn
  · exact congrArg Host.Outcome.next (pfcExpire_some hp ht ha)
  · exact congrArg Host.Outcome.next (pfcRepeat_fallen hp hxoff ha hcells)
  · exact congrArg Host.Outcome.next (pfcRepeat_sends hp hxoff ha hcells)
  · exact congrArg Host.Outcome.next (pfcRepeat_idle hp hxoff)
  · exact congrArg Host.Outcome.next (pfcTrip_trips hp hsince huntil hms hon hign hheld)
  · exact ⟨_, congrArg Host.Outcome.next (pfcClear_ignoring hp hign ha), rfl, rfl, rfl, rfl, rfl⟩
  · exact congrArg Host.Outcome.next (pfcClear_idle hp hign)
  · exact congrArg Host.Outcome.next (linkChange_rises hrise)
  · exact congrArg Host.Outcome.next (linkChange_stays hstay)
  · exact congrArg Host.Outcome.next (linkDown_down hdown)
  · exact congrArg Host.Outcome.next (linkDown_up hup hw)
  · exact congrArg Host.Outcome.next (announceNext_nil hnil)
  · exact congrArg Host.Outcome.next (announceNext_cons hcons ha)

end Sys2Proof.Machine
end

section
/-! PROOFS. Scope: the events of the endpoint face (R314, R325 to R328, R331 to R336, R338, R340, R342, R718, R724). -/

namespace Sys2Proof.Machine

/-! ### The peer window -/

theorem peerTlp_deaf {s : State} {off : Nat} (rid n : Nat) (b : Bytes) (wr : Bool)
    (hoff : (s.epf.linkUp && (s.epFunc 0).mse && decide (off < 2 ^ 30)) = false) : s.peerTlp off rid wr n b = s.unsupported 1 :=
  if_pos (by rw [hoff]; rfl)

section
variable {s : State} {off rid : Nat} {ap : Aperture} (hap : ap = tblGet {} s.epf.force (off / 2 ^ 24))
  (hon : (s.epf.linkUp && (s.epFunc 0).mse && decide (off < 2 ^ 30)) = true)
include hap hon

theorem peerTlp_stranger (wr : Bool) (n : Nat) (b : Bytes) (hreq : (ap.en && ap.reqId == rid) = false) :
    s.peerTlp off rid wr n b = s.winDrop :=
  (peerTlp_on hap hon).trans (if_pos (by rw [hreq]; rfl))

/-- An access that its aperture admits goes by what the aperture is for (R326 to R328). -/
theorem peerTlp_admitted (wr : Bool) (n : Nat) (b : Bytes) (hreq : (ap.en && ap.reqId == rid) = true) :
    s.peerTlp off rid wr n b = if ap.data then
        if !wr then s.winDrop
        else
          if s.keyOk ap.mkey true (ap.off + off % 2 ^ 24) b.length && (s.keyAt (keyIndex ap.mkey)).kind == 3
              && bitOf (s.keyAt (keyIndex ap.mkey)).access 2 then
            s.storeStaged (s.devAddr ap.mkey (ap.off + off % 2 ^ 24)) (b.length + 1) b
          else (s.count .mmuKeyFail).winDrop
      else if s.bar0Size < ap.off + off % 2 ^ 24 + (if wr then b.length else n) then s.winDrop
      else if wr then s.barWrite ap.func (ap.off + off % 2 ^ 24) b
      else if s.funcEnabled ap.func && (s.epFunc ap.func).mse then s.emit (.winRead (s.barRead ap.func (ap.off + off % 2 ^ 24) n))
      else s.unsupported 1 :=
  (peerTlp_on hap hon).trans (if_neg (by rw [hreq]; decide))

variable {x : Nat} (hx : x = ap.off + off % 2 ^ 24) (hreq : (ap.en && ap.reqId == rid) = true)
include hreq

theorem peerTlp_dataRead (n : Nat) (b : Bytes) (hdata : ap.data = true) : s.peerTlp off rid false n b = s.winDrop :=
  (peerTlp_admitted hap hon false n b hreq).trans ((if_pos hdata).trans (if_pos rfl))

include hx

theorem peerTlp_dataWrite (n : Nat) (b : Bytes) (hdata : ap.data = true) : s.peerTlp off rid true n b =
    if s.keyOk ap.mkey true x b.length && (s.keyAt (keyIndex ap.mkey)).kind == 3
        && bitOf (s.keyAt (keyIndex ap.mkey)).access 2 then s.storeStaged (s.devAddr ap.mkey x) (b.length + 1) b
      else (s.count .mmuKeyFail).winDrop := by
  subst hx
  exact (peerTlp_admitted hap hon true n b hreq).trans ((if_pos hdata).trans (if_neg Bool.false_ne_true))

theorem peerTlp_doorBeyond (wr : Bool) (n : Nat) (b : Bytes) (hdoor : ap.data = false)
    (hpast : s.bar0Size < x + (if wr then b.length else n)) : s.peerTlp off rid wr n b = s.winDrop := by
  subst hx
  exact (peerTlp_admitted hap hon wr n b hreq).trans ((if_neg (by rw [hdoor]; decide)).trans (if_pos hpast))

theorem peerTlp_doorWrite (n : Nat) (b : Bytes) (hdoor : ap.data = false) (hin : x + b.length ≤ s.bar0Size) :
    s.peerTlp off rid true n b = s.barWrite ap.func x b := by
  subst hx
  exact (peerTlp_admitted hap hon true n b hreq).trans
    ((if_neg (by rw [hdoor]; decide)).trans ((if_neg (Nat.not_lt.mpr hin)).trans (if_pos rfl)))

theorem peerTlp_doorRead (n : Nat) (b : Bytes) (hdoor : ap.data = false) (hin : x + n ≤ s.bar0Size) :
    s.peerTlp off rid false n b = if s.funcEnabled ap.func && (s.epFunc ap.func).mse then
      s.emit (.winRead (s.barRead ap.func x n)) else s.unsupported 1 := by
  subst hx
  exact (peerTlp_admitted hap hon false n b hreq).trans
    ((if_neg (by rw [hdoor]; decide)).trans ((if_neg (Nat.not_lt.mpr hin)).trans (if_neg Bool.false_ne_true)))

end

/-! ### The commit of the apertures -/

/-- The commit takes effect only where island 88 reads ON in a variant with an endpoint (R37, R325). -/
theorem epfWinCommit_eq (s : State) : s.whenOn 88 (fun s => if Config.endpoint s.variant then s.winCommit else s)
    = if s.readsOn 88 && Config.endpoint s.variant then s.winCommit else s := by
  cases hon : s.readsOn 88
  · exact whenOn_off hon _
  · exact whenOn_on hon _

theorem winCommit_invalid {s : State}
    (hok : ((List.range 64).all fun a => (s.staged a).off % 4096 == 0 && ((s.staged a).data || s.funcEnabled (s.staged a).func)) = false) :
    s.winCommit = s.setField .epfWinCtl 29 29 1 :=
  if_pos (by rw [hok]; rfl)

theorem winCommit_valid {s u : State}
    (hok : ((List.range 64).all fun a => (s.staged a).off % 4096 == 0 && ((s.staged a).data || s.funcEnabled (s.staged a).func)) = true)
    (hu : u = { s with epf := { s.epf with force := (List.range 64).foldl (fun t a => tblPut {} t a (s.staged a)) ([] : Tbl Aperture) } }) :
    s.winCommit = (u.setField .epfWinCtl 29 29 0).setField .epfWinCtl 15 0 (u.field .epfWinCtl 15 0 + 1) := by
  subst hu
  exact if_neg (by rw [hok]; decide)

/-! ### A function's own requests -/

/-- Through a function that is not enabled, or over a link that is down, none is heard (R724). -/
theorem funcRequests_deaf {s : State} {f : Nat} (p : MsixPermit) (mse : Bool) (hdeaf : (s.epf.linkUp && s.funcEnabled f) = false) :
    ∀ i ∈ [Instr.msixUnmask f p, .busMasterDisable f mse, .d3hotEntry f, .functionLevelReset f, .masterLostRead f],
      exec i s = .next s := by
  have hout : (!(s.epf.linkUp && s.funcEnabled f)) = true := by rw [hdeaf]; rfl
  simp only [List.forall_mem_cons]
  exact ⟨congrArg Host.Outcome.next (if_pos hout), congrArg Host.Outcome.next (if_pos hout),
    congrArg Host.Outcome.next (if_pos (by rw [hout]; rfl)), congrArg Host.Outcome.next (if_pos hout),
    congrArg Host.Outcome.next (if_neg (by rw [hdeaf]; decide)), fun _ h => absurd h List.not_mem_nil⟩

section
variable {s : State} {f : Nat} (hlive : (s.epf.linkUp && s.funcEnabled f) = true)
include hlive

theorem msixUnmask_vector {v : Nat} (hv : v < 2048) : s.msixUnmask f (.vector v)
    = (s.setFunc f { s.epFunc f with unmasked := tblIns (s.epFunc f).unmasked v () }).sendPending f (· == v) :=
  (if_neg (by rw [hlive]; decide)).trans (if_pos hv)

theorem msixUnmask_noVector {v : Nat} (hv : 2048 ≤ v) : s.msixUnmask f (.vector v) = s :=
  (if_neg (by rw [hlive]; decide)).trans (if_neg (Nat.not_lt.mpr hv))

theorem msixUnmask_control : s.msixUnmask f .control
    = (s.setFunc f { s.epFunc f with msixEn := true, fmask := false }).sendPending f fun _ => true :=
  if_neg (by rw [hlive]; decide)

theorem msixUnmask_command (mse : Bool) : s.msixUnmask f (.command mse)
    = (s.setFunc f { s.epFunc f with bme := true, mse }).sendPending f fun _ => true :=
  if_neg (by rw [hlive]; decide)

theorem bmeOff_eq (mse : Bool) : s.bmeOff f mse = if (s.epFunc f).bme then
    (s.setFunc f { s.epFunc f with bme := false, mse }).withdraw f else s.setFunc f { s.epFunc f with bme := false, mse } :=
  if_neg (by rw [hlive]; decide)

theorem d3hot_eq : s.d3hot f = if (s.epFunc f).d3hot then s else (s.setFunc f { s.epFunc f with d3hot := true }).withdraw f := by
  unfold State.d3hot
  rw [hlive, Bool.not_true, Bool.false_or]

theorem flr_virtual (hf : f ≠ 0) : s.flr f = s.resetFuncs f (f + 1) :=
  (if_neg (by rw [hlive]; decide)).trans (if_neg hf)

theorem flr_physical {u : State} (hf : f = 0) (hu : u = s.resetFuncs 0 (s.epf.numVfs + 1)) :
    s.flr f = { u with epf := { u.epf with numVfs := 0, force := [] } } := by
  subst hu
  exact (if_neg (by rw [hlive]; decide)).trans (if_pos hf)

/-- The word answered is the one before MASTER_LOST is cleared (R340). -/
theorem masterLostRead_eq : s.masterLostRead f
    = (s.setFunc f { s.epFunc f with masterLost := false }).emit (.winRead (toLe (s.vsec f) 4)) :=
  if_pos hlive

end

/-! ### Virtual functions and the link -/

theorem vfDisable_lowers {s u : State} {n : Nat} (hless : (s.epf.linkUp && decide (n < s.epf.numVfs)) = true)
    (hu : u = s.resetFuncs (n + 1) (s.epf.numVfs + 1)) : s.vfDisable n = { u with epf := { u.epf with numVfs := n } } := by
  subst hu
  exact if_pos hless

theorem vfDisable_ignored {s : State} {n : Nat} (hnot : (s.epf.linkUp && decide (n < s.epf.numVfs)) = false) : s.vfDisable n = s :=
  if_neg (by rw [hnot]; decide)

theorem vfEnable_presents {s : State} {n : Nat}
    (hmore : (s.epf.linkUp && Config.endpoint s.variant && decide (s.epf.numVfs < n ∧ n ≤ 63)) = true) :
    s.vfEnable n = ({ s with epf := { s.epf with numVfs := n } } : State).presentFuncs (s.epf.numVfs + 1) (n + 1) :=
  if_pos hmore

theorem vfEnable_ignored {s : State} {n : Nat}
    (hnot : (s.epf.linkUp && Config.endpoint s.variant && decide (s.epf.numVfs < n ∧ n ≤ 63)) = false) : s.vfEnable n = s :=
  if_neg (by rw [hnot]; decide)

theorem epLinkUp_eq {s : State} {sp w : Nat} {fl ok : Bool} (hok : ok = (Config.endpoint s.variant && s.bit .epfLink 0 && !s.epf.perst
      && !s.epf.linkUp && ((List.range w).all fun i => s.isOn (88 + i)) && decide (1 ≤ sp ∧ sp ≤ 6)
      && (w == 1 || w == 2 || w == 4 || w == 8) && (fl || decide (sp < 6)))) : s.epLinkUp sp w fl = if ok then
    ({ s with epf := { s.epf with linkUp := true, speed := sp, width := w, flit := fl } } : State).presentFuncs 0 (s.epf.numVfs + 1)
      else s := by
  subst hok
  rfl

theorem epLinkDown_down {s : State} (hdown : s.epf.linkUp = false) : s.epLinkDown = s :=
  if_pos (by rw [hdown]; rfl)

theorem epLinkDown_up {s v : State} (hup : s.epf.linkUp = true) (hv : v = s.resetFuncs 0 (s.epf.numVfs + 1)) :
    s.epLinkDown = (({ v with epf := { v.epf with linkUp := false, speed := 0, width := 0, flit := false, numVfs := 0 } } : State).setField
      .epfLink 23 23 1).event .epf := by
  subst hv
  exact if_neg (by rw [hup]; decide)

/-- The loss of the link and EP_PERST_N asserted end in the same loss, the second with its input noted (R332, R342). -/
theorem linkLoss_exec {s u : State} {i : Instr}
    (hi : i = .endpointLinkLoss ∧ u = s ∨ i = .epPerstAssert ∧ u = { s with epf := { s.epf with perst := true } }) :
    exec i s = .next u.epLinkDown := by
  rcases hi with ⟨rfl, rfl⟩ | ⟨rfl, rfl⟩ <;> rfl

/-! ### Completions and tags -/

theorem dmaCompletion_deaf {s : State} (tag : Nat) (b : Bytes) (hdown : s.epf.linkUp = false) : s.dmaCompletion tag b = s :=
  if_pos (by rw [hdown]; rfl)

theorem dmaCompletion_late {s : State} {tag : Nat} (b : Bytes) (hup : s.epf.linkUp = true)
    (hheld : ∀ t, tblFind s.epf.tags tag = some t → t.held.isSome = true) : s.dmaCompletion tag b = s.count .epfLateCpl := by
  unfold State.dmaCompletion
  rw [if_neg (by rw [hup]; decide)]
  cases htag : tblFind s.epf.tags tag with
  | none => rfl
  | some t => exact if_pos (hheld t htag)

section
variable {s : State} {tag : Nat} {t : EpTag} {b got : Bytes} (hup : s.epf.linkUp = true)
  (htag : tblFind s.epf.tags tag = some t) (hheld : t.held = none) (hgot : got = (t.got ++ b).take t.len)
include hup htag hheld hgot

theorem dmaCompletion_part (hpart : got.length < t.len) :
    s.dmaCompletion tag b = { s with epf := { s.epf with tags := tblIns s.epf.tags tag { t with got } } } := by
  subst hgot
  unfold State.dmaCompletion
  rw [if_neg (by rw [hup]; decide), htag]
  exact (if_neg (by rw [hheld]; decide)).trans (if_pos hpart)

/-- The last bytes free the tag and go to what the read was for, and the requests waiting for a tag go on (R334). -/
theorem dmaCompletion_whole {u w : State} (hwhole : t.len ≤ got.length)
    (hu : u = { s with epf := { s.epf with tags := tblDel s.epf.tags tag } })
    (hfetch : ∀ q off, t.who = .fetch q off →
      w = u.updQp q fun x => if x.fetch.isSome then { x with fetchSegs := tblIns x.fetchSegs off got } else x)
    (hpull : ∀ q off, t.who = .pull q off → w = u.pullArrive q off got)
    (hdesc : ∀ q off, t.who = .desc q off → w = u.descArrive q off got) (hgone : t.who = .gone → w = u) :
    s.dmaCompletion tag b = (w.epPump w.epf.waiting.length).flow := by
  subst hgot hu
  unfold State.dmaCompletion
  rw [if_neg (by rw [hup]; decide), htag]
  refine (if_neg (by rw [hheld]; decide)).trans ((if_neg (Nat.not_lt.mpr hwhole)).trans ?_)
  cases hwho : t.who with
  | fetch q off => rw [hfetch q off hwho]
  | pull q off => rw [hpull q off hwho]
  | desc q off => rw [hdesc q off hwho]
  | gone => rw [hgone hwho]

end

theorem cplTimeout_ended {s : State} {tag : Nat} (hheld : ∀ t, tblFind s.epf.tags tag = some t → t.held.isSome = true) :
    s.cplTimeout tag = s := by
  unfold State.cplTimeout
  cases htag : tblFind s.epf.tags tag with
  | none => rfl
  | some t => exact if_pos (hheld t htag)

/-- A read without its completion for 50 ms frees its tag, and what it was for fails (R335). -/
theorem cplTimeout_outstanding {s a u w : State} {tag : Nat} {t : EpTag} (htag : tblFind s.epf.tags tag = some t)
    (hheld : t.held = none) (ha : a = s.advanceTo (t.at_ + 50 * msec))
    (hu : u = (({ a with epf := { a.epf with tags := tblDel a.epf.tags tag } } : State).count .epfCto).emit (.aerTimeout t.func))
    (hfetch : ∀ q off, t.who = .fetch q off → w = u.qpError q)
    (hpull : ∀ q off c, t.who = .pull q off → u.cmd q = some c → w = (u.updCmd q fun c => { c with cut := c.past }).qpError c.qp)
    (hended : ∀ q off, t.who = .pull q off → u.cmd q = none → w = u) (hdesc : ∀ q off, t.who = .desc q off → w = u.descFail q 5)
    (hgone : t.who = .gone → w = u) : s.cplTimeout tag = (w.epPump w.epf.waiting.length).flow := by
  subst ha
  unfold State.cplTimeout
  rw [htag]
  refine (if_neg (by rw [hheld]; decide)).trans ?_
  dsimp only
  rw [← hu]
  cases hwho : t.who with
  | fetch q off => rw [hfetch q off hwho]
  | pull q off =>
    dsimp only
    cases hcmd : u.cmd q with
    | none => rw [hended q off hwho hcmd]
    | some c => rw [hpull q off c hwho hcmd]
  | desc q off => rw [hdesc q off hwho]
  | gone => rw [hgone hwho]

/-- The tags that `p` picks stay in use, and the requests waiting for a tag take those now free. -/
def State.keepTags (s : State) (p : Nat × EpTag → Bool) : State :=
  ({ s with epf := { s.epf with tags := s.epf.tags.filter p } } : State).epPump s.epf.waiting.length

section
variable {s : State} {f : Nat} {due : List Nat} (hdue : due = s.epf.tags.filterMap (fun t => if t.2.func = f then t.2.held else none))
include hdue

theorem tagRelease_none (hnil : due = []) : s.tagRelease f = s := by
  unfold State.tagRelease
  rw [← hdue, hnil]
  rfl

/-- The earliest end of the function's held tags comes, and every tag due by then is free (R334). -/
theorem tagRelease_earliest {t : Nat} {a u : State} (hmin : due.min? = some t) (ha : a = s.advanceTo t)
    (hu : u = { a with epf := { a.epf with
      tags := a.epf.tags.filter fun e => !(e.2.func == f && e.2.held.any fun x => decide (x ≤ t)) } }) :
    s.tagRelease f = u.epPump u.epf.waiting.length := by
  subst ha hu
  unfold State.tagRelease
  rw [← hdue]
  dsimp only
  rw [hmin]
  refine congrArg (s.advanceTo t).keepTags (funext fun e => ?_)
  cases e.2.held <;> rfl

end

/-! ### The obligation -/

/-- Settles O33: each event is taken apart at its checks, in the order in which the model makes them (a WRITE past its issue
point whose data can no longer be read is cut, log entry 90; a timer's event moves the clock, log entry 2). -/
theorem endpointEventsDoTheirEffect : Obligations.EndpointEventsDoTheirEffect := by
  refine ⟨fun s off rid n b wr ap x hap hx en hen => ⟨fun hoff => ?_, fun hon hreq => ?_, fun hon hreq =>
      ⟨fun hdata => ?_, fun hdata k ok hk hok => ⟨fun hgood => ?_, fun hbad => ?_⟩, fun hdoor hpast => ?_, fun hdoor hin => ?_,
        fun hdoor hin => ⟨fun hmem => ?_, fun hmem => ?_⟩⟩⟩,
    fun s hoff => ?_, fun s hon ok hok => ⟨fun hbad => ?_, fun hgood u hu => ?_⟩,
    fun s f v p mse x hx => ⟨fun hdeaf => funcRequests_deaf p mse hdeaf, fun hlive => ⟨fun hv => ?_, fun hv => ?_, ?_, ?_,
      fun hbme => ?_, fun hbme => ?_, fun hd3 => ?_, fun hd3 => ?_, fun hf => ?_, fun u hf hu => ?_, ?_⟩⟩,
    fun s n => ⟨fun hless u hu => ?_, fun hnot => ?_, fun hmore => ?_, fun hnot => ?_⟩,
    fun s sp w fl ok hok => ⟨fun hgood => ?_, fun hbad => ?_⟩,
    fun s u i hi => ⟨fun hdown => ?_, fun hup v hv => ?_⟩, fun s => rfl,
    fun s tag b => ⟨fun hdown => ?_, fun hup hheld => ?_, fun t got hup htag hheld hgot => ⟨fun hpart => ?_,
      fun hwhole u w hu hfetch hpull hdesc hgone => ?_⟩⟩,
    fun s tag => ⟨fun hheld => ?_, fun t a u w htag hheld ha hu hfetch hpull hended hdesc hgone => ?_⟩,
    fun s f due hdue => ⟨fun hnil => ?_, fun t a u hmin ha hu => ?_⟩⟩
  · exact congrArg Host.Outcome.next (peerTlp_deaf rid n b wr (hen.symm.trans hoff))
  · exact congrArg Host.Outcome.next (peerTlp_stranger hap (hen.symm.trans hon) wr n b hreq)
  · exact congrArg Host.Outcome.next (peerTlp_dataRead hap (hen.symm.trans hon) hreq n b hdata)
  · subst hk hok
    exact congrArg Host.Outcome.next ((peerTlp_dataWrite hap (hen.symm.trans hon) hx hreq n b hdata).trans (if_pos hgood))
  · subst hk hok
    exact congrArg Host.Outcome.next ((peerTlp_dataWrite hap (hen.symm.trans hon) hx hreq n b hdata).trans (if_neg (by rw [hbad]; decide)))
  · exact congrArg Host.Outcome.next (peerTlp_doorBeyond hap (hen.symm.trans hon) hx hreq wr n b hdoor hpast)
  · exact congrArg Host.Outcome.next (peerTlp_doorWrite hap (hen.symm.trans hon) hx hreq n b hdoor hin)
  · exact congrArg Host.Outcome.next ((peerTlp_doorRead hap (hen.symm.trans hon) hx hreq n b hdoor hin).trans (if_pos hmem))
  · exact congrArg Host.Outcome.next ((peerTlp_doorRead hap (hen.symm.trans hon) hx hreq n b hdoor hin).trans (if_neg (by rw [hmem]; decide)))
  · exact congrArg Host.Outcome.next ((epfWinCommit_eq s).trans (if_neg (by rw [hoff]; decide)))
  · exact congrArg Host.Outcome.next ((epfWinCommit_eq s).trans ((if_pos hon).trans (winCommit_invalid (hok.symm.trans hbad))))
  · exact congrArg Host.Outcome.next ((epfWinCommit_eq s).trans ((if_pos hon).trans (winCommit_valid (hok.symm.trans hgood) hu)))
  · subst hx
    exact congrArg Host.Outcome.next (msixUnmask_vector hlive hv)
  · exact congrArg Host.Outcome.next (msixUnmask_noVector hlive hv)
  · subst hx
    exact congrArg Host.Outcome.next (msixUnmask_control hlive)
  · subst hx
    exact congrArg Host.Outcome.next (msixUnmask_command hlive mse)
  · subst hx
    exact congrArg Host.Outcome.next ((bmeOff_eq hlive mse).trans (if_pos hbme))
  · subst hx
    exact congrArg Host.Outcome.next ((bmeOff_eq hlive mse).trans (if_neg (by rw [hbme]; decide)))
  · subst hx
    exact congrArg Host.Outcome.next ((d3hot_eq hlive).trans (if_neg (by rw [hd3]; decide)))
  · subst hx
    exact congrArg Host.Outcome.next ((d3hot_eq hlive).trans (if_pos hd3))
  · exact congrArg Host.Outcome.next (flr_virtual hlive hf)
  · exact congrArg Host.Outcome.next (flr_physical hlive hf hu)
  · subst hx
    exact congrArg Host.Outcome.next (masterLostRead_eq hlive)
  · exact congrArg Host.Outcome.next (vfDisable_lowers hless hu)
  · exact congrArg Host.Outcome.next (vfDisable_ignored hnot)
  · exact congrArg Host.Outcome.next (vfEnable_presents hmore)
  · exact congrArg Host.Outcome.next (vfEnable_ignored hnot)
  · exact congrArg Host.Outcome.next ((epLinkUp_eq hok).trans (if_pos hgood))
  · exact congrArg Host.Outcome.next ((epLinkUp_eq hok).trans (if_neg (by rw [hbad]; decide)))
  · exact (linkLoss_exec hi).trans (congrArg Host.Outcome.next (epLinkDown_down hdown))
  · exact (linkLoss_exec hi).trans (congrArg Host.Outcome.next (epLinkDown_up hup hv))
  · exact congrArg Host.Outcome.next (dmaCompletion_deaf tag b hdown)
  · exact congrArg Host.Outcome.next (dmaCompletion_late b hup hheld)
  · exact congrArg Host.Outcome.next (dmaCompletion_part hup htag hheld hgot hpart)
  · exact congrArg Host.Outcome.next (dmaCompletion_whole hup htag hheld hgot hwhole hu hfetch hpull hdesc hgone)
  · exact congrArg Host.Outcome.next (cplTimeout_ended hheld)
  · exact congrArg Host.Outcome.next (cplTimeout_outstanding htag hheld ha hu hfetch hpull hended hdesc hgone)
  · exact congrArg Host.Outcome.next (tagRelease_none hdue hnil)
  · exact congrArg Host.Outcome.next (tagRelease_earliest hdue hmin ha hu)

end Sys2Proof.Machine
end

section
/-! PROOFS. Scope: the ends of descriptors and accelerator requests, the request bus (R361 to R364), erasure work that
waits (R168), TLB invalidation (R513, R514) and the sample buffer (R456, R459). -/

namespace Sys2Proof.Machine

/-! ### The end of a descriptor -/

/-- A descriptor whose streams live moves its chunks, gives its keys back, writes DONE and STATUS and is gone. With a
STATUS that is neither 4 nor 5 no command ends with it. -/
theorem descriptorEnd_done {s m w : State} {id start : Nat} {d : Desc} (hdesc : tblFind s.fct.descs id = some d)
    (hlives : s.streamGone d = false) (hthere : s.fromFace d = false ∨ d.failed = true ∨ d.chunks = [])
    (hmaster : d.status ≠ 4) (hface : d.status ≠ 5)
    (hstart : start = (match d.chunks with | c :: _ => c.off | [] => d.done))
    (hm : m = d.keys.foldl (fun s k => s.dropKey k) (d.chunks.foldl (fun s c => s.moveChunk id d start c) s))
    (hw : w = (({ m with fct := { m.fct with descs := tblDel m.fct.descs id } } : State).store (d.pa + 8)
      (toLe d.done 8)).store (d.pa + 2) (toLe d.status 1)) :
    exec (.descriptorEnd id) s = .next (((if d.status = 2 then
        (w.count .mmuDmaFault).updThr d.engine d.thread fun x => { x with faults := x.faults ++ [BitVec.ofNat 64 (d.va + d.fault)] }
      else w.latch d.engine d.thread 1).haltCheck d.engine d.thread).flow) := by
  have hcmd : (if d.status = 4 ∨ d.status = 5 then s.descCmd d else none) = none := if_neg (not_or.mpr ⟨hmaster, hface⟩)
  subst hstart hm hw
  have hend := descEnd_eq hdesc hlives hthere
  rw [hcmd] at hend
  exact hend

/-! ### The request bus -/

theorem accBusArbitration_on {s : State} {c : Nat} (hon : s.isOn (144 + c) = true) (hc : c < 4) :
    exec (.accBusArbitration c) s = .next (s.accArbitrate c) :=
  congrArg Host.Outcome.next (if_pos (by simp [hon, hc]))

/-- The first engine of the order is granted (R363, R364). -/
theorem accArbitrate_grants {s u : State} {c i : Nat} {rest : List Nat} {a : AccReq} {alone : Bool} {k : Cluster}
    (horder : s.grantOrder c = i :: rest) (hasks : (s.clu c).presented (12 * c + i) = some a)
    (halone : alone = (rest.isEmpty && (s.clu c).park == some i))
    (hk : k = (if alone then s.clu c
      else if a.c0 then { s.clu c with ptr0 := (i + 1) % Config.enginesPerCluster s.variant }
      else { s.clu c with ptr := (i + 1) % Config.enginesPerCluster s.variant }))
    (hu : u = (s.setClu c { k with park := some i, acc := updFirst (· == a) (fun _ => { a with granted := true }) k.acc }).pmc
      a.engine a.thread 0x0C (2 * (s.now - a.since))) :
    s.accArbitrate c = if a.func ≠ 0x10 then u
      else if (u.pickSlice a.c0).isNone then u.count .parCtxWait
      else u.ecAssign c { a with granted := true } := by
  subst halone hk hu
  unfold State.accArbitrate
  rw [horder]
  dsimp only
  rw [hasks]
  rfl

/-! ### The result of a request -/

theorem execAccResult_on {s : State} {e : Nat} (t : Nat) (hon : s.isOn (144 + e / 12) = true) :
    exec (.accResult e t) s = .next (s.accResult e t) :=
  congrArg Host.Outcome.next (if_pos hon)

/-- A granted request of a front-end function ends with status word 1 and its value (R489, R490). -/
theorem accResult_frontEnd {s w : State} {e t : Nat} {a : AccReq}
    (hfirst : ((s.clu (e / 12)).acc.find? fun a => a.engine == e && a.thread == t && a.granted
      && (a.func != 0x10 || a.slice.isSome)) = some a)
    (hfunc : a.func ≠ 0x10)
    (hw : w = s.storePieces a.res (toLe 1 8 ++ accValue a.req (a.src.flatMap fun p => s.mem.readN p.1 p.2))) :
    s.accResult e t = ((((w.setClu (e / 12) { w.clu (e / 12) with
      acc := rmFirst (· == a) (w.clu (e / 12)).acc }).freeSlice a.slice).latch e t 2).haltCheck e t).flow := by
  subst hw
  unfold State.accResult
  dsimp only
  rw [hfirst]
  dsimp only
  rw [if_neg hfunc]

/-! ### Erasure work that waits for a slice -/

theorem sliceAssign_stripe {s u : State} (h : s.assignStripe = some u) : s.sliceAssign = u := by
  unfold State.sliceAssign
  rw [h]

/-- Where no stripe goes on, the first erasure-code request that has been granted and finds a slice takes it. -/
theorem sliceAssign_request {s : State} {c : Nat} {a : AccReq} (hstripe : s.assignStripe = none)
    (hwaits : ((List.range 4).findSome? fun c => ((s.clu c).acc.find? fun a => a.func == 0x10
      && a.granted && a.slice.isNone && (s.pickSlice a.c0).isSome).map fun a => (c, a)) = some (c, a)) :
    s.sliceAssign = s.ecAssign c a := by
  unfold State.sliceAssign
  rw [hstripe]
  dsimp only
  rw [hwaits]

/-! ### Invalidation -/

/-- The state in which the entries that `v` covers in the clusters it names are dropped, and `left` waits. -/
def State.dropCovered (s : State) (v : Invalidation) (left : List Invalidation) : State :=
  { s with fct := { s.fct with
      invals := left
      engines := s.fct.engines.map fun x => if bitOf v.clusters (x.1 / 12)
        then (x.1, { x.2 with tlb := x.2.tlb.filter fun y => !v.covers y }) else x
      clusters := (s.fct.clusters.map fun x => if bitOf v.clusters x.1
        then (x.1, { x.2 with tlb := x.2.tlb.filter fun y => !v.covers y }) else x).filter fun x => x.2 != {} } }

/-- The oldest request drops what it covers; SEQ counts it and those behind it that name no cluster (R514). -/
theorem invalDone_oldest {s : State} {v : Invalidation} {rest : List Invalidation} {more : Nat}
    (hqueue : s.fct.invals = v :: rest) (hmore : more = (rest.takeWhile fun y => y.clusters == 0).length) :
    s.invalDone = (s.dropCovered v (rest.drop more)).setField .mmuInvCtl 15 0 (s.field .mmuInvCtl 15 0 + 1 + more) := by
  subst hmore
  unfold State.invalDone
  rw [hqueue]
  rfl

theorem mmuInvalidate_on {s : State} (w : Word) (hon : s.readsOn 144 = true) :
    exec (.mmuInvalidate w) s = .next (s.mmuInvCtl w.toNat) :=
  congrArg Host.Outcome.next (whenOn_on hon _)

/-- The request that a GO asks for: SCOPE and CLUSTERS as written, the ASID and address as their registers stand. -/
def State.invalAsked (s : State) (w : Nat) : Invalidation :=
  { scope := bitsOf w 29 28, clusters := bitsOf w 27 24, asid := s.field .mmuInvAsid 15 0, va := s.field .mmuInvVa 47 12 * 2 ^ 12 }

/-- A write of MMU_INV_CTL once its SCOPE and CLUSTERS are kept (R542). -/
theorem mmuInvCtl_eq {s u : State} {w : Nat}
    (hu : u = (s.setField .mmuInvCtl 29 28 (bitsOf w 29 28)).setField .mmuInvCtl 27 24 (bitsOf w 27 24)) :
    s.mmuInvCtl w = if !bitOf w 31 then u
      else if 8 ≤ u.fct.invals.length then u.setField .mmuInvCtl 30 30 1
      else if bitsOf w 27 24 = 0 ∧ u.fct.invals.isEmpty then u.setField .mmuInvCtl 15 0 (u.field .mmuInvCtl 15 0 + 1)
      else { u with fct := { u.fct with invals := u.fct.invals ++ [u.invalAsked w] } } := by
  subst hu
  rfl

/-! ### The sample buffer -/

theorem pmcSampleEnable_on {s : State} (w : Word) (hon : s.readsOn 144 = true) :
    exec (.pmcSampleEnable w) s = .next (s.smpCtl w.toNat) :=
  congrArg Host.Outcome.next (whenOn_on hon _)

theorem smpCtl_stops {s : State} {w : Nat} (hon : s.bit .pmcSmpCtl 0 = true) (hoff : bitOf w 0 = false) :
    s.smpCtl w = s.setField .pmcSmpCtl 0 0 0 := by
  unfold State.smpCtl
  rw [if_pos hon, if_neg (by simp [hoff])]

/-- ENABLE turns the sampling on where its buffer lies in fitted HBM, and is ignored where it does not (R459). -/
theorem smpCtl_starts {s : State} {w n : Nat} (hoff : s.bit .pmcSmpCtl 0 = false) (hon : bitOf w 0 = true)
    (hn : n = 2 ^ (min 16 (max 8 (bitsOf w 12 8)))) :
    s.smpCtl w = if 0x1000000000 ≤ s.smpBase ∧ s.smpBase + 32 * n ≤ s.hbmEnd then
      ((s.setReg .pmcSmpCtl (bitsOf w 12 8 * 2 ^ 8 + 1)).setReg .pmcSmpProd 0).setReg .pmcSmpCons 0 else s := by
  subst hn
  unfold State.smpCtl
  rw [if_neg (by simp [hoff]), if_neg (by simp [hon])]

/-- Settles O20: each clause is one branch of its row: the chunks move at DESCRIPTOR_END itself (log entry 38; R524 to R527),
the bus grants the first of its order, and MMU_INV_CTL and PMC_SMP_CTL are taken apart at their bits. -/
theorem engineUnitsEndWhatWasIssued : Obligations.EngineUnitsEndWhatWasIssued := by
  refine ⟨fun s id d hdesc hlives hthere hmaster hface start m hstart hm w hw => ?_,
    fun s c i rest a hon hc horder hasks alone k u halone hk hu => ?_, fun s e t a hon hfirst hfunc w hw => ?_,
    fun s => ⟨fun u hstripe => ?_, fun hstripe c a hwaits => ?_⟩, fun s v rest more hqueue hmore => ?_,
    fun s w u hon hu => ?_, fun s w n hon hn => ?_⟩
  · rw [descriptorEnd_done hdesc hlives hthere hmaster hface hstart hm hw]
    exact ⟨fun hother => by rw [if_neg hother], fun hfault => by rw [if_pos hfault]⟩
  · rw [accBusArbitration_on hon hc, accArbitrate_grants horder hasks halone hk hu]
  · rw [execAccResult_on t hon, accResult_frontEnd hfirst hfunc hw]
  · exact congrArg Host.Outcome.next (sliceAssign_stripe hstripe)
  · exact congrArg Host.Outcome.next (sliceAssign_request hstripe hwaits)
  · exact ⟨s.dropCovered v (rest.drop more), congrArg Host.Outcome.next (invalDone_oldest hqueue hmore),
      rfl, rfl, rfl, rfl, rfl, rfl, rfl, rfl⟩
  · rw [mmuInvalidate_on w hon, mmuInvCtl_eq hu]
    refine ⟨fun hgo => ?_, fun hgo hfull => ?_, fun hgo hroom hnamed => ?_⟩
    · rw [if_pos (by rw [hgo]; rfl)]
    · rw [if_neg (by rw [hgo]; decide), if_pos hfull]
    · rw [if_neg (by rw [hgo]; decide), if_neg (Nat.not_le.mpr hroom), if_neg (by rwa [List.isEmpty_iff])]
      rfl
  · rw [pmcSampleEnable_on w hon]
    refine ⟨fun hoff hen hlow hhigh => ?_, fun hoff hen hout => ?_, fun hstands hdis => ?_⟩
    · rw [smpCtl_starts hoff hen hn, if_pos ⟨hlow, hhigh⟩]
    · rw [smpCtl_starts hoff hen hn, if_neg (by omega)]
    · rw [smpCtl_stops hstands hdis]

end Sys2Proof.Machine
end

section
/-! PROOFS. Scope: the crossbar's slot (R347 to R352), the partition capture (R376), the Prism tap (R377), Gnomon's PPS
windows (R642 to R644), and the housekeeping edge (R611). -/

namespace Sys2Proof.Machine

/-! ### The slot and the partition capture -/

theorem xbarSlot_still {s : State} (h : s.cellsMove = false) : s.xbarSlot = (s, [], []) := by
  unfold State.xbarSlot
  exact if_pos (by rw [h]; rfl)

/-- Where no cell can move, a slot is the passing of 4 ns and what follows by itself (R38). -/
theorem crossbarSlot_still {s : State} (h : (s.advance 4).cellsMove = false) : s.crossbarSlot = (s.advance 4).flow := by
  unfold State.crossbarSlot
  rw [xbarSlot_still h]
  rfl

theorem partCapture_present {s u : State} {w p : Nat} (hp : p = bitsOf w 5 0) (hu : u = s.setReg .xbrPartSel p)
    (h : Config.portPresent s.variant p = true) : s.partCapture w = ((u.setReg .xbrPartState
      (2 ^ 31 + 2 ^ 30 + 2 ^ 29 * b2n (decide (0 < (u.part p).waiting)) + (u.part p).floor)).setReg .xbrPartShared
        (u.part p).shared).setReg .xbrPartC0ovf (2 ^ 16 * (u.part p).c0 + (u.part p).ovf) := by
  subst hu hp
  exact if_pos h

theorem partCapture_absent {s u : State} {w p : Nat} (hp : p = bitsOf w 5 0) (hu : u = s.setReg .xbrPartSel p)
    (h : Config.portPresent s.variant p = false) : s.partCapture w =
      ((u.setReg .xbrPartState (2 ^ 31)).setReg .xbrPartShared 0).setReg .xbrPartC0ovf 0 := by
  subst hu hp
  exact if_neg (Bool.eq_false_iff.mp h)

/-! ### The Prism tap -/

theorem prismEnable_on {s : State} (v : Word) (hon : s.readsOn 144 = true) :
    exec (.prismEnable v) s = .next (s.prismCtl v.toNat) :=
  congrArg Host.Outcome.next (if_pos hon)

theorem prismEnable_off {s : State} (v : Word) (hoff : s.readsOn 144 = false) : exec (.prismEnable v) s = .next s :=
  congrArg Host.Outcome.next (if_neg (Bool.eq_false_iff.mp hoff))

/-- While the tap is on only a 0 in ENABLE counts (R377). -/
theorem prismCtl_enabled {s : State} (w : Nat) (h : s.bit .prismCtl 0 = true) :
    s.prismCtl w = if bitOf w 0 then s else s.setField .prismCtl 0 0 0 := by
  unfold State.prismCtl
  exact if_pos h

theorem prismCtl_keepsSize {s : State} {w : Nat} (hoff : s.bit .prismCtl 0 = false) (hdis : bitOf w 0 = false) :
    s.prismCtl w = s.setReg .prismCtl (bitsOf w 12 8 * 2 ^ 8) := by
  unfold State.prismCtl
  rw [if_neg (Bool.eq_false_iff.mp hoff), if_pos (by rw [hdis]; rfl)]

/-- ENABLE takes a ring that lies in fitted HBM, and is ignored with one that does not (R377). -/
theorem prismCtl_enables {s : State} {w n : Nat} (hoff : s.bit .prismCtl 0 = false) (hen : bitOf w 0 = true)
    (hn : n = 2 ^ (min 16 (max 8 (bitsOf w 12 8)))) :
    s.prismCtl w = if 0x1000000000 ≤ s.prismBase ∧ s.prismBase + 256 * n ≤ s.hbmEnd then
      ((s.setReg .prismCtl (bitsOf w 12 8 * 2 ^ 8 + 1)).setReg .prismProd 0).setReg .prismCons 0 else s := by
  subst hn
  unfold State.prismCtl
  rw [if_neg (Bool.eq_false_iff.mp hoff), if_neg (by rw [hen]; decide)]

/-! ### Gnomon -/

/-- With island 164 not ON the four rows change nothing. -/
theorem gnomonRows_off {s : State} (h : s.isOn 164 = false) : exec .ppsEdge s = .next s ∧ exec .ppsWindowClose s = .next s
    ∧ exec .rateSecond s = .next s ∧ exec .ppsDisable s = .next s := by
  have hedge : s.ppsEdge = s := if_pos (by rw [h]; rfl)
  have hclose : s.ppsWindowClose = s := if_neg (by rw [h, Bool.false_and]; decide)
  have hsecond : s.rateSecond = s := if_neg (by rw [h, Bool.false_and]; decide)
  have hdisable : (if s.isOn 164 then s.ppsDisable else s) = s := if_neg (by rw [h]; decide)
  exact ⟨congrArg Host.Outcome.next hedge, congrArg Host.Outcome.next hclose, congrArg Host.Outcome.next hsecond,
    congrArg Host.Outcome.next hdisable⟩

theorem ppsEdge_disabled {s : State} (h : s.bit .gnmCtl 0 = false) : s.ppsEdge = s := by
  unfold State.ppsEdge
  exact if_pos (by rw [h, Bool.and_false]; rfl)

theorem inWindow_iff (n k : Nat) : inWindow n k = true ↔ k * 24997500 ≤ n ∧ n ≤ k * 25002500 := decide_eq_true_iff

/-- The windows are taken in order (R643). -/
theorem firstWindow_some {n k : Nat} (hk : k = 1 ∨ k = 2 ∨ k = 3) (hin : inWindow n k = true)
    (hearlier : ∀ j, 1 ≤ j → j < k → ¬ inWindow n j = true) : [1, 2, 3].find? (inWindow n) = some k := by
  rcases hk with rfl | rfl | rfl
  · simp [hin]
  · simp [hin, hearlier 1]
  · simp [hin, hearlier 1, hearlier 2]

theorem firstWindow_none {n : Nat} (h1 : ¬ inWindow n 1 = true) (h2 : ¬ inWindow n 2 = true) (h3 : ¬ inWindow n 3 = true) :
    [1, 2, 3].find? (inWindow n) = none := by
  simp [h1, h2, h3]

section
variable {s : State} (hon : s.isOn 164 = true) (hen : s.bit .gnmCtl 0 = true)
include hon hen

/-- In FREE and HOLDOVER a qualified edge becomes the candidate (R643). -/
theorem ppsEdge_candidate (h : s.gnm.state = .free ∨ s.gnm.state = .holdover) : s.ppsEdge = s.candidate := by
  unfold State.ppsEdge
  rw [if_neg (by rw [hon, hen]; decide)]
  rcases h with h | h <;> rw [h]

theorem ppsEdge_acquire (h : s.gnm.state = .acquire) : s.ppsEdge =
    if inWindow s.periods 1 then (s.align 1).gnmTo .locked else (s.count .gnmPpsBad).candidate := by
  unfold State.ppsEdge
  rw [if_neg (by rw [hon, hen]; decide), h]

theorem ppsEdge_inWindow {k : Nat} (h : s.gnm.state = .locked) (hk : [1, 2, 3].find? (inWindow s.periods) = some k) :
    s.ppsEdge = s.align k := by
  unfold State.ppsEdge
  rw [if_neg (by rw [hon, hen]; decide), h]
  dsimp only
  rw [hk]

theorem ppsEdge_outside (h : s.gnm.state = .locked) (hk : [1, 2, 3].find? (inWindow s.periods) = none) :
    s.ppsEdge = (s.count .gnmPpsBad).raise 25 := by
  unfold State.ppsEdge
  rw [if_neg (by rw [hon, hen]; decide), h]
  dsimp only
  rw [hk]

end

theorem ppsWindowClose_unlocked {s : State} (h : s.gnm.state ≠ .locked) : s.ppsWindowClose = s := by
  unfold State.ppsWindowClose
  exact if_neg (by simp [h])

/-- In LOCKED the next window ends at its close; the third miss enters HOLDOVER (R643). -/
theorem ppsWindowClose_locked {s u : State} {k : Nat} (hon : s.isOn 164 = true) (h : s.gnm.state = .locked)
    (hk : k = s.gnm.missed + 1)
    (hu : u = (s.advanceTo (s.gnm.edgeAt.getD s.now + k * 25002500 * 40)).count .gnmPpsMiss) :
    s.ppsWindowClose = if k = 3 then ({ u with gnm := { u.gnm with missed := k } } : State).gnmTo .holdover
      else { u with gnm := { u.gnm with missed := k } } := by
  subst hu hk
  unfold State.ppsWindowClose
  exact if_pos (by rw [hon, h]; rfl)

theorem rateSecond_waits {s : State} (hon : s.isOn 164 = true) (h : s.gnm.rateNext.isSome = true) :
    s.rateSecond = s.advance (s.gnm.cyclesTo ((s.gnmNs / 1000000000 + 1) * 1000000000 * 2 ^ 32)) := by
  unfold State.rateSecond
  exact if_pos (by rw [hon, h]; rfl)

theorem rateSecond_none {s : State} (h : s.gnm.rateNext.isSome = false) : s.rateSecond = s := by
  unfold State.rateSecond
  exact if_neg (by rw [h, Bool.and_false]; decide)

theorem execPpsDisable_on {s : State} (hon : s.isOn 164 = true) : exec .ppsDisable s = .next s.ppsDisable :=
  congrArg Host.Outcome.next (if_pos hon)

/-- ACQUIRE and LOCKED are left for HOLDOVER with PPS_EN (R643). -/
theorem ppsDisable_eq (s : State) : s.ppsDisable = if s.gnm.state = .acquire ∨ s.gnm.state = .locked
    then (s.setField .gnmCtl 0 0 0).gnmTo .holdover else s.setField .gnmCtl 0 0 0 := by
  unfold State.ppsDisable
  dsimp only
  rw [setField_gnm]

/-- Settles O34: each row is taken apart at its checks, in the order in which the model makes them (a window's end and a
whole second move the clock, log entry 2; the fabric's copy is refreshed at the housekeeping edge alone, log entry 7). -/
theorem crossbarTapAndGnomonDoTheirEffect : Obligations.CrossbarTapAndGnomonDoTheirEffect := by
  refine ⟨fun s => ⟨rfl, fun hstill => congrArg Host.Outcome.next (crossbarSlot_still hstill)⟩,
    fun s v p u hp hu => ⟨fun hoff => ⟨congrArg Host.Outcome.next (whenOn_off hoff _), prismEnable_off v hoff⟩, fun hon => ?_⟩,
    fun s hoff => gnomonRows_off hoff, fun s win hwin hon => ?_,
    fun s => ⟨fun hasleep => congrArg Host.Outcome.next (if_pos hasleep), fun hawake u hu => ?_⟩⟩
  · rw [prismEnable_on v hon]
    refine ⟨fun hport => ?_, fun hport => ?_, fun htap hen => ?_, fun htap hdis => ?_, fun htap hdis => ?_,
      fun htap hen n hn => ⟨fun hfits => ?_, fun hout => ?_⟩⟩
    · exact congrArg Host.Outcome.next ((whenOn_on hon _).trans (partCapture_present hp hu hport))
    · exact congrArg Host.Outcome.next ((whenOn_on hon _).trans (partCapture_absent hp hu hport))
    · rw [prismCtl_enabled _ htap, if_pos hen]
    · rw [prismCtl_enabled _ htap, if_neg (Bool.eq_false_iff.mp hdis)]
    · rw [prismCtl_keepsSize htap hdis]
    · rw [prismCtl_enables htap hen hn, if_pos hfits]
    · rw [prismCtl_enables htap hen hn, if_neg hout]
  · have hin : ∀ k, inWindow s.periods k = true ↔ win k := fun k => (inWindow_iff _ k).trans (hwin k).symm
    simp only [← hin]
    refine ⟨fun hdis => ?_, fun hen => ⟨fun hfree => ?_, fun hacq hone => ?_, fun hacq hnot => ?_,
      fun hlocked k hk hwink hearlier => ?_, fun hlocked h1 h2 h3 => ?_⟩, fun hunlocked => ?_,
      fun hlocked k u hk hu => ⟨fun hthird => ?_, fun hless => ?_⟩, fun hnext => ?_, fun hnone => ?_, fun hsync => ?_, fun hsync => ?_⟩
    · exact congrArg Host.Outcome.next (ppsEdge_disabled hdis)
    · exact congrArg Host.Outcome.next (ppsEdge_candidate hon hen hfree)
    · exact congrArg Host.Outcome.next ((ppsEdge_acquire hon hen hacq).trans (if_pos hone))
    · exact congrArg Host.Outcome.next ((ppsEdge_acquire hon hen hacq).trans (if_neg hnot))
    · exact congrArg Host.Outcome.next (ppsEdge_inWindow hon hen hlocked (firstWindow_some hk hwink hearlier))
    · exact congrArg Host.Outcome.next (ppsEdge_outside hon hen hlocked (firstWindow_none h1 h2 h3))
    · exact congrArg Host.Outcome.next (ppsWindowClose_unlocked hunlocked)
    · exact congrArg Host.Outcome.next ((ppsWindowClose_locked hon hlocked hk hu).trans (if_pos hthird))
    · exact congrArg Host.Outcome.next ((ppsWindowClose_locked hon hlocked hk hu).trans (if_neg hless))
    · exact congrArg Host.Outcome.next (rateSecond_waits hon hnext)
    · exact congrArg Host.Outcome.next (rateSecond_none hnone)
    · rw [execPpsDisable_on hon, ppsDisable_eq, if_pos hsync]
    · rw [execPpsDisable_on hon, ppsDisable_eq, if_neg (by rcases hsync with h | h <;> rw [h] <;> decide)]
  · subst hu
    exact congrArg Host.Outcome.next (if_neg (Bool.eq_false_iff.mp hawake))

end Sys2Proof.Machine
end

section
/-! PROOFS. Scope: REG_KEY and DEREG_KEY on the key table (R515, R516, R521 to R523), LOAD_KEK and LOAD_KEY on the key slots
(R387, R388, R392, R393, R397, R400). -/

namespace Sys2Proof.Machine

/-! ### The key table -/

@[simp] theorem State.putKey_mem (s : State) (i : Nat) (k : KeyEntry) :
    (s.putKey i k).mem = s.mem.writeN (s.keyAddr i) k.bytes := by
  unfold State.putKey State.store
  dsimp only

/-- Entry `i` written, as the next copy carries it (R516, R553). -/
def State.keySet (s : State) (i : Nat) (k : KeyEntry) : State := (s.putKey i k).touch

section
variable (s : State) (i : Nat) (k : KeyEntry)

@[simp] theorem keySet_mem : (s.keySet i k).mem = s.mem.writeN (s.keyAddr i) k.bytes := by simp [State.keySet]

@[simp] theorem keySet_regs : (s.keySet i k).regs = s.regs := by simp [State.keySet]

@[simp] theorem keySet_out : (s.keySet i k).out = s.out := by simp [State.keySet]

@[simp] theorem keySet_fct : (s.keySet i k).fct = s.fct := by simp [State.keySet]

@[simp] theorem keySet_qpe : (s.keySet i k).qpe = s.qpe := by simp [State.keySet]

theorem keySet_still : (s.keySet i k).still = s.still := State.touch_still _ (State.putKey_still s i k rfl)

theorem keySet_markPast (seq : Nat) : ((s.keySet i k).markPast seq).mem = s.mem.writeN (s.keyAddr i) k.bytes
    ∧ ((s.keySet i k).markPast seq).still = s.still ∧ ((s.keySet i k).markPast seq).regs = s.regs
    ∧ ((s.keySet i k).markPast seq).out = s.out ∧ ((s.keySet i k).markPast seq).fct = s.fct :=
  ⟨by simp, State.markPast_still _ seq (keySet_still s i k), by simp, by simp, by simp⟩

end

/-- The entry that REG_KEY makes (R521). -/
def regEntry (e : Bytes) (tag target : Nat) : KeyEntry :=
  { state := 1, kind := byteAt e 8, access := byteAt e 9, tag, tenant := leAt e 20 4 % 2 ^ 20, binding := leAt e 12 4,
    uses := 0, base := leAt e 32 8, length := leAt e 40 8, target, rkey := 0 }

/-- Zeroed memory at `a` taken from the device pool (R522). -/
def State.deviceTaken (s : State) (a len : Nat) : State :=
  { s with mem := s.mem.lose a (a + len), fct := { s.fct with devPool := tblIns s.fct.devPool a len } }

theorem regKey_none {s : State} (c : Cmd) (h : s.pickKey = none) : s.regKey c = s.refuseCmd c.seq 8 := by
  unfold State.regKey
  dsimp only
  rw [h, Option.elim_none]

section
variable {s : State} {c : Cmd} {i : Nat} (hi : s.pickKey = some i)
include hi

/-- A key of host memory takes its target from the entry, a key of a connection has none (R521). -/
theorem regKey_host (h : byteAt c.entry 8 ≠ 3) : s.regKey c =
    (((s.keySet i (regEntry c.entry (max 1 (s.keyAt i).tag) (if byteAt c.entry 8 = 0 then leAt c.entry 48 8 else 0))).markPast
      c.seq).finish c.seq stSuccess (max 1 (s.keyAt i).tag * 2 ^ 24 + i)).flow := by
  unfold State.regKey
  dsimp only
  simp only [hi, if_neg h, Option.elim_some, State.newTag, State.keySet, regEntry]

/-- A device key first takes its memory from the pool (R522). -/
theorem regKey_device {a : Nat} (h : byteAt c.entry 8 = 3) (ha : s.devAlloc (leAt c.entry 40 8) = some a) : s.regKey c =
    ((((s.deviceTaken a (leAt c.entry 40 8)).keySet i (regEntry c.entry (max 1 (s.keyAt i).tag) a)).markPast c.seq).finish
      c.seq stSuccess (max 1 (s.keyAt i).tag * 2 ^ 24 + i)).flow := by
  unfold State.regKey
  dsimp only
  simp only [hi, if_pos h, ha, Option.elim_some, Option.getD_some, State.newTag, State.keySet, regEntry, State.deviceTaken]

end

/-- The key is revoked at once, and the command waits for its last holder (R523). -/
theorem deregKey_eq (s : State) (c : Cmd) : s.deregKey c =
    (((s.keySet (leAt c.entry 24 4 % 2 ^ 20) { s.keyAt (leAt c.entry 24 4 % 2 ^ 20) with state := 2 }).markPast
      c.seq).markWaiting c.seq).settle.flow := by
  simp only [State.deregKey, State.keySet, keyIndex, eMkey]

theorem execRegKey_can {s : State} {q cid : Nat} {c : Cmd} (hcan : s.adminCan q cid 0x44 c) :
    exec (.regKey q cid) s = .next (s.regKey c) :=
  congrArg Host.Outcome.next (adminRun_can hcan _)

theorem execDeregKey_can {s : State} {q cid : Nat} {c : Cmd} (hcan : s.adminCan q cid 0x45 c) :
    exec (.deregKey q cid) s = .next (s.deregKey c) :=
  congrArg Host.Outcome.next (adminRun_can hcan _)

/-! ### KEKs -/

/-- The KEK put at the entry's index, with its configuration record, the whole buffer, waiting (R388, R663; log entry 11). -/
def State.kekPut (s : State) (c : Cmd) (b key : Bytes) : State :=
  ({ s with cph := { s.cph with
      keks := tblIns s.cph.keks (byteAt c.entry 8) key
      kekWrapped := tblIns s.cph.kekWrapped (byteAt c.entry 8) b } } : State).cfgPut 0x04 (byteAt c.entry 8) (some (.kek b))

/-- A shadow that is paired can use one of the two blobs (R392). -/
def State.peerTakes (s : State) (b : Bytes) : Prop :=
  s.paired = false ∨ leAt b 0 8 = s.shd.peerSerial ∨ leAt b 48 8 = s.shd.peerSerial

theorem peerTakes_iff (s : State) (b : Bytes) :
    s.peerTakes b ↔ (!s.paired || leAt b 0 8 == s.shd.peerSerial || leAt b 48 8 == s.shd.peerSerial) = true := by
  simp [State.peerTakes, or_assoc]

theorem loadKek_unwraps {s : State} {b key : Bytes} (c : Cmd) (hpeer : s.peerTakes b) (hkey : kekOf b = some (some key)) :
    s.loadKek c b = (((s.kekPut c b key).touch.markPast c.seq).finish c.seq stSuccess 0).flow := by
  unfold State.loadKek
  rw [hkey, (peerTakes_iff s b).mp hpeer]
  rfl

theorem loadKek_unwrapFails {s : State} {b : Bytes} (c : Cmd) (hpeer : s.peerTakes b) (hkey : kekOf b = some none) :
    s.loadKek c b = (s.count .cphUnwrapFail).refuseCmd c.seq 8 := by
  unfold State.loadKek
  rw [hkey, (peerTakes_iff s b).mp hpeer]
  rfl

theorem execLoadKek_in {s : State} {q cid : Nat} {c : Cmd} {b : Bytes} (hcan : s.adminCan q cid 0x58 c)
    (hin : s.bufferIn c b) : exec (.loadKek q cid) s = .next (s.loadKek c b) :=
  congrArg Host.Outcome.next ((adminRun_can hcan _).trans (withBuffer_in hin _))

/-! ### Key slots -/

/-- The phase that a new key of a volume takes: 0 for the first, else the one that the volume does not use (R400). -/
def State.newPhase (s : State) (vol : Nat) : Nat :=
  if (s.slotOf vol (s.volPhase vol)).isSome then 1 - s.volPhase vol else 0

/-- The key slot that LOAD_KEY fills: its MARK is not yet in force (R393, R397). -/
def State.newSlot (s : State) (c : Cmd) (b key : Bytes) : KeySlot :=
  { volume := eVolume c.entry, phase := s.newPhase (eVolume c.entry), xts := decide (key.length = 64),
    kek := byteAt c.entry 8, key := key, wrapped := b, limit := leAt c.entry 12 4, markNext := some 4194304 }

/-- A rekey switches the volume to the new phase and walks from the old slot to the new one (R400). -/
def State.rekeyBegun (s : State) (vol phase new seq : Nat) : Option (Nat × KeySlot) → State
  | none => s
  | some (o, _) => { s with cph := { s.cph with
      phase := tblPut 0 s.cph.phase vol phase
      walks := tblIns s.cph.walks vol { old := o, new := new, starting := some seq } } }

theorem rekeyBegun_keeps (s : State) (vol phase new seq : Nat) (old : Option (Nat × KeySlot)) :
    (s.rekeyBegun vol phase new seq old).cph.slots = s.cph.slots ∧ (s.rekeyBegun vol phase new seq old).mem = s.mem
    ∧ (s.rekeyBegun vol phase new seq old).regs = s.regs := by
  cases old <;> exact ⟨rfl, rfl, rfl⟩

theorem rekeyBegun_walk (s : State) (vol phase new seq : Nat) (o : Nat × KeySlot) :
    tblFind (s.rekeyBegun vol phase new seq (some o)).cph.walks vol = some { old := o.1, new := new, starting := some seq } :=
  tblFind_ins_self _ _ _

/-- LOAD_KEY with its slot filled, the slot's record waiting, and a rekey begun where the volume has a key. -/
def State.keyPut (s : State) (c : Cmd) (i : Nat) (b key : Bytes) : State :=
  ((s.setKeySlot i (s.newSlot c b key)).cfgPut 0x05 i (some ((s.newSlot c b key).record 4194304))).rekeyBegun (eVolume c.entry)
    (s.newPhase (eVolume c.entry)) i c.seq (s.slotOf (eVolume c.entry) (s.volPhase (eVolume c.entry)))

theorem keyPut_facts (s : State) (c : Cmd) (i : Nat) (b key : Bytes) :
    (s.keyPut c i b key).cph.slots = tblIns s.cph.slots i (s.newSlot c b key) ∧ (s.keyPut c i b key).mem = s.mem
    ∧ (s.keyPut c i b key).regs = s.regs :=
  rekeyBegun_keeps _ _ _ _ _ _

theorem keyPut_walk {s : State} {c : Cmd} {o : Nat × KeySlot} (i : Nat) (b key : Bytes)
    (ho : s.slotOf (eVolume c.entry) (s.volPhase (eVolume c.entry)) = some o) :
    tblFind (s.keyPut c i b key).cph.walks (eVolume c.entry) = some { old := o.1, new := i, starting := some c.seq } := by
  unfold State.keyPut
  rw [ho]
  exact rekeyBegun_walk _ _ _ _ _ _

/-- A key with distinct halves is put in the lowest free slot (log entry 23), and the command waits for its force (R397). -/
theorem loadKey_unwraps {s : State} {c : Cmd} {b key : Bytes} {i : Nat}
    (hkey : Crypto.unwrap (tblGet [] s.cph.keks (byteAt c.entry 8)) b = some key) (hi : s.freeSlotNo = some i)
    (hhalves : key.length = 64 → key.take 32 ≠ key.drop 32) :
    s.loadKey c b = (s.keyPut c i b key).bothForce c.seq [(0x05, i)] i := by
  unfold State.loadKey
  rw [hkey, hi]
  dsimp only
  rw [if_neg (not_and.mpr hhalves)]
  unfold State.keyPut State.rekeyBegun
  rfl

theorem loadKey_unwrapFails {s : State} {c : Cmd} {b : Bytes}
    (hkey : Crypto.unwrap (tblGet [] s.cph.keks (byteAt c.entry 8)) b = none) :
    s.loadKey c b = (s.count .cphUnwrapFail).refuseCmd c.seq 4 := by
  unfold State.loadKey
  rw [hkey]

theorem execLoadKey_in {s : State} {q cid : Nat} {c : Cmd} {b : Bytes} (hcan : s.adminCan q cid 0x59 c)
    (hin : s.bufferIn c b) : exec (.loadKey q cid) s = .next (s.loadKey c b) :=
  congrArg Host.Outcome.next ((adminRun_can hcan _).trans (withBuffer_in hin _))

/-- Settles O6: each command that passes its checks is one write of its table. The index, the device memory and the slot are
the lowest free ones (log entries 20, 21, 23), and the record of a KEK holds the whole buffer (log entry 11). -/
theorem keyCommandsWriteTheKeyTheirEntryNames : Obligations.KeyCommandsWriteTheKeyTheirEntryNames := by
  refine fun s q cid c => ⟨fun hcan i hi k hk => ?_, fun hcan hnone => ?_, fun hcan => ?_, fun b hcan hin hpeer => ?_,
    fun b hcan hin => ?_⟩
  · obtain ⟨target, rfl⟩ : ∃ target, k = regEntry c.entry (max 1 (s.keyAt i).tag) target := ⟨k.target, hk⟩
    refine ⟨fun hkind htarget => ?_, fun hkind halloc => ?_⟩
    · obtain rfl : target = if byteAt c.entry 8 = 0 then leAt c.entry 48 8 else 0 := htarget
      obtain ⟨hmem, hstill, hregs, hout, -⟩ := keySet_markPast s i _ c.seq
      exact ⟨_, (execRegKey_can hcan).trans (congrArg Host.Outcome.next (regKey_host hi hkind)), hmem, hstill, hregs, hout⟩
    · obtain ⟨hmem, hstill, hregs, -, hfct⟩ := keySet_markPast (s.deviceTaken target (leAt c.entry 40 8)) i _ c.seq
      exact ⟨_, (execRegKey_can hcan).trans (congrArg Host.Outcome.next (regKey_device hi hkind halloc)), hmem,
        (congrArg (fun t : Fct => tblFind t.devPool target) hfct).trans (tblFind_ins_self _ _ _), hstill, hregs⟩
  · exact (execRegKey_can hcan).trans (congrArg Host.Outcome.next (regKey_none c hnone))
  · exact ⟨_, _, (execDeregKey_can hcan).trans (congrArg Host.Outcome.next (deregKey_eq s c)), rfl, keySet_mem _ _ _,
      keySet_still _ _ _, keySet_regs _ _ _, keySet_qpe _ _ _⟩
  · rw [execLoadKek_in hcan hin]
    refine ⟨fun key hkey => ?_, fun hkey => ?_⟩
    · exact ⟨_, congrArg Host.Outcome.next (loadKek_unwraps c hpeer hkey), tblFind_ins_self _ _ _,
        fun j hj => tblFind_ins_ne hj _ _, rfl, rfl, rfl, rfl⟩
    · exact congrArg Host.Outcome.next (loadKek_unwrapFails c hpeer hkey)
  · rw [execLoadKey_in hcan hin]
    refine ⟨fun key i hkey hi hhalves p hp => ?_, fun hkey => ?_⟩
    · subst hp
      obtain ⟨hslots, hmem, hregs⟩ := keyPut_facts s c i b key
      refine ⟨_, congrArg Host.Outcome.next (loadKey_unwraps hkey hi hhalves), ?_, fun j hj => ?_, fun o ho => ?_, hmem, hregs⟩
      · exact (congrArg (tblFind · i) hslots).trans (tblFind_ins_self _ _ _)
      · exact (congrArg (tblFind · j) hslots).trans (tblFind_ins_ne hj _ _)
      · exact keyPut_walk i b key ho
    · exact congrArg Host.Outcome.next (loadKey_unwrapFails hkey)

end Sys2Proof.Machine
end

section
/-! PROOFS. Scope: branches, TRAP, ERET, YIELD, WAIT, and the words that no instruction uses (R467, R476, R492, R493, R497,
R498). -/

namespace Sys2Proof.Machine

/-! ### Branches -/

section
variable {s f : State} {e t : Nat} {g : Guard} (hissues : s.issues e t g f)
include hissues

/-- A branch whose target is aligned goes there (R476). -/
theorem exec_branch_aligned {i : Instr} {target : Thread → DWord}
    (hrow : exec i s = .next (s.instr e t g false fun s => s.branch e t none (target (s.thr e t))))
    (haligned : target (f.thr e t) &&& 3#64 = 0#64) :
    exec i s = .next (f.retire e t (some (target (f.thr e t)))) :=
  exec_of_body hissues hrow (branch_to haligned)

/-- A branch with link writes the address of the next instruction first (R476). -/
theorem exec_link_aligned {i : Instr} {link : Fin 32} {target : Thread → DWord}
    (hrow : exec i s = .next (s.instr e t g false fun s => s.branch e t (some link) (target (s.thr e t))))
    (haligned : target (f.thr e t) &&& 3#64 = 0#64) : exec i s = .next ((f.setThr e t
      ((f.thr e t).setReg link ((f.thr e t).pc + 4))).retire e t (some (target (f.thr e t)))) :=
  exec_of_body hissues hrow (branch_to haligned)

theorem exec_branch_misaligned {i : Instr} {link : Option (Fin 32)} {target : Thread → DWord}
    (hrow : exec i s = .next (s.instr e t g false fun s => s.branch e t link (target (s.thr e t))))
    (hmis : target (f.thr e t) &&& 3#64 ≠ 0#64) :
    exec i s = .next (f.trapTo e t ⟨0x03, some (target (f.thr e t)).toNat⟩) :=
  exec_of_trap hissues hrow (branch_bad hmis)

/-! ### ERET -/

theorem exec_eret_umode (hu : (f.thr e t).umode = true) :
    exec (.eret e t g) s = .next (f.trapTo e t ⟨0x02, none⟩) :=
  exec_of_trap hissues rfl (if_pos hu)

theorem exec_eret_untrapped (hu : (f.thr e t).umode = false) (hin : (f.thr e t).intrap = false) :
    exec (.eret e t g) s = .next (f.trapTo e t ⟨0x01, none⟩) :=
  exec_of_trap hissues rfl ((if_neg (by simp [hu])).trans (if_pos (by simp [hin])))

/-- ERET of a handler: INTRAP falls, the mode is PMODE, and the thread goes on at TPC (R497). -/
theorem exec_eret_handler (hu : (f.thr e t).umode = false) (hin : (f.thr e t).intrap = true) :
    exec (.eret e t g) s = .next ((f.setThr e t { (f.thr e t).setCsr 0x80 ((f.thr e t).csrAt 0x80 &&& ~~~1#64) with
      umode := (f.thr e t).pmode }).retire e t (some ((f.thr e t).csrAt 0x82))) :=
  exec_of_body hissues rfl ((if_neg (by simp [hu])).trans (if_neg (by simp [hin])))

/-! ### WAIT -/

section
variable {rd rb : Fin 32} {mask ev : BitVec 16} (hmask : mask = ((f.thr e t).reg rb).setWidth 16)
  (hev : ev = f.eventsOf e t &&& mask)
include hmask hev

theorem exec_wait_privilege (hu : (f.thr e t).umode = true) (hk : mask &&& ~~~0xD#16 ≠ 0#16) :
    exec (.wait e t g rd rb) s = .next (f.trapTo e t ⟨0x02, none⟩) := by
  subst hmask hev
  exact exec_of_trap hissues rfl (if_pos ⟨hu, hk⟩)

variable (hmay : (f.thr e t).umode = false ∨ mask &&& ~~~0xD#16 = 0#16)
include hmay

/-- WAIT with nothing to wait for takes the pending events of its mask (R492). -/
theorem exec_wait_takes (hnow : mask = 0#16 ∨ ev ≠ 0#16) : exec (.wait e t g rd rb) s = .next ((f.setThr e t
    ({ f.thr e t with latched := (f.thr e t).latched &&& ~~~ev }.setReg rd (ev.setWidth 64))).retire e t none) := by
  subst hmask hev
  refine exec_of_body hissues rfl ((if_neg ?_).trans (if_pos hnow))
  rintro ⟨hu, hk⟩
  exact hmay.elim (fun hfalse => by simp [hu] at hfalse) hk

theorem exec_wait_waits (hsome : mask ≠ 0#16) (hnone : ev = 0#16) : exec (.wait e t g rd rb) s = .next (f.setThr e t
    { f.thr e t with state := .waiting, wait := some { rd := rd.val, mask, since := f.now } }) := by
  subst hmask hev
  refine exec_of_hold hissues rfl ((if_neg ?_).trans (if_neg (not_or.mpr ⟨hsome, Classical.not_not.mpr hnone⟩)))
  rintro ⟨hu, hk⟩
  exact hmay.elim (fun hfalse => by simp [hu] at hfalse) hk

end

end

/-- A word that no instruction uses traps once it has been fetched, whatever its guard (R467). -/
theorem exec_illegalWord {s f : State} {e t : Nat} {w : Word} (hfetched : s.fetched e t f)
    (hw : illegalWord w.toNat = true) : exec (.illegalWord e t w) s = .next (f.trapTo e t ⟨0x01, none⟩) :=
  congrArg Host.Outcome.next ((if_pos hw).trans (instr_illegal hfetched _ _))

/-- Settles O16: each clause is the row's body at the fetched state, in one of its branches. Which thread issues, and that the
word stands at its PC, are log entries 18 and 19. -/
theorem flowInstructionsGoWhereTheirRulesSay : Obligations.FlowInstructionsGoWhereTheirRulesSay := by
  refine fun s f e t g rd ra rb off code w => ⟨fun hissues x hx => ?_, exec_illegalWord⟩
  subst hx
  refine ⟨fun ha => ⟨?_, ?_⟩, fun ha => ⟨?_, ?_⟩, fun hmis i hi => ?_, fun hmis i hi => ?_, ?_, exec_eret_handler hissues,
    exec_eret_umode hissues, exec_eret_untrapped hissues, ?_, fun mask ev hmask hev => ⟨exec_wait_privilege hissues hmask hev,
      exec_wait_takes hissues hmask hev, exec_wait_waits hissues hmask hev⟩⟩
  · exact exec_branch_aligned hissues (target := fun x => x.relTarget off) rfl ha
  · exact exec_link_aligned hissues (link := 31) (target := fun x => x.relTarget off) rfl ha
  · exact exec_branch_aligned hissues (target := fun x => x.reg ra) rfl ha
  · exact exec_link_aligned hissues (link := rd) (target := fun x => x.reg ra) rfl ha
  · rcases hi with rfl | rfl
    · exact exec_branch_misaligned hissues (link := none) (target := fun x => x.relTarget off) rfl hmis
    · exact exec_branch_misaligned hissues (link := some 31) (target := fun x => x.relTarget off) rfl hmis
  · rcases hi with rfl | rfl
    · exact exec_branch_misaligned hissues (link := none) (target := fun x => x.reg ra) rfl hmis
    · exact exec_branch_misaligned hissues (link := some rd) (target := fun x => x.reg ra) rfl hmis
  · exact exec_of_trap hissues rfl rfl
  · exact exec_of_body hissues rfl rfl

end Sys2Proof.Machine
end

section
/-! PROOFS. Scope: loads, stores and ATOM (R419 to R421, R472 to R475). -/

namespace Sys2Proof.Machine

/-! ### Loads and stores -/

/-- The loads with their sizes, and whether their value is sign-extended (R472). -/
def loadRows (e t : Nat) (g : Guard) (rd ra : Fin 32) (imm : BitVec 12) : List (Instr × Nat × Bool) :=
  [(.lb e t g rd ra imm, 1, true), (.lbu e t g rd ra imm, 1, false), (.lh e t g rd ra imm, 2, true),
   (.lhu e t g rd ra imm, 2, false), (.lw e t g rd ra imm, 4, true), (.lwu e t g rd ra imm, 4, false),
   (.ld e t g rd ra imm, 8, false)]

/-- The stores with their sizes (R472). -/
def storeRows (e t : Nat) (g : Guard) (rd ra : Fin 32) (imm : BitVec 12) : List (Instr × Nat) :=
  [(.sb e t g rd ra imm, 1), (.sh e t g rd ra imm, 2), (.sw e t g rd ra imm, 4), (.sd e t g rd ra imm, 8)]

theorem exec_loadRows (s : State) (e t : Nat) (g : Guard) (rd ra : Fin 32) (imm : BitVec 12) :
    ∀ x ∈ loadRows e t g rd ra imm, exec x.1 s = .next (s.loadInstr e t g rd ra imm x.2.1 x.2.2) := by
  simp only [loadRows, List.forall_mem_cons]
  exact ⟨rfl, rfl, rfl, rfl, rfl, rfl, rfl, fun _ hx => absurd hx List.not_mem_nil⟩

theorem exec_storeRows (s : State) (e t : Nat) (g : Guard) (rd ra : Fin 32) (imm : BitVec 12) :
    ∀ x ∈ storeRows e t g rd ra imm, exec x.1 s = .next (s.storeInstr e t g rd ra imm x.2) := by
  simp only [storeRows, List.forall_mem_cons]
  exact ⟨rfl, rfl, rfl, rfl, fun _ hx => absurd hx List.not_mem_nil⟩

/-! ### ATOM -/

/-- A W form of ATOM (R474). -/
def atomWord (fn : Fin 128) : Bool := decide (64 ≤ fn.val)

/-- The bytes of an ATOM: a W form takes 4 (R474). -/
def atomSize (fn : Fin 128) : Nat := if atomWord fn then 4 else 8

/-- An operand of an ATOM: a W form takes the low word (R474). -/
def atomLow (fn : Fin 128) (v : DWord) : DWord := if atomWord fn then (v.setWidth 32).setWidth 64 else v

/-- The state in which ATOM meets the memory itself: a cached line of HBM has been written back (R421). -/
def State.atomReaches (u : State) (e t pa : Nat) : State :=
  if inHbmSpace pa then (u.pmc e t 0x10 1).evict e (pa / 64) else (u.pmc e t 0x10 1).sramCount e t pa

/-- Memory takes the new value, but for the boot ROM (log entry 57). -/
def State.atomStore (m : State) (pa n : Nat) (new : DWord) : State :=
  if pa < 0x40000 then m else m.store pa (toLe new.toNat n)

/-- The effect of ATOM, once its operation is one that is defined (R474). -/
def State.atomEffect (s : State) (e t : Nat) (rd ra rb : Fin 32) (fn : Fin 128) : Res :=
  let x := s.thr e t
  let va := (x.reg ra).toNat
  let d := s.updThr e t fun x => { x with daddr := va }
  if va % atomSize fn ≠ 0 then .trap d ⟨0x03, some va⟩
  else
    match d.access e t .atomic false va with
    | (u, .error tr) => .trap u tr
    | (u, .ok pa) =>
      let m := u.atomReaches e t pa
      let old := BitVec.ofNat 64 (m.mem.readLe pa (atomSize fn))
      let new := atomFn (fn.val % 64) (atomWord fn) old (atomLow fn (x.reg rb)) (atomLow fn (x.reg rd))
      .retire ((m.atomStore pa (atomSize fn) new).updThr e t fun x => x.setReg rd old)

section
variable {s f : State} {e t : Nat} {rd ra rb : Fin 32} {fn : Fin 128}

theorem exec_atom (g : Guard) : exec (.atom e t g rd ra rb fn) s
    = .next (s.instr e t g (decide (9 < fn.val % 64)) fun s => s.atomEffect e t rd ra rb fn) := by
  show Host.Outcome.next (s.atomInstr e t g rd ra rb fn) = _
  unfold State.atomInstr
  rfl

theorem exec_atom_undefined (hfetched : s.fetched e t f) (hop : 9 < fn.val % 64) (g : Guard) :
    exec (.atom e t g rd ra rb fn) s = .next (f.trapTo e t ⟨0x01, none⟩) := by
  rw [exec_atom, decide_eq_true hop, instr_illegal hfetched]

theorem exec_atom_defined (hop : fn.val % 64 ≤ 9) (g : Guard) :
    exec (.atom e t g rd ra rb fn) s = .next (s.instr e t g false fun s => s.atomEffect e t rd ra rb fn) := by
  rw [exec_atom, decide_eq_false (Nat.not_lt.mpr hop)]

variable {g : Guard} (hissues : s.issues e t g f) (hop : fn.val % 64 ≤ 9) {va : Nat} {d : State}
  (hva : va = ((f.thr e t).reg ra).toNat) (hd : d = f.updThr e t fun x => { x with daddr := va })
include hissues hop hva hd

theorem exec_atom_misaligned (hmis : va % atomSize fn ≠ 0) :
    exec (.atom e t g rd ra rb fn) s = .next (d.trapTo e t ⟨0x03, some va⟩) := by
  subst hva hd
  exact exec_of_trap hissues (exec_atom_defined hop g) (if_pos hmis)

variable (haligned : va % atomSize fn = 0)
include haligned

theorem exec_atom_faults {u : State} {tr : Trap} (haccess : d.access e t .atomic false va = (u, .error tr)) :
    exec (.atom e t g rd ra rb fn) s = .next (u.trapTo e t tr) := by
  subst hva hd
  refine exec_of_trap hissues (exec_atom_defined hop g) ((if_neg (Classical.not_not.mpr haligned)).trans ?_)
  rw [haccess]

/-- ATOM with its access granted: memory takes the operation's value, and rd the old one (R474). -/
theorem exec_atom_does {u m : State} {pa : Nat} {old new : DWord} (haccess : d.access e t .atomic false va = (u, .ok pa))
    (hm : m = u.atomReaches e t pa) (hold : old = BitVec.ofNat 64 (m.mem.readLe pa (atomSize fn)))
    (hnew : new = atomFn (fn.val % 64) (atomWord fn) old (atomLow fn ((f.thr e t).reg rb)) (atomLow fn ((f.thr e t).reg rd))) :
    exec (.atom e t g rd ra rb fn) s = .next (((m.atomStore pa (atomSize fn) new).updThr e t fun x =>
      x.setReg rd old).retire e t none) := by
  subst hva hd hnew hold hm
  refine exec_of_body hissues (exec_atom_defined hop g) ((if_neg (Classical.not_not.mpr haligned)).trans ?_)
  rw [haccess]

end

/-- Settles O17: the loads and the stores are one body each with its size, and ATOM is its access, then the memory itself; a
store to the boot ROM changes nothing there (log entry 57). -/
theorem loadsStoresAndAtomicsReachTheirAddress : Obligations.LoadsStoresAndAtomicsReachTheirAddress := by
  refine fun s f e t g rd ra rb imm fn hissues => ⟨fun i n sgn hi va d hva hd => ?_, fun i n hi va d hva hd => ?_,
    fun n op w hw hop hn => ?_⟩
  · simpa only [exec_loadRows s e t g rd ra imm (i, n, sgn) hi, Host.Outcome.next.injEq] using
      load_body hissues rd ra imm n sgn va d hva hd
  · simpa only [exec_storeRows s e t g rd ra imm (i, n) hi, Host.Outcome.next.injEq] using
      store_body hissues rd ra imm n va d hva hd
  · subst hw hop hn
    exact ⟨exec_atom_undefined hissues.1, fun hop va d hva hd => ⟨exec_atom_misaligned hissues hop hva hd,
      fun haligned u tr => exec_atom_faults hissues hop hva hd haligned, fun haligned u pa haccess =>
        ⟨_, _, _, _, _, exec_atom_does hissues hop hva hd haligned haccess rfl rfl rfl, rfl, rfl, rfl, _, rfl, rfl, rfl⟩⟩⟩

end Sys2Proof.Machine
end

section
/-! PROOFS. Scope: the control and status registers, FENCE, pending DMA faults, the timer, and the capture of a thread (R433,
R462, R495, R496, R499, R529). -/

namespace Sys2Proof.Machine

/-! ### Control and status registers -/

section
variable {f : State} {e t n : Nat}

theorem csrInstr_reads (rd : Fin 32) (hnamed : csrNamed n = true) (hopen : (f.thr e t).umode = false ∨ f.csrUser n = true) :
    f.csrInstr e t n (some rd) none = .retire (f.updThr e t fun x => x.setReg rd (f.csrRead e t n)) none := by
  rw [csr_open hnamed (by simp) hopen]

variable {new : DWord → DWord} (hnamed : csrNamed n = true) (hwritable : csrWritable n = true)
  (hopen : (f.thr e t).umode = false ∨ f.csrUser n = true)
include hnamed hwritable hopen

theorem csrInstr_writes {u : State} (hwrite : f.csrWrite e t n (new (f.csrRead e t n)) = .ok u) :
    f.csrInstr e t n none (some new) = .retire u none := by
  rw [csr_open hnamed (fun _ => hwritable) hopen]
  dsimp only
  rw [hwrite]

/-- A write that is taken gives rd the old value in the state it leaves (R495). -/
theorem csrInstr_swaps {u : State} (rd : Fin 32) (hwrite : f.csrWrite e t n (new (f.csrRead e t n)) = .ok u) :
    f.csrInstr e t n (some rd) (some new) = .retire (u.updThr e t fun x => x.setReg rd (f.csrRead e t n)) none := by
  rw [csr_open hnamed (fun _ => hwritable) hopen]
  dsimp only
  rw [hwrite]

theorem csrInstr_writeTraps {tr : Trap} (rd : Option (Fin 32)) (hwrite : f.csrWrite e t n (new (f.csrRead e t n)) = .error tr) :
    f.csrInstr e t n rd (some new) = .trap f tr := by
  rw [csr_open hnamed (fun _ => hwritable) hopen]
  dsimp only
  rw [hwrite]

end

theorem csrWrite_preds (f : State) (e t : Nat) (v : DWord) :
    f.csrWrite e t 0x89 v = .ok (f.updThr e t fun x => { x with preds := v.setWidth 8 ||| 1#8 }) := rfl

/-- SIGNAL latches the event of the thread it names; the other bits of the value are ignored (log entry 59). -/
theorem csrWrite_signal {f : State} {v : DWord} (e t : Nat)
    (hpresent : Config.enginePresent f.variant (bitsOf v.toNat 15 10) = true) :
    f.csrWrite e t 0x8A v = .ok (f.latch (bitsOf v.toNat 15 10) (v.toNat % 16) 4) :=
  if_pos hpresent

theorem csrWrite_signal_absent {f : State} {v : DWord} (e t : Nat)
    (habsent : Config.enginePresent f.variant (bitsOf v.toNat 15 10) = false) :
    f.csrWrite e t 0x8A v = .error ⟨0x09, none⟩ := by
  unfold State.csrWrite
  dsimp only
  rw [if_pos rfl, habsent, if_neg Bool.false_ne_true]

theorem csrWrite_stored {n : Nat} (f : State) (e t : Nat) (v : DWord) (hpreds : n ≠ 0x89) (hsignal : n ≠ 0x8A) :
    f.csrWrite e t n v = .ok (f.updThr e t fun x => x.setCsr n (v &&& csrMask n)) := by
  unfold State.csrWrite
  rw [if_neg hsignal, if_neg hpreds]

section
variable {s f : State} {e t : Nat} {g : Guard} {rd ra : Fin 32} {csr : BitVec 8} {b : Fin 64} {v : Bool}
  (hissues : s.issues e t g f)
include hissues

/-- A number that names no CSR, a write of one that is read only, and BITC of SIGNAL (R495). -/
theorem exec_csr_illegal {i : Instr} (hi : i = .getc e t g rd csr ∧ csrNamed csr.toNat = false
      ∨ (i = .putc e t g csr ra ∨ i = .swpc e t g rd csr ra) ∧ (csrNamed csr.toNat = false ∨ csrWritable csr.toNat = false)
      ∨ i = .bitc e t g rd csr b v ∧ (csrNamed csr.toNat = false ∨ csrWritable csr.toNat = false ∨ csr.toNat = 0x8A)) :
    exec i s = .next (f.trapTo e t ⟨0x01, none⟩) := by
  rcases hi with ⟨rfl, hn⟩ | ⟨rfl | rfl, hn⟩ | ⟨rfl, hn⟩
  · exact exec_of_trap hissues rfl (csr_illegal (.inl hn))
  · exact exec_of_trap hissues rfl (csr_illegal (hn.imp_right fun hro => ⟨rfl, hro⟩))
  · exact exec_of_trap hissues rfl (csr_illegal (hn.imp_right fun hro => ⟨rfl, hro⟩))
  · refine exec_of_trap hissues rfl ?_
    by_cases hsignal : csr.toNat = 0x8A
    · exact if_pos hsignal
    · exact (if_neg hsignal).trans (csr_illegal (hn.imp_right fun hro => ⟨rfl, hro.resolve_right hsignal⟩))

/-- A CSR that the mode may not reach (R428, R496). -/
theorem exec_csr_privilege {i : Instr} (hnamed : csrNamed csr.toNat = true) (hu : (f.thr e t).umode = true)
    (huser : f.csrUser csr.toNat = false) (hi : i = .getc e t g rd csr ∨ csrWritable csr.toNat = true
      ∧ (i = .putc e t g csr ra ∨ i = .swpc e t g rd csr ra ∨ csr.toNat ≠ 0x8A ∧ i = .bitc e t g rd csr b v)) :
    exec i s = .next (f.trapTo e t ⟨0x02, none⟩) := by
  rcases hi with rfl | ⟨hw, rfl | rfl | ⟨hsignal, rfl⟩⟩
  · exact exec_of_trap hissues rfl (csr_priv hnamed (by simp) hu huser)
  · exact exec_of_trap hissues rfl (csr_priv hnamed (fun _ => hw) hu huser)
  · exact exec_of_trap hissues rfl (csr_priv hnamed (fun _ => hw) hu huser)
  · exact exec_of_trap hissues rfl ((if_neg hsignal).trans (csr_priv hnamed (fun _ => hw) hu huser))

end

/-! ### FENCE -/

theorem instr_legal {s : State} {e t : Nat} {g : Guard} {illegal : Bool} {body : State → Res} (hlegal : illegal = false) :
    s.instr e t g illegal body = s.instr e t g false body := by
  rw [hlegal]

section
variable {s f : State} {e t : Nat} {ra rb : Fin 32} {fm : Fin 128}

theorem exec_fence_illegal (hfetched : s.fetched e t f) (g : Guard)
    (hbad : 5 < fm.val ∨ (fm.val = 0 ∨ fm.val = 4 ∨ fm.val = 5) ∧ (ra ≠ 0 ∨ rb ≠ 0)) :
    exec (.fence e t g ra rb fm none) s = .next (f.trapTo e t ⟨0x01, none⟩) := by
  have hflag : (decide (5 < fm.val) || ((fm.val == 0 || fm.val == 4 || fm.val == 5) && (ra != 0 || rb != 0))) = true := by
    simpa [or_assoc] using hbad
  show Host.Outcome.next (s.instr e t g (_ || _) _) = _
  rw [hflag, instr_illegal hfetched]

/-- The forms 4 and 5 are for K mode (R499). -/
theorem exec_fence_privilege {g : Guard} (hissues : s.issues e t g f) (hu : (f.thr e t).umode = true) (hform : fm = 4 ∨ fm = 5)
    (hra : ra = 0) (hrb : rb = 0) : exec (.fence e t g ra rb fm none) s = .next (f.trapTo e t ⟨0x02, none⟩) := by
  subst hra hrb
  have hhigh : 4 ≤ fm.val := by rcases hform with rfl | rfl <;> decide
  have hlow : ¬ 5 < fm.val := by rcases hform with rfl | rfl <;> decide
  refine exec_of_trap (i := .fence e t g 0 0 fm none) hissues (congrArg Host.Outcome.next (instr_legal ?_)) (if_pos ⟨hu, hhigh⟩)
  simp [hlow]

variable {g : Guard} (hissues : s.issues e t g f) (hresumed : f.resumed e t = none)
include hissues hresumed

theorem exec_fence_nothing : exec (.fence e t g 0 0 0 none) s = .next (f.retire e t none) := by
  rw [fence_res hissues hresumed (by decide), if_neg (by simp), if_pos (by decide)]

/-- The forms 1 to 3 act on each line of the range, and take any registers. -/
theorem exec_fence_range (hform : fm = 1 ∨ fm = 2 ∨ fm = 3) : exec (.fence e t g ra rb fm none) s
    = .next ((f.fenceRange e t fm.val (((f.thr e t).reg ra).toNat / 64)
      (fenceLines ((f.thr e t).reg ra).toNat ((f.thr e t).reg rb).toNat)).retire e t none) := by
  have hrange : 0 < fm.val ∧ fm.val < 4 := by
    rcases hform with rfl | rfl | rfl <;> decide
  rw [fence_res hissues hresumed (by omega), if_neg (by omega), if_neg (by omega), if_neg (by omega), if_neg (by omega)]

variable (hu : (f.thr e t).umode = false)
include hu

theorem exec_fence_dcache : exec (.fence e t g 0 0 4 none) s = .next (((((f.eng e).dcache.map (·.1)).take
    (f.eng e).dcache.length).foldl (fun s l => s.evict e l) f).retire e t none) := by
  rw [fence_res hissues hresumed (by decide), if_neg (by simp [hu]), if_neg (by decide), if_neg (by decide),
    if_pos (by decide)]

theorem exec_fence_icache :
    exec (.fence e t g 0 0 5 none) s = .next ((f.setEng e { f.eng e with icache := [] }).retire e t none) := by
  rw [fence_res hissues hresumed (by decide), if_neg (by simp [hu]), if_neg (by decide), if_pos (by decide)]

end

/-! ### Events of a thread -/

/-- The oldest pending fault of a thread outside its handler is taken (R529). -/
theorem dmaTrap_takes {s : State} {e t : Nat} {v : DWord} {rest : List DWord} (hfaults : (s.thr e t).faults = v :: rest)
    (hin : (s.thr e t).intrap = false) (hstate : (s.thr e t).state = .ready ∨ (s.thr e t).state = .waiting)
    (hsaved : s.savedInstr e t = false) :
    s.dmaTrap e t = (s.setThr e t { s.thr e t with faults := rest }).trapTo e t ⟨0x08, some v.toNat⟩ := by
  unfold State.dmaTrap
  dsimp only
  rw [hfaults]
  dsimp only
  rw [if_pos (by simpa [hin, hsaved] using hstate)]

/-- What FCT_THR_SEL captures: VALID, and the thread of an engine that is present (R462). -/
theorem thrCapture_eq (s : State) {w e t : Nat} (he : e = bitsOf w 13 8) (ht : t = bitsOf w 3 0) : s.thrCapture w =
    (s.setReg .fctThrSel (e * 2 ^ 8 + t)).setReg .fctThrState (2 ^ 31 +
      if Config.enginePresent s.variant e then
        b2n (s.thr e t).umode * 2 ^ 30 + b2n (s.thr e t).intrap * 2 ^ 29 + (s.thr e t).inbox.length * 2 ^ 24
          + ((s.thr e t).csrAt 0x83).toNat * 2 ^ 16 + (s.thr e t).state.code
      else 0) := by
  subst he ht
  rfl

/-- Settles O18: each CSR row is `csrInstr` at the fetched state, FENCE one case of `fence_res`, and the events are the steps of
their rules. Bits of SIGNAL that name nothing are ignored (log entry 59). -/
theorem systemInstructionsAndThreadEventsDoTheirEffect : Obligations.SystemInstructionsAndThreadEventsDoTheirEffect := by
  refine ⟨fun s f e t g rd ra csr b v hissues x n old hx hn hold => ?_, fun f e t n v => ⟨csrWrite_preds f e t v,
      fun k hk => ?_, csrWrite_stored f e t v⟩,
    fun s f e t g ra rb fm hfetched x hx => ⟨exec_fence_illegal hfetched g, fun hissues hresumed run hrun => ?_,
      fun hissues hu hform hra hrb => ?_⟩,
    fun s e t v rest hruns hfaults hin hstate hsaved => ?_, fun s e t => ⟨fun hon => ?_, fun hoff => ?_⟩,
    fun s v e t hon he ht => ?_⟩
  · subst hx hn hold
    refine ⟨fun hnamed hopen => ⟨?_, fun hw => ⟨fun u hok => ⟨?_, ?_⟩, fun tr hbad => ⟨?_, ?_⟩, fun hsignal u hok => ?_⟩⟩,
      fun i hi => exec_csr_illegal hissues hi, fun hnamed hu huser i hi => exec_csr_privilege hissues hnamed hu huser hi⟩
    · exact exec_of_body hissues rfl (csrInstr_reads rd hnamed hopen)
    · exact exec_of_body hissues rfl (csrInstr_writes (new := fun _ => (f.thr e t).reg ra) hnamed hw hopen hok)
    · exact exec_of_body hissues rfl (csrInstr_swaps (new := fun _ => (f.thr e t).reg ra) hnamed hw hopen rd hok)
    · exact exec_of_trap hissues rfl (csrInstr_writeTraps (new := fun _ => (f.thr e t).reg ra) hnamed hw hopen none hbad)
    · exact exec_of_trap hissues rfl (csrInstr_writeTraps (new := fun _ => (f.thr e t).reg ra) hnamed hw hopen (some rd) hbad)
    · exact exec_of_body hissues rfl ((if_neg hsignal).trans
        (csrInstr_swaps (new := fun old => putBit old b.val v) hnamed hw hopen rd hok))
  · subst hk
    exact ⟨csrWrite_signal e t, csrWrite_signal_absent e t⟩
  · subst hx
    rcases hrun with ⟨rfl, rfl, rfl, rfl⟩ | ⟨hform, rfl⟩ | ⟨hu, rfl, rfl, rfl, rfl⟩ | ⟨hu, rfl, rfl, rfl, rfl⟩
    · exact exec_fence_nothing hissues hresumed
    · exact exec_fence_range hissues hresumed hform
    · exact exec_fence_dcache hissues hresumed hu
    · exact exec_fence_icache hissues hresumed hu
  · subst hx
    exact exec_fence_privilege hissues hu hform hra hrb
  · exact congrArg Host.Outcome.next ((if_pos hruns).trans (dmaTrap_takes hfaults hin hstate hsaved))
  · exact congrArg Host.Outcome.next (if_pos hon)
  · exact congrArg Host.Outcome.next (if_neg (by rw [hoff]; exact Bool.false_ne_true))
  · exact congrArg Host.Outcome.next ((whenOn_on hon _).trans (thrCapture_eq s he ht))

end Sys2Proof.Machine
end

section
/-! PROOFS. Scope: QPOP, QPUSH, QHOOK, DMAD and ACC (R429 to R431, R479 to R489). -/

namespace Sys2Proof.Machine

/-! ### QPOP -/

theorem exec_qpop {own : Bool} {rb : Fin 32} (s : State) (e t : Nat) (g : Guard) (pd : Fin 8) (ra : Fin 32)
    (hown : own = true → rb = 0) : exec (.qpop e t g pd ra rb own none) s
      = .next (s.instr e t g false fun s => s.qpop e t pd ra rb own none) := by
  have hlegal : (own && rb != 0) = false := by
    cases own
    · rfl
    · simp [hown rfl]
  show Host.Outcome.next (s.instr e t g (own && rb != 0) _ none _) = _
  rw [hlegal, instr_pre]

section
variable {f : State} {e t : Nat} (pd : Fin 8) {ra rb : Fin 32} {own : Bool} (hresumed : f.resumed e t = none)
include hresumed

theorem qpop_refused {tr : Trap} (hpop : f.popFrom e t own ((f.thr e t).reg rb) = .error tr) :
    f.qpop e t pd ra rb own none = .trap f tr := by
  simp only [State.qpop, hresumed, hpop]

variable {n : Nat} (hpop : f.popFrom e t own ((f.thr e t).reg rb) = .ok n)
include hpop

theorem qpop_faults {u : State} {tr : Trap}
    (hoperand : f.operand e t .store ((f.thr e t).reg ra).toNat 64 2 = (u, .error tr)) :
    f.qpop e t pd ra rb own none = .trap u tr := by
  simp only [State.qpop, hresumed, hpop, hoperand]

variable {u : State} {ps : List Nat} (hoperand : f.operand e t .store ((f.thr e t).reg ra).toNat 64 2 = (u, .ok ps))
include hoperand

theorem qpop_empty (hempty : u.mbox (e / 12) n = []) :
    f.qpop e t pd ra rb own none = .retire (u.updThr e t fun y => y.setPred pd false) := by
  simp only [State.qpop, hresumed, hpop, hoperand, hempty]

/-- The oldest message leaves, a held one takes its slot, and its bytes are written (R432, R479). -/
theorem qpop_takes {m : Message} {rest : List Message} (hmbox : u.mbox (e / 12) n = m :: rest) :
    f.qpop e t pd ra rb own none = .retire (((((u.setMbox (e / 12) n rest).refill (e / 12) n).pmc e t 0x08 1).storeLines e t
      m.bytes 0 128 0 ps).updThr e t fun y => y.setPred pd true) := by
  simp only [State.qpop, hresumed, hpop, hoperand, hmbox, State.cutOk]

end

/-! ### QPUSH -/

theorem exec_qpush (s : State) (e t : Nat) (g : Guard) (pd : Fin 8) (ra rb : Fin 32) :
    exec (.qpush e t g pd ra rb none) s = .next (s.instr e t g false fun s => s.qpush e t pd ra rb) :=
  congrArg Host.Outcome.next (instr_pre _ _ _ _ _ _)

section
variable {f : State} {e t m c n : Nat} (pd : Fin 8) {ra rb : Fin 32} (hm : m = ((f.thr e t).reg rb).toNat % 2 ^ 16)
  (hc : c = m / 256) (hn : n = m % 256)

theorem qpush_umode (hu : (f.thr e t).umode = true) : f.qpush e t pd ra rb = .trap f ⟨0x02, none⟩ :=
  if_pos hu

variable (hu : (f.thr e t).umode = false)
include hm hc hu

theorem qpush_noCluster (hfar : 4 ≤ c) : f.qpush e t pd ra rb = .trap f ⟨0x0D, none⟩ := by
  subst hm hc
  exact (if_neg (by simp [hu])).trans (if_pos hfar)

variable (hnear : c < 4)
include hnear

theorem qpush_absent (habsent : f.mboxAbsent m = true) : f.qpush e t pd ra rb = .trap f ⟨0x09, none⟩ := by
  subst hm hc
  exact (if_neg (by simp [hu])).trans ((if_neg (Nat.not_le.mpr hnear)).trans (if_pos habsent))

variable (hpresent : f.mboxAbsent m = false) {u v : State} {ps : List Nat} {b : Bytes}
  (hoperand : f.operand e t .load ((f.thr e t).reg ra).toNat 64 2 = (u, .ok ps)) (hload : u.loadLines e t ps = (v, b))
include hn hpresent hoperand hload

/-- QPUSH once its message has been read: TYPE, the C0 flag, and room (R430 to R432, R481). -/
theorem qpush_read : f.qpush e t pd ra rb =
    if byteAt b 0 < 0x10 ∨ 0x7F < byteAt b 0 then .trap v ⟨0x0D, none⟩
    else if (bitOf (byteAt b 1) 0 && !(decide (14 ≤ t) && mboxC0 n)) || (!bitOf (byteAt b 1) 0 && n == 255) then
      .trap v ⟨0x0D, none⟩
    else if v.mboxRoom c n && !((v.clu c).held.any fun h => h.1 == n) then
      .retire (((v.deliver c n { bytes := withSource b e t }).pmc e t 0x09 1).updThr e t fun y => y.setPred pd true)
    else .retire (v.updThr e t fun y => y.setPred pd false) := by
  subst hm hc hn
  simp only [State.qpush, hu, hpresent, Bool.false_eq_true, if_false, if_neg (Nat.not_le.mpr hnear), hoperand, hload]

theorem qpush_badType (htype : byteAt b 0 < 0x10 ∨ 0x7F < byteAt b 0) : f.qpush e t pd ra rb = .trap v ⟨0x0D, none⟩ := by
  rw [qpush_read pd hm hc hn hu hnear hpresent hoperand hload, if_pos htype]

variable (hlow : 0x10 ≤ byteAt b 0) (hhigh : byteAt b 0 ≤ 0x7F) (hfits : bitOf (byteAt b 1) 0 = true ∧ 14 ≤ t ∧ mboxC0 n = true
  ∨ bitOf (byteAt b 1) 0 = false ∧ n ≠ 255)
include hlow hhigh hfits

theorem qpush_permitted : f.qpush e t pd ra rb =
    if v.mboxRoom c n && !((v.clu c).held.any fun h => h.1 == n) then
      .retire (((v.deliver c n { bytes := withSource b e t }).pmc e t 0x09 1).updThr e t fun y => y.setPred pd true)
    else .retire (v.updThr e t fun y => y.setPred pd false) := by
  have hflag : ((bitOf (byteAt b 1) 0 && !(decide (14 ≤ t) && mboxC0 n)) || (!bitOf (byteAt b 1) 0 && n == 255)) = false := by
    rcases hfits with ⟨hset, ht, hq⟩ | ⟨hclear, hq⟩
    · simp [hset, ht, hq]
    · simp [hclear, hq]
  rw [qpush_read pd hm hc hn hu hnear hpresent hoperand hload, if_neg (by omega), hflag, if_neg Bool.false_ne_true]

theorem qpush_delivers (hroom : v.mboxRoom c n = true) (hheld : ((v.clu c).held.any fun h => h.1 == n) = false) :
    f.qpush e t pd ra rb = .retire (((v.deliver c n { bytes := withSource b e t }).pmc e t 0x09 1).updThr e t fun y =>
      y.setPred pd true) := by
  rw [qpush_permitted pd hm hc hn hu hnear hpresent hoperand hload hlow hhigh hfits, if_pos (by rw [hroom, hheld]; rfl)]

theorem qpush_full (hfull : v.mboxRoom c n = false ∨ ((v.clu c).held.any fun h => h.1 == n) = true) :
    f.qpush e t pd ra rb = .retire (v.updThr e t fun y => y.setPred pd false) := by
  rw [qpush_permitted pd hm hc hn hu hnear hpresent hoperand hload hlow hhigh hfits, if_neg]
  rcases hfull with hroom | hheld
  · simp [hroom]
  · rw [hheld]
    simp

end

/-! ### QHOOK -/

theorem exec_qhook (s : State) (e t : Nat) (g : Guard) (pd : Fin 8) (ra rb : Fin 32) (ret : Bool) :
    exec (.qhook e t g pd ra rb ret none) s = .next (s.instr e t g false fun s => s.qhook e t pd ra rb ret) :=
  congrArg Host.Outcome.next (instr_pre _ _ _ _ _ _)

theorem qhook_umode {f : State} {e t : Nat} (pd : Fin 8) (ra rb : Fin 32) (ret : Bool) (hu : (f.thr e t).umode = true) :
    f.qhook e t pd ra rb ret = .trap f ⟨0x02, none⟩ :=
  if_pos hu

/-- The state in which the hook message of kind `ty` has been delivered to mailbox `n` of the sender's cluster (R482). -/
def State.hookSent (v : State) (e t n ty : Nat) (b : Bytes) : State :=
  (v.deliver (e / 12) n { bytes := toLe ty 1 ++ (withSource b e t).drop 1 }).pmc e t 0x09 1

section
variable {f : State} {e t n : Nat} (pd : Fin 8) {ra rb : Fin 32} (hu : (f.thr e t).umode = false)
  (hcluster : ((f.thr e t).reg rb).toNat % 2 ^ 16 / 256 = e / 12) (hn : n = ((f.thr e t).reg rb).toNat % 2 ^ 16 % 256)
  (hinbox : n < 192) (hengine : n / 16 = e % 12) {u v : State} {ps : List Nat} {b : Bytes}
  (hoperand : f.operand e t .load ((f.thr e t).reg ra).toNat 64 2 = (u, .ok ps)) (hload : u.loadLines e t ps = (v, b))
  (hroom : v.mboxRoom (e / 12) n = true) (hheld : ((v.clu (e / 12)).held.any fun h => h.1 == n) = false)
include hu hcluster hn hinbox hengine hoperand hload hroom hheld

/-- QHOOK once its message has been read (R482): HOOK_RETURN is delivered, and its sender halts once its work has ended; the
thread that HOOK_CALL names starts, where it is HALTED. -/
theorem qhook_read {ret : Bool} (hext : (if ret then t == 12 || t == 13 else n % 16 == 12 || n % 16 == 13) = true) :
    f.qhook e t pd ra rb ret =
      if ret then .retire (((v.hookSent e t n (if ret then 5 else 4) b).updThr e t fun y =>
        { y.setPred pd true with state := .blocked, halting := true }).haltCheck e t)
      else if (v.thr e (n % 16)).state ≠ .halted then .retire (v.updThr e t fun y => y.setPred pd false)
      else .retire ((((v.hookSent e t n (if ret then 5 else 4) b).updThr e (n % 16) Thread.hookStart).invStart e
        (n % 16)).updThr e t fun y => y.setPred pd true) := by
  subst hn
  have hown : (!decide (((f.thr e t).reg rb).toNat % 2 ^ 16 / 256 = e / 12 ∧ ((f.thr e t).reg rb).toNat % 2 ^ 16 % 256 < 192
      ∧ ((f.thr e t).reg rb).toNat % 2 ^ 16 % 256 / 16 = e % 12)) = false := by
    rw [decide_eq_true ⟨hcluster, hinbox, hengine⟩]
    rfl
  have hother : (if ret then !(t == 12 || t == 13) else !(((f.thr e t).reg rb).toNat % 2 ^ 16 % 256 % 16 == 12
      || ((f.thr e t).reg rb).toNat % 2 ^ 16 % 256 % 16 == 13)) = false := by
    cases ret
    · exact congrArg (!·) hext
    · exact congrArg (!·) hext
  unfold State.qhook
  dsimp only
  rw [hown, hu, if_neg Bool.false_ne_true, if_neg (by rw [Bool.false_or, hother]; exact Bool.false_ne_true),
    hoperand]
  dsimp only
  rw [hload]
  dsimp only
  rw [hroom, hheld, if_neg (by decide)]
  rfl

theorem qhook_call (hext : n % 16 = 12 ∨ n % 16 = 13) : f.qhook e t pd ra rb false =
    if (v.thr e (n % 16)).state ≠ .halted then .retire (v.updThr e t fun y => y.setPred pd false)
    else .retire ((((v.hookSent e t n 4 b).updThr e (n % 16) Thread.hookStart).invStart e (n % 16)).updThr e t fun y =>
      y.setPred pd true) :=
  qhook_read pd hu hcluster hn hinbox hengine hoperand hload hroom hheld (by simpa using hext)

theorem qhook_return (hext : t = 12 ∨ t = 13) : f.qhook e t pd ra rb true =
    .retire (((v.hookSent e t n 5 b).updThr e t fun y =>
      { y.setPred pd true with state := .blocked, halting := true }).haltCheck e t) :=
  qhook_read pd hu hcluster hn hinbox hengine hoperand hload hroom hheld (by simpa using hext)

end

/-! ### DMAD -/

theorem exec_dmad (s : State) (e t : Nat) (g : Guard) (pd : Fin 8) (ra : Fin 32) :
    exec (.dmad e t g pd ra none) s = .next (s.instr e t g false fun s => s.dmad e t pd ra) :=
  congrArg Host.Outcome.next (instr_pre _ _ _ _ _ _)

section
variable {f : State} {e t : Nat} (pd : Fin 8) {ra : Fin 32} {u w : State} {ps qs : List Nat}
  (hread : f.operand e t .load ((f.thr e t).reg ra).toNat 64 1 = (u, .ok ps))
  (hwrite : u.operand e t .store ((f.thr e t).reg ra).toNat 64 1 = (w, .ok qs))
include hread hwrite

theorem dmad_full (hfull : 16 ≤ w.dmaOut e t) :
    f.dmad e t pd ra = .retire (w.updThr e t fun y => y.setPred pd false) := by
  simp only [State.dmad, hread, hwrite, if_pos hfull]

theorem dmad_issues (hroom : w.dmaOut e t < 16) {v : State} {b : Bytes} (hload : w.loadLines e t ps = (v, b))
    (hu : (f.thr e t).umode = false) : f.dmad e t pd ra =
      .retire ((((v.updThr e t fun y => { y with daddr := ((f.thr e t).reg ra).toNat }).pmc e t 0x0A 1).descIssue e t
        ((f.thr e t).reg ra).toNat (ps.headD 0) b).updThr e t fun y => y.setPred pd true) := by
  simp only [State.dmad, hread, hwrite, if_neg (Nat.not_le.mpr hroom), hload, hu, Bool.false_eq_true, false_and, if_false]

end

/-! ### ACC -/

theorem exec_acc (s : State) (e t : Nat) (g : Guard) (pd : Fin 8) (ra : Fin 32) :
    exec (.acc e t g pd ra none) s = .next (s.instr e t g false fun s => s.accIssue e t pd ra) :=
  congrArg Host.Outcome.next (instr_pre _ _ _ _ _ _)

section
variable {f : State} {e t va : Nat} (pd : Fin 8) {ra : Fin 32} (hva : va = ((f.thr e t).reg ra).toNat)
include hva

theorem accIssue_misaligned (hmis : va % 32 ≠ 0) : f.accIssue e t pd ra = .trap f ⟨0x03, some va⟩ := by
  subst hva
  exact if_pos hmis

variable (haligned : va % 32 = 0)
include haligned

theorem accIssue_full (hfull : 2 ≤ f.accOut e t) :
    f.accIssue e t pd ra = .retire (f.updThr e t fun y => y.setPred pd false) := by
  subst hva
  exact (if_neg (Classical.not_not.mpr haligned)).trans (if_pos hfull)

/-- The request of the beats `b` joins those of its cluster (R361, R487). -/
def State.accQueued (s : State) (e t : Nat) (b : Bytes) (src res : List (Nat × Nat)) : State :=
  (s.setClu (e / 12) { s.clu (e / 12) with acc := (s.clu (e / 12)).acc ++
    [{ engine := e, thread := t, c0 := byteAt b 2 == 1, func := byteAt b 0, req := b, src, res, since := s.now }] }).pmc
      e t 0x0B 1

/-- A request whose beats, source and result pass their checks is queued (R487 to R489). -/
theorem accIssue_queues (hroom : f.accOut e t < 2) (hu : (f.thr e t).umode = false) {u u1 : State} {ps : List (Nat × Nat)}
    {h : Bytes} (hfirst : f.rangeOf e t .load (beatsAt va 1) = (u, .ok ps)) (hhead : u.loadBeats e t ps = (u1, h))
    (hmin : 2 ≤ byteAt h 1) (hmax : byteAt h 1 ≤ 8) {u2 u3 : State} {ps2 : List (Nat × Nat)} {r : Bytes}
    (hothers : u1.rangeOf e t .load (beatsAt (va + 32) (byteAt h 1 - 1)) = (u2, .ok ps2))
    (hrest : u2.loadBeats e t ps2 = (u3, r)) (hgood : accBad (h ++ r) t = false)
    (hparity : ¬ (byteAt (h ++ r) 0 = 0x10 ∧ Config.maxM u3.variant < ecM (h ++ r))) {u4 u5 : State}
    {src res : List (Nat × Nat)}
    (hsrc : u3.rangeOf e t .load (pagePieces 18 (leAt (h ++ r) 16 8) (accSourceBytes (h ++ r))) = (u4, .ok src))
    (hres : u4.rangeOf e t .store (pagePieces 3 (leAt (h ++ r) 8 8) (8 + accResultBytes (byteAt (h ++ r) 0)))
      = (u5, .ok res)) :
    f.accIssue e t pd ra = .retire ((u5.accQueued e t (h ++ r) src res).updThr e t fun y => y.setPred pd true) := by
  subst hva
  have hbeats : ¬ (byteAt h 1 < 2 ∨ 8 < byteAt h 1) := by omega
  simp only [State.accIssue, haligned, ne_eq, not_true_eq_false, if_false, if_neg (Nat.not_le.mpr hroom), hfirst, hhead, hu,
    Bool.false_eq_true, false_and, if_neg hbeats, hothers, hrest, hgood, if_neg hparity, hsrc, hres, State.accQueued]

end

/-- Settles O19: each row is its effect at the fetched state, in one of its branches. Which thread issues, and that the word
stands at its PC, are log entries 18 and 19. -/
theorem messageInstructionsDeliverAndAnswer : Obligations.MessageInstructionsDeliverAndAnswer := by
  intro s f e t g pd ra rb hissues x hx no yes
  subst hx
  refine ⟨fun own hown hresumed => ?_, fun m c n hm hc hn => ?_, fun m n hm hn hu hcluster hinbox hengine u ps hoperand v b
    hload hroom hheld => ?_, fun hu ret => ?_, fun u ps hread w qs hwrite => ?_, fun va hva => ?_⟩
  · have hrow := exec_qpop s e t g pd ra hown
    exact ⟨fun tr hpop => exec_of_trap hissues hrow (qpop_refused pd hresumed hpop), fun n hpop =>
      ⟨fun u tr hoperand => exec_of_trap hissues hrow (qpop_faults pd hresumed hpop hoperand), fun u ps hoperand =>
        ⟨fun hempty => exec_of_body hissues hrow (qpop_empty pd hresumed hpop hoperand hempty),
          fun m rest hmbox => exec_of_body hissues hrow (qpop_takes pd hresumed hpop hoperand hmbox)⟩⟩⟩
  · have hrow := exec_qpush s e t g pd ra rb
    exact ⟨fun hu => exec_of_trap hissues hrow (qpush_umode pd hu),
      fun hu hfar => exec_of_trap hissues hrow (qpush_noCluster pd hm hc hu hfar),
      fun hu hnear habsent => exec_of_trap hissues hrow (qpush_absent pd hm hc hu hnear habsent),
      fun hu hnear hpresent u ps hoperand v b hload =>
        ⟨fun htype => exec_of_trap hissues hrow (qpush_badType pd hm hc hn hu hnear hpresent hoperand hload htype),
          fun hlow hhigh hfits =>
            ⟨fun hroom hheld => exec_of_body hissues hrow
                (qpush_delivers pd hm hc hn hu hnear hpresent hoperand hload hlow hhigh hfits hroom hheld),
              fun hfull => exec_of_body hissues hrow
                (qpush_full pd hm hc hn hu hnear hpresent hoperand hload hlow hhigh hfits hfull)⟩⟩⟩
  · subst hm
    refine ⟨fun hext => ⟨fun hhalted => ?_, fun hruns => ?_⟩, fun hext => ?_⟩
    · exact exec_of_body hissues (exec_qhook s e t g pd ra rb false) ((qhook_call pd hu hcluster hn hinbox hengine hoperand
        hload hroom hheld hext).trans (if_neg (Classical.not_not.mpr hhalted)))
    · exact exec_of_body hissues (exec_qhook s e t g pd ra rb false) ((qhook_call pd hu hcluster hn hinbox hengine hoperand
        hload hroom hheld hext).trans (if_pos hruns))
    · exact exec_of_body hissues (exec_qhook s e t g pd ra rb true)
        (qhook_return pd hu hcluster hn hinbox hengine hoperand hload hroom hheld hext)
  · exact exec_of_trap hissues (exec_qhook s e t g pd ra rb ret) (qhook_umode pd ra rb ret hu)
  · exact ⟨fun hfull => exec_of_body hissues (exec_dmad s e t g pd ra) (dmad_full pd hread hwrite hfull),
      fun hroom v b hload hu => exec_of_body hissues (exec_dmad s e t g pd ra)
        (dmad_issues pd hread hwrite hroom hload hu)⟩
  · have hrow := exec_acc s e t g pd ra
    exact ⟨fun hmis => exec_of_trap hissues hrow (accIssue_misaligned pd hva hmis),
      fun haligned hfull => exec_of_body hissues hrow (accIssue_full pd hva haligned hfull),
      fun haligned hroom hu u ps hfirst u1 h hhead hmin hmax u2 ps2 hothers u3 r hrest hgood hparity u4 src hsrc u5 res hres =>
        exec_of_body hissues hrow (accIssue_queues pd hva haligned hroom hu hfirst hhead hmin hmax hothers hrest hgood
          hparity hsrc hres)⟩

end Sys2Proof.Machine
end

section
/-! PROOFS. Scope: signer keys, extension images and attachments (R450 to R453), firmware (R674, R675, R678), SLOT_CONTROL
(R600), and RESET_CONTROLLER (R652, R655). -/

namespace Sys2Proof.Machine

/-! ### What is in force on both controllers -/

/-- The state in which a transfer goes to the shadow, where one is paired; command `seq` waits for its end (R550, R555). -/
def State.bulkPaired (s : State) (kind : BulkKind) (b : Bytes) (seq : Nat) : State :=
  if s.paired then s.sendBulk kind b (some seq) else s

theorem bulkPaired_solo {s : State} (kind : BulkKind) (b : Bytes) (seq : Nat) (hsolo : s.paired = false) :
    s.bulkPaired kind b seq = s :=
  if_neg (by rw [hsolo]; exact Bool.false_ne_true)

theorem bothBulk_transfer (s : State) (seq typ key info : Nat) (v : Option CfgVal) (kind : BulkKind) (b : Bytes) :
    s.bothBulk seq typ key v (some (kind, b)) info
      = ((s.cfgPut typ key v).bulkPaired kind b seq).bothForce seq [(typ, key)] info := rfl

theorem bothBulk_record (s : State) (seq typ key info : Nat) (v : Option CfgVal) :
    s.bothBulk seq typ key v none info = (s.cfgPut typ key v).bothForce seq [(typ, key)] info := rfl

/-! ### Signer keys -/

/-- The key in its slot, with its record waiting (R450). -/
def State.signerPut (s : State) (sl : Nat) (key : Bytes) : State :=
  ({ s with fct := { s.fct with signers := tblIns s.fct.signers sl key } } : State).cfgPut 0x03 sl (some (.signer key))

section
variable {s : State} {c : Cmd}

/-- The first key comes alone, a later one with a signature that verifies (R450). -/
theorem installSigner_verified {b : Bytes} (hsigned : b.length = 193 → s.signed (b.take 97) (b.drop 97) none = true) :
    s.installSigner c b = (((s.signerPut (byteAt c.entry 8) (b.take 97)).bulkPaired (.signer (byteAt c.entry 8)) (b.take 97)
      c.seq)).bothForce c.seq [(0x03, byteAt c.entry 8)] 0 := by
  refine (if_neg ?_).trans (bothBulk_transfer _ _ _ _ _ _ _ _)
  rintro ⟨hlen, hbad⟩
  simp [hsigned hlen] at hbad

theorem setSigner_installs (hact : byteAt c.entry 9 = 0) : s.setSigner c = s.withBuffer c State.installSigner :=
  if_pos hact

theorem setSigner_removes (hact : byteAt c.entry 9 = 1) : s.setSigner c =
    (({ s with fct := { s.fct with signers := tblDel s.fct.signers (byteAt c.entry 8) } } : State).cfgPut 0x03
      (byteAt c.entry 8) none).bothForce c.seq [(0x03, byteAt c.entry 8)] 0 :=
  if_neg (by rw [hact]; exact Nat.one_ne_zero)

/-! ### Extension images -/

/-- The image in its slot, with its record waiting (R451). -/
def State.imagePut (s : State) (sl : Nat) (b : Bytes) : State :=
  ({ s with fct := { s.fct with images := tblIns s.fct.images sl b } } : State).cfgPut 0x0C sl (some (.image b))

section
variable {b : Bytes}

theorem loadExt_badHeader (hheader : extHeaderOk b = false) :
    s.loadExt c b = (s.finish c.seq stInvalidField 8).flow := by
  unfold State.loadExt
  dsimp only
  rw [hheader, if_pos (by decide)]
  rfl

variable (hheader : extHeaderOk b = true)
include hheader

theorem loadExt_badLength (hlen : b.length ≠ 256 + leAt b 12 4 + leAt b 16 4) :
    s.loadExt c b = (s.finish c.seq stInvalidField 28).flow := by
  unfold State.loadExt
  dsimp only
  rw [hheader, if_neg (by decide), if_pos hlen]
  rfl

variable (hlen : b.length = 256 + leAt b 12 4 + leAt b 16 4)
include hlen

theorem loadExt_signature (s : State) (c : Cmd) : s.loadExt c b =
    if s.signed (b.take 96 ++ zeros 96 ++ b.drop 192) ((b.drop 96).take 96) (some ((b.drop 48).take 48)) then
      ((s.imagePut (byteAt c.entry 8) b).bulkPaired (.image (byteAt c.entry 8)) b c.seq).bothForce c.seq
        [(0x0C, byteAt c.entry 8)] 0
    else ((s.count .fctSigFail).finish c.seq stInvalidField 8).flow := by
  unfold State.loadExt
  dsimp only
  rw [hheader, if_neg (by decide), if_neg (Classical.not_not.mpr hlen)]
  cases s.signed (b.take 96 ++ zeros 96 ++ b.drop 192) ((b.drop 96).take 96) (some ((b.drop 48).take 48)) <;> rfl

end

theorem unloadExt_eq (s : State) (c : Cmd) : s.unloadExt c =
    (({ s with fct := { s.fct with images := tblDel s.fct.images (byteAt c.entry 8) } } : State).cfgPut 0x0C
      (byteAt c.entry 8) none).bothForce c.seq [(0x0C, byteAt c.entry 8)] 0 := rfl

/-! ### Attachments -/

/-- The attachment that ATTACH_HOOK makes at time `now` (R452). -/
def attachmentOf (e : Bytes) (now : Nat) : Attachment :=
  { image := byteAt e 8, hook := byteAt e 9, kind := byteAt e 10, failAction := byteAt e 11, budget := leAt e 12 4,
    period := leAt e 16 4, tenant := leAt e 20 4, target := leAt e 56 4, due := now + leAt e 16 4 * msec }

/-- The attachment at its number; one of KIND 0 has a configuration record (R452). -/
def State.attPut (s : State) (id : Nat) (a : Attachment) : State :=
  let s : State := { s with fct := { s.fct with atts := tblIns s.fct.atts id a } }
  if a.kind = 0 then s.cfgPut 0x0D id (some (.attach a)) else s

theorem attPut_keeps (s : State) (id : Nat) (a : Attachment) :
    (s.attPut id a).fct = { s.fct with atts := tblIns s.fct.atts id a } ∧ (s.attPut id a).regs = s.regs
    ∧ (s.attPut id a).mem = s.mem ∧ (s.attPut id a).out = s.out ∧ (s.attPut id a).qpe = s.qpe := by
  unfold State.attPut
  dsimp only
  split <;> exact ⟨rfl, rfl, rfl, rfl, rfl⟩

theorem attPut_queue (s : State) (id : Nat) (a : Attachment) : (s.attPut id a).sys.flash.queue
    = s.sys.flash.queue ++ if a.kind = 0 then [⟨0x0D, id, some (.attach a)⟩] else [] := by
  unfold State.attPut
  dsimp only
  split
  · rfl
  · exact (List.append_nil _).symm

/-- The attachment takes the lowest free number (log entry 23). -/
theorem attachHook_eq {id : Nat} {a : Attachment} (hid : id = s.freeAtt) (ha : a = attachmentOf c.entry s.now) :
    s.attachHook c = (s.attPut id a).bothForce c.seq (if a.kind = 0 then [(0x0D, id)] else []) id := by
  rw [hid, ha]
  unfold State.attachHook State.attPut
  dsimp only
  by_cases hkind : (attachmentOf c.entry s.now).kind = 0
  · rw [if_pos hkind, if_pos hkind]
    exact if_pos hkind
  · rw [if_neg hkind, if_neg hkind]
    exact if_neg hkind

/-- The attachment marked as being detached; its command waits (R453). -/
def State.detaching (s : State) (seq id : Nat) (a : Attachment) : State :=
  (({ s with fct := { s.fct with
    atts := tblIns s.fct.atts id { a with detach := some seq } } } : State).markPast seq).markWaiting seq

theorem detaching_fct (s : State) (seq id : Nat) (a : Attachment) :
    (s.detaching seq id a).fct = { s.fct with atts := tblIns s.fct.atts id { a with detach := some seq } } := by
  unfold State.detaching
  rw [State.markWaiting_fct, State.markPast_fct]

theorem detachHook_found {a : Attachment} (hatt : tblFind s.fct.atts (leAt c.entry 56 4) = some a) : s.detachHook c =
    (((s.detaching c.seq (leAt c.entry 56 4) a).endWaiting (leAt c.entry 56 4) { a with detach := some c.seq } .gone).detachCheck
      (leAt c.entry 56 4)).flow := by
  unfold State.detachHook
  dsimp only
  rw [hatt]
  rfl

/-- An attachment with no invocation has none that waits. -/
theorem endWaiting_none {id : Nat} (a : Attachment) (r : HookEnd) (hidle : (s.fct.invs.any fun i => i.att == id) = false) :
    s.endWaiting id a r = s := by
  have hother : ∀ i ∈ s.fct.invs, (i.att == id) = false := by simpa using hidle
  have hnone : (s.fct.invs.filter fun i => i.att == id && i.thread.isNone) = [] :=
    List.filter_eq_nil_iff.mpr fun i hi => by rw [hother i hi]; exact Bool.false_ne_true
  have hall : (s.fct.invs.filter fun i => !(i.att == id && i.thread.isNone)) = s.fct.invs :=
    List.filter_eq_self.mpr fun i hi => by rw [hother i hi]; rfl
  unfold State.endWaiting
  dsimp only
  rw [hnone, hall]
  rfl

theorem detachCheck_idle {id seq : Nat} {a : Attachment} (hatt : tblFind s.fct.atts id = some a) (hdetach : a.detach = some seq)
    (hidle : (s.fct.invs.any fun i => i.att == id) = false) {v : State}
    (hv : v = { s with fct := { s.fct with atts := tblDel s.fct.atts id } }) : s.detachCheck id =
      if a.kind = 0 then (v.cfgPut 0x0D id none).bothForce seq [(0x0D, id)] 0 else v.bothForce seq [] 0 := by
  subst hv
  unfold State.detachCheck
  rw [hatt]
  dsimp only
  rw [hdetach]
  dsimp only
  rw [hidle, if_neg Bool.false_ne_true]

/-! ### Firmware -/

/-- The bytes of FW_DOWNLOAD written at their offset of the slot (R674). -/
def State.fwPut (s : State) (i off : Nat) (b : Bytes) : State :=
  (s.writeSlot i off b).emit (.flash "SLOT" (0x100000 + i * 0xF00000 + off) b)

theorem fwWrite_eq (s : State) (c : Cmd) (b : Bytes) : s.fwWrite c b =
    ((s.fwPut (byteAt c.entry 8) (leAt c.entry 40 4) b).bulkPaired (.firmware (byteAt c.entry 8) (leAt c.entry 40 4)) b
      c.seq).bothForce c.seq [] 0 := rfl

theorem fwPut_slot (s : State) (i off : Nat) (b : Bytes) :
    ∃ o : Bytes, tblFind (s.fwPut i off b).sys.slots i = some (o.take off ++ b ++ o.drop (off + b.length)) :=
  ⟨_, tblFind_ins_self _ _ _⟩

theorem fwPut_others {i k : Nat} (s : State) (off : Nat) (b : Bytes) (hk : k ≠ i) :
    tblFind (s.fwPut i off b).sys.slots k = tblFind s.sys.slots k :=
  tblFind_ins_ne hk _ _

theorem fwActivate_nextReset (hact : byteAt c.entry 9 = 1) : s.fwActivate c =
    ((s.putPointer (byteAt c.entry 8) 1).bulkPaired (.pointer (byteAt c.entry 8) 1) [] c.seq).bothForce c.seq [] 0 :=
  if_pos hact

/-- FW_ACTIVATE without RESET: the activation begins, with the shadow's part first where this controller is ACTIVE (R676). -/
theorem fwActivate_begins (hact : byteAt c.entry 9 ≠ 1) {w v : State}
    (hw : w = ((s.markPast c.seq).markWaiting c.seq).setField .sysFwact 15 0 0)
    (hv : v = if s.shd.role = .active then w.sendBulk (.pointer (byteAt c.entry 8) 0) [] none else w) :
    s.fwActivate c = v.setActivation { seq := c.seq, slot := byteAt c.entry 8, old := v.sys.running,
                                       phase := if v.shd.role = .active then 1 else 2 } := by
  have hshd : s.shd = w.shd := by simp [hw]
  rw [hshd] at hv
  subst hv hw
  unfold State.fwActivate
  dsimp only
  rw [if_neg hact]

/-! ### SLOT_CONTROL -/

/-- The register of the slot goes to the configuration, and the command waits for it (R600, R664). -/
def State.slotKept (u : State) (c : Cmd) : State :=
  (u.slotRecord (byteAt c.entry 8)).bothForce c.seq [(0x0E, Reg.off .spmSlotCtl (byteAt c.entry 8))] 0

theorem markPast_slot (s : State) (seq sl : Nat) : (s.markPast seq).slot sl = s.slot sl := by
  unfold State.slot
  rw [State.markPast_spm]

theorem slotControl_on (hact : byteAt c.entry 9 = 0) :
    s.slotControl c = (s.writeEn (byteAt c.entry 8) true).slotKept c := by
  unfold State.slotControl
  rw [hact]
  rfl

theorem slotControl_off (hact : byteAt c.entry 9 = 1) (hstate : (s.slot (byteAt c.entry 8)).state ≠ .on) :
    s.slotControl c = (s.writeEn (byteAt c.entry 8) false).slotKept c := by
  unfold State.slotControl
  rw [hact]
  exact if_neg hstate

section
variable (hact : byteAt c.entry 9 = 1) (hstate : (s.slot (byteAt c.entry 8)).state = .on)
include hact hstate

/-- POWER_OFF of a slot that is ON asks its drive to shut down (R602). -/
theorem slotControl_asks (hnone : (s.slot (byteAt c.entry 8)).shutdown = none) : s.slotControl c =
    ((s.markPast c.seq).emit (.driveCtl (byteAt c.entry 8) "SHUTDOWN")).setSlot (byteAt c.entry 8)
      { s.slot (byteAt c.entry 8) with shutdown := some (s.now, [c.seq]) } := by
  unfold State.slotControl
  rw [hact]
  dsimp only
  rw [if_pos hstate, markPast_slot, hnone, State.markPast_now]
  rfl

/-- A further POWER_OFF joins those that wait for the drive (R602). -/
theorem slotControl_joins {t : Nat} {l : List Nat} (hsome : (s.slot (byteAt c.entry 8)).shutdown = some (t, l)) :
    s.slotControl c = (s.markPast c.seq).setSlot (byteAt c.entry 8)
      { s.slot (byteAt c.entry 8) with shutdown := some (t, l ++ [c.seq]) } := by
  unfold State.slotControl
  rw [hact]
  dsimp only
  rw [if_pos hstate, markPast_slot, hsome]
  rfl

end

theorem slotControl_cycle (hact : byteAt c.entry 9 = 2) :
    s.slotControl c = (s.slotCycle (byteAt c.entry 8)).slotKept c := by
  unfold State.slotControl
  rw [hact]
  rfl

theorem slotControl_release (hact : 2 < byteAt c.entry 9) :
    s.slotControl c = (s.slotRelease (byteAt c.entry 8)).slotKept c := by
  obtain ⟨n, hn⟩ := Nat.exists_eq_add_of_lt hact
  unfold State.slotControl
  rw [show byteAt c.entry 9 = n + 3 by omega]
  rfl

/-! ### RESET_CONTROLLER -/

theorem resetController_again (hunder : s.sys.orderly.isSome = true) :
    s.resetController c = ((s.markPast c.seq).finish c.seq stSuccess 0).flow :=
  if_pos hunder

/-- A reset asked for during an activation is held until its end (R678). -/
theorem resetController_held (hnone : s.sys.orderly = none) (hact : s.sys.activation.isSome = true) : s.resetController c =
    { s.markWaiting c.seq with sys := { (s.markWaiting c.seq).sys with orderly := some (5, .activation c.seq) } } := by
  unfold State.resetController
  rw [if_neg (by simp [hnone]), if_pos hact]

theorem resetController_begins (hnone : s.sys.orderly = none) (hact : s.sys.activation = none) :
    s.resetController c = (s.resetStart c.seq).orderlyStep := by
  unfold State.resetController
  rw [if_neg (by simp [hnone]), if_neg (by simp [hact])]

end

/-- An admin command that can take effect runs its step. -/
theorem exec_adminCan {s : State} {q cid op : Nat} {c : Cmd} {i : Instr} {run : State → Cmd → State} {u : State}
    (hcan : s.adminCan q cid op c) (hrow : exec i s = .next (s.adminRun q cid op run)) (hrun : run s c = u) :
    exec i s = .next u :=
  hrow.trans (congrArg Host.Outcome.next ((adminRun_can hcan run).trans hrun))

/-- Settles O24: each command that passes its checks is one write of its table, and waits as its rule says. The transfers to
the peer are those of log entries 65 and 72, the number of an attachment is the lowest free one (log entry 23), and a row with
a buffer runs again once it is in (log entry 73). -/
theorem extensionFirmwareAndSlotCommandsDoTheirEffect : Obligations.ExtensionFirmwareAndSlotCommandsDoTheirEffect := by
  refine fun s q cid c => ⟨fun hcan sl hsl => ⟨fun hact b hin hsigned => ?_, fun hact => ?_⟩, fun hcan sl b hsl hin => ?_,
    fun hcan id a hid ha => ?_, fun hcan id a w hid hatt hw => ?_, fun hcan i hi => ?_, fun hcan i off b hi hoff hin => ?_,
    fun hcan sl hsl => ⟨fun hact => ?_, fun hact w v hw hv => ?_⟩, fun hcan sl act hsl hact done hdone => ?_, fun hcan => ?_⟩
  · subst hsl
    refine ⟨_, exec_adminCan hcan rfl ((setSigner_installs hact).trans ((withBuffer_in hin _).trans
      (installSigner_verified hsigned))), fun hsolo => ?_, fun hpaired => ?_⟩
    · exact bulkPaired_solo _ _ _ hsolo
    · exact if_pos hpaired
  · subst hsl
    exact ⟨_, exec_adminCan hcan rfl (setSigner_removes hact), rfl, rfl, rfl, rfl, rfl, rfl, rfl⟩
  · subst hsl
    have hload : ∀ u, s.loadExt c b = u → exec (.loadExt q cid) s = .next u := fun u hu =>
      exec_adminCan hcan rfl ((withBuffer_in hin _).trans hu)
    refine ⟨fun hheader => hload _ (loadExt_badHeader hheader), fun hheader hlen => hload _ (loadExt_badLength hheader hlen),
      fun hheader hlen ok hok => ⟨fun hbad => ?_, fun hgood w hw => ?_⟩⟩
    · subst hok
      exact hload _ ((loadExt_signature hheader hlen s c).trans (if_neg (by rw [hbad]; exact Bool.false_ne_true)))
    · subst hok hw
      exact hload _ ((loadExt_signature hheader hlen s c).trans (if_pos hgood))
  · obtain ⟨hfct, hregs, hmem, hout, hqpe⟩ := attPut_keeps s id a
    refine ⟨_, exec_adminCan hcan rfl (attachHook_eq hid ha), ?_, fun k hk => ?_, attPut_queue s _ _, ?_, hregs, hmem, hout,
      hqpe⟩
    · rw [hfct]
      exact tblFind_ins_self _ _ _
    · rw [hfct]
      exact tblFind_ins_ne hk _ _
    · rw [hfct]
  · subst hid
    obtain rfl : w = s.detaching c.seq (leAt c.entry 56 4) a := hw
    have hrow := exec_adminCan (i := .detachHook q cid) hcan rfl (detachHook_found hatt)
    refine ⟨hrow, fun hidle v hv => ?_⟩
    have hfct := detaching_fct s c.seq (leAt c.entry 56 4) a
    rw [← congrArg Fct.invs hfct] at hidle
    have hmarked : tblFind (s.detaching c.seq (leAt c.entry 56 4) a).fct.atts (leAt c.entry 56 4)
        = some { a with detach := some c.seq } := by
      rw [hfct]
      exact tblFind_ins_self _ _ _
    rw [hrow, endWaiting_none _ _ hidle, detachCheck_idle hmarked rfl hidle hv]
  · subst hi
    exact ⟨_, exec_adminCan hcan rfl (unloadExt_eq s c), rfl, fun k hk => tblFind_del_ne hk _, rfl, rfl, rfl, rfl, rfl, rfl⟩
  · subst hi hoff
    exact ⟨_, exec_adminCan hcan rfl ((withBuffer_in hin _).trans (fwWrite_eq s c b)), fun k hk => fwPut_others s _ b hk,
      fwPut_slot s _ _ b, rfl, rfl, rfl, rfl, rfl, rfl⟩
  · subst hsl
    exact exec_adminCan hcan rfl (fwActivate_nextReset hact)
  · subst hsl
    exact exec_adminCan hcan rfl (fwActivate_begins hact hw hv)
  · subst hsl hact hdone
    refine ⟨fun hon => exec_adminCan hcan rfl (slotControl_on hon), fun hoff hstate => ?_, fun hoff hstate hnone => ?_,
      fun hoff hstate t l hsome => ?_, fun hcycle => exec_adminCan hcan rfl (slotControl_cycle hcycle),
      fun hrelease => exec_adminCan hcan rfl (slotControl_release hrelease)⟩
    · exact exec_adminCan hcan rfl (slotControl_off hoff hstate)
    · exact ⟨_, exec_adminCan hcan rfl (slotControl_asks hoff hstate hnone), rfl, rfl, rfl, rfl, rfl⟩
    · exact ⟨_, exec_adminCan hcan rfl (slotControl_joins hoff hstate hsome), rfl, rfl, rfl, rfl, rfl⟩
  · exact ⟨fun hunder => exec_adminCan hcan rfl (resetController_again hunder),
      fun hnone hact => ⟨_, exec_adminCan hcan rfl (resetController_held hnone hact), rfl, rfl, rfl, rfl⟩,
      fun hnone hact v hv => hv ▸ exec_adminCan hcan rfl (resetController_begins hnone hact)⟩

end Sys2Proof.Machine
end

section
/-! PROOFS. Scope: the instructions on registers alone: ALU, immediates, comparisons and predicates (R470, R471, R477, R478). -/

namespace Sys2Proof.Machine

/-! ### A row whose effect is on registers alone -/

section
variable {s f : State} {e t : Nat} {g : Guard} {i : Instr} {illegal : Bool} {w : Thread → Thread} (hfetched : s.fetched e t f)
  (hrow : exec i s = .next (s.instrRegs e t g illegal w))
include hfetched hrow

/-- A legal word writes where its guard holds, and only retires where it does not (R466). -/
theorem exec_regs_puts (hlegal : illegal = false) :
    (s.issues e t g f → exec i s = .next ((f.updThr e t w).retire e t none))
    ∧ ((f.thr e t).guardOn g = false → f.budgetSpent e t = false → exec i s = .next (f.retire e t none)) := by
  subst hlegal
  rw [hrow]
  exact (instrRegs_puts hfetched w).imp (fun hputs hissues => congrArg Host.Outcome.next (hputs hissues))
    (fun hoff hguard hbudget => congrArg Host.Outcome.next (hoff hguard hbudget))

/-- An illegal word traps, whatever its guard (R467). -/
theorem exec_regs_illegal (hillegal : illegal = true) : exec i s = .next (f.trapTo e t ⟨0x01, none⟩) :=
  hrow.trans (bad_of hfetched hillegal)

end

/-! ### What a word's fields select -/

theorem aluIllegal_of {fn : Nat} {rb : Fin 32} (h : 0x18 < fn ∨ 0x15 ≤ fn ∧ rb ≠ 0) : aluIllegal fn rb = true := by
  simpa [aluIllegal] using h

/-- The row of ALU, for a function that is defined (R470). -/
theorem exec_alu_defined {fn : Fin 128} {v : DWord → DWord → DWord} (hv : ∀ a b, aluFn fn.val a b = some (v a b)) (s : State)
    (e t : Nat) (g : Guard) (rd ra rb : Fin 32) : exec (.alu e t g rd ra rb fn) s
      = .next (s.instrRegs e t g (aluIllegal fn.val rb) fun x => x.setReg rd (v (x.reg ra) (x.reg rb))) := by
  show execAlu e t g rd ra rb fn s = _
  simp only [execAlu, hv, Option.getD_some]

/-- A word of SHI that no instruction uses (R471). -/
def shiftIllegal (imm : BitVec 12) : Bool := bitsOf imm.toNat 11 8 != 0 || bitsOf imm.toNat 7 6 == 3

theorem shiftIllegal_iff (imm : BitVec 12) :
    shiftIllegal imm = true ↔ bitsOf imm.toNat 11 8 ≠ 0 ∨ bitsOf imm.toNat 7 6 = 3 := by
  simp [shiftIllegal]

theorem shiftIllegal_of_kind {imm : BitVec 12} (hzero : bitsOf imm.toNat 11 8 = 0) (hkind : bitsOf imm.toNat 7 6 ≠ 3) :
    shiftIllegal imm = false :=
  Bool.eq_false_iff.mpr fun h => ((shiftIllegal_iff imm).mp h).elim (· hzero) hkind

/-- The row of SHI, for the shift `v` that its kind is (R471). -/
theorem exec_shi_kind {imm : BitVec 12} {v : DWord → DWord} (hv : shiftImm imm = v) (s : State) (e t : Nat) (g : Guard)
    (rd ra : Fin 32) : exec (.shi e t g rd ra imm) s
      = .next (s.instrRegs e t g (shiftIllegal imm) fun x => x.setReg rd (v (x.reg ra))) :=
  hv ▸ rfl

theorem shiftImm_left {imm : BitVec 12} (h : bitsOf imm.toNat 7 6 = 0) :
    shiftImm imm = fun a : DWord => a <<< (imm.toNat % 64) := by
  funext a
  simp only [shiftImm, h]

theorem shiftImm_right {imm : BitVec 12} (h : bitsOf imm.toNat 7 6 = 1) :
    shiftImm imm = fun a : DWord => a >>> (imm.toNat % 64) := by
  funext a
  simp only [shiftImm, h]

theorem shiftImm_signed {imm : BitVec 12} (h : bitsOf imm.toNat 7 6 = 2) :
    shiftImm imm = fun a : DWord => a.sshiftRight (imm.toNat % 64) := by
  funext a
  simp only [shiftImm, h]

/-- Settles O15: each row is `instrRegs` with the write that the word's fields select, and is illegal just where its function,
kind or code is undefined. Which thread issues, and that the word stands at its PC, are log entries 18 and 19. -/
theorem registerInstructionsWriteTheirResultAndRetire : Obligations.RegisterInstructionsWriteTheirResultAndRetire := by
  intro s f e t g rd ra rb pd pa pb i12 i16 i11 hfetched
  refine ⟨fun fn v hlegal hv => ?alu, fun fn hbad => ?aluIllegal, ?addi, ?andi, ?ori, ?xori, fun hzero hkind => ?shiftLeft,
    fun hzero hkind => ?shiftRight, fun hzero hkind => ?shiftSigned, fun hbad => ?shiftIllegal, ?seti, ?setiu, ?shin,
    fun fn hcode => ?cmp, fun fn hbad => ?cmpIllegal, fun cc hcode => ?cmpi, fun cc hbad => ?cmpiIllegal,
    fun fn hcode => ?plog, fun fn hbad => ?plogIllegal⟩
  case alu => exact exec_regs_puts hfetched (exec_alu_defined hv s e t g rd ra rb) hlegal
  case aluIllegal => exact exec_regs_illegal (g := g) hfetched rfl (aluIllegal_of hbad)
  case shiftLeft =>
    exact exec_regs_puts hfetched (exec_shi_kind (shiftImm_left hkind) s e t g rd ra) (shiftIllegal_of_kind hzero (by omega))
  case shiftRight =>
    exact exec_regs_puts hfetched (exec_shi_kind (shiftImm_right hkind) s e t g rd ra) (shiftIllegal_of_kind hzero (by omega))
  case shiftSigned =>
    exact exec_regs_puts hfetched (exec_shi_kind (shiftImm_signed hkind) s e t g rd ra) (shiftIllegal_of_kind hzero (by omega))
  case shiftIllegal => exact exec_regs_illegal hfetched (exec_shi_kind rfl s e t g rd ra) ((shiftIllegal_iff i12).mpr hbad)
  case cmp | cmpi | plog => exact exec_regs_puts hfetched rfl (decide_eq_false (Nat.not_lt.mpr hcode))
  case cmpIllegal | cmpiIllegal | plogIllegal => exact exec_regs_illegal (g := g) hfetched rfl (decide_eq_true hbad)
  case addi | andi | ori | xori | seti | setiu | shin => exact exec_regs_puts hfetched rfl rfl

end Sys2Proof.Machine
end

section
/-! PROOFS. Scope: the drive slots' power: presence, faults, insertion, inrush, retries, rail groups and samples (R582, R586 to
R590, R592 to R598, R602, R606 to R608). -/

namespace Sys2Proof.Machine

/-! ### Slots without a running supervisor -/

/-- No event of a slot is heard that the variant has not, or whose supervisor is not ON (R582). -/
theorem slotEvents_off {s : State} {sl : Nat} (hoff : s.slotRuns sl = false) :
    ∀ i ∈ [Instr.presenceEdge sl, .presenceLost sl, .presenceBounce sl, .fastTrip sl, .faultTimerExpire sl, .rampTimeout sl,
        .rampComplete sl, .powerGoodLost sl, .faultHistoryExpire sl, .insertDelayExpire sl, .rampStart sl, .retryExpire sl,
        .peerHoldDetect sl, .pgoodDeassert sl, .rootPortTrainStart sl, .spmSlotCycle sl, .spmSlotRelease sl],
      exec i s = .next s := by
  have hout : (!s.slotRuns sl) = true := by rw [hoff]; rfl
  have hno : ¬ s.slotRuns sl = true := Bool.eq_false_iff.mp hoff
  have hnot : ∀ {p : Prop}, ¬ (s.slotRuns sl = true ∧ p) := fun h => hno h.1
  have hhistory : s.historyExpire sl = s := by
    unfold State.historyExpire
    dsimp only
    cases (s.slot sl).faults with
    | nil => rfl
    | cons t rest => exact if_neg hno
  have hretry : s.retryExpire sl = s := by
    unfold State.retryExpire
    dsimp only
    cases (s.slot sl).retryAt with
    | none => rfl
    | some t => exact if_neg hnot
  have next : ∀ {u : State}, u = s → (.next u : Outcome) = .next s := fun h => h ▸ rfl
  simp only [List.forall_mem_cons]
  exact ⟨next (if_pos (.inl hout)), next (if_pos (.inl hout)), next (if_neg hno), next (if_pos hout), next (if_neg hnot),
    next (if_neg hnot), next (if_neg hnot), next (if_neg hnot), next hhistory, next (if_neg hnot), next (if_neg hnot),
    next hretry, next (if_neg hnot), next (if_neg hnot), next (if_neg hnot), next (if_neg hnot), next (if_neg hnot),
    fun _ h => absurd h List.not_mem_nil⟩

/-! ### A slot whose supervisor runs -/

section
variable {s : State} {sl : Nat} {x : Slot} (hx : x = s.slot sl)
include hx

theorem historyExpire_nil (hnil : x.faults = []) : s.historyExpire sl = s := by
  subst hx
  simp only [State.historyExpire, hnil]

theorem retryExpire_idle (hidle : x.retryAt = none ∨ x.state ≠ .latched) : s.retryExpire sl = s := by
  subst hx
  unfold State.retryExpire
  dsimp only
  cases hat : (s.slot sl).retryAt with
  | none => rfl
  | some t => exact if_neg fun h => hidle.elim (fun hnone => nomatch hat.symm.trans hnone) (· h.2)

variable (hrun : s.slotRuns sl = true)
include hrun

theorem presenceEdge_runs : s.presenceEdge sl = if x.present = true then s
    else if x.state = .empty then (s.setSlot sl { x with present := true, edgeAt := s.now }).slotIn sl
    else s.setSlot sl { x with present := true, edgeAt := s.now } := by
  subst hx
  simp only [State.presenceEdge, hrun, Bool.not_true, Bool.false_eq_true, false_or]

theorem presenceLost_runs : s.presenceLost sl = if x.present = false then s
    else if x.state = .quarantined then s.setSlot sl { x with present := false }
    else (s.setSlot sl { x with present := false }).slotTo sl .empty := by
  subst hx
  simp only [State.presenceLost, hrun, Bool.not_true, Bool.false_eq_true, false_or, Bool.not_eq_true']

theorem fastTrip_runs : s.fastTrip sl = if x.state.gate = true then (s.setSlot sl { x with trip := true }).slotFault sl 1
    else s.setSlot sl { x with trip := true } := by
  subst hx
  simp only [State.fastTrip, hrun, Bool.not_true, Bool.false_eq_true, if_false]

theorem timerFault_runs : s.timerFault sl = if x.state.gate = true ∧ s.faultLimit ≤ x.timer then s.slotFault sl 2 else s := by
  subst hx
  simp only [State.timerFault, hrun, true_and]

theorem rampTimeout_runs : s.rampTimeout sl = if x.state = .ramp then
    (s.advanceTo (x.gateAt + 20 * msec)).slotFault sl (if s.faultLimit ≤ x.timer then 2 else 3) else s := by
  subst hx
  simp only [State.rampTimeout, hrun, true_and]

theorem rampComplete_runs : s.rampComplete sl
    = if x.state = .ramp ∧ s.now ≤ x.gateAt + 20 * msec then s.slotTo sl .on else s := by
  subst hx
  simp only [State.rampComplete, hrun, true_and]

theorem pgLost_runs : s.pgLost sl = if x.state = .on then (s.setSlot sl { x with pg := false }).slotFault sl 4 else s := by
  subst hx
  simp only [State.pgLost, hrun, true_and]

theorem historyExpire_cons {t : Nat} {rest : List Nat} (hcons : x.faults = t :: rest) :
    s.historyExpire sl = (s.advanceTo (t + 60000 * msec)).setSlot sl { x with faults := rest } := by
  subst hx
  simp only [State.historyExpire, hcons, hrun, if_true]

theorem insertExpire_runs : s.insertExpire sl = if x.state = .insert ∧ (s.rail (sl / 12)).good = true then
    (s.advanceTo (max x.edgeAt (s.rail (sl / 12)).goodAt + s.insertDelay)).slotTo sl .queued else s := by
  subst hx
  simp only [State.insertExpire, hrun, true_and]

theorem retryExpire_due {t : Nat} {a : State} (hat : x.retryAt = some t) (hlatched : x.state = .latched)
    (ha : a = s.advanceTo t) : s.retryExpire sl = a.slotTo sl (if (a.rail (sl / 12)).good then .queued else .insert) := by
  subst hx ha
  simp only [State.retryExpire, hat]
  exact if_pos ⟨hrun, hlatched⟩

theorem peerHold_runs : s.peerHold sl = if x.state.gate = false ∧ x.peerHold = false then
    (s.setSlot sl { x with pg := true, peerHold := true }).event .spm else s := by
  subst hx
  simp only [State.peerHold, hrun, true_and, Bool.not_eq_true']

theorem pgDown_runs : s.pgDown sl = if x.state ≠ .on then s.setSlot sl { x with pg := false, peerHold := false } else s := by
  subst hx
  simp only [State.pgDown, hrun, true_and]

theorem trainStart_runs : s.trainStart sl = if x.state = .on ∧ x.perstOff = false then
    ((s.advanceTo (x.onAt + 10 * msec)).setSlot sl { x with perstOff := true }).emit (.pin "DRV_PERST_N" sl true) else s := by
  subst hx
  simp only [State.trainStart, hrun, true_and, Bool.not_eq_true']

theorem slotCycle_runs : s.slotCycle sl = if x.state = .latched then s.slotRetry sl else s := by
  subst hx
  simp only [State.slotCycle, hrun, true_and]

theorem slotRelease_runs {u : State} (hu : u = s.setSlot sl { x with faults := [] }) :
    s.slotRelease sl = if x.state = .quarantined then
      u.slotTo sl (if x.present then (if u.slotEn sl then .insert else .disabled) else .empty) else s := by
  subst hx hu
  simp only [State.slotRelease, State.slotIn, hrun, true_and]
  cases (s.slot sl).present <;> rfl

end

theorem rampStart_runs {s : State} {sl : Nat} (hrun : s.slotRuns sl = true) : s.rampStart sl
    = if s.nextRamp = some sl ∧ s.ramping < s.inrushMax then s.slotTo sl .ramp else s := by
  simp only [State.rampStart, hrun, true_and]

theorem presenceBounce_runs {s : State} {sl : Nat} (hrun : s.slotRuns sl = true) :
    exec (.presenceBounce sl) s = .next (s.count .spmBounce) :=
  congrArg Host.Outcome.next (if_pos hrun)

theorem shutdownDone_none {s : State} {sl : Nat} (h : (s.slot sl).shutdown = none) (d : Bool) : s.shutdownDone sl d = s := by
  unfold State.shutdownDone
  rw [h]

theorem shutdownDone_some {s : State} {sl t : Nat} {q : List Nat} (h : (s.slot sl).shutdown = some (t, q)) (d : Bool) :
    s.shutdownDone sl d = (if d then s else s.advanceTo (t + 10000 * msec)).slotTo sl .disabled := by
  unfold State.shutdownDone
  rw [h]

/-! ### Rail groups -/

section
variable {s : State} {g : Nat} {x : Rail} (hx : x = s.rail g)
include hx

theorem railGood_idle (hidle : s.readsOn 163 = false ∨ s.railPresent g = false ∨ x.good = true ∨ x.inSince = none) :
    s.railGood g = s := by
  subst hx
  unfold State.railGood
  dsimp only
  cases hin : (s.rail g).inSince with
  | none => rfl
  | some t =>
    rcases hidle with hoff | habsent | hgood | hnone
    · exact if_pos (.inl (by rw [hoff]; rfl))
    · exact if_pos (.inr (.inl (by rw [habsent]; rfl)))
    · exact if_pos (.inr (.inr hgood))
    · exact nomatch hin.symm.trans hnone

/-- Both rails have been in their windows for 50 ms (R586). -/
theorem railGood_settles {t : Nat} {a : State} (hon : s.readsOn 163 = true) (hthere : s.railPresent g = true)
    (hgood : x.good = false) (hin : x.inSince = some t) (ha : a = s.advanceTo (t + 50 * msec)) :
    s.railGood g = a.setRail g { x with good := true, goodAt := a.now } := by
  subst hx ha
  simp only [State.railGood, hin]
  exact if_neg (by rw [hon, hthere, hgood]; decide)

theorem railBad_idle (hidle : s.readsOn 163 = false ∨ x.good = false ∨ (x.ok12 = true ∧ x.ok3 = true)) : s.railBad g = s := by
  subst hx
  exact if_pos (by simpa only [Bool.not_eq_true'] using hidle)

/-- A rail outside its window takes the group's slots in QUEUED and RAMP back to INSERT (R587, R590). -/
theorem railBad_falls (hon : s.readsOn 163 = true) (hgood : x.good = true) (hout : x.ok12 = false ∨ x.ok3 = false) :
    s.railBad g = (List.range 12).foldl
      (fun s i => if (s.slot (12 * g + i)).state = .queued ∨ (s.slot (12 * g + i)).state = .ramp then
        s.slotTo (12 * g + i) .insert else s)
      (((s.setRail g { x with good := false, inSince := none }).count .spmRailOut).event .spm) := by
  subst hx
  refine if_neg ?_
  rw [hon, hgood]
  rcases hout with h | h <;> simp [h]

end

/-! ### Samples of a converter -/

theorem converterSample_absent {s : State} {g ch : Nat} (code : Nat)
    (h : s.readsOn 163 = false ∨ s.railPresent g = false ∨ 13 < ch ∨ (ch < 12 ∧ Config.slots s.variant ≤ 12 * g + ch)) :
    s.converterSample g ch code = s := by
  unfold State.converterSample
  rcases h with hoff | habsent | hch | ⟨hch, hsl⟩
  · exact if_pos (.inl (by rw [hoff]; rfl))
  · exact if_pos (.inr (.inl (by rw [habsent]; rfl)))
  · exact if_pos (.inr (.inr hch))
  · rw [if_pos hch, if_neg (Nat.not_lt.mpr hsl)]
    exact ite_self s

section
variable {s : State} {g : Nat} (hon : s.readsOn 163 = true) (hthere : s.railPresent g = true)
include hon hthere

theorem converterSample_slot {ch : Nat} (code : Nat) (hch : ch < 12) (hsl : 12 * g + ch < Config.slots s.variant) :
    s.converterSample g ch code = s.slotSample (12 * g + ch) code := by
  unfold State.converterSample
  rw [if_neg (by rw [hon, hthere]; simp; omega), if_pos hch, if_pos hsl]

theorem converterSample_twelve (code : Nat) : s.converterSample g 12 code = s.railSample g true code := by
  unfold State.converterSample
  rw [if_neg (by rw [hon, hthere]; decide)]
  rfl

theorem converterSample_three (code : Nat) : s.converterSample g 13 code = s.railSample g false code := by
  unfold State.converterSample
  rw [if_neg (by rw [hon, hthere]; decide)]
  rfl

end

section
variable {s : State} {sl code c : Nat} {x : Slot} (hx : x = s.slot sl) (hc : c = code % 4096)
include hx hc

theorem slotSample_closed (hgate : x.state.gate = false) :
    s.slotSample sl code = s.setSlot sl { x with current := c, trip := false } := by
  subst hx hc
  exact if_pos (by rw [hgate]; rfl)

theorem slotSample_atLimit (hgate : x.state.gate = true) (hlim : s.slotLim sl ≤ c) : s.slotSample sl code
    = s.setSlot sl { x with current := c, trip := false, timer := x.timer + 14, below := 0 } := by
  subst hx hc
  exact (if_neg (by rw [hgate]; decide)).trans (if_pos hlim)

theorem slotSample_below (hgate : x.state.gate = true) (hlim : c < s.slotLim sl) : s.slotSample sl code
    = s.setSlot sl { x with current := c, trip := false, below := x.below + 14
                            timer := if 1000 ≤ x.below + 14 then 0 else x.timer } := by
  subst hx hc
  exact (if_neg (by rw [hgate]; decide)).trans (if_neg (Nat.not_le.mpr hlim))

end

section
variable {s : State} {g code c : Nat} {y : Rail} (hc : c = code % 4096)
include hc

theorem railSample_twelve (hy : y = { s.rail g with v12 := c * 1440 / 4095
                                                    ok12 := decide (1080 * 4095 ≤ c * 1440 ∧ c * 1440 ≤ 1320 * 4095) }) :
    s.railSample g true code
      = s.setRail g { y with inSince := if y.ok12 ∧ y.ok3 then some (y.inSince.getD s.now) else none } := by
  subst hc hy
  dsimp only
  rw [← some_getD_match]
  rfl

theorem railSample_three (hy : y = { s.rail g with v3 := c * 2250 / 4095
                                                   ok3 := decide (1500 * 4095 ≤ c * 2250 ∧ c * 2250 ≤ 1800 * 4095) }) :
    s.railSample g false code
      = s.setRail g { y with inSince := if y.ok12 ∧ y.ok3 then some (y.inSince.getD s.now) else none } := by
  subst hc hy
  dsimp only
  rw [← some_getD_match]
  rfl

end

/-! ### The obligation -/

/-- Settles O37: each event is taken apart at its checks, in the order in which the model makes them (a timer's event moves the
clock, log entry 2). Every sample ends TRIP (log entry 13), volts are rounded down (log entry 14), and the channels and full
scales are those of log entry 16. -/
theorem slotPowerEventsDoTheirEffect : Obligations.SlotPowerEventsDoTheirEffect := by
  refine ⟨fun s sl hoff => slotEvents_off hoff, fun s sl x hx hrun => ⟨fun h => ?_, fun h u hu => ?_, fun h => ?_,
      fun h hq => ?_, fun h hq => ?_, presenceBounce_runs hrun, fun h => ?_, fun h => ?_, fun h => ?_, fun h => ?_, fun h => ?_,
      fun h => ?_, fun h => ?_, fun h => ?_, fun h => ?_, fun h => ?_, fun t rest h => ?_, fun h => ?_, fun h => ?_, fun h => ?_,
      fun h => ?_, fun h => ?_, fun t a hat h ha => ?_, fun h => ?_, fun h => ?_, fun h => ?_, fun h => ?_, fun h => ?_,
      fun h => ?_, fun h => ?_, fun h => ?_, fun h => ?_, fun h u hu => ?_, fun h => ?_⟩,
    fun s sl d => ⟨fun h => ?_, fun t q h => ?_⟩, fun s g x hx => ⟨fun h => ?_, fun t a hon hthere hgood hin ha => ?_,
      fun h => ?_, fun hon hgood hout => ?_⟩,
    fun s g ch code c hc => ⟨fun h => ?_, fun hon hthere => ⟨fun hch hsl x hx => ⟨fun hgate => ?_, fun hgate hlim => ?_,
      fun hgate hlim => ?_⟩, fun y hch hy => ?_, fun y hch hy => ?_⟩⟩⟩
  · exact congrArg Host.Outcome.next ((presenceEdge_runs hx hrun).trans (if_pos h))
  · subst hu
    exact congrArg Host.Outcome.next ((presenceEdge_runs hx hrun).trans (if_neg (by rw [h]; decide)))
  · exact congrArg Host.Outcome.next ((presenceLost_runs hx hrun).trans (if_pos h))
  · exact congrArg Host.Outcome.next ((presenceLost_runs hx hrun).trans ((if_neg (by rw [h]; decide)).trans (if_pos hq)))
  · exact congrArg Host.Outcome.next ((presenceLost_runs hx hrun).trans ((if_neg (by rw [h]; decide)).trans (if_neg hq)))
  · exact congrArg Host.Outcome.next ((fastTrip_runs hx hrun).trans (if_pos h))
  · exact congrArg Host.Outcome.next ((fastTrip_runs hx hrun).trans (if_neg (by rw [h]; decide)))
  · exact congrArg Host.Outcome.next ((timerFault_runs hx hrun).trans (if_pos h))
  · exact congrArg Host.Outcome.next ((timerFault_runs hx hrun).trans (if_neg h))
  · exact congrArg Host.Outcome.next ((rampTimeout_runs hx hrun).trans (if_pos h))
  · exact congrArg Host.Outcome.next ((rampTimeout_runs hx hrun).trans (if_neg h))
  · exact congrArg Host.Outcome.next ((rampComplete_runs hx hrun).trans (if_pos h))
  · exact congrArg Host.Outcome.next ((rampComplete_runs hx hrun).trans (if_neg h))
  · exact congrArg Host.Outcome.next ((pgLost_runs hx hrun).trans (if_pos h))
  · exact congrArg Host.Outcome.next ((pgLost_runs hx hrun).trans (if_neg h))
  · exact congrArg Host.Outcome.next (historyExpire_cons hx hrun h)
  · exact congrArg Host.Outcome.next (historyExpire_nil hx h)
  · exact congrArg Host.Outcome.next ((insertExpire_runs hx hrun).trans (if_pos h))
  · exact congrArg Host.Outcome.next ((insertExpire_runs hx hrun).trans (if_neg h))
  · exact congrArg Host.Outcome.next ((rampStart_runs hrun).trans (if_pos h))
  · exact congrArg Host.Outcome.next ((rampStart_runs hrun).trans (if_neg h))
  · exact congrArg Host.Outcome.next (retryExpire_due hx hrun hat h ha)
  · exact congrArg Host.Outcome.next (retryExpire_idle hx h)
  · exact congrArg Host.Outcome.next ((peerHold_runs hx hrun).trans (if_pos h))
  · exact congrArg Host.Outcome.next ((peerHold_runs hx hrun).trans (if_neg h))
  · exact congrArg Host.Outcome.next ((pgDown_runs hx hrun).trans (if_pos h))
  · exact congrArg Host.Outcome.next ((pgDown_runs hx hrun).trans (if_neg (not_not_intro h)))
  · exact congrArg Host.Outcome.next ((trainStart_runs hx hrun).trans (if_pos h))
  · exact congrArg Host.Outcome.next ((trainStart_runs hx hrun).trans (if_neg h))
  · exact congrArg Host.Outcome.next ((slotCycle_runs hx hrun).trans (if_pos h))
  · exact congrArg Host.Outcome.next ((slotCycle_runs hx hrun).trans (if_neg h))
  · exact congrArg Host.Outcome.next ((slotRelease_runs hx hrun hu).trans (if_pos h))
  · exact congrArg Host.Outcome.next ((slotRelease_runs hx hrun rfl).trans (if_neg h))
  · exact congrArg Host.Outcome.next (shutdownDone_none h d)
  · exact congrArg Host.Outcome.next (shutdownDone_some h d)
  · exact congrArg Host.Outcome.next (railGood_idle hx h)
  · exact congrArg Host.Outcome.next (railGood_settles hx hon hthere hgood hin ha)
  · exact congrArg Host.Outcome.next (railBad_idle hx h)
  · exact congrArg Host.Outcome.next (railBad_falls hx hon hgood hout)
  · exact congrArg Host.Outcome.next (converterSample_absent code h)
  · exact congrArg Host.Outcome.next ((converterSample_slot hon hthere code hch hsl).trans (slotSample_closed hx hc hgate))
  · exact congrArg Host.Outcome.next ((converterSample_slot hon hthere code hch hsl).trans (slotSample_atLimit hx hc hgate hlim))
  · exact congrArg Host.Outcome.next ((converterSample_slot hon hthere code hch hsl).trans (slotSample_below hx hc hgate hlim))
  · subst hch
    exact congrArg Host.Outcome.next ((converterSample_twelve hon hthere code).trans (railSample_twelve hc hy))
  · subst hch
    exact congrArg Host.Outcome.next ((converterSample_three hon hthere code).trans (railSample_three hc hy))

end Sys2Proof.Machine
end

section
/-! PROOFS. Scope: fatal events, their image, the watchdog and the WARM reset that ends them (R683, R687 to R690, R692, R695,
R697). -/

namespace Sys2Proof.Machine

/-! ### Fatal events -/

section
variable {s u : State} {cause site addr : Nat} {sh : Bool}
  (hu : u = s.setField .sysFatal 7 0 (min 0xFF (s.field .sysFatal 7 0 + 1)))
include hu

/-- A first fatal event shows its cause and stops the part (R687, R688). -/
theorem fatal_first (hnone : s.sys.fatal = none) : s.fatal cause site addr sh
    = (u.setField .sysFatal 23 16 cause).fatalStop { cause, site, addr, time := u.gnmNs, role := u.shd.role } sh := by
  subst hu
  simp only [State.fatal, setField_fatal, hnone]

/-- One while the image is being written shows its cause and counts in FOLLOW (R687). -/
theorem fatal_writing {f : FatalRun} (hsome : s.sys.fatal = some f) (hopen : f.complete = none) : s.fatal cause site addr sh
    = { u.setField .sysFatal 23 16 cause with sys := { u.sys with fatal := some { f with follow := f.follow + 1 } } } := by
  subst hu
  simp only [State.fatal, setField_fatal, hsome]
  exact if_neg (by rw [hopen]; decide)

theorem fatal_complete {f : FatalRun} (hsome : s.sys.fatal = some f) (hdone : f.complete ≠ none) :
    s.fatal cause site addr sh = u := by
  subst hu
  simp only [State.fatal, setField_fatal, hsome]
  exact if_pos (Option.isSome_iff_ne_none.mpr hdone)

end

theorem handshakeTimeout_busy {s : State} {isl : Nat} (h : (s.island isl).busy ≠ none) :
    exec (.handshakeTimeout isl) s = .next s :=
  congrArg Host.Outcome.next (if_pos (Option.isSome_iff_ne_none.mpr h))

theorem handshakeTimeout_idle {s : State} {isl : Nat} (h : (s.island isl).busy = none) :
    exec (.handshakeTimeout isl) s = .next (s.fatal 4 isl 0 (isl == 162)) :=
  congrArg Host.Outcome.next (if_neg (by rw [h]; decide))

/-! ### SYS_ERR_CTL and SYS_WDOG -/

theorem sysDown_asleep {s : State} {req : Requester} (hsleep : s.glm.asleep = true) (hreq : req ≠ .jtag) :
    s.sysDown req = true := by
  rw [State.sysDown, hsleep, bne_iff_ne.mpr hreq]
  rfl

theorem sysDown_heard {s : State} {req : Requester} (h : s.glm.asleep = false ∨ req = .jtag) : s.sysDown req = false := by
  rcases h with h | h
  · rw [State.sysDown, h]
    rfl
  · rw [State.sysDown, h]
    exact Bool.and_false _

section
variable {s : State} {req : Requester} (v : Word)

theorem sysRegs_down (h : s.sysDown req = true) :
    exec (.sysErrFatal req v) s = .next s ∧ exec (.watchdogPet req v) s = .next s :=
  ⟨congrArg Host.Outcome.next (if_pos h), congrArg Host.Outcome.next (if_pos h)⟩

theorem sysErrFatal_heard (h : s.sysDown req = false) : exec (.sysErrFatal req v) s
    = .next (if bitOf v.toNat 31 = true ∧ v.toNat % 2 ^ 16 = 0xFA7A then
        (s.setField .sysErrCtl 30 30 (bitsOf v.toNat 30 30)).fatal 8 (siteOf req) 0 false
      else s.setField .sysErrCtl 30 30 (bitsOf v.toNat 30 30)) :=
  congrArg Host.Outcome.next ((if_neg (Bool.eq_false_iff.mp h)).trans (errCtl_whole s req v))

theorem watchdogPet_basalt {k : Nat} {u : State} (h : s.sysDown (.basalt k) = false)
    (hu : u = s.setField .sysWdog 15 0 (v.toNat % 2 ^ 16)) : exec (.watchdogPet (.basalt k) v) s
      = .next (if bitOf v.toNat 31 then { u with sys := { u.sys with petAt := some u.now } } else u) := by
  subst hu
  exact congrArg Host.Outcome.next ((if_neg (Bool.eq_false_iff.mp h)).trans (wdogCtl_whole s k v))

/-- The watchdog is Basalt's alone (R697). -/
theorem watchdogPet_other (h : s.sysDown req = false) (hreq : ∀ k, req ≠ .basalt k) :
    exec (.watchdogPet req v) s = .next s := by
  refine congrArg Host.Outcome.next ((if_neg (Bool.eq_false_iff.mp h)).trans ?_)
  cases req with
  | basalt k => exact absurd rfl (hreq k)
  | thread e t => rfl
  | jtag => rfl

end

/-! ### The image and what follows it -/

theorem fatalRows_none {s : State} (h : s.sys.fatal = none) :
    exec .fatalImageComplete s = .next s ∧ exec .fatalResetTimer s = .next s ∧ exec .fatalWatchdogReset s = .next s := by
  refine ⟨congrArg Host.Outcome.next ?_, congrArg Host.Outcome.next ?_, congrArg Host.Outcome.next ?_⟩
  · simp only [State.imageComplete, h]
  · simp only [State.fatalTimer, h, Option.bind_none]
  · simp only [State.watchdogReset, h]

section
variable {s : State} {f : FatalRun} (hf : s.sys.fatal = some f)
include hf

theorem imageComplete_again (hdone : f.complete ≠ none) : s.imageComplete = s := by
  simp only [State.imageComplete, hf]
  exact if_pos (Option.isSome_iff_ne_none.mpr hdone)

/-- The image is stored, its bits are set, and it goes to the peer where the Mirror link is up (R690, R692). -/
theorem imageComplete_first (hopen : f.complete = none) {l : Bool} {m u : State} (hl : l = (m.shd.halfA || m.shd.halfB))
    (hm : m = (((s.store s.fatalBase (s.fatalImage f)).drew (2 ^ 20 + 2)).setField .sysFatal 31 31 1).setField .sysFatal 29 29 0)
    (hu : u = m.updFatal fun f => { f with complete := some m.now, pulling := l }) :
    s.imageComplete = if l then u.sendBulk .fatal (s.fatalImage f) none else u := by
  subst hu hl hm
  simp only [State.imageComplete, hf]
  exact if_neg (by rw [hopen]; decide)

theorem fatalTimer_writing (hopen : f.complete = none) : s.fatalTimer = s := by
  simp only [State.fatalTimer, hf, Option.bind_some, hopen]

theorem fatalTimer_complete {t : Nat} (hdone : f.complete = some t) :
    s.fatalTimer = if s.bit .sysErrCtl 30 then s else (s.advanceTo (t + 1000 * msec)).warmReset 6 := by
  simp only [State.fatalTimer, hf, Option.bind_some, hdone]
  rfl

/-- The 100 ms of R689 run out only for an image that is being written when the watchdog has expired. -/
theorem watchdogReset_idle (h : f.complete ≠ none ∨ f.expired = none) : s.watchdogReset = s := by
  simp only [State.watchdogReset, hf]
  split
  · next t hexpired hopen => exact h.elim (absurd hopen) fun hnone => nomatch hexpired.symm.trans hnone
  · rfl

theorem watchdogReset_due (hopen : f.complete = none) {t : Nat} (hexpired : f.expired = some t) :
    s.watchdogReset = (s.advanceTo (t + 100 * msec)).warmReset 6 := by
  simp only [State.watchdogReset, hf, hexpired, hopen]

end

/-! ### The watchdog -/

theorem watchdogExpire_idle {s : State} (h : s.sys.petAt = none ∨ s.field .sysWdog 15 0 = 0) : s.watchdogExpire = s := by
  unfold State.watchdogExpire
  dsimp only
  cases hat : s.sys.petAt with
  | none => rfl
  | some t => exact if_pos (h.resolve_left fun hnone => nomatch hat.symm.trans hnone)

/-- The expiry of the watchdog at state `u`: a WARM reset with a complete image, else a note of it, after a fatal event where
none is handled yet (R689, R695, R697). -/
def State.watchdogRunsOut (u : State) : State :=
  match u.sys.fatal with
  | some f => if f.complete.isSome then u.warmReset 6 else u.updFatal fun f => { f with expired := some u.now }
  | none => (u.fatal 7 166 0 false).updFatal fun f => { f with expired := some u.now }

theorem watchdogRunsOut_some {u : State} {f : FatalRun} (hf : u.sys.fatal = some f) : u.watchdogRunsOut
    = if f.complete.isSome then u.warmReset 6 else u.updFatal fun f => { f with expired := some u.now } := by
  unfold State.watchdogRunsOut
  rw [hf]

theorem watchdogRunsOut_none {u : State} (hnone : u.sys.fatal = none) : u.watchdogRunsOut
    = (u.fatal 7 166 0 false).updFatal fun f => { f with expired := some u.now } := by
  unfold State.watchdogRunsOut
  rw [hnone]

theorem watchdogExpire_due {s a u : State} {t : Nat} (hat : s.sys.petAt = some t) (hlimit : s.field .sysWdog 15 0 ≠ 0)
    (ha : a = s.advanceTo (t + s.field .sysWdog 15 0 * msec)) (hu : u = { a with sys := { a.sys with petAt := none } }) :
    s.watchdogExpire = u.watchdogRunsOut := by
  subst ha hu
  unfold State.watchdogExpire
  rw [hat]
  exact if_neg hlimit

/-! ### The obligation -/

/-- Settles O41: each event is taken apart at the fatal event noted and at how far its image has come. The sites 166 and
0xFFFFFFFF are those of log entry 79, and the image is written whole at its completion (log entry 78) with the free values it
draws (log entry 28). -/
theorem fatalCommandsDoTheirEffect : Obligations.FatalCommandsDoTheirEffect := by
  refine ⟨fun s u cause site addr sh hu => ⟨fatal_first hu, fun f hsome hopen => fatal_writing hu hsome hopen,
      fun f hsome hdone => fatal_complete hu hsome hdone⟩,
    fun s isl => ⟨rfl, rfl, handshakeTimeout_busy, handshakeTimeout_idle⟩,
    fun s req v => ⟨fun hsleep hreq => sysRegs_down v (sysDown_asleep hsleep hreq), fun hheard =>
      ⟨fun u hu => ⟨fun hfatal hkey => ?_, fun hno => ?_⟩, fun k u hreq hu => ⟨fun hpet => ?_, fun hpet => ?_⟩,
        watchdogPet_other v (sysDown_heard hheard)⟩⟩,
    fun s => ⟨fatalRows_none, fun f hf => ⟨fun hdone => ⟨?_, ?_⟩, fun hopen => ⟨?_, fun l m u hl hm hu => ?_,
      fun hexpired => ?_, fun t hexpired => ?_⟩, fun t hdone => ⟨fun hhold => ?_, fun hfree => ?_⟩⟩⟩,
    fun s n hn => ⟨fun hidle => ?_, fun t a u hat hlimit ha hu => ⟨fun f hf => ⟨fun hdone => ?_, fun hopen => ?_⟩,
      fun hnone => ?_⟩⟩⟩
  · subst hu
    exact (sysErrFatal_heard v (sysDown_heard hheard)).trans (congrArg Host.Outcome.next (if_pos ⟨hfatal, hkey⟩))
  · subst hu
    exact (sysErrFatal_heard v (sysDown_heard hheard)).trans (congrArg Host.Outcome.next (if_neg hno))
  · subst hreq
    exact (watchdogPet_basalt v (sysDown_heard hheard) hu).trans (congrArg Host.Outcome.next (if_pos hpet))
  · subst hreq
    exact (watchdogPet_basalt v (sysDown_heard hheard) hu).trans
      (congrArg Host.Outcome.next (if_neg (Bool.eq_false_iff.mp hpet)))
  · exact congrArg Host.Outcome.next (imageComplete_again hf hdone)
  · exact congrArg Host.Outcome.next (watchdogReset_idle hf (.inl hdone))
  · exact congrArg Host.Outcome.next (fatalTimer_writing hf hopen)
  · exact congrArg Host.Outcome.next (imageComplete_first hf hopen hl hm hu)
  · exact congrArg Host.Outcome.next (watchdogReset_idle hf (.inr hexpired))
  · exact congrArg Host.Outcome.next (watchdogReset_due hf hopen hexpired)
  · exact congrArg Host.Outcome.next ((fatalTimer_complete hf hdone).trans (if_pos hhold))
  · exact congrArg Host.Outcome.next ((fatalTimer_complete hf hdone).trans (if_neg (Bool.eq_false_iff.mp hfree)))
  · subst hn
    exact congrArg Host.Outcome.next (watchdogExpire_idle hidle)
  · subst hn
    exact congrArg Host.Outcome.next ((watchdogExpire_due hat hlimit ha hu).trans ((watchdogRunsOut_some hf).trans
      (if_pos (Option.isSome_iff_ne_none.mpr hdone))))
  · subst hn
    exact congrArg Host.Outcome.next ((watchdogExpire_due hat hlimit ha hu).trans ((watchdogRunsOut_some hf).trans
      (if_neg (by rw [hopen]; decide))))
  · subst hn
    exact congrArg Host.Outcome.next ((watchdogExpire_due hat hlimit ha hu).trans (watchdogRunsOut_none hnone))

end Sys2Proof.Machine
end

section
/-! PROOFS. Scope: the interrupt controller's claims, ends, masks and pending bits, and Glimmer's sleep (R626 to R629, R631 to
R634, R636, R637). -/

namespace Sys2Proof.Machine

/-! ### The interrupt controller -/

/-- A row that is heard only awake. -/
theorem exec_awake {s : State} {i : Instr} (f : State → State) (h : s.glm.asleep = false) (hrow : exec i s = s.whenAwake f) :
    exec i s = .next (f s) :=
  hrow.trans (whenAwake_on h f)

theorem exec_asleep {s : State} {i : Instr} (f : State → State) (h : s.glm.asleep = true) (hrow : exec i s = s.whenAwake f) :
    exec i s = .next s :=
  hrow.trans (whenAwake_off h f)

theorem wakeRows_asleep {s : State} (req : Requester) (k n : Nat) (v : Word) (h : s.glm.asleep = true) :
    ∀ i ∈ [Instr.icuClaim req k, .icuEoi k n, .icuMaskSet k v, .icuMaskClr k v, .icuPendSet k v, .icuPendClr k v,
      .glimmerSleep k], exec i s = .next s := by
  simp only [List.forall_mem_cons]
  exact ⟨exec_asleep (fun s => s.icuClaim req k) h rfl,
    exec_asleep (fun s => s.icuEoi k n) h rfl,
    exec_asleep (fun s => s.icuMask k v.toNat true) h rfl,
    exec_asleep (fun s => s.icuMask k v.toNat false) h rfl,
    exec_asleep (fun s => s.icuPend k v.toNat true) h rfl,
    exec_asleep (fun s => s.icuPend k v.toNat false) h rfl,
    exec_asleep (fun s => if k < 4 then s.glimmerSleep else s) h rfl,
    fun _ hnil => absurd hnil List.not_mem_nil⟩

section
variable {s : State} {req : Requester} {k n : Nat}

theorem icuClaim_none (h : ¬ (req = .basalt k ∧ k < 4) ∨ s.claimable k = none) :
    s.icuClaim req k = s.emit (.readData req (Reg.off .icuClaim k) 0) := by
  have hnone : (if req = .basalt k ∧ k < 4 then s.claimable k else none) = none := by
    rcases h with hreq | hclaim
    · exact if_neg hreq
    · rw [hclaim, ite_self]
  simp only [State.icuClaim, hnone]

/-- A claim answers the source, which is active at the core and pending no more (R628). -/
theorem icuClaim_some (hreq : req = .basalt k) (hk : k < 4) (hclaim : s.claimable k = some n) :
    s.icuClaim req k = { s.emit (.readData req (Reg.off .icuClaim k) (2 ^ 31 + n)) with
      icu := { s.icu with pend := s.icu.pend &&& ~~~(1#4096 <<< n), active := setAt s.icu.active k (some n) } } := by
  have hsome : (if req = .basalt k ∧ k < 4 then s.claimable k else none) = some n := (if_pos ⟨hreq, hk⟩).trans hclaim
  simp only [State.icuClaim, hsome]

end

/-- Each word row sets or clears the bits written as 1 (R627). -/
theorem icuWords_awake {s : State} {k : Nat} {v : Word} {b : BitVec 4096} (h : s.glm.asleep = false)
    (hb : b = wordAt k v.toNat) :
    exec (.icuMaskSet k v) s = .next { s with icu := { s.icu with mask := s.icu.mask ||| b } }
    ∧ exec (.icuMaskClr k v) s = .next { s with icu := { s.icu with mask := s.icu.mask &&& ~~~b } }
    ∧ exec (.icuPendSet k v) s = .next { s with icu := { s.icu with pend := s.icu.pend ||| b } }
    ∧ exec (.icuPendClr k v) s = .next { s with icu := { s.icu with pend := s.icu.pend &&& ~~~b } } := by
  subst hb
  exact ⟨exec_awake (fun s => s.icuMask k v.toNat true) h rfl,
    exec_awake (fun s => s.icuMask k v.toNat false) h rfl,
    exec_awake (fun s => s.icuPend k v.toNat true) h rfl,
    exec_awake (fun s => s.icuPend k v.toNat false) h rfl⟩

/-! ### Sleep and the wake timer -/

theorem glimmerEnter_idle {s : State} (h : s.glm.asked = false ∨ s.glm.asleep = true) : s.glimmerEnter = s := by
  refine if_pos ?_
  rcases h with h | h <;> rw [h]
  · rfl
  · exact Bool.or_true _

section
variable {s u : State} (hasked : s.glm.asked = true) (hawake : s.glm.asleep = false)
  (hu : u = { s with glm := { s.glm with asked := false } })
include hasked hawake hu

/-- A watched source that is pending keeps Glimmer awake (R632). -/
theorem glimmerEnter_refuses
    (h : ∃ i < 64, u.bit .glmWatch 31 i = true ∧ srcBit u.pendings (u.field .glmWatch 11 0 i) = true) :
    s.glimmerEnter = u.setField .glmCtl 30 30 1 := by
  subst hu
  refine (if_neg (by rw [hasked, hawake]; decide)).trans (if_pos (List.any_eq_true.mpr ?_))
  obtain ⟨i, hi, hwatch, hpend⟩ := h
  exact ⟨i, List.mem_range.mpr hi, Bool.and_eq_true_iff.mpr ⟨hwatch, hpend⟩⟩

/-- Islands 165 and 166 go to RETAIN, and Glimmer sleeps (R632). -/
theorem glimmerEnter_sleeps {a b : State}
    (h : ∀ i < 64, ¬ (u.bit .glmWatch 31 i = true ∧ srcBit u.pendings (u.field .glmWatch 11 0 i) = true))
    (ha : a = (u.setIsland 165 { u.island 165 with state := .retain, busy := none, trans := u.gnmNs }).trace 1 165)
    (hb : b = (a.setIsland 166 { a.island 166 with state := .retain, busy := none, trans := a.gnmNs }).trace 1 166) :
    s.glimmerEnter = (({ b with glm := { b.glm with asleep := true, since := some b.now } } : State).raise 229).raise 230 := by
  subst hb ha hu
  refine (if_neg (by rw [hasked, hawake]; decide)).trans (if_neg fun hany => ?_)
  obtain ⟨i, hi, hbits⟩ := List.any_eq_true.mp hany
  exact h i (List.mem_range.mp hi) (Bool.and_eq_true_iff.mp hbits)

end

theorem glimmerTimer_idle {s : State} (h : s.glm.asleep = false ∨ s.field .glmTimer 23 0 = 0 ∨ s.glm.clockLost = true) :
    s.glimmerTimer = s := by
  refine if_neg ?_
  rcases h with h | h | h <;> simp [h]

theorem glimmerTimer_expires {s : State} (hsleep : s.glm.asleep = true) (hcount : s.field .glmTimer 23 0 ≠ 0)
    (hclock : s.glm.clockLost = false) {u : State}
    (hu : u = s.advanceTo (s.glm.since.getD s.now + ceilDiv (s.field .glmTimer 23 0 * 1000000000) 32768)) :
    s.glimmerTimer = ({ u with glm := { u.glm with latched := u.glm.latched ||| (1#4096 <<< 27) } } : State).wake none := by
  subst hu
  exact if_pos (by rw [hsleep, hclock, bne_iff_ne.mpr hcount]; rfl)

/-! ### The obligation -/

/-- Settles O39: in sleep no row is heard, and awake each is its operation (the wake timer moves the clock, log entry 2, and
does not expire once its clock is lost, log entry 82). -/
theorem interruptAndSleepCommandsDoTheirEffect : Obligations.InterruptAndSleepCommandsDoTheirEffect := by
  refine ⟨fun s req k n v hsleep => wakeRows_asleep req k n v hsleep,
    fun s req k n v hawake => ⟨fun hno => ?_, fun hreq hk hclaim => ?_, fun hactive => ?_, fun hspur => ?_,
      fun b hb => icuWords_awake hawake hb,
      exec_awake (fun s => if k < 4 then s.glimmerSleep else s) hawake rfl⟩,
    fun s => ⟨fun hidle => ?_, fun hasked hawake u hu => ⟨fun hwatch => ?_, fun hquiet a ha b hb => ?_⟩⟩,
    fun s n hn => ⟨fun hidle => ?_, fun hsleep hcount hclock u hu => ?_⟩⟩
  · exact (icuClaim_awake req k hawake).trans (congrArg Host.Outcome.next (icuClaim_none hno))
  · exact (icuClaim_awake req k hawake).trans (congrArg Host.Outcome.next (icuClaim_some hreq hk hclaim))
  · exact (icuEoi_awake k n hawake).trans (congrArg Host.Outcome.next (if_pos hactive))
  · exact (icuEoi_awake k n hawake).trans (congrArg Host.Outcome.next (if_neg hspur))
  · exact congrArg Host.Outcome.next (glimmerEnter_idle hidle)
  · exact congrArg Host.Outcome.next (glimmerEnter_refuses hasked hawake hu hwatch)
  · exact congrArg Host.Outcome.next (glimmerEnter_sleeps hasked hawake hu hquiet ha hb)
  · subst hn
    exact congrArg Host.Outcome.next (glimmerTimer_idle hidle)
  · subst hn
    exact congrArg Host.Outcome.next (glimmerTimer_expires hsleep hcount hclock hu)

end Sys2Proof.Machine
end

section
/-! PROOFS. Scope: resets, the console, configuration records and CLUSTER_SWITCH (R650, R652, R654, R655, R660 to R662, R666,
R667, R676, R677, R679). -/

namespace Sys2Proof.Machine

/-! ### Resets -/

/-- Start-up from the state that a reset keeps: without an image the ROM stays where it is (R660, R667). -/
theorem startUp_eq {b u : State} (hu : u = (((List.range 168).foldl State.bringUp b.romStep.1).stepFour.setReg .sysMode 0).setField
    .sysBoot 31 28 7) : b.startUp = if b.romStep.2 then
      ({ u with sys := { u.sys with started := true, serviceAt := some u.now } } : State).stepSix.stepNine else b.romStep.1 := by
  subst hu
  unfold State.startUp
  rcases b.romStep with ⟨t, found⟩
  cases found with
  | false => rfl
  | true => simp only [if_true]

section
variable {s : State} {req : Requester} {v : Word}

theorem sysRstWarm_idle (h : s.sysDown req = true ∨ rstKey req v.toNat = false ∨ bitOf v.toNat 31 = false) :
    exec (.sysRstWarm req v) s = .next s := by
  refine congrArg Host.Outcome.next ((ite_eq_left_iff).mpr fun hheard => if_neg ?_)
  rcases h with hdown | hkey | hbit
  · exact absurd hdown hheard
  · rw [hkey, Bool.false_and]
    decide
  · rw [hbit, Bool.and_false]
    decide

theorem sysRstOrderly_idle
    (h : s.sysDown req = true ∨ rstKey req v.toNat = false ∨ bitOf v.toNat 30 = false ∨ s.sys.orderly ≠ none) :
    exec (.sysRstOrderly req v) s = .next s := by
  refine congrArg Host.Outcome.next ((ite_eq_left_iff).mpr fun hheard => if_neg ?_)
  rcases h with hdown | hkey | hbit | hunder
  · exact absurd hdown hheard
  · simp [hkey]
  · simp [hbit]
  · simp [hunder]

variable (hheard : s.sysDown req = false) (hkey : rstKey req v.toNat = true)
include hheard hkey

theorem sysRstWarm_resets (hbit : bitOf v.toNat 31 = true) : exec (.sysRstWarm req v) s = .next (s.warmBase 3).startUp :=
  congrArg Host.Outcome.next ((if_neg (Bool.eq_false_iff.mp hheard)).trans (if_pos (by rw [hkey, hbit]; rfl)))

theorem sysRstOrderly_begins (hbit : bitOf v.toNat 30 = true) (hnone : s.sys.orderly = none) :
    exec (.sysRstOrderly req v) s = .next (s.orderlyBegin 4).orderlyStep :=
  congrArg Host.Outcome.next ((if_neg (Bool.eq_false_iff.mp hheard)).trans (if_pos (by rw [hkey, hbit, hnone]; rfl)))

end

/-! The steps of an ORDERLY reset go by the role (R652). -/

section
variable {s : State} {cause : Nat}

theorem orderlyBegin_solo (h : s.shd.role = .solo) {u : State}
    (hu : u = (((s.qpe.qps.filter fun e => e.2.state != .free).map (·.1)).foldl (fun s q => s.resetReach q .controller) s).flow) :
    s.orderlyBegin cause = { u with sys := { u.sys with orderly := some (cause, .drain) } } := by
  subst hu
  simp only [State.orderlyBegin, h]

theorem orderlyBegin_active (h : s.shd.role = .active) : s.orderlyBegin cause
    = { s.releaseShelf with sys := { s.releaseShelf.sys with orderly := some (cause, .release) } } := by
  simp only [State.orderlyBegin, h]

theorem orderlyBegin_shadow (h : s.shd.role = .shadow) : s.orderlyBegin cause = s.sendLeave.warmReset cause := by
  simp only [State.orderlyBegin, h]

theorem orderlyBegin_other (hsolo : s.shd.role ≠ .solo) (hactive : s.shd.role ≠ .active) (hshadow : s.shd.role ≠ .shadow) :
    s.orderlyBegin cause = s.warmReset cause := by
  unfold State.orderlyBegin
  split
  · next h => exact absurd h hsolo
  · next h => exact absurd h hactive
  · next h => exact absurd h hshadow
  · rfl

end

/-! ### Configuration records -/

theorem recordWritten_nil {s : State} (h : s.sys.flash.queue = []) (ok : Bool) : s.recordWritten ok = s := by
  simp only [State.recordWritten, h]

section
variable {s : State} {r : CfgRec} {rest : List CfgRec} (h : s.sys.flash.queue = r :: rest)
include h

theorem recordWritten_fails : s.recordWritten false = s.err 14 := by
  simp only [State.recordWritten, h, Bool.not_false, if_true]

theorem recordWritten_succeeds : s.recordWritten true
    = (({ s with sys := { s.sys with flash := { s.sys.flash with queue := rest } } } : State).placeRecord r).recordDone r := by
  simp only [State.recordWritten, h, Bool.not_true, Bool.false_eq_true, if_false]

end

/-! ### The console -/

theorem uartChars_part {s : State} {b all : Bytes} {t : Nat} (hall : all = (s.sys.uart.getD ([], s.now)).1 ++ b)
    (ht : t = (s.sys.uart.getD ([], s.now)).2) (h : all.any (fun x => x == 0x0A#8 || x == 0x0D#8) = false) :
    s.uartChars b = { s with sys := { s.sys with uart := some (all, t) } } := by
  subst hall ht
  exact if_neg (Bool.eq_false_iff.mp h)

theorem uartChars_line {s : State} {b all : Bytes} (hall : all = (s.sys.uart.getD ([], s.now)).1 ++ b)
    (h : all.any (fun x => x == 0x0A#8 || x == 0x0D#8) = true) :
    s.uartChars b = s.uartLine (all.takeWhile fun x => !(x == 0x0A#8 || x == 0x0D#8)) := by
  subst hall
  exact if_pos h

section
variable {s u : State} {l : Bytes} (hu : u = { s with sys := { s.sys with uart := none } })
include hu

theorem uartLine_long (h : 256 < l.length) : s.uartLine l = (u.count .sysInBad).emit (.uart (ascii "err")) := by
  subst hu
  exact if_pos h

variable (hlen : l.length ≤ 256)
include hlen

theorem uartLine_foreign (h : l.take 5 ≠ ascii "admin") : s.uartLine l = u := by
  subst hu
  exact (if_neg (Nat.not_lt.mpr hlen)).trans (if_pos h)

variable (hadmin : l.take 5 = ascii "admin") {h : Option Bytes}
  (hh : h = hexBytes ((l.drop 5).filter fun x => x != 0x20#8))
include hadmin hh

theorem uartLine_noHex (hnone : h = none) : s.uartLine l = u.emit (.uart (ascii "err")) := by
  subst hu
  refine (if_neg (Nat.not_lt.mpr hlen)).trans ((if_neg (not_not_intro hadmin)).trans ?_)
  rw [← hh, hnone]

variable {x : Bytes} (hsome : h = some x)
include hsome

theorem uartLine_badRecord (hbad : adminOk x = false) : s.uartLine l = u.emit (.uart (ascii "err")) := by
  subst hu
  refine (if_neg (Nat.not_lt.mpr hlen)).trans ((if_neg (not_not_intro hadmin)).trans ?_)
  rw [← hh, hsome]
  exact if_neg (Bool.eq_false_iff.mp hbad)

/-- A good ADMIN line is written as a record (R666). -/
theorem uartLine_record (hok : adminOk x = true) {p : State} (hp : p = u.cfgPut 0x02 0 (some (.admin x))) :
    s.uartLine l = { p with sys := { p.sys with adminWaits := true } } := by
  subst hp hu
  refine (if_neg (Nat.not_lt.mpr hlen)).trans ((if_neg (not_not_intro hadmin)).trans ?_)
  rw [← hh, hsome]
  exact if_pos hok

end

theorem uartTimeout_none {s : State} (h : s.sys.uart = none) : s.uartTimeout = s := by
  unfold State.uartTimeout
  rw [h]

theorem uartTimeout_some {s u : State} {l : Bytes} {t : Nat} (h : s.sys.uart = some (l, t))
    (hu : u = s.advanceTo (t + 1000 * msec)) : s.uartTimeout
      = (({ u with sys := { u.sys with uart := none } } : State).count .sysInBad).emit (.uart (ascii "err")) := by
  subst hu
  unfold State.uartTimeout
  rw [h]
  rfl

/-! ### CLUSTER_SWITCH -/

theorem clusterSwitch_none {s : State} (h : s.sys.activation = none) (ok : Bool) (us : Nat) : s.clusterSwitch ok us = s := by
  unfold State.clusterSwitch
  rw [h]

section
variable {s : State} {a : Activation} (ha : s.sys.activation = some a) (ok : Bool) {us : Nat}
include ha

theorem clusterSwitch_ends {t n : Nat} {y : Bool} (hstalled : a.stalled = some (t, n, y)) :
    s.clusterSwitch ok us = s.stallEnd a t n y := by
  simp only [State.clusterSwitch, ha, hstalled]

variable (hstalled : a.stalled = none)
include hstalled

theorem clusterSwitch_idle (h : a.phase ≠ 3 ∨ 400 < us ∨ s.serves = false) : s.clusterSwitch ok us = s := by
  simp only [State.clusterSwitch, ha, hstalled]
  exact if_pos (by simpa only [Bool.not_eq_true'] using h)

/-- The next cluster begins to stall, 1 ms after the one before resumed (R676). -/
theorem clusterSwitch_stalls (hphase : a.phase = 3) (hus : us ≤ 400) (hserves : s.serves = true) {u : State}
    (hu : u = (a.resumed.map fun t => s.advanceTo (t + msec)).getD s) : s.clusterSwitch ok us
      = ((u.stallCluster a.cluster .active .stalled).dropText a.cluster).setActivation
        { a with stalled := some (u.now, us, ok) } := by
  subst hu
  simp only [State.clusterSwitch, ha, hstalled]
  refine (if_neg (by simp [hphase, hus, hserves])).trans ?_
  cases a.resumed <;> rfl

end

/-! ### The obligation -/

/-- Settles O40: each row is taken apart at its checks. Start-up takes no time of its own (log entry 66), a record that failed
stays in the queue (log entry 71), a line that begins otherwise is ignored (log entry 40), and a stall ends with time (log entry
89). -/
theorem resetAndConsoleCommandsDoTheirEffect : Obligations.ResetAndConsoleCommandsDoTheirEffect := by
  refine ⟨fun s b i hi u hu => ?_,
    fun s req v => ⟨sysRstWarm_idle, sysRstWarm_resets, sysRstOrderly_idle, fun hheard hkey hbit hnone w hw =>
      ⟨fun hrole => ?_, fun hrole => ?_, fun hrole => ?_, fun hsolo hactive hshadow => ?_⟩⟩,
    fun s => ⟨fun hnil ok => ?_, fun r rest hcons => ⟨?_, ?_⟩⟩,
    fun s b all t isEnd hend hall ht => ⟨fun hpart => ?_, fun hline l u h hl hu hh => ?_⟩,
    fun s => ⟨fun hnone => ?_, fun l t u hsome hu => ?_⟩,
    fun s ok us => ⟨fun hnone => ?_, fun a t n y ha hstalled => ?_, fun a ha hstalled => ⟨fun hidle => ?_,
      fun hphase hus hserves u hu => ?_⟩⟩⟩
  · have hstart : exec i s = .next b.startUp := by rcases hi with ⟨rfl, rfl⟩ | ⟨rfl, rfl⟩ | ⟨rfl, rfl⟩ <;> rfl
    exact hstart.trans (congrArg Host.Outcome.next (startUp_eq hu))
  · rw [sysRstOrderly_begins hheard hkey hbit hnone, orderlyBegin_solo hrole rfl, hw]
  · rw [sysRstOrderly_begins hheard hkey hbit hnone, orderlyBegin_active hrole, hw]
  · rw [sysRstOrderly_begins hheard hkey hbit hnone, orderlyBegin_shadow hrole]
  · rw [sysRstOrderly_begins hheard hkey hbit hnone, orderlyBegin_other hsolo hactive hshadow]
  · exact congrArg Host.Outcome.next (recordWritten_nil hnil ok)
  · exact congrArg Host.Outcome.next (recordWritten_fails hcons)
  · exact congrArg Host.Outcome.next (recordWritten_succeeds hcons)
  · subst hend
    exact congrArg Host.Outcome.next (uartChars_part hall ht hpart)
  · subst hend hl
    have next : ∀ {w : State}, s.uartLine _ = w → exec (.uartAdminLine b) s = .next w := fun hw =>
      congrArg Host.Outcome.next ((uartChars_line hall hline).trans hw)
    exact ⟨fun hlong => next (uartLine_long hu hlong), fun hlen hother => next (uartLine_foreign hu hlen hother),
      fun hlen hadmin => ⟨fun hnone => next (uartLine_noHex hu hlen hadmin hh hnone),
        fun x hsome hbad => next (uartLine_badRecord hu hlen hadmin hh hsome hbad),
        fun x p hsome hok hp => next (uartLine_record hu hlen hadmin hh hsome hok hp)⟩⟩
  · exact congrArg Host.Outcome.next (uartTimeout_none hnone)
  · exact congrArg Host.Outcome.next (uartTimeout_some hsome hu)
  · exact congrArg Host.Outcome.next (clusterSwitch_none hnone ok us)
  · exact congrArg Host.Outcome.next (clusterSwitch_ends ha ok hstalled)
  · exact congrArg Host.Outcome.next (clusterSwitch_idle ha ok hstalled hidle)
  · exact congrArg Host.Outcome.next (clusterSwitch_stalls ha ok hstalled hphase hus hserves hu)

end Sys2Proof.Machine
end

section
/-! PROOFS. Scope: what clocks, buses, sensors, supplies and memories report (R650, R683 to R687, R702, R705, R715). -/

namespace Sys2Proof.Machine

/-! ### Temperatures -/

/-- A reading out of range makes its sensor invalid (R684). -/
theorem temperature_outOfRange {s : State} {i : Nat} {t : Int} (hthere : sensorFused s.variant i = false)
    (hout : t < -220 ∨ 600 < t) : s.temperature i t = (({ s with sys := { s.sys with
      temps := tblDel s.sys.temps i, tempValid := tblPut false s.sys.tempValid i false } } : State).showTemp).err 6 :=
  (if_neg (Bool.eq_false_iff.mp hthere)).trans (if_pos hout)

/-- What the readings `l` of the hottest sensor `i` report (R684). -/
def State.tempBand (u : State) (i : Nat) (l : List Int) : State :=
  let s := if l.all fun x => decide (400 ≤ x) then u.err 6 else u
  let s := if l.all fun x => decide (440 < x) then (s.err 7).selfCheck 3 else s
  if l.all fun x => decide (480 ≤ x) then s.fatal 6 (sensorSite i) 0 false else s

section
variable {s u : State} {i : Nat} {t : Int} {l : List Int} (hthere : sensorFused s.variant i = false) (hlow : -220 ≤ t) (hhigh : t ≤ 600)
  (hl : l = (t :: (tblFind s.sys.temps i).getD []).take 3)
  (hu : u = (({ s with sys := { s.sys with temps := tblIns s.sys.temps i l, tempValid := tblPut false s.sys.tempValid i true } } : State).showTemp))
include hthere hlow hhigh hl hu

theorem temperature_uncounted (h : u.hottest ≠ some i ∨ l.length < 3) : exec (.temperatureReading i t) s = .next u :=
  (temperature_inRange hthere hlow hhigh hl hu).trans (congrArg Host.Outcome.next (if_pos h))

theorem temperature_counts (hhot : u.hottest = some i) (hthree : 3 ≤ l.length) :
    exec (.temperatureReading i t) s = .next (u.tempBand i l) :=
  (temperature_inRange hthere hlow hhigh hl hu).trans
    (congrArg Host.Outcome.next (if_neg (not_or.mpr ⟨not_not_intro hhot, Nat.not_lt.mpr hthree⟩)))

end

/-! A reading below a threshold keeps that band and those above it from counting. -/

section
variable {l : List Int}

theorem atLeast_no {k : Int} (h : ∃ x ∈ l, x < k) : (l.all fun x => decide (k ≤ x)) = false := by
  obtain ⟨x, hx, hlt⟩ := h
  exact all_no _ hx (decide_eq_false (Int.not_le.mpr hlt))

theorem above_no {k : Int} (h : ∃ x ∈ l, x ≤ k) : (l.all fun x => decide (k < x)) = false := by
  obtain ⟨x, hx, hle⟩ := h
  exact all_no _ hx (decide_eq_false (Int.not_lt.mpr hle))

theorem atLeast_yes {j k : Int} (hjk : j ≤ k) (h : ∀ x ∈ l, k ≤ x) : (l.all fun x => decide (j ≤ x)) = true :=
  all_yes _ fun x hx => decide_eq_true (Int.le_trans hjk (h x hx))

theorem above_yes {j k : Int} (hjk : j < k) (h : ∀ x ∈ l, k ≤ x) : (l.all fun x => decide (j < x)) = true :=
  all_yes _ fun x hx => decide_eq_true (Int.lt_of_lt_of_le hjk (h x hx))

variable (u : State) (i : Nat)

theorem tempBand_cool (h : ∃ x ∈ l, x < 400) : u.tempBand i l = u := by
  obtain ⟨x, hx, hlt⟩ := h
  unfold State.tempBand
  rw [atLeast_no ⟨x, hx, hlt⟩, above_no ⟨x, hx, by omega⟩, atLeast_no ⟨x, hx, by omega⟩]
  rfl

theorem tempBand_warm (hwarm : ∀ x ∈ l, 400 ≤ x) (h : ∃ x ∈ l, x ≤ 440) : u.tempBand i l = u.err 6 := by
  obtain ⟨x, hx, hle⟩ := h
  unfold State.tempBand
  rw [atLeast_yes (Int.le_refl _) hwarm, above_no ⟨x, hx, hle⟩, atLeast_no ⟨x, hx, by omega⟩]
  rfl

theorem tempBand_hot (hhot : ∀ x ∈ l, 440 < x) (h : ∃ x ∈ l, x < 480) :
    u.tempBand i l = ((u.err 6).err 7).selfCheck 3 := by
  have hhot : ∀ x ∈ l, 441 ≤ x := fun x hx => hhot x hx
  unfold State.tempBand
  rw [atLeast_yes (by decide) hhot, above_yes (by decide) hhot, atLeast_no h]
  rfl

theorem tempBand_fatal (h : ∀ x ∈ l, 480 ≤ x) :
    u.tempBand i l = (((u.err 6).err 7).selfCheck 3).fatal 6 (sensorSite i) 0 false := by
  unfold State.tempBand
  rw [atLeast_yes (by decide) h, above_yes (by decide) h, atLeast_yes (Int.le_refl _) h]
  rfl

end

/-! ### Supplies -/

theorem supplyOut_idle {s : State} {r : Nat} (h : 9 ≤ r ∨ s.bit .sysSupply r = false) : s.supplyOut r = s :=
  if_pos (by simpa only [Bool.not_eq_true'] using h)

/-- A supply leaves its window (R683, R705). -/
theorem supplyOut_leaves {s u : State} {r : Nat} (hr : r < 9) (hin : s.bit .sysSupply r = true)
    (hu : u = ((s.setField .sysSupply r r 0).setField .sysSupply (16 + r) (16 + r) 1).err 8) :
    s.supplyOut r = if u.sys.fatal.isSome || u.glm.asleep then u else u.selfCheck 4 := by
  subst hu
  exact if_neg (by rw [hin]; simp; omega)

theorem hasResetLevel_iff (r : Nat) : hasResetLevel r = true ↔ r ∈ [0, 1, 7, 8] := by
  simp [hasResetLevel, or_assoc]

/-! ### Memories -/

section
variable {s : State} {e line : Nat}

theorem cleanLine_idle (h : ∀ x, tblFind (s.eng e).dcache line = some x → x.dirty = true) :
    s.memoryError (.cleanLine e line) = s := by
  unfold State.memoryError
  dsimp only
  cases hline : tblFind (s.eng e).dcache line with
  | none => rfl
  | some x => exact if_pos (h x hline)

theorem cleanLine_fetched {x : CacheLine} (hline : tblFind (s.eng e).dcache line = some x) (hclean : x.dirty = false) :
    s.memoryError (.cleanLine e line)
      = (s.updEng e fun g => { g with dcache := tblDel g.dcache line }).corrected false := by
  simp only [State.memoryError, hline]
  exact if_neg (Bool.eq_false_iff.mp hclean)

end

theorem threadSite_eccTrap {s : State} {e t : Nat} {site : MemSite}
    (h : site ∈ [MemSite.dirtyLine e t, .scratch e t, .inbox e t, .sharedSram e t]) : s.memoryError site = s.eccTrap e t := by
  simp only [List.mem_cons, List.not_mem_nil, or_false] at h
  rcases h with rfl | rfl | rfl | rfl <;> rfl

section
variable {s : State} {q cid b : Nat} (hbm : Bool)

theorem readCell_none (pos : Nat) (h : s.carried q cid opRead = none) : s.memoryError (.readCell q cid b pos hbm) = s := by
  simp only [State.memoryError, h]

theorem readCell_some (pos : Nat) {c : Cmd} (h : s.carried q cid opRead = some c) :
    s.memoryError (.readCell q cid b pos hbm) = s.readCellError c b pos hbm := by
  simp only [State.memoryError, h]

theorem writeCell_none (h : s.carried q cid opWrite = none) : s.memoryError (.writeCell q cid b hbm) = s := by
  simp only [State.memoryError, h]

variable {c : Cmd} (h : s.carried q cid opWrite = some c)
include h

theorem writeCell_beyond (hlen : c.data.length < 4096 * b + 4096) : s.memoryError (.writeCell q cid b hbm) = s := by
  simp only [State.memoryError, h]
  exact if_neg (Nat.not_le.mpr hlen)

theorem writeCell_within (hlen : 4096 * b + 4096 ≤ c.data.length) :
    s.memoryError (.writeCell q cid b hbm) = s.writeCellError c b hbm := by
  simp only [State.memoryError, h]
  exact if_pos hlen

end

section
variable {s u : State} {c : Cmd} {b : Nat} {hbm : Bool} (hu : u = if hbm then s else s.selfCheck 2)
include hu

theorem writeCellError_late (h : c.past = true ∨ c.repulled.contains b = true) :
    s.writeCellError c b hbm = u.fatal 3 0xFFFFFFFF 0 false := by
  subst hu
  exact if_pos h

/-- Before the issue point the lost cell is pulled again, once (R686). -/
theorem writeCellError_repulls (hpast : c.past = false) (hfirst : c.repulled.contains b = false) :
    s.writeCellError c b hbm = ((((u.contained hbm).updCmd c.seq fun c => { c with
      segs := cutSegs (4096 * b) (4096 * b + 4096) c.segs, repulled := c.repulled ++ [b] }).gathered c.seq).pullData
        c (4096 * b) 4096).gathered c.seq := by
  subst hu
  exact if_neg (by rw [hpast, hfirst]; decide)

end

/-! ### The obligation -/

/-- Settles O42: each report is taken apart at its checks. The three readings and the bands are those of log entry 81, the
self-checks of the replicated region and of the cells log entry 80, the unknown sites log entry 79. -/
theorem sensorAndMemoryReportsDoTheirEffect : Obligations.SensorAndMemoryReportsDoTheirEffect := by
  refine ⟨fun s u k hu => ?_,
    fun s i t => ⟨fun hfused => ?_, fun hthere => ⟨fun hout => ?_, fun hlow hhigh l u hl hu => ⟨fun huncounted => ?_,
      fun hhot hthree => ?_⟩⟩⟩,
    fun s r => ⟨fun hidle => ?_, fun hr hin u hu => ?_, rfl, fun hlevel => ?_, fun hno => ?_⟩,
    fun s hbm e t k line v a p isl ce ue hce hue => ⟨?_, ?_, ?_, ?_, fun l hl => ?_, fun site hsite => ?_, ?_, ?_, ?_, ?_,
      fun u hu => ?_, rfl⟩,
    fun s q cid b pos hbm => ⟨fun hnone => ?_, fun c hc => ?_, fun hnone => ?_, fun c hc => ⟨fun hlen => ?_, fun hlen u hu =>
      ⟨fun hlate => ?_, fun hpast hfirst => ?_⟩⟩⟩⟩
  · subst hu
    exact ⟨rfl, rfl, rfl, rfl, rfl⟩
  · exact congrArg Host.Outcome.next (if_pos hfused)
  · exact congrArg Host.Outcome.next (temperature_outOfRange hthere hout)
  · exact temperature_uncounted hthere hlow hhigh hl hu huncounted
  · have hcounts := temperature_counts hthere hlow hhigh hl hu hhot hthree
    exact ⟨fun h => hcounts.trans (congrArg Host.Outcome.next (tempBand_cool u i h)),
      fun hwarm h => hcounts.trans (congrArg Host.Outcome.next (tempBand_warm u i hwarm h)),
      fun habove h => hcounts.trans (congrArg Host.Outcome.next (tempBand_hot u i habove h)),
      fun h => hcounts.trans (congrArg Host.Outcome.next (tempBand_fatal u i h))⟩
  · exact congrArg Host.Outcome.next (supplyOut_idle hidle)
  · exact congrArg Host.Outcome.next (supplyOut_leaves hr hin hu)
  · exact congrArg Host.Outcome.next (if_pos ((hasResetLevel_iff r).mpr hlevel))
  · exact congrArg Host.Outcome.next (if_neg (mt (hasResetLevel_iff r).mp hno))
  · exact congrArg Host.Outcome.next (hce s hbm).symm
  · exact congrArg Host.Outcome.next (hce _ false).symm
  · exact congrArg Host.Outcome.next (hce _ false).symm
  · exact congrArg Host.Outcome.next (hce _ false).symm
  · subst hl
    refine ⟨fun hidle => congrArg Host.Outcome.next (cleanLine_idle hidle), fun x hx hclean => ?_⟩
    exact congrArg Host.Outcome.next ((cleanLine_fetched hx hclean).trans (hce _ false).symm)
  · have hrow : exec (.memoryError site) s = .next (s.eccTrap e t) := congrArg Host.Outcome.next (threadSite_eccTrap hsite)
    refine ⟨fun hruns => ?_, fun hno => hrow.trans (congrArg Host.Outcome.next (eccTrap_of.2 hno))⟩
    rw [hrow, eccTrap_of.1 hruns, hue s false]
    rfl
  · exact congrArg (fun x => Host.Outcome.next (State.prismLose x p)) (hue s true).symm
  · exact congrArg (fun x => Host.Outcome.next (State.count x .pmcSmpLost)) (hue s true).symm
  · exact congrArg Host.Outcome.next (hue s true).symm
  · rfl
  · subst hu
    rfl
  · exact congrArg Host.Outcome.next (readCell_none hbm pos hnone)
  · exact congrArg Host.Outcome.next (readCell_some hbm pos hc)
  · exact congrArg Host.Outcome.next (writeCell_none hbm hnone)
  · exact congrArg Host.Outcome.next (writeCell_beyond hbm hc hlen)
  · exact congrArg Host.Outcome.next ((writeCell_within hbm hc hlen).trans (writeCellError_late hu hlate))
  · exact congrArg Host.Outcome.next ((writeCell_within hbm hc hlen).trans (writeCellError_repulls hu hpast hfirst))

end Sys2Proof.Machine
end

section
/-! PROOFS. Scope: the timers, the controls and the link of the Mirror pair (R545, R546, R548, R553, R557, R559, R560, R562,
R563, R565 to R567, R689, R695). -/

namespace Sys2Proof.Machine

/-! ### Pairing -/

theorem pairingTimers_idle {s : State} (h : s.shd.role ≠ .pairing ∨ s.shd.pairStart = none) :
    exec .helloSend s = .next s ∧ exec .pairingTimeout s = .next s := by
  have hno : ∀ t, s.shd.role = .pairing → s.shd.pairStart = some t → False := fun t hrole hstart =>
    h.elim (· hrole) fun hnone => nomatch hstart.symm.trans hnone
  refine ⟨congrArg Host.Outcome.next ?_, congrArg Host.Outcome.next ?_⟩
  · unfold State.helloSend
    split
    · next t hrole hstart => exact (hno t hrole hstart).elim
    · rfl
  · unfold State.pairingTimeout
    split
    · next t hrole hstart => exact (hno t hrole hstart).elim
    · rfl

section
variable {s : State} {t : Nat} (hrole : s.shd.role = .pairing) (hstart : s.shd.pairStart = some t)
include hrole hstart

theorem helloSend_off (hen : s.bit .shdCtl 0 = false) : s.helloSend = s := by
  simp only [State.helloSend, hrole, hstart]
  exact if_pos (by rw [hen]; rfl)

/-- HELLO goes out 10 µs after the last one (R546). -/
theorem helloSend_sends (hen : s.bit .shdCtl 0 = true) {a m : State}
    (ha : a = s.advanceTo ((s.shd.helloSent.map fun h => h + 10 * usec).getD t))
    (hm : m = a.mirror .hello [Config.serial, a.helloRole.code, b2n a.lastActive, a.slotsReached, a.linksUp] []) :
    s.helloSend = { m with shd := { m.shd with helloSent := some m.now } } := by
  have hat : (match s.shd.helloSent with | some h => h + 10 * usec | none => t)
      = (s.shd.helloSent.map fun h => h + 10 * usec).getD t := by cases s.shd.helloSent <;> rfl
  subst hm ha
  rw [← hat]
  simp only [State.helloSend, hrole, hstart]
  exact if_neg (by rw [hen]; decide)

theorem pairingTimeout_heard (hpeer : (s.shd.peer && s.bit .shdCtl 0) = true) : s.pairingTimeout = s := by
  simp only [State.pairingTimeout, hrole, hstart]
  exact if_pos hpeer

theorem pairingTimeout_alone (hpeer : (s.shd.peer && s.bit .shdCtl 0) = false) :
    s.pairingTimeout = (s.advanceTo (t + 1000 * msec)).becomeSolo := by
  simp only [State.pairingTimeout, hrole, hstart]
  exact if_neg (Bool.eq_false_iff.mp hpeer)

end

/-! ### Epochs and the log -/

theorem epochOff_iff (s : State) : (!s.shd.logging || !s.isOn 162 || (s.shd.stopped && s.shd.releasing.isNone)) = true
    ↔ (!s.shd.logging) = true ∨ (!s.isOn 162) = true ∨ (s.shd.stopped = true ∧ s.shd.releasing.isNone = true) := by
  simp only [Bool.or_eq_true, Bool.and_eq_true, or_assoc]

section
variable {s : State} {off : Bool} (hoff : off = (!s.shd.logging || !s.isOn 162 || (s.shd.stopped && s.shd.releasing.isNone)))
include hoff

theorem epochEnd_off (h : off = true) : s.epochEnd = s :=
  if_pos ((epochOff_iff s).mp (hoff.symm.trans h))

/-- An epoch ends: RENEW goes out, the epoch is counted on, and a copy is cut where lines are marked (R553, R559). -/
theorem epochEnd_renews (h : off = false) {a b c d : State} {n : Nat} (ha : a = s.advanceTo (s.shd.epochAt + 20 * usec))
    (hn : n = a.shd.epoch)
    (hb : b = State.mirror { a with shd := { a.shd with
      bulkBytes := 0, linesWaited := a.shd.wire.any fun f => f.kind == .lines } } .renew [n] [])
    (hc : c = { b with shd := { b.shd with
      renews := b.shd.renews ++ [(n, b.now)], epoch := (n + 1) % 2 ^ 64, epochAt := b.now } })
    (hd : d = if c.epochLines = 0 then c else c.cutMarked) :
    s.epochEnd = if d.shd.role = .active then d.epochChecks else d := by
  subst hd hc hb hn ha
  exact if_neg fun hstop => Bool.noConfusion ((hoff.symm.trans h).symm.trans ((epochOff_iff s).mpr hstop))

end

theorem logResend_nil {s : State} (h : s.shd.log = []) : s.logResend = s := by
  simp only [State.logResend, h]

theorem logResend_cons {s a : State} {r : LogRec} {rs : List LogRec} (h : s.shd.log = r :: rs)
    (ha : a = (s.advanceTo (r.at_ + 1500)).count .shdLogRetx) : s.logResend
      = State.mirrorLog { a with shd := { a.shd with log := { r with at_ := a.now, resent := true } :: rs, logStall := true } }
        { r with at_ := a.now, resent := true } := by
  subst ha
  simp only [State.logResend, h]

/-! ### The lease, the tie and the reservations -/

theorem activeExpire_due {s a : State} {t : Nat} (hrole : s.shd.role = .active) (hfrom : s.shd.leaseFrom = some t)
    (ha : a = s.advanceTo (t + 1000 * usec)) :
    s.activeExpire = a.becomeFenced (if a.shd.releasing.isSome then none else some (.waiting a.now)) := by
  subst ha
  simp only [State.activeExpire, hrole, hfrom]

theorem activeExpire_idle {s : State} (h : s.shd.role ≠ .active ∨ s.shd.leaseFrom = none) : s.activeExpire = s := by
  unfold State.activeExpire
  split
  · next t hrole hfrom => exact h.elim (absurd hrole) fun hnone => nomatch hfrom.symm.trans hnone
  · rfl

theorem shadowExpire_due {s : State} {t : Nat} (hrole : s.shd.role = .shadow) (hheard : s.shd.heardAt = some t) :
    s.shadowExpire = (s.advanceTo (t + 1100 * usec)).takeover true := by
  simp only [State.shadowExpire, hrole, hheard]

theorem shadowExpire_idle {s : State} (h : s.shd.role ≠ .shadow ∨ s.shd.heardAt = none) : s.shadowExpire = s := by
  unfold State.shadowExpire
  split
  · next t hrole hheard => exact h.elim (absurd hrole) fun hnone => nomatch hheard.symm.trans hnone
  · rfl

section
variable {s a : State} {t : Nat} (hrole : s.shd.role = .fenced) (htie : s.shd.tie = some (.waiting t))
  (ha : a = s.advanceTo (t + 1200 * usec))
include hrole htie ha

theorem tieWait_preempts {sl : Nat} (h : a.shd.arbiter = some sl) :
    s.tieWait = { a.emit (.driveCtl sl "PREEMPT") with shd := { a.shd with tie := some .preempting } } := by
  subst ha
  simp only [State.tieWait, hrole, htie, h]

theorem tieWait_ends (h : a.shd.arbiter = none) : s.tieWait = { a with shd := { a.shd with tie := none } } := by
  subst ha
  simp only [State.tieWait, hrole, htie, h]

end

theorem tieWait_idle {s : State} (h : s.shd.role ≠ .fenced ∨ ∀ t, s.shd.tie ≠ some (.waiting t)) : s.tieWait = s := by
  unfold State.tieWait
  split
  · next t hrole htie => exact (h.elim (· hrole) (· t htie)).elim
  · rfl

section
variable {s : State}

theorem preemptDone_takingOver (hrole : s.shd.role = .takingOver) (htie : s.shd.tie = some .preempting) (ok : Bool) :
    s.preemptDone ok = if ok then s.finishTakeover else s.becomeFenced none := by
  simp only [State.preemptDone, hrole, htie]

theorem preemptDone_fenced (hrole : s.shd.role = .fenced) (htie : s.shd.tie = some .preempting) (ok : Bool) :
    s.preemptDone ok = if ok then s.becomeSolo else { s with shd := { s.shd with tie := none } } := by
  simp only [State.preemptDone, hrole, htie]

theorem preemptDone_idle (h : (s.shd.role ≠ .takingOver ∧ s.shd.role ≠ .fenced) ∨ s.shd.tie ≠ some .preempting) (ok : Bool) :
    s.preemptDone ok = s := by
  unfold State.preemptDone
  split
  · next hrole htie => exact (h.elim (·.1 hrole) (· htie)).elim
  · next hrole htie => exact (h.elim (·.2 hrole) (· htie)).elim
  · rfl

theorem acquireTimeout_none {sl : Nat} (h : tblFind s.shd.acquiring sl = none) : s.acquireTimeout sl = s := by
  unfold State.acquireTimeout
  rw [h]

theorem acquireTimeout_some {a : State} {sl t : Nat} (h : tblFind s.shd.acquiring sl = some t)
    (ha : a = s.advanceTo (t + 100 * msec)) :
    s.acquireTimeout sl = State.memberMissing { a with shd := { a.shd with acquiring := tblDel a.shd.acquiring sl } } sl := by
  subst ha
  unfold State.acquireTimeout
  rw [h]

end

/-! ### SHD_CTL -/

theorem releaseShelf_idle {s : State}
    (h : s.shd.role ≠ .active ∨ s.shd.releasing.isSome = true ∨ s.shd.copy0Acked = false) : s.releaseShelf = s :=
  if_pos (by simpa only [Bool.not_eq_true'] using h)

/-- The final copy replaces a copy in progress (R565, R566). -/
theorem releaseShelf_cuts {s f g : State}
    (h : ¬ (s.shd.role ≠ .active ∨ s.shd.releasing.isSome = true ∨ s.shd.copy0Acked = false))
    (hf : f = (s.count .shdReleases).assertFence)
    (hg : g = { f with shd := { f.shd with releasing := some { copy := f.shd.copySent + 1 }, copy := none } }) :
    s.releaseShelf = (f.shd.log.foldl State.mirrorLog g).cutCopy (f.shd.copySent + 1)
      (((f.shd.copy.map (·.lines)).getD []) ++ lineRuns (f.shd.marks.map (·.1))) true := by
  have hlines : (match f.shd.copy with | some c => c.lines | none => []) = (f.shd.copy.map (·.lines)).getD [] := by
    cases f.shd.copy <;> rfl
  rw [← hlines]
  subst hg hf
  exact if_neg (by simpa only [Bool.not_eq_true'] using h)

theorem leaveCtl_other {s : State} (h : s.shd.role ≠ .shadow) : s.leaveCtl = s :=
  if_pos h

theorem leaveCtl_leaves {s u : State} (h : s.shd.role = .shadow)
    (hu : u = (((s.mirror .leave [] []).setField .shdCtl 0 0 0).cfgPut 0x0E (Reg.off .shdCtl)
      (some (.register 0))).unpair.setRole .pairing) :
    s.leaveCtl = { u with shd := { u.shd with
      pairStart := some u.now, helloSent := none, staged := none, applied := none, held := [], flashDue := [] } } := by
  subst hu
  exact if_neg (not_not_intro h)

/-! ### The link -/

theorem mirrorLoss_up {s : State} (h : (s.shd.halfA || s.shd.halfB) = true) : s.mirrorLoss = s.mirrorLost :=
  if_pos h

theorem mirrorLinkLoss_down {s : State} (h : (s.shd.halfA || s.shd.halfB) = false) : exec .mirrorLinkLoss s = .next s := by
  have hloss : s.mirrorLoss = s := if_neg (Bool.eq_false_iff.mp h)
  refine congrArg Host.Outcome.next ?_
  rw [hloss, h]
  rfl

/-- The last half goes down, or the link is lost as a whole (R548). -/
theorem mirrorLink_lost {s : State} {i : Instr} (hup : (s.shd.halfA || s.shd.halfB) = true)
    (hi : i = .mirrorLinkLoss ∨ (i = .mirrorLinkHalfChange 0 false ∧ s.shd.halfB = false)
      ∨ (i = .mirrorLinkHalfChange 1 false ∧ s.shd.halfA = false)) :
    exec i s = .next (s.mirrorLost.fatalUnlinked true) := by
  rcases hi with rfl | ⟨rfl, hB⟩ | ⟨rfl, hA⟩
  · refine congrArg Host.Outcome.next ?_
    rw [mirrorLoss_up hup, hup]
  · have hA : s.shd.halfA = true := by rwa [hB, Bool.or_false] at hup
    refine congrArg Host.Outcome.next ?_
    rw [mirrorHalf_lost (h := 0) (by decide) hA hB, hup]
  · have hB : s.shd.halfB = true := by rwa [hA, Bool.false_or] at hup
    refine congrArg Host.Outcome.next ?_
    rw [mirrorHalf_lost (h := 1) (by decide) hB hA, hup]

section
variable {s : State} {h : Nat} {up was other : Bool} (hwas : was = if h = 0 then s.shd.halfA else s.shd.halfB)
include hwas

theorem mirrorHalf_idle (hidle : 2 ≤ h ∨ was = up ∨ up = true ∧ ((List.range 4).all fun l => s.isOn (80 + 4 * h + l)) = false) :
    s.mirrorHalf h up = s := by
  subst hwas
  exact if_pos (by simpa only [Bool.not_eq_true'] using hidle)

variable (hother : other = if h = 0 then s.shd.halfB else s.shd.halfA) (hh : h < 2) {u : State}
  (hu : u = { s with shd := if h = 0 then { s.shd with halfA := up } else { s.shd with halfB := up } })
include hother hh hu

/-- The first half up raises source 17 (R548). -/
theorem mirrorHalf_rises (hdown : was = false) (hup : up = true)
    (hlanes : ((List.range 4).all fun l => s.isOn (80 + 4 * h + l)) = true) :
    s.mirrorHalf h up = if other then u else (u.raise 17).bulkNext := by
  subst hu hup
  unfold State.mirrorHalf
  dsimp only
  rw [← hwas, ← hother, hdown, hlanes, if_neg (by simp; omega), if_neg (by simp)]
  cases other <;> simp

theorem mirrorHalf_falls (hwasUp : was = true) (hup : up = false) (hstays : other = true) : s.mirrorHalf h up = u := by
  subst hu hup
  unfold State.mirrorHalf
  dsimp only
  rw [← hwas, ← hother, hwasUp, hstays, if_neg (by simp; omega), if_neg (by simp), if_neg (by simp)]

end

/-! ### The obligation -/

/-- Settles O36: each event is taken apart at the role and at what it waits for (a timer's event moves the clock, log entry 2).
What HELLO says in PAIRING is log entry 44, and that a pairing under way begins again when the link is lost log entry 47. -/
theorem mirrorEventsDoTheirEffect : Obligations.MirrorEventsDoTheirEffect := by
  refine ⟨fun s t hrole hstart => ⟨fun hen a ha m hm => ?_, fun hen => ?_, fun hpeer => ?_, fun hpeer => ?_⟩,
    fun s => pairingTimers_idle, fun s off hoff => ⟨fun h => ?_, fun h a n b c ha hn hb hc d hd => ?_⟩,
    fun s => ⟨fun hnil => ?_, fun r rs a hcons ha => ?_⟩,
    fun s => ⟨fun t a hrole hfrom ha => ?_, fun hidle => ?_, fun t hrole hheard => ?_, fun hidle => ?_,
      fun t a hrole htie ha => ⟨fun sl hsl => ?_, fun hnone => ?_⟩, fun hidle => ?_, fun hrole htie => ⟨?_, ?_⟩,
      fun hrole htie => ⟨?_, ?_⟩, fun ok hidle => ?_, fun sl => ⟨fun hnone => ?_, fun t a hsome ha => ?_⟩⟩,
    fun s => ⟨fun hoff => ⟨?_, ?_⟩, fun hon no hno => ⟨fun hidle => ?_, fun hcuts f g hf hg => ?_, fun hrole => ?_,
      fun hrole u hu => ?_⟩⟩,
    fun s hdown => mirrorLinkLoss_down hdown, fun s u i hup hu hi => ?_,
    fun s h up was other hwas hother => ⟨fun hidle => ?_, fun hh u hu => ⟨fun hdown hup hlanes v hv => ?_,
      fun hwasUp hup hstays => ?_⟩⟩⟩
  · exact congrArg Host.Outcome.next (helloSend_sends hrole hstart hen ha hm)
  · exact congrArg Host.Outcome.next (helloSend_off hrole hstart hen)
  · exact congrArg Host.Outcome.next (pairingTimeout_heard hrole hstart hpeer)
  · exact congrArg Host.Outcome.next (pairingTimeout_alone hrole hstart hpeer)
  · exact congrArg Host.Outcome.next (epochEnd_off hoff h)
  · exact congrArg Host.Outcome.next (epochEnd_renews hoff h ha hn hb hc hd)
  · exact congrArg Host.Outcome.next (logResend_nil hnil)
  · exact congrArg Host.Outcome.next (logResend_cons hcons ha)
  · exact congrArg Host.Outcome.next (activeExpire_due hrole hfrom ha)
  · exact congrArg Host.Outcome.next (activeExpire_idle hidle)
  · exact congrArg Host.Outcome.next (shadowExpire_due hrole hheard)
  · exact congrArg Host.Outcome.next (shadowExpire_idle hidle)
  · exact congrArg Host.Outcome.next (tieWait_preempts hrole htie ha hsl)
  · exact congrArg Host.Outcome.next (tieWait_ends hrole htie ha hnone)
  · exact congrArg Host.Outcome.next (tieWait_idle hidle)
  · exact congrArg Host.Outcome.next (preemptDone_takingOver hrole htie true)
  · exact congrArg Host.Outcome.next (preemptDone_takingOver hrole htie false)
  · exact congrArg Host.Outcome.next (preemptDone_fenced hrole htie true)
  · exact congrArg Host.Outcome.next (preemptDone_fenced hrole htie false)
  · exact congrArg Host.Outcome.next (preemptDone_idle hidle ok)
  · exact congrArg Host.Outcome.next (acquireTimeout_none hnone)
  · exact congrArg Host.Outcome.next (acquireTimeout_some hsome ha)
  · exact congrArg Host.Outcome.next (whenOn_off hoff _)
  · exact congrArg Host.Outcome.next (whenOn_off hoff _)
  · exact congrArg Host.Outcome.next ((whenOn_on hon _).trans (releaseShelf_idle (hno ▸ hidle)))
  · exact congrArg Host.Outcome.next ((whenOn_on hon _).trans (releaseShelf_cuts (hno ▸ hcuts) hf hg))
  · exact congrArg Host.Outcome.next ((whenOn_on hon _).trans (leaveCtl_other hrole))
  · exact congrArg Host.Outcome.next ((whenOn_on hon _).trans (leaveCtl_leaves hrole hu))
  · subst hu
    exact mirrorLink_lost hup hi
  · exact congrArg (fun x => Host.Outcome.next (State.fatalUnlinked x _)) (mirrorHalf_idle hwas hidle)
  · subst hv
    exact congrArg (fun x => Host.Outcome.next (State.fatalUnlinked x _)) (mirrorHalf_rises hwas hother hh hu hdown hup hlanes)
  · exact congrArg (fun x => Host.Outcome.next (State.fatalUnlinked x _)) (mirrorHalf_falls hwas hother hh hu hwasUp hup hstays)

end Sys2Proof.Machine
end

section
/-! PROOFS. Scope: the frames of the Mirror link (R545 to R547, R550, R554 to R557, R559, R564, R566, R572, R692). -/

namespace Sys2Proof.Machine

/-! ### Which frames are heard -/

theorem mirrorRx_deaf {s : State} (h : (s.shd.halfA || s.shd.halfB) = false ∨ s.isOn 162 = false) (ok : Bool) (f : State → State) :
    s.mirrorRx ok f = s := by
  refine if_pos ?_
  rcases h with h | h <;> simp [h]

theorem mirrorRx_badCrc {s : State} (hup : (s.shd.halfA || s.shd.halfB) = true) (hon : s.isOn 162 = true) (f : State → State) :
    s.mirrorRx false f = s.count .shdLinkErr := by
  refine (if_neg ?_).trans (if_neg Bool.false_ne_true)
  rw [hup, hon]
  decide

/-- Every frame comes in through `mirrorRx` (R550). -/
theorem mirrorFrame_rx {s : State} {a b n p : Nat} {r : Role} {l fl ok : Bool} {es : List (Nat × Bytes)} {img : Option RepImage}
    {rs : List LogRec} {k : BulkKind} {bs : Bytes} {i : Instr}
    (hi : i ∈ [Instr.hello n r l a b ok, .renew n ok, .renewAck n a b ok, .lines n es ok, .commit n a b img ok, .copyAck n l fl ok,
      .log rs ok, .logAck n ok, .release n ok, .leave ok, .bulk k p bs l ok, .bulkAck k p ok]) :
    ∃ f : State → State, exec i s = .next (s.mirrorRx ok f) := by
  simp only [List.mem_cons, List.not_mem_nil, or_false] at hi
  rcases hi with rfl | rfl | rfl | rfl | rfl | rfl | rfl | rfl | rfl | rfl | rfl | rfl
  · exact ⟨fun s => s.hello n r l a b, rfl⟩
  · exact ⟨fun s => s.renew n, rfl⟩
  · exact ⟨fun s => s.renewAck n a b, rfl⟩
  · exact ⟨fun s => s.lines n es, rfl⟩
  · exact ⟨fun s => s.commit n a b img, rfl⟩
  · exact ⟨fun s => s.copyAck n l fl, rfl⟩
  · exact ⟨fun s => s.logRx rs, rfl⟩
  · exact ⟨fun s => s.logAck n, rfl⟩
  · exact ⟨fun s => s.releaseRx n, rfl⟩
  · exact ⟨State.leaveRx, rfl⟩
  · exact ⟨fun s => s.bulk k p bs l, rfl⟩
  · exact ⟨fun s => s.bulkAck k p, rfl⟩

/-! ### HELLO -/

theorem hello_unpaired {s : State} (hen : s.bit .shdCtl 0 = false) (n : Nat) (r : Role) (l : Bool) (a b : Nat) :
    s.hello n r l a b = ({ s with shd := { s.shd with peer := true } } : State).raise 23 :=
  if_pos (by rw [hen]; rfl)

/-- What a controller does by its role once it has taken a HELLO of a peer in role `r`, `known` before or not (R545, R546). -/
def State.helloTaken (u : State) (r : Role) (known : Bool) : State :=
  match u.shd.role with
  | .solo => State.elect { u.setRole .pairing with
      shd := { (u.setRole .pairing).shd with wasSolo := true, pairStart := some (u.setRole .pairing).now } }
  | .pairing => if u.shd.won.isSome then u else u.elect
  | .active =>
    if r = .pairing ∧ (!known ∨ !u.shd.copy0Acked ∧ !u.shd.logging) ∧ u.shd.releasing.isNone then u.cutFirst else u
  | _ => u

theorem hello_paired {s u : State} {n : Nat} {r : Role} {l known : Bool} {a b : Nat} (hen : s.bit .shdCtl 0 = true)
    (hknown : known = (s.shd.peer && s.shd.peerSerial == n))
    (hu : u = ({ s with shd := { s.shd with peer := true, peerSerial := n, peerRole := r, peerLast := l, peerReach := a, peerNet := b } } :
      State).raise 23) : s.hello n r l a b = u.helloTaken r known := by
  subst hknown hu
  exact if_neg (by rw [hen]; decide)

section
variable {u : State} {r : Role} {known : Bool}

theorem helloTaken_solo (h : u.shd.role = .solo) : u.helloTaken r known = State.elect { u.setRole .pairing with
    shd := { (u.setRole .pairing).shd with wasSolo := true, pairStart := some (u.setRole .pairing).now } } := by
  unfold State.helloTaken
  rw [h]

theorem helloTaken_pairing (h : u.shd.role = .pairing) :
    u.helloTaken r known = if u.shd.won.isSome then u else u.elect := by
  unfold State.helloTaken
  rw [h]

theorem helloTaken_active (h : u.shd.role = .active) : u.helloTaken r known
    = if r = .pairing ∧ (known = false ∨ u.shd.copy0Acked = false ∧ u.shd.logging = false) ∧ u.shd.releasing = none then u.cutFirst
      else u := by
  unfold State.helloTaken
  rw [h]
  simp only [Bool.not_eq_true', Option.isNone_iff_eq_none]

theorem helloTaken_other (hsolo : u.shd.role ≠ .solo) (hpairing : u.shd.role ≠ .pairing) (hactive : u.shd.role ≠ .active) :
    u.helloTaken r known = u := by
  unfold State.helloTaken
  split
  · next h => exact absurd h hsolo
  · next h => exact absurd h hpairing
  · next h => exact absurd h hactive
  · rfl

end

/-! ### RENEW_ACK and the release -/

theorem renewAck_outstanding {s : State} {n a b : Nat} {r : Nat × Nat} (h : s.shd.renews.find? (fun r => r.1 == n) = some r) :
    s.renewAck n a b = (State.reach { s with shd := { s.shd with
      renews := s.shd.renews.filter fun x => decide (n < x.1), leaseFrom := some (max r.2 (s.shd.leaseFrom.getD 0))
      ackAt := some s.now, renewAcked := true, peerReach := a, peerNet := b } }).tryActive := by
  simp only [State.renewAck, h]

theorem renewAck_unknown {s : State} {n : Nat} (h : s.shd.renews.find? (fun r => r.1 == n) = none) (a b : Nat) :
    s.renewAck n a b = s := by
  simp only [State.renewAck, h]

section
variable {s : State}

theorem leaveRx_releasing (hrole : s.shd.role = .active) (hrel : s.shd.releasing.isSome = true) :
    s.leaveRx = s.becomeFenced none :=
  (if_neg (not_not_intro hrole)).trans (if_pos hrel)

/-- The shadow leaves; in a hitless activation both pointers name the new slot from here on (R545, R678). -/
theorem leaveRx_leaves {u : State} (hrole : s.shd.role = .active) (hrel : s.shd.releasing.isSome = false)
    (hsome : ∀ a, s.sys.activation = some a → u = if a.rollback then s else s.putPointer a.slot 0)
    (hnone : s.sys.activation = none → u = s) :
    s.leaveRx = State.becomeSolo { u with sys := { u.sys with
      activation := u.sys.activation.map fun a => { a with shadowAway := true } } } := by
  refine (if_neg (not_not_intro hrole)).trans ((if_neg (Bool.eq_false_iff.mp hrel)).trans ?_)
  cases hact : s.sys.activation with
  | none => rw [hnone hact]
  | some a => rw [hsome a hact]

end

/-! ### A controller that follows -/

theorem follows_frames {s : State} (h : s.follows = false) (n a b : Nat) (es : List (Nat × Bytes)) (img : Option RepImage)
    (rs : List LogRec) : s.renew n = s ∧ s.lines n es = s ∧ s.commit n a b img = s ∧ s.logRx rs = s := by
  have hnot : (!s.follows) = true := by rw [h]; rfl
  exact ⟨if_pos hnot, if_pos (.inl hnot), if_pos hnot, if_pos (.inl hnot)⟩

theorem lines_ignored {s : State} {n : Nat} {es : List (Nat × Bytes)} (h : es.length = 0 ∨ 56 < es.length) : s.lines n es = s :=
  if_pos (.inr h)

theorem logRx_ignored {s : State} {rs : List LogRec} (h : rs.length = 0 ∨ 32 < rs.length) : s.logRx rs = s :=
  if_pos (.inr h)

section
variable {s : State} (hfollows : s.follows = true)
include hfollows

/-- A frame with at least one entry and at most as many as its kind holds is taken (R550). -/
theorem follows_takes {len most : Nat} (hmin : 1 ≤ len) (hmax : len ≤ most) :
    ¬ ((!s.follows) = true ∨ len = 0 ∨ most < len) := by
  rw [hfollows]
  rintro (hno | hnone | hmany)
  · exact Bool.false_ne_true hno
  · omega
  · omega

/-- RENEW dates the peer, and is acknowledged with this side's reach (R559). -/
theorem renew_follows {n : Nat} {u : State} (hu : u = { s with shd := { s.shd with heardAt := some s.now, epoch := n } }) :
    s.renew n = u.mirror .renewAck [n, u.slotsReached, u.linksUp] [] := by
  subst hu
  exact if_neg (by rw [hfollows]; decide)

theorem lines_staged {n : Nat} {es : List (Nat × Bytes)} (hmin : 1 ≤ es.length) (hmax : es.length ≤ 56) :
    s.lines n es = { s with shd := { s.shd with
      staged := some (n, (((s.shd.staged.filter fun x => x.1 == n).map (·.2)).getD []) ++ es) } } := by
  rw [← staged_getD]
  exact if_neg (follows_takes hfollows hmin hmax)

theorem commit_follows {n a b c : Nat} {img : Option RepImage} {es : List (Nat × Bytes)}
    (hes : es = ((s.shd.staged.filter fun x => x.1 == n).map (·.2)).getD [])
    (hc : c = es.foldl (fun c e => crcRun c (toLe e.1 8 ++ e.2)) 0xFFFFFFFF ^^^ 0xFFFFFFFF) :
    s.commit n a b img = if es.length = a ∧ c = b then s.applyCopy n es img
      else ({ s with shd := { s.shd with staged := none } } : State).mirror .copyAck [n, 1] [] := by
  rw [← staged_getD] at hes
  subst hc hes
  exact if_neg (by rw [hfollows]; decide)

/-- Records are held once each, and the highest number held is acknowledged (R556). -/
theorem logRx_held {rs : List LogRec} (hmin : 1 ≤ rs.length) (hmax : rs.length ≤ 32) {u : State}
    (hu : u = { s with shd := { s.shd with
      held := s.shd.held ++ rs.filter fun r => !(s.shd.held.any fun h => h.num == r.num) } }) :
    s.logRx rs = u.mirror .logAck [u.shd.held.foldl (fun m r => max m r.num) 0] [] := by
  subst hu
  exact if_neg (follows_takes hfollows hmin hmax)

end

/-! ### A controller that logs -/

theorem logging_frames {s : State} (h : s.shd.logging = false) (n : Nat) (l fl : Bool) :
    s.copyAck n l fl = s ∧ s.logAck n = s :=
  ⟨if_pos (by rw [h]; rfl), if_pos (by rw [h]; rfl)⟩

section
variable {s : State} (hlog : s.shd.logging = true)
include hlog

theorem copyAck_flash {n : Nat} (l : Bool) {u : State}
    (hu : u = { s with shd := { s.shd with flashAcked := max n s.shd.flashAcked } }) :
    s.copyAck n l true = ((u.cph.slots.map (·.1)).foldl State.markCheck u).flow := by
  subst hu
  exact (if_neg (by rw [hlog]; decide)).trans (if_pos rfl)

theorem copyAck_other {n : Nat} (l : Bool) (h : ∀ c, s.shd.copy = some c → c.num ≠ n ∨ c.committed = false) :
    s.copyAck n l false = s := by
  refine (if_neg (by rw [hlog]; decide)).trans ((if_neg Bool.false_ne_true).trans ?_)
  cases hcopy : s.shd.copy with
  | none => rfl
  | some c => exact if_pos (by simpa only [Bool.not_eq_true'] using h c hcopy)

/-- The copy in progress is done, or is sent again from its first line (R554). -/
theorem copyAck_inProgress {n : Nat} {c : Copy} (l : Bool) (hcopy : s.shd.copy = some c) (hnum : c.num = n)
    (hcommitted : c.committed = true) : s.copyAck n l false = if l then State.sendCopy { s with shd := { s.shd with
      copy := some { c with left := c.lines, sent := 0, crc := 0xFFFFFFFF, committed := false } } } else s.copyDone c := by
  refine (if_neg (by rw [hlog]; decide)).trans ((if_neg Bool.false_ne_true).trans ?_)
  rw [hcopy]
  exact if_neg (by rw [hnum, hcommitted]; simp)

section
variable {n : Nat} {log w : List LogRec} {st : Bool} (hl : log = s.shd.log.filter (fun r => decide (n < r.num)))
  (hst : st = (s.shd.logStall && log.any fun r => r.resent))
include hl hst

theorem logAck_stalls (h : st = true) :
    s.logAck n = State.logProgress { s with shd := { s.shd with log, logStall := true } } := by
  refine (if_neg (by rw [hlog]; decide)).trans ?_
  dsimp only
  rw [← hl, ← hst, if_pos h, h]

/-- With no resent record left what waited is sent (R557). -/
theorem logAck_sends (h : st = false) (hw : w = s.shd.logWait.map (fun r => { r with at_ := s.now })) :
    s.logAck n = (w.foldl State.mirrorLog { s with shd := { s.shd with
      log := log ++ w, logStall := false, logWait := [] } }).logProgress := by
  refine (if_neg (by rw [hlog]; decide)).trans ?_
  dsimp only
  rw [← hl, ← hst, if_neg (Bool.eq_false_iff.mp h), h, hw]

end

end

/-! ### BULK -/

section
variable {s : State} {k : BulkKind} {off : Nat} {b had : Bytes} {l : Bool}
  (hhad : had = if off = 0 then [] else ((s.shd.bulkIn.find? fun x => x.1 == k).map (·.2)).getD [])
include hhad

theorem bulk_dropped (h : s.bulkTakes k = false ∨ had.length ≠ off) : s.bulk k off b l = s := by
  rw [← bulkIn_getD] at hhad
  subst hhad
  exact if_pos (h.imp_left fun hno => by rw [hno]; rfl)

/-- The next piece is acknowledged, and the last one completes its transfer (R550). -/
theorem bulk_inSequence (htakes : s.bulkTakes k = true) (hseq : had.length = off) {u : State}
    (hu : u = (s.mirror .bulkAck (k.code ++ [off + b.length]) []).raise 19) :
    s.bulk k off b l = if l then (u.setBulkIn k none).bulkWhole k (had ++ b) else u.setBulkIn k (some (had ++ b)) := by
  rw [← bulkIn_getD] at hhad
  subst hu hhad
  refine if_neg fun hdrop => hdrop.elim (fun hno => ?_) (· hseq)
  rw [htakes] at hno
  exact Bool.false_ne_true hno

end

theorem bulkAck_nil {s : State} (h : s.shd.bulk = []) (k : BulkKind) (off : Nat) : s.bulkAck k off = s := by
  simp only [State.bulkAck, h]

section
variable {s : State} {k : BulkKind} {off : Nat} {x : Bulk} {rest : List Bulk} (h : s.shd.bulk = x :: rest)
include h

theorem bulkAck_cons : s.bulkAck k off = if x.kind ≠ k ∨ off ≤ x.acked ∧ x.bytes.length ≠ off then s
    else if x.bytes.length ≤ off then ({ s with shd := { s.shd with bulk := rest } } : State).bulkDone x
    else ({ s with shd := { s.shd with bulk := { x with acked := off } :: rest } } : State).bulkNext := by
  simp only [State.bulkAck, h]

theorem bulkAck_ends (hkind : x.kind = k) (hwhole : x.bytes.length ≤ off) (hnew : x.acked < off ∨ x.bytes.length = off) :
    s.bulkAck k off = ({ s with shd := { s.shd with bulk := rest } } : State).bulkDone x :=
  (bulkAck_cons h).trans ((if_neg (by simp only [hkind, ne_eq, not_true, false_or]; omega)).trans (if_pos hwhole))

theorem bulkAck_moves (hkind : x.kind = k) (hpart : off < x.bytes.length) (hnew : x.acked < off) :
    s.bulkAck k off = ({ s with shd := { s.shd with bulk := { x with acked := off } :: rest } } : State).bulkNext :=
  (bulkAck_cons h).trans ((if_neg (by simp only [hkind, ne_eq, not_true, false_or]; omega)).trans
    (if_neg (Nat.not_le.mpr hpart)))

end

/-! ### The obligation -/

/-- Settles O35: a frame that is heard is its operation, taken apart at its checks. A transfer goes piece by piece (log entry
49), and a shadow that leaves during an activation finds both pointers rewritten (log entry 72). -/
theorem mirrorFramesDoTheirEffect : Obligations.MirrorFramesDoTheirEffect := by
  refine ⟨fun s a b n p r l fl ok es img rs k bs i hi => ?_, fun s hup hon => ?_⟩
  · obtain ⟨f, hrow⟩ := mirrorFrame_rx (s := s) hi
    refine ⟨fun hdeaf => hrow.trans (congrArg Host.Outcome.next (mirrorRx_deaf hdeaf ok f)), fun hup hon hbad => ?_⟩
    subst hbad
    exact hrow.trans (congrArg Host.Outcome.next (mirrorRx_badCrc hup hon f))
  have hear : ∀ (f : State → State) {u : State}, f s = u → (.next (s.mirrorRx true f) : Outcome) = .next u := fun f u hf =>
    congrArg Host.Outcome.next ((mirrorRx_on hup hon f).trans hf)
  refine ⟨fun n r l a b => ⟨fun hen => ?_, fun hen u known hknown hu => ?_⟩, fun n a b => ⟨fun r hr => ?_, fun hnone => ?_⟩,
    fun hnot n a b es img rs => ?_, fun hfollows => ⟨fun n u hu => ?_, fun n es => ⟨fun hmin hmax => ?_, fun hlen => ?_⟩,
      fun n a b img es c hes hc => ⟨fun hgood => ?_, fun hbad => ?_⟩, fun rs => ⟨fun hmin hmax u hu => ?_, fun hlen => ?_⟩⟩,
    fun hnot n l fl => ?_, fun hlog => ⟨fun n l u hu => ?_, fun n l => ⟨fun hother => ?_, fun c hcopy hnum hcommitted => ⟨?_, ?_⟩⟩,
      fun n log st w hl hst hw => ⟨fun h => ?_, fun h => ?_⟩⟩,
    fun n => ⟨fun h => ?_, fun h => ?_⟩, fun hrole => ?_, fun hrole hrel => ?_, fun hrole hrel u hsome hnone => ?_,
    fun k off b l had hhad => ⟨fun hdrop => ?_, fun htakes hseq u hu => ⟨?_, ?_⟩⟩,
    fun k off => ⟨fun hnil => ?_, fun x rest hcons => ⟨fun hno => ?_, fun hkind hwhole hnew => ?_, fun hkind hpart hnew => ?_⟩⟩⟩
  · exact hear (fun s => s.hello n r l a b) (hello_unpaired hen n r l a b)
  · have htaken : ∀ {w : State}, u.helloTaken r known = w → exec (.hello n r l a b true) s = .next w := fun hw =>
      hear (fun s => s.hello n r l a b) ((hello_paired hen hknown hu).trans hw)
    exact ⟨fun h => htaken (helloTaken_solo h), fun h => htaken (helloTaken_pairing h),
      fun h hcut => htaken ((helloTaken_active h).trans (if_pos hcut)),
      fun h hcut => htaken ((helloTaken_active h).trans (if_neg hcut)),
      fun hsolo hpairing hactive => htaken (helloTaken_other hsolo hpairing hactive)⟩
  · exact hear (fun s => s.renewAck n a b) (renewAck_outstanding hr)
  · exact hear (fun s => s.renewAck n a b) (renewAck_unknown hnone a b)
  · obtain ⟨hrenew, hlines, hcommit, hlogRx⟩ := follows_frames hnot n a b es img rs
    exact ⟨hear (fun s => s.renew n) hrenew, hear (fun s => s.lines n es) hlines, hear (fun s => s.commit n a b img) hcommit,
      hear (fun s => s.logRx rs) hlogRx⟩
  · exact hear (fun s => s.renew n) (renew_follows hfollows hu)
  · exact hear (fun s => s.lines n es) (lines_staged hfollows hmin hmax)
  · exact hear (fun s => s.lines n es) (lines_ignored hlen)
  · exact hear (fun s => s.commit n a b img) ((commit_follows hfollows hes hc).trans (if_pos hgood))
  · exact hear (fun s => s.commit n a b img) ((commit_follows hfollows hes hc).trans (if_neg hbad))
  · exact hear (fun s => s.logRx rs) (logRx_held hfollows hmin hmax hu)
  · exact hear (fun s => s.logRx rs) (logRx_ignored hlen)
  · obtain ⟨hcopy, hack⟩ := logging_frames hnot n l fl
    exact ⟨hear (fun s => s.copyAck n l fl) hcopy, hear (fun s => s.logAck n) hack⟩
  · exact hear (fun s => s.copyAck n l true) (copyAck_flash hlog l hu)
  · exact hear (fun s => s.copyAck n l false) (copyAck_other hlog l hother)
  · exact hear (fun s => s.copyAck n false false) ((copyAck_inProgress hlog false hcopy hnum hcommitted).trans
      (if_neg Bool.false_ne_true))
  · exact hear (fun s => s.copyAck n true false) ((copyAck_inProgress hlog true hcopy hnum hcommitted).trans (if_pos rfl))
  · exact hear (fun s => s.logAck n) (logAck_stalls hlog hl hst h)
  · exact hear (fun s => s.logAck n) (logAck_sends hlog hl hst h hw)
  · exact hear (fun s => s.releaseRx n) (if_pos h)
  · exact hear (fun s => s.releaseRx n) (if_neg h)
  · exact hear State.leaveRx (if_pos hrole)
  · exact hear State.leaveRx (leaveRx_releasing hrole hrel)
  · exact hear State.leaveRx (leaveRx_leaves hrole hrel hsome hnone)
  · exact hear (fun s => s.bulk k off b l) (bulk_dropped hhad hdrop)
  · exact hear (fun s => s.bulk k off b true) ((bulk_inSequence hhad htakes hseq hu).trans (if_pos rfl))
  · exact hear (fun s => s.bulk k off b false) ((bulk_inSequence hhad htakes hseq hu).trans (if_neg Bool.false_ne_true))
  · exact hear (fun s => s.bulkAck k off) (bulkAck_nil hnil k off)
  · exact hear (fun s => s.bulkAck k off) ((bulkAck_cons hcons).trans (if_pos hno))
  · exact hear (fun s => s.bulkAck k off) (bulkAck_ends hcons hkind hwhole hnew)
  · exact hear (fun s => s.bulkAck k off) (bulkAck_moves hcons hkind hpart hnew)

end Sys2Proof.Machine
end
